-- ==== Sys2Proof/Word.lean ====
section
/-! DEFINITION. The words of the register space: 32-bit management words and the 8-bit bytes of the addressed
memories (spec/00, section Registers). -/
namespace Sys2Proof

/-- A management word: every register and every management access is 32 bits wide (R6). -/
abbrev Word := BitVec 32

/-- A byte of a tightly coupled memory, a scratchpad bank, the flash or a message. -/
abbrev Byte := BitVec 8

end Sys2Proof
end

