-- ==== Sys2Proof/Config.lean ====
section
/-! DEFINITION. What an implementation fixes and what the spec leaves open: constants without a body, so that nothing can
be proved of their values. Each is named in a log entry. -/
namespace Sys2Proof.Config

/-- A value the spec leaves open, one for each use (log entry 5). -/
opaque freeValue : Nat → BitVec 256

/-- A choice the spec leaves open, one for each use (log entry 5). -/
opaque freeChoice : Nat → Bool

/-! ### Real arithmetic (log entry 7) -/

/-- Whether a real quantity that is not whole is rounded up to a register's unit. Log entry 7 DESIGN CHOICE. -/
opaque roundUp : ℚ → Bool

/-- The argument of the complex number 0, and the logarithm of a number that is not above 0, which no rule states.
Log entry 7 DESIGN CHOICE. -/
opaque argZero : ℚ
opaque lnZero : ℚ

/-- The tap a linear interpolation takes beyond its first and last point, from the tone and the two end values; the spec
gives none (log entry 17). -/
opaque edge : Nat → ℚ → ℚ → ℚ

/-- Filter responses that the spec bounds and does not give (log entry 170): tap t of a 9-tap delay by a number of samples
(R132, R182); the channeliser's arm and the seam filter bank's analysis and synthesis, by the distance in full-rate samples
(R136, R137); and the skew of a path in ps that the phase slope of its mirror tones, in rad
per GHz, stands for (R133). -/
opaque delayTap : ℚ → Nat → ℚ
opaque armResponse : ℚ → ℚ
opaque seamAnalysis : ℚ → ℚ
opaque seamSynthesis : ℚ → ℚ
opaque pathSkew : Nat → ℚ → ℚ

/-- The smoothing of a joint-phase correction's size (R153), which the spec does not give (log entry 18). -/
opaque smooth : ℚ → ℚ → ℚ

/-- The second-order timing loop of R139: rate and phase after an error, with the bandwidth given and the gains not (log
entry 18). -/
opaque timingRate : ℚ → ℚ → ℚ
opaque timingPhase : ℚ → ℚ → ℚ → ℚ

/-- ROM filters of the watch chain, whose coefficients the spec does not give (log entry 60): tap `t` of FIR response `r`;
coefficient `k` of section `j` of a cascade, in the order b0, b1, b2, a1, a2; tap `t` of the resampler's filter at a phase. -/
opaque firTap : Nat → Nat → Int
opaque biquad : Nat → Nat → Nat → Int
opaque interpolate : Nat → Nat → Int

/-- Whether a product or shift that lies halfway between two results rounds up; the spec says round to nearest and gives no
rule for ties (log entry 61). -/
opaque tieUp : Int → Nat → Bool

/-- The power of α that is the first root of the pair line's Reed-Solomon generator (log entry 64). -/
opaque rsFirst : Nat

/-- The spectrum that the pair-line modem sends at 0 dBm, in dBm/Hz: by K, the taps of PLM_TX_FIR and the frequency in 10 kHz; the
spec does not give the shape of a symbol (log entry 175). -/
opaque plmPsd : Nat → List Int → Nat → ℚ

/-- The order in which the image with a given digest hands the working cells of a type to the rows of R70; the layout of the
CELL_MAP section is not in the spec (log entry 67). -/
opaque cellOrder : Nat → Nat → Nat → List Nat

/-- The contents of image sections whose layout is not in the spec (log entry 73): the register writes of REG_INIT in order,
the register writes that the PLAN section stands for, and the words of the two limit registers from CAL_LIMITS. -/
opaque regInit : List Byte → List (Nat × Nat)
opaque planWrites : List Byte → List (Nat × Nat)
opaque calLimits : List Byte → Nat × Nat

end Sys2Proof.Config
end

