-- ==== Sys2Proof/Machine/Arith.lean ====
section
/-! DEFINITION. The real arithmetic that the signal chapters are written with: roots, angles, exponentials and logarithms to
96 binary places, and the rounding of a real quantity to a register's unit. The spec states the values and no precision of
the arithmetic that forms them. Log entry 7 DESIGN CHOICE. -/
namespace Sys2Proof.Machine.Arith
open Sys2Proof

/-- A quantity cut to 96 binary places. -/
def snap (x : ℚ) : ℚ := (x * 2 ^ 96).floor / 2 ^ 96

/-- A real quantity in a register's unit: itself where it is whole, else one of the two whole numbers beside it. The spec
gives resolutions and no rounding. Log entry 7 DESIGN CHOICE. -/
def round (x : ℚ) : Int := if x = x.floor ∨ !Config.roundUp x then x.floor else x.floor + 1

/-! ### Roots -/

/-- The largest number at most `r + 2^k - 1` whose square is at most n, bit by bit from bit k − 1. -/
def rootFrom (n : Nat) : Nat → Nat → Nat
  | 0, r => r
  | k + 1, r => rootFrom n k (if (r + 2 ^ k) * (r + 2 ^ k) ≤ n then r + 2 ^ k else r)

/-- The whole part of the square root of a number. -/
def isqrt (n : Nat) : Nat := rootFrom n (n.log2 / 2 + 1) 0

/-- Square root; 0 of a negative number, which no rule takes. -/
def sqrt (x : ℚ) : ℚ := (isqrt (x * 4 ^ 96).floor.toNat : ℚ) / 2 ^ 96

/-! ### Angles, in radians -/

/-- The circle constant. -/
def pi : ℚ := 314159265358979323846264338327950288419716939937510 / 100000000000000000000000000000000000000000000000000

/-- 1 − z / (a (a + 1)) (1 − z / ((a + 2) (a + 3)) (…)): the series of cosine from a = 1, of sine from a = 2. -/
def circular (z : ℚ) : Nat → Nat → ℚ
  | 0, _ => 1
  | n + 1, a => snap (1 - z * circular z n (a + 2) / ((a * (a + 1) : Nat) : ℚ))

/-- An angle brought to −π up to π. -/
def wrap (x : ℚ) : ℚ := snap (x - 2 * pi * ((x / (2 * pi) + 1 / 2).floor : ℚ))

def cos (x : ℚ) : ℚ := circular (wrap x * wrap x) 32 1
def sin (x : ℚ) : ℚ := wrap x * circular (wrap x * wrap x) 32 2

/-- 1/a − z (1/(a + 2) − z (…)): the series of the arc tangent over its argument from a = 1, z its square. -/
def arcSeries (z : ℚ) : Nat → Nat → ℚ
  | 0, _ => 0
  | n + 1, a => snap (1 / (a : ℚ) - z * arcSeries z n (a + 2))

/-- The tangent of half the angle whose tangent is t. -/
def halfTan (t : ℚ) : ℚ := snap (t / (1 + sqrt (1 + t * t)))

/-- Arc tangent of a number of size at most 1. -/
def atan (t : ℚ) : ℚ :=
  let u := halfTan (halfTan t)
  4 * u * arcSeries (u * u) 40 1

/-- Argument of a complex number, above −π up to π; that of 0 is free (log entry 7). -/
def arg (re im : ℚ) : ℚ :=
  if re = 0 ∧ im = 0 then Config.argZero
  else if |im| ≤ |re| then atan (im / re) + (if 0 ≤ re then 0 else if im < 0 then -pi else pi)
  else (if im < 0 then -pi else pi) / 2 - atan (re / im)

/-! ### Exponentials and logarithms -/

/-- Natural logarithms of 2 and 10. -/
def ln2 : ℚ := 693147180559945309417232121458176568075500134360255 / 1000000000000000000000000000000000000000000000000000
def ln10 : ℚ := 230258509299404568401799145468436420760110148862877 / 100000000000000000000000000000000000000000000000000

/-- 1 + x / a (1 + x / (a + 1) (…)). -/
def expSeries (x : ℚ) : Nat → Nat → ℚ
  | 0, _ => 1
  | n + 1, a => snap (1 + x * expSeries x n (a + 1) / (a : ℚ))

/-- Natural exponential. -/
def exp (x : ℚ) : ℚ :=
  let n := (x / ln2).floor
  expSeries (snap (x - n * ln2)) 40 1 * (if 0 ≤ n then 2 ^ n.toNat else 1 / 2 ^ (-n).toNat)

/-- 1/a + z (1/(a + 2) + z (…)): half the logarithm of (1 + y) / (1 − y) over y from a = 1, z the square of y. -/
def logSeries (z : ℚ) : Nat → Nat → ℚ
  | 0, _ => 0
  | n + 1, a => snap (1 / (a : ℚ) + z * logSeries z n (a + 2))

/-- The power of 2 that brings a positive number into 1/2 up to 4. -/
def binade (x : ℚ) : Int := (x.num.natAbs.log2 : Int) - (x.den.log2 : Int)

/-- Natural logarithm; that of a number not above 0 is free (log entry 7). -/
def ln (x : ℚ) : ℚ :=
  if x ≤ 0 then Config.lnZero
  else
    let n := binade x
    let m := if 0 ≤ n then x / 2 ^ n.toNat else x * 2 ^ (-n).toNat
    let y := snap ((m - 1) / (m + 1))
    n * ln2 + 2 * y * logSeries (y * y) 80 1

/-- Logarithms to base 10 and to base 2. -/
def log10 (x : ℚ) : ℚ := ln x / ln10
def log2 (x : ℚ) : ℚ := ln x / ln2

end Sys2Proof.Machine.Arith
end

