-- ==== Sys2Proof/Machine/Cpx.lean ====
section
/-! DEFINITION. Complex numbers over the rationals, 2×2 matrices of them and discrete Fourier transforms: the arithmetic
the receive path is written with (spec/05). Angles and roots are those of Arith (log entry 7). -/
namespace Sys2Proof.Machine
open Sys2Proof

/-- A complex number. -/
structure Cpx where
  re : ℚ := 0
  im : ℚ := 0
deriving DecidableEq, Repr

namespace Cpx

def one : Cpx := { re := 1 }
def ofRat (x : ℚ) : Cpx := { re := x }
def add (a b : Cpx) : Cpx := { re := a.re + b.re, im := a.im + b.im }
def sub (a b : Cpx) : Cpx := { re := a.re - b.re, im := a.im - b.im }
def mul (a b : Cpx) : Cpx := { re := a.re * b.re - a.im * b.im, im := a.re * b.im + a.im * b.re }
def conj (a : Cpx) : Cpx := { re := a.re, im := -a.im }
def smul (k : ℚ) (a : Cpx) : Cpx := { re := k * a.re, im := k * a.im }

/-- Squared magnitude. -/
def abs2 (a : Cpx) : ℚ := a.re * a.re + a.im * a.im

/-- Magnitude. -/
def abs (a : Cpx) : ℚ := Arith.sqrt a.abs2

/-- Argument, in radians. -/
def arg (a : Cpx) : ℚ := Arith.arg a.re a.im

/-- Quotient. -/
def div (a b : Cpx) : Cpx := smul (1 / b.abs2) (a.mul b.conj)

/-- e^{jφ}. -/
def expj (phi : ℚ) : Cpx := { re := Arith.cos phi, im := Arith.sin phi }

/-- A square root: half the argument, root of the magnitude. -/
def sqrt (a : Cpx) : Cpx := smul (Arith.sqrt a.abs) (expj (a.arg / 2))

/-- The sum of a list. -/
def sum (xs : List Cpx) : Cpx := xs.foldl add {}

end Cpx

/-- The two polarisations of a sample or tone. -/
structure Vec2 where
  x : Cpx := {}
  y : Cpx := {}
deriving DecidableEq, Repr

/-- A 2×2 complex matrix, row by row. -/
structure Mat2 where
  a : Cpx := {}
  b : Cpx := {}
  c : Cpx := {}
  d : Cpx := {}
deriving DecidableEq, Repr

namespace Mat2

def id : Mat2 := { a := Cpx.one, d := Cpx.one }
def add (m n : Mat2) : Mat2 := { a := m.a.add n.a, b := m.b.add n.b, c := m.c.add n.c, d := m.d.add n.d }
def sub (m n : Mat2) : Mat2 := { a := m.a.sub n.a, b := m.b.sub n.b, c := m.c.sub n.c, d := m.d.sub n.d }
def smul (k : ℚ) (m : Mat2) : Mat2 := { a := m.a.smul k, b := m.b.smul k, c := m.c.smul k, d := m.d.smul k }

/-- Every element times a complex number. -/
def scale (k : Cpx) (m : Mat2) : Mat2 := { a := k.mul m.a, b := k.mul m.b, c := k.mul m.c, d := k.mul m.d }

def mul (m n : Mat2) : Mat2 :=
  { a := (m.a.mul n.a).add (m.b.mul n.c), b := (m.a.mul n.b).add (m.b.mul n.d),
    c := (m.c.mul n.a).add (m.d.mul n.c), d := (m.c.mul n.b).add (m.d.mul n.d) }

/-- Conjugate transpose. -/
def herm (m : Mat2) : Mat2 := { a := m.a.conj, b := m.c.conj, c := m.b.conj, d := m.d.conj }

def det (m : Mat2) : Cpx := (m.a.mul m.d).sub (m.b.mul m.c)
def trace (m : Mat2) : Cpx := m.a.add m.d

def inv (m : Mat2) : Mat2 :=
  { a := m.d.div m.det, b := (Cpx.smul (-1) m.b).div m.det, c := (Cpx.smul (-1) m.c).div m.det, d := m.a.div m.det }

/-- A matrix times a vector. -/
def apply (m : Mat2) (v : Vec2) : Vec2 :=
  { x := (m.a.mul v.x).add (m.b.mul v.y), y := (m.c.mul v.x).add (m.d.mul v.y) }

/-- Squared Frobenius norm. -/
def frob2 (m : Mat2) : ℚ := m.a.abs2 + m.b.abs2 + m.c.abs2 + m.d.abs2

/-- The difference of the two eigenvalues, up to sign. -/
def eigenGap (m : Mat2) : Cpx :=
  (((m.trace.mul m.trace).sub (m.det.smul 4))).sqrt

/-- The ratio of the larger to the smaller singular value. -/
def singularRatio (m : Mat2) : ℚ :=
  let t := m.frob2
  let r := Arith.sqrt (t * t - 4 * m.det.abs2)
  Arith.sqrt ((t + r) / (t - r))

/-- u × v^H for two vectors. -/
def outer (u v : Vec2) : Mat2 :=
  { a := u.x.mul v.x.conj, b := u.x.mul v.y.conj, c := u.y.mul v.x.conj, d := u.y.mul v.y.conj }

end Mat2

/-- DFT bin `k` of a list of samples, the length given. -/
def dftBin (n k : Nat) (xs : List Cpx) : Cpx :=
  Cpx.sum (xs.zipIdx.map fun p => p.1.mul (Cpx.expj (-2 * Arith.pi * (((k * p.2) % n : Nat) : ℚ) / (n : ℚ))))

/-- The DFT of a list of samples, bins 0 to n − 1. -/
def dft (xs : List Cpx) : List Cpx := (List.range xs.length).map fun k => dftBin xs.length k xs

/-- The inverse DFT. -/
def idft (xs : List Cpx) : List Cpx :=
  let n := xs.length
  (List.range n).map fun k => (dftBin n (n - k) xs).smul (1 / (n : ℚ))

/-- Both polarisations' DFT. -/
def dft2 (xs : List Vec2) : List Vec2 :=
  ((dft (xs.map Vec2.x)).zip (dft (xs.map Vec2.y))).map fun p => { x := p.1, y := p.2 }

/-- Both polarisations' inverse DFT. -/
def idft2 (xs : List Vec2) : List Vec2 :=
  ((idft (xs.map Vec2.x)).zip (idft (xs.map Vec2.y))).map fun p => { x := p.1, y := p.2 }

/-- Bins in DFT order (0 to n − 1) put in frequency order, lowest first, as R140 numbers tones; and back. -/
def byFreq {α : Type} (xs : List α) : List α := xs.drop (xs.length / 2) ++ xs.take (xs.length / 2)

end Sys2Proof.Machine
end

