-- ==== Sys2Proof/Syntax.lean ====
section
/-! DEFINITION. The commands of the block: one constructor of `Instr` for each row of spec/opcode_table.json, with the
operands its rule gives it. What the outside world measures or sends (samples, messages, levels, results) comes as an
operand; what the package itself holds is in the state. -/
namespace Sys2Proof
open Machine

/-! ### Operand types -/

/-- A management path (R56, R61): SPI, in-band over a host lane, or the pair line. -/
inductive Path where
  | spi
  | inband
  | pairLine
deriving DecidableEq, Repr

/-- The two message paths of R61. -/
inductive RemotePath where
  | inband
  | pairLine
deriving DecidableEq, Repr

/-- Who makes a register access: a management path, or engine firmware of a die (R4, R304). -/
inductive Origin where
  | path (p : Path)
  | firmware (die : Fin 8)
deriving DecidableEq, Repr

/-- A mask register of the interrupt tree (R65): the package's, the FAULT_N mask, the GPIO event mask, a die's summary
mask, the event mask of a die's block, or the two further masks of WCH. -/
inductive MaskReg where
  | pkgIrq
  | pkgFault
  | gpio
  | dieIrq (die : Fin 8)
  | block (die : Fin 8) (blk : Fin 26)
  | wchStat (die : Fin 8)
  | wchCfgErr (die : Fin 8)
deriving DecidableEq, Repr

/-- A failed cell that self-test found: its type (0 FFT to 5 polyphase, as `IMG_CELL_REMAP_k.TYPE` codes it) and its
physical index (R72, R410). -/
structure CellId where
  type  : Fin 6
  index : Fin 4096
deriving DecidableEq, Repr

/-- What a die's self-test found (R410). -/
structure SelfTestResult where
  rootOk     : Bool
  ringOk     : Bool
  fabricOk   : Bool
  cluster0Ok : Bool
  banksOk    : Bool
  failed     : List CellId
deriving DecidableEq, Repr

/-- A die's answer to a heartbeat (R50, R85, R348): the starting mark, the parked mark, or the die's own time count as it
took it when the heartbeat reached it, before the hop correction. The digest and the epoch it carries are the die's own
registers. -/
inductive HbAnswer where
  | starting
  | parked
  | values (mf sf tick : Nat)
deriving DecidableEq, Repr

/-- What asks for a planned handover (R47): a write of HANDOVER with its TARGET, or a die reset aimed at the crown. -/
inductive HandoverReq where
  | write (target : Fin 8)
  | dieReset
deriving DecidableEq, Repr

/-- A fault as reported on the ring or logged (R430, R434). -/
structure FaultRec where
  level  : Fin 5
  cls    : Fin 4
  code   : Fin 256
  block  : Fin 256
  unit   : Fin 256
  detail : Fin 65536
deriving DecidableEq, Repr

/-- The values a foreground pass found (R116): words of the coefficient window by word index (0 to 667, as R111 lays the
window out), and the path skews as the registers code them. -/
structure FgResult where
  words  : List (Fin 668 × Word)
  rxSkew : Word
  txSkew : Word
deriving DecidableEq, Repr

/-- One background estimate (R117 to R119): which converter, sub-converter or sub-DAC and term, the estimate in the
term's unit of R109, whether the term meets its accuracy, whether the input was below 1/16 of full scale, and how many
samples of the ADC were at a code limit. -/
structure BgEstimate where
  dac      : Bool
  conv     : Fin 4
  sub      : Fin 64
  term     : Fin 4
  value    : Int
  accurate : Bool
  low      : Bool
  clips    : Nat
deriving DecidableEq, Repr

/-- One sample instant of the four line ADCs: the raw codes, in two's complement (R102). -/
structure AdcWord where
  xi : BitVec 8
  xq : BitVec 8
  yi : BitVec 8
  yq : BitVec 8
deriving DecidableEq, Repr

/-- A run of raw ADC samples of a die: the full-rate number of the first that is corrected, and the codes, which begin with
the sample before it (R108). -/
structure RawSlice where
  start : Nat
  codes : List AdcWord
deriving DecidableEq, Repr

/-- The statistics of the digital front end over a multiframe (R133): the samples i and q of each polarisation, and the
correlation of each pair of mirror tones ±f, f in GHz. -/
structure DfeStats where
  x : List (ℚ × ℚ)
  y : List (ℚ × ℚ)
  mirrorX : List (ℚ × Cpx)
  mirrorY : List (ℚ × Cpx)
deriving DecidableEq, Repr

/-- What an FDE block is formed from (R130): the raw samples of the die over the block, and for a boundary arm the samples
of the neighbour's seam tones, tone by tone, as they came over the bridge (R137). -/
structure FdeIn where
  raw  : RawSlice
  mate : List (List Vec2)
deriving DecidableEq, Repr

/-- Where the symbols that an FDE block delivers lie (R145): superframe number and period of the first, and the carrier
phase θ of each. -/
structure FdeAt where
  sf    : Fin 256
  first : Fin 65536
  theta : List ℚ
deriving DecidableEq, Repr

/-- One subcarrier's part of a pilot interval (R150, R155): the superframe and the pilot that the interval begins with, its
32 symbols from the FDE, and the payload symbols of the interval just resolved with BPS_HALFWIN symbols of context on
each side. -/
structure PilotSc where
  sc      : Fin 8
  sf      : Fin 256
  pilot   : Fin 2048
  ys      : List Vec2
  payload : List Vec2
deriving DecidableEq, Repr

/-- The aggregate of a remote group as the side channel carries it (R152): its die, its half (0: local 0 to 3, 1: local 4 to
7), the side it comes from (true: the upper one), and Z as 8-bit values with their exponent. -/
structure RemoteSum where
  die  : Fin 8
  half : Fin 2
  hi   : Bool
  i    : BitVec 8
  q    : BitVec 8
  exp  : Fin 16
deriving DecidableEq, Repr

/-- One seam tone over a superframe (R157): its samples as the die and as the neighbour see them. -/
structure SeamObs where
  own  : List Vec2
  mate : List Vec2
deriving DecidableEq, Repr

/-- A matcher block of a quality window whose stream bits the FEC has decoded (R165, R210): whether all of them belong to
converged codewords, the decoded bits, matcher bits before sign bits, and the label LLRs of each amplitude position. -/
structure QBlock where
  converged : Bool
  bits      : List Bool
  labels    : List (List Int)
deriving DecidableEq, Repr

/-- What a subcarrier received in a quality window (R165): the pilot and training symbols with their known values, known
first; the payload symbols after carrier recovery, each with whether it lies in the short last matcher block of its
multiframe; its matcher blocks. -/
structure QSums where
  sc      : Fin 8
  known   : List (Vec2 × Vec2)
  payload : List (Bool × Vec2)
  blocks  : List QBlock
deriving DecidableEq, Repr

/-- The check of one candidate of an arm in a superframe (R228): its period, the received FAS symbols and the header that
follows them. -/
structure CandCheck where
  pos    : Fin 65536
  fas    : List Vec2
  header : List Vec2
deriving DecidableEq, Repr

/-- What the deinterleaver holds when it releases a bulk codeword (R195): the LLRs of an interleaver block in stream order,
and which of its four codewords leaves. -/
structure BlockOut where
  block : List Int
  index : Fin 4
deriving DecidableEq, Repr

/-- What an express codeword is taken from (R196): by block time, the LLRs of the matcher blocks of each express subcarrier,
X then Y, and the bits of the stripe that belong to earlier codewords. -/
structure Stripe where
  times  : List (List (Fin 8 × List Int × List Int))
  offset : Nat
deriving DecidableEq, Repr

/-- A superframe that a die sends (R214): its number, the full-rate number of its first DAC sample, the samples of it that go
out, for the last 16 multiframes the FAS arrivals in ps on local subcarrier 0 of the die and on local subcarrier 7 of the die
below (R226), and RX_MFC of the TIME record with the time-of-day in 2^−16 ns at which that multiframe arrived on the
selected subcarrier (R246). -/
structure TxFrame where
  sf      : Fin 256
  start   : Nat
  first   : Nat
  count   : Nat
  skews   : List (ℚ × ℚ)
  tRx     : Nat
  rxMfc   : Word
deriving DecidableEq, Repr

/-- SCR and KIND of a STREAM record (R223). -/
structure StreamTail where
  scr  : Word
  kind : BitVec 8
deriving DecidableEq, Repr

/-- What a group timestamps (R298): an Ethernet event message by its carriage, or a trunk TS_MARK. -/
inductive TsKind where
  | l2
  | udp4
  | udp6
  | mark
deriving DecidableEq, Repr

/-- A memory of a die: the tightly coupled memory of an engine, or a scratchpad bank. -/
inductive MemId where
  | tcm (e : Fin 64)
  | bank (b : Fin 256)
deriving DecidableEq, Repr

/-- Who accesses a memory (R309): an engine, the DMA channel of a cluster, management, or a datapath block by its slot. -/
inductive MemReq where
  | engine (e : Fin 64)
  | dma (c : Fin 8)
  | mgmt
  | block (k : Fin 26)
deriving DecidableEq, Repr

/-- The state of a stored word under its code (R317): a single-bit error, an uncorrectable error, or the poison pattern.
Log entry 46 DESIGN CHOICE. -/
inductive WordErr where
  | single
  | double
  | poison
deriving DecidableEq, Repr

/-- One access at a bank port: a 64-bit word or a whole row of 4 words; a write of a word names its byte lanes. -/
inductive BankOp where
  | read
  | readRow
  | write (lanes : Fin 256) (data : BitVec 64)
  | writeRow (d0 d1 d2 d3 : BitVec 64)
deriving DecidableEq, Repr

/-- One end of a DMA copy (R311): a memory and a byte offset in it. -/
structure DmaEnd where
  mem : MemId
  off : Fin 131072
deriving DecidableEq, Repr

/-- What a monitor sees of a reference slot in a second (R355): its frequency against REFXO in 0.1 ppb when it was
measured, its phase error against the DPLL in ps, and whether its edges or results kept coming. For a LINE slot frequency and
phase come from the time-transfer results (R353) instead. -/
structure RefSample where
  slot  : Fin 16
  freq  : Int
  phase : Int
  alive : Bool
deriving DecidableEq, Repr

/-- Symbols of the pair-line receiver over a measurement (R401): the decided symbols and the slicer inputs. -/
structure PlmSymbols where
  decided : List ℚ
  slicer  : List ℚ
deriving DecidableEq, Repr

/-- What a training of the pair-line modem finds (R400, R403): the peer's NODE_ID, whether the peer ran the other role,
the own receive SNR in 0.1 dB for each K, the net rate in kb/s that the peer predicts for each K, the K the exchange sent,
the symbols from which the receiver measures its SNR and EVM, the profile the peer selected for its receive direction
(constellation × 2 + code), the echo return loss enhancement in 0.1 dB, and the steps of 0.1 dB that the mask takes off the
level. -/
structure PlmProbe where
  peer      : BitVec 64
  otherRole : Bool
  snrs      : List (Fin 128 × Int)
  farRates  : List (Fin 128 × Nat)
  sentK     : Fin 128
  symbols   : PlmSymbols
  farSelect : Fin 8
  erle      : Fin 65536
deriving DecidableEq, Repr

/-- Why the pair-line link goes down (R403). -/
inductive PlmDown where
  | margin
  | uncorrectable
  | noSignal
deriving DecidableEq, Repr

/-- Why an SPI frame is not executed (R57): its CRC failed, its opcode is outside R56, or its length was not 80 clocks. -/
inductive SpiBad where
  | crc (addr : Word)
  | opcode (op : Fin 256) (addr : Word)
  | length
deriving DecidableEq, Repr

/-- Why a team is rebased without a write (R428): the far end announced epoch 0, or LOF lasted RECOVER on every arm. -/
inductive RebaseCause where
  | farEpoch0
  | lof
deriving DecidableEq, Repr

/-- A supply rail of R449. -/
inductive Rail where
  | root
  | io
  | core
  | ret
  | cnv
  | hl
deriving DecidableEq, Repr

/-- What a sender sends, and with it which dies will not answer an access of it within 10 µs (bit n for die n, R59). -/
structure Sent (α : Type) where
  value : α
  silent : BitVec 8
deriving DecidableEq, Repr

/-- A frame of the ring as it arrives: from the clockwise neighbour or the other, and its bytes (R48). -/
structure RingFrame where
  cw : Bool
  frame : List Byte
deriving DecidableEq, Repr

/-- A command to the package: a row of spec/opcode_table.json. -/
inductive Instr where
  /-- `REGISTER_WRITE` (R8): Management or firmware write to a register field that has no row of its own, stored or ignored according to its access type. -/
  | registerWrite (src : Origin) (addr : Word) (data : Word)
  /-- `RC_READ` (R8): A read of an RC field returns the stored value and then clears it, except at the staged view. -/
  | rcRead (src : Origin) (addr : Word)
  /-- `SUMMARY_W1C_WRITE` (R65): A host write of 1 to a summary status bit clears it only if the level below has no enabled bit set. -/
  | summaryW1cWrite (die : Option (Fin 8)) (bits : Word)
  /-- `IRQ_MASK_WRITE` (R65): A write of a mask bit re-evaluates the summary above it and the IRQ_N and FAULT_N pins. -/
  | irqMaskWrite (reg : MaskReg) (data : Word)
  /-- `POWER_ON_RESET` (R13): VDD_ROOT rises or falls below its threshold and the whole package is reset, keeping only OTP and flash. -/
  | powerOnReset
  /-- `POR_RELEASE` (R448): Every rail has been above its rising threshold for 2 ms, POR releases and the cold start begins if RESET_N is high. -/
  | porRelease (resetN : Bool)
  /-- `RESET_N_PULSE` (R450): A low pulse on RESET_N of at least 1 us causes a package reset, and its rising edge starts the cold start. -/
  | resetNPulse (ns : Nat)
  /-- `PACKAGE_RESET` (R13): A package reset command from the host resets all dies and package registers, then runs a full cold start. -/
  | packageReset
  /-- `DIE_RESET` (R13): A die reset command from the host or the crown resets one die outside its root domain, and the die leaves its team. -/
  | dieReset (die : Fin 8) (byCrown : Bool)
  /-- `BLOCK_RESET` (R15): A block's reset control is written, and the block first applies its disable rule to any work in flight. -/
  | blockReset (die : Fin 8) (blk : Fin 26) (work : Nat) (now : Nat)
  /-- `BLOCK_RESET_EFFECT` (R15): The block reports idle or its drain limit expires, and the block reset takes effect. -/
  | blockResetEffect (die : Fin 8) (blk : Fin 26)
  /-- `MEMBER_LOST_DECLARE` (R33): The crown marks the departed die absent, sets MEMBER_LOST, logs the loss and raises the interrupt. -/
  | memberLostDeclare (die : Fin 8)
  /-- `ABSENCE_CHANGE_START` (R33): At the next multiframe boundary the crown starts a plan-epoch change that marks the departed slice absent. -/
  | absenceChangeStart (team : Fin 8)
  /-- `REJOIN_REQUEST` (R37): The host writes REJOIN_REQ to ask that a departed die rejoin once it meets the rejoin conditions. -/
  | rejoinRequest (dies : BitVec 8)
  /-- `REJOIN_START` (R37): A departed die meets the rejoin conditions and the crown brings its slice back at base-camp format. -/
  | rejoinStart (die : Fin 8)
  /-- `SELFTEST` (R410): A die finishes its self-test of fabric, ring endpoint, cell pool and engine clusters and publishes the result. -/
  | selftest (die : Fin 8) (result : SelfTestResult)
  /-- `CROWN_ELECTION` (R41): Once self-test results are on the ring, the lowest-indexed passing die becomes crown, and a failed die is quarantined. -/
  | crownElection
  /-- `CROWN_WATCHDOG_EXPIRY` (R42): The crown watchdog has not been refreshed for 4 ms, so the root domain releases the token and tristates the shared outputs. -/
  | crownWatchdogExpiry
  /-- `HEARTBEAT_SEND` (R48): Once per multiframe the crown sends a HEARTBEAT with its agreement values and DPLL history. -/
  | heartbeatSend
  /-- `HEARTBEAT` (R49): A die receives a HEARTBEAT, tracks the ring directions and answers with HB_ANSWER. -/
  | heartbeat (die : Fin 8) (cw : Bool) (ccw : Bool)
  /-- `HB_ANSWER` (R50): The crown receives a die's answer and compares it under the agreement rules. -/
  | hbAnswer (die : Fin 8) (ans : HbAnswer) (cw : Bool) (ccw : Bool)
  /-- `NO_ANSWER_TIMEOUT` (R50): A die still gives no answer 100 ms after the crown's die reset and is quarantined with NO_ANSWER. -/
  | noAnswerTimeout (die : Fin 8)
  /-- `CROWN_CLAIM` (R45): At token release plus rank times 1 ms an eligible die finds the token free, takes it and sends CLAIM. -/
  | crownClaim (die : Fin 8)
  /-- `CLAIM` (R45): A die receives a CLAIM, stands down if its rank is higher, and acknowledges. -/
  | claim (die : Fin 8)
  /-- `CLAIM_ACK` (R45): The claiming die receives acknowledgements and becomes ring master. -/
  | claimAck (die : Fin 8)
  /-- `TAKEOVER_COMPLETE` (R45): The new crown restores the endpoint and flash loader, rebuilds the summary, raises READY, sets TAKEOVER and logs it. -/
  | takeoverComplete
  /-- `CROWN_STUCK` (R46): The token has been held with no heartbeat for 40 ms, so each die sets CROWN_STUCK and holds FAULT_N low. -/
  | crownStuck
  /-- `HANDOVER` (R47): A HANDOVER write or a die reset aimed at the crown requests a planned handover to TARGET or the standby. -/
  | handover (req : HandoverReq)
  /-- `HANDOVER_RELEASE` (R47): At the next multiframe boundary with no transaction open, the crown releases the token and the target claims it. -/
  | handoverRelease
  /-- `REG_REQ` (R48): A target die receives a forwarded register access over the ring and executes it. -/
  | regReq
  /-- `REG_RSP` (R48): The crown receives the result of a forwarded register access and completes the access. -/
  | regRsp
  /-- `IRQ_SUM` (R66): The crown receives a die interrupt summary and updates the package summary. -/
  | irqSum (die : Fin 8)
  /-- `FAULT` (R48): The crown receives a fault report from a die for its fault log. -/
  | fault (die : Fin 8) (rec : FaultRec)
  /-- `QUAR_REQ` (R50): The host writes QUAR_REQ and the named die is quarantined with cause HOST. -/
  | quarReq (dies : BitVec 8)
  /-- `QUAR_RELEASE` (R53): The host writes RELEASE to start a release attempt for a quarantined die. -/
  | quarRelease (dies : BitVec 8)
  /-- `BROADCAST_WRITE` (R55): A write to a broadcast alias is applied by every die in scope that is neither quarantined nor parked. -/
  | broadcastWrite (src : Origin) (addr : Word) (data : Sent Word)
  /-- `SPI_NOP` (R58): A NOP SPI frame returns the status of the previous access and is never discarded. -/
  | spiNop (addr : Word)
  /-- `SPI_READ` (R56): A READ SPI frame starts a register read, whose result comes back in the next frame. -/
  | spiRead (addr : Word)
  /-- `SPI_WRITE` (R56): A WRITE SPI frame starts a register write, whose status comes back in the next frame. -/
  | spiWrite (addr : Word) (data : Word)
  /-- `ACCESS_TIMEOUT` (R59): A target die has not answered within 10 us, so the access completes with an error and TIMEOUT is set. -/
  | accessTimeout
  /-- `MGMT_MESSAGE` (R62): The endpoint receives an in-band or pair-line management message and checks it, runs its records and responds. -/
  | mgmtMessage (path : RemotePath) (bytes : Sent (List Byte))
  /-- `PKG_ACCESS_NO_CROWN` (R54): An engine access to the package region with no token holder for 10 us completes with an error response. -/
  | pkgAccessNoCrown (die : Fin 8) (engine : Fin 64) (addr : Word) (write : Bool)
  /-- `IMAGE_CHUNK` (R82): A die receives an IMAGE_CHUNK and stores it in its image buffer. -/
  | imageChunk (die : Fin 8) (index : Nat)
  /-- `IMAGE_RESEND` (R82): The crown receives a request for a missing chunk and sends it again. -/
  | imageResend (die : Fin 8) (index : Nat)
  /-- `IMAGE_CHECKS` (R81): A die finishes receiving the image and runs the load checks with its own OTP. -/
  | imageChecks (die : Fin 8)
  /-- `IMAGE_RESULT` (R89): The crown receives a die's check result and digest and decides whether the copy passes. -/
  | imageResult (die : Fin 8)
  /-- `SECTION_APPLY` (R82): Once every die passes, sections are applied: blocks built, tables, firmware and REG_INIT loaded, and engines released. -/
  | sectionApply
  /-- `IMG_LOAD_GO` (R83): The host writes GO and the crown loads the image from the host buffer. -/
  | imgLoadGo
  /-- `FLASH_READ_WORD` (R84): Flash command 1 reads one word at IMG_FLASH_ADDR. -/
  | flashReadWord
  /-- `FLASH_PROGRAM_WORD` (R84): Flash command 2 programs one word, and is refused for the locked golden copy or during a load. -/
  | flashProgramWord
  /-- `FLASH_ERASE_SECTOR` (R84): Flash command 3 erases a 64 KiB sector, subject to the same refusals. -/
  | flashEraseSector
  /-- `FLASH_CMD_DONE` (R84): A flash command completes, BUSY clears, and ERR is set if it failed. -/
  | flashCmdDone (ok : Bool)
  /-- `OTP_DATA_WRITE` (R80): A write to IMG_OTP_DATA adds a word and raises the word counter up to 16. -/
  | otpDataWrite (data : Word)
  /-- `OTP_ITEM_SELECT` (R80): A write that changes ITEM without PROGRAM clears the word counter. -/
  | otpItemSelect (item : Fin 4)
  /-- `OTP_PROGRAM` (R80): PROGRAM blows the item's fuses on every die, or is refused for a wrong word count or a programmed item. -/
  | otpProgram (item : Fin 4)
  /-- `OTP_PROGRAM_DONE` (R80): Programming has completed on every die and DONE is set. -/
  | otpProgramDone
  /-- `ROLLBACK_ADVANCE` (R79): A write of IMG_ROLLBACK_ADV raises the OTP rollback counter on every die, or is refused. -/
  | rollbackAdvance (value : Fin 128)
  /-- `DIE_IMAGE_RESEND` (R85): After a die reset or release, the crown resends the image, active staged values and epoch to that die. -/
  | dieImageResend (die : Fin 8)
  /-- `VALUES_TIMEOUT` (R85): 1 s after its image transfer a die still answers without values, so later rounds count as missing answers. -/
  | valuesTimeout (die : Fin 8)
  /-- `STAGED_WRITE` (R87): A write to a staged field changes only its staged copy. -/
  | stagedWrite (src : Origin) (addr : Word) (data : Word)
  /-- `STAGED_VIEW_WRITE` (R87): A write to the staged view has no effect and completes with an error response. -/
  | stagedViewWrite (src : Origin) (addr : Word) (data : Word)
  /-- `STAGE_DISCARD` (R87): DISCARD at a die's IMG instance copies the die's active values over its staged copies. -/
  | stageDiscard (die : Fin 8)
  /-- `PKG_STAGE_DISCARD` (R87): DISCARD at the package IMG instance copies active over staged for the package and every non-quarantined die. -/
  | pkgStageDiscard
  /-- `TXN_COMMIT` (R88): COMMIT starts a configuration transaction, assigns E+1 and M and sends PREPARE, or is refused with BUSY. -/
  | txnCommit (lead : Fin 256)
  /-- `TXN_ABORT` (R92): ABORT before GO aborts the open transaction with HOST_ABORT, and after GO it is ignored. -/
  | txnAbort (lead : Fin 256)
  /-- `TXN_ROLLBACK` (R94): ROLLBACK runs a transaction with the shadow as the pending set. -/
  | txnRollback (lead : Fin 256)
  /-- `TXN_MULTI_COMMAND` (R88): A write that sets more than one command bit executes none and only stores LEAD. -/
  | txnMultiCommand (lead : Fin 256)
  /-- `PREPARE` (R90): A die copies its staged set to a pending set, validates it and answers READY or REFUSE. -/
  | prepare (die : Fin 8)
  /-- `READY` (R90): The crown receives a die's READY. -/
  | ready (die : Fin 8)
  /-- `REFUSE` (R90): The crown receives a REFUSE with its reason. -/
  | refuse (die : Fin 8) (reason : Fin 16)
  /-- `TXN_GO_DEADLINE` (R90): At the start of M-1 the crown sends GO if every die is READY and any plan is accepted, and otherwise sends ABORT. -/
  | txnGoDeadline
  /-- `GO` (R90): A die receives GO and holds it for the switch at M. -/
  | go (die : Fin 8)
  /-- `ABORT` (R92): A die receives ABORT, discards its pending set and returns pending values to the staged copies. -/
  | abort (die : Fin 8)
  /-- `TXN_SWITCH` (R90): At the start of M each die that holds GO switches its pending fields, and its old values become the shadow. -/
  | txnSwitch
  /-- `REVERT` (R91): A switched die receives REVERT and prepares to restore its shadow at M+2. -/
  | revert (die : Fin 8)
  /-- `REVERT_RESTORE` (R91): At the start of M+2 the reverted dies restore their shadow, and the transaction closes as ABORTED with IN_DOUBT. -/
  | revertRestore
  /-- `SHADOW_EXPIRE` (R94): The shadow's 256 multiframes run out and the shadow becomes invalid. -/
  | shadowExpire
  /-- `ENABLE_CLEAR_DRAIN` (R98): An enable goes to 0 in DRAIN mode, and the unit stops accepting work and finishes what it holds. -/
  | enableClearDrain (die : Fin 8) (blk : Fin 26) (unit : Nat) (work : Nat) (now : Nat)
  /-- `ENABLE_CLEAR_ABORT` (R99): An enable goes to 0 in ABORT mode, and the unit discards its work within 1 us and counts discards. -/
  | enableClearAbort (die : Fin 8) (blk : Fin 26) (unit : Nat) (work : Nat)
  /-- `DRAIN_IDLE` (R98): A draining unit finishes its work and reports idle. -/
  | drainIdle (die : Fin 8) (blk : Fin 26) (unit : Nat)
  /-- `DRAIN_TIMEOUT` (R98): The drain limit expires, so the remaining work is aborted and a drain timeout is counted. -/
  | drainTimeout (die : Fin 8) (blk : Fin 26) (unit : Nat) (left : Nat)
  /-- `DIS_MODE_WRITE` (R101): MODE written to ABORT during a drain discards the remaining work at once. -/
  | disModeWrite (die : Fin 8) (blk : Fin 26) (abort : Bool) (left : Nat)
  /-- `DIS_LIMIT_WRITE` (R101): LIMIT written during a drain applies from the drain's start and may time out at once. -/
  | disLimitWrite (die : Fin 8) (blk : Fin 26) (limit : Fin 65536) (now : Nat) (left : Nat)
  /-- `SYNTH_SWITCH` (R106): Die 0's synthesiser output is lost and the distribution switches to die 1's synthesiser. -/
  | synthSwitch
  /-- `SCLK_LOST` (R107): A die loses lock to the sampling reference, and its converters deliver and drive zeros. -/
  | sclkLost (die : Fin 8)
  /-- `SCLK_RETURN` (R107): Lock returns, converters resume, and seams and arms re-acquire or wake. -/
  | sclkReturn (die : Fin 8)
  /-- `PATH_SKEW_WRITE` (R110): A path skew write is applied, or refused with an error while the converter is enabled. -/
  | pathSkewWrite (die : Fin 8) (tx : Bool) (data : Word)
  /-- `COEF_WINDOW_WRITE` (R111): A write to the inactive coefficient set is refused unless it comes from the owner and no switch is pending. -/
  | coefWindowWrite (die : Fin 8) (byHost : Bool) (index : Fin 668) (data : Word)
  /-- `COEF_SWITCH` (R112): SWITCH requests a swap of the coefficient sets, or is refused while one is pending. -/
  | coefSwitch (die : Fin 8) (copyBack : Bool) (owner : Bool)
  /-- `COEF_SWAP` (R112): The sets swap at one sample boundary at least 20 ns after the request, with an optional copy back. -/
  | coefSwap (die : Fin 8)
  /-- `FG_START` (R116): FG_START starts a foreground calibration pass, or is refused when a converter in scope is enabled. -/
  | fgStart (die : Fin 8) (scope : Fin 4)
  /-- `FG_PASS_END` (R120): A foreground pass ends, its values are written or the pass is repeated, and a permanent fault follows the last failure. -/
  | fgPassEnd (die : Fin 8) (result : FgResult)
  /-- `BG_CAL_UPDATE` (R119): A background estimate is checked against its limits and applied, bounded or rejected. -/
  | bgCalUpdate (die : Fin 8) (est : BgEstimate)
  /-- `DELAY_WRITE` (R121): A CNV delay write sets WHOLE and FINE, and a change of WHOLE is refused while the die is active. -/
  | delayWrite (die : Fin 8) (tx : Bool) (whole : Fin 128) (fine : Fin 1024)
  /-- `FINE_SLEW_STEP` (R121): The FINE delay moves 0.05 ps towards its target each microsecond while slewing. -/
  | fineSlewStep (die : Fin 8)
  /-- `SEAM_SKEW_ESTIMATE` (R122): Each multiframe the upper die forms the seam skew estimate and runs its seam loop state. -/
  | seamSkewEstimate (die : Fin 8) (tones : List (List (Cpx × Cpx)))
  /-- `TX_SEAM_REPORT` (R125): A far-end transmit skew report arrives and is applied to the transmit FINE. -/
  | txSeamReport (die : Fin 8) (tau : Int)
  /-- `CAL_SAVE` (R127): SAVE writes a calibration record of the active set and trims into the record window. -/
  | calSave (die : Fin 8)
  /-- `CAL_RESTORE` (R128): RESTORE checks the record in the window and writes, switches and restores it, or refuses it. -/
  | calRestore (die : Fin 8)
  /-- `CAL_VERIFY_END` (R129): After 16 multiframes, verification of a restored record passes or fails into a cold start. -/
  | calVerifyEnd (die : Fin 8)
  /-- `DFE_AUTO_UPDATE` (R133): At each multiframe boundary the die rewrites IQ and skew corrections from the last statistics. -/
  | dfeAutoUpdate (die : Fin 8) (st : DfeStats)
  /-- `FREQ_REPORT` (R134): The segment lead receives a residual frequency report and updates F. -/
  | freqReport (lead : Fin 8) (reports : List (Fin 8))
  /-- `FREQ_APPLY` (R134): Every member applies the new F at the announced superframe boundary. -/
  | freqApply (lead : Fin 8)
  /-- `COARSE_FREQ_ACQ` (R135): A die with no locked subcarrier finishes coarse frequency acquisition from the slice spectrum. -/
  | coarseFreqAcq (die : Fin 8) (raw : RawSlice)
  /-- `FDE_BLOCK` (R145): An FDE block is equalised, the LMS and timing loop update, and results are delivered. -/
  | fdeBlock (die sc : Fin 8) (input : FdeIn) (syms : FdeAt) (clockErr : ℚ)
  /-- `TRAINING` (R144): A training block arrives, the channel is estimated and the taps are updated unless FREEZE is set. -/
  | training (die : Fin 8) (sc : Fin 8) (rx : List Vec2) (snr : ℚ)
  /-- `CD_SCAN_DONE` (R147): The blind dispersion scan ends with a CD value or with ACQ_FAIL. -/
  | cdScanDone (die sc : Fin 8) (coarse fine : List ℚ)
  /-- `RX_ARM_START` (R148): A receive arm starts from cold at t0 and begins acquisition. -/
  | rxArmStart (die : Fin 8) (sc : Fin 8)
  /-- `RX_ARM_TRACKING` (R148): The SNR has been stable and carrier lock has held for 4 multiframes, so the arm is tracking and in service. -/
  | rxArmTracking (die : Fin 8) (sc : Fin 8)
  /-- `RX_ACQ_TIMEOUT` (R148): The arm has not reached tracking by t0+12 ms, so ACQ_FAIL is set and it restarts at step 2. -/
  | rxAcqTimeout (die : Fin 8) (sc : Fin 8)
  /-- `RX_ARM_WAKE` (R149): A receive arm wakes from retained state and restores its state. -/
  | rxArmWake (die : Fin 8) (sc : Fin 8)
  /-- `PILOT_INTERVAL` (R151): Per pilot interval the pilot sums, joint phase and offsets are formed and cycle slips corrected. -/
  | pilotInterval (die : Fin 8) (own : List PilotSc) (remote : List RemoteSum)
  /-- `CARRIER_LOCK_LOST` (R156): Lock has been absent for 4 superframes, so LOCK_LOST is set and the arm restarts at step 3. -/
  | carrierLockLost (die : Fin 8) (sc : Fin 8)
  /-- `SEAM_COMBINE_UPDATE` (R157): Once per superframe the seam statistics and combining weights are updated. -/
  | seamCombineUpdate (die : Fin 8) (hi : Bool) (tones : List SeamObs)
  /-- `SEAM_LEARNING_END` (R158): After 16 superframes of learning, combining begins at the next superframe boundary. -/
  | seamLearningEnd (die : Fin 8) (hi : Bool)
  /-- `BRIDGE_LOST` (R131): 4 bridge frames in a row are absent or bad, so the direction is declared lost. -/
  | bridgeLost (die : Fin 8) (hi : Bool) (bad : Nat)
  /-- `BRIDGE_RESTORED` (R131): 16 good bridge frames in a row arrive, so the loss clears and the seam relearns. -/
  | bridgeRestored (die : Fin 8) (hi : Bool)
  /-- `Q_WINDOW_PUBLISH` (R164): At the end of a quality window all reports are published and SEQ increments. -/
  | qWindowPublish (die : Fin 8) (sums : List QSums)
  /-- `TX_ARM_READY` (R184): A powered transmit arm finishes loading its state and reads ready. -/
  | txArmReady (die : Fin 8) (sc : Fin 8)
  /-- `TX_ARM_SEND_START` (R184): At the first symbol of M, or a later boundary with TX_LATE, the woken arm sends superframe 0. -/
  | txArmSendStart (die : Fin 8) (sc : Fin 8)
  /-- `FREQ_TRIM_STEP` (R177): At every 32nd superframe boundary the applied frequency trim moves 1 MHz towards its target. -/
  | freqTrimStep (die : Fin 8)
  /-- `LEVEL_RAMP_STEP` (R179): At each multiframe boundary the applied level or tilt moves 0.05 dB towards its target. -/
  | levelRampStep (die : Fin 8)
  /-- `LUT_SWITCH` (R181): A switch of the pre-compensation set is requested, or refused while one is pending. -/
  | lutSwitch (die : Fin 8) (copyBack : Bool) (owner : Bool)
  /-- `LUT_SWAP` (R181): The pre-compensation sets swap at the first superframe boundary at least 20 ns after the request. -/
  | lutSwap (die : Fin 8)
  /-- `TX_CORR_APPLY` (R182): Pending writes of TXD_IQ, XY_BAL and SKEW take effect at the superframe boundary. -/
  | txCorrApply (die : Fin 8) (frame : TxFrame)
  /-- `CODEWORD_RELEASE` (R204): The deinterleaver releases a bulk codeword into the bulk queue. -/
  | codewordRelease (die sc : Fin 8) (held : BlockOut)
  /-- `CLUSTER_FREE` (R202): A cluster finishes decoding a codeword, delivers it through reordering and BCH, and takes the oldest queued one. -/
  | clusterFree (die : Fin 8) (cluster : Fin 8)
  /-- `EXPRESS_CODEWORD` (R203): An express codeword goes to the next dedicated cluster and is decoded in 2 iterations. -/
  | expressCodeword (die : Fin 8) (held : Stripe) (cut : Bool)
  /-- `CLUSTER_RETIRE` (R212): A decoder cluster is retired, leaves the pool or express set, and its codeword is delivered undecoded. -/
  | clusterRetire (die : Fin 8) (cluster : Fin 8)
  /-- `HIST_SNAP` (R211): SNAP copies the running iteration bins and clears them in one cycle. -/
  | histSnap (die : Fin 8)
  /-- `HIST_CLEAR` (R211): CLEAR clears the running bins without a copy. -/
  | histClear (die : Fin 8)
  /-- `HEADER_RECEIVE` (R221): A superframe header is received and CRC-checked, and its fields, epoch announcements and records are taken. -/
  | headerReceive (die : Fin 8) (sc : Fin 8) (syms : List Vec2)
  /-- `STREAM_RECORD` (R194): A STREAM record sets or checks the receive stream position, resynchronising after 2 disagreements. -/
  | streamRecord (die : Fin 8) (sc : Fin 8) (mfc : Word) (ptr : Fin 16777216) (bch : Fin 65536) (rest : StreamTail)
  /-- `SBIP_COMPARE` (R225): Once a superframe has been decoded its section BIP is compared and REI is counted and returned. -/
  | sbipCompare (die : Fin 8) (sc : Fin 8) (bits : List Bool)
  /-- `FAS_PEAK` (R228): While hunting, a FAS metric peak becomes a frame-alignment candidate. -/
  | fasPeak (die : Fin 8) (sc : Fin 8) (pos : Fin 65536) (rx : List Vec2)
  /-- `CANDIDATE_CHECK` (R228): A candidate is checked 65 536 periods after its last match, and goes in frame at count 3. -/
  | candidateCheck (die : Fin 8) (sc : Fin 8) (checks : List CandCheck)
  /-- `IN_FRAME_FAS_CHECK` (R228): In frame, the FAS is checked at each predicted position, and 5 errored in a row go to hunting. -/
  | inFrameFasCheck (die : Fin 8) (sc : Fin 8) (fas : List Vec2)
  /-- `DEFECT_SAMPLE` (R232): At each superframe boundary the raw defect conditions are sampled and declared or cleared. -/
  | defectSample (die : Fin 8) (power : Nat) (lock : BitVec 8)
  /-- `PROPOSE` (R239): A proposal is received whole and the acceptor validates it and answers ACCEPT or REJECT. -/
  | propose (team : Fin 8) (body : List Byte)
  /-- `PLAN_DATA` (R236): A PLAN_DATA entry of a proposal or acceptance is received. -/
  | planData (team : Fin 8) (body : List Byte)
  /-- `ACCEPT` (R238): The proposer receives an ACCEPT with its entries and repeats the receive-side checks. -/
  | accept (team : Fin 8) (body : List Byte)
  /-- `REJECT` (R245): The proposer receives a REJECT and aborts with PLAN_REFUSED. -/
  | reject (team : Fin 8) (body : List Byte)
  /-- `CONFIRM` (R238): The acceptor receives a CONFIRM and will send GO at M_B-1. -/
  | confirm (team : Fin 8) (body : List Byte)
  /-- `WITHDRAW` (R240): A WITHDRAW received before the acceptor's GO aborts its transaction. -/
  | withdraw (team : Fin 8) (body : List Byte)
  /-- `PLAN_REVERT` (R244): A REVERT message is received and both ends return to the base plan with disputed subcarriers in base-camp format. -/
  | planRevert (team : Fin 8) (body : List Byte)
  /-- `ACCEPTOR_GO_DEADLINE` (R240): At M_B-1 the acceptor sends GO if it holds CONFIRM, and otherwise judges from the proposer's announced epoch. -/
  | acceptorGoDeadline (team : Fin 8)
  /-- `RX_PLAN_SWITCH` (R242): The receive direction switches to the new plan at the received multiframe that the far end announced. -/
  | rxPlanSwitch (team : Fin 8)
  /-- `PLAN_DISAGREEMENT` (R244): The far end's epoch has differed for PLAN_WAIT multiframes, so the crown sends REVERT. -/
  | planDisagreement (team : Fin 8)
  /-- `HANDSHAKE_TIMEOUT` (R244): A handshake has stayed open 16 multiframes after its local switch and is closed. -/
  | handshakeTimeout (team : Fin 8)
  /-- `TIME_TRANSFER` (R247): Once per multiframe the crown forms delay and offset from the TIME records and publishes them. -/
  | timeTransfer (die : Fin 8) (tTx : Nat) (tRx : Nat) (rxMfc : Word) (t4 : Nat)
  /-- `FLOW_FRAME_SEND` (R252): A flow frame is built from the period's slot shares with POH, blocks, fill, checks and encryption. -/
  | flowFrameSend (die : Fin 8) (flow : Fin 512) (mf : Nat)
  /-- `FLOW_FRAME_RECEIVE` (R258): A flow frame is received, its POH checked, blocks delivered and PBIP, tag and defects evaluated. -/
  | flowFrameReceive (die : Fin 8) (flow : Fin 512) (shares : List (List (List Bool))) (marked : List Nat) (first last : Nat)
  /-- `FLOW_DEFECT_IDLE_SAMPLE` (R260): With no frame arriving, the flow defects are sampled at the multiframe boundary with the POH failed. -/
  | flowDefectIdleSample (die : Fin 8) (flow : Fin 512)
  /-- `FLOW_BLOCK_IN` (R274): A flow block arrives from the host lane into the transmit buffer, or is discarded on overflow. -/
  | flowBlockIn (die : Fin 8) (flow : Fin 512) (block : List Bool)
  /-- `KEY_LOAD` (R264): LOAD unwraps a key into a flow direction's slot, or refuses it. -/
  | keyLoad (die : Fin 8) (flow : Fin 512) (rx : Bool) (next : Bool)
  /-- `KEY_ERASE` (R264): ERASE clears a key slot, and is refused for CURRENT while the direction encrypts. -/
  | keyErase (die : Fin 8) (flow : Fin 512) (rx : Bool) (next : Bool)
  /-- `CRC_BOUNDARY` (R270): At a superframe boundary the running check values are latched and held writes take effect. -/
  | crcBoundary (die : Fin 8)
  /-- `CRC_TAKE` (R270): TAKE moves a span from a source check unit at the next boundary, or sets TAKE_ERR. -/
  | crcTake (die : Fin 8) (unit : Fin 64) (source : Fin 64)
  /-- `CRC_RUNNING_WRITE` (R270): A CRC_RUNNING write is held until the boundary in SOFT mode and refused in APPEND or CHECK mode. -/
  | crcRunningWrite (die : Fin 8) (unit : Fin 64) (data : Word)
  /-- `GROUP_ENABLE` (R278): A write that sets a lane group's EN enables it, or is refused with CFG_ERR. -/
  | groupEnable (die : Fin 8) (grp : Fin 8) (data : Word)
  /-- `LANE_DISABLE` (R301): Clearing a lane's EN takes the lane down at once. -/
  | laneDisable (die : Fin 8) (lane : Fin 8) (transit : Nat)
  /-- `LANE_SIGNAL_DETECT` (R289): The received amplitude exceeds the squelch threshold and debounce begins. -/
  | laneSignalDetect (die : Fin 8) (lane : Fin 8)
  /-- `LANE_DEBOUNCE_END` (R289): The signal has been present for DEBOUNCE and equaliser adaptation starts. -/
  | laneDebounceEnd (die : Fin 8) (lane : Fin 8)
  /-- `LANE_ADAPTED` (R289): Adaptation completes and link training starts where enabled. -/
  | laneAdapted (die : Fin 8) (lane : Fin 8) (partnerTrain : Bool)
  /-- `LANE_LOCK` (R289): Training ends and the lane locks to codewords. -/
  | laneLock (die : Fin 8) (lane : Fin 8) (taps : Option Word)
  /-- `HELLO_SEND` (R290): Every PERIOD, or when its content changes, a lane sends its hello message. -/
  | helloSend (die : Fin 8) (lane : Fin 8)
  /-- `HELLO_RECEIVE` (R290): A hello message is received whole, and the lane comes up after two good hellos. -/
  | helloReceive (die : Fin 8) (lane : Fin 8) (bytes : List Byte) (transit : Nat)
  /-- `HELLO_LOSS` (R290): No good hello has arrived for LOSS periods, so the lane is down. -/
  | helloLoss (die : Fin 8) (lane : Fin 8) (transit : Nat)
  /-- `REFORM` (R292): The host writes REFORM to trigger a re-form. -/
  | reform (die : Fin 8) (grp : Fin 8) (transit : Nat)
  /-- `ALIGN` (R285): An ALIGN block is received and aligns the lanes of the new active set. -/
  | align (die : Fin 8) (lane : Fin 8) (pos : Fin 8) (size : Fin 9) (epoch : Fin 256) (count : Fin 16777216)
  /-- `GROUP_UP` (R292): The group is up on the new active set and group blocks flow again. -/
  | groupUp (die : Fin 8) (grp : Fin 8)
  /-- `REFORM_TIMEOUT` (R292): The group has not come up within 1 ms and its receive direction counts as lost. -/
  | reformTimeout (die : Fin 8) (grp : Fin 8)
  /-- `FLOW_TAG` (R286): A FLOW_TAG burst is received and its flow blocks are delivered, or the burst is discarded. -/
  | flowTag (die : Fin 8) (grp : Fin 8) (body : List Byte) (data : List (Option (List Bool)))
  /-- `REPLACE_TAG_SEND` (R286): Every 10 us a replacement FLOW_TAG is sent for a flow that has REPLACE set or no block. -/
  | replaceTagSend (die : Fin 8) (flow : Fin 512)
  /-- `AUI_CODEWORD` (R281): An Ethernet AUI codeword is decoded into flow blocks, with error blocks for uncorrectable ones. -/
  | auiCodeword (die : Fin 8) (grp : Fin 8) (lane : Fin 8) (blocks : List (List Bool)) (corrected : Bool) (bad : Bool)
  /-- `TX_RATE_LIMIT` (R282): The FOLLOW clock reaches its bound, so the group runs as LOCAL and sets TX_RATE_LIMIT. -/
  | txRateLimit (die : Fin 8) (grp : Fin 8)
  /-- `DIRECTION_SLEEP` (R296): The conditions hold, so the transmit direction empties its stream, sends SLEEP blocks and stops driving. -/
  | directionSleep (die : Fin 8) (grp : Fin 8)
  /-- `SLEEP` (R294): A SLEEP block is received and the receive direction is marked dormant. -/
  | sleep (die : Fin 8) (grp : Fin 8)
  /-- `GROUP_WAKE` (R296): The host writes WAKE to wake the group's transmit direction. -/
  | groupWake (die : Fin 8) (grp : Fin 8)
  /-- `WAKE_BURST` (R295): A wake burst is detected and the receiver restarts from retained values. -/
  | wakeBurst (die : Fin 8) (grp : Fin 8) (transit : Nat)
  /-- `WAKE_FAIL` (R295): A lane is not up within 40 us of a wake, so it is down and WAKE_FAIL is set. -/
  | wakeFail (die : Fin 8) (lane : Fin 8) (transit : Nat)
  /-- `TIMESTAMP` (R299): An event message or TS_MARK crosses the balls and its timestamp enters the queue, or is dropped. -/
  | timestamp (die : Fin 8) (grp : Fin 8) (tx : Bool) (kind : TsKind) (seqId : Fin 65536) (domain : Fin 256) (msgType : Fin 16)
  /-- `TS_ENTRY_READ` (R299): A read of HLN_TS_ENTRY_3 removes the head timestamp entry. -/
  | tsEntryRead (die : Fin 8)
  /-- `CV_LD` (R305): cv.ld loads 256 bits into a vector register. -/
  | cvLd (die : Fin 8) (eng : Fin 64) (v : Fin 8) (addr : Word)
  /-- `CV_ST` (R305): cv.st stores 256 bits as one whole row. -/
  | cvSt (die : Fin 8) (eng : Fin 64) (v : Fin 8) (addr : Word)
  /-- `CV_MUL` (R305): cv.mul forms element-wise complex products. -/
  | cvMul (die : Fin 8) (eng : Fin 64) (vd : Fin 8) (va : Fin 8) (vb : Fin 8)
  /-- `CV_MAC` (R305): cv.mac adds element-wise complex products to an accumulator. -/
  | cvMac (die : Fin 8) (eng : Fin 64) (acc : Fin 2) (va : Fin 8) (vb : Fin 8)
  /-- `CV_CONJ` (R305): cv.conj conjugates each element. -/
  | cvConj (die : Fin 8) (eng : Fin 64) (vd : Fin 8) (va : Fin 8)
  /-- `CV_ABS2` (R305): cv.abs2 forms the squared magnitude of each element. -/
  | cvAbs2 (die : Fin 8) (eng : Fin 64) (vd : Fin 8) (va : Fin 8)
  /-- `CV_ROT` (R305): cv.rot rotates each element by a 16-bit angle. -/
  | cvRot (die : Fin 8) (eng : Fin 64) (vd : Fin 8) (va : Fin 8) (angle : Fin 65536)
  /-- `CV_SUM` (R305): cv.sum sums the 8 elements into an accumulator. -/
  | cvSum (die : Fin 8) (eng : Fin 64) (acc : Fin 2) (va : Fin 8)
  /-- `CV_SHR` (R305): cv.shr shifts an accumulator into a vector register with rounding and saturation. -/
  | cvShr (die : Fin 8) (eng : Fin 64) (vd : Fin 8) (acc : Fin 2) (shift : Fin 25)
  /-- `CV_DMA` (R305): cv.dma queues a copy on the cluster's DMA channel. -/
  | cvDma (die : Fin 8) (eng : Fin 64) (src : DmaEnd) (dst : DmaEnd) (more : Fin 65505)
  /-- `DMA_COPY_DONE` (R311): A DMA copy completes, or stops on a non-owner or uncorrectable error. -/
  | dmaCopyDone (die : Fin 8) (ch : Fin 8)
  /-- `ENGINE_WATCHDOG` (R307): An engine's watchdog expires, so the engine halts with cause WATCHDOG. -/
  | engineWatchdog (die : Fin 8) (eng : Fin 64)
  /-- `ENGINE_TRAP` (R307): An engine takes an exception with HALT_ON_TRAP set and halts. -/
  | engineTrap (die : Fin 8) (eng : Fin 64) (cause : Fin 16) (tval : Word)
  /-- `TCM_ACCESS` (R308): A management access to a TCM completes only while the engine is halted or host access is allowed. -/
  | tcmAccess (die : Fin 8) (eng : Fin 64) (word : Fin 16384) (write : Option Word) (upset : Option WordErr)
  /-- `BANK_ACCESS` (R309): An access to a scratchpad bank is checked for ownership and power, then served with ECC checking. -/
  | bankAccess (die : Fin 8) (bank : Fin 256) (word : Fin 16384) (req : MemReq) (op : BankOp) (meets : Bool) (upset : Option WordErr)
  /-- `BANK_OWNER_WRITE` (R310): A write of a bank's owner stores it as a pending handover. -/
  | bankOwnerWrite (die : Fin 8) (bank : Fin 256) (kind : Fin 4) (owner : Fin 32)
  /-- `BANK_HANDOVER` (R310): In the first idle core cycle the pending owner takes the bank. -/
  | bankHandover (die : Fin 8) (bank : Fin 256)
  /-- `BANK_POWER_WRITE` (R314): A request for a bank power state is applied once the bank is idle. -/
  | bankPowerWrite (die : Fin 8) (bank : Fin 256) (power : Fin 4) (idle : Bool)
  /-- `MEMORY_FILL` (R315): The hardware fill of a memory with zeros and valid check bits completes. -/
  | memoryFill (die : Fin 8) (mem : MemId)
  /-- `CHECKER_SELFTEST` (R316): The checker self-test runs, and a failing memory is taken out of use. -/
  | checkerSelftest (die : Fin 8) (failing : List MemId)
  /-- `BUCKET_LEAK` (R318): Every LEAK ms a group's bucket level falls by one. -/
  | bucketLeak (die : Fin 8) (grp : Fin 16)
  /-- `SCRUB_START` (R323): SCRUB_START starts a scrub of the configured range, or is refused. -/
  | scrubStart (die : Fin 8)
  /-- `SCRUB_STOP` (R323): SCRUB_STOP ends the scrub at the next word with the summary so far. -/
  | scrubStop (die : Fin 8) (upto : Word) (upsets : List (Word × WordErr))
  /-- `SCRUB_DONE` (R323): The scrub ends and the summary is published. -/
  | scrubDone (die : Fin 8) (upsets : List (Word × WordErr))
  /-- `MARCH_START` (R325): START begins a requested March C- test, or is refused. -/
  | marchStart (die : Fin 8)
  /-- `MARCH_DONE` (R325): A march ends, with failing rows repaired where enabled. -/
  | marchDone (die : Fin 8) (rows : List (MemId × Fin 4100)) (upsets : List (Word × WordErr))
  /-- `REPAIR_ENTRY_WRITE` (R327): A repair entry is written, and the row is copied to a spare and mapped, or refused under a march. -/
  | repairEntryWrite (die : Fin 8) (bank : Fin 256) (j : Fin 2) (data : Word)
  /-- `DOMAIN_POWER_ON` (R333): A power domain finishes turning on, after any needed PLL lock. -/
  | domainPowerOn (die : Fin 8) (dom : Fin 58)
  /-- `DOMAIN_LOWER` (R333): Once every unit in a domain is idle, the domain is retained or turned off. -/
  | domainLower (die : Fin 8) (dom : Fin 58)
  /-- `PLL_LOCK` (R336): A started PLL locks and the domains waiting on it are powered. -/
  | pllLock (die : Fin 8) (pll : Fin 3)
  /-- `PLL_LOCK_FAIL` (R337): A PLL has not locked within 4 times its lock time, so PLL_FAIL is set and a transient fault is reported. -/
  | pllLockFail (die : Fin 8) (pll : Fin 3)
  /-- `SAMPLING_PLL_STOP` (R336): No converter domain has been on for 10 ms and the sampling PLL stops. -/
  | samplingPllStop (die : Fin 8)
  /-- `PWR_WINDOW` (R341): At each window end the package manager takes at most one grow, shrink, sleep, shed or restore step per team. -/
  | pwrWindow (rates : List (Fin 8 × Fin 512 × Fin 65536))
  /-- `ARMS_OFF_AFTER` (R344): A subcarrier has been dormant for OFF_AFTER seconds, so both arms are turned off. -/
  | armsOffAfter (die : Fin 8) (sc : Fin 8)
  /-- `PARK` (R348): PARK disables and powers down a die except its root domain, or is refused. -/
  | park (die : Fin 8)
  /-- `UNPARK` (R348): UNPARK powers a parked die up, and it starts as after a die reset. -/
  | unpark (die : Fin 8)
  /-- `PKG_SLEEP` (R349): SLEEP parks every die, the crown last, and enters package root state. -/
  | pkgSleep
  /-- `PKG_WAKE` (R349): WAKE leaves package root state as a package reset. -/
  | pkgWake
  /-- `REF_MONITOR_UPDATE` (R355): Each second the reference monitors update, qualify or disqualify slots, and selection runs. -/
  | refMonitorUpdate (samples : List RefSample)
  /-- `REF_ACTIVITY_LOSS` (R356): A slot becomes inactive, is disqualified with ACTIVITY, and selection runs at once if it was selected. -/
  | refActivityLoss (slot : Fin 16)
  /-- `REF_SLOT_CONFIG` (R351): A reference slot configuration write is applied, or refused with CFG_ERR. -/
  | refSlotConfig (slot : Fin 16) (data : Word)
  /-- `REF_OFS_WRITE` (R361): A phase offset written for the selected absolute slot is pulled in without a step. -/
  | refOfsWrite (slot : Fin 16) (data : Word)
  /-- `DPLL_LOCKED` (R360): The phase error has stayed within LOCK_WIN for 1 s, so the DPLL is locked. -/
  | dpllLocked
  /-- `DPLL_ACQ_TIMEOUT` (R360): The DPLL has not locked within 50/BW seconds and goes to lost. -/
  | dpllAcqTimeout
  /-- `DPLL_LOST` (R360): The phase error has exceeded 8 times LOCK_WIN for the stated time, so the DPLL goes to lost. -/
  | dpllLost
  /-- `DPLL_REACQUIRE` (R360): 1 s in lost with the slot still selected, the DPLL returns to acquiring. -/
  | dpllReacquire
  /-- `DPLL_MODE_WRITE` (R360): A MODE write forces holdover, free run or a reference. -/
  | dpllModeWrite (mode : Fin 8)
  /-- `HISTORY_SAMPLE` (R362): Each locked second a history sample is stored, subject to freezing. -/
  | historySample (mean : Int)
  /-- `PHASE_STEP` (R365): A TIM_STEP write requests a phase and time-of-day step, or is refused. -/
  | phaseStep (step : Word)
  /-- `STEP_APPLY` (R365): The step takes effect at one time-of-day tick and adds to every pending output offset. -/
  | stepApply
  /-- `OUTPUT_CONFIG_WRITE` (R366): An output configuration write is applied, or refused with CFG_ERR. -/
  | outputConfigWrite (out : Fin 4) (aux : Bool) (data : Word)
  /-- `REALIGN` (R367): GO starts re-alignment of the named outputs by STEP or SLEW. -/
  | realign (data : Word)
  /-- `REALIGN_DONE` (R367): Every named output's pending offset reaches 0. -/
  | realignDone
  /-- `TOD_LOAD` (R369): LOAD arms the loaded seconds for the next second boundary. -/
  | todLoad
  /-- `TOD_LOAD_APPLY` (R369): At the second boundary the counter takes the loaded seconds and TOD_VALID is set. -/
  | todLoadApply
  /-- `TOD_SNAP` (R370): SNAP latches the time-of-day into the snapshot registers. -/
  | todSnap (adv : Nat)
  /-- `SENSOR_SLOT` (R376): Every 1 ms each housekeeping converter inserts a temperature conversion. -/
  | sensorSlot (die : Fin 8) (a : Fin 65536) (b : Fin 65536)
  /-- `SEQ_TRIGGER` (R378): A sequencer trigger starts a pass, sets PENDING or counts an overrun. -/
  | seqTrigger (die : Fin 8) (trig : Fin 6)
  /-- `SEQ_GO` (R377): A write of GO is a trigger for TRIG 0. -/
  | seqGo (die : Fin 8)
  /-- `HK_CONVERSION` (R377): A sequencer entry's conversion completes and its result is written. -/
  | hkConversion (die : Fin 8) (a : Int) (b : Int)
  /-- `SEQ_PASS_END` (R378): A pass ends, PASS_COUNT rises, and a pending pass starts with LATE. -/
  | seqPassEnd (die : Fin 8)
  /-- `URGENT_GO` (R379): An urgent conversion is requested, abandoning any running entry, or refused while busy. -/
  | urgentGo (die : Fin 8) (data : Word)
  /-- `URGENT_DONE` (R379): The urgent result is written and the pass resumes. -/
  | urgentDone (die : Fin 8) (a : Int) (b : Int)
  /-- `SYNC_IN_EDGE` (R388): A SYNC_IN rising edge resets the decimators, restarts timers and may trigger passes. -/
  | syncInEdge
  /-- `SYNC_OUT_GO` (R380): SYNC_OUT_GO at the crown requests a SYNC_OUT pulse. -/
  | syncOutGo (die : Fin 8)
  /-- `SYNC_OUT_PULSE` (R380): At the next superframe boundary the crown drives a 100 ns SYNC_OUT pulse. -/
  | syncOutPulse
  /-- `WCH_SYNC` (R388): A WCH_CTRL.SYNC write resets the decimators of this die. -/
  | wchSync (die : Fin 8)
  /-- `WCH_CHANNEL_CONFIG` (R391): A watch channel configuration write is applied, refused with an error, or refuses the enable. -/
  | wchChannelConfig (die : Fin 8) (ch : Fin 16) (step : Bool) (data : Word)
  /-- `WCH_INPUT_SAMPLE` (R382): An input sample enters a watch channel and passes its stages, with overload discard. -/
  | wchInputSample (die : Fin 8) (ch : Fin 16) (x : Int) (full : Bool)
  /-- `PLM_P1_SEND` (R400): The exchange sends P1 once every 1 s until it hears P2. -/
  | plmP1Send
  /-- `PLM_HANDSHAKE` (R400): The pair-line handshake runs from P1 through capabilities and training to up. -/
  | plmHandshake (probe : PlmProbe)
  /-- `PLM_QUALITY_UPDATE` (R401): Every 100 ms the receiver forms its SNR, margin and EVM. -/
  | plmQualityUpdate (decided slicer : List ℚ)
  /-- `STATUS_PACKET_SEND` (R401): Every 10 ms each end sends a STATUS packet. -/
  | statusPacketSend
  /-- `PLM_DOWNSHIFT` (R402): The margin has stayed below TARGET-3 dB for 1 s, so the receiver sends SELECT for a lower profile. -/
  | plmDownshift
  /-- `PLM_UPSHIFT` (R402): A higher profile has been admitted for 10 s, so the receiver sends SELECT. -/
  | plmUpshift
  /-- `PLM_LINK_DOWN` (R403): A down condition holds, so DOWN is set and a fast retrain or the full handshake starts. -/
  | plmLinkDown (cause : PlmDown)
  /-- `PLM_RETRAIN` (R403): RETRAIN takes the link down and starts the full handshake. -/
  | plmRetrain
  /-- `PLM_FAST_RETRAIN_END` (R403): The fast retrain ends up, or fails into the full handshake. -/
  | plmFastRetrainEnd (ok : Bool) (probe : PlmProbe)
  /-- `MGMT_PACKET` (R405): A MGMT packet goes to the endpoint or to the host buffer. -/
  | mgmtPacket (payload : Sent (List Byte))
  /-- `STATUS_PACKET` (R401): A STATUS packet updates PLM_FAR_QUALITY. -/
  | statusPacket (margin : Int) (evm : Fin 65536)
  /-- `HOST_PACKET` (R405): A HOST packet enters the host receive buffer, or is dropped when it is full. -/
  | hostPacket (payload : List Byte)
  /-- `SELECT_PACKET` (R402): A SELECT packet changes a direction's profile at the next codeword boundary. -/
  | selectPacket (profile : Fin 8)
  /-- `PLM_TX_GO` (R405): TX_GO sends the transmit window as one packet, or is refused while busy. -/
  | plmTxGo
  /-- `PLM_RX_ACK` (R405): RX_ACK removes the head packet from the receive buffer. -/
  | plmRxAck
  /-- `REC_WAIT_EXPIRE` (R412): REC_WAIT expires without a restore and the die runs its foreground passes. -/
  | recWaitExpire (die : Fin 8)
  /-- `CAIRN_BURST_SEND` (R420): After its random gap the cairn subcarrier sends a burst at a superframe boundary. -/
  | cairnBurstSend (die : Fin 8)
  /-- `CAIRN_DETECTION` (R421): The repetition metric reaches DET_TH, and a new packet is started or captured. -/
  | cairnDetection (die : Fin 8) (rx : List Cpx) (pos : Nat)
  /-- `CAIRN_HEADER` (R421): A cairn header is received, updating the peer table, choosing a peer and judging mutuality. -/
  | cairnHeader (die : Fin 8) (syms : List ℚ)
  /-- `CAIRN_BODY` (R421): A cairn body is received and its messages taken, or it is dropped on a CRC error. -/
  | cairnBody (die : Fin 8) (syms : List ℚ)
  /-- `PEER_EXPIRE` (R423): A peer entry not heard for 64 ms is removed. -/
  | peerExpire (die : Fin 8) (idx : Fin 8)
  /-- `NO_PEER` (R424): No compatible peer has been heard for NO_PEER seconds and NO_PEER is set. -/
  | noPeer (die : Fin 8)
  /-- `EPOCH1_RETRY` (R425): 1 s after a rejected epoch 1, the proposer proposes again. -/
  | epoch1Retry (team : Fin 8)
  /-- `EPOCH2_COMMIT` (R427): The ramp conditions hold, so the crown commits epoch 2. -/
  | epoch2Commit (team : Fin 8)
  /-- `CAIRN_RESTART` (R429): RESTART restarts discovery. -/
  | cairnRestart (die : Fin 8)
  /-- `REBASE` (R428): A REBASE write returns the team to the base-camp plan. -/
  | rebase (die : Fin 8)
  /-- `AUTO_REBASE` (R428): The far end announces epoch 0, or LOF lasts RECOVER on every arm, so the crown rebases the team. -/
  | autoRebase (team : Fin 8) (cause : RebaseCause)
  /-- `FAULT_REPORT` (R430): A fault is reported and retried or retired by level. -/
  | faultReport (die : Fin 8) (rec : FaultRec)
  /-- `FAULT_LOG_CLEAR` (R433): CLEAR empties the fault log. -/
  | faultLogClear (die : Fin 8)
  /-- `DIE_RELEASE` (R432): A write of 0 to FLT_RETIRED.DIE releases a retired die into a die start. -/
  | dieRelease (die : Fin 8)
  /-- `RAIL_LOW` (R449): A supply rail falls below its threshold and the matching reset is held. -/
  | railLow (die : Fin 8) (rail : Rail)
  /-- `RAIL_RECOVER` (R451): A fallen rail recovers and a die start or package reset follows. -/
  | railRecover (die : Fin 8) (rail : Rail)
  /-- `GPIO_EDGE` (R442): A selected GPIO edge that persists 3 cycles sets its event bit. -/
  | gpioEdge (pin : Fin 16) (rising : Bool) (cycles : Nat)
  /-- `JTAG_BYPASS` (R452): The BYPASS instruction of a test access port. -/
  | jtagBypass (die : Fin 8) (tdi : List Bool)
  /-- `JTAG_SAMPLE_PRELOAD` (R452): The SAMPLE/PRELOAD instruction. -/
  | jtagSamplePreload (die : Fin 8) (pins : List Bool) (tdi : List Bool)
  /-- `JTAG_EXTEST` (R452): The EXTEST instruction. -/
  | jtagExtest (die : Fin 8) (pins : List Bool) (tdi : List Bool)
  /-- `JTAG_IDCODE` (R452): The IDCODE instruction returns the package IDCODE. -/
  | jtagIdcode (die : Fin 8) (tdi : List Bool)
  /-- `JTAG_CLAMP` (R452): The CLAMP instruction. -/
  | jtagClamp (die : Fin 8) (tdi : List Bool)
  /-- `JTAG_HIGHZ` (R452): The HIGHZ instruction. -/
  | jtagHighz (die : Fin 8) (tdi : List Bool)
  /-- `HANDOVER_COMPLETE` (R47): At the end of the BUSY period of a planned handover, HANDOVER_DONE is set and a die reset aimed at the old crown takes effect. -/
  | handoverComplete
  /-- `RING_MESSAGE_DISCARD` (R49): A ring message that fails its CHECK is discarded, counted in RING_DISCARD_CW or CCW, and sets RING_EVENT.DISCARD. -/
  | ringMessageDiscard (die : Fin 8) (cw : RingFrame)
  /-- `SPI_FRAME_INVALID` (R57): An SPI frame with a failed CRC, an opcode outside R56 or a length other than 80 clocks is not executed, and the next frame reports CRC_FAIL, BAD_OPCODE or LENGTH. -/
  | spiFrameInvalid (mosi : List Bool)
  /-- `ENGINE_INSTRUCTION` (R303): An engine executes a base RV32IMC or Zicsr instruction, including its loads and stores and the CSR writes of 0x7C0 that refresh its watchdog. -/
  | engineInstruction (die : Fin 8) (eng : Fin 64)
  /-- `PLAN_CHANGE_TX_SWITCH` (R34): At its switch multiframe, an absence change or a handshake revert switches the team's transmit plan without a configuration transaction or GO. -/
  | planChangeTxSwitch (team : Fin 8)
  /-- `REBASE_SWITCH` (R428): At the multiframe boundary after a rebase is decided, both directions of the team switch to the base-camp plan, the agreed epoch becomes 0 and discovery restarts. -/
  | rebaseSwitch (team : Fin 8)
  /-- `TRUNK_CODEWORD` (R283): A trunk lane receives an RS codeword, which is decoded and counted in the lane FEC counters, and its lane blocks are removed and stray data blocks discarded. -/
  | trunkCodeword (die : Fin 8) (lane : Fin 8) (corrected : Bool) (bad : Bool) (blocks : List (BitVec 2 × List Bool))
  /-- `PLM_CODEWORD` (R404): A pair-line codeword is received and decoded, the corrected and uncorrectable counts rise, and packets with an invalid TYPE or LEN are discarded and counted. -/
  | plmCodeword (info check : List Byte)
  /-- `LANE_SIGNAL_LOSS` (R289): A host lane's received amplitude falls below the squelch threshold or loses codeword lock, so debounce restarts, the lane is no longer up, and an Ethernet AUI group goes down. -/
  | laneSignalLoss (die : Fin 8) (lane : Fin 8) (present : Bool) (transit : Nat)
  /-- `REFXO_LOSS` (R331): REFXO becomes invalid, so the root clock runs free, ROOT_LOCKED clears and the monitor baseline is lost. -/
  | refxoLoss
  /-- `REFXO_RETURN` (R331): REFXO becomes valid again, and the root clock's frequency-locked loop locks and sets ROOT_LOCKED. -/
  | refxoReturn
  /-- `TX_RATE_IN_RANGE` (R282): The arriving flow-block rate of a FOLLOW group falls back within ±200 ppm, and the group leaves its LOCAL fallback and follows again. -/
  | txRateInRange (die : Fin 8) (grp : Fin 8) (idles : Nat)
  /-- `CAL_RECORD_DONE` (R127): A calibration record save or restore that is running completes, BUSY clears and RESULT is set. -/
  | calRecordDone (die : Fin 8)
  /-- `KEY_COMMAND_DONE` (R264): A key load or erase command completes, CRY_KEY_STATUS.BUSY clears, RESULT is set and LOAD_DONE or LOAD_FAIL is raised. -/
  | keyCommandDone (die : Fin 8)
deriving DecidableEq, Repr

end Sys2Proof
end

