-- ==== Sys2Proof/Decode.lean ====
section
/-! DEFINITION. The command that a word of the opcode table's bits spells. No row of the table gives bits: the commands reach
the block as pin events, register accesses and messages, so every word spells none. -/
namespace Sys2Proof

/-- The command spelled by `nbits` bits with the value `w`; the table spells no command by bits.
Log entry 152 DESIGN CHOICE. -/
def decodeTableWord (_nbits _w : Nat) : Option Instr := none

end Sys2Proof
end

