-- ==== Sys2Proof/Machine/Store.lean ====
section
/-! DEFINITION. Sparse stores: association lists held in one canonical form, sorted by key with no entry equal to what an
unlisted key reads as. Registers, internal tables and memory are all held this way, so equal contents are equal data. -/
namespace Sys2Proof.Machine

/-- The key of one register field or of one entry of an internal table: the reset domain it belongs to, the instance
(die 0 to 7, or 8 for the package), the block slot, the register's base offset, the field's lowest bit and the index
of the repeated register or table entry. -/
structure Key where
  dom  : Nat
  inst : Nat
  blk  : Nat
  reg  : Nat
  lo   : Nat
  idx  : Nat
deriving DecidableEq, Repr

/-- The components of a key, most significant first. -/
def Key.path (k : Key) : List Nat := [k.dom, k.inst, k.blk, k.reg, k.lo, k.idx]

/-- Lexicographic order of two lists of numbers. -/
def lexLt : List Nat → List Nat → Bool
  | [], [] => false
  | [], _ :: _ => true
  | _ :: _, [] => false
  | a :: as, b :: bs => Nat.blt a b || (a == b && lexLt as bs)

/-- The order in which a store lists its keys. -/
def Key.lt (a b : Key) : Bool := lexLt a.path b.path

/-- The key of entry `i` of an internal table at instance `d`. -/
def unitKey (d i : Nat) : Key := { dom := 0, inst := d, blk := 0, reg := 0, lo := 0, idx := i }

/-- The value listed for a key, if any. -/
def assocFind {κ α : Type} [DecidableEq κ] (k : κ) : List (κ × α) → Option α
  | [] => none
  | (k', v) :: t => if k = k' then some v else assocFind k t

/-- Insert or replace the value of a key, keeping the order. -/
def assocInsert {κ α : Type} [DecidableEq κ] (lt : κ → κ → Bool) (k : κ) (v : α) : List (κ × α) → List (κ × α)
  | [] => [(k, v)]
  | (k', v') :: t =>
    if k = k' then (k, v) :: t
    else if lt k k' then (k, v) :: (k', v') :: t
    else (k', v') :: assocInsert lt k v t

/-- Remove a key. -/
def assocErase {κ α : Type} [DecidableEq κ] (k : κ) : List (κ × α) → List (κ × α)
  | [] => []
  | (k', v') :: t => if k = k' then assocErase k t else (k', v') :: assocErase k t

/-- The keys of the list rise strictly. -/
def assocSorted {κ α : Type} (lt : κ → κ → Bool) : List (κ × α) → Bool
  | [] => true
  | [_] => true
  | (k, _) :: (k', v') :: t => lt k k' && assocSorted lt ((k', v') :: t)

/-- A store: a sorted association list over keys. -/
abbrev Store (α : Type) := List (Key × α)

/-- The value a store lists for a key. -/
def Store.find {α : Type} (m : Store α) (k : Key) : Option α := assocFind k m

/-- What a key reads as, with the value of an unlisted key given. -/
def Store.get {α : Type} (m : Store α) (dflt : α) (k : Key) : α := (assocFind k m).getD dflt

/-- List a key with a value, whatever an unlisted key reads as. -/
def Store.put {α : Type} (m : Store α) (k : Key) (v : α) : Store α := assocInsert Key.lt k v m

/-- Write a key. Writing what an unlisted key reads as removes the entry. -/
def Store.set {α : Type} [DecidableEq α] (m : Store α) (dflt : α) (k : Key) (v : α) : Store α :=
  if v = dflt then assocErase k m else assocInsert Key.lt k v m

/-- Remove a key. -/
def Store.erase {α : Type} (m : Store α) (k : Key) : Store α := assocErase k m

/-- Keep the entries whose key satisfies a test. -/
def Store.keep {α : Type} (m : Store α) (p : Key → Bool) : Store α := m.filter fun e => p e.1

/-- List every entry of another store. -/
def Store.putAll {α : Type} (m es : Store α) : Store α := es.foldl (fun (t : Store α) e => t.put e.1 e.2) m

/-- List the entries of another store whose keys are not listed yet. -/
def Store.putNew {α : Type} (m es : Store α) : Store α :=
  es.foldl (fun (t : Store α) e => if (t.find e.1).isSome then t else t.put e.1 e.2) m

/-- Change every value. -/
def Store.mapKey {α : Type} (m : Store α) (f : Key → α) : Store α := m.map fun e => (e.1, f e.1)

/-- Change the entries that satisfy a test; `dflt` is what an unlisted key reads as. -/
def Store.mapInst {α : Type} [DecidableEq α] (m : Store α) (dflt : α) (p : Key → Bool) (f : α → α) : Store α :=
  (m.map fun e => if p e.1 then (e.1, f e.2) else e).filter fun e => decide (e.2 ≠ dflt)

/-- The canonical form: keys strictly rising. -/
def Store.sorted {α : Type} (m : Store α) : Bool := assocSorted Key.lt m

end Sys2Proof.Machine
end

