-- ==== Sys2Proof/Machine/Field.lean ====
section
/-! DEFINITION. What a register field is: where it lies, its access type (R8), its reset domain (R13) and its reset
value. -/
namespace Sys2Proof.Machine

/-- Access types of R8. -/
inductive Access where
  /-- RW: reads and writes the stored value. -/
  | rw
  /-- RO: reads what the device drives; writes are ignored. -/
  | ro
  /-- W1C: reads the status; a written 1 clears the bit. -/
  | w1c
  /-- WO: reads 0; a write acts or stores. -/
  | wo
  /-- RWS: as RW, surviving die reset and block reset. -/
  | rws
  /-- RC: a read returns the value and clears it; writes are ignored. -/
  | rc
deriving DecidableEq, Repr

/-- Reset domains of R13, widest first. -/
inductive Dom where
  | por
  | pkg
  | die
  | blk
deriving DecidableEq, Repr

/-- The rank of a domain: 0 is the widest. -/
def Dom.rank : Dom → Nat
  | .por => 0
  | .pkg => 1
  | .die => 2
  | .blk => 3

/-- One register field. `blk` is the block slot (26: the package-level PKG block, 27: the common disable registers,
whose index is the block slot); `reg` the offset of the register's first element; `rst` the reset values of its
elements, the last repeating; `sfx` is added to the reset value on a -X part; `stg` marks a staged field (R87). -/
structure Fld where
  blk : Nat
  reg : Nat
  lo  : Nat
  w   : Nat
  ty  : Access
  dom : Dom
  rst : List Nat
  sfx : Nat := 0
  stg : Bool := false
deriving DecidableEq, Repr

/-- The key of element `k` of a field at an instance. -/
def Fld.key (f : Fld) (inst k : Nat) : Key :=
  { dom := f.dom.rank, inst := inst, blk := f.blk, reg := f.reg, lo := f.lo, idx := k }

/-- The reset value of element `k` of a field, `x` telling whether the part is a -X part. Log entry 2 DESIGN CHOICE. -/
def Fld.reset (f : Fld) (x : Bool) (k : Nat) : Nat :=
  (f.rst.getD k (f.rst.getLastD 0)) + (if x then f.sfx else 0)

/-- One register as the address decode sees it: element `i` lies at `reg + stride * i`. -/
structure Reg where
  reg    : Nat
  stride : Nat
  count  : Nat
  flds   : List Fld
deriving DecidableEq, Repr

end Sys2Proof.Machine
end

