-- ==== Sys2Proof/Machine/Regs.lean ====
section
/-! DEFINITION. The register fields of the spec's register tables (spec/01 to spec/17), one definition per field, and
the table of registers the address decode reads. The names are the spec's own, BLOCK_REGISTER_FIELD, without the index
letter of a repeated register; `Fld.rst` lists the reset values of the elements, the last one repeating. -/
namespace Sys2Proof.Machine
open Access Dom

/-! ### Registers of spec/01_sliced_carrier.md -/

/-- `PKG_TEAM_MAP.SIZE`, bits [15:0]. -/
def PKG_TEAM_MAP_SIZE : Fld :=
  { blk := 26, reg := 0x100, lo := 0, w := 16, ty := rw, dom := pkg, rst := [0], stg := true }
/-- `PKG_TEAM_CTRL.REJOIN_REQ`, bits [15:8]. -/
def PKG_TEAM_CTRL_REJOIN_REQ : Fld :=
  { blk := 26, reg := 0x104, lo := 8, w := 8, ty := wo, dom := pkg, rst := [0] }
/-- `PKG_TEAM_CTRL.AUTO_REJOIN`, bits [7:0]. -/
def PKG_TEAM_CTRL_AUTO_REJOIN : Fld :=
  { blk := 26, reg := 0x104, lo := 0, w := 8, ty := rw, dom := pkg, rst := [255] }
/-- `PKG_MEMBER_STATUS.SEGMENT_LEAD`, bits [23:16]. -/
def PKG_MEMBER_STATUS_SEGMENT_LEAD : Fld :=
  { blk := 26, reg := 0x108, lo := 16, w := 8, ty := ro, dom := pkg, rst := [0] }
/-- `PKG_MEMBER_STATUS.STATE`, bits [15:0]. -/
def PKG_MEMBER_STATUS_STATE : Fld :=
  { blk := 26, reg := 0x108, lo := 0, w := 16, ty := ro, dom := pkg, rst := [0] }
/-- `PKG_TEAM_EVENT.BRIDGE_REJECT`, bits [17:17]. -/
def PKG_TEAM_EVENT_BRIDGE_REJECT : Fld :=
  { blk := 26, reg := 0x10C, lo := 17, w := 1, ty := w1c, dom := pkg, rst := [0] }
/-- `PKG_TEAM_EVENT.GEOM_REJECT`, bits [16:16]. -/
def PKG_TEAM_EVENT_GEOM_REJECT : Fld :=
  { blk := 26, reg := 0x10C, lo := 16, w := 1, ty := w1c, dom := pkg, rst := [0] }
/-- `PKG_TEAM_EVENT.MEMBER_REJOINED`, bits [15:8]. -/
def PKG_TEAM_EVENT_MEMBER_REJOINED : Fld :=
  { blk := 26, reg := 0x10C, lo := 8, w := 8, ty := w1c, dom := pkg, rst := [0] }
/-- `PKG_TEAM_EVENT.MEMBER_LOST`, bits [7:0]. -/
def PKG_TEAM_EVENT_MEMBER_LOST : Fld :=
  { blk := 26, reg := 0x10C, lo := 0, w := 8, ty := w1c, dom := pkg, rst := [0] }
/-- `PKG_GEOM_Dn.SC_SPACING`, bits [23:16]. -/
def PKG_GEOM_SC_SPACING : Fld :=
  { blk := 26, reg := 0x120, lo := 16, w := 8, ty := rw, dom := pkg, rst := [136], stg := true }
/-- `PKG_GEOM_Dn.SLICE_SPACING`, bits [9:0]. -/
def PKG_GEOM_SLICE_SPACING : Fld :=
  { blk := 26, reg := 0x120, lo := 0, w := 10, ty := rw, dom := pkg, rst := [560], stg := true }
/-! ### Registers of spec/02_package_as_one_part.md -/

/-- `PKG_INFO.DIE_COUNT`, bits [7:4]. -/
def PKG_INFO_DIE_COUNT : Fld :=
  { blk := 26, reg := 0x0, lo := 4, w := 4, ty := ro, dom := por, rst := [0] }
/-- `PKG_INFO.SPEED_GRADE`, bits [3:0]. -/
def PKG_INFO_SPEED_GRADE : Fld :=
  { blk := 26, reg := 0x0, lo := 0, w := 4, ty := ro, dom := por, rst := [0] }
/-- `PKG_CROWN_STATUS.TAKEOVER_COUNT`, bits [31:24]. -/
def PKG_CROWN_STATUS_TAKEOVER_COUNT : Fld :=
  { blk := 26, reg := 0x4, lo := 24, w := 8, ty := ro, dom := pkg, rst := [0] }
/-- `PKG_CROWN_STATUS.HANDOVER_REFUSED`, bits [19:19]. -/
def PKG_CROWN_STATUS_HANDOVER_REFUSED : Fld :=
  { blk := 26, reg := 0x4, lo := 19, w := 1, ty := w1c, dom := pkg, rst := [0] }
/-- `PKG_CROWN_STATUS.HANDOVER_PENDING`, bits [18:18]. -/
def PKG_CROWN_STATUS_HANDOVER_PENDING : Fld :=
  { blk := 26, reg := 0x4, lo := 18, w := 1, ty := ro, dom := pkg, rst := [0] }
/-- `PKG_CROWN_STATUS.HANDOVER_DONE`, bits [17:17]. -/
def PKG_CROWN_STATUS_HANDOVER_DONE : Fld :=
  { blk := 26, reg := 0x4, lo := 17, w := 1, ty := w1c, dom := pkg, rst := [0] }
/-- `PKG_CROWN_STATUS.TAKEOVER`, bits [16:16]. -/
def PKG_CROWN_STATUS_TAKEOVER : Fld :=
  { blk := 26, reg := 0x4, lo := 16, w := 1, ty := w1c, dom := pkg, rst := [0] }
/-- `PKG_CROWN_STATUS.PLM_AVAIL`, bits [8:8]. -/
def PKG_CROWN_STATUS_PLM_AVAIL : Fld :=
  { blk := 26, reg := 0x4, lo := 8, w := 1, ty := ro, dom := pkg, rst := [0] }
/-- `PKG_CROWN_STATUS.STANDBY_VALID`, bits [7:7]. -/
def PKG_CROWN_STATUS_STANDBY_VALID : Fld :=
  { blk := 26, reg := 0x4, lo := 7, w := 1, ty := ro, dom := pkg, rst := [0] }
/-- `PKG_CROWN_STATUS.STANDBY`, bits [6:4]. -/
def PKG_CROWN_STATUS_STANDBY : Fld :=
  { blk := 26, reg := 0x4, lo := 4, w := 3, ty := ro, dom := pkg, rst := [0] }
/-- `PKG_CROWN_STATUS.CROWN`, bits [2:0]. -/
def PKG_CROWN_STATUS_CROWN : Fld :=
  { blk := 26, reg := 0x4, lo := 0, w := 3, ty := ro, dom := pkg, rst := [0] }
/-- `PKG_CROWN_CTRL.HANDOVER`, bits [8:8]. -/
def PKG_CROWN_CTRL_HANDOVER : Fld :=
  { blk := 26, reg := 0x8, lo := 8, w := 1, ty := wo, dom := pkg, rst := [0] }
/-- `PKG_CROWN_CTRL.TARGET`, bits [2:0]. -/
def PKG_CROWN_CTRL_TARGET : Fld :=
  { blk := 26, reg := 0x8, lo := 0, w := 3, ty := rw, dom := pkg, rst := [1] }
/-- `PKG_QUAR_STATUS.QUARANTINED`, bits [7:0]. -/
def PKG_QUAR_STATUS_QUARANTINED : Fld :=
  { blk := 26, reg := 0x10, lo := 0, w := 8, ty := ro, dom := pkg, rst := [0] }
/-- `PKG_QUAR_CAUSE.CAUSE`, bits [31:0]. -/
def PKG_QUAR_CAUSE_CAUSE : Fld :=
  { blk := 26, reg := 0x14, lo := 0, w := 32, ty := ro, dom := pkg, rst := [0] }
/-- `PKG_QUAR_CTRL.AUTO_RELEASE`, bits [16:16]. -/
def PKG_QUAR_CTRL_AUTO_RELEASE : Fld :=
  { blk := 26, reg := 0x18, lo := 16, w := 1, ty := rw, dom := pkg, rst := [1] }
/-- `PKG_QUAR_CTRL.RELEASE`, bits [15:8]. -/
def PKG_QUAR_CTRL_RELEASE : Fld :=
  { blk := 26, reg := 0x18, lo := 8, w := 8, ty := wo, dom := pkg, rst := [0] }
/-- `PKG_QUAR_CTRL.QUAR_REQ`, bits [7:0]. -/
def PKG_QUAR_CTRL_QUAR_REQ : Fld :=
  { blk := 26, reg := 0x18, lo := 0, w := 8, ty := wo, dom := pkg, rst := [0] }
/-- `PKG_QUAR_EVENT.MASS_MISMATCH`, bits [24:24]. -/
def PKG_QUAR_EVENT_MASS_MISMATCH : Fld :=
  { blk := 26, reg := 0x1C, lo := 24, w := 1, ty := w1c, dom := pkg, rst := [0] }
/-- `PKG_QUAR_EVENT.RELEASE_FAIL`, bits [23:16]. -/
def PKG_QUAR_EVENT_RELEASE_FAIL : Fld :=
  { blk := 26, reg := 0x1C, lo := 16, w := 8, ty := w1c, dom := pkg, rst := [0] }
/-- `PKG_QUAR_EVENT.RELEASED`, bits [15:8]. -/
def PKG_QUAR_EVENT_RELEASED : Fld :=
  { blk := 26, reg := 0x1C, lo := 8, w := 8, ty := w1c, dom := pkg, rst := [0] }
/-- `PKG_QUAR_EVENT.ENTERED`, bits [7:0]. -/
def PKG_QUAR_EVENT_ENTERED : Fld :=
  { blk := 26, reg := 0x1C, lo := 0, w := 8, ty := w1c, dom := pkg, rst := [0] }
/-- `PKG_IRQ_STATUS.GPIO`, bits [16:16]. -/
def PKG_IRQ_STATUS_GPIO : Fld :=
  { blk := 26, reg := 0x20, lo := 16, w := 1, ty := w1c, dom := pkg, rst := [0] }
/-- `PKG_IRQ_STATUS.IMG`, bits [15:15]. -/
def PKG_IRQ_STATUS_IMG : Fld :=
  { blk := 26, reg := 0x20, lo := 15, w := 1, ty := w1c, dom := pkg, rst := [0] }
/-- `PKG_IRQ_STATUS.PLM`, bits [14:14]. -/
def PKG_IRQ_STATUS_PLM : Fld :=
  { blk := 26, reg := 0x20, lo := 14, w := 1, ty := w1c, dom := pkg, rst := [0] }
/-- `PKG_IRQ_STATUS.TIM`, bits [13:13]. -/
def PKG_IRQ_STATUS_TIM : Fld :=
  { blk := 26, reg := 0x20, lo := 13, w := 1, ty := w1c, dom := pkg, rst := [0] }
/-- `PKG_IRQ_STATUS.ADDR`, bits [12:12]. -/
def PKG_IRQ_STATUS_ADDR : Fld :=
  { blk := 26, reg := 0x20, lo := 12, w := 1, ty := w1c, dom := pkg, rst := [0] }
/-- `PKG_IRQ_STATUS.RING`, bits [11:11]. -/
def PKG_IRQ_STATUS_RING : Fld :=
  { blk := 26, reg := 0x20, lo := 11, w := 1, ty := w1c, dom := pkg, rst := [0] }
/-- `PKG_IRQ_STATUS.QUAR`, bits [10:10]. -/
def PKG_IRQ_STATUS_QUAR : Fld :=
  { blk := 26, reg := 0x20, lo := 10, w := 1, ty := w1c, dom := pkg, rst := [0] }
/-- `PKG_IRQ_STATUS.CROWN`, bits [9:9]. -/
def PKG_IRQ_STATUS_CROWN : Fld :=
  { blk := 26, reg := 0x20, lo := 9, w := 1, ty := w1c, dom := pkg, rst := [0] }
/-- `PKG_IRQ_STATUS.TEAM`, bits [8:8]. -/
def PKG_IRQ_STATUS_TEAM : Fld :=
  { blk := 26, reg := 0x20, lo := 8, w := 1, ty := w1c, dom := pkg, rst := [0] }
/-- `PKG_IRQ_STATUS.DIE`, bits [7:0]. -/
def PKG_IRQ_STATUS_DIE : Fld :=
  { blk := 26, reg := 0x20, lo := 0, w := 8, ty := w1c, dom := pkg, rst := [0] }
/-- `PKG_IRQ_MASK.GLOBAL_EN`, bits [31:31]. -/
def PKG_IRQ_MASK_GLOBAL_EN : Fld :=
  { blk := 26, reg := 0x24, lo := 31, w := 1, ty := rw, dom := pkg, rst := [0] }
/-- `PKG_IRQ_MASK.ENABLE`, bits [16:0]. -/
def PKG_IRQ_MASK_ENABLE : Fld :=
  { blk := 26, reg := 0x24, lo := 0, w := 17, ty := rw, dom := pkg, rst := [0] }
/-- `PKG_FAULT_MASK.ENABLE`, bits [16:0]. -/
def PKG_FAULT_MASK_ENABLE : Fld :=
  { blk := 26, reg := 0x28, lo := 0, w := 17, ty := rw, dom := pkg, rst := [1536] }
/-- `PKG_ADDR_ERR.UNMAPPED`, bits [6:6]. -/
def PKG_ADDR_ERR_UNMAPPED : Fld :=
  { blk := 26, reg := 0x30, lo := 6, w := 1, ty := w1c, dom := pkg, rst := [0] }
/-- `PKG_ADDR_ERR.PATH_OFF`, bits [5:5]. -/
def PKG_ADDR_ERR_PATH_OFF : Fld :=
  { blk := 26, reg := 0x30, lo := 5, w := 1, ty := w1c, dom := pkg, rst := [0] }
/-- `PKG_ADDR_ERR.BAD_MSG`, bits [4:4]. -/
def PKG_ADDR_ERR_BAD_MSG : Fld :=
  { blk := 26, reg := 0x30, lo := 4, w := 1, ty := w1c, dom := pkg, rst := [0] }
/-- `PKG_ADDR_ERR.DENIED`, bits [3:3]. -/
def PKG_ADDR_ERR_DENIED : Fld :=
  { blk := 26, reg := 0x30, lo := 3, w := 1, ty := w1c, dom := pkg, rst := [0] }
/-- `PKG_ADDR_ERR.BCAST_BAD`, bits [2:2]. -/
def PKG_ADDR_ERR_BCAST_BAD : Fld :=
  { blk := 26, reg := 0x30, lo := 2, w := 1, ty := w1c, dom := pkg, rst := [0] }
/-- `PKG_ADDR_ERR.TIMEOUT`, bits [1:1]. -/
def PKG_ADDR_ERR_TIMEOUT : Fld :=
  { blk := 26, reg := 0x30, lo := 1, w := 1, ty := w1c, dom := pkg, rst := [0] }
/-- `PKG_ADDR_ERR.NO_DIE`, bits [0:0]. -/
def PKG_ADDR_ERR_NO_DIE : Fld :=
  { blk := 26, reg := 0x30, lo := 0, w := 1, ty := w1c, dom := pkg, rst := [0] }
/-- `PKG_ADDR_ERR_ADDR.ADDRESS`, bits [31:0]. -/
def PKG_ADDR_ERR_ADDR_ADDRESS : Fld :=
  { blk := 26, reg := 0x34, lo := 0, w := 32, ty := ro, dom := pkg, rst := [0] }
/-- `PKG_MGMT_PATH_CTRL.LOCK`, bits [31:31]. -/
def PKG_MGMT_PATH_CTRL_LOCK : Fld :=
  { blk := 26, reg := 0x40, lo := 31, w := 1, ty := rw, dom := pkg, rst := [0] }
/-- `PKG_MGMT_PATH_CTRL.REMOTE_SECURE_EN`, bits [4:4]. -/
def PKG_MGMT_PATH_CTRL_REMOTE_SECURE_EN : Fld :=
  { blk := 26, reg := 0x40, lo := 4, w := 1, ty := rw, dom := pkg, rst := [0] }
/-- `PKG_MGMT_PATH_CTRL.PL_WR_EN`, bits [3:3]. -/
def PKG_MGMT_PATH_CTRL_PL_WR_EN : Fld :=
  { blk := 26, reg := 0x40, lo := 3, w := 1, ty := rw, dom := pkg, rst := [0] }
/-- `PKG_MGMT_PATH_CTRL.PL_EN`, bits [2:2]. -/
def PKG_MGMT_PATH_CTRL_PL_EN : Fld :=
  { blk := 26, reg := 0x40, lo := 2, w := 1, ty := rw, dom := pkg, rst := [0] }
/-- `PKG_MGMT_PATH_CTRL.INBAND_WR_EN`, bits [1:1]. -/
def PKG_MGMT_PATH_CTRL_INBAND_WR_EN : Fld :=
  { blk := 26, reg := 0x40, lo := 1, w := 1, ty := rw, dom := pkg, rst := [0] }
/-- `PKG_MGMT_PATH_CTRL.INBAND_EN`, bits [0:0]. -/
def PKG_MGMT_PATH_CTRL_INBAND_EN : Fld :=
  { blk := 26, reg := 0x40, lo := 0, w := 1, ty := rw, dom := pkg, rst := [0] }
/-- `PKG_INBAND_CFG.MGMT_DIE`, bits [27:25]. -/
def PKG_INBAND_CFG_MGMT_DIE : Fld :=
  { blk := 26, reg := 0x44, lo := 25, w := 3, ty := rw, dom := pkg, rst := [0] }
/-- `PKG_INBAND_CFG.MGMT_FLOW`, bits [24:16]. -/
def PKG_INBAND_CFG_MGMT_FLOW : Fld :=
  { blk := 26, reg := 0x44, lo := 16, w := 9, ty := rw, dom := pkg, rst := [0] }
/-- `PKG_INBAND_CFG.ETHERTYPE`, bits [15:0]. -/
def PKG_INBAND_CFG_ETHERTYPE : Fld :=
  { blk := 26, reg := 0x44, lo := 0, w := 16, ty := rw, dom := pkg, rst := [34997] }
/-- `PKG_BCAST_SEL.DIE`, bits [2:0]. -/
def PKG_BCAST_SEL_DIE : Fld :=
  { blk := 26, reg := 0x48, lo := 0, w := 3, ty := rw, dom := pkg, rst := [0] }
/-- `PKG_BCAST_STATUS.FAIL_MASK`, bits [7:0]. -/
def PKG_BCAST_STATUS_FAIL_MASK : Fld :=
  { blk := 26, reg := 0x4C, lo := 0, w := 8, ty := ro, dom := pkg, rst := [0] }
/-- `PKG_DIE_INFO.FAMILY`, bits [31:24]. -/
def PKG_DIE_INFO_FAMILY : Fld :=
  { blk := 0, reg := 0x0, lo := 24, w := 8, ty := ro, dom := por, rst := [250] }
/-- `PKG_DIE_INFO.REV_MAJOR`, bits [15:12]. -/
def PKG_DIE_INFO_REV_MAJOR : Fld :=
  { blk := 0, reg := 0x0, lo := 12, w := 4, ty := ro, dom := por, rst := [1] }
/-- `PKG_DIE_INFO.REV_MINOR`, bits [11:8]. -/
def PKG_DIE_INFO_REV_MINOR : Fld :=
  { blk := 0, reg := 0x0, lo := 8, w := 4, ty := ro, dom := por, rst := [1] }
/-- `PKG_DIE_INFO.DIE_INDEX`, bits [2:0]. -/
def PKG_DIE_INFO_DIE_INDEX : Fld :=
  { blk := 0, reg := 0x0, lo := 0, w := 3, ty := ro, dom := por, rst := [0] }
/-- `PKG_DIE_ADDR_ERR.IN_RESET`, bits [2:2]. -/
def PKG_DIE_ADDR_ERR_IN_RESET : Fld :=
  { blk := 0, reg := 0x10, lo := 2, w := 1, ty := w1c, dom := die, rst := [0] }
/-- `PKG_DIE_ADDR_ERR.UNALIGNED`, bits [1:1]. -/
def PKG_DIE_ADDR_ERR_UNALIGNED : Fld :=
  { blk := 0, reg := 0x10, lo := 1, w := 1, ty := w1c, dom := die, rst := [0] }
/-- `PKG_DIE_ADDR_ERR.UNMAPPED`, bits [0:0]. -/
def PKG_DIE_ADDR_ERR_UNMAPPED : Fld :=
  { blk := 0, reg := 0x10, lo := 0, w := 1, ty := w1c, dom := die, rst := [0] }
/-- `PKG_DIE_ADDR_ERR_ADDR.ADDRESS`, bits [31:0]. -/
def PKG_DIE_ADDR_ERR_ADDR_ADDRESS : Fld :=
  { blk := 0, reg := 0x14, lo := 0, w := 32, ty := ro, dom := die, rst := [0] }
/-- `PKG_DIE_IRQ_STATUS.BLOCK`, bits [25:0]. -/
def PKG_DIE_IRQ_STATUS_BLOCK : Fld :=
  { blk := 0, reg := 0x20, lo := 0, w := 26, ty := w1c, dom := die, rst := [0] }
/-- `PKG_DIE_IRQ_MASK.ENABLE`, bits [25:0]. -/
def PKG_DIE_IRQ_MASK_ENABLE : Fld :=
  { blk := 0, reg := 0x24, lo := 0, w := 26, ty := rw, dom := die, rst := [0] }
/-- `PKG_DIE_STATUS.QUARANTINED`, bits [6:6]. -/
def PKG_DIE_STATUS_QUARANTINED : Fld :=
  { blk := 0, reg := 0x28, lo := 6, w := 1, ty := ro, dom := por, rst := [0] }
/-- `PKG_DIE_STATUS.IS_STANDBY`, bits [5:5]. -/
def PKG_DIE_STATUS_IS_STANDBY : Fld :=
  { blk := 0, reg := 0x28, lo := 5, w := 1, ty := ro, dom := por, rst := [0] }
/-- `PKG_DIE_STATUS.IS_CROWN`, bits [4:4]. -/
def PKG_DIE_STATUS_IS_CROWN : Fld :=
  { blk := 0, reg := 0x28, lo := 4, w := 1, ty := ro, dom := por, rst := [0] }
/-- `PKG_DIE_STATUS.RING_CCW_OK`, bits [2:2]. -/
def PKG_DIE_STATUS_RING_CCW_OK : Fld :=
  { blk := 0, reg := 0x28, lo := 2, w := 1, ty := ro, dom := por, rst := [0] }
/-- `PKG_DIE_STATUS.RING_CW_OK`, bits [1:1]. -/
def PKG_DIE_STATUS_RING_CW_OK : Fld :=
  { blk := 0, reg := 0x28, lo := 1, w := 1, ty := ro, dom := por, rst := [0] }
/-- `PKG_DIE_STATUS.CROWN_STUCK`, bits [0:0]. -/
def PKG_DIE_STATUS_CROWN_STUCK : Fld :=
  { blk := 0, reg := 0x28, lo := 0, w := 1, ty := w1c, dom := por, rst := [0] }
/-- `RING_EVENT.CCW_BREAK`, bits [2:2]. -/
def RING_EVENT_CCW_BREAK : Fld :=
  { blk := 25, reg := 0x8, lo := 2, w := 1, ty := w1c, dom := die, rst := [0] }
/-- `RING_EVENT.CW_BREAK`, bits [1:1]. -/
def RING_EVENT_CW_BREAK : Fld :=
  { blk := 25, reg := 0x8, lo := 1, w := 1, ty := w1c, dom := die, rst := [0] }
/-- `RING_EVENT.DISCARD`, bits [0:0]. -/
def RING_EVENT_DISCARD : Fld :=
  { blk := 25, reg := 0x8, lo := 0, w := 1, ty := w1c, dom := die, rst := [0] }
/-- `RING_EVENT_MASK.ENABLE`, bits [2:0]. -/
def RING_EVENT_MASK_ENABLE : Fld :=
  { blk := 25, reg := 0xC, lo := 0, w := 3, ty := rw, dom := die, rst := [6] }
/-- `RING_DISCARD_CW.COUNT`, bits [31:0]. -/
def RING_DISCARD_CW_COUNT : Fld :=
  { blk := 25, reg := 0x10, lo := 0, w := 32, ty := rc, dom := blk, rst := [0] }
/-- `RING_DISCARD_CCW.COUNT`, bits [31:0]. -/
def RING_DISCARD_CCW_COUNT : Fld :=
  { blk := 25, reg := 0x14, lo := 0, w := 32, ty := rc, dom := blk, rst := [0] }
/-! ### Registers of spec/03_structure_image.md -/

/-- `BLK_DIS_CTRL.MODE`, bits [31:31]. -/
def BLK_DIS_CTRL_MODE : Fld :=
  { blk := 27, reg := 0x1FF00, lo := 31, w := 1, ty := rw, dom := die, rst := [0] }
/-- `BLK_DIS_CTRL.LIMIT`, bits [15:0]. -/
def BLK_DIS_CTRL_LIMIT : Fld :=
  { blk := 27, reg := 0x1FF00, lo := 0, w := 16, ty := rw, dom := die, rst := [100] }
/-- `BLK_DIS_STATUS.ABORTED`, bits [9:9]. -/
def BLK_DIS_STATUS_ABORTED : Fld :=
  { blk := 27, reg := 0x1FF04, lo := 9, w := 1, ty := w1c, dom := blk, rst := [0] }
/-- `BLK_DIS_STATUS.DRAIN_TIMEOUT`, bits [8:8]. -/
def BLK_DIS_STATUS_DRAIN_TIMEOUT : Fld :=
  { blk := 27, reg := 0x1FF04, lo := 8, w := 1, ty := w1c, dom := blk, rst := [0] }
/-- `BLK_DIS_STATUS.DRAINING`, bits [1:1]. -/
def BLK_DIS_STATUS_DRAINING : Fld :=
  { blk := 27, reg := 0x1FF04, lo := 1, w := 1, ty := ro, dom := blk, rst := [0] }
/-- `BLK_DIS_STATUS.IDLE`, bits [0:0]. -/
def BLK_DIS_STATUS_IDLE : Fld :=
  { blk := 27, reg := 0x1FF04, lo := 0, w := 1, ty := ro, dom := blk, rst := [1] }
/-- `BLK_DIS_TIMEOUTS.COUNT`, bits [31:0]. -/
def BLK_DIS_TIMEOUTS_COUNT : Fld :=
  { blk := 27, reg := 0x1FF08, lo := 0, w := 32, ty := rc, dom := blk, rst := [0] }
/-- `BLK_DIS_DISCARDS.COUNT`, bits [31:0]. -/
def BLK_DIS_DISCARDS_COUNT : Fld :=
  { blk := 27, reg := 0x1FF0C, lo := 0, w := 32, ty := rc, dom := blk, rst := [0] }
/-- `BLK_DIS_REFUSED.COUNT`, bits [31:0]. -/
def BLK_DIS_REFUSED_COUNT : Fld :=
  { blk := 27, reg := 0x1FF10, lo := 0, w := 32, ty := rc, dom := blk, rst := [0] }
/-- `IMG_STATUS.OTP_ROLLBACK`, bits [31:24]. -/
def IMG_STATUS_OTP_ROLLBACK : Fld :=
  { blk := 1, reg := 0x0, lo := 24, w := 8, ty := ro, dom := pkg, rst := [0] }
/-- `IMG_STATUS.ROLLBACK`, bits [23:16]. -/
def IMG_STATUS_ROLLBACK : Fld :=
  { blk := 1, reg := 0x0, lo := 16, w := 8, ty := ro, dom := pkg, rst := [0] }
/-- `IMG_STATUS.FAIL_REASON`, bits [15:12]. -/
def IMG_STATUS_FAIL_REASON : Fld :=
  { blk := 1, reg := 0x0, lo := 12, w := 4, ty := ro, dom := pkg, rst := [0] }
/-- `IMG_STATUS.GOLDEN_FAIL`, bits [10:10]. -/
def IMG_STATUS_GOLDEN_FAIL : Fld :=
  { blk := 1, reg := 0x0, lo := 10, w := 1, ty := w1c, dom := pkg, rst := [0] }
/-- `IMG_STATUS.UPDATE_FAIL`, bits [9:9]. -/
def IMG_STATUS_UPDATE_FAIL : Fld :=
  { blk := 1, reg := 0x0, lo := 9, w := 1, ty := w1c, dom := pkg, rst := [0] }
/-- `IMG_STATUS.UNSECURED`, bits [8:8]. -/
def IMG_STATUS_UNSECURED : Fld :=
  { blk := 1, reg := 0x0, lo := 8, w := 1, ty := ro, dom := pkg, rst := [0] }
/-- `IMG_STATUS.SOURCE`, bits [5:4]. -/
def IMG_STATUS_SOURCE : Fld :=
  { blk := 1, reg := 0x0, lo := 4, w := 2, ty := ro, dom := pkg, rst := [0] }
/-- `IMG_STATUS.STATE`, bits [3:0]. -/
def IMG_STATUS_STATE : Fld :=
  { blk := 1, reg := 0x0, lo := 0, w := 4, ty := ro, dom := pkg, rst := [1] }
/-- `IMG_DIGEST_LO.DIGEST`, bits [31:0]. -/
def IMG_DIGEST_LO_DIGEST : Fld :=
  { blk := 1, reg := 0x8, lo := 0, w := 32, ty := ro, dom := pkg, rst := [0] }
/-- `IMG_DIGEST_HI.DIGEST`, bits [31:0]. -/
def IMG_DIGEST_HI_DIGEST : Fld :=
  { blk := 1, reg := 0xC, lo := 0, w := 32, ty := ro, dom := pkg, rst := [0] }
/-- `IMG_LOAD_CTRL.GO`, bits [8:8]. -/
def IMG_LOAD_CTRL_GO : Fld :=
  { blk := 1, reg := 0x10, lo := 8, w := 1, ty := wo, dom := por, rst := [0] }
/-- `IMG_LOAD_CTRL.SOURCE_SEL`, bits [1:0]. -/
def IMG_LOAD_CTRL_SOURCE_SEL : Fld :=
  { blk := 1, reg := 0x10, lo := 0, w := 2, ty := rw, dom := por, rst := [0] }
/-- `IMG_FLASH_ADDR.ADDRESS`, bits [31:0]. -/
def IMG_FLASH_ADDR_ADDRESS : Fld :=
  { blk := 1, reg := 0x20, lo := 0, w := 32, ty := rw, dom := pkg, rst := [0] }
/-- `IMG_FLASH_DATA.DATA`, bits [31:0]. -/
def IMG_FLASH_DATA_DATA : Fld :=
  { blk := 1, reg := 0x24, lo := 0, w := 32, ty := rw, dom := pkg, rst := [0] }
/-- `IMG_FLASH_CMD.ERR`, bits [9:9]. -/
def IMG_FLASH_CMD_ERR : Fld :=
  { blk := 1, reg := 0x28, lo := 9, w := 1, ty := w1c, dom := pkg, rst := [0] }
/-- `IMG_FLASH_CMD.BUSY`, bits [8:8]. -/
def IMG_FLASH_CMD_BUSY : Fld :=
  { blk := 1, reg := 0x28, lo := 8, w := 1, ty := ro, dom := pkg, rst := [0] }
/-- `IMG_FLASH_CMD.CMD`, bits [1:0]. -/
def IMG_FLASH_CMD_CMD : Fld :=
  { blk := 1, reg := 0x28, lo := 0, w := 2, ty := wo, dom := pkg, rst := [0] }
/-- `IMG_OTP_DATA.DATA`, bits [31:0]. -/
def IMG_OTP_DATA_DATA : Fld :=
  { blk := 1, reg := 0x30, lo := 0, w := 32, ty := wo, dom := pkg, rst := [0] }
/-- `IMG_OTP_CTRL.WORDS`, bits [16:12]. -/
def IMG_OTP_CTRL_WORDS : Fld :=
  { blk := 1, reg := 0x34, lo := 12, w := 5, ty := ro, dom := pkg, rst := [0] }
/-- `IMG_OTP_CTRL.PROGRAMMED`, bits [11:8]. -/
def IMG_OTP_CTRL_PROGRAMMED : Fld :=
  { blk := 1, reg := 0x34, lo := 8, w := 4, ty := ro, dom := pkg, rst := [0] }
/-- `IMG_OTP_CTRL.ERR`, bits [7:7]. -/
def IMG_OTP_CTRL_ERR : Fld :=
  { blk := 1, reg := 0x34, lo := 7, w := 1, ty := w1c, dom := pkg, rst := [0] }
/-- `IMG_OTP_CTRL.DONE`, bits [6:6]. -/
def IMG_OTP_CTRL_DONE : Fld :=
  { blk := 1, reg := 0x34, lo := 6, w := 1, ty := w1c, dom := pkg, rst := [0] }
/-- `IMG_OTP_CTRL.PROGRAM`, bits [5:5]. -/
def IMG_OTP_CTRL_PROGRAM : Fld :=
  { blk := 1, reg := 0x34, lo := 5, w := 1, ty := wo, dom := pkg, rst := [0] }
/-- `IMG_OTP_CTRL.ITEM`, bits [1:0]. -/
def IMG_OTP_CTRL_ITEM : Fld :=
  { blk := 1, reg := 0x34, lo := 0, w := 2, ty := rw, dom := pkg, rst := [0] }
/-- `IMG_ROLLBACK_ADV.VALUE`, bits [6:0]. -/
def IMG_ROLLBACK_ADV_VALUE : Fld :=
  { blk := 1, reg := 0x3C, lo := 0, w := 7, ty := wo, dom := pkg, rst := [0] }
/-- `IMG_TXN_CTRL.ROLLBACK`, bits [10:10]. -/
def IMG_TXN_CTRL_ROLLBACK : Fld :=
  { blk := 1, reg := 0x100, lo := 10, w := 1, ty := wo, dom := pkg, rst := [0] }
/-- `IMG_TXN_CTRL.ABORT`, bits [9:9]. -/
def IMG_TXN_CTRL_ABORT : Fld :=
  { blk := 1, reg := 0x100, lo := 9, w := 1, ty := wo, dom := pkg, rst := [0] }
/-- `IMG_TXN_CTRL.COMMIT`, bits [8:8]. -/
def IMG_TXN_CTRL_COMMIT : Fld :=
  { blk := 1, reg := 0x100, lo := 8, w := 1, ty := wo, dom := pkg, rst := [0] }
/-- `IMG_TXN_CTRL.LEAD`, bits [7:0]. -/
def IMG_TXN_CTRL_LEAD : Fld :=
  { blk := 1, reg := 0x100, lo := 0, w := 8, ty := rw, dom := pkg, rst := [2] }
/-- `IMG_TXN_STATUS.SPLIT`, bits [17:17]. -/
def IMG_TXN_STATUS_SPLIT : Fld :=
  { blk := 1, reg := 0x104, lo := 17, w := 1, ty := w1c, dom := pkg, rst := [0] }
/-- `IMG_TXN_STATUS.ABORT_IGNORED`, bits [16:16]. -/
def IMG_TXN_STATUS_ABORT_IGNORED : Fld :=
  { blk := 1, reg := 0x104, lo := 16, w := 1, ty := w1c, dom := pkg, rst := [0] }
/-- `IMG_TXN_STATUS.REFUSE_DIE`, bits [15:12]. -/
def IMG_TXN_STATUS_REFUSE_DIE : Fld :=
  { blk := 1, reg := 0x104, lo := 12, w := 4, ty := ro, dom := pkg, rst := [0] }
/-- `IMG_TXN_STATUS.REASON`, bits [11:8]. -/
def IMG_TXN_STATUS_REASON : Fld :=
  { blk := 1, reg := 0x104, lo := 8, w := 4, ty := ro, dom := pkg, rst := [0] }
/-- `IMG_TXN_STATUS.RESULT`, bits [7:4]. -/
def IMG_TXN_STATUS_RESULT : Fld :=
  { blk := 1, reg := 0x104, lo := 4, w := 4, ty := ro, dom := pkg, rst := [0] }
/-- `IMG_TXN_STATUS.STATE`, bits [3:0]. -/
def IMG_TXN_STATUS_STATE : Fld :=
  { blk := 1, reg := 0x104, lo := 0, w := 4, ty := ro, dom := pkg, rst := [0] }
/-- `IMG_EPOCH.EPOCH`, bits [31:0]. -/
def IMG_EPOCH_EPOCH : Fld :=
  { blk := 1, reg := 0x108, lo := 0, w := 32, ty := ro, dom := pkg, rst := [0] }
/-- `IMG_TXN_MF.MF`, bits [31:0]. -/
def IMG_TXN_MF_MF : Fld :=
  { blk := 1, reg := 0x10C, lo := 0, w := 32, ty := ro, dom := pkg, rst := [0] }
/-- `IMG_SHADOW.VALID`, bits [31:31]. -/
def IMG_SHADOW_VALID : Fld :=
  { blk := 1, reg := 0x110, lo := 31, w := 1, ty := ro, dom := pkg, rst := [0] }
/-- `IMG_SHADOW.REMAINING`, bits [8:0]. -/
def IMG_SHADOW_REMAINING : Fld :=
  { blk := 1, reg := 0x110, lo := 0, w := 9, ty := ro, dom := pkg, rst := [0] }
/-- `IMG_STAGE_CTRL.DISCARD`, bits [0:0]. -/
def IMG_STAGE_CTRL_DISCARD : Fld :=
  { blk := 1, reg := 0x200, lo := 0, w := 1, ty := wo, dom := die, rst := [0] }
/-- `IMG_DIE_STATUS.BLOCK_RETIRED`, bits [31:20]. -/
def IMG_DIE_STATUS_BLOCK_RETIRED : Fld :=
  { blk := 1, reg := 0x204, lo := 20, w := 12, ty := ro, dom := die, rst := [0] }
/-- `IMG_DIE_STATUS.LAST_REASON`, bits [7:4]. -/
def IMG_DIE_STATUS_LAST_REASON : Fld :=
  { blk := 1, reg := 0x204, lo := 4, w := 4, ty := ro, dom := die, rst := [0] }
/-- `IMG_DIE_STATUS.IN_DOUBT`, bits [3:3]. -/
def IMG_DIE_STATUS_IN_DOUBT : Fld :=
  { blk := 1, reg := 0x204, lo := 3, w := 1, ty := ro, dom := die, rst := [0] }
/-- `IMG_DIE_STATUS.PENDING`, bits [2:2]. -/
def IMG_DIE_STATUS_PENDING : Fld :=
  { blk := 1, reg := 0x204, lo := 2, w := 1, ty := ro, dom := die, rst := [0] }
/-- `IMG_DIE_STATUS.DIRTY`, bits [0:0]. -/
def IMG_DIE_STATUS_DIRTY : Fld :=
  { blk := 1, reg := 0x204, lo := 0, w := 1, ty := ro, dom := die, rst := [0] }
/-- `IMG_CELL_SPARES.POLY`, bits [22:21]. -/
def IMG_CELL_SPARES_POLY : Fld :=
  { blk := 1, reg := 0x380, lo := 21, w := 2, ty := ro, dom := die, rst := [0] }
/-- `IMG_CELL_SPARES.LDPC`, bits [20:14]. -/
def IMG_CELL_SPARES_LDPC : Fld :=
  { blk := 1, reg := 0x380, lo := 14, w := 7, ty := ro, dom := die, rst := [0] }
/-- `IMG_CELL_SPARES.MAPPER`, bits [13:12]. -/
def IMG_CELL_SPARES_MAPPER : Fld :=
  { blk := 1, reg := 0x380, lo := 12, w := 2, ty := ro, dom := die, rst := [0] }
/-- `IMG_CELL_SPARES.CORDIC`, bits [11:9]. -/
def IMG_CELL_SPARES_CORDIC : Fld :=
  { blk := 1, reg := 0x380, lo := 9, w := 3, ty := ro, dom := die, rst := [0] }
/-- `IMG_CELL_SPARES.MAC`, bits [8:3]. -/
def IMG_CELL_SPARES_MAC : Fld :=
  { blk := 1, reg := 0x380, lo := 3, w := 6, ty := ro, dom := die, rst := [0] }
/-- `IMG_CELL_SPARES.FFT`, bits [2:0]. -/
def IMG_CELL_SPARES_FFT : Fld :=
  { blk := 1, reg := 0x380, lo := 0, w := 3, ty := ro, dom := die, rst := [0] }
/-- `IMG_CELL_REMAP_k.VALID`, bits [31:31]. -/
def IMG_CELL_REMAP_VALID : Fld :=
  { blk := 1, reg := 0x400, lo := 31, w := 1, ty := rw, dom := por, rst := [0] }
/-- `IMG_CELL_REMAP_k.TYPE`, bits [30:28]. -/
def IMG_CELL_REMAP_TYPE : Fld :=
  { blk := 1, reg := 0x400, lo := 28, w := 3, ty := rw, dom := por, rst := [0] }
/-- `IMG_CELL_REMAP_k.FAILED`, bits [27:16]. -/
def IMG_CELL_REMAP_FAILED : Fld :=
  { blk := 1, reg := 0x400, lo := 16, w := 12, ty := rw, dom := por, rst := [0] }
/-- `IMG_CELL_REMAP_k.SPARE`, bits [11:0]. -/
def IMG_CELL_REMAP_SPARE : Fld :=
  { blk := 1, reg := 0x400, lo := 0, w := 12, ty := rw, dom := por, rst := [0] }
/-! ### Registers of spec/04_line_converters.md -/

/-- `CNV_CTRL.SENSE_EN`, bits [8:8]. -/
def CNV_CTRL_SENSE_EN : Fld :=
  { blk := 2, reg := 0x0, lo := 8, w := 1, ty := rw, dom := die, rst := [1] }
/-- `CNV_CTRL.DAC_EN`, bits [7:4]. -/
def CNV_CTRL_DAC_EN : Fld :=
  { blk := 2, reg := 0x0, lo := 4, w := 4, ty := rw, dom := die, rst := [0] }
/-- `CNV_CTRL.ADC_EN`, bits [3:0]. -/
def CNV_CTRL_ADC_EN : Fld :=
  { blk := 2, reg := 0x0, lo := 0, w := 4, ty := rw, dom := die, rst := [0] }
/-- `CNV_STATUS.FG_ACTIVE`, bits [4:4]. -/
def CNV_STATUS_FG_ACTIVE : Fld :=
  { blk := 2, reg := 0x4, lo := 4, w := 1, ty := ro, dom := die, rst := [0] }
/-- `CNV_STATUS.FINE_SLEWING`, bits [3:3]. -/
def CNV_STATUS_FINE_SLEWING : Fld :=
  { blk := 2, reg := 0x4, lo := 3, w := 1, ty := ro, dom := die, rst := [0] }
/-- `CNV_STATUS.SYNTH_STANDBY`, bits [2:2]. -/
def CNV_STATUS_SYNTH_STANDBY : Fld :=
  { blk := 2, reg := 0x4, lo := 2, w := 1, ty := ro, dom := die, rst := [0] }
/-- `CNV_STATUS.SOURCE`, bits [1:1]. -/
def CNV_STATUS_SOURCE : Fld :=
  { blk := 2, reg := 0x4, lo := 1, w := 1, ty := ro, dom := die, rst := [0] }
/-- `CNV_STATUS.SCLK_LOCK`, bits [0:0]. -/
def CNV_STATUS_SCLK_LOCK : Fld :=
  { blk := 2, reg := 0x4, lo := 0, w := 1, ty := ro, dom := die, rst := [0] }
/-- `CNV_EVENT.SCLK_MISMATCH`, bits [8:8]. -/
def CNV_EVENT_SCLK_MISMATCH : Fld :=
  { blk := 2, reg := 0x8, lo := 8, w := 1, ty := w1c, dom := die, rst := [0] }
/-- `CNV_EVENT.CLIP`, bits [7:4]. -/
def CNV_EVENT_CLIP : Fld :=
  { blk := 2, reg := 0x8, lo := 4, w := 4, ty := w1c, dom := die, rst := [0] }
/-- `CNV_EVENT.SWITCH_ERR`, bits [3:3]. -/
def CNV_EVENT_SWITCH_ERR : Fld :=
  { blk := 2, reg := 0x8, lo := 3, w := 1, ty := w1c, dom := die, rst := [0] }
/-- `CNV_EVENT.CLAMP`, bits [2:2]. -/
def CNV_EVENT_CLAMP : Fld :=
  { blk := 2, reg := 0x8, lo := 2, w := 1, ty := w1c, dom := die, rst := [0] }
/-- `CNV_EVENT.SCLK_SWITCH`, bits [1:1]. -/
def CNV_EVENT_SCLK_SWITCH : Fld :=
  { blk := 2, reg := 0x8, lo := 1, w := 1, ty := w1c, dom := die, rst := [0] }
/-- `CNV_EVENT.SCLK_LOST`, bits [0:0]. -/
def CNV_EVENT_SCLK_LOST : Fld :=
  { blk := 2, reg := 0x8, lo := 0, w := 1, ty := w1c, dom := die, rst := [0] }
/-- `CNV_EVENT_MASK.ENABLE`, bits [8:0]. -/
def CNV_EVENT_MASK_ENABLE : Fld :=
  { blk := 2, reg := 0xC, lo := 0, w := 9, ty := rw, dom := die, rst := [3] }
/-- `CNV_SCLK_CTRL.SOURCE`, bits [0:0]. -/
def CNV_SCLK_CTRL_SOURCE : Fld :=
  { blk := 2, reg := 0x10, lo := 0, w := 1, ty := rw, dom := pkg, rst := [0] }
/-- `CNV_COEF_CTRL.WR_ERR`, bits [5:5]. -/
def CNV_COEF_CTRL_WR_ERR : Fld :=
  { blk := 2, reg := 0x20, lo := 5, w := 1, ty := w1c, dom := die, rst := [0] }
/-- `CNV_COEF_CTRL.OWNER`, bits [4:4]. -/
def CNV_COEF_CTRL_OWNER : Fld :=
  { blk := 2, reg := 0x20, lo := 4, w := 1, ty := rw, dom := die, rst := [0] }
/-- `CNV_COEF_CTRL.COPY_BACK`, bits [3:3]. -/
def CNV_COEF_CTRL_COPY_BACK : Fld :=
  { blk := 2, reg := 0x20, lo := 3, w := 1, ty := rw, dom := die, rst := [1] }
/-- `CNV_COEF_CTRL.SWITCH_PENDING`, bits [2:2]. -/
def CNV_COEF_CTRL_SWITCH_PENDING : Fld :=
  { blk := 2, reg := 0x20, lo := 2, w := 1, ty := ro, dom := die, rst := [0] }
/-- `CNV_COEF_CTRL.SWITCH`, bits [1:1]. -/
def CNV_COEF_CTRL_SWITCH : Fld :=
  { blk := 2, reg := 0x20, lo := 1, w := 1, ty := wo, dom := die, rst := [0] }
/-- `CNV_COEF_CTRL.ACTIVE_SET`, bits [0:0]. -/
def CNV_COEF_CTRL_ACTIVE_SET : Fld :=
  { blk := 2, reg := 0x20, lo := 0, w := 1, ty := ro, dom := die, rst := [0] }
/-- `CNV_RX_DELAY.FINE`, bits [25:16]. -/
def CNV_RX_DELAY_FINE : Fld :=
  { blk := 2, reg := 0x30, lo := 16, w := 10, ty := rw, dom := die, rst := [0] }
/-- `CNV_RX_DELAY.WHOLE`, bits [6:0]. -/
def CNV_RX_DELAY_WHOLE : Fld :=
  { blk := 2, reg := 0x30, lo := 0, w := 7, ty := rw, dom := die, rst := [64] }
/-- `CNV_TX_DELAY.FINE`, bits [25:16]. -/
def CNV_TX_DELAY_FINE : Fld :=
  { blk := 2, reg := 0x34, lo := 16, w := 10, ty := rw, dom := die, rst := [0] }
/-- `CNV_TX_DELAY.WHOLE`, bits [6:0]. -/
def CNV_TX_DELAY_WHOLE : Fld :=
  { blk := 2, reg := 0x34, lo := 0, w := 7, ty := rw, dom := die, rst := [64] }
/-- `CNV_RX_PATH_SKEW.YQ`, bits [31:24]. -/
def CNV_RX_PATH_SKEW_YQ : Fld :=
  { blk := 2, reg := 0x38, lo := 24, w := 8, ty := rw, dom := die, rst := [0] }
/-- `CNV_RX_PATH_SKEW.YI`, bits [23:16]. -/
def CNV_RX_PATH_SKEW_YI : Fld :=
  { blk := 2, reg := 0x38, lo := 16, w := 8, ty := rw, dom := die, rst := [0] }
/-- `CNV_RX_PATH_SKEW.XQ`, bits [15:8]. -/
def CNV_RX_PATH_SKEW_XQ : Fld :=
  { blk := 2, reg := 0x38, lo := 8, w := 8, ty := rw, dom := die, rst := [0] }
/-- `CNV_RX_PATH_SKEW.XI`, bits [7:0]. -/
def CNV_RX_PATH_SKEW_XI : Fld :=
  { blk := 2, reg := 0x38, lo := 0, w := 8, ty := rw, dom := die, rst := [0] }
/-- `CNV_TX_PATH_SKEW.YQ`, bits [31:24]. -/
def CNV_TX_PATH_SKEW_YQ : Fld :=
  { blk := 2, reg := 0x3C, lo := 24, w := 8, ty := rw, dom := die, rst := [0] }
/-- `CNV_TX_PATH_SKEW.YI`, bits [23:16]. -/
def CNV_TX_PATH_SKEW_YI : Fld :=
  { blk := 2, reg := 0x3C, lo := 16, w := 8, ty := rw, dom := die, rst := [0] }
/-- `CNV_TX_PATH_SKEW.XQ`, bits [15:8]. -/
def CNV_TX_PATH_SKEW_XQ : Fld :=
  { blk := 2, reg := 0x3C, lo := 8, w := 8, ty := rw, dom := die, rst := [0] }
/-- `CNV_TX_PATH_SKEW.XI`, bits [7:0]. -/
def CNV_TX_PATH_SKEW_XI : Fld :=
  { blk := 2, reg := 0x3C, lo := 0, w := 8, ty := rw, dom := die, rst := [0] }
/-- `CNV_CLIP_COUNT_c.COUNT`, bits [31:0]. -/
def CNV_CLIP_COUNT_COUNT : Fld :=
  { blk := 2, reg := 0x40, lo := 0, w := 32, ty := rc, dom := blk, rst := [0] }
/-- `CAL_CTRL.FG_RETRIES`, bits [23:20]. -/
def CAL_CTRL_FG_RETRIES : Fld :=
  { blk := 3, reg := 0x0, lo := 20, w := 4, ty := rw, dom := die, rst := [2] }
/-- `CAL_CTRL.TX_SEAM_EN`, bits [17:17]. -/
def CAL_CTRL_TX_SEAM_EN : Fld :=
  { blk := 3, reg := 0x0, lo := 17, w := 1, ty := rw, dom := die, rst := [0] }
/-- `CAL_CTRL.SEAM_EN`, bits [16:16]. -/
def CAL_CTRL_SEAM_EN : Fld :=
  { blk := 3, reg := 0x0, lo := 16, w := 1, ty := rw, dom := die, rst := [0] }
/-- `CAL_CTRL.BG_DAC_EN`, bits [11:11]. -/
def CAL_CTRL_BG_DAC_EN : Fld :=
  { blk := 3, reg := 0x0, lo := 11, w := 1, ty := rw, dom := die, rst := [0] }
/-- `CAL_CTRL.BG_ADC_EN`, bits [10:10]. -/
def CAL_CTRL_BG_ADC_EN : Fld :=
  { blk := 3, reg := 0x0, lo := 10, w := 1, ty := rw, dom := die, rst := [0] }
/-- `CAL_CTRL.FG_SCOPE`, bits [9:8]. -/
def CAL_CTRL_FG_SCOPE : Fld :=
  { blk := 3, reg := 0x0, lo := 8, w := 2, ty := rw, dom := die, rst := [0] }
/-- `CAL_CTRL.FG_START`, bits [0:0]. -/
def CAL_CTRL_FG_START : Fld :=
  { blk := 3, reg := 0x0, lo := 0, w := 1, ty := wo, dom := die, rst := [0] }
/-- `CAL_STATUS.REJOIN_OK_HI`, bits [9:9]. -/
def CAL_STATUS_REJOIN_OK_HI : Fld :=
  { blk := 3, reg := 0x4, lo := 9, w := 1, ty := ro, dom := die, rst := [0] }
/-- `CAL_STATUS.REJOIN_OK_LO`, bits [8:8]. -/
def CAL_STATUS_REJOIN_OK_LO : Fld :=
  { blk := 3, reg := 0x4, lo := 8, w := 1, ty := ro, dom := die, rst := [0] }
/-- `CAL_STATUS.SEAM_HI_STATE`, bits [7:6]. -/
def CAL_STATUS_SEAM_HI_STATE : Fld :=
  { blk := 3, reg := 0x4, lo := 6, w := 2, ty := ro, dom := die, rst := [0] }
/-- `CAL_STATUS.SEAM_LO_STATE`, bits [5:4]. -/
def CAL_STATUS_SEAM_LO_STATE : Fld :=
  { blk := 3, reg := 0x4, lo := 4, w := 2, ty := ro, dom := die, rst := [0] }
/-- `CAL_STATUS.BG_CONVERGED`, bits [3:3]. -/
def CAL_STATUS_BG_CONVERGED : Fld :=
  { blk := 3, reg := 0x4, lo := 3, w := 1, ty := ro, dom := die, rst := [0] }
/-- `CAL_STATUS.FG_STATE`, bits [2:0]. -/
def CAL_STATUS_FG_STATE : Fld :=
  { blk := 3, reg := 0x4, lo := 0, w := 3, ty := ro, dom := die, rst := [0] }
/-- `CAL_EVENT.VERIFY_FAIL`, bits [10:10]. -/
def CAL_EVENT_VERIFY_FAIL : Fld :=
  { blk := 3, reg := 0x8, lo := 10, w := 1, ty := w1c, dom := die, rst := [0] }
/-- `CAL_EVENT.LIMIT_BAD`, bits [9:9]. -/
def CAL_EVENT_LIMIT_BAD : Fld :=
  { blk := 3, reg := 0x8, lo := 9, w := 1, ty := w1c, dom := die, rst := [0] }
/-- `CAL_EVENT.REC_REFUSED`, bits [8:8]. -/
def CAL_EVENT_REC_REFUSED : Fld :=
  { blk := 3, reg := 0x8, lo := 8, w := 1, ty := w1c, dom := die, rst := [0] }
/-- `CAL_EVENT.REC_RESTORED`, bits [7:7]. -/
def CAL_EVENT_REC_RESTORED : Fld :=
  { blk := 3, reg := 0x8, lo := 7, w := 1, ty := w1c, dom := die, rst := [0] }
/-- `CAL_EVENT.REC_SAVED`, bits [6:6]. -/
def CAL_EVENT_REC_SAVED : Fld :=
  { blk := 3, reg := 0x8, lo := 6, w := 1, ty := w1c, dom := die, rst := [0] }
/-- `CAL_EVENT.TRIM_LIMIT`, bits [5:5]. -/
def CAL_EVENT_TRIM_LIMIT : Fld :=
  { blk := 3, reg := 0x8, lo := 5, w := 1, ty := w1c, dom := die, rst := [0] }
/-- `CAL_EVENT.SKEW_ALARM`, bits [4:4]. -/
def CAL_EVENT_SKEW_ALARM : Fld :=
  { blk := 3, reg := 0x8, lo := 4, w := 1, ty := w1c, dom := die, rst := [0] }
/-- `CAL_EVENT.SUB_FAIL`, bits [3:3]. -/
def CAL_EVENT_SUB_FAIL : Fld :=
  { blk := 3, reg := 0x8, lo := 3, w := 1, ty := w1c, dom := die, rst := [0] }
/-- `CAL_EVENT.REJECT`, bits [2:2]. -/
def CAL_EVENT_REJECT : Fld :=
  { blk := 3, reg := 0x8, lo := 2, w := 1, ty := w1c, dom := die, rst := [0] }
/-- `CAL_EVENT.FG_FAIL`, bits [1:1]. -/
def CAL_EVENT_FG_FAIL : Fld :=
  { blk := 3, reg := 0x8, lo := 1, w := 1, ty := w1c, dom := die, rst := [0] }
/-- `CAL_EVENT.FG_DONE`, bits [0:0]. -/
def CAL_EVENT_FG_DONE : Fld :=
  { blk := 3, reg := 0x8, lo := 0, w := 1, ty := w1c, dom := die, rst := [0] }
/-- `CAL_EVENT_MASK.ENABLE`, bits [10:0]. -/
def CAL_EVENT_MASK_ENABLE : Fld :=
  { blk := 3, reg := 0xC, lo := 0, w := 11, ty := rw, dom := die, rst := [1082] }
/-- `CAL_REJECTS.COUNT`, bits [31:0]. -/
def CAL_REJECTS_COUNT : Fld :=
  { blk := 3, reg := 0x10, lo := 0, w := 32, ty := rc, dom := blk, rst := [0] }
/-- `CAL_FAIL_WHERE.TERM`, bits [13:12]. -/
def CAL_FAIL_WHERE_TERM : Fld :=
  { blk := 3, reg := 0x14, lo := 12, w := 2, ty := ro, dom := die, rst := [0] }
/-- `CAL_FAIL_WHERE.KIND`, bits [11:11]. -/
def CAL_FAIL_WHERE_KIND : Fld :=
  { blk := 3, reg := 0x14, lo := 11, w := 1, ty := ro, dom := die, rst := [0] }
/-- `CAL_FAIL_WHERE.CONVERTER`, bits [9:8]. -/
def CAL_FAIL_WHERE_CONVERTER : Fld :=
  { blk := 3, reg := 0x14, lo := 8, w := 2, ty := ro, dom := die, rst := [0] }
/-- `CAL_FAIL_WHERE.SUB`, bits [5:0]. -/
def CAL_FAIL_WHERE_SUB : Fld :=
  { blk := 3, reg := 0x14, lo := 0, w := 6, ty := ro, dom := die, rst := [0] }
/-- `CAL_LIMITS_0.BW`, bits [31:24]. -/
def CAL_LIMITS_0_BW : Fld :=
  { blk := 3, reg := 0x20, lo := 24, w := 8, ty := rw, dom := die, rst := [100] }
/-- `CAL_LIMITS_0.SKEW`, bits [23:16]. -/
def CAL_LIMITS_0_SKEW : Fld :=
  { blk := 3, reg := 0x20, lo := 16, w := 8, ty := rw, dom := die, rst := [60] }
/-- `CAL_LIMITS_0.GAIN`, bits [15:8]. -/
def CAL_LIMITS_0_GAIN : Fld :=
  { blk := 3, reg := 0x20, lo := 8, w := 8, ty := rw, dom := die, rst := [60] }
/-- `CAL_LIMITS_0.ADC_OFFSET`, bits [7:0]. -/
def CAL_LIMITS_0_ADC_OFFSET : Fld :=
  { blk := 3, reg := 0x20, lo := 0, w := 8, ty := rw, dom := die, rst := [64] }
/-- `CAL_LIMITS_1.DAC_OFFSET`, bits [31:24]. -/
def CAL_LIMITS_1_DAC_OFFSET : Fld :=
  { blk := 3, reg := 0x24, lo := 24, w := 8, ty := rw, dom := die, rst := [16] }
/-- `CAL_LIMITS_1.REJOIN`, bits [23:16]. -/
def CAL_LIMITS_1_REJOIN : Fld :=
  { blk := 3, reg := 0x24, lo := 16, w := 8, ty := rw, dom := die, rst := [10] }
/-- `CAL_LIMITS_1.SEAM_ALARM`, bits [15:8]. -/
def CAL_LIMITS_1_SEAM_ALARM : Fld :=
  { blk := 3, reg := 0x24, lo := 8, w := 8, ty := rw, dom := die, rst := [20] }
/-- `CAL_LIMITS_1.SEAM_PLAUS`, bits [7:0]. -/
def CAL_LIMITS_1_SEAM_PLAUS : Fld :=
  { blk := 3, reg := 0x24, lo := 0, w := 8, ty := rw, dom := die, rst := [50] }
/-- `CAL_SEAM_CTRL.HOLD`, bits [31:31]. -/
def CAL_SEAM_CTRL_HOLD : Fld :=
  { blk := 3, reg := 0x30, lo := 31, w := 1, ty := rw, dom := die, rst := [0] }
/-- `CAL_SEAM_CTRL.TX_LIMIT`, bits [23:16]. -/
def CAL_SEAM_CTRL_TX_LIMIT : Fld :=
  { blk := 3, reg := 0x30, lo := 16, w := 8, ty := rw, dom := die, rst := [10] }
/-- `CAL_SEAM_CTRL.STEP`, bits [11:8]. -/
def CAL_SEAM_CTRL_STEP : Fld :=
  { blk := 3, reg := 0x30, lo := 8, w := 4, ty := rw, dom := die, rst := [4] }
/-- `CAL_SEAM_CTRL.GAIN_SHIFT`, bits [2:0]. -/
def CAL_SEAM_CTRL_GAIN_SHIFT : Fld :=
  { blk := 3, reg := 0x30, lo := 0, w := 3, ty := rw, dom := die, rst := [2] }
/-- `CAL_SEAM_LO.VALID`, bits [31:31]. -/
def CAL_SEAM_LO_VALID : Fld :=
  { blk := 3, reg := 0x34, lo := 31, w := 1, ty := ro, dom := die, rst := [0] }
/-- `CAL_SEAM_LO.RHO`, bits [23:16]. -/
def CAL_SEAM_LO_RHO : Fld :=
  { blk := 3, reg := 0x34, lo := 16, w := 8, ty := ro, dom := die, rst := [0] }
/-- `CAL_SEAM_LO.TAU`, bits [15:0]. -/
def CAL_SEAM_LO_TAU : Fld :=
  { blk := 3, reg := 0x34, lo := 0, w := 16, ty := ro, dom := die, rst := [0] }
/-- `CAL_SEAM_HI.VALID`, bits [31:31]. -/
def CAL_SEAM_HI_VALID : Fld :=
  { blk := 3, reg := 0x38, lo := 31, w := 1, ty := ro, dom := die, rst := [0] }
/-- `CAL_SEAM_HI.RHO`, bits [23:16]. -/
def CAL_SEAM_HI_RHO : Fld :=
  { blk := 3, reg := 0x38, lo := 16, w := 8, ty := ro, dom := die, rst := [0] }
/-- `CAL_SEAM_HI.TAU`, bits [15:0]. -/
def CAL_SEAM_HI_TAU : Fld :=
  { blk := 3, reg := 0x38, lo := 0, w := 16, ty := ro, dom := die, rst := [0] }
/-- `CAL_TX_SEAM_LO.VALID`, bits [31:31]. -/
def CAL_TX_SEAM_LO_VALID : Fld :=
  { blk := 3, reg := 0x3C, lo := 31, w := 1, ty := ro, dom := die, rst := [0] }
/-- `CAL_TX_SEAM_LO.TAU`, bits [15:0]. -/
def CAL_TX_SEAM_LO_TAU : Fld :=
  { blk := 3, reg := 0x3C, lo := 0, w := 16, ty := ro, dom := die, rst := [0] }
/-- `CAL_DIE_ID_LO.ID`, bits [31:0]. -/
def CAL_DIE_ID_LO_ID : Fld :=
  { blk := 3, reg := 0x50, lo := 0, w := 32, ty := ro, dom := por, rst := [0] }
/-- `CAL_DIE_ID_HI.ID`, bits [31:0]. -/
def CAL_DIE_ID_HI_ID : Fld :=
  { blk := 3, reg := 0x54, lo := 0, w := 32, ty := ro, dom := por, rst := [0] }
/-- `CAL_REC_CTRL.REASON`, bits [11:8]. -/
def CAL_REC_CTRL_REASON : Fld :=
  { blk := 3, reg := 0x60, lo := 8, w := 4, ty := ro, dom := die, rst := [0] }
/-- `CAL_REC_CTRL.RESULT`, bits [7:4]. -/
def CAL_REC_CTRL_RESULT : Fld :=
  { blk := 3, reg := 0x60, lo := 4, w := 4, ty := ro, dom := die, rst := [0] }
/-- `CAL_REC_CTRL.BUSY`, bits [2:2]. -/
def CAL_REC_CTRL_BUSY : Fld :=
  { blk := 3, reg := 0x60, lo := 2, w := 1, ty := ro, dom := die, rst := [0] }
/-- `CAL_REC_CTRL.RESTORE`, bits [1:1]. -/
def CAL_REC_CTRL_RESTORE : Fld :=
  { blk := 3, reg := 0x60, lo := 1, w := 1, ty := wo, dom := die, rst := [0] }
/-- `CAL_REC_CTRL.SAVE`, bits [0:0]. -/
def CAL_REC_CTRL_SAVE : Fld :=
  { blk := 3, reg := 0x60, lo := 0, w := 1, ty := wo, dom := die, rst := [0] }
/-! ### Registers of spec/05_receive_path.md -/

/-- `RXD_CTRL.FREEZE`, bits [31:31]. -/
def RXD_CTRL_FREEZE : Fld :=
  { blk := 4, reg := 0x0, lo := 31, w := 1, ty := rw, dom := die, rst := [0] }
/-- `RXD_CTRL.SC_EN`, bits [7:0]. -/
def RXD_CTRL_SC_EN : Fld :=
  { blk := 4, reg := 0x0, lo := 0, w := 8, ty := rw, dom := die, rst := [0], stg := true }
/-- `RXD_EVENT.Q_UPDATE`, bits [25:25]. -/
def RXD_EVENT_Q_UPDATE : Fld :=
  { blk := 4, reg := 0x8, lo := 25, w := 1, ty := w1c, dom := die, rst := [0] }
/-- `RXD_EVENT.FREQ_LIMIT`, bits [24:24]. -/
def RXD_EVENT_FREQ_LIMIT : Fld :=
  { blk := 4, reg := 0x8, lo := 24, w := 1, ty := w1c, dom := die, rst := [0] }
/-- `RXD_EVENT.LOCK_LOST`, bits [23:16]. -/
def RXD_EVENT_LOCK_LOST : Fld :=
  { blk := 4, reg := 0x8, lo := 16, w := 8, ty := w1c, dom := die, rst := [0] }
/-- `RXD_EVENT.SLIP`, bits [15:8]. -/
def RXD_EVENT_SLIP : Fld :=
  { blk := 4, reg := 0x8, lo := 8, w := 8, ty := w1c, dom := die, rst := [0] }
/-- `RXD_EVENT.ACQ_FAIL`, bits [7:0]. -/
def RXD_EVENT_ACQ_FAIL : Fld :=
  { blk := 4, reg := 0x8, lo := 0, w := 8, ty := w1c, dom := die, rst := [0] }
/-- `RXD_EVENT_MASK.ENABLE`, bits [25:0]. -/
def RXD_EVENT_MASK_ENABLE : Fld :=
  { blk := 4, reg := 0xC, lo := 0, w := 26, ty := rw, dom := die, rst := [33489151] }
/-- `RXD_DFE_CTRL.DC_EN`, bits [2:2]. -/
def RXD_DFE_CTRL_DC_EN : Fld :=
  { blk := 4, reg := 0x10, lo := 2, w := 1, ty := rw, dom := die, rst := [1] }
/-- `RXD_DFE_CTRL.SKEW_AUTO`, bits [1:1]. -/
def RXD_DFE_CTRL_SKEW_AUTO : Fld :=
  { blk := 4, reg := 0x10, lo := 1, w := 1, ty := rw, dom := die, rst := [1] }
/-- `RXD_DFE_CTRL.IQ_AUTO`, bits [0:0]. -/
def RXD_DFE_CTRL_IQ_AUTO : Fld :=
  { blk := 4, reg := 0x10, lo := 0, w := 1, ty := rw, dom := die, rst := [1] }
/-- `RXD_DFE_IQ.Y_PHASE`, bits [31:24]. -/
def RXD_DFE_IQ_Y_PHASE : Fld :=
  { blk := 4, reg := 0x14, lo := 24, w := 8, ty := rw, dom := die, rst := [0] }
/-- `RXD_DFE_IQ.Y_GAIN`, bits [23:16]. -/
def RXD_DFE_IQ_Y_GAIN : Fld :=
  { blk := 4, reg := 0x14, lo := 16, w := 8, ty := rw, dom := die, rst := [0] }
/-- `RXD_DFE_IQ.X_PHASE`, bits [15:8]. -/
def RXD_DFE_IQ_X_PHASE : Fld :=
  { blk := 4, reg := 0x14, lo := 8, w := 8, ty := rw, dom := die, rst := [0] }
/-- `RXD_DFE_IQ.X_GAIN`, bits [7:0]. -/
def RXD_DFE_IQ_X_GAIN : Fld :=
  { blk := 4, reg := 0x14, lo := 0, w := 8, ty := rw, dom := die, rst := [0] }
/-- `RXD_DFE_SKEW.YQ`, bits [31:24]. -/
def RXD_DFE_SKEW_YQ : Fld :=
  { blk := 4, reg := 0x18, lo := 24, w := 8, ty := rw, dom := die, rst := [0] }
/-- `RXD_DFE_SKEW.YI`, bits [23:16]. -/
def RXD_DFE_SKEW_YI : Fld :=
  { blk := 4, reg := 0x18, lo := 16, w := 8, ty := rw, dom := die, rst := [0] }
/-- `RXD_DFE_SKEW.XQ`, bits [15:8]. -/
def RXD_DFE_SKEW_XQ : Fld :=
  { blk := 4, reg := 0x18, lo := 8, w := 8, ty := rw, dom := die, rst := [0] }
/-- `RXD_DFE_SKEW.XI`, bits [7:0]. -/
def RXD_DFE_SKEW_XI : Fld :=
  { blk := 4, reg := 0x18, lo := 0, w := 8, ty := rw, dom := die, rst := [0] }
/-- `RXD_FREQ_CTRL.HOLD`, bits [31:31]. -/
def RXD_FREQ_CTRL_HOLD : Fld :=
  { blk := 4, reg := 0x20, lo := 31, w := 1, ty := rw, dom := die, rst := [0] }
/-- `RXD_FREQ_CTRL.LOOP_SHIFT`, bits [3:0]. -/
def RXD_FREQ_CTRL_LOOP_SHIFT : Fld :=
  { blk := 4, reg := 0x20, lo := 0, w := 4, ty := rw, dom := die, rst := [3] }
/-- `RXD_FREQ_STATUS.FROM_LEAD`, bits [17:17]. -/
def RXD_FREQ_STATUS_FROM_LEAD : Fld :=
  { blk := 4, reg := 0x24, lo := 17, w := 1, ty := ro, dom := die, rst := [0] }
/-- `RXD_FREQ_STATUS.LOCKED`, bits [16:16]. -/
def RXD_FREQ_STATUS_LOCKED : Fld :=
  { blk := 4, reg := 0x24, lo := 16, w := 1, ty := ro, dom := die, rst := [0] }
/-- `RXD_FREQ_STATUS.OFFSET`, bits [15:0]. -/
def RXD_FREQ_STATUS_OFFSET : Fld :=
  { blk := 4, reg := 0x24, lo := 0, w := 16, ty := ro, dom := die, rst := [0] }
/-- `RXD_CD_CTRL.PRESET_EN`, bits [31:31]. -/
def RXD_CD_CTRL_PRESET_EN : Fld :=
  { blk := 4, reg := 0x28, lo := 31, w := 1, ty := rw, dom := die, rst := [0] }
/-- `RXD_CD_CTRL.SCAN_NARROW`, bits [30:30]. -/
def RXD_CD_CTRL_SCAN_NARROW : Fld :=
  { blk := 4, reg := 0x28, lo := 30, w := 1, ty := rw, dom := die, rst := [0] }
/-- `RXD_CD_CTRL.PRESET`, bits [17:0]. -/
def RXD_CD_CTRL_PRESET : Fld :=
  { blk := 4, reg := 0x28, lo := 0, w := 18, ty := rw, dom := die, rst := [0] }
/-- `RXD_CARRIER_FREQ.FREQ`, bits [17:0]. -/
def RXD_CARRIER_FREQ_FREQ : Fld :=
  { blk := 4, reg := 0x2C, lo := 0, w := 18, ty := rw, dom := die, rst := [193100] }
/-- `RXD_JOINT_CTRL.OFS_SHIFT`, bits [19:16]. -/
def RXD_JOINT_CTRL_OFS_SHIFT : Fld :=
  { blk := 4, reg := 0x30, lo := 16, w := 4, ty := rw, dom := die, rst := [8] }
/-- `RXD_JOINT_CTRL.SPAN`, bits [15:0]. -/
def RXD_JOINT_CTRL_SPAN : Fld :=
  { blk := 4, reg := 0x30, lo := 0, w := 16, ty := rw, dom := die, rst := [80] }
/-- `RXD_Q_CTRL.SNR_TR`, bits [31:16]. -/
def RXD_Q_CTRL_SNR_TR : Fld :=
  { blk := 4, reg := 0x34, lo := 16, w := 16, ty := rw, dom := die, rst := [2300] }
/-- `RXD_Q_CTRL.AVG`, bits [7:0]. -/
def RXD_Q_CTRL_AVG : Fld :=
  { blk := 4, reg := 0x34, lo := 0, w := 8, ty := rw, dom := die, rst := [1] }
/-- `RXD_Q_STATUS.SEQ`, bits [15:0]. -/
def RXD_Q_STATUS_SEQ : Fld :=
  { blk := 4, reg := 0x38, lo := 0, w := 16, ty := ro, dom := blk, rst := [0] }
/-- `RXD_Q_OSNR_DIE.OSNR`, bits [15:0]. -/
def RXD_Q_OSNR_DIE_OSNR : Fld :=
  { blk := 4, reg := 0x3C, lo := 0, w := 16, ty := ro, dom := blk, rst := [0] }
/-- `RXD_SC_CFG_i.PILOT_WIN`, bits [27:24]. -/
def RXD_SC_CFG_PILOT_WIN : Fld :=
  { blk := 4, reg := 0x400, lo := 24, w := 4, ty := rw, dom := die, rst := [4] }
/-- `RXD_SC_CFG_i.BPS_HALFWIN`, bits [23:20]. -/
def RXD_SC_CFG_BPS_HALFWIN : Fld :=
  { blk := 4, reg := 0x400, lo := 20, w := 4, ty := rw, dom := die, rst := [8] }
/-- `RXD_SC_CFG_i.BPS_PHASES`, bits [19:18]. -/
def RXD_SC_CFG_BPS_PHASES : Fld :=
  { blk := 4, reg := 0x400, lo := 18, w := 2, ty := rw, dom := die, rst := [1] }
/-- `RXD_SC_CFG_i.CR_MODE`, bits [17:17]. -/
def RXD_SC_CFG_CR_MODE : Fld :=
  { blk := 4, reg := 0x400, lo := 17, w := 1, ty := rw, dom := die, rst := [1] }
/-- `RXD_SC_CFG_i.JOINT_EN`, bits [16:16]. -/
def RXD_SC_CFG_JOINT_EN : Fld :=
  { blk := 4, reg := 0x400, lo := 16, w := 1, ty := rw, dom := die, rst := [1] }
/-- `RXD_SC_CFG_i.MU_SHIFT`, bits [15:12]. -/
def RXD_SC_CFG_MU_SHIFT : Fld :=
  { blk := 4, reg := 0x400, lo := 12, w := 4, ty := rw, dom := die, rst := [10] }
/-- `RXD_SC_CFG_i.TRAIN_SHIFT`, bits [11:9]. -/
def RXD_SC_CFG_TRAIN_SHIFT : Fld :=
  { blk := 4, reg := 0x400, lo := 9, w := 3, ty := rw, dom := die, rst := [2] }
/-- `RXD_SC_CFG_i.DD_EN`, bits [8:8]. -/
def RXD_SC_CFG_DD_EN : Fld :=
  { blk := 4, reg := 0x400, lo := 8, w := 1, ty := rw, dom := die, rst := [1] }
/-- `RXD_SC_CFG_i.OVERLAP`, bits [0:0]. -/
def RXD_SC_CFG_OVERLAP : Fld :=
  { blk := 4, reg := 0x400, lo := 0, w := 1, ty := rw, dom := die, rst := [1], stg := true }
/-- `RXD_SC_STATUS_i.TRAIN_COUNT`, bits [31:16]. -/
def RXD_SC_STATUS_TRAIN_COUNT : Fld :=
  { blk := 4, reg := 0x404, lo := 16, w := 16, ty := ro, dom := die, rst := [0] }
/-- `RXD_SC_STATUS_i.JOINT_UNITS`, bits [15:12]. -/
def RXD_SC_STATUS_JOINT_UNITS : Fld :=
  { blk := 4, reg := 0x404, lo := 12, w := 4, ty := ro, dom := die, rst := [0] }
/-- `RXD_SC_STATUS_i.Q_MIXED`, bits [9:9]. -/
def RXD_SC_STATUS_Q_MIXED : Fld :=
  { blk := 4, reg := 0x404, lo := 9, w := 1, ty := ro, dom := die, rst := [0] }
/-- `RXD_SC_STATUS_i.COMBINED`, bits [8:8]. -/
def RXD_SC_STATUS_COMBINED : Fld :=
  { blk := 4, reg := 0x404, lo := 8, w := 1, ty := ro, dom := die, rst := [0] }
/-- `RXD_SC_STATUS_i.EXPRESS`, bits [3:3]. -/
def RXD_SC_STATUS_EXPRESS : Fld :=
  { blk := 4, reg := 0x404, lo := 3, w := 1, ty := ro, dom := die, rst := [0] }
/-- `RXD_SC_STATUS_i.STATE`, bits [2:0]. -/
def RXD_SC_STATUS_STATE : Fld :=
  { blk := 4, reg := 0x404, lo := 0, w := 3, ty := ro, dom := die, rst := [0] }
/-- `RXD_Q_SNR_i.Y`, bits [31:16]. -/
def RXD_Q_SNR_Y : Fld :=
  { blk := 4, reg := 0x410, lo := 16, w := 16, ty := ro, dom := blk, rst := [0] }
/-- `RXD_Q_SNR_i.X`, bits [15:0]. -/
def RXD_Q_SNR_X : Fld :=
  { blk := 4, reg := 0x410, lo := 0, w := 16, ty := ro, dom := blk, rst := [0] }
/-- `RXD_Q_SNR_TOT_i.EVM`, bits [31:16]. -/
def RXD_Q_SNR_TOT_EVM : Fld :=
  { blk := 4, reg := 0x414, lo := 16, w := 16, ty := ro, dom := blk, rst := [0] }
/-- `RXD_Q_SNR_TOT_i.TOTAL`, bits [15:0]. -/
def RXD_Q_SNR_TOT_TOTAL : Fld :=
  { blk := 4, reg := 0x414, lo := 0, w := 16, ty := ro, dom := blk, rst := [0] }
/-- `RXD_Q_GMI_i.PDL`, bits [31:16]. -/
def RXD_Q_GMI_PDL : Fld :=
  { blk := 4, reg := 0x418, lo := 16, w := 16, ty := ro, dom := blk, rst := [0] }
/-- `RXD_Q_GMI_i.GMI`, bits [15:0]. -/
def RXD_Q_GMI_GMI : Fld :=
  { blk := 4, reg := 0x418, lo := 0, w := 16, ty := ro, dom := blk, rst := [0] }
/-- `RXD_Q_BER_i.EXP`, bits [20:16]. -/
def RXD_Q_BER_EXP : Fld :=
  { blk := 4, reg := 0x41C, lo := 16, w := 5, ty := ro, dom := blk, rst := [0] }
/-- `RXD_Q_BER_i.MANT`, bits [15:0]. -/
def RXD_Q_BER_MANT : Fld :=
  { blk := 4, reg := 0x41C, lo := 0, w := 16, ty := ro, dom := blk, rst := [0] }
/-- `RXD_Q_CD_i.CD`, bits [23:0]. -/
def RXD_Q_CD_CD : Fld :=
  { blk := 4, reg := 0x420, lo := 0, w := 24, ty := ro, dom := blk, rst := [0] }
/-- `RXD_Q_DGD_i.OSNR`, bits [31:16]. -/
def RXD_Q_DGD_OSNR : Fld :=
  { blk := 4, reg := 0x424, lo := 16, w := 16, ty := ro, dom := blk, rst := [0] }
/-- `RXD_Q_DGD_i.DGD`, bits [15:0]. -/
def RXD_Q_DGD_DGD : Fld :=
  { blk := 4, reg := 0x424, lo := 0, w := 16, ty := ro, dom := blk, rst := [0] }
/-- `RXD_Q_CLK_i.OFFSET`, bits [15:0]. -/
def RXD_Q_CLK_OFFSET : Fld :=
  { blk := 4, reg := 0x428, lo := 0, w := 16, ty := ro, dom := blk, rst := [0] }
/-- `RXD_SLIPS_i.COUNT`, bits [31:0]. -/
def RXD_SLIPS_COUNT : Fld :=
  { blk := 4, reg := 0x42C, lo := 0, w := 32, ty := rc, dom := blk, rst := [0] }
/-- `SEAM_CTRL.RATIO_MAX`, bits [31:24]. -/
def SEAM_CTRL_RATIO_MAX : Fld :=
  { blk := 6, reg := 0x0, lo := 24, w := 8, ty := rw, dom := die, rst := [40] }
/-- `SEAM_CTRL.COH_MIN`, bits [23:16]. -/
def SEAM_CTRL_COH_MIN : Fld :=
  { blk := 6, reg := 0x0, lo := 16, w := 8, ty := rw, dom := die, rst := [77] }
/-- `SEAM_CTRL.NOISE_RATIO`, bits [15:8]. -/
def SEAM_CTRL_NOISE_RATIO : Fld :=
  { blk := 6, reg := 0x0, lo := 8, w := 8, ty := rw, dom := die, rst := [0] }
/-- `SEAM_CTRL.SMOOTH`, bits [7:4]. -/
def SEAM_CTRL_SMOOTH : Fld :=
  { blk := 6, reg := 0x0, lo := 4, w := 4, ty := rw, dom := die, rst := [3] }
/-- `SEAM_CTRL.COMB_HI_EN`, bits [1:1]. -/
def SEAM_CTRL_COMB_HI_EN : Fld :=
  { blk := 6, reg := 0x0, lo := 1, w := 1, ty := rw, dom := die, rst := [0] }
/-- `SEAM_CTRL.COMB_LO_EN`, bits [0:0]. -/
def SEAM_CTRL_COMB_LO_EN : Fld :=
  { blk := 6, reg := 0x0, lo := 0, w := 1, ty := rw, dom := die, rst := [0] }
/-- `SEAM_STATUS.LINK_HI_OK`, bits [5:5]. -/
def SEAM_STATUS_LINK_HI_OK : Fld :=
  { blk := 6, reg := 0x4, lo := 5, w := 1, ty := ro, dom := die, rst := [0] }
/-- `SEAM_STATUS.LINK_LO_OK`, bits [4:4]. -/
def SEAM_STATUS_LINK_LO_OK : Fld :=
  { blk := 6, reg := 0x4, lo := 4, w := 1, ty := ro, dom := die, rst := [0] }
/-- `SEAM_STATUS.HI_STATE`, bits [3:2]. -/
def SEAM_STATUS_HI_STATE : Fld :=
  { blk := 6, reg := 0x4, lo := 2, w := 2, ty := ro, dom := die, rst := [0] }
/-- `SEAM_STATUS.LO_STATE`, bits [1:0]. -/
def SEAM_STATUS_LO_STATE : Fld :=
  { blk := 6, reg := 0x4, lo := 0, w := 2, ty := ro, dom := die, rst := [0] }
/-- `SEAM_EVENT.INVALID_HI`, bits [3:3]. -/
def SEAM_EVENT_INVALID_HI : Fld :=
  { blk := 6, reg := 0x8, lo := 3, w := 1, ty := w1c, dom := die, rst := [0] }
/-- `SEAM_EVENT.INVALID_LO`, bits [2:2]. -/
def SEAM_EVENT_INVALID_LO : Fld :=
  { blk := 6, reg := 0x8, lo := 2, w := 1, ty := w1c, dom := die, rst := [0] }
/-- `SEAM_EVENT.LINK_HI_LOST`, bits [1:1]. -/
def SEAM_EVENT_LINK_HI_LOST : Fld :=
  { blk := 6, reg := 0x8, lo := 1, w := 1, ty := w1c, dom := die, rst := [0] }
/-- `SEAM_EVENT.LINK_LO_LOST`, bits [0:0]. -/
def SEAM_EVENT_LINK_LO_LOST : Fld :=
  { blk := 6, reg := 0x8, lo := 0, w := 1, ty := w1c, dom := die, rst := [0] }
/-- `SEAM_EVENT_MASK.ENABLE`, bits [3:0]. -/
def SEAM_EVENT_MASK_ENABLE : Fld :=
  { blk := 6, reg := 0xC, lo := 0, w := 4, ty := rw, dom := die, rst := [3] }
/-- `SEAM_GAIN.HI`, bits [31:16]. -/
def SEAM_GAIN_HI : Fld :=
  { blk := 6, reg := 0x10, lo := 16, w := 16, ty := ro, dom := blk, rst := [0] }
/-- `SEAM_GAIN.LO`, bits [15:0]. -/
def SEAM_GAIN_LO : Fld :=
  { blk := 6, reg := 0x10, lo := 0, w := 16, ty := ro, dom := blk, rst := [0] }
/-- `SEAM_TONES.HI`, bits [25:16]. -/
def SEAM_TONES_HI : Fld :=
  { blk := 6, reg := 0x14, lo := 16, w := 10, ty := ro, dom := blk, rst := [0] }
/-- `SEAM_TONES.LO`, bits [9:0]. -/
def SEAM_TONES_LO : Fld :=
  { blk := 6, reg := 0x14, lo := 0, w := 10, ty := ro, dom := blk, rst := [0] }
/-- `SEAM_LINK_ERR_LO.COUNT`, bits [31:0]. -/
def SEAM_LINK_ERR_LO_COUNT : Fld :=
  { blk := 6, reg := 0x18, lo := 0, w := 32, ty := rc, dom := blk, rst := [0] }
/-- `SEAM_LINK_ERR_HI.COUNT`, bits [31:0]. -/
def SEAM_LINK_ERR_HI_COUNT : Fld :=
  { blk := 6, reg := 0x1C, lo := 0, w := 32, ty := rc, dom := blk, rst := [0] }
/-! ### Registers of spec/06_transmit_path.md -/

/-- `TXD_CTRL.PILOT_BOOST`, bits [11:8]. -/
def TXD_CTRL_PILOT_BOOST : Fld :=
  { blk := 5, reg := 0x0, lo := 8, w := 4, ty := rw, dom := die, rst := [0], stg := true }
/-- `TXD_CTRL.SC_EN`, bits [7:0]. -/
def TXD_CTRL_SC_EN : Fld :=
  { blk := 5, reg := 0x0, lo := 0, w := 8, ty := rw, dom := die, rst := [0], stg := true }
/-- `TXD_EVENT.TRIM_SLEW`, bits [10:10]. -/
def TXD_EVENT_TRIM_SLEW : Fld :=
  { blk := 5, reg := 0x8, lo := 10, w := 1, ty := w1c, dom := die, rst := [0] }
/-- `TXD_EVENT.LUT_SWITCH_ERR`, bits [9:9]. -/
def TXD_EVENT_LUT_SWITCH_ERR : Fld :=
  { blk := 5, reg := 0x8, lo := 9, w := 1, ty := w1c, dom := die, rst := [0] }
/-- `TXD_EVENT.CLIP`, bits [8:8]. -/
def TXD_EVENT_CLIP : Fld :=
  { blk := 5, reg := 0x8, lo := 8, w := 1, ty := w1c, dom := die, rst := [0] }
/-- `TXD_EVENT.TX_LATE`, bits [7:0]. -/
def TXD_EVENT_TX_LATE : Fld :=
  { blk := 5, reg := 0x8, lo := 0, w := 8, ty := w1c, dom := die, rst := [0] }
/-- `TXD_EVENT_MASK.ENABLE`, bits [10:0]. -/
def TXD_EVENT_MASK_ENABLE : Fld :=
  { blk := 5, reg := 0xC, lo := 0, w := 11, ty := rw, dom := die, rst := [767] }
/-- `TXD_LEVEL.APPLIED`, bits [24:16]. -/
def TXD_LEVEL_APPLIED : Fld :=
  { blk := 5, reg := 0x10, lo := 16, w := 9, ty := ro, dom := die, rst := [210] }
/-- `TXD_LEVEL.LEVEL`, bits [8:0]. -/
def TXD_LEVEL_LEVEL : Fld :=
  { blk := 5, reg := 0x10, lo := 0, w := 9, ty := rw, dom := die, rst := [210] }
/-- `TXD_FREQ_TRIM.APPLIED`, bits [25:16]. -/
def TXD_FREQ_TRIM_APPLIED : Fld :=
  { blk := 5, reg := 0x14, lo := 16, w := 10, ty := ro, dom := die, rst := [0] }
/-- `TXD_FREQ_TRIM.TRIM`, bits [9:0]. -/
def TXD_FREQ_TRIM_TRIM : Fld :=
  { blk := 5, reg := 0x14, lo := 0, w := 10, ty := rw, dom := die, rst := [0] }
/-- `TXD_SKEW.YQ`, bits [31:24]. -/
def TXD_SKEW_YQ : Fld :=
  { blk := 5, reg := 0x18, lo := 24, w := 8, ty := rw, dom := die, rst := [0] }
/-- `TXD_SKEW.YI`, bits [23:16]. -/
def TXD_SKEW_YI : Fld :=
  { blk := 5, reg := 0x18, lo := 16, w := 8, ty := rw, dom := die, rst := [0] }
/-- `TXD_SKEW.XQ`, bits [15:8]. -/
def TXD_SKEW_XQ : Fld :=
  { blk := 5, reg := 0x18, lo := 8, w := 8, ty := rw, dom := die, rst := [0] }
/-- `TXD_SKEW.XI`, bits [7:0]. -/
def TXD_SKEW_XI : Fld :=
  { blk := 5, reg := 0x18, lo := 0, w := 8, ty := rw, dom := die, rst := [0] }
/-- `TXD_IQ.Y_PHASE`, bits [31:24]. -/
def TXD_IQ_Y_PHASE : Fld :=
  { blk := 5, reg := 0x1C, lo := 24, w := 8, ty := rw, dom := die, rst := [0] }
/-- `TXD_IQ.Y_GAIN`, bits [23:16]. -/
def TXD_IQ_Y_GAIN : Fld :=
  { blk := 5, reg := 0x1C, lo := 16, w := 8, ty := rw, dom := die, rst := [0] }
/-- `TXD_IQ.X_PHASE`, bits [15:8]. -/
def TXD_IQ_X_PHASE : Fld :=
  { blk := 5, reg := 0x1C, lo := 8, w := 8, ty := rw, dom := die, rst := [0] }
/-- `TXD_IQ.X_GAIN`, bits [7:0]. -/
def TXD_IQ_X_GAIN : Fld :=
  { blk := 5, reg := 0x1C, lo := 0, w := 8, ty := rw, dom := die, rst := [0] }
/-- `TXD_XY_BAL.BAL`, bits [7:0]. -/
def TXD_XY_BAL_BAL : Fld :=
  { blk := 5, reg := 0x20, lo := 0, w := 8, ty := rw, dom := die, rst := [0] }
/-- `TXD_LUT_CTRL.BYPASS`, bits [6:6]. -/
def TXD_LUT_CTRL_BYPASS : Fld :=
  { blk := 5, reg := 0x30, lo := 6, w := 1, ty := rw, dom := die, rst := [0] }
/-- `TXD_LUT_CTRL.WR_ERR`, bits [5:5]. -/
def TXD_LUT_CTRL_WR_ERR : Fld :=
  { blk := 5, reg := 0x30, lo := 5, w := 1, ty := w1c, dom := die, rst := [0] }
/-- `TXD_LUT_CTRL.OWNER`, bits [4:4]. -/
def TXD_LUT_CTRL_OWNER : Fld :=
  { blk := 5, reg := 0x30, lo := 4, w := 1, ty := rw, dom := die, rst := [0] }
/-- `TXD_LUT_CTRL.COPY_BACK`, bits [3:3]. -/
def TXD_LUT_CTRL_COPY_BACK : Fld :=
  { blk := 5, reg := 0x30, lo := 3, w := 1, ty := rw, dom := die, rst := [1] }
/-- `TXD_LUT_CTRL.SWITCH_PENDING`, bits [2:2]. -/
def TXD_LUT_CTRL_SWITCH_PENDING : Fld :=
  { blk := 5, reg := 0x30, lo := 2, w := 1, ty := ro, dom := die, rst := [0] }
/-- `TXD_LUT_CTRL.SWITCH`, bits [1:1]. -/
def TXD_LUT_CTRL_SWITCH : Fld :=
  { blk := 5, reg := 0x30, lo := 1, w := 1, ty := wo, dom := die, rst := [0] }
/-- `TXD_LUT_CTRL.ACTIVE_SET`, bits [0:0]. -/
def TXD_LUT_CTRL_ACTIVE_SET : Fld :=
  { blk := 5, reg := 0x30, lo := 0, w := 1, ty := ro, dom := die, rst := [0] }
/-- `TXD_CLIP_COUNT_c.COUNT`, bits [31:0]. -/
def TXD_CLIP_COUNT_COUNT : Fld :=
  { blk := 5, reg := 0x40, lo := 0, w := 32, ty := rc, dom := blk, rst := [0] }
/-- `TXD_SC_CFG_i.CONST`, bits [26:24]. -/
def TXD_SC_CFG_CONST : Fld :=
  { blk := 5, reg := 0x400, lo := 24, w := 3, ty := rw, dom := die, rst := [0], stg := true }
/-- `TXD_SC_CFG_i.CLASS`, bits [16:16]. -/
def TXD_SC_CFG_CLASS : Fld :=
  { blk := 5, reg := 0x400, lo := 16, w := 1, ty := rw, dom := die, rst := [0], stg := true }
/-- `TXD_SC_CFG_i.ROLLOFF`, bits [13:8]. -/
def TXD_SC_CFG_ROLLOFF : Fld :=
  { blk := 5, reg := 0x400, lo := 8, w := 6, ty := rw, dom := die, rst := [10], stg := true }
/-- `TXD_SC_CFG_i.H`, bits [6:0]. -/
def TXD_SC_CFG_H : Fld :=
  { blk := 5, reg := 0x400, lo := 0, w := 7, ty := rw, dom := die, rst := [32], stg := true }
/-- `TXD_SC_TILT_i.APPLIED`, bits [23:16]. -/
def TXD_SC_TILT_APPLIED : Fld :=
  { blk := 5, reg := 0x404, lo := 16, w := 8, ty := ro, dom := die, rst := [0] }
/-- `TXD_SC_TILT_i.TILT`, bits [7:0]. -/
def TXD_SC_TILT_TILT : Fld :=
  { blk := 5, reg := 0x404, lo := 0, w := 8, ty := rw, dom := die, rst := [0] }
/-- `TXD_SC_STATUS_i.CONST`, bits [10:8]. -/
def TXD_SC_STATUS_CONST : Fld :=
  { blk := 5, reg := 0x408, lo := 8, w := 3, ty := ro, dom := die, rst := [0] }
/-- `TXD_SC_STATUS_i.BYPASSED`, bits [4:4]. -/
def TXD_SC_STATUS_BYPASSED : Fld :=
  { blk := 5, reg := 0x408, lo := 4, w := 1, ty := ro, dom := die, rst := [0] }
/-- `TXD_SC_STATUS_i.STATE`, bits [2:0]. -/
def TXD_SC_STATUS_STATE : Fld :=
  { blk := 5, reg := 0x408, lo := 0, w := 3, ty := ro, dom := die, rst := [0] }
/-- `TXD_SC_RXPLAN_i.VALID`, bits [31:31]. -/
def TXD_SC_RXPLAN_VALID : Fld :=
  { blk := 5, reg := 0x40C, lo := 31, w := 1, ty := ro, dom := die, rst := [0] }
/-- `TXD_SC_RXPLAN_i.CONST`, bits [26:24]. -/
def TXD_SC_RXPLAN_CONST : Fld :=
  { blk := 5, reg := 0x40C, lo := 24, w := 3, ty := ro, dom := die, rst := [0] }
/-- `TXD_SC_RXPLAN_i.CLASS`, bits [16:16]. -/
def TXD_SC_RXPLAN_CLASS : Fld :=
  { blk := 5, reg := 0x40C, lo := 16, w := 1, ty := ro, dom := die, rst := [0] }
/-- `TXD_SC_RXPLAN_i.ROLLOFF`, bits [13:8]. -/
def TXD_SC_RXPLAN_ROLLOFF : Fld :=
  { blk := 5, reg := 0x40C, lo := 8, w := 6, ty := ro, dom := die, rst := [0] }
/-- `TXD_SC_RXPLAN_i.H`, bits [6:0]. -/
def TXD_SC_RXPLAN_H : Fld :=
  { blk := 5, reg := 0x40C, lo := 0, w := 7, ty := ro, dom := die, rst := [0] }
/-! ### Registers of spec/07_soft_decision_coding.md -/

/-- `FEC_CTRL.CLUSTER_EN`, bits [7:0]. -/
def FEC_CTRL_CLUSTER_EN : Fld :=
  { blk := 7, reg := 0x0, lo := 0, w := 8, ty := rw, dom := die, rst := [255] }
/-- `FEC_EVENT.TABLE_BAD`, bits [19:19]. -/
def FEC_EVENT_TABLE_BAD : Fld :=
  { blk := 7, reg := 0x8, lo := 19, w := 1, ty := w1c, dom := die, rst := [0] }
/-- `FEC_EVENT.EXP_FAIL`, bits [18:18]. -/
def FEC_EVENT_EXP_FAIL : Fld :=
  { blk := 7, reg := 0x8, lo := 18, w := 1, ty := w1c, dom := die, rst := [0] }
/-- `FEC_EVENT.SKIP`, bits [17:17]. -/
def FEC_EVENT_SKIP : Fld :=
  { blk := 7, reg := 0x8, lo := 17, w := 1, ty := w1c, dom := die, rst := [0] }
/-- `FEC_EVENT.QUEUE_HIGH`, bits [16:16]. -/
def FEC_EVENT_QUEUE_HIGH : Fld :=
  { blk := 7, reg := 0x8, lo := 16, w := 1, ty := w1c, dom := die, rst := [0] }
/-- `FEC_EVENT.PTR_ERR`, bits [15:8]. -/
def FEC_EVENT_PTR_ERR : Fld :=
  { blk := 7, reg := 0x8, lo := 8, w := 8, ty := w1c, dom := die, rst := [0] }
/-- `FEC_EVENT.BCH_FAIL`, bits [7:0]. -/
def FEC_EVENT_BCH_FAIL : Fld :=
  { blk := 7, reg := 0x8, lo := 0, w := 8, ty := w1c, dom := die, rst := [0] }
/-- `FEC_EVENT_MASK.ENABLE`, bits [19:0]. -/
def FEC_EVENT_MASK_ENABLE : Fld :=
  { blk := 7, reg := 0xC, lo := 0, w := 20, ty := rw, dom := die, rst := [720640] }
/-- `FEC_POOL_CTRL.MIN_ITER`, bits [28:24]. -/
def FEC_POOL_CTRL_MIN_ITER : Fld :=
  { blk := 7, reg := 0x10, lo := 24, w := 5, ty := rw, dom := die, rst := [1] }
/-- `FEC_POOL_CTRL.HIGH`, bits [20:16]. -/
def FEC_POOL_CTRL_HIGH : Fld :=
  { blk := 7, reg := 0x10, lo := 16, w := 5, ty := rw, dom := die, rst := [16] }
/-- `FEC_POOL_CTRL.GUARANTEE`, bits [12:8]. -/
def FEC_POOL_CTRL_GUARANTEE : Fld :=
  { blk := 7, reg := 0x10, lo := 8, w := 5, ty := rw, dom := die, rst := [6] }
/-- `FEC_POOL_CTRL.MAX_ITER`, bits [4:0]. -/
def FEC_POOL_CTRL_MAX_ITER : Fld :=
  { blk := 7, reg := 0x10, lo := 0, w := 5, ty := rw, dom := die, rst := [24] }
/-- `FEC_DEC_CTRL.EARLY_STOP_EN`, bits [8:8]. -/
def FEC_DEC_CTRL_EARLY_STOP_EN : Fld :=
  { blk := 7, reg := 0x14, lo := 8, w := 1, ty := rw, dom := die, rst := [1] }
/-- `FEC_DEC_CTRL.OFFSET`, bits [3:0]. -/
def FEC_DEC_CTRL_OFFSET : Fld :=
  { blk := 7, reg := 0x14, lo := 0, w := 4, ty := rw, dom := die, rst := [1] }
/-- `FEC_POOL_STATUS.AVAILABLE`, bits [31:24]. -/
def FEC_POOL_STATUS_AVAILABLE : Fld :=
  { blk := 7, reg := 0x18, lo := 24, w := 8, ty := ro, dom := die, rst := [255] }
/-- `FEC_POOL_STATUS.EXPRESS`, bits [23:16]. -/
def FEC_POOL_STATUS_EXPRESS : Fld :=
  { blk := 7, reg := 0x18, lo := 16, w := 8, ty := ro, dom := die, rst := [0] }
/-- `FEC_POOL_STATUS.RETIRED`, bits [15:8]. -/
def FEC_POOL_STATUS_RETIRED : Fld :=
  { blk := 7, reg := 0x18, lo := 8, w := 8, ty := ro, dom := die, rst := [0] }
/-- `FEC_POOL_STATUS.FILL`, bits [5:0]. -/
def FEC_POOL_STATUS_FILL : Fld :=
  { blk := 7, reg := 0x18, lo := 0, w := 6, ty := ro, dom := die, rst := [0] }
/-- `FEC_SKIPPED.COUNT`, bits [31:0]. -/
def FEC_SKIPPED_COUNT : Fld :=
  { blk := 7, reg := 0x1C, lo := 0, w := 32, ty := rc, dom := blk, rst := [0] }
/-- `FEC_DM_CTRL.AGREE_LLR`, bits [12:8]. -/
def FEC_DM_CTRL_AGREE_LLR : Fld :=
  { blk := 7, reg := 0x20, lo := 8, w := 5, ty := rw, dom := die, rst := [24] }
/-- `FEC_DM_CTRL.LIST`, bits [1:0]. -/
def FEC_DM_CTRL_LIST : Fld :=
  { blk := 7, reg := 0x20, lo := 0, w := 2, ty := rw, dom := die, rst := [1] }
/-- `FEC_EXP_CW.COUNT`, bits [31:0]. -/
def FEC_EXP_CW_COUNT : Fld :=
  { blk := 7, reg := 0x24, lo := 0, w := 32, ty := rc, dom := blk, rst := [0] }
/-- `FEC_EXP_FAIL.COUNT`, bits [31:0]. -/
def FEC_EXP_FAIL_COUNT : Fld :=
  { blk := 7, reg := 0x28, lo := 0, w := 32, ty := rc, dom := blk, rst := [0] }
/-- `FEC_QUEUE_PEAK.PEAK`, bits [5:0]. -/
def FEC_QUEUE_PEAK_PEAK : Fld :=
  { blk := 7, reg := 0x2C, lo := 0, w := 6, ty := rc, dom := blk, rst := [0] }
/-- `FEC_TABLE_k.VALID`, bits [31:31]. -/
def FEC_TABLE_VALID : Fld :=
  { blk := 7, reg := 0x40, lo := 31, w := 1, ty := ro, dom := die, rst := [0] }
/-- `FEC_TABLE_k.CLASS`, bits [30:30]. -/
def FEC_TABLE_CLASS : Fld :=
  { blk := 7, reg := 0x40, lo := 30, w := 1, ty := ro, dom := die, rst := [0] }
/-- `FEC_TABLE_k.OUTER`, bits [29:29]. -/
def FEC_TABLE_OUTER : Fld :=
  { blk := 7, reg := 0x40, lo := 29, w := 1, ty := ro, dom := die, rst := [0] }
/-- `FEC_TABLE_k.Z_LOG2`, bits [28:25]. -/
def FEC_TABLE_Z_LOG2 : Fld :=
  { blk := 7, reg := 0x40, lo := 25, w := 4, ty := ro, dom := die, rst := [0] }
/-- `FEC_TABLE_k.ENTRIES`, bits [24:16]. -/
def FEC_TABLE_ENTRIES : Fld :=
  { blk := 7, reg := 0x40, lo := 16, w := 9, ty := ro, dom := die, rst := [0] }
/-- `FEC_TABLE_k.COLUMNS`, bits [15:8]. -/
def FEC_TABLE_COLUMNS : Fld :=
  { blk := 7, reg := 0x40, lo := 8, w := 8, ty := ro, dom := die, rst := [0] }
/-- `FEC_TABLE_k.ROWS`, bits [4:0]. -/
def FEC_TABLE_ROWS : Fld :=
  { blk := 7, reg := 0x40, lo := 0, w := 5, ty := ro, dom := die, rst := [0] }
/-- `FEC_TABLE_NAME_k.NAME`, bits [31:0]. -/
def FEC_TABLE_NAME_NAME : Fld :=
  { blk := 7, reg := 0x50, lo := 0, w := 32, ty := ro, dom := die, rst := [0] }
/-- `FEC_HIST_CTRL.CLEAR`, bits [1:1]. -/
def FEC_HIST_CTRL_CLEAR : Fld :=
  { blk := 7, reg := 0xF0, lo := 1, w := 1, ty := wo, dom := die, rst := [0] }
/-- `FEC_HIST_CTRL.SNAP`, bits [0:0]. -/
def FEC_HIST_CTRL_SNAP : Fld :=
  { blk := 7, reg := 0xF0, lo := 0, w := 1, ty := wo, dom := die, rst := [0] }
/-- `FEC_ITER_HIST_k.COUNT`, bits [31:0]. -/
def FEC_ITER_HIST_COUNT : Fld :=
  { blk := 7, reg := 0x100, lo := 0, w := 32, ty := ro, dom := blk, rst := [0] }
/-- `FEC_ITER_HIST_FAIL.COUNT`, bits [31:0]. -/
def FEC_ITER_HIST_FAIL_COUNT : Fld :=
  { blk := 7, reg := 0x160, lo := 0, w := 32, ty := ro, dom := blk, rst := [0] }
/-- `FEC_SC_CFG_i.CODE`, bits [1:0]. -/
def FEC_SC_CFG_CODE : Fld :=
  { blk := 7, reg := 0x400, lo := 0, w := 2, ty := rw, dom := die, rst := [0], stg := true }
/-- `FEC_SC_STATUS_i.RX_SYNC`, bits [31:31]. -/
def FEC_SC_STATUS_RX_SYNC : Fld :=
  { blk := 7, reg := 0x404, lo := 31, w := 1, ty := ro, dom := die, rst := [0] }
/-- `FEC_SC_STATUS_i.TX_RUN`, bits [30:30]. -/
def FEC_SC_STATUS_TX_RUN : Fld :=
  { blk := 7, reg := 0x404, lo := 30, w := 1, ty := ro, dom := die, rst := [0] }
/-- `FEC_SC_STATUS_i.CODE`, bits [1:0]. -/
def FEC_SC_STATUS_CODE : Fld :=
  { blk := 7, reg := 0x404, lo := 0, w := 2, ty := ro, dom := die, rst := [0] }
/-- `FEC_CW_i.COUNT`, bits [31:0]. -/
def FEC_CW_COUNT : Fld :=
  { blk := 7, reg := 0x410, lo := 0, w := 32, ty := rc, dom := blk, rst := [0] }
/-- `FEC_CW_FAIL_i.COUNT`, bits [31:0]. -/
def FEC_CW_FAIL_COUNT : Fld :=
  { blk := 7, reg := 0x414, lo := 0, w := 32, ty := rc, dom := blk, rst := [0] }
/-- `FEC_FLIPS_i.COUNT`, bits [31:0]. -/
def FEC_FLIPS_COUNT : Fld :=
  { blk := 7, reg := 0x418, lo := 0, w := 32, ty := rc, dom := blk, rst := [0] }
/-- `FEC_BCH_CORR_i.COUNT`, bits [31:0]. -/
def FEC_BCH_CORR_COUNT : Fld :=
  { blk := 7, reg := 0x41C, lo := 0, w := 32, ty := rc, dom := blk, rst := [0] }
/-- `FEC_BCH_FAIL_i.COUNT`, bits [31:0]. -/
def FEC_BCH_FAIL_COUNT : Fld :=
  { blk := 7, reg := 0x420, lo := 0, w := 32, ty := rc, dom := blk, rst := [0] }
/-! ### Registers of spec/08_carrier_frame.md -/

/-- `FRM_CTRL.LOS_TH`, bits [23:16]. -/
def FRM_CTRL_LOS_TH : Fld :=
  { blk := 8, reg := 0x0, lo := 16, w := 8, ty := rw, dom := die, rst := [60] }
/-- `FRM_CTRL.HUNT_TH`, bits [7:0]. -/
def FRM_CTRL_HUNT_TH : Fld :=
  { blk := 8, reg := 0x0, lo := 0, w := 8, ty := rw, dom := die, rst := [128] }
/-- `FRM_STATUS.LOS_RAW`, bits [1:1]. -/
def FRM_STATUS_LOS_RAW : Fld :=
  { blk := 8, reg := 0x4, lo := 1, w := 1, ty := ro, dom := die, rst := [0] }
/-- `FRM_STATUS.LOS`, bits [0:0]. -/
def FRM_STATUS_LOS : Fld :=
  { blk := 8, reg := 0x4, lo := 0, w := 1, ty := ro, dom := die, rst := [0] }
/-- `FRM_EVENT.TT_UPDATE`, bits [13:13]. -/
def FRM_EVENT_TT_UPDATE : Fld :=
  { blk := 8, reg := 0x8, lo := 13, w := 1, ty := w1c, dom := die, rst := [0] }
/-- `FRM_EVENT.PLAN_UNKNOWN`, bits [12:12]. -/
def FRM_EVENT_PLAN_UNKNOWN : Fld :=
  { blk := 8, reg := 0x8, lo := 12, w := 1, ty := w1c, dom := die, rst := [0] }
/-- `FRM_EVENT.PLAN_REVERT`, bits [11:11]. -/
def FRM_EVENT_PLAN_REVERT : Fld :=
  { blk := 8, reg := 0x8, lo := 11, w := 1, ty := w1c, dom := die, rst := [0] }
/-- `FRM_EVENT.PLAN_REJECT`, bits [10:10]. -/
def FRM_EVENT_PLAN_REJECT : Fld :=
  { blk := 8, reg := 0x8, lo := 10, w := 1, ty := w1c, dom := die, rst := [0] }
/-- `FRM_EVENT.PLAN_DONE`, bits [9:9]. -/
def FRM_EVENT_PLAN_DONE : Fld :=
  { blk := 8, reg := 0x8, lo := 9, w := 1, ty := w1c, dom := die, rst := [0] }
/-- `FRM_EVENT.LOS_CHG`, bits [8:8]. -/
def FRM_EVENT_LOS_CHG : Fld :=
  { blk := 8, reg := 0x8, lo := 8, w := 1, ty := w1c, dom := die, rst := [0] }
/-- `FRM_EVENT.DEF_CHG`, bits [7:0]. -/
def FRM_EVENT_DEF_CHG : Fld :=
  { blk := 8, reg := 0x8, lo := 0, w := 8, ty := w1c, dom := die, rst := [0] }
/-- `FRM_EVENT_MASK.ENABLE`, bits [13:0]. -/
def FRM_EVENT_MASK_ENABLE : Fld :=
  { blk := 8, reg := 0xC, lo := 0, w := 14, ty := rw, dom := die, rst := [7679] }
/-- `FRM_INTEG_d.CLEAR`, bits [25:16]. -/
def FRM_INTEG_CLEAR : Fld :=
  { blk := 8, reg := 0x10, lo := 16, w := 10, ty := rw, dom := die, rst := [100] }
/-- `FRM_INTEG_d.SET`, bits [9:0]. -/
def FRM_INTEG_SET : Fld :=
  { blk := 8, reg := 0x10, lo := 0, w := 10, ty := rw, dom := die, rst := [25] }
/-- `FRM_BDI_TX.BDI`, bits [7:0]. -/
def FRM_BDI_TX_BDI : Fld :=
  { blk := 8, reg := 0x40, lo := 0, w := 8, ty := rw, dom := die, rst := [0] }
/-- `FRM_PLAN_CTRL.AUTO_LEAD`, bits [31:31]. -/
def FRM_PLAN_CTRL_AUTO_LEAD : Fld :=
  { blk := 8, reg := 0x100, lo := 31, w := 1, ty := rw, dom := pkg, rst := [1] }
/-- `FRM_PLAN_CTRL.PLAN_WAIT`, bits [7:0]. -/
def FRM_PLAN_CTRL_PLAN_WAIT : Fld :=
  { blk := 8, reg := 0x100, lo := 0, w := 8, ty := rw, dom := pkg, rst := [4] }
/-- `FRM_PLAN_STATUS.STATE`, bits [31:28]. -/
def FRM_PLAN_STATUS_STATE : Fld :=
  { blk := 8, reg := 0x104, lo := 28, w := 4, ty := ro, dom := pkg, rst := [0] }
/-- `FRM_PLAN_STATUS.REJECT_REASON`, bits [27:24]. -/
def FRM_PLAN_STATUS_REJECT_REASON : Fld :=
  { blk := 8, reg := 0x104, lo := 24, w := 4, ty := ro, dom := pkg, rst := [0] }
/-- `FRM_PLAN_STATUS.REJECT_RX`, bits [23:23]. -/
def FRM_PLAN_STATUS_REJECT_RX : Fld :=
  { blk := 8, reg := 0x104, lo := 23, w := 1, ty := ro, dom := pkg, rst := [0] }
/-- `FRM_PLAN_STATUS.LOST_TIE`, bits [22:22]. -/
def FRM_PLAN_STATUS_LOST_TIE : Fld :=
  { blk := 8, reg := 0x104, lo := 22, w := 1, ty := ro, dom := pkg, rst := [0] }
/-- `FRM_PLAN_EPOCH.AGREED`, bits [31:0]. -/
def FRM_PLAN_EPOCH_AGREED : Fld :=
  { blk := 8, reg := 0x108, lo := 0, w := 32, ty := ro, dom := pkg, rst := [0] }
/-- `FRM_PLAN_ACTIVE.EPOCH`, bits [31:0]. -/
def FRM_PLAN_ACTIVE_EPOCH : Fld :=
  { blk := 8, reg := 0x10C, lo := 0, w := 32, ty := ro, dom := pkg, rst := [0] }
/-- `FRM_PLAN_FAR.EPOCH`, bits [31:0]. -/
def FRM_PLAN_FAR_EPOCH : Fld :=
  { blk := 8, reg := 0x110, lo := 0, w := 32, ty := ro, dom := pkg, rst := [0] }
/-- `FRM_PLAN_DISP_LO.MASK`, bits [31:0]. -/
def FRM_PLAN_DISP_LO_MASK : Fld :=
  { blk := 8, reg := 0x114, lo := 0, w := 32, ty := ro, dom := pkg, rst := [0] }
/-- `FRM_PLAN_DISP_HI.MASK`, bits [31:0]. -/
def FRM_PLAN_DISP_HI_MASK : Fld :=
  { blk := 8, reg := 0x118, lo := 0, w := 32, ty := ro, dom := pkg, rst := [0] }
/-- `FRM_TT_CTRL.EN`, bits [31:31]. -/
def FRM_TT_CTRL_EN : Fld :=
  { blk := 8, reg := 0x200, lo := 31, w := 1, ty := rw, dom := pkg, rst := [0] }
/-- `FRM_TT_CTRL.AUTO_SC`, bits [30:30]. -/
def FRM_TT_CTRL_AUTO_SC : Fld :=
  { blk := 8, reg := 0x200, lo := 30, w := 1, ty := rw, dom := pkg, rst := [1] }
/-- `FRM_TT_CTRL.SC`, bits [21:16]. -/
def FRM_TT_CTRL_SC : Fld :=
  { blk := 8, reg := 0x200, lo := 16, w := 6, ty := rw, dom := pkg, rst := [0] }
/-- `FRM_TT_CTRL.ASYM`, bits [15:0]. -/
def FRM_TT_CTRL_ASYM : Fld :=
  { blk := 8, reg := 0x200, lo := 0, w := 16, ty := rw, dom := pkg, rst := [0] }
/-- `FRM_TT_STATUS.VALID`, bits [31:31]. -/
def FRM_TT_STATUS_VALID : Fld :=
  { blk := 8, reg := 0x204, lo := 31, w := 1, ty := ro, dom := pkg, rst := [0] }
/-- `FRM_TT_STATUS.SC`, bits [21:16]. -/
def FRM_TT_STATUS_SC : Fld :=
  { blk := 8, reg := 0x204, lo := 16, w := 6, ty := ro, dom := pkg, rst := [0] }
/-- `FRM_TT_STATUS.SEQ`, bits [15:0]. -/
def FRM_TT_STATUS_SEQ : Fld :=
  { blk := 8, reg := 0x204, lo := 0, w := 16, ty := ro, dom := pkg, rst := [0] }
/-- `FRM_TT_OFS_S.SECONDS`, bits [31:0]. -/
def FRM_TT_OFS_S_SECONDS : Fld :=
  { blk := 8, reg := 0x208, lo := 0, w := 32, ty := ro, dom := pkg, rst := [0] }
/-- `FRM_TT_OFS_NS.NS`, bits [29:0]. -/
def FRM_TT_OFS_NS_NS : Fld :=
  { blk := 8, reg := 0x20C, lo := 0, w := 30, ty := ro, dom := pkg, rst := [0] }
/-- `FRM_TT_OFS_FRAC.FRAC`, bits [15:0]. -/
def FRM_TT_OFS_FRAC_FRAC : Fld :=
  { blk := 8, reg := 0x210, lo := 0, w := 16, ty := ro, dom := pkg, rst := [0] }
/-- `FRM_TT_DELAY.DELAY`, bits [31:0]. -/
def FRM_TT_DELAY_DELAY : Fld :=
  { blk := 8, reg := 0x214, lo := 0, w := 32, ty := ro, dom := pkg, rst := [0] }
/-- `FRM_SC_STATUS_i.REI_LAST`, bits [31:28]. -/
def FRM_SC_STATUS_REI_LAST : Fld :=
  { blk := 8, reg := 0x400, lo := 28, w := 4, ty := ro, dom := die, rst := [0] }
/-- `FRM_SC_STATUS_i.BDI_RX`, bits [17:17]. -/
def FRM_SC_STATUS_BDI_RX : Fld :=
  { blk := 8, reg := 0x400, lo := 17, w := 1, ty := ro, dom := die, rst := [0] }
/-- `FRM_SC_STATUS_i.PT_RX`, bits [16:16]. -/
def FRM_SC_STATUS_PT_RX : Fld :=
  { blk := 8, reg := 0x400, lo := 16, w := 1, ty := ro, dom := die, rst := [0] }
/-- `FRM_SC_STATUS_i.IDLE`, bits [12:12]. -/
def FRM_SC_STATUS_IDLE : Fld :=
  { blk := 8, reg := 0x400, lo := 12, w := 1, ty := ro, dom := die, rst := [0] }
/-- `FRM_SC_STATUS_i.BDI`, bits [11:11]. -/
def FRM_SC_STATUS_BDI : Fld :=
  { blk := 8, reg := 0x400, lo := 11, w := 1, ty := ro, dom := die, rst := [0] }
/-- `FRM_SC_STATUS_i.LOM`, bits [10:10]. -/
def FRM_SC_STATUS_LOM : Fld :=
  { blk := 8, reg := 0x400, lo := 10, w := 1, ty := ro, dom := die, rst := [0] }
/-- `FRM_SC_STATUS_i.LOF`, bits [9:9]. -/
def FRM_SC_STATUS_LOF : Fld :=
  { blk := 8, reg := 0x400, lo := 9, w := 1, ty := ro, dom := die, rst := [0] }
/-- `FRM_SC_STATUS_i.LOL`, bits [8:8]. -/
def FRM_SC_STATUS_LOL : Fld :=
  { blk := 8, reg := 0x400, lo := 8, w := 1, ty := ro, dom := die, rst := [0] }
/-- `FRM_SC_STATUS_i.CANDIDATES`, bits [7:5]. -/
def FRM_SC_STATUS_CANDIDATES : Fld :=
  { blk := 8, reg := 0x400, lo := 5, w := 3, ty := ro, dom := die, rst := [0] }
/-- `FRM_SC_STATUS_i.MF`, bits [4:3]. -/
def FRM_SC_STATUS_MF : Fld :=
  { blk := 8, reg := 0x400, lo := 3, w := 2, ty := ro, dom := die, rst := [0] }
/-- `FRM_SC_STATUS_i.ALIGN`, bits [2:0]. -/
def FRM_SC_STATUS_ALIGN : Fld :=
  { blk := 8, reg := 0x400, lo := 0, w := 3, ty := ro, dom := die, rst := [0] }
/-- `FRM_SBIP_ERR_i.COUNT`, bits [31:0]. -/
def FRM_SBIP_ERR_COUNT : Fld :=
  { blk := 8, reg := 0x404, lo := 0, w := 32, ty := rc, dom := blk, rst := [0] }
/-- `FRM_REI_i.COUNT`, bits [31:0]. -/
def FRM_REI_COUNT : Fld :=
  { blk := 8, reg := 0x408, lo := 0, w := 32, ty := rc, dom := blk, rst := [0] }
/-- `FRM_OH_ERR_i.COUNT`, bits [31:0]. -/
def FRM_OH_ERR_COUNT : Fld :=
  { blk := 8, reg := 0x40C, lo := 0, w := 32, ty := rc, dom := blk, rst := [0] }
/-- `FRM_FAS_ERR_i.COUNT`, bits [31:0]. -/
def FRM_FAS_ERR_COUNT : Fld :=
  { blk := 8, reg := 0x410, lo := 0, w := 32, ty := rc, dom := blk, rst := [0] }
/-- `FRM_OOF_COUNT_i.COUNT`, bits [31:0]. -/
def FRM_OOF_COUNT_COUNT : Fld :=
  { blk := 8, reg := 0x414, lo := 0, w := 32, ty := rc, dom := blk, rst := [0] }
/-! ### Registers of spec/09_flows_crypto_checks.md -/

/-- `FLW_EVENT.OVERFLOW`, bits [1:1]. -/
def FLW_EVENT_OVERFLOW : Fld :=
  { blk := 10, reg := 0x8, lo := 1, w := 1, ty := w1c, dom := die, rst := [0] }
/-- `FLW_EVENT.DEF_CHG`, bits [0:0]. -/
def FLW_EVENT_DEF_CHG : Fld :=
  { blk := 10, reg := 0x8, lo := 0, w := 1, ty := w1c, dom := die, rst := [0] }
/-- `FLW_EVENT_MASK.ENABLE`, bits [1:0]. -/
def FLW_EVENT_MASK_ENABLE : Fld :=
  { blk := 10, reg := 0xC, lo := 0, w := 2, ty := rw, dom := die, rst := [3] }
/-- `FLW_DEF_INTEG.CLEAR`, bits [15:8]. -/
def FLW_DEF_INTEG_CLEAR : Fld :=
  { blk := 10, reg := 0x10, lo := 8, w := 8, ty := rw, dom := die, rst := [10] }
/-- `FLW_DEF_INTEG.SET`, bits [7:0]. -/
def FLW_DEF_INTEG_SET : Fld :=
  { blk := 10, reg := 0x10, lo := 0, w := 8, ty := rw, dom := die, rst := [2] }
/-- `FLW_DEF_CHG_w.FLOW`, bits [31:0]. -/
def FLW_DEF_CHG_FLOW : Fld :=
  { blk := 10, reg := 0x80, lo := 0, w := 32, ty := w1c, dom := die, rst := [0] }
/-- `FLW_TX_SLOT_s.VALID`, bits [31:31]. -/
def FLW_TX_SLOT_VALID : Fld :=
  { blk := 10, reg := 0x1000, lo := 31, w := 1, ty := rw, dom := die, rst := [0], stg := true }
/-- `FLW_TX_SLOT_s.DIE`, bits [18:16]. -/
def FLW_TX_SLOT_DIE : Fld :=
  { blk := 10, reg := 0x1000, lo := 16, w := 3, ty := rw, dom := die, rst := [0], stg := true }
/-- `FLW_TX_SLOT_s.FLOW`, bits [8:0]. -/
def FLW_TX_SLOT_FLOW : Fld :=
  { blk := 10, reg := 0x1000, lo := 0, w := 9, ty := rw, dom := die, rst := [0], stg := true }
/-- `FLW_RX_SLOT_s.VALID`, bits [31:31]. -/
def FLW_RX_SLOT_VALID : Fld :=
  { blk := 10, reg := 0x1400, lo := 31, w := 1, ty := ro, dom := die, rst := [0] }
/-- `FLW_RX_SLOT_s.DIE`, bits [18:16]. -/
def FLW_RX_SLOT_DIE : Fld :=
  { blk := 10, reg := 0x1400, lo := 16, w := 3, ty := ro, dom := die, rst := [0] }
/-- `FLW_RX_SLOT_s.FLOW`, bits [8:0]. -/
def FLW_RX_SLOT_FLOW : Fld :=
  { blk := 10, reg := 0x1400, lo := 0, w := 9, ty := ro, dom := die, rst := [0] }
/-- `FLW_CFG_f.TX_EN`, bits [31:31]. -/
def FLW_CFG_TX_EN : Fld :=
  { blk := 10, reg := 0x8000, lo := 31, w := 1, ty := rw, dom := die, rst := [0], stg := true }
/-- `FLW_CFG_f.RX_EN`, bits [30:30]. -/
def FLW_CFG_RX_EN : Fld :=
  { blk := 10, reg := 0x8000, lo := 30, w := 1, ty := rw, dom := die, rst := [0] }
/-- `FLW_CFG_f.CLASS`, bits [29:29]. -/
def FLW_CFG_CLASS : Fld :=
  { blk := 10, reg := 0x8000, lo := 29, w := 1, ty := rw, dom := die, rst := [0], stg := true }
/-- `FLW_CFG_f.ENC`, bits [28:28]. -/
def FLW_CFG_ENC : Fld :=
  { blk := 10, reg := 0x8000, lo := 28, w := 1, ty := rw, dom := die, rst := [0], stg := true }
/-- `FLW_CFG_f.ERR_ACTION`, bits [23:23]. -/
def FLW_CFG_ERR_ACTION : Fld :=
  { blk := 10, reg := 0x8000, lo := 23, w := 1, ty := rw, dom := die, rst := [0] }
/-- `FLW_CFG_f.REPLACE`, bits [22:22]. -/
def FLW_CFG_REPLACE : Fld :=
  { blk := 10, reg := 0x8000, lo := 22, w := 1, ty := rw, dom := die, rst := [0] }
/-- `FLW_CFG_f.FBDI_TX`, bits [21:21]. -/
def FLW_CFG_FBDI_TX : Fld :=
  { blk := 10, reg := 0x8000, lo := 21, w := 1, ty := rw, dom := die, rst := [0] }
/-- `FLW_CFG_f.CSF_TX`, bits [20:20]. -/
def FLW_CFG_CSF_TX : Fld :=
  { blk := 10, reg := 0x8000, lo := 20, w := 1, ty := rw, dom := die, rst := [0] }
/-- `FLW_CFG_f.MIN_SLOTS`, bits [10:0]. -/
def FLW_CFG_MIN_SLOTS : Fld :=
  { blk := 10, reg := 0x8000, lo := 0, w := 11, ty := rw, dom := die, rst := [0] }
/-- `FLW_ID_f.LINE_ID`, bits [15:0]. -/
def FLW_ID_LINE_ID : Fld :=
  { blk := 10, reg := 0x8004, lo := 0, w := 16, ty := rw, dom := die, rst := [0], stg := true }
/-- `FLW_CHK_f.APPEND`, bits [31:31]. -/
def FLW_CHK_APPEND : Fld :=
  { blk := 10, reg := 0x8008, lo := 31, w := 1, ty := rw, dom := die, rst := [0], stg := true }
/-- `FLW_CHK_f.POLY`, bits [17:16]. -/
def FLW_CHK_POLY : Fld :=
  { blk := 10, reg := 0x8008, lo := 16, w := 2, ty := rw, dom := die, rst := [0], stg := true }
/-- `FLW_CHK_f.SPAN`, bits [6:0]. -/
def FLW_CHK_SPAN : Fld :=
  { blk := 10, reg := 0x8008, lo := 0, w := 7, ty := rw, dom := die, rst := [64], stg := true }
/-- `FLW_SLOTS_f.TX`, bits [26:16]. -/
def FLW_SLOTS_TX : Fld :=
  { blk := 10, reg := 0x800C, lo := 16, w := 11, ty := ro, dom := die, rst := [0] }
/-- `FLW_SLOTS_f.RX`, bits [10:0]. -/
def FLW_SLOTS_RX : Fld :=
  { blk := 10, reg := 0x800C, lo := 0, w := 11, ty := ro, dom := die, rst := [0] }
/-- `FLW_DEF_f.DECLARED`, bits [6:0]. -/
def FLW_DEF_DECLARED : Fld :=
  { blk := 10, reg := 0x8010, lo := 0, w := 7, ty := ro, dom := die, rst := [0] }
/-- `FLW_CNT_f_k.COUNT`, bits [31:0]. -/
def FLW_CNT0_COUNT : Fld :=
  { blk := 10, reg := 0x8020, lo := 0, w := 32, ty := rc, dom := blk, rst := [0] }
/-- `FLW_CNT_f_k.COUNT`, bits [31:0]. -/
def FLW_CNT1_COUNT : Fld :=
  { blk := 10, reg := 0x8024, lo := 0, w := 32, ty := rc, dom := blk, rst := [0] }
/-- `FLW_CNT_f_k.COUNT`, bits [31:0]. -/
def FLW_CNT2_COUNT : Fld :=
  { blk := 10, reg := 0x8028, lo := 0, w := 32, ty := rc, dom := blk, rst := [0] }
/-- `FLW_CNT_f_k.COUNT`, bits [31:0]. -/
def FLW_CNT3_COUNT : Fld :=
  { blk := 10, reg := 0x802C, lo := 0, w := 32, ty := rc, dom := blk, rst := [0] }
/-- `FLW_CNT_f_k.COUNT`, bits [31:0]. -/
def FLW_CNT4_COUNT : Fld :=
  { blk := 10, reg := 0x8030, lo := 0, w := 32, ty := rc, dom := blk, rst := [0] }
/-- `FLW_CNT_f_k.COUNT`, bits [31:0]. -/
def FLW_CNT5_COUNT : Fld :=
  { blk := 10, reg := 0x8034, lo := 0, w := 32, ty := rc, dom := blk, rst := [0] }
/-- `CRY_EVENT.KEY_MISS`, bits [2:2]. -/
def CRY_EVENT_KEY_MISS : Fld :=
  { blk := 11, reg := 0x8, lo := 2, w := 1, ty := w1c, dom := die, rst := [0] }
/-- `CRY_EVENT.LOAD_FAIL`, bits [1:1]. -/
def CRY_EVENT_LOAD_FAIL : Fld :=
  { blk := 11, reg := 0x8, lo := 1, w := 1, ty := w1c, dom := die, rst := [0] }
/-- `CRY_EVENT.LOAD_DONE`, bits [0:0]. -/
def CRY_EVENT_LOAD_DONE : Fld :=
  { blk := 11, reg := 0x8, lo := 0, w := 1, ty := w1c, dom := die, rst := [0] }
/-- `CRY_EVENT_MASK.ENABLE`, bits [2:0]. -/
def CRY_EVENT_MASK_ENABLE : Fld :=
  { blk := 11, reg := 0xC, lo := 0, w := 3, ty := rw, dom := die, rst := [6] }
/-- `CRY_KEY_DATA_w.DATA`, bits [31:0]. -/
def CRY_KEY_DATA_DATA : Fld :=
  { blk := 11, reg := 0x20, lo := 0, w := 32, ty := wo, dom := die, rst := [0] }
/-- `CRY_KEY_ID.KEY_ID`, bits [31:0]. -/
def CRY_KEY_ID_KEY_ID : Fld :=
  { blk := 11, reg := 0x48, lo := 0, w := 32, ty := rw, dom := die, rst := [0] }
/-- `CRY_KEY_CMD.ERASE`, bits [13:13]. -/
def CRY_KEY_CMD_ERASE : Fld :=
  { blk := 11, reg := 0x4C, lo := 13, w := 1, ty := wo, dom := die, rst := [0] }
/-- `CRY_KEY_CMD.LOAD`, bits [12:12]. -/
def CRY_KEY_CMD_LOAD : Fld :=
  { blk := 11, reg := 0x4C, lo := 12, w := 1, ty := wo, dom := die, rst := [0] }
/-- `CRY_KEY_CMD.SLOT`, bits [11:11]. -/
def CRY_KEY_CMD_SLOT : Fld :=
  { blk := 11, reg := 0x4C, lo := 11, w := 1, ty := rw, dom := die, rst := [1] }
/-- `CRY_KEY_CMD.DIR`, bits [10:10]. -/
def CRY_KEY_CMD_DIR : Fld :=
  { blk := 11, reg := 0x4C, lo := 10, w := 1, ty := rw, dom := die, rst := [0] }
/-- `CRY_KEY_CMD.FLOW`, bits [8:0]. -/
def CRY_KEY_CMD_FLOW : Fld :=
  { blk := 11, reg := 0x4C, lo := 0, w := 9, ty := rw, dom := die, rst := [0] }
/-- `CRY_KEY_STATUS.BUSY`, bits [4:4]. -/
def CRY_KEY_STATUS_BUSY : Fld :=
  { blk := 11, reg := 0x50, lo := 4, w := 1, ty := ro, dom := die, rst := [0] }
/-- `CRY_KEY_STATUS.RESULT`, bits [3:0]. -/
def CRY_KEY_STATUS_RESULT : Fld :=
  { blk := 11, reg := 0x50, lo := 0, w := 4, ty := ro, dom := die, rst := [0] }
/-- `CRY_FLOW_STATUS_f.RX_NEXT`, bits [7:7]. -/
def CRY_FLOW_STATUS_RX_NEXT : Fld :=
  { blk := 11, reg := 0x8000, lo := 7, w := 1, ty := ro, dom := die, rst := [0] }
/-- `CRY_FLOW_STATUS_f.RX_CURRENT`, bits [6:6]. -/
def CRY_FLOW_STATUS_RX_CURRENT : Fld :=
  { blk := 11, reg := 0x8000, lo := 6, w := 1, ty := ro, dom := die, rst := [0] }
/-- `CRY_FLOW_STATUS_f.RX_KP`, bits [5:5]. -/
def CRY_FLOW_STATUS_RX_KP : Fld :=
  { blk := 11, reg := 0x8000, lo := 5, w := 1, ty := ro, dom := die, rst := [0] }
/-- `CRY_FLOW_STATUS_f.RX_ENC`, bits [4:4]. -/
def CRY_FLOW_STATUS_RX_ENC : Fld :=
  { blk := 11, reg := 0x8000, lo := 4, w := 1, ty := ro, dom := die, rst := [0] }
/-- `CRY_FLOW_STATUS_f.TX_NEXT`, bits [3:3]. -/
def CRY_FLOW_STATUS_TX_NEXT : Fld :=
  { blk := 11, reg := 0x8000, lo := 3, w := 1, ty := ro, dom := die, rst := [0] }
/-- `CRY_FLOW_STATUS_f.TX_CURRENT`, bits [2:2]. -/
def CRY_FLOW_STATUS_TX_CURRENT : Fld :=
  { blk := 11, reg := 0x8000, lo := 2, w := 1, ty := ro, dom := die, rst := [0] }
/-- `CRY_FLOW_STATUS_f.TX_KP`, bits [1:1]. -/
def CRY_FLOW_STATUS_TX_KP : Fld :=
  { blk := 11, reg := 0x8000, lo := 1, w := 1, ty := ro, dom := die, rst := [0] }
/-- `CRY_FLOW_STATUS_f.TX_ENC`, bits [0:0]. -/
def CRY_FLOW_STATUS_TX_ENC : Fld :=
  { blk := 11, reg := 0x8000, lo := 0, w := 1, ty := ro, dom := die, rst := [0] }
/-- `CRY_KCV_TX_f.KCV`, bits [31:0]. -/
def CRY_KCV_TX_KCV : Fld :=
  { blk := 11, reg := 0x8004, lo := 0, w := 32, ty := ro, dom := die, rst := [0] }
/-- `CRY_KCV_RX_f.KCV`, bits [31:0]. -/
def CRY_KCV_RX_KCV : Fld :=
  { blk := 11, reg := 0x8008, lo := 0, w := 32, ty := ro, dom := die, rst := [0] }
/-- `CRY_KID_TX_f.KEY_ID`, bits [31:0]. -/
def CRY_KID_TX_KEY_ID : Fld :=
  { blk := 11, reg := 0x800C, lo := 0, w := 32, ty := ro, dom := die, rst := [0] }
/-- `CRY_KID_RX_f.KEY_ID`, bits [31:0]. -/
def CRY_KID_RX_KEY_ID : Fld :=
  { blk := 11, reg := 0x8010, lo := 0, w := 32, ty := ro, dom := die, rst := [0] }
/-- `CRY_TAG_FAIL_f.COUNT`, bits [31:0]. -/
def CRY_TAG_FAIL_COUNT : Fld :=
  { blk := 11, reg := 0x8014, lo := 0, w := 32, ty := rc, dom := blk, rst := [0] }
/-- `CRY_KEY_MISS_f.COUNT`, bits [31:0]. -/
def CRY_KEY_MISS_COUNT : Fld :=
  { blk := 11, reg := 0x8018, lo := 0, w := 32, ty := rc, dom := blk, rst := [0] }
/-- `CRC_EVENT.TAKE_ERR`, bits [2:2]. -/
def CRC_EVENT_TAKE_ERR : Fld :=
  { blk := 12, reg := 0x8, lo := 2, w := 1, ty := w1c, dom := die, rst := [0] }
/-- `CRC_EVENT.UNBOUND`, bits [1:1]. -/
def CRC_EVENT_UNBOUND : Fld :=
  { blk := 12, reg := 0x8, lo := 1, w := 1, ty := w1c, dom := die, rst := [0] }
/-- `CRC_EVENT.MISMATCH`, bits [0:0]. -/
def CRC_EVENT_MISMATCH : Fld :=
  { blk := 12, reg := 0x8, lo := 0, w := 1, ty := w1c, dom := die, rst := [0] }
/-- `CRC_EVENT_MASK.ENABLE`, bits [2:0]. -/
def CRC_EVENT_MASK_ENABLE : Fld :=
  { blk := 12, reg := 0xC, lo := 0, w := 3, ty := rw, dom := die, rst := [6] }
/-- `CRC_UNIT_CFG_u.EN`, bits [31:31]. -/
def CRC_UNIT_CFG_EN : Fld :=
  { blk := 12, reg := 0x100, lo := 31, w := 1, ty := rw, dom := die, rst := [0] }
/-- `CRC_UNIT_CFG_u.DIR`, bits [30:30]. -/
def CRC_UNIT_CFG_DIR : Fld :=
  { blk := 12, reg := 0x100, lo := 30, w := 1, ty := rw, dom := die, rst := [0] }
/-- `CRC_UNIT_CFG_u.MODE`, bits [29:28]. -/
def CRC_UNIT_CFG_MODE : Fld :=
  { blk := 12, reg := 0x100, lo := 28, w := 2, ty := rw, dom := die, rst := [0] }
/-- `CRC_UNIT_CFG_u.POLY`, bits [27:26]. -/
def CRC_UNIT_CFG_POLY : Fld :=
  { blk := 12, reg := 0x100, lo := 26, w := 2, ty := rw, dom := die, rst := [0] }
/-- `CRC_UNIT_CFG_u.TAKE`, bits [25:25]. -/
def CRC_UNIT_CFG_TAKE : Fld :=
  { blk := 12, reg := 0x100, lo := 25, w := 1, ty := wo, dom := die, rst := [0] }
/-- `CRC_UNIT_CFG_u.FROM`, bits [24:19]. -/
def CRC_UNIT_CFG_FROM : Fld :=
  { blk := 12, reg := 0x100, lo := 19, w := 6, ty := rw, dom := die, rst := [0] }
/-- `CRC_UNIT_CFG_u.SPAN`, bits [15:9]. -/
def CRC_UNIT_CFG_SPAN : Fld :=
  { blk := 12, reg := 0x100, lo := 9, w := 7, ty := rw, dom := die, rst := [0] }
/-- `CRC_UNIT_CFG_u.FLOW`, bits [8:0]. -/
def CRC_UNIT_CFG_FLOW : Fld :=
  { blk := 12, reg := 0x100, lo := 0, w := 9, ty := rw, dom := die, rst := [0] }
/-- `CRC_RUNNING_u.VALUE`, bits [31:0]. -/
def CRC_RUNNING_VALUE : Fld :=
  { blk := 12, reg := 0x104, lo := 0, w := 32, ty := rw, dom := blk, rst := [0] }
/-- `CRC_LAST_u.VALUE`, bits [31:0]. -/
def CRC_LAST_VALUE : Fld :=
  { blk := 12, reg := 0x108, lo := 0, w := 32, ty := ro, dom := blk, rst := [0] }
/-- `CRC_MISMATCH_u.COUNT`, bits [31:0]. -/
def CRC_MISMATCH_COUNT : Fld :=
  { blk := 12, reg := 0x10C, lo := 0, w := 32, ty := rc, dom := blk, rst := [0] }
/-! ### Registers of spec/10_host_lanes.md -/

/-- `HLN_EVENT.LANE_DOWN`, bits [31:24]. -/
def HLN_EVENT_LANE_DOWN : Fld :=
  { blk := 13, reg := 0x8, lo := 24, w := 8, ty := w1c, dom := die, rst := [0] }
/-- `HLN_EVENT.LANE_UP`, bits [23:16]. -/
def HLN_EVENT_LANE_UP : Fld :=
  { blk := 13, reg := 0x8, lo := 16, w := 8, ty := w1c, dom := die, rst := [0] }
/-- `HLN_EVENT.GRP_CHG`, bits [15:8]. -/
def HLN_EVENT_GRP_CHG : Fld :=
  { blk := 13, reg := 0x8, lo := 8, w := 8, ty := w1c, dom := die, rst := [0] }
/-- `HLN_EVENT.CFG_ERR`, bits [6:6]. -/
def HLN_EVENT_CFG_ERR : Fld :=
  { blk := 13, reg := 0x8, lo := 6, w := 1, ty := w1c, dom := die, rst := [0] }
/-- `HLN_EVENT.PARTNER_CHG`, bits [5:5]. -/
def HLN_EVENT_PARTNER_CHG : Fld :=
  { blk := 13, reg := 0x8, lo := 5, w := 1, ty := w1c, dom := die, rst := [0] }
/-- `HLN_EVENT.TS_OVERFLOW`, bits [4:4]. -/
def HLN_EVENT_TS_OVERFLOW : Fld :=
  { blk := 13, reg := 0x8, lo := 4, w := 1, ty := w1c, dom := die, rst := [0] }
/-- `HLN_EVENT.TX_RATE_LIMIT`, bits [3:3]. -/
def HLN_EVENT_TX_RATE_LIMIT : Fld :=
  { blk := 13, reg := 0x8, lo := 3, w := 1, ty := w1c, dom := die, rst := [0] }
/-- `HLN_EVENT.WAKE_FAIL`, bits [2:2]. -/
def HLN_EVENT_WAKE_FAIL : Fld :=
  { blk := 13, reg := 0x8, lo := 2, w := 1, ty := w1c, dom := die, rst := [0] }
/-- `HLN_EVENT_MASK.ENABLE`, bits [31:0]. -/
def HLN_EVENT_MASK_ENABLE : Fld :=
  { blk := 13, reg := 0xC, lo := 0, w := 32, ty := rw, dom := die, rst := [4294967140] }
/-- `HLN_HELLO_CFG.LOSS`, bits [23:16]. -/
def HLN_HELLO_CFG_LOSS : Fld :=
  { blk := 13, reg := 0x10, lo := 16, w := 8, ty := rw, dom := die, rst := [3] }
/-- `HLN_HELLO_CFG.PERIOD`, bits [15:0]. -/
def HLN_HELLO_CFG_PERIOD : Fld :=
  { blk := 13, reg := 0x10, lo := 0, w := 16, ty := rw, dom := die, rst := [100] }
/-- `HLN_TS_CTRL.EN`, bits [31:31]. -/
def HLN_TS_CTRL_EN : Fld :=
  { blk := 13, reg := 0x20, lo := 31, w := 1, ty := rw, dom := die, rst := [0] }
/-- `HLN_TS_CTRL.MARK`, bits [3:3]. -/
def HLN_TS_CTRL_MARK : Fld :=
  { blk := 13, reg := 0x20, lo := 3, w := 1, ty := rw, dom := die, rst := [0] }
/-- `HLN_TS_CTRL.UDP6`, bits [2:2]. -/
def HLN_TS_CTRL_UDP6 : Fld :=
  { blk := 13, reg := 0x20, lo := 2, w := 1, ty := rw, dom := die, rst := [0] }
/-- `HLN_TS_CTRL.UDP4`, bits [1:1]. -/
def HLN_TS_CTRL_UDP4 : Fld :=
  { blk := 13, reg := 0x20, lo := 1, w := 1, ty := rw, dom := die, rst := [0] }
/-- `HLN_TS_CTRL.L2`, bits [0:0]. -/
def HLN_TS_CTRL_L2 : Fld :=
  { blk := 13, reg := 0x20, lo := 0, w := 1, ty := rw, dom := die, rst := [0] }
/-- `HLN_TS_STATUS.LOST`, bits [31:16]. -/
def HLN_TS_STATUS_LOST : Fld :=
  { blk := 13, reg := 0x24, lo := 16, w := 16, ty := rc, dom := blk, rst := [0] }
/-- `HLN_TS_STATUS.FILL`, bits [6:0]. -/
def HLN_TS_STATUS_FILL : Fld :=
  { blk := 13, reg := 0x24, lo := 0, w := 7, ty := ro, dom := blk, rst := [0] }
/-- `HLN_TS_ENTRY_k.DATA`, bits [31:0]. -/
def HLN_TS_ENTRY_DATA : Fld :=
  { blk := 13, reg := 0x28, lo := 0, w := 32, ty := ro, dom := blk, rst := [0] }
/-- `HLN_LANE_CFG_l.EN`, bits [31:31]. -/
def HLN_LANE_CFG_EN : Fld :=
  { blk := 13, reg := 0x100, lo := 31, w := 1, ty := rw, dom := die, rst := [0] }
/-- `HLN_LANE_CFG_l.TX_INV`, bits [30:30]. -/
def HLN_LANE_CFG_TX_INV : Fld :=
  { blk := 13, reg := 0x100, lo := 30, w := 1, ty := rw, dom := die, rst := [0] }
/-- `HLN_LANE_CFG_l.RX_INV`, bits [29:29]. -/
def HLN_LANE_CFG_RX_INV : Fld :=
  { blk := 13, reg := 0x100, lo := 29, w := 1, ty := rw, dom := die, rst := [0] }
/-- `HLN_LANE_CFG_l.TRAIN_EN`, bits [28:28]. -/
def HLN_LANE_CFG_TRAIN_EN : Fld :=
  { blk := 13, reg := 0x100, lo := 28, w := 1, ty := rw, dom := die, rst := [1] }
/-- `HLN_LANE_CFG_l.DEBOUNCE`, bits [23:16]. -/
def HLN_LANE_CFG_DEBOUNCE : Fld :=
  { blk := 13, reg := 0x100, lo := 16, w := 8, ty := rw, dom := die, rst := [10] }
/-- `HLN_LANE_CFG_l.REF_OUT`, bits [0:0]. -/
def HLN_LANE_CFG_REF_OUT : Fld :=
  { blk := 13, reg := 0x100, lo := 0, w := 1, ty := rw, dom := die, rst := [0] }
/-- `HLN_LANE_STATUS_l.PL_VALID`, bits [23:23]. -/
def HLN_LANE_STATUS_PL_VALID : Fld :=
  { blk := 13, reg := 0x104, lo := 23, w := 1, ty := ro, dom := die, rst := [0] }
/-- `HLN_LANE_STATUS_l.PDIE`, bits [22:20]. -/
def HLN_LANE_STATUS_PDIE : Fld :=
  { blk := 13, reg := 0x104, lo := 20, w := 3, ty := ro, dom := die, rst := [0] }
/-- `HLN_LANE_STATUS_l.PLANE`, bits [18:16]. -/
def HLN_LANE_STATUS_PLANE : Fld :=
  { blk := 13, reg := 0x104, lo := 16, w := 3, ty := ro, dom := die, rst := [0] }
/-- `HLN_LANE_STATUS_l.STATE`, bits [3:0]. -/
def HLN_LANE_STATUS_STATE : Fld :=
  { blk := 13, reg := 0x104, lo := 0, w := 4, ty := ro, dom := die, rst := [0] }
/-- `HLN_LANE_FFE_l.POST1`, bits [31:24]. -/
def HLN_LANE_FFE_POST1 : Fld :=
  { blk := 13, reg := 0x108, lo := 24, w := 8, ty := rw, dom := die, rst := [0] }
/-- `HLN_LANE_FFE_l.MAIN`, bits [23:16]. -/
def HLN_LANE_FFE_MAIN : Fld :=
  { blk := 13, reg := 0x108, lo := 16, w := 8, ty := rw, dom := die, rst := [64] }
/-- `HLN_LANE_FFE_l.PRE1`, bits [15:8]. -/
def HLN_LANE_FFE_PRE1 : Fld :=
  { blk := 13, reg := 0x108, lo := 8, w := 8, ty := rw, dom := die, rst := [0] }
/-- `HLN_LANE_FFE_l.PRE2`, bits [7:0]. -/
def HLN_LANE_FFE_PRE2 : Fld :=
  { blk := 13, reg := 0x108, lo := 0, w := 8, ty := rw, dom := die, rst := [0] }
/-- `HLN_LANE_FEC_CORR_l.COUNT`, bits [31:0]. -/
def HLN_LANE_FEC_CORR_COUNT : Fld :=
  { blk := 13, reg := 0x10C, lo := 0, w := 32, ty := rc, dom := blk, rst := [0] }
/-- `HLN_LANE_FEC_UNC_l.COUNT`, bits [31:0]. -/
def HLN_LANE_FEC_UNC_COUNT : Fld :=
  { blk := 13, reg := 0x110, lo := 0, w := 32, ty := rc, dom := blk, rst := [0] }
/-- `HLN_GRP_CFG_g.EN`, bits [31:31]. -/
def HLN_GRP_CFG_EN : Fld :=
  { blk := 13, reg := 0x400, lo := 31, w := 1, ty := rw, dom := die, rst := [0] }
/-- `HLN_GRP_CFG_g.MODE`, bits [30:30]. -/
def HLN_GRP_CFG_MODE : Fld :=
  { blk := 13, reg := 0x400, lo := 30, w := 1, ty := rw, dom := die, rst := [0] }
/-- `HLN_GRP_CFG_g.RATE`, bits [29:28]. -/
def HLN_GRP_CFG_RATE : Fld :=
  { blk := 13, reg := 0x400, lo := 28, w := 2, ty := rw, dom := die, rst := [1] }
/-- `HLN_GRP_CFG_g.AUI`, bits [27:24]. -/
def HLN_GRP_CFG_AUI : Fld :=
  { blk := 13, reg := 0x400, lo := 24, w := 4, ty := rw, dom := die, rst := [1] }
/-- `HLN_GRP_CFG_g.LANES`, bits [23:16]. -/
def HLN_GRP_CFG_LANES : Fld :=
  { blk := 13, reg := 0x400, lo := 16, w := 8, ty := rw, dom := die, rst := [0] }
/-- `HLN_GRP_CFG_g.MIN_LANES`, bits [15:14]. -/
def HLN_GRP_CFG_MIN_LANES : Fld :=
  { blk := 13, reg := 0x400, lo := 14, w := 2, ty := rw, dom := die, rst := [0] }
/-- `HLN_GRP_CFG_g.GROW_AUTO`, bits [13:13]. -/
def HLN_GRP_CFG_GROW_AUTO : Fld :=
  { blk := 13, reg := 0x400, lo := 13, w := 1, ty := rw, dom := die, rst := [1] }
/-- `HLN_GRP_CFG_g.SLEEP_EN`, bits [12:12]. -/
def HLN_GRP_CFG_SLEEP_EN : Fld :=
  { blk := 13, reg := 0x400, lo := 12, w := 1, ty := rw, dom := die, rst := [0] }
/-- `HLN_GRP_CFG_g.TX_TIMING`, bits [11:11]. -/
def HLN_GRP_CFG_TX_TIMING : Fld :=
  { blk := 13, reg := 0x400, lo := 11, w := 1, ty := rw, dom := die, rst := [0] }
/-- `HLN_GRP_CFG_g.REFORM`, bits [10:10]. -/
def HLN_GRP_CFG_REFORM : Fld :=
  { blk := 13, reg := 0x400, lo := 10, w := 1, ty := wo, dom := die, rst := [0] }
/-- `HLN_GRP_CFG_g.WAKE`, bits [9:9]. -/
def HLN_GRP_CFG_WAKE : Fld :=
  { blk := 13, reg := 0x400, lo := 9, w := 1, ty := wo, dom := die, rst := [0] }
/-- `HLN_GRP_CFG_g.FLOW`, bits [8:0]. -/
def HLN_GRP_CFG_FLOW : Fld :=
  { blk := 13, reg := 0x400, lo := 0, w := 9, ty := rw, dom := die, rst := [0] }
/-- `HLN_GRP_STATUS_g.ACTIVE`, bits [31:24]. -/
def HLN_GRP_STATUS_ACTIVE : Fld :=
  { blk := 13, reg := 0x404, lo := 24, w := 8, ty := ro, dom := die, rst := [0] }
/-- `HLN_GRP_STATUS_g.EPOCH`, bits [23:16]. -/
def HLN_GRP_STATUS_EPOCH : Fld :=
  { blk := 13, reg := 0x404, lo := 16, w := 8, ty := ro, dom := die, rst := [0] }
/-- `HLN_GRP_STATUS_g.PARTNER_VALID`, bits [11:11]. -/
def HLN_GRP_STATUS_PARTNER_VALID : Fld :=
  { blk := 13, reg := 0x404, lo := 11, w := 1, ty := ro, dom := die, rst := [0] }
/-- `HLN_GRP_STATUS_g.INPUT_LOST`, bits [10:10]. -/
def HLN_GRP_STATUS_INPUT_LOST : Fld :=
  { blk := 13, reg := 0x404, lo := 10, w := 1, ty := ro, dom := die, rst := [0] }
/-- `HLN_GRP_STATUS_g.RX_DORMANT`, bits [9:9]. -/
def HLN_GRP_STATUS_RX_DORMANT : Fld :=
  { blk := 13, reg := 0x404, lo := 9, w := 1, ty := ro, dom := die, rst := [0] }
/-- `HLN_GRP_STATUS_g.TX_DORMANT`, bits [8:8]. -/
def HLN_GRP_STATUS_TX_DORMANT : Fld :=
  { blk := 13, reg := 0x404, lo := 8, w := 1, ty := ro, dom := die, rst := [0] }
/-- `HLN_GRP_STATUS_g.STATE`, bits [2:0]. -/
def HLN_GRP_STATUS_STATE : Fld :=
  { blk := 13, reg := 0x404, lo := 0, w := 3, ty := ro, dom := die, rst := [0] }
/-- `HLN_GRP_PARTNER_LO_g.NODE_ID`, bits [31:0]. -/
def HLN_GRP_PARTNER_LO_NODE_ID : Fld :=
  { blk := 13, reg := 0x408, lo := 0, w := 32, ty := ro, dom := die, rst := [0] }
/-- `HLN_GRP_PARTNER_HI_g.NODE_ID`, bits [31:0]. -/
def HLN_GRP_PARTNER_HI_NODE_ID : Fld :=
  { blk := 13, reg := 0x40C, lo := 0, w := 32, ty := ro, dom := die, rst := [0] }
/-- `HLN_GRP_PCAP_g.CAP`, bits [31:0]. -/
def HLN_GRP_PCAP_CAP : Fld :=
  { blk := 13, reg := 0x410, lo := 0, w := 32, ty := ro, dom := die, rst := [0] }
/-- `HLN_GRP_CNT_g_k.COUNT`, bits [31:0]. -/
def HLN_GRP_CNT0_COUNT : Fld :=
  { blk := 13, reg := 0x420, lo := 0, w := 32, ty := rc, dom := blk, rst := [0] }
/-- `HLN_GRP_CNT_g_k.COUNT`, bits [31:0]. -/
def HLN_GRP_CNT1_COUNT : Fld :=
  { blk := 13, reg := 0x424, lo := 0, w := 32, ty := rc, dom := blk, rst := [0] }
/-- `HLN_GRP_CNT_g_k.COUNT`, bits [31:0]. -/
def HLN_GRP_CNT2_COUNT : Fld :=
  { blk := 13, reg := 0x428, lo := 0, w := 32, ty := rc, dom := blk, rst := [0] }
/-- `HLN_GRP_CNT_g_k.COUNT`, bits [31:0]. -/
def HLN_GRP_CNT3_COUNT : Fld :=
  { blk := 13, reg := 0x42C, lo := 0, w := 32, ty := rc, dom := blk, rst := [0] }
/-- `HLN_GRP_CNT_g_k.COUNT`, bits [31:0]. -/
def HLN_GRP_CNT4_COUNT : Fld :=
  { blk := 13, reg := 0x430, lo := 0, w := 32, ty := rc, dom := blk, rst := [0] }
/-- `HLN_FLOW_GRP_f.VALID`, bits [31:31]. -/
def HLN_FLOW_GRP_VALID : Fld :=
  { blk := 13, reg := 0x2000, lo := 31, w := 1, ty := rw, dom := die, rst := [0], stg := true }
/-- `HLN_FLOW_GRP_f.GROUP`, bits [2:0]. -/
def HLN_FLOW_GRP_GROUP : Fld :=
  { blk := 13, reg := 0x2000, lo := 0, w := 3, ty := rw, dom := die, rst := [0], stg := true }
/-! ### Registers of spec/11_engines_and_memory.md -/

/-- `ENG_RUN_k.RUN`, bits [31:0]. -/
def ENG_RUN_RUN : Fld :=
  { blk := 14, reg := 0x0, lo := 0, w := 32, ty := rw, dom := die, rst := [0] }
/-- `ENG_HALTED_k.HALTED`, bits [31:0]. -/
def ENG_HALTED_HALTED : Fld :=
  { blk := 14, reg := 0x8, lo := 0, w := 32, ty := ro, dom := die, rst := [4294967295] }
/-- `ENG_CTRL.DMA_EN`, bits [31:24]. -/
def ENG_CTRL_DMA_EN : Fld :=
  { blk := 14, reg := 0x10, lo := 24, w := 8, ty := rw, dom := die, rst := [255] }
/-- `ENG_CTRL.TCM_HOST`, bits [23:16]. -/
def ENG_CTRL_TCM_HOST : Fld :=
  { blk := 14, reg := 0x10, lo := 16, w := 8, ty := rw, dom := die, rst := [0] }
/-- `ENG_CTRL.HALT_ON_TRAP`, bits [12:12]. -/
def ENG_CTRL_HALT_ON_TRAP : Fld :=
  { blk := 14, reg := 0x10, lo := 12, w := 1, ty := rw, dom := die, rst := [0] }
/-- `ENG_CTRL.WDOG_PERIOD`, bits [11:0]. -/
def ENG_CTRL_WDOG_PERIOD : Fld :=
  { blk := 14, reg := 0x10, lo := 0, w := 12, ty := rw, dom := die, rst := [10] }
/-- `ENG_EVENT.TRAP`, bits [15:8]. -/
def ENG_EVENT_TRAP : Fld :=
  { blk := 14, reg := 0x18, lo := 8, w := 8, ty := w1c, dom := die, rst := [0] }
/-- `ENG_EVENT.WATCHDOG`, bits [7:0]. -/
def ENG_EVENT_WATCHDOG : Fld :=
  { blk := 14, reg := 0x18, lo := 0, w := 8, ty := w1c, dom := die, rst := [0] }
/-- `ENG_EVENT_MASK.ENABLE`, bits [15:0]. -/
def ENG_EVENT_MASK_ENABLE : Fld :=
  { blk := 14, reg := 0x1C, lo := 0, w := 16, ty := rw, dom := die, rst := [65535] }
/-- `ENG_STATUS_e.CAUSE`, bits [11:8]. -/
def ENG_STATUS_CAUSE : Fld :=
  { blk := 14, reg := 0x100, lo := 8, w := 4, ty := ro, dom := die, rst := [0] }
/-- `ENG_STATUS_e.MCAUSE`, bits [7:4]. -/
def ENG_STATUS_MCAUSE : Fld :=
  { blk := 14, reg := 0x100, lo := 4, w := 4, ty := ro, dom := die, rst := [0] }
/-- `ENG_STATUS_e.STATE`, bits [1:0]. -/
def ENG_STATUS_STATE : Fld :=
  { blk := 14, reg := 0x100, lo := 0, w := 2, ty := ro, dom := die, rst := [0] }
/-- `MEM_CTRL.HOST_ANY`, bits [0:0]. -/
def MEM_CTRL_HOST_ANY : Fld :=
  { blk := 15, reg := 0x0, lo := 0, w := 1, ty := rw, dom := die, rst := [0] }
/-- `MEM_EVENT.MARCH_DONE`, bits [5:5]. -/
def MEM_EVENT_MARCH_DONE : Fld :=
  { blk := 15, reg := 0x8, lo := 5, w := 1, ty := w1c, dom := die, rst := [0] }
/-- `MEM_EVENT.REPAIR_ERR`, bits [4:4]. -/
def MEM_EVENT_REPAIR_ERR : Fld :=
  { blk := 15, reg := 0x8, lo := 4, w := 1, ty := w1c, dom := die, rst := [0] }
/-- `MEM_EVENT.BANK_FAIL`, bits [3:3]. -/
def MEM_EVENT_BANK_FAIL : Fld :=
  { blk := 15, reg := 0x8, lo := 3, w := 1, ty := w1c, dom := die, rst := [0] }
/-- `MEM_EVENT.OFF_ACCESS`, bits [2:2]. -/
def MEM_EVENT_OFF_ACCESS : Fld :=
  { blk := 15, reg := 0x8, lo := 2, w := 1, ty := w1c, dom := die, rst := [0] }
/-- `MEM_EVENT.TCM_BUSY`, bits [1:1]. -/
def MEM_EVENT_TCM_BUSY : Fld :=
  { blk := 15, reg := 0x8, lo := 1, w := 1, ty := w1c, dom := die, rst := [0] }
/-- `MEM_EVENT.ACC_ERR`, bits [0:0]. -/
def MEM_EVENT_ACC_ERR : Fld :=
  { blk := 15, reg := 0x8, lo := 0, w := 1, ty := w1c, dom := die, rst := [0] }
/-- `MEM_EVENT_MASK.ENABLE`, bits [5:0]. -/
def MEM_EVENT_MASK_ENABLE : Fld :=
  { blk := 15, reg := 0xC, lo := 0, w := 6, ty := rw, dom := die, rst := [13] }
/-- `MEM_ACC_ERR.KIND`, bits [18:16]. -/
def MEM_ACC_ERR_KIND : Fld :=
  { blk := 15, reg := 0x10, lo := 16, w := 3, ty := ro, dom := die, rst := [0] }
/-- `MEM_ACC_ERR.REQ`, bits [15:8]. -/
def MEM_ACC_ERR_REQ : Fld :=
  { blk := 15, reg := 0x10, lo := 8, w := 8, ty := ro, dom := die, rst := [0] }
/-- `MEM_ACC_ERR.BANK`, bits [7:0]. -/
def MEM_ACC_ERR_BANK : Fld :=
  { blk := 15, reg := 0x10, lo := 0, w := 8, ty := ro, dom := die, rst := [0] }
/-- `MEM_ACC_ERR_ADDR.ADDRESS`, bits [31:0]. -/
def MEM_ACC_ERR_ADDR_ADDRESS : Fld :=
  { blk := 15, reg := 0x14, lo := 0, w := 32, ty := ro, dom := die, rst := [0] }
/-- `MEM_MARCH_CTRL.BOOT_EN`, bits [31:31]. -/
def MEM_MARCH_CTRL_BOOT_EN : Fld :=
  { blk := 15, reg := 0x20, lo := 31, w := 1, ty := rws, dom := por, rst := [0] }
/-- `MEM_MARCH_CTRL.AUTO_REPAIR`, bits [30:30]. -/
def MEM_MARCH_CTRL_AUTO_REPAIR : Fld :=
  { blk := 15, reg := 0x20, lo := 30, w := 1, ty := rw, dom := por, rst := [1] }
/-- `MEM_MARCH_CTRL.MODE`, bits [29:29]. -/
def MEM_MARCH_CTRL_MODE : Fld :=
  { blk := 15, reg := 0x20, lo := 29, w := 1, ty := rw, dom := por, rst := [1] }
/-- `MEM_MARCH_CTRL.START`, bits [28:28]. -/
def MEM_MARCH_CTRL_START : Fld :=
  { blk := 15, reg := 0x20, lo := 28, w := 1, ty := wo, dom := por, rst := [0] }
/-- `MEM_MARCH_CTRL.TCM_MASK`, bits [23:16]. -/
def MEM_MARCH_CTRL_TCM_MASK : Fld :=
  { blk := 15, reg := 0x20, lo := 16, w := 8, ty := rw, dom := por, rst := [0] }
/-- `MEM_MARCH_CTRL.LAST_BANK`, bits [15:8]. -/
def MEM_MARCH_CTRL_LAST_BANK : Fld :=
  { blk := 15, reg := 0x20, lo := 8, w := 8, ty := rw, dom := por, rst := [0] }
/-- `MEM_MARCH_CTRL.FIRST_BANK`, bits [7:0]. -/
def MEM_MARCH_CTRL_FIRST_BANK : Fld :=
  { blk := 15, reg := 0x20, lo := 0, w := 8, ty := rw, dom := por, rst := [0] }
/-- `MEM_MARCH_STATUS.BUSY`, bits [31:31]. -/
def MEM_MARCH_STATUS_BUSY : Fld :=
  { blk := 15, reg := 0x24, lo := 31, w := 1, ty := ro, dom := die, rst := [0] }
/-- `MEM_MARCH_STATUS.REFUSED`, bits [30:30]. -/
def MEM_MARCH_STATUS_REFUSED : Fld :=
  { blk := 15, reg := 0x24, lo := 30, w := 1, ty := ro, dom := die, rst := [0] }
/-- `MEM_MARCH_STATUS.FAILED_ROWS`, bits [15:8]. -/
def MEM_MARCH_STATUS_FAILED_ROWS : Fld :=
  { blk := 15, reg := 0x24, lo := 8, w := 8, ty := ro, dom := die, rst := [0] }
/-- `MEM_MARCH_STATUS.CURRENT`, bits [7:0]. -/
def MEM_MARCH_STATUS_CURRENT : Fld :=
  { blk := 15, reg := 0x24, lo := 0, w := 8, ty := ro, dom := die, rst := [0] }
/-- `MEM_BANK_CFG_b.POWER`, bits [9:8]. -/
def MEM_BANK_CFG_POWER : Fld :=
  { blk := 15, reg := 0x1000, lo := 8, w := 2, ty := rw, dom := die, rst := [0] }
/-- `MEM_BANK_CFG_b.KIND`, bits [7:6]. -/
def MEM_BANK_CFG_KIND : Fld :=
  { blk := 15, reg := 0x1000, lo := 6, w := 2, ty := rw, dom := die, rst := [0] }
/-- `MEM_BANK_CFG_b.OWNER`, bits [4:0]. -/
def MEM_BANK_CFG_OWNER : Fld :=
  { blk := 15, reg := 0x1000, lo := 0, w := 5, ty := rw, dom := die, rst := [0] }
/-- `MEM_BANK_STATUS_b.SPARES_FREE`, bits [11:9]. -/
def MEM_BANK_STATUS_SPARES_FREE : Fld :=
  { blk := 15, reg := 0x1004, lo := 9, w := 3, ty := ro, dom := die, rst := [4] }
/-- `MEM_BANK_STATUS_b.FAILED`, bits [8:8]. -/
def MEM_BANK_STATUS_FAILED : Fld :=
  { blk := 15, reg := 0x1004, lo := 8, w := 1, ty := ro, dom := die, rst := [0] }
/-- `MEM_BANK_STATUS_b.HANDOVER_PENDING`, bits [7:7]. -/
def MEM_BANK_STATUS_HANDOVER_PENDING : Fld :=
  { blk := 15, reg := 0x1004, lo := 7, w := 1, ty := ro, dom := die, rst := [0] }
/-- `MEM_BANK_STATUS_b.POWER`, bits [3:2]. -/
def MEM_BANK_STATUS_POWER : Fld :=
  { blk := 15, reg := 0x1004, lo := 2, w := 2, ty := ro, dom := die, rst := [0] }
/-- `MEM_CONFLICT_b.COUNT`, bits [31:0]. -/
def MEM_CONFLICT_COUNT : Fld :=
  { blk := 15, reg := 0x1008, lo := 0, w := 32, ty := rc, dom := blk, rst := [0] }
/-- `MEM_REPAIR_b_j.VALID_HI`, bits [31:31]. -/
def MEM_REPAIR0_VALID_HI : Fld :=
  { blk := 15, reg := 0x3000, lo := 31, w := 1, ty := rws, dom := por, rst := [0] }
/-- `MEM_REPAIR_b_j.ROW_HI`, bits [27:16]. -/
def MEM_REPAIR0_ROW_HI : Fld :=
  { blk := 15, reg := 0x3000, lo := 16, w := 12, ty := rws, dom := por, rst := [0] }
/-- `MEM_REPAIR_b_j.VALID_LO`, bits [15:15]. -/
def MEM_REPAIR0_VALID_LO : Fld :=
  { blk := 15, reg := 0x3000, lo := 15, w := 1, ty := rws, dom := por, rst := [0] }
/-- `MEM_REPAIR_b_j.ROW_LO`, bits [11:0]. -/
def MEM_REPAIR0_ROW_LO : Fld :=
  { blk := 15, reg := 0x3000, lo := 0, w := 12, ty := rws, dom := por, rst := [0] }
/-- `MEM_REPAIR_b_j.VALID_HI`, bits [31:31]. -/
def MEM_REPAIR1_VALID_HI : Fld :=
  { blk := 15, reg := 0x3004, lo := 31, w := 1, ty := rws, dom := por, rst := [0] }
/-- `MEM_REPAIR_b_j.ROW_HI`, bits [27:16]. -/
def MEM_REPAIR1_ROW_HI : Fld :=
  { blk := 15, reg := 0x3004, lo := 16, w := 12, ty := rws, dom := por, rst := [0] }
/-- `MEM_REPAIR_b_j.VALID_LO`, bits [15:15]. -/
def MEM_REPAIR1_VALID_LO : Fld :=
  { blk := 15, reg := 0x3004, lo := 15, w := 1, ty := rws, dom := por, rst := [0] }
/-- `MEM_REPAIR_b_j.ROW_LO`, bits [11:0]. -/
def MEM_REPAIR1_ROW_LO : Fld :=
  { blk := 15, reg := 0x3004, lo := 0, w := 12, ty := rws, dom := por, rst := [0] }
/-- `ECC_CTRL.SCRUB_SKIPPED`, bits [7:7]. -/
def ECC_CTRL_SCRUB_SKIPPED : Fld :=
  { blk := 16, reg := 0x0, lo := 7, w := 1, ty := ro, dom := die, rst := [0] }
/-- `ECC_CTRL.SCRUB_ERR`, bits [6:6]. -/
def ECC_CTRL_SCRUB_ERR : Fld :=
  { blk := 16, reg := 0x0, lo := 6, w := 1, ty := w1c, dom := die, rst := [0] }
/-- `ECC_CTRL.SCRUB_BUSY`, bits [5:5]. -/
def ECC_CTRL_SCRUB_BUSY : Fld :=
  { blk := 16, reg := 0x0, lo := 5, w := 1, ty := ro, dom := die, rst := [0] }
/-- `ECC_CTRL.SCRUB_STOP_UE`, bits [4:4]. -/
def ECC_CTRL_SCRUB_STOP_UE : Fld :=
  { blk := 16, reg := 0x0, lo := 4, w := 1, ty := rw, dom := die, rst := [0] }
/-- `ECC_CTRL.SCRUB_STOP`, bits [3:3]. -/
def ECC_CTRL_SCRUB_STOP : Fld :=
  { blk := 16, reg := 0x0, lo := 3, w := 1, ty := wo, dom := die, rst := [0] }
/-- `ECC_CTRL.SCRUB_START`, bits [2:2]. -/
def ECC_CTRL_SCRUB_START : Fld :=
  { blk := 16, reg := 0x0, lo := 2, w := 1, ty := wo, dom := die, rst := [0] }
/-- `ECC_CTRL.SELFTEST`, bits [0:0]. -/
def ECC_CTRL_SELFTEST : Fld :=
  { blk := 16, reg := 0x0, lo := 0, w := 1, ty := wo, dom := die, rst := [0] }
/-- `ECC_EVENT.BUCKET`, bits [31:16]. -/
def ECC_EVENT_BUCKET : Fld :=
  { blk := 16, reg := 0x8, lo := 16, w := 16, ty := w1c, dom := die, rst := [0] }
/-- `ECC_EVENT.POISON_READ`, bits [3:3]. -/
def ECC_EVENT_POISON_READ : Fld :=
  { blk := 16, reg := 0x8, lo := 3, w := 1, ty := w1c, dom := die, rst := [0] }
/-- `ECC_EVENT.SELFTEST_FAIL`, bits [2:2]. -/
def ECC_EVENT_SELFTEST_FAIL : Fld :=
  { blk := 16, reg := 0x8, lo := 2, w := 1, ty := w1c, dom := die, rst := [0] }
/-- `ECC_EVENT.SCRUB_DONE`, bits [1:1]. -/
def ECC_EVENT_SCRUB_DONE : Fld :=
  { blk := 16, reg := 0x8, lo := 1, w := 1, ty := w1c, dom := die, rst := [0] }
/-- `ECC_EVENT.UE`, bits [0:0]. -/
def ECC_EVENT_UE : Fld :=
  { blk := 16, reg := 0x8, lo := 0, w := 1, ty := w1c, dom := die, rst := [0] }
/-- `ECC_EVENT_MASK.ENABLE`, bits [31:0]. -/
def ECC_EVENT_MASK_ENABLE : Fld :=
  { blk := 16, reg := 0xC, lo := 0, w := 32, ty := rw, dom := die, rst := [4294901765] }
/-- `ECC_UE_ADDR.ADDRESS`, bits [31:0]. -/
def ECC_UE_ADDR_ADDRESS : Fld :=
  { blk := 16, reg := 0x10, lo := 0, w := 32, ty := ro, dom := die, rst := [0] }
/-- `ECC_UE_INFO.POISON_READS`, bits [31:16]. -/
def ECC_UE_INFO_POISON_READS : Fld :=
  { blk := 16, reg := 0x14, lo := 16, w := 16, ty := rc, dom := die, rst := [0] }
/-- `ECC_UE_INFO.KIND`, bits [10:8]. -/
def ECC_UE_INFO_KIND : Fld :=
  { blk := 16, reg := 0x14, lo := 8, w := 3, ty := ro, dom := die, rst := [0] }
/-- `ECC_UE_INFO.PARTIAL`, bits [7:7]. -/
def ECC_UE_INFO_PARTIAL : Fld :=
  { blk := 16, reg := 0x14, lo := 7, w := 1, ty := ro, dom := die, rst := [0] }
/-- `ECC_CE_ADDR.ADDRESS`, bits [31:0]. -/
def ECC_CE_ADDR_ADDRESS : Fld :=
  { blk := 16, reg := 0x18, lo := 0, w := 32, ty := ro, dom := die, rst := [0] }
/-- `ECC_BUCKET_g.SIZE`, bits [31:24]. -/
def ECC_BUCKET_SIZE : Fld :=
  { blk := 16, reg := 0x100, lo := 24, w := 8, ty := rw, dom := die, rst := [16] }
/-- `ECC_BUCKET_g.LEVEL`, bits [23:16]. -/
def ECC_BUCKET_LEVEL : Fld :=
  { blk := 16, reg := 0x100, lo := 16, w := 8, ty := ro, dom := die, rst := [0] }
/-- `ECC_BUCKET_g.LEAK`, bits [15:0]. -/
def ECC_BUCKET_LEAK : Fld :=
  { blk := 16, reg := 0x100, lo := 0, w := 16, ty := rw, dom := die, rst := [1000] }
/-- `ECC_COUNT_g.CE`, bits [31:16]. -/
def ECC_COUNT_CE : Fld :=
  { blk := 16, reg := 0x104, lo := 16, w := 16, ty := rc, dom := blk, rst := [0] }
/-- `ECC_COUNT_g.UE`, bits [15:0]. -/
def ECC_COUNT_UE : Fld :=
  { blk := 16, reg := 0x104, lo := 0, w := 16, ty := rc, dom := blk, rst := [0] }
/-- `ECC_SCRUB_START.ADDRESS`, bits [31:0]. -/
def ECC_SCRUB_START_ADDRESS : Fld :=
  { blk := 16, reg := 0x40, lo := 0, w := 32, ty := rw, dom := die, rst := [16777216] }
/-- `ECC_SCRUB_END.ADDRESS`, bits [31:0]. -/
def ECC_SCRUB_END_ADDRESS : Fld :=
  { blk := 16, reg := 0x44, lo := 0, w := 32, ty := rw, dom := die, rst := [67108864] }
/-- `ECC_SCRUB_WORDS.COUNT`, bits [31:0]. -/
def ECC_SCRUB_WORDS_COUNT : Fld :=
  { blk := 16, reg := 0x48, lo := 0, w := 32, ty := ro, dom := blk, rst := [0] }
/-- `ECC_SCRUB_RESULT.CORR`, bits [31:16]. -/
def ECC_SCRUB_RESULT_CORR : Fld :=
  { blk := 16, reg := 0x4C, lo := 16, w := 16, ty := ro, dom := blk, rst := [0] }
/-- `ECC_SCRUB_RESULT.UNC`, bits [15:0]. -/
def ECC_SCRUB_RESULT_UNC : Fld :=
  { blk := 16, reg := 0x4C, lo := 0, w := 16, ty := ro, dom := blk, rst := [0] }
/-- `ECC_SCRUB_FIRST.ADDRESS`, bits [31:0]. -/
def ECC_SCRUB_FIRST_ADDRESS : Fld :=
  { blk := 16, reg := 0x50, lo := 0, w := 32, ty := ro, dom := blk, rst := [0] }
/-! ### Registers of spec/12_power_and_clocks.md -/

/-- `PKG_PWR_CTRL.AUTO`, bits [31:31]. -/
def PKG_PWR_CTRL_AUTO : Fld :=
  { blk := 26, reg := 0x200, lo := 31, w := 1, ty := rw, dom := pkg, rst := [0] }
/-- `PKG_PWR_CTRL.HOLD`, bits [30:30]. -/
def PKG_PWR_CTRL_HOLD : Fld :=
  { blk := 26, reg := 0x200, lo := 30, w := 1, ty := rw, dom := pkg, rst := [0] }
/-- `PKG_PWR_CTRL.AUTO_RESTORE`, bits [29:29]. -/
def PKG_PWR_CTRL_AUTO_RESTORE : Fld :=
  { blk := 26, reg := 0x200, lo := 29, w := 1, ty := rw, dom := pkg, rst := [1] }
/-- `PKG_PWR_CTRL.SLEEP`, bits [28:28]. -/
def PKG_PWR_CTRL_SLEEP : Fld :=
  { blk := 26, reg := 0x200, lo := 28, w := 1, ty := wo, dom := pkg, rst := [0] }
/-- `PKG_PWR_CTRL.WAKE`, bits [27:27]. -/
def PKG_PWR_CTRL_WAKE : Fld :=
  { blk := 26, reg := 0x200, lo := 27, w := 1, ty := wo, dom := pkg, rst := [0] }
/-- `PKG_PWR_CTRL.WINDOW`, bits [15:8]. -/
def PKG_PWR_CTRL_WINDOW : Fld :=
  { blk := 26, reg := 0x200, lo := 8, w := 8, ty := rw, dom := pkg, rst := [16] }
/-- `PKG_PWR_CTRL.SLEEP_WAIT`, bits [7:4]. -/
def PKG_PWR_CTRL_SLEEP_WAIT : Fld :=
  { blk := 26, reg := 0x200, lo := 4, w := 4, ty := rw, dom := pkg, rst := [4] }
/-- `PKG_PWR_ENVELOPE.ENVELOPE`, bits [19:0]. -/
def PKG_PWR_ENVELOPE_ENVELOPE : Fld :=
  { blk := 26, reg := 0x204, lo := 0, w := 20, ty := rw, dom := pkg, rst := [0] }
/-- `PKG_PWR_STATUS.IDLE`, bits [31:31]. -/
def PKG_PWR_STATUS_IDLE : Fld :=
  { blk := 26, reg := 0x208, lo := 31, w := 1, ty := ro, dom := pkg, rst := [1] }
/-- `PKG_PWR_STATUS.SHEDDING`, bits [30:30]. -/
def PKG_PWR_STATUS_SHEDDING : Fld :=
  { blk := 26, reg := 0x208, lo := 30, w := 1, ty := ro, dom := pkg, rst := [0] }
/-- `PKG_PWR_STATUS.THERM_WARN`, bits [29:29]. -/
def PKG_PWR_STATUS_THERM_WARN : Fld :=
  { blk := 26, reg := 0x208, lo := 29, w := 1, ty := ro, dom := pkg, rst := [0] }
/-- `PKG_PWR_STATUS.THERM_CRIT`, bits [28:28]. -/
def PKG_PWR_STATUS_THERM_CRIT : Fld :=
  { blk := 26, reg := 0x208, lo := 28, w := 1, ty := ro, dom := pkg, rst := [0] }
/-- `PKG_PWR_STATUS.ESTIMATE`, bits [19:0]. -/
def PKG_PWR_STATUS_ESTIMATE : Fld :=
  { blk := 26, reg := 0x208, lo := 0, w := 20, ty := ro, dom := pkg, rst := [0] }
/-- `PKG_PWR_THERM.CRIT`, bits [31:24]. -/
def PKG_PWR_THERM_CRIT : Fld :=
  { blk := 26, reg := 0x20C, lo := 24, w := 8, ty := rw, dom := pkg, rst := [103], sfx := 10 }
/-- `PKG_PWR_THERM.WARN`, bits [23:16]. -/
def PKG_PWR_THERM_WARN : Fld :=
  { blk := 26, reg := 0x20C, lo := 16, w := 8, ty := rw, dom := pkg, rst := [98], sfx := 10 }
/-- `PKG_PWR_THERM.HYST`, bits [15:8]. -/
def PKG_PWR_THERM_HYST : Fld :=
  { blk := 26, reg := 0x20C, lo := 8, w := 8, ty := rw, dom := pkg, rst := [5] }
/-- `PKG_PWR_THERM.SHED_INTERVAL`, bits [7:0]. -/
def PKG_PWR_THERM_SHED_INTERVAL : Fld :=
  { blk := 26, reg := 0x20C, lo := 0, w := 8, ty := rw, dom := pkg, rst := [64] }
/-- `PKG_PWR_CFG.OFF_AFTER`, bits [31:24]. -/
def PKG_PWR_CFG_OFF_AFTER : Fld :=
  { blk := 26, reg := 0x210, lo := 24, w := 8, ty := rw, dom := pkg, rst := [0] }
/-- `PKG_PWR_CFG.SPARE_SLOTS`, bits [23:16]. -/
def PKG_PWR_CFG_SPARE_SLOTS : Fld :=
  { blk := 26, reg := 0x210, lo := 16, w := 8, ty := rw, dom := pkg, rst := [8] }
/-- `PKG_PWR_CFG.DEC_SPARE`, bits [15:12]. -/
def PKG_PWR_CFG_DEC_SPARE : Fld :=
  { blk := 26, reg := 0x210, lo := 12, w := 4, ty := rw, dom := pkg, rst := [0] }
/-- `PWR_CTRL.UNPARK`, bits [1:1]. -/
def PWR_CTRL_UNPARK : Fld :=
  { blk := 17, reg := 0x0, lo := 1, w := 1, ty := wo, dom := pkg, rst := [0] }
/-- `PWR_CTRL.PARK`, bits [0:0]. -/
def PWR_CTRL_PARK : Fld :=
  { blk := 17, reg := 0x0, lo := 0, w := 1, ty := wo, dom := pkg, rst := [0] }
/-- `PWR_STATUS.PARKED`, bits [31:31]. -/
def PWR_STATUS_PARKED : Fld :=
  { blk := 17, reg := 0x4, lo := 31, w := 1, ty := ro, dom := pkg, rst := [0] }
/-- `PWR_STATUS.ROOT_LOCKED`, bits [30:30]. -/
def PWR_STATUS_ROOT_LOCKED : Fld :=
  { blk := 17, reg := 0x4, lo := 30, w := 1, ty := ro, dom := pkg, rst := [0] }
/-- `PWR_STATUS.SAMPLING_LOCK`, bits [29:29]. -/
def PWR_STATUS_SAMPLING_LOCK : Fld :=
  { blk := 17, reg := 0x4, lo := 29, w := 1, ty := ro, dom := pkg, rst := [0] }
/-- `PWR_STATUS.FABRIC_LOCK`, bits [28:28]. -/
def PWR_STATUS_FABRIC_LOCK : Fld :=
  { blk := 17, reg := 0x4, lo := 28, w := 1, ty := ro, dom := pkg, rst := [0] }
/-- `PWR_STATUS.ENGINE_LOCK`, bits [27:27]. -/
def PWR_STATUS_ENGINE_LOCK : Fld :=
  { blk := 17, reg := 0x4, lo := 27, w := 1, ty := ro, dom := pkg, rst := [0] }
/-- `PWR_STATUS.ESTIMATE`, bits [15:0]. -/
def PWR_STATUS_ESTIMATE : Fld :=
  { blk := 17, reg := 0x4, lo := 0, w := 16, ty := ro, dom := pkg, rst := [0] }
/-- `PWR_EVENT.PARK_REFUSED`, bits [7:7]. -/
def PWR_EVENT_PARK_REFUSED : Fld :=
  { blk := 17, reg := 0x8, lo := 7, w := 1, ty := w1c, dom := die, rst := [0] }
/-- `PWR_EVENT.PLL_FAIL`, bits [6:6]. -/
def PWR_EVENT_PLL_FAIL : Fld :=
  { blk := 17, reg := 0x8, lo := 6, w := 1, ty := w1c, dom := die, rst := [0] }
/-- `PWR_EVENT.WAIT_HOST`, bits [5:5]. -/
def PWR_EVENT_WAIT_HOST : Fld :=
  { blk := 17, reg := 0x8, lo := 5, w := 1, ty := w1c, dom := die, rst := [0] }
/-- `PWR_EVENT.THERM`, bits [4:4]. -/
def PWR_EVENT_THERM : Fld :=
  { blk := 17, reg := 0x8, lo := 4, w := 1, ty := w1c, dom := die, rst := [0] }
/-- `PWR_EVENT.RESTORED`, bits [3:3]. -/
def PWR_EVENT_RESTORED : Fld :=
  { blk := 17, reg := 0x8, lo := 3, w := 1, ty := w1c, dom := die, rst := [0] }
/-- `PWR_EVENT.SHED`, bits [2:2]. -/
def PWR_EVENT_SHED : Fld :=
  { blk := 17, reg := 0x8, lo := 2, w := 1, ty := w1c, dom := die, rst := [0] }
/-- `PWR_EVENT.REFUSED`, bits [1:1]. -/
def PWR_EVENT_REFUSED : Fld :=
  { blk := 17, reg := 0x8, lo := 1, w := 1, ty := w1c, dom := die, rst := [0] }
/-- `PWR_EVENT_MASK.ENABLE`, bits [7:0]. -/
def PWR_EVENT_MASK_ENABLE : Fld :=
  { blk := 17, reg := 0xC, lo := 0, w := 8, ty := rw, dom := die, rst := [244] }
/-- `PWR_DOM_k.STATE`, bits [31:0]. -/
def PWR_DOM_STATE : Fld :=
  { blk := 17, reg := 0x10, lo := 0, w := 32, ty := ro, dom := die, rst := [2863311528, 2863311530, 2863311530, 699050] }
/-- `PWR_FLOW_f.SHED`, bits [31:31]. -/
def PWR_FLOW_SHED : Fld :=
  { blk := 17, reg := 0x1000, lo := 31, w := 1, ty := ro, dom := die, rst := [0] }
/-- `PWR_FLOW_f.PINNED`, bits [30:30]. -/
def PWR_FLOW_PINNED : Fld :=
  { blk := 17, reg := 0x1000, lo := 30, w := 1, ty := rw, dom := die, rst := [0] }
/-- `PWR_FLOW_f.ELASTIC`, bits [29:29]. -/
def PWR_FLOW_ELASTIC : Fld :=
  { blk := 17, reg := 0x1000, lo := 29, w := 1, ty := rw, dom := die, rst := [0] }
/-- `PWR_FLOW_f.SHED_RANK`, bits [23:20]. -/
def PWR_FLOW_SHED_RANK : Fld :=
  { blk := 17, reg := 0x1000, lo := 20, w := 4, ty := rw, dom := die, rst := [0] }
/-- `PWR_FLOW_f.HEADROOM`, bits [19:16]. -/
def PWR_FLOW_HEADROOM : Fld :=
  { blk := 17, reg := 0x1000, lo := 16, w := 4, ty := rw, dom := die, rst := [1] }
/-- `PWR_FLOW_f.RATE`, bits [15:0]. -/
def PWR_FLOW_RATE : Fld :=
  { blk := 17, reg := 0x1000, lo := 0, w := 16, ty := ro, dom := die, rst := [0] }
/-- `PWR_FLOW_SIZE_f.MAX_SLOTS`, bits [26:16]. -/
def PWR_FLOW_SIZE_MAX_SLOTS : Fld :=
  { blk := 17, reg := 0x1004, lo := 16, w := 11, ty := rw, dom := die, rst := [0] }
/-- `PWR_FLOW_SIZE_f.MIN_SLOTS`, bits [10:0]. -/
def PWR_FLOW_SIZE_MIN_SLOTS : Fld :=
  { blk := 17, reg := 0x1004, lo := 0, w := 11, ty := rw, dom := die, rst := [0] }
/-! ### Registers of spec/13_timing_references.md -/

/-- `TIM_DPLL_CTRL.FORCE_REF`, bits [31:28]. -/
def TIM_DPLL_CTRL_FORCE_REF : Fld :=
  { blk := 19, reg := 0x0, lo := 28, w := 4, ty := rw, dom := pkg, rst := [0] }
/-- `TIM_DPLL_CTRL.REVERTIVE`, bits [27:27]. -/
def TIM_DPLL_CTRL_REVERTIVE : Fld :=
  { blk := 19, reg := 0x0, lo := 27, w := 1, ty := rw, dom := pkg, rst := [0] }
/-- `TIM_DPLL_CTRL.MODE`, bits [26:24]. -/
def TIM_DPLL_CTRL_MODE : Fld :=
  { blk := 19, reg := 0x0, lo := 24, w := 3, ty := rw, dom := pkg, rst := [0] }
/-- `TIM_DPLL_CTRL.BW`, bits [15:0]. -/
def TIM_DPLL_CTRL_BW : Fld :=
  { blk := 19, reg := 0x0, lo := 0, w := 16, ty := rw, dom := pkg, rst := [1000] }
/-- `TIM_LOOP_CFG.PULL_MAX`, bits [31:16]. -/
def TIM_LOOP_CFG_PULL_MAX : Fld :=
  { blk := 19, reg := 0x4, lo := 16, w := 16, ty := rw, dom := pkg, rst := [1000] }
/-- `TIM_LOOP_CFG.LOCK_WIN`, bits [7:0]. -/
def TIM_LOOP_CFG_LOCK_WIN : Fld :=
  { blk := 19, reg := 0x4, lo := 0, w := 8, ty := rw, dom := pkg, rst := [10] }
/-- `TIM_SEL_CTRL.CONFLICT`, bits [31:24]. -/
def TIM_SEL_CTRL_CONFLICT : Fld :=
  { blk := 19, reg := 0x8, lo := 24, w := 8, ty := rw, dom := pkg, rst := [100] }
/-- `TIM_SEL_CTRL.QUAL`, bits [23:16]. -/
def TIM_SEL_CTRL_QUAL : Fld :=
  { blk := 19, reg := 0x8, lo := 16, w := 8, ty := rw, dom := pkg, rst := [10] }
/-- `TIM_SEL_CTRL.WTR`, bits [15:0]. -/
def TIM_SEL_CTRL_WTR : Fld :=
  { blk := 19, reg := 0x8, lo := 0, w := 16, ty := rw, dom := pkg, rst := [300] }
/-- `TIM_DPLL_STATUS.STEP_BUSY`, bits [12:12]. -/
def TIM_DPLL_STATUS_STEP_BUSY : Fld :=
  { blk := 19, reg := 0xC, lo := 12, w := 1, ty := ro, dom := pkg, rst := [0] }
/-- `TIM_DPLL_STATUS.TOD_VALID`, bits [11:11]. -/
def TIM_DPLL_STATUS_TOD_VALID : Fld :=
  { blk := 19, reg := 0xC, lo := 11, w := 1, ty := ro, dom := pkg, rst := [0] }
/-- `TIM_DPLL_STATUS.HIST_FROZEN`, bits [10:10]. -/
def TIM_DPLL_STATUS_HIST_FROZEN : Fld :=
  { blk := 19, reg := 0xC, lo := 10, w := 1, ty := ro, dom := pkg, rst := [0] }
/-- `TIM_DPLL_STATUS.HIST_VALID`, bits [9:9]. -/
def TIM_DPLL_STATUS_HIST_VALID : Fld :=
  { blk := 19, reg := 0xC, lo := 9, w := 1, ty := ro, dom := pkg, rst := [0] }
/-- `TIM_DPLL_STATUS.SEL_VALID`, bits [8:8]. -/
def TIM_DPLL_STATUS_SEL_VALID : Fld :=
  { blk := 19, reg := 0xC, lo := 8, w := 1, ty := ro, dom := pkg, rst := [0] }
/-- `TIM_DPLL_STATUS.SELECTED`, bits [7:4]. -/
def TIM_DPLL_STATUS_SELECTED : Fld :=
  { blk := 19, reg := 0xC, lo := 4, w := 4, ty := ro, dom := pkg, rst := [0] }
/-- `TIM_DPLL_STATUS.STATE`, bits [2:0]. -/
def TIM_DPLL_STATUS_STATE : Fld :=
  { blk := 19, reg := 0xC, lo := 0, w := 3, ty := ro, dom := pkg, rst := [0] }
/-- `TIM_EVENT.CFG_ERR`, bits [9:9]. -/
def TIM_EVENT_CFG_ERR : Fld :=
  { blk := 19, reg := 0x10, lo := 9, w := 1, ty := w1c, dom := pkg, rst := [0] }
/-- `TIM_EVENT.LANE_REF_LIMIT`, bits [8:8]. -/
def TIM_EVENT_LANE_REF_LIMIT : Fld :=
  { blk := 19, reg := 0x10, lo := 8, w := 1, ty := w1c, dom := pkg, rst := [0] }
/-- `TIM_EVENT.REALIGN_DONE`, bits [7:7]. -/
def TIM_EVENT_REALIGN_DONE : Fld :=
  { blk := 19, reg := 0x10, lo := 7, w := 1, ty := w1c, dom := pkg, rst := [0] }
/-- `TIM_EVENT.STEP_ERR`, bits [6:6]. -/
def TIM_EVENT_STEP_ERR : Fld :=
  { blk := 19, reg := 0x10, lo := 6, w := 1, ty := w1c, dom := pkg, rst := [0] }
/-- `TIM_EVENT.RANK_CONFLICT`, bits [5:5]. -/
def TIM_EVENT_RANK_CONFLICT : Fld :=
  { blk := 19, reg := 0x10, lo := 5, w := 1, ty := w1c, dom := pkg, rst := [0] }
/-- `TIM_EVENT.HIST_FROZEN`, bits [4:4]. -/
def TIM_EVENT_HIST_FROZEN : Fld :=
  { blk := 19, reg := 0x10, lo := 4, w := 1, ty := w1c, dom := pkg, rst := [0] }
/-- `TIM_EVENT.DISQ`, bits [3:3]. -/
def TIM_EVENT_DISQ : Fld :=
  { blk := 19, reg := 0x10, lo := 3, w := 1, ty := w1c, dom := pkg, rst := [0] }
/-- `TIM_EVENT.SOFT`, bits [2:2]. -/
def TIM_EVENT_SOFT : Fld :=
  { blk := 19, reg := 0x10, lo := 2, w := 1, ty := w1c, dom := pkg, rst := [0] }
/-- `TIM_EVENT.SEL_CHG`, bits [1:1]. -/
def TIM_EVENT_SEL_CHG : Fld :=
  { blk := 19, reg := 0x10, lo := 1, w := 1, ty := w1c, dom := pkg, rst := [0] }
/-- `TIM_EVENT.STATE_CHG`, bits [0:0]. -/
def TIM_EVENT_STATE_CHG : Fld :=
  { blk := 19, reg := 0x10, lo := 0, w := 1, ty := w1c, dom := pkg, rst := [0] }
/-- `TIM_EVENT_MASK.ENABLE`, bits [9:0]. -/
def TIM_EVENT_MASK_ENABLE : Fld :=
  { blk := 19, reg := 0x14, lo := 0, w := 10, ty := rw, dom := pkg, rst := [111] }
/-- `TIM_HIST_CFG.GUARD`, bits [23:16]. -/
def TIM_HIST_CFG_GUARD : Fld :=
  { blk := 19, reg := 0x18, lo := 16, w := 8, ty := rw, dom := pkg, rst := [2] }
/-- `TIM_HIST_CFG.AVG`, bits [11:0]. -/
def TIM_HIST_CFG_AVG : Fld :=
  { blk := 19, reg := 0x18, lo := 0, w := 12, ty := rw, dom := pkg, rst := [300] }
/-- `TIM_HIST_FREQ.FREQ`, bits [31:0]. -/
def TIM_HIST_FREQ_FREQ : Fld :=
  { blk := 19, reg := 0x1C, lo := 0, w := 32, ty := ro, dom := pkg, rst := [0] }
/-- `TIM_DPLL_FREQ.FREQ`, bits [31:0]. -/
def TIM_DPLL_FREQ_FREQ : Fld :=
  { blk := 19, reg := 0x20, lo := 0, w := 32, ty := ro, dom := pkg, rst := [0] }
/-- `TIM_FREQ_ADJ.FREQ`, bits [31:0]. -/
def TIM_FREQ_ADJ_FREQ : Fld :=
  { blk := 19, reg := 0x24, lo := 0, w := 32, ty := rw, dom := pkg, rst := [0] }
/-- `TIM_PHASE_ERR.ERROR`, bits [31:0]. -/
def TIM_PHASE_ERR_ERROR : Fld :=
  { blk := 19, reg := 0x28, lo := 0, w := 32, ty := ro, dom := pkg, rst := [0] }
/-- `TIM_STEP.STEP`, bits [31:0]. -/
def TIM_STEP_STEP : Fld :=
  { blk := 19, reg := 0x2C, lo := 0, w := 32, ty := wo, dom := pkg, rst := [0] }
/-- `TIM_REF_CFG_k.EN`, bits [31:31]. -/
def TIM_REF_CFG_EN : Fld :=
  { blk := 19, reg := 0x100, lo := 31, w := 1, ty := rw, dom := pkg, rst := [0] }
/-- `TIM_REF_CFG_k.PHASE_MODE`, bits [30:30]. -/
def TIM_REF_CFG_PHASE_MODE : Fld :=
  { blk := 19, reg := 0x100, lo := 30, w := 1, ty := rw, dom := pkg, rst := [0] }
/-- `TIM_REF_CFG_k.SOURCE`, bits [29:28]. -/
def TIM_REF_CFG_SOURCE : Fld :=
  { blk := 19, reg := 0x100, lo := 28, w := 2, ty := rw, dom := pkg, rst := [0] }
/-- `TIM_REF_CFG_k.DIE`, bits [26:24]. -/
def TIM_REF_CFG_DIE : Fld :=
  { blk := 19, reg := 0x100, lo := 24, w := 3, ty := rw, dom := pkg, rst := [0] }
/-- `TIM_REF_CFG_k.INDEX`, bits [22:20]. -/
def TIM_REF_CFG_INDEX : Fld :=
  { blk := 19, reg := 0x100, lo := 20, w := 3, ty := rw, dom := pkg, rst := [0] }
/-- `TIM_REF_CFG_k.FREQ`, bits [19:16]. -/
def TIM_REF_CFG_FREQ : Fld :=
  { blk := 19, reg := 0x100, lo := 16, w := 4, ty := rw, dom := pkg, rst := [2] }
/-- `TIM_REF_CFG_k.RANK`, bits [3:0]. -/
def TIM_REF_CFG_RANK : Fld :=
  { blk := 19, reg := 0x100, lo := 0, w := 4, ty := rw, dom := pkg, rst := [0] }
/-- `TIM_REF_LIM_k.HARD`, bits [31:20]. -/
def TIM_REF_LIM_HARD : Fld :=
  { blk := 19, reg := 0x104, lo := 20, w := 12, ty := rw, dom := pkg, rst := [120] }
/-- `TIM_REF_LIM_k.SOFT`, bits [19:8]. -/
def TIM_REF_LIM_SOFT : Fld :=
  { blk := 19, reg := 0x104, lo := 8, w := 12, ty := rw, dom := pkg, rst := [46] }
/-- `TIM_REF_LIM_k.DRIFT`, bits [7:0]. -/
def TIM_REF_LIM_DRIFT : Fld :=
  { blk := 19, reg := 0x104, lo := 0, w := 8, ty := rw, dom := pkg, rst := [50] }
/-- `TIM_REF_STATUS_k.DISQ_CAUSE`, bits [27:24]. -/
def TIM_REF_STATUS_DISQ_CAUSE : Fld :=
  { blk := 19, reg := 0x108, lo := 24, w := 4, ty := ro, dom := pkg, rst := [0] }
/-- `TIM_REF_STATUS_k.QUAL_COUNT`, bits [23:16]. -/
def TIM_REF_STATUS_QUAL_COUNT : Fld :=
  { blk := 19, reg := 0x108, lo := 16, w := 8, ty := ro, dom := pkg, rst := [0] }
/-- `TIM_REF_STATUS_k.CONFLICT`, bits [5:5]. -/
def TIM_REF_STATUS_CONFLICT : Fld :=
  { blk := 19, reg := 0x108, lo := 5, w := 1, ty := ro, dom := pkg, rst := [0] }
/-- `TIM_REF_STATUS_k.DRIFT_WARN`, bits [4:4]. -/
def TIM_REF_STATUS_DRIFT_WARN : Fld :=
  { blk := 19, reg := 0x108, lo := 4, w := 1, ty := ro, dom := pkg, rst := [0] }
/-- `TIM_REF_STATUS_k.SOFT_WARN`, bits [3:3]. -/
def TIM_REF_STATUS_SOFT_WARN : Fld :=
  { blk := 19, reg := 0x108, lo := 3, w := 1, ty := ro, dom := pkg, rst := [0] }
/-- `TIM_REF_STATUS_k.SELECTED`, bits [2:2]. -/
def TIM_REF_STATUS_SELECTED : Fld :=
  { blk := 19, reg := 0x108, lo := 2, w := 1, ty := ro, dom := pkg, rst := [0] }
/-- `TIM_REF_STATUS_k.QUALIFIED`, bits [1:1]. -/
def TIM_REF_STATUS_QUALIFIED : Fld :=
  { blk := 19, reg := 0x108, lo := 1, w := 1, ty := ro, dom := pkg, rst := [0] }
/-- `TIM_REF_STATUS_k.ACTIVE`, bits [0:0]. -/
def TIM_REF_STATUS_ACTIVE : Fld :=
  { blk := 19, reg := 0x108, lo := 0, w := 1, ty := ro, dom := pkg, rst := [0] }
/-- `TIM_REF_FREQ_k.FREQ`, bits [31:0]. -/
def TIM_REF_FREQ_FREQ : Fld :=
  { blk := 19, reg := 0x10C, lo := 0, w := 32, ty := ro, dom := pkg, rst := [0] }
/-- `TIM_REF_OFS_k.OFFSET`, bits [31:0]. -/
def TIM_REF_OFS_OFFSET : Fld :=
  { blk := 19, reg := 0x200, lo := 0, w := 32, ty := rw, dom := pkg, rst := [0] }
/-- `TIM_OUT_CFG_j.EN`, bits [31:31]. -/
def TIM_OUT_CFG_EN : Fld :=
  { blk := 19, reg := 0x300, lo := 31, w := 1, ty := rw, dom := pkg, rst := [0] }
/-- `TIM_OUT_CFG_j.PARAM`, bits [29:0]. -/
def TIM_OUT_CFG_PARAM : Fld :=
  { blk := 19, reg := 0x300, lo := 0, w := 30, ty := rw, dom := pkg, rst := [0] }
/-- `TIM_OUT_AUX_j.OFFSET`, bits [29:0]. -/
def TIM_OUT_AUX_OFFSET : Fld :=
  { blk := 19, reg := 0x304, lo := 0, w := 30, ty := rw, dom := pkg, rst := [0] }
/-- `TIM_OUT_PEND_j.PENDING`, bits [31:0]. -/
def TIM_OUT_PEND_PENDING : Fld :=
  { blk := 19, reg := 0x308, lo := 0, w := 32, ty := ro, dom := pkg, rst := [0] }
/-- `TIM_REALIGN.SLEW`, bits [23:8]. -/
def TIM_REALIGN_SLEW : Fld :=
  { blk := 19, reg := 0x340, lo := 8, w := 16, ty := rw, dom := pkg, rst := [100] }
/-- `TIM_REALIGN.MODE`, bits [4:4]. -/
def TIM_REALIGN_MODE : Fld :=
  { blk := 19, reg := 0x340, lo := 4, w := 1, ty := rw, dom := pkg, rst := [0] }
/-- `TIM_REALIGN.GO`, bits [3:0]. -/
def TIM_REALIGN_GO : Fld :=
  { blk := 19, reg := 0x340, lo := 0, w := 4, ty := wo, dom := pkg, rst := [0] }
/-- `TIM_TOD_CTRL.LOAD`, bits [1:1]. -/
def TIM_TOD_CTRL_LOAD : Fld :=
  { blk := 19, reg := 0x400, lo := 1, w := 1, ty := wo, dom := pkg, rst := [0] }
/-- `TIM_TOD_CTRL.SNAP`, bits [0:0]. -/
def TIM_TOD_CTRL_SNAP : Fld :=
  { blk := 19, reg := 0x400, lo := 0, w := 1, ty := wo, dom := pkg, rst := [0] }
/-- `TIM_TOD_SNAP_k.DATA`, bits [31:0]. -/
def TIM_TOD_SNAP_DATA : Fld :=
  { blk := 19, reg := 0x404, lo := 0, w := 32, ty := ro, dom := pkg, rst := [0] }
/-- `TIM_TOD_LOAD_S_LO.SECONDS`, bits [31:0]. -/
def TIM_TOD_LOAD_S_LO_SECONDS : Fld :=
  { blk := 19, reg := 0x414, lo := 0, w := 32, ty := rw, dom := pkg, rst := [0] }
/-- `TIM_TOD_LOAD_S_HI.SECONDS`, bits [15:0]. -/
def TIM_TOD_LOAD_S_HI_SECONDS : Fld :=
  { blk := 19, reg := 0x418, lo := 0, w := 16, ty := rw, dom := pkg, rst := [0] }
/-! ### Registers of spec/14_watch_chain.md -/

/-- `HKA_SEQ_CTRL.EN`, bits [31:31]. -/
def HKA_SEQ_CTRL_EN : Fld :=
  { blk := 20, reg := 0x0, lo := 31, w := 1, ty := rw, dom := die, rst := [0] }
/-- `HKA_SEQ_CTRL.GO`, bits [30:30]. -/
def HKA_SEQ_CTRL_GO : Fld :=
  { blk := 20, reg := 0x0, lo := 30, w := 1, ty := wo, dom := die, rst := [0] }
/-- `HKA_SEQ_CTRL.SYNC_RESTART`, bits [29:29]. -/
def HKA_SEQ_CTRL_SYNC_RESTART : Fld :=
  { blk := 20, reg := 0x0, lo := 29, w := 1, ty := rw, dom := die, rst := [0] }
/-- `HKA_SEQ_CTRL.TRIG`, bits [26:24]. -/
def HKA_SEQ_CTRL_TRIG : Fld :=
  { blk := 20, reg := 0x0, lo := 24, w := 3, ty := rw, dom := die, rst := [0] }
/-- `HKA_SEQ_CTRL.LENGTH`, bits [20:16]. -/
def HKA_SEQ_CTRL_LENGTH : Fld :=
  { blk := 20, reg := 0x0, lo := 16, w := 5, ty := rw, dom := die, rst := [0] }
/-- `HKA_SEQ_CTRL.PERIOD`, bits [15:0]. -/
def HKA_SEQ_CTRL_PERIOD : Fld :=
  { blk := 20, reg := 0x0, lo := 0, w := 16, ty := rw, dom := die, rst := [20] }
/-- `HKA_SEQ_STATUS.PENDING`, bits [31:31]. -/
def HKA_SEQ_STATUS_PENDING : Fld :=
  { blk := 20, reg := 0x4, lo := 31, w := 1, ty := ro, dom := die, rst := [0] }
/-- `HKA_SEQ_STATUS.RUNNING`, bits [30:30]. -/
def HKA_SEQ_STATUS_RUNNING : Fld :=
  { blk := 20, reg := 0x4, lo := 30, w := 1, ty := ro, dom := die, rst := [0] }
/-- `HKA_SEQ_STATUS.ENTRY`, bits [28:24]. -/
def HKA_SEQ_STATUS_ENTRY : Fld :=
  { blk := 20, reg := 0x4, lo := 24, w := 5, ty := ro, dom := die, rst := [0] }
/-- `HKA_SEQ_STATUS.PASS_COUNT`, bits [15:0]. -/
def HKA_SEQ_STATUS_PASS_COUNT : Fld :=
  { blk := 20, reg := 0x4, lo := 0, w := 16, ty := ro, dom := die, rst := [0] }
/-- `HKA_EVENT.URGENT_BUSY`, bits [4:4]. -/
def HKA_EVENT_URGENT_BUSY : Fld :=
  { blk := 20, reg := 0x8, lo := 4, w := 1, ty := w1c, dom := die, rst := [0] }
/-- `HKA_EVENT.URGENT_DONE`, bits [3:3]. -/
def HKA_EVENT_URGENT_DONE : Fld :=
  { blk := 20, reg := 0x8, lo := 3, w := 1, ty := w1c, dom := die, rst := [0] }
/-- `HKA_EVENT.LATE`, bits [2:2]. -/
def HKA_EVENT_LATE : Fld :=
  { blk := 20, reg := 0x8, lo := 2, w := 1, ty := w1c, dom := die, rst := [0] }
/-- `HKA_EVENT.OVERRUN`, bits [1:1]. -/
def HKA_EVENT_OVERRUN : Fld :=
  { blk := 20, reg := 0x8, lo := 1, w := 1, ty := w1c, dom := die, rst := [0] }
/-- `HKA_EVENT.PASS_DONE`, bits [0:0]. -/
def HKA_EVENT_PASS_DONE : Fld :=
  { blk := 20, reg := 0x8, lo := 0, w := 1, ty := w1c, dom := die, rst := [0] }
/-- `HKA_EVENT_MASK.ENABLE`, bits [4:0]. -/
def HKA_EVENT_MASK_ENABLE : Fld :=
  { blk := 20, reg := 0xC, lo := 0, w := 5, ty := rw, dom := die, rst := [18] }
/-- `HKA_OVERRUN.COUNT`, bits [31:0]. -/
def HKA_OVERRUN_COUNT : Fld :=
  { blk := 20, reg := 0x10, lo := 0, w := 32, ty := rc, dom := blk, rst := [0] }
/-- `HKA_URGENT.GO`, bits [31:31]. -/
def HKA_URGENT_GO : Fld :=
  { blk := 20, reg := 0x14, lo := 31, w := 1, ty := wo, dom := die, rst := [0] }
/-- `HKA_URGENT.MODE`, bits [17:16]. -/
def HKA_URGENT_MODE : Fld :=
  { blk := 20, reg := 0x14, lo := 16, w := 2, ty := rw, dom := die, rst := [0] }
/-- `HKA_URGENT.ALIGN`, bits [15:15]. -/
def HKA_URGENT_ALIGN : Fld :=
  { blk := 20, reg := 0x14, lo := 15, w := 1, ty := rw, dom := die, rst := [0] }
/-- `HKA_URGENT.INPUT_B`, bits [12:8]. -/
def HKA_URGENT_INPUT_B : Fld :=
  { blk := 20, reg := 0x14, lo := 8, w := 5, ty := rw, dom := die, rst := [0] }
/-- `HKA_URGENT.INPUT_A`, bits [4:0]. -/
def HKA_URGENT_INPUT_A : Fld :=
  { blk := 20, reg := 0x14, lo := 0, w := 5, ty := rw, dom := die, rst := [0] }
/-- `HKA_URGENT_RESULT.B`, bits [31:16]. -/
def HKA_URGENT_RESULT_B : Fld :=
  { blk := 20, reg := 0x18, lo := 16, w := 16, ty := ro, dom := blk, rst := [0] }
/-- `HKA_URGENT_RESULT.A`, bits [15:0]. -/
def HKA_URGENT_RESULT_A : Fld :=
  { blk := 20, reg := 0x18, lo := 0, w := 16, ty := ro, dom := blk, rst := [0] }
/-- `HKA_TEMP_k.TEMP`, bits [15:0]. -/
def HKA_TEMP_TEMP : Fld :=
  { blk := 20, reg := 0x20, lo := 0, w := 16, ty := ro, dom := die, rst := [0] }
/-- `HKA_TEMP_MAX.TEMP`, bits [15:0]. -/
def HKA_TEMP_MAX_TEMP : Fld :=
  { blk := 20, reg := 0x30, lo := 0, w := 16, ty := ro, dom := die, rst := [0] }
/-- `HKA_SEQ_ENTRY_e.MODE`, bits [17:16]. -/
def HKA_SEQ_ENTRY_MODE : Fld :=
  { blk := 20, reg := 0x100, lo := 16, w := 2, ty := rw, dom := die, rst := [0] }
/-- `HKA_SEQ_ENTRY_e.ALIGN`, bits [15:15]. -/
def HKA_SEQ_ENTRY_ALIGN : Fld :=
  { blk := 20, reg := 0x100, lo := 15, w := 1, ty := rw, dom := die, rst := [0] }
/-- `HKA_SEQ_ENTRY_e.INPUT_B`, bits [12:8]. -/
def HKA_SEQ_ENTRY_INPUT_B : Fld :=
  { blk := 20, reg := 0x100, lo := 8, w := 5, ty := rw, dom := die, rst := [0] }
/-- `HKA_SEQ_ENTRY_e.INPUT_A`, bits [4:0]. -/
def HKA_SEQ_ENTRY_INPUT_A : Fld :=
  { blk := 20, reg := 0x100, lo := 0, w := 5, ty := rw, dom := die, rst := [0] }
/-- `HKA_RESULT_e.B`, bits [31:16]. -/
def HKA_RESULT_B : Fld :=
  { blk := 20, reg := 0x200, lo := 16, w := 16, ty := ro, dom := blk, rst := [0] }
/-- `HKA_RESULT_e.A`, bits [15:0]. -/
def HKA_RESULT_A : Fld :=
  { blk := 20, reg := 0x200, lo := 0, w := 16, ty := ro, dom := blk, rst := [0] }
/-- `WCH_CTRL.SYNC_OUT_GO`, bits [1:1]. -/
def WCH_CTRL_SYNC_OUT_GO : Fld :=
  { blk := 21, reg := 0x0, lo := 1, w := 1, ty := wo, dom := die, rst := [0] }
/-- `WCH_CTRL.SYNC`, bits [0:0]. -/
def WCH_CTRL_SYNC : Fld :=
  { blk := 21, reg := 0x0, lo := 0, w := 1, ty := wo, dom := die, rst := [0] }
/-- `WCH_EVENT.LOW`, bits [31:16]. -/
def WCH_EVENT_LOW : Fld :=
  { blk := 21, reg := 0x8, lo := 16, w := 16, ty := w1c, dom := die, rst := [0] }
/-- `WCH_EVENT.HIGH`, bits [15:0]. -/
def WCH_EVENT_HIGH : Fld :=
  { blk := 21, reg := 0x8, lo := 0, w := 16, ty := w1c, dom := die, rst := [0] }
/-- `WCH_EVENT_MASK.ENABLE`, bits [31:0]. -/
def WCH_EVENT_MASK_ENABLE : Fld :=
  { blk := 21, reg := 0xC, lo := 0, w := 32, ty := rw, dom := die, rst := [4294967295] }
/-- `WCH_STAT_EVENT.OVERLOAD`, bits [31:16]. -/
def WCH_STAT_EVENT_OVERLOAD : Fld :=
  { blk := 21, reg := 0x10, lo := 16, w := 16, ty := w1c, dom := die, rst := [0] }
/-- `WCH_STAT_EVENT.SAT`, bits [15:0]. -/
def WCH_STAT_EVENT_SAT : Fld :=
  { blk := 21, reg := 0x10, lo := 0, w := 16, ty := w1c, dom := die, rst := [0] }
/-- `WCH_STAT_EVENT_MASK.ENABLE`, bits [31:0]. -/
def WCH_STAT_EVENT_MASK_ENABLE : Fld :=
  { blk := 21, reg := 0x14, lo := 0, w := 32, ty := rw, dom := die, rst := [4294901760] }
/-- `WCH_CFG_ERR.LAST_CH`, bits [19:16]. -/
def WCH_CFG_ERR_LAST_CH : Fld :=
  { blk := 21, reg := 0x18, lo := 16, w := 4, ty := ro, dom := die, rst := [0] }
/-- `WCH_CFG_ERR.CFG_ERR`, bits [0:0]. -/
def WCH_CFG_ERR_CFG_ERR : Fld :=
  { blk := 21, reg := 0x18, lo := 0, w := 1, ty := w1c, dom := die, rst := [0] }
/-- `WCH_CFG_ERR_MASK.ENABLE`, bits [0:0]. -/
def WCH_CFG_ERR_MASK_ENABLE : Fld :=
  { blk := 21, reg := 0x1C, lo := 0, w := 1, ty := rw, dom := die, rst := [1] }
/-- `WCH_CH_CFG_c.EN`, bits [31:31]. -/
def WCH_CH_CFG_EN : Fld :=
  { blk := 21, reg := 0x100, lo := 31, w := 1, ty := rw, dom := die, rst := [0] }
/-- `WCH_CH_CFG_c.SYNC_EN`, bits [30:30]. -/
def WCH_CH_CFG_SYNC_EN : Fld :=
  { blk := 21, reg := 0x100, lo := 30, w := 1, ty := rw, dom := die, rst := [1] }
/-- `WCH_CH_CFG_c.SRC`, bits [29:28]. -/
def WCH_CH_CFG_SRC : Fld :=
  { blk := 21, reg := 0x100, lo := 28, w := 2, ty := rw, dom := die, rst := [0] }
/-- `WCH_CH_CFG_c.SRC_SEL`, bits [27:20]. -/
def WCH_CH_CFG_SRC_SEL : Fld :=
  { blk := 21, reg := 0x100, lo := 20, w := 8, ty := rw, dom := die, rst := [0] }
/-- `WCH_CH_CFG_c.DEC`, bits [19:16]. -/
def WCH_CH_CFG_DEC : Fld :=
  { blk := 21, reg := 0x100, lo := 16, w := 4, ty := rw, dom := die, rst := [0] }
/-- `WCH_CH_CFG_c.FIR_SEL`, bits [14:10]. -/
def WCH_CH_CFG_FIR_SEL : Fld :=
  { blk := 21, reg := 0x100, lo := 10, w := 5, ty := rw, dom := die, rst := [0] }
/-- `WCH_CH_CFG_c.BIQ_SEL`, bits [9:5]. -/
def WCH_CH_CFG_BIQ_SEL : Fld :=
  { blk := 21, reg := 0x100, lo := 5, w := 5, ty := rw, dom := die, rst := [0] }
/-- `WCH_CH_SHIFT_c.BIQ_SHIFT`, bits [13:8]. -/
def WCH_CH_SHIFT_BIQ_SHIFT : Fld :=
  { blk := 21, reg := 0x104, lo := 8, w := 6, ty := rw, dom := die, rst := [0] }
/-- `WCH_CH_SHIFT_c.FIR_SHIFT`, bits [4:0]. -/
def WCH_CH_SHIFT_FIR_SHIFT : Fld :=
  { blk := 21, reg := 0x104, lo := 0, w := 5, ty := rw, dom := die, rst := [16] }
/-- `WCH_CH_STEP_c.STEP`, bits [23:0]. -/
def WCH_CH_STEP_STEP : Fld :=
  { blk := 21, reg := 0x108, lo := 0, w := 24, ty := rw, dom := die, rst := [65536] }
/-- `WCH_CH_DELAY_c.DELAY`, bits [9:0]. -/
def WCH_CH_DELAY_DELAY : Fld :=
  { blk := 21, reg := 0x10C, lo := 0, w := 10, ty := rw, dom := die, rst := [0] }
/-- `WCH_CH_HIGH_c.HIGH`, bits [23:0]. -/
def WCH_CH_HIGH_HIGH : Fld :=
  { blk := 21, reg := 0x110, lo := 0, w := 24, ty := rw, dom := die, rst := [8388607] }
/-- `WCH_CH_LOW_c.LOW`, bits [23:0]. -/
def WCH_CH_LOW_LOW : Fld :=
  { blk := 21, reg := 0x114, lo := 0, w := 24, ty := rw, dom := die, rst := [8388608] }
/-- `WCH_CH_THR_c.HIGH_EN`, bits [31:31]. -/
def WCH_CH_THR_HIGH_EN : Fld :=
  { blk := 21, reg := 0x118, lo := 31, w := 1, ty := rw, dom := die, rst := [0] }
/-- `WCH_CH_THR_c.LOW_EN`, bits [30:30]. -/
def WCH_CH_THR_LOW_EN : Fld :=
  { blk := 21, reg := 0x118, lo := 30, w := 1, ty := rw, dom := die, rst := [0] }
/-- `WCH_CH_THR_c.HYST`, bits [23:8]. -/
def WCH_CH_THR_HYST : Fld :=
  { blk := 21, reg := 0x118, lo := 8, w := 16, ty := rw, dom := die, rst := [0] }
/-- `WCH_CH_THR_c.PERSIST`, bits [7:0]. -/
def WCH_CH_THR_PERSIST : Fld :=
  { blk := 21, reg := 0x118, lo := 0, w := 8, ty := rw, dom := die, rst := [1] }
/-- `WCH_CH_OUT_c.OUT`, bits [31:0]. -/
def WCH_CH_OUT_OUT : Fld :=
  { blk := 21, reg := 0x11C, lo := 0, w := 32, ty := ro, dom := blk, rst := [0] }
/-- `WCH_CH_STATUS_c.HIGH_DECL`, bits [31:31]. -/
def WCH_CH_STATUS_HIGH_DECL : Fld :=
  { blk := 21, reg := 0x120, lo := 31, w := 1, ty := ro, dom := blk, rst := [0] }
/-- `WCH_CH_STATUS_c.LOW_DECL`, bits [30:30]. -/
def WCH_CH_STATUS_LOW_DECL : Fld :=
  { blk := 21, reg := 0x120, lo := 30, w := 1, ty := ro, dom := blk, rst := [0] }
/-- `WCH_CH_STATUS_c.OUT_COUNT`, bits [15:0]. -/
def WCH_CH_STATUS_OUT_COUNT : Fld :=
  { blk := 21, reg := 0x120, lo := 0, w := 16, ty := ro, dom := blk, rst := [0] }
/-- `WCH_CH_LOST_c.COUNT`, bits [31:0]. -/
def WCH_CH_LOST_COUNT : Fld :=
  { blk := 21, reg := 0x124, lo := 0, w := 32, ty := rc, dom := blk, rst := [0] }
/-! ### Registers of spec/15_pair_line_modem.md -/

/-- `PLM_CTRL.EN`, bits [31:31]. -/
def PLM_CTRL_EN : Fld :=
  { blk := 22, reg := 0x0, lo := 31, w := 1, ty := rw, dom := pkg, rst := [1] }
/-- `PLM_CTRL.ROLE`, bits [30:30]. -/
def PLM_CTRL_ROLE : Fld :=
  { blk := 22, reg := 0x0, lo := 30, w := 1, ty := rw, dom := pkg, rst := [0] }
/-- `PLM_CTRL.EXEC`, bits [29:29]. -/
def PLM_CTRL_EXEC : Fld :=
  { blk := 22, reg := 0x0, lo := 29, w := 1, ty := rw, dom := pkg, rst := [1] }
/-- `PLM_CTRL.TX_CLK`, bits [28:28]. -/
def PLM_CTRL_TX_CLK : Fld :=
  { blk := 22, reg := 0x0, lo := 28, w := 1, ty := rw, dom := pkg, rst := [0] }
/-- `PLM_CTRL.FAST_EN`, bits [27:27]. -/
def PLM_CTRL_FAST_EN : Fld :=
  { blk := 22, reg := 0x0, lo := 27, w := 1, ty := rw, dom := pkg, rst := [1] }
/-- `PLM_CTRL.UPSHIFT_EN`, bits [26:26]. -/
def PLM_CTRL_UPSHIFT_EN : Fld :=
  { blk := 22, reg := 0x0, lo := 26, w := 1, ty := rw, dom := pkg, rst := [0] }
/-- `PLM_CTRL.RETRAIN`, bits [25:25]. -/
def PLM_CTRL_RETRAIN : Fld :=
  { blk := 22, reg := 0x0, lo := 25, w := 1, ty := wo, dom := pkg, rst := [0] }
/-- `PLM_STATUS.STATE`, bits [31:28]. -/
def PLM_STATUS_STATE : Fld :=
  { blk := 22, reg := 0x4, lo := 28, w := 4, ty := ro, dom := pkg, rst := [0] }
/-- `PLM_STATUS.PEER_VALID`, bits [27:27]. -/
def PLM_STATUS_PEER_VALID : Fld :=
  { blk := 22, reg := 0x4, lo := 27, w := 1, ty := ro, dom := pkg, rst := [0] }
/-- `PLM_STATUS.K`, bits [26:20]. -/
def PLM_STATUS_K : Fld :=
  { blk := 22, reg := 0x4, lo := 20, w := 7, ty := ro, dom := pkg, rst := [0] }
/-- `PLM_STATUS.M_TX`, bits [17:16]. -/
def PLM_STATUS_M_TX : Fld :=
  { blk := 22, reg := 0x4, lo := 16, w := 2, ty := ro, dom := pkg, rst := [0] }
/-- `PLM_STATUS.CODE_TX`, bits [15:15]. -/
def PLM_STATUS_CODE_TX : Fld :=
  { blk := 22, reg := 0x4, lo := 15, w := 1, ty := ro, dom := pkg, rst := [0] }
/-- `PLM_STATUS.M_RX`, bits [13:12]. -/
def PLM_STATUS_M_RX : Fld :=
  { blk := 22, reg := 0x4, lo := 12, w := 2, ty := ro, dom := pkg, rst := [0] }
/-- `PLM_STATUS.CODE_RX`, bits [11:11]. -/
def PLM_STATUS_CODE_RX : Fld :=
  { blk := 22, reg := 0x4, lo := 11, w := 1, ty := ro, dom := pkg, rst := [0] }
/-- `PLM_EVENT.MASK_LIMIT`, bits [7:7]. -/
def PLM_EVENT_MASK_LIMIT : Fld :=
  { blk := 22, reg := 0x8, lo := 7, w := 1, ty := w1c, dom := pkg, rst := [0] }
/-- `PLM_EVENT.RX_DROP`, bits [6:6]. -/
def PLM_EVENT_RX_DROP : Fld :=
  { blk := 22, reg := 0x8, lo := 6, w := 1, ty := w1c, dom := pkg, rst := [0] }
/-- `PLM_EVENT.TX_DONE`, bits [5:5]. -/
def PLM_EVENT_TX_DONE : Fld :=
  { blk := 22, reg := 0x8, lo := 5, w := 1, ty := w1c, dom := pkg, rst := [0] }
/-- `PLM_EVENT.RX_PACKET`, bits [4:4]. -/
def PLM_EVENT_RX_PACKET : Fld :=
  { blk := 22, reg := 0x8, lo := 4, w := 1, ty := w1c, dom := pkg, rst := [0] }
/-- `PLM_EVENT.SHIFT`, bits [3:3]. -/
def PLM_EVENT_SHIFT : Fld :=
  { blk := 22, reg := 0x8, lo := 3, w := 1, ty := w1c, dom := pkg, rst := [0] }
/-- `PLM_EVENT.PEER_CHG`, bits [2:2]. -/
def PLM_EVENT_PEER_CHG : Fld :=
  { blk := 22, reg := 0x8, lo := 2, w := 1, ty := w1c, dom := pkg, rst := [0] }
/-- `PLM_EVENT.DOWN`, bits [1:1]. -/
def PLM_EVENT_DOWN : Fld :=
  { blk := 22, reg := 0x8, lo := 1, w := 1, ty := w1c, dom := pkg, rst := [0] }
/-- `PLM_EVENT.UP`, bits [0:0]. -/
def PLM_EVENT_UP : Fld :=
  { blk := 22, reg := 0x8, lo := 0, w := 1, ty := w1c, dom := pkg, rst := [0] }
/-- `PLM_EVENT_MASK.ENABLE`, bits [7:0]. -/
def PLM_EVENT_MASK_ENABLE : Fld :=
  { blk := 22, reg := 0xC, lo := 0, w := 8, ty := rw, dom := pkg, rst := [199] }
/-- `PLM_LIMITS.TARGET`, bits [31:24]. -/
def PLM_LIMITS_TARGET : Fld :=
  { blk := 22, reg := 0x10, lo := 24, w := 8, ty := rw, dom := pkg, rst := [60] }
/-- `PLM_LIMITS.DROP`, bits [23:16]. -/
def PLM_LIMITS_DROP : Fld :=
  { blk := 22, reg := 0x10, lo := 16, w := 8, ty := rw, dom := pkg, rst := [226] }
/-- `PLM_LIMITS.K_MAX`, bits [14:8]. -/
def PLM_LIMITS_K_MAX : Fld :=
  { blk := 22, reg := 0x10, lo := 8, w := 7, ty := rw, dom := pkg, rst := [125] }
/-- `PLM_LIMITS.K_MIN`, bits [6:0]. -/
def PLM_LIMITS_K_MIN : Fld :=
  { blk := 22, reg := 0x10, lo := 0, w := 7, ty := rw, dom := pkg, rst := [4] }
/-- `PLM_RATE.RX`, bits [31:16]. -/
def PLM_RATE_RX : Fld :=
  { blk := 22, reg := 0x14, lo := 16, w := 16, ty := ro, dom := pkg, rst := [0] }
/-- `PLM_RATE.TX`, bits [15:0]. -/
def PLM_RATE_TX : Fld :=
  { blk := 22, reg := 0x14, lo := 0, w := 16, ty := ro, dom := pkg, rst := [0] }
/-- `PLM_QUALITY.EVM`, bits [31:16]. -/
def PLM_QUALITY_EVM : Fld :=
  { blk := 22, reg := 0x18, lo := 16, w := 16, ty := ro, dom := pkg, rst := [0] }
/-- `PLM_QUALITY.MARGIN`, bits [15:0]. -/
def PLM_QUALITY_MARGIN : Fld :=
  { blk := 22, reg := 0x18, lo := 0, w := 16, ty := ro, dom := pkg, rst := [0] }
/-- `PLM_FAR_QUALITY.EVM`, bits [31:16]. -/
def PLM_FAR_QUALITY_EVM : Fld :=
  { blk := 22, reg := 0x1C, lo := 16, w := 16, ty := ro, dom := pkg, rst := [0] }
/-- `PLM_FAR_QUALITY.MARGIN`, bits [15:0]. -/
def PLM_FAR_QUALITY_MARGIN : Fld :=
  { blk := 22, reg := 0x1C, lo := 0, w := 16, ty := ro, dom := pkg, rst := [0] }
/-- `PLM_ECHO.ERLE`, bits [15:0]. -/
def PLM_ECHO_ERLE : Fld :=
  { blk := 22, reg := 0x20, lo := 0, w := 16, ty := ro, dom := pkg, rst := [0] }
/-- `PLM_PEER_LO.NODE_ID`, bits [31:0]. -/
def PLM_PEER_LO_NODE_ID : Fld :=
  { blk := 22, reg := 0x24, lo := 0, w := 32, ty := ro, dom := pkg, rst := [0] }
/-- `PLM_PEER_HI.NODE_ID`, bits [31:0]. -/
def PLM_PEER_HI_NODE_ID : Fld :=
  { blk := 22, reg := 0x28, lo := 0, w := 32, ty := ro, dom := pkg, rst := [0] }
/-- `PLM_TX_LEVEL.APPLIED`, bits [24:16]. -/
def PLM_TX_LEVEL_APPLIED : Fld :=
  { blk := 22, reg := 0x2C, lo := 16, w := 9, ty := ro, dom := pkg, rst := [0] }
/-- `PLM_TX_LEVEL.LEVEL`, bits [8:0]. -/
def PLM_TX_LEVEL_LEVEL : Fld :=
  { blk := 22, reg := 0x2C, lo := 0, w := 9, ty := rw, dom := pkg, rst := [100] }
/-- `PLM_CNT_k.COUNT`, bits [31:0]. -/
def PLM_CNT_COUNT : Fld :=
  { blk := 22, reg := 0x40, lo := 0, w := 32, ty := rc, dom := blk, rst := [0] }
/-- `PLM_HOST_CTRL.TX_GO`, bits [31:31]. -/
def PLM_HOST_CTRL_TX_GO : Fld :=
  { blk := 22, reg := 0x80, lo := 31, w := 1, ty := wo, dom := pkg, rst := [0] }
/-- `PLM_HOST_CTRL.TX_BUSY`, bits [30:30]. -/
def PLM_HOST_CTRL_TX_BUSY : Fld :=
  { blk := 22, reg := 0x80, lo := 30, w := 1, ty := ro, dom := pkg, rst := [0] }
/-- `PLM_HOST_CTRL.RX_ACK`, bits [29:29]. -/
def PLM_HOST_CTRL_RX_ACK : Fld :=
  { blk := 22, reg := 0x80, lo := 29, w := 1, ty := wo, dom := pkg, rst := [0] }
/-- `PLM_HOST_CTRL.RX_VALID`, bits [28:28]. -/
def PLM_HOST_CTRL_RX_VALID : Fld :=
  { blk := 22, reg := 0x80, lo := 28, w := 1, ty := ro, dom := pkg, rst := [0] }
/-- `PLM_HOST_CTRL.RX_FILL`, bits [27:25]. -/
def PLM_HOST_CTRL_RX_FILL : Fld :=
  { blk := 22, reg := 0x80, lo := 25, w := 3, ty := ro, dom := pkg, rst := [0] }
/-- `PLM_HOST_CTRL.TX_TYPE`, bits [24:24]. -/
def PLM_HOST_CTRL_TX_TYPE : Fld :=
  { blk := 22, reg := 0x80, lo := 24, w := 1, ty := rw, dom := pkg, rst := [0] }
/-- `PLM_HOST_CTRL.RX_LEN`, bits [21:11]. -/
def PLM_HOST_CTRL_RX_LEN : Fld :=
  { blk := 22, reg := 0x80, lo := 11, w := 11, ty := ro, dom := pkg, rst := [0] }
/-- `PLM_HOST_CTRL.TX_LEN`, bits [10:0]. -/
def PLM_HOST_CTRL_TX_LEN : Fld :=
  { blk := 22, reg := 0x80, lo := 0, w := 11, ty := rw, dom := pkg, rst := [0] }
/-- `PLM_TX_FIR_t.COEF`, bits [11:0]. -/
def PLM_TX_FIR_COEF : Fld :=
  { blk := 22, reg := 0x100, lo := 0, w := 12, ty := rw, dom := pkg, rst := [1024, 0] }
/-- `PLM_MASK_p.VALID`, bits [31:31]. -/
def PLM_MASK_VALID : Fld :=
  { blk := 22, reg := 0x200, lo := 31, w := 1, ty := rw, dom := pkg, rst := [1, 1, 1, 0] }
/-- `PLM_MASK_p.FREQ`, bits [30:16]. -/
def PLM_MASK_FREQ : Fld :=
  { blk := 22, reg := 0x200, lo := 16, w := 15, ty := rw, dom := pkg, rst := [0, 1600, 2000, 0] }
/-- `PLM_MASK_p.LEVEL`, bits [7:0]. -/
def PLM_MASK_LEVEL : Fld :=
  { blk := 22, reg := 0x200, lo := 0, w := 8, ty := rw, dom := pkg, rst := [120, 120, 180, 0] }
/-! ### Registers of spec/16_bring_up_and_recovery.md -/

/-- `BUP_STATUS.REC_WAITING`, bits [5:5]. -/
def BUP_STATUS_REC_WAITING : Fld :=
  { blk := 23, reg := 0x0, lo := 5, w := 1, ty := ro, dom := die, rst := [0] }
/-- `BUP_STATUS.WARM`, bits [4:4]. -/
def BUP_STATUS_WARM : Fld :=
  { blk := 23, reg := 0x0, lo := 4, w := 1, ty := ro, dom := die, rst := [0] }
/-- `BUP_STATUS.STATE`, bits [2:0]. -/
def BUP_STATUS_STATE : Fld :=
  { blk := 23, reg := 0x0, lo := 0, w := 3, ty := ro, dom := die, rst := [0] }
/-- `BUP_CTRL.REBASE`, bits [31:31]. -/
def BUP_CTRL_REBASE : Fld :=
  { blk := 23, reg := 0x4, lo := 31, w := 1, ty := wo, dom := pkg, rst := [0] }
/-- `BUP_CTRL.AUTO_RAMP`, bits [30:30]. -/
def BUP_CTRL_AUTO_RAMP : Fld :=
  { blk := 23, reg := 0x4, lo := 30, w := 1, ty := rw, dom := pkg, rst := [1] }
/-- `BUP_CTRL.CAIRN_LEAD`, bits [23:16]. -/
def BUP_CTRL_CAIRN_LEAD : Fld :=
  { blk := 23, reg := 0x4, lo := 16, w := 8, ty := rw, dom := pkg, rst := [64] }
/-- `BUP_CTRL.RECOVER`, bits [15:12]. -/
def BUP_CTRL_RECOVER : Fld :=
  { blk := 23, reg := 0x4, lo := 12, w := 4, ty := rw, dom := pkg, rst := [1] }
/-- `BUP_CTRL.NO_PEER`, bits [11:8]. -/
def BUP_CTRL_NO_PEER : Fld :=
  { blk := 23, reg := 0x4, lo := 8, w := 4, ty := rw, dom := pkg, rst := [10] }
/-- `BUP_CTRL.REC_WAIT`, bits [7:0]. -/
def BUP_CTRL_REC_WAIT : Fld :=
  { blk := 23, reg := 0x4, lo := 0, w := 8, ty := rw, dom := pkg, rst := [0] }
/-- `BUP_EVENT.FULL`, bits [5:5]. -/
def BUP_EVENT_FULL : Fld :=
  { blk := 23, reg := 0x8, lo := 5, w := 1, ty := w1c, dom := die, rst := [0] }
/-- `BUP_EVENT.EPOCH1_FAIL`, bits [4:4]. -/
def BUP_EVENT_EPOCH1_FAIL : Fld :=
  { blk := 23, reg := 0x8, lo := 4, w := 1, ty := w1c, dom := die, rst := [0] }
/-- `BUP_EVENT.NO_PEER`, bits [3:3]. -/
def BUP_EVENT_NO_PEER : Fld :=
  { blk := 23, reg := 0x8, lo := 3, w := 1, ty := w1c, dom := die, rst := [0] }
/-- `BUP_EVENT.INCOMPATIBLE`, bits [2:2]. -/
def BUP_EVENT_INCOMPATIBLE : Fld :=
  { blk := 23, reg := 0x8, lo := 2, w := 1, ty := w1c, dom := die, rst := [0] }
/-- `BUP_EVENT.MULTI`, bits [1:1]. -/
def BUP_EVENT_MULTI : Fld :=
  { blk := 23, reg := 0x8, lo := 1, w := 1, ty := w1c, dom := die, rst := [0] }
/-- `BUP_EVENT.CHOSEN`, bits [0:0]. -/
def BUP_EVENT_CHOSEN : Fld :=
  { blk := 23, reg := 0x8, lo := 0, w := 1, ty := w1c, dom := die, rst := [0] }
/-- `BUP_EVENT_MASK.ENABLE`, bits [5:0]. -/
def BUP_EVENT_MASK_ENABLE : Fld :=
  { blk := 23, reg := 0xC, lo := 0, w := 6, ty := rw, dom := die, rst := [62] }
/-- `BUP_NODE_ID_LO.NODE_ID`, bits [31:0]. -/
def BUP_NODE_ID_LO_NODE_ID : Fld :=
  { blk := 23, reg := 0x10, lo := 0, w := 32, ty := rw, dom := pkg, rst := [0] }
/-- `BUP_NODE_ID_HI.NODE_ID`, bits [31:0]. -/
def BUP_NODE_ID_HI_NODE_ID : Fld :=
  { blk := 23, reg := 0x14, lo := 0, w := 32, ty := rw, dom := pkg, rst := [0] }
/-- `BUP_CAIRN_CTRL.RESTART`, bits [31:31]. -/
def BUP_CAIRN_CTRL_RESTART : Fld :=
  { blk := 23, reg := 0x20, lo := 31, w := 1, ty := wo, dom := die, rst := [0] }
/-- `BUP_CAIRN_CTRL.DWELL`, bits [23:16]. -/
def BUP_CAIRN_CTRL_DWELL : Fld :=
  { blk := 23, reg := 0x20, lo := 16, w := 8, ty := rw, dom := die, rst := [16] }
/-- `BUP_CAIRN_CTRL.DET_TH`, bits [15:8]. -/
def BUP_CAIRN_CTRL_DET_TH : Fld :=
  { blk := 23, reg := 0x20, lo := 8, w := 8, ty := rw, dom := die, rst := [128] }
/-- `BUP_CAIRN_CTRL.CAPTURE`, bits [7:0]. -/
def BUP_CAIRN_CTRL_CAPTURE : Fld :=
  { blk := 23, reg := 0x20, lo := 0, w := 8, ty := rw, dom := die, rst := [12] }
/-- `BUP_PEER_SEL_LO.NODE_ID`, bits [31:0]. -/
def BUP_PEER_SEL_LO_NODE_ID : Fld :=
  { blk := 23, reg := 0x24, lo := 0, w := 32, ty := rw, dom := pkg, rst := [0] }
/-- `BUP_PEER_SEL_HI.NODE_ID`, bits [31:0]. -/
def BUP_PEER_SEL_HI_NODE_ID : Fld :=
  { blk := 23, reg := 0x28, lo := 0, w := 32, ty := rw, dom := pkg, rst := [0] }
/-- `BUP_CAIRN_STATUS.MUTUAL`, bits [11:11]. -/
def BUP_CAIRN_STATUS_MUTUAL : Fld :=
  { blk := 23, reg := 0x2C, lo := 11, w := 1, ty := ro, dom := die, rst := [0] }
/-- `BUP_CAIRN_STATUS.CHOSEN_VALID`, bits [10:10]. -/
def BUP_CAIRN_STATUS_CHOSEN_VALID : Fld :=
  { blk := 23, reg := 0x2C, lo := 10, w := 1, ty := ro, dom := die, rst := [0] }
/-- `BUP_CAIRN_STATUS.CHOSEN`, bits [9:7]. -/
def BUP_CAIRN_STATUS_CHOSEN : Fld :=
  { blk := 23, reg := 0x2C, lo := 7, w := 3, ty := ro, dom := die, rst := [0] }
/-- `BUP_CAIRN_STATUS.PEERS`, bits [6:3]. -/
def BUP_CAIRN_STATUS_PEERS : Fld :=
  { blk := 23, reg := 0x2C, lo := 3, w := 4, ty := ro, dom := die, rst := [0] }
/-- `BUP_CAIRN_STATUS.STATE`, bits [2:0]. -/
def BUP_CAIRN_STATUS_STATE : Fld :=
  { blk := 23, reg := 0x2C, lo := 0, w := 3, ty := ro, dom := die, rst := [0] }
/-- `BUP_CAIRN_CNT_k.COUNT`, bits [31:0]. -/
def BUP_CAIRN_CNT_COUNT : Fld :=
  { blk := 23, reg := 0x40, lo := 0, w := 32, ty := rc, dom := blk, rst := [0] }
/-- `BUP_PEER_k.NODE_ID`, bits [31:0]. -/
def BUP_PEER_LO_NODE_ID : Fld :=
  { blk := 23, reg := 0x100, lo := 0, w := 32, ty := ro, dom := die, rst := [0] }
/-- `BUP_PEER_k.NODE_ID`, bits [31:0]. -/
def BUP_PEER_HI_NODE_ID : Fld :=
  { blk := 23, reg := 0x104, lo := 0, w := 32, ty := ro, dom := die, rst := [0] }
/-- `BUP_PEER_INFO_k.VALID`, bits [31:31]. -/
def BUP_PEER_INFO_VALID : Fld :=
  { blk := 23, reg := 0x108, lo := 31, w := 1, ty := ro, dom := die, rst := [0] }
/-- `BUP_PEER_INFO_k.COMPATIBLE`, bits [30:30]. -/
def BUP_PEER_INFO_COMPATIBLE : Fld :=
  { blk := 23, reg := 0x108, lo := 30, w := 1, ty := ro, dom := die, rst := [0] }
/-- `BUP_PEER_INFO_k.TEAM`, bits [23:16]. -/
def BUP_PEER_INFO_TEAM : Fld :=
  { blk := 23, reg := 0x108, lo := 16, w := 8, ty := ro, dom := die, rst := [0] }
/-- `BUP_PEER_INFO_k.HEARD`, bits [15:8]. -/
def BUP_PEER_INFO_HEARD : Fld :=
  { blk := 23, reg := 0x108, lo := 8, w := 8, ty := ro, dom := die, rst := [0] }
/-- `BUP_PEER_INFO_k.POWER`, bits [7:0]. -/
def BUP_PEER_INFO_POWER : Fld :=
  { blk := 23, reg := 0x108, lo := 0, w := 8, ty := ro, dom := die, rst := [0] }
/-- `FLT_LOG_CTRL.STOP_WHEN_FULL`, bits [1:1]. -/
def FLT_LOG_CTRL_STOP_WHEN_FULL : Fld :=
  { blk := 24, reg := 0x4, lo := 1, w := 1, ty := rw, dom := por, rst := [0] }
/-- `FLT_LOG_CTRL.CLEAR`, bits [0:0]. -/
def FLT_LOG_CTRL_CLEAR : Fld :=
  { blk := 24, reg := 0x4, lo := 0, w := 1, ty := wo, dom := por, rst := [0] }
/-- `FLT_EVENT.RETIRED`, bits [2:2]. -/
def FLT_EVENT_RETIRED : Fld :=
  { blk := 24, reg := 0x8, lo := 2, w := 1, ty := w1c, dom := die, rst := [0] }
/-- `FLT_EVENT.PERMANENT`, bits [1:1]. -/
def FLT_EVENT_PERMANENT : Fld :=
  { blk := 24, reg := 0x8, lo := 1, w := 1, ty := w1c, dom := die, rst := [0] }
/-- `FLT_EVENT.LOGGED`, bits [0:0]. -/
def FLT_EVENT_LOGGED : Fld :=
  { blk := 24, reg := 0x8, lo := 0, w := 1, ty := w1c, dom := die, rst := [0] }
/-- `FLT_EVENT_MASK.ENABLE`, bits [2:0]. -/
def FLT_EVENT_MASK_ENABLE : Fld :=
  { blk := 24, reg := 0xC, lo := 0, w := 3, ty := rw, dom := die, rst := [6] }
/-- `FLT_LOG_STATUS.OVERWRITES`, bits [31:16]. -/
def FLT_LOG_STATUS_OVERWRITES : Fld :=
  { blk := 24, reg := 0x10, lo := 16, w := 16, ty := ro, dom := por, rst := [0] }
/-- `FLT_LOG_STATUS.NEXT`, bits [13:8]. -/
def FLT_LOG_STATUS_NEXT : Fld :=
  { blk := 24, reg := 0x10, lo := 8, w := 6, ty := ro, dom := por, rst := [0] }
/-- `FLT_LOG_STATUS.FULL`, bits [7:7]. -/
def FLT_LOG_STATUS_FULL : Fld :=
  { blk := 24, reg := 0x10, lo := 7, w := 1, ty := ro, dom := por, rst := [0] }
/-- `FLT_LOG_STATUS.COUNT`, bits [6:0]. -/
def FLT_LOG_STATUS_COUNT : Fld :=
  { blk := 24, reg := 0x10, lo := 0, w := 7, ty := ro, dom := por, rst := [0] }
/-- `FLT_RETRY_CFG_v.COUNT`, bits [23:16]. -/
def FLT_RETRY_CFG_COUNT : Fld :=
  { blk := 24, reg := 0x20, lo := 16, w := 8, ty := rw, dom := pkg, rst := [4, 3, 3, 2] }
/-- `FLT_RETRY_CFG_v.WINDOW`, bits [15:0]. -/
def FLT_RETRY_CFG_WINDOW : Fld :=
  { blk := 24, reg := 0x20, lo := 0, w := 16, ty := rw, dom := pkg, rst := [1, 10, 10, 60] }
/-- `FLT_RETIRED.DIE`, bits [31:31]. -/
def FLT_RETIRED_DIE : Fld :=
  { blk := 24, reg := 0x40, lo := 31, w := 1, ty := rws, dom := pkg, rst := [0] }
/-- `FLT_RETIRED.LANE`, bits [23:16]. -/
def FLT_RETIRED_LANE : Fld :=
  { blk := 24, reg := 0x40, lo := 16, w := 8, ty := ro, dom := pkg, rst := [0] }
/-- `FLT_RETIRED.TX_ARM`, bits [15:8]. -/
def FLT_RETIRED_TX_ARM : Fld :=
  { blk := 24, reg := 0x40, lo := 8, w := 8, ty := ro, dom := pkg, rst := [0] }
/-- `FLT_RETIRED.RX_ARM`, bits [7:0]. -/
def FLT_RETIRED_RX_ARM : Fld :=
  { blk := 24, reg := 0x40, lo := 0, w := 8, ty := ro, dom := pkg, rst := [0] }
/-- `FLT_LOG_ENTRY_k.WORD`, bits [31:0]. -/
def FLT_LOG_ENTRY0_WORD : Fld :=
  { blk := 24, reg := 0x100, lo := 0, w := 32, ty := ro, dom := por, rst := [0] }
/-- `FLT_LOG_ENTRY_k.WORD`, bits [31:0]. -/
def FLT_LOG_ENTRY1_WORD : Fld :=
  { blk := 24, reg := 0x104, lo := 0, w := 32, ty := ro, dom := por, rst := [0] }
/-- `FLT_LOG_ENTRY_k.WORD`, bits [31:0]. -/
def FLT_LOG_ENTRY2_WORD : Fld :=
  { blk := 24, reg := 0x108, lo := 0, w := 32, ty := ro, dom := por, rst := [0] }
/-- `FLT_LOG_ENTRY_k.WORD`, bits [31:0]. -/
def FLT_LOG_ENTRY3_WORD : Fld :=
  { blk := 24, reg := 0x10C, lo := 0, w := 32, ty := ro, dom := por, rst := [0] }
/-! ### Registers of spec/17_package_pins_electrical.md -/

/-- `PKG_JTAG_CTRL.LOCK`, bits [0:0]. -/
def PKG_JTAG_CTRL_LOCK : Fld :=
  { blk := 26, reg := 0x300, lo := 0, w := 1, ty := rw, dom := por, rst := [0] }
/-- `PKG_DIE_SUPPLY.IO_LOW`, bits [20:20]. -/
def PKG_DIE_SUPPLY_IO_LOW : Fld :=
  { blk := 0, reg := 0x40, lo := 20, w := 1, ty := w1c, dom := por, rst := [0] }
/-- `PKG_DIE_SUPPLY.HL_LOW`, bits [19:19]. -/
def PKG_DIE_SUPPLY_HL_LOW : Fld :=
  { blk := 0, reg := 0x40, lo := 19, w := 1, ty := w1c, dom := por, rst := [0] }
/-- `PKG_DIE_SUPPLY.CNV_LOW`, bits [18:18]. -/
def PKG_DIE_SUPPLY_CNV_LOW : Fld :=
  { blk := 0, reg := 0x40, lo := 18, w := 1, ty := w1c, dom := por, rst := [0] }
/-- `PKG_DIE_SUPPLY.RET_LOW`, bits [17:17]. -/
def PKG_DIE_SUPPLY_RET_LOW : Fld :=
  { blk := 0, reg := 0x40, lo := 17, w := 1, ty := w1c, dom := por, rst := [0] }
/-- `PKG_DIE_SUPPLY.CORE_LOW`, bits [16:16]. -/
def PKG_DIE_SUPPLY_CORE_LOW : Fld :=
  { blk := 0, reg := 0x40, lo := 16, w := 1, ty := w1c, dom := por, rst := [0] }
/-- `PKG_DIE_SUPPLY.IO_OK`, bits [4:4]. -/
def PKG_DIE_SUPPLY_IO_OK : Fld :=
  { blk := 0, reg := 0x40, lo := 4, w := 1, ty := ro, dom := por, rst := [0] }
/-- `PKG_DIE_SUPPLY.HL_OK`, bits [3:3]. -/
def PKG_DIE_SUPPLY_HL_OK : Fld :=
  { blk := 0, reg := 0x40, lo := 3, w := 1, ty := ro, dom := por, rst := [0] }
/-- `PKG_DIE_SUPPLY.CNV_OK`, bits [2:2]. -/
def PKG_DIE_SUPPLY_CNV_OK : Fld :=
  { blk := 0, reg := 0x40, lo := 2, w := 1, ty := ro, dom := por, rst := [0] }
/-- `PKG_DIE_SUPPLY.RET_OK`, bits [1:1]. -/
def PKG_DIE_SUPPLY_RET_OK : Fld :=
  { blk := 0, reg := 0x40, lo := 1, w := 1, ty := ro, dom := por, rst := [0] }
/-- `PKG_DIE_SUPPLY.CORE_OK`, bits [0:0]. -/
def PKG_DIE_SUPPLY_CORE_OK : Fld :=
  { blk := 0, reg := 0x40, lo := 0, w := 1, ty := ro, dom := por, rst := [0] }
/-- `PKG_GPIO_DIR.OUT_EN`, bits [15:0]. -/
def PKG_GPIO_DIR_OUT_EN : Fld :=
  { blk := 26, reg := 0x310, lo := 0, w := 16, ty := rw, dom := pkg, rst := [0] }
/-- `PKG_GPIO_OUT.VALUE`, bits [15:0]. -/
def PKG_GPIO_OUT_VALUE : Fld :=
  { blk := 26, reg := 0x314, lo := 0, w := 16, ty := rw, dom := pkg, rst := [0] }
/-- `PKG_GPIO_IN.LEVEL`, bits [15:0]. -/
def PKG_GPIO_IN_LEVEL : Fld :=
  { blk := 26, reg := 0x318, lo := 0, w := 16, ty := ro, dom := pkg, rst := [0] }
/-- `PKG_GPIO_EDGE.FALL`, bits [31:16]. -/
def PKG_GPIO_EDGE_FALL : Fld :=
  { blk := 26, reg := 0x31C, lo := 16, w := 16, ty := rw, dom := pkg, rst := [0] }
/-- `PKG_GPIO_EDGE.RISE`, bits [15:0]. -/
def PKG_GPIO_EDGE_RISE : Fld :=
  { blk := 26, reg := 0x31C, lo := 0, w := 16, ty := rw, dom := pkg, rst := [0] }
/-- `PKG_GPIO_EVENT.FALL`, bits [31:16]. -/
def PKG_GPIO_EVENT_FALL : Fld :=
  { blk := 26, reg := 0x320, lo := 16, w := 16, ty := w1c, dom := pkg, rst := [0] }
/-- `PKG_GPIO_EVENT.RISE`, bits [15:0]. -/
def PKG_GPIO_EVENT_RISE : Fld :=
  { blk := 26, reg := 0x320, lo := 0, w := 16, ty := w1c, dom := pkg, rst := [0] }
/-- `PKG_GPIO_EVENT_MASK.ENABLE`, bits [31:0]. -/
def PKG_GPIO_EVENT_MASK_ENABLE : Fld :=
  { blk := 26, reg := 0x324, lo := 0, w := 32, ty := rw, dom := pkg, rst := [0] }

/-- The registers of block 0 (Pkg), in the spec's order. -/
def regsPkg : List Reg :=
  [
    { reg := 0x0, stride := 0, count := 1, flds := [PKG_DIE_INFO_FAMILY, PKG_DIE_INFO_REV_MAJOR, PKG_DIE_INFO_REV_MINOR, PKG_DIE_INFO_DIE_INDEX] },
    { reg := 0x10, stride := 0, count := 1, flds := [PKG_DIE_ADDR_ERR_IN_RESET, PKG_DIE_ADDR_ERR_UNALIGNED, PKG_DIE_ADDR_ERR_UNMAPPED] },
    { reg := 0x14, stride := 0, count := 1, flds := [PKG_DIE_ADDR_ERR_ADDR_ADDRESS] },
    { reg := 0x20, stride := 0, count := 1, flds := [PKG_DIE_IRQ_STATUS_BLOCK] },
    { reg := 0x24, stride := 0, count := 1, flds := [PKG_DIE_IRQ_MASK_ENABLE] },
    { reg := 0x28, stride := 0, count := 1, flds := [PKG_DIE_STATUS_QUARANTINED, PKG_DIE_STATUS_IS_STANDBY, PKG_DIE_STATUS_IS_CROWN, PKG_DIE_STATUS_RING_CCW_OK, PKG_DIE_STATUS_RING_CW_OK, PKG_DIE_STATUS_CROWN_STUCK] },
    { reg := 0x40, stride := 0, count := 1, flds := [PKG_DIE_SUPPLY_IO_LOW, PKG_DIE_SUPPLY_HL_LOW, PKG_DIE_SUPPLY_CNV_LOW, PKG_DIE_SUPPLY_RET_LOW, PKG_DIE_SUPPLY_CORE_LOW, PKG_DIE_SUPPLY_IO_OK, PKG_DIE_SUPPLY_HL_OK, PKG_DIE_SUPPLY_CNV_OK, PKG_DIE_SUPPLY_RET_OK, PKG_DIE_SUPPLY_CORE_OK] } ]

/-- The registers of block 1 (Img), in the spec's order. -/
def regsImg : List Reg :=
  [
    { reg := 0x0, stride := 0, count := 1, flds := [IMG_STATUS_OTP_ROLLBACK, IMG_STATUS_ROLLBACK, IMG_STATUS_FAIL_REASON, IMG_STATUS_GOLDEN_FAIL, IMG_STATUS_UPDATE_FAIL, IMG_STATUS_UNSECURED, IMG_STATUS_SOURCE, IMG_STATUS_STATE] },
    { reg := 0x8, stride := 0, count := 1, flds := [IMG_DIGEST_LO_DIGEST] },
    { reg := 0xC, stride := 0, count := 1, flds := [IMG_DIGEST_HI_DIGEST] },
    { reg := 0x10, stride := 0, count := 1, flds := [IMG_LOAD_CTRL_GO, IMG_LOAD_CTRL_SOURCE_SEL] },
    { reg := 0x20, stride := 0, count := 1, flds := [IMG_FLASH_ADDR_ADDRESS] },
    { reg := 0x24, stride := 0, count := 1, flds := [IMG_FLASH_DATA_DATA] },
    { reg := 0x28, stride := 0, count := 1, flds := [IMG_FLASH_CMD_ERR, IMG_FLASH_CMD_BUSY, IMG_FLASH_CMD_CMD] },
    { reg := 0x30, stride := 0, count := 1, flds := [IMG_OTP_DATA_DATA] },
    { reg := 0x34, stride := 0, count := 1, flds := [IMG_OTP_CTRL_WORDS, IMG_OTP_CTRL_PROGRAMMED, IMG_OTP_CTRL_ERR, IMG_OTP_CTRL_DONE, IMG_OTP_CTRL_PROGRAM, IMG_OTP_CTRL_ITEM] },
    { reg := 0x3C, stride := 0, count := 1, flds := [IMG_ROLLBACK_ADV_VALUE] },
    { reg := 0x100, stride := 0, count := 1, flds := [IMG_TXN_CTRL_ROLLBACK, IMG_TXN_CTRL_ABORT, IMG_TXN_CTRL_COMMIT, IMG_TXN_CTRL_LEAD] },
    { reg := 0x104, stride := 0, count := 1, flds := [IMG_TXN_STATUS_SPLIT, IMG_TXN_STATUS_ABORT_IGNORED, IMG_TXN_STATUS_REFUSE_DIE, IMG_TXN_STATUS_REASON, IMG_TXN_STATUS_RESULT, IMG_TXN_STATUS_STATE] },
    { reg := 0x108, stride := 0, count := 1, flds := [IMG_EPOCH_EPOCH] },
    { reg := 0x10C, stride := 0, count := 1, flds := [IMG_TXN_MF_MF] },
    { reg := 0x110, stride := 0, count := 1, flds := [IMG_SHADOW_VALID, IMG_SHADOW_REMAINING] },
    { reg := 0x200, stride := 0, count := 1, flds := [IMG_STAGE_CTRL_DISCARD] },
    { reg := 0x204, stride := 0, count := 1, flds := [IMG_DIE_STATUS_BLOCK_RETIRED, IMG_DIE_STATUS_LAST_REASON, IMG_DIE_STATUS_IN_DOUBT, IMG_DIE_STATUS_PENDING, IMG_DIE_STATUS_DIRTY] },
    { reg := 0x380, stride := 0, count := 1, flds := [IMG_CELL_SPARES_POLY, IMG_CELL_SPARES_LDPC, IMG_CELL_SPARES_MAPPER, IMG_CELL_SPARES_CORDIC, IMG_CELL_SPARES_MAC, IMG_CELL_SPARES_FFT] },
    { reg := 0x400, stride := 4, count := 32, flds := [IMG_CELL_REMAP_VALID, IMG_CELL_REMAP_TYPE, IMG_CELL_REMAP_FAILED, IMG_CELL_REMAP_SPARE] } ]

/-- The registers of block 2 (Cnv), in the spec's order. -/
def regsCnv : List Reg :=
  [
    { reg := 0x0, stride := 0, count := 1, flds := [CNV_CTRL_SENSE_EN, CNV_CTRL_DAC_EN, CNV_CTRL_ADC_EN] },
    { reg := 0x4, stride := 0, count := 1, flds := [CNV_STATUS_FG_ACTIVE, CNV_STATUS_FINE_SLEWING, CNV_STATUS_SYNTH_STANDBY, CNV_STATUS_SOURCE, CNV_STATUS_SCLK_LOCK] },
    { reg := 0x8, stride := 0, count := 1, flds := [CNV_EVENT_SCLK_MISMATCH, CNV_EVENT_CLIP, CNV_EVENT_SWITCH_ERR, CNV_EVENT_CLAMP, CNV_EVENT_SCLK_SWITCH, CNV_EVENT_SCLK_LOST] },
    { reg := 0xC, stride := 0, count := 1, flds := [CNV_EVENT_MASK_ENABLE] },
    { reg := 0x10, stride := 0, count := 1, flds := [CNV_SCLK_CTRL_SOURCE] },
    { reg := 0x20, stride := 0, count := 1, flds := [CNV_COEF_CTRL_WR_ERR, CNV_COEF_CTRL_OWNER, CNV_COEF_CTRL_COPY_BACK, CNV_COEF_CTRL_SWITCH_PENDING, CNV_COEF_CTRL_SWITCH, CNV_COEF_CTRL_ACTIVE_SET] },
    { reg := 0x30, stride := 0, count := 1, flds := [CNV_RX_DELAY_FINE, CNV_RX_DELAY_WHOLE] },
    { reg := 0x34, stride := 0, count := 1, flds := [CNV_TX_DELAY_FINE, CNV_TX_DELAY_WHOLE] },
    { reg := 0x38, stride := 0, count := 1, flds := [CNV_RX_PATH_SKEW_YQ, CNV_RX_PATH_SKEW_YI, CNV_RX_PATH_SKEW_XQ, CNV_RX_PATH_SKEW_XI] },
    { reg := 0x3C, stride := 0, count := 1, flds := [CNV_TX_PATH_SKEW_YQ, CNV_TX_PATH_SKEW_YI, CNV_TX_PATH_SKEW_XQ, CNV_TX_PATH_SKEW_XI] },
    { reg := 0x40, stride := 4, count := 4, flds := [CNV_CLIP_COUNT_COUNT] } ]

/-- The registers of block 3 (Cal), in the spec's order. -/
def regsCal : List Reg :=
  [
    { reg := 0x0, stride := 0, count := 1, flds := [CAL_CTRL_FG_RETRIES, CAL_CTRL_TX_SEAM_EN, CAL_CTRL_SEAM_EN, CAL_CTRL_BG_DAC_EN, CAL_CTRL_BG_ADC_EN, CAL_CTRL_FG_SCOPE, CAL_CTRL_FG_START] },
    { reg := 0x4, stride := 0, count := 1, flds := [CAL_STATUS_REJOIN_OK_HI, CAL_STATUS_REJOIN_OK_LO, CAL_STATUS_SEAM_HI_STATE, CAL_STATUS_SEAM_LO_STATE, CAL_STATUS_BG_CONVERGED, CAL_STATUS_FG_STATE] },
    { reg := 0x8, stride := 0, count := 1, flds := [CAL_EVENT_VERIFY_FAIL, CAL_EVENT_LIMIT_BAD, CAL_EVENT_REC_REFUSED, CAL_EVENT_REC_RESTORED, CAL_EVENT_REC_SAVED, CAL_EVENT_TRIM_LIMIT, CAL_EVENT_SKEW_ALARM, CAL_EVENT_SUB_FAIL, CAL_EVENT_REJECT, CAL_EVENT_FG_FAIL, CAL_EVENT_FG_DONE] },
    { reg := 0xC, stride := 0, count := 1, flds := [CAL_EVENT_MASK_ENABLE] },
    { reg := 0x10, stride := 0, count := 1, flds := [CAL_REJECTS_COUNT] },
    { reg := 0x14, stride := 0, count := 1, flds := [CAL_FAIL_WHERE_TERM, CAL_FAIL_WHERE_KIND, CAL_FAIL_WHERE_CONVERTER, CAL_FAIL_WHERE_SUB] },
    { reg := 0x20, stride := 0, count := 1, flds := [CAL_LIMITS_0_BW, CAL_LIMITS_0_SKEW, CAL_LIMITS_0_GAIN, CAL_LIMITS_0_ADC_OFFSET] },
    { reg := 0x24, stride := 0, count := 1, flds := [CAL_LIMITS_1_DAC_OFFSET, CAL_LIMITS_1_REJOIN, CAL_LIMITS_1_SEAM_ALARM, CAL_LIMITS_1_SEAM_PLAUS] },
    { reg := 0x30, stride := 0, count := 1, flds := [CAL_SEAM_CTRL_HOLD, CAL_SEAM_CTRL_TX_LIMIT, CAL_SEAM_CTRL_STEP, CAL_SEAM_CTRL_GAIN_SHIFT] },
    { reg := 0x34, stride := 0, count := 1, flds := [CAL_SEAM_LO_VALID, CAL_SEAM_LO_RHO, CAL_SEAM_LO_TAU] },
    { reg := 0x38, stride := 0, count := 1, flds := [CAL_SEAM_HI_VALID, CAL_SEAM_HI_RHO, CAL_SEAM_HI_TAU] },
    { reg := 0x3C, stride := 0, count := 1, flds := [CAL_TX_SEAM_LO_VALID, CAL_TX_SEAM_LO_TAU] },
    { reg := 0x50, stride := 0, count := 1, flds := [CAL_DIE_ID_LO_ID] },
    { reg := 0x54, stride := 0, count := 1, flds := [CAL_DIE_ID_HI_ID] },
    { reg := 0x60, stride := 0, count := 1, flds := [CAL_REC_CTRL_REASON, CAL_REC_CTRL_RESULT, CAL_REC_CTRL_BUSY, CAL_REC_CTRL_RESTORE, CAL_REC_CTRL_SAVE] } ]

/-- The registers of block 4 (Rxd), in the spec's order. -/
def regsRxd : List Reg :=
  [
    { reg := 0x0, stride := 0, count := 1, flds := [RXD_CTRL_FREEZE, RXD_CTRL_SC_EN] },
    { reg := 0x8, stride := 0, count := 1, flds := [RXD_EVENT_Q_UPDATE, RXD_EVENT_FREQ_LIMIT, RXD_EVENT_LOCK_LOST, RXD_EVENT_SLIP, RXD_EVENT_ACQ_FAIL] },
    { reg := 0xC, stride := 0, count := 1, flds := [RXD_EVENT_MASK_ENABLE] },
    { reg := 0x10, stride := 0, count := 1, flds := [RXD_DFE_CTRL_DC_EN, RXD_DFE_CTRL_SKEW_AUTO, RXD_DFE_CTRL_IQ_AUTO] },
    { reg := 0x14, stride := 0, count := 1, flds := [RXD_DFE_IQ_Y_PHASE, RXD_DFE_IQ_Y_GAIN, RXD_DFE_IQ_X_PHASE, RXD_DFE_IQ_X_GAIN] },
    { reg := 0x18, stride := 0, count := 1, flds := [RXD_DFE_SKEW_YQ, RXD_DFE_SKEW_YI, RXD_DFE_SKEW_XQ, RXD_DFE_SKEW_XI] },
    { reg := 0x20, stride := 0, count := 1, flds := [RXD_FREQ_CTRL_HOLD, RXD_FREQ_CTRL_LOOP_SHIFT] },
    { reg := 0x24, stride := 0, count := 1, flds := [RXD_FREQ_STATUS_FROM_LEAD, RXD_FREQ_STATUS_LOCKED, RXD_FREQ_STATUS_OFFSET] },
    { reg := 0x28, stride := 0, count := 1, flds := [RXD_CD_CTRL_PRESET_EN, RXD_CD_CTRL_SCAN_NARROW, RXD_CD_CTRL_PRESET] },
    { reg := 0x2C, stride := 0, count := 1, flds := [RXD_CARRIER_FREQ_FREQ] },
    { reg := 0x30, stride := 0, count := 1, flds := [RXD_JOINT_CTRL_OFS_SHIFT, RXD_JOINT_CTRL_SPAN] },
    { reg := 0x34, stride := 0, count := 1, flds := [RXD_Q_CTRL_SNR_TR, RXD_Q_CTRL_AVG] },
    { reg := 0x38, stride := 0, count := 1, flds := [RXD_Q_STATUS_SEQ] },
    { reg := 0x3C, stride := 0, count := 1, flds := [RXD_Q_OSNR_DIE_OSNR] },
    { reg := 0x400, stride := 64, count := 8, flds := [RXD_SC_CFG_PILOT_WIN, RXD_SC_CFG_BPS_HALFWIN, RXD_SC_CFG_BPS_PHASES, RXD_SC_CFG_CR_MODE, RXD_SC_CFG_JOINT_EN, RXD_SC_CFG_MU_SHIFT, RXD_SC_CFG_TRAIN_SHIFT, RXD_SC_CFG_DD_EN, RXD_SC_CFG_OVERLAP] },
    { reg := 0x404, stride := 64, count := 8, flds := [RXD_SC_STATUS_TRAIN_COUNT, RXD_SC_STATUS_JOINT_UNITS, RXD_SC_STATUS_Q_MIXED, RXD_SC_STATUS_COMBINED, RXD_SC_STATUS_EXPRESS, RXD_SC_STATUS_STATE] },
    { reg := 0x410, stride := 64, count := 8, flds := [RXD_Q_SNR_Y, RXD_Q_SNR_X] },
    { reg := 0x414, stride := 64, count := 8, flds := [RXD_Q_SNR_TOT_EVM, RXD_Q_SNR_TOT_TOTAL] },
    { reg := 0x418, stride := 64, count := 8, flds := [RXD_Q_GMI_PDL, RXD_Q_GMI_GMI] },
    { reg := 0x41C, stride := 64, count := 8, flds := [RXD_Q_BER_EXP, RXD_Q_BER_MANT] },
    { reg := 0x420, stride := 64, count := 8, flds := [RXD_Q_CD_CD] },
    { reg := 0x424, stride := 64, count := 8, flds := [RXD_Q_DGD_OSNR, RXD_Q_DGD_DGD] },
    { reg := 0x428, stride := 64, count := 8, flds := [RXD_Q_CLK_OFFSET] },
    { reg := 0x42C, stride := 64, count := 8, flds := [RXD_SLIPS_COUNT] } ]

/-- The registers of block 5 (Txd), in the spec's order. -/
def regsTxd : List Reg :=
  [
    { reg := 0x0, stride := 0, count := 1, flds := [TXD_CTRL_PILOT_BOOST, TXD_CTRL_SC_EN] },
    { reg := 0x8, stride := 0, count := 1, flds := [TXD_EVENT_TRIM_SLEW, TXD_EVENT_LUT_SWITCH_ERR, TXD_EVENT_CLIP, TXD_EVENT_TX_LATE] },
    { reg := 0xC, stride := 0, count := 1, flds := [TXD_EVENT_MASK_ENABLE] },
    { reg := 0x10, stride := 0, count := 1, flds := [TXD_LEVEL_APPLIED, TXD_LEVEL_LEVEL] },
    { reg := 0x14, stride := 0, count := 1, flds := [TXD_FREQ_TRIM_APPLIED, TXD_FREQ_TRIM_TRIM] },
    { reg := 0x18, stride := 0, count := 1, flds := [TXD_SKEW_YQ, TXD_SKEW_YI, TXD_SKEW_XQ, TXD_SKEW_XI] },
    { reg := 0x1C, stride := 0, count := 1, flds := [TXD_IQ_Y_PHASE, TXD_IQ_Y_GAIN, TXD_IQ_X_PHASE, TXD_IQ_X_GAIN] },
    { reg := 0x20, stride := 0, count := 1, flds := [TXD_XY_BAL_BAL] },
    { reg := 0x30, stride := 0, count := 1, flds := [TXD_LUT_CTRL_BYPASS, TXD_LUT_CTRL_WR_ERR, TXD_LUT_CTRL_OWNER, TXD_LUT_CTRL_COPY_BACK, TXD_LUT_CTRL_SWITCH_PENDING, TXD_LUT_CTRL_SWITCH, TXD_LUT_CTRL_ACTIVE_SET] },
    { reg := 0x40, stride := 4, count := 4, flds := [TXD_CLIP_COUNT_COUNT] },
    { reg := 0x400, stride := 64, count := 8, flds := [TXD_SC_CFG_CONST, TXD_SC_CFG_CLASS, TXD_SC_CFG_ROLLOFF, TXD_SC_CFG_H] },
    { reg := 0x404, stride := 64, count := 8, flds := [TXD_SC_TILT_APPLIED, TXD_SC_TILT_TILT] },
    { reg := 0x408, stride := 64, count := 8, flds := [TXD_SC_STATUS_CONST, TXD_SC_STATUS_BYPASSED, TXD_SC_STATUS_STATE] },
    { reg := 0x40C, stride := 64, count := 8, flds := [TXD_SC_RXPLAN_VALID, TXD_SC_RXPLAN_CONST, TXD_SC_RXPLAN_CLASS, TXD_SC_RXPLAN_ROLLOFF, TXD_SC_RXPLAN_H] } ]

/-- The registers of block 6 (Seam), in the spec's order. -/
def regsSeam : List Reg :=
  [
    { reg := 0x0, stride := 0, count := 1, flds := [SEAM_CTRL_RATIO_MAX, SEAM_CTRL_COH_MIN, SEAM_CTRL_NOISE_RATIO, SEAM_CTRL_SMOOTH, SEAM_CTRL_COMB_HI_EN, SEAM_CTRL_COMB_LO_EN] },
    { reg := 0x4, stride := 0, count := 1, flds := [SEAM_STATUS_LINK_HI_OK, SEAM_STATUS_LINK_LO_OK, SEAM_STATUS_HI_STATE, SEAM_STATUS_LO_STATE] },
    { reg := 0x8, stride := 0, count := 1, flds := [SEAM_EVENT_INVALID_HI, SEAM_EVENT_INVALID_LO, SEAM_EVENT_LINK_HI_LOST, SEAM_EVENT_LINK_LO_LOST] },
    { reg := 0xC, stride := 0, count := 1, flds := [SEAM_EVENT_MASK_ENABLE] },
    { reg := 0x10, stride := 0, count := 1, flds := [SEAM_GAIN_HI, SEAM_GAIN_LO] },
    { reg := 0x14, stride := 0, count := 1, flds := [SEAM_TONES_HI, SEAM_TONES_LO] },
    { reg := 0x18, stride := 0, count := 1, flds := [SEAM_LINK_ERR_LO_COUNT] },
    { reg := 0x1C, stride := 0, count := 1, flds := [SEAM_LINK_ERR_HI_COUNT] } ]

/-- The registers of block 7 (Fec), in the spec's order. -/
def regsFec : List Reg :=
  [
    { reg := 0x0, stride := 0, count := 1, flds := [FEC_CTRL_CLUSTER_EN] },
    { reg := 0x8, stride := 0, count := 1, flds := [FEC_EVENT_TABLE_BAD, FEC_EVENT_EXP_FAIL, FEC_EVENT_SKIP, FEC_EVENT_QUEUE_HIGH, FEC_EVENT_PTR_ERR, FEC_EVENT_BCH_FAIL] },
    { reg := 0xC, stride := 0, count := 1, flds := [FEC_EVENT_MASK_ENABLE] },
    { reg := 0x10, stride := 0, count := 1, flds := [FEC_POOL_CTRL_MIN_ITER, FEC_POOL_CTRL_HIGH, FEC_POOL_CTRL_GUARANTEE, FEC_POOL_CTRL_MAX_ITER] },
    { reg := 0x14, stride := 0, count := 1, flds := [FEC_DEC_CTRL_EARLY_STOP_EN, FEC_DEC_CTRL_OFFSET] },
    { reg := 0x18, stride := 0, count := 1, flds := [FEC_POOL_STATUS_AVAILABLE, FEC_POOL_STATUS_EXPRESS, FEC_POOL_STATUS_RETIRED, FEC_POOL_STATUS_FILL] },
    { reg := 0x1C, stride := 0, count := 1, flds := [FEC_SKIPPED_COUNT] },
    { reg := 0x20, stride := 0, count := 1, flds := [FEC_DM_CTRL_AGREE_LLR, FEC_DM_CTRL_LIST] },
    { reg := 0x24, stride := 0, count := 1, flds := [FEC_EXP_CW_COUNT] },
    { reg := 0x28, stride := 0, count := 1, flds := [FEC_EXP_FAIL_COUNT] },
    { reg := 0x2C, stride := 0, count := 1, flds := [FEC_QUEUE_PEAK_PEAK] },
    { reg := 0x40, stride := 4, count := 4, flds := [FEC_TABLE_VALID, FEC_TABLE_CLASS, FEC_TABLE_OUTER, FEC_TABLE_Z_LOG2, FEC_TABLE_ENTRIES, FEC_TABLE_COLUMNS, FEC_TABLE_ROWS] },
    { reg := 0x50, stride := 4, count := 4, flds := [FEC_TABLE_NAME_NAME] },
    { reg := 0xF0, stride := 0, count := 1, flds := [FEC_HIST_CTRL_CLEAR, FEC_HIST_CTRL_SNAP] },
    { reg := 0x100, stride := 4, count := 24, flds := [FEC_ITER_HIST_COUNT] },
    { reg := 0x160, stride := 0, count := 1, flds := [FEC_ITER_HIST_FAIL_COUNT] },
    { reg := 0x400, stride := 64, count := 8, flds := [FEC_SC_CFG_CODE] },
    { reg := 0x404, stride := 64, count := 8, flds := [FEC_SC_STATUS_RX_SYNC, FEC_SC_STATUS_TX_RUN, FEC_SC_STATUS_CODE] },
    { reg := 0x410, stride := 64, count := 8, flds := [FEC_CW_COUNT] },
    { reg := 0x414, stride := 64, count := 8, flds := [FEC_CW_FAIL_COUNT] },
    { reg := 0x418, stride := 64, count := 8, flds := [FEC_FLIPS_COUNT] },
    { reg := 0x41C, stride := 64, count := 8, flds := [FEC_BCH_CORR_COUNT] },
    { reg := 0x420, stride := 64, count := 8, flds := [FEC_BCH_FAIL_COUNT] } ]

/-- The registers of block 8 (Frm), in the spec's order. -/
def regsFrm : List Reg :=
  [
    { reg := 0x0, stride := 0, count := 1, flds := [FRM_CTRL_LOS_TH, FRM_CTRL_HUNT_TH] },
    { reg := 0x4, stride := 0, count := 1, flds := [FRM_STATUS_LOS_RAW, FRM_STATUS_LOS] },
    { reg := 0x8, stride := 0, count := 1, flds := [FRM_EVENT_TT_UPDATE, FRM_EVENT_PLAN_UNKNOWN, FRM_EVENT_PLAN_REVERT, FRM_EVENT_PLAN_REJECT, FRM_EVENT_PLAN_DONE, FRM_EVENT_LOS_CHG, FRM_EVENT_DEF_CHG] },
    { reg := 0xC, stride := 0, count := 1, flds := [FRM_EVENT_MASK_ENABLE] },
    { reg := 0x10, stride := 4, count := 6, flds := [FRM_INTEG_CLEAR, FRM_INTEG_SET] },
    { reg := 0x40, stride := 0, count := 1, flds := [FRM_BDI_TX_BDI] },
    { reg := 0x100, stride := 0, count := 1, flds := [FRM_PLAN_CTRL_AUTO_LEAD, FRM_PLAN_CTRL_PLAN_WAIT] },
    { reg := 0x104, stride := 0, count := 1, flds := [FRM_PLAN_STATUS_STATE, FRM_PLAN_STATUS_REJECT_REASON, FRM_PLAN_STATUS_REJECT_RX, FRM_PLAN_STATUS_LOST_TIE] },
    { reg := 0x108, stride := 0, count := 1, flds := [FRM_PLAN_EPOCH_AGREED] },
    { reg := 0x10C, stride := 0, count := 1, flds := [FRM_PLAN_ACTIVE_EPOCH] },
    { reg := 0x110, stride := 0, count := 1, flds := [FRM_PLAN_FAR_EPOCH] },
    { reg := 0x114, stride := 0, count := 1, flds := [FRM_PLAN_DISP_LO_MASK] },
    { reg := 0x118, stride := 0, count := 1, flds := [FRM_PLAN_DISP_HI_MASK] },
    { reg := 0x200, stride := 0, count := 1, flds := [FRM_TT_CTRL_EN, FRM_TT_CTRL_AUTO_SC, FRM_TT_CTRL_SC, FRM_TT_CTRL_ASYM] },
    { reg := 0x204, stride := 0, count := 1, flds := [FRM_TT_STATUS_VALID, FRM_TT_STATUS_SC, FRM_TT_STATUS_SEQ] },
    { reg := 0x208, stride := 0, count := 1, flds := [FRM_TT_OFS_S_SECONDS] },
    { reg := 0x20C, stride := 0, count := 1, flds := [FRM_TT_OFS_NS_NS] },
    { reg := 0x210, stride := 0, count := 1, flds := [FRM_TT_OFS_FRAC_FRAC] },
    { reg := 0x214, stride := 0, count := 1, flds := [FRM_TT_DELAY_DELAY] },
    { reg := 0x400, stride := 64, count := 8, flds := [FRM_SC_STATUS_REI_LAST, FRM_SC_STATUS_BDI_RX, FRM_SC_STATUS_PT_RX, FRM_SC_STATUS_IDLE, FRM_SC_STATUS_BDI, FRM_SC_STATUS_LOM, FRM_SC_STATUS_LOF, FRM_SC_STATUS_LOL, FRM_SC_STATUS_CANDIDATES, FRM_SC_STATUS_MF, FRM_SC_STATUS_ALIGN] },
    { reg := 0x404, stride := 64, count := 8, flds := [FRM_SBIP_ERR_COUNT] },
    { reg := 0x408, stride := 64, count := 8, flds := [FRM_REI_COUNT] },
    { reg := 0x40C, stride := 64, count := 8, flds := [FRM_OH_ERR_COUNT] },
    { reg := 0x410, stride := 64, count := 8, flds := [FRM_FAS_ERR_COUNT] },
    { reg := 0x414, stride := 64, count := 8, flds := [FRM_OOF_COUNT_COUNT] } ]

/-- The registers of block 10 (Flw), in the spec's order. -/
def regsFlw : List Reg :=
  [
    { reg := 0x8, stride := 0, count := 1, flds := [FLW_EVENT_OVERFLOW, FLW_EVENT_DEF_CHG] },
    { reg := 0xC, stride := 0, count := 1, flds := [FLW_EVENT_MASK_ENABLE] },
    { reg := 0x10, stride := 0, count := 1, flds := [FLW_DEF_INTEG_CLEAR, FLW_DEF_INTEG_SET] },
    { reg := 0x80, stride := 4, count := 16, flds := [FLW_DEF_CHG_FLOW] },
    { reg := 0x1000, stride := 4, count := 192, flds := [FLW_TX_SLOT_VALID, FLW_TX_SLOT_DIE, FLW_TX_SLOT_FLOW] },
    { reg := 0x1400, stride := 4, count := 192, flds := [FLW_RX_SLOT_VALID, FLW_RX_SLOT_DIE, FLW_RX_SLOT_FLOW] },
    { reg := 0x8000, stride := 64, count := 512, flds := [FLW_CFG_TX_EN, FLW_CFG_RX_EN, FLW_CFG_CLASS, FLW_CFG_ENC, FLW_CFG_ERR_ACTION, FLW_CFG_REPLACE, FLW_CFG_FBDI_TX, FLW_CFG_CSF_TX, FLW_CFG_MIN_SLOTS] },
    { reg := 0x8004, stride := 64, count := 512, flds := [FLW_ID_LINE_ID] },
    { reg := 0x8008, stride := 64, count := 512, flds := [FLW_CHK_APPEND, FLW_CHK_POLY, FLW_CHK_SPAN] },
    { reg := 0x800C, stride := 64, count := 512, flds := [FLW_SLOTS_TX, FLW_SLOTS_RX] },
    { reg := 0x8010, stride := 64, count := 512, flds := [FLW_DEF_DECLARED] },
    { reg := 0x8020, stride := 64, count := 512, flds := [FLW_CNT0_COUNT] },
    { reg := 0x8024, stride := 64, count := 512, flds := [FLW_CNT1_COUNT] },
    { reg := 0x8028, stride := 64, count := 512, flds := [FLW_CNT2_COUNT] },
    { reg := 0x802C, stride := 64, count := 512, flds := [FLW_CNT3_COUNT] },
    { reg := 0x8030, stride := 64, count := 512, flds := [FLW_CNT4_COUNT] },
    { reg := 0x8034, stride := 64, count := 512, flds := [FLW_CNT5_COUNT] } ]

/-- The registers of block 11 (Cry), in the spec's order. -/
def regsCry : List Reg :=
  [
    { reg := 0x8, stride := 0, count := 1, flds := [CRY_EVENT_KEY_MISS, CRY_EVENT_LOAD_FAIL, CRY_EVENT_LOAD_DONE] },
    { reg := 0xC, stride := 0, count := 1, flds := [CRY_EVENT_MASK_ENABLE] },
    { reg := 0x20, stride := 4, count := 10, flds := [CRY_KEY_DATA_DATA] },
    { reg := 0x48, stride := 0, count := 1, flds := [CRY_KEY_ID_KEY_ID] },
    { reg := 0x4C, stride := 0, count := 1, flds := [CRY_KEY_CMD_ERASE, CRY_KEY_CMD_LOAD, CRY_KEY_CMD_SLOT, CRY_KEY_CMD_DIR, CRY_KEY_CMD_FLOW] },
    { reg := 0x50, stride := 0, count := 1, flds := [CRY_KEY_STATUS_BUSY, CRY_KEY_STATUS_RESULT] },
    { reg := 0x8000, stride := 32, count := 512, flds := [CRY_FLOW_STATUS_RX_NEXT, CRY_FLOW_STATUS_RX_CURRENT, CRY_FLOW_STATUS_RX_KP, CRY_FLOW_STATUS_RX_ENC, CRY_FLOW_STATUS_TX_NEXT, CRY_FLOW_STATUS_TX_CURRENT, CRY_FLOW_STATUS_TX_KP, CRY_FLOW_STATUS_TX_ENC] },
    { reg := 0x8004, stride := 32, count := 512, flds := [CRY_KCV_TX_KCV] },
    { reg := 0x8008, stride := 32, count := 512, flds := [CRY_KCV_RX_KCV] },
    { reg := 0x800C, stride := 32, count := 512, flds := [CRY_KID_TX_KEY_ID] },
    { reg := 0x8010, stride := 32, count := 512, flds := [CRY_KID_RX_KEY_ID] },
    { reg := 0x8014, stride := 32, count := 512, flds := [CRY_TAG_FAIL_COUNT] },
    { reg := 0x8018, stride := 32, count := 512, flds := [CRY_KEY_MISS_COUNT] } ]

/-- The registers of block 12 (Crc), in the spec's order. -/
def regsCrc : List Reg :=
  [
    { reg := 0x8, stride := 0, count := 1, flds := [CRC_EVENT_TAKE_ERR, CRC_EVENT_UNBOUND, CRC_EVENT_MISMATCH] },
    { reg := 0xC, stride := 0, count := 1, flds := [CRC_EVENT_MASK_ENABLE] },
    { reg := 0x100, stride := 16, count := 64, flds := [CRC_UNIT_CFG_EN, CRC_UNIT_CFG_DIR, CRC_UNIT_CFG_MODE, CRC_UNIT_CFG_POLY, CRC_UNIT_CFG_TAKE, CRC_UNIT_CFG_FROM, CRC_UNIT_CFG_SPAN, CRC_UNIT_CFG_FLOW] },
    { reg := 0x104, stride := 16, count := 64, flds := [CRC_RUNNING_VALUE] },
    { reg := 0x108, stride := 16, count := 64, flds := [CRC_LAST_VALUE] },
    { reg := 0x10C, stride := 16, count := 64, flds := [CRC_MISMATCH_COUNT] } ]

/-- The registers of block 13 (Hln), in the spec's order. -/
def regsHln : List Reg :=
  [
    { reg := 0x8, stride := 0, count := 1, flds := [HLN_EVENT_LANE_DOWN, HLN_EVENT_LANE_UP, HLN_EVENT_GRP_CHG, HLN_EVENT_CFG_ERR, HLN_EVENT_PARTNER_CHG, HLN_EVENT_TS_OVERFLOW, HLN_EVENT_TX_RATE_LIMIT, HLN_EVENT_WAKE_FAIL] },
    { reg := 0xC, stride := 0, count := 1, flds := [HLN_EVENT_MASK_ENABLE] },
    { reg := 0x10, stride := 0, count := 1, flds := [HLN_HELLO_CFG_LOSS, HLN_HELLO_CFG_PERIOD] },
    { reg := 0x20, stride := 0, count := 1, flds := [HLN_TS_CTRL_EN, HLN_TS_CTRL_MARK, HLN_TS_CTRL_UDP6, HLN_TS_CTRL_UDP4, HLN_TS_CTRL_L2] },
    { reg := 0x24, stride := 0, count := 1, flds := [HLN_TS_STATUS_LOST, HLN_TS_STATUS_FILL] },
    { reg := 0x28, stride := 4, count := 4, flds := [HLN_TS_ENTRY_DATA] },
    { reg := 0x100, stride := 32, count := 8, flds := [HLN_LANE_CFG_EN, HLN_LANE_CFG_TX_INV, HLN_LANE_CFG_RX_INV, HLN_LANE_CFG_TRAIN_EN, HLN_LANE_CFG_DEBOUNCE, HLN_LANE_CFG_REF_OUT] },
    { reg := 0x104, stride := 32, count := 8, flds := [HLN_LANE_STATUS_PL_VALID, HLN_LANE_STATUS_PDIE, HLN_LANE_STATUS_PLANE, HLN_LANE_STATUS_STATE] },
    { reg := 0x108, stride := 32, count := 8, flds := [HLN_LANE_FFE_POST1, HLN_LANE_FFE_MAIN, HLN_LANE_FFE_PRE1, HLN_LANE_FFE_PRE2] },
    { reg := 0x10C, stride := 32, count := 8, flds := [HLN_LANE_FEC_CORR_COUNT] },
    { reg := 0x110, stride := 32, count := 8, flds := [HLN_LANE_FEC_UNC_COUNT] },
    { reg := 0x400, stride := 64, count := 8, flds := [HLN_GRP_CFG_EN, HLN_GRP_CFG_MODE, HLN_GRP_CFG_RATE, HLN_GRP_CFG_AUI, HLN_GRP_CFG_LANES, HLN_GRP_CFG_MIN_LANES, HLN_GRP_CFG_GROW_AUTO, HLN_GRP_CFG_SLEEP_EN, HLN_GRP_CFG_TX_TIMING, HLN_GRP_CFG_REFORM, HLN_GRP_CFG_WAKE, HLN_GRP_CFG_FLOW] },
    { reg := 0x404, stride := 64, count := 8, flds := [HLN_GRP_STATUS_ACTIVE, HLN_GRP_STATUS_EPOCH, HLN_GRP_STATUS_PARTNER_VALID, HLN_GRP_STATUS_INPUT_LOST, HLN_GRP_STATUS_RX_DORMANT, HLN_GRP_STATUS_TX_DORMANT, HLN_GRP_STATUS_STATE] },
    { reg := 0x408, stride := 64, count := 8, flds := [HLN_GRP_PARTNER_LO_NODE_ID] },
    { reg := 0x40C, stride := 64, count := 8, flds := [HLN_GRP_PARTNER_HI_NODE_ID] },
    { reg := 0x410, stride := 64, count := 8, flds := [HLN_GRP_PCAP_CAP] },
    { reg := 0x420, stride := 64, count := 8, flds := [HLN_GRP_CNT0_COUNT] },
    { reg := 0x424, stride := 64, count := 8, flds := [HLN_GRP_CNT1_COUNT] },
    { reg := 0x428, stride := 64, count := 8, flds := [HLN_GRP_CNT2_COUNT] },
    { reg := 0x42C, stride := 64, count := 8, flds := [HLN_GRP_CNT3_COUNT] },
    { reg := 0x430, stride := 64, count := 8, flds := [HLN_GRP_CNT4_COUNT] },
    { reg := 0x2000, stride := 4, count := 512, flds := [HLN_FLOW_GRP_VALID, HLN_FLOW_GRP_GROUP] } ]

/-- The registers of block 14 (Eng), in the spec's order. -/
def regsEng : List Reg :=
  [
    { reg := 0x0, stride := 4, count := 2, flds := [ENG_RUN_RUN] },
    { reg := 0x8, stride := 4, count := 2, flds := [ENG_HALTED_HALTED] },
    { reg := 0x10, stride := 0, count := 1, flds := [ENG_CTRL_DMA_EN, ENG_CTRL_TCM_HOST, ENG_CTRL_HALT_ON_TRAP, ENG_CTRL_WDOG_PERIOD] },
    { reg := 0x18, stride := 0, count := 1, flds := [ENG_EVENT_TRAP, ENG_EVENT_WATCHDOG] },
    { reg := 0x1C, stride := 0, count := 1, flds := [ENG_EVENT_MASK_ENABLE] },
    { reg := 0x100, stride := 4, count := 64, flds := [ENG_STATUS_CAUSE, ENG_STATUS_MCAUSE, ENG_STATUS_STATE] } ]

/-- The registers of block 15 (Mem), in the spec's order. -/
def regsMem : List Reg :=
  [
    { reg := 0x0, stride := 0, count := 1, flds := [MEM_CTRL_HOST_ANY] },
    { reg := 0x8, stride := 0, count := 1, flds := [MEM_EVENT_MARCH_DONE, MEM_EVENT_REPAIR_ERR, MEM_EVENT_BANK_FAIL, MEM_EVENT_OFF_ACCESS, MEM_EVENT_TCM_BUSY, MEM_EVENT_ACC_ERR] },
    { reg := 0xC, stride := 0, count := 1, flds := [MEM_EVENT_MASK_ENABLE] },
    { reg := 0x10, stride := 0, count := 1, flds := [MEM_ACC_ERR_KIND, MEM_ACC_ERR_REQ, MEM_ACC_ERR_BANK] },
    { reg := 0x14, stride := 0, count := 1, flds := [MEM_ACC_ERR_ADDR_ADDRESS] },
    { reg := 0x20, stride := 0, count := 1, flds := [MEM_MARCH_CTRL_BOOT_EN, MEM_MARCH_CTRL_AUTO_REPAIR, MEM_MARCH_CTRL_MODE, MEM_MARCH_CTRL_START, MEM_MARCH_CTRL_TCM_MASK, MEM_MARCH_CTRL_LAST_BANK, MEM_MARCH_CTRL_FIRST_BANK] },
    { reg := 0x24, stride := 0, count := 1, flds := [MEM_MARCH_STATUS_BUSY, MEM_MARCH_STATUS_REFUSED, MEM_MARCH_STATUS_FAILED_ROWS, MEM_MARCH_STATUS_CURRENT] },
    { reg := 0x1000, stride := 16, count := 256, flds := [MEM_BANK_CFG_POWER, MEM_BANK_CFG_KIND, MEM_BANK_CFG_OWNER] },
    { reg := 0x1004, stride := 16, count := 256, flds := [MEM_BANK_STATUS_SPARES_FREE, MEM_BANK_STATUS_FAILED, MEM_BANK_STATUS_HANDOVER_PENDING, MEM_BANK_STATUS_POWER] },
    { reg := 0x1008, stride := 16, count := 256, flds := [MEM_CONFLICT_COUNT] },
    { reg := 0x3000, stride := 8, count := 256, flds := [MEM_REPAIR0_VALID_HI, MEM_REPAIR0_ROW_HI, MEM_REPAIR0_VALID_LO, MEM_REPAIR0_ROW_LO] },
    { reg := 0x3004, stride := 8, count := 256, flds := [MEM_REPAIR1_VALID_HI, MEM_REPAIR1_ROW_HI, MEM_REPAIR1_VALID_LO, MEM_REPAIR1_ROW_LO] } ]

/-- The registers of block 16 (Ecc), in the spec's order. -/
def regsEcc : List Reg :=
  [
    { reg := 0x0, stride := 0, count := 1, flds := [ECC_CTRL_SCRUB_SKIPPED, ECC_CTRL_SCRUB_ERR, ECC_CTRL_SCRUB_BUSY, ECC_CTRL_SCRUB_STOP_UE, ECC_CTRL_SCRUB_STOP, ECC_CTRL_SCRUB_START, ECC_CTRL_SELFTEST] },
    { reg := 0x8, stride := 0, count := 1, flds := [ECC_EVENT_BUCKET, ECC_EVENT_POISON_READ, ECC_EVENT_SELFTEST_FAIL, ECC_EVENT_SCRUB_DONE, ECC_EVENT_UE] },
    { reg := 0xC, stride := 0, count := 1, flds := [ECC_EVENT_MASK_ENABLE] },
    { reg := 0x10, stride := 0, count := 1, flds := [ECC_UE_ADDR_ADDRESS] },
    { reg := 0x14, stride := 0, count := 1, flds := [ECC_UE_INFO_POISON_READS, ECC_UE_INFO_KIND, ECC_UE_INFO_PARTIAL] },
    { reg := 0x18, stride := 0, count := 1, flds := [ECC_CE_ADDR_ADDRESS] },
    { reg := 0x100, stride := 16, count := 16, flds := [ECC_BUCKET_SIZE, ECC_BUCKET_LEVEL, ECC_BUCKET_LEAK] },
    { reg := 0x104, stride := 16, count := 16, flds := [ECC_COUNT_CE, ECC_COUNT_UE] },
    { reg := 0x40, stride := 0, count := 1, flds := [ECC_SCRUB_START_ADDRESS] },
    { reg := 0x44, stride := 0, count := 1, flds := [ECC_SCRUB_END_ADDRESS] },
    { reg := 0x48, stride := 0, count := 1, flds := [ECC_SCRUB_WORDS_COUNT] },
    { reg := 0x4C, stride := 0, count := 1, flds := [ECC_SCRUB_RESULT_CORR, ECC_SCRUB_RESULT_UNC] },
    { reg := 0x50, stride := 0, count := 1, flds := [ECC_SCRUB_FIRST_ADDRESS] } ]

/-- The registers of block 17 (Pwr), in the spec's order. -/
def regsPwr : List Reg :=
  [
    { reg := 0x0, stride := 0, count := 1, flds := [PWR_CTRL_UNPARK, PWR_CTRL_PARK] },
    { reg := 0x4, stride := 0, count := 1, flds := [PWR_STATUS_PARKED, PWR_STATUS_ROOT_LOCKED, PWR_STATUS_SAMPLING_LOCK, PWR_STATUS_FABRIC_LOCK, PWR_STATUS_ENGINE_LOCK, PWR_STATUS_ESTIMATE] },
    { reg := 0x8, stride := 0, count := 1, flds := [PWR_EVENT_PARK_REFUSED, PWR_EVENT_PLL_FAIL, PWR_EVENT_WAIT_HOST, PWR_EVENT_THERM, PWR_EVENT_RESTORED, PWR_EVENT_SHED, PWR_EVENT_REFUSED] },
    { reg := 0xC, stride := 0, count := 1, flds := [PWR_EVENT_MASK_ENABLE] },
    { reg := 0x10, stride := 4, count := 4, flds := [PWR_DOM_STATE] },
    { reg := 0x1000, stride := 8, count := 512, flds := [PWR_FLOW_SHED, PWR_FLOW_PINNED, PWR_FLOW_ELASTIC, PWR_FLOW_SHED_RANK, PWR_FLOW_HEADROOM, PWR_FLOW_RATE] },
    { reg := 0x1004, stride := 8, count := 512, flds := [PWR_FLOW_SIZE_MAX_SLOTS, PWR_FLOW_SIZE_MIN_SLOTS] } ]

/-- The registers of block 19 (Tim), in the spec's order. -/
def regsTim : List Reg :=
  [
    { reg := 0x0, stride := 0, count := 1, flds := [TIM_DPLL_CTRL_FORCE_REF, TIM_DPLL_CTRL_REVERTIVE, TIM_DPLL_CTRL_MODE, TIM_DPLL_CTRL_BW] },
    { reg := 0x4, stride := 0, count := 1, flds := [TIM_LOOP_CFG_PULL_MAX, TIM_LOOP_CFG_LOCK_WIN] },
    { reg := 0x8, stride := 0, count := 1, flds := [TIM_SEL_CTRL_CONFLICT, TIM_SEL_CTRL_QUAL, TIM_SEL_CTRL_WTR] },
    { reg := 0xC, stride := 0, count := 1, flds := [TIM_DPLL_STATUS_STEP_BUSY, TIM_DPLL_STATUS_TOD_VALID, TIM_DPLL_STATUS_HIST_FROZEN, TIM_DPLL_STATUS_HIST_VALID, TIM_DPLL_STATUS_SEL_VALID, TIM_DPLL_STATUS_SELECTED, TIM_DPLL_STATUS_STATE] },
    { reg := 0x10, stride := 0, count := 1, flds := [TIM_EVENT_CFG_ERR, TIM_EVENT_LANE_REF_LIMIT, TIM_EVENT_REALIGN_DONE, TIM_EVENT_STEP_ERR, TIM_EVENT_RANK_CONFLICT, TIM_EVENT_HIST_FROZEN, TIM_EVENT_DISQ, TIM_EVENT_SOFT, TIM_EVENT_SEL_CHG, TIM_EVENT_STATE_CHG] },
    { reg := 0x14, stride := 0, count := 1, flds := [TIM_EVENT_MASK_ENABLE] },
    { reg := 0x18, stride := 0, count := 1, flds := [TIM_HIST_CFG_GUARD, TIM_HIST_CFG_AVG] },
    { reg := 0x1C, stride := 0, count := 1, flds := [TIM_HIST_FREQ_FREQ] },
    { reg := 0x20, stride := 0, count := 1, flds := [TIM_DPLL_FREQ_FREQ] },
    { reg := 0x24, stride := 0, count := 1, flds := [TIM_FREQ_ADJ_FREQ] },
    { reg := 0x28, stride := 0, count := 1, flds := [TIM_PHASE_ERR_ERROR] },
    { reg := 0x2C, stride := 0, count := 1, flds := [TIM_STEP_STEP] },
    { reg := 0x100, stride := 16, count := 16, flds := [TIM_REF_CFG_EN, TIM_REF_CFG_PHASE_MODE, TIM_REF_CFG_SOURCE, TIM_REF_CFG_DIE, TIM_REF_CFG_INDEX, TIM_REF_CFG_FREQ, TIM_REF_CFG_RANK] },
    { reg := 0x104, stride := 16, count := 16, flds := [TIM_REF_LIM_HARD, TIM_REF_LIM_SOFT, TIM_REF_LIM_DRIFT] },
    { reg := 0x108, stride := 16, count := 16, flds := [TIM_REF_STATUS_DISQ_CAUSE, TIM_REF_STATUS_QUAL_COUNT, TIM_REF_STATUS_CONFLICT, TIM_REF_STATUS_DRIFT_WARN, TIM_REF_STATUS_SOFT_WARN, TIM_REF_STATUS_SELECTED, TIM_REF_STATUS_QUALIFIED, TIM_REF_STATUS_ACTIVE] },
    { reg := 0x10C, stride := 16, count := 16, flds := [TIM_REF_FREQ_FREQ] },
    { reg := 0x200, stride := 4, count := 16, flds := [TIM_REF_OFS_OFFSET] },
    { reg := 0x300, stride := 16, count := 4, flds := [TIM_OUT_CFG_EN, TIM_OUT_CFG_PARAM] },
    { reg := 0x304, stride := 16, count := 4, flds := [TIM_OUT_AUX_OFFSET] },
    { reg := 0x308, stride := 16, count := 4, flds := [TIM_OUT_PEND_PENDING] },
    { reg := 0x340, stride := 0, count := 1, flds := [TIM_REALIGN_SLEW, TIM_REALIGN_MODE, TIM_REALIGN_GO] },
    { reg := 0x400, stride := 0, count := 1, flds := [TIM_TOD_CTRL_LOAD, TIM_TOD_CTRL_SNAP] },
    { reg := 0x404, stride := 4, count := 4, flds := [TIM_TOD_SNAP_DATA] },
    { reg := 0x414, stride := 0, count := 1, flds := [TIM_TOD_LOAD_S_LO_SECONDS] },
    { reg := 0x418, stride := 0, count := 1, flds := [TIM_TOD_LOAD_S_HI_SECONDS] } ]

/-- The registers of block 20 (Hka), in the spec's order. -/
def regsHka : List Reg :=
  [
    { reg := 0x0, stride := 0, count := 1, flds := [HKA_SEQ_CTRL_EN, HKA_SEQ_CTRL_GO, HKA_SEQ_CTRL_SYNC_RESTART, HKA_SEQ_CTRL_TRIG, HKA_SEQ_CTRL_LENGTH, HKA_SEQ_CTRL_PERIOD] },
    { reg := 0x4, stride := 0, count := 1, flds := [HKA_SEQ_STATUS_PENDING, HKA_SEQ_STATUS_RUNNING, HKA_SEQ_STATUS_ENTRY, HKA_SEQ_STATUS_PASS_COUNT] },
    { reg := 0x8, stride := 0, count := 1, flds := [HKA_EVENT_URGENT_BUSY, HKA_EVENT_URGENT_DONE, HKA_EVENT_LATE, HKA_EVENT_OVERRUN, HKA_EVENT_PASS_DONE] },
    { reg := 0xC, stride := 0, count := 1, flds := [HKA_EVENT_MASK_ENABLE] },
    { reg := 0x10, stride := 0, count := 1, flds := [HKA_OVERRUN_COUNT] },
    { reg := 0x14, stride := 0, count := 1, flds := [HKA_URGENT_GO, HKA_URGENT_MODE, HKA_URGENT_ALIGN, HKA_URGENT_INPUT_B, HKA_URGENT_INPUT_A] },
    { reg := 0x18, stride := 0, count := 1, flds := [HKA_URGENT_RESULT_B, HKA_URGENT_RESULT_A] },
    { reg := 0x20, stride := 4, count := 4, flds := [HKA_TEMP_TEMP] },
    { reg := 0x30, stride := 0, count := 1, flds := [HKA_TEMP_MAX_TEMP] },
    { reg := 0x100, stride := 4, count := 32, flds := [HKA_SEQ_ENTRY_MODE, HKA_SEQ_ENTRY_ALIGN, HKA_SEQ_ENTRY_INPUT_B, HKA_SEQ_ENTRY_INPUT_A] },
    { reg := 0x200, stride := 4, count := 32, flds := [HKA_RESULT_B, HKA_RESULT_A] } ]

/-- The registers of block 21 (Wch), in the spec's order. -/
def regsWch : List Reg :=
  [
    { reg := 0x0, stride := 0, count := 1, flds := [WCH_CTRL_SYNC_OUT_GO, WCH_CTRL_SYNC] },
    { reg := 0x8, stride := 0, count := 1, flds := [WCH_EVENT_LOW, WCH_EVENT_HIGH] },
    { reg := 0xC, stride := 0, count := 1, flds := [WCH_EVENT_MASK_ENABLE] },
    { reg := 0x10, stride := 0, count := 1, flds := [WCH_STAT_EVENT_OVERLOAD, WCH_STAT_EVENT_SAT] },
    { reg := 0x14, stride := 0, count := 1, flds := [WCH_STAT_EVENT_MASK_ENABLE] },
    { reg := 0x18, stride := 0, count := 1, flds := [WCH_CFG_ERR_LAST_CH, WCH_CFG_ERR_CFG_ERR] },
    { reg := 0x1C, stride := 0, count := 1, flds := [WCH_CFG_ERR_MASK_ENABLE] },
    { reg := 0x100, stride := 64, count := 16, flds := [WCH_CH_CFG_EN, WCH_CH_CFG_SYNC_EN, WCH_CH_CFG_SRC, WCH_CH_CFG_SRC_SEL, WCH_CH_CFG_DEC, WCH_CH_CFG_FIR_SEL, WCH_CH_CFG_BIQ_SEL] },
    { reg := 0x104, stride := 64, count := 16, flds := [WCH_CH_SHIFT_BIQ_SHIFT, WCH_CH_SHIFT_FIR_SHIFT] },
    { reg := 0x108, stride := 64, count := 16, flds := [WCH_CH_STEP_STEP] },
    { reg := 0x10C, stride := 64, count := 16, flds := [WCH_CH_DELAY_DELAY] },
    { reg := 0x110, stride := 64, count := 16, flds := [WCH_CH_HIGH_HIGH] },
    { reg := 0x114, stride := 64, count := 16, flds := [WCH_CH_LOW_LOW] },
    { reg := 0x118, stride := 64, count := 16, flds := [WCH_CH_THR_HIGH_EN, WCH_CH_THR_LOW_EN, WCH_CH_THR_HYST, WCH_CH_THR_PERSIST] },
    { reg := 0x11C, stride := 64, count := 16, flds := [WCH_CH_OUT_OUT] },
    { reg := 0x120, stride := 64, count := 16, flds := [WCH_CH_STATUS_HIGH_DECL, WCH_CH_STATUS_LOW_DECL, WCH_CH_STATUS_OUT_COUNT] },
    { reg := 0x124, stride := 64, count := 16, flds := [WCH_CH_LOST_COUNT] } ]

/-- The registers of block 22 (Plm), in the spec's order. -/
def regsPlm : List Reg :=
  [
    { reg := 0x0, stride := 0, count := 1, flds := [PLM_CTRL_EN, PLM_CTRL_ROLE, PLM_CTRL_EXEC, PLM_CTRL_TX_CLK, PLM_CTRL_FAST_EN, PLM_CTRL_UPSHIFT_EN, PLM_CTRL_RETRAIN] },
    { reg := 0x4, stride := 0, count := 1, flds := [PLM_STATUS_STATE, PLM_STATUS_PEER_VALID, PLM_STATUS_K, PLM_STATUS_M_TX, PLM_STATUS_CODE_TX, PLM_STATUS_M_RX, PLM_STATUS_CODE_RX] },
    { reg := 0x8, stride := 0, count := 1, flds := [PLM_EVENT_MASK_LIMIT, PLM_EVENT_RX_DROP, PLM_EVENT_TX_DONE, PLM_EVENT_RX_PACKET, PLM_EVENT_SHIFT, PLM_EVENT_PEER_CHG, PLM_EVENT_DOWN, PLM_EVENT_UP] },
    { reg := 0xC, stride := 0, count := 1, flds := [PLM_EVENT_MASK_ENABLE] },
    { reg := 0x10, stride := 0, count := 1, flds := [PLM_LIMITS_TARGET, PLM_LIMITS_DROP, PLM_LIMITS_K_MAX, PLM_LIMITS_K_MIN] },
    { reg := 0x14, stride := 0, count := 1, flds := [PLM_RATE_RX, PLM_RATE_TX] },
    { reg := 0x18, stride := 0, count := 1, flds := [PLM_QUALITY_EVM, PLM_QUALITY_MARGIN] },
    { reg := 0x1C, stride := 0, count := 1, flds := [PLM_FAR_QUALITY_EVM, PLM_FAR_QUALITY_MARGIN] },
    { reg := 0x20, stride := 0, count := 1, flds := [PLM_ECHO_ERLE] },
    { reg := 0x24, stride := 0, count := 1, flds := [PLM_PEER_LO_NODE_ID] },
    { reg := 0x28, stride := 0, count := 1, flds := [PLM_PEER_HI_NODE_ID] },
    { reg := 0x2C, stride := 0, count := 1, flds := [PLM_TX_LEVEL_APPLIED, PLM_TX_LEVEL_LEVEL] },
    { reg := 0x40, stride := 4, count := 6, flds := [PLM_CNT_COUNT] },
    { reg := 0x80, stride := 0, count := 1, flds := [PLM_HOST_CTRL_TX_GO, PLM_HOST_CTRL_TX_BUSY, PLM_HOST_CTRL_RX_ACK, PLM_HOST_CTRL_RX_VALID, PLM_HOST_CTRL_RX_FILL, PLM_HOST_CTRL_TX_TYPE, PLM_HOST_CTRL_RX_LEN, PLM_HOST_CTRL_TX_LEN] },
    { reg := 0x100, stride := 4, count := 16, flds := [PLM_TX_FIR_COEF] },
    { reg := 0x200, stride := 4, count := 16, flds := [PLM_MASK_VALID, PLM_MASK_FREQ, PLM_MASK_LEVEL] } ]

/-- The registers of block 23 (Bup), in the spec's order. -/
def regsBup : List Reg :=
  [
    { reg := 0x0, stride := 0, count := 1, flds := [BUP_STATUS_REC_WAITING, BUP_STATUS_WARM, BUP_STATUS_STATE] },
    { reg := 0x4, stride := 0, count := 1, flds := [BUP_CTRL_REBASE, BUP_CTRL_AUTO_RAMP, BUP_CTRL_CAIRN_LEAD, BUP_CTRL_RECOVER, BUP_CTRL_NO_PEER, BUP_CTRL_REC_WAIT] },
    { reg := 0x8, stride := 0, count := 1, flds := [BUP_EVENT_FULL, BUP_EVENT_EPOCH1_FAIL, BUP_EVENT_NO_PEER, BUP_EVENT_INCOMPATIBLE, BUP_EVENT_MULTI, BUP_EVENT_CHOSEN] },
    { reg := 0xC, stride := 0, count := 1, flds := [BUP_EVENT_MASK_ENABLE] },
    { reg := 0x10, stride := 0, count := 1, flds := [BUP_NODE_ID_LO_NODE_ID] },
    { reg := 0x14, stride := 0, count := 1, flds := [BUP_NODE_ID_HI_NODE_ID] },
    { reg := 0x20, stride := 0, count := 1, flds := [BUP_CAIRN_CTRL_RESTART, BUP_CAIRN_CTRL_DWELL, BUP_CAIRN_CTRL_DET_TH, BUP_CAIRN_CTRL_CAPTURE] },
    { reg := 0x24, stride := 0, count := 1, flds := [BUP_PEER_SEL_LO_NODE_ID] },
    { reg := 0x28, stride := 0, count := 1, flds := [BUP_PEER_SEL_HI_NODE_ID] },
    { reg := 0x2C, stride := 0, count := 1, flds := [BUP_CAIRN_STATUS_MUTUAL, BUP_CAIRN_STATUS_CHOSEN_VALID, BUP_CAIRN_STATUS_CHOSEN, BUP_CAIRN_STATUS_PEERS, BUP_CAIRN_STATUS_STATE] },
    { reg := 0x40, stride := 4, count := 6, flds := [BUP_CAIRN_CNT_COUNT] },
    { reg := 0x100, stride := 16, count := 8, flds := [BUP_PEER_LO_NODE_ID] },
    { reg := 0x104, stride := 16, count := 8, flds := [BUP_PEER_HI_NODE_ID] },
    { reg := 0x108, stride := 16, count := 8, flds := [BUP_PEER_INFO_VALID, BUP_PEER_INFO_COMPATIBLE, BUP_PEER_INFO_TEAM, BUP_PEER_INFO_HEARD, BUP_PEER_INFO_POWER] } ]

/-- The registers of block 24 (Flt), in the spec's order. -/
def regsFlt : List Reg :=
  [
    { reg := 0x4, stride := 0, count := 1, flds := [FLT_LOG_CTRL_STOP_WHEN_FULL, FLT_LOG_CTRL_CLEAR] },
    { reg := 0x8, stride := 0, count := 1, flds := [FLT_EVENT_RETIRED, FLT_EVENT_PERMANENT, FLT_EVENT_LOGGED] },
    { reg := 0xC, stride := 0, count := 1, flds := [FLT_EVENT_MASK_ENABLE] },
    { reg := 0x10, stride := 0, count := 1, flds := [FLT_LOG_STATUS_OVERWRITES, FLT_LOG_STATUS_NEXT, FLT_LOG_STATUS_FULL, FLT_LOG_STATUS_COUNT] },
    { reg := 0x20, stride := 4, count := 4, flds := [FLT_RETRY_CFG_COUNT, FLT_RETRY_CFG_WINDOW] },
    { reg := 0x40, stride := 0, count := 1, flds := [FLT_RETIRED_DIE, FLT_RETIRED_LANE, FLT_RETIRED_TX_ARM, FLT_RETIRED_RX_ARM] },
    { reg := 0x100, stride := 16, count := 64, flds := [FLT_LOG_ENTRY0_WORD] },
    { reg := 0x104, stride := 16, count := 64, flds := [FLT_LOG_ENTRY1_WORD] },
    { reg := 0x108, stride := 16, count := 64, flds := [FLT_LOG_ENTRY2_WORD] },
    { reg := 0x10C, stride := 16, count := 64, flds := [FLT_LOG_ENTRY3_WORD] } ]

/-- The registers of block 25 (Ring), in the spec's order. -/
def regsRing : List Reg :=
  [
    { reg := 0x8, stride := 0, count := 1, flds := [RING_EVENT_CCW_BREAK, RING_EVENT_CW_BREAK, RING_EVENT_DISCARD] },
    { reg := 0xC, stride := 0, count := 1, flds := [RING_EVENT_MASK_ENABLE] },
    { reg := 0x10, stride := 0, count := 1, flds := [RING_DISCARD_CW_COUNT] },
    { reg := 0x14, stride := 0, count := 1, flds := [RING_DISCARD_CCW_COUNT] } ]

/-- The registers of block 26 (PkgRegion), in the spec's order. -/
def regsPkgRegion : List Reg :=
  [
    { reg := 0x100, stride := 0, count := 1, flds := [PKG_TEAM_MAP_SIZE] },
    { reg := 0x104, stride := 0, count := 1, flds := [PKG_TEAM_CTRL_REJOIN_REQ, PKG_TEAM_CTRL_AUTO_REJOIN] },
    { reg := 0x108, stride := 0, count := 1, flds := [PKG_MEMBER_STATUS_SEGMENT_LEAD, PKG_MEMBER_STATUS_STATE] },
    { reg := 0x10C, stride := 0, count := 1, flds := [PKG_TEAM_EVENT_BRIDGE_REJECT, PKG_TEAM_EVENT_GEOM_REJECT, PKG_TEAM_EVENT_MEMBER_REJOINED, PKG_TEAM_EVENT_MEMBER_LOST] },
    { reg := 0x120, stride := 4, count := 8, flds := [PKG_GEOM_SC_SPACING, PKG_GEOM_SLICE_SPACING] },
    { reg := 0x0, stride := 0, count := 1, flds := [PKG_INFO_DIE_COUNT, PKG_INFO_SPEED_GRADE] },
    { reg := 0x4, stride := 0, count := 1, flds := [PKG_CROWN_STATUS_TAKEOVER_COUNT, PKG_CROWN_STATUS_HANDOVER_REFUSED, PKG_CROWN_STATUS_HANDOVER_PENDING, PKG_CROWN_STATUS_HANDOVER_DONE, PKG_CROWN_STATUS_TAKEOVER, PKG_CROWN_STATUS_PLM_AVAIL, PKG_CROWN_STATUS_STANDBY_VALID, PKG_CROWN_STATUS_STANDBY, PKG_CROWN_STATUS_CROWN] },
    { reg := 0x8, stride := 0, count := 1, flds := [PKG_CROWN_CTRL_HANDOVER, PKG_CROWN_CTRL_TARGET] },
    { reg := 0x10, stride := 0, count := 1, flds := [PKG_QUAR_STATUS_QUARANTINED] },
    { reg := 0x14, stride := 0, count := 1, flds := [PKG_QUAR_CAUSE_CAUSE] },
    { reg := 0x18, stride := 0, count := 1, flds := [PKG_QUAR_CTRL_AUTO_RELEASE, PKG_QUAR_CTRL_RELEASE, PKG_QUAR_CTRL_QUAR_REQ] },
    { reg := 0x1C, stride := 0, count := 1, flds := [PKG_QUAR_EVENT_MASS_MISMATCH, PKG_QUAR_EVENT_RELEASE_FAIL, PKG_QUAR_EVENT_RELEASED, PKG_QUAR_EVENT_ENTERED] },
    { reg := 0x20, stride := 0, count := 1, flds := [PKG_IRQ_STATUS_GPIO, PKG_IRQ_STATUS_IMG, PKG_IRQ_STATUS_PLM, PKG_IRQ_STATUS_TIM, PKG_IRQ_STATUS_ADDR, PKG_IRQ_STATUS_RING, PKG_IRQ_STATUS_QUAR, PKG_IRQ_STATUS_CROWN, PKG_IRQ_STATUS_TEAM, PKG_IRQ_STATUS_DIE] },
    { reg := 0x24, stride := 0, count := 1, flds := [PKG_IRQ_MASK_GLOBAL_EN, PKG_IRQ_MASK_ENABLE] },
    { reg := 0x28, stride := 0, count := 1, flds := [PKG_FAULT_MASK_ENABLE] },
    { reg := 0x30, stride := 0, count := 1, flds := [PKG_ADDR_ERR_UNMAPPED, PKG_ADDR_ERR_PATH_OFF, PKG_ADDR_ERR_BAD_MSG, PKG_ADDR_ERR_DENIED, PKG_ADDR_ERR_BCAST_BAD, PKG_ADDR_ERR_TIMEOUT, PKG_ADDR_ERR_NO_DIE] },
    { reg := 0x34, stride := 0, count := 1, flds := [PKG_ADDR_ERR_ADDR_ADDRESS] },
    { reg := 0x40, stride := 0, count := 1, flds := [PKG_MGMT_PATH_CTRL_LOCK, PKG_MGMT_PATH_CTRL_REMOTE_SECURE_EN, PKG_MGMT_PATH_CTRL_PL_WR_EN, PKG_MGMT_PATH_CTRL_PL_EN, PKG_MGMT_PATH_CTRL_INBAND_WR_EN, PKG_MGMT_PATH_CTRL_INBAND_EN] },
    { reg := 0x44, stride := 0, count := 1, flds := [PKG_INBAND_CFG_MGMT_DIE, PKG_INBAND_CFG_MGMT_FLOW, PKG_INBAND_CFG_ETHERTYPE] },
    { reg := 0x48, stride := 0, count := 1, flds := [PKG_BCAST_SEL_DIE] },
    { reg := 0x4C, stride := 0, count := 1, flds := [PKG_BCAST_STATUS_FAIL_MASK] },
    { reg := 0x200, stride := 0, count := 1, flds := [PKG_PWR_CTRL_AUTO, PKG_PWR_CTRL_HOLD, PKG_PWR_CTRL_AUTO_RESTORE, PKG_PWR_CTRL_SLEEP, PKG_PWR_CTRL_WAKE, PKG_PWR_CTRL_WINDOW, PKG_PWR_CTRL_SLEEP_WAIT] },
    { reg := 0x204, stride := 0, count := 1, flds := [PKG_PWR_ENVELOPE_ENVELOPE] },
    { reg := 0x208, stride := 0, count := 1, flds := [PKG_PWR_STATUS_IDLE, PKG_PWR_STATUS_SHEDDING, PKG_PWR_STATUS_THERM_WARN, PKG_PWR_STATUS_THERM_CRIT, PKG_PWR_STATUS_ESTIMATE] },
    { reg := 0x20C, stride := 0, count := 1, flds := [PKG_PWR_THERM_CRIT, PKG_PWR_THERM_WARN, PKG_PWR_THERM_HYST, PKG_PWR_THERM_SHED_INTERVAL] },
    { reg := 0x210, stride := 0, count := 1, flds := [PKG_PWR_CFG_OFF_AFTER, PKG_PWR_CFG_SPARE_SLOTS, PKG_PWR_CFG_DEC_SPARE] },
    { reg := 0x300, stride := 0, count := 1, flds := [PKG_JTAG_CTRL_LOCK] },
    { reg := 0x310, stride := 0, count := 1, flds := [PKG_GPIO_DIR_OUT_EN] },
    { reg := 0x314, stride := 0, count := 1, flds := [PKG_GPIO_OUT_VALUE] },
    { reg := 0x318, stride := 0, count := 1, flds := [PKG_GPIO_IN_LEVEL] },
    { reg := 0x31C, stride := 0, count := 1, flds := [PKG_GPIO_EDGE_FALL, PKG_GPIO_EDGE_RISE] },
    { reg := 0x320, stride := 0, count := 1, flds := [PKG_GPIO_EVENT_FALL, PKG_GPIO_EVENT_RISE] },
    { reg := 0x324, stride := 0, count := 1, flds := [PKG_GPIO_EVENT_MASK_ENABLE] } ]

/-- The registers of block 27 (Dis), in the spec's order. -/
def regsDis : List Reg :=
  [
    { reg := 0x1FF00, stride := 0, count := 1, flds := [BLK_DIS_CTRL_MODE, BLK_DIS_CTRL_LIMIT] },
    { reg := 0x1FF04, stride := 0, count := 1, flds := [BLK_DIS_STATUS_ABORTED, BLK_DIS_STATUS_DRAIN_TIMEOUT, BLK_DIS_STATUS_DRAINING, BLK_DIS_STATUS_IDLE] },
    { reg := 0x1FF08, stride := 0, count := 1, flds := [BLK_DIS_TIMEOUTS_COUNT] },
    { reg := 0x1FF0C, stride := 0, count := 1, flds := [BLK_DIS_DISCARDS_COUNT] },
    { reg := 0x1FF10, stride := 0, count := 1, flds := [BLK_DIS_REFUSED_COUNT] } ]

/-- The registers of a block slot (0 to 25), of the package-level PKG block (26) or the common disable registers (27). -/
def regsOf : Nat → List Reg
  | 0 => regsPkg
  | 1 => regsImg
  | 2 => regsCnv
  | 3 => regsCal
  | 4 => regsRxd
  | 5 => regsTxd
  | 6 => regsSeam
  | 7 => regsFec
  | 8 => regsFrm
  | 10 => regsFlw
  | 11 => regsCry
  | 12 => regsCrc
  | 13 => regsHln
  | 14 => regsEng
  | 15 => regsMem
  | 16 => regsEcc
  | 17 => regsPwr
  | 19 => regsTim
  | 20 => regsHka
  | 21 => regsWch
  | 22 => regsPlm
  | 23 => regsBup
  | 24 => regsFlt
  | 25 => regsRing
  | 26 => regsPkgRegion
  | 27 => regsDis
  | _ => []

/-! ### The event registers that feed the interrupt tree (R65), as lists of their status fields -/

/-- The status fields of `PKG_TEAM_EVENT`. -/
def PKG_TEAM_EVENT_flds : List Fld := [PKG_TEAM_EVENT_BRIDGE_REJECT, PKG_TEAM_EVENT_GEOM_REJECT, PKG_TEAM_EVENT_MEMBER_REJOINED, PKG_TEAM_EVENT_MEMBER_LOST]
/-- The status fields of `PKG_QUAR_EVENT`. -/
def PKG_QUAR_EVENT_flds : List Fld := [PKG_QUAR_EVENT_MASS_MISMATCH, PKG_QUAR_EVENT_RELEASE_FAIL, PKG_QUAR_EVENT_RELEASED, PKG_QUAR_EVENT_ENTERED]
/-- The status fields of `PKG_ADDR_ERR`. -/
def PKG_ADDR_ERR_flds : List Fld := [PKG_ADDR_ERR_UNMAPPED, PKG_ADDR_ERR_PATH_OFF, PKG_ADDR_ERR_BAD_MSG, PKG_ADDR_ERR_DENIED, PKG_ADDR_ERR_BCAST_BAD, PKG_ADDR_ERR_TIMEOUT, PKG_ADDR_ERR_NO_DIE]
/-- The status fields of `PKG_DIE_ADDR_ERR`. -/
def PKG_DIE_ADDR_ERR_flds : List Fld := [PKG_DIE_ADDR_ERR_IN_RESET, PKG_DIE_ADDR_ERR_UNALIGNED, PKG_DIE_ADDR_ERR_UNMAPPED]
/-- The status fields of `RING_EVENT`. -/
def RING_EVENT_flds : List Fld := [RING_EVENT_CCW_BREAK, RING_EVENT_CW_BREAK, RING_EVENT_DISCARD]
/-- The status fields of `CNV_EVENT`. -/
def CNV_EVENT_flds : List Fld := [CNV_EVENT_SCLK_MISMATCH, CNV_EVENT_CLIP, CNV_EVENT_SWITCH_ERR, CNV_EVENT_CLAMP, CNV_EVENT_SCLK_SWITCH, CNV_EVENT_SCLK_LOST]
/-- The status fields of `CAL_EVENT`. -/
def CAL_EVENT_flds : List Fld := [CAL_EVENT_VERIFY_FAIL, CAL_EVENT_LIMIT_BAD, CAL_EVENT_REC_REFUSED, CAL_EVENT_REC_RESTORED, CAL_EVENT_REC_SAVED, CAL_EVENT_TRIM_LIMIT, CAL_EVENT_SKEW_ALARM, CAL_EVENT_SUB_FAIL, CAL_EVENT_REJECT, CAL_EVENT_FG_FAIL, CAL_EVENT_FG_DONE]
/-- The status fields of `RXD_EVENT`. -/
def RXD_EVENT_flds : List Fld := [RXD_EVENT_Q_UPDATE, RXD_EVENT_FREQ_LIMIT, RXD_EVENT_LOCK_LOST, RXD_EVENT_SLIP, RXD_EVENT_ACQ_FAIL]
/-- The status fields of `SEAM_EVENT`. -/
def SEAM_EVENT_flds : List Fld := [SEAM_EVENT_INVALID_HI, SEAM_EVENT_INVALID_LO, SEAM_EVENT_LINK_HI_LOST, SEAM_EVENT_LINK_LO_LOST]
/-- The status fields of `TXD_EVENT`. -/
def TXD_EVENT_flds : List Fld := [TXD_EVENT_TRIM_SLEW, TXD_EVENT_LUT_SWITCH_ERR, TXD_EVENT_CLIP, TXD_EVENT_TX_LATE]
/-- The status fields of `FEC_EVENT`. -/
def FEC_EVENT_flds : List Fld := [FEC_EVENT_TABLE_BAD, FEC_EVENT_EXP_FAIL, FEC_EVENT_SKIP, FEC_EVENT_QUEUE_HIGH, FEC_EVENT_PTR_ERR, FEC_EVENT_BCH_FAIL]
/-- The status fields of `FRM_EVENT`. -/
def FRM_EVENT_flds : List Fld := [FRM_EVENT_TT_UPDATE, FRM_EVENT_PLAN_UNKNOWN, FRM_EVENT_PLAN_REVERT, FRM_EVENT_PLAN_REJECT, FRM_EVENT_PLAN_DONE, FRM_EVENT_LOS_CHG, FRM_EVENT_DEF_CHG]
/-- The status fields of `FLW_EVENT`. -/
def FLW_EVENT_flds : List Fld := [FLW_EVENT_OVERFLOW, FLW_EVENT_DEF_CHG]
/-- The status fields of `CRY_EVENT`. -/
def CRY_EVENT_flds : List Fld := [CRY_EVENT_KEY_MISS, CRY_EVENT_LOAD_FAIL, CRY_EVENT_LOAD_DONE]
/-- The status fields of `CRC_EVENT`. -/
def CRC_EVENT_flds : List Fld := [CRC_EVENT_TAKE_ERR, CRC_EVENT_UNBOUND, CRC_EVENT_MISMATCH]
/-- The status fields of `HLN_EVENT`. -/
def HLN_EVENT_flds : List Fld := [HLN_EVENT_LANE_DOWN, HLN_EVENT_LANE_UP, HLN_EVENT_GRP_CHG, HLN_EVENT_CFG_ERR, HLN_EVENT_PARTNER_CHG, HLN_EVENT_TS_OVERFLOW, HLN_EVENT_TX_RATE_LIMIT, HLN_EVENT_WAKE_FAIL]
/-- The status fields of `ENG_EVENT`. -/
def ENG_EVENT_flds : List Fld := [ENG_EVENT_TRAP, ENG_EVENT_WATCHDOG]
/-- The status fields of `MEM_EVENT`. -/
def MEM_EVENT_flds : List Fld := [MEM_EVENT_MARCH_DONE, MEM_EVENT_REPAIR_ERR, MEM_EVENT_BANK_FAIL, MEM_EVENT_OFF_ACCESS, MEM_EVENT_TCM_BUSY, MEM_EVENT_ACC_ERR]
/-- The status fields of `ECC_EVENT`. -/
def ECC_EVENT_flds : List Fld := [ECC_EVENT_BUCKET, ECC_EVENT_POISON_READ, ECC_EVENT_SELFTEST_FAIL, ECC_EVENT_SCRUB_DONE, ECC_EVENT_UE]
/-- The status fields of `PWR_EVENT`. -/
def PWR_EVENT_flds : List Fld := [PWR_EVENT_PARK_REFUSED, PWR_EVENT_PLL_FAIL, PWR_EVENT_WAIT_HOST, PWR_EVENT_THERM, PWR_EVENT_RESTORED, PWR_EVENT_SHED, PWR_EVENT_REFUSED]
/-- The status fields of `TIM_EVENT`. -/
def TIM_EVENT_flds : List Fld := [TIM_EVENT_CFG_ERR, TIM_EVENT_LANE_REF_LIMIT, TIM_EVENT_REALIGN_DONE, TIM_EVENT_STEP_ERR, TIM_EVENT_RANK_CONFLICT, TIM_EVENT_HIST_FROZEN, TIM_EVENT_DISQ, TIM_EVENT_SOFT, TIM_EVENT_SEL_CHG, TIM_EVENT_STATE_CHG]
/-- The status fields of `HKA_EVENT`. -/
def HKA_EVENT_flds : List Fld := [HKA_EVENT_URGENT_BUSY, HKA_EVENT_URGENT_DONE, HKA_EVENT_LATE, HKA_EVENT_OVERRUN, HKA_EVENT_PASS_DONE]
/-- The status fields of `WCH_EVENT`. -/
def WCH_EVENT_flds : List Fld := [WCH_EVENT_LOW, WCH_EVENT_HIGH]
/-- The status fields of `WCH_STAT_EVENT`. -/
def WCH_STAT_EVENT_flds : List Fld := [WCH_STAT_EVENT_OVERLOAD, WCH_STAT_EVENT_SAT]
/-- The status fields of `WCH_CFG_ERR`. -/
def WCH_CFG_ERR_flds : List Fld := [WCH_CFG_ERR_CFG_ERR]
/-- The status fields of `PLM_EVENT`. -/
def PLM_EVENT_flds : List Fld := [PLM_EVENT_MASK_LIMIT, PLM_EVENT_RX_DROP, PLM_EVENT_TX_DONE, PLM_EVENT_RX_PACKET, PLM_EVENT_SHIFT, PLM_EVENT_PEER_CHG, PLM_EVENT_DOWN, PLM_EVENT_UP]
/-- The status fields of `BUP_EVENT`. -/
def BUP_EVENT_flds : List Fld := [BUP_EVENT_FULL, BUP_EVENT_EPOCH1_FAIL, BUP_EVENT_NO_PEER, BUP_EVENT_INCOMPATIBLE, BUP_EVENT_MULTI, BUP_EVENT_CHOSEN]
/-- The status fields of `FLT_EVENT`. -/
def FLT_EVENT_flds : List Fld := [FLT_EVENT_RETIRED, FLT_EVENT_PERMANENT, FLT_EVENT_LOGGED]
/-- The status fields of `PKG_GPIO_EVENT`. -/
def PKG_GPIO_EVENT_flds : List Fld := [PKG_GPIO_EVENT_FALL, PKG_GPIO_EVENT_RISE]

end Sys2Proof.Machine
end

