-- ==== Sys2Proof/Machine/Units.lean ====
section
/-! DEFINITION. The internal state the spec's rules give the package beside its registers, one structure for each unit. -/
namespace Sys2Proof.Machine

/-! ### The ordered part (R2, R3) -/

/-- The three sizes of R2. -/
inductive PartSize where
  | d2
  | d4
  | d8
deriving DecidableEq, Repr

/-- The ordered part: its size and whether its suffix is -X (R3). Log entry 1 DESIGN CHOICE. -/
structure Part where
  size : PartSize
  isX  : Bool
deriving DecidableEq, Repr

/-! ### Package: time, life cycle of a die, crown, ring, endpoint (spec/00 to spec/02) -/

/-- The time count of spec/02: multiframe count (32 bits), superframe number (0 to 255) and tick (0 to 11 263).
Log entries 69 DESIGN CHOICE, 151 DESIGN CHOICE. -/
structure Time where
  mf   : Nat := 0
  sf   : Nat := 0
  tick : Nat := 0
deriving DecidableEq, Repr

/-- What the crown and the ring keep about one die: its life cycle (R13, R41, R85, R348, R409) and the agreement
counters of R49, R50 and R53. Log entry 118 DEDUCED. -/
structure DieSt where
  /-- Self-test result of R410: none until published. -/
  selfTest : Option Bool := none
  /-- The die is held in die reset (R431, R449). -/
  held : Bool := false
  /-- The die answers heartbeats with the starting mark (R85). -/
  starting : Bool := true
  /-- A structure image is loaded on the die (R42, R82). -/
  loaded : Bool := false
  /-- Sections are applied and the engines released (R411, step 7). -/
  released : Bool := false
  /-- The die has left its team and steps 3 and 4 of R33 are still due. -/
  departed : Bool := false
  /-- A plan change must still mark this die's slice absent (R33, step 4). -/
  absenceDue : Bool := false
  /-- The die was parked and unparked: its team returns without AUTO_REJOIN and without MEMBER_REJOINED (R348). -/
  unparked : Bool := false
  /-- A rejoin was requested and its conditions are not met yet (R37). -/
  rejoinReq : Bool := false
  /-- The shift of the upper segment for this die's rejoin has stopped at the end of a trim (R124). -/
  shiftStopped : Bool := false
  /-- Rounds with a mismatching configuration epoch in a row (R50). -/
  epochRun : Nat := 0
  /-- Rounds with a mismatching time count in a row (R50). -/
  timeRun : Nat := 0
  /-- Rounds without an answer in a row (R50). -/
  missRun : Nat := 0
  /-- The crown has issued a die reset for missing answers and the 100 ms run (R50). -/
  waitReset : Bool := false
  /-- 1 s has passed since the image transfer without values (R85). -/
  valuesLate : Bool := false
  /-- The heartbeats a release attempt still compares (R53). -/
  releaseLeft : Option Nat := none
  /-- The first item that disagreed during a release attempt: its cause code, 0 for none (R53). -/
  releaseBad : Nat := 0
  /-- Heartbeats this die has missed in a row (R45). -/
  hbMissed : Nat := 0
  /-- Consecutive heartbeats reached only on the other direction, clockwise and counter-clockwise (R49). -/
  cwMiss : Nat := 0
  ccwMiss : Nat := 0
  /-- Consecutive heartbeats that reached the die on the direction (R49). -/
  cwHit : Nat := 0
  ccwHit : Nat := 0
  /-- The crown's copy of this die's interrupt summary (R66). -/
  irqCopy : Nat := 0
  /-- The crown's copy of "an enabled bit of RING_EVENT is set" of this die (R68). -/
  ringCopy : Bool := false
  /-- The first fault-log sequence number not yet taken (R433). -/
  logSeq : Nat := 0
  /-- Epoch-by-epoch state of R91: the die holds GO, has switched, has a REVERT pending. -/
  holdsGo : Bool := false
  switched : Bool := false
  reverting : Bool := false
  /-- The die holds the PREPARE of the open transaction (R90). -/
  prepared : Bool := false
  /-- Cells found failed, as type and physical index (R69, R72). -/
  failed : List (Nat × Nat) := []
  /-- The node identity is fixed: writes to its registers are ignored (R414). -/
  nodeFixed : Bool := false
  /-- This die has answered the running heartbeat round, clockwise and counter-clockwise, and which items it mismatched
  (R49, R52). -/
  answered : Option (Bool × Bool) := none
  mismatch : List Nat := []
  /-- The configuration epoch that this die answered in the running round (R90, step 6). -/
  epochAns : Option Nat := none
deriving DecidableEq, Repr

/-- The service state of the management endpoint (R46, R47, R54). -/
inductive Endpoint where
  /-- No endpoint runs: no crown and no takeover. -/
  | off
  /-- In service. -/
  | service
  /-- Takeover in progress: the standby answers BUSY on SPI (R46). -/
  | takeover
  /-- Planned handover: the endpoint answers BUSY (R47). -/
  | handover
deriving DecidableEq, Repr

/-- The crown token and its transitions (R42, R45, R47). Log entry 95 DEDUCED. -/
structure CrownSt where
  /-- The die that holds the crown token. -/
  token : Option Nat := none
  /-- The die that the election of the start made crown (R41, R414). -/
  elected : Option Nat := none
  endpoint : Endpoint := .off
  /-- A planned handover waits for the boundary or for a transaction to close. -/
  handover : Option Nat := none
  /-- A die reset aimed at the crown waits for the handover (R47): the old crown's index. -/
  deferredReset : Option Nat := none
  /-- Dies that have acknowledged the latest claim (R45, step 4). -/
  acks : List Nat := []
  /-- A takeover after failure is between token release and completion, with the index of the latest old crown. -/
  failed : Option Nat := none
  /-- Every die that lost the token by a failure and has not yet left its team: none of them claims it again (R45 step 6,
  R46). -/
  olds : List Nat := []
  /-- The token is held with no heartbeat for 40 ms (R46). -/
  stuck : Bool := false
  /-- Every die failed self-test (R41). -/
  nonePassed : Bool := false
  /-- No eligible die remains (R431), or a rail has fallen on every die (R451). -/
  noCandidate : Bool := false
  /-- The first image is loaded on every die: the interval of R42 with the weaker eligibility is over. -/
  imageStarted : Bool := false
  /-- A heartbeat round is open (R49, R50). -/
  round : Bool := false
  /-- SLEEP was written and waits for the open transaction to close (R349). -/
  sleepDue : Bool := false
deriving DecidableEq, Repr

/-- A status code of R57 with the address and data that go with it. -/
structure Resp where
  code : Nat := 0
  addr : Nat := 0
  data : Nat := 0
deriving DecidableEq, Repr

/-- A forwarded access still running (R48, R58, R59). -/
structure RingAccess where
  path  : Path
  die   : Nat
  write : Bool
  addr  : Nat
  data  : Nat
  /-- The target's result, once REG_REQ has run there. -/
  done  : Option Resp := none
deriving DecidableEq, Repr

/-- The response kept for a message path (R62). -/
structure Kept where
  seq   : Nat
  bytes : List Byte
deriving DecidableEq, Repr

/-- A message that waits for the access in progress (R64): its path, whether it came as a MGMT packet (R405), its bytes and
the dies that do not answer its records in time (R59), bit n for die n. -/
structure WaitMsg where
  path   : RemotePath
  packet : Bool
  bytes  : List Byte
  silent : Nat
deriving DecidableEq, Repr

/-- The management endpoint (R56 to R64). -/
structure BusSt where
  /-- What the next SPI frame's MISO reports. -/
  prev : Resp := {}
  /-- What MISO carried in the last frame, with the status byte of R56. -/
  miso : Option Resp := none
  /-- The forwarded access still running, if any. -/
  running : Option RingAccess := none
  /-- The result of the last register access of any path. -/
  last : Resp := {}
  /-- The kept responses of the in-band and the pair-line path. -/
  keptInband : Option Kept := none
  keptPair : Option Kept := none
  /-- Messages that arrived while an access of another path was running, oldest first (R64). -/
  waiting : List WaitMsg := []
deriving DecidableEq, Repr

/-- A configuration transaction (R88 to R94). -/
structure TxnSt where
  isOpen : Bool := false
  /-- It is a rollback (R94). -/
  rollback : Bool := false
  /-- The new epoch E + 1. -/
  epoch : Nat := 0
  /-- The commit multiframe M. -/
  mf : Nat := 0
  /-- The dies that take part (R88). -/
  members : List Nat := []
  /-- The dies that have answered READY. -/
  ready : List Nat := []
  /-- The first REFUSE: the die it names and its reason. -/
  refused : Option (Nat × Nat) := none
  /-- The crown has sent GO. -/
  goSent : Bool := false
  /-- The package-region staged fields have switched at M. -/
  switched : Bool := false
  /-- REVERT has been sent (R91). -/
  reverting : Bool := false
  /-- The team whose plan the change concerns, when it is plan-class (R93). -/
  planTeam : Option Nat := none
  /-- The far end has accepted the plan (R93, R238). -/
  planOk : Bool := false
  /-- The multiframe in which COMMIT was written. -/
  m0 : Nat := 0
  /-- The crown takes part as acceptor of the far end's proposal (R239). -/
  acceptor : Bool := false
  /-- The plan epoch the transaction leads to, and whether it is epoch 1 or 2 of a start (R425, R427). -/
  planEpoch : Nat := 0
  ramp : Nat := 0
  /-- It changes the team map or the geometry (R24). -/
  mapChange : Bool := false
  /-- A member was lost after the switch at M: the transaction resolves as R91 and closes with MEMBER_LOST (R95). -/
  lost : Bool := false
deriving DecidableEq, Repr

/-! ### Plan epochs (spec/08, R235 to R245) -/

/-- A subcarrier entry of a plan (R237): state 0 active, 1 dormant, 2 absent; class 1 express. -/
structure PlanSc where
  state : Nat
  cls   : Nat
  name  : Nat
  h     : Nat
  const : Nat
  roll  : Nat
  boost : Nat
deriving DecidableEq, Repr

/-- The entries of a flow (R271): its FLOW entry, the global slots of its SLOTS entries and its KEY entry. -/
structure PlanFlow where
  id    : Nat
  on    : Bool
  cls   : Nat
  enc   : Bool
  check : Nat
  span  : Nat
  slots : List Nat
  key   : Option (Nat × Nat)
deriving DecidableEq, Repr

/-- One direction of a plan: subcarriers in global order, flows in ascending line identifier (R237, R271). -/
structure DirPlan where
  scs   : List PlanSc := []
  flows : List PlanFlow := []
deriving DecidableEq, Repr

/-- A PROPOSE, ACCEPT or REVERT as received (R236). -/
structure PlanHead where
  type     : Nat
  epoch    : Nat
  base     : Nat
  mf       : Nat
  digest   : Nat
  entries  : Nat
  node     : Nat
  disputed : Nat
deriving DecidableEq, Repr

/-- A plan change that runs without a configuration transaction: an absence change (R33) or a revert (R244), with its
epoch, its switch multiframe and the disputed subcarriers. -/
structure PlanChange where
  revert   : Bool
  epoch    : Nat
  mf       : Nat
  disputed : Nat := 0
  /-- The local transmit direction has switched. -/
  switched : Bool := false
deriving DecidableEq, Repr

/-- What the crown keeps of a team's plan, by the team's lowest die. Log entry 144 DEDUCED. -/
structure TeamSt where
  /-- Transmit plans of this end and of the far end, by epoch, latest first (R242, R244). -/
  own     : List (Nat × DirPlan) := []
  far     : List (Nat × DirPlan) := []
  /-- The epoch of the receive direction. -/
  rxEpoch : Nat := 0
  /-- What is sent in the MSG slots: SEQ and the records of the current set (R235, R236). -/
  seq     : Nat := 0
  sending : List (List Byte) := []
  /-- The far end's proposal or answer being received, its entries by INDEX, and whether it was judged (R236). -/
  head    : Option PlanHead := none
  entries : List (Nat × List Byte) := []
  judged  : Bool := false
  /-- Proposer: ACCEPT is held and matches, with the far end's switch multiframe. Acceptor: CONFIRM is held. -/
  agreedM : Option Nat := none
  confirm : Bool := false
  /-- The acceptor sends GO at the start of its next multiframe (R240). -/
  goNext  : Bool := false
  /-- A change without a transaction. -/
  change  : Option PlanChange := none
  /-- The far end's next epoch as its headers 240 to 255 of this multiframe announce it. -/
  farNext : Option Nat := none
  /-- The multiframe of the last local switch while the handshake is open (R244). -/
  openAt  : Option Nat := none
  /-- Multiframes in a row in which the far end's epoch differed, and in which it was 0 (R244, R428). -/
  diffRun : Nat := 0
  zeroRun : Nat := 0
  /-- Subcarriers whose entries have differed from the agreed plan since (R244). -/
  dispute : Nat := 0
  /-- The team is held at base camp and its cairn subcarrier discovers (R415, R418); the far end that discovery chose. -/
  baseCamp : Bool := false
  peer    : Option (Nat × Nat) := none
  /-- Global subcarriers of slices that the far end has marked absent (R34). -/
  farAbsent : Nat := 0
  /-- A rebase waits for the next multiframe boundary (R428). -/
  rebase  : Bool := false
  /-- Dies that raise their slice to the plan (R37). -/
  rejoin  : List Nat := []
  /-- The PLAN section's plan of this team: staged values that epoch 1 and epoch 2 stage (R425, R427), by key. -/
  goal    : Store Nat := []
deriving DecidableEq, Repr

/-! ### Cairn discovery (spec/16, R418 to R429) -/

/-- An entry of the peer table (R423): identity, TEAM byte, S, Δ, power in 0.5 dB below full level, heard count, and the
superframe in which it was heard last, and how far its superframe count is ahead of the own (R420). -/
structure Peer where
  node  : Nat
  team  : Nat
  slice : Nat
  sc    : Nat
  power : Nat
  heard : Nat
  at_   : Nat
  grid  : Int := 0
deriving DecidableEq, Repr

/-- The packet in reception (R421, R422): power estimate, position, and the header once it is good. -/
structure CairnPkt where
  power  : ℚ
  pos    : Nat
  header : Option (List Byte) := none
deriving DecidableEq, Repr

/-- The cairn die of a team. Log entry 88 DEDUCED. -/
structure CairnSt where
  peers : List Peer := []
  pkt   : Option CairnPkt := none
  /-- The next burst carries the current message set: bursts alternate with ANNOUNCE (R420). -/
  turn  : Bool := false
  /-- The records of the message set that wait for a further burst (R419). -/
  rest  : List (List Byte) := []
  /-- Several compatible entries were heard together: nothing is chosen until a selection is written (R424). -/
  multi : Bool := false
deriving DecidableEq, Repr

/-- A unit under the disable rule (R98 to R101). Log entry 9 DESIGN CHOICE. -/
structure UnitSt where
  /-- The unit's enable. -/
  enabled : Bool := true
  /-- The unit drains; `since` is the drain's start in µs. -/
  draining : Bool := false
  since : Nat := 0
  /-- The unit accepts new work once idle (R101, first row). -/
  reenable : Bool := false
  /-- Work units the unit holds. -/
  work : Nat := 0
deriving DecidableEq, Repr

/-- A ring message of R48 before its CHECK is added: TYPE, SRC, DST and the 224-bit PAYLOAD; `ringFrame` gives its 256 bits.
Log entry 85 DESIGN CHOICE. -/
structure RingMsg where
  type    : Nat
  src     : Nat
  dst     : Nat
  payload : Nat
deriving DecidableEq, Repr

/-- A trunk block (R283): control or data, none for an invalid header, and its 64 payload bits, first sent first. -/
structure TrunkBlock where
  control : Option Bool
  bits    : List Bool
deriving DecidableEq, Repr

/-- What a command sends to the outside or onto the ring. Log entry 24 DESIGN CHOICE. -/
inductive Output where
  /-- A ring message (R48). -/
  | ring (m : RingMsg)
  /-- A management response message on a path (R61). -/
  | response (p : RemotePath) (bytes : List Byte)
  /-- A fault that a die detects and hands to the fault policy of R430. -/
  | fault (die : Nat) (r : FaultRec)
  /-- A group aggregate sent on the lower or upper bridge of a die (R152). -/
  | groupSum (die : Nat) (upper : Bool) (z : RemoteSum)
  /-- Words of a line DAC from a full-rate sample number on (R102). -/
  | dac (die path start : Nat) (codes : List Int)
  /-- Equalised symbols of a subcarrier (R141). -/
  | symbols (die sc : Nat) (ys : List Vec2)
  /-- Stream-bit LLRs of one matcher block of a subcarrier, polarisation 0 X or 1 Y, in 0.5 (R160, R200). -/
  | llrs (die sc pol : Nat) (ls : List Int)
  /-- Decoded bits of a stream with the errored mark (R208): stream 0 to 7 bulk, 8 express. -/
  | payload (die stream : Nat) (bits : List Bool) (errored : Bool)
  /-- Container words of a frame codeword of a stream, each with its entry of the die's slot table, the multiframe of their
  container period, and whether the codeword was errored (R251). -/
  | slotWords (die stream mf : Nat) (words : List (Nat × List Bool)) (errored : Bool)
  /-- A flow frame sent: its POH and data area (R252). -/
  | flowFrame (die flow : Nat) (poh data : List Byte)
  /-- Flow blocks delivered to the host lanes, each with its errored mark (R259). -/
  | blocks (die flow : Nat) (bs : List (List Bool × Bool))
  /-- A hello message on a lane (R290). -/
  | hello (die lane : Nat) (bytes : List Byte)
  /-- A block sent on a trunk lane, scrambled (R283). -/
  | laneBlock (die lane : Nat) (control : Bool) (bits : List Bool)
  /-- A group block received, which enters the row of its type, and a hello message found on a lane (R285, R286, R290). -/
  | groupBlock (die grp : Nat) (b : TrunkBlock)
  | helloFound (die lane : Nat) (bytes : List Byte)
  /-- The replacement signal of an Ethernet port, a sequence of Local Fault (R282). -/
  | localFault (die grp : Nat)
  /-- Pair-line signals: the P1 sequence (R400), the capabilities (NODE_ID, the K limits and the net rate in kb/s predicted
  for each K), a packet that enters the line (R404), and a codeword. -/
  | plmProbe
  | plmCaps (node kMin kMax : Nat) (rates : List (Nat × ℚ))
  | plmPacket (type : Nat) (payload : List Byte)
  | plmCodeword (bytes : List Byte)
  /-- A packet found in a received codeword (R404), which enters the row of its type. -/
  | plmReceived (type : Nat) (payload : List Byte)
  /-- A SYNC_OUT pulse (R380). -/
  | syncOut
  /-- A DMA row or engine access that waits elsewhere is not sent; a mirrored plan message, a cairn burst and a scan chain
  are (spec/08, spec/16, spec/17). -/
  | planMsg (team : Nat) (records : List (List Byte))
  | cairn (die : Nat) (symbols : List Int)
  | scan (bits : List Bool)
deriving DecidableEq, Repr

/-- The state of an image load on one die (R81, R82). -/
structure LoadSt where
  /-- The chunks (24 bytes each) received so far. -/
  chunks : List Nat := []
  /-- The digest this die computed, and whether its checks passed with which reason. -/
  result : Option Nat := none
  digest : List Byte := []
  rollback : Nat := 0
deriving DecidableEq, Repr

/-- OTP of one die (R79, R80): the programmed items as words, lowest first. -/
structure OtpSt where
  keyHash : Option (List Nat) := none
  imageKey : Option (List Nat) := none
  goldenLock : Option Nat := none
  /-- Fuse bits blown in the rollback counter. -/
  rollback : Nat := 0
deriving DecidableEq, Repr

/-- The loader, the flash command engine and the OTP programmer of the crown (R80 to R86). -/
structure ImageSt where
  /-- The copy being tried: 1 update, 2 golden, 3 host buffer; none when no load runs. -/
  trying : Option Nat := none
  /-- The loader is reading the flash (R84). -/
  reading : Bool := false
  /-- The flash command running: code, address and data. -/
  flashCmd : Option (Nat × Nat × Nat) := none
  /-- The words written to IMG_OTP_DATA since the counter last cleared. -/
  otpWords : List Nat := []
  /-- The OTP programming or rollback advance that runs: its item and words. -/
  otpJob : Option (Nat × List Nat) := none
  /-- Dies whose result has reached the crown in this load. -/
  results : List (Nat × Nat) := []
  /-- The dies waiting for the crown's image (R85), and the active values of their staged fields as the crown holds
  them. -/
  resend : List Nat := []
  kept : Store Nat := []
deriving DecidableEq, Repr

/-! ### Converters and calibration (spec/04) -/

/-- Converters and calibration loops of one die. -/
structure CnvSt where
  /-- OWNER written while a switch is pending (R113). -/
  ownerNext : Option Bool := none
  /-- The delays applied now, in 0.05 ps, while they slew to FINE (R121). -/
  fineRx : Int := 0
  fineTx : Int := 0
  /-- Valid estimates collected by acquisition, and the last four valid ones, of the lower seam, in 0.01 ps (R123,
  R124). -/
  acq : List ℚ := []
  lastLo : List ℚ := []
  /-- The lower seam's loop has tracked since it last acquired; the estimate of a restored record that acquisition starts from
  (R123, R128). -/
  tracked : Bool := false
  seed : Option ℚ := none
  /-- The receive arms wait for acquisition to set WHOLE after a return of the sampling reference (R121). -/
  resumeDue : Bool := false
  /-- Multiframes in a row with the lower seam's skew above the alarm threshold (R123). -/
  alarmRun : Nat := 0
  /-- Reports in a row above TX_LIMIT, and the multiframe of the last report (R125). -/
  txRun : Nat := 0
  txLast : Option Nat := none
  /-- The foreground pass running: its scope, and the attempts that have failed (R120). -/
  fgScope : Nat := 0
  fgFailed : Nat := 0
  /-- The last foreground ADC pass was full (R126). -/
  lastFull : Bool := false
  /-- A save waits for a pending switch (R113). -/
  saveDue : Bool := false
  /-- A restore waits for a pending switch; a restored record's switch has not completed (R113, R128). -/
  restoreDue : Bool := false
  restoring : Bool := false
  /-- The outcome a running save or restore will show: RESULT code (R127, R128). -/
  recResult : Option Nat := none
  /-- A restored record is being verified; an estimate has failed (R129). -/
  verifying : Bool := false
  verifyBad : Bool := false
  /-- FLAGS bit 1 of the restored record (R412). -/
  recConverged : Bool := false
deriving DecidableEq, Repr

/-! ### Receive path (spec/05) -/

/-- The receive arm of a subcarrier. Its STATE is in `RXD_SC_STATUS_i`. -/
structure RxArm where
  /-- The step of R148 the arm is at: 1 loading, 2 dispersion, 3 waiting for training, 4 trained. -/
  step : Nat := 0
  /-- The held dispersion in ps/nm: the part in c_j and the residual in M_j (R146). -/
  cd : Option Int := none
  resid : ℚ := 0
  /-- The taps W_j, lowest frequency first, and the per-tone power P_j. -/
  taps : List Mat2 := []
  power : List ℚ := []
  /-- The taps the quality reports use: the last training result while FREEZE is 1 (R144). -/
  report : List Mat2 := []
  /-- Trainings applied since the start or wake, and the SNR in dB at the first of them (R149); the SNR in dB at the latest
  trainings after the third, latest first, in carrier lock throughout (R148, step 7). -/
  trainings : Nat := 0
  firstSnr : ℚ := 0
  snrs : List ℚ := []
  /-- The arm has been trained since it last sought the clock tone (R139). -/
  everTrained : Bool := false
  /-- The total SNR of the last quality window in 0.01 dB, and the noise variance of each polarisation. -/
  snr : Option Int := none
  sigmaX : ℚ := 1
  sigmaY : ℚ := 1
  /-- Carrier lock, and superframes in a row without it (R156). -/
  locked : Bool := false
  unlockRun : Nat := 0
  /-- The joint-phase offset ψ, the smoothed size of its correction, and the intervals it has stayed below 0.1 rad
  (R153). -/
  psi : ℚ := 0
  psiMag : ℚ := 0
  psiRun : Nat := 0
  /-- The unit is in the sums of R151: added after 256 intervals, removed at a superframe boundary (R153). -/
  inSum : Bool := false
  /-- The latest pilot sums c(k), newest first (R150), and the last phase. -/
  hist : List Cpx := []
  theta : ℚ := 0
  /-- What the phase has turned by in this superframe, and in the one before (R134), in radians. -/
  swing : ℚ := 0
  slope : ℚ := 0
  /-- The resampler's rate offset in ppm and phase in symbols (R138, R139), and the time of the next symbol to deliver, in
  local symbols (R162). -/
  rate : ℚ := 0
  phase : ℚ := 0
  nextAt : Option ℚ := none
  /-- In the running quality window: the arm was in tracking state, and it or its plan changed (R162, R164). -/
  tracked : Bool := false
  mixed : Bool := false
  /-- The arm lost the sampling reference before it had state to hold (R162). -/
  coldDue : Bool := false
  /-- Matcher blocks completed in this multiframe and the label LLRs of the block being filled, per polarisation, one
  list of labels for each amplitude position (R172, R200). -/
  block : Nat := 0
  labX : List (List Int) := []
  labY : List (List Int) := []
  /-- STATE before the last wake from retained state, which a revert returns to (R91, R184): 0 or 5. -/
  wokeFrom : Nat := 0
deriving DecidableEq, Repr

/-- A remote group of R152 as a die keeps it. -/
structure RemoteGroup where
  psi : ℚ := 0
  psiMag : ℚ := 0
  psiRun : Nat := 0
  inSum : Bool := false
  hist : List Cpx := []
deriving DecidableEq, Repr

/-- The receive front end of a die: F in kHz and, at a lead, the F sent with an apply tick (R134). -/
structure RxDie where
  freq : Int := 0
  freqNext : Option Int := none
  /-- The running means of the four paths, and the first sample they have not counted (R132). -/
  dc : List ℚ := []
  dcNext : Nat := 0
  /-- The far end's pilot boost in 0.5 dB, from its plan (R174). -/
  boost : Nat := 0
  /-- The shared exponents of the two own groups, and the intervals of their 64 that have passed (R152). -/
  zExp : List Nat := []
  zCount : Nat := 0
deriving DecidableEq, Repr

/-- The smoothed statistics of one seam tone (R157). Log entry 19 DESIGN CHOICE. -/
structure SeamStat where
  aa : Mat2 := {}
  ab : Mat2 := {}
  bb : Mat2 := {}
deriving DecidableEq, Repr

/-- One side of a die's seams (R157 to R159). -/
structure SeamSt where
  stats : List SeamStat := []
  /-- Superframes of statistics in this multiframe, and the sum of 10 log10(1/w_j) with the number of combined tones. -/
  sf : Nat := 0
  gain : ℚ := 0
  tones : Nat := 0
  /-- The weights w_j in use. -/
  weights : List ℚ := []
  /-- The bridge direction is lost; the neighbour marks its tones invalid. -/
  lost : Bool := false
  invalid : Bool := false
deriving DecidableEq, Repr

/-! ### Transmit path (spec/06) -/

/-- The transmit front end of a die. Log entry 27 DESIGN CHOICE. -/
structure TxDie where
  /-- The applied level and its ramp, in 0.05 dB below full scale (R179). -/
  level : Nat := 420
  /-- OWNER written while a LUT switch is pending (R113, R181). -/
  ownerNext : Option Bool := none
  /-- The corrections applied now: IQ, XY balance and skew words (R182). -/
  iq : Nat := 0
  bal : Nat := 0
  skew : Nat := 0
deriving DecidableEq, Repr

/-- The coding of a transmit stream (R191, R192, R222): the scrambler's state; information bits that fill no frame codeword
yet; frame codewords that fill no LDPC codeword yet; LDPC codewords that wait for their group of four; coded bits not yet
sent, and the stream position of the first of them; the slots of its container period with the words dealt in it (R251); a
multiframe with the stream position at its start. -/
structure TxCoding where
  scr   : Nat := 2 ^ 31 - 1
  info  : List Bool := []
  outer : List Bool := []
  words : List (List Bool) := []
  coded : List Bool := []
  pos   : Nat := 0
  slots : List Nat := []
  turn  : Nat := 0
  mark  : Nat := 0
  markMf : Nat := 0
deriving DecidableEq, Repr

/-- The transmit arm of a subcarrier. Its STATE is in `TXD_SC_STATUS_i`. Index 8 of a die holds the coding of the express
stream. -/
structure TxArm where
  /-- The applied tilt, in 0.05 dB (R179). -/
  tilt : Int := 0
  /-- The STATE before the transaction that wakes the arm, to return to (R184). -/
  before : Nat := 0
  /-- The commit multiframe of a wake in progress has begun (R184). -/
  due : Bool := false
  /-- The transaction that wakes it has an M. -/
  waking : Bool := false
  /-- The coding of its bulk stream, the symbols of matcher blocks that reach into the next superframe, and the blocks sent in
  this multiframe (R172, R192). -/
  coding : TxCoding := {}
  symX : List Cpx := []
  symY : List Cpx := []
  blockTx : Nat := 0
  /-- The section BIP-8 of the last superframe (R225), and its last 128 symbols, which the filters still hold (R175). -/
  bip : Nat := 0
  last : List Vec2 := []
  /-- The container words that wait for each slot of the subcarrier, oldest first (R251, R252). -/
  waiting : List (List (List Bool)) := List.replicate 24 []
deriving DecidableEq, Repr

/-! ### Soft-decision coding (spec/07) -/

/-- An accepted code table (R198): entries as row, column and shift. -/
structure CodeTable where
  name    : Nat
  express : Bool
  zlog2   : Nat
  rows    : Nat
  cols    : Nat
  outer   : Bool
  entries : List (Nat × Nat × Nat)
deriving DecidableEq, Repr

/-- A codeword with its channel LLRs in 0.5: stream 0 to 7 bulk, 8 express; its number in the stream and its table. -/
structure Codeword where
  stream : Nat
  seq    : Nat
  slot   : Nat
  llr    : List Int
deriving DecidableEq, Repr

/-- A decoded codeword in the reorder stage: its information bits and whether it converged. -/
structure Decoded where
  stream : Nat
  seq    : Nat
  bits   : List Bool
  ok     : Bool
deriving DecidableEq, Repr

/-- A codeword in a cluster with the parameters held when its decoding started (R204, R213). -/
structure ClusterJob where
  cw     : Codeword
  budget : Nat
  minIt  : Nat
  early  : Bool
  offset : Nat
deriving DecidableEq, Repr

/-- One coded stream at the receiver (R192, R194, R206, R208). -/
structure StreamSt where
  /-- The number the next released codeword takes, and the number that leaves the reorder stage next. -/
  nextIn  : Nat := 0
  nextOut : Nat := 0
  /-- The stream pointer, BCH pointer and scrambler state expected in the next STREAM record, with the multiframe of the
  last one. -/
  ptr : Nat := 0
  bch : Nat := 0
  scr : Nat := 0
  mf  : Nat := 0
  /-- Multiframes in a row in which the record disagreed. -/
  bad : Nat := 0
  /-- Bits of the BCH codeword being collected. -/
  bchBits : List Bool := []
  /-- Information bits still to skip before the first frame codeword, from the codeword with number `start`, and the
  descrambler's state there (R224); the descrambler's state at the next frame codeword (R222). -/
  start : Option Nat := none
  skip : Nat := 0
  startScr : Nat := 0
  scrRx : Nat := 0
  /-- Containers (R250, R251): the number of the next frame codeword from that codeword on, the last known anchor codeword, the
  anchors that lie ahead with their multiframes, the multiframe in which the count began, and the container period: its
  multiframe, its slots and the words dealt in it. -/
  cw : Nat := 0
  anchor : Nat := 0
  ahead : List (Nat × Nat) := []
  startMf : Nat := 0
  period : Nat := 0
  slots : List Nat := []
  turn : Nat := 0
deriving DecidableEq, Repr

/-- The decoders of a die. -/
structure FecSt where
  tables   : List CodeTable := []
  queue    : List Codeword := []
  clusters : List (Option ClusterJob) := List.replicate 8 none
  reorder  : List Decoded := []
  /-- Running iteration bins 1 to 24 and FAIL (R211). -/
  bins     : List Nat := List.replicate 25 0
  /-- The dedicated cluster the last express codeword went to, and the number of clusters the last commit dedicates
  (R203). -/
  lastExp  : Nat := 0
  ec       : Nat := 0
deriving DecidableEq, Repr

/-! ### Carrier frame (spec/08) -/

/-- A frame-alignment candidate (R228): its period, its count, the metrics of its matches (last first) and the superframe
and multiframe numbers of their good headers. -/
structure Cand where
  pos     : Nat
  count   : Nat
  metrics : List ℚ := []
  heads   : List (Option (Nat × Nat)) := []
deriving DecidableEq, Repr

/-- Frame alignment and defects of a receive arm; index 8 of a die holds the runs of LOS. -/
structure FrmArm where
  cands   : List Cand := []
  /-- The period at which frames start, and the errored FAS in a row. -/
  pos     : Nat := 0
  fasRun  : Nat := 0
  /-- The arm's own count of the superframe last received, good headers in a row that continue it, superframes in a row
  that do not, and the numbers of a header that broke it (R230). -/
  sf      : Nat := 0
  mfc     : Nat := 0
  goodRun : Nat := 0
  badRun  : Nat := 0
  broke   : Option (Nat × Nat) := none
  /-- SBIP of the last header, and the REI to send back (R225). -/
  sbip    : Option Nat := none
  reiTx   : Nat := 0
  /-- Samples in a row with and without the raw condition, by defect (R232). -/
  raw     : List Nat := []
  clear   : List Nat := []
deriving DecidableEq, Repr

/-! ### Flows, keys and check units (spec/09) -/

/-- A loaded key: its 32 bytes, its label and its check value (R264). -/
structure KeySlot where
  key : List Byte
  id  : Nat
  kcv : Nat
deriving DecidableEq, Repr

/-- Both directions of a flow. -/
structure FlowSt where
  /-- Blocks in the transmit buffer, oldest first. -/
  buffer  : List (List Bool) := []
  /-- Transmit: frames since the last promotion, parity and tag of the previous frame. -/
  kfc     : Nat := 0
  txBip   : Nat := 0
  txTag   : List Byte := []
  reiTx   : Nat := 0
  /-- Key slots. -/
  txCur   : Option KeySlot := none
  txNext  : Option KeySlot := none
  rxCur   : Option KeySlot := none
  rxNext  : Option KeySlot := none
  /-- Receive: NB, KP and ENC of the previous frame; its parity when its POH was good, and the tag expected for it. -/
  nb      : Nat := 0
  kp      : Bool := false
  enc     : Bool := false
  rxBip   : Option Nat := none
  rxTag   : Option (List Byte) := none
  /-- The check blocks that the far end's plan declares: APPEND, POLY, SPAN (R268, R271). -/
  farAppend : Bool := false
  farPoly   : Nat := 0
  farSpan   : Nat := 64
  /-- Blocks that wait for a trunk group that is not up (R302), oldest first, and whether the last tag from the host
  carried REPLACE (R297). -/
  toHost    : List (List Bool × Bool) := []
  /-- Blocks that the flow still owes the trunk group that it has left, and that group (R279, R302). -/
  toOld     : List (List Bool × Bool) := []
  oldGrp    : Nat := 0
  replaceRx : Bool := false
  /-- Samples in a row with and without each raw condition (R260). -/
  raw     : List Nat := []
  clear   : List Nat := []
deriving DecidableEq, Repr

/-- A key command that runs: the RESULT code it will show and, when it is good, the slot's new contents (R264). -/
structure KeyJob where
  flow   : Nat
  rx     : Bool
  next   : Bool
  result : Nat
  key    : Option KeySlot
deriving DecidableEq, Repr

/-- A check-value unit (R267 to R270): running value, span position, held writes. -/
structure CrcSt where
  running : Nat := 0
  pos     : Nat := 0
  carry   : Option Nat := none
  heldCfg : Option Nat := none
  heldRun : Option Nat := none
deriving DecidableEq, Repr

/-! ### Host lanes (spec/10) -/

/-- A hello message (R290). -/
structure Hello where
  node  : Nat
  die   : Nat
  lane  : Nat
  size  : Nat
  up    : Nat
  epoch : Nat
  cap   : Nat
  state : Nat
deriving DecidableEq, Repr

/-- A host lane: the partner's last good hello, good hellos since lock, and the last ALIGN (position, size, epoch, count).
Its state is in `HLN_LANE_STATUS_l`. -/
structure LaneSt where
  heard : Option Hello := none
  good  : Nat := 0
  align : Option (Nat × Nat × Nat × Nat) := none
  /-- Trunk transmit (R283, R285, R287): blocks sent, blocks since the last FILLER, group blocks dealt to the lane, and the last
  58 scrambled bits, latest first. -/
  sent   : Nat := 0
  filled : Nat := 0
  dealt  : Nat := 0
  scrTx  : List Bool := List.replicate 58 false
  /-- Trunk receive: the last 58 scrambled bits, the bytes of a hello message that is arriving, the number of the next group
  block, and the group blocks that wait for their turn. -/
  scrRx  : List Bool := List.replicate 58 false
  hello  : List Byte := []
  next   : Nat := 0
  held   : List (Nat × TrunkBlock) := []
deriving DecidableEq, Repr

/-- A lane group: its active lanes by position, its partner, whether the receive direction counts as up, whether FOLLOW has
fallen back to LOCAL (R282), and a re-form that resumes after a wake (R302). -/
structure GrpSt where
  order   : List Nat := []
  partner : Option Nat := none
  rxUp    : Bool := false
  limited : Bool := false
  resume  : Bool := false
  /-- Group blocks dealt, and taken in turn, since the group came up; data blocks that a burst still expects (R285, R286). -/
  turnTx  : Nat := 0
  turnRx  : Nat := 0
  burst   : Nat := 0
deriving DecidableEq, Repr

/-! ### Memories and engines (spec/11) -/

/-- A scratchpad bank: the pending owner (kind, owner) of R310 and power request, whether a destructive march holds it,
and the spare rows found unusable (R327). Its other state is in its registers. Log entry 47 DEDUCED. -/
structure BankSt where
  owner     : Option (Nat × Nat) := none
  power     : Option Nat := none
  march     : Bool := false
  badSpares : Nat := 0
deriving DecidableEq, Repr

/-- A tightly coupled memory: 0 on, 1 retained, 2 off, 3 filling; taken out of use; held by a destructive march. -/
structure TcmSt where
  power  : Nat := 0
  failed : Bool := false
  march  : Bool := false
deriving DecidableEq, Repr

/-- The scrub and the march of a die: the range of the scrub running (R323), the memories under march with the mode, true
for content-preserving (R325). -/
structure MemSt where
  scrub : Option (Nat × Nat) := none
  march : Option (List MemId × Bool) := none
  /-- The march that runs is the one of a start (R326). -/
  boot  : Bool := false
deriving DecidableEq, Repr

/-- A complex element (R305). -/
structure CElem where
  i : Int := 0
  q : Int := 0
deriving DecidableEq, Repr

/-- An engine: the machine-mode registers of RV32IMC with Zicsr, the vector registers and accumulators, the sticky
overflow flag of CSR 0x7C1 and the channel status it reads at CSR 0x7C2 (R303, R305, R311). Log entry 143 DEDUCED. -/
structure EngSt where
  pc       : Word := 0
  x        : List Word := List.replicate 32 0
  mie      : Bool := false
  mpie     : Bool := false
  mieReg   : Word := 0
  mtvec    : Word := 0
  mscratch : Word := 0
  mepc     : Word := 0
  mcause   : Word := 0
  mtval    : Word := 0
  cycle    : Nat := 0
  instret  : Nat := 0
  sat      : Bool := false
  dmaErr   : Bool := false
  cv       : List (List CElem) := List.replicate 8 (List.replicate 8 {})
  ca       : List (List CElem) := List.replicate 2 (List.replicate 8 {})
deriving DecidableEq, Repr

/-- A copy queued on a DMA channel (R311), by the engine that queued it. -/
structure DmaJob where
  eng : Nat
  src : DmaEnd
  dst : DmaEnd
  len : Nat
deriving DecidableEq, Repr

/-! ### Power (spec/12) -/

/-- The wake controller of a die: the state each domain is on its way to (R333), the PLLs that were started and have not
locked (bits 0 sampling, 1 fabric, 2 engine), and the die's temperature as the crown last took it (R376, R381). -/
structure PwrSt where
  want    : List (Nat × Nat) := []
  pllRun  : Nat := 0
  temp    : Int := 0
deriving DecidableEq, Repr

/-- The step of the package manager that is open (R341). -/
inductive MgrStep where
  | slots
  | wake (die sc : Nat)
  | sleep (die sc : Nat)
  | shed
  | restore
deriving DecidableEq, Repr

/-- The package manager for one team, by its lowest die (R340 to R347): the open step, a woken subcarrier whose arm does
not track yet, windows spent waiting on a dirty die, windows to wait after a refusal, windows since the last shed or
restore, and the run of windows with spare slots, by die and subcarrier. The record of the whole package (instance 8) also
keeps whether the warning temperature still acts (down to WARN − HYST) and whether a critical shed is due (R346). -/
structure MgrSt where
  step     : Option MgrStep := none
  waking   : Option (Nat × Nat) := none
  dirty    : Nat := 0
  holdoff  : Nat := 0
  since    : Nat := 0
  spareRun : List (Nat × Nat) := []
  hot      : Bool := false
  critDue  : Bool := false
deriving DecidableEq, Repr

/-- What the manager keeps of a flow at its home die: the slots held before it was shed (R347), and the windows in a row in
which the target stayed below the slots (R341). -/
structure FlowPwr where
  held : Nat := 0
  run  : Nat := 0
deriving DecidableEq, Repr

/-! ### Timing (spec/13) -/

/-- The monitor of a reference slot: its last frequencies in 0.1 ppb, newest first; its last phase error in ps; the seconds in a row within limits;
the seconds it has been qualified; the seconds at which it entered lost; the seconds its rank conflict has been clear;
and whether it has a fresh sample since a takeover (R355 to R358, R364). -/
structure RefSt where
  freqs    : List Int := []
  phase    : Int := 0
  good     : Nat := 0
  age      : Nat := 0
  lostAt   : List Nat := []
  clear    : Nat := 0
  fresh    : Bool := false
  /-- The phase error at the last second, from which a LINE slot's slope is taken (R355). -/
  prev     : Option Int := none
deriving DecidableEq, Repr

/-- The package timing function: time of day and DPLL. -/
structure TimSt where
  /-- Time-of-day seconds (48 bits), nanoseconds and fraction in 2^−16 ns. -/
  todSec  : Nat := 0
  todNs   : Nat := 0
  todFrac : Nat := 0
  /-- LOAD is armed for the next second boundary (R369). -/
  loadDue : Bool := false
  /-- The time-of-day in 2^−16 ns at the start of the last 16 multiframes (R246), newest first. -/
  txStamps : List (Nat × Nat) := []
  /-- Seconds of the monitors, and the second at which the DPLL entered its state. -/
  now     : Nat := 0
  /-- History samples with their second, newest first, in 2^−16 ppb (R362). -/
  samples : List (Nat × Int) := []
  /-- The frozen history value, the second the freeze ended, and the seconds in a row without a warning (R363). -/
  frozen  : Option Int := none
  thawed  : Option Nat := none
  calm    : Nat := 0
  /-- The mean of the last locked second (R359). -/
  lastMean : Int := 0
  /-- Phase error of the selected slot in ps (R360). -/
  phase   : Int := 0
  /-- The frequency held at entry to acquiring (R361). -/
  entry   : Int := 0
  /-- The step pending and whether it also sets TOD_VALID (R361, R365). -/
  step    : Option Int := none
  stepTod : Bool := false
  /-- Pending offsets P_j in ps (R366). -/
  pend    : List ℚ := [0, 0, 0, 0]
  /-- Outputs named by the last GO that have not reached 0, in slew; a GO that waits for a pending step: its mask and mode
  (R367, R372). -/
  slewing : Nat := 0
  waitGo  : Option (Nat × Bool) := none
  /-- The DPLL waits for fresh samples after a takeover (R364). -/
  holdTake : Bool := false
deriving DecidableEq, Repr

/-! ### Housekeeping and watch chain (spec/14) -/

/-- A running pass (R377): the entries it took at its start, each as MODE, ALIGN, INPUT_A and INPUT_B, and the next to
convert. -/
structure PassCfg where
  entries : List (Nat × Nat × Nat × Nat)
  next    : Nat := 0
deriving DecidableEq, Repr

/-- The sequencer of a die: the running pass, the urgent conversion running, a trigger that starts its pass when the urgent
conversion ends, whether the next sensors are T1 and T3, and a SYNC_OUT pulse requested at the next superframe boundary
(R376 to R380). Log entry 62 DEDUCED. -/
structure SeqSt where
  pass     : Option PassCfg := none
  urgent   : Option (Nat × Nat × Nat × Nat) := none
  trigWait : Bool := false
  second   : Bool := false
  syncOut  : Bool := false
deriving DecidableEq, Repr

/-- A watch channel (R382 to R389): the last FIR inputs, newest first, and the inputs in the group of D; the two states of
each biquad section; the resampler's accumulator, the inputs it still consumes before its next output and its last
inputs, newest first; the delay line, newest first; and the runs of high, not-high, low and not-low samples. -/
structure WchSt where
  fir    : List Int := []
  group  : Nat := 0
  biq    : List (Int × Int) := []
  acc    : Nat := 0
  skip   : Nat := 0
  hist   : List Int := []
  line   : List Int := []
  hiRun  : Nat := 0
  hiClr  : Nat := 0
  loRun  : Nat := 0
  loClr  : Nat := 0
deriving DecidableEq, Repr

/-! ### Pair-line modem (spec/15) -/

/-- The modem of the crown: the transmit window, the packets held for the host (type and payload), the host packet that
waits, the bytes of a packet that runs on into the next codeword, whether it resynchronises on FIRST, and the SELECTs sent
and received that wait for the codeword boundary. -/
structure PlmSt where
  txWindow : List Nat := List.replicate 256 0
  rx       : List (Nat × List Byte) := []
  tx       : Option (Nat × List Byte) := none
  part     : List Byte := []
  resync   : Bool := true
  sentSel  : Option Nat := none
  gotSel   : Option Nat := none
  /-- The bytes of packets that wait for a codeword, and the places where packets start in them (R404). -/
  line     : List Byte := []
  marks    : List Nat := []
deriving DecidableEq, Repr

/-! ### Pins (spec/17) -/

/-- Input pins and rails. Log entry 1 DESIGN CHOICE. -/
structure PinSt where
  /-- RESET_N is high. -/
  resetN : Bool := true
  /-- POR is released (R448). -/
  porDone : Bool := false
  /-- Levels that the board gives the GPIO balls. -/
  gpio : Nat := 0
  /-- Rails below their thresholds at each die's balls: bit 5 × die + rail, 0 core, 1 ret, 2 cnv, 3 hl, 4 io (R449); and
  whether a die rail has been low on every die at once since the last package reset (R451). -/
  low : Nat := 1099511627775
  allFell : Bool := false
  /-- VDDIO is below its threshold: the package is held in package reset (R449). -/
  ioLow : Bool := false
  /-- The package waits for a rail or RESET_N before its cold start begins (R448, R450, R451). -/
  waiting : Bool := true
  /-- REFXO is valid (R331). -/
  refxo : Bool := false
deriving DecidableEq, Repr

/-- A test access port (R452): its instruction (0 BYPASS, 1 SAMPLE/PRELOAD, 2 EXTEST, 3 IDCODE, 4 CLAMP, 5 HIGHZ) and the
preloaded boundary register. Log entry 105 PRESUMED. -/
structure TapSt where
  ir    : Nat := 3
  cells : List Bool := []
deriving DecidableEq, Repr

end Sys2Proof.Machine
end

