-- ==== Sys2Proof/Machine/State.lean ====
section
/-! DEFINITION. The state of the package as plain data: every register field, every internal table, memory, pins and the
queue of waiting commands, with the state right after power-on reset. -/
namespace Sys2Proof.Machine

/-- Why the machine stops with a fault. -/
inductive Fault where
  /-- Raised by no meaning: a command that names a die index the ordered part does not have changes nothing (R2, R54).
  Safe: the hardware has no such event. -/
  | noSuchDie
deriving DecidableEq, Repr

/-- Why a command has no meaning. -/
inductive Refusal where
  /-- Raised by an arm of `exec` whose command is not modelled yet. Safe: nothing is claimed about it. -/
  | notModelled (mnemonic : String)
deriving DecidableEq, Repr

/-- The package (R2). -/
structure State where
  /-- The ordered part (R2, R3). -/
  part    : Part
  /-- Register fields: the active value of each field, listed when it differs from the field's reset value. -/
  regs    : Store Nat
  /-- Staged copies that were written since the last PREPARE or DISCARD (R87). -/
  staged  : Store Nat
  /-- The pending set of an open transaction (R90). -/
  pend    : Store Nat
  /-- The former active values of the last commit (R94). -/
  shadow  : Store Nat
  /-- Tightly coupled memories and scratchpad banks, by management byte address. -/
  mem     : List Host.Cell
  /-- The external flash, by flash byte address (R74). -/
  flash   : List Host.Cell
  /-- OTP contents of each die (R80). -/
  otp     : Store OtpSt
  /-- The die identifier fused into each die (`CAL_DIE_ID_LO`, `CAL_DIE_ID_HI`). -/
  dieId   : Store Nat
  /-- The time count (spec/02). -/
  time    : Time
  /-- Life cycle and agreement of each die. -/
  dies    : Store DieSt
  /-- Crown token, takeover and handover. -/
  crown   : CrownSt
  /-- Management endpoint. -/
  bus     : BusSt
  /-- The open or last configuration transaction. -/
  txn     : TxnSt
  /-- Loader, flash and OTP sequencers. -/
  image   : ImageSt
  /-- Image load of each die. -/
  load    : Store LoadSt
  /-- Units under the disable rule, by die, block and unit. -/
  units   : Store UnitSt
  /-- Block resets that wait for their block to report idle, by die and block (R15). -/
  blkRst  : Store Bool
  /-- Converters and calibration loops of each die. -/
  cnv     : Store CnvSt
  /-- Coefficient sets A and B and the restored set, by die, set and word of the window (R111). -/
  coef    : Store Nat
  /-- Rejections in a row and accurate updates in a row, by die and term (R117, R119). -/
  calRej  : Store Nat
  calRun  : Store Nat
  /-- Calibration record windows, by die and word (R127). -/
  calWin  : Store Nat
  /-- Receive arms, by die and subcarrier; remote groups, by die and 2 × source die + half; front ends; seams, by die and
  side (0 lower, 1 upper). -/
  rxArms  : Store RxArm
  groups  : Store RemoteGroup
  rxDies  : Store RxDie
  seams   : Store SeamSt
  /-- Transmit front ends; transmit arms, by die and subcarrier; look-up tables and FIR taps, by die, set, kind and
  index (R181). -/
  txDies  : Store TxDie
  txArms  : Store TxArm
  lut     : Store Nat
  /-- Decoders, by die; coded streams, by die and stream. -/
  fec     : Store FecSt
  streams : Store StreamSt
  /-- Frame alignment, by die and subcarrier. -/
  frm     : Store FrmArm
  /-- Flows, by die and flow; key commands running, by die; check units, by die and unit. -/
  flows   : Store FlowSt
  keyJobs : Store KeyJob
  crc     : Store CrcSt
  /-- Host lanes and groups, by die and index; the timestamp queue of each die (R299). -/
  lanes   : Store LaneSt
  grps    : Store GrpSt
  stamps  : Store (List (List Nat))
  /-- Error marks of stored words, by die and the word's die-window offset (R317); banks, by die and bank; tightly coupled
  memories and engines, by die and engine; DMA queues, by die and cluster; scrub and march of each die. -/
  wordErr : Store WordErr
  banks   : Store BankSt
  tcms    : Store TcmSt
  engs    : Store EngSt
  dma     : Store (List DmaJob)
  memSts  : Store MemSt
  /-- Wake controllers, by die; the package manager, by the lowest die of a team, and its record of each flow; the windows
  counted in multiframes. -/
  pwr     : Store PwrSt
  mgr     : Store MgrSt
  flowPwr : Store FlowPwr
  /-- The package timing function and its reference monitors, by slot. -/
  tim     : TimSt
  refs    : Store RefSt
  /-- Sequencers, by die; watch channels, by die and channel; the pair-line modem. -/
  seqs    : Store SeqSt
  wch     : Store WchSt
  plm     : PlmSt
  /-- Plan epochs, by the lowest die of a team; cairn discovery, by die; the times of transient faults in multiframes, by
  die, level, block and unit (R430). -/
  teams   : Store TeamSt
  cairn   : Store CairnSt
  retries : Store (List Nat)
  /-- Pins and rails; test access ports, by die. -/
  pins    : PinSt
  taps    : Store TapSt
  /-- What the last command sent. -/
  out     : List Output
  /-- The model's own counter of free values. -/
  fresh   : Nat
  /-- Commands waiting, first in, first out. -/
  pending : List Instr
deriving DecidableEq, Repr

/-- The package right after power-on reset of an FRN-2D-S with blank fuses, before POR releases (R13, R448).
Log entries 1 DESIGN CHOICE, 2 DESIGN CHOICE. -/
def State.reset : State where
  part := { size := .d2, isX := false }
  regs := []
  staged := []
  pend := []
  shadow := []
  mem := []
  flash := []
  otp := []
  dieId := []
  time := {}
  dies := []
  crown := {}
  bus := {}
  txn := {}
  image := {}
  load := []
  units := []
  blkRst := []
  cnv := []
  coef := []
  calRej := []
  calRun := []
  calWin := []
  rxArms := []
  groups := []
  rxDies := []
  seams := []
  txDies := []
  txArms := []
  lut := []
  fec := []
  streams := []
  frm := []
  flows := []
  keyJobs := []
  crc := []
  lanes := []
  grps := []
  stamps := []
  wordErr := []
  banks := []
  tcms := []
  engs := []
  dma := []
  memSts := []
  pwr := []
  mgr := []
  flowPwr := []
  tim := {}
  refs := []
  seqs := []
  wch := []
  plm := {}
  teams := []
  cairn := []
  retries := []
  pins := {}
  taps := []
  out := []
  fresh := 0
  pending := []

end Sys2Proof.Machine
end

