-- ==== Sys2Proof/Machine/Ops.lean ====
section
/-! DEFINITION. The named operations over the state that every meaning is written with: bits and signed numbers, register
fields, counters, staged copies, per-die records, memory words, time. -/
namespace Sys2Proof.Machine
open Sys2Proof

/-! ### Numbers -/

/-- Bit `i` of a number. -/
def bit (n i : Nat) : Bool := n.testBit i

/-- A Boolean as 0 or 1. -/
def b2n (b : Bool) : Nat := if b then 1 else 0

/-- `n` with bit `i` set to `b`. -/
def setBit (n i : Nat) (b : Bool) : Nat :=
  if n.testBit i then (if b then n else n - 2 ^ i) else (if b then n + 2 ^ i else n)

/-- The `w`-bit field of `n` at bit `lo`. -/
def bitsAt (n lo w : Nat) : Nat := (n >>> lo) % 2 ^ w

/-- `n` with its `w`-bit field at bit `lo` replaced by `v`. -/
def setBitsAt (n lo w v : Nat) : Nat := n - (bitsAt n lo w) * 2 ^ lo + (v % 2 ^ w) * 2 ^ lo

/-- The bits of `a` that are not in `b`. -/
def clearBits (a b : Nat) : Nat := a - (a &&& b)

/-- A `w`-bit number read as two's complement. -/
def toSigned (w n : Nat) : Int := if n % 2 ^ w < 2 ^ (w - 1) then (n % 2 ^ w : Nat) else (n % 2 ^ w : Nat) - (2 ^ w : Nat)

/-- The `w`-bit two's complement code of an integer. -/
def ofSigned (w : Nat) (i : Int) : Nat := (i % (2 ^ w : Nat)).toNat

/-- The nearest number in a range. -/
def clamp (lo hi n : Nat) : Nat := if n < lo then lo else if hi < n then hi else n

/-- The nearest integer in a range. -/
def clampInt (lo hi n : Int) : Int := if n < lo then lo else if hi < n then hi else n

/-- The bytes of a number, least significant first. -/
def bytesLE : Nat → Nat → List Byte
  | 0, _ => []
  | k + 1, n => BitVec.ofNat 8 n :: bytesLE k (n / 256)

/-- The number spelled by bytes, least significant first. -/
def natLE : List Byte → Nat
  | [] => 0
  | b :: bs => b.toNat + 256 * natLE bs

/-- The number spelled by bytes, most significant first. -/
def natBE (bs : List Byte) : Nat := bs.foldl (fun a b => a * 256 + b.toNat) 0

/-- The bytes of a number, most significant first. -/
def bytesBE (k n : Nat) : List Byte := (bytesLE k n).reverse

/-! ### Cyclic redundancy checks -/

/-- One bit of a CRC sent most significant bit first: `w` bits, polynomial `p`. -/
def crcMsbBit (w p : Nat) (c : Nat) (b : Bool) : Nat :=
  let top := (c.testBit (w - 1)) != b
  let c := (c * 2) % 2 ^ w
  if top then c ^^^ p else c

/-- A CRC over bytes, most significant bit of each byte first. -/
def crcMsb (w p init : Nat) (bs : List Byte) : Nat :=
  bs.foldl (fun c b => (List.range 8).foldl (fun c i => crcMsbBit w p c (b.toNat.testBit (7 - i))) c) init

/-- One bit of a reflected CRC. -/
def crcLsbBit (p : Nat) (c : Nat) (b : Bool) : Nat :=
  let low := (c.testBit 0) != b
  if low then (c / 2) ^^^ p else c / 2

/-- A reflected CRC over bytes, least significant bit of each byte first. -/
def crcLsb (p init : Nat) (bs : List Byte) : Nat :=
  bs.foldl (fun c b => (List.range 8).foldl (fun c i => crcLsbBit p c (b.toNat.testBit i)) c) init

/-- CRC-8 of R56. -/
def crc8 (bs : List Byte) : Nat := crcMsb 8 0x07 0x00 bs ^^^ 0x55

/-- CRC-16/CCITT of R48. -/
def crc16 (bs : List Byte) : Nat := crcMsb 16 0x1021 0xFFFF bs

/-- The 30 bytes of a ring message that its CHECK covers (R48): TYPE, SRC, DST, the reserved nibble and PAYLOAD. -/
def ringBody (m : RingMsg) : List Byte := bytesBE 2 (m.type % 16 * 4096 + m.src % 16 * 256 + m.dst % 16 * 16) ++ bytesBE 28 m.payload

/-- The 256 bits of a ring message as sent (R48): its body and the CRC-16 over it. -/
def ringFrame (m : RingMsg) : List Byte := ringBody m ++ bytesBE 2 (crc16 (ringBody m))

/-- A received frame of 32 bytes passes its CHECK (R48). -/
def ringCheckOk (bs : List Byte) : Bool := bs.length == 32 && natBE (bs.drop 30) == crc16 (bs.take 30)

/-- The message a received frame spells, none when it fails its CHECK (R48, R49). -/
def ringParse (bs : List Byte) : Option RingMsg :=
  if ringCheckOk bs then
    let h := natBE (bs.take 2)
    some { type := h / 4096, src := h / 256 % 16, dst := h / 16 % 16, payload := natBE ((bs.drop 2).take 28) }
  else none

/-- CRC-32C of R61. -/
def crc32c (bs : List Byte) : Nat := crcLsb 0x82F63B78 0xFFFFFFFF bs ^^^ 0xFFFFFFFF

/-! ### The part -/

/-- The number of dies of the part (R2). -/
def Part.dies (p : Part) : Nat :=
  match p.size with
  | .d2 => 2
  | .d4 => 4
  | .d8 => 8

/-- The instance index of package-level registers. -/
abbrev pkg : Nat := 8

namespace State

/-- The number of dies of the part. -/
def dieCount (s : State) : Nat := s.part.dies

/-- The dies of the part, in index order. -/
def dieList (s : State) : List Nat := List.range s.part.dies

/-! ### Register fields -/

/-- The active value of a field at an instance. -/
def rd (s : State) (f : Fld) (d : Nat) (k : Nat := 0) : Nat :=
  s.regs.get (f.reset s.part.isX k) (f.key d k)

/-- Store a value, cut to the field's width. -/
def wr (s : State) (f : Fld) (d : Nat) (v : Nat) (k : Nat := 0) : State :=
  { s with regs := s.regs.set (f.reset s.part.isX k) (f.key d k) (v % 2 ^ f.w) }

/-- The field is not zero. -/
def flag (s : State) (f : Fld) (d : Nat) (k : Nat := 0) : Bool := s.rd f d k != 0

/-- Set the bits of a mask in a field. -/
def raise (s : State) (f : Fld) (d : Nat) (mask : Nat := 1) (k : Nat := 0) : State :=
  s.wr f d (s.rd f d k ||| mask) k

/-- Clear the bits of a mask in a field. -/
def lower (s : State) (f : Fld) (d : Nat) (mask : Nat := 1) (k : Nat := 0) : State :=
  s.wr f d (clearBits (s.rd f d k) mask) k

/-- Count `n` events in a counter, which saturates (R12). -/
def count (s : State) (f : Fld) (d : Nat) (n : Nat := 1) (k : Nat := 0) : State :=
  s.wr f d (min (s.rd f d k + n) (2 ^ f.w - 1)) k

/-- Write a Boolean into a one-bit field. -/
def wrb (s : State) (f : Fld) (d : Nat) (b : Bool) (k : Nat := 0) : State := s.wr f d (b2n b) k

/-- Set one bit of a field to a Boolean. -/
def wrBit (s : State) (f : Fld) (d i : Nat) (b : Bool) (k : Nat := 0) : State :=
  s.wr f d (setBit (s.rd f d k) i b) k

/-- A field read as two's complement. -/
def rdS (s : State) (f : Fld) (d : Nat) (k : Nat := 0) : Int := toSigned f.w (s.rd f d k)

/-- Store an integer in two's complement, cut to the field's width. -/
def wrS (s : State) (f : Fld) (d : Nat) (v : Int) (k : Nat := 0) : State := s.wr f d (ofSigned f.w v) k

/-- Store an integer bounded to the field's two's complement range (R12). -/
def wrSat (s : State) (f : Fld) (d : Nat) (v : Int) (k : Nat := 0) : State :=
  s.wrS f d (clampInt (-(2 ^ (f.w - 1) : Nat)) ((2 ^ (f.w - 1) : Nat) - 1) v) k

/-! ### Staged fields (R87) -/

/-- The staged copy of a field: the value written since the last PREPARE or DISCARD, else the pending value, else the
active value. Log entry 10 DEDUCED. -/
def rdStaged (s : State) (f : Fld) (d : Nat) (k : Nat := 0) : Nat :=
  match s.staged.find (f.key d k) with
  | some v => v
  | none =>
    match s.pend.find (f.key d k) with
    | some v => v
    | none => s.rd f d k

/-- Write the staged copy of a field. -/
def stage (s : State) (f : Fld) (d : Nat) (v : Nat) (k : Nat := 0) : State :=
  { s with staged := s.staged.put (f.key d k) (v % 2 ^ f.w) }

/-- The value a field has in the pending set, or its active value where the set leaves it (R90). -/
def rdPend (s : State) (f : Fld) (d : Nat) (k : Nat := 0) : Nat :=
  match s.pend.find (f.key d k) with
  | some v => v
  | none => s.rd f d k

/-- Load a field's active and staged copies at once, as the loader does. -/
def wrBoth (s : State) (f : Fld) (d : Nat) (v : Nat) (k : Nat := 0) : State :=
  let s := s.wr f d v k
  { s with staged := s.staged.erase (f.key d k) }

/-! ### Records of a die -/

/-- Life cycle and agreement record of a die. -/
def die (s : State) (d : Nat) : DieSt := s.dies.get {} (unitKey d 0)

/-- Replace the record of a die. -/
def setDie (s : State) (d : Nat) (x : DieSt) : State := { s with dies := s.dies.set {} (unitKey d 0) x }

/-- Change the record of a die. -/
def modDie (s : State) (d : Nat) (f : DieSt → DieSt) : State := s.setDie d (f (s.die d))

/-- A quarantined die: its datapath blocks and engines are held idle, whatever their enables (R51). -/
def heldIdle (s : State) (d : Nat) : Bool := bit (s.rd PKG_QUAR_STATUS_QUARANTINED pkg) d

/-! ### Power domains (R332) -/

/-- State of power domain `k` of a die: 0 on, 1 retained or a direction dormant, 2 off, 3 changing. -/
def domain (s : State) (d k : Nat) : Nat := bitsAt (s.rd PWR_DOM_STATE d (k / 16)) (2 * (k % 16)) 2

/-- Set the state of a power domain. -/
def setDomain (s : State) (d k v : Nat) : State :=
  s.wr PWR_DOM_STATE d (setBitsAt (s.rd PWR_DOM_STATE d (k / 16)) (2 * (k % 16)) 2 v) (k / 16)

/-! ### Responses -/

/-- Record the response of the access in hand: a status code of R57, with the data read. -/
def respond (s : State) (code : Nat) (data : Nat := 0) : State :=
  { s with bus := { s.bus with last := { s.bus.last with code := code, data := data } } }

/-- A register access refused with an error response. -/
def refuseAccess (s : State) : State := s.respond 2

/-! ### Outputs -/

/-- Send something. Log entry 24 DESIGN CHOICE. -/
def emit (s : State) (o : Output) : State := { s with out := s.out ++ [o] }

/-- Apply an operation for every element of a list, in order. -/
def forEach {α : Type} (s : State) (xs : List α) (f : State → α → State) : State := xs.foldl f s

/-- Apply an operation when a condition holds. -/
def when (s : State) (c : Bool) (f : State → State) : State := if c then f s else s

end State

/-! ### Byte memories -/

/-- A byte of a memory list, with what an unlisted address reads as. Log entry 3 DESIGN CHOICE. -/
def memByte (dflt : Byte) (m : List Host.Cell) (a : Nat) : Byte := (assocFind a m).getD dflt

/-- Write a byte. Writing what an unlisted address reads as removes the entry. Log entry 3 DESIGN CHOICE. -/
def memSet (dflt : Byte) (m : List Host.Cell) (a : Nat) (b : Byte) : List Host.Cell :=
  if b = dflt then assocErase a m else assocInsert Nat.blt a b m

/-- `n` bytes from an address, lowest address first. -/
def memBytes (dflt : Byte) (m : List Host.Cell) (a : Nat) : Nat → List Byte
  | 0 => []
  | n + 1 => memByte dflt m a :: memBytes dflt m (a + 1) n

/-- Write bytes from an address, lowest address first. -/
def memStore (dflt : Byte) (m : List Host.Cell) (a : Nat) : List Byte → List Host.Cell
  | [] => m
  | b :: bs => memStore dflt (memSet dflt m a b) (a + 1) bs

/-- Remove every listed byte of the range from `lo` up to but not including `hi`. -/
def memClear (m : List Host.Cell) (lo hi : Nat) : List Host.Cell :=
  m.filter fun c => decide (c.1 < lo) || decide (hi ≤ c.1)

/-- The canonical form of a byte memory: addresses strictly rising and no entry equal to what an unlisted address reads
as. Log entry 3 DESIGN CHOICE. -/
def Memory.wf (dflt : Byte) (m : List Host.Cell) : Bool :=
  assocSorted Nat.blt m && m.all fun c => decide (c.2 ≠ dflt)

/-- What an unlisted byte of a tightly coupled memory or scratchpad bank reads as: the hardware fill of R315.
Log entry 3 DESIGN CHOICE. -/
def ramDefault : Byte := 0x00

/-- What an unlisted byte of the flash reads as: erased. DESIGN CHOICE (log entry 3). -/
def flashDefault : Byte := 0xFF

namespace State

/-- The little-endian word at a management byte address of memory. -/
def memWord (s : State) (a : Nat) : Nat := natLE (memBytes ramDefault s.mem a 4)

/-- Store a little-endian word. -/
def setMemWord (s : State) (a v : Nat) : State := { s with mem := memStore ramDefault s.mem a (bytesLE 4 v) }

/-- Bytes of memory from an address. -/
def memRead (s : State) (a n : Nat) : List Byte := memBytes ramDefault s.mem a n

/-- Store bytes from an address. -/
def memWrite (s : State) (a : Nat) (bs : List Byte) : State := { s with mem := memStore ramDefault s.mem a bs }

end State

/-! ### Addresses inside a die window (R54) -/

/-- The base of a die window. -/
def dieBase (d : Nat) : Nat := d * 0x04000000

/-- The tightly coupled memory of an engine. -/
def tcmBase (d e : Nat) : Nat := dieBase d + 0x01000000 + e * 0x10000

/-- A scratchpad bank. -/
def bankBase (d b : Nat) : Nat := dieBase d + 0x02000000 + b * 0x20000

namespace State

/-! ### Time -/

/-- The shadow is gone (R94): a rollback that has switched keeps what its revert restores (R91). -/
def shadowGone (s : State) : State :=
  let s := (s.wr IMG_SHADOW_VALID pkg 0).wr IMG_SHADOW_REMAINING pkg 0
  if s.txn.isOpen && s.txn.rollback && s.txn.switched then s else { s with shadow := [] }

/-- `n` multiframes of the shadow's life pass (R94). -/
def shadowPass (s : State) (n : Nat) : State :=
  if s.flag IMG_SHADOW_VALID pkg then
    let left := s.rd IMG_SHADOW_REMAINING pkg - n
    if left = 0 then s.shadowGone else s.wr IMG_SHADOW_REMAINING pkg left
  else s

/-- Move the time count forward to the start of a multiframe; it never moves back. Log entry 151 DESIGN CHOICE. -/
def toMf (s : State) (m : Nat) : State :=
  if s.time.mf < m then { s.shadowPass (m - s.time.mf) with time := { mf := m, sf := 0, tick := 0 } } else s

/-- The next multiframe boundary. Log entry 151 DESIGN CHOICE. -/
def nextMf (s : State) : State := { s with time := { mf := s.time.mf + 1, sf := 0, tick := 0 } }

/-- A free value: the opaque constant of Config applied to the model's counter, which advances.
Log entry 5 DESIGN CHOICE. -/
def free (s : State) (w : Nat) : Nat × State :=
  ((Config.freeValue s.fresh).toNat % 2 ^ w, { s with fresh := s.fresh + 1 })

/-- A free choice. Log entry 5 DESIGN CHOICE. -/
def freeBool (s : State) : Bool × State := (Config.freeChoice s.fresh, { s with fresh := s.fresh + 1 })

end State

end Sys2Proof.Machine
end

