-- ==== Sys2Proof/Machine/Crypto.lean ====
section
/-! DEFINITION. The ciphers, digest and signature that spec/03 and spec/09 name (spec/00, the table of outside standards): AES-256
and its key schedule, Galois/counter mode, SHA-384, and ECDSA over P-384. The algorithms are those of the named standards.
PRESUMED (log entry 6). -/
namespace Sys2Proof.Machine
open Sys2Proof

namespace Crypto

/-! ### AES-256 (FIPS 197) -/

/-- Bytewise exclusive or. -/
def xorBytes (a b : List Byte) : List Byte := List.zipWith (fun x y => x ^^^ y) a b

/-- Doubling in the AES field. -/
def double (b : Byte) : Byte := (b <<< 1) ^^^ (if b.getLsbD 7 then 0x1B#8 else 0#8)

/-- Product in the AES field, over the `n` lowest bits of the second factor. -/
def mulBits : Nat → Byte → Byte → Byte
  | 0, _, _ => 0
  | n + 1, a, b => (if b.getLsbD 0 then a else 0#8) ^^^ mulBits n (double a) (b >>> 1)

/-- Product in the AES field. -/
def mulByte (a b : Byte) : Byte := mulBits 8 a b

/-- Inverse in the AES field, 0 for 0: the power 254. -/
def invByte (a : Byte) : Byte :=
  ((List.range 7).foldl (fun (p : Byte × Byte) _ => (mulByte p.1 p.1, mulByte p.2 (mulByte p.1 p.1))) (a, 1#8)).2

/-- The substitution of a byte and its inverse. -/
def subByte (b : Byte) : Byte :=
  let x := invByte b
  x ^^^ x.rotateLeft 1 ^^^ x.rotateLeft 2 ^^^ x.rotateLeft 3 ^^^ x.rotateLeft 4 ^^^ 0x63#8
def unsubByte (b : Byte) : Byte := invByte (b.rotateLeft 1 ^^^ b.rotateLeft 3 ^^^ b.rotateLeft 6 ^^^ 0x05#8)

/-- Rows shifted by `k` columns for each row: 1 to encrypt, 3 to decrypt. Byte r + 4c is row r of column c. -/
def shiftRows (k : Nat) (s : List Byte) : List Byte :=
  (List.range 16).map fun i => s.getD (i % 4 + 4 * ((i / 4 + k * (i % 4)) % 4)) 0

/-- Every column times the circulant matrix whose first row is given. -/
def mixColumns (m s : List Byte) : List Byte :=
  (List.range 16).map fun i => ((List.range 4).map fun j =>
    mulByte (m.getD ((j + 4 - i % 4) % 4) 0) (s.getD (4 * (i / 4) + j) 0)).foldl (fun x y => x ^^^ y) 0#8

/-- One more word of the key schedule: word i from words i − 1 and i − 8. -/
def keyWord (ws : List (List Byte)) : List (List Byte) :=
  let i := ws.length
  let p := ws.getD (i - 1) []
  let t := if i % 8 = 0 then
      xorBytes ((p.drop 1 ++ p.take 1).map subByte) [(List.range (i / 8 - 1)).foldl (fun b _ => double b) 1#8, 0, 0, 0]
    else if i % 8 = 4 then p.map subByte else p
  ws ++ [xorBytes (ws.getD (i - 8) []) t]

/-- The 15 round keys of a 32-byte key. -/
def roundKeys (key : List Byte) : List (List Byte) :=
  let ws := (List.range 52).foldl (fun ws _ => keyWord ws) ((List.range 8).map fun i => (key.drop (4 * i)).take 4)
  (List.range 15).map fun r => ((ws.drop (4 * r)).take 4).flatten

/-- One block encrypted. Log entry 6 PRESUMED. -/
def aesEnc (key block : List Byte) : List Byte :=
  let ks := roundKeys key
  let round := fun (s : List Byte) (r : Nat) => xorBytes (mixColumns [2, 3, 1, 1] (shiftRows 1 (s.map subByte))) (ks.getD (r + 1) [])
  xorBytes (shiftRows 1 (((List.range 13).foldl round (xorBytes block (ks.getD 0 []))).map subByte)) (ks.getD 14 [])

/-- One block decrypted. -/
def aesDec (key block : List Byte) : List Byte :=
  let ks := roundKeys key
  let back := fun (s : List Byte) => (shiftRows 3 s).map unsubByte
  let round := fun (s : List Byte) (r : Nat) => mixColumns [14, 11, 13, 9] (xorBytes (back s) (ks.getD (13 - r) []))
  xorBytes (back ((List.range 13).foldl round (xorBytes block (ks.getD 14 [])))) (ks.getD 0 [])

/-! ### Galois/counter mode (NIST SP 800-38D) -/

/-- The blocks of 16 bytes of a byte string, the last filled with zeros. -/
def blocks16 (bs : List Byte) : List (List Byte) :=
  (List.range ((bs.length + 15) / 16)).map fun i =>
    let b := (bs.drop (16 * i)).take 16
    b ++ List.replicate (16 - b.length) 0

/-- Product in the field of the authentication, as 128-bit numbers with the first bit highest. -/
def mulBlock (x y : Nat) : Nat :=
  ((List.range 128).foldl (fun (p : Nat × Nat) i =>
    (if x.testBit (127 - i) then p.1 ^^^ p.2 else p.1, p.2 / 2 ^^^ (if p.2.testBit 0 then 0xE1 * 2 ^ 120 else 0))) (0, y)).1

/-- The authentication hash of additional data and ciphertext under a hash key. -/
def ghash (h : Nat) (aad data : List Byte) : Nat :=
  (blocks16 aad ++ blocks16 data ++ [bytesBE 8 (8 * aad.length) ++ bytesBE 8 (8 * data.length)]).foldl
    (fun y b => mulBlock (y ^^^ natBE b) h) 0

/-- Counter mode with a 96-bit initialisation vector, from counter 2: encrypts and decrypts. -/
def gcmCtr (key iv data : List Byte) : List Byte :=
  (List.range ((data.length + 15) / 16)).flatMap fun i =>
    xorBytes ((data.drop (16 * i)).take 16) (aesEnc key (iv ++ bytesBE 4 (i + 2)))

/-- The tag of additional data and ciphertext. Log entry 6 PRESUMED. -/
def gcmTag (key iv aad data : List Byte) : List Byte :=
  let h := natBE (aesEnc key (List.replicate 16 0))
  xorBytes (aesEnc key (iv ++ bytesBE 4 1)) (bytesBE 16 (ghash h aad data))

/-! ### SHA-384 (FIPS 180-4) -/

/-- The first 80 prime numbers. -/
def primes : List Nat :=
  [2, 3, 5, 7, 11, 13, 17, 19, 23, 29, 31, 37, 41, 43, 47, 53, 59, 61, 67, 71] ++
  [73, 79, 83, 89, 97, 101, 103, 107, 109, 113, 127, 131, 137, 139, 149, 151, 157, 163, 167, 173] ++
  [179, 181, 191, 193, 197, 199, 211, 223, 227, 229, 233, 239, 241, 251, 257, 263, 269, 271, 277, 281] ++
  [283, 293, 307, 311, 313, 317, 331, 337, 347, 349, 353, 359, 367, 373, 379, 383, 389, 397, 401, 409]

/-- The whole part of a `k`-th root below 2^72. -/
def wholeRoot (k n : Nat) : Nat :=
  (List.range 72).foldl (fun r i => if (r + 2 ^ (71 - i)) ^ k ≤ n then r + 2 ^ (71 - i) else r) 0

/-- The first 64 bits of the fractional part of the `k`-th root of a number. -/
def rootWord (k n : Nat) : BitVec 64 := BitVec.ofNat 64 (wholeRoot k (n * 2 ^ (64 * k)))

/-- The round constants, from the cube roots of the first 80 primes. -/
def shaConst (i : Nat) : BitVec 64 := rootWord 3 (primes.getD i 0)

/-- The initial hash value, from the square roots of the ninth to sixteenth primes. -/
def shaInit : List (BitVec 64) := ((primes.drop 8).take 8).map (rootWord 2)

/-- One more word of the message schedule. -/
def scheduleWord (ws : List (BitVec 64)) : List (BitVec 64) :=
  let w := fun k => ws.getD (ws.length - k) 0
  let s0 := fun (x : BitVec 64) => x.rotateRight 1 ^^^ x.rotateRight 8 ^^^ (x >>> 7)
  let s1 := fun (x : BitVec 64) => x.rotateRight 19 ^^^ x.rotateRight 61 ^^^ (x >>> 6)
  ws ++ [s1 (w 2) + w 7 + s0 (w 15) + w 16]

/-- One round on the eight working variables a to h. -/
def shaRound (v : List (BitVec 64)) (k w : BitVec 64) : List (BitVec 64) :=
  match v with
  | [a, b, c, d, e, f, g, h] =>
    let t1 := h + (e.rotateRight 14 ^^^ e.rotateRight 18 ^^^ e.rotateRight 41) + ((e &&& f) ^^^ (~~~e &&& g)) + k + w
    let t2 := (a.rotateRight 28 ^^^ a.rotateRight 34 ^^^ a.rotateRight 39) + ((a &&& b) ^^^ (a &&& c) ^^^ (b &&& c))
    [t1 + t2, a, b, c, d + t1, e, f, g]
  | _ => v

/-- The hash value after one block of 128 bytes. -/
def shaBlock (h : List (BitVec 64)) (b : List Byte) : List (BitVec 64) :=
  let ws := (List.range 64).foldl (fun ws _ => scheduleWord ws)
    ((List.range 16).map fun i => BitVec.ofNat 64 (natBE ((b.drop (8 * i)).take 8)))
  List.zipWith (fun x y => x + y) h ((List.range 80).foldl (fun v i => shaRound v (shaConst i) (ws.getD i 0)) h)

/-- The digest of a byte string, 48 bytes. Log entry 6 PRESUMED. -/
def sha384 (bs : List Byte) : List Byte :=
  let m := bs ++ [0x80#8] ++ List.replicate ((239 - bs.length % 128) % 128) 0 ++ bytesBE 16 (8 * bs.length)
  ((((List.range (m.length / 128)).foldl (fun h i => shaBlock h ((m.drop (128 * i)).take 128)) shaInit).take 6).flatMap
    fun w => bytesBE 8 w.toNat)

/-! ### ECDSA over P-384 (FIPS 186-5) -/

/-- The field, the order of the group, the coefficient b and the base point. -/
def fieldP : Nat := 2 ^ 384 - 2 ^ 128 - 2 ^ 96 + 2 ^ 32 - 1
def orderN : Nat :=
  0xffffffffffffffffffffffffffffffffffffffffffffffffc7634d81f4372ddf581a0db248b0a77aecec196accc52973
def coefB : Nat :=
  0xb3312fa7e23ee7e4988e056be3f82d19181d9c6efe8141120314088f5013875ac656398d8a2ed19d2a85c8edd3ec2aef
def baseG : Nat × Nat :=
  (0xaa87ca22be8b05378eb1c71ef320ad746e1d3b628ba79b9859f741e082542a385502f25dbf55296c3a545e3872760ab7,
   0x3617de4a96262c6f5d9e98bf9292dc29f8f41dbd289a147ce9da3113b5f0b8c00a60b1ce1d7e819d7a431d7c90ea0e5f)

/-- A power modulo `m`, over the lowest 384 bits of the exponent. -/
def powMod (m b e : Nat) : Nat :=
  (List.range 384).foldl (fun r i => let r2 := r * r % m; if e.testBit (383 - i) then r2 * b % m else r2) 1

/-- The inverse modulo a prime. -/
def invMod (m a : Nat) : Nat := powMod m (a % m) (m - 2)

/-- Difference modulo the field's prime. -/
def subP (a b : Nat) : Nat := (a + fieldP - b % fieldP) % fieldP

/-- The sum of two points; no point is the neutral element. -/
def addPoint : Option (Nat × Nat) → Option (Nat × Nat) → Option (Nat × Nat)
  | none, q => q
  | p, none => p
  | some (x1, y1), some (x2, y2) =>
    if x1 = x2 ∧ (y1 + y2) % fieldP = 0 then none
    else
      let slope := if x1 = x2 then subP (3 * x1 * x1) 3 * invMod fieldP (2 * y1) % fieldP
        else subP y2 y1 * invMod fieldP (subP x2 x1) % fieldP
      let x3 := subP (slope * slope) (x1 + x2)
      some (x3, subP (slope * subP x1 x3) y1)

/-- A multiple of a point. -/
def mulPoint (k : Nat) (p : Nat × Nat) : Option (Nat × Nat) :=
  (List.range 384).foldl (fun r i =>
    let r2 := addPoint r r
    if k.testBit (383 - i) then addPoint r2 (some p) else r2) none

/-- A point of the curve y² = x³ − 3x + b. -/
def onCurve (p : Nat × Nat) : Bool :=
  decide (p.1 < fieldP ∧ p.2 < fieldP) && p.2 * p.2 % fieldP == subP (p.1 ^ 3 + coefB) (3 * p.1)

/-- Verify a signature (r, then s, 48 bytes each) of a 48-byte digest under an uncompressed public key (R77, PUBKEY).
Log entry 6 PRESUMED. -/
def ecdsaVerify (pub digest sig : List Byte) : Bool :=
  let q := (natBE ((pub.drop 1).take 48), natBE ((pub.drop 49).take 48))
  let r := natBE (sig.take 48)
  let v := natBE ((sig.drop 48).take 48)
  let w := invMod orderN v
  pub.length == 97 && pub.head? == some 0x04#8 && onCurve q &&
  decide (1 ≤ r ∧ r < orderN ∧ 1 ≤ v ∧ v < orderN) &&
  match addPoint (mulPoint (natBE digest * w % orderN) baseG) (mulPoint (r * w % orderN) q) with
  | some p => p.1 % orderN == r
  | none => false

end Crypto

end Sys2Proof.Machine
end

