-- ==== Sys2Proof/Machine/Addr.lean ====
section
/-! DEFINITION. What a management address names (spec/02, R54): the regions, and what lies at an offset of a block. -/
namespace Sys2Proof.Machine
open Sys2Proof

/-! ### What an address names -/

/-- The regions of the management address space (R54); `blk` is a block slot, or 26 for the package-level PKG block. -/
inductive Target where
  | die (d off : Nat)
  | noDie
  | package (blk off : Nat)
  | everyDie (team : Bool) (off : Nat)
  | nothing
deriving DecidableEq, Repr

/-- The block slots of the package region, in address order. -/
def packageBlocks : List Nat := [26, 25, 1, 19, 22]

/-- The region of an address, for a part of `n` dies (R54). -/
def regionOf (n addr : Nat) : Target :=
  if addr < 0x20000000 then
    if addr / 0x04000000 < n then .die (addr / 0x04000000) (addr % 0x04000000) else .noDie
  else if addr < 0x30000000 then
    match packageBlocks[(addr - 0x20000000) / 0x40000]? with
    | some blk => .package blk (addr % 0x40000)
    | none => .nothing
  else if addr < 0x34000000 then .everyDie false (addr % 0x04000000)
  else if addr < 0x38000000 then .everyDie true (addr % 0x04000000)
  else .nothing

/-- What lies at an offset of a block: a register with its element, a word of a window, or nothing. -/
inductive Spot where
  | reg (blk : Nat) (r : Reg) (k : Nat)
  | cnvSet (active : Bool) (i : Nat)
  | record (i : Nat)
  | lut (active : Bool) (kind c x : Nat)
  | plmTx (i : Nat)
  | plmRx (i : Nat)
  | empty
deriving DecidableEq, Repr

/-- The register and element at an offset, in a list of registers. -/
def findReg (rs : List Reg) (off : Nat) : Option (Reg × Nat) :=
  rs.findSome? fun r =>
    if r.reg ≤ off ∧ (off - r.reg) % r.stride = 0 ∧ (off - r.reg) / r.stride < r.count then
      some (r, (off - r.reg) / r.stride)
    else none

/-- The words of the pre-compensation windows (R181): 4 tables of 1 024 entries, 4 filters of 33 taps. -/
def lutSpot (off : Nat) : Spot :=
  let active := decide (0xC000 ≤ off)
  let o := if active then off - 0x8000 else off
  if 0x4000 ≤ o ∧ o < 0x8000 then .lut active 0 ((o - 0x4000) / 0x1000) (o % 0x1000 / 4)
  else if 0x8000 ≤ o ∧ o < 0x8400 ∧ o % 0x100 / 4 < 33 then .lut active 1 ((o - 0x8000) / 0x100) (o % 0x100 / 4)
  else .empty

/-- What lies at an offset below the staged view of a block. Log entry 137 DEDUCED. -/
def spotAt (blk off : Nat) : Spot :=
  match findReg (regsOf blk) off with
  | some x => .reg blk x.1 x.2
  | none =>
    match findReg (regsOf 27) off with
    | some x => .reg 27 x.1 (if blk = 26 then 0 else blk)
    | none =>
      match blk with
      | 2 =>
        if 0x1000 ≤ off ∧ off < 0x1A70 then .cnvSet false ((off - 0x1000) / 4)
        else if 0x2000 ≤ off ∧ off < 0x2A70 then .cnvSet true ((off - 0x2000) / 4)
        else .empty
      | 3 => if 0x1000 ≤ off ∧ off < 0x2000 then .record ((off - 0x1000) / 4) else .empty
      | 5 => lutSpot off
      | 22 =>
        if 0x1000 ≤ off ∧ off < 0x1400 then .plmTx ((off - 0x1000) / 4)
        else if 0x1400 ≤ off ∧ off < 0x1800 then .plmRx ((off - 0x1400) / 4)
        else .empty
      | _ => .empty

/-- A field of a register that a test holds of lies at an offset of a die window, or a word of a window or memory does. -/
def offTouches (off : Nat) (p : Nat → Nat → Fld → Bool) : Bool :=
  if 0x680000 ≤ off then true
  else
    match spotAt (off / 0x40000) (off % 0x20000) with
    | .reg blk r k => r.flds.any (p blk k)
    | .empty => false
    | _ => true

end Sys2Proof.Machine
end

