-- ==== Sys2Proof/Machine/Codes.lean ====
section
/-! DEFINITION. The codes of spec/07 and the generators of spec/08: code tables, LDPC encoding and layered decoding, the BCH
code, scrambler and interleaver. -/
namespace Sys2Proof.Machine
open Sys2Proof

/-! ### Code tables (R198, R199) -/

namespace CodeTable

/-- Z. -/
def z (t : CodeTable) : Nat := 2 ^ t.zlog2

/-- Codeword length n and information bits. -/
def n (t : CodeTable) : Nat := t.cols * t.z
def info (t : CodeTable) : Nat := (t.cols - t.rows) * t.z

/-- The entries of a base row. -/
def row (t : CodeTable) (r : Nat) : List (Nat × Nat × Nat) := t.entries.filter fun e => e.1 == r

/-- Core cycles of one iteration (R188). -/
def cycles (t : CodeTable) : Nat := ((List.range t.rows).map fun r => ((t.row r).length * t.z + 4095) / 4096).sum

/-- Entries rise by row and, within a row, by column, with no two alike. -/
def sortedEntries : List (Nat × Nat × Nat) → Bool
  | a :: b :: t => (decide (a.1 < b.1) || (a.1 == b.1 && decide (a.2.1 < b.2.1))) && sortedEntries (b :: t)
  | _ => true

/-- The checks of R199. -/
def ok (t : CodeTable) : Bool :=
  let k := t.cols - t.rows
  decide (1 ≤ t.rows ∧ t.rows ≤ 16 ∧ t.rows + 1 ≤ t.cols ∧ t.cols ≤ 72) &&
  decide (1 ≤ t.entries.length ∧ t.entries.length ≤ 480) &&
  (t.zlog2 == if t.express then 6 else 9) && (t.outer == !t.express) &&
  (t.entries.all fun e => decide (e.1 < t.rows ∧ e.2.1 < t.cols ∧ e.2.2 < t.z)) &&
  sortedEntries t.entries &&
  (t.entries.all fun e => decide (e.2.1 < k + e.1 + 1)) &&
  ((List.range t.rows).all fun r => t.entries.contains (r, k + r, 0)) &&
  ((List.range t.rows).all fun r => decide ((t.row r).length ≤ 48))

end CodeTable

/-- The little-endian number of `n` bytes at byte `i`. -/
def natAt (bs : List Byte) (i n : Nat) : Nat := natLE ((bs.drop i).take n)

/-- One table at the head of a CODE_TABLE section, with the bytes after it (R198). CLASS and OUTER beyond 1 and a count of
entries that does not fit make the table refused. -/
def parseTable (bs : List Byte) : Option CodeTable × List Byte :=
  let cls := natAt bs 4 1
  let ents := natAt bs 8 2
  let out := natAt bs 10 1
  let t : CodeTable :=
    { name := natAt bs 0 4, express := cls == 1, zlog2 := natAt bs 5 1, rows := natAt bs 6 1, cols := natAt bs 7 1
      outer := out == 1
      entries := (List.range ents).map fun i =>
        (natAt bs (32 + 4 * i) 1, natAt bs (33 + 4 * i) 1, natAt bs (34 + 4 * i) 2) }
  let fits := decide (32 + 4 * ents ≤ bs.length) && decide (cls ≤ 1 ∧ out ≤ 1)
  (if fits && t.ok then some t else none, bs.drop (32 + 4 * ents))

/-- The tables of a CODE_TABLE section in order, refused ones as none (R199). A count outside 1 to 4 gives no table. -/
def parseTables : Nat → List Byte → List (Option CodeTable)
  | 0, _ => []
  | k + 1, bs =>
    let p := parseTable bs
    p.1 :: parseTables k p.2

/-! ### LDPC (R191, R198, R201) -/

/-- The bit positions that check x of base row r ties together. -/
def checkBits (t : CodeTable) (r x : Nat) : List Nat := (t.row r).map fun e => e.2.1 * t.z + (x + e.2.2) % t.z

/-- Exclusive or of the bits at positions. -/
def parityOf (bits : List Bool) (vs : List Nat) : Bool := vs.foldl (fun a v => a != bits.getD v false) false

/-- Every parity check holds. -/
def checksHold (t : CodeTable) (bits : List Bool) : Bool :=
  (List.range t.rows).all fun r => (List.range t.z).all fun x => !parityOf bits (checkBits t r x)

/-- The systematic codeword of information bits: parity column r from base row r (R191). -/
def ldpcEncode (t : CodeTable) (bits : List Bool) : List Bool :=
  (List.range t.rows).foldl (fun (w : List Bool) r =>
    w ++ (List.range t.z).map fun x => parityOf w (checkBits t r x)) bits

/-- Sign of a value, sign(0) = +1. -/
def sgn (x : Int) : Int := if x < 0 then -1 else 1

/-- The least magnitude of the values other than the i-th; 0 when there is none (log entry 32). -/
def minOthers (qs : List Int) (i : Nat) : Nat :=
  match (qs.eraseIdx i).map Int.natAbs with
  | [] => 0
  | a :: t => t.foldl min a

/-- Posteriors and check messages; message (entry e, check x) lies at e × Z + x. -/
structure LdpcSt where
  post : List Int
  msg  : List Int
deriving DecidableEq, Repr

/-- One check of a layer (R201): `es` are the row's entries with their index in the table. -/
def checkStep (t : CodeTable) (beta : Nat) (es : List ((Nat × Nat × Nat) × Nat)) (s : LdpcSt) (x : Nat) : LdpcSt :=
  let at_ := es.map fun e => (e.1.2.1 * t.z + (x + e.1.2.2) % t.z, e.2 * t.z + x)
  let qs := at_.map fun p => s.post.getD p.1 0 - s.msg.getD p.2 0
  let sign := qs.foldl (fun a q => a * sgn q) 1
  (at_.zip qs).zipIdx.foldl (fun (u : LdpcSt) e =>
    let r := clampInt (-32) 31 (sign * sgn e.1.2 * (max ((minOthers qs e.2 : Int) - (beta : Int)) 0))
    { post := u.post.set e.1.1.1 (clampInt (-128) 127 (e.1.2 + r)), msg := u.msg.set e.1.1.2 r }) s

/-- One iteration: the layers in row order. -/
def iterStep (t : CodeTable) (beta : Nat) (s : LdpcSt) : LdpcSt :=
  (List.range t.rows).foldl (fun (u : LdpcSt) r =>
    let es := t.entries.zipIdx.filter fun e => e.1.1 == r
    (List.range t.z).foldl (checkStep t beta es) u) s

/-- Decision bits: 0 when the posterior is at least 0. -/
def decide0 (ps : List Int) : List Bool := ps.map fun p => decide (p < 0)

/-- Iterate until the budget is spent or, where stopping is allowed, every check holds at or after MIN_ITER. The result
carries the iterations run. -/
def iterate (t : CodeTable) (beta : Nat) (stop : Bool) (minIt : Nat) : Nat → Nat → LdpcSt → LdpcSt × Nat
  | 0, k, s => (s, k)
  | left + 1, k, s =>
    let s := iterStep t beta s
    if stop && decide (minIt ≤ k + 1) && checksHold t (decide0 s.post) then (s, k + 1)
    else iterate t beta stop minIt left (k + 1) s

/-- Decode a codeword: decision bits, whether it converged, iterations run (R201, R202). -/
def ldpcDecode (t : CodeTable) (beta budget minIt : Nat) (stop : Bool) (llr : List Int) : List Bool × Bool × Nat :=
  let r := iterate t beta stop minIt budget 0 { post := llr, msg := List.replicate (t.entries.length * t.z) 0 }
  let bits := decide0 r.1.post
  (bits, checksHold t bits, r.2)

/-! ### The outer BCH code (R189, R208) -/

/-- One doubling in GF(2^14) with x^14 + x^10 + x^6 + x + 1. -/
def gfDouble (a : Nat) : Nat := if a.testBit 13 then (2 * a) ^^^ 0x4443 else 2 * a

/-- Product in GF(2^14). -/
def gfMul (a b : Nat) : Nat :=
  ((List.range 14).foldl (fun (p : Nat × Nat) i => (if b.testBit i then p.1 ^^^ p.2 else p.1, gfDouble p.2)) (0, a)).1

/-- Power in GF(2^14). -/
def gfPow (a n : Nat) : Nat :=
  ((List.range 14).foldl (fun (p : Nat × Nat) i => (if n.testBit i then gfMul p.1 p.2 else p.1, gfMul p.2 p.2)) (1, a)).1

/-- α^k. -/
def gfExp (k : Nat) : Nat := gfPow 2 (k % 16383)

/-- Inverse of a nonzero element. -/
def gfInv (a : Nat) : Nat := gfPow a 16382

/-- The exponents of the generator's roots: the conjugates of α^1, α^3, …, α^31. -/
def bchRoots : List Nat := ((List.range 16).flatMap fun i => (List.range 14).map fun j => (2 * i + 1) * 2 ^ j % 16383).dedup

/-- Product of a polynomial (lowest coefficient first) with x + c. -/
def polyTimesRoot (p : List Nat) (c : Nat) : List Nat :=
  (List.range (p.length + 1)).map fun i =>
    (if i = 0 then 0 else p.getD (i - 1) 0) ^^^ gfMul c (p.getD i 0)

/-- The generator polynomial, lowest coefficient first. -/
def bchGen : List Nat := bchRoots.foldl (fun p k => polyTimesRoot p (gfExp k)) [1]

/-- Remainder of a bit polynomial (highest coefficient first) times x^224 by the generator: the parity bits. -/
def bchParity (info : List Bool) : List Bool :=
  let g := (bchGen.take 224).reverse.map fun c => c != 0
  info.foldl (fun (r : List Bool) b =>
    let top := r.headD false != b
    ((r.drop 1 ++ [false]).zip g).map fun p => if top then p.1 != p.2 else p.1) (List.replicate 224 false)

/-- A BCH codeword: 14 000 information bits and 224 parity bits. -/
def bchEncode (info : List Bool) : List Bool := info ++ bchParity info

/-- Syndrome k of a received codeword: its value at α^k, the first bit being the coefficient of x^14223. -/
def bchSyndrome (w : List Bool) (k : Nat) : Nat :=
  w.foldl (fun a b => gfMul a (gfExp k) ^^^ b2n b) 0

/-- State of the Berlekamp-Massey recursion: locator, previous locator, length, shift, previous discrepancy. -/
structure BmSt where
  c : List Nat
  b : List Nat
  l : Nat
  m : Nat
  d : Nat
deriving DecidableEq, Repr

/-- c + k x^m b. -/
def polyAddShift (c b : List Nat) (k m : Nat) : List Nat :=
  (List.range (max c.length (b.length + m))).map fun i =>
    c.getD i 0 ^^^ (if i < m then 0 else gfMul k (b.getD (i - m) 0))

/-- One step for syndrome n of the list. -/
def bmStep (syn : List Nat) (s : BmSt) (n : Nat) : BmSt :=
  let d := (List.range (s.l + 1)).foldl (fun a i => a ^^^ gfMul (s.c.getD i 0) (syn.getD (n - i) 0)) 0
  if d = 0 then { s with m := s.m + 1 }
  else
    let c := polyAddShift s.c s.b (gfMul d (gfInv s.d)) s.m
    if 2 * s.l ≤ n then { c := c, b := s.c, l := n + 1 - s.l, m := 1, d := d }
    else { s with c := c, m := s.m + 1 }

/-- Value of a polynomial, lowest coefficient first. -/
def polyEval (p : List Nat) (x : Nat) : Nat := p.foldr (fun c a => gfMul a x ^^^ c) 0

/-- Decode a BCH codeword: the information bits and the number of errors corrected, or none when more than 16 errors are
found (R208). -/
def bchDecode (w : List Bool) : Option (List Bool × Nat) :=
  let syn := (List.range 32).map fun k => bchSyndrome w (k + 1)
  if syn.all (· == 0) then some (w.take 14000, 0)
  else
    let bm := (List.range 32).foldl (bmStep syn) { c := [1], b := [1], l := 0, m := 1, d := 1 }
    let pos := (List.range 14224).filter fun i => polyEval bm.c (gfInv (gfExp (14223 - i))) == 0
    if bm.l ≤ 16 ∧ pos.length = bm.l then
      some ((w.zipIdx.map fun e => if pos.contains e.2 then !e.1 else e.1).take 14000, bm.l)
    else none

/-! ### Scrambler and interleaver (R195, R222) -/

/-- One step of the generator x^31 + x^28 + 1: output bit and next 31-bit state, newest bit lowest. -/
def scramStep (s : Nat) : Bool × Nat :=
  let b := s.testBit 30 != s.testBit 27
  (b, (2 * s + b2n b) % 2 ^ 31)

/-- The state after some steps. -/
def scramAfter : Nat → Nat → Nat
  | 0, s => s
  | n + 1, s => scramAfter n (scramStep s).2

/-- Scramble or descramble bits. -/
def scramble (s : Nat) : List Bool → List Bool
  | [] => []
  | b :: bs => (b != (scramStep s).1) :: scramble (scramStep s).2 bs

/-- All ones, the state when a stream starts. -/
def scramInit : Nat := 2 ^ 31 - 1

/-- The interleaved block of 4 codewords: bit b is bit floor(b/4) of codeword b mod 4. -/
def interleave (cws : List (List Bool)) (n : Nat) : List Bool :=
  (List.range (4 * n)).map fun b => (cws.getD (b % 4) []).getD (b / 4) false

/-- Codeword c of an interleaved block of LLRs. -/
def deinterleave (block : List Int) (n c : Nat) : List Int := (List.range n).map fun b => block.getD (4 * b + c) 0

end Sys2Proof.Machine
end

