-- ==== Sys2Proof/Machine/Loading.lean ====
section
/-! DEFINITION. Subcarrier loading (spec/06, R169 to R174): constellations, compositions of the distribution matcher, the
matcher, the mapper, the shaped LLR demapper (spec/05, R160) and the soft dematcher (spec/07, R200). H is in 1/16 bit. -/
namespace Sys2Proof.Machine
open Sys2Proof

/-! ### Constellations (R170), coded 1 QPSK, 2 16QAM, 3 64QAM, 4 256QAM -/

/-- The number of amplitudes per dimension. -/
def ampCount (c : Nat) : Nat := 2 ^ (c - 1)

/-- The amplitudes of a constellation, smallest first. -/
def amps (c : Nat) : List Nat := (List.range (ampCount c)).map fun i => 2 * i + 1

/-- H lies in a constellation's range. -/
def inHRange (c h : Nat) : Bool :=
  match c with
  | 1 => h == 32
  | 2 => decide (33 ≤ h ∧ h ≤ 64)
  | 3 => decide (48 ≤ h ∧ h ≤ 96)
  | 4 => decide (64 ≤ h ∧ h ≤ 120)
  | _ => false

/-- H is the uniform point of a constellation, where the matcher is bypassed. -/
def isUniform (c h : Nat) : Bool := h == 32 * c

/-! ### Compositions (R172) -/

/-- Factorial. -/
def fact : Nat → Nat
  | 0 => 1
  | n + 1 => (n + 1) * fact n

/-- The number of distinct sequences of a composition. -/
def seqCount (ns : List Nat) : Nat := fact ns.sum / (ns.map fact).foldl (· * ·) 1

/-- Matcher bits of a block of N amplitudes. -/
def matcherBits (n h : Nat) : Nat := n * (h - 32) / 32

/-- All lists of k counts that sum to n. -/
def compositions : Nat → Nat → List (List Nat)
  | 0, n => if n = 0 then [[]] else []
  | k + 1, n => (List.range (n + 1)).flatMap fun a => (compositions k (n - a)).map fun t => a :: t

/-- The energy Σ n_a × a² of a composition. -/
def compEnergy (c : Nat) (ns : List Nat) : Nat := ((amps c).zip ns |>.map fun p => p.1 * p.1 * p.2).sum

/-- The larger count of the smallest amplitude, then of the next. -/
def countsBefore : List Nat → List Nat → Bool
  | a :: as, b :: bs => decide (b < a) || (a == b && countsBefore as bs)
  | _, _ => false

/-- A composition is chosen before another: less energy, then more sequences, then larger counts (R172). -/
def compBefore (c : Nat) (x y : List Nat) : Bool :=
  let ex := compEnergy c x
  let ey := compEnergy c y
  decide (ex < ey) || (ex == ey && (decide (seqCount y < seqCount x) || (seqCount x == seqCount y && countsBefore x y)))

/-- The composition of a block of N amplitudes (R172), if one has at least 2^K sequences. -/
def composition (c h n : Nat) : Option (List Nat) :=
  ((compositions (ampCount c) n).filter fun ns => decide (2 ^ matcherBits n h ≤ seqCount ns)).foldl
    (fun (best : Option (List Nat)) ns =>
      match best with
      | none => some ns
      | some b => if compBefore c ns b then some ns else some b) none

/-- The composition with the most sequences: counts as equal as they can be. -/
def balanced (c n : Nat) : List Nat :=
  let k := ampCount c
  (List.range k).map fun i => n / k + (if i < n % k then 1 else 0)

/-- R172 finds a composition: the balanced one, which has the most sequences, has at least 2^K. -/
def hasComposition (c h n : Nat) : Bool := decide (2 ^ matcherBits n h ≤ seqCount (balanced c n))

/-- The amplitudes of a block by class: 1 024 for bulk, 64 for express; a bulk multiframe ends with a block of 512. -/
def blockAmps (express : Bool) : Nat := if express then 64 else 1024

/-- A constellation carries an H for a class: in range, and at the uniform point or with compositions for every block
length of the class (R170, R172). -/
def carries (express : Bool) (c h : Nat) : Bool :=
  inHRange c h &&
  (isUniform c h || (hasComposition c h (blockAmps express) && (express || hasComposition c h 512)))

/-- The constellation a CONST setting gives: itself, or with 0 (auto) the first in table order that carries H (R170). -/
def resolveConst (express : Bool) (c h : Nat) : Option Nat :=
  if c = 0 then [1, 2, 3, 4].find? fun k => carries express k h
  else if carries express c h then some c else none

/-- H, CONST and ROLLOFF lie within their ranges and have a composition (R171). -/
def formatOk (express : Bool) (h c roll : Nat) : Bool :=
  decide (32 ≤ h ∧ h ≤ 120 ∧ c ≤ 4 ∧ 2 ≤ roll ∧ roll ≤ 40) && (resolveConst express c h).isSome

/-! ### The matcher (R172) -/

/-- A composition with one less of amplitude index i. -/
def takeOne (ns : List Nat) (i : Nat) : List Nat := ns.set i (ns.getD i 0 - 1)

/-- The amplitude index that the sequence of a rank starts with, and the rank left after it. -/
def firstOf (ns : List Nat) (rank : Nat) : List Nat → Nat × Nat
  | [] => (0, rank)
  | i :: is =>
    let m := if ns.getD i 0 = 0 then 0 else seqCount (takeOne ns i)
    if rank < m then (i, rank) else firstOf ns (rank - m) is

/-- The sequence of a rank, in lexicographic order with the smallest amplitude first, as amplitude indices. -/
def unrank : Nat → List Nat → Nat → List Nat
  | 0, _, _ => []
  | n + 1, ns, r =>
    let p := firstOf ns r (List.range ns.length)
    p.1 :: unrank n (takeOne ns p.1) p.2

/-- The rank of a sequence. -/
def rankOf (ns : List Nat) : List Nat → Nat
  | [] => 0
  | i :: t =>
    ((List.range i).map fun k => if ns.getD k 0 = 0 then 0 else seqCount (takeOne ns k)).sum + rankOf (takeOne ns i) t

/-- Bits as an unsigned number, first bit most significant. -/
def bitsNat (bs : List Bool) : Nat := bs.foldl (fun a b => 2 * a + b2n b) 0

/-- A number as `k` bits, most significant first. -/
def natBits (k n : Nat) : List Bool := (List.range k).map fun i => n.testBit (k - 1 - i)

/-- The binary-reflected Gray code of an amplitude index. -/
def gray (i : Nat) : Nat := i ^^^ (i / 2)

/-- The amplitude index of a Gray code word. -/
def ungray (c g : Nat) : Nat := ((List.range (ampCount c)).find? fun i => gray i == g).getD 0

/-- Split bits into words of k. -/
def chunk (k : Nat) : Nat → List Bool → List (List Bool)
  | 0, _ => []
  | n + 1, bs => bs.take k :: chunk k n (bs.drop k)

/-- The amplitude indices a matcher block sends for its K bits (R172, R193): at the uniform point the bits are the Gray
labels in order. -/
def matchBlock (c h n : Nat) (bits : List Bool) : List Nat :=
  if isUniform c h then (chunk (c - 1) n bits).map fun g => ungray c (bitsNat g)
  else unrank n ((composition c h n).getD (balanced c n)) (bitsNat bits)

/-! ### The mapper (R173) and the demapper (R160) -/

/-- The counts of a block's composition: uniform at the uniform point. -/
def blockCounts (c h n : Nat) : List Nat :=
  if isUniform c h then balanced c n else (composition c h n).getD (balanced c n)

/-- The mean energy E of a block's points before scaling (R173). -/
def blockEnergy (c h n : Nat) : ℚ := 2 * (compEnergy c (blockCounts c h n) : ℚ) / (n : ℚ)

/-- One dimension of a point: sign bit and amplitude index, scaled. -/
def mapDim (c h n : Nat) (sign : Bool) (i : Nat) : ℚ :=
  (if sign then -1 else 1) * ((2 * i + 1 : Nat) : ℚ) / Arith.sqrt (blockEnergy c h n)

/-- The label of one dimension: sign bit, then the Gray code on c − 1 bits (R173). -/
def dimLabel (c : Nat) (sign : Bool) (i : Nat) : List Bool := sign :: natBits (c - 1) (gray i)

/-- The values one dimension can take with the metric −ln P of their share of the point's probability. -/
def dimPoints (c h n : Nat) : List (List Bool × ℚ × ℚ) :=
  let ns := blockCounts c h n
  (List.range (ampCount c)).flatMap fun i =>
    let p : ℚ := (ns.getD i 0 : ℚ) / (n : ℚ) / 2
    [false, true].map fun sg => (dimLabel c sg i, mapDim c h n sg i, -Arith.ln p)

/-- The least of a list of metrics. -/
def leastOf : List ℚ → ℚ
  | [] => 0
  | [x] => x
  | x :: y :: t => min x (leastOf (y :: t))

/-- An LLR in 0.5, saturated to the 6-bit range (R160). -/
def llr6 (x : ℚ) : Int := clampInt (-32) 31 (Arith.round (2 * x))

/-- The max-log LLRs of one dimension of a received value (R160). A point of the product constellation splits into its
two dimensions, so each label bit depends on its own dimension alone. Amplitudes that the composition never sends have
probability 0, so their metric is infinite: a bit value that only they carry saturates the LLR against it. -/
def demapDim (c h n : Nat) (y sigma2 : ℚ) : List Int :=
  let ns := blockCounts c h n
  let pts := (dimPoints c h n).zipIdx.filter fun e => ns.getD (e.2 / 2) 0 != 0
  let metric := fun (e : (List Bool × ℚ × ℚ) × Nat) => (y - e.1.2.1) * (y - e.1.2.1) / sigma2 + e.1.2.2
  (List.range c).map fun t =>
    let ones := (pts.filter fun e => e.1.1.getD t false).map metric
    let zeros := (pts.filter fun e => !e.1.1.getD t false).map metric
    if ones.isEmpty then 31 else if zeros.isEmpty then -32 else llr6 (leastOf ones - leastOf zeros)

/-! ### The soft dematcher (R200) -/

/-- A path of the list search: amplitude indices placed so far (last first), counts left, score. -/
structure DmPath where
  seq   : List Nat
  left  : List Nat
  score : ℚ
deriving DecidableEq, Repr

/-- μ_n(a) for the label LLRs of one amplitude, in units of 0.5 × ½. -/
def ampMetric (c : Nat) (llrs : List Int) (i : Nat) : ℚ :=
  ((((natBits (c - 1) (gray i)).zip llrs).map fun p => if p.1 then -p.2 else p.2).sum : ℚ) / 2

/-- Insert a path in order of score, best first; among equal scores the one with the smaller amplitude, met first,
stays first. -/
def insertPath (p : DmPath) : List DmPath → List DmPath
  | [] => [p]
  | q :: t => if q.score < p.score then p :: q :: t else q :: insertPath p t

/-- One position of the search: every path by every amplitude left, the best LIST kept. -/
def extendPaths (c list : Nat) (paths : List DmPath) (llrs : List Int) : List DmPath :=
  let next := (List.range (ampCount c)).flatMap fun i => paths.filterMap fun p =>
    if p.left.getD i 0 = 0 then none
    else some { seq := i :: p.seq, left := takeOne p.left i, score := p.score + ampMetric c llrs i }
  (next.foldl (fun acc p => insertPath p acc) []).take list

/-- The LLRs of a block's matcher bits from the label LLRs of its amplitude positions, in 0.5 (R200). -/
def dematch (c h n list agree : Nat) (labels : List (List Int)) : List Int :=
  if isUniform c h then labels.flatten
  else
    let ns := blockCounts c h n
    let paths := labels.foldl (extendPaths c list) [{ seq := [], left := ns, score := 0 }]
    let k := matcherBits n h
    let ranked := paths.map fun p => (natBits k (rankOf ns p.seq.reverse), p.score)
    (List.range k).map fun b =>
      let ones := (ranked.filter fun r => r.1.getD b false).map fun r => -r.2
      let zeros := (ranked.filter fun r => !r.1.getD b false).map fun r => -r.2
      if ones.isEmpty then (agree : Int)
      else if zeros.isEmpty then -(agree : Int)
      else clampInt (-32) 31 (Arith.round (leastOf ones - leastOf zeros))

end Sys2Proof.Machine
end

