-- ==== Sys2Proof/Machine/Containers.lean ====
section
/-! DEFINITION. Containers and slot shares (spec/09, R250 to R252): container words, the words that one stream deals to its
slots in a container period, and the merging of a flow's slot shares. -/
namespace Sys2Proof.Machine
open Sys2Proof

/-- Information bits of a frame codeword (R222): those of an E7 codeword of the express stream, or of a BCH codeword. -/
def frameBits (express : Bool) : Nat := if express then 1920 else 14000

/-- Container words that a frame codeword gives (R250). -/
def frameWords (express : Bool) : Nat := frameBits express / 80

/-- The container words of some information bits (R250). -/
def cutWords (bits : List Bool) : List (List Bool) := chunk 80 (bits.length / 80) bits

/-- Whole units of `len` that start before a position, rounded up. -/
def blocksTo (p len : Nat) : Nat := (p + len - 1) / len

/-- The anchor codeword of a multiframe whose first payload bit is bit p of a stream, counted in frame codewords from the
stream's start (R223, R250): the first that starts in or after the first interleaver block, or E7 codeword, that starts at
or after that bit. A codeword of the stream has n coded bits, `info` of them information. -/
def anchorOf (express : Bool) (n info p : Nat) : Nat :=
  if express then blocksTo p 2048 else blocksTo (blocksTo p (4 * n) * (4 * info)) 14224

/-- Words dealt in turn to k slots, with their slots: the first of them has number `first` in its container period (R251). -/
def dealWords (k first : Nat) (words : List (List Bool)) : List (Nat × List Bool) :=
  words.zipIdx.map fun e => ((first + e.2) % k, e.1)

/-- Words that slot j of k gets when `total` container words are dealt in turn (R251). -/
def shareWords (k total j : Nat) : Nat := (total + k - 1 - j) / k

/-- A flow frame from its slot shares in ascending order of the slots (R252): words are taken from the slots in turn, and a
slot whose share is used up is skipped. -/
def mergeShares {α : Type} (shares : List (List α)) : List α :=
  (List.range ((shares.map List.length).foldl max 0)).flatMap fun r => shares.filterMap fun s => s[r]?

/-- The words of a flow frame as the shares of slots with the given counts. -/
def splitShares {α : Type} (counts : List Nat) (words : List α) : List (List α) :=
  let order := mergeShares (counts.zipIdx.map fun e => List.replicate e.1 e.2)
  (List.range counts.length).map fun j => ((order.zip words).filter fun p => p.1 == j).map Prod.snd

end Sys2Proof.Machine
end

