-- ==== Sys2Proof/Machine/Interrupts.lean ====
section
/-! DEFINITION. The interrupt tree of spec/02 (R65 to R68): block status into die summary, die summaries into the package
summary, package summary onto IRQ_N and FAULT_N. The summaries are brought up to date at the end of every command. -/
namespace Sys2Proof.Machine
open Sys2Proof

namespace State

/-- The status bits of a list of fields, each at its place in the register. -/
def eventWord (s : State) (fs : List Fld) (d : Nat) : Nat :=
  fs.foldl (fun a f => a ||| (s.rd f d <<< f.lo)) 0

/-- An event register has a status bit set whose enable is 1. -/
def enabled (s : State) (fs : List Fld) (mask : Fld) (d : Nat) : Bool :=
  (s.eventWord fs d &&& (s.rd mask d <<< mask.lo)) != 0

/-- An event register without a mask has a status bit set. -/
def anySet (s : State) (fs : List Fld) (d : Nat) : Bool := fs.any fun f => s.flag f d

end State

/-- The event and mask registers that feed the die summary, with their block slot (R65); WCH has three (spec/14). -/
def dieSources : List (Nat × List Fld × Fld) :=
  [ (2, CNV_EVENT_flds, CNV_EVENT_MASK_ENABLE), (3, CAL_EVENT_flds, CAL_EVENT_MASK_ENABLE),
    (4, RXD_EVENT_flds, RXD_EVENT_MASK_ENABLE), (5, TXD_EVENT_flds, TXD_EVENT_MASK_ENABLE),
    (6, SEAM_EVENT_flds, SEAM_EVENT_MASK_ENABLE), (7, FEC_EVENT_flds, FEC_EVENT_MASK_ENABLE),
    (8, FRM_EVENT_flds, FRM_EVENT_MASK_ENABLE), (10, FLW_EVENT_flds, FLW_EVENT_MASK_ENABLE),
    (11, CRY_EVENT_flds, CRY_EVENT_MASK_ENABLE), (12, CRC_EVENT_flds, CRC_EVENT_MASK_ENABLE),
    (13, HLN_EVENT_flds, HLN_EVENT_MASK_ENABLE), (14, ENG_EVENT_flds, ENG_EVENT_MASK_ENABLE),
    (15, MEM_EVENT_flds, MEM_EVENT_MASK_ENABLE), (16, ECC_EVENT_flds, ECC_EVENT_MASK_ENABLE),
    (17, PWR_EVENT_flds, PWR_EVENT_MASK_ENABLE), (20, HKA_EVENT_flds, HKA_EVENT_MASK_ENABLE),
    (21, WCH_EVENT_flds, WCH_EVENT_MASK_ENABLE), (21, WCH_STAT_EVENT_flds, WCH_STAT_EVENT_MASK_ENABLE),
    (21, WCH_CFG_ERR_flds, WCH_CFG_ERR_MASK_ENABLE), (23, BUP_EVENT_flds, BUP_EVENT_MASK_ENABLE),
    (24, FLT_EVENT_flds, FLT_EVENT_MASK_ENABLE), (25, RING_EVENT_flds, RING_EVENT_MASK_ENABLE) ]

/-- The status fields of a die that feed the die summary with no mask: block 0 (`PKG_DIE_IRQ_STATUS`, bit 0) and the IMG
block. -/
def dieUnmasked : List (Nat × List Fld) :=
  [ (0, PKG_DIE_STATUS_CROWN_STUCK :: PKG_DIE_ADDR_ERR_flds),
    (1, [IMG_STATUS_GOLDEN_FAIL, IMG_STATUS_UPDATE_FAIL]) ]

namespace State

/-- The bits of a die's summary whose level below has an enabled status bit set (R65). -/
def liveDie (s : State) (d : Nat) : Nat :=
  let a := dieSources.foldl (fun a x => if s.enabled x.2.1 x.2.2 d then a ||| 2 ^ x.1 else a) 0
  dieUnmasked.foldl (fun a x => if s.anySet x.2 d then a ||| 2 ^ x.1 else a) a

/-- The enabled bits of a die's summary, as IRQ_SUM and HB_ANSWER carry them (R66). -/
def dieSummary (s : State) (d : Nat) : Nat := s.rd PKG_DIE_IRQ_STATUS_BLOCK d &&& s.rd PKG_DIE_IRQ_MASK_ENABLE d

/-- An enabled RING_EVENT bit of a die is set (R68). -/
def ringLive (s : State) (d : Nat) : Bool := s.enabled RING_EVENT_flds RING_EVENT_MASK_ENABLE d

/-- The summary bit of die `n` as the crown knows it: its own at once, another die's as last reported (R66). -/
def crownSeesDie (s : State) (c n : Nat) : Bool :=
  if n = c then s.dieSummary c != 0 else (s.die n).irqCopy != 0

/-- The RING condition of die `n` as the crown knows it (R68). -/
def crownSeesRing (s : State) (c n : Nat) : Bool :=
  if n = c then s.ringLive c else (s.die n).ringCopy

/-- The DIE bits of the package summary that are live. -/
def livePkgDie (s : State) (c : Nat) : Nat :=
  s.dieList.foldl (fun a n => if s.crownSeesDie c n then a ||| 2 ^ n else a) 0

/-- The flash, OTP and transaction status bits that feed `PKG_IRQ_STATUS.IMG` (spec/03, IMG registers). -/
def liveImg (s : State) (c : Nat) : Bool :=
  s.anySet [IMG_STATUS_GOLDEN_FAIL, IMG_STATUS_UPDATE_FAIL] c ||
  s.anySet [IMG_FLASH_CMD_ERR, IMG_OTP_CTRL_ERR, IMG_OTP_CTRL_DONE, IMG_TXN_STATUS_SPLIT, IMG_TXN_STATUS_ABORT_IGNORED] pkg

/-- The package summary fields with what makes each live (R65, R68). -/
def pkgSources (s : State) (c : Nat) : List (Fld × Bool) :=
  [ (PKG_IRQ_STATUS_TEAM, s.anySet PKG_TEAM_EVENT_flds pkg),
    (PKG_IRQ_STATUS_CROWN,
      s.anySet [PKG_CROWN_STATUS_TAKEOVER, PKG_CROWN_STATUS_HANDOVER_DONE, PKG_CROWN_STATUS_HANDOVER_REFUSED] pkg),
    (PKG_IRQ_STATUS_QUAR, s.anySet PKG_QUAR_EVENT_flds pkg),
    (PKG_IRQ_STATUS_RING, s.dieList.any fun n => s.crownSeesRing c n),
    (PKG_IRQ_STATUS_ADDR, s.anySet PKG_ADDR_ERR_flds pkg),
    (PKG_IRQ_STATUS_TIM, s.enabled TIM_EVENT_flds TIM_EVENT_MASK_ENABLE pkg),
    (PKG_IRQ_STATUS_PLM, s.enabled PLM_EVENT_flds PLM_EVENT_MASK_ENABLE pkg),
    (PKG_IRQ_STATUS_IMG, s.liveImg c),
    (PKG_IRQ_STATUS_GPIO, s.enabled PKG_GPIO_EVENT_flds PKG_GPIO_EVENT_MASK_ENABLE pkg) ]

/-- Bring one die's summary up to date: a bit is set while its level below is live and stays set otherwise (R65). -/
def settleDie (s : State) (d : Nat) : State := s.raise PKG_DIE_IRQ_STATUS_BLOCK d (s.liveDie d)

/-- Bring the package summary up to date, at the die that holds the crown token (R65, R66). -/
def settlePkg (s : State) : State :=
  match s.crown.token with
  | none => s
  | some c =>
    let s' := (s.pkgSources c).foldl (fun t x => if x.2 then t.raise x.1 pkg else t) s
    s'.raise PKG_IRQ_STATUS_DIE pkg (s.livePkgDie c)

/-- Bring the whole tree up to date. -/
def settle (s : State) : State := (s.dieList.foldl settleDie s).settlePkg

/-! ### The output pins -/

/-- The package summary as one word. -/
def pkgStatus (s : State) : Nat :=
  s.eventWord [PKG_IRQ_STATUS_GPIO, PKG_IRQ_STATUS_IMG, PKG_IRQ_STATUS_PLM, PKG_IRQ_STATUS_TIM, PKG_IRQ_STATUS_ADDR,
    PKG_IRQ_STATUS_RING, PKG_IRQ_STATUS_QUAR, PKG_IRQ_STATUS_CROWN, PKG_IRQ_STATUS_TEAM, PKG_IRQ_STATUS_DIE] pkg

/-- A die drives the outputs of R39 from the package summary: it holds the token, and no takeover is in progress (R460). -/
def crownDrives (s : State) : Bool := s.crown.token.isSome && s.crown.endpoint != .takeover && s.crown.endpoint != .off

/-- IRQ_N is low (R67, R460). -/
def irqLow (s : State) : Bool :=
  s.crownDrives && s.flag PKG_IRQ_MASK_GLOBAL_EN pkg && (s.pkgStatus &&& s.rd PKG_IRQ_MASK_ENABLE pkg) != 0

/-- FAULT_N is low (R67, R460). -/
def faultLow (s : State) : Bool :=
  (s.crownDrives && (s.pkgStatus &&& s.rd PKG_FAULT_MASK_ENABLE pkg) != 0) ||
  (s.dieList.any fun d => s.flag PKG_DIE_STATUS_CROWN_STUCK d) || s.crown.nonePassed || s.crown.noCandidate

/-- The package is in package root state: its crown is parked (R349). Log entry 123 DEDUCED. -/
def rootState (s : State) : Bool :=
  match s.crown.token with
  | some c => s.flag PWR_STATUS_PARKED c
  | none => false

/-- READY is high: the crown's management endpoint is in service (R67), and not in package root state (R349).
Log entry 12 DEDUCED. -/
def readyHigh (s : State) : Bool := s.crown.endpoint == .service && !s.rootState

end State

/-- Run an operation as a command: what it sends is collected anew, the interrupt tree is brought up to date, and neither the
queue of waiting commands nor the ordered part is touched. -/
def run (s : State) (f : State → State) : Host.Outcome State Fault Refusal :=
  let t := f { s with out := [] }
  .next { t with part := s.part, pending := s.pending }.settle

/-- Run an operation that acts at a die. Where the part has no such die nothing acts (R2): what a management access to
its window records is that access's own effect (R7, R54). -/
def runDie (s : State) (d : Nat) (f : State → State) : Host.Outcome State Fault Refusal :=
  if d < s.part.dies then run s f else run s id

end Sys2Proof.Machine
end

