-- ==== Sys2Proof/Machine/Disable.lean ====
section
/-! DEFINITION. Disabling a unit with work in flight (spec/03, R98 to R101), block resets (R15) and their rows. -/
namespace Sys2Proof.Machine
open Sys2Proof

/-- The key of a unit of a block of a die. -/
def dieUnit (d b u : Nat) : Key := { dom := 0, inst := d, blk := b, reg := 0, lo := 0, idx := u }

/-- The instance that holds the disable registers and units of a block: those of the modem and of the timing block are the
package's. Log entry 137 DEDUCED. -/
def disInst (d b : Nat) : Nat := if b = 22 ∨ b = 19 then pkg else d

namespace State

/-- The time in µs at which a disable starts that no row gives a time for: the start of the current multiframe, where a
transaction's does (R98). Log entry 162 DESIGN CHOICE. -/
def usNow (s : State) : Nat := s.time.mf * 1048576 / 1000

/-- The disable record of a unit. -/
def unit (s : State) (d b u : Nat) : UnitSt := s.units.get {} (dieUnit d b u)

/-- Replace the disable record of a unit. -/
def setUnit (s : State) (d b u : Nat) (x : UnitSt) : State := { s with units := s.units.set {} (dieUnit d b u) x }

/-- The records of the units of a block. -/
def blockUnits (s : State) (d b : Nat) : Store UnitSt := s.units.keep fun k => k.inst == d && k.blk == b

/-- Bring IDLE and DRAINING of a block up to date: IDLE while every disabled unit is idle, DRAINING while one drains. -/
def refreshDis (s : State) (d b : Nat) : State :=
  let us := s.blockUnits d b
  let draining := us.any fun e => e.2.draining
  let idle := us.all fun e => e.2.enabled || (!e.2.draining && e.2.work == 0)
  (s.wrb BLK_DIS_STATUS_DRAINING d draining b).wrb BLK_DIS_STATUS_IDLE d (idle && !draining) b

/-- The disable mode of a block is ABORT. -/
def disAbort (s : State) (d b : Nat) : Bool := s.flag BLK_DIS_CTRL_MODE d b

/-- A unit discards the work it holds and reports idle; each work unit is counted (R99).
Log entries 9 DESIGN CHOICE, 98 DEDUCED. -/
def abortUnit (s : State) (d b u work : Nat) : State :=
  let s := s.setUnit d b u { s.unit d b u with enabled := false, draining := false, reenable := false, work := 0 }
  let s := s.count BLK_DIS_DISCARDS_COUNT d work b
  let s := if work = 0 then s else s.raise BLK_DIS_STATUS_ABORTED d 1 b
  s.refreshDis d b

/-- A unit's enable goes to 0 in DRAIN mode: it stops accepting work, and drains what it holds (R98).
Log entries 9 DESIGN CHOICE, 98 DEDUCED. -/
def drainUnit (s : State) (d b u work now : Nat) : State :=
  let x := s.unit d b u
  let s := s.setUnit d b u
    { x with enabled := false, reenable := false, draining := decide (work ≠ 0), since := now, work := work }
  s.refreshDis d b

/-- A unit's enable goes to 0 in the mode of its block (R100). -/
def disableUnit (s : State) (d b u work now : Nat) : State :=
  if s.disAbort d b then s.abortUnit d b u work else s.drainUnit d b u work now

/-- A unit's enable goes to 1: while it drains it accepts work only once idle (R101). -/
def enableUnit (s : State) (d b u : Nat) : State :=
  let x := s.unit d b u
  let s := if x.draining then s.setUnit d b u { x with reenable := true, enabled := true }
    else s.setUnit d b u { x with enabled := true }
  s.refreshDis d b

/-- A draining unit has finished its work (R98). Log entry 9 DESIGN CHOICE. -/
def unitIdle (s : State) (d b u : Nat) : State :=
  let x := s.unit d b u
  if x.draining then
    (s.setUnit d b u { x with draining := false, work := 0, enabled := x.reenable, reenable := false }).refreshDis d b
  else s

/-- A drain ends with `left` work units still held, which are discarded and counted: at the limit one timeout is counted
(R98), at a change of the mode none is (R101). -/
def drainCut (s : State) (d b u left : Nat) (timeout : Bool) : State :=
  let x := s.unit d b u
  if x.draining then
    let s := s.setUnit d b u { x with draining := false, work := 0, enabled := x.reenable, reenable := false }
    let s := s.count BLK_DIS_DISCARDS_COUNT d left b
    let s := if timeout then (s.count BLK_DIS_TIMEOUTS_COUNT d 1 b).raise BLK_DIS_STATUS_DRAIN_TIMEOUT d 1 b
      else s.raise BLK_DIS_STATUS_ABORTED d 1 b
    s.refreshDis d b
  else s

/-- Work offered to a unit that does not accept it and has no upstream that holds it is discarded and counted (R98). -/
def refuseWork (s : State) (d b : Nat) (n : Nat := 1) : State := s.count BLK_DIS_REFUSED_COUNT d n b

/-- A block has no work in flight: no unit drains or holds work. -/
def blockIdle (s : State) (d b : Nat) : Bool := (s.blockUnits d b).all fun e => !e.2.draining && e.2.work == 0

end State

end Sys2Proof.Machine
end

