-- ==== Sys2Proof/Machine/Team.lean ====
section
/-! DEFINITION. Slices, subcarriers and rope teams (spec/01): geometry, the team map, member states, segments, the bridge
budget and the slot arithmetic. -/
namespace Sys2Proof.Machine
open Sys2Proof

/-! ### Geometry (R16 to R22), in the register units: S in 0.25 GHz, Δ in 0.125 GHz -/

/-- The offset of a slice centre from the laser, in 1/8 GHz (R16). -/
def sliceCentre (n p spacing : Nat) : Int := (2 * (p : Int) - (n : Int) + 1) * (spacing : Int)

/-- The offset of a subcarrier centre from the laser, in 1/16 GHz (R17). -/
def scCentre (n p spacing delta i : Nat) : Int := 2 * sliceCentre n p spacing + (2 * (i : Int) - 7) * (delta : Int)

/-- The global index of a local subcarrier (R17). -/
def scGlobal (p i : Nat) : Nat := 8 * p + i

/-- S and Δ lie in their ranges and satisfy 8 × Δ ≤ S; a team of two or more holds S to 146 GHz (R18). -/
def geomRange (n spacing delta : Nat) : Bool :=
  decide (512 ≤ spacing ∧ spacing ≤ 600 ∧ 128 ≤ delta ∧ delta ≤ 150 ∧ 4 * delta ≤ spacing) &&
  (n == 1 || decide (spacing ≤ 584))

/-- The width of a seam band, in 0.25 GHz (R20). -/
def seamBand (spacing : Nat) : Nat := 600 - spacing

/-- The flex-grid slot a carrier needs, in 12.5 GHz units: at least n × S + 30 GHz (R21). -/
def flexSlot (n spacing : Nat) : Nat := (n * spacing + 120 + 49) / 50

/-- The seam load of a bridge in Gb/s: 32 × W (R25). -/
def seamLoad (spacing : Nat) : Nat := 8 * seamBand spacing

/-- The seam load and `slots` crossing slots of 6.25 Gb/s fit in 2 000 Gb/s (R26). -/
def bridgeFits (spacing slots : Nat) (seam : Bool) : Bool :=
  decide (4 * (if seam then seamLoad spacing else 0) + 25 * slots ≤ 8000)

/-! ### Net rate and slots (R28 to R30) -/

/-- Payload symbols of a superframe per polarisation (R28): superframe 0 of a multiframe carries the training block. -/
def payloadSymbols (sf : Nat) : Nat := if sf % 256 = 0 then 62976 else 63232

/-- The net rate of a subcarrier in Gb/s: 2 × 16 × (63 231 / 65 536) × H × R_code, with H in 1/16 bit (R29). -/
def netRate (h : Nat) (rCode : ℚ) : ℚ := 2 * 16 * (63231 / 65536) * ((h : ℚ) / 16) * rCode

/-- The tributary slots a subcarrier offers (R30). -/
def slotCount (h : Nat) (rCode : ℚ) : Nat := min 24 (netRate h rCode / (25 / 4)).floor.toNat

/-- The product of the code rates of a table (R29): with the outer BCH code on bulk tables. -/
def CodeTable.netCode (t : CodeTable) : ℚ :=
  let r : ℚ := ((t.cols - t.rows : Nat) : ℚ) / (t.cols : ℚ)
  if t.express then r else r * (1000 / 1016)

/-- The size a team-size code names (`PKG_TEAM_MAP.SIZE`). -/
def sizeOfCode (c : Nat) : Nat := 2 ^ (c % 4)

/-- The size code of a die in a team map. -/
def mapCode (map d : Nat) : Nat := bitsAt map (2 * d) 2

/-- A team map keeps R22 on a part of `n` dies: every team fits, and all its dies carry its code. -/
def mapOk (n map : Nat) : Bool :=
  (List.range n).all fun d =>
    let c := mapCode map d
    let z := sizeOfCode c
    let b := d / z * z
    decide (b + z ≤ n) && (List.range z).all fun i => mapCode map (b + i) == c

namespace State

/-- The size of the team of a die in the active team map. -/
def teamSize (s : State) (d : Nat) : Nat := sizeOfCode (mapCode (s.rd PKG_TEAM_MAP_SIZE pkg) d)

/-- The lowest die of the team of a die (position 0). -/
def teamBase (s : State) (d : Nat) : Nat := d / s.teamSize d * s.teamSize d

/-- The position of a die in its team. -/
def teamPos (s : State) (d : Nat) : Nat := d - s.teamBase d

/-- The dies of the team that contains a die. -/
def teamDies (s : State) (d : Nat) : List Nat := (List.range (s.teamSize d)).map fun i => s.teamBase d + i

/-- Two dies belong to one team. -/
def sameTeam (s : State) (d e : Nat) : Bool := s.teamBase d == s.teamBase e

/-- The lowest dies of all teams. -/
def teamBases (s : State) : List Nat := s.dieList.filter fun d => s.teamBase d == d

/-- The member state of a die: 0 not started, 1 joining, 2 active, 3 absent. Log entry 74 DEDUCED. -/
def memberState (s : State) (d : Nat) : Nat := bitsAt (s.rd PKG_MEMBER_STATUS_STATE pkg) (2 * d) 2

/-- A die is an active member. -/
def isActive (s : State) (d : Nat) : Bool := s.memberState d == 2

/-- A die leads its phase-tracking segment: it is active and the next lower position of its team is not (R35). -/
def leadsSegment (s : State) (d : Nat) : Bool :=
  s.isActive d && (s.teamPos d == 0 || !s.isActive (d - 1))

/-- Bring SEGMENT_LEAD up to date (R35). -/
def refreshSegments (s : State) : State :=
  s.wr PKG_MEMBER_STATUS_SEGMENT_LEAD pkg
    (s.dieList.foldl (fun a d => if s.leadsSegment d then a ||| 2 ^ d else a) 0)

/-- The receive plan of an absent slice (R34): VALID of its subcarriers and the receive slot entries that lie on it read 0. -/
def clearRxSlice (s : State) (d : Nat) : State :=
  let s := s.forEach (List.range 8) fun t i => t.wr TXD_SC_RXPLAN_VALID d 0 i
  s.forEach (List.range 192) fun t k => ((t.wr FLW_RX_SLOT_VALID d 0 k).wr FLW_RX_SLOT_DIE d 0 k).wr FLW_RX_SLOT_FLOW d 0 k

/-- Set the member state of a die; a slice that becomes absent has no receive plan (R34). -/
def setMember (s : State) (d v : Nat) : State :=
  let s := if v = 3 then s.clearRxSlice d else s
  (s.wr PKG_MEMBER_STATUS_STATE pkg (setBitsAt (s.rd PKG_MEMBER_STATUS_STATE pkg) (2 * d) 2 v)).refreshSegments

/-- A die's bridges carry nothing: it reads absent, or has stopped (R33, R35). -/
def bridgeGone (s : State) (d : Nat) : Bool := s.memberState d == 3 || (s.die d).departed

/-- Client traffic between two dies would have to pass the bridges of a die that is gone, the two ends included (R35). -/
def routeBroken (s : State) (a b : Nat) : Bool :=
  (List.range 8).any fun x => decide (min a b ≤ x ∧ x ≤ max a b) && s.bridgeGone x

/-- The dies of the segment of an active die, in index order (R35). -/
def segment (s : State) (d : Nat) : List Nat :=
  (s.teamDies d).filter fun e =>
    (List.range 8).all fun x => !(decide (min d e ≤ x ∧ x ≤ max d e)) || s.isActive x

/-- The die that leads the segment of an active die. -/
def segmentLead (s : State) (d : Nat) : Nat := (s.segment d).headD d

/-- The geometry of every die under a team map keeps R18 and R19, the fields read by `f`. -/
def geomOk (s : State) (map : Nat) (f : Fld → Nat → Nat) : Bool :=
  mapOk s.dieCount map &&
  s.dieList.all fun d =>
    let z := sizeOfCode (mapCode map d)
    let b := d / z * z
    geomRange z (f PKG_GEOM_SLICE_SPACING d) (f PKG_GEOM_SC_SPACING d) &&
    f PKG_GEOM_SLICE_SPACING d == f PKG_GEOM_SLICE_SPACING b &&
    f PKG_GEOM_SC_SPACING d == f PKG_GEOM_SC_SPACING b

/-- The lowest active die of the team of a die. -/
def lowestActive (s : State) (d : Nat) : Option Nat := (s.teamDies d).find? fun e => s.isActive e

end State

end Sys2Proof.Machine
end

