-- ==== Sys2Proof/Machine/Calibration.lean ====
section
/-! DEFINITION. Line converters and calibration (spec/04): coefficient sets, passes, plausibility limits, delays, seam
loops and the calibration record. -/
namespace Sys2Proof.Machine
open Sys2Proof

/-! ### The correction arithmetic (R108), over exact rationals -/

/-- One corrected ADC sample: raw code x, the previous corrected-gain sample u', and the entry's terms o, g, b. -/
def adcCorrect (o g b x u' : ℚ) : ℚ × ℚ :=
  let u := (1 + g) * (x - o)
  (u + b * (u - u'), u)

/-- One corrected DAC sample from the present and the previous word. -/
def dacCorrect (o g b v v' : ℚ) : ℚ := (v + b * (v - v')) / (1 + g) + o

/-- The pre-emphasis FIR of R114: seven taps in 2^−8 over the last seven words, newest first. -/
def preEmphasis (taps : List Int) (words : List ℚ) : ℚ :=
  ((taps.zip words).map fun p => (p.1 : ℚ) / 256 * p.2).sum

/-! ### Coefficient sets (R109, R111) -/

/-- The key of a word of a coefficient set: set 0 is A, 1 is B, 2 the values of the last restored record. -/
def coefKey (d set w : Nat) : Key := { dom := 0, inst := d, blk := 2, reg := set, lo := 0, idx := w }

/-- What a word of either set holds at reset: tap 3 of each DAC is 1.0, everything else 0 (R114). -/
def coefReset (w : Nat) : Nat := if 640 ≤ w ∧ (w - 640) % 7 = 3 then 256 else 0

/-- The word index of a term's entry: ADC or DAC, converter, sub-converter, word 0 or 1. -/
def entryWord (dac : Bool) (c k w : Nat) : Nat := if dac then 512 + 32 * c + 2 * k + w else 128 * c + 2 * k + w

/-- The hardware range of a term, in its unit (R109): offset ±16 LSB, gain ±0.125, skew ±6.00 ps, bandwidth ±0.125. -/
def termRange (term : Nat) : Int :=
  match term with
  | 2 => 600
  | _ => 4096

/-- A 16-bit term clamped to its hardware range, and whether it was outside. -/
def clampTerm (term n : Nat) : Nat × Bool :=
  let v := toSigned 16 n
  let r := termRange term
  (ofSigned 16 (clampInt (-r) r v), decide (v < -r ∨ r < v))

/-- A word of a coefficient set as the hardware clamps it (R109); the taps have no range of their own. -/
def clampWord (w n : Nat) : Nat × Bool :=
  if 640 ≤ w then (n, false)
  else
    let t := if w % 2 = 0 then (0, 1) else (2, 3)
    let a := clampTerm t.1 (n % 65536)
    let b := clampTerm t.2 (n / 65536)
    (b.1 * 65536 + a.1, a.2 || b.2)

namespace State

/-- The converter record of a die. -/
def cnvSt (s : State) (d : Nat) : CnvSt := s.cnv.get {} (unitKey d 0)

/-- Change the converter record of a die. -/
def modCnv (s : State) (d : Nat) (f : CnvSt → CnvSt) : State :=
  { s with cnv := s.cnv.set {} (unitKey d 0) (f (s.cnvSt d)) }

/-- A word of a coefficient set. -/
def coefRd (s : State) (d set w : Nat) : Nat := s.coef.get (coefReset w) (coefKey d set w)

/-- Write a word of a coefficient set. -/
def coefWr (s : State) (d set w v : Nat) : State := { s with coef := s.coef.set (coefReset w) (coefKey d set w) v }

/-- The active and the inactive set of a die. -/
def activeSet (s : State) (d : Nat) : Nat := s.rd CNV_COEF_CTRL_ACTIVE_SET d
def inactiveSet (s : State) (d : Nat) : Nat := 1 - s.activeSet d

/-- A term of an entry of a set, in the term's unit. -/
def termRd (s : State) (d set : Nat) (dac : Bool) (c k term : Nat) : Int :=
  toSigned 16 (bitsAt (s.coefRd d set (entryWord dac c k (term / 2))) (16 * (term % 2)) 16)

/-- Write a term of an entry of a set. -/
def termWr (s : State) (d set : Nat) (dac : Bool) (c k term : Nat) (v : Int) : State :=
  let w := entryWord dac c k (term / 2)
  s.coefWr d set w (setBitsAt (s.coefRd d set w) (16 * (term % 2)) 16 (ofSigned 16 v))

/-! ### Plausibility limits (R118) -/

/-- An estimate of a term lies within its value limit. Gain and bandwidth limits are in 0.1 % and 0.001 of a value held
in 2^−15, compared exactly. -/
def inValueLimit (s : State) (d : Nat) (dac : Bool) (term : Nat) (v : Int) : Bool :=
  let a := v.natAbs
  match term with
  | 0 => decide (a ≤ 32 * (if dac then s.rd CAL_LIMITS_1_DAC_OFFSET d else s.rd CAL_LIMITS_0_ADC_OFFSET d))
  | 1 => decide (a * 1000 ≤ s.rd CAL_LIMITS_0_GAIN d * 32768)
  | 2 => decide (a ≤ 5 * s.rd CAL_LIMITS_0_SKEW d)
  | _ => decide (a * 1000 ≤ s.rd CAL_LIMITS_0_BW d * 32768)

end State

/-- The step limit of a term per background update, in its unit (R118): 0.25 LSB, 0.1 %, 0.05 ps, 0.005.
Log entry 8 DESIGN CHOICE. -/
def stepLimit (term : Nat) : ℚ :=
  match term with
  | 0 => 64
  | 1 => 32768 / 1000
  | 2 => 5
  | _ => 32768 * 5 / 1000

/-- A term moved by its step limit towards an estimate: the step in whole units, rounded down. DESIGN CHOICE (log entry
8). -/
def stepTowards (term : Nat) (old est : Int) : Int :=
  let k := (stepLimit term).floor
  if old ≤ est then old + k else old - k

/-- How often CAL_LIMITS fields may be set (R118): the allowed range of each field in its unit. -/
def limitRange (f : Fld) : Nat × Nat :=
  if f = CAL_LIMITS_0_ADC_OFFSET then (16, 128)
  else if f = CAL_LIMITS_0_GAIN then (10, 120)
  else if f = CAL_LIMITS_0_SKEW then (20, 120)
  else if f = CAL_LIMITS_0_BW then (20, 125)
  else if f = CAL_LIMITS_1_DAC_OFFSET then (8, 32)
  else if f = CAL_LIMITS_1_SEAM_PLAUS then (10, 100)
  else (0, 255)

/-- What happens to the calibration records: RESULT codes of `CAL_REC_CTRL`. -/
def recSaved : Nat := 1
def recRestored : Nat := 2
def recRefused : Nat := 3
def recVerifyFail : Nat := 4

/-- A fault of the CNV block of a die (level block). -/
def cnvFault (cls : Fin 4) (detail : Fin 65536) : FaultRec :=
  { level := 1, cls := cls, code := 0x0E, block := 2, unit := 0, detail := detail }

namespace State

/-! ### Switching the sets (R112, R113) -/

/-- Clamp every word of a set to its hardware range; CLAMP is set when one was outside (R109). -/
def clampSet (s : State) (d set : Nat) : State :=
  s.forEach (s.coef.keep fun k => k.inst == d && k.reg == set) fun t e =>
    let c := clampWord e.1.idx e.2
    if c.2 then (t.coefWr d set e.1.idx c.1).raise CNV_EVENT_CLAMP d else t

/-- Copy a whole set over another set of the same die. -/
def copySet (s : State) (d src dst : Nat) : State :=
  let t := { s with coef := s.coef.keep fun k => !(k.inst == d && k.reg == dst) }
  t.forEach (s.coef.keep fun k => k.inst == d && k.reg == src) fun t e => t.coefWr d dst e.1.idx e.2

/-- The pending swap takes place: sets swap whole, values are clamped, the new set is copied back when COPY_BACK is 1,
and an owner written meanwhile applies (R112, R113). -/
def swapSets (s : State) (d : Nat) : State :=
  let a := s.inactiveSet d
  let s := (s.clampSet d a).wr CNV_COEF_CTRL_ACTIVE_SET d a
  let s := if s.flag CNV_COEF_CTRL_COPY_BACK d then s.copySet d a (1 - a) else s
  let s := s.wr CNV_COEF_CTRL_SWITCH_PENDING d 0
  match (s.cnvSt d).ownerNext with
  | some o => (s.wrb CNV_COEF_CTRL_OWNER d o).modCnv d fun x => { x with ownerNext := none }
  | none => s

/-- A converter of the die is enabled. -/
def adcOn (s : State) (d : Nat) : Bool := s.flag CNV_CTRL_ADC_EN d
def dacOn (s : State) (d : Nat) : Bool := s.flag CNV_CTRL_DAC_EN d

/-! ### The record window (R126, R127) -/

/-- The key of a word of the record window. -/
def winKey (d w : Nat) : Key := { dom := 0, inst := d, blk := 3, reg := 0x1000, lo := 0, idx := w }

/-- A word of the record window. -/
def winRd (s : State) (d w : Nat) : Nat := s.calWin.get 0 (winKey d w)

/-- Write a word of the record window. -/
def winWr (s : State) (d w v : Nat) : State := { s with calWin := s.calWin.set 0 (winKey d w) (v % 2 ^ 32) }

/-- The bytes of the record window. -/
def winBytes (s : State) (d : Nat) : List Byte := (List.range 1024).flatMap fun w => bytesLE 4 (s.winRd d w)

/-- A seam register as one word. -/
def seamLoWord (s : State) (d : Nat) : Nat :=
  s.rd CAL_SEAM_LO_VALID d * 2 ^ 31 + s.rd CAL_SEAM_LO_RHO d * 65536 + s.rd CAL_SEAM_LO_TAU d
def seamHiWord (s : State) (d : Nat) : Nat :=
  s.rd CAL_SEAM_HI_VALID d * 2 ^ 31 + s.rd CAL_SEAM_HI_RHO d * 65536 + s.rd CAL_SEAM_HI_TAU d

/-- The path skew registers as words. -/
def rxSkewWord (s : State) (d : Nat) : Nat :=
  s.eventWord [CNV_RX_PATH_SKEW_YQ, CNV_RX_PATH_SKEW_YI, CNV_RX_PATH_SKEW_XQ, CNV_RX_PATH_SKEW_XI] d
def txSkewWord (s : State) (d : Nat) : Nat :=
  s.eventWord [CNV_TX_PATH_SKEW_YQ, CNV_TX_PATH_SKEW_YI, CNV_TX_PATH_SKEW_XQ, CNV_TX_PATH_SKEW_XI] d

/-- Store a word in a path skew register. A byte of 0x80, which stands for −12.8 ps and lies outside the range of R110, is
stored as written. Log entry 129 DESIGN CHOICE. -/
def wrRxSkew (s : State) (d v : Nat) : State :=
  (((s.wr CNV_RX_PATH_SKEW_YQ d (v / 16777216)).wr CNV_RX_PATH_SKEW_YI d (v / 65536)).wr CNV_RX_PATH_SKEW_XQ d
    (v / 256)).wr CNV_RX_PATH_SKEW_XI d v
def wrTxSkew (s : State) (d v : Nat) : State :=
  (((s.wr CNV_TX_PATH_SKEW_YQ d (v / 16777216)).wr CNV_TX_PATH_SKEW_YI d (v / 65536)).wr CNV_TX_PATH_SKEW_XQ d
    (v / 256)).wr CNV_TX_PATH_SKEW_XI d v

/-- The delay registers as words. -/
def rxDelayWord (s : State) (d : Nat) : Nat := s.rd CNV_RX_DELAY_FINE d * 65536 + s.rd CNV_RX_DELAY_WHOLE d
def txDelayWord (s : State) (d : Nat) : Nat := s.rd CNV_TX_DELAY_FINE d * 65536 + s.rd CNV_TX_DELAY_WHOLE d

/-- Zero bytes. -/
def zeros (n : Nat) : List Byte := List.replicate n 0

/-- The calibration record of a die without its CRC (R126): bytes 0 to 4 091. -/
def recordBody (s : State) (d : Nat) : List Byte :=
  let a := s.activeSet d
  let c := s.cnvSt d
  let flags := b2n c.lastFull + 2 * s.rd CAL_STATUS_BG_CONVERGED d +
    4 * b2n (s.flag CAL_SEAM_LO_VALID d || s.flag CAL_SEAM_HI_VALID d)
  bytesLE 4 0x524C4143 ++ bytesLE 2 1 ++ bytesLE 1 d ++ bytesLE 1 0x11 ++
  bytesLE 8 (s.dieId.get 0 (unitKey d 0)) ++ bytesLE 6 s.tim.todSec ++ bytesLE 2 (s.rd HKA_TEMP_MAX_TEMP d) ++
  bytesLE 4 flags ++ zeros 36 ++
  ((List.range 640).flatMap fun w => bytesLE 4 (s.coefRd d a w)) ++
  ((List.range 28).flatMap fun t => bytesLE 2 (ofSigned 16 (toSigned 10 (s.coefRd d a (640 + t))))) ++
  bytesLE 4 (s.rxSkewWord d) ++ bytesLE 4 (s.txSkewWord d) ++
  bytesLE 4 (s.rxDelayWord d) ++ bytesLE 4 (s.txDelayWord d) ++
  bytesLE 4 (s.seamLoWord d) ++ bytesLE 4 (s.seamHiWord d) ++ zeros 1388

/-- Write bytes into the record window, a word at a time. -/
def winFill (s : State) (d : Nat) (w : Nat) : List Byte → State
  | b0 :: b1 :: b2 :: b3 :: bs => (s.winWr d w (natLE [b0, b1, b2, b3])).winFill d (w + 1) bs
  | _ => s

/-- Take the snapshot of a save into the window (R127). -/
def saveRecord (s : State) (d : Nat) : State :=
  let body := s.recordBody d
  (s.winFill d 0 (body ++ bytesLE 4 (crc32c body))).modCnv d fun x => { x with saveDue := false, recResult := some recSaved }

/-- The switch of a restored record has completed (R128): verification begins with the converters. -/
def endRestore (s : State) (d : Nat) : State :=
  (s.raise CAL_EVENT_REC_RESTORED d).modCnv d fun x => { x with restoring := false, recResult := some recRestored }

end State

/-! ### Checking a record (R128) -/

/-- The number at `n` bytes from byte `i` of a record. -/
def recNat (r : List Byte) (i n : Nat) : Nat := natLE ((r.drop i).take n)

/-- The coefficient word of a record for a word index of the window: entries as stored, taps cut to 10 bits. -/
def recWord (r : List Byte) (w : Nat) : Nat :=
  if w < 640 then recNat r (64 + 4 * w) 4 else recNat r (2624 + 2 * (w - 640)) 2 % 1024

namespace State

/-- The die slews while an applied delay differs from its FINE target (R121). -/
def refreshSlew (s : State) (d : Nat) : State :=
  s.wrb CNV_STATUS_FINE_SLEWING d
    ((s.cnvSt d).fineRx != s.rdS CNV_RX_DELAY_FINE d || (s.cnvSt d).fineTx != s.rdS CNV_TX_DELAY_FINE d)

/-- Every coefficient of a record lies within its value limit and hardware range; a path skew within ±12.7 ps; a tap is
a sign-extended 10-bit value; a valid seam estimate within the seam limit (R128, check 7). Log entry 167 DESIGN CHOICE. -/
def recordInRange (s : State) (d : Nat) (r : List Byte) : Bool :=
  ((List.range 640).all fun w =>
    let v := recNat r (64 + 4 * w) 4
    let dac := decide (512 ≤ w)
    let t := if w % 2 = 0 then 0 else 2
    let a := toSigned 16 v
    let b := toSigned 16 (v / 65536)
    s.inValueLimit d dac t a && s.inValueLimit d dac (t + 1) b && !(clampWord w v).2) &&
  ((List.range 28).all fun t =>
    let v := toSigned 16 (recNat r (2624 + 2 * t) 2)
    decide (-512 ≤ v ∧ v ≤ 511)) &&
  ((List.range 8).all fun i => recNat r (2680 + i) 1 != 0x80) &&
  [2696, 2700].all fun i =>
    recNat r (i + 3) 1 < 128 || decide ((toSigned 16 (recNat r i 2)).natAbs ≤ 50 * s.rd CAL_LIMITS_1_SEAM_PLAUS d)

/-- The first check of R128 that a record fails, by its reason code. -/
def recordReason (s : State) (d : Nat) (r : List Byte) : Option Nat :=
  let temp := toSigned 16 (recNat r 22 2)
  let now := s.rdS HKA_TEMP_MAX_TEMP d
  if s.adcOn d || s.dacOn d || s.flag CNV_STATUS_FG_ACTIVE d then some 1
  else if recNat r 4092 4 ≠ crc32c (r.take 4092) then some 2
  else if recNat r 0 4 ≠ 0x524C4143 ∨ recNat r 4 2 ≠ 1 then some 3
  else if recNat r 8 8 ≠ s.dieId.get 0 (unitKey d 0) then some 4
  else if recNat r 7 1 ≠ 0x11 then some 5
  else if (temp - now).natAbs > 240 then some 6
  else if s.recordInRange d r then none
  else some 7

/-- Write a record's values: coefficients to the inactive set and to the reference of verification, path skews, delays
and seam values; then switch (R128). A valid estimate of the lower seam is the first that acquisition takes.
Log entry 167 DESIGN CHOICE. -/
def restoreRecord (s : State) (d : Nat) (r : List Byte) : State :=
  let a := s.inactiveSet d
  let s := { s with coef := s.coef.keep fun k => !(k.inst == d && (k.reg == a || k.reg == 2)) }
  let s := s.forEach (List.range 668) fun t w => (t.coefWr d a w (recWord r w)).coefWr d 2 w (recWord r w)
  let s := (s.wrRxSkew d (recNat r 2680 4)).wrTxSkew d (recNat r 2684 4)
  let s := (s.wr CNV_RX_DELAY_FINE d (recNat r 2690 2)).wr CNV_RX_DELAY_WHOLE d (recNat r 2688 2)
  let s := (s.wr CNV_TX_DELAY_FINE d (recNat r 2694 2)).wr CNV_TX_DELAY_WHOLE d (recNat r 2692 2)
  let s := (s.wr CAL_SEAM_LO_TAU d (recNat r 2696 2)).wr CAL_SEAM_LO_RHO d (recNat r 2698 1)
  let s := s.wr CAL_SEAM_LO_VALID d (recNat r 2699 1 / 128)
  let s := (s.wr CAL_SEAM_HI_TAU d (recNat r 2700 2)).wr CAL_SEAM_HI_RHO d (recNat r 2702 1)
  let s := s.wr CAL_SEAM_HI_VALID d (recNat r 2703 1 / 128)
  let s := (s.wr CNV_COEF_CTRL_SWITCH_PENDING d 1).refreshSlew d
  let s := s.modCnv d fun x =>
    { x with restoring := true, verifying := true, verifyBad := false, recConverged := bit (recNat r 24 4) 1
             seed := if recNat r 2699 1 < 128 then none else some (toSigned 16 (recNat r 2696 2)) }
  if s.flag CNV_STATUS_SCLK_LOCK d then (s.swapSets d).endRestore d else s

/-- The checks of a restore, and what follows (R128). -/
def checkRecord (s : State) (d : Nat) : State :=
  let r := s.winBytes d
  match s.recordReason d r with
  | some n =>
    ((s.wr CAL_REC_CTRL_REASON d n).raise CAL_EVENT_REC_REFUSED d).modCnv d fun x => { x with recResult := some recRefused }
  | none => s.restoreRecord d r

/-- A pending switch completes, with the restore it belongs to; a save or a restore that waited for it runs, a save from the
new active set (R113, R128). Log entry 167 DESIGN CHOICE. -/
def endSwitch (s : State) (d : Nat) : State :=
  let s := s.swapSets d
  let s := if (s.cnvSt d).restoring then s.endRestore d else s
  let s := if (s.cnvSt d).saveDue then s.saveRecord d else s
  if (s.cnvSt d).restoreDue then (s.modCnv d fun x => { x with restoreDue := false }).checkRecord d else s

/-! ### Delays and seam loops (R121 to R125) -/

/-- Set a FINE trim, stopping at its range: past it TRIM_LIMIT is set and a transient fault reported (R123). -/
def trimFine (s : State) (f : Fld) (d : Nat) (v : Int) : State :=
  let s := s.wrSat f d v
  let s := if v < -512 ∨ 511 < v then
      (s.raise CAL_EVENT_TRIM_LIMIT d).emit (.fault d (cnvFault 0 2)) else s
  s.refreshSlew d

/-- The tracking correction of R123 in FINE steps: −τ × 2^−GAIN_SHIFT rounded towards zero to a whole step of 0.05 ps,
bounded by STEP; τ in 0.01 ps. -/
def trackStep (s : State) (d : Nat) (tau : ℚ) : Int :=
  let st : Int := s.rd CAL_SEAM_CTRL_STEP d
  let x := -tau / (5 * 2 ^ s.rd CAL_SEAM_CTRL_GAIN_SHIFT d)
  clampInt (-st) st (if x < 0 then -(-x).floor else x.floor)

/-- Split a receive delay in ps into WHOLE and FINE, with FINE within ±2.84 ps, so ±56 steps (R123); a delay beyond the range
of WHOLE leaves the rest to FINE. -/
def splitDelay (s : State) (d : Nat) (ps : ℚ) : State :=
  let ts : ℚ := 1000 / 176
  let n := (ps / ts + 1 / 2).floor
  let w := clampInt (-64) 63 n
  let f := Arith.round ((ps - w * ts) * 20)
  let f := if w = n then clampInt (-56) 56 f else f
  let n := w
  (s.wr CNV_RX_DELAY_WHOLE d (n + 64).toNat).trimFine CNV_RX_DELAY_FINE d f

/-- The receive delay of a die in ps (R121). -/
def rxDelayPs (s : State) (d : Nat) : ℚ :=
  ((s.rd CNV_RX_DELAY_WHOLE d : ℚ) - 64) * (1000 / 176) + (s.rdS CNV_RX_DELAY_FINE d : ℚ) / 20

/-- The lower neighbour of a die in its team is active. -/
def lowerActive (s : State) (d : Nat) : Bool := s.teamPos d != 0 && s.isActive (d - 1)

/-- A die has a lower neighbour in its team that is active or joining. -/
def lowerPresent (s : State) (d : Nat) : Bool :=
  s.teamPos d != 0 && (s.memberState (d - 1) == 1 || s.memberState (d - 1) == 2)

/-- The state of a die's seam loop, shown at the die and at its lower neighbour (R123). -/
def setLoop (s : State) (d st : Nat) : State :=
  let s := s.wr CAL_STATUS_SEAM_LO_STATE d st
  if s.teamPos d = 0 then s else s.wr CAL_STATUS_SEAM_HI_STATE (d - 1) st

/-- Put a die's seam loop into acquisition (R123). The first estimate of the first one after a restore is the restored one
(R128). -/
def startAcquire (s : State) (d : Nat) : State :=
  if s.flag CAL_CTRL_SEAM_EN d && s.lowerPresent d then
    (s.setLoop d 1).modCnv d fun x =>
      { x with acq := x.seed.toList, seed := none, lastLo := [], alarmRun := 0, tracked := false }
  else s

/-- Each of the last four valid estimates lies within the rejoin limit (R124). -/
def withinRejoin (s : State) (d : Nat) (xs : List ℚ) : Bool :=
  xs.length == 4 && xs.all fun t => decide (|t| ≤ 5 * s.rd CAL_LIMITS_1_REJOIN d)

/-- Show one seam estimate at both dies of the seam (R122, R124): the upper die `d` and its lower neighbour. A τ beyond the
16 bits of the field, which only an invalid estimate or one of acquisition has, is shown as the nearest value.
Log entry 168 DESIGN CHOICE. -/
def showSeam (s : State) (d : Nat) (valid : Bool) (tau rho : ℚ) : State :=
  let t := Arith.round tau
  let r := (clampInt 0 255 (Arith.round (rho * 255))).toNat
  let s := ((s.wrb CAL_SEAM_LO_VALID d valid).wrSat CAL_SEAM_LO_TAU d t).wr CAL_SEAM_LO_RHO d r
  let s := ((s.wrb CAL_SEAM_HI_VALID (d - 1) valid).wrSat CAL_SEAM_HI_TAU (d - 1) t).wr CAL_SEAM_HI_RHO (d - 1) r
  if valid then
    let s := s.modCnv d fun x => { x with lastLo := (tau :: x.lastLo).take 4 }
    let ok := s.withinRejoin d (s.cnvSt d).lastLo
    (s.wrb CAL_STATUS_REJOIN_OK_LO d ok).wrb CAL_STATUS_REJOIN_OK_HI (d - 1) ok
  else s

/-- One multiframe of the skew alarm (R123). -/
def seamAlarm (s : State) (d : Nat) (tau : ℚ) : State :=
  if |tau| > 10 * s.rd CAL_LIMITS_1_SEAM_ALARM d then
    let s := s.modCnv d fun x => { x with alarmRun := x.alarmRun + 1 }
    if (s.cnvSt d).alarmRun = 4 then s.raise CAL_EVENT_SKEW_ALARM d else s
  else s.modCnv d fun x => { x with alarmRun := 0 }

/-- Acquisition: after four valid estimates the mean is subtracted at once and the loop tracks (R123). -/
def acquire (s : State) (d mover : Nat) (tau : ℚ) : State :=
  let s := s.modCnv d fun x => { x with acq := tau :: x.acq }
  let a := (s.cnvSt d).acq
  if a.length = 4 then
    let mean : ℚ := a.sum / 400
    let s := s.splitDelay mover (s.rxDelayPs mover - mean)
    (s.setLoop d 2).modCnv d fun x => { x with acq := [], tracked := true }
  else s

/-- The crown brings the upper seam of a rejoining die within limits by moving the whole upper segment, at most STEP per
multiframe, until it is within limits; when a die's FINE would leave its range the rejoin stops with TRIM_LIMIT there (R124).
Log entry 16 DEDUCED. -/
def moveSegment (s : State) (d : Nat) (tau : ℚ) : State :=
  let step := s.trackStep d tau
  let seg := s.segment d
  if s.flag CAL_STATUS_REJOIN_OK_HI (d - 1) || (s.die (d - 1)).shiftStopped then s
  else
  match seg.find? fun e => decide (s.rdS CNV_RX_DELAY_FINE e + step < -512 ∨ 511 < s.rdS CNV_RX_DELAY_FINE e + step) with
  | some e =>
    (s.raise CAL_EVENT_TRIM_LIMIT e).modDie (d - 1) fun x => { x with rejoinReq := false, shiftStopped := true }
  | none => s.forEach seg fun t e => t.trimFine CNV_RX_DELAY_FINE e (t.rdS CNV_RX_DELAY_FINE e + step)

/-- A loop that held because HOLD was set goes on where it was, once HOLD is clear (R123). Log entry 168 DESIGN CHOICE. -/
def leaveHold (s : State) (d : Nat) : State :=
  if s.rd CAL_STATUS_SEAM_LO_STATE d = 3 then s.setLoop d (if (s.cnvSt d).tracked then 2 else 1) else s

/-- The multiframe's update of the seam loop of a die for a valid estimate (R123, R124). -/
def seamLoop (s : State) (d : Nat) (tau : ℚ) : State :=
  if !s.flag CAL_CTRL_SEAM_EN d then s
  else if s.flag CAL_SEAM_CTRL_HOLD d then s.setLoop d 3
  else if s.memberState (d - 1) == 1 && s.isActive d then
    -- the lower neighbour rejoins: it or the upper segment moves, not this die's own loop
    if s.lowerActive (d - 1) then
      if s.rd CAL_STATUS_SEAM_LO_STATE (d - 1) = 2 then s.moveSegment d tau else s
    else s.acquire d (d - 1) tau
  else if s.isActive d && !s.lowerActive d then s
  else
  let s := s.leaveHold d
  if s.rd CAL_STATUS_SEAM_LO_STATE d = 1 then s.acquire d d tau
  else if s.rd CAL_STATUS_SEAM_LO_STATE d = 2 then
    s.trimFine CNV_RX_DELAY_FINE d (s.rdS CNV_RX_DELAY_FINE d + s.trackStep d tau)
  else s

/-! ### Sampling reference (R107) -/

/-- The converters lose the sampling reference. -/
def cnvLost (s : State) (d : Nat) : State := (s.wr CNV_STATUS_SCLK_LOCK d 0).raise CNV_EVENT_SCLK_LOST d

/-- The converters resume: a pending switch completes, and every seam the die borders returns to acquisition (R107, R113,
R123). -/
def cnvReturn (s : State) (d : Nat) : State :=
  let s := s.raise CNV_STATUS_SCLK_LOCK d
  let s := if s.flag CNV_COEF_CTRL_SWITCH_PENDING d then s.endSwitch d else s
  let s := s.startAcquire d
  if d + 1 < s.dieCount ∧ s.sameTeam d (d + 1) then s.startAcquire (d + 1) else s

end State

/-! ### The estimate of R122 -/

/-- Unwrap a list of phases from a first one: each differs from the one before by at most π. -/
def unwrapFrom (prev : ℚ) : List ℚ → List ℚ
  | [] => []
  | q :: rest =>
    let k : ℚ := ((q - prev) / (2 * Arith.pi) + 1 / 2).floor
    let q' := q - k * 2 * Arith.pi
    q' :: unwrapFrom q' rest

/-- Unwrap a list of phases. -/
def unwrap : List ℚ → List ℚ
  | [] => []
  | p :: rest => p :: unwrapFrom p rest

/-- C_j of a tone: the sum over its samples of A_j × conj(B_j). -/
def seamCross (samples : List (Cpx × Cpx)) : Cpx := Cpx.sum (samples.map fun p => p.1.mul p.2.conj)

/-- The skew estimate of R122 from the samples of the seam tones, lowest first and 31.25 MHz apart (R137): τ in 0.01 ps,
and ρ. -/
def seamEstimate (tones : List (List (Cpx × Cpx))) : ℚ × ℚ :=
  let cs := tones.map seamCross
  let w := cs.map Cpx.abs
  let phi := unwrap (cs.map Cpx.arg)
  let f := (List.range tones.length).map fun j => (j : ℚ) * (125 / 4)
  let sw := w.sum
  let fbar := ((w.zip f).map fun p => p.1 * p.2).sum / sw
  let num := ((w.zip (f.zip phi)).map fun p => p.1 * (p.2.1 - fbar) * p.2.2).sum
  let den := ((w.zip f).map fun p => p.1 * (p.2 - fbar) * (p.2 - fbar)).sum
  -- f in MHz, so τ is in µs: 10^8 units of 0.01 ps
  let tau := -(num / den) / (2 * Arith.pi) * 100000000
  let xs := tones.flatten
  let rho := (Cpx.sum cs).abs / Arith.sqrt ((xs.map fun p => p.1.abs2).sum * (xs.map fun p => p.2.abs2).sum)
  (tau, rho)

/-! ### Meanings -/

/-- SYNTH_SWITCH (R106): in synthesised mode, every die notes the switch to die 1's synthesiser. -/
def execSynthSwitch (s : State) : Host.Outcome State Fault Refusal :=
  run s fun s => s.forEach s.dieList fun t d =>
    if t.flag CNV_STATUS_SOURCE d then (t.raise CNV_EVENT_SCLK_SWITCH d).raise CNV_STATUS_SYNTH_STANDBY d else t

/-- PATH_SKEW_WRITE (R110): the register holds all four converters' trims, so the write is refused while one of them is
enabled. Log entry 11 DEDUCED. -/
def execPathSkewWrite (die : Fin 8) (tx : Bool) (data : Word) (s : State) : Host.Outcome State Fault Refusal :=
  runDie s die fun s =>
    if (if tx then s.dacOn die else s.adcOn die) then s.refuseAccess
    else if tx then (s.wrTxSkew die data.toNat).respond 0
    else (s.wrRxSkew die data.toNat).respond 0

/-- COEF_WINDOW_WRITE (R111, R113): only the owner writes the inactive set, and not while a switch is pending. -/
def execCoefWindowWrite (die : Fin 8) (byHost : Bool) (index : Fin 668) (data : Word) (s : State) :
    Host.Outcome State Fault Refusal :=
  runDie s die fun s =>
    if s.flag CNV_COEF_CTRL_OWNER die != byHost || s.flag CNV_COEF_CTRL_SWITCH_PENDING die then
      (s.raise CNV_COEF_CTRL_WR_ERR die).refuseAccess
    else
      let v := if (index : Nat) < 640 then data.toNat else data.toNat % 1024
      (s.coefWr die (s.inactiveSet die) index v).respond 0

/-- COEF_SWITCH (R112, R113): the write's OWNER applies at once, or after a pending switch. -/
def execCoefSwitch (die : Fin 8) (copyBack owner : Bool) (s : State) : Host.Outcome State Fault Refusal :=
  runDie s die fun s =>
    let s := s.wrb CNV_COEF_CTRL_COPY_BACK die copyBack
    if s.flag CNV_COEF_CTRL_SWITCH_PENDING die then
      (s.raise CNV_EVENT_SWITCH_ERR die).modCnv die fun x => { x with ownerNext := some owner }
    else (s.wrb CNV_COEF_CTRL_OWNER die owner).wr CNV_COEF_CTRL_SWITCH_PENDING die 1

/-- COEF_SWAP (R112, R113): the pending swap; without lock it waits. A save that waited takes its snapshot. -/
def execCoefSwap (die : Fin 8) (s : State) : Host.Outcome State Fault Refusal :=
  runDie s die fun s =>
    if s.flag CNV_COEF_CTRL_SWITCH_PENDING die && s.flag CNV_STATUS_SCLK_LOCK die then s.endSwitch die else s

/-- FG_START (R116): refused when a converter in scope is enabled; a running pass goes on. -/
def execFgStart (die : Fin 8) (scope : Fin 4) (s : State) : Host.Outcome State Fault Refusal :=
  runDie s die fun s =>
    let s := s.wr CAL_CTRL_FG_SCOPE die scope
    if s.rd CAL_STATUS_FG_STATE die = 1 then s
    else if s.adcOn die || ((scope : Nat) == 2 && s.dacOn die) then s.wr CAL_STATUS_FG_STATE die 4
    else
      let s := (s.wr CAL_STATUS_FG_STATE die 1).wr CNV_STATUS_FG_ACTIVE die 1
      s.modCnv die fun x => { x with fgScope := if (scope : Nat) = 3 then 0 else scope, fgFailed := 0 }

/-- The pass of a scope finds a word of the window (R116): the ADC passes the ADC entries, the DAC pass those of the DACs and
the taps. -/
def passFinds (scope w : Nat) : Bool := if scope = 2 then decide (512 ≤ w) else decide (w < 512)

/-- A word as a pass leaves it: a quick pass keeps the bandwidth of the entry; a tap has 10 bits. -/
def passWord (scope w old v : Nat) : Nat :=
  if 640 ≤ w then v % 1024 else if scope = 0 ∧ w % 2 = 1 then old / 65536 * 65536 + v % 65536 else v

/-- Every term that a pass of a scope finds lies within its value limit. Log entry 114 DEDUCED. -/
def passInLimits (s : State) (d scope : Nat) (r : FgResult) : Bool :=
  r.words.all fun e =>
    let w : Nat := e.1
    decide (640 ≤ w) || !passFinds scope w ||
    (let v := e.2.toNat
     let t := if w % 2 = 0 then 0 else 2
     s.inValueLimit d (decide (512 ≤ w)) t (toSigned 16 v) &&
     ((scope == 0 && t == 2) || s.inValueLimit d (decide (512 ≤ w)) (t + 1) (toSigned 16 (v / 65536))))

/-- Firmware may write the inactive set: it is the owner, and no switch is pending (R111, R113). -/
def firmwareOwns (s : State) (d : Nat) : Bool :=
  !s.flag CNV_COEF_CTRL_OWNER d && !s.flag CNV_COEF_CTRL_SWITCH_PENDING d

/-- FG_PASS_END (R116, R120): a good pass writes the terms of its row to the inactive set, and the path skews of its
converters; a bad one is repeated up to FG_RETRIES times, and the last failure is a permanent fault of the CNV block. Where
firmware may not write the set, its writes are refused as any are (R111, R113). Log entries 114 DEDUCED, 169 DEDUCED. -/
def State.fgPassEnd (s : State) (d : Nat) (result : FgResult) : State :=
  let scope := (s.cnvSt d).fgScope
  if s.rd CAL_STATUS_FG_STATE d ≠ 1 then s
  else if passInLimits s d scope result then
    let a := s.inactiveSet d
    let s := if firmwareOwns s d then
        s.forEach (result.words.filter fun e => passFinds scope e.1) fun t e =>
          t.coefWr d a e.1 (passWord scope e.1 (t.coefRd d a e.1) e.2.toNat)
      else s.raise CNV_COEF_CTRL_WR_ERR d
    let s := if scope = 2 then s.wrTxSkew d result.txSkew.toNat else s.wrRxSkew d result.rxSkew.toNat
    let s := s.modCnv d fun x => { x with lastFull := if x.fgScope = 2 then x.lastFull else x.fgScope == 1 }
    ((s.wr CAL_STATUS_FG_STATE d 2).wr CNV_STATUS_FG_ACTIVE d 0).raise CAL_EVENT_FG_DONE d
  else
    let n := (s.cnvSt d).fgFailed + 1
    if n ≤ s.rd CAL_CTRL_FG_RETRIES d then s.modCnv d fun x => { x with fgFailed := n }
    else
      let s := (s.wr CAL_STATUS_FG_STATE d 3).wr CNV_STATUS_FG_ACTIVE d 0
      ((s.raise CAL_EVENT_FG_FAIL d).raise CAL_EVENT_FG_DONE d).emit (.fault d (cnvFault 1 1))

/-- The key of a term of a sub-converter or sub-DAC in the run counters. -/
def termKey (d : Nat) (e : BgEstimate) : Key :=
  { dom := 0, inst := d, blk := 3, reg := b2n e.dac, lo := e.term, idx := 64 * (e.conv : Nat) + e.sub }

/-- Terms that background calibration keeps: four of each sub-converter, offset, gain and skew of each sub-DAC (R116). -/
def bgTerms : Nat := 4 * 64 * 4 + 4 * 16 * 3

namespace State

/-- A background estimate outside its value limit: rejected and counted, which ends its run of accurate ones (R117); the
eighth in a row is SUB_FAIL (R119).
Log entry 15 DEDUCED. -/
def rejectEstimate (s : State) (d : Nat) (e : BgEstimate) : State :=
  let s := (s.count CAL_REJECTS_COUNT d).raise CAL_EVENT_REJECT d
  let s := { s with calRun := s.calRun.set 0 (termKey d e) 0 }
  let n := s.calRej.get 0 (termKey d e) + 1
  if n = 8 then
    let s := { s with calRej := s.calRej.set 0 (termKey d e) 0 }
    let s := ((s.wr CAL_FAIL_WHERE_TERM d e.term).wrb CAL_FAIL_WHERE_KIND d e.dac).wr CAL_FAIL_WHERE_CONVERTER d e.conv
    ((s.wr CAL_FAIL_WHERE_SUB d e.sub).raise CAL_EVENT_SUB_FAIL d).emit (.fault d (cnvFault 0 3))
  else { s with calRej := s.calRej.set 0 (termKey d e) n }

/-- The run of accurate updates of a term, and BG_CONVERGED once every term has a run of 64 (R117). -/
def convergeTerm (s : State) (d : Nat) (e : BgEstimate) : State :=
  let n := if e.accurate then min 64 (s.calRun.get 0 (termKey d e) + 1) else 0
  let s := { s with calRun := s.calRun.set 0 (termKey d e) n }
  if ((s.calRun.keep fun k => k.inst == d).filter fun x => x.2 == 64).length = bgTerms then
    s.raise CAL_STATUS_BG_CONVERGED d
  else s

end State

/-- Background calibration forms an estimate of a term (R116): of every sub-converter, and of offset, gain and skew of the 16
sub-DACs. -/
def bgFormed (e : BgEstimate) : Bool := !e.dac || decide ((e.sub : Nat) < 16 ∧ (e.term : Nat) ≠ 3)

/-- BG_CAL_UPDATE (R117 to R119, R129): an estimate within its limits is applied to the inactive set; where firmware may not
write the set its write is refused (R111, R113). Log entry 169 DEDUCED. -/
def execBgCalUpdate (die : Fin 8) (est : BgEstimate) (s : State) : Host.Outcome State Fault Refusal :=
  runDie s die fun s =>
    let s := if est.clips = 0 ∨ est.dac then s else
      (s.count CNV_CLIP_COUNT_COUNT die est.clips est.conv).raise CNV_EVENT_CLIP die (2 ^ (est.conv : Nat))
    let on := if est.dac then s.flag CAL_CTRL_BG_DAC_EN die && bit (s.rd CNV_CTRL_DAC_EN die) est.conv
      else s.flag CAL_CTRL_BG_ADC_EN die && bit (s.rd CNV_CTRL_ADC_EN die) est.conv
    if !on || !bgFormed est || (est.low && !est.dac) then s
    else
      let a := s.inactiveSet die
      let old := s.termRd die a est.dac est.conv est.sub est.term
      let ref := s.termRd die 2 est.dac est.conv est.sub est.term
      let bad := !s.inValueLimit die est.dac est.term est.value
      let s := if (s.cnvSt die).verifying && (bad || decide (((est.value - ref).natAbs : ℚ) > 8 * stepLimit est.term))
        then s.modCnv die fun x => { x with verifyBad := true } else s
      if bad then s.rejectEstimate die est
      else
        let s := { s with calRej := s.calRej.set 0 (termKey die est) 0 }
        let new := if ((est.value - old).natAbs : ℚ) > stepLimit est.term then stepTowards est.term old est.value
          else est.value
        if firmwareOwns s die then (s.termWr die a est.dac est.conv est.sub est.term new).convergeTerm die est
        else s.raise CNV_COEF_CTRL_WR_ERR die

/-- DELAY_WRITE (R121): a change of WHOLE is refused while the die is active; FINE is slewed. -/
def execDelayWrite (die : Fin 8) (tx : Bool) (whole : Fin 128) (fine : Fin 1024) (s : State) :
    Host.Outcome State Fault Refusal :=
  runDie s die fun s =>
    let fw := if tx then CNV_TX_DELAY_WHOLE else CNV_RX_DELAY_WHOLE
    let ff := if tx then CNV_TX_DELAY_FINE else CNV_RX_DELAY_FINE
    if s.isActive die && s.rd fw die != whole then s.refuseAccess
    else (((s.wr fw die whole).wr ff die fine).refreshSlew die).respond 0

/-- One step of 0.05 ps towards a target. -/
def slewStep (now target : Int) : Int := if now < target then now + 1 else if target < now then now - 1 else now

/-- FINE_SLEW_STEP (R121). -/
def execFineSlewStep (die : Fin 8) (s : State) : Host.Outcome State Fault Refusal :=
  runDie s die fun s =>
    (s.modCnv die fun x =>
      { x with fineRx := slewStep x.fineRx (s.rdS CNV_RX_DELAY_FINE die)
               fineTx := slewStep x.fineTx (s.rdS CNV_TX_DELAY_FINE die) }).refreshSlew die

/-- A report of the far end on the transmit skew of the seam below a die, in 0.01 ps (R125). -/
def State.txSeamReport (s : State) (die : Nat) (tau : Int) : State :=
  let s := (s.wrb CAL_TX_SEAM_LO_VALID die true).wrSat CAL_TX_SEAM_LO_TAU die tau
  let s := s.modCnv die fun x => { x with txLast := some s.time.mf }
  let s :=
    if tau.natAbs > 50 * s.rd CAL_SEAM_CTRL_TX_LIMIT die then
      let s := s.modCnv die fun x => { x with txRun := x.txRun + 1 }
      if (s.cnvSt die).txRun = 4 then s.raise CAL_EVENT_SKEW_ALARM die else s
    else s.modCnv die fun x => { x with txRun := 0 }
  if s.flag CAL_CTRL_TX_SEAM_EN die && s.lowerActive die && !s.flag CAL_SEAM_CTRL_HOLD die then
    s.trimFine CNV_TX_DELAY_FINE die (s.rdS CNV_TX_DELAY_FINE die + s.trackStep die tau)
  else s

/-- A SKEW record (R226): TAU and VALID; every subcarrier of a die carries it, and the first in a multiframe is taken. -/
def State.skewRecord (s : State) (die : Nat) (record : List Byte) : State :=
  if (s.cnvSt die).txLast = some s.time.mf then s
  else if ((record.getD 2 0).toNat).testBit 7 then
    s.txSeamReport die (toSigned 16 (256 * (record.getD 0 0).toNat + (record.getD 1 0).toNat))
  else (s.wr CAL_TX_SEAM_LO_VALID die 0).modCnv die fun x => { x with txLast := some s.time.mf }

/-- TX_SEAM_REPORT (R125). Log entry 29 DESIGN CHOICE. -/
def execTxSeamReport (die : Fin 8) (tau : Int) (s : State) : Host.Outcome State Fault Refusal :=
  runDie s die fun s => s.txSeamReport die tau

/-- CAL_SAVE (R113, R127): refused while BUSY; a pending switch is waited for. -/
def execCalSave (die : Fin 8) (s : State) : Host.Outcome State Fault Refusal :=
  runDie s die fun s =>
    if s.flag CAL_REC_CTRL_BUSY die then s.refuseAccess
    else
      let s := (s.wr CAL_REC_CTRL_BUSY die 1).respond 0
      if s.flag CNV_COEF_CTRL_SWITCH_PENDING die then s.modCnv die fun x => { x with saveDue := true }
      else s.saveRecord die

/-- CAL_RESTORE (R128): refused while BUSY; the record is checked in order and restored, or refused with a reason. A pending
switch is waited for, since the inactive set takes no write meanwhile (R113). Log entry 167 DESIGN CHOICE. -/
def State.calRestore (s : State) (d : Nat) : State :=
  if s.flag CAL_REC_CTRL_BUSY d then s.refuseAccess
  else
    let s := (s.wr CAL_REC_CTRL_BUSY d 1).respond 0
    if s.flag CNV_COEF_CTRL_SWITCH_PENDING d then s.modCnv d fun x => { x with restoreDue := true } else s.checkRecord d

/-- CAL_RECORD_DONE (R127, R128). -/
def execCalRecordDone (die : Fin 8) (s : State) : Host.Outcome State Fault Refusal :=
  runDie s die fun s =>
    match (s.cnvSt die).recResult with
    | none => s
    | some r =>
      let s := (s.wr CAL_REC_CTRL_BUSY die 0).wr CAL_REC_CTRL_RESULT die r
      let s := if r = recSaved then s.raise CAL_EVENT_REC_SAVED die else s
      s.modCnv die fun x => { x with recResult := none }

/-- CAL_VERIFY_END (R129): a failed verification disables the converters, and the start becomes a cold one with a quick
ADC pass. Log entry 119 DEDUCED. -/
def State.calVerifyEnd (s : State) (d : Nat) : State :=
  let c := s.cnvSt d
  if !c.verifying then s
  else if c.verifyBad then
    let s := (s.raise CAL_EVENT_VERIFY_FAIL d).wr CAL_REC_CTRL_RESULT d recVerifyFail
    let s := (s.wr CNV_CTRL_ADC_EN d 0).wr CNV_CTRL_DAC_EN d 0
    let s := (s.wr CAL_STATUS_FG_STATE d 1).wr CNV_STATUS_FG_ACTIVE d 1
    let s := (s.wr BUP_STATUS_WARM d 0).wr BUP_STATUS_STATE d 2
    s.modCnv d fun x => { x with verifying := false, verifyBad := false, recConverged := false, fgScope := 0, fgFailed := 0 }
  else s.modCnv d fun x => { x with verifying := false }

end Sys2Proof.Machine
end

