-- ==== Sys2Proof/Machine/Equaliser.lean ====
section
/-! DEFINITION. The signal arithmetic of the receive path (spec/05): dispersion taps, training and channel estimate,
equalising and LMS, fits over tones, seam weights, quality figures. Frequencies are in GHz. -/
namespace Sys2Proof.Machine
open Sys2Proof

/-- 10^x. -/
def pow10 (x : ℚ) : ℚ := Arith.exp (x * Arith.ln 10)

/-- 10 log10 x. -/
def db (x : ℚ) : ℚ := 10 * Arith.log10 x

/-! ### FDE geometry (R140) -/

/-- Tones of an FDE form. -/
def fdeTones (express : Bool) : Nat := if express then 64 else 512

/-- Overlap of an FDE block. -/
def fdeOverlap (express : Bool) (ov : Bool) : Nat := if express then 8 else if ov then 256 else 128

/-- The frequency of tone j from the subcarrier centre, in GHz. -/
def toneFreq (n j : Nat) : ℚ := ((j : ℚ) - (n : ℚ) / 2) * 16 / n

/-- The phase of c_j (R141): π CD λ² f²/c0 with CD in ps/nm and the subcarrier at `fg` GHz. -/
def cdPhase (cd : Int) (fg f : ℚ) : ℚ := Arith.pi * (cd : ℚ) * (299792458 / 1000) * (f / fg) * (f / fg)

/-- c_j of every tone. -/
def cdTaps (n : Nat) (cd : Int) (fg : ℚ) : List Cpx := (List.range n).map fun j => Cpx.expj (cdPhase cd fg (toneFreq n j))

/-- The taps of an arm that has CD only: M_j = I. -/
def initTaps (n : Nat) (cd : Int) (fg : ℚ) : List Mat2 := (cdTaps n cd fg).map fun c => Mat2.scale c Mat2.id

/-- M_j = W_j / c_j. -/
def residTaps (n : Nat) (cd : Int) (fg : ℚ) (w : List Mat2) : List Mat2 :=
  (w.zip (cdTaps n cd fg)).map fun p => Mat2.scale p.2.conj p.1

/-! ### Fits over tones -/

/-- Unwrap a list of phases from a first one: each differs from the one before by at most half of `turn`. -/
def unwrapBy (turn prev : ℚ) : List ℚ → List ℚ
  | [] => []
  | q :: rest =>
    let k : ℚ := ((q - prev) / turn + 1 / 2).floor
    let q' := q - k * turn
    q' :: unwrapBy turn q' rest

/-- arg(det)/2 of a list of taps, continuous over the tones. -/
def halfDetPhase (w : List Mat2) : List ℚ :=
  let ps := w.map fun m => m.det.arg / 2
  unwrapBy Arith.pi (ps.headD 0) ps

/-- The least-squares slope of y over x. -/
def slopeFit (ps : List (ℚ × ℚ)) : ℚ :=
  let n : ℚ := ps.length
  let mx := (ps.map Prod.fst).sum / n
  (ps.map fun p => (p.1 - mx) * p.2).sum / (ps.map fun p => (p.1 - mx) * (p.1 - mx)).sum

/-- The least-squares quadratic coefficient of y over x. -/
def quadFit (ps : List (ℚ × ℚ)) : ℚ :=
  let n : ℚ := ps.length
  let mx := (ps.map Prod.fst).sum / n
  let us := ps.map fun p => p.1 - mx
  let m2 := (us.map fun u => u * u).sum / n
  let m3 := (us.map fun u => u * u * u).sum / n
  let vs := us.map fun u => u * u - m2 - m3 / m2 * u
  ((vs.zip ps).map fun p => p.1 * p.2.2).sum / (vs.map fun v => v * v).sum

/-- Residual dispersion in ps/nm from the quadratic phase of M_j (R146). -/
def residualCd (n : Nat) (cd : Int) (fg : ℚ) (w : List Mat2) : ℚ :=
  let ph := halfDetPhase (residTaps n cd fg w)
  quadFit (((List.range n).map (toneFreq n)).zip ph) * fg * fg / (Arith.pi * (299792458 / 1000))

/-! ### Training (R142 to R144, R217) -/

/-- The training span's symbols of X and Y at period k (R217). -/
def spanX (k : Nat) : Cpx := Cpx.expj (-(Arith.pi * ((k * k : Nat) : ℚ) / 32))
def spanY (k : Nat) : Cpx :=
  (Cpx.expj (-(Arith.pi * 3 * ((k * k : Nat) : ℚ) / 32))).mul (Cpx.expj (Arith.pi * (k : ℚ) / 32))

/-- The training symbols at symbol index n = k − 273 (R217). -/
def trainX (n : Nat) : Cpx := spanX (n + 273)
def trainY (n : Nat) : Cpx := spanY (n + 273)

/-- First symbol of the DFT window of a form; its length is 256 less that. -/
def trainStart (express : Bool) : Nat := if express then 192 else 128

/-- The measured column of the channel on the bins `k ≡ r` mod the bin step: tone position and value pairs in frequency
order. -/
def columnPoints (express : Bool) (r : Nat) (ref : Nat → Cpx) (rx : List Vec2) : List (Nat × Vec2) :=
  let a := trainStart express
  let m := 256 - a
  let step := if express then 2 else 4
  let tone := fdeTones express / m
  let win := rx.drop a
  let rx2 := dft2 win
  let sref := dft ((List.range m).map fun i => ref (a + i))
  let bins := byFreq (List.range m)
  (bins.zipIdx.filter fun b => b.1 % step == r).map fun b =>
    let v := rx2.getD b.1 {}
    let q := sref.getD b.1 {}
    (tone * b.2, { x := v.x.div q, y := v.y.div q })

/-- Linear interpolation of one real part over the measured points; beyond the ends the spec gives no value (log entry
17). -/
def interpReal (pts : List (Nat × ℚ)) (j : Nat) : ℚ :=
  let lo := (pts.filter fun p => decide (p.1 ≤ j)).getLast?
  let hi := pts.find? fun p => decide (j ≤ p.1)
  match lo, hi with
  | some a, some b =>
    if a.1 = b.1 then a.2 else a.2 + (b.2 - a.2) * ((j : ℚ) - (a.1 : ℚ)) / ((b.1 : ℚ) - (a.1 : ℚ))
  | _, _ => Config.edge j (pts.headD (0, 0)).2 (pts.getLastD (0, 0)).2

/-- A column interpolated onto tone j. -/
def interpCol (pts : List (Nat × Vec2)) (j : Nat) : Vec2 :=
  { x := { re := interpReal (pts.map fun p => (p.1, p.2.x.re)) j, im := interpReal (pts.map fun p => (p.1, p.2.x.im)) j },
    y := { re := interpReal (pts.map fun p => (p.1, p.2.y.re)) j, im := interpReal (pts.map fun p => (p.1, p.2.y.im)) j } }

/-- The taps a training block gives (R143). -/
def trainTaps (express : Bool) (cd : Int) (fg beta : ℚ) (rx : List Vec2) : List Mat2 :=
  let n := fdeTones express
  let h1 := columnPoints express 0 trainX rx
  let h2 := columnPoints express (if express then 1 else 2) trainY rx
  (cdTaps n cd fg).zipIdx.map fun p =>
    let u := interpCol h1 p.2
    let v := interpCol h2 p.2
    let h : Mat2 := { a := u.x, b := v.x, c := u.y, d := v.y }
    let m := ((h.herm.mul h).add (Mat2.smul beta Mat2.id)).inv.mul h.herm
    Mat2.scale p.1 m

/-- The anchored update of the taps (R144). -/
def trainStep (w wt : List Mat2) (shift : Nat) : List Mat2 :=
  let omega := (Cpx.sum ((w.zip wt).map fun p => (p.1.herm.mul p.2).trace)).arg
  (w.zip wt).map fun p =>
    p.1.add (Mat2.smul (1 / 2 ^ shift) ((Mat2.scale (Cpx.expj (-omega)) p.2).sub p.1))

/-! ### Equalising and LMS (R141, R145) -/

/-- The tones of a block in frequency order. -/
def blockTones (input : List Vec2) : List Vec2 := byFreq (dft2 input)

/-- The symbols a block delivers: the last N − L samples of the equalised block. -/
def equalise (taps : List Mat2) (input : List Vec2) (overlap : Nat) : List Vec2 :=
  let ys := ((taps.zip (blockTones input)).map fun p => p.1.apply p.2)
  (idft2 (byFreq ys)).drop overlap

/-- The nearest value of one dimension of the constellation. -/
def nearestDim (c h n : Nat) (y : ℚ) : ℚ :=
  (dimPoints c h n).foldl (fun (best : ℚ) p => if (y - p.2.1) * (y - p.2.1) < (y - best) * (y - best) then p.2.1 else best)
    (((dimPoints c h n).map fun p => p.2.1).headD 0)

/-- The nearest constellation point. -/
def nearest (c h n : Nat) (y : Cpx) : Cpx := { re := nearestDim c h n y.re, im := nearestDim c h n y.im }

/-- The LMS error of one polarisation of a symbol: none without a known value or decision. Log entry 21 DEDUCED. -/
def lmsError (d : Option Cpx) (y : Cpx) (theta : ℚ) : Cpx :=
  match d with
  | none => {}
  | some v => (v.sub (y.mul (Cpx.expj theta))).mul (Cpx.expj (-theta))

/-- Per-tone power after a block (R145). -/
def powerStep (p : List ℚ) (x : List Vec2) : List ℚ :=
  x.zipIdx.map fun e => (1 - 1 / 64) * p.getD e.2 0 + (1 / 64) * (e.1.x.abs2 + e.1.y.abs2)

/-- The LMS update of the taps (R145). -/
def lmsStep (w : List Mat2) (p : List ℚ) (x errs : List Vec2) (shift : Nat) : List Mat2 :=
  w.zipIdx.map fun e =>
    let g : ℚ := 1 / 2 ^ shift / (p.getD e.2 0 + 1 / 2 ^ 20)
    e.1.add (Mat2.smul g (Mat2.outer (errs.getD e.2 {}) (x.getD e.2 {})))

/-- The timing error in symbols from the slope of arg(det W_j)/2 over the strong tones (R139). -/
def timingError (w : List Mat2) (p : List ℚ) : ℚ :=
  let n := w.length
  let mean := p.sum / (n : ℚ)
  let pts := (halfDetPhase w).zipIdx.filter fun e => decide (mean / 10 < p.getD e.2 0)
  let b := slopeFit (pts.map fun e => ((e.2 : ℚ), e.1))
  0 - b * (n : ℚ) / (2 * Arith.pi)

/-! ### Seam weights (R157) -/

/-- Smooth one matrix. -/
def smooth (k : Nat) (old new : Mat2) : Mat2 := old.add (Mat2.smul (1 / 2 ^ k) (new.sub old))

/-- T_j: the map of the neighbour's view into the die's own reference. -/
def seamMap (ab bb : Mat2) : Mat2 := ab.mul bb.inv

/-- w_j from the smoothed statistics: coherence threshold, power ratio limit and κ as linear values. -/
def seamWeight (aa ab bb : Mat2) (cohMin ratioMax kappa : ℚ) : ℚ :=
  let pA := aa.trace.re
  let pB := bb.trace.re
  let rho := Arith.sqrt ab.frob2 / Arith.sqrt (pA * pB)
  if rho < cohMin then 1
  else if pA > ratioMax * pB then 1
  else if pB > ratioMax * pA then 0
  else pA / (pA + kappa * pB)

/-- Y_j = w A + (1 − w) T B. -/
def seamCombine (w : ℚ) (t : Mat2) (a b : Vec2) : Vec2 :=
  let u := t.apply b
  { x := (a.x.smul w).add (u.x.smul (1 - w)), y := (a.y.smul w).add (u.y.smul (1 - w)) }

/-! ### Quality figures (R165, R166) -/

/-- The middle 80 % of n tones: those from n/10, as many as n less twice that. The list begins with tone `first`.
Log entry 23 DEDUCED. -/
def middle {α : Type} (n first : Nat) (xs : List α) : List α := (xs.drop (n / 10 - first)).take (n - 2 * (n / 10))

/-- Mean of a list. -/
def mean (xs : List ℚ) : ℚ := xs.sum / (xs.length : ℚ)

/-- Differential group delay in ps: J = M^−1, spacing in GHz. -/
def dgdPs (n : Nat) (m : List Mat2) : ℚ :=
  let js := m.map Mat2.inv
  let dw : ℚ := 2 * Arith.pi * (16 / (n : ℚ)) / 1000
  let gaps := (js.zip ((js.drop 1).zip (js.drop 2))).map fun t =>
    (((Mat2.smul (1 / (2 * dw)) (t.2.2.sub t.1)).mul t.2.1.inv).eigenGap).abs
  mean (middle n 1 gaps)

/-- Polarisation-dependent loss in dB. -/
def pdlDb (n : Nat) (m : List Mat2) : ℚ := mean ((middle n 0 (m.map Mat2.inv)).map fun j => 20 * Arith.log10 j.singularRatio)

/-- A BER of errs/bits as exponent and mantissa: the least exponent whose mantissa reaches 0x8000.
Log entry 22 DEDUCED. -/
def berCode (errs bits : Nat) : Nat × Nat :=
  if errs = 0 then (0, 0)
  else
    let e := ((List.range 32).find? fun e => decide (0x8000 * bits ≤ errs * 2 ^ (16 + e))).getD 31
    (e, clamp 0x8000 0xFFFF (Arith.round ((errs * 2 ^ (16 + e) : Nat) / (bits : ℚ))).toNat)

/-- osnr_sc as a linear value, none when snr_total reaches snr_tr (R166). -/
def osnrLin (snr tr : ℚ) : Option ℚ :=
  if tr ≤ snr then none else some (1 / (1 / snr - 1 / tr) * 16 / (25 / 2))

end Sys2Proof.Machine
end

