-- ==== Sys2Proof/Machine/Symbols.lean ====
section
/-! DEFINITION. The symbols of a superframe that both ends know (spec/08, R214, R216 to R218): positions, pilots, the training
span and the FAS. -/
namespace Sys2Proof.Machine
open Sys2Proof

/-! ### Superframe layout (R214) -/

/-- The period of non-pilot symbol u. -/
def nonPilotPeriod (u : Nat) : Nat := 32 * (u / 31) + 1 + u % 31

/-- What a period of a superframe carries. -/
inductive Content where
  | pilot (q : Nat)
  | fas (u : Nat)
  | overhead (n : Nat)
  | training
  | payload
deriving DecidableEq, Repr

/-- The content of period k of superframe sf. -/
def contentAt (sf k : Nat) : Content :=
  if k % 32 = 0 then .pilot (k / 32)
  else
    let u := 31 * (k / 32) + (k % 32 - 1)
    if u < 32 then .fas u
    else if u < 256 then .overhead (u - 32)
    else if sf = 0 ∧ u < 512 then .training
    else .payload

/-- One bit of the pilot sequence x^15 + x^14 + 1 (R216): output and next state. -/
def prbs15Step (s : Nat) : Bool × Nat :=
  let b := s.testBit 14 != s.testBit 13
  (b, (2 * s + b2n b) % 2 ^ 15)

/-- Bit n of the pilot sequence, all ones at period 0. -/
def pilotBit : Nat → Nat → Bool
  | 0, s => (prbs15Step s).1
  | n + 1, s => pilotBit n (prbs15Step s).2

/-- A QPSK point of two bits with energy 1. -/
def qpsk (b0 b1 : Bool) : Cpx :=
  let r := Arith.sqrt (1 / 2)
  { re := if b0 then -r else r, im := if b1 then -r else r }

/-- Pilot q outside the training span, with the boost in 0.5 dB (R174, R216). -/
def pilotValue (boost q : Nat) : Vec2 :=
  let g := pow10 ((boost : ℚ) / 40)
  let b := fun i => pilotBit (4 * q + i) (2 ^ 15 - 1)
  { x := (qpsk (b 0) (b 1)).smul g, y := (qpsk (b 2) (b 3)).smul g }

/-- The training span's value at period k (R217). -/
def trainingValue (k : Nat) : Vec2 := { x := spanX k, y := spanY k }

/-- The known value of pilot q of a superframe: pilots 9 to 16 of superframe 0 stand in the training span (R150, R217). -/
def knownPilot (boost sf q : Nat) : Vec2 := if sf = 0 ∧ 9 ≤ q ∧ q ≤ 16 then trainingValue (32 * q) else pilotValue boost q

/-- A period counted on from a superframe: the superframe it lies in, and its place there. -/
def placeOf (sf k : Nat) : Nat × Nat := ((sf + k / 65536) % 256, k % 65536)

/-- The known pilot at a period counted on from a superframe. -/
def pilotAt (boost sf k : Nat) : Option Vec2 :=
  let p := placeOf sf k
  if p.2 % 32 = 0 then some (knownPilot boost p.1 (p.2 / 32)) else none

/-- A period counted on from a superframe carries payload. -/
def payloadAt (sf k : Nat) : Bool := contentAt (placeOf sf k).1 (placeOf sf k).2 == .payload

/-- The two FAS words (R218). -/
def fasX : Nat := 0xB4E217C96A0DF358
def fasY : Nat := 0x2D9FC841E75A309B

/-- FAS symbol u. -/
def fasValue (w u : Nat) : Cpx := qpsk (bit w (63 - 2 * u)) (bit w (62 - 2 * u))

end Sys2Proof.Machine
end

