-- ==== Sys2Proof/Machine/FrontEnd.lean ====
section
/-! DEFINITION. The sample chain in front of the equaliser (spec/05, R130): converter correction, digital front end, mixer,
channeliser, seam filter bank, matched filter and resampler. A sample with full-rate number n lies n / 176 ns after
sample 0, and the slice centre lies at frequency 0. Filter responses that the spec bounds but does not give are free
(log entry 170). -/
namespace Sys2Proof.Machine
open Sys2Proof

/-- The codes of one instant, by converter: XI, XQ, YI, YQ (R102). -/
def adcCode (w : AdcWord) (c : Nat) : ℚ := (([w.xi, w.xq, w.yi, w.yq].getD c 0).toInt : ℚ)

/-- The IQ correction of R132 (and of R182): gain error e, phase error φ. -/
def iqCorrect (e phi i q : ℚ) : ℚ × ℚ := (i, (q / (1 + e) - i * Arith.sin phi) / Arith.cos phi)

/-- A 9-tap delay by δ samples (R132, R182); four samples at each end of the list have no full set of taps. Log entry 170
DESIGN CHOICE. -/
def fracDelay (delta : ℚ) (xs : List ℚ) : List ℚ :=
  (List.range (xs.length - 8)).map fun n =>
    ((List.range 9).map fun t => Config.delayTap delta t * xs.getD (n + 8 - t) 0).sum

/-- A field in 0.02 ps as a delay in samples of 176 GS/s. -/
def skewSamples (v : Int) : ℚ := (v : ℚ) / 50 * (176 / 1000)

/-- DC removal (R132): the samples less the running mean, and the mean after them. Samples that an earlier call has counted
leave it alone. -/
def removeDc (next : Nat) : Nat → ℚ → List ℚ → List ℚ × ℚ
  | _, m, [] => ([], m)
  | n, m, x :: t =>
    let m := if next ≤ n then m + (x - m) / 65536 else m
    let r := removeDc next (n + 1) m t
    ((x - m) :: r.1, r.2)

/-- A sample turned by −f over the time of full-rate sample n, f in GHz. -/
def mixDown (f : ℚ) (n : Nat) (v : Vec2) : Vec2 :=
  let w := Cpx.expj (-(2 * Arith.pi * f * (n : ℚ) / 176))
  { x := v.x.mul w, y := v.y.mul w }

/-- The sum of a list of samples. -/
def sumVec (xs : List Vec2) : Vec2 := { x := Cpx.sum (xs.map Vec2.x), y := Cpx.sum (xs.map Vec2.y) }

/-- A sample times a real number. -/
def scaleVec (k : ℚ) (v : Vec2) : Vec2 := { x := v.x.smul k, y := v.y.smul k }

/-- The output of a filter centred on f at the time t, in full-rate samples: `h` is its response to a sample that distance
away. The list starts with sample number `start`. -/
def filterAt (h : ℚ → ℚ) (f : ℚ) (start : Nat) (xs : List Vec2) (t : ℚ) : Vec2 :=
  sumVec (xs.zipIdx.map fun p => scaleVec (h (t - ((start + p.2 : Nat) : ℚ))) (mixDown f (start + p.2) p.1))

/-- The numbers m whose times m × step, in full-rate samples, lie within a list from `start`. -/
def withinSlice (step : ℚ) (start len : Nat) : List Nat :=
  let a := ((start : ℚ) / step).ceil.toNat
  let b := (((start + len : Nat) : ℚ) / step).ceil.toNat
  (List.range (b - a)).map fun k => a + k

/-! ### The channeliser's arms (R136) -/

/-- Full-rate samples in one sample of an arm at 20 GS/s. -/
def armStep : ℚ := 44 / 5

/-- The stream of the arm centred on f, each sample with its time in full-rate samples. Log entry 170 DESIGN CHOICE. -/
def armStream (f : ℚ) (start : Nat) (xs : List Vec2) : List (ℚ × Vec2) :=
  (withinSlice armStep start xs.length).map fun m =>
    (armStep * m, filterAt Config.armResponse f start xs (armStep * m))

/-! ### The seam filter bank (R137) -/

/-- Tones of a seam band: 32 × W. -/
def seamTones (spacing : Nat) : Nat := seamLoad spacing

/-- Centre of seam tone j in GHz from the slice centre. The seams lie at ± S/2, S in 0.25 GHz. -/
def seamToneFreq (hi : Bool) (spacing j : Nat) : ℚ :=
  (if hi then 1 else -1) * (spacing : ℚ) / 8 + ((j : ℚ) + 1 / 2 - (seamTones spacing : ℚ) / 2) / 32

/-- Full-rate samples between two samples of a tone: 32 ns. -/
def toneStep : Nat := 5632

/-- A value held to 12 bits; and as the bridge carries it, rounded to 8 bits. -/
def to12 (x : ℚ) : ℚ := (clampInt (-2048) 2047 (Arith.round x) : ℚ)
def to8 (x : ℚ) : ℚ := 16 * (clampInt (-128) 127 (Arith.round (x / 16)) : ℚ)

/-- Both parts of both polarisations through one function. -/
def mapVec (g : ℚ → ℚ) (v : Vec2) : Vec2 :=
  { x := { re := g v.x.re, im := g v.x.im }, y := { re := g v.y.re, im := g v.y.im } }

/-- The samples of seam tone j over a slice of samples, 12-bit I and Q, by their times in tone steps. Log entry 170
DESIGN CHOICE. -/
def toneSamples (f : ℚ) (start : Nat) (xs : List Vec2) : List (Nat × Vec2) :=
  (withinSlice toneStep start xs.length).map fun k =>
    (k, mapVec to12 (filterAt Config.seamAnalysis f start xs ((toneStep * k : Nat) : ℚ)))

/-- What the samples of a tone add to full-rate sample n when they are synthesised. Log entry 170 DESIGN CHOICE. -/
def toneAt (f : ℚ) (ts : List (Nat × Vec2)) (n : Nat) : Vec2 :=
  mixDown (-f) n (sumVec (ts.map fun p => scaleVec (Config.seamSynthesis ((n : ℚ) - ((toneStep * p.1 : Nat) : ℚ))) p.2))

/-! ### The matched filter and the resampler (R138) -/

/-- The root-raised-cosine response with roll-off β at t symbols. -/
def rrc (beta t : ℚ) : ℚ :=
  let p := Arith.pi
  if t = 0 then 1 - beta + 4 * beta / p
  else if 16 * beta * beta * t * t = 1 then
    Arith.sqrt (1 / 2) * beta * ((1 + 2 / p) * Arith.sin (p / (4 * beta)) + (1 - 2 / p) * Arith.cos (p / (4 * beta)))
  else
    (Arith.sin (p * t * (1 - beta)) + 4 * beta * t * Arith.cos (p * t * (1 + beta))) /
      (p * t * (1 - 16 * beta * beta * t * t))

/-- The response as the resampler holds it: 256 phases, linear between neighbouring ones, in 1/4 096 symbol. -/
def rrcPhase (beta t : ℚ) : ℚ :=
  let q : ℚ := (4096 * t).floor / 4096
  let p : ℚ := (256 * q).floor / 256
  rrc beta p + (rrc beta (p + 1 / 256) - rrc beta p) * (256 * (q - p))

/-- One symbol at the time t, in local symbols of eleven full-rate samples, from an arm's stream. -/
def resample (beta : ℚ) (zs : List (ℚ × Vec2)) (t : ℚ) : Vec2 :=
  sumVec (zs.map fun z => scaleVec (rrcPhase beta (t - z.1 / 11)) z.2)

namespace State

/-- The receive front end of a die. -/
def rxDie (s : State) (d : Nat) : RxDie := s.rxDies.get {} (unitKey d 0)

/-- Change a receive front end. -/
def modRxDie (s : State) (d : Nat) (f : RxDie → RxDie) : State :=
  { s with rxDies := s.rxDies.set {} (unitKey d 0) (f (s.rxDie d)) }

/-- The corrected samples of ADC c: each with the entry of its sub-converter in the active set; zeros while the converter is
disabled or the sampling reference is lost (R107, R108, R115). -/
def adcSamples (s : State) (d c : Nat) (raw : RawSlice) : List ℚ :=
  let xs := raw.codes.map fun w => adcCode w c
  let term (n t : Nat) : ℚ := (s.termRd d (s.activeSet d) false c (n % 64) t : ℚ)
  let out (n : Nat) (x u' : ℚ) := adcCorrect (term n 0 / 256) (term n 1 / 32768) (term n 3 / 32768) x u'
  if bit (s.rd CNV_CTRL_ADC_EN d) c && s.flag CNV_STATUS_SCLK_LOCK d then
    (xs.zip (xs.drop 1)).zipIdx.map fun p =>
      let n := raw.start + p.2
      (out n p.1.2 (out (n + 63) p.1.1 0).2).1
  else (xs.drop 1).map fun _ => 0

/-- The samples of ADC c after DC removal, with the mean they leave (R132). -/
def dcSamples (s : State) (d c : Nat) (raw : RawSlice) : List ℚ × ℚ :=
  let xs := s.adcSamples d c raw
  let m := (s.rxDie d).dc.getD c 0
  if s.flag RXD_DFE_CTRL_DC_EN d then removeDc (s.rxDie d).dcNext raw.start m xs else (xs, m)

/-- Bring the running means up to date with a slice of samples (R132). -/
def dcStep (s : State) (d : Nat) (raw : RawSlice) : State :=
  s.modRxDie d fun x =>
    { x with dc := (List.range 4).map fun c => (s.dcSamples d c raw).2
             dcNext := max x.dcNext (raw.start + (raw.codes.length - 1)) }

/-- The samples of a slice after the digital front end (R132); they begin four samples after the slice. -/
def dfeSamples (s : State) (d : Nat) (raw : RawSlice) : List Vec2 :=
  let path (c : Nat) (f : Fld) := fracDelay (skewSamples (s.rdS f d)) (s.dcSamples d c raw).1
  let pol (ps : List (ℚ × ℚ)) (gain phase : Fld) : List Cpx := ps.map fun p =>
    let r := iqCorrect ((s.rdS gain d : ℚ) / 2000) ((s.rdS phase d : ℚ) / 20 * Arith.pi / 180) p.1 p.2
    { re := r.1, im := r.2 }
  let xs := pol ((path 0 RXD_DFE_SKEW_XI).zip (path 1 RXD_DFE_SKEW_XQ)) RXD_DFE_IQ_X_GAIN RXD_DFE_IQ_X_PHASE
  let ys := pol ((path 2 RXD_DFE_SKEW_YI).zip (path 3 RXD_DFE_SKEW_YQ)) RXD_DFE_IQ_Y_GAIN RXD_DFE_IQ_Y_PHASE
  (xs.zip ys).map fun p => { x := p.1, y := p.2 }

/-- The slice mixed by F, in kHz (R134), and the number of its first sample. -/
def mixedSlice (s : State) (d : Nat) (raw : RawSlice) : Nat × List Vec2 :=
  let start := raw.start + 4
  (start, (s.dfeSamples d raw).zipIdx.map fun p => mixDown ((s.rxDie d).freq / 1000000) (start + p.2) p.1)

/-- The slice with its own signal in a seam band replaced by the combined one (R137, R157): what the combined tones differ
from the own ones is synthesised and added. The neighbour's samples come over the bridge in 8 bits. -/
def combineBand (s : State) (d : Nat) (hi : Bool) (x : SeamSt) (start : Nat) (xs : List Vec2) (mate : List (List Vec2)) :
    List Vec2 :=
  let sp := s.rd PKG_GEOM_SLICE_SPACING pkg d
  let diffs := (List.range (seamTones sp)).map fun j =>
    let f := seamToneFreq hi sp j
    let st := x.stats.getD j {}
    let ts := toneSamples f start xs
    (f, (ts.zip (mate.getD j [])).map fun p =>
      let y := seamCombine (x.weights.getD j 1) (seamMap st.ab st.bb) p.1.2 (mapVec to8 p.2)
      (p.1.1, ({ x := y.x.sub p.1.2.x, y := y.y.sub p.1.2.y } : Vec2)))
  xs.zipIdx.map fun p =>
    let add := sumVec (diffs.map fun e => toneAt e.1 e.2 (start + p.2))
    { x := p.1.x.add add.x, y := p.1.y.add add.y }

end State
end Sys2Proof.Machine
end

