-- ==== Sys2Proof/Machine/Receive.lean ====
section
/-! DEFINITION. The receive path (spec/05): digital front end, common frequency offset, arms and their life, carrier
recovery, seam combining and quality reports. -/
namespace Sys2Proof.Machine
open Sys2Proof

namespace State

/-! ### Arms -/

/-- The receive arm of a subcarrier. -/
def rxArm (s : State) (d i : Nat) : RxArm := s.rxArms.get {} (unitKey d i)

/-- Change a receive arm. -/
def modRx (s : State) (d i : Nat) (f : RxArm → RxArm) : State :=
  { s with rxArms := s.rxArms.set {} (unitKey d i) (f (s.rxArm d i)) }

/-- STATE of a receive arm. -/
def rxState (s : State) (d i : Nat) : Nat := s.rd RXD_SC_STATUS_STATE d i

/-- Mark the running quality window of an arm as mixed (R162). -/
def markMixed (s : State) (d i : Nat) : State := s.modRx d i fun a => { a with mixed := true }

/-- Set STATE of a receive arm; a change into or out of tracking mixes the window (R162). -/
def setRxState (s : State) (d i v : Nat) : State :=
  let old := s.rxState d i
  let s := s.wr RXD_SC_STATUS_STATE d v i
  let s := if (old == 3) != (v == 3) then s.markMixed d i else s
  if v = 3 then s.modRx d i fun a => { a with tracked := true } else s

/-- The receive arm is enabled. -/
def rxOn (s : State) (d i : Nat) : Bool := bit (s.rd RXD_CTRL_SC_EN d) i

/-- A subcarrier is express, by the class of the active plan (R169; log entry 25). -/
def scExpress (s : State) (d i : Nat) : Bool := s.flag TXD_SC_CFG_CLASS d i

/-- The offset of a subcarrier from the laser, in 1/16 GHz (R17). -/
def scOffset (s : State) (d i : Nat) : Int :=
  scCentre (s.teamSize d) (s.teamPos d) (s.rd PKG_GEOM_SLICE_SPACING pkg d) (s.rd PKG_GEOM_SC_SPACING pkg d) i

/-- The offset of a subcarrier from its slice centre, in GHz (R17). -/
def armFreq (s : State) (d i : Nat) : ℚ := ((2 * (i : Int) - 7) * (s.rd PKG_GEOM_SC_SPACING pkg d : Int) : ℚ) / 16

/-- The centre frequency of a subcarrier in GHz (R141). -/
def scFreq (s : State) (d i : Nat) : ℚ := (s.rd RXD_CARRIER_FREQ_FREQ d : ℚ) + (s.scOffset d i : ℚ) / 16

/-- The dispersion delay of a subcarrier against the laser frequency f_L in ps, from the arm's own CD (R151). -/
def dispersionDelay (s : State) (d i : Nat) : ℚ :=
  ((s.rxArm d i).cd.getD 0 : Int) * (299792458 / s.scFreq d i - 299792458 / (s.rd RXD_CARRIER_FREQ_FREQ d : ℚ))

/-- The centre frequency of a group of four subcarriers in GHz. -/
def groupFreq (s : State) (d half : Nat) : ℚ :=
  ((List.range 4).map fun k => s.scFreq d (4 * half + k)).sum / 4

/-- The tones of an arm's FDE. -/
def armTones (s : State) (d i : Nat) : Nat := fdeTones (s.scExpress d i)

/-! ### Common frequency offset (R134, R135) -/

/-- Apply a value of F on a die. -/
def setFreq (s : State) (d : Nat) (f : Int) : State :=
  (s.modRxDie d fun x => { x with freq := f }).wrS RXD_FREQ_STATUS_OFFSET d (Arith.round ((f : ℚ) / 100))

/-- The segment lead of a die: its own when it is not an active member. Log entry 26 DEDUCED. -/
def freqLead (s : State) (d : Nat) : Nat := if s.isActive d then s.segmentLead d else d

/-- Some subcarrier of a die is in carrier lock. -/
def lockedCount (s : State) (d : Nat) : Nat := ((List.range 8).filter fun i => (s.rxArm d i).locked).length

/-- Bring LOCKED up to date on the dies of a segment. -/
def refreshLocked (s : State) (d : Nat) : State :=
  let seg := if s.isActive d then s.segment d else [d]
  let any := seg.any fun e => s.lockedCount e != 0
  s.forEach seg fun t e => t.wrb RXD_FREQ_STATUS_LOCKED e any

/-- A die takes the F of its segment lead at once (R135). Log entry 26 DEDUCED. -/
def takeFreq (s : State) (d : Nat) : State :=
  let l := s.freqLead d
  if l = d then s.wrb RXD_FREQ_STATUS_FROM_LEAD d false
  else (s.setFreq d (s.rxDie l).freq).wrb RXD_FREQ_STATUS_FROM_LEAD d true

/-! ### Starting and stopping an arm (R147 to R149, R161, R162) -/

/-- The CD held by the tracking subcarrier of the segment nearest in frequency (R147). -/
def segmentCd (s : State) (d i : Nat) : Option Int :=
  let seg := if s.isActive d then s.segment d else [d]
  let cands := seg.flatMap fun e => (List.range 8).filterMap fun j =>
    if s.rxState e j = 3 then
      (s.rxArm e j).cd.map fun c => ((s.scOffset e j - s.scOffset d i).natAbs, c + Arith.round (s.rxArm e j).resid)
    else none
  (cands.foldl (fun (best : Option (Nat × Int)) c =>
    match best with
    | none => some c
    | some b => if c.1 < b.1 then some c else some b) none).map Prod.snd

/-- Step 2 of R148: take a CD where one is known, and then wait for training; otherwise scan (R147). -/
def seekCd (s : State) (d i : Nat) : State :=
  let known := match (s.rxArm d i).cd with
    | some c => some c
    | none =>
      match s.segmentCd d i with
      | some c => some c
      | none => if s.flag RXD_CD_CTRL_PRESET_EN d then some (s.rdS RXD_CD_CTRL_PRESET d) else none
  match known with
  | some c => s.modRx d i fun a =>
    { a with step := 3, cd := some c, resid := 0, trainings := 0, snrs := [], everTrained := false, power := []
             taps := initTaps (s.armTones d i) c (s.scFreq d i) }
  | none => s.modRx d i fun a => { a with step := 2, trainings := 0, snrs := [], everTrained := false }

/-- The receive stream position of a subcarrier is no longer known: the arm starts, wakes, restarts, leaves the in-frame state
or is turned off (R194). Log entry 31 DEDUCED. -/
def loseSync (s : State) (d i : Nat) : State := s.wr FEC_SC_STATUS_RX_SYNC d 0 i

/-- Start an arm from cold (R148, steps 1 and 2); not on a die that is held idle (R51). -/
def startArm (s : State) (d i : Nat) : State :=
  if s.heldIdle d then s else
  let s := s.wrb RXD_SC_STATUS_EXPRESS d (s.scExpress d i) i
  let s := (s.setRxState d i 1).loseSync d i
  if s.flag CNV_STATUS_SCLK_LOCK d then
    let s := s.modRx d i fun a => { snr := a.snr, tracked := a.tracked, mixed := a.mixed, step := 1 }
    (s.takeFreq d).seekCd d i
  else s.modRx d i fun a => { snr := a.snr, tracked := a.tracked, mixed := a.mixed, step := 1, coldDue := true }

/-- Wake an arm from retained state (R149). -/
def wakeArm (s : State) (d i : Nat) : State :=
  if s.heldIdle d then s else
    ((s.setRxState d i 6).loseSync d i).modRx d i fun a => { a with trainings := 0, snrs := [] }

/-- Take an arm out of service: off, or dormant with its state retained (R149, R161). It leaves the joint sums. -/
def stopArm (s : State) (d i : Nat) (retain : Bool) : State :=
  let s := s.setRxState d i (if retain then 5 else 0)
  if retain then s.modRx d i fun a =>
    { a with locked := false, psiRun := 0, inSum := false, nextAt := none, labX := [], labY := [] }
  else s.modRx d i fun a => { snr := a.snr, tracked := a.tracked, mixed := a.mixed }

/-- The sampling reference is lost: every arm holds (R162). Log entry 98 DEDUCED. -/
def rxHold (s : State) (d : Nat) : State :=
  s.forEach (List.range 8) fun t i =>
    match t.rxState d i with
    | 0 => t
    | 5 => t
    | 4 => t
    | _ => if t.rxOn d i then t.setRxState d i 4 else t

/-- The sampling reference returns: arms restart as a wake from retained state, or from cold where they had no state; an arm
that held no dispersion yet has none to retain and goes on with step 2 of R148 (R149, R162). -/
def rxResume (s : State) (d : Nat) : State :=
  s.forEach (List.range 8) fun t i =>
    if (t.rxArm d i).coldDue then t.startArm d i
    else if t.rxState d i = 4 then
      if (t.rxArm d i).cd.isSome then t.wakeArm d i else (t.setRxState d i 1).seekCd d i
    else t

/-! ### Carrier recovery (R150 to R155) -/

/-- A subcarrier takes part in joint sums: bulk and in carrier lock. -/
def jointUnit (s : State) (d i : Nat) : Bool := !s.scExpress d i && (s.rxArm d i).locked

/-- G_u of an own subcarrier for the m-th latest interval. -/
def ownG (s : State) (d i m : Nat) : Cpx :=
  let a := s.rxArm d i
  (a.hist.getD m {}).mul (Cpx.expj (-a.psi))

/-- The die's own aggregate over all its groups, latest interval (R153). -/
def dieZ (s : State) (d : Nat) : Cpx :=
  Cpx.sum ((List.range 8).map fun i => if s.jointUnit d i then s.ownG d i 0 else {})

/-- The key of a remote group at a die. -/
def groupKey (d src half : Nat) : Key := unitKey d (2 * src + half)

/-- A remote group as a die keeps it. -/
def group (s : State) (d src half : Nat) : RemoteGroup := s.groups.get {} (groupKey d src half)

/-- Change a remote group. -/
def modGroup (s : State) (d src half : Nat) (f : RemoteGroup → RemoteGroup) : State :=
  { s with groups := s.groups.set {} (groupKey d src half) (f (s.group d src half)) }

/-- The remote groups of a die's segment (R152). -/
def remoteGroups (s : State) (d : Nat) : List (Nat × Nat) :=
  if s.isActive d then (s.segment d).flatMap fun e => if e = d then [] else [(e, 0), (e, 1)] else []

/-- The weight v_u of a unit at `fu` GHz for a target at `fg` GHz (R151); delays in ps. -/
def jointWeight (s : State) (d : Nat) (cd : Int) (fu fg : ℚ) : ℚ :=
  let dly := (cd : ℚ) * (299792458 / fu - 299792458 / fg)
  max 0 (1 - (if dly < 0 then -dly else dly) / (100 * (s.rd RXD_JOINT_CTRL_SPAN d : ℚ)))

/-- J_g of a bulk subcarrier with JOINT_EN, for the interval PILOT_WIN back from the latest (R151). -/
def jointSum (s : State) (d g : Nat) : Cpx :=
  let w := s.rd RXD_SC_CFG_PILOT_WIN d g
  let fg := s.scFreq d g
  let cd := (s.rxArm d g).cd.getD 0
  let own := (List.range 8).map fun i =>
    let v : ℚ := if i = g then 1 else if (s.rxArm d i).inSum then s.jointWeight d cd (s.scFreq d i) fg else 0
    Cpx.smul v (Cpx.sum ((List.range (2 * w + 1)).map fun m => s.ownG d i m))
  let far := (s.remoteGroups d).map fun e =>
    let r := s.group d e.1 e.2
    let v : ℚ := if r.inSum then s.jointWeight d cd (s.groupFreq e.1 e.2) fg else 0
    Cpx.smul v (Cpx.sum ((List.range (2 * w + 1)).map fun m => (r.hist.getD m {}).mul (Cpx.expj (-r.psi))))
  (Cpx.expj (s.rxArm d g).psi).mul (Cpx.sum (own ++ far))

/-- θ_g: the joint phase, or the phase of the subcarrier's own pilots over the causal window (R151, R154). -/
def pilotPhase (s : State) (d g : Nat) : ℚ :=
  if !s.scExpress d g && s.flag RXD_SC_CFG_JOINT_EN d g then (s.jointSum d g).arg
  else
    let w := s.rd RXD_SC_CFG_PILOT_WIN d g
    (Cpx.sum ((List.range (w + 1)).map fun m => (s.rxArm d g).hist.getD m {})).arg

/-- One offset step (R153): the new offset, the smoothed size of the correction and the run below 0.1 rad. -/
def offsetStep (s : State) (d : Nat) (psi mag : ℚ) (run : Nat) (g z : Cpx) : ℚ × ℚ × Nat :=
  let corr := (g.mul z.conj).arg
  let mag := Config.smooth mag (if corr < 0 then -corr else corr)
  (psi + corr / 2 ^ s.rd RXD_JOINT_CTRL_OFS_SHIFT d, mag, if mag < 1 / 10 then min 256 (run + 1) else 0)

/-- The offsets of all units of a die after an interval; FREEZE holds them (R153, R162). -/
def offsets (s : State) (d : Nat) : State :=
  if s.flag RXD_CTRL_FREEZE d then s
  else
    let z := s.dieZ d
    let s' := s.forEach (List.range 8) fun t i =>
      if s.jointUnit d i then
        let o := s.offsetStep d (s.rxArm d i).psi (s.rxArm d i).psiMag (s.rxArm d i).psiRun (s.ownG d i 0) z
        t.modRx d i fun a => { a with psi := o.1, psiMag := o.2.1, psiRun := o.2.2 }
      else t
    s'.forEach (s.remoteGroups d) fun t e =>
      let r := s.group d e.1 e.2
      let o := s.offsetStep d r.psi r.psiMag r.psiRun ((r.hist.getD 0 {}).mul (Cpx.expj (-r.psi))) z
      t.modGroup d e.1 e.2 fun x => { x with psi := o.1, psiMag := o.2.1, psiRun := o.2.2 }

/-- Membership of the sums of R151: a unit is added once its correction has stayed small for 256 intervals; it is removed at
the start of a superframe (R153). -/
def inSums (s : State) (d : Nat) (boundary : Bool) : State :=
  let keep (was : Bool) (ok : Bool) : Bool := ok || (was && !boundary)
  let s := s.forEach (List.range 8) fun t i => t.modRx d i fun a =>
    { a with inSum := keep a.inSum (s.jointUnit d i && decide (256 ≤ a.psiRun)) }
  s.forEach (s.remoteGroups d) fun t e => t.modGroup d e.1 e.2 fun g =>
    { g with inSum := keep g.inSum (decide (256 ≤ g.psiRun)) }

/-! ### Group aggregates on the side channel (R152) -/

/-- An aggregate of exponent e: the value of 1 in its 8-bit parts. Log entry 170 DESIGN CHOICE. -/
def groupLsb (e : Nat) : ℚ := 2 ^ e / 256

/-- A received aggregate. -/
def groupValue (z : RemoteSum) : Cpx := { re := (z.i.toInt : ℚ) * groupLsb z.exp, im := (z.q.toInt : ℚ) * groupLsb z.exp }

/-- The least exponent that holds an aggregate. Log entry 170 DESIGN CHOICE. -/
def groupExp (z : Cpx) : Nat :=
  ((List.range 16).find? fun e => decide (|z.re| < 127 * groupLsb e ∧ |z.im| < 127 * groupLsb e)).getD 15

/-- The aggregate of an own group in the latest interval. -/
def ownZ (s : State) (d half : Nat) : Cpx :=
  Cpx.sum ((List.range 4).map fun k => if s.jointUnit d (4 * half + k) then s.ownG d (4 * half + k) 0 else {})

/-- The neighbour on a side that belongs to the same segment (R35, R152). -/
def segmentMate (s : State) (d : Nat) (upper : Bool) : Bool :=
  s.isActive d && (if upper then (s.segment d).contains (d + 1) else d != 0 && (s.segment d).contains (d - 1))

/-- Send an aggregate on one side, where the segment goes on. -/
def sendGroup (s : State) (d : Nat) (upper : Bool) (z : RemoteSum) : State :=
  if s.segmentMate d upper then s.emit (.groupSum d upper { z with hi := !upper }) else s

/-- The die's own aggregates go out on both sides, their exponents renewed every 64 intervals; those that came in go on
along the segment (R152). -/
def sendGroups (s : State) (d : Nat) (remote : List RemoteSum) : State :=
  let s := s.modRxDie d fun x =>
    if x.zCount = 0 then { x with zExp := [groupExp (s.ownZ d 0), groupExp (s.ownZ d 1)], zCount := 63 }
    else { x with zCount := x.zCount - 1 }
  let s := s.forEach [0, 1] fun t half =>
    let e := (t.rxDie d).zExp.getD half 0
    let v := t.ownZ d half
    let part (x : ℚ) : BitVec 8 := BitVec.ofInt 8 (clampInt (-128) 127 (Arith.round (x / groupLsb e)))
    let z : RemoteSum :=
      { die := Fin.ofNat 8 d, half := Fin.ofNat 2 half, hi := false, i := part v.re, q := part v.im, exp := Fin.ofNat 16 e }
    (t.sendGroup d true z).sendGroup d false z
  s.forEach remote fun t z => if (z.die : Nat) = d then t else t.sendGroup d (!z.hi) z

/-- The receive plan of a subcarrier: constellation and H, once agreed (R169). -/
def rxFormat (s : State) (d i : Nat) : Option (Nat × Nat) :=
  if s.flag TXD_SC_RXPLAN_VALID d i then some (s.rd TXD_SC_RXPLAN_CONST d i, s.rd TXD_SC_RXPLAN_H d i) else none

/-- Amplitudes of the matcher block with index `b` of a multiframe (R172). -/
def blockLen (s : State) (d i b : Nat) : Nat :=
  if s.scExpress d i then 64 else if b = 31615 then 512 else 1024

/-- Sum of squared distances to the nearest points when a window of symbols is turned by −φ.
Log entry 20 DESIGN CHOICE. -/
def bpsCost (c h n : Nat) (phi : ℚ) (ys : List Vec2) : ℚ :=
  (ys.map fun y =>
    let u := y.x.mul (Cpx.expj (-phi))
    let v := y.y.mul (Cpx.expj (-phi))
    ((nearest c h n u).sub u).abs2 + ((nearest c h n v).sub v).abs2).sum

/-- The phase of payload symbol t (R155): interpolated between the two pilots, refined by blind phase search where CR_MODE
is 1. The second part tells a cycle slip, which keeps the interpolated phase. Log entries 20 DESIGN CHOICE, 21 DEDUCED. -/
def symbolPhase (s : State) (d i c h n : Nat) (from_ to_ : ℚ) (ys : List Vec2) (t : Nat) : ℚ × Bool :=
  let hw := s.rd RXD_SC_CFG_BPS_HALFWIN d i
  let mid := from_ + (to_ - from_) * ((t : ℚ) + 1) / 32
  if s.flag RXD_SC_CFG_CR_MODE d i then
    let b := 2 ^ (s.rd RXD_SC_CFG_BPS_PHASES d i + 4)
    let win := (ys.drop t).take (2 * hw + 1)
    let phis := (List.range b).map fun (k : Nat) => mid - Arith.pi / 4 + Arith.pi / 2 * (k : ℚ) / (b : ℚ)
    let best := phis.foldl (fun (m : ℚ) p => if bpsCost c h n p win < bpsCost c h n m win then p else m) (phis.headD mid)
    let dist := if best < from_ then from_ - best else best - from_
    if Arith.pi / 4 < dist then (mid, true) else (best, false)
  else (mid, false)

/-- Demap one polarisation of the recovered symbols into label LLRs per amplitude position. -/
def demapPol (c h n : Nat) (sigma2 : ℚ) (ys : List Cpx) : List (List Int) :=
  ys.flatMap fun y => [demapDim c h n y.re sigma2, demapDim c h n y.im sigma2]

/-- The stream-bit LLRs of a full block: K matcher bits, then the sign bits in symbol order (R193, R200). -/
def blockLlrs (s : State) (d c h n : Nat) (labels : List (List Int)) : List Int :=
  let list := 2 ^ (s.rd FEC_DM_CTRL_LIST d + 2)
  dematch c h n list (s.rd FEC_DM_CTRL_AGREE_LLR d) (labels.map fun l => l.drop 1) ++ labels.map fun l => l.headD 0

/-- Deliver the blocks that are full, X before Y (R193). -/
def deliverBlock (s : State) (d i c h : Nat) : State :=
  let a := s.rxArm d i
  let n := s.blockLen d i a.block
  if a.labX.length < n ∨ a.labY.length < n then s
  else
    let s := s.emit (.llrs d i 0 (s.blockLlrs d c h n (a.labX.take n)))
    let s := s.emit (.llrs d i 1 (s.blockLlrs d c h n (a.labY.take n)))
    s.modRx d i fun a => { a with block := a.block + 1, labX := a.labX.drop n, labY := a.labY.drop n }

/-- Recover and demap the payload symbols of an interval (R155, R160). -/
def recoverPayload (s : State) (d : Nat) (p : PilotSc) (from_ to_ : ℚ) : State :=
  let i : Nat := p.sc
  match s.rxFormat d i with
  | none => s
  | some (c, h) =>
    let a := s.rxArm d i
    let n := s.blockLen d i a.block
    let hw := s.rd RXD_SC_CFG_BPS_HALFWIN d i
    let m := p.payload.length - 2 * hw
    let to_ := from_ + (to_ - from_) - 2 * Arith.pi * (((to_ - from_) / (2 * Arith.pi) + 1 / 2).floor : ℚ)
    let phs := (List.range m).map fun t => s.symbolPhase d i c h n from_ to_ p.payload t
    let slips := (phs.filter fun x => x.2).length
    let s := if slips = 0 then s else (s.count RXD_SLIPS_COUNT d slips i).raise RXD_EVENT_SLIP d (2 ^ i)
    let ys := ((p.payload.drop hw).zip phs).map fun x =>
      ({ x := x.1.x.mul (Cpx.expj (-x.2.1)), y := x.1.y.mul (Cpx.expj (-x.2.1)) } : Vec2)
    let s := s.modRx d i fun a =>
      { a with labX := a.labX ++ demapPol c h n a.sigmaX (ys.map Vec2.x)
               labY := a.labY ++ demapPol c h n a.sigmaY (ys.map Vec2.y) }
    s.deliverBlock d i c h

/-! ### Seams (R157 to R159) -/

/-- One side of a die's seams: 0 lower, 1 upper. -/
def seam (s : State) (d : Nat) (hi : Bool) : SeamSt := s.seams.get {} (unitKey d (b2n hi))

/-- Change one side. -/
def modSeam (s : State) (d : Nat) (hi : Bool) (f : SeamSt → SeamSt) : State :=
  { s with seams := s.seams.set {} (unitKey d (b2n hi)) (f (s.seam d hi)) }

/-- The fields of one side. -/
def seamStateFld (hi : Bool) : Fld := if hi then SEAM_STATUS_HI_STATE else SEAM_STATUS_LO_STATE
def seamLinkFld (hi : Bool) : Fld := if hi then SEAM_STATUS_LINK_HI_OK else SEAM_STATUS_LINK_LO_OK
def seamEnFld (hi : Bool) : Fld := if hi then SEAM_CTRL_COMB_HI_EN else SEAM_CTRL_COMB_LO_EN

/-- The die has a neighbour of its team on that side, and which. -/
def seamMate (s : State) (d : Nat) (hi : Bool) : Option Nat :=
  if hi then (if s.teamPos d + 1 < s.teamSize d then some (d + 1) else none)
  else if s.teamPos d = 0 then none else some (d - 1)

/-- The boundary subcarrier on that side. -/
def seamSc (hi : Bool) : Nat := if hi then 7 else 0

/-- State of one side, with COMBINED of the boundary arm (R157, R158). -/
def setSeam (s : State) (d : Nat) (hi : Bool) (v : Nat) : State :=
  let s := s.wr (seamStateFld hi) d v
  s.wrb RXD_SC_STATUS_COMBINED d (v == 2 && !s.scExpress d (seamSc hi)) (seamSc hi)

/-- Begin learning: statistics start anew and w_j is 1 (R158). Log entry 19 DESIGN CHOICE. -/
def seamLearn (s : State) (d : Nat) (hi : Bool) : State :=
  (s.setSeam d hi 1).modSeam d hi fun x => { x with stats := [], weights := [], sf := 0, gain := 0, tones := 0 }

/-- Go to own-only: w_j is 1 (R159). -/
def seamOwn (s : State) (d : Nat) (hi : Bool) : State :=
  (s.setSeam d hi 3).modSeam d hi fun x => { x with weights := [] }

/-- Combining starts on a side where it is enabled and the neighbour is there: it learns, or waits in own-only while the
bridge is lost or the neighbour's tones are invalid (R158, R159). -/
def seamTry (s : State) (d : Nat) (hi : Bool) : State :=
  match s.seamMate d hi with
  | none => s
  | some e =>
    let x := s.seam d hi
    if s.flag (seamEnFld hi) d && s.isActive d && s.isActive e then
      if x.lost || x.invalid then s.seamOwn d hi else s.seamLearn d hi
    else s

/-- The neighbour marks its tones invalid, or valid again (R107, R159). -/
def seamInvalid (s : State) (d : Nat) (hi bad : Bool) : State :=
  let s := s.modSeam d hi fun x => { x with invalid := bad }
  if bad then
    let s := s.raise (if hi then SEAM_EVENT_INVALID_HI else SEAM_EVENT_INVALID_LO) d
    if s.rd (seamStateFld hi) d = 0 then s else s.seamOwn d hi
  else if s.rd (seamStateFld hi) d = 3 then s.seamTry d hi
  else s

/-- A write of the seam enables (R158, R163): setting one starts learning, clearing it moves the seam to own-only. -/
def seamEnables (s : State) (d lo hi : Nat) : State :=
  [(false, lo), (true, hi)].foldl (fun (t : State) x =>
    let was := t.rd (seamEnFld x.1) d
    let t := t.wr (seamEnFld x.1) d x.2
    if was = 0 ∧ x.2 = 1 then t.seamTry d x.1
    else if was = 1 ∧ x.2 = 0 ∧ t.rd (seamStateFld x.1) d ≠ 0 then t.seamOwn d x.1
    else t) s

/-- The receive arms that waited for the seam loop's acquisition resume once it is over (R121, R162). -/
def resumeArms (s : State) (d : Nat) : State :=
  if (s.cnvSt d).resumeDue && (s.rd CAL_STATUS_SEAM_LO_STATE d != 1 || !s.flag CAL_CTRL_SEAM_EN d) then
    (s.modCnv d fun x => { x with resumeDue := false }).rxResume d
  else s

/-- The background skew measurement of the seam below a die stops, and its trim is held (R33 step 2, R123). -/
def holdTrim (s : State) (d : Nat) : State :=
  if s.rd CAL_STATUS_SEAM_LO_STATE d = 0 then s
  else
    let s := s.wr CAL_STATUS_SEAM_LO_STATE d 3
    (if s.teamPos d = 0 then s else s.wr CAL_STATUS_SEAM_HI_STATE (d - 1) 3).resumeArms d

/-- A member leaves: its neighbours' seams go to own-only, the skew measurement on them stops with its trim held, and its
groups leave the joint sums at once (R33, R159, R162). -/
def seamLeave (s : State) (d : Nat) : State :=
  let s := match s.seamMate d true with
    | some e => (if s.rd (seamStateFld false) e = 0 then s else s.seamOwn e false).holdTrim e
    | none => s
  let s := match s.seamMate d false with
    | some e => if s.rd (seamStateFld true) e = 0 then s else s.seamOwn e true
    | none => s
  { s with groups := s.groups.keep fun k => k.idx / 2 != d }

/-- Publish the seam gain of a multiframe (R157). -/
def publishGain (s : State) (d : Nat) (hi : Bool) : State :=
  let x := s.seam d hi
  let v : Int := if x.tones = 0 then 0 else Arith.round (x.gain / (x.tones : ℚ) * 100)
  (s.wrSat (if hi then SEAM_GAIN_HI else SEAM_GAIN_LO) d v).modSeam d hi fun x => { x with sf := 0, gain := 0, tones := 0 }

/-- The sample mean of u × v^H over the samples of a tone. -/
def meanOuter (us vs : List Vec2) : Mat2 :=
  Mat2.smul (1 / (us.length : ℚ)) ((us.zip vs).foldl (fun m p => m.add (Mat2.outer p.1 p.2)) {})

/-- The smoothed statistics of a tone after a superframe of samples (R157). -/
def seamStat (k : Nat) (o : SeamStat) (x : SeamObs) : SeamStat :=
  { aa := smooth k o.aa (meanOuter x.own x.own), ab := smooth k o.ab (meanOuter x.own x.mate)
    bb := smooth k o.bb (meanOuter x.mate x.mate) }

/-- One superframe's statistics and weights of a side (R157). -/
def seamUpdate (s : State) (d : Nat) (hi : Bool) (tones : List SeamObs) : State :=
  let x := s.seam d hi
  let stats := tones.zipIdx.map fun e => seamStat (s.rd SEAM_CTRL_SMOOTH d) (x.stats.getD e.2 {}) e.1
  let kappa := pow10 ((s.rdS SEAM_CTRL_NOISE_RATIO d : ℚ) / 100)
  let ratioMax := pow10 ((s.rd SEAM_CTRL_RATIO_MAX d : ℚ) / 20)
  let cohMin : ℚ := (s.rd SEAM_CTRL_COH_MIN d : ℚ) / 255
  let ws := if s.rd (seamStateFld hi) d = 2 then stats.map fun t => seamWeight t.aa t.ab t.bb cohMin ratioMax kappa
    else stats.map fun _ => (1 : ℚ)
  let used := ws.filter fun w => decide (w < 1)
  let s := s.wr (if hi then SEAM_TONES_HI else SEAM_TONES_LO) d used.length
  let s := s.modSeam d hi fun y =>
    { y with stats := stats, weights := ws, sf := y.sf + 1, tones := y.tones + used.length
             gain := y.gain + (used.map fun w => db (1 / w)).sum }
  if (s.seam d hi).sf = 256 then s.publishGain d hi else s

/-- The band that a subcarrier's arm is built from (R157, R158): for a bulk boundary subcarrier of a side that combines, the
slice with the combined seam band; else the die's own view. -/
def armBand (s : State) (d i : Nat) (input : FdeIn) : Nat × List Vec2 :=
  let m := s.mixedSlice d input.raw
  if i = seamSc (i == 7) && s.rd (seamStateFld (i == 7)) d == 2 && !s.scExpress d i then
    (m.1, s.combineBand d (i == 7) (s.seam d (i == 7)) m.1 m.2 input.mate)
  else m

/-- The N symbols of an FDE block (R138, R140): the arm of the subcarrier through the matched filter with the far end's
roll-off, at the far end's symbol times. The block overlaps what has been delivered by L symbols. -/
def fdeInput (s : State) (d i : Nat) (input : FdeIn) (first : ℚ) : List Vec2 :=
  let a := s.rxArm d i
  let b := s.armBand d i input
  let zs := armStream (s.armFreq d i) b.1 b.2
  let beta : ℚ := (s.rd TXD_SC_RXPLAN_ROLLOFF d i : ℚ) / 200
  (List.range (s.armTones d i)).map fun k => resample beta zs (first + a.phase + (k : ℚ) * (1 + a.rate / 1000000))

/-! ### Quality reports (R164 to R166) -/

/-- Clear an arm's reports to their reset values (R164). -/
def clearReports (s : State) (d i : Nat) : State :=
  [RXD_Q_SNR_Y, RXD_Q_SNR_X, RXD_Q_SNR_TOT_EVM, RXD_Q_SNR_TOT_TOTAL, RXD_Q_GMI_PDL, RXD_Q_GMI_GMI, RXD_Q_BER_EXP,
    RXD_Q_BER_MANT, RXD_Q_CD_CD, RXD_Q_DGD_OSNR, RXD_Q_DGD_DGD, RXD_Q_CLK_OFFSET].foldl
    (fun (t : State) f => t.wr f d 0 i) (s.wr RXD_SC_STATUS_Q_MIXED d 0 i)

/-- The transceiver's SNR ceiling as a linear value. -/
def snrTr (s : State) (d : Nat) : ℚ := pow10 ((s.rd RXD_Q_CTRL_SNR_TR d : ℚ) / 1000)

/-- The nearest constellation value of a payload symbol, in the receive plan's format. -/
def nearestVec (c h n : Nat) (y : Vec2) : Vec2 := { x := nearest c h n y.x, y := nearest c h n y.y }

/-- The energy of both polarisations of a symbol. -/
def energy2 (v : Vec2) : ℚ := v.x.abs2 + v.y.abs2

/-- The difference of two symbols. -/
def subVec (u v : Vec2) : Vec2 := { x := u.x.sub v.x, y := u.y.sub v.y }

/-- The decoded label bits that the FEC returns for a matcher block, by amplitude position: the matcher and the mapper run
again on its decoded bits (R193, R210). -/
def decodedLabels (c h n : Nat) (bits : List Bool) : List (List Bool) :=
  let k := matcherBits n h
  ((matchBlock c h n (bits.take k)).zip (bits.drop k)).map fun p => dimLabel c p.2 p.1

/-- The label LLRs of the converged blocks of a window with the decoded bits; the other blocks are left out (R210). -/
def labelPairs (c h : Nat) (bs : List QBlock) : List (Bool × Int) :=
  (bs.filter QBlock.converged).flatMap fun b =>
    ((decodedLabels c h b.labels.length b.bits).zip b.labels).flatMap fun p => p.1.zip p.2

/-- The symbols of one polarisation in the converged blocks of a window. -/
def symbolsOf (bs : List QBlock) : Nat := ((bs.filter QBlock.converged).map fun b => b.labels.length / 2).sum

/-- Pre-FEC BER and GMI of a window (R165, R210); with no converged block the spec gives neither. Log entry 22 DEDUCED. -/
def publishBits (s : State) (d i c h : Nat) (bs : List QBlock) : State :=
  let ps := labelPairs c h bs
  if ps.isEmpty then
    let f := s.free 21
    let g := f.2.free 16
    ((g.2.wr RXD_Q_BER_EXP d (f.1 / 65536) i).wr RXD_Q_BER_MANT d f.1 i).wr RXD_Q_GMI_GMI d g.1 i
  else
    let b := berCode (ps.filter fun p => decide (p.2 < 0) != p.1).length ps.length
    let loss := (ps.map fun p =>
      Arith.log2 (1 + Arith.exp (-((if p.1 then -1 else 1) * (p.2 : ℚ) / 2)))).sum / (symbolsOf bs : ℚ)
    ((s.wr RXD_Q_BER_EXP d b.1 i).wr RXD_Q_BER_MANT d b.2 i).wr RXD_Q_GMI_GMI d
      (clampInt 0 65535 (Arith.round (1024 * ((h : ℚ) / 16 - loss)))).toNat i

/-- Signal and error energy of one polarisation over the pilot and training symbols (R165). -/
def snrSums (q : QSums) (pol : Vec2 → Cpx) : ℚ × ℚ :=
  ((q.known.map fun p => (pol p.1).abs2).sum, (q.known.map fun p => ((pol p.2).sub (pol p.1)).abs2).sum)

/-- The total SNR of an arm in a window as a linear value. -/
def totalSnr (q : QSums) : ℚ :=
  ((snrSums q Vec2.x).1 + (snrSums q Vec2.y).1) / ((snrSums q Vec2.x).2 + (snrSums q Vec2.y).2)

/-- Error vector magnitude of the payload symbols against the nearest points, as a fraction (R165). -/
def evm (s : State) (d i c h : Nat) (ys : List (Bool × Vec2)) : ℚ :=
  let ps := ys.map fun y => (y.2, nearestVec c h (s.blockLen d i (if y.1 then 31615 else 0)) y.2)
  Arith.sqrt ((ps.map fun p => energy2 (subVec p.1 p.2)).sum / (ps.map fun p => energy2 p.2).sum)

/-- The reports of one arm for a window (R165). Log entry 22 DEDUCED. -/
def publishArm (s : State) (d : Nat) (q : QSums) : State :=
  let i : Nat := q.sc
  let a := s.rxArm d i
  let n := s.armTones d i
  let sx := snrSums q Vec2.x
  let sy := snrSums q Vec2.y
  let snrTot := Arith.round (100 * db (totalSnr q))
  let s := (s.wrSat RXD_Q_SNR_X d (Arith.round (100 * db (sx.1 / sx.2))) i).wrSat RXD_Q_SNR_Y d
    (Arith.round (100 * db (sy.1 / sy.2))) i
  let fmt := (s.rxFormat d i).getD (0, 0)
  let s := (s.wrSat RXD_Q_SNR_TOT_TOTAL d snrTot i).wr RXD_Q_SNR_TOT_EVM d
    (clampInt 0 65535 (Arith.round (10000 * s.evm d i fmt.1 fmt.2 q.payload))).toNat i
  let s := s.publishBits d i fmt.1 fmt.2 q.blocks
  let cd := a.cd.getD 0
  let m := residTaps n cd (s.scFreq d i) a.report
  let s := s.wr RXD_Q_GMI_PDL d (clampInt 0 65535 (Arith.round (100 * pdlDb n m))).toNat i
  let s := s.wrSat RXD_Q_CD_CD d (cd + Arith.round (residualCd n cd (s.scFreq d i) a.report)) i
  let s := s.wr RXD_Q_DGD_DGD d (clampInt 0 65535 (Arith.round (10 * dgdPs n m))).toNat i
  let s := match osnrLin (totalSnr q) (s.snrTr d) with
    | some x => s.wrSat RXD_Q_DGD_OSNR d (Arith.round (10 * db x)) i
    | none => s.wr RXD_Q_DGD_OSNR d 0x7FFF i
  let s := s.wrSat RXD_Q_CLK_OFFSET d (Arith.round (100 * a.rate)) i
  let s := s.wrb RXD_SC_STATUS_Q_MIXED d a.mixed i
  let k : ℚ := q.known.length
  s.modRx d i fun a => { a with snr := some snrTot, sigmaX := sx.2 / k, sigmaY := sy.2 / k }

/-- OSNR of the die (R166). Log entry 22 DEDUCED. -/
def publishOsnr (s : State) (d : Nat) (sums : List QSums) : State :=
  let on := sums.filter fun q => s.rxState d q.sc == 3
  let xs := on.map fun q => osnrLin (totalSnr q) (s.snrTr d)
  if on.isEmpty then s.wr RXD_Q_OSNR_DIE_OSNR d 0
  else if xs.any Option.isNone then s.wr RXD_Q_OSNR_DIE_OSNR d 0x7FFF
  else s.wrSat RXD_Q_OSNR_DIE_OSNR d (Arith.round (10 * db (xs.map fun x => x.getD 0).sum))

end State

/-! ### Meanings -/

/-- A correction value in its register's unit, bounded to the field (R133). -/
def corr (s : State) (f : Fld) (d : Nat) (v : ℚ) : State := s.wrSat f d (Arith.round v)

/-- The gain error of a polarisation from its samples, in 0.05 %, and its phase error, in 0.05° (R133). -/
def gainError (xs : List (ℚ × ℚ)) : ℚ :=
  (Arith.sqrt ((xs.map fun p => p.2 * p.2).sum / (xs.map fun p => p.1 * p.1).sum) - 1) * 2000
def phaseError (xs : List (ℚ × ℚ)) : ℚ :=
  let x := (xs.map fun p => p.1 * p.2).sum /
    Arith.sqrt ((xs.map fun p => p.1 * p.1).sum * (xs.map fun p => p.2 * p.2).sum)
  Arith.arg (Arith.sqrt (1 - x * x)) x * 180 / Arith.pi * 20

/-- The phase slope of the correlation of mirror tones, in rad per GHz (R133). -/
def mirrorSlope (ms : List (ℚ × Cpx)) : ℚ :=
  slopeFit ((ms.map Prod.fst).zip (unwrap (ms.map fun m => m.2.arg)))

/-- DFE_AUTO_UPDATE (R133). Skew in 0.02 ps. Log entry 170 DESIGN CHOICE. -/
def execDfeAutoUpdate (die : Fin 8) (st : DfeStats) (s : State) : Host.Outcome State Fault Refusal :=
  runDie s die fun s =>
    let s := if s.flag RXD_DFE_CTRL_IQ_AUTO die then
        let s := corr s RXD_DFE_IQ_X_GAIN die (gainError st.x)
        let s := corr s RXD_DFE_IQ_X_PHASE die (phaseError st.x)
        let s := corr s RXD_DFE_IQ_Y_GAIN die (gainError st.y)
        corr s RXD_DFE_IQ_Y_PHASE die (phaseError st.y)
      else s
    if s.flag RXD_DFE_CTRL_SKEW_AUTO die then
      let s := corr s RXD_DFE_SKEW_XI die (50 * Config.pathSkew 0 (mirrorSlope st.mirrorX))
      let s := corr s RXD_DFE_SKEW_XQ die (50 * Config.pathSkew 1 (mirrorSlope st.mirrorX))
      let s := corr s RXD_DFE_SKEW_YI die (50 * Config.pathSkew 2 (mirrorSlope st.mirrorY))
      corr s RXD_DFE_SKEW_YQ die (50 * Config.pathSkew 3 (mirrorSlope st.mirrorY))
    else s

/-- The residual frequency offset that a die measures, in kHz: its pilot phases' turn over a superframe of 4 096 ns, as the
mean over its arms in carrier lock (R134). -/
def State.freqResidual (s : State) (d : Nat) : ℚ :=
  let on := (List.range 8).filter fun i => (s.rxArm d i).locked
  (on.map fun i => (s.rxArm d i).slope).sum / (on.length : ℚ) / (2 * Arith.pi) * (1000000 / 4096)

/-- FREQ_REPORT (R134): the lead forms the weighted mean of the reports of the members named and the new F with an apply
tick. A die with no arm in lock has weight 0. -/
def execFreqReport (lead : Fin 8) (reports : List (Fin 8)) (s : State) : Host.Outcome State Fault Refusal :=
  runDie s lead fun s =>
    if s.freqLead lead ≠ lead ∨ s.flag RXD_FREQ_CTRL_HOLD lead then s
    else
      let seg := if s.isActive lead then s.segment lead else [(lead : Nat)]
      let rs := seg.filter fun d => reports.any (fun r => (r : Nat) == d) && s.lockedCount d != 0
      let w := (rs.map fun d => s.lockedCount d).sum
      if w = 0 then s
      else
        let mean := (rs.map fun d => (s.lockedCount d : ℚ) * s.freqResidual d).sum / (w : ℚ)
        let f := (s.rxDie lead).freq + Arith.round (mean / 2 ^ s.rd RXD_FREQ_CTRL_LOOP_SHIFT lead)
        let s := if f < -3000000 ∨ 3000000 < f then s.raise RXD_EVENT_FREQ_LIMIT lead else s
        s.modRxDie lead fun x => { x with freqNext := some (clampInt (-3000000) 3000000 f) }

/-- FREQ_APPLY (R134): every member applies the new F, unless HOLD is 1 by now; an update of a die that no longer leads is
discarded (R162). -/
def execFreqApply (lead : Fin 8) (s : State) : Host.Outcome State Fault Refusal :=
  runDie s lead fun s =>
    match (s.rxDie lead).freqNext with
    | none => s
    | some f =>
      let s' := s.modRxDie lead fun x => { x with freqNext := none }
      if s.freqLead lead = lead ∧ !s.flag RXD_FREQ_CTRL_HOLD lead ∧ !(s.die lead).departed then
        let seg := if s.isActive lead then s.segment lead else [(lead : Nat)]
        s'.forEach seg fun t e => (t.setFreq e f).wrb RXD_FREQ_STATUS_FROM_LEAD e (e != (lead : Nat))
      else s'

/-- The centroid of the power spectrum of a run of samples at 176 GS/s, in kHz from the slice centre (R135). -/
def centroid (xs : List Vec2) : ℚ :=
  let ps := (blockTones xs).zipIdx.map fun p =>
    (((p.2 : ℚ) - ((xs.length - xs.length / 2 : Nat) : ℚ)) * 176000000 / (xs.length : ℚ), State.energy2 p.1)
  (ps.map fun p => p.1 * p.2).sum / (ps.map Prod.snd).sum

/-- COARSE_FREQ_ACQ (R135): the centroid of the slice before the mixer; a die with another lead takes its F. -/
def execCoarseFreqAcq (die : Fin 8) (raw : RawSlice) (s : State) : Host.Outcome State Fault Refusal :=
  runDie s die fun s =>
    if s.freqLead die ≠ die then s.takeFreq die
    else if s.lockedCount die = 0 then
      let f := Arith.round (centroid (s.dfeSamples die raw))
      let s := if f < -3000000 ∨ 3000000 < f then s.raise RXD_EVENT_FREQ_LIMIT die else s
      ((s.setFreq die (clampInt (-3000000) 3000000 f)).dcStep die raw).wrb RXD_FREQ_STATUS_FROM_LEAD die false
    else s

/-- Bound a resampler's rate to ±200 ppm (R138). -/
def boundRate (x : ℚ) : ℚ := max (-200) (min 200 x)

/-- One step of the timing loop on an error in symbols (R139). -/
def State.timingStep (s : State) (d i : Nat) (err : ℚ) : State :=
  s.modRx d i fun a =>
    { a with rate := boundRate (Config.timingRate a.rate err), phase := Config.timingPhase a.phase a.rate err }

/-- The known value of a delivered symbol (R145): the pilot where one stands, else the decision on a payload symbol where
DD_EN is 1. -/
def State.knownSymbol (s : State) (d i : Nat) (at_ : FdeAt) (m : Nat) (y : Vec2) : Option Vec2 :=
  let k := at_.first + m
  match pilotAt (s.rxDie d).boost at_.sf k with
  | some p => some p
  | none =>
    match s.rxFormat d i with
    | some (c, h) =>
      if payloadAt at_.sf k && s.flag RXD_SC_CFG_DD_EN d i then
        let w := Cpx.expj (at_.theta.getD m 0)
        let n := s.blockLen d i (s.rxArm d i).block
        some { x := nearest c h n (y.x.mul w), y := nearest c h n (y.y.mul w) }
      else none
    | none => none

/-- The LMS update of the taps after a block (R145), in the states trained and tracking. -/
def State.lmsBlock (s : State) (d i l : Nat) (x ys : List Vec2) (at_ : FdeAt) : State :=
  let a := s.rxArm d i
  let p := powerStep a.power x
  let errs := ys.zipIdx.map fun e =>
    let v := s.knownSymbol d i at_ e.2 e.1
    let th := at_.theta.getD e.2 0
    ({ x := lmsError (v.map Vec2.x) e.1.x th, y := lmsError (v.map Vec2.y) e.1.y th } : Vec2)
  let et := blockTones (List.replicate l ({} : Vec2) ++ errs)
  let w := if s.rxState d i = 2 ∨ s.rxState d i = 3 then lmsStep a.taps p x et (s.rd RXD_SC_CFG_MU_SHIFT d i) else a.taps
  (s.modRx d i fun a => { a with taps := w, report := w, power := p }).timingStep d i (timingError w p)

/-- FDE_BLOCK (R130, R139, R141, R145): the raw samples of the die run through correction, front end, mixer, channeliser,
seam combining and resampler to N symbols per polarisation; the equalised symbols go out; LMS and timing follow unless
frozen. Before the first training the clock tone steers the timing: its error is the operand. -/
def execFdeBlock (die sc : Fin 8) (input : FdeIn) (syms : FdeAt) (clockErr : ℚ) (s : State) :
    Host.Outcome State Fault Refusal :=
  runDie s die fun s =>
    let a := s.rxArm die sc
    let n := s.armTones die sc
    let st := s.rxState die sc
    if a.taps.length ≠ n ∨ st = 0 ∨ st = 4 ∨ st = 5 then s
    else
      let l := fdeOverlap (s.scExpress die sc) (s.flag RXD_SC_CFG_OVERLAP die sc)
      let turn := 1 + a.rate / 1000000
      let next := a.nextAt.getD (((input.raw.start : ℚ) / 11).ceil + (l : ℚ) * turn)
      let xs := s.fdeInput die sc input (next - (l : ℚ) * turn)
      let ys := equalise a.taps xs l
      let s := (s.dcStep die input.raw).modRx die sc fun a => { a with nextAt := some (next + ((n - l : Nat) : ℚ) * turn) }
      let s := s.emit (.symbols die sc ys)
      if s.flag RXD_CTRL_FREEZE die then s
      else if a.everTrained then s.lmsBlock die sc l (blockTones xs) ys syms
      else s.timingStep die sc clockErr

/-- TRAINING (R143, R144, R146, R148, R149): the block after c_j only, and the arm's SNR in dB. -/
def execTraining (die sc : Fin 8) (rx : List Vec2) (snr : ℚ) (s : State) : Host.Outcome State Fault Refusal :=
  runDie s die fun s =>
    let a := s.rxArm die sc
    let st := s.rxState die sc
    let ex := s.scExpress die sc
    let n := fdeTones ex
    let fg := s.scFreq die sc
    match a.cd with
    | none => s
    | some cd0 =>
      if !(st == 2 || st == 3 || st == 6 || (st == 1 && decide (3 ≤ a.step))) then s
      else
        let r := residualCd n cd0 fg a.taps
        let cd := if 200 < r ∨ r < -200 then cd0 + Arith.round r else cd0
        let beta : ℚ := match a.snr with
          | some v => pow10 (-(v : ℚ) / 1000)
          | none => 1 / 100
        let wt := trainTaps ex cd fg beta rx
        if s.flag RXD_CTRL_FREEZE die then s.modRx die sc fun a => { a with report := wt }
        else
          let shift := if a.trainings = 0 then 0 else s.rd RXD_SC_CFG_TRAIN_SHIFT die sc
          let w := trainStep a.taps wt shift
          let s := s.wr RXD_SC_STATUS_TRAIN_COUNT die (s.rd RXD_SC_STATUS_TRAIN_COUNT die sc + 1) sc
          let s := s.modRx die sc fun a =>
            { a with taps := w, report := w, cd := some cd, resid := residualCd n cd fg w, trainings := a.trainings + 1
                     firstSnr := if a.trainings = 0 then snr else a.firstSnr, everTrained := true
                     snrs := if 3 ≤ a.trainings ∧ a.locked then (snr :: a.snrs).take 4 else [] }
          if st = 1 then (s.setRxState die sc 2).modRx die sc fun a => { a with step := 4 }
          else if st = 6 ∧ a.trainings = 1 then
            if snr - a.firstSnr ≤ 1 / 2 ∧ a.firstSnr - snr ≤ 1 / 2 ∧ a.locked then s.setRxState die sc 3
            else (s.setRxState die sc 1).seekCd die sc
          else s

/-- The candidate with the largest magnitude, the first among equals. -/
def bestOf (xs : List (Int × ℚ)) : Option (Int × ℚ) :=
  xs.foldl (fun (b : Option (Int × ℚ)) x =>
    match b with
    | none => some x
    | some y => if y.2 < x.2 then some x else some y) none

/-- The candidates of the blind scan in ps/nm (R147): steps of 1 000 over ± 80 000, or ± 20 000 with SCAN_NARROW. -/
def State.scanGrid (s : State) (d : Nat) : List Int :=
  let half : Nat := if s.flag RXD_CD_CTRL_SCAN_NARROW d then 20 else 80
  (List.range (2 * half + 1)).map fun k => 1000 * ((k : Int) - (half : Int))

/-- The refinement around the best candidate: steps of 100 over ± 1 000 (R147). -/
def fineGrid (best : Int) : List Int := (List.range 21).map fun k => best + 100 * ((k : Int) - 10)

/-- CD_SCAN_DONE (R147): the clock-tone magnitudes of the candidates in order, and of the refinement around the best. -/
def execCdScanDone (die sc : Fin 8) (coarse fine : List ℚ) (s : State) : Host.Outcome State Fault Refusal :=
  runDie s die fun s =>
    if s.rxState die sc ≠ 1 ∨ (s.rxArm die sc).step ≠ 2 then s
    else
      let cands := (s.scanGrid die).zip coarse
      match bestOf cands with
      | none => s.raise RXD_EVENT_ACQ_FAIL die (2 ^ (sc : Nat))
      | some b =>
        if 20 * Arith.log10 (b.2 / mean (cands.map Prod.snd)) < 6 then s.raise RXD_EVENT_ACQ_FAIL die (2 ^ (sc : Nat))
        else
          let cd := ((bestOf ((fineGrid b.1).zip fine)).getD b).1
          s.modRx die sc fun a =>
            { a with step := 3, cd := some cd, resid := 0, taps := initTaps (s.armTones die sc) cd (s.scFreq die sc) }

/-- The SNR has stayed within 0.5 dB of its mean over 4 multiframes (R148, step 7). -/
def snrSteady (xs : List ℚ) : Bool :=
  xs.length == 4 && xs.all fun x => decide (|x - mean xs| ≤ 1 / 2)

/-- An arm in carrier lock whose SNR is steady after its three trainings reaches tracking (R148, step 7). -/
def State.rxTracking (s : State) (d i : Nat) : State :=
  let a := s.rxArm d i
  if s.rxState d i = 2 ∧ 3 ≤ a.trainings ∧ a.locked ∧ snrSteady a.snrs then s.setRxState d i 3 else s

/-- RX_ACQ_TIMEOUT (R148): ACQ_FAIL, and a restart at step 2 that keeps F and any CD found. -/
def execRxAcqTimeout (die sc : Fin 8) (s : State) : Host.Outcome State Fault Refusal :=
  runDie s die fun s =>
    if s.rxState die sc = 1 ∨ s.rxState die sc = 2 then
      ((s.raise RXD_EVENT_ACQ_FAIL die (2 ^ (sc : Nat))).setRxState die sc 1).seekCd die sc
    else s

/-- c(k) of a subcarrier (R150): y × conj(p) over the pilot of the interval on both polarisations. -/
def State.pilotSum (s : State) (d : Nat) (p : PilotSc) : Cpx :=
  let y := p.ys.headD {}
  let k := knownPilot (s.rxDie d).boost p.sf p.pilot
  (y.x.mul k.x.conj).add (y.y.mul k.y.conj)

/-- The phase of one subcarrier in an interval, its turn, and the payload recovered with it (R151, R154, R155). -/
def State.pilotStep (s : State) (die : Nat) (p : PilotSc) : State :=
  let i : Nat := p.sc
  let th := s.pilotPhase die i
  let units := ((s.remoteGroups die).filter fun e => (s.group die e.1 e.2).inSum).length
  let joint := !s.scExpress die i && s.flag RXD_SC_CFG_JOINT_EN die i
  let s := s.wr RXD_SC_STATUS_JOINT_UNITS die (if joint then units else 0) i
  let old := (s.rxArm die i).theta
  let turn := Arith.wrap (th - old)
  let s := s.modRx die i fun a =>
    if (p.pilot : Nat) = 0 then { a with theta := th, slope := a.swing, swing := turn }
    else { a with theta := th, swing := a.swing + turn }
  if s.rxState die i = 2 ∨ s.rxState die i = 3 then s.recoverPayload die p old th else s

/-- PILOT_INTERVAL (R150 to R155): sums formed and exchanged, phases, offsets and slips, payload recovered and demapped.
Arms that are off, dormant or hold have no interval (R162). -/
def execPilotInterval (die : Fin 8) (own : List PilotSc) (remote : List RemoteSum) (s : State) :
    Host.Outcome State Fault Refusal :=
  runDie s die fun s =>
    let own := own.filter fun p => s.rxState die p.sc != 0 && s.rxState die p.sc != 4 && s.rxState die p.sc != 5
    let s := s.forEach own fun t p =>
      t.modRx die p.sc fun a => { a with hist := (t.pilotSum die p :: a.hist).take 17 }
    let s := s.forEach (s.remoteGroups die) fun t e =>
      let z := (remote.find? fun r => (r.die : Nat) == e.1 && (r.half : Nat) == e.2).elim {} State.groupValue
      t.modGroup die e.1 e.2 fun g => { g with hist := (z :: g.hist).take 17 }
    let s := s.sendGroups die remote
    let s := (s.offsets die).inSums die (own.any fun p => (p.pilot : Nat) == 0)
    s.forEach own fun t p => t.pilotStep die p

/-- CARRIER_LOCK_LOST (R156): the arm leaves every joint sum and restarts at step 3 with F and CD. An arm that is off,
holds or is dormant stays so (R162). -/
def execCarrierLockLost (die sc : Fin 8) (s : State) : Host.Outcome State Fault Refusal :=
  runDie s die fun s =>
    if s.rxState die sc = 0 ∨ s.rxState die sc = 4 ∨ s.rxState die sc = 5 then s
    else
      let s := (s.raise RXD_EVENT_LOCK_LOST die (2 ^ (sc : Nat))).setRxState die sc 1
      let s := s.modRx die sc fun a =>
        { a with locked := false, unlockRun := 0, psiRun := 0, inSum := false, step := if a.cd.isSome then 3 else 2
                 trainings := 0, snrs := [], everTrained := false }
      s.refreshLocked die

/-- SEAM_COMBINE_UPDATE (R157): once per superframe on a side with combining enabled. -/
def execSeamCombineUpdate (die : Fin 8) (hi : Bool) (tones : List SeamObs) (s : State) :
    Host.Outcome State Fault Refusal :=
  runDie s die fun s =>
    if s.flag (State.seamEnFld hi) die && (s.rd (State.seamStateFld hi) die == 1 || s.rd (State.seamStateFld hi) die == 2)
    then s.seamUpdate die hi tones else s

/-- SEAM_LEARNING_END (R158). -/
def execSeamLearningEnd (die : Fin 8) (hi : Bool) (s : State) : Host.Outcome State Fault Refusal :=
  runDie s die fun s => if s.rd (State.seamStateFld hi) die = 1 then s.setSeam die hi 2 else s

/-- BRIDGE_LOST (R33 step 2, R131, R159): the bad frames are counted, the seam goes to own-only, and the skew measurement of
the seam below a die holds its trim. -/
def execBridgeLost (die : Fin 8) (hi : Bool) (bad : Nat) (s : State) : Host.Outcome State Fault Refusal :=
  runDie s die fun s =>
    let s := s.count (if hi then SEAM_LINK_ERR_HI_COUNT else SEAM_LINK_ERR_LO_COUNT) die bad
    let s := (s.wr (State.seamLinkFld hi) die 0).modSeam die hi fun x => { x with lost := true }
    let s := s.raise (if hi then SEAM_EVENT_LINK_HI_LOST else SEAM_EVENT_LINK_LO_LOST) die
    let s := if s.rd (State.seamStateFld hi) die = 0 then s else s.seamOwn die hi
    if hi then s else s.holdTrim die

/-- BRIDGE_RESTORED (R131, R159): the seam returns through learning. -/
def execBridgeRestored (die : Fin 8) (hi : Bool) (s : State) : Host.Outcome State Fault Refusal :=
  runDie s die fun s =>
    let s := (s.wr (State.seamLinkFld hi) die 1).modSeam die hi fun x => { x with lost := false }
    if s.rd (State.seamStateFld hi) die = 3 then s.seamTry die hi else s

/-- Q_WINDOW_PUBLISH (R164 to R166). -/
def execQWindowPublish (die : Fin 8) (sums : List QSums) (s : State) : Host.Outcome State Fault Refusal :=
  runDie s die fun s =>
    let s := s.publishOsnr die sums
    let s := s.forEach (List.range 8) fun t i =>
      let t := match sums.find? fun q => (q.sc : Nat) == i with
        | some q => if (t.rxArm die i).tracked then t.publishArm die q else t.clearReports die i
        | none => t.clearReports die i
      let now := t.rxState die i == 3
      t.modRx die i fun a => { a with tracked := now, mixed := false }
    let s := s.wr RXD_Q_STATUS_SEQ die (s.rd RXD_Q_STATUS_SEQ die + 1)
    s.raise RXD_EVENT_Q_UPDATE die

end Sys2Proof.Machine
end

