-- ==== Sys2Proof/Machine/Fec.lean ====
section
/-! DEFINITION. Soft-decision coding (spec/07): code-table slots, the decoder pool, reordering, BCH, stream positions and
counters. -/
namespace Sys2Proof.Machine
open Sys2Proof

/-- A fault of the FEC block of a die (level block). -/
def fecFault (cls : Fin 4) (detail : Fin 65536) : FaultRec :=
  { level := 1, cls := cls, code := 0x06, block := 7, unit := 0, detail := detail }

/-- The stream's own count in a later multiframe: pointers, and the anchor of its container period. -/
def StreamSt.onward (x : StreamSt) (e : Nat × Nat × Nat × Nat) (mfc : Nat) : StreamSt :=
  { x with ptr := e.1, bch := e.2.1, scr := e.2.2.1, mf := mfc, anchor := x.anchor + e.2.2.2
           ahead := x.ahead ++ [(x.anchor + e.2.2.2, mfc)] }

namespace State

/-- The decoders of a die. -/
def fecSt (s : State) (d : Nat) : FecSt := s.fec.get {} (unitKey d 0)

/-- Change the decoders of a die. -/
def modFec (s : State) (d : Nat) (f : FecSt → FecSt) : State :=
  { s with fec := s.fec.set {} (unitKey d 0) (f (s.fecSt d)) }

/-- A coded stream at the receiver: 0 to 7 bulk, 8 express. -/
def stream (s : State) (d n : Nat) : StreamSt := s.streams.get {} (unitKey d n)

/-- Change a coded stream. -/
def modStream (s : State) (d n : Nat) (f : StreamSt → StreamSt) : State :=
  { s with streams := s.streams.set {} (unitKey d n) (f (s.stream d n)) }

/-- The stream a subcarrier carries (R192). -/
def scStream (s : State) (d i : Nat) : Nat := if s.scExpress d i then 8 else i

/-- The table in a slot of a die. -/
def table (s : State) (d k : Nat) : Option CodeTable := (s.fecSt d).tables[k]?

/-! ### Loading the tables (R198, R199) -/

/-- Show one accepted table in its slot. -/
def showTable (s : State) (d k : Nat) (t : CodeTable) : State :=
  let s := (s.wr FEC_TABLE_VALID d 1 k).wrb FEC_TABLE_CLASS d t.express k
  let s := (s.wrb FEC_TABLE_OUTER d t.outer k).wr FEC_TABLE_Z_LOG2 d t.zlog2 k
  let s := (s.wr FEC_TABLE_ENTRIES d t.entries.length k).wr FEC_TABLE_COLUMNS d t.cols k
  (s.wr FEC_TABLE_ROWS d t.rows k).wr FEC_TABLE_NAME_NAME d t.name k

/-- Apply a CODE_TABLE section: accepted tables fill the slots in order; a refused one sets TABLE_BAD; without an express
table a permanent fault is reported. Log entry 146 DEDUCED. -/
def loadTables (s : State) (d : Nat) (section_ : List Byte) : State :=
  let count := natAt section_ 0 4
  let parsed := if 1 ≤ count ∧ count ≤ 4 then parseTables count (section_.drop 4) else [none]
  let good := parsed.filterMap id
  let s := s.modFec d fun x => { x with tables := good }
  let s := s.forEach good.zipIdx fun t e => t.showTable d e.2 e.1
  let s := if parsed.any Option.isNone then s.raise FEC_EVENT_TABLE_BAD d else s
  if good.any CodeTable.express then s else s.emit (.fault d (fecFault 1 1))

/-- The lowest-numbered express slot (R199). -/
def expressSlot (s : State) (d : Nat) : Nat := ((s.fecSt d).tables.findIdx? CodeTable.express).getD 0

/-! ### The pool (R203 to R207, R212) -/

/-- A cluster is available: enabled and not retired. -/
def clusterUp (s : State) (d k : Nat) : Bool :=
  bit (s.rd FEC_CTRL_CLUSTER_EN d) k && !bit (s.rd FEC_POOL_STATUS_RETIRED d) k

/-- The available clusters, highest first. -/
def clustersUp (s : State) (d : Nat) : List Nat := (List.range 8).reverse.filter (s.clusterUp d)

/-- The receive-direction H of a subcarrier in force now (R456). -/
def rxH (s : State) (d i : Nat) : Nat :=
  if s.flag TXD_SC_RXPLAN_VALID d i then s.rd TXD_SC_RXPLAN_H d i else s.rd TXD_SC_CFG_H d i

/-- E_c from the sum of H, in 1/16 bit, over the express subcarriers (R203): 30.875 × H Gb/s against 768 Gb/s. -/
def expressClusters (sumH : Nat) : Nat := (247 * sumH + 98303) / 98304

/-- Σ H over the express subcarriers whose receive arm is enabled, H given by `h`. -/
def expressSum (s : State) (d : Nat) (h : Nat → Nat) : Nat :=
  ((List.range 8).map fun i => if s.rxOn d i && s.scExpress d i then h i else 0).sum

/-- Σ H over the express subcarriers at the receive-direction H in force. -/
def expressH (s : State) (d : Nat) : Nat := s.expressSum d (s.rxH d)

/-- A set of clusters as a mask. -/
def clusterMask (ks : List Nat) : Nat := ks.foldl (fun a k => a + 2 ^ k) 0

/-- Show the table slot of each subcarrier that is in use (R197). -/
def showCodes (s : State) (d : Nat) : State :=
  s.forEach (List.range 8) fun t i => t.wr FEC_SC_STATUS_CODE d (t.rd FEC_SC_CFG_CODE d i) i

/-- The pool at a commit (R203): E_c clusters, the highest available ones, are dedicated to express, with the receive H of
the new epoch given by `h`; the table slots in use are those committed. -/
def commitPool (s : State) (d : Nat) (h : Nat → Nat) : State :=
  let up := s.clustersUp d
  let ec := expressClusters (s.expressSum d h)
  let s := (s.showCodes d).modFec d fun x => { x with ec := ec }
  (s.wr FEC_POOL_STATUS_AVAILABLE d (clusterMask up)).wr FEC_POOL_STATUS_EXPRESS d (clusterMask (up.take ec))

/-- The pool after a change of the receive direction: the commit's rule at the H in force. -/
def refreshPool (s : State) (d : Nat) : State := s.commitPool d (s.rxH d)

/-- The clusters of the express set, lowest first. -/
def expressSet (s : State) (d : Nat) : List Nat := (List.range 8).filter fun k => bit (s.rd FEC_POOL_STATUS_EXPRESS d) k

/-- At an express codeword boundary the next highest available clusters join an express set that has lost members (R212). -/
def joinExpress (s : State) (d : Nat) : State :=
  let set_ := s.expressSet d
  let new := ((s.clustersUp d).filter fun k => !set_.contains k).take ((s.fecSt d).ec - set_.length)
  s.wr FEC_POOL_STATUS_EXPRESS d (clusterMask (set_ ++ new))

/-- The clusters of the bulk pool that are on (R343). -/
def bulkPool (s : State) (d : Nat) : List Nat :=
  (s.clustersUp d).filter fun k => !bit (s.rd FEC_POOL_STATUS_EXPRESS d) k && s.domain d (33 + k) == 0

/-- Show the queue's fill. -/
def showFill (s : State) (d : Nat) : State :=
  let n := (s.fecSt d).queue.length
  let s := s.wr FEC_POOL_STATUS_FILL d n
  if s.rd FEC_QUEUE_PEAK_PEAK d < n then s.wr FEC_QUEUE_PEAK_PEAK d n else s

/-! ### Delivery (R202, R206, R208) -/

/-- The information bits of a frame codeword, descrambled with the stream's own generator (R222). -/
def descramble (s : State) (d n : Nat) (bits : List Bool) : List Bool := scramble (s.stream d n).scrRx bits

/-- The receive slots that a subcarrier offers (R30, R249). -/
def rxSlotCount (s : State) (d i : Nat) : Nat :=
  match s.table d (s.rd FEC_SC_STATUS_CODE d i) with
  | some t => if s.rxOn d i then slotCount (s.rxH d i) t.netCode else 0
  | none => 0

/-- The existing slots of a receive stream, as entries of the die's slot table, ascending (R251). -/
def rxStreamSlots (s : State) (d n : Nat) : List Nat :=
  ((List.range 8).filter fun i => s.scStream d i == n).flatMap fun i =>
    (List.range (s.rxSlotCount d i)).map fun k => 24 * i + k

/-- A container period begins where the next frame codeword is an anchor (R250). -/
def enterPeriod (s : State) (d n : Nat) : State :=
  let x := s.stream d n
  match x.ahead with
  | (k, m) :: rest =>
    if x.start.isNone && k == x.cw then
      s.modStream d n fun y => { y with ahead := rest, period := m, slots := s.rxStreamSlots d n, turn := 0 }
    else s
  | [] => s

/-- Deal the container words of a frame codeword to the slots of its stream (R250, R251). -/
def dealInfo (s : State) (d n : Nat) (bits : List Bool) (errored : Bool) : State :=
  let s := s.enterPeriod d n
  let x := s.stream d n
  let ws := cutWords bits
  let s := s.modStream d n fun y => { y with cw := y.cw + 1, turn := y.turn + ws.length }
  if x.slots.isEmpty then s
  else s.emit (.slotWords d n x.period ((dealWords x.slots.length x.turn ws).map fun e => (x.slots.getD e.1 0, e.2)) errored)

/-- Deliver the information part of a frame codeword, descrambled; the generator runs on over it (R208, R222). -/
def deliverInfo (s : State) (d n : Nat) (bits : List Bool) (errored : Bool) : State :=
  let out := s.descramble d n bits
  ((s.modStream d n fun x => { x with scrRx := scramAfter bits.length x.scrRx }).emit (.payload d n out errored)).dealInfo
    d n out errored

/-- Feed information bits of a bulk stream to the BCH stage and deliver each codeword that is complete. The number of
codewords is bounded by the bits at hand. -/
def bchFeed (s : State) (d i : Nat) : Nat → List Bool → State
  | 0, bits => s.modStream d i fun x => { x with bchBits := bits }
  | n + 1, bits =>
    if bits.length < 14224 then s.modStream d i fun x => { x with bchBits := bits }
    else
      let w := bits.take 14224
      let s := match bchDecode w with
        | some r => (s.count FEC_BCH_CORR_COUNT d r.2 i).deliverInfo d i r.1 false
        | none =>
          ((s.count FEC_BCH_FAIL_COUNT d 1 i).raise FEC_EVENT_BCH_FAIL d (2 ^ i)).deliverInfo d i (w.take 14000) true
      s.bchFeed d i n (bits.drop 14224)

/-- The codeword that the adopted STREAM record names begins the stream anew: nothing of the old one is kept, and the
descrambler takes SCR (R224). -/
def beginStream (s : State) (d : Nat) (c : Decoded) : State :=
  if (s.stream d c.stream).start = some c.seq then
    s.modStream d c.stream fun x =>
      { x with start := none, bchBits := [], scrRx := x.startScr, cw := 0, period := x.startMf
               slots := s.rxStreamSlots d c.stream, turn := 0 }
  else s

/-- A codeword leaves the reorder stage (R206, R208). -/
def leave (s : State) (d : Nat) (c : Decoded) : State :=
  let s := s.beginStream d c
  if c.stream = 8 then s.deliverInfo d 8 c.bits (!c.ok)
  else
    let st := s.stream d c.stream
    let bits := c.bits.drop st.skip
    let s := s.modStream d c.stream fun x => { x with skip := x.skip - c.bits.length }
    let all := st.bchBits ++ bits
    s.bchFeed d c.stream (all.length / 14224) all

/-- Let every codeword of a stream leave that is next in order; at most `n` of them. -/
def drain (s : State) (d stream : Nat) : Nat → State
  | 0 => s
  | n + 1 =>
    match (s.fecSt d).reorder.find? fun c => c.stream == stream && c.seq == (s.stream d stream).nextOut with
    | none => s
    | some c =>
      let s := s.modFec d fun x => { x with reorder := x.reorder.erase c }
      let s := s.modStream d stream fun x => { x with nextOut := x.nextOut + 1 }
      (s.leave d c).drain d stream n

/-- Hand a decoded codeword to the reorder stage. -/
def handOver (s : State) (d : Nat) (c : Decoded) : State :=
  let s := s.modFec d fun x => { x with reorder := x.reorder ++ [c] }
  s.drain d c.stream (s.fecSt d).reorder.length

/-- Deliver a bulk codeword without decoding: its channel LLR signs become its decision bits (R205, R212). -/
def deliverRaw (s : State) (d : Nat) (cw : Codeword) : State :=
  let info := (s.table d cw.slot).elim cw.llr.length CodeTable.info
  let s := (s.count FEC_CW_FAIL_COUNT d 1 cw.stream).count FEC_CW_COUNT d 1 cw.stream
  s.handOver d { stream := cw.stream, seq := cw.seq, bits := (decide0 cw.llr).take info, ok := false }

/-- Count a decoded bulk codeword in the running bins (R211): bin k − 1 for k iterations, bin 24 for FAIL. -/
def countBin (s : State) (d k : Nat) : State :=
  s.modFec d fun x => { x with bins := x.bins.set k (min (x.bins.getD k 0 + 1) (2 ^ 32 - 1)) }

/-- A cluster finishes its codeword: decode, count and deliver (R201, R202, R211). Log entry 30 DESIGN CHOICE. -/
def finish (s : State) (d : Nat) (j : ClusterJob) : State :=
  match s.table d j.cw.slot with
  | none => s.deliverRaw d j.cw
  | some t =>
    let r := ldpcDecode t j.offset j.budget j.minIt j.early j.cw.llr
    let i := j.cw.stream
    let s := s.count FEC_CW_COUNT d 1 i
    let s :=
      if r.2.1 then
        let flips := ((r.1.zip (decide0 j.cw.llr)).filter fun p => p.1 != p.2).length
        (s.count FEC_FLIPS_COUNT d flips i).countBin d (r.2.2 - 1)
      else (s.count FEC_CW_FAIL_COUNT d 1 i).countBin d 24
    s.handOver d { stream := i, seq := j.cw.seq, bits := r.1.take t.info, ok := r.2.1 }

/-- Start decoding a codeword on a cluster with the budget of R204. Log entry 28 DEDUCED. -/
def startJob (s : State) (d k : Nat) (cw : Codeword) : State :=
  let maxIt := s.rd FEC_POOL_CTRL_MAX_ITER d
  let budget := if (s.fecSt d).queue.length < s.rd FEC_POOL_CTRL_HIGH d then maxIt
    else min (s.rd FEC_POOL_CTRL_GUARANTEE d) maxIt
  let j : ClusterJob :=
    { cw := cw, budget := budget, minIt := s.rd FEC_POOL_CTRL_MIN_ITER d, early := s.flag FEC_DEC_CTRL_EARLY_STOP_EN d
      offset := s.rd FEC_DEC_CTRL_OFFSET d }
  s.modFec d fun x => { x with clusters := x.clusters.set k (some j) }

/-- Free clusters of the bulk pool take the oldest codewords; at most one each. Log entry 28 DEDUCED. -/
def feed (s : State) (d : Nat) : State :=
  (s.forEach (s.bulkPool d) fun t k =>
    match (t.fecSt d).clusters.getD k none, (t.fecSt d).queue with
    | none, cw :: rest => (t.modFec d fun x => { x with queue := rest }).startJob d k cw
    | _, _ => t).showFill d

/-- A codeword enters the bulk queue (R204, R205). -/
def release (s : State) (d : Nat) (cw : Codeword) : State :=
  let s := match (s.fecSt d).queue with
    | old :: rest =>
      if 32 ≤ rest.length + 1 then
        let s := s.modFec d fun x => { x with queue := rest }
        ((s.count FEC_SKIPPED_COUNT d).raise FEC_EVENT_SKIP d).deliverRaw d old
      else s
    | [] => s
  let s := (s.modFec d fun x => { x with queue := x.queue ++ [cw] }).feed d
  if (s.fecSt d).queue.length = s.rd FEC_POOL_CTRL_HIGH d then s.raise FEC_EVENT_QUEUE_HIGH d else s

/-- A cluster leaves its pool as in ABORT mode: the codeword in hand is delivered undecoded and counted (R212). -/
def abortCluster (s : State) (d k : Nat) : State :=
  match (s.fecSt d).clusters.getD k none with
  | some j =>
    let s := s.modFec d fun x => { x with clusters := x.clusters.set k none }
    (s.deliverRaw d j.cw).abortUnit d 7 k 1
  | none => s.abortUnit d 7 k 0

/-- A cluster leaves the express set at once; the next joins at the next express codeword boundary (R212). -/
def dropExpress (s : State) (d k : Nat) : State :=
  let s := s.lower FEC_POOL_STATUS_EXPRESS d (2 ^ k)
  s.wr FEC_POOL_STATUS_AVAILABLE d ((s.clustersUp d).foldl (fun a k => a + 2 ^ k) 0)

/-- A decoder cluster is retired (R212). -/
def retireCluster (s : State) (d k : Nat) : State :=
  (((s.raise FEC_POOL_STATUS_RETIRED d (2 ^ k)).dropExpress d k).abortCluster d k).feed d

/-- A write of CLUSTER_EN (R212): clusters whose bit clears drain or abort, and leave their set at once. -/
def clusterEnables (s : State) (d new now : Nat) : State :=
  let old := s.rd FEC_CTRL_CLUSTER_EN d
  let s := s.wr FEC_CTRL_CLUSTER_EN d new
  let s := s.forEach (List.range 8) fun t k =>
    if bit old k && !bit new k then
      let t := t.dropExpress d k
      if t.disAbort d 7 then t.abortCluster d k
      else t.drainUnit d 7 k (b2n ((t.fecSt d).clusters.getD k none).isSome) now
    else if !bit old k && bit new k then t.enableUnit d 7 k
    else t
  (s.dropExpress d 8).feed d

/-- Every cluster stops under ABORT (R213, quarantine). -/
def stopClusters (s : State) (d : Nat) : State := s.forEach (List.range 8) fun t k => t.abortCluster d k

/-! ### Stream position (R194, R224) -/

/-- Payload bits of one multiframe on a subcarrier: 2 polarisations × 16 187 136 symbols × H. -/
def scBits (h : Nat) : Nat := 2 * 16187136 * h / 16

/-- Stream bits of one multiframe. -/
def streamBits (s : State) (d n : Nat) : Nat :=
  if n = 8 then scBits (s.expressH d) else scBits (s.rxH d n)

/-- The pointer fields a stream's own count gives after some multiframes: stream pointer, BCH pointer and scrambler state, with
the frame codewords from one anchor to the other (R250). -/
def predict (s : State) (d n mfs : Nat) : Nat × Nat × Nat × Nat :=
  let st := s.stream d n
  let slot := if n = 8 then s.expressSlot d else s.rd FEC_SC_STATUS_CODE d n
  match s.table d slot with
  | none => (st.ptr, st.bch, st.scr, 0)
  | some t =>
    let len := if n = 8 then 2048 else 4 * t.n
    let info := if n = 8 then 1920 else 4 * t.info
    let p := st.ptr + mfs * s.streamBits d n
    let b0 := blocksTo st.ptr len
    let b1 := blocksTo p len
    if n = 8 then (p % len, 0, scramAfter (1920 * (b1 - b0)) st.scr, b1 - b0)
    else
      let a0 := b0 * info + st.bch
      let k := (b1 * info - a0 + 14223) / 14224
      (p % len, a0 + k * 14224 - b1 * info, scramAfter (14000 * k) st.scr, k)

/-- Adopt a STREAM record: position, BCH pointer and scrambler state (R224). Log entry 31 DEDUCED. -/
def adopt (s : State) (d n ptr bch scr mfc : Nat) : State :=
  s.modStream d n fun x =>
    { x with ptr := ptr, bch := bch, scr := scr, mf := mfc, bad := 0, start := some x.nextIn, skip := bch, startScr := scr
             anchor := 0, ahead := [], startMf := mfc }

/-- Count a stream's own position on to the multiframe that begins now, before the loading of the stream changes (R194,
R213). -/
def advanceStream (s : State) (d n mfc : Nat) : State :=
  let mfs := (mfc + 2 ^ 32 - (s.stream d n).mf) % 2 ^ 32
  if mfs = 0 ∨ 2 ^ 31 ≤ mfs then s
  else
    let e := s.predict d n mfs
    s.modStream d n fun x => x.onward e mfc

/-- The position of a stream is known: some subcarrier that carries it is synchronised. -/
def streamKnown (s : State) (d n : Nat) : Bool :=
  (List.range 8).any fun i => s.scStream d i == n && s.flag FEC_SC_STATUS_RX_SYNC d i

/-- A STREAM record on a subcarrier (R194, R223, R224): it sets the position of an arm that is in frame and trained, and is
checked once in every later multiframe; two disagreements in a row resynchronise. Matcher blocks begin anew (R172). A
record whose KIND names another kind of stream is not taken. Log entry 29 DESIGN CHOICE. -/
def streamRecord (s : State) (d i ptr bch scr kind mfc : Nat) : State :=
  let n := s.scStream d i
  let trained := s.rxState d i == 2 || s.rxState d i == 3
  if s.rd FRM_SC_STATUS_ALIGN d i ≠ 3 ∨ !trained ∨ kind ≠ b2n (n == 8) then s
  else
    let known := s.streamKnown d n
    let st := s.stream d n
    let e := s.predict d n ((mfc + 2 ^ 32 - st.mf) % 2 ^ 32)
    let s := s.modRx d i fun a => { a with block := 0, labX := [], labY := [] }
    let s := s.wr FEC_SC_STATUS_RX_SYNC d 1 i
    if !known then s.adopt d n ptr bch scr mfc
    else if st.mf = mfc then s
    else if (e.1, e.2.1, e.2.2.1) = (ptr, bch, scr) then s.modStream d n fun x => { x.onward e mfc with bad := 0 }
    else if st.bad = 0 then
      s.modStream d n fun x => { x.onward e mfc with bad := 1 }
    else
      let s := s.raise FEC_EVENT_PTR_ERR d (2 ^ (if n = 8 then 7 else i))
      let s := if n = 8 ∨ e.1 = 0 then s else s.count FEC_CW_FAIL_COUNT d 4 i
      s.adopt d n ptr bch scr mfc

/-! ### Decoder load (R207) -/

/-- The decoder load of a die in clusters (R207): the express clusters and the bulk load at the guaranteed iterations. -/
def decLoad (s : State) (d : Nat) (on express : Nat → Bool) (code h : Nat → Nat) : ℚ :=
  let ec := expressClusters ((List.range 8).map fun i => if on i && express i then h i else 0).sum
  let bulk := (List.range 8).filter fun i => on i && !express i
  let g : ℚ := s.rd FEC_POOL_CTRL_GUARANTEE d
  let load := (bulk.map fun i =>
    match s.table d (code i) with
    | some t => (247 / 8 * (h i : ℚ) / 16) * g * (t.cycles : ℚ) / ((t.n : ℚ) * (3 / 2))
    | none => (0 : ℚ)).sum
  (ec : ℚ) + load

/-- The pending set of a die fits its decoders: receive enables, classes, slots and receive H given by functions. -/
def loadFits (s : State) (d : Nat) (on express : Nat → Bool) (code h : Nat → Nat) : Bool :=
  let up := (s.clustersUp d).length
  let ec := expressClusters ((List.range 8).map fun i => if on i && express i then h i else 0).sum
  let bulk := (List.range 8).filter fun i => on i && !express i
  decide (s.decLoad d on express code h ≤ (up : ℚ)) && (bulk.isEmpty || decide (ec + 1 ≤ up))

end State

/-! ### Meanings -/

/-- CODEWORD_RELEASE (R194, R195, R204, R205): channel LLRs in 0.5. Bits whose position is not known are discarded, and
nothing leaves before the last bit of the block is in; a subcarrier whose slot holds no table has no decoder. -/
def execCodewordRelease (die sc : Fin 8) (held : BlockOut) (s : State) : Host.Outcome State Fault Refusal :=
  runDie s die fun s =>
    let i : Nat := sc
    let slot := s.rd FEC_SC_STATUS_CODE die i
    match s.table die slot with
    | none => s.refuseWork die 7
    | some t =>
      if !s.flag FEC_SC_STATUS_RX_SYNC die i ∨ held.block.length < 4 * t.n then s
      else
      let cw : Codeword :=
        { stream := i, seq := (s.stream die i).nextIn, slot := slot
          llr := (deinterleave held.block t.n held.index).map (clampInt (-32) 31) }
      (s.modStream die i fun x => { x with nextIn := x.nextIn + 1 }).release die cw

/-- CLUSTER_FREE (R202, R204): the codeword is delivered, and the cluster takes the oldest queued one; a draining cluster
reports idle. Log entry 30 DESIGN CHOICE. -/
def execClusterFree (die cluster : Fin 8) (s : State) : Host.Outcome State Fault Refusal :=
  runDie s die fun s =>
    match (s.fecSt die).clusters.getD cluster none with
    | none => s
    | some j =>
      let s := s.modFec die fun x => { x with clusters := x.clusters.set cluster none }
      ((s.finish die j).unitIdle die 7 cluster).feed die

/-- The express stream in the order of R196: by block time, the express subcarriers in ascending order, X before Y. -/
def striped (times : List (List (Fin 8 × List Int × List Int))) : List Int :=
  times.flatMap fun row => (List.range 8).flatMap fun i =>
    (row.filter fun e => (e.1 : Nat) == i).flatMap fun e => e.2.1 ++ e.2.2

/-- EXPRESS_CODEWORD (R196, R202, R203): the next dedicated cluster runs exactly 2 iterations; `cut` tells that an abort or a
retirement took it while it was decoded, and it is delivered undecoded (R212). Log entry 30 DESIGN CHOICE. -/
def execExpressCodeword (die : Fin 8) (held : Stripe) (cut : Bool) (s : State) : Host.Outcome State Fault Refusal :=
  runDie s die fun s =>
    let s := s.joinExpress die
    let set_ := s.expressSet die
    match s.table die (s.expressSlot die), set_ with
    | some t, k0 :: _ =>
      let llr := ((striped held.times).drop held.offset).take t.n
      if !s.streamKnown die 8 ∨ llr.length < t.n then s
      else
      let last := (s.fecSt die).lastExp
      let k := (set_.find? fun k => decide (last < k)).getD k0
      let s := s.modFec die fun x => { x with lastExp := k }
      let v := llr.map (clampInt (-32) 31)
      let r := if cut then (decide0 v, false, 0)
        else ldpcDecode t (s.rd FEC_DEC_CTRL_OFFSET die) 2 0 false v
      let seq := (s.stream die 8).nextIn
      let s := s.modStream die 8 fun x => { x with nextIn := x.nextIn + 1 }
      let s := s.count FEC_EXP_CW_COUNT die
      let s := if r.2.1 then s
        else if cut then
          ((s.count FEC_EXP_FAIL_COUNT die).count BLK_DIS_DISCARDS_COUNT die 1 7).raise BLK_DIS_STATUS_ABORTED die 1 7
        else (s.count FEC_EXP_FAIL_COUNT die).raise FEC_EVENT_EXP_FAIL die
      s.handOver die { stream := 8, seq := seq, bits := r.1.take t.info, ok := r.2.1 }
    | _, _ => s.refuseWork die 7

/-- HIST_SNAP (R211). -/
def execHistSnap (die : Fin 8) (s : State) : Host.Outcome State Fault Refusal :=
  runDie s die fun s =>
    let b := (s.fecSt die).bins
    let s := s.forEach (List.range 24) fun t k => t.wr FEC_ITER_HIST_COUNT die (b.getD k 0) k
    (s.wr FEC_ITER_HIST_FAIL_COUNT die (b.getD 24 0)).modFec die fun x => { x with bins := List.replicate 25 0 }

/-- HIST_CLEAR (R211). -/
def execHistClear (die : Fin 8) (s : State) : Host.Outcome State Fault Refusal :=
  runDie s die fun s => s.modFec die fun x => { x with bins := List.replicate 25 0 }

/-- STREAM_RECORD (R194, R223, R224), with the multiframe count of its header. Log entry 29 DESIGN CHOICE. -/
def execStreamRecord (die sc : Fin 8) (mfc : Word) (ptr : Fin 16777216) (bch : Fin 65536) (rest : StreamTail)
    (s : State) : Host.Outcome State Fault Refusal :=
  runDie s die fun s => s.streamRecord die sc ptr bch (rest.scr.toNat % 2 ^ 31) rest.kind.toNat mfc.toNat

end Sys2Proof.Machine
end

