-- ==== Sys2Proof/Machine/Frame.lean ====
section
/-! DEFINITION. The carrier frame (spec/08): headers, frame and multiframe alignment,
section BIP, defects and line time transfer. -/
namespace Sys2Proof.Machine
open Sys2Proof

/-! ### The FAS metric (R227) -/

/-- The FAS metric of 32 received symbols (R227). -/
def fasMetric (rx : List Vec2) : ℚ :=
  let diff := fun (xs : List Cpx) => (xs.zip (xs.drop 1)).map fun p => p.2.mul p.1.conj
  let ds := [diff (rx.map Vec2.x), diff (rx.map Vec2.y)]
  let es := [fasX, fasY].map fun w => diff ((List.range 32).map (fasValue w))
  let num := (ds.flatMap fun d => es.map fun e => (Cpx.sum ((d.zip e).map fun p => p.1.mul p.2.conj)).abs2).sum
  let den := (ds.map fun d => (d.map Cpx.abs).sum).sum
  Arith.sqrt num / den

/-! ### Headers (R220) -/

/-- A header's fields. -/
structure Header where
  sf     : Nat
  mfc    : Nat
  sbip   : Nat
  rei    : Nat
  bdi    : Bool
  pt     : Bool
  epoch  : Nat
  record : List Byte
deriving DecidableEq, Repr

/-- Bytes 0 to 53 of a header. -/
def Header.body (h : Header) : List Byte :=
  bytesBE 1 h.sf ++ bytesBE 4 h.mfc ++ bytesBE 1 h.sbip ++
  bytesBE 1 (16 * h.rei + 8 * b2n h.bdi + 4 * b2n h.pt) ++ bytesBE 4 h.epoch ++ List.replicate 11 0 ++ h.record

/-- A header with its CRC. -/
def Header.encode (h : Header) : List Byte := h.body ++ bytesBE 2 (crc16 h.body)

/-- The big-endian number of `n` bytes at byte `i`. -/
def beAt (bs : List Byte) (i n : Nat) : Nat := natBE ((bs.drop i).take n)

/-- Read a header of 56 bytes, none when its CRC fails (R221). -/
def Header.parse (bs : List Byte) : Option Header :=
  if bs.length = 56 ∧ beAt bs 54 2 = crc16 (bs.take 54) then
    let st := beAt bs 6 1
    some { sf := beAt bs 0 1, mfc := beAt bs 1 4, sbip := beAt bs 5 1, rei := st / 16, bdi := bit st 3, pt := bit st 2
           epoch := beAt bs 7 4, record := (bs.drop 22).take 32 }
  else none

/-- Bits as bytes, most significant first. -/
def packBytes (bs : List Bool) : List Byte :=
  (List.range (bs.length / 8)).map fun k => BitVec.ofNat 8 (bitsNat ((bs.drop (8 * k)).take 8))

/-- The bits of QPSK symbols sent alike on X and Y: the LLRs of both polarisations are added before the decision (R219).
`wx` and `wy` are the weights of the polarisations, their inverse noise variances. -/
def headerBits (wx wy : ℚ) (syms : List Vec2) : List Bool :=
  syms.flatMap fun v => [decide (wx * v.x.re + wy * v.y.re < 0), decide (wx * v.x.im + wy * v.y.im < 0)]

/-- The frequency, in radians per symbol, that the FAS in front of a header shows (R219). Log entry 171 DESIGN CHOICE. -/
def fasTurn (fas : List Vec2) : ℚ :=
  let diff (xs : List Cpx) := (xs.zip (xs.drop 1)).map fun p => p.2.mul p.1.conj
  let ref (w : Nat) := diff ((List.range 31).map (fasValue w))
  (Cpx.sum ((((diff ((fas.take 31).map Vec2.x)).zip (ref fasX)) ++ (diff ((fas.take 31).map Vec2.y)).zip (ref fasY)).map
    fun p => p.1.mul p.2.conj)).arg

/-- The overhead symbols behind a FAS, turned back by its frequency and by its gain on each polarisation (R219). -/
def fasDemod (fas oh : List Vec2) : List Vec2 :=
  let back (u : Nat) : Cpx := Cpx.expj (-(fasTurn fas * (nonPilotPeriod u : ℚ)))
  let gain (pol : Vec2 → Cpx) (w : Nat) :=
    Cpx.sum (fas.zipIdx.map fun p => ((pol p.1).mul (back p.2)).mul (fasValue w p.2).conj)
  oh.zipIdx.map fun p =>
    { x := (p.1.x.mul (back (32 + p.2))).mul (gain Vec2.x fasX).conj
      y := (p.1.y.mul (back (32 + p.2))).mul (gain Vec2.y fasY).conj }

/-- The header of a candidate: its overhead demodulated with its own FAS (R219). -/
def candHeader (k : CandCheck) : Option Header := Header.parse (packBytes (headerBits 1 1 (fasDemod k.fas k.header)))

/-- The numbers of the superframe after one. -/
def nextFrame (p : Nat × Nat) : Nat × Nat := if p.1 = 255 then (0, (p.2 + 1) % 2 ^ 32) else (p.1 + 1, p.2)

/-- The section BIP-8 of stream bits (R225): bit b goes to parity bit b mod 8. -/
def bip8 (bits : List Bool) : Nat :=
  (bits.zipIdx.foldl (fun (a : List Bool) e => if e.1 then a.set (e.2 % 8) (!a.getD (e.2 % 8) false) else a)
    (List.replicate 8 false)).zipIdx.foldl (fun a e => a + b2n e.1 * 2 ^ e.2) 0

/-- The number of bits in which two octets differ. -/
def bitsDiffer (a b : Nat) : Nat := ((List.range 8).filter fun i => bit a i != bit b i).length

namespace State

/-- The alignment record of an arm; index 8 holds the runs of LOS. -/
def frmArm (s : State) (d i : Nat) : FrmArm := s.frm.get {} (unitKey d i)

/-- Change an alignment record. -/
def modFrm (s : State) (d i : Nat) (f : FrmArm → FrmArm) : State :=
  { s with frm := s.frm.set {} (unitKey d i) (f (s.frmArm d i)) }

/-- ALIGN: 0 off, 1 hunting, 2 candidates, 3 in frame. -/
def align (s : State) (d i : Nat) : Nat := s.rd FRM_SC_STATUS_ALIGN d i

/-- Store the candidates of an arm that is not in frame, with CANDIDATES and ALIGN (R228). -/
def setCands (s : State) (d i : Nat) (cs : List Cand) : State :=
  let s := (s.modFrm d i fun a => { a with cands := cs }).wr FRM_SC_STATUS_CANDIDATES d cs.length i
  s.wr FRM_SC_STATUS_ALIGN d (if cs.isEmpty then 1 else 2) i

/-- An arm in frame of the segment of a die, other than the arm itself (R231). -/
def framedArm (s : State) (d i : Nat) : Option (Nat × Nat) :=
  let seg := if s.isActive d then s.segment d else [d]
  (seg.flatMap fun e => (List.range 8).filterMap fun j =>
    if s.align e j = 3 ∧ ¬(e = d ∧ j = i) then some (e, j) else none).head?

/-- Alignment starts from the beginning: the arm hunts (R228, R231). -/
def frmHunt (s : State) (d i : Nat) : State :=
  (((s.modFrm d i fun _ => {}).wr FRM_SC_STATUS_MF d 0 i).setCands d i []).loseSync d i

/-- Alignment starts with the receive arm: hunting, or one candidate seeded from another arm in frame, corrected by the
dispersion delay difference (R228, R231). -/
def frmStart (s : State) (d i : Nat) : State :=
  let s := (s.modFrm d i fun _ => {}).wr FRM_SC_STATUS_MF d 0 i
  match s.framedArm d i with
  | some (e, j) =>
    let cd : ℚ := ((s.rxArm e j).cd.getD 0 : Int)
    let dly := cd * (299792458 / s.scFreq d i - 299792458 / s.scFreq e j) / 1000 * 16
    let pos := (((s.frmArm e j).pos : Int) + Arith.round dly) % 65536
    s.setCands d i [{ pos := pos.toNat, count := 0 }]
  | none => s.setCands d i []

/-- The arm leaves the in-frame state (R194, R228). -/
def frmLose (s : State) (d i : Nat) : State :=
  let s := (s.count FRM_OOF_COUNT_COUNT d 1 i).wr FRM_SC_STATUS_MF d 0 i
  ((s.modFrm d i fun a => { a with fasRun := 0, goodRun := 0, badRun := 0, broke := none }).setCands d i []).loseSync d i

/-- Declared bits of the subcarrier defects 1 to 5 (R233). -/
def defectFld (n : Nat) : Fld :=
  match n with
  | 1 => FRM_SC_STATUS_LOL
  | 2 => FRM_SC_STATUS_LOF
  | 3 => FRM_SC_STATUS_LOM
  | 4 => FRM_SC_STATUS_BDI
  | _ => FRM_SC_STATUS_IDLE

/-- Alignment stops with the receive arm; its defects read 0 (R232). -/
def frmStop (s : State) (d i : Nat) : State :=
  let s := (s.modFrm d i fun _ => {}).loseSync d i
  let s := ((s.wr FRM_SC_STATUS_ALIGN d 0 i).wr FRM_SC_STATUS_MF d 0 i).wr FRM_SC_STATUS_CANDIDATES d 0 i
  [1, 2, 3, 4, 5].foldl (fun (t : State) n => t.wr (defectFld n) d 0 i) s

/-- Start a receive arm and its alignment (R148, R228). -/
def rxStart (s : State) (d i : Nat) : State := (s.startArm d i).frmStart d i

/-- Wake a receive arm and start its alignment (R149, R231). Log entry 36 DEDUCED. -/
def rxWake (s : State) (d i : Nat) : State := (s.wakeArm d i).frmStart d i

/-- Stop a receive arm and its alignment. -/
def rxStop (s : State) (d i : Nat) (retain : Bool) : State := (s.stopArm d i retain).frmStop d i

/-- The FAS metric reaches HUNT_TH (R227). -/
def fasMatches (s : State) (d : Nat) (m : ℚ) : Bool := decide ((s.rd FRM_CTRL_HUNT_TH d : ℚ) / 256 ≤ m)

/-! ### Alignment (R228 to R230) -/

/-- The index of the candidate with the lowest last metric. -/
def weakest (cs : List Cand) : Nat :=
  (cs.zipIdx.foldl (fun (b : Nat × ℚ) c =>
    if c.1.metrics.headD 0 < b.2 then (c.2, c.1.metrics.headD 0) else b) (0, (cs.map fun c => c.metrics.headD 0).headD 0)).1

/-- The metrics at the 33 positions from 16 periods before to 16 after one, whose symbols are given (R228). -/
def peakMetrics (rx : List Vec2) : List ℚ := (List.range 33).map fun k => fasMetric ((rx.drop k).take 32)

/-- A peak while hunting (R228). -/
def fasPeak (s : State) (d i pos : Nat) (m : ℚ) : State :=
  if !(s.align d i == 1 || s.align d i == 2) || !s.fasMatches d m || !s.flag CNV_STATUS_SCLK_LOCK d then s
  else
    let cs := (s.frmArm d i).cands
    let c : Cand := { pos := pos, count := 1, metrics := [m] }
    if cs.length < 4 then s.setCands d i (cs ++ [c])
    else
      let w := weakest cs
      if ((cs.getD w c).metrics.headD 0) < m then s.setCands d i (cs.set w c) else s

/-- The headers of a candidate's last 3 superframes continue one another (R229); the last stands first. -/
def consistent (hs : List (Option (Nat × Nat))) : Bool :=
  match hs with
  | some c :: some b :: some a :: _ => nextFrame a == b && nextFrame b == c
  | _ => false

/-- A candidate ranks before another (R229). Log entry 36 DEDUCED. -/
def candBefore (x y : Cand) : Bool :=
  let cx := consistent x.heads
  let cy := consistent y.heads
  let mx := (x.metrics.take 3).sum
  let my := (y.metrics.take 3).sum
  (cx && !cy) || (cx == cy && (decide (my < mx) || (decide (mx = my) && decide (x.pos < y.pos))))

/-- The arm goes in frame on a candidate (R229, R230). -/
def enterFrame (s : State) (d i : Nat) (c : Cand) : State :=
  let ok := consistent c.heads
  let last := (c.heads.filterMap id).headD (0, 0)
  let s := s.modFrm d i fun a =>
    { a with cands := [], pos := c.pos, fasRun := 0, sf := last.1, mfc := last.2, goodRun := if ok then 3 else 0
             badRun := 0, broke := none }
  let s := (s.wr FRM_SC_STATUS_CANDIDATES d 0 i).wr FRM_SC_STATUS_ALIGN d 3 i
  s.wr FRM_SC_STATUS_MF d (if ok then 2 else 1) i

/-- The candidates of a superframe are checked (R228, R229); their headers that fail are counted (R221). -/
def checkCands (s : State) (d i : Nat) (checks : List CandCheck) : State :=
  if s.align d i ≠ 2 ∨ !s.flag CNV_STATUS_SCLK_LOCK d then s
  else
    let cs := (s.frmArm d i).cands.filterMap fun c =>
      match checks.find? fun k => (k.pos : Nat) == c.pos with
      | none => some c
      | some k =>
        let m := fasMetric k.fas
        if s.fasMatches d m then
          some { c with count := c.count + 1, metrics := m :: c.metrics
                        heads := ((candHeader k).map fun h => (h.sf, h.mfc)) :: c.heads }
        else none
    let bad := (s.frmArm d i).cands.filter fun c =>
      checks.any fun k => (k.pos : Nat) == c.pos && s.fasMatches d (fasMetric k.fas) && (candHeader k).isNone
    let s := if bad.isEmpty then s else s.count FRM_OH_ERR_COUNT d bad.length i
    match (cs.filter fun c => decide (3 ≤ c.count)) with
    | [] => s.setCands d i cs
    | c :: rest => s.enterFrame d i (rest.foldl (fun b x => if candBefore x b then x else b) c)

/-- The FAS check of an arm in frame (R228). -/
def checkFas (s : State) (d i : Nat) (m : ℚ) : State :=
  if s.align d i ≠ 3 ∨ !s.flag CNV_STATUS_SCLK_LOCK d then s
  else if s.fasMatches d m then s.modFrm d i fun a => { a with fasRun := 0 }
  else
    let n := (s.frmArm d i).fasRun + 1
    let s := (s.count FRM_FAS_ERR_COUNT d 1 i).modFrm d i fun a => { a with fasRun := n }
    if n = 5 then s.frmLose d i else s

/-- The multiframe count after a superframe whose header was good, or failed (R230). -/
def countFrame (s : State) (d i : Nat) (h : Option (Nat × Nat)) : State :=
  let a := s.frmArm d i
  let want := nextFrame (a.sf, a.mfc)
  let mf := s.rd FRM_SC_STATUS_MF d i
  match h with
  | some p =>
    if p = want then
      let s := s.modFrm d i fun x =>
        { x with sf := p.1, mfc := p.2, goodRun := x.goodRun + 1, badRun := 0, broke := none }
      if mf = 1 ∧ 2 ≤ a.goodRun + 1 then s.wr FRM_SC_STATUS_MF d 2 i else s
    else
      let second := a.broke.isSome
      let s := s.modFrm d i fun x =>
        { x with sf := if second then p.1 else want.1, mfc := if second then p.2 else want.2
                 goodRun := if second then b2n ((a.broke.map nextFrame) == some p) + 1 else 0, badRun := x.badRun + 1, broke := if second then none else some p }
      if (a.broke.map nextFrame) = some p ∧ mf = 1 then (s.wr FRM_SC_STATUS_MF d 2 i).modFrm d i fun x => { x with badRun := 0 }
      else if mf = 2 ∧ 5 ≤ a.badRun + 1 then s.wr FRM_SC_STATUS_MF d 1 i
      else s
  | none =>
    let s := s.modFrm d i fun x =>
      { x with sf := want.1, mfc := want.2, goodRun := 0, badRun := x.badRun + 1
               broke := none }
    if mf = 2 ∧ 5 ≤ a.badRun + 1 then s.wr FRM_SC_STATUS_MF d 1 i else s

/-- A superframe whose header read is suspended counts neither way; the arm keeps counting on (R231). -/
def suspendedFrame (s : State) (d i : Nat) : State :=
  s.modFrm d i fun a =>
    { a with sf := (nextFrame (a.sf, a.mfc)).1, mfc := (nextFrame (a.sf, a.mfc)).2, broke := a.broke.map nextFrame }

/-- The fields of a good header that the subcarrier keeps (R220, R225). -/
def takeHeader (s : State) (d i : Nat) (h : Header) : State :=
  let s := (s.count FRM_REI_COUNT d h.rei i).wr FRM_SC_STATUS_REI_LAST d h.rei i
  let s := (s.wrb FRM_SC_STATUS_BDI_RX d h.bdi i).wrb FRM_SC_STATUS_PT_RX d h.pt i
  s.modFrm d i fun a => { a with sbip := some h.sbip }

/-! ### Defects (R232, R233) -/

/-- One sample of a defect: the runs with and without the raw condition, and whether it is declared. The first sample of a
run stands at time 0, later ones 4.096 µs apart (log entry 33); times in 0.1 ms. -/
def defectStep (raw declared : Bool) (nRaw nClear set_ clear_ : Nat) : Nat × Nat × Bool :=
  if raw then
    let n := nRaw + 1
    (n, 0, declared || decide (set_ * 100000 ≤ (n - 1) * 4096))
  else
    let n := nClear + 1
    (0, n, declared && !decide (clear_ * 100000 ≤ (n - 1) * 4096))

/-- One sample of defect n of an arm (n = 0 with i = 8: LOS of the die). Log entry 33 DEDUCED. -/
def sampleDefect (s : State) (d i n : Nat) (raw : Bool) : State :=
  let a := s.frmArm d i
  let fld := if n = 0 then FRM_STATUS_LOS else defectFld n
  let k := if n = 0 then 0 else i
  let was := s.flag fld d k
  let r := defectStep raw was (a.raw.getD n 0) (a.clear.getD n 0) (s.rd FRM_INTEG_SET d n) (s.rd FRM_INTEG_CLEAR d n)
  let pad := fun (xs : List Nat) => (List.range 6).map fun j => xs.getD j 0
  let s := s.modFrm d i fun x => { x with raw := (pad x.raw).set n r.1, clear := (pad x.clear).set n r.2.1 }
  if r.2.2 = was then s
  else
    let s := s.wrb fld d r.2.2 k
    if n = 0 then s.raise FRM_EVENT_LOS_CHG d else s.raise FRM_EVENT_DEF_CHG d (2 ^ i)

/-- Firmware's reason for a backward indication on a subcarrier (R234): LOS on the slice, or LOF, LOM or LOL on it. -/
def backward (s : State) (d i : Nat) : Bool :=
  s.flag FRM_STATUS_LOS d || s.flag FRM_SC_STATUS_LOF d i || s.flag FRM_SC_STATUS_LOM d i || s.flag FRM_SC_STATUS_LOL d i

/-- The receive plan maps a flow slot on a subcarrier (R233, IDLE). -/
def rxSlotMapped (s : State) (d i : Nat) : Bool :=
  (List.range 24).any fun k => s.flag FLW_RX_SLOT_VALID d (24 * i + k)

/-- The samples of one superframe boundary of a die: LOS, then the defects of each enabled arm, and what firmware writes on a
change (R234). Log entries 34 DEDUCED, 173 DESIGN CHOICE. -/
def sampleDefects (s : State) (d power : Nat) (lock : Nat) : State :=
  let any := (List.range 8).any fun i => s.rxOn d i
  let los := any && (decide (s.rd FRM_CTRL_LOS_TH d < power) || !s.flag CNV_STATUS_SCLK_LOCK d)
  let before := (List.range 8).map (s.backward d)
  let s := (s.wrb FRM_STATUS_LOS_RAW d los).sampleDefect d 8 0 los
  let s := s.forEach (List.range 8) fun t i =>
    let on := bit lock i && t.rxOn d i && (t.rxState d i != 0 && t.rxState d i != 5 && t.rxState d i != 4)
    t.modRx d i fun a =>
      { a with locked := on, unlockRun := if on then 0 else a.unlockRun + 1, snrs := if on then a.snrs else [] }
  let s := s.refreshLocked d
  let s := s.forEach (List.range 8) fun t i =>
    if !t.rxOn d i || t.align d i == 0 then t
    else
      let al := t.align d i
      let t := t.sampleDefect d i 1 (!bit lock i)
      let t := t.sampleDefect d i 2 (al != 3)
      let t := t.sampleDefect d i 3 (al == 3 && t.rd FRM_SC_STATUS_MF d i == 1)
      let t := t.sampleDefect d i 4 (t.flag FRM_SC_STATUS_BDI_RX d i)
      t.sampleDefect d i 5 (!t.flag FRM_SC_STATUS_PT_RX d i && t.rxSlotMapped d i)
  s.forEach (List.range 8) fun t i =>
    if t.backward d i = before.getD i false then t else t.wrBit FRM_BDI_TX_BDI d i (t.backward d i)

/-! ### Line time transfer (R246, R247); times in 2^−16 ns -/

/-- The selected subcarrier as die and local index (R247). -/
def ttSelected (s : State) (d : Nat) : Option (Nat × Nat) :=
  if s.flag FRM_TT_CTRL_AUTO_SC d then
    ((s.teamDies d).flatMap fun e => (List.range 8).filterMap fun i =>
      if s.rxState e i = 3 then some (e, i) else none).head?
  else
    let g := s.rd FRM_TT_CTRL_SC d
    let e := s.teamBase d + g / 8
    if g / 8 < s.teamSize d ∧ s.rxState e (g % 8) = 3 then some (e, g % 8) else none

/-- Publish a time-transfer result: delay and offset (R247). -/
def publishTt (s : State) (d g : Nat) (delay offset : Int) : State :=
  let sec : Int := 65536 * 1000000000
  let s := s.wrS FRM_TT_OFS_S_SECONDS d (offset / sec)
  let r := (offset % sec).toNat
  let s := (s.wr FRM_TT_OFS_NS_NS d (r / 65536)).wr FRM_TT_OFS_FRAC_FRAC d r
  let s := s.wrS FRM_TT_DELAY_DELAY d (Arith.round ((delay : ℚ) / 256))
  let s := (s.wr FRM_TT_STATUS_SC d g).wr FRM_TT_STATUS_VALID d 1
  (s.wr FRM_TT_STATUS_SEQ d (s.rd FRM_TT_STATUS_SEQ d + 1)).raise FRM_EVENT_TT_UPDATE d

end State

/-! ### Meanings -/

/-- RX_ARM_START (R148, R162, R231): only an enabled arm starts. -/
def execRxArmStart (die sc : Fin 8) (s : State) : Host.Outcome State Fault Refusal :=
  runDie s die fun s => if s.rxOn die sc then s.rxStart die sc else s

/-- RX_ARM_WAKE (R149): an enabled arm that is dormant with retained state, or holding. -/
def execRxArmWake (die sc : Fin 8) (s : State) : Host.Outcome State Fault Refusal :=
  runDie s die fun s =>
    if !s.rxOn die sc || !s.flag CNV_STATUS_SCLK_LOCK die then s
    else if s.rxState die sc = 5 then s.rxWake die sc
    else if s.rxState die sc = 4 then s.wakeArm die sc
    else s

/-- FAS_PEAK (R227, R228): the symbols from 16 periods before the position on, 64 of them. The position is a peak when no
metric within ±16 periods is higher than its own. -/
def execFasPeak (die sc : Fin 8) (pos : Fin 65536) (rx : List Vec2) (s : State) : Host.Outcome State Fault Refusal :=
  runDie s die fun s =>
    let m := (State.peakMetrics rx).getD 16 0
    if (State.peakMetrics rx).all fun x => decide (x ≤ m) then s.fasPeak die sc pos m else s

/-- CANDIDATE_CHECK (R228, R229): the candidates of the arm that are due in one superframe. -/
def execCandidateCheck (die sc : Fin 8) (checks : List CandCheck) (s : State) : Host.Outcome State Fault Refusal :=
  runDie s die fun s => s.checkCands die sc checks

/-- IN_FRAME_FAS_CHECK (R228). -/
def execInFrameFasCheck (die sc : Fin 8) (fas : List Vec2) (s : State) : Host.Outcome State Fault Refusal :=
  runDie s die fun s => s.checkFas die sc (fasMetric fas)

/-- SBIP_COMPARE (R225): the parity over the stream bits of the decoded superframe against the SBIP of the header after
it. -/
def execSbipCompare (die sc : Fin 8) (bits : List Bool) (s : State) : Host.Outcome State Fault Refusal :=
  runDie s die fun s =>
    match (s.frmArm die sc).sbip with
    | some b =>
      let n := bitsDiffer (bip8 bits) b
      (s.count FRM_SBIP_ERR_COUNT die n sc).modFrm die sc fun a => { a with reiTx := n, sbip := none }
    | none => s.modFrm die sc fun a => { a with reiTx := 0 }

/-- DEFECT_SAMPLE (R156, R232, R233): the ADC input power in 0.5 dB below full scale and the subcarriers whose pilot SNR was
at least 0 dB over the superframe. -/
def execDefectSample (die : Fin 8) (power : Nat) (lock : BitVec 8) (s : State) : Host.Outcome State Fault Refusal :=
  runDie s die fun s => s.sampleDefects die power lock.toNat

end Sys2Proof.Machine
end

