-- ==== Sys2Proof/Machine/Transmit.lean ====
section
/-! DEFINITION. The transmit path (spec/06): pre-compensation sets, corrections, level, tilt and frequency trim, and the life
of a transmit arm. -/
namespace Sys2Proof.Machine
open Sys2Proof

/-! ### Pre-compensation and corrections (R180 to R182) -/

/-- The key of a word of a pre-compensation set: set 0 A, 1 B; kind 0 look-up table, 1 FIR; path; entry or tap. -/
def lutKey (d set kind c x : Nat) : Key := { dom := 0, inst := d, blk := 5, reg := set, lo := 4 * kind + c, idx := x }

/-- Reset contents: the identity table, and 1.0 at tap 16. -/
def lutReset (kind x : Nat) : Nat := if kind = 0 then x else if x = 16 then 1024 else 0

/-- The FIR output of the last 33 samples, newest first (R180). -/
def firOut (taps : List Int) (xs : List ℚ) : ℚ := ((taps.zip xs).map fun p => (p.1 : ℚ) / 1024 * p.2).sum

/-- The table input: the FIR output rounded and saturated to a signed 10-bit value, and whether it saturated. -/
def lutIndex (x : ℚ) : Int × Bool :=
  let v := Arith.round x
  (clampInt (-512) 511 v, decide (v < -512 ∨ 511 < v))

namespace State

/-- A word of a pre-compensation set. -/
def lutRd (s : State) (d set kind c x : Nat) : Nat := s.lut.get (lutReset kind x) (lutKey d set kind c x)

/-- Write a word of a pre-compensation set: 10 bits of table, 12 bits of tap. -/
def lutWr (s : State) (d set kind c x v : Nat) : State :=
  { s with lut := s.lut.set (lutReset kind x) (lutKey d set kind c x) (v % 2 ^ (if kind = 0 then 10 else 12)) }

/-- Copy a whole pre-compensation set over the other. -/
def copyLut (s : State) (d src dst : Nat) : State :=
  let t := { s with lut := s.lut.keep fun k => !(k.inst == d && k.reg == dst) }
  t.forEach (s.lut.keep fun k => k.inst == d && k.reg == src) fun t e =>
    t.lutWr d dst (e.1.lo / 4) (e.1.lo % 4) e.1.idx e.2

/-- What a table word does to a FIR output, as the active set has it (R181). -/
def lutOut (s : State) (d c : Nat) (x : ℚ) : Int × Bool :=
  let i := lutIndex x
  if s.flag TXD_LUT_CTRL_BYPASS d then i
  else (toSigned 10 (s.lutRd d (s.rd TXD_LUT_CTRL_ACTIVE_SET d) 0 c (ofSigned 10 i.1)), i.2)

/-! ### Arms -/

/-- The transmit front end of a die. -/
def txDie (s : State) (d : Nat) : TxDie := s.txDies.get {} (unitKey d 0)

/-- Change a transmit front end. -/
def modTxDie (s : State) (d : Nat) (f : TxDie → TxDie) : State :=
  { s with txDies := s.txDies.set {} (unitKey d 0) (f (s.txDie d)) }

/-- The transmit arm of a subcarrier. -/
def txArm (s : State) (d i : Nat) : TxArm := s.txArms.get {} (unitKey d i)

/-- Change a transmit arm. -/
def modTx (s : State) (d i : Nat) (f : TxArm → TxArm) : State :=
  { s with txArms := s.txArms.set {} (unitKey d i) (f (s.txArm d i)) }

/-- STATE of a transmit arm: 0 off, 1 powering, 2 ready, 3 sending, 4 dormant with retained state. -/
def txState (s : State) (d i : Nat) : Nat := s.rd TXD_SC_STATUS_STATE d i

/-- The transmit arm is enabled. -/
def txOn (s : State) (d i : Nat) : Bool := bit (s.rd TXD_CTRL_SC_EN d) i

/-- Show the constellation in use and whether the matcher is bypassed (R170, R172). -/
def showFormat (s : State) (d i : Nat) : State :=
  if s.txState d i = 0 then (s.wr TXD_SC_STATUS_CONST d 0 i).wr TXD_SC_STATUS_BYPASSED d 0 i
  else
    let h := s.rd TXD_SC_CFG_H d i
    let c := (resolveConst (s.flag TXD_SC_CFG_CLASS d i) (s.rd TXD_SC_CFG_CONST d i) h).getD 0
    (s.wr TXD_SC_STATUS_CONST d c i).wrb TXD_SC_STATUS_BYPASSED d (isUniform c h) i

/-- Set STATE of a transmit arm; its stream runs while it sends (R192). On a die that is held idle no arm starts (R51). -/
def setTxState (s : State) (d i v : Nat) : State :=
  if s.heldIdle d && (v == 1 || v == 2 || v == 3) then s else ((s.wr TXD_SC_STATUS_STATE d v i).showFormat d i).wrb FEC_SC_STATUS_TX_RUN d (v == 3) i

/-- The power manager powers an arm at GO (R184, step 1). -/
def txPower (s : State) (d i : Nat) : State :=
  let old := s.txState d i
  if old = 3 ∨ old = 1 ∨ old = 2 then s
  else (s.setTxState d i 1).modTx d i fun a => { a with before := old, due := false, waking := true }

/-- A wake that does not happen: the arm returns to the state before the transaction (R184). -/
def txReturn (s : State) (d i : Nat) : State :=
  let a := s.txArm d i
  if a.waking then (s.setTxState d i a.before).modTx d i fun a => { a with waking := false, due := false } else s

/-- Take an arm out of service from the first symbol of M (R185). -/
def txStop (s : State) (d i : Nat) (retain : Bool) : State :=
  (s.setTxState d i (if retain then 4 else 0)).modTx d i fun a => { a with waking := false, due := false }

/-- M has begun: an arm that is not ready starts late (R184). -/
def txMark (s : State) (d : Nat) : State :=
  s.forEach (List.range 8) fun t i => if t.txState d i = 1 then t.modTx d i fun a => { a with due := true } else t

/-- The sampling reference is lost: a wake in progress starts late (R186). Log entry 98 DEDUCED. -/
def txHold (s : State) (d : Nat) : State :=
  s.forEach (List.range 8) fun t i =>
    if t.txState d i = 1 ∨ t.txState d i = 2 then t.modTx d i fun a => { a with due := true } else t

/-! ### Level and tilt (R178, R179), in 0.05 dB -/

/-- Show the applied level and tilt of a die. Log entry 27 DESIGN CHOICE. -/
def showLevels (s : State) (d : Nat) : State :=
  let s := s.wr TXD_LEVEL_APPLIED d ((s.txDie d).level / 2)
  s.forEach (List.range 8) fun t i => t.wrS TXD_SC_TILT_APPLIED d ((t.txArm d i).tilt / 2) i

/-- Apply level and tilt at once where every subcarrier concerned is off or dormant (R179, R186). -/
def levelsAtOnce (s : State) (d : Nat) : State :=
  let dark (t : State) (i : Nat) : Bool := t.txState d i == 0 || t.txState d i == 4
  let s := if (List.range 8).all (dark s) then s.modTxDie d fun x => { x with level := 2 * s.rd TXD_LEVEL_LEVEL d } else s
  let s := s.forEach (List.range 8) fun t i =>
    if !dark t i then t else t.modTx d i fun a => { a with tilt := 2 * t.rdS TXD_SC_TILT_TILT d i }
  s.showLevels d

/-- One multiframe of the ramps. Log entry 27 DESIGN CHOICE. -/
def levelStep (s : State) (d : Nat) : State :=
  let target := 2 * s.rd TXD_LEVEL_LEVEL d
  let s := s.modTxDie d fun x =>
    { x with level := if x.level < target then x.level + 1 else if target < x.level then x.level - 1 else x.level }
  let s := s.forEach (List.range 8) fun t i =>
    t.modTx d i fun a => { a with tilt := slewStep a.tilt (2 * t.rdS TXD_SC_TILT_TILT d i) }
  s.levelsAtOnce d

/-- The correction registers as words. -/
def txIqWord (s : State) (d : Nat) : Nat :=
  s.eventWord [TXD_IQ_Y_PHASE, TXD_IQ_Y_GAIN, TXD_IQ_X_PHASE, TXD_IQ_X_GAIN] d
def txFineSkewWord (s : State) (d : Nat) : Nat :=
  s.eventWord [TXD_SKEW_YQ, TXD_SKEW_YI, TXD_SKEW_XQ, TXD_SKEW_XI] d

/-- A write of a pre-compensation window (R113, R181): only the owner writes the inactive set, and not while a switch is
pending; the active set refuses every write. -/
def lutWindowWrite (s : State) (d : Nat) (byHost active : Bool) (kind c x v : Nat) : State :=
  if active then s.refuseAccess
  else if s.flag TXD_LUT_CTRL_OWNER d != byHost || s.flag TXD_LUT_CTRL_SWITCH_PENDING d then
    (s.raise TXD_LUT_CTRL_WR_ERR d).refuseAccess
  else (s.lutWr d (1 - s.rd TXD_LUT_CTRL_ACTIVE_SET d) kind c x v).respond 0

/-- The pre-compensation sets swap whole: with COPY_BACK the inactive one becomes a copy, and OWNER of a held write applies
(R113, R181). -/
def endLutSwitch (s : State) (d : Nat) : State :=
  let a := 1 - s.rd TXD_LUT_CTRL_ACTIVE_SET d
  let s := s.wr TXD_LUT_CTRL_ACTIVE_SET d a
  let s := if s.flag TXD_LUT_CTRL_COPY_BACK d then s.copyLut d a (1 - a) else s
  let s := s.wr TXD_LUT_CTRL_SWITCH_PENDING d 0
  match (s.txDie d).ownerNext with
  | some o => (s.wrb TXD_LUT_CTRL_OWNER d o).modTxDie d fun x => { x with ownerNext := none }
  | none => s

end State

/-! ### Meanings -/

/-- TX_ARM_READY (R184, step 2). -/
def execTxArmReady (die sc : Fin 8) (s : State) : Host.Outcome State Fault Refusal :=
  runDie s die fun s => if s.txState die sc = 1 then s.setTxState die sc 2 else s

/-- FREQ_TRIM_STEP (R177). -/
def execFreqTrimStep (die : Fin 8) (s : State) : Host.Outcome State Fault Refusal :=
  runDie s die fun s =>
    let now := s.rdS TXD_FREQ_TRIM_APPLIED die
    let next := slewStep now (s.rdS TXD_FREQ_TRIM_TRIM die)
    if next = now then s else (s.wrS TXD_FREQ_TRIM_APPLIED die next).raise TXD_EVENT_TRIM_SLEW die

/-- LEVEL_RAMP_STEP (R179). -/
def execLevelRampStep (die : Fin 8) (s : State) : Host.Outcome State Fault Refusal :=
  runDie s die fun s => s.levelStep die

/-- LUT_SWITCH (R113, R181): the write's OWNER applies at once, or after a pending switch. -/
def execLutSwitch (die : Fin 8) (copyBack owner : Bool) (s : State) : Host.Outcome State Fault Refusal :=
  runDie s die fun s =>
    let s := s.wrb TXD_LUT_CTRL_COPY_BACK die copyBack
    if s.flag TXD_LUT_CTRL_SWITCH_PENDING die then
      (s.raise TXD_EVENT_LUT_SWITCH_ERR die).modTxDie die fun x => { x with ownerNext := some owner }
    else (s.wrb TXD_LUT_CTRL_OWNER die owner).wr TXD_LUT_CTRL_SWITCH_PENDING die 1

/-- LUT_SWAP (R113, R181): the sets swap whole; without lock the swap waits. -/
def execLutSwap (die : Fin 8) (s : State) : Host.Outcome State Fault Refusal :=
  runDie s die fun s =>
    if s.flag TXD_LUT_CTRL_SWITCH_PENDING die && s.flag CNV_STATUS_SCLK_LOCK die then s.endLutSwitch die else s

end Sys2Proof.Machine
end

