-- ==== Sys2Proof/Machine/Flows.lean ====
section
/-! DEFINITION. Flows, encryption and check values (spec/09): slot tables, flow frames, path monitoring, keys and check-value
units. -/
namespace Sys2Proof.Machine
open Sys2Proof

/-! ### Polynomials (R267) -/

/-- Width, polynomial (reflected where the table says so), initial value, reflected, final XOR. -/
def polyOf (p : Nat) : Nat × Nat × Nat × Bool × Nat :=
  match p with
  | 0 => (32, 0xEDB88320, 0xFFFFFFFF, true, 0xFFFFFFFF)
  | 1 => (32, 0x82F63B78, 0xFFFFFFFF, true, 0xFFFFFFFF)
  | 2 => (16, 0x1021, 0xFFFF, false, 0)
  | _ => (8, 0x07, 0x00, false, 0)

/-- The running value after some bits in flow order (R268). -/
def crcRun (p start : Nat) (bits : List Bool) : Nat :=
  let q := polyOf p
  bits.foldl (fun c b => if q.2.2.2.1 then crcLsbBit q.2.1 c b else crcMsbBit q.1 q.2.1 c b) start

/-- The value of a span from its running value. -/
def crcFinal (p run : Nat) : Nat := run ^^^ (polyOf p).2.2.2.2

/-- The initial running value. -/
def crcInit (p : Nat) : Nat := (polyOf p).2.2.1

/-- The check block that carries a value (R268): 257 bits, least significant bit first for reflected polynomials. -/
def checkBlock (p v : Nat) : List Bool :=
  let q := polyOf p
  ((List.range q.1).map fun i => if q.2.2.2.1 then bit v i else bit v (q.1 - 1 - i)) ++ List.replicate (257 - q.1) false

/-- The value of the span's bits from the first block. -/
def spanValue (p : Nat) (bs : List (List Bool)) : Nat := crcFinal p (crcRun p (crcInit p) bs.flatten)

/-! ### Frames (R250 to R254) -/

/-- Bits of the data area of a frame of `words` words. -/
def dataBits (words : Nat) : Nat := 80 * (words - 4)

/-- Block positions of a data area. -/
def positions (a : Nat) : Nat := a / 257

/-- Position j of P carries a block when N of them do (R254). -/
def carriesBlock (p n j : Nat) : Bool := decide ((j + 1) * n % p < n)

/-- Lay blocks out in a data area of `a` bits, fill as zeros. -/
def layOut (a p n : Nat) : Nat → Nat → List (List Bool) → List Bool
  | 0, _, _ => List.replicate (a - 257 * p) false
  | k + 1, j, bs =>
    if carriesBlock p n j then (bs.headD []) ++ layOut a p n k (j + 1) (bs.drop 1)
    else List.replicate 257 false ++ layOut a p n k (j + 1) bs

/-- The blocks of a data area with their positions. Log entry 39 DEDUCED. -/
def takeBlocks (p n : Nat) (bits : List Bool) : List (Nat × List Bool) :=
  (List.range p).filterMap fun j => if carriesBlock p n j then some (j, (bits.drop (257 * j)).take 257) else none

/-- The frame words whose bits position j of the data area takes (R254): the POH is the first four words. -/
def wordsOfBlock (j : Nat) : List Nat := List.range' (4 + 257 * j / 80) ((257 * j + 256) / 80 + 1 - 257 * j / 80)

/-- The block positions that bits with the errored mark touch, for the frame words that carry it (R208, R259). -/
def erroredBlocks (p : Nat) (words : List Nat) : List Nat :=
  (List.range p).filter fun j => (wordsOfBlock j).any words.contains

/-- Bits as bytes, first bit most significant, and back. -/
def packBits (bits : List Bool) : List Byte :=
  (List.range (bits.length / 8)).map fun i =>
    BitVec.ofNat 8 (((bits.drop (8 * i)).take 8).foldl (fun a b => 2 * a + b2n b) 0)
def unpackBits (bs : List Byte) : List Bool := bs.flatMap fun b => (List.range 8).map fun i => b.toNat.testBit (7 - i)

/-- An error block (R281): four control blocks of type 0x1E with eight error characters. Bit 0 is 0, the next four mark
control blocks, and the first block type is shortened to its first four bits in the transcoding of IEEE 802.3, whose text
the spec does not hold; the block is kept here as its four 64-bit payloads behind the marks.
Log entry 153 DESIGN CHOICE. -/
def errorBlock : List Bool :=
  let ctl := unpackBits [0x1E] ++ (List.range 56).map fun i => [false, false, true, true, true, true, false].getD (i % 7) false
  (false :: List.replicate 4 false ++ (ctl ++ ctl ++ ctl ++ ctl)).take 257

/-- Path overhead (R253). -/
structure Poh where
  id   : Nat
  kp   : Bool
  enc  : Bool
  fbdi : Bool
  csf  : Bool
  rei  : Nat
  kfc  : Nat
  nb   : Nat
  pbip : Nat
  tag  : List Byte
deriving DecidableEq, Repr

/-- Bytes 0 to 37 of a POH. -/
def Poh.body (h : Poh) : List Byte :=
  bytesBE 2 h.id ++ bytesBE 1 (128 * b2n h.kp + 64 * b2n h.enc + 32 * b2n h.fbdi + 16 * b2n h.csf) ++
  bytesBE 1 (16 * h.rei) ++ bytesBE 6 h.kfc ++ bytesBE 4 h.nb ++ bytesBE 1 h.pbip ++ [0] ++
  h.tag.take 16 ++ List.replicate (16 - h.tag.length) 0 ++ List.replicate 6 0

/-- A POH with its CRC. -/
def Poh.encode (h : Poh) : List Byte := h.body ++ bytesBE 2 (crc16 h.body)

/-- Read a POH, none when its CRC fails. -/
def Poh.parse (bs : List Byte) : Option Poh :=
  if bs.length = 40 ∧ beAt bs 38 2 = crc16 (bs.take 38) then
    let f := beAt bs 2 1
    some { id := beAt bs 0 2, kp := bit f 7, enc := bit f 6, fbdi := bit f 5, csf := bit f 4, rei := beAt bs 3 1 / 16
           kfc := beAt bs 4 6, nb := beAt bs 10 4, pbip := beAt bs 14 1, tag := (bs.drop 16).take 16 }
  else none

/-- The initialisation vector of a frame (R263). -/
def frameIv (id : Nat) (dir : Bool) (kfc : Nat) : List Byte :=
  bytesBE 2 id ++ bytesBE 1 (b2n dir) ++ [0, 0, 0] ++ bytesBE 6 kfc

/-! ### Key wrap (R264) -/

/-- The key-encryption key of an OTP image key given as words, lowest first. -/
def kekOf (image : List Nat) : List Byte :=
  let k := image.flatMap (bytesLE 4)
  Crypto.aesEnc k (0x01 :: List.replicate 15 0) ++ Crypto.aesEnc k (0x02 :: List.replicate 15 0)

/-- Exclusive or of a number into the last bytes of a block. -/
def xorNum (bs : List Byte) (t : Nat) : List Byte := bytesBE 8 (natBE bs ^^^ t)

/-- AES key unwrap of RFC 3394 for n half-blocks: steps from t = 6n down to 1 over A and the half-blocks R. -/
def unwrapSteps (kek : List Byte) (n : Nat) : Nat → List Byte → List (List Byte) → List Byte × List (List Byte)
  | 0, a, r => (a, r)
  | t + 1, a, r =>
    let i := t % n
    let b := Crypto.aesDec kek (xorNum a (t + 1) ++ r.getD i [])
    unwrapSteps kek n t (b.take 8) (r.set i (b.drop 8))

/-- Unwrap a 40-byte wrapped key, none when the integrity check fails. Log entry 6 PRESUMED. -/
def keyUnwrap (kek wrapped : List Byte) : Option (List Byte) :=
  let r := (List.range 4).map fun i => (wrapped.drop (8 + 8 * i)).take 8
  let u := unwrapSteps kek 4 24 (wrapped.take 8) r
  if u.1 = List.replicate 8 0xA6 then some u.2.flatten else none

/-- The key check value: first 4 bytes of the encryption of a zero block. -/
def kcvOf (key : List Byte) : Nat := natBE ((Crypto.aesEnc key (List.replicate 16 0)).take 4)

namespace State

/-! ### Records -/

/-- A flow. -/
def flow (s : State) (d f : Nat) : FlowSt := s.flows.get {} (unitKey d f)

/-- Change a flow. -/
def modFlow (s : State) (d f : Nat) (g : FlowSt → FlowSt) : State :=
  { s with flows := s.flows.set {} (unitKey d f) (g (s.flow d f)) }

/-- A check unit. -/
def crcSt (s : State) (d u : Nat) : CrcSt := s.crc.get {} (unitKey d u)

/-- Change a check unit. -/
def modCrc (s : State) (d u : Nat) (g : CrcSt → CrcSt) : State :=
  { s with crc := s.crc.set {} (unitKey d u) (g (s.crcSt d u)) }

/-- A group runs in trunk mode. -/
def isTrunk (s : State) (d g : Nat) : Bool := s.flag HLN_GRP_CFG_MODE d g

/-- The enabled trunk group that carries a flow, or the Ethernet group that names it. -/
def flowGrp (s : State) (d f : Nat) : Option Nat :=
  if s.flag HLN_FLOW_GRP_VALID d f then
    let g := s.rd HLN_FLOW_GRP_GROUP d f
    if s.flag HLN_GRP_CFG_EN d g && s.isTrunk d g then some g else none
  else (List.range 8).find? fun g =>
    s.flag HLN_GRP_CFG_EN d g && !s.isTrunk d g && s.rd HLN_GRP_CFG_FLOW d g == f

/-! ### Slots (R249) -/

/-- The global slots of the team that name a flow, as die and table entry, ascending. -/
def slotsNaming (s : State) (valid die_ flow_ : Fld) (d f : Nat) : List (Nat × Nat) :=
  (s.teamDies d).flatMap fun e => (List.range 192).filterMap fun k =>
    if s.flag valid e k && s.rd die_ e k == d && s.rd flow_ e k == f then some (e, k) else none

/-- A slot of a flow whose client traffic would have to cross an absent slice: it carries nothing (R33, R35). -/
def slotCut (s : State) (d : Nat) (p : Nat × Nat) : Bool := s.routeBroken d p.1

/-- The transmit and receive slots of a flow. -/
def txSlots (s : State) (d f : Nat) : List (Nat × Nat) := s.slotsNaming FLW_TX_SLOT_VALID FLW_TX_SLOT_DIE FLW_TX_SLOT_FLOW d f
def rxSlots (s : State) (d f : Nat) : List (Nat × Nat) := s.slotsNaming FLW_RX_SLOT_VALID FLW_RX_SLOT_DIE FLW_RX_SLOT_FLOW d f

/-- Show a flow's slot counts. -/
def showSlots (s : State) (d f : Nat) : State :=
  (s.wr FLW_SLOTS_TX d (s.txSlots d f).length f).wr FLW_SLOTS_RX d (s.rxSlots d f).length f

/-- Show the slot counts of every flow that a slot table of the package names or named (the entries listed). -/
def showAllSlots (s : State) : State :=
  let named := (s.regs.keep fun k => k.blk == 10 && (k.reg == 0x1000 || k.reg == 0x1400 || k.reg == 0x800C)).map fun e => e.1
  let flows := (named.flatMap fun k =>
    if k.reg = 0x800C then [(k.inst, k.idx)]
    else if k.reg = 0x1000 then [(s.rd FLW_TX_SLOT_DIE k.inst k.idx, s.rd FLW_TX_SLOT_FLOW k.inst k.idx)]
    else [(s.rd FLW_RX_SLOT_DIE k.inst k.idx, s.rd FLW_RX_SLOT_FLOW k.inst k.idx)]).dedup
  s.forEach flows fun t p => if p.1 < t.dieCount then t.showSlots p.1 p.2 else t

/-! ### Transmit containers (R250, R251) -/

/-- The subcarriers of a die that send; those among them that are express. -/
def sendingScs (s : State) (d : Nat) : List Nat := (List.range 8).filter fun i => s.txState d i == 3
def expressScs (s : State) (d : Nat) : List Nat := (s.sendingScs d).filter (s.scExpress d)

/-- The code table of a transmit stream: 0 to 7 bulk, 8 the express stream. -/
def txTable (s : State) (d n : Nat) : Option CodeTable :=
  s.table d (s.rd FEC_SC_CFG_CODE d (if n = 8 then (s.expressScs d).headD 0 else n))

/-- The transmit slots that a subcarrier offers (R30, R249). -/
def txSlotCount (s : State) (d i : Nat) : Nat :=
  match s.table d (s.rd FEC_SC_CFG_CODE d i) with
  | some t => slotCount (s.rd TXD_SC_CFG_H d i) t.netCode
  | none => 0

/-- The sending subcarriers of a transmit stream, and their existing slots as entries of the slot table, ascending (R251). -/
def streamScs (s : State) (d n : Nat) : List Nat := (s.sendingScs d).filter fun i => s.scStream d i == n
def txStreamSlots (s : State) (d n : Nat) : List Nat :=
  (s.streamScs d n).flatMap fun i => (List.range (s.txSlotCount d i)).map fun k => 24 * i + k

/-- The stream position at the start of a multiframe at the present loading. -/
def txStart (s : State) (d n mf : Nat) : Nat :=
  let x := (s.txArm d n).coding
  x.mark + (mf - x.markMf) * ((s.streamScs d n).map fun i => scBits (s.rd TXD_SC_CFG_H d i)).sum

/-- The container words of a transmit stream in the period of a multiframe, from the stream layout alone (R250). -/
def periodWords (s : State) (d n mf : Nat) : Nat :=
  match s.txTable d n with
  | some t =>
    let anchor (m : Nat) := anchorOf (n == 8) t.n t.info (s.txStart d n m)
    (anchor (mf + 1) - anchor mf) * frameWords (n == 8)
  | none => 0

/-- The words that a transmit slot of a die takes in the period of a multiframe (R251): none for a slot that does not exist,
or that the flow's home die `d` cannot reach. -/
def slotShare (s : State) (d mf : Nat) (p : Nat × Nat) : Nat :=
  let n := s.scStream p.1 (p.2 / 24)
  let slots := s.txStreamSlots p.1 n
  if slots.contains p.2 && !s.slotCut d p then shareWords slots.length (s.periodWords p.1 n mf) (slots.idxOf p.2) else 0

/-- The slot shares of a transmit direction in the period of a multiframe, ascending. -/
def flowShares (s : State) (d f mf : Nat) : List Nat := (s.txSlots d f).map (s.slotShare d mf)

/-- The words of a flow frame go to the flow's slots (R252). -/
def fillSlots (s : State) (d f mf : Nat) (words : List (List Bool)) : State :=
  s.forEach ((s.txSlots d f).zip (splitShares (s.flowShares d f mf) words)) fun t e =>
    t.modTx e.1.1 (e.1.2 / 24) fun a =>
      { a with waiting := a.waiting.set (e.1.2 % 24) (a.waiting.getD (e.1.2 % 24) [] ++ e.2) }

/-! ### Keys (R264, R265) -/

/-- Show the key slots of a flow. -/
def showKeys (s : State) (d f : Nat) : State :=
  let x := s.flow d f
  let s := (s.wrb CRY_FLOW_STATUS_RX_NEXT d x.rxNext.isSome f).wrb CRY_FLOW_STATUS_RX_CURRENT d x.rxCur.isSome f
  let s := (s.wrb CRY_FLOW_STATUS_TX_NEXT d x.txNext.isSome f).wrb CRY_FLOW_STATUS_TX_CURRENT d x.txCur.isSome f
  let s := (s.wr CRY_KCV_TX_KCV d (x.txNext.elim 0 KeySlot.kcv) f).wr CRY_KCV_RX_KCV d (x.rxNext.elim 0 KeySlot.kcv) f
  (s.wr CRY_KID_TX_KEY_ID d (x.txNext.elim 0 KeySlot.id) f).wr CRY_KID_RX_KEY_ID d (x.rxNext.elim 0 KeySlot.id) f

/-- Erase every key of a die and drop a running command (R264). -/
def eraseKeys (s : State) (d : Nat) : State :=
  let fs := (s.flows.keep fun k => k.inst == d).map fun e => e.1.idx
  let s := { s with keyJobs := s.keyJobs.erase (unitKey d 0) }
  s.forEach fs fun t f =>
    (t.modFlow d f fun x => { x with txCur := none, txNext := none, rxCur := none, rxNext := none, rxTag := none }).showKeys d f

/-- Promote the transmit key at a switch (R265): NEXT becomes CURRENT, the phase inverts and KFC restarts. -/
def promoteTx (s : State) (d f : Nat) : State :=
  let s := s.wrb CRY_FLOW_STATUS_TX_KP d (!s.flag CRY_FLOW_STATUS_TX_KP d f) f
  (s.modFlow d f fun x => { x with txCur := x.txNext, txNext := none, kfc := 0 }).showKeys d f

/-- An epoch turns ENC off: CURRENT is erased (R265). -/
def dropTxKey (s : State) (d f : Nat) : State := (s.modFlow d f fun x => { x with txCur := none }).showKeys d f

/-- The direction of a flow encrypts. Log entry 38 DEDUCED. -/
def encrypts (s : State) (d f : Nat) (rx : Bool) : Bool :=
  s.flag (if rx then CRY_FLOW_STATUS_RX_ENC else CRY_FLOW_STATUS_TX_ENC) d f

/-- The wrapped key in the window, byte 0 first. -/
def wrappedKey (s : State) (d : Nat) : List Byte :=
  (List.range 10).flatMap fun w => bytesBE 4 (s.rd CRY_KEY_DATA_DATA d w)

/-- The node identity of a die, and that of the chosen peer (0 while none is chosen). Log entry 148 DEDUCED. -/
def nodeId (s : State) (d : Nat) : Nat := s.rd BUP_NODE_ID_HI_NODE_ID d * 2 ^ 32 + s.rd BUP_NODE_ID_LO_NODE_ID d
def farNode (s : State) (d : Nat) : Nat :=
  let k := s.rd BUP_CAIRN_STATUS_CHOSEN d
  if s.flag BUP_CAIRN_STATUS_CHOSEN_VALID d then s.rd BUP_PEER_HI_NODE_ID d k * 2 ^ 32 + s.rd BUP_PEER_LO_NODE_ID d k
  else 0

/-- The direction byte of the IV is 0 for the end with the lower node identity (R263): the own identity is the higher. -/
def higherNode (s : State) (d : Nat) : Bool := decide (s.farNode d < s.nodeId d)

/-! ### Check units (R268 to R270) -/

/-- The unit bound to a flow direction in a mode. -/
def boundUnit (s : State) (d f : Nat) (rx : Bool) (mode : Nat) : Option Nat :=
  (List.range 64).find? fun u =>
    s.flag CRC_UNIT_CFG_EN d u && s.flag CRC_UNIT_CFG_DIR d u == rx && s.rd CRC_UNIT_CFG_MODE d u == mode &&
    s.rd CRC_UNIT_CFG_FLOW d u == f

/-- Take the client blocks of a frame through a bound unit, span by span: each value is latched. At most `n` spans.
Log entry 41 DEDUCED. -/
def runSpans (s : State) (d u p span : Nat) : Nat → List (List Bool) → State
  | 0, _ => s
  | n + 1, bs =>
    if bs.isEmpty then s
    else
      let k := if span = 0 then bs.length else span
      let start := ((s.crcSt d u).carry).getD (crcInit p)
      let run_ := crcRun p start (bs.take k).flatten
      let s := (s.modCrc d u fun x => { x with running := run_, pos := (bs.take k).length, carry := none })
      let s := s.wr CRC_LAST_VALUE d (crcFinal p run_) u
      s.runSpans d u p span n (bs.drop k)

/-- SOFT units bound to a flow direction cover the client blocks of a frame. -/
def softUnits (s : State) (d f : Nat) (rx : Bool) (bs : List (List Bool)) : State :=
  match s.boundUnit d f rx 2 with
  | some u => s.runSpans d u (s.rd CRC_UNIT_CFG_POLY d u) (s.rd CRC_UNIT_CFG_SPAN d u) bs.length bs
  | none => s

/-- TAKE at a boundary (R270, R276): running value and span position move and the source is unbound. -/
def crcTake (s : State) (d u src : Nat) : State :=
  if s.flag CRC_UNIT_CFG_EN d src then
    let x := s.crcSt d src
    let s := s.modCrc d u fun y => { y with running := x.running, pos := x.pos, carry := x.carry }
    s.wr CRC_UNIT_CFG_EN d 0 src
  else s.raise CRC_EVENT_TAKE_ERR d

/-- EN of a check unit goes to 0 (R275): in ABORT mode a partial span is discarded. -/
def crcOff (s : State) (d u now : Nat) : State :=
  let s := (s.wr CRC_UNIT_CFG_EN d 0 u).disableUnit d 12 u (b2n ((s.crcSt d u).pos != 0)) now
  if s.disAbort d 12 then s.modCrc d u fun x => { x with running := 0, pos := 0, carry := none } else s

/-- A held configuration word takes effect: MODE 3 is stored as 2, SPAN above 64 as 64. -/
def applyCrcCfg (s : State) (d u w : Nat) : State :=
  let was := s.flag CRC_UNIT_CFG_EN d u
  let s := if bit w 31 && !was then (s.wr CRC_UNIT_CFG_EN d 1 u).enableUnit d 12 u
    else if !bit w 31 && was then s.crcOff d u s.usNow else s
  let s := s.wr CRC_UNIT_CFG_DIR d (w / 2 ^ 30) u
  let s := (s.wr CRC_UNIT_CFG_MODE d (min 2 (bitsAt w 28 2)) u).wr CRC_UNIT_CFG_POLY d (w / 2 ^ 26) u
  let s := (s.wr CRC_UNIT_CFG_FROM d (w / 2 ^ 19) u).wr CRC_UNIT_CFG_SPAN d (min 64 (bitsAt w 9 7)) u
  let s := s.wr CRC_UNIT_CFG_FLOW d w u
  if bit w 25 then s.crcTake d u (bitsAt w 19 6) else s

/-- One superframe boundary of a die's units: latch, then held writes (R270). Log entry 41 DEDUCED. -/
def crcBoundary (s : State) (d : Nat) : State :=
  let us := ((s.crc.keep fun k => k.inst == d).map fun e => e.1.idx)
  let s := s.forEach us fun t u => t.wr CRC_RUNNING_VALUE d (t.crcSt d u).running u
  s.forEach us fun t u =>
    let x := t.crcSt d u
    let t := t.modCrc d u fun y =>
      { y with heldCfg := none, heldRun := none
               running := x.heldRun.getD y.running, carry := if x.heldRun.isSome then x.heldRun else y.carry }
    match x.heldCfg with
    | some w => t.applyCrcCfg d u w
    | none => t

/-- A write of `CRC_RUNNING_u` (R270): held in SOFT mode, refused otherwise. Log entry 41 DEDUCED. -/
def crcRunningWrite (s : State) (d u v : Nat) : State :=
  if s.rd CRC_UNIT_CFG_MODE d u = 2 then (s.modCrc d u fun x => { x with heldRun := some v }).respond 0
  else s.refuseAccess

/-- A write of `CRC_UNIT_CFG_u`: held until the boundary. -/
def crcCfgWrite (s : State) (d u w : Nat) : State := (s.modCrc d u fun x => { x with heldCfg := some w }).respond 0

/-! ### Sending a frame (R252 to R254, R262, R268) -/

/-- Client blocks that fit in P positions with a check block after each span. -/
def clientFit (p span : Nat) : Nat := p - (p + span) / (span + 1)

/-- Client blocks with their check blocks: `val` gives the check block of a span. At most `n` spans. -/
def withChecks (span : Nat) (val : List (List Bool) → List Bool) : Nat → List (List Bool) → List (List Bool)
  | 0, _ => []
  | n + 1, bs => if bs.isEmpty then [] else bs.take span ++ [val (bs.take span)] ++ withChecks span val n (bs.drop span)

/-- The client blocks that the flow frame of a multiframe takes. -/
def frameRoom (s : State) (d f mf : Nat) : Nat :=
  let p := positions (dataBits (s.flowShares d f mf).sum)
  if s.flag FLW_CHK_APPEND d f then clientFit p (s.rd FLW_CHK_SPAN d f) else p

/-- Send flow frame `mf` of a transmit direction, built from its slot shares (R252). Log entries 38 DEDUCED, 39 DEDUCED. -/
def sendFrame (s : State) (d f mf : Nat) : State :=
  let x := s.flow d f
  let a := dataBits (s.flowShares d f mf).sum
  let p := positions a
  let append := s.flag FLW_CHK_APPEND d f
  let span := s.rd FLW_CHK_SPAN d f
  let poly := s.rd FLW_CHK_POLY d f
  let client := x.buffer.take (s.frameRoom d f mf)
  let unit := s.boundUnit d f false 0
  let val := fun bs => match unit with
    | some _ => checkBlock poly (spanValue poly bs)
    | none => List.replicate 257 false
  let all := if append then withChecks span val client.length client else client
  let s := s.softUnits d f false client
  let s := match append, unit with
    | true, some u => s.runSpans d u poly span client.length client
    | true, none => s.raise CRC_EVENT_UNBOUND d
    | false, _ => s
  let plain := packBits (layOut a p all.length p 0 all)
  let enc := s.flag FLW_CFG_ENC d f
  let id := s.rd FLW_ID_LINE_ID d f
  let poh : Poh :=
    { id := id, kp := s.flag CRY_FLOW_STATUS_TX_KP d f, enc := enc, fbdi := s.flag FLW_CFG_FBDI_TX d f
      csf := s.flag FLW_CFG_CSF_TX d f, rei := x.reiTx, kfc := x.kfc, nb := all.length, pbip := x.txBip, tag := x.txTag }
  let key := x.txCur.elim [] KeySlot.key
  let iv := frameIv id (s.higherNode d) x.kfc
  let data := if enc then Crypto.gcmCtr key iv plain else plain
  let tag := if enc then Crypto.gcmTag key iv (poh.encode.take 14) data else []
  let s := if enc && x.txCur.isNone then (s.count CRY_KEY_MISS_COUNT d 1 f).raise CRY_EVENT_KEY_MISS d else s
  let s := s.wrb CRY_FLOW_STATUS_TX_ENC d enc f
  let s := s.modFlow d f fun y =>
    { y with buffer := y.buffer.drop client.length, kfc := (y.kfc + 1) % 2 ^ 48, txBip := bip8 (unpackBits data)
             txTag := tag, reiTx := 0 }
  let bits := unpackBits (poh.encode ++ data)
  let s := (s.fillSlots d f mf (chunk 80 (bits.length / 80) bits)).emit (.flowFrame d f poh.encode data)
  if (s.flow d f).buffer.isEmpty then s.unitIdle d 10 (2 * f) else s

/-! ### Receiving a frame (R257 to R260, R265, R266, R269) -/

/-- Firmware's action on the capacity of a flow (R261): FBDI_TX and REPLACE follow CAP, POH and IDMM. -/
def capacityLoss (s : State) (d f : Nat) (lost : Bool) : State :=
  (s.wrb FLW_CFG_FBDI_TX d lost f).wrb FLW_CFG_REPLACE d lost f

/-- One sample of the flow defects of R260, raw conditions by bit, and what firmware does on a change (R261). Log entry 173
DESIGN CHOICE. -/
def sampleFlow (s : State) (d f : Nat) (raws : List Bool) : State :=
  let x := s.flow d f
  let set_ := s.rd FLW_DEF_INTEG_SET d
  let clr := s.rd FLW_DEF_INTEG_CLEAR d
  let was := s.rd FLW_DEF_DECLARED d f
  let rows := (List.range 7).map fun n =>
    let r := raws.getD n false
    let nr := if r then x.raw.getD n 0 + 1 else 0
    let nc := if r then 0 else x.clear.getD n 0 + 1
    (nr, nc, if r then bit was n || decide (set_ ≤ nr) else bit was n && !decide (clr ≤ nc))
  let now := rows.zipIdx.foldl (fun a e => a + b2n e.1.2.2 * 2 ^ e.2) 0
  let s := s.modFlow d f fun y => { y with raw := rows.map fun r => r.1, clear := rows.map fun r => r.2.1 }
  if now = was then s
  else
    let s := if now % 8 == 0 && was % 8 != 0 || now % 8 != 0 && was % 8 == 0 then s.capacityLoss d f (now % 8 != 0) else s
    ((s.wr FLW_DEF_DECLARED d now f).raise FLW_DEF_CHG_FLOW d (2 ^ (f % 32)) (f / 32)).raise FLW_EVENT_DEF_CHG d

/-- The raw CAP condition (R260, with R33's loss of a route across the bridges of a die that is gone); the differential delay
in ns. -/
def capRaw (s : State) (d f delay : Nat) : Bool :=
  let rx := s.rxSlots d f
  let min_ := s.rd FLW_CFG_MIN_SLOTS d f
  (rx.any fun p =>
    let i := p.2 / 24
    s.slotCut d p || s.flag FRM_STATUS_LOS p.1 || s.flag FRM_SC_STATUS_LOL p.1 i ||
    s.flag FRM_SC_STATUS_LOF p.1 i || s.flag FRM_SC_STATUS_LOM p.1 i) ||
  (s.txSlots d f).any (s.slotCut d) || decide (8000 < delay) || decide (rx.length < min_) ||
  decide ((s.txSlots d f).length < min_)

/-- A span of a received frame after its check block is taken off: client blocks with their marks, and the check block. -/
def splitSpans (span : Nat) : Nat → List (List Bool × Bool) → List (List (List Bool × Bool) × (List Bool × Bool))
  | 0, _ => []
  | n + 1, bs =>
    match bs with
    | [] => []
    | _ =>
      let k := if bs.length ≤ span + 1 then bs.length - 1 else span
      (bs.take k, bs.getD k ([], true)) :: splitSpans span n (bs.drop (k + 1))

/-- Deliver or withhold the client blocks of a frame (R259). An Ethernet port sends an error block for every errored one, so
that its stream keeps its block count (R282). -/
def deliverBlocks (s : State) (d f : Nat) (bs : List (List Bool × Bool)) : State :=
  let errored := (bs.filter fun b => b.2).length
  let port := (s.flowGrp d f).elim false fun g => !s.isTrunk d g
  let s := s.count FLW_CNT1_COUNT d errored f
  if !s.flag FLW_CFG_RX_EN d f then s
  else if s.flag FLW_CFG_REPLACE d f then s.count FLW_CNT2_COUNT d bs.length f
  else
    let drop := s.flag FLW_CFG_ERR_ACTION d f
    let out := if drop then bs.filter fun b => !b.2 else bs
    let s := if drop then s.count FLW_CNT2_COUNT d errored f else s
    (s.count FLW_CNT0_COUNT d out.length f).emit
      (.blocks d f (if port then bs.map fun b => if b.2 then (errorBlock, true) else b else out))

/-- The receive key of a frame: a new phase with a key in NEXT promotes it (R265). -/
def promoteRx (s : State) (d f : Nat) (h : Poh) : State :=
  let x := s.flow d f
  if h.enc && h.kp != s.flag CRY_FLOW_STATUS_RX_KP d f && x.rxNext.isSome then
    ((s.modFlow d f fun y => { y with rxCur := y.rxNext, rxNext := none }).wrb CRY_FLOW_STATUS_RX_KP d h.kp f).showKeys d f
  else s

/-- The tag of the previous frame against the one this POH carries (R262, R266): true when it failed. -/
def tagFailed (s : State) (d f : Nat) (h : Poh) : Bool :=
  match (s.flow d f).rxTag with
  | some t => t != h.tag
  | none => false

/-- Receive a flow frame: POH, data area, frame words with an errored mark, differential delay in ns. -/
def receiveFrame (s : State) (d f : Nat) (pohBytes data : List Byte) (marked : List Nat) (delay : Nat) : State :=
  let x := s.flow d f
  let p := positions (8 * data.length)
  let good := (Poh.parse pohBytes).filter fun h => decide (h.nb ≤ p) && !(s.rxSlots d f).isEmpty
  -- what the POH says of the previous frame, and REI
  let tagBad := good.elim false fun h => s.tagFailed d f h
  let s := if tagBad then s.count CRY_TAG_FAIL_COUNT d 1 f else s
  let s := match good, x.rxBip with
    | some h, some b =>
      let n := bitsDiffer b h.pbip
      (s.count FLW_CNT3_COUNT d n f).modFlow d f fun y => { y with reiTx := n }
    | _, _ => s.modFlow d f fun y => { y with reiTx := 0 }
  let s := match good with
    | some h => (s.count FLW_CNT4_COUNT d h.rei f).promoteRx d f h
    | none => s
  let nb := good.elim (min x.nb p) Poh.nb
  let enc := good.elim x.enc Poh.enc
  let kp := good.elim x.kp Poh.kp
  let idBad := good.elim false fun h => h.id != s.rd FLW_ID_LINE_ID d f
  let s := if good.isSome then s.wrb CRY_FLOW_STATUS_RX_ENC d enc f else s
  -- decryption
  let cur := (s.flow d f).rxCur
  let miss := enc && cur.isNone
  let s := if miss then (s.count CRY_KEY_MISS_COUNT d 1 f).raise CRY_EVENT_KEY_MISS d else s
  let id := good.elim 0 Poh.id
  let iv := frameIv id (!s.higherNode d) (good.elim 0 Poh.kfc)
  let key := cur.elim [] KeySlot.key
  let plain := if enc && !miss then Crypto.gcmCtr key iv data else data
  let tag := if enc && !miss && good.isSome then some (Crypto.gcmTag key iv (pohBytes.take 14) data) else none
  let s := s.modFlow d f fun y =>
    { y with nb := nb, kp := kp, enc := enc, rxBip := good.map fun _ => bip8 (unpackBits data), rxTag := tag }
  -- blocks
  let all := good.isNone || idBad || miss
  let bad := erroredBlocks p marked
  let blocks := (takeBlocks p nb (unpackBits plain)).map fun b => (b.2, all || bad.contains b.1)
  let spans := if x.farAppend then splitSpans x.farSpan blocks.length blocks else []
  let unit := s.boundUnit d f true 1
  let checked := spans.map fun sp =>
    let bad := unit.isSome &&
      sp.2.1 != checkBlock x.farPoly (spanValue x.farPoly (sp.1.map Prod.fst))
    (sp.1.map fun b => (b.1, b.2 || bad), bad)
  let fails := (checked.filter fun c => c.2).length
  let client := if x.farAppend then checked.flatMap fun c => c.1 else blocks
  let s := match unit with
    | some u =>
      let s := s.runSpans d u x.farPoly x.farSpan client.length (client.map Prod.fst)
      if fails = 0 then s else (s.count CRC_MISMATCH_COUNT d fails u).raise CRC_EVENT_MISMATCH d
    | none => s
  let s := s.softUnits d f true (client.map Prod.fst)
  let s := s.deliverBlocks d f client
  s.sampleFlow d f
    [ s.capRaw d f delay, good.isNone, idBad, good.elim false Poh.fbdi, good.elim false Poh.csf, tagBad || miss,
      decide (fails ≠ 0) ]

/-! ### Blocks in (R254, R274, R275) -/

/-- A block arrives from the host lanes: the transmit buffer holds 16 blocks beside those that the frame of the present
multiframe takes, which goes out whole when it is sent. Log entry 174 DESIGN CHOICE. -/
def blockIn (s : State) (d f : Nat) (b : List Bool) : State :=
  if !s.flag FLW_CFG_TX_EN d f then s.refuseWork d 10
  else if (s.txSlots d f).isEmpty ∨ 16 + s.frameRoom d f s.time.mf ≤ (s.flow d f).buffer.length then
    (s.count FLW_CNT5_COUNT d 1 f).raise FLW_EVENT_OVERFLOW d
  else s.modFlow d f fun x => { x with buffer := x.buffer ++ [b] }

/-- A key command of a die starts (R264): `key` is the contents a good load stores, none an erasure.
Log entries 37 DESIGN CHOICE, 40 DEDUCED. -/
def startKeyJob (s : State) (d f : Nat) (rx next : Bool) (result : Nat) (key : Option KeySlot) : State :=
  let s := (s.wr CRY_KEY_STATUS_BUSY d 1).respond 0
  { s with keyJobs := s.keyJobs.put (unitKey d 0) { flow := f, rx := rx, next := next, result := result, key := key } }

end State

/-! ### Meanings -/

/-- FLOW_FRAME_SEND (R250 to R254, R262, R268): the flow frame of a multiframe. A flow whose slots give it no room for a POH
sends no frame. -/
def execFlowFrameSend (die : Fin 8) (flow : Fin 512) (mf : Nat) (s : State) : Host.Outcome State Fault Refusal :=
  runDie s die fun s => if (s.flowShares die flow mf).sum < 4 then s else s.sendFrame die flow mf

/-- FLOW_DEFECT_IDLE_SAMPLE (R260). -/
def execFlowDefectIdleSample (die : Fin 8) (flow : Fin 512) (s : State) : Host.Outcome State Fault Refusal :=
  runDie s die fun s => s.sampleFlow die flow [s.capRaw die flow 0, true]

/-- FLOW_BLOCK_IN (R254, R274). -/
def execFlowBlockIn (die : Fin 8) (flow : Fin 512) (block : List Bool) (s : State) : Host.Outcome State Fault Refusal :=
  runDie s die fun s => s.blockIn die flow block

/-- KEY_LOAD (R264): the checks run now, the slot changes when the command completes (log entry 40). -/
def execKeyLoad (die : Fin 8) (flow : Fin 512) (rx next : Bool) (s : State) : Host.Outcome State Fault Refusal :=
  runDie s die fun s =>
    if s.flag CRY_KEY_STATUS_BUSY die then s.refuseAccess
    else if !next && s.encrypts die flow rx then s.startKeyJob die flow rx next 4 none
    else
      match (s.otp.get {} (unitKey die 0)).imageKey with
      | none => s.startKeyJob die flow rx next 3 none
      | some k =>
        match keyUnwrap (kekOf k) (s.wrappedKey die) with
        | none => s.startKeyJob die flow rx next 2 none
        | some b => s.startKeyJob die flow rx next 1 (some { key := b, id := s.rd CRY_KEY_ID_KEY_ID die, kcv := kcvOf b })

/-- KEY_ERASE (R264). -/
def execKeyErase (die : Fin 8) (flow : Fin 512) (rx next : Bool) (s : State) : Host.Outcome State Fault Refusal :=
  runDie s die fun s =>
    if s.flag CRY_KEY_STATUS_BUSY die then s.refuseAccess
    else s.startKeyJob die flow rx next (if !next && s.encrypts die flow rx then 4 else 1) none

/-- KEY_COMMAND_DONE (R264). Log entry 40 DEDUCED. -/
def execKeyCommandDone (die : Fin 8) (s : State) : Host.Outcome State Fault Refusal :=
  runDie s die fun s =>
    match s.keyJobs.find (unitKey die 0) with
    | none => s
    | some j =>
      let s := { s with keyJobs := s.keyJobs.erase (unitKey die 0) }
      let s := (s.wr CRY_KEY_STATUS_BUSY die 0).wr CRY_KEY_STATUS_RESULT die j.result
      if j.result = 1 then
        let s := s.modFlow die j.flow fun x =>
          match j.rx, j.next with
          | false, false => { x with txCur := j.key }
          | false, true => { x with txNext := j.key }
          | true, false => { x with rxCur := j.key }
          | true, true => { x with rxNext := j.key }
        (s.showKeys die j.flow).raise CRY_EVENT_LOAD_DONE die
      else s.raise CRY_EVENT_LOAD_FAIL die

/-- CRC_BOUNDARY (R270). -/
def execCrcBoundary (die : Fin 8) (s : State) : Host.Outcome State Fault Refusal :=
  runDie s die fun s => s.crcBoundary die

/-- CRC_TAKE (R270, R276), at a boundary. -/
def execCrcTake (die : Fin 8) (unit source : Fin 64) (s : State) : Host.Outcome State Fault Refusal :=
  runDie s die fun s => s.crcTake die unit source

/-- CRC_RUNNING_WRITE (R270). -/
def execCrcRunningWrite (die : Fin 8) (unit : Fin 64) (data : Word) (s : State) : Host.Outcome State Fault Refusal :=
  runDie s die fun s => s.crcRunningWrite die unit data.toNat

end Sys2Proof.Machine
end

