-- ==== Sys2Proof/Machine/Trunk.lean ====
section
/-! DEFINITION. Trunk lanes (spec/10, R283 to R287): blocks, scrambling, lane blocks, bursts, and dealing and de-striping the
blocks of a group. -/
namespace Sys2Proof.Machine
open Sys2Proof

/-! ### Blocks (R283, R284) -/

/-- A control block: TYPE and body, filled up with zeros. -/
def ctlBlock (type : Nat) (body : List Byte) : TrunkBlock :=
  { control := some true
    bits := unpackBits ((BitVec.ofNat 8 type :: body) ++ List.replicate (7 - body.length) 0) }

/-- TYPE and body of a control block; none for other blocks. -/
def TrunkBlock.type (b : TrunkBlock) : Option Nat :=
  if b.control = some true then (packBits b.bits).head?.map BitVec.toNat else none
def TrunkBlock.body (b : TrunkBlock) : List Byte := (packBits b.bits).drop 1

/-- FILLER. -/
def fillerBlock : TrunkBlock := ctlBlock 0x1E []

/-- ALIGN: position and size of the lane set, epoch, and group blocks dealt to the lane. -/
def alignBlock (pos size epoch count : Nat) : TrunkBlock :=
  ctlBlock 0x4B (bytesBE 1 pos ++ bytesBE 1 size ++ bytesBE 1 epoch ++ bytesBE 3 (count % 2 ^ 24) ++ [0xA5])

/-- The body of a FLOW_TAG (R284, R286). -/
def tagBody (flow count err : Nat) (replace : Bool) : List Byte :=
  let b := bytesBE 2 flow ++ bytesBE 1 count ++ bytesBE 1 err ++ bytesBE 1 (b2n replace) ++ [0]
  b ++ bytesBE 1 (crcMsb 8 0x07 0 b)

/-- The CRC of a FLOW_TAG body of seven bytes is good. -/
def tagOk (body : List Byte) : Bool := decide (body.length = 7) && beAt body 6 1 == crcMsb 8 0x07 0 (body.take 6)

/-- A burst of up to eight flow blocks with their marks: FLOW_TAG, then four data blocks for each flow block (R286). -/
def burstOf (flow : Nat) (bs : List (List Bool × Bool)) : List TrunkBlock :=
  let err := bs.zipIdx.foldl (fun a e => a + b2n e.1.2 * 2 ^ e.2) 0
  ctlBlock 0x2D (tagBody flow bs.length err false) :: bs.flatMap fun b =>
    (chunk 64 4 (b.1.drop 1)).map fun w => { control := some false, bits := w }

/-- The self-synchronous scrambler x^58 + x^39 + 1 over the last 58 scrambled bits, latest first. Log entry 172 DESIGN
CHOICE. -/
def selfScramble (hist : List Bool) : List Bool → List Bool × List Bool
  | [] => ([], hist)
  | b :: bs =>
    let v := b != (hist.getD 38 false != hist.getD 57 false)
    let r := selfScramble (v :: hist.take 57) bs
    (v :: r.1, r.2)

/-- The descrambler. -/
def selfDescramble (hist : List Bool) : List Bool → List Bool × List Bool
  | [] => ([], hist)
  | b :: bs =>
    let r := selfDescramble (b :: hist.take 57) bs
    ((b != (hist.getD 38 false != hist.getD 57 false)) :: r.1, r.2)

namespace State

/-- A host lane. -/
def lane (s : State) (d l : Nat) : LaneSt := s.lanes.get {} (unitKey d l)

/-- Change a host lane. -/
def modLane (s : State) (d l : Nat) (g : LaneSt → LaneSt) : State :=
  { s with lanes := s.lanes.set {} (unitKey d l) (g (s.lane d l)) }

/-- A lane group. -/
def grp (s : State) (d g : Nat) : GrpSt := s.grps.get {} (unitKey d g)

/-- Change a lane group. -/
def modGrp (s : State) (d g : Nat) (f : GrpSt → GrpSt) : State :=
  { s with grps := s.grps.set {} (unitKey d g) (f (s.grp d g)) }

/-! ### Sending (R283, R285 to R287) -/

/-- Send one block on a lane: ALIGN is not scrambled. -/
def laneSend (s : State) (d l : Nat) (b : TrunkBlock) : State :=
  let x := s.lane d l
  let r := if b.type = some 0x4B then (b.bits, x.scrTx) else selfScramble x.scrTx b.bits
  (s.modLane d l fun y =>
    { y with sent := y.sent + 1, filled := if b.type = some 0x1E then 0 else y.filled + 1, scrTx := r.2 }).emit
    (.laneBlock d l (b.control == some true) r.1)

/-- Send the lane blocks that are due on lane `l` at position `pos` of a group: ALIGN once in 20 480 blocks, FILLER before 1 024
blocks have passed without one; at most n of them. Log entry 172 DESIGN CHOICE. -/
def laneDue (s : State) (d g l pos : Nat) : Nat → State
  | 0 => s
  | n + 1 =>
    let x := s.lane d l
    if x.sent % 20480 = 0 then
      (s.laneSend d l (alignBlock pos (s.grp d g).order.length (s.rd HLN_GRP_STATUS_EPOCH d g) x.dealt)).laneDue d g l pos n
    else if 1022 ≤ x.filled then (s.laneSend d l fillerBlock).laneDue d g l pos n
    else s

/-- Deal one group block to the next active lane. -/
def dealGroup (s : State) (d g : Nat) (b : TrunkBlock) : State :=
  let x := s.grp d g
  match x.order[x.turnTx % x.order.length]? with
  | none => s
  | some l =>
    let s := (s.laneDue d g l (x.turnTx % x.order.length) 3).laneSend d l b
    (s.modLane d l fun y => { y with dealt := (y.dealt + 1) % 2 ^ 24 }).modGrp d g fun y => { y with turnTx := y.turnTx + 1 }

/-- Send blocks of the group's stream. -/
def dealBlocks (s : State) (d g : Nat) (bs : List TrunkBlock) : State := s.forEach bs fun t b => t.dealGroup d g b

/-- Send the flow blocks of a flow in bursts. -/
def sendBursts (s : State) (d g f : Nat) : Nat → List (List Bool × Bool) → State
  | 0, _ => s
  | n + 1, bs => if bs.isEmpty then s else (s.dealBlocks d g (burstOf f (bs.take 8))).sendBursts d g f n (bs.drop 8)

/-- Flow blocks leave on a group: the blocks themselves, and on a trunk group the lane blocks that carry them. -/
def sendFlow (s : State) (d g f : Nat) (bs : List (List Bool × Bool)) : State :=
  (s.emit (.blocks d f bs)).sendBursts d g f bs.length bs

/-! ### Receiving (R283 to R287) -/

/-- A block of a trunk codeword, with its two header bits: descrambled, and invalid in a codeword that was not corrected.
ALIGN stands first in its codeword and is not scrambled. -/
def laneTake (s : State) (d l : Nat) (first bad : Bool) (hdr : BitVec 2) (bits : List Bool) : TrunkBlock × State :=
  let ctl : Option Bool := if bad then none else if hdr = 1 then some false else if hdr = 2 then some true else none
  let raw : TrunkBlock := { control := ctl, bits := bits }
  if first && raw.type == some 0x4B && raw.body.getLast? == some 0xA5 then (raw, s)
  else
    let r := selfDescramble (s.lane d l).scrRx bits
    ({ control := ctl, bits := r.1 }, s.modLane d l fun y => { y with scrRx := r.2 })

/-- A HELLO block on a lane: the message is found when its four blocks have come in order (R290). -/
def helloPart (s : State) (d l : Nat) (body : List Byte) : State :=
  let i := beAt body 0 1
  let had := (s.lane d l).hello
  let now := if i = 0 then body.drop 1 else if had.length = 6 * i then had ++ body.drop 1 else []
  if now.length = 24 then (s.modLane d l fun y => { y with hello := [] }).emit (.helloFound d l now)
  else s.modLane d l fun y => { y with hello := now }

/-- One group block in turn: a tag opens a burst, and a data block outside a burst is discarded and counted (R286). -/
def groupTake (s : State) (d g : Nat) (b : TrunkBlock) : State :=
  let n := (s.grp d g).burst
  match b.type with
  | some t =>
    let c := if t = 0x2D ∧ tagOk b.body then 4 * beAt b.body 2 1 else 0
    (s.modGrp d g fun y => { y with burst := c }).emit (.groupBlock d g b)
  | none =>
    if n = 0 then if b.control = some false then s.count HLN_GRP_CNT2_COUNT d 1 g else s
    else (s.modGrp d g fun y => { y with burst := n - 1 }).emit (.groupBlock d g b)

/-- Take group blocks in turn from the active lanes (R285), at most n. -/
def destripe (s : State) (d g : Nat) : Nat → State
  | 0 => s
  | n + 1 =>
    let x := s.grp d g
    match x.order[x.turnRx % x.order.length]? with
    | none => s
    | some l =>
      match (s.lane d l).held.find? fun e => e.1 == x.turnRx / x.order.length % 2 ^ 24 with
      | none => s
      | some e =>
        let s := s.modLane d l fun y => { y with held := (y.held.dropWhile fun a => a.1 != e.1).drop 1 }
        ((s.modGrp d g fun y => { y with turnRx := y.turnRx + 1 }).groupTake d g e.2).destripe d g n

/-- A block arrives on a lane of a trunk group: lane blocks are deleted, group blocks wait for their turn while the group is
up. Log entry 172 DESIGN CHOICE. -/
def laneBlockIn (s : State) (d g l : Nat) (b : TrunkBlock) : State :=
  match b.type with
  | some 0x33 => s.helloPart d l b.body
  | some 0x1E => s
  | some 0x4B => s
  | some 0x55 => s
  | _ =>
    if s.rd HLN_GRP_STATUS_STATE d g = 2 then
      s.modLane d l fun y => { y with held := y.held ++ [(y.next, b)], next := (y.next + 1) % 2 ^ 24 }
    else s

/-- The blocks of a codeword arrive on a lane of a group. -/
def laneBlocksIn (s : State) (d g l : Nat) (bad : Bool) (blocks : List (BitVec 2 × List Bool)) : State :=
  let s := s.forEach blocks.zipIdx fun t e =>
    let r := t.laneTake d l (e.2 == 0) bad e.1.1 e.1.2
    r.2.laneBlockIn d g l r.1
  s.destripe d g (((s.grp d g).order.map fun k => (s.lane d k).held.length).sum)

end State

end Sys2Proof.Machine
end

