-- ==== Sys2Proof/Machine/HostLanes.lean ====
section
/-! DEFINITION. Host lanes (spec/10): lane groups, lanes coming up, hello messages and re-forming, the trunk protocol,
Ethernet AUI mode, dormant directions and timestamps. -/
namespace Sys2Proof.Machine
open Sys2Proof

/-! ### Configuration (R278, R280) -/

/-- Lanes an AUI code needs (R280), none for a code outside the table. -/
def auiLanes (c : Nat) : Option Nat := [2, 1, 4, 2, 1, 8, 4, 2, 8, 4, 8][c]?

/-- The lanes of a mask. -/
def lanesOf (m : Nat) : List Nat := (List.range 8).filter fun l => bit m l

/-- A mask of lanes. -/
def laneMask (ls : List Nat) : Nat := ls.foldl (fun a l => a ||| 2 ^ l) 0

/-- The lanes form an aligned block of 1, 2, 4 or 8 (R278). -/
def alignedBlock (m : Nat) : Bool :=
  [1, 2, 4, 8].any fun z => (List.range (8 / z)).any fun k => m == (2 ^ z - 1) * 2 ^ (z * k)

/-! ### Hello messages (R290) -/

/-- Bytes 0 to 21 of a hello message. -/
def Hello.body (h : Hello) : List Byte :=
  bytesBE 8 h.node ++ bytesBE 1 (16 * h.die + h.lane) ++ bytesBE 1 h.size ++ bytesBE 1 h.up ++ bytesBE 1 h.epoch ++
  bytesBE 4 h.cap ++ bytesBE 1 h.state ++ List.replicate 5 0

/-- A hello message with its CRC. -/
def Hello.encode (h : Hello) : List Byte := h.body ++ bytesBE 2 (crc16 h.body)

/-- Read a hello message of 24 bytes, none when its CRC fails. -/
def Hello.parse (bs : List Byte) : Option Hello :=
  if bs.length = 24 ∧ beAt bs 22 2 = crc16 (bs.take 22) then
    let l := beAt bs 8 1
    some { node := beAt bs 0 8, die := bitsAt l 4 3, lane := bitsAt l 0 3, size := beAt bs 9 1, up := beAt bs 10 1
           epoch := beAt bs 11 1, cap := beAt bs 12 4, state := beAt bs 16 1 }
  else none

/-- An epoch is ahead of another, modulo 256 (log entry 44). -/
def epochAhead (a b : Nat) : Bool := decide (1 ≤ (a + 256 - b) % 256 ∧ (a + 256 - b) % 256 < 128)

namespace State

/-- STATE of a lane. -/
def laneState (s : State) (d l : Nat) : Nat := s.rd HLN_LANE_STATUS_STATE d l

/-- STATE of a group: 0 off, 1 forming, 2 up, 3 re-forming. -/
def grpState (s : State) (d g : Nat) : Nat := s.rd HLN_GRP_STATUS_STATE d g

/-- The configured lanes of a group. -/
def grpLanes (s : State) (d g : Nat) : List Nat := lanesOf (s.rd HLN_GRP_CFG_LANES d g)

/-- The enabled group of a lane. -/
def laneGrp (s : State) (d l : Nat) : Option Nat :=
  (List.range 8).find? fun g => s.flag HLN_GRP_CFG_EN d g && bit (s.rd HLN_GRP_CFG_LANES d g) l

/-- A lane is up locally: active or standby. -/
def laneUp (s : State) (d l : Nat) : Bool := s.laneState d l == 7 || s.laneState d l == 8

/-- The flows a trunk group carries. -/
def grpFlows (s : State) (d g : Nat) : List Nat :=
  (((s.regs.keep fun k => k.blk == 13 && k.inst == d && k.reg == 0x2000).map fun e => e.1.idx).dedup).filter fun f =>
    s.flag HLN_FLOW_GRP_VALID d f && s.rd HLN_FLOW_GRP_GROUP d f == g

/-- The client input of a flow is lost, as its group and its last tag say (R297). -/
def inputLost (s : State) (d f : Nat) : Bool :=
  match s.flowGrp d f with
  | some g => s.flag HLN_GRP_STATUS_INPUT_LOST d g || (s.isTrunk d g && (s.flow d f).replaceRx)
  | none => false

/-- Firmware's CSF_TX of a flow follows a change of its client input (R261). Log entry 173 DESIGN CHOICE. -/
def clientSignal (s : State) (d f : Nat) (was : Bool) : State :=
  if s.inputLost d f = was then s else s.wrb FLW_CFG_CSF_TX d (s.inputLost d f) f

/-- The flows whose client input a group is. -/
def clientFlows (s : State) (d g : Nat) : List Nat :=
  if s.isTrunk d g then s.grpFlows d g else [s.rd HLN_GRP_CFG_FLOW d g]

/-- Show INPUT_LOST (R297): the group is enabled and its receive direction is neither up nor dormant.
Log entry 42 DEDUCED. -/
def showInput (s : State) (d g : Nat) : State :=
  let fs := s.clientFlows d g
  let was := fs.map (s.inputLost d)
  let s := s.wrb HLN_GRP_STATUS_INPUT_LOST d
    (s.flag HLN_GRP_CFG_EN d g && !(s.grp d g).rxUp && !s.flag HLN_GRP_STATUS_RX_DORMANT d g) g
  s.forEach (fs.zip was) fun t e => t.clientSignal d e.1 e.2

/-- Set STATE of a group; a change sets GRP_CHG. -/
def setGrp (s : State) (d g v : Nat) : State :=
  let s := if s.grpState d g = v then s
    else (s.wr HLN_GRP_STATUS_STATE d v g).raise HLN_EVENT_GRP_CHG d (2 ^ g)
  s.showInput d g

/-! ### The active set (R291) -/

/-- The identity a group forms with (R293): its partner, and while it holds none the identity heard on its lowest up lane. -/
def grpIdentity (s : State) (d g : Nat) : Option Nat :=
  match (s.grp d g).partner with
  | some p => some p
  | none =>
    ((s.grpLanes d g).find? fun l => s.laneUp d l && (s.lane d l).heard.isSome).bind fun l =>
      (s.lane d l).heard.map Hello.node

/-- The lanes of a group that are up at both ends, with their number in the numbering of the end with the lower node
identity. -/
def upAtBoth (s : State) (d g : Nat) : List (Nat × Nat) :=
  (s.grpLanes d g).filterMap fun l =>
    match (s.lane d l).heard with
    | none => none
    | some h =>
      let k := if h.size = 0 then h.lane else h.lane % h.size
      let mine := decide (s.nodeId d ≤ h.node)
      if s.laneUp d l && bit h.up k && s.grpIdentity d g == some h.node then some (if mine then l else h.lane, l) else none

/-- The largest aligned block of numbers all of which are present, the lower first: its lanes in order. -/
def bestBlock (xs : List (Nat × Nat)) : List Nat :=
  let blocks := [8, 4, 2, 1].flatMap fun z => (List.range (8 / z)).map fun k => (List.range z).map fun i => z * k + i
  match blocks.find? fun b => b.all fun n => xs.any fun x => x.1 == n with
  | some b => b.filterMap fun n => (xs.find? fun x => x.1 == n).map Prod.snd
  | none => []

/-- The active set of a trunk group, empty when it has fewer lanes than MIN_LANES. -/
def activeSet_ (s : State) (d g : Nat) : List Nat :=
  let b := bestBlock (s.upAtBoth d g)
  if b.length < 2 ^ s.rd HLN_GRP_CFG_MIN_LANES d g then [] else b

/-! ### Hello -/

/-- The hello message a lane sends now (R290). -/
def helloOf (s : State) (d l g : Nat) : Hello :=
  let ls := s.grpLanes d g
  let lo := ls.headD 0
  { node := s.nodeId d, die := d, lane := l, size := ls.length
    up := laneMask ((ls.filter fun k => s.laneUp d k).map fun k => k - lo)
    epoch := s.rd HLN_GRP_STATUS_EPOCH d g
    cap := b2n (s.flag HLN_GRP_CFG_SLEEP_EN d g) + 2 * b2n (s.flag HLN_LANE_CFG_TRAIN_EN d l) + 28
    state := match s.grpState d g with
      | 2 => 1
      | 3 => 2
      | _ => 0 }

/-- Send hello on every lane of a trunk group that is up, or awaits hello. -/
def helloAll (s : State) (d g : Nat) : State :=
  s.forEach (s.grpLanes d g) fun t l =>
    if t.laneUp d l || t.laneState d l == 6 then t.emit (.hello d l (t.helloOf d l g).encode) else t

/-! ### Re-forming (R292) -/

/-- A trigger: EPOCH rises, group blocks stop, hello goes out; blocks in transit are discarded and counted.
Log entry 43 DEDUCED. -/
def trigger (s : State) (d g transit : Nat) : State :=
  if !s.isTrunk d g || s.grpState d g == 0 then s
  else
    let s := s.wr HLN_GRP_STATUS_EPOCH d ((s.rd HLN_GRP_STATUS_EPOCH d g + 1) % 256) g
    let s := s.count HLN_GRP_CNT0_COUNT d transit g
    let s := s.forEach (s.grpLanes d g) fun t l => t.modLane d l fun x => { x with held := [] }
    let s := s.setGrp d g (if s.grpState d g = 1 then 1 else 3)
    s.helloAll d g

/-- A lane goes down to a state: LANE_DOWN when it was up, and its group re-forms or, in Ethernet AUI mode, goes down
(R289, R292). -/
def laneDown (s : State) (d l v transit : Nat) : State :=
  let was := s.laneUp d l
  let s := (s.wr HLN_LANE_STATUS_STATE d v l).modLane d l fun x => { x with good := 0, align := none }
  let s := if was then s.raise HLN_EVENT_LANE_DOWN d (2 ^ l) else s
  match s.laneGrp d l with
  | none => s
  | some g =>
    if s.isTrunk d g then
      if bit (s.rd HLN_GRP_STATUS_ACTIVE d g) l then
        (s.wr HLN_GRP_STATUS_ACTIVE d (clearBits (s.rd HLN_GRP_STATUS_ACTIVE d g) (2 ^ l)) g).trigger d g transit
      else s
    else if s.grpState d g = 2 then
      let s := (s.modGrp d g fun x => { x with rxUp := false, order := [] }).wr HLN_GRP_STATUS_ACTIVE d 0 g
      let s := s.forEach (s.grpLanes d g) fun t k => if t.laneState d k = 7 then t.wr HLN_LANE_STATUS_STATE d 5 k else t
      s.setGrp d g 1
    else s

/-- Blocks that wait for a flow's trunk group go out once it is up, after those that the flow owes a former group (R279, R302). -/
def sendHeld (s : State) (d f : Nat) : State :=
  let x := s.flow d f
  match s.flowGrp d f with
  | some g =>
    if s.isTrunk d g && s.grpState d g == 2 && x.toOld.isEmpty && !x.toHost.isEmpty then
      (s.modFlow d f fun y => { y with toHost := [] }).sendFlow d g f x.toHost
    else s
  | none => s

/-- Blocks that a flow owes a group it has left go out on that group. -/
def sendOld (s : State) (d g f : Nat) : State :=
  let x := s.flow d f
  if x.toOld.isEmpty || x.oldGrp != g then s
  else (s.modFlow d f fun y => { y with toOld := [] }).sendFlow d g f x.toOld

/-- A flow moves between groups at M (R279): the blocks it holds for the old group go out there first; `o` is the state before
the move. -/
def moveGroup (s o : State) (d f : Nat) : State :=
  let x := s.flow d f
  match o.flowGrp d f with
  | some g =>
    if s.flowGrp d f != some g && !x.toHost.isEmpty && x.toOld.isEmpty then
      s.modFlow d f fun y => { y with toOld := x.toHost, toHost := [], oldGrp := g }
    else s
  | none => s

/-- The group is up on its active set (R292, step 4): lanes of the set read active, other lanes that are up standby. Blocks
that waited are delivered. Log entry 42 DEDUCED. -/
def grpUp (s : State) (d g : Nat) (set_ : List Nat) : State :=
  let s := s.forEach (s.grpLanes d g) fun t l =>
    if set_.contains l then t.wr HLN_LANE_STATUS_STATE d 7 l
    else if t.laneUp d l then t.wr HLN_LANE_STATUS_STATE d 8 l else t
  let s := s.wr HLN_GRP_STATUS_ACTIVE d (laneMask set_) g
  let node := (set_.head?.bind fun l => (s.lane d l).heard).map Hello.node
  let first := (set_.map fun l => ((s.lane d l).align.map fun a => a.2.2.2).getD 0).foldl max 0
  let s := s.modGrp d g fun x =>
    { x with order := set_, rxUp := true, partner := if node.isSome then node else x.partner, turnTx := 0
             turnRx := first * set_.length, burst := 0 }
  let s := s.forEach set_ fun t l => t.modLane d l fun x => { x with dealt := 0, sent := 0 }
  let s := match node with
    | some n =>
      ((s.wr HLN_GRP_PARTNER_LO_NODE_ID d n g).wr HLN_GRP_PARTNER_HI_NODE_ID d (n / 2 ^ 32) g).wr
        HLN_GRP_STATUS_PARTNER_VALID d 1 g
    | none => s
  let s := s.setGrp d g 2
  s.forEach ((s.flows.keep fun k => k.inst == d).map fun e => e.1.idx) fun t f => (t.sendOld d g f).sendHeld d f

/-- A lane has come up (R289, step 5), and the group forms or grows when it may (R292). Log entry 42 DEDUCED. -/
def laneRise (s : State) (d l : Nat) : State :=
  (s.wr HLN_LANE_STATUS_STATE d 8 l).raise HLN_EVENT_LANE_UP d (2 ^ l)

/-- A larger active set triggers a re-form when GROW_AUTO is set. Log entry 43 DEDUCED. -/
def growCheck (s : State) (d g transit : Nat) : State :=
  if s.flag HLN_GRP_CFG_GROW_AUTO d g && s.grpState d g != 3 &&
      decide ((lanesOf (s.rd HLN_GRP_STATUS_ACTIVE d g)).length < (s.activeSet_ d g).length) then s.trigger d g transit
  else s

/-- No lane of a group hears its partner: the group drops it (R293). -/
def partnerCheck (s : State) (d g : Nat) : State :=
  match (s.grp d g).partner with
  | none => s
  | some p =>
    if (s.grpLanes d g).any fun l => ((s.lane d l).heard.map Hello.node) == some p then s
    else (s.modGrp d g fun x => { x with partner := none }).wr HLN_GRP_STATUS_PARTNER_VALID d 0 g

/-- ALIGN on every lane of a set, with its position (R285, R292, R295). -/
def sendAlign (s : State) (d g : Nat) (set_ : List Nat) : State :=
  s.forEach set_.zipIdx fun t e =>
    t.laneSend d e.1 (alignBlock e.2 set_.length (t.rd HLN_GRP_STATUS_EPOCH d g) (t.lane d e.1).dealt)

/-- A good hello on a lane of a trunk group (R290 to R293). -/
def takeHello (s : State) (d l g : Nat) (h : Hello) (transit : Nat) : State :=
  let foreign := match (s.grp d g).partner with
    | some p => p != h.node
    | none => false
  let s := s.modLane d l fun x => { x with heard := some h, good := x.good + 1 }
  let s := ((s.wr HLN_LANE_STATUS_PL_VALID d 1 l).wr HLN_LANE_STATUS_PDIE d h.die l).wr HLN_LANE_STATUS_PLANE d h.lane l
  let s := s.wr HLN_GRP_PCAP_CAP d h.cap g
  let s := if s.laneState d l = 6 ∧ 2 ≤ (s.lane d l).good then s.laneRise d l else s
  if foreign then
    let s := s.raise HLN_EVENT_PARTNER_CHG d
    let s := if bit (s.rd HLN_GRP_STATUS_ACTIVE d g) l then
        let s := s.wr HLN_LANE_STATUS_STATE d 8 l
        (s.wr HLN_GRP_STATUS_ACTIVE d (clearBits (s.rd HLN_GRP_STATUS_ACTIVE d g) (2 ^ l)) g).trigger d g transit
      else s
    s.partnerCheck d g
  else
    let own := s.rd HLN_GRP_STATUS_EPOCH d g
    if epochAhead h.epoch own then
      let s := s.wr HLN_GRP_STATUS_EPOCH d h.epoch g
      if s.grpState d g = 2 ∧ h.state = 2 then
        ((s.count HLN_GRP_CNT0_COUNT d transit g).setGrp d g 3).helloAll d g
      else s.helloAll d g
    else
      let s := s.growCheck d g transit
      if h.epoch = s.rd HLN_GRP_STATUS_EPOCH d g ∧ (s.grpState d g = 1 ∨ s.grpState d g = 3) then s.sendAlign d g (s.activeSet_ d g)
      else s

/-! ### Groups on and off (R278, R301) -/

/-- The configuration of a group breaks R278. -/
def grpBad (s : State) (d g : Nat) : Bool :=
  let m := s.rd HLN_GRP_CFG_LANES d g
  !alignedBlock m ||
  ((List.range 8).any fun h => h != g && s.flag HLN_GRP_CFG_EN d h && (s.rd HLN_GRP_CFG_LANES d h &&& m) != 0) ||
  (!s.isTrunk d g && auiLanes (s.rd HLN_GRP_CFG_AUI d g) != some (lanesOf m).length)

/-- Lanes of a group start at step 1 of R289 where they are enabled. -/
def lanesStart (s : State) (d g : Nat) : State :=
  s.forEach (s.grpLanes d g) fun t l =>
    let t := t.modLane d l fun _ => {}
    let t := t.wr HLN_LANE_STATUS_PL_VALID d 0 l
    t.wr HLN_LANE_STATUS_STATE d (if t.flag HLN_LANE_CFG_EN d l then 1 else 0) l

/-- Enable a group: on a die that is held idle its lanes stay down (R51). -/
def grpEnable (s : State) (d g : Nat) : State :=
  let s := (s.wr HLN_GRP_CFG_EN d 1 g).modGrp d g fun _ => {}
  if s.heldIdle d then s else ((s.enableUnit d 13 g).lanesStart d g).setGrp d g 1

/-- Blocks a group holds for its flows. -/
def grpHeld (s : State) (d g : Nat) : Nat :=
  ((s.grpFlows d g).map fun f => (s.flow d f).toHost.length).sum +
  ((s.flows.keep fun k => k.inst == d).map fun e => if e.2.oldGrp = g then e.2.toOld.length else 0).sum

/-- A group discards the blocks it holds for its flows. -/
def grpDrop (s : State) (d g : Nat) : State :=
  let fs := s.grpFlows d g
  { s with flows := s.flows.mapInst {} (fun k => k.inst == d) fun x => if x.oldGrp = g then { x with toOld := [] } else x }.forEach
    fs fun t f => t.modFlow d f fun x => { x with toHost := [] }

/-- The replacement signal of a group (R282, R286): Local Fault on a port, a tag with REPLACE for every flow of a trunk group. -/
def sendReplacement (s : State) (d g : Nat) : State :=
  if s.isTrunk d g then s.dealBlocks d g ((s.grpFlows d g).map fun f => ctlBlock 0x2D (tagBody f 0 0 true))
  else s.emit (.localFault d g)

/-- Turn a group off (R301): its lanes stop; in ABORT the blocks it holds are discarded. -/
def grpOff (s : State) (d g now : Nat) : State :=
  let work := s.grpHeld d g
  let s := if s.disAbort d 13 then
      (s.grpDrop d g).abortUnit d 13 g work
    else ((if s.grpState d g = 2 then s.sendReplacement d g else s)).drainUnit d 13 g work now
  let lost := (s.clientFlows d g).filter (s.inputLost d)
  let s := (s.wr HLN_GRP_CFG_EN d 0 g).forEach lost fun t f => t.clientSignal d f true
  let s := s.forEach (s.grpLanes d g) fun t l =>
    let t := if t.laneUp d l then t.raise HLN_EVENT_LANE_DOWN d (2 ^ l) else t
    ((t.wr HLN_LANE_STATUS_STATE d 0 l).wr HLN_LANE_STATUS_PL_VALID d 0 l).modLane d l fun _ => {}
  let s := ((s.wr HLN_GRP_STATUS_ACTIVE d 0 g).wr HLN_GRP_STATUS_RX_DORMANT d 0 g).wr HLN_GRP_STATUS_TX_DORMANT d 0 g
  let s := (s.wr HLN_GRP_STATUS_PARTNER_VALID d 0 g).modGrp d g fun _ => {}
  s.setGrp d g 0

/-- Wake the transmit direction of a group (R295, R296): its stream begins with ALIGN on every active lane. -/
def grpWake (s : State) (d g : Nat) : State :=
  if s.flag HLN_GRP_STATUS_TX_DORMANT d g then
    (s.wr HLN_GRP_STATUS_TX_DORMANT d 0 g).sendAlign d g (s.grp d g).order
  else s

/-- The fields of `HLN_GRP_CFG_g` other than EN, REFORM and WAKE, as a word writes them. -/
def grpFields (w : Nat) : List (Fld × Nat) :=
  [ (HLN_GRP_CFG_MODE, bitsAt w 30 1), (HLN_GRP_CFG_RATE, min 2 (bitsAt w 28 2)), (HLN_GRP_CFG_AUI, bitsAt w 24 4),
    (HLN_GRP_CFG_LANES, bitsAt w 16 8), (HLN_GRP_CFG_MIN_LANES, bitsAt w 14 2), (HLN_GRP_CFG_GROW_AUTO, bitsAt w 13 1),
    (HLN_GRP_CFG_SLEEP_EN, bitsAt w 12 1), (HLN_GRP_CFG_TX_TIMING, bitsAt w 11 1), (HLN_GRP_CFG_FLOW, bitsAt w 0 9) ]

/-- A write of `HLN_GRP_CFG_g` (R278): while EN is 1 no other field may change, except that REFORM and WAKE act. -/
def grpWrite (s : State) (d g w now : Nat) : State :=
  let fs := grpFields w
  if s.flag HLN_GRP_CFG_EN d g then
    if fs.any fun p => s.rd p.1 d g != p.2 then s.refuseAccess
    else
      let s := s.respond 0
      if !bit w 31 then s.grpOff d g now
      else
        let s := if bit w 10 then s.trigger d g 0 else s
        if bit w 9 then s.grpWake d g else s
  else
    let s := (fs.foldl (fun (t : State) p => t.wr p.1 d p.2 g) s).respond 0
    if !bit w 31 then s
    else if s.grpBad d g then s.raise HLN_EVENT_CFG_ERR d
    else s.grpEnable d g

/-- Every group of a die stops under ABORT (R302, quarantine). -/
def stopLanes (s : State) (d : Nat) : State :=
  s.forEach (List.range 8) fun t g =>
    if t.flag HLN_GRP_CFG_EN d g then
      let held := t.grpHeld d g
      ((t.grpDrop d g).abortUnit d 13 g held).grpOff d g 0
    else t

/-! ### Blocks to the host (R282, R288, R302) -/

/-- The blocks among some outputs, and the outputs without them. -/
def outBlocks (os : List Output) : List (List Bool × Bool) :=
  os.flatMap fun o =>
    match o with
    | .blocks _ _ bs => bs
    | _ => []
def outOthers (os : List Output) : List Output :=
  os.filter fun o =>
    match o with
    | .blocks _ _ _ => false
    | _ => true

/-- Blocks of a flow that the last operation delivered go out after those that wait for the flow, and wait while its trunk
group is not up; a dormant transmit direction wakes; what the 32-block buffer cannot hold is discarded and counted (R279,
R288, R296, R302). Log entries 43 DEDUCED, 153 DESIGN CHOICE. -/
def routeBlocks (s : State) (d f : Nat) : State :=
  match s.flowGrp d f with
  | none => s
  | some g =>
    let bs := outBlocks s.out
    if !s.isTrunk d g then if bs.isEmpty then s.emit (.localFault d g) else s
    else
      let s := if s.flag HLN_GRP_STATUS_TX_DORMANT d g && !bs.isEmpty then s.grpWake d g else s
      let held := (s.flow d f).toHost
      let owed := (s.flow d f).toOld.length
      let s := { s with out := outOthers s.out }
      if s.grpState d g = 2 && owed == 0 then
        if (held ++ bs).isEmpty then s else (s.modFlow d f fun x => { x with toHost := [] }).sendFlow d g f (held ++ bs)
      else
        let s := s.modFlow d f fun x => { x with toHost := (held ++ bs).take (32 - owed) }
        s.count HLN_GRP_CNT0_COUNT d ((held ++ bs).length + owed - 32) g

/-! ### Blocks from the host (R281, R286) -/

/-- A block of a group arrives for a flow: nothing is offered while the receive direction is dormant (R296).
Log entry 43 DEDUCED. -/
def hostBlock (s : State) (d g f : Nat) (b : List Bool) : State :=
  if s.flag HLN_GRP_STATUS_RX_DORMANT d g then s else s.blockIn d f b

/-- A FLOW_TAG burst (R286): body of 7 bytes, then the blocks that follow it (none: invalid or no data block). -/
def flowTag (s : State) (d g : Nat) (body : List Byte) (data : List (Option (List Bool))) : State :=
  let f := bitsAt (beAt body 0 2) 0 9
  let c := beAt body 2 1
  let repl := bit (beAt body 4 1) 0
  let crcOk := tagOk body
  let mapped := s.flag HLN_FLOW_GRP_VALID d f && s.rd HLN_FLOW_GRP_GROUP d f == g
  let burst := data.take (4 * c)
  let whole := decide (burst.length = 4 * c) && burst.all Option.isSome && decide (c ≤ 8)
  if !crcOk || !mapped || !whole then s.count HLN_GRP_CNT2_COUNT d 1 g
  else
    let was := s.inputLost d f
    let s := (s.modFlow d f fun x => { x with replaceRx := repl }).clientSignal d f was
    let words := burst.filterMap id
    s.forEach (List.range c) fun t k => t.hostBlock d g f (true :: ((words.drop (4 * k)).take 4).flatten)

/-! ### Timestamps (R298, R299) -/

/-- The timestamp queue of a die. -/
def stampQ (s : State) (d : Nat) : List (List Nat) := s.stamps.get [] (unitKey d 0)

/-- Store the queue and show its head and fill. -/
def setStamps (s : State) (d : Nat) (q : List (List Nat)) : State :=
  let s := { s with stamps := s.stamps.set [] (unitKey d 0) q }
  let s := s.wr HLN_TS_STATUS_FILL d q.length
  let head := q.headD [0, 0, 0, 0]
  s.forEach (List.range 4) fun t k => t.wr HLN_TS_ENTRY_DATA d (head.getD k 0) k

/-- The four words of an entry. -/
def stampWords (s : State) (g : Nat) (tx : Bool) (seqId domain msgType : Nat) : List Nat :=
  [ s.tim.todSec % 2 ^ 32, (s.tim.todSec / 2 ^ 32) * 65536 + s.tim.todFrac, s.tim.todNs,
    seqId * 65536 + domain * 256 + msgType * 16 + 8 * b2n tx + g ]

end State

/-! ### Meanings -/

/-- GROUP_ENABLE (R278): a write of `HLN_GRP_CFG_g`. -/
def execGroupEnable (die grp : Fin 8) (data : Word) (s : State) : Host.Outcome State Fault Refusal :=
  runDie s die fun s => s.grpWrite die grp data.toNat s.usNow

/-- LANE_DISABLE (R301). -/
def execLaneDisable (die lane : Fin 8) (transit : Nat) (s : State) : Host.Outcome State Fault Refusal :=
  runDie s die fun s => (s.wr HLN_LANE_CFG_EN die 0 lane).laneDown die lane 0 transit

/-- LANE_SIGNAL_DETECT (R289, step 1). -/
def execLaneSignalDetect (die lane : Fin 8) (s : State) : Host.Outcome State Fault Refusal :=
  runDie s die fun s =>
    if s.flag HLN_LANE_CFG_EN die lane && s.laneState die lane == 1 then s.wr HLN_LANE_STATUS_STATE die 2 lane else s

/-- LANE_DEBOUNCE_END (R289, step 2). -/
def execLaneDebounceEnd (die lane : Fin 8) (s : State) : Host.Outcome State Fault Refusal :=
  runDie s die fun s => if s.laneState die lane = 2 then s.wr HLN_LANE_STATUS_STATE die 3 lane else s

/-- LANE_ADAPTED (R289, step 3): training runs in trunk mode with TRAIN_EN set at both ends. -/
def execLaneAdapted (die lane : Fin 8) (partnerTrain : Bool) (s : State) : Host.Outcome State Fault Refusal :=
  runDie s die fun s =>
    let trunk := (s.laneGrp die lane).elim false fun g => s.isTrunk die g
    if s.laneState die lane = 3 ∧ trunk ∧ s.flag HLN_LANE_CFG_TRAIN_EN die lane ∧ partnerTrain then
      s.wr HLN_LANE_STATUS_STATE die 4 lane
    else s

/-- LANE_LOCK (R289, step 4): training writes its taps; a trunk lane awaits hello; an Ethernet group is up once every lane
has locked. -/
def execLaneLock (die lane : Fin 8) (taps : Option Word) (s : State) : Host.Outcome State Fault Refusal :=
  runDie s die fun s =>
    if s.laneState die lane ≠ 3 ∧ s.laneState die lane ≠ 4 then s
    else
      let s := match s.laneState die lane, taps with
        | 4, some w =>
          let n := w.toNat
          ((s.wr HLN_LANE_FFE_POST1 die (n / 2 ^ 24) lane).wr HLN_LANE_FFE_MAIN die (n / 2 ^ 16) lane |>.wr
            HLN_LANE_FFE_PRE1 die (n / 2 ^ 8) lane).wr HLN_LANE_FFE_PRE2 die n lane
        | _, _ => s
      match s.laneGrp die lane with
      | none => s.wr HLN_LANE_STATUS_STATE die 5 lane
      | some g =>
        if s.isTrunk die g then (s.wr HLN_LANE_STATUS_STATE die 6 lane).modLane die lane fun x => { x with good := 0 }
        else
          let s := (s.wr HLN_LANE_STATUS_STATE die 5 lane).raise HLN_EVENT_LANE_UP die (2 ^ (lane : Nat))
          let ls := s.grpLanes die g
          if ls.all fun l => s.laneState die l == 5 then
            let s := s.forEach ls fun t l => t.wr HLN_LANE_STATUS_STATE die 7 l
            let s := (s.wr HLN_GRP_STATUS_ACTIVE die (laneMask ls) g).modGrp die g fun x => { x with order := ls, rxUp := true }
            s.setGrp die g 2
          else s

/-- HELLO_SEND (R290). -/
def execHelloSend (die lane : Fin 8) (s : State) : Host.Outcome State Fault Refusal :=
  runDie s die fun s =>
    match s.laneGrp die lane with
    | some g => if s.isTrunk die g then s.emit (.hello die lane (s.helloOf die lane g).encode) else s
    | none => s

/-- HELLO_RECEIVE (R290 to R293): a message that fails its CRC is discarded. -/
def execHelloReceive (die lane : Fin 8) (bytes : List Byte) (transit : Nat) (s : State) :
    Host.Outcome State Fault Refusal :=
  runDie s die fun s =>
    match Hello.parse bytes, s.laneGrp die lane with
    | some h, some g => if s.isTrunk die g then s.takeHello die lane g h transit else s
    | _, _ => s

/-- HELLO_LOSS (R290, R293, R294): a dormant receive direction loses nothing. -/
def execHelloLoss (die lane : Fin 8) (transit : Nat) (s : State) : Host.Outcome State Fault Refusal :=
  runDie s die fun s =>
    match s.laneGrp die lane with
    | some g =>
      if !s.isTrunk die g || s.flag HLN_GRP_STATUS_RX_DORMANT die g then s
      else
        let s := (s.modLane die lane fun x => { x with heard := none }).wr HLN_LANE_STATUS_PL_VALID die 0 lane
        let s := if s.laneUp die lane then s.laneDown die lane 6 transit else s.modLane die lane fun x => { x with good := 0 }
        s.partnerCheck die g
    | none => s

/-- REFORM (R292). Log entry 45 DESIGN CHOICE. -/
def execReform (die grp : Fin 8) (transit : Nat) (s : State) : Host.Outcome State Fault Refusal :=
  runDie s die fun s => s.trigger die grp transit

/-- ALIGN (R284, R285, R292, step 3). -/
def execAlign (die lane : Fin 8) (pos : Fin 8) (size : Fin 9) (epoch : Fin 256) (count : Fin 16777216) (s : State) :
    Host.Outcome State Fault Refusal :=
  runDie s die fun s => s.modLane die lane fun x => { x with align := some (pos, size, epoch, count), next := count }

/-- GROUP_UP (R291, R292, step 4): both ends hold the same epoch, the set is not empty, and the partner's ALIGN of that
epoch has been received on every lane of the set. -/
def execGroupUp (die grp : Fin 8) (s : State) : Host.Outcome State Fault Refusal :=
  runDie s die fun s =>
    let e := s.rd HLN_GRP_STATUS_EPOCH die grp
    let set_ := s.activeSet_ die grp
    let agreed := set_.all fun l =>
      ((s.lane die l).heard.map Hello.epoch) == some e && ((s.lane die l).align.map fun a => a.2.2.1) == some e
    if s.isTrunk die grp && (s.grpState die grp == 1 || s.grpState die grp == 3) && !set_.isEmpty && agreed then
      (s.grpUp die grp set_).count HLN_GRP_CNT1_COUNT die 1 grp
    else s

/-- REFORM_TIMEOUT (R292, R297): the receive direction counts as lost. -/
def execReformTimeout (die grp : Fin 8) (s : State) : Host.Outcome State Fault Refusal :=
  runDie s die fun s =>
    if s.grpState die grp = 1 ∨ s.grpState die grp = 3 then
      (s.modGrp die grp fun x => { x with rxUp := false }).showInput die grp
    else s

/-- FLOW_TAG (R286). -/
def execFlowTag (die grp : Fin 8) (body : List Byte) (data : List (Option (List Bool))) (s : State) :
    Host.Outcome State Fault Refusal :=
  runDie s die fun s => if s.isTrunk die grp && s.flag HLN_GRP_CFG_EN die grp then s.flowTag die grp body data else s

/-- REPLACE_TAG_SEND (R286, R296): for a flow with REPLACE set or no block to send, unless the direction is dormant. -/
def execReplaceTagSend (die : Fin 8) (flow : Fin 512) (s : State) : Host.Outcome State Fault Refusal :=
  runDie s die fun s =>
    match s.flowGrp die flow with
    | none => s
    | some g =>
      if s.isTrunk die g && s.grpState die g == 2 && !s.flag HLN_GRP_STATUS_TX_DORMANT die g &&
          (s.flag FLW_CFG_REPLACE die flow || (s.flow die flow).toHost.isEmpty) then
        s.dealBlocks die g [ctlBlock 0x2D (tagBody flow 0 0 true)]
      else s

/-- AUI_CODEWORD (R281): the 257-bit blocks of a codeword; an uncorrectable one gives error blocks, which are counted.
Log entries 45, 157 DESIGN CHOICE. -/
def execAuiCodeword (die grp lane : Fin 8) (blocks : List (List Bool)) (corrected bad : Bool) (s : State) :
    Host.Outcome State Fault Refusal :=
  runDie s die fun s =>
    if s.isTrunk die grp || s.grpState die grp != 2 then s
    else
      let f := s.rd HLN_GRP_CFG_FLOW die grp
      let s := if bad then s.count HLN_LANE_FEC_UNC_COUNT die 1 lane
        else if corrected then s.count HLN_LANE_FEC_CORR_COUNT die 1 lane else s
      let s := if bad then s.count HLN_GRP_CNT3_COUNT die blocks.length grp else s
      s.forEach blocks fun t b => t.blockIn die f (if bad then errorBlock else b)

/-- TRUNK_CODEWORD (R283, R285 to R287): lane FEC counters; lane blocks are deleted, group blocks are de-striped, and stray
data blocks are discarded and counted. Log entry 45 DESIGN CHOICE. -/
def execTrunkCodeword (die lane : Fin 8) (corrected bad : Bool) (blocks : List (BitVec 2 × List Bool)) (s : State) :
    Host.Outcome State Fault Refusal :=
  runDie s die fun s =>
    let s := if bad then s.count HLN_LANE_FEC_UNC_COUNT die 1 lane
      else if corrected then s.count HLN_LANE_FEC_CORR_COUNT die 1 lane else s
    match s.laneGrp die lane with
    | some g => if s.isTrunk die g then s.laneBlocksIn die g lane bad blocks else s
    | none => s

/-- LANE_SIGNAL_LOSS (R289, R294): `present` tells that the amplitude is there and only the lock is lost. In a dormant
direction with SLEEP_EN set nothing goes down. -/
def execLaneSignalLoss (die lane : Fin 8) (present : Bool) (transit : Nat) (s : State) :
    Host.Outcome State Fault Refusal :=
  runDie s die fun s =>
    if s.laneState die lane = 0 ∨ s.laneState die lane = 9 then s
    else s.laneDown die lane (if present then 2 else 1) transit

/-- TX_RATE_LIMIT (R282). -/
def execTxRateLimit (die grp : Fin 8) (s : State) : Host.Outcome State Fault Refusal :=
  runDie s die fun s =>
    if s.isTrunk die grp || s.flag HLN_GRP_CFG_TX_TIMING die grp then s
    else (s.raise HLN_EVENT_TX_RATE_LIMIT die).modGrp die grp fun x => { x with limited := true }

/-- TX_RATE_IN_RANGE (R282), with the idle deletions and insertions made meanwhile. -/
def execTxRateInRange (die grp : Fin 8) (idles : Nat) (s : State) : Host.Outcome State Fault Refusal :=
  runDie s die fun s =>
    (s.count HLN_GRP_CNT4_COUNT die idles grp).modGrp die grp fun x => { x with limited := false }

/-- DIRECTION_SLEEP (R294, R296). -/
def execDirectionSleep (die grp : Fin 8) (s : State) : Host.Outcome State Fault Refusal :=
  runDie s die fun s =>
    let fs := s.grpFlows die grp
    if s.isTrunk die grp && s.grpState die grp == 2 && s.flag HLN_GRP_CFG_SLEEP_EN die grp &&
        bit (s.rd HLN_GRP_PCAP_CAP die grp) 0 &&
        (fs.all fun f => (s.rxSlots die f).isEmpty && (s.flow die f).toHost.isEmpty) then
      (s.forEach (s.grp die grp).order fun t l => t.forEach (List.range 16) fun u _ =>
        u.laneSend die l (ctlBlock 0x55 [])).wr HLN_GRP_STATUS_TX_DORMANT die 1 grp
    else s

/-- SLEEP (R294): the receive direction is marked dormant at an end whose SLEEP_EN is 1; a re-form resumes after the wake
(R302). -/
def execSleep (die grp : Fin 8) (s : State) : Host.Outcome State Fault Refusal :=
  runDie s die fun s =>
    if s.isTrunk die grp && s.flag HLN_GRP_CFG_EN die grp && s.flag HLN_GRP_CFG_SLEEP_EN die grp then
      let s := s.wr HLN_GRP_STATUS_RX_DORMANT die 1 grp
      let s := s.forEach (s.grpLanes die grp) fun t l => if t.laneUp die l then t.wr HLN_LANE_STATUS_STATE die 9 l else t
      let s := s.modGrp die grp fun x => { x with resume := s.grpState die grp == 3 || s.grpState die grp == 1 }
      s.showInput die grp
    else s

/-- GROUP_WAKE (R296). -/
def execGroupWake (die grp : Fin 8) (s : State) : Host.Outcome State Fault Refusal :=
  runDie s die fun s => s.grpWake die grp

/-- WAKE_BURST (R295): the receiver restarts from retained values. -/
def execWakeBurst (die grp : Fin 8) (transit : Nat) (s : State) : Host.Outcome State Fault Refusal :=
  runDie s die fun s =>
    if s.flag HLN_GRP_STATUS_RX_DORMANT die grp then
      let s := s.wr HLN_GRP_STATUS_RX_DORMANT die 0 grp
      let act := s.rd HLN_GRP_STATUS_ACTIVE die grp
      let s := s.forEach (s.grpLanes die grp) fun t l =>
        if t.laneState die l = 9 then t.wr HLN_LANE_STATUS_STATE die (if bit act l then 7 else 8) l else t
      let again := (s.grp die grp).resume
      let s := s.modGrp die grp fun x => { x with resume := false }
      (if again then s.trigger die grp transit else s).showInput die grp
    else s

/-- WAKE_FAIL (R295). -/
def execWakeFail (die lane : Fin 8) (transit : Nat) (s : State) : Host.Outcome State Fault Refusal :=
  runDie s die fun s =>
    if s.laneState die lane = 0 then s else (s.raise HLN_EVENT_WAKE_FAIL die).laneDown die lane 1 transit

/-- TIMESTAMP (R298, R299). -/
def execTimestamp (die grp : Fin 8) (tx : Bool) (kind : TsKind) (seqId : Fin 65536) (domain : Fin 256)
    (msgType : Fin 16) (s : State) : Host.Outcome State Fault Refusal :=
  runDie s die fun s =>
    let trunk := s.isTrunk die grp
    let wanted := match kind with
      | .l2 => s.flag HLN_TS_CTRL_L2 die && !trunk
      | .udp4 => s.flag HLN_TS_CTRL_UDP4 die && !trunk
      | .udp6 => s.flag HLN_TS_CTRL_UDP6 die && !trunk
      | .mark => s.flag HLN_TS_CTRL_MARK die && trunk
    if !s.flag HLN_TS_CTRL_EN die || !wanted then s
    else
      let q := s.stampQ die
      if q.length < 64 then
        let w := if trunk then s.stampWords grp tx seqId 0 0 else s.stampWords grp tx seqId domain msgType
        s.setStamps die (q ++ [w])
      else (s.count HLN_TS_STATUS_LOST die).raise HLN_EVENT_TS_OVERFLOW die

/-- TS_ENTRY_READ (R299): the read of ENTRY_3 answers the head's word and removes the entry. -/
def execTsEntryRead (die : Fin 8) (s : State) : Host.Outcome State Fault Refusal :=
  runDie s die fun s =>
    let v := s.rd HLN_TS_ENTRY_DATA die 3
    (s.setStamps die ((s.stampQ die).drop 1)).respond 0 v

/-- FLOW_FRAME_RECEIVE (R252, R256, R258 to R260, R265, R266, R269): the slot shares of a period in ascending order of the
flow's slots, the frame words that carry the errored mark, and the arrival of the first and the last share in ns. The frame
is merged, aligned and received, and its blocks go to the flow's group. -/
def execFlowFrameReceive (die : Fin 8) (flow : Fin 512) (shares : List (List (List Bool))) (marked : List Nat)
    (first last : Nat) (s : State) : Host.Outcome State Fault Refusal :=
  runDie s die fun s =>
    let words := mergeShares shares
    (s.receiveFrame die flow (packBits (words.take 4).flatten) (packBits (words.drop 4).flatten) marked
      (last - first)).routeBlocks die flow

end Sys2Proof.Machine
end

