-- ==== Sys2Proof/Machine/Housekeeping.lean ====
section
/-! DEFINITION. Housekeeping converters and the watch chain (spec/14): sensor slots, sequencer, urgent conversions, SYNC
pins and watch channels. -/
namespace Sys2Proof.Machine
open Sys2Proof

/-! ### Results (R374, R375) -/

/-- The 16-bit result of a code: differential inputs 12 to 17 are signed; left-aligned results lie in bits [15:2]. -/
def hkResult (input align : Nat) (code : Int) : Nat :=
  let diff := decide (12 ≤ input ∧ input ≤ 17)
  let c := if diff then clampInt (-8192) 8191 code else clampInt 0 16383 code
  if align = 0 then ofSigned 16 c else (ofSigned 14 c) * 4

/-! ### Watch filters (R383 to R386) -/

/-- Taps of a FIR response. -/
def firLen (r : Nat) : Nat :=
  if r = 0 then 1
  else if r ≤ 15 then min (16 * (r + 1)) 256
  else if r ≤ 23 then 2 ^ (r - 15)
  else if r = 24 then 2
  else if r = 25 then 3
  else min (32 * 2 ^ (r - 25)) 256

/-- Taps with a given sum: all but the first are those of a ROM, and the first makes up the sum. -/
def tapsOf (gain : Int) (rom : Nat → Int) (n t : Nat) : Int :=
  if t = 0 then gain - ((List.range (n - 1)).map fun u => rom (u + 1)).sum else rom t

/-- A coefficient of a FIR response: those the table fixes, and the ROM's for the low-pass responses, whose DC gain is 2^16
(R383). Log entry 60 DESIGN CHOICE. -/
def firCoef (r t : Nat) : Int :=
  if r = 0 then 65536
  else if r ≤ 15 then tapsOf 65536 (Config.firTap r) (firLen r) t
  else if r ≤ 23 then (65536 / 2 ^ (r - 15) : Nat)
  else if r = 24 then (if t = 0 then 65536 else -65536)
  else if r = 25 then (if t = 0 then 32768 else if t = 1 then 0 else -32768)
  else tapsOf 65536 (Config.firTap r) (firLen r) t

/-- A tap of the resampler's 8-tap filter at a phase, of unity DC gain in 2^−16 (R386). Log entry 60 DESIGN CHOICE. -/
def resampleTap (phase t : Nat) : Int := tapsOf 65536 (Config.interpolate phase) 8 t

/-- An output of the resampler's filter from its last 8 inputs, newest first (R386). Log entry 60 DESIGN CHOICE. -/
def resampleOut (phase : Nat) (hist : List Int) : Int :=
  ((hist.zipIdx.map fun p => p.1 * resampleTap phase p.2).sum + 32768) / 65536

/-- A coefficient of a biquad section in 2^−20: b0, b1, b2, a1, a2. The leaky integrator has its pole at 1 − 2^−12 and unity
gain at DC; the other cascades' are the ROM's (R384). Log entry 60 DESIGN CHOICE. -/
def biqCoef (b j k : Nat) : Int :=
  if b = 29 then (if k = 0 then 256 else if k = 3 then 256 - 1048576 else 0) else Config.biquad b j k

/-- Sections of a biquad cascade. -/
def biqSections (b : Nat) : Nat :=
  if b = 0 then 0 else if b ≤ 8 then 2 else if b ≤ 16 then 4 else if b ≤ 24 then 1 else if b ≤ 28 then 6 else 1

/-- Saturate to 24 bits; whether it did. -/
def sat24 (v : Int) : Int × Bool :=
  let c := clampInt (-8388608) 8388607 v
  (c, c != v)

/-- A shift of R385: right with rounding, or left for a negative amount, then saturated. -/
def shift24 (v : Int) (sh : Int) : Int × Bool :=
  if sh ≤ 0 then sat24 (v * (2 ^ sh.natAbs : Nat))
  else sat24 ((v + (2 ^ (sh.natAbs - 1) : Nat)) / (2 ^ sh.natAbs : Nat))

/-- Saturate to the 48-bit state of a section. -/
def sat48 (v : Int) : Int := clampInt (-140737488355328) 140737488355327 v

/-- One biquad section in transposed direct form II (R384): output before saturation, and the two new states, from the
saturated output. -/
def biqSection (b j : Nat) (x : Int) (st : Int × Int) : (Int × Bool) × Int × Int :=
  let y := sat24 ((biqCoef b j 0 * x + st.1 + 524288) / 1048576)
  (y, sat48 (biqCoef b j 1 * x - biqCoef b j 3 * y.1 + st.2), sat48 (biqCoef b j 2 * x - biqCoef b j 4 * y.1))

/-- Run a cascade from section `j`: output, new states, saturation. -/
def runBiquads (b j : Nat) : List (Int × Int) → Int → Int × List (Int × Int) × Bool
  | [], x => (x, [], false)
  | st :: rest, x =>
    let r := biqSection b j x st
    let t := runBiquads b (j + 1) rest r.1.1
    (t.1, r.2 :: t.2.1, r.1.2 || t.2.2)

namespace State

/-! ### Sequencer (R377, R378) -/

def seqSt (s : State) (d : Nat) : SeqSt := s.seqs.get {} (unitKey d 0)
def modSeq (s : State) (d : Nat) (f : SeqSt → SeqSt) : State :=
  { s with seqs := s.seqs.set {} (unitKey d 0) (f (s.seqSt d)) }

/-- The entries a pass takes at its start. -/
def seqEntries (s : State) (d : Nat) : List (Nat × Nat × Nat × Nat) :=
  (List.range (s.rd HKA_SEQ_CTRL_LENGTH d + 1)).map fun e =>
    (s.rd HKA_SEQ_ENTRY_MODE d e, s.rd HKA_SEQ_ENTRY_ALIGN d e, s.rd HKA_SEQ_ENTRY_INPUT_A d e, s.rd HKA_SEQ_ENTRY_INPUT_B d e)

/-- Start a pass. -/
def startPass (s : State) (d : Nat) : State :=
  let es := s.seqEntries d
  ((s.modSeq d fun x => { x with pass := some { entries := es }, trigWait := false }).wr HKA_SEQ_STATUS_RUNNING d 1).wr
    HKA_SEQ_STATUS_ENTRY d 0

/-- A trigger of the source in TRIG arrives (R378, R379); continuous passes set no PENDING. Log entry 62 DEDUCED. -/
def seqTrigger (s : State) (d : Nat) : State :=
  let x := s.seqSt d
  if !s.flag HKA_SEQ_CTRL_EN d || s.heldIdle d then s
  else if x.pass.isNone && x.urgent.isNone then s.startPass d
  else if s.rd HKA_SEQ_CTRL_TRIG d = 5 then if x.pass.isNone then s.modSeq d fun y => { y with trigWait := true } else s
  else if s.flag HKA_SEQ_STATUS_PENDING d then (s.count HKA_OVERRUN_COUNT d).raise HKA_EVENT_OVERRUN d
  else
    let s := s.wr HKA_SEQ_STATUS_PENDING d 1
    if x.pass.isNone then s.modSeq d fun y => { y with trigWait := true } else s

/-- A pass ends once its last entry is converted (R377, R378). -/
def passEnd (s : State) (d : Nat) : State :=
  match (s.seqSt d).pass with
  | none => s
  | some p =>
    if p.next < p.entries.length then s
    else
    let s := (s.modSeq d fun x => { x with pass := none }).wr HKA_SEQ_STATUS_RUNNING d 0
    let s := (s.wr HKA_SEQ_STATUS_PASS_COUNT d (s.rd HKA_SEQ_STATUS_PASS_COUNT d + 1)).raise HKA_EVENT_PASS_DONE d
    if !s.flag HKA_SEQ_CTRL_EN d then s.wr HKA_SEQ_STATUS_PENDING d 0
    else if s.flag HKA_SEQ_STATUS_PENDING d then
      ((s.wr HKA_SEQ_STATUS_PENDING d 0).raise HKA_EVENT_LATE d).startPass d
    else if s.rd HKA_SEQ_CTRL_TRIG d = 5 then s.startPass d
    else s

/-- Two modes (0 A, 1 B, 2 both) use a converter in common. -/
def modesMeet (m n : Nat) : Bool := m == n || m == 2 || n == 2

/-- The conversion of the entry in hand completes; none completes while an urgent conversion uses one of its converters
(R379). -/
def conversion (s : State) (d : Nat) (a b : Int) : State :=
  let x := s.seqSt d
  match x.pass with
  | none => s
  | some p =>
    match p.entries[p.next]? with
    | none => s
    | some e =>
      if x.urgent.any fun u => modesMeet u.1 e.1 then s
      else
        let s := if e.1 = 1 then s else s.wr HKA_RESULT_A d (hkResult e.2.2.1 e.2.1 a) p.next
        let s := if e.1 = 0 then s else s.wr HKA_RESULT_B d (hkResult e.2.2.2 e.2.1 b) p.next
        let s := s.modSeq d fun y => { y with pass := some { p with next := p.next + 1 } }
        s.wr HKA_SEQ_STATUS_ENTRY d (min (p.next + 1) (p.entries.length - 1))

/-- The sequencer is disabled (R392): in ABORT mode the conversion in progress is abandoned. -/
def seqStop (s : State) (d : Nat) (abort : Bool) : State :=
  let s := (s.wr HKA_SEQ_STATUS_PENDING d 0).modSeq d fun x => { x with trigWait := false }
  if abort then (s.modSeq d fun x => { x with pass := none }).wr HKA_SEQ_STATUS_RUNNING d 0 else s

/-- EN of the sequencer goes to 0 (R392). -/
def seqOff (s : State) (d now : Nat) : State :=
  ((s.wr HKA_SEQ_CTRL_EN d 0).disableUnit d 20 0 (b2n (s.seqSt d).pass.isSome) now).seqStop d (s.disAbort d 20)

/-! ### Urgent conversions (R379) -/

/-- A write of `HKA_URGENT` with its fields, and of GO. -/
def urgentFields (s : State) (d w : Nat) : State :=
  let s := (s.wr HKA_URGENT_MODE d (min 2 (bitsAt w 16 2))).wr HKA_URGENT_ALIGN d (bitsAt w 15 1)
  (s.wr HKA_URGENT_INPUT_B d (min 23 (bitsAt w 8 5))).wr HKA_URGENT_INPUT_A d (min 23 (bitsAt w 0 5))

def urgentGo (s : State) (d w : Nat) : State :=
  let s := s.urgentFields d w
  if (s.seqSt d).urgent.isSome then s.raise HKA_EVENT_URGENT_BUSY d
  else
    s.modSeq d fun x => { x with urgent := some (s.rd HKA_URGENT_MODE d, s.rd HKA_URGENT_ALIGN d, s.rd HKA_URGENT_INPUT_A d,
                                                 s.rd HKA_URGENT_INPUT_B d) }

/-- The urgent conversion completes: the pass resumes at the interrupted entry, or a waiting trigger starts its pass. -/
def urgentDone (s : State) (d : Nat) (a b : Int) : State :=
  match (s.seqSt d).urgent with
  | none => s
  | some u =>
    let s := if u.1 = 1 then s else s.wr HKA_URGENT_RESULT_A d (hkResult u.2.2.1 u.2.1 a)
    let s := if u.1 = 0 then s else s.wr HKA_URGENT_RESULT_B d (hkResult u.2.2.2 u.2.1 b)
    let s := (s.raise HKA_EVENT_URGENT_DONE d).modSeq d fun x => { x with urgent := none }
    if (s.seqSt d).trigWait then (s.wr HKA_SEQ_STATUS_PENDING d 0).startPass d else s

/-! ### Sensors (R376) -/

/-- The sensor slots of a millisecond: T0 or T1 on A, T2 or T3 on B. -/
def sensorSlot (s : State) (d a b : Nat) : State :=
  if (s.seqSt d).urgent.isSome then s
  else
    let k := b2n (s.seqSt d).second
    let s := (s.wr HKA_TEMP_TEMP d a k).wr HKA_TEMP_TEMP d b (2 + k)
    let s := s.modSeq d fun x => { x with second := !x.second }
    let m := (List.range 4).foldl (fun m i => max m (s.rdS HKA_TEMP_TEMP d i)) (s.rdS HKA_TEMP_TEMP d 0)
    s.wrS HKA_TEMP_MAX_TEMP d m

/-! ### Watch channels (R382 to R391) -/

def wchSt (s : State) (d c : Nat) : WchSt := s.wch.get {} (unitKey d c)
def modWch (s : State) (d c : Nat) (f : WchSt → WchSt) : State :=
  { s with wch := s.wch.set {} (unitKey d c) (f (s.wchSt d c)) }

/-- Reset the decimators of the channels with SYNC_EN (R388). -/
def wchSync (s : State) (d : Nat) : State :=
  s.forEach (List.range 16) fun t c =>
    if t.flag WCH_CH_CFG_SYNC_EN d c then t.modWch d c fun x => { x with group := 0, acc := 0, skip := 0 } else t

/-- A saturation in a channel (R385). -/
def wchSat (s : State) (d c : Nat) (x : Bool) : State := if x then s.wrBit WCH_STAT_EVENT_SAT d c true else s

/-- One side of the threshold events (R389): a sample beyond the limit, or within its clearing level. -/
def threshold (s : State) (d c : Nat) (hi beyond clear : Bool) : State :=
  let x := s.wchSt d c
  let n := s.rd WCH_CH_THR_PERSIST d c
  let decl := if hi then WCH_CH_STATUS_HIGH_DECL else WCH_CH_STATUS_LOW_DECL
  let run_ := if beyond then (if hi then x.hiRun else x.loRun) + 1 else 0
  let clr := if clear then (if hi then x.hiClr else x.loClr) + 1 else 0
  let s := s.modWch d c fun x =>
    if hi then { x with hiRun := run_, hiClr := clr } else { x with loRun := run_, loClr := clr }
  if s.flag decl d c then (if clear && decide (n ≤ clr) then s.wr decl d 0 c else s)
  else if beyond && decide (n ≤ run_) then
    (s.wr decl d 1 c).wrBit (if hi then WCH_EVENT_HIGH else WCH_EVENT_LOW) d c true
  else s

/-- An output sample (R387, R389). -/
def wchOutput (s : State) (d c : Nat) (y : Int) : State :=
  let s := s.modWch d c fun x => { x with line := (y :: x.line).take 1024 }
  let out := (s.wchSt d c).line.getD (s.rd WCH_CH_DELAY_DELAY d c) 0
  let s := s.wrS WCH_CH_OUT_OUT d out c
  let s := s.wr WCH_CH_STATUS_OUT_COUNT d (s.rd WCH_CH_STATUS_OUT_COUNT d c + 1) c
  let high := s.rdS WCH_CH_HIGH_HIGH d c
  let low := s.rdS WCH_CH_LOW_LOW d c
  let hyst : Int := s.rd WCH_CH_THR_HYST d c
  let s := if s.flag WCH_CH_THR_HIGH_EN d c then s.threshold d c true (decide (high < out)) (decide (out ≤ high - hyst)) else s
  if s.flag WCH_CH_THR_LOW_EN d c then s.threshold d c false (decide (out < low)) (decide (low + hyst ≤ out)) else s

/-- A sample enters the resampler (R386). -/
def wchResample (s : State) (d c : Nat) (y : Int) : State :=
  let step := s.rd WCH_CH_STEP_STEP d c
  if step = 65536 then s.wchOutput d c y
  else
    let s := s.modWch d c fun x => { x with hist := (y :: x.hist).take 8 }
    let x := s.wchSt d c
    if x.skip - 1 = 0 then
      let out := sat24 (resampleOut (x.acc / 2048) x.hist)
      let next := x.acc + step
      let s := s.modWch d c fun x => { x with acc := next % 65536, skip := next / 65536 }
      (s.wchSat d c out.2).wchOutput d c out.1
    else s.modWch d c fun x => { x with skip := x.skip - 1 }

/-- A FIR output passes the shift, the cascade and the second shift (R384, R385). -/
def wchFiltered (s : State) (d c : Nat) (acc : Int) : State :=
  let a := shift24 acc (s.rd WCH_CH_SHIFT_FIR_SHIFT d c)
  let b := s.rd WCH_CH_CFG_BIQ_SEL d c
  let st := (List.range (biqSections b)).map fun j => (s.wchSt d c).biq.getD j (0, 0)
  let r := runBiquads b 0 st a.1
  let s := s.modWch d c fun x => { x with biq := r.2.1 }
  let y := shift24 r.1 (s.rdS WCH_CH_SHIFT_BIQ_SHIFT d c)
  (s.wchSat d c (a.2 || r.2.2 || y.2)).wchResample d c y.1

/-- An input sample enters a channel that runs (R382, R383). -/
def wchSample (s : State) (d c : Nat) (x : Int) : State :=
  let r := s.rd WCH_CH_CFG_FIR_SEL d c
  let v := (sat24 x).1
  let n := (s.wchSt d c).group + 1
  let s := s.modWch d c fun y => { y with fir := (v :: y.fir).take (firLen r) }
  if s.rd WCH_CH_CFG_DEC d c + 1 ≤ n then
    let taps := (s.wchSt d c).fir
    let acc := (taps.zipIdx.map fun p => p.1 * firCoef r p.2).sum
    (s.modWch d c fun y => { y with group := 0 }).wchFiltered d c acc
  else s.modWch d c fun y => { y with group := n }

/-- The right-aligned code that a result register of an entry holds (R375). -/
def hkCode (input align w : Nat) : Int :=
  let c := if align = 0 then bitsAt w 0 14 else bitsAt w 2 14
  if 12 ≤ input ∧ input ≤ 17 then toSigned 14 c else c

/-- The sample that the input stream of a channel delivers (R382). SRC 0 gives the A or B result of its entry. A quality stream
gives none while its source is off, dormant or not tracking, or while its estimate is invalid: F and τ are those of their
registers, and `x` is the pilot SNR, the bits corrected or the clipped samples of the period. -/
def streamSample (s : State) (d c : Nat) (x : Int) : Option Int :=
  let sel := s.rd WCH_CH_CFG_SRC_SEL d c
  if s.rd WCH_CH_CFG_SRC d c = 0 then
    let e := sel % 32
    if bit sel 5 then some (hkCode (s.rd HKA_SEQ_ENTRY_INPUT_B d e) (s.rd HKA_SEQ_ENTRY_ALIGN d e) (s.rd HKA_RESULT_B d e))
    else some (hkCode (s.rd HKA_SEQ_ENTRY_INPUT_A d e) (s.rd HKA_SEQ_ENTRY_ALIGN d e) (s.rd HKA_RESULT_A d e))
  else if sel / 16 = 0 ∧ sel < 8 then (if s.rd RXD_SC_STATUS_STATE d sel = 3 then some x else none)
  else if sel / 16 = 1 ∧ sel < 24 then (if s.rd RXD_SC_STATUS_STATE d (sel - 16) = 3 then some (min x 8388607) else none)
  else if sel = 32 then (if s.flag RXD_FREQ_STATUS_LOCKED d then some (s.rdS RXD_FREQ_STATUS_OFFSET d) else none)
  else if sel = 33 then (if s.flag CAL_SEAM_LO_VALID d then some (s.rdS CAL_SEAM_LO_TAU d) else none)
  else if 40 ≤ sel ∧ sel < 44 then (if bit (s.rd CNV_CTRL_ADC_EN d) (sel - 40) then some x else none)
  else none

/-- EN of a channel goes to 0 (R392): in ABORT mode it drops what it holds; `work` samples are on their way through it. -/
def wchOff (s : State) (d c work now : Nat) : State :=
  let s := (s.wr WCH_CH_CFG_EN d 0 c).disableUnit d 21 c work now
  if s.disAbort d 21 then s.modWch d c fun _ => {} else s

/-- A write of `WCH_CH_CFG_c` (R391). -/
def wchConfig (s : State) (d c w : Nat) : State :=
  let src := min 1 (bitsAt w 28 2)
  let same := s.rd WCH_CH_CFG_SRC d c == src && s.rd WCH_CH_CFG_SRC_SEL d c == bitsAt w 20 8 &&
    s.rd WCH_CH_CFG_DEC d c == bitsAt w 16 4 && s.rd WCH_CH_CFG_FIR_SEL d c == bitsAt w 10 5 &&
    s.rd WCH_CH_CFG_BIQ_SEL d c == bitsAt w 5 5
  let on := s.flag WCH_CH_CFG_EN d c
  if on && !same then s.refuseAccess
  else
    let s := (s.wrb WCH_CH_CFG_SYNC_EN d (bit w 30) c).wr WCH_CH_CFG_SRC d src c
    let s := (s.wr WCH_CH_CFG_SRC_SEL d (bitsAt w 20 8) c).wr WCH_CH_CFG_DEC d (bitsAt w 16 4) c
    let s := ((s.wr WCH_CH_CFG_FIR_SEL d (bitsAt w 10 5) c).wr WCH_CH_CFG_BIQ_SEL d (bitsAt w 5 5) c).respond 0
    if bit w 31 && !on then
      if 30 ≤ bitsAt w 10 5 ∨ 30 ≤ bitsAt w 5 5 ∨ s.rd WCH_CH_STEP_STEP d c < 65536 then
        (s.raise WCH_CFG_ERR_CFG_ERR d).wr WCH_CFG_ERR_LAST_CH d c
      else
        let s := s.modWch d c fun _ => {}
        (s.wr WCH_CH_CFG_EN d 1 c).enableUnit d 21 c
    else if !bit w 31 && on then s.wchOff d c 0 s.usNow
    else s

/-- A write of `WCH_CH_STEP_c` (R391). -/
def wchStep (s : State) (d c w : Nat) : State :=
  if s.flag WCH_CH_CFG_EN d c then s.refuseAccess else (s.wr WCH_CH_STEP_STEP d (bitsAt w 0 24) c).respond 0

end State

/-! ### Rows -/

/-- SENSOR_SLOT (R376). -/
def execSensorSlot (die : Fin 8) (a b : Fin 65536) (s : State) : Host.Outcome State Fault Refusal :=
  runDie s die fun s => if s.flag PWR_STATUS_PARKED die then s else s.sensorSlot die a b

/-- SEQ_TRIGGER (R377, R378): a trigger of a source acts where TRIG selects it. Log entry 63 DESIGN CHOICE. -/
def execSeqTrigger (die : Fin 8) (trig : Fin 6) (s : State) : Host.Outcome State Fault Refusal :=
  runDie s die fun s => if s.rd HKA_SEQ_CTRL_TRIG die = (trig : Nat) then s.seqTrigger die else s

/-- SEQ_GO (R377). -/
def execSeqGo (die : Fin 8) (s : State) : Host.Outcome State Fault Refusal :=
  runDie s die fun s => if s.rd HKA_SEQ_CTRL_TRIG die = 0 then s.seqTrigger die else s

/-- HK_CONVERSION (R377). -/
def execHkConversion (die : Fin 8) (a b : Int) (s : State) : Host.Outcome State Fault Refusal :=
  runDie s die fun s => s.conversion die a b

/-- SEQ_PASS_END (R378). -/
def execSeqPassEnd (die : Fin 8) (s : State) : Host.Outcome State Fault Refusal :=
  runDie s die fun s => s.passEnd die

/-- URGENT_GO (R379). -/
def execUrgentGo (die : Fin 8) (data : Word) (s : State) : Host.Outcome State Fault Refusal :=
  runDie s die fun s => s.urgentGo die data.toNat

/-- URGENT_DONE (R379). -/
def execUrgentDone (die : Fin 8) (a b : Int) (s : State) : Host.Outcome State Fault Refusal :=
  runDie s die fun s => s.urgentDone die a b

/-- SYNC_IN_EDGE (R380, R388): decimators first, then the passes that it triggers. -/
def execSyncInEdge (s : State) : Host.Outcome State Fault Refusal :=
  run s fun s => s.forEach s.dieList fun t d =>
    let t := t.wchSync d
    if t.rd HKA_SEQ_CTRL_TRIG d = 2 then t.seqTrigger d else t

/-- SYNC_OUT_GO (R380): it acts only at the crown. -/
def execSyncOutGo (die : Fin 8) (s : State) : Host.Outcome State Fault Refusal :=
  runDie s die fun s =>
    if s.crown.token = some (die : Nat) then s.modSeq die fun x => { x with syncOut := true } else s

/-- SYNC_OUT_PULSE (R380). -/
def execSyncOutPulse (s : State) : Host.Outcome State Fault Refusal :=
  run s fun s =>
    match s.crown.token with
    | some c => if (s.seqSt c).syncOut then (s.modSeq c fun x => { x with syncOut := false }).emit .syncOut else s
    | none => s

/-- WCH_SYNC (R388). -/
def execWchSync (die : Fin 8) (s : State) : Host.Outcome State Fault Refusal :=
  runDie s die fun s => s.wchSync die

/-- WCH_CHANNEL_CONFIG (R391): a write of the channel's configuration or of its STEP. -/
def execWchChannelConfig (die : Fin 8) (ch : Fin 16) (step : Bool) (data : Word) (s : State) :
    Host.Outcome State Fault Refusal :=
  runDie s die fun s => if step then s.wchStep die ch data.toNat else s.wchConfig die ch data.toNat

/-- WCH_INPUT_SAMPLE (R382, R390): the input stream's sample; one that meets a full buffer is discarded.
Log entry 63 DESIGN CHOICE. -/
def execWchInputSample (die : Fin 8) (ch : Fin 16) (x : Int) (full : Bool) (s : State) :
    Host.Outcome State Fault Refusal :=
  runDie s die fun s =>
    if !s.flag WCH_CH_CFG_EN die ch || s.heldIdle die then s
    else
      match s.streamSample die ch x with
      | none => s
      | some v =>
        if full then (s.count WCH_CH_LOST_COUNT die 1 ch).wrBit WCH_STAT_EVENT_OVERLOAD die ch true
        else s.wchSample die ch v

end Sys2Proof.Machine
end

