-- ==== Sys2Proof/Machine/FaultLog.lean ====
section
/-! DEFINITION. The fault log of a die (spec/16, R433 and R434). -/
namespace Sys2Proof.Machine
open Sys2Proof

namespace State

/-- Word `w` of entry `k` of a die's log. -/
def wrLogWord (s : State) (d k w v : Nat) : State :=
  match w with
  | 0 => s.wr FLT_LOG_ENTRY0_WORD d v k
  | 1 => s.wr FLT_LOG_ENTRY1_WORD d v k
  | 2 => s.wr FLT_LOG_ENTRY2_WORD d v k
  | _ => s.wr FLT_LOG_ENTRY3_WORD d v k

/-- The seconds that word 3 of an entry holds: 0 while TOD_VALID is 0 (R434). -/
def logSeconds (s : State) : Nat := if s.flag TIM_DPLL_STATUS_TOD_VALID pkg then s.tim.todSec % 2 ^ 32 else 0

/-- Write the four words of an entry (R434). -/
def wrLogEntry (s : State) (d k seq : Nat) (r : FaultRec) : State :=
  let w0 := (seq % 65536) * 65536 + (r.level : Nat) * 4096 + (r.cls : Nat) * 256 + r.code
  let w1 := (r.block : Nat) * 16777216 + (r.unit : Nat) * 65536 + r.detail
  (((s.wrLogWord d k 0 w0).wrLogWord d k 1 w1).wrLogWord d k 2 s.time.mf).wrLogWord d k 3 s.logSeconds

/-- Log an event at a die (R433): it takes the next SEQ number; a full log either overwrites its oldest entry or, with
STOP_WHEN_FULL, keeps its entries; either way OVERWRITES counts. -/
def log (s : State) (d : Nat) (r : FaultRec) : State :=
  let seq := (s.die d).logSeq
  let n := s.rd FLT_LOG_STATUS_COUNT d
  let next := s.rd FLT_LOG_STATUS_NEXT d
  let s := s.modDie d fun x => { x with logSeq := (seq + 1) % 65536 }
  let s := if r.cls = 1 then s.raise FLT_EVENT_PERMANENT d else s
  let s := if r.cls = 2 then s.raise FLT_EVENT_RETIRED d else s
  if n = 64 ∧ s.flag FLT_LOG_CTRL_STOP_WHEN_FULL d then s.count FLT_LOG_STATUS_OVERWRITES d
  else
    let s := s.wrLogEntry d next seq r
    let s := s.raise FLT_EVENT_LOGGED d
    let s := s.wr FLT_LOG_STATUS_NEXT d ((next + 1) % 64)
    if n = 64 then s.count FLT_LOG_STATUS_OVERWRITES d
    else (s.wr FLT_LOG_STATUS_COUNT d (n + 1)).wrb FLT_LOG_STATUS_FULL d (n + 1 == 64)

/-- Empty a die's log (R433): SEQ continues and OVERWRITES is kept. -/
def clearLog (s : State) (d : Nat) : State :=
  ((s.wr FLT_LOG_STATUS_COUNT d 0).wr FLT_LOG_STATUS_FULL d 0).wr FLT_LOG_STATUS_NEXT d 0

/-- Log a package event in the crown's own log (R433). -/
def logCrown (s : State) (r : FaultRec) : State :=
  match s.crown.token with
  | some c => s.log c r
  | none => s

end State

/-! The codes of R434. -/

/-- A package event of class 3 (event) about a die, at chip level. Log entry 84 DEDUCED. -/
def chipEvent (code : Fin 256) (unit : Nat) (detail : Nat) : FaultRec :=
  { level := 4, cls := 3, code := code, block := 0, unit := Fin.ofNat 256 unit, detail := Fin.ofNat 65536 detail }

def codeSelftestFail : Fin 256 := 0x01
def codeImageFail : Fin 256 := 0x02
def codeCellEvent : Fin 256 := 0x03
def codeCellRemapped : Fin 256 := 0x04
def codeBlockReset : Fin 256 := 0x05
def codeBlockRetired : Fin 256 := 0x06
def codeScRetired : Fin 256 := 0x07
def codeClusterRetired : Fin 256 := 0x08
def codeEngineRestart : Fin 256 := 0x09
def codeEngineRetired : Fin 256 := 0x0A
def codeMemUe : Fin 256 := 0x0B
def codeBankFailed : Fin 256 := 0x0C
def codeLaneRetired : Fin 256 := 0x0D
def codeCalFail : Fin 256 := 0x0E
def codePllFail : Fin 256 := 0x0F
def codeDieReset : Fin 256 := 0x10
def codeDieRetired : Fin 256 := 0x11
def codeQuarantine : Fin 256 := 0x12
def codeMemberLost : Fin 256 := 0x13
def codeTakeover : Fin 256 := 0x14
def codeRebase : Fin 256 := 0x15

end Sys2Proof.Machine
end

