-- ==== Sys2Proof/Machine/Memory.lean ====
section
/-! DEFINITION. Tightly coupled memories and scratchpad banks (spec/11): ownership, power states, error-correcting codes,
scrub, march test and repair. -/
namespace Sys2Proof

/-! ### Places and words -/

/-- The die-window offset at which a memory starts (R54). -/
def MemId.off : MemId → Nat
  | .tcm e => 0x01000000 + (e : Nat) * 0x10000
  | .bank b => 0x02000000 + (b : Nat) * 0x20000

/-- Bytes of a memory (R303, R309). -/
def MemId.size : MemId → Nat
  | .tcm _ => 0x10000
  | .bank _ => 0x20000

/-- Bytes of a stored word: 4 in a tightly coupled memory, 8 in a bank (R323). -/
def MemId.wordSize : MemId → Nat
  | .tcm _ => 4
  | .bank _ => 8

/-- The memory group whose corrections and bucket a memory feeds (R318). -/
def MemId.group : MemId → Nat
  | .tcm e => (e : Nat) / 8
  | .bank b => 8 + (b : Nat) / 32

/-- The block slot that reports a memory's faults: ENG or MEM. Log entry 103 DEDUCED. -/
def MemId.block : MemId → Fin 256
  | .tcm _ => 14
  | .bank _ => 15

/-- The index of a memory within its kind. Log entry 103 DEDUCED. -/
def MemId.index : MemId → Nat
  | .tcm e => e
  | .bank b => b

/-- The index of a bank. -/
def MemId.bankIndex : MemId → Option Nat
  | .tcm _ => none
  | .bank b => some b

/-- Every memory of a die. -/
def MemId.all : List MemId :=
  ((List.range 64).map fun e => MemId.tcm (Fin.ofNat 64 e)) ++ ((List.range 256).map fun b => MemId.bank (Fin.ofNat 256 b))

/-- The code of a requester in `MEM_ACC_ERR.KIND` and `ECC_UE_INFO.KIND`, and its index in `MEM_ACC_ERR.REQ`. -/
def MemReq.kind : MemReq → Nat
  | .engine _ => 0
  | .dma _ => 1
  | .mgmt => 2
  | .block _ => 3
def MemReq.index : MemReq → Nat
  | .engine e => e
  | .dma c => c
  | .mgmt => 0
  | .block k => k

end Sys2Proof

namespace Sys2Proof.Machine
open Sys2Proof

/-- The memory at a die-window offset. -/
def memAt (off : Nat) : Option MemId :=
  if 0x01000000 ≤ off ∧ off < 0x01400000 then some (.tcm (Fin.ofNat 64 ((off - 0x01000000) / 0x10000)))
  else if 0x02000000 ≤ off ∧ off < 0x04000000 then some (.bank (Fin.ofNat 256 ((off - 0x02000000) / 0x20000)))
  else none

namespace State

/-- Records of a die's memories. -/
def bankSt (s : State) (d b : Nat) : BankSt := s.banks.get {} (unitKey d b)
def modBank (s : State) (d b : Nat) (f : BankSt → BankSt) : State :=
  { s with banks := s.banks.set {} (unitKey d b) (f (s.bankSt d b)) }
def tcmSt (s : State) (d e : Nat) : TcmSt := s.tcms.get {} (unitKey d e)
def modTcm (s : State) (d e : Nat) (f : TcmSt → TcmSt) : State :=
  { s with tcms := s.tcms.set {} (unitKey d e) (f (s.tcmSt d e)) }
def memSt (s : State) (d : Nat) : MemSt := s.memSts.get {} (unitKey d 0)
def modMem (s : State) (d : Nat) (f : MemSt → MemSt) : State :=
  { s with memSts := s.memSts.set {} (unitKey d 0) (f (s.memSt d)) }

/-! ### Engines halt and start (R307, R329) -/

/-- An engine runs. -/
def engRuns (s : State) (d e : Nat) : Bool := s.rd ENG_STATUS_STATE d e == 1

/-- An engine is halted (R308). -/
def engHalted (s : State) (d e : Nat) : Bool := bit (s.rd ENG_HALTED_HALTED d (e / 32)) (e % 32)

/-- An engine halts with a cause; a retired engine stays retired. -/
def haltEng (s : State) (d e cause : Nat) : State :=
  let s := s.wrBit ENG_HALTED_HALTED d (e % 32) true (e / 32)
  let s := if s.rd ENG_STATUS_STATE d e = 3 then s else s.wr ENG_STATUS_STATE d 0 e
  s.wr ENG_STATUS_CAUSE d cause e

/-- An engine starts at its reset vector (R303): enabled, not retired, with its memory in use and not held idle (R51). -/
def startEng (s : State) (d e : Nat) : State :=
  if s.rd ENG_STATUS_STATE d e = 3 ∨ (s.tcmSt d e).failed ∨ s.heldIdle d then s
  else
    let s := (s.wrBit ENG_HALTED_HALTED d (e % 32) false (e / 32)).wr ENG_STATUS_STATE d 1 e
    { s with engs := s.engs.set {} (unitKey d e) {} }

/-! ### Error-correcting codes (R317 to R322) -/

/-- The error mark of the word at a die-window offset. -/
def errAt (s : State) (d off : Nat) : Option WordErr := s.wordErr.find (unitKey d off)

/-- Set or remove the error mark of a word. -/
def setErr (s : State) (d off : Nat) (x : Option WordErr) : State :=
  match x with
  | some e => { s with wordErr := s.wordErr.put (unitKey d off) e }
  | none => { s with wordErr := s.wordErr.erase (unitKey d off) }

/-- Cells that have changed since they were written: each leaves its word with an error, never less than it had.
Log entry 46 DESIGN CHOICE. -/
def upset (s : State) (d : Nat) (us : List (Nat × WordErr)) : State :=
  s.forEach us fun t u =>
    match t.errAt d u.1, u.2 with
    | some .double, _ => t
    | some .poison, _ => t
    | some .single, .single => t.setErr d u.1 (some .double)
    | _, x => t.setErr d u.1 (some x)

/-- A correction in a word (R317, R318): the group's count and bucket, and the captured address; an
overflow is logged and reported as a fault of the memory (R431). Log entry 49 DEDUCED. -/
def correction (s : State) (d off : Nat) (m : MemId) : State :=
  let g := m.group
  let s := s.count ECC_COUNT_CE d 1 g
  let s := s.wr ECC_CE_ADDR_ADDRESS d off
  if s.rd ECC_BUCKET_LEVEL d g < s.rd ECC_BUCKET_SIZE d g then s.wr ECC_BUCKET_LEVEL d (s.rd ECC_BUCKET_LEVEL d g + 1) g
  else
    let r : FaultRec :=
      { level := 2, cls := 0, code := codeMemUe, block := m.block, unit := Fin.ofNat 256 m.index, detail := 0 }
    ((s.wrBit ECC_EVENT_BUCKET d g true).log d r).emit (.fault d r)

/-- An uncorrectable word is found (R317, R321): the first since UE was last zero is captured, the group counts it and
the die logs it. Log entries 49 DEDUCED, 103 DEDUCED. -/
def uncorrectable (s : State) (d off : Nat) (m : MemId) (kind : Nat) (partialWrite : Bool) : State :=
  let s := if s.flag ECC_EVENT_UE d then s
    else ((s.wr ECC_UE_ADDR_ADDRESS d off).wr ECC_UE_INFO_KIND d kind).wrb ECC_UE_INFO_PARTIAL d partialWrite
  let s := (s.raise ECC_EVENT_UE d).count ECC_COUNT_UE d 1 m.group
  let r : FaultRec :=
    { level := 2, cls := 0, code := codeMemUe, block := m.block, unit := Fin.ofNat 256 m.index
      detail := Fin.ofNat 65536 off }
  (s.log d r).emit (.fault d r)

/-- A read finds the poison pattern (R322): no new UE event and no log entry. Log entry 48 DEDUCED. -/
def poisonRead (s : State) (d : Nat) (m : MemId) : State :=
  ((s.count ECC_UE_INFO_POISON_READS d).raise ECC_EVENT_POISON_READ d).count ECC_COUNT_UE d 1 m.group

/-- The checker on a read of a word (R317): whether its data may be used. Log entries 46 DESIGN CHOICE, 48 DEDUCED. -/
def checkRead (s : State) (d off : Nat) (m : MemId) (kind : Nat) : Bool × State :=
  match s.errAt d off with
  | none => (true, s)
  | some .single => (true, s.correction d off m)
  | some .double => (false, s.uncorrectable d off m kind false)
  | some .poison => (false, s.poisonRead d m)

/-- A write of bytes into one word (R319 to R321): `whole` when every byte of the word is written. Answers whether it
completes normally. -/
def checkWrite (s : State) (d off : Nat) (m : MemId) (kind : Nat) (whole : Bool) : Bool × State :=
  if whole then (true, s.setErr d off none)
  else
    match s.errAt d off with
    | none => (true, s)
    | some .single => (true, (s.correction d off m).setErr d off none)
    | some _ => (false, (s.uncorrectable d off m kind true).setErr d off (some .poison))

/-- The words of a memory that a byte range touches, by die-window offset. -/
def wordsOf (m : MemId) (off n : Nat) : List Nat :=
  let w := m.wordSize
  if n = 0 then [] else (List.range ((off + n - 1) / w - off / w + 1)).map fun i => m.off + (off / w + i) * w

/-- Read bytes of a memory through the checker: none when a word is uncorrectable. -/
def memGet (s : State) (d : Nat) (m : MemId) (off n kind : Nat) : Option (List Byte) × State :=
  let r := (wordsOf m off n).foldl (fun (a : Bool × State) w =>
    let c := a.2.checkRead d w m kind
    (a.1 && c.1, c.2)) (true, s)
  (if r.1 then some (r.2.memRead (dieBase d + m.off + off) n) else none, r.2)

/-- Write bytes of a memory through the checker: whether every word completes normally. -/
def memPut (s : State) (d : Nat) (m : MemId) (off kind : Nat) (bs : List Byte) : Bool × State :=
  let base := m.off + off
  let r := (wordsOf m off bs.length).foldl (fun (a : Bool × State) w =>
    let whole := decide (base ≤ w ∧ w + m.wordSize ≤ base + bs.length)
    let c := a.2.checkWrite d w m kind whole
    (a.1 && c.1, c.2)) (true, s)
  (r.1, r.2.memWrite (dieBase d + base) bs)

/-! ### Fill (R315) -/

/-- The hardware fill of a memory: zeros with valid check bits. -/
def fillMem (s : State) (d : Nat) (m : MemId) : State :=
  let lo := dieBase d + m.off
  { s with mem := memClear s.mem lo (lo + m.size)
           wordErr := s.wordErr.keep fun k => !(k.inst == d && decide (m.off ≤ k.idx ∧ k.idx < m.off + m.size)) }

/-- A memory comes on, its fill complete. -/
def memOn (s : State) (d : Nat) (m : MemId) : State :=
  match m with
  | .tcm e => s.modTcm d e fun x => { x with power := 0 }
  | .bank b => s.wr MEM_BANK_STATUS_POWER d 0 b

/-! ### Access to a bank (R309, R313, R314) -/

/-- The owner of a bank, or management with HOST_ANY (R309). -/
def bankOwns (s : State) (d b : Nat) (req : MemReq) : Bool :=
  let kind := s.rd MEM_BANK_CFG_KIND d b
  let owner := s.rd MEM_BANK_CFG_OWNER d b
  match req with
  | .engine e => kind == 1 && owner == (e : Nat) / 8
  | .dma c => kind == 0 || (kind == 1 && owner == (c : Nat))
  | .mgmt => kind == 0 || s.flag MEM_CTRL_HOST_ANY d
  | .block k => kind == 2 && owner == (k : Nat)

/-- A non-owner access (R309): the first since ACC_ERR was last zero is captured. Log entry 51 DEDUCED. -/
def accessErr (s : State) (d b off : Nat) (req : MemReq) : State :=
  let s := if s.flag MEM_EVENT_ACC_ERR d then s
    else (((s.wr MEM_ACC_ERR_KIND d req.kind).wr MEM_ACC_ERR_REQ d req.index).wr MEM_ACC_ERR_BANK d b).wr
      MEM_ACC_ERR_ADDR_ADDRESS d off
  s.raise MEM_EVENT_ACC_ERR d

/-- Enter a bank for an access at a byte of it: checked for ownership, then for a bank that is out of use, then for power.
A retained bank wakes and stays on; a filling bank serves once its fill is complete. Log entry 51 DEDUCED. -/
def enterBank (s : State) (d b byte : Nat) (req : MemReq) : Bool × State :=
  let m := MemId.bank (Fin.ofNat 256 b)
  if !s.bankOwns d b req then (false, s.accessErr d b (m.off + byte) req)
  else if s.flag MEM_BANK_STATUS_FAILED d b || (s.bankSt d b).march then (false, s)
  else
    match s.rd MEM_BANK_STATUS_POWER d b with
    | 0 => (true, s)
    | 1 => (true, s.wr MEM_BANK_STATUS_POWER d 0 b)
    | 2 => (false, s.raise MEM_EVENT_OFF_ACCESS d)
    | _ => (true, (s.fillMem d m).memOn d m)

/-- Enter a tightly coupled memory (R308 apart): out of use or under a destructive march it serves nobody; its power states
are those of R314. -/
def enterTcm (s : State) (d e : Nat) : Bool × State :=
  let x := s.tcmSt d e
  let m := MemId.tcm (Fin.ofNat 64 e)
  if x.failed || x.march then (false, s)
  else
    match x.power with
    | 0 => (true, s)
    | 1 => (true, s.memOn d m)
    | 2 => (false, s.raise MEM_EVENT_OFF_ACCESS d)
    | _ => (true, (s.fillMem d m).memOn d m)

/-- Enter a memory as a requester. Log entry 51 DEDUCED. -/
def enterMem (s : State) (d : Nat) (m : MemId) (byte : Nat) (req : MemReq) : Bool × State :=
  match m with
  | .tcm e => s.enterTcm d e
  | .bank b => s.enterBank d b byte req

/-- Read bytes of a memory as a requester. -/
def readMem (s : State) (d : Nat) (m : MemId) (off n : Nat) (req : MemReq) : Option (List Byte) × State :=
  let r := s.enterMem d m off req
  if r.1 then r.2.memGet d m off n req.kind else (none, r.2)

/-- Write bytes of a memory as a requester. -/
def writeMem (s : State) (d : Nat) (m : MemId) (off : Nat) (bs : List Byte) (req : MemReq) : Bool × State :=
  let r := s.enterMem d m off req
  if r.1 then r.2.memPut d m off req.kind bs else (false, r.2)

/-- Complete a read with its data, least significant byte first, or with an error response. -/
def answerRead (s : State) (r : Option (List Byte)) : State :=
  match r with
  | some bs => s.respond 0 (natLE bs)
  | none => s.refuseAccess

/-- Complete a write. -/
def answerWrite (s : State) (ok : Bool) : State := if ok then s.respond 0 else s.refuseAccess

/-! ### Management access (R308) -/

/-- Management may reach the tightly coupled memory of an engine now. -/
def tcmOpen (s : State) (d e : Nat) : Bool := s.engHalted d e || bit (s.rd ENG_CTRL_TCM_HOST d) (e / 8)

/-- A management access to a word of a tightly coupled memory (R308). -/
def mgmtTcm (s : State) (d e word : Nat) (write : Option Word) : State :=
  let m := MemId.tcm (Fin.ofNat 64 e)
  if !s.tcmOpen d e then (s.raise MEM_EVENT_TCM_BUSY d).refuseAccess
  else
    match write with
    | none => let r := s.readMem d m (4 * word) 4 .mgmt; r.2.answerRead r.1
    | some v => let r := s.writeMem d m (4 * word) (bytesLE 4 v.toNat) .mgmt; r.2.answerWrite r.1

/-- A management access of 32 bits to a bank, DMA class, at a byte of it (R311). -/
def mgmtBank (s : State) (d b byte : Nat) (write : Option Word) : State :=
  let m := MemId.bank (Fin.ofNat 256 b)
  match write with
  | none => let r := s.readMem d m byte 4 .mgmt; r.2.answerRead r.1
  | some v => let r := s.writeMem d m byte (bytesLE 4 v.toNat) .mgmt; r.2.answerWrite r.1

/-! ### Handover and power of a bank (R310, R314, R328) -/

/-- A requested power state takes hold. From off, a bank comes on filling. Log entry 134 DEDUCED. -/
def applyBankPower (s : State) (d b p : Nat) : State :=
  let m := MemId.bank (Fin.ofNat 256 b)
  let now := s.rd MEM_BANK_STATUS_POWER d b
  match p with
  | 0 => if now = 2 then s.wr MEM_BANK_STATUS_POWER d 3 b else if now = 1 then s.wr MEM_BANK_STATUS_POWER d 0 b else s
  | 1 => if now = 2 then s else s.wr MEM_BANK_STATUS_POWER d 1 b
  | _ => (s.fillMem d m).wr MEM_BANK_STATUS_POWER d 2 b

/-- The first idle cycle of a bank: a pending power request and a pending handover take effect (R310, R328). -/
def bankIdle (s : State) (d b : Nat) : State :=
  let x := s.bankSt d b
  let s := match x.power with
    | some p => s.applyBankPower d b p
    | none => s
  let s := match x.owner with
    | some o => ((s.wr MEM_BANK_CFG_KIND d o.1 b).wr MEM_BANK_CFG_OWNER d o.2 b).wr MEM_BANK_STATUS_HANDOVER_PENDING d 0 b
    | none => s
  s.modBank d b fun y => { y with owner := none, power := none }

/-- A write of KIND and OWNER (R310). Log entry 47 DEDUCED. -/
def bankOwnerWrite (s : State) (d b kind owner : Nat) : State :=
  (s.modBank d b fun x => { x with owner := some (kind, owner) }).wr MEM_BANK_STATUS_HANDOVER_PENDING d 1 b

/-- A write of POWER (R314): 3 is stored as 2; a request to leave the on state waits for an idle bank.
Log entry 134 DEDUCED. -/
def bankPowerWrite (s : State) (d b power : Nat) (idle : Bool) : State :=
  let p := min power 2
  let s := s.wr MEM_BANK_CFG_POWER d p b
  if p = 0 ∨ idle then (s.modBank d b fun x => { x with power := none }).applyBankPower d b p
  else s.modBank d b fun x => { x with power := some p }

/-! ### Memories taken out of use (R316, R327) -/

/-- Report a permanent fault of a memory. -/
def memFault (s : State) (d : Nat) (m : MemId) (code : Fin 256) : State :=
  s.emit (.fault d ⟨2, 1, code, m.block, Fin.ofNat 256 m.index, 0⟩)

/-- Take a memory out of use: a tightly coupled memory halts its engine, a bank is marked FAILED. -/
def takeOut (s : State) (d : Nat) (m : MemId) : State :=
  match m with
  | .tcm e => ((s.modTcm d e fun x => { x with failed := true }).haltEng d e 4).memFault d m codeEngineRetired
  | .bank b => (s.wr MEM_BANK_STATUS_FAILED d 1 b).memFault d m codeBankFailed

/-! ### Repair (R327) -/

/-- The four repair entries of a bank: in use, row. -/
def repairs (s : State) (d b : Nat) : List (Bool × Nat) :=
  [ (s.flag MEM_REPAIR0_VALID_LO d b, s.rd MEM_REPAIR0_ROW_LO d b),
    (s.flag MEM_REPAIR0_VALID_HI d b, s.rd MEM_REPAIR0_ROW_HI d b),
    (s.flag MEM_REPAIR1_VALID_LO d b, s.rd MEM_REPAIR1_ROW_LO d b),
    (s.flag MEM_REPAIR1_VALID_HI d b, s.rd MEM_REPAIR1_ROW_HI d b) ]

/-- Write one repair entry. -/
def wrRepair (s : State) (d b i : Nat) (v : Bool) (row : Nat) : State :=
  match i with
  | 0 => (s.wrb MEM_REPAIR0_VALID_LO d v b).wr MEM_REPAIR0_ROW_LO d row b
  | 1 => (s.wrb MEM_REPAIR0_VALID_HI d v b).wr MEM_REPAIR0_ROW_HI d row b
  | 2 => (s.wrb MEM_REPAIR1_VALID_LO d v b).wr MEM_REPAIR1_ROW_LO d row b
  | _ => (s.wrb MEM_REPAIR1_VALID_HI d v b).wr MEM_REPAIR1_ROW_HI d row b

/-- Usable spare rows left: 4 less the entries in use and the spares found bad. -/
def refreshSpares (s : State) (d b : Nat) : State :=
  let used := ((s.repairs d b).filter fun r => r.1).length
  s.wr MEM_BANK_STATUS_SPARES_FREE d (4 - used - (s.bankSt d b).badSpares) b

/-- Copy a row to its spare through the checker (R327): correctable words corrected, uncorrectable words with poison. -/
def copyRow (s : State) (d b row : Nat) : State :=
  let m := MemId.bank (Fin.ofNat 256 b)
  s.forEach (wordsOf m (32 * row) 32) fun t w =>
    match t.errAt d w with
    | none => t
    | some .single => (t.correction d w m).setErr d w none
    | some .double => (t.uncorrectable d w m 5 true).setErr d w (some .poison)
    | some .poison => t

/-- Map a row of a bank to a free spare; with none the bank fails (R327). -/
def repairRow (s : State) (d b row : Nat) : State :=
  if (s.repairs d b).any fun r => r.1 && r.2 == row then s
  else if s.rd MEM_BANK_STATUS_SPARES_FREE d b = 0 then
    (s.takeOut d (.bank (Fin.ofNat 256 b))).raise MEM_EVENT_BANK_FAIL d
  else
    match ((s.repairs d b).zipIdx.find? fun r => !r.1.1) with
    | some r => ((s.copyRow d b row).wrRepair d b r.2 true row).refreshSpares d b
    | none => (s.takeOut d (.bank (Fin.ofNat 256 b))).raise MEM_EVENT_BANK_FAIL d

/-- A bank or memory is under a march. -/
def underMarch (s : State) (d : Nat) (m : MemId) : Bool :=
  match (s.memSt d).march with
  | some r => r.1.contains m
  | none => false

/-- A write of `MEM_REPAIR_b_j` (R327, R328): each newly valid entry copies its row. -/
def repairWrite (s : State) (d b j data : Nat) : State :=
  if s.underMarch d (.bank (Fin.ofNat 256 b)) then s.raise MEM_EVENT_REPAIR_ERR d
  else
    let one (t : State) (i lo : Nat) : State :=
      let v := bit data (lo + 15)
      let row := bitsAt data lo 12
      let old := (t.repairs d b).getD i (false, 0)
      let t := if v && !(old.1 && old.2 == row) then t.copyRow d b row else t
      t.wrRepair d b i v row
    ((one (one s (2 * j) 0) (2 * j + 1) 16).refreshSpares d b).respond 0

/-! ### Scrub (R323) -/

/-- The scrub skips a memory: off, retained, failed, or under a destructive march. Log entry 50 DEDUCED. -/
def scrubSkips (s : State) (d : Nat) (m : MemId) : Bool :=
  match m with
  | .tcm e => let x := s.tcmSt d e; x.failed || x.march || x.power == 1 || x.power == 2
  | .bank b =>
    s.flag MEM_BANK_STATUS_FAILED d b || (s.bankSt d b).march || s.rd MEM_BANK_STATUS_POWER d b == 1 ||
      s.rd MEM_BANK_STATUS_POWER d b == 2

/-- Bytes of a memory inside a range of die-window offsets. -/
def overlap (m : MemId) (lo hi : Nat) : Nat := min hi (m.off + m.size) - max lo m.off

/-- Words of the memories it checks that a scrub counts in a range. Log entry 50 DEDUCED. -/
def scrubWords (s : State) (d lo hi : Nat) : Nat :=
  MemId.all.foldl (fun n m => if s.scrubSkips d m then n else n + overlap m lo hi / m.wordSize) 0

/-- The marked words of a range in memories that the scrub checks, lowest first. -/
def scrubFinds (s : State) (d lo hi : Nat) : List (Nat × WordErr) :=
  s.wordErr.filterMap fun e =>
    if e.1.inst == d && decide (lo ≤ e.1.idx ∧ e.1.idx < hi) then
      match memAt e.1.idx with
      | some m => if s.scrubSkips d m then none else some (e.1.idx, e.2)
      | none => none
    else none

/-- What a scrub does at a marked word: corrected and written back, or left as it is and reported. -/
def scrubWord (s : State) (d : Nat) (x : Nat × WordErr) : State :=
  let m := (memAt x.1).getD (.tcm 0)
  match x.2 with
  | .single =>
    ((s.correction d x.1 m).setErr d x.1 none).count ECC_SCRUB_RESULT_CORR d
  | .double => (s.uncorrectable d x.1 m 4 false).count ECC_SCRUB_RESULT_UNC d
  | .poison => (s.poisonRead d m).count ECC_SCRUB_RESULT_UNC d

/-- `ECC_SCRUB_FIRST` for the first marked word: FIRST_UE in bit 0 for a bank and bit 1 for a tightly coupled memory. -/
def scrubFirst (x : Nat × WordErr) : Nat :=
  let ue := x.2 != .single
  match memAt x.1 with
  | some (.bank _) => setBit x.1 0 ue
  | _ => setBit x.1 1 ue

/-- End a scrub that has checked the range from `lo` up to `hi`; with SCRUB_STOP_UE it stops at the first uncorrectable
word. Log entry 135 DEDUCED. -/
def endScrub (s : State) (d lo hi : Nat) : State :=
  let finds := s.scrubFinds d lo hi
  let stop := if s.flag ECC_CTRL_SCRUB_STOP_UE d then finds.find? fun x => x.2 != .single else none
  let upto := match stop with
    | some x => x.1 + ((memAt x.1).getD (.tcm 0)).wordSize
    | none => hi
  let finds := finds.filter fun x => decide (x.1 < upto)
  let s := (s.wr ECC_SCRUB_RESULT_CORR d 0).wr ECC_SCRUB_RESULT_UNC d 0
  let skipped := MemId.all.any fun m => s.scrubSkips d m && overlap m lo upto != 0
  let s := (s.wr ECC_SCRUB_WORDS_COUNT d (s.scrubWords d lo upto)).wrb ECC_CTRL_SCRUB_SKIPPED d skipped
  let s := s.wr ECC_SCRUB_FIRST_ADDRESS d (match finds.head? with | some x => scrubFirst x | none => 0)
  let s := s.forEach finds fun t x => t.scrubWord d x
  let s := (s.modMem d fun x => { x with scrub := none }).wr ECC_CTRL_SCRUB_BUSY d 0
  s.raise ECC_EVENT_SCRUB_DONE d

/-- A write of SCRUB_START (R323). -/
def scrubStart (s : State) (d : Nat) : State :=
  let lo := s.rd ECC_SCRUB_START_ADDRESS d
  let hi := s.rd ECC_SCRUB_END_ADDRESS d
  if hi ≤ lo ∨ (s.memSt d).scrub.isSome then s.raise ECC_CTRL_SCRUB_ERR d
  else (s.modMem d fun x => { x with scrub := some (lo, hi) }).wr ECC_CTRL_SCRUB_BUSY d 1

/-! ### March (R324 to R326) -/

/-- The memories a march request names. -/
def marchMems (s : State) (d : Nat) : List MemId :=
  let lo := s.rd MEM_MARCH_CTRL_FIRST_BANK d
  let hi := s.rd MEM_MARCH_CTRL_LAST_BANK d
  let mask := s.rd MEM_MARCH_CTRL_TCM_MASK d
  MemId.all.filter fun m =>
    match m with
    | .tcm e => bit mask ((e : Nat) / 8)
    | .bank b => decide (lo ≤ (b : Nat) ∧ (b : Nat) ≤ hi)

/-- A destructive march of a memory is refused: a bank not owned by DMA, an engine not halted. -/
def marchRefuses (s : State) (d : Nat) (m : MemId) : Bool :=
  match m with
  | .tcm e => !s.engHalted d e
  | .bank b => s.rd MEM_BANK_CFG_KIND d b != 0

/-- Mark memories as held by a destructive march, or release them. -/
def holdMarch (s : State) (d : Nat) (ms : List MemId) (v : Bool) : State :=
  s.forEach ms fun t m =>
    match m with
    | .tcm e => t.modTcm d e fun x => { x with march := v }
    | .bank b => t.modBank d b fun x => { x with march := v }

/-- The lowest bank under test. -/
def lowestBank (ms : List MemId) : Nat :=
  (ms.filterMap MemId.bankIndex).foldl min 255

/-- A march over some memories begins. -/
def beginMarch (s : State) (d : Nat) (ms : List MemId) (preserve : Bool) : State :=
  let s := s.modMem d fun x => { x with march := some (ms, preserve) }
  let s := if preserve then s else s.holdMarch d ms true
  ((s.wr MEM_MARCH_STATUS_BUSY d 1).wr MEM_MARCH_STATUS_REFUSED d 0).wr MEM_MARCH_STATUS_CURRENT d (lowestBank ms)

/-- A write of START (R325). -/
def marchStart (s : State) (d : Nat) : State :=
  let preserve := s.rd MEM_MARCH_CTRL_MODE d == 1
  let ms := s.marchMems d
  if (s.memSt d).march.isSome || (!preserve && ms.any (s.marchRefuses d)) then s.wr MEM_MARCH_STATUS_REFUSED d 1
  else s.beginMarch d ms preserve

/-- A march finds a failing row (R327): a spare row is marked unusable, a row of a bank is repaired where enabled or at
start-up, and a memory without spares is taken out of use. -/
def failingRow (s : State) (d : Nat) (boot : Bool) (x : MemId × Nat) : State :=
  match x.1 with
  | .tcm e => s.takeOut d (.tcm e)
  | .bank b =>
    if 4096 ≤ x.2 then (s.modBank d b fun y => { y with badSpares := y.badSpares + 1 }).refreshSpares d b
    else if boot || s.flag MEM_MARCH_CTRL_AUTO_REPAIR d then s.repairRow d b x.2
    else s

/-- A content-preserving march over a memory: each word is corrected or written back with poison (R325). -/
def preserveMem (s : State) (d : Nat) (m : MemId) : State :=
  let found := s.wordErr.filter fun e => e.1.inst == d && decide (m.off ≤ e.1.idx ∧ e.1.idx < m.off + m.size)
  s.forEach found fun t e =>
    match e.2 with
    | .single => (t.correction d e.1.idx m).setErr d e.1.idx none
    | .double => (t.uncorrectable d e.1.idx m 5 true).setErr d e.1.idx (some .poison)
    | .poison => t

/-- A march ends with the failing rows it found. A destructive march leaves its memories filled. -/
def marchDone (s : State) (d : Nat) (rows : List (MemId × Nat)) : State :=
  match (s.memSt d).march with
  | none => s
  | some r =>
    let s := if r.2 then s.forEach r.1 fun t m => t.preserveMem d m
      else (s.forEach r.1 fun t m => t.fillMem d m).holdMarch d r.1 false
    let boot := (s.memSt d).boot
    let s := s.modMem d fun x => { x with march := none, boot := false }
    let s := s.forEach (rows.filter fun x => r.1.contains x.1) fun t x => t.failingRow d boot x
    let s := (s.wr MEM_MARCH_STATUS_BUSY d 0).wr MEM_MARCH_STATUS_FAILED_ROWS d (min rows.length 255)
    s.raise MEM_EVENT_MARCH_DONE d

/-- A start-up march of every memory (R326). -/
def bootMarch (s : State) (d : Nat) : State :=
  if s.flag MEM_MARCH_CTRL_BOOT_EN d then (s.beginMarch d MemId.all false).modMem d fun x => { x with boot := true } else s

/-- A datapath block that receives a word marked in error reports a block fault (R317, R431). -/
def blockError (s : State) (d : Nat) (req : MemReq) (ok : Bool) : State :=
  match req, ok with
  | .block k, false => s.emit (.fault d { level := 1, cls := 0, code := codeMemUe, block := Fin.ofNat 256 k, unit := 0, detail := 0 })
  | _, _ => s

/-- A read of a bank by a requester: an uncorrectable word in the owner's bank is told apart from a refused access. -/
def bankRead (s : State) (d : Nat) (m : MemId) (off n : Nat) (req : MemReq) : State :=
  let e := s.enterMem d m off req
  if !e.1 then e.2.refuseAccess
  else
    let r := e.2.memGet d m off n req.kind
    (r.2.answerRead r.1).blockError d req r.1.isSome

/-- Reads and writes of one bank port access (R309). -/
def bankOp (s : State) (d b word : Nat) (req : MemReq) (op : BankOp) : State :=
  let m := MemId.bank (Fin.ofNat 256 b)
  match op with
  | .read => s.bankRead d m (8 * word) 8 req
  | .readRow => s.bankRead d m (32 * (word / 4)) 32 req
  | .writeRow d0 d1 d2 d3 =>
    let bs := bytesLE 8 d0.toNat ++ bytesLE 8 d1.toNat ++ bytesLE 8 d2.toNat ++ bytesLE 8 d3.toNat
    let r := s.writeMem d m (32 * (word / 4)) bs req
    r.2.answerWrite r.1
  | .write lanes v =>
    let e := s.enterBank d b (8 * word) req
    if !e.1 then e.2.refuseAccess
    else
      let c := e.2.checkWrite d (m.off + 8 * word) m req.kind (lanes == 255)
      let old := c.2.memRead (dieBase d + m.off + 8 * word) 8
      let bs := (old.zip (bytesLE 8 v.toNat)).zipIdx.map fun x => if bit lanes x.2 then x.1.2 else x.1.1
      (c.2.memWrite (dieBase d + m.off + 8 * word) bs).answerWrite c.1

end State

/-! ### Rows -/

/-- TCM_ACCESS (R308). -/
def execTcmAccess (die : Fin 8) (eng : Fin 64) (word : Fin 16384) (write : Option Word) (upset : Option WordErr)
    (s : State) : Host.Outcome State Fault Refusal :=
  runDie s die fun s =>
    let s := match upset with
      | some x => s.upset die [((MemId.tcm eng).off + 4 * (word : Nat), x)]
      | none => s
    s.mgmtTcm die eng word write

/-- BANK_ACCESS (R309, R313, R317 to R322). Two accesses that meet on one word add one conflict, and their effects follow
in the order of their commands. -/
def execBankAccess (die : Fin 8) (bank : Fin 256) (word : Fin 16384) (req : MemReq) (op : BankOp) (meets : Bool)
    (upset : Option WordErr) (s : State) : Host.Outcome State Fault Refusal :=
  runDie s die fun s =>
    let s := match upset with
      | some x => s.upset die [((MemId.bank bank).off + 8 * (word : Nat), x)]
      | none => s
    let s := if meets then s.count MEM_CONFLICT_COUNT die 1 bank else s
    s.bankOp die bank word req op

/-- BANK_OWNER_WRITE (R310). -/
def execBankOwnerWrite (die : Fin 8) (bank : Fin 256) (kind : Fin 4) (owner : Fin 32) (s : State) :
    Host.Outcome State Fault Refusal :=
  runDie s die fun s => s.bankOwnerWrite die bank kind owner

/-- BANK_HANDOVER (R310). Log entry 134 DEDUCED. -/
def execBankHandover (die : Fin 8) (bank : Fin 256) (s : State) : Host.Outcome State Fault Refusal :=
  runDie s die fun s => s.bankIdle die bank

/-- BANK_POWER_WRITE (R314). -/
def execBankPowerWrite (die : Fin 8) (bank : Fin 256) (power : Fin 4) (idle : Bool) (s : State) :
    Host.Outcome State Fault Refusal :=
  runDie s die fun s => s.bankPowerWrite die bank power idle

/-- MEMORY_FILL (R315). -/
def execMemoryFill (die : Fin 8) (mem : MemId) (s : State) : Host.Outcome State Fault Refusal :=
  runDie s die fun s => (s.fillMem die mem).memOn die mem

/-- CHECKER_SELFTEST (R316). -/
def execCheckerSelftest (die : Fin 8) (failing : List MemId) (s : State) : Host.Outcome State Fault Refusal :=
  runDie s die fun s => s.forEach failing fun t m => (t.raise ECC_EVENT_SELFTEST_FAIL die).takeOut die m

/-- BUCKET_LEAK (R318). -/
def execBucketLeak (die : Fin 8) (grp : Fin 16) (s : State) : Host.Outcome State Fault Refusal :=
  runDie s die fun s =>
    if s.rd ECC_BUCKET_LEAK die grp = 0 then s
    else s.wr ECC_BUCKET_LEVEL die (s.rd ECC_BUCKET_LEVEL die grp - 1) grp

/-- SCRUB_START (R323). -/
def execScrubStart (die : Fin 8) (s : State) : Host.Outcome State Fault Refusal :=
  runDie s die fun s => s.scrubStart die

/-- The upsets of a command as offsets. -/
def upsetList (us : List (Word × WordErr)) : List (Nat × WordErr) := us.map fun u => (u.1.toNat, u.2)

/-- SCRUB_STOP (R323): the scrub ends at the next word, with the summary so far. Log entry 135 DEDUCED. -/
def execScrubStop (die : Fin 8) (upto : Word) (upsets : List (Word × WordErr)) (s : State) :
    Host.Outcome State Fault Refusal :=
  runDie s die fun s =>
    let s := s.upset die (upsetList upsets)
    match (s.memSt die).scrub with
    | some r => s.endScrub die r.1 (clamp r.1 r.2 upto.toNat)
    | none => s

/-- SCRUB_DONE (R323). -/
def execScrubDone (die : Fin 8) (upsets : List (Word × WordErr)) (s : State) : Host.Outcome State Fault Refusal :=
  runDie s die fun s =>
    let s := s.upset die (upsetList upsets)
    match (s.memSt die).scrub with
    | some r => s.endScrub die r.1 r.2
    | none => s

/-- MARCH_START (R325). -/
def execMarchStart (die : Fin 8) (s : State) : Host.Outcome State Fault Refusal :=
  runDie s die fun s => s.marchStart die

/-- MARCH_DONE (R325, R327). -/
def execMarchDone (die : Fin 8) (rows : List (MemId × Fin 4100)) (upsets : List (Word × WordErr)) (s : State) :
    Host.Outcome State Fault Refusal :=
  runDie s die fun s => (s.upset die (upsetList upsets)).marchDone die (rows.map fun r => (r.1, (r.2 : Nat)))

/-- REPAIR_ENTRY_WRITE (R327, R328). -/
def execRepairEntryWrite (die : Fin 8) (bank : Fin 256) (j : Fin 2) (data : Word) (s : State) :
    Host.Outcome State Fault Refusal :=
  runDie s die fun s => s.repairWrite die bank j data.toNat

end Sys2Proof.Machine
end

