-- ==== Sys2Proof/Machine/ReedSolomon.lean ====
section
/-! DEFINITION. The Reed-Solomon codes of the pair line (spec/15, R396): codewords over GF(2^8) with
x^8 + x^4 + x^3 + x^2 + 1, shortened from length 255, the first byte the highest coefficient. -/
namespace Sys2Proof.Machine
open Sys2Proof

/-! ### GF(2^8) -/

/-- Product of two field elements. -/
def rsMul (a b : Nat) : Nat :=
  ((List.range 8).foldl (fun (p : Nat × Nat) i =>
    (if b.testBit i then p.1 ^^^ p.2 else p.1, if p.2.testBit 7 then (2 * p.2) ^^^ 0x11D else 2 * p.2)) (0, a)).1

/-- α^n. -/
def rsExp (n : Nat) : Nat := (List.range (n % 255)).foldl (fun a _ => rsMul a 2) 1

/-- Inverse of a nonzero element, a^254. -/
def rsInv (a : Nat) : Nat := (List.range 253).foldl (fun p _ => rsMul p a) a

/-- Value of a polynomial, lowest coefficient first. -/
def rsEval (p : List Nat) (x : Nat) : Nat := p.foldr (fun c a => rsMul a x ^^^ c) 0

/-- Product of two polynomials, cut to `n` coefficients. -/
def rsTimes (p q : List Nat) (n : Nat) : List Nat :=
  (List.range n).map fun k => (List.range (k + 1)).foldl (fun a i => a ^^^ rsMul (p.getD i 0) (q.getD (k - i) 0)) 0

/-! ### Encoding -/

/-- The generator polynomial of `n` check bytes, lowest coefficient first: its roots are `n` powers of α in a row, of which
the spec does not name the first. Log entry 64 DESIGN CHOICE. -/
def rsGen (n : Nat) : List Nat :=
  (List.range n).foldl (fun p i => rsTimes p [rsExp (Config.rsFirst + i), 1] (p.length + 1)) [1]

/-- The check bytes of an information part: the remainder after `n` more places by the generator. -/
def rsCheck (n : Nat) (info : List Byte) : List Byte :=
  let g := ((rsGen n).take n).reverse
  (info.foldl (fun r b =>
    let top := r.headD 0 ^^^ b.toNat
    ((r.drop 1 ++ [0]).zip g).map fun p => p.1 ^^^ rsMul top p.2) (List.replicate n 0)).map fun b => BitVec.ofNat 8 b

/-! ### Decoding -/

/-- The syndromes of a word with `n` check bytes: its values at the generator's roots. -/
def rsSyndromes (n : Nat) (w : List Byte) : List Nat :=
  (List.range n).map fun j => w.foldl (fun a b => rsMul a (rsExp (Config.rsFirst + j)) ^^^ b.toNat) 0

/-- State of the search for the error locator: locator, previous locator, length, shift, previous discrepancy. -/
structure RsSt where
  c : List Nat
  b : List Nat
  l : Nat
  m : Nat
  d : Nat
deriving DecidableEq, Repr

/-- One step of the search, for syndrome n. -/
def rsStep (syn : List Nat) (s : RsSt) (n : Nat) : RsSt :=
  let d := (List.range (s.l + 1)).foldl (fun a i => a ^^^ rsMul (s.c.getD i 0) (syn.getD (n - i) 0)) 0
  if d = 0 then { s with m := s.m + 1 }
  else
    let k := rsMul d (rsInv s.d)
    let c := (List.range (max s.c.length (s.b.length + s.m))).map fun i =>
      s.c.getD i 0 ^^^ (if i < s.m then 0 else rsMul k (s.b.getD (i - s.m) 0))
    if 2 * s.l ≤ n then { c := c, b := s.c, l := n + 1 - s.l, m := 1, d := d } else { s with c := c, m := s.m + 1 }

/-- The error value at a place whose locator is α^e, from the error evaluator and the locator polynomial. -/
def rsValue (evaluator locator : List Nat) (e : Nat) : Nat :=
  let inv := rsInv (rsExp e)
  let slope := (locator.zipIdx.filter fun p => p.2 % 2 == 1).foldl (fun a p => a ^^^ rsMul p.1 (rsExp ((255 - e % 255) * (p.2 - 1)))) 0
  rsMul (rsMul (rsEval evaluator inv) (rsInv slope)) (rsExp (e * (256 - Config.rsFirst % 255)))

/-- Decode a word with `n` check bytes: the word corrected and the bytes that were wrong, or none where no codeword lies
within n / 2 bytes (R396). -/
def rsDecode (n : Nat) (w : List Byte) : Option (List Byte × Nat) :=
  let syn := rsSyndromes n w
  if syn.all (· == 0) then some (w, 0)
  else
    let r := (List.range n).foldl (rsStep syn) { c := [1], b := [1], l := 0, m := 1, d := 1 }
    let evaluator := rsTimes syn r.c n
    let fixed := w.zipIdx.map fun p =>
      let e := w.length - 1 - p.2
      if rsEval r.c (rsInv (rsExp e)) = 0 then (p.1 ^^^ BitVec.ofNat 8 (rsValue evaluator r.c e), 1) else (p.1, 0)
    let out := fixed.map Prod.fst
    let wrong := (fixed.map Prod.snd).sum
    if 2 * r.l ≤ n ∧ wrong = r.l ∧ (rsSyndromes n out).all (· == 0) then some (out, wrong) else none

end Sys2Proof.Machine
end

