-- ==== Sys2Proof/Machine/PairLine.lean ====
section
/-! DEFINITION. The pair-line modem (spec/15): profiles, handshake, link in service and packets. -/
namespace Sys2Proof.Machine
open Sys2Proof

/-! ### Profiles (R396, R397): constellation × 2 + code, code 1 STRONG -/

/-- Net bits per symbol of a profile, in tenths, and its required SNR in 0.1 dB. -/
def plmProfile (p : Nat) : Nat × Nat :=
  match p with
  | 0 => (16, 150)
  | 1 => (10, 90)
  | 2 => (24, 210)
  | 3 => (15, 140)
  | 4 => (32, 270)
  | _ => (20, 195)

/-- The profile with the most net bits among some. -/
def mostBits (ps : List Nat) : Option Nat :=
  ps.foldl (fun (a : Option Nat) p =>
    match a with
    | none => some p
    | some b => if (plmProfile b).1 < (plmProfile p).1 then some p else some b) none

/-- The admitted profiles at an SNR and a target, both in 0.1 dB (R397). -/
def plmAdmitted (snr : Int) (target : Nat) : List Nat :=
  (List.range 6).filter fun p => decide (((plmProfile p).2 : Int) ≤ snr - target)

/-- A mask at a frequency: joined linearly between breakpoints, held beyond the last one and before the first (R398); none
without breakpoints. Log entry 175 DESIGN CHOICE. -/
def maskAt (pts : List (ℚ × ℚ)) (f : ℚ) : Option ℚ :=
  match (pts.filter fun p => decide (p.1 ≤ f)).getLast?, pts.find? fun p => decide (f < p.1) with
  | some a, some b => some (a.2 + (b.2 - a.2) * (f - a.1) / (b.1 - a.1))
  | some a, none => some a.2
  | none, some b => some b.2
  | none, none => none

/-- Net rate in kb/s of a profile at K (R396). -/
def plmRate (k p : Nat) : ℚ := 12500 * ((plmProfile p).1 : ℚ) / (k : ℚ)

/-- Information and check bytes of a code: 0 NORMAL, 1 STRONG (R396). -/
def plmCode (c : Nat) : Nat × Nat := if c = 0 then (200, 50) else (126, 126)

/-- SNR in 0.1 dB and EVM in 0.01 % of some symbols (R401). -/
def plmSnr10 (s y : List ℚ) : Int :=
  let noise := ((s.zip y).map fun p => (p.2 - p.1) * (p.2 - p.1)).sum
  Arith.round (100 * Arith.log10 ((s.map fun a => a * a).sum / noise))
def plmEvm (s y : List ℚ) : Nat :=
  let noise := ((s.zip y).map fun p => (p.2 - p.1) * (p.2 - p.1)).sum
  min 65535 (Arith.round (10000 * Arith.sqrt (noise / (s.map fun a => a * a).sum))).toNat

/-- A packet's bytes: TYPE, LEN and payload (R404). -/
def packetBytes (type : Nat) (payload : List Byte) : List Byte :=
  BitVec.ofNat 8 type :: (bytesBE 2 payload.length ++ payload)

/-- A packet joins those that wait for a codeword. -/
def pushPacket (x : PlmSt) (type : Nat) (payload : List Byte) : PlmSt :=
  { x with marks := x.marks ++ [x.line.length], line := x.line ++ packetBytes type payload }

/-- The information part of the next codeword, of `n` bytes: FIRST, the waiting bytes and idle (R404). -/
def nextInfo (x : PlmSt) (n : Nat) : List Byte :=
  let body := x.line.take (n - 1)
  let first := ((x.marks.find? fun m => decide (m < n - 1)).getD 0xFF)
  BitVec.ofNat 8 first :: (body ++ List.replicate (n - 1 - body.length) 0)

/-- What still waits after a codeword with `n` information bytes has left. -/
def afterInfo (x : PlmSt) (n : Nat) : PlmSt :=
  { x with line := x.line.drop (n - 1), marks := (x.marks.filter fun m => decide (n - 1 ≤ m)).map fun m => m - (n - 1) }

/-- Read packets from the bytes of a codeword (R404): the packets found, the bytes of one that runs on, and whether an
invalid TYPE or LEN stopped it. The number of steps is bounded by the bytes. -/
def plmParse : Nat → List Byte → List (Nat × List Byte) × List Byte × Bool
  | 0, _ => ([], [], false)
  | _, [] => ([], [], false)
  | n + 1, t :: rest =>
    if t = 0 then plmParse n rest
    else if 4 < t.toNat then ([], [], true)
    else
      match rest with
      | a :: b :: body =>
        let len := a.toNat * 256 + b.toNat
        if 1024 < len then ([], [], true)
        else if body.length < len then ([], t :: rest, false)
        else
          let r := plmParse n (body.drop len)
          ((t.toNat, body.take len) :: r.1, r.2)
      | _ => ([], t :: rest, false)

namespace State

def modPlm (s : State) (f : PlmSt → PlmSt) : State := { s with plm := f s.plm }

/-- STATE of the modem: 0 off, 1 listening, 2 probing, 3 capabilities, 4 training, 5 up, 6 fast retrain. -/
def plmState (s : State) : Nat := s.rd PLM_STATUS_STATE pkg
def setPlm (s : State) (v : Nat) : State := s.wr PLM_STATUS_STATE pkg v

/-- The modem runs: enabled, with the crown on die 0 or 1 (R40, R408). -/
def plmRuns (s : State) : Bool := s.flag PLM_CTRL_EN pkg && s.flag PKG_CROWN_STATUS_PLM_AVAIL pkg
def plmExchange (s : State) : Bool := s.flag PLM_CTRL_ROLE pkg

/-- The K values that the limits allow. -/
def plmKs (s : State) : List Nat :=
  let hi := s.rd PLM_LIMITS_K_MAX pkg
  let lo := s.rd PLM_LIMITS_K_MIN pkg
  if hi < lo then [hi] else (List.range 126).filter fun k => decide (lo ≤ k ∧ k ≤ hi)

/-- The running profiles. -/
def plmRx (s : State) : Nat := 2 * s.rd PLM_STATUS_M_RX pkg + s.rd PLM_STATUS_CODE_RX pkg
def plmTx (s : State) : Nat := 2 * s.rd PLM_STATUS_M_TX pkg + s.rd PLM_STATUS_CODE_TX pkg

/-- Set a direction's profile, and its rate in 10 kb/s. -/
def setPlmRx (s : State) (p : Nat) : State :=
  ((s.wr PLM_STATUS_M_RX pkg (p / 2)).wr PLM_STATUS_CODE_RX pkg p).wr PLM_RATE_RX pkg
    (plmRate (s.rd PLM_STATUS_K pkg) p / 10).floor.toNat
def setPlmTx (s : State) (p : Nat) : State :=
  ((s.wr PLM_STATUS_M_TX pkg (p / 2)).wr PLM_STATUS_CODE_TX pkg p).wr PLM_RATE_TX pkg
    (plmRate (s.rd PLM_STATUS_K pkg) p / 10).floor.toNat

/-- The handshake starts again: the exchange probes, the remote listens (R400). -/
def plmRestart (s : State) : State := s.setPlm (if s.plmRuns then (if s.plmExchange then 2 else 1) else 0)

/-- Send a packet: it waits for a codeword (R404). Log entry 66 DESIGN CHOICE. -/
def plmSend (s : State) (type : Nat) (payload : List Byte) : State :=
  (s.modPlm fun x => pushPacket x type payload).emit (.plmPacket type payload)

/-- One codeword leaves in the transmit profile (R396, R404); its waveform on the pair is not formed. Log entry 157 DESIGN
CHOICE. -/
def plmTransmit (s : State) : State :=
  let c := plmCode (s.rd PLM_STATUS_CODE_TX pkg)
  let info := nextInfo s.plm c.1
  (s.modPlm fun x => afterInfo x c.1).emit (.plmCodeword (info ++ rsCheck c.2 info))

/-- Codewords leave until no packet waits; at most `n` of them. -/
def plmSendAll (s : State) : Nat → State
  | 0 => s
  | n + 1 => if s.plm.line.isEmpty then s else s.plmTransmit.plmSendAll n

/-- The signal is gone: nothing is kept of packets on the line, in either direction. -/
def plmCut (s : State) : State :=
  s.modPlm fun x => { x with part := [], resync := true, sentSel := none, gotSel := none, line := [], marks := [] }

/-- The host packet that waits is sent while the link is up (R405). -/
def plmFlush (s : State) : State :=
  match s.plm.tx with
  | some p =>
    if s.plmState = 5 then
      let s := (s.plmSend p.1 p.2).modPlm fun x => { x with tx := none }
      (s.wr PLM_HOST_CTRL_TX_BUSY pkg 0).raise PLM_EVENT_TX_DONE pkg
    else s
  | none => s

/-- Show the margin and EVM of the receiver (R401). Log entry 66 DESIGN CHOICE. -/
def plmQuality (s : State) (snr : Int) (evm : Nat) : State :=
  (s.wrSat PLM_QUALITY_MARGIN pkg (snr - (plmProfile s.plmRx).2)).wr PLM_QUALITY_EVM pkg evm

/-- The receive SNR that the margin stands for. -/
def plmSnr (s : State) : Int := s.rdS PLM_QUALITY_MARGIN pkg + (plmProfile s.plmRx).2

/-- The net rate predicted at a K from an SNR: none where no profile is admitted. -/
def plmPredict (s : State) (k : Nat) (snr : Int) : ℚ :=
  match mostBits (plmAdmitted snr (s.rd PLM_LIMITS_TARGET pkg)) with
  | some p => plmRate k p
  | none => 0

/-- The K that maximises the smaller of the two predicted rates, ties to the larger K (R400, step 5). -/
def plmPickK (s : State) (r : PlmProbe) : Option Nat :=
  let both := s.plmKs.filterMap fun k =>
    match r.snrs.find? fun x => (x.1 : Nat) == k, r.farRates.find? fun x => (x.1 : Nat) == k with
    | some a, some b => some (k, min (s.plmPredict k a.2) (b.2 : ℚ))
    | _, _ => none
  (both.foldl (fun (a : Option (Nat × ℚ)) x =>
    if x.2 ≤ 0 then a
    else
      match a with
      | none => some x
      | some b => if b.2 ≤ x.2 then some x else some b) none).map fun x => x.1

/-- Take the peer's NODE_ID (R400). Log entry 65 DEDUCED. -/
def plmPeer (s : State) (n : Nat) : State :=
  let held := s.rd PLM_PEER_HI_NODE_ID pkg * 2 ^ 32 + s.rd PLM_PEER_LO_NODE_ID pkg
  let s := if s.flag PLM_STATUS_PEER_VALID pkg ∧ held = n then s else s.raise PLM_EVENT_PEER_CHG pkg
  ((s.wr PLM_PEER_LO_NODE_ID pkg n).wr PLM_PEER_HI_NODE_ID pkg (n / 2 ^ 32)).wr PLM_STATUS_PEER_VALID pkg 1

/-- The breakpoints of the PSD mask that are used, in 10 kHz and 0.1 dBm/Hz (R398). -/
def plmMask (s : State) : List (ℚ × ℚ) :=
  ((List.range 16).filter fun p => s.flag PLM_MASK_VALID pkg p).map fun p =>
    ((s.rd PLM_MASK_FREQ pkg p : ℚ), -5 * (s.rd PLM_MASK_LEVEL pkg p : ℚ))

/-- The least number of 0.1 dB steps by which the level goes down until the spectrum from 0 Hz to 62.5 MHz fits the mask (R398).
Log entry 175 DESIGN CHOICE. -/
def plmMaskSteps (s : State) (k : Nat) : Nat :=
  let taps := (List.range 16).map fun t => s.rdS PLM_TX_FIR_COEF pkg t
  let level : ℚ := s.rdS PLM_TX_LEVEL_LEVEL pkg
  ((List.range 6251).map fun (f : Nat) =>
    match maskAt s.plmMask (f : ℚ) with
    | some m => (10 * Config.plmPsd k taps f + level - m).ceil.toNat
    | none => 0).foldl max 0

/-- A training ends at a K with a measured SNR and the peer's choice (R398 to R400): the link is up, unless the SNR admits
no profile. -/
def plmTrained (s : State) (k : Nat) (r : PlmProbe) : State :=
  let snr := plmSnr10 r.symbols.decided r.symbols.slicer
  match mostBits (plmAdmitted snr (s.rd PLM_LIMITS_TARGET pkg)) with
  | none => s.plmRestart
  | some p =>
    let s := ((s.wr PLM_STATUS_K pkg k).setPlmRx p).setPlmTx (min 5 (r.farSelect : Nat))
    let s := (s.emit (.plmPacket 4 [BitVec.ofNat 8 p])).plmQuality snr (plmEvm r.symbols.decided r.symbols.slicer)
    let s := s.wrSat PLM_TX_LEVEL_APPLIED pkg (s.rdS PLM_TX_LEVEL_LEVEL pkg - s.plmMaskSteps k)
    let s := if s.plmMaskSteps k = 0 then s else s.raise PLM_EVENT_MASK_LIMIT pkg
    let s := (s.wr PLM_ECHO_ERLE pkg r.erle).plmCut
    ((s.setPlm 5).raise PLM_EVENT_UP pkg).plmFlush

/-- The capabilities that the modem sends (R400, step 4): NODE_ID, the K limits and the rate it predicts for each K. -/
def plmCapabilities (s : State) (r : PlmProbe) : Output :=
  .plmCaps (s.rd BUP_NODE_ID_HI_NODE_ID pkg * 2 ^ 32 + s.rd BUP_NODE_ID_LO_NODE_ID pkg) (s.rd PLM_LIMITS_K_MIN pkg)
    (s.rd PLM_LIMITS_K_MAX pkg) (s.plmKs.filterMap fun k =>
      (r.snrs.find? fun x => (x.1 : Nat) == k).map fun x => (k, s.plmPredict k x.2))

/-- The handshake of R400, run with what it found. -/
def plmHandshake (s : State) (r : PlmProbe) : State :=
  if !s.plmRuns || s.plmState == 5 || s.plmState == 6 || !r.otherRole then s
  else
    let s := (s.emit (s.plmCapabilities r)).plmPeer r.peer.toNat
    let k := if s.plmExchange then s.plmPickK r
      else if s.plmKs.contains (r.sentK : Nat) then some (r.sentK : Nat) else none
    match k with
    | none => s.plmRestart
    | some k => s.plmTrained k r

/-- The link goes down (R403): a fast retrain follows where it is enabled, else the full handshake. -/
def plmDown (s : State) (fast : Bool) : State :=
  if s.plmState = 5 then
    let s := (s.raise PLM_EVENT_DOWN pkg).count PLM_CNT_COUNT pkg 1 4
    let s := s.plmCut
    if fast && s.flag PLM_CTRL_FAST_EN pkg then s.setPlm 6 else s.plmRestart
  else s

/-- The crown moved (R408): a modem on the new crown starts a fast retrain from the held K and profiles; elsewhere it is
unavailable. -/
def plmMoved (s : State) : State :=
  if !s.plmRuns then s.setPlm 0
  else if s.plmState = 5 ∨ s.plmState = 6 then
    (s.setPlm 6).plmCut
  else s.plmRestart

/-- Show the head of the receive buffer. -/
def plmShowRx (s : State) : State :=
  let n := s.plm.rx.length
  ((s.wrb PLM_HOST_CTRL_RX_VALID pkg (n != 0)).wr PLM_HOST_CTRL_RX_FILL pkg n).wr PLM_HOST_CTRL_RX_LEN pkg
    (match s.plm.rx with
      | h :: _ => h.2.length
      | [] => 0)

/-- A packet for the host (R405): the buffer holds 4. -/
def plmHost (s : State) (type : Nat) (payload : List Byte) : State :=
  if 4 ≤ s.plm.rx.length then (s.count PLM_CNT_COUNT pkg 1 5).raise PLM_EVENT_RX_DROP pkg
  else ((s.modPlm fun x => { x with rx := x.rx ++ [(type, payload)] }).raise PLM_EVENT_RX_PACKET pkg).plmShowRx

/-- A write of TX_GO (R405): refused while a host packet waits. Log entry 65 DEDUCED. -/
def plmTxGo (s : State) : State :=
  if s.flag PLM_HOST_CTRL_TX_BUSY pkg then s
  else
    let bytes := (s.plm.txWindow.flatMap fun w => bytesLE 4 w).take (min 1024 (s.rd PLM_HOST_CTRL_TX_LEN pkg))
    let type := if s.flag PLM_HOST_CTRL_TX_TYPE pkg then 1 else 3
    ((s.modPlm fun x => { x with tx := some (type, bytes) }).wr PLM_HOST_CTRL_TX_BUSY pkg 1).plmFlush

/-- A write of RX_ACK. -/
def plmAck (s : State) : State := (s.modPlm fun x => { x with rx := x.rx.drop 1 }).plmShowRx

/-- A word of the receive window. -/
def plmRxWord (s : State) (i : Nat) : Nat :=
  match s.plm.rx with
  | h :: _ => natLE ((h.2.drop (4 * i)).take 4)
  | [] => 0

/-- A block reset empties the modem's buffers (R15). -/
def plmClear (s : State) : State :=
  ((s.modPlm fun x => { txWindow := x.txWindow }).wr PLM_HOST_CTRL_TX_BUSY pkg 0).plmShowRx

/-- A write of EN (R408): in DRAIN mode the modem sends what it has queued, in ABORT mode it discards it. -/
def plmEnable (s : State) (on : Bool) : State :=
  let was := s.flag PLM_CTRL_EN pkg
  if on == was then s
  else if on then ((s.wr PLM_CTRL_EN pkg 1).enableUnit pkg 22 0).plmRestart
  else
    let work := b2n s.plm.tx.isSome + s.plm.marks.length
    let abort := s.disAbort pkg 22
    let s := if abort then s else s.plmFlush
    let s := if abort then s else s.plmSendAll s.plm.line.length
    let work := if abort then work else 0
    let s := (s.wr PLM_CTRL_EN pkg 0).disableUnit pkg 22 0 work s.usNow
    (((s.modPlm fun x => { x with tx := none }).plmCut).wr PLM_HOST_CTRL_TX_BUSY pkg 0).setPlm 0

/-- Bytes of a codeword's information part after FIRST, joined to a packet that runs on, or from the first packet that
starts there when the receiver resynchronises (R404). -/
def plmBytes (s : State) (info : List Byte) : List Byte :=
  match info with
  | [] => []
  | f :: rest => if s.plm.resync then (if f = 0xFF then [] else rest.drop f.toNat) else s.plm.part ++ rest

/-- The information part of a received codeword and the bytes corrected in it, or none where it is uncorrectable or has not
the length of the receive profile's code (R396). -/
def plmDecode (s : State) (info check : List Byte) : Option (List Byte × Nat) :=
  let c := plmCode (s.rd PLM_STATUS_CODE_RX pkg)
  if info.length = c.1 ∧ check.length = c.2 then (rsDecode c.2 (info ++ check)).map fun r => (r.1.take c.1, r.2) else none

/-- The packets of a decoded codeword (R404). -/
def plmTake (s : State) (bytes : List Byte) (corrected : Bool) : State :=
  let s := if corrected then s.count PLM_CNT_COUNT pkg 1 0 else s
  let all := s.plmBytes bytes
  let r := plmParse all.length all
  let began := !s.plm.resync || bytes.headD 0xFF != 0xFF
  let s := s.modPlm fun x => { x with part := r.2.1, resync := r.2.2 || !began }
  let s := if r.2.2 then s.count PLM_CNT_COUNT pkg 1 3 else s
  (s.count PLM_CNT_COUNT pkg r.1.length 2).forEach r.1 fun t p => t.emit (.plmReceived p.1 p.2)

/-- An uncorrectable codeword: a packet that touches it is discarded, and the receiver resynchronises (R404). -/
def plmMiss (s : State) : State :=
  let s := s.count PLM_CNT_COUNT pkg 1 1
  let s := if s.plm.part.isEmpty then s else s.count PLM_CNT_COUNT pkg 1 3
  s.modPlm fun x => { x with part := [], resync := true }

/-- The receive direction changes to the profile that our SELECT named, the transmit direction to the one that the peer's
SELECT named (R402). -/
def plmShiftRx (s : State) : State :=
  match s.plm.sentSel with
  | some p => ((s.setPlmRx p).raise PLM_EVENT_SHIFT pkg).modPlm fun x => { x with sentSel := none }
  | none => s
def plmShiftTx (s : State) : State :=
  match s.plm.gotSel with
  | some p => ((s.setPlmTx p).raise PLM_EVENT_SHIFT pkg).modPlm fun x => { x with gotSel := none }
  | none => s

/-- A codeword boundary (R402, R404): a codeword is received and one leaves. A profile that a SELECT received before has named
holds from the codeword that leaves on, the profile that our SELECT has named from the next received codeword on.
Log entries 65 DEDUCED, 66 DESIGN CHOICE. -/
def plmCodeword (s : State) (info check : List Byte) : State :=
  if s.plmState ≠ 5 then s
  else
    let s := match s.plmDecode info check with
      | none => s.plmMiss
      | some r => s.plmTake r.1 (r.2 != 0)
    s.plmShiftTx.plmTransmit.plmShiftRx

end State

/-! ### Rows -/

/-- PLM_P1_SEND (R400). -/
def execPlmP1Send (s : State) : Host.Outcome State Fault Refusal :=
  run s fun s =>
    if s.plmRuns && s.plmExchange && (s.plmState == 0 || s.plmState == 1 || s.plmState == 2) then
      (s.setPlm 2).emit .plmProbe
    else s

/-- PLM_HANDSHAKE (R400). -/
def execPlmHandshake (probe : PlmProbe) (s : State) : Host.Outcome State Fault Refusal :=
  run s fun s => s.plmHandshake probe

/-- PLM_QUALITY_UPDATE (R401): the decided symbols of 100 ms and their slicer inputs. -/
def execPlmQualityUpdate (decided slicer : List ℚ) (s : State) : Host.Outcome State Fault Refusal :=
  run s fun s => if s.plmState = 5 then s.plmQuality (plmSnr10 decided slicer) (plmEvm decided slicer) else s

/-- STATUS_PACKET_SEND (R401): the margin and the EVM, two bytes each. Log entry 66 DESIGN CHOICE. -/
def execStatusPacketSend (s : State) : Host.Outcome State Fault Refusal :=
  run s fun s =>
    if s.plmState = 5 then
      s.plmSend 2 (bytesBE 2 (s.rd PLM_QUALITY_MARGIN pkg) ++ bytesBE 2 (s.rd PLM_QUALITY_EVM pkg))
    else s

/-- PLM_DOWNSHIFT (R402), while the margin is below TARGET − 3 dB: SELECT of the admitted profile with the most bits below the
running one, else of the next lower. Log entry 65 DEDUCED. -/
def execPlmDownshift (s : State) : Host.Outcome State Fault Refusal :=
  run s fun s =>
    if (s.rd PLM_LIMITS_TARGET pkg : Int) - 30 ≤ s.rdS PLM_QUALITY_MARGIN pkg then s
    else
    let lower := (List.range 6).filter fun p => decide ((plmProfile p).1 < (plmProfile s.plmRx).1)
    let adm := plmAdmitted s.plmSnr (s.rd PLM_LIMITS_TARGET pkg)
    let best := match mostBits (lower.filter adm.contains) with
      | some p => some p
      | none => mostBits lower
    match best with
    | some p =>
      if s.plmState = 5 then (s.plmSend 4 [BitVec.ofNat 8 p]).modPlm fun x => { x with sentSel := some p } else s
    | none => s

/-- PLM_UPSHIFT (R402). -/
def execPlmUpshift (s : State) : Host.Outcome State Fault Refusal :=
  run s fun s =>
    match mostBits (plmAdmitted s.plmSnr (s.rd PLM_LIMITS_TARGET pkg)) with
    | some p =>
      if s.plmState = 5 ∧ s.flag PLM_CTRL_UPSHIFT_EN pkg ∧ (plmProfile s.plmRx).1 < (plmProfile p).1 then
        (s.plmSend 4 [BitVec.ofNat 8 p]).modPlm fun x => { x with sentSel := some p }
      else s
    | none => s

/-- PLM_LINK_DOWN (R403). -/
def execPlmLinkDown (cause : PlmDown) (s : State) : Host.Outcome State Fault Refusal :=
  run s fun s =>
    match cause with
    | .margin => s.plmDown true
    | .uncorrectable => s.plmDown true
    | .noSignal => s.plmDown true

/-- PLM_RETRAIN (R403). -/
def execPlmRetrain (s : State) : Host.Outcome State Fault Refusal :=
  run s fun s => s.plmDown false

/-- PLM_FAST_RETRAIN_END (R403). -/
def execPlmFastRetrainEnd (ok : Bool) (probe : PlmProbe) (s : State) : Host.Outcome State Fault Refusal :=
  run s fun s =>
    if s.plmState = 6 then (if ok then s.plmTrained (s.rd PLM_STATUS_K pkg) probe else s.plmRestart) else s

/-- STATUS_PACKET (R401). -/
def execStatusPacket (margin : Int) (evm : Fin 65536) (s : State) : Host.Outcome State Fault Refusal :=
  run s fun s => (s.wrSat PLM_FAR_QUALITY_MARGIN pkg margin).wr PLM_FAR_QUALITY_EVM pkg evm

/-- HOST_PACKET (R405). -/
def execHostPacket (payload : List Byte) (s : State) : Host.Outcome State Fault Refusal :=
  run s fun s => s.plmHost 3 payload

/-- SELECT_PACKET (R402, R408): the transmit direction changes at the next codeword boundary; one that arrives during a retrain
is discarded. Log entry 65 DEDUCED. -/
def execSelectPacket (profile : Fin 8) (s : State) : Host.Outcome State Fault Refusal :=
  run s fun s =>
    if s.plmState = 5 ∧ (profile : Nat) < 6 then s.modPlm fun x => { x with gotSel := some profile } else s

/-- PLM_TX_GO (R405). -/
def execPlmTxGo (s : State) : Host.Outcome State Fault Refusal :=
  run s fun s => s.plmTxGo

/-- PLM_RX_ACK (R405). -/
def execPlmRxAck (s : State) : Host.Outcome State Fault Refusal :=
  run s fun s => s.plmAck

/-- PLM_CODEWORD (R404): the information part and the check bytes as received. Log entry 64 DESIGN CHOICE. -/
def execPlmCodeword (info check : List Byte) (s : State) : Host.Outcome State Fault Refusal :=
  run s fun s => s.plmCodeword info check

end Sys2Proof.Machine
end

