-- ==== Sys2Proof/Machine/Power.lean ====
section
/-! DEFINITION. Power domains and clocks (spec/12): the wake controller, the PLLs and the sampling reference, the power
estimate, decoder clusters and dormant arms. -/
namespace Sys2Proof.Machine
open Sys2Proof

/-! ### Domains of R332 -/

def domSampling : Nat := 2
def domFabric : Nat := 3
def domEngine : Nat := 4
def domRxArm (i : Nat) : Nat := 14 + i
def domTxArm (i : Nat) : Nat := 23 + i
def domCluster (k : Nat) : Nat := 33 + k
def domEngines (c : Nat) : Nat := 50 + c

/-- The PLL that a domain needs: 0 sampling, 1 fabric, 2 engine (R336). The root domain, the PLLs and the host lanes need
none. -/
def domPll (k : Nat) : Option Nat :=
  if k = 0 ∨ (2 ≤ k ∧ k ≤ 4) ∨ (42 ≤ k ∧ k ≤ 49) then none
  else if 5 ≤ k ∧ k ≤ 12 then some 0
  else if 50 ≤ k then some 2
  else some 1

/-- The domains that have a retained or dormant state (R332). -/
def domRetains (k : Nat) : Bool :=
  decide ((14 ≤ k ∧ k ≤ 21) ∨ (23 ≤ k ∧ k ≤ 30) ∨ (42 ≤ k ∧ k ≤ 57))

namespace State

/-- The wake controller of a die. -/
def pwrSt (s : State) (d : Nat) : PwrSt := s.pwr.get {} (unitKey d 0)
def modPwr (s : State) (d : Nat) (f : PwrSt → PwrSt) : State :=
  { s with pwr := s.pwr.set {} (unitKey d 0) (f (s.pwrSt d)) }

/-- LOCK of a PLL in `PWR_STATUS`. -/
def pllLocked (s : State) (d p : Nat) : Bool :=
  match p with
  | 0 => s.flag PWR_STATUS_SAMPLING_LOCK d
  | 1 => s.flag PWR_STATUS_FABRIC_LOCK d
  | _ => s.flag PWR_STATUS_ENGINE_LOCK d
def setPll (s : State) (d p : Nat) (v : Bool) : State :=
  let s := s.setDomain d (2 + p) (if v then 0 else 2)
  match p with
  | 0 => s.wrb PWR_STATUS_SAMPLING_LOCK d v
  | 1 => s.wrb PWR_STATUS_FABRIC_LOCK d v
  | _ => s.wrb PWR_STATUS_ENGINE_LOCK d v

/-- The state a domain is on its way to. Log entry 52 DEDUCED. -/
def domWant (s : State) (d k : Nat) : Option Nat := ((s.pwrSt d).want.find? fun x => x.1 == k).map fun x => x.2
def setWant (s : State) (d k : Nat) (v : Option Nat) : State :=
  s.modPwr d fun x =>
    let rest := x.want.filter fun y => y.1 != k
    { x with want := match v with
      | some t => rest ++ [(k, t)]
      | none => rest }

/-- The sampling source that a die takes when its sampling PLL starts (R103): die 0's, with SCLK_MISMATCH where its own
register differs. -/
def sclkSource (s : State) (d : Nat) : State :=
  let own := s.rd CNV_SCLK_CTRL_SOURCE d
  let first := s.rd CNV_SCLK_CTRL_SOURCE 0
  let s := s.wr CNV_STATUS_SOURCE d first
  if own = first then s else s.raise CNV_EVENT_SCLK_MISMATCH d

/-- Start a PLL that is stopped (R336); the sampling PLL reads its source then (R103). -/
def startPll (s : State) (d p : Nat) : State :=
  if s.pllLocked d p || bit (s.pwrSt d).pllRun p then s
  else
    let s := if p = 0 then s.sclkSource d else s
    (s.modPwr d fun x => { x with pllRun := setBit x.pllRun p true }).setDomain d (2 + p) 3

/-- Ask for a domain to be on (R333, R336). -/
def wake (s : State) (d k : Nat) : State :=
  if s.domain d k = 0 then s.setWant d k none
  else
    let s := (s.setWant d k (some 0)).setDomain d k 3
    match domPll k with
    | some p => s.startPll d p
    | none => s

/-- Ask for a domain to be retained (1) or off (2): it waits until every unit in it is idle (R333). -/
def sink (s : State) (d k v : Nat) : State :=
  if s.domain d k = v then s.setWant d k none
  else s.setWant d k (some (if v = 1 && !domRetains k then 2 else v))

/-- The engines of a cluster domain. -/
def domEngs (k : Nat) : List Nat := (List.range 8).map fun j => 8 * (k - 50) + j

/-- The disable units of a domain, as block and unit: converters, receive and transmit arms, decoder clusters, and the engines
and DMA channel of a cluster (R332). -/
def domUnits (k : Nat) : List (Nat × Nat) :=
  if 5 ≤ k ∧ k ≤ 12 then [(2, k - 5)]
  else if 14 ≤ k ∧ k ≤ 21 then [(4, k - 14)]
  else if 23 ≤ k ∧ k ≤ 30 then [(5, k - 23)]
  else if 33 ≤ k ∧ k ≤ 40 then [(7, k - 33)]
  else if 50 ≤ k then (14, 64 + (k - 50)) :: (domEngs k).map fun e => (14, e)
  else []

/-- Every unit of a domain reports idle under the disable rule (R333); a decoder cluster holds no codeword. -/
def domIdle (s : State) (d k : Nat) : Bool :=
  ((domUnits k).all fun x => !(s.unit d x.1 x.2).draining && (s.unit d x.1 x.2).work == 0) &&
  (!(decide (33 ≤ k ∧ k ≤ 40)) || ((s.fecSt d).clusters.getD (k - 33) none).isNone)

/-- A domain is turned off: the datapath state of its units and the contents of its memories are lost (R314, R334). -/
def domainLose (s : State) (d k : Nat) : State :=
  if 14 ≤ k ∧ k ≤ 21 then s.modRx d (k - 14) fun a => { snr := a.snr, tracked := a.tracked, mixed := a.mixed }
  else if 23 ≤ k ∧ k ≤ 30 then s.modTx d (k - 23) fun a => { tilt := a.tilt, before := a.before }
  else if 50 ≤ k then
    s.forEach (domEngs k) fun t e => (t.fillMem d (.tcm (Fin.ofNat 64 e))).modTcm d e fun x => { x with power := 2 }
  else s

/-- A domain comes on: the tightly coupled memories of a cluster that was off are filled, those of a retained one are kept
(R314, R315, R333). -/
def domainRestart (s : State) (d k : Nat) : State :=
  if 50 ≤ k then
    s.forEach (domEngs k) fun t e =>
      let t := if (t.tcmSt d e).power = 1 then t else t.fillMem d (.tcm (Fin.ofNat 64 e))
      t.modTcm d e fun x => { x with power := 0 }
  else s

/-- A domain finishes turning on, unless its PLL has not locked. -/
def domainOn (s : State) (d k : Nat) : State :=
  match s.domWant d k with
  | some 0 =>
    let ready := match domPll k with
      | some p => s.pllLocked d p
      | none => true
    if ready then ((s.domainRestart d k).setWant d k none).setDomain d k 0 else s
  | _ => s

/-- A domain takes the state asked for once its units are idle (R333): contents are kept when retained and lost when off. The
engine PLL stops with the last engine cluster (R336). -/
def domainLower (s : State) (d k : Nat) : State :=
  if !s.domIdle d k then s
  else match s.domWant d k with
  | some 1 =>
    let s := (s.setWant d k none).setDomain d k 1
    if 50 ≤ k then s.forEach (domEngs k) fun t e => t.modTcm d e fun x => { x with power := 1 } else s
  | some 2 =>
    let s := ((s.setWant d k none).setDomain d k 2).domainLose d k
    if 50 ≤ k ∧ (List.range 8).all fun c => s.domain d (domEngines c) != 0 then s.setPll d 2 false else s
  | _ => s

/-! ### Sampling reference (R107, R159, R162, R186, R213, R372) -/

/-- A die loses the sampling reference. -/
def samplingLost (s : State) (d : Nat) : State :=
  let s := (((s.cnvLost d).rxHold d).txHold d)
  let s := if d + 1 < s.dieCount ∧ s.sameTeam d (d + 1) then s.seamInvalid (d + 1) false true else s
  let s := if d ≠ 0 ∧ s.sameTeam d (d - 1) then s.seamInvalid (d - 1) true true else s
  s.wr FRM_TT_STATUS_VALID (s.teamBase d) 0

/-- The sampling reference returns to a die. Where it acquires on its lower seam while it is active, its receive arms resume
once the new WHOLE is applied (R121). -/
def samplingBack (s : State) (d : Nat) : State :=
  let s := s.cnvReturn d
  let s := if s.isActive d && s.rd CAL_STATUS_SEAM_LO_STATE d == 1 && s.flag CAL_CTRL_SEAM_EN d then
      s.modCnv d fun x => { x with resumeDue := true }
    else s.rxResume d
  let s := s.forEach (List.range 8) fun t i => t.loseSync d i
  let s := if d + 1 < s.dieCount ∧ s.sameTeam d (d + 1) then s.seamInvalid (d + 1) false false else s
  if d ≠ 0 ∧ s.sameTeam d (d - 1) then s.seamInvalid (d - 1) true false else s

/-- A PLL locks (R336): the domains that wait on it are powered. A sampling PLL that locks again is a return of the
reference. Log entry 52 DEDUCED. -/
def pllLock (s : State) (d p : Nat) : State :=
  if bit (s.pwrSt d).pllRun p then
    let s := (s.modPwr d fun x => { x with pllRun := setBit x.pllRun p false }).setPll d p true
    let s := s.forEach (List.range 58) fun t k => if domPll k = some p then t.domainOn d k else t
    if p = 0 then s.samplingBack d else s
  else s

/-- The state a domain that waited on a failed PLL stays in (R337): off, or retained where its memories are. -/
def domainStay (s : State) (d k : Nat) : Nat := if 50 ≤ k ∧ (s.tcmSt d (8 * (k - 50))).power = 1 then 1 else 2

/-- A PLL has not locked in time (R337): the domains waiting on it stay off. -/
def pllFail (s : State) (d p : Nat) : State :=
  if bit (s.pwrSt d).pllRun p then
    let s := (s.modPwr d fun x => { x with pllRun := setBit x.pllRun p false }).setDomain d (2 + p) 2
    let s := s.forEach (List.range 58) fun t k =>
      if domPll k = some p ∧ t.domWant d k = some 0 then (t.setWant d k none).setDomain d k (s.domainStay d k) else t
    let level : Fin 5 := if p = 1 then 3 else 1
    (s.raise PWR_EVENT_PLL_FAIL d).emit (.fault d ⟨level, 0, codePllFail, 17, Fin.ofNat 256 p, 0⟩)
  else s

/-! ### Estimate (R338), in 1/8 mW -/

/-- The signalling rate of a group as RATE codes it: in Ethernet AUI mode that of its AUI code (R280). -/
def grpRate (s : State) (d g : Nat) : Nat :=
  if s.flag HLN_GRP_CFG_MODE d g then s.rd HLN_GRP_CFG_RATE d g
  else [0, 1, 0, 1, 2, 0, 1, 2, 1, 2, 2].getD (s.rd HLN_GRP_CFG_AUI d g) 2

/-- Estimate of a lane of a die that is up: full, or with one direction dormant, or both. -/
def lanePower (s : State) (d l : Nat) : Nat :=
  let st := s.rd HLN_LANE_STATUS_STATE d l
  if st ≠ 7 ∧ st ≠ 8 ∧ st ≠ 9 then 0
  else
    match (List.range 8).find? fun g => s.flag HLN_GRP_CFG_EN d g && bit (s.rd HLN_GRP_CFG_LANES d g) l with
    | none => 0
    | some g =>
      let full := match s.grpRate d g with
        | 0 => 800
        | 1 => 1200
        | _ => 1600
      let dormant := s.rd HLN_GRP_STATUS_TX_DORMANT d g + s.rd HLN_GRP_STATUS_RX_DORMANT d g
      full - dormant * (full / 2) + dormant * 80

/-- A converter of a die is on. -/
def convertersOn (s : State) (d : Nat) : Bool := s.rd CNV_CTRL_ADC_EN d != 0 || s.rd CNV_CTRL_DAC_EN d != 0

/-- Slots on a die's subcarriers that enabled transmit flows hold, the fields read by `f`. -/
def heldSlots (d : Nat) (f : Fld → Nat → Nat → Nat) : Nat :=
  ((List.range 192).filter fun k =>
    f FLW_TX_SLOT_VALID d k != 0 && f FLW_CFG_TX_EN (f FLW_TX_SLOT_DIE d k) (f FLW_TX_SLOT_FLOW d k) != 0).length

/-- The estimate of a die: `sub i` 2 for a subcarrier with an arm on, 1 dormant with retained state; decoder clusters on;
slots held. Log entry 53 DEDUCED. -/
def estimateDie (s : State) (d : Nat) (sub : Nat → Nat) (clusters slots : Nat) : Nat :=
  if s.flag PWR_STATUS_PARKED d then 960
  else
    11200 + (if s.convertersOn d then 12800 else 0) +
    ((List.range 8).map fun i => if sub i = 2 then 2400 else if sub i = 1 then 96 else 0).sum +
    1400 * clusters + ((List.range 8).map fun l => s.lanePower d l).sum + 25 * slots

/-- What the active plan makes of a subcarrier: an arm on, dormant with retained state, or neither. -/
def subNow (s : State) (d i : Nat) : Nat :=
  let t := s.txState d i
  let r := s.rxState d i
  if (t ≠ 0 ∧ t ≠ 4) ∨ (r ≠ 0 ∧ r ≠ 5) then 2 else if t = 4 ∨ r = 5 then 1 else 0

/-- What the pending plan makes of a subcarrier: one that it puts to sleep stays retained (R344). -/
def subPend (s : State) (d i : Nat) : Nat :=
  if bit (s.rdPend TXD_CTRL_SC_EN d) i || bit (s.rdPend RXD_CTRL_SC_EN d) i then 2
  else if s.subNow d i = 0 then 0 else 1

/-- Decoder clusters of a die that are on. -/
def clustersOn (s : State) (d : Nat) : Nat :=
  ((s.clustersUp d).filter fun k => s.domain d (domCluster k) == 0).length

/-- The load of a die under fields read by `f` (R207). -/
def loadOf (s : State) (d : Nat) (f : Fld → Nat → Nat → Nat) : ℚ :=
  s.decLoad d (fun i => bit (f RXD_CTRL_SC_EN d 0) i) (fun i => f TXD_SC_CFG_CLASS d i != 0)
    (fun i => f FEC_SC_CFG_CODE d i)
    (fun i => if s.flag TXD_SC_RXPLAN_VALID d i then s.rd TXD_SC_RXPLAN_H d i else f TXD_SC_CFG_H d i)

/-- Decoder clusters a load needs, with the spare ones (R343). -/
def clustersFor (s : State) (d : Nat) (load : ℚ) : Nat :=
  min (s.clustersUp d).length (load.ceil.toNat + s.rd PKG_PWR_CFG_DEC_SPARE pkg)

/-- Package overhead in 1/8 mW (R338); in package root state what R2 and R339 state beside the parked dies, 0.10 W.
Log entry 53 DEDUCED. -/
def overhead (s : State) : Nat := if s.rootState then 800 else if s.dieCount = 2 then 4000 else 8000

/-- The estimate of the active plan of a die and of the package, in 1/8 mW. -/
def estimateNow (s : State) (d : Nat) : Nat :=
  s.estimateDie d (s.subNow d) (s.clustersOn d) (heldSlots d fun f n k => s.rd f n k)
def estimatePkg (s : State) : Nat := s.overhead + (s.dieList.map s.estimateNow).sum

/-- The estimate of the pending plan of the package (R345). -/
def estimatePend (s : State) : Nat :=
  s.overhead + (s.dieList.map fun d =>
    s.estimateDie d (s.subPend d) (s.clustersFor d (s.loadOf d fun f n k => s.rdPend f n k))
      (heldSlots d fun f n k => s.rdPend f n k)).sum

/-- Show the estimates in mW. Log entry 53 DEDUCED. -/
def showEstimate (s : State) : State :=
  (s.forEach s.dieList fun t d => t.wr PWR_STATUS_ESTIMATE d (t.estimateNow d / 8)).wr PKG_PWR_STATUS_ESTIMATE pkg
    (s.estimatePkg / 8)

/-- The pending set is refused for power (R345): it raises the estimate above the envelope. -/
def powerRefuses (s : State) : Bool :=
  let env := 8 * s.rd PKG_PWR_ENVELOPE_ENVELOPE pkg
  env != 0 && decide (env < s.estimatePend ∧ s.estimatePkg < s.estimatePend)

/-! ### Decoder clusters and arms (R343, R184, R185, R344) -/

/-- Power the decoder clusters that a load needs; the lowest-numbered others outside the express set are drained and
lowered (R343). Log entry 54 DEDUCED. -/
def decoderPower (s : State) (d : Nat) (load : ℚ) (lower : Bool) : State :=
  let n := s.clustersFor d load
  let up := s.clustersUp d
  let s := s.forEach (up.take n) fun t k => t.wake d (domCluster k)
  if lower then
    s.forEach ((up.drop n).filter fun k => !bit (s.rd FEC_POOL_STATUS_EXPRESS d) k) fun t k => t.sink d (domCluster k) 2
  else s

/-- Switch the arm domains of a die to match its plan. Log entry 54 DEDUCED. -/
def armDomains (s : State) (d : Nat) : State :=
  s.forEach (List.range 8) fun t i =>
    let t := match t.txState d i with
      | 0 => t.sink d (domTxArm i) 2
      | 4 => t.sink d (domTxArm i) 1
      | _ => t.wake d (domTxArm i)
    match t.rxState d i with
    | 0 => t.sink d (domRxArm i) 2
    | 5 => t.sink d (domRxArm i) 1
    | _ => t.wake d (domRxArm i)

/-- Switch the converter domains of a die to match their enables; on a die held idle they are off (R51). Log entries 54 DEDUCED, 119 DEDUCED. -/
def converterDomains (s : State) (d : Nat) : State :=
  let one (t : State) (k : Nat) (on : Bool) : State := if on && !s.heldIdle d then t.wake d k else t.sink d k 2
  s.forEach (List.range 4) fun t c =>
    one (one t (5 + c) (bit (t.rd CNV_CTRL_ADC_EN d) c)) (9 + c) (bit (t.rd CNV_CTRL_DAC_EN d) c)

/-- After a commit a die switches its domains and decoder clusters (R184, R185, R343). -/
def powerCommit (s : State) (d : Nat) : State :=
  ((s.armDomains d).decoderPower d (s.loadOf d fun f n k => s.rd f n k) true).showEstimate

end State

/-! ### Rows -/

/-- SCLK_LOST (R107). -/
def execSclkLost (die : Fin 8) (s : State) : Host.Outcome State Fault Refusal :=
  runDie s die fun s => s.samplingLost die

/-- SEAM_SKEW_ESTIMATE (R122 to R124), at the die above the seam. An estimate that is not valid neither adds to the run of
SKEW_ALARM nor ends it. Log entry 168 DESIGN CHOICE. -/
def execSeamSkewEstimate (die : Fin 8) (tones : List (List (Cpx × Cpx))) (s : State) : Host.Outcome State Fault Refusal :=
  runDie s die fun s =>
    if !s.lowerPresent die then s
    else
      let e := seamEstimate tones
      let limit := if s.rd CAL_STATUS_SEAM_LO_STATE die = 1 then 25000 else 50 * s.rd CAL_LIMITS_1_SEAM_PLAUS die
      let valid := decide (1 / 2 ≤ e.2) && decide (|e.1| ≤ limit)
      let s := s.showSeam die valid e.1 e.2
      if valid then ((s.seamLoop die e.1).seamAlarm die e.1).resumeArms die
      else (s.count CAL_REJECTS_COUNT die).raise CAL_EVENT_REJECT die

/-- SCLK_RETURN (R107). -/
def execSclkReturn (die : Fin 8) (s : State) : Host.Outcome State Fault Refusal :=
  runDie s die fun s => s.samplingBack die

/-- DOMAIN_POWER_ON (R333). Log entry 52 DEDUCED. -/
def execDomainPowerOn (die : Fin 8) (dom : Fin 58) (s : State) : Host.Outcome State Fault Refusal :=
  runDie s die fun s => s.domainOn die dom

/-- DOMAIN_LOWER (R333, R185). -/
def execDomainLower (die : Fin 8) (dom : Fin 58) (s : State) : Host.Outcome State Fault Refusal :=
  runDie s die fun s => s.domainLower die dom

/-- PLL_LOCK (R336). -/
def execPllLock (die : Fin 8) (pll : Fin 3) (s : State) : Host.Outcome State Fault Refusal :=
  runDie s die fun s => s.pllLock die pll

/-- PLL_LOCK_FAIL (R337). -/
def execPllLockFail (die : Fin 8) (pll : Fin 3) (s : State) : Host.Outcome State Fault Refusal :=
  runDie s die fun s => s.pllFail die pll

/-- SAMPLING_PLL_STOP (R336). -/
def execSamplingPllStop (die : Fin 8) (s : State) : Host.Outcome State Fault Refusal :=
  runDie s die fun s =>
    if (List.range 8).all fun c => s.domain die (5 + c) != 0 then
      if s.pllLocked die 0 then (s.setPll die 0 false).samplingLost die else s
    else s

/-- ARMS_OFF_AFTER (R344): a dormant subcarrier's arms are turned off, unless OFF_AFTER is 0. -/
def execArmsOffAfter (die sc : Fin 8) (s : State) : Host.Outcome State Fault Refusal :=
  runDie s die fun s =>
    if s.rd PKG_PWR_CFG_OFF_AFTER pkg = 0 then s
    else
      let s := if s.txState die sc = 4 then s.txStop die sc false else s
      let s := if s.rxState die sc = 5 then s.stopArm die sc false else s
      s.armDomains die

end Sys2Proof.Machine
end

