-- ==== Sys2Proof/Machine/Staged.lean ====
section
/-! DEFINITION. Staged, pending and shadow copies of the staged fields, and closing a configuration transaction (spec/03,
R87, R90 to R94). -/
namespace Sys2Proof.Machine
open Sys2Proof

/-- The staged fields: those whose description says "The field is staged". -/
def stagedFields : List Fld :=
  [ PKG_TEAM_MAP_SIZE, PKG_GEOM_SC_SPACING, PKG_GEOM_SLICE_SPACING,
    RXD_CTRL_SC_EN, RXD_SC_CFG_OVERLAP, TXD_CTRL_PILOT_BOOST, TXD_CTRL_SC_EN, TXD_SC_CFG_CONST, TXD_SC_CFG_CLASS,
    TXD_SC_CFG_ROLLOFF, TXD_SC_CFG_H, FEC_SC_CFG_CODE,
    FLW_TX_SLOT_VALID, FLW_TX_SLOT_DIE, FLW_TX_SLOT_FLOW, FLW_CFG_TX_EN, FLW_CFG_CLASS, FLW_CFG_ENC, FLW_ID_LINE_ID,
    FLW_CHK_APPEND, FLW_CHK_POLY, FLW_CHK_SPAN, HLN_FLOW_GRP_VALID, HLN_FLOW_GRP_GROUP ]

/-- The staged field a key belongs to. -/
def stagedField (k : Key) : Option Fld := stagedFields.find? fun f => f.key k.inst k.idx == k

namespace State

/-- The active value of the staged field a key names. -/
def keyActive (s : State) (k : Key) : Nat :=
  match stagedField k with
  | some f => s.rd f k.inst k.idx
  | none => 0

/-- Make a value active for the staged field a key names. -/
def keyActivate (s : State) (k : Key) (v : Nat) : State :=
  match stagedField k with
  | some f => s.wr f k.inst v k.idx
  | none => s

/-- A staged copy of die `d` differs from its active copy (`IMG_DIE_STATUS.DIRTY`). Log entry 10 DEDUCED. -/
def dirty (s : State) (d : Nat) : Bool := s.staged.any fun e => e.1.inst == d && e.2 != s.keyActive e.1

/-- Copy the active values over the staged copies of one place: a die or the package region (R87). While a pending set
is held this counts as a write of every staged field in its scope (R92). -/
def discard (s : State) (d : Nat) : State :=
  let t := s.staged.keep fun k => k.inst != d
  let marks := s.pend.keep fun k => k.inst == d
  { s with staged := t.putAll (marks.mapKey s.keyActive) }

/-- A die copies its staged set to the pending set and marks the staged set clean (R90, step 2). -/
def hold (s : State) (d : Nat) : State :=
  let mine := s.staged.keep fun k => k.inst == d
  { s with
    pend := s.pend.putAll mine
    staged := s.staged.keep fun k => k.inst != d }

/-- A die takes the shadow as its pending set (R94). -/
def holdShadow (s : State) (d : Nat) : State :=
  { s with pend := s.pend.putAll (s.shadow.keep fun k => k.inst == d) }

/-- Return the pending values of one place to the staged copies, unless the field was written again, and drop the
pending set (R92). -/
def unhold (s : State) (d : Nat) : State :=
  let mine := s.pend.keep fun k => k.inst == d
  { s with
    staged := s.staged.putNew mine
    pend := s.pend.keep fun k => k.inst != d }

/-- Drop the pending set of one place without touching the staged copies (R94). -/
def dropPend (s : State) (d : Nat) : State := { s with pend := s.pend.keep fun k => k.inst != d }

/-- Switch the pending fields of one place: the former active values join the shadow (R90, step 5). -/
def switchPend (s : State) (d : Nat) : State :=
  let mine := s.pend.keep fun k => k.inst == d
  let s := { s with shadow := s.shadow.putAll (mine.mapKey s.keyActive) }
  s.forEach mine fun t e => t.keyActivate e.1 e.2

/-- Restore the shadow of one place (R91). -/
def restoreShadow (s : State) (d : Nat) : State :=
  s.forEach (s.shadow.keep fun k => k.inst == d) fun t e => t.keyActivate e.1 e.2

/-- The configuration epoch of a die. -/
def epoch (s : State) (d : Nat) : Nat := s.rd IMG_EPOCH_EPOCH d

/-- The active configuration epoch of the package: the crown's. -/
def pkgEpoch (s : State) : Nat :=
  match s.crown.token with
  | some c => s.epoch c
  | none => s.rd IMG_EPOCH_EPOCH pkg

/-- Clear what the dies hold for the transaction. -/
def clearHolds (s : State) : State :=
  s.forEach s.dieList fun t d =>
    (t.modDie d fun x => { x with holdsGo := false, switched := false, reverting := false, prepared := false }).wr
      IMG_DIE_STATUS_PENDING d 0

/-! ### A team's plan messages (R235, R236) -/

/-- What the crown keeps of a team's plan, by the team's lowest die. -/
def team (s : State) (t : Nat) : TeamSt := s.teams.get {} (unitKey t 0)
def modTeam (s : State) (t : Nat) (f : TeamSt → TeamSt) : State :=
  { s with teams := s.teams.set {} (unitKey t 0) (f (s.team t)) }

/-- Write a plan register, or set bits of a plan event, on every die of a team (log entry 35). -/
def wrTeam (s : State) (f : Fld) (t v : Nat) : State := s.forEach (s.teamDies t) fun u d => u.wr f d v
def raiseTeam (s : State) (f : Fld) (t : Nat) (mask : Nat := 1) : State :=
  s.forEach (s.teamDies t) fun u d => u.raise f d mask

/-- Start a new message set: each record is TYPE, SEQ, two zero bytes and a body of 28 bytes (R236). -/
def sendMsgs (s : State) (t : Nat) (msgs : List (Nat × List Byte)) : State :=
  let q := ((s.team t).seq + 1) % 256
  let recs := msgs.map fun m => bytesBE 1 m.1 ++ bytesBE 1 q ++ [0, 0] ++ m.2 ++ List.replicate (28 - m.2.length) 0
  (s.modTeam t fun x => { x with seq := q, sending := recs }).emit (.planMsg t recs)

/-- The handshake of a team closes: nothing of the far end's proposal or answer is held any more. -/
def closePlan (s : State) (t : Nat) : State :=
  (s.wrTeam FRM_PLAN_STATUS_STATE t 0).modTeam t fun x =>
    { x with
      head := none, entries := [], judged := false, agreedM := none, confirm := false, goNext := false, farNext := none
      openAt := none }

/-- A transaction that concerned a team's plan has aborted: a proposer sends WITHDRAW (R238, R245). -/
def withdrawPlan (s : State) : State :=
  match s.txn.planTeam with
  | none => s
  | some t =>
    let s := if s.rd FRM_PLAN_STATUS_STATE t = 1 then s.sendMsgs t [(0x06, bytesBE 4 s.txn.planEpoch)] else s
    if s.rd FRM_PLAN_STATUS_STATE t = 4 then s else s.closePlan t

/-- The die whose instance acts for the package: the crown. -/
def crownDie (s : State) : Nat := s.crown.token.getD 0

/-- Send a TXN ring message (R89) from a die to a die, or to all dies with 15. -/
def ringTxn (s : State) (src dst subtype reason : Nat) : State :=
  s.emit (.ring
    { type := 8, src := src, dst := dst
      payload := subtype * 2 ^ 216 + reason * 2 ^ 208 + s.txn.epoch % 2 ^ 32 * 2 ^ 176 + s.txn.mf % 2 ^ 32 * 2 ^ 144 })

/-- Close the open transaction as aborted: pending values return to the staged copies (a rollback's do not), and the
reason is shown (R92). A slice that it would have raised to its plan stays at base-camp format (R37). RESULT reads ABORTED also
where it showed BUSY (R88; log entry 163 DESIGN CHOICE). -/
def abortTxn (s : State) (reason : Nat) : State :=
  if s.txn.isOpen then
    let places := pkg :: s.dieList
    let s := s.forEach places fun t d => if t.txn.rollback then t.dropPend d else t.unhold d
    let s := s.clearHolds
    let s := s.wr IMG_TXN_STATUS_RESULT pkg 2
    let s := s.wr IMG_TXN_STATUS_REASON pkg reason
    let s := ((s.wr IMG_TXN_STATUS_STATE pkg 0).ringTxn s.crownDie 15 5 reason).withdrawPlan
    let raised (t : State) : Bool := decide (2 ≤ t.teamSize (t.txn.planTeam.getD 0))
    let s := match s.txn.planTeam with
      | some t => if raised s then s.modTeam t fun x => { x with rejoin := [] } else s
      | none => s
    { s with txn := { s.txn with isOpen := false, goSent := false, reverting := false, switched := false, lost := false } }
  else s

/-- Close the open transaction as committed. RESULT reads COMMITTED also where it showed BUSY (R88; log entry 163
DESIGN CHOICE). -/
def closeCommitted (s : State) : State :=
  let s := s.forEach (pkg :: s.dieList) fun t d => t.dropPend d
  let s := s.clearHolds
  let s := s.wr IMG_TXN_STATUS_RESULT pkg 1
  let s := s.wr IMG_TXN_STATUS_STATE pkg 0
  let s := { s with txn := { s.txn with isOpen := false, goSent := false, switched := false, lost := false } }
  if s.txn.rollback then s.shadowGone else s

/-- A block of a die is retired while the die holds a validated pending set: before GO the die sends REFUSE with RESOURCE;
after GO the switch goes ahead (R95, R432). -/
def refuseRetired (s : State) (d : Nat) : State :=
  if s.txn.isOpen && (s.die d).prepared && !s.txn.goSent then
    (s.wr IMG_DIE_STATUS_LAST_REASON d 4).ringTxn d s.crownDie 3 4
  else s

/-- A member leaves or a die is reset while a transaction is open: it aborts with MEMBER_LOST (R92, R95); once M has begun the
dies that switched return first, as R91 says. Log entry 13 DEDUCED. -/
def memberAbort (s : State) (d : Nat) : State :=
  if s.txn.isOpen && s.txn.members.contains d then
    if s.txn.switched then { s with txn := { s.txn with lost := true } } else s.abortTxn 7
  else s

end State

end Sys2Proof.Machine
end

