-- ==== Sys2Proof/Machine/Timing.lean ====
section
/-! DEFINITION. Timing references and holdover (spec/13): reference slots and their monitors, selection, the DPLL, phase
steps, outputs and time of day. -/
namespace Sys2Proof.Machine
open Sys2Proof

/-- Picoseconds of a second. -/
def psSecond : Nat := 1000000000000

/-- A value modulo `t`, in the range from −t/2, left out, to t/2. Log entry 57 DEDUCED. -/
def wrapHalf (t v : ℚ) : ℚ := if t ≤ 0 then v else v - t * ((v / t - 1 / 2).ceil : ℚ)

namespace State

def refSt (s : State) (k : Nat) : RefSt := s.refs.get {} (unitKey pkg k)
def modRef (s : State) (k : Nat) (f : RefSt → RefSt) : State :=
  { s with refs := s.refs.set {} (unitKey pkg k) (f (s.refSt k)) }
def modTim (s : State) (f : TimSt → TimSt) : State := { s with tim := f s.tim }

/-! ### Time of day (R368 to R370) -/

/-- The time of day in 2^−16 ns. -/
def tod (s : State) : Int := ((s.tim.todSec * 1000000000 + s.tim.todNs) * 65536 + s.tim.todFrac : Nat)

/-- Set the time of day; seconds are 48 bits. -/
def setTod (s : State) (v : Int) : State :=
  let n := (v % ((2 ^ 48 * 1000000000 * 65536 : Nat) : Int)).toNat
  s.modTim fun x =>
    { x with todSec := n / (1000000000 * 65536), todNs := n / 65536 % 1000000000, todFrac := n % 65536 }

/-- The counter advances with the DPLL phase. Log entries 4 DESIGN CHOICE, 58 DESIGN CHOICE. -/
def todAdvance (s : State) (adv : Nat) : State := s.setTod (s.tod + adv)

/-- How far the counter advances in one multiframe of 1 048 576 ns at the present output frequency. -/
def mfAdvance (s : State) : Nat := (1048576 * 65536 + s.rdS TIM_DPLL_FREQ_FREQ pkg * 1048576 / 1000000000).toNat

/-! ### The DPLL state (R359 to R363) -/

/-- STATE: 0 free run, 1 acquiring, 2 locked, 3 holdover, 4 lost. -/
def dpll (s : State) : Nat := s.rd TIM_DPLL_STATUS_STATE pkg

/-- The selected slot. -/
def selected (s : State) : Option Nat :=
  if s.flag TIM_DPLL_STATUS_SEL_VALID pkg then some (s.rd TIM_DPLL_STATUS_SELECTED pkg) else none

/-- A slot steers phase (R361). -/
def absolute (s : State) (k : Nat) : Bool := s.flag TIM_REF_CFG_PHASE_MODE pkg k

/-- Show the phase error of the selected slot. -/
def showPhase (s : State) : State := s.wrSat TIM_PHASE_ERR_ERROR pkg (if s.selected.isSome then s.tim.phase else 0)

/-- The history samples that count: from t − GUARD − AVG to t − GUARD, and after the end of a freeze only later ones. -/
def histSpan (s : State) : List Int :=
  let guard_ := s.rd TIM_HIST_CFG_GUARD pkg
  let avg := s.rd TIM_HIST_CFG_AVG pkg
  let t := s.tim.now
  (s.tim.samples.filter fun x =>
    decide (t ≤ x.1 + guard_ + avg ∧ x.1 + guard_ ≤ t) &&
      (match s.tim.thawed with
        | some z => decide (z < x.1)
        | none => true)).map fun x => x.2

/-- The mean of some samples. -/
def meanOf (xs : List Int) : Int := Arith.round ((xs.sum : ℚ) / (xs.length : ℚ))

/-- Bring the history value, HIST_VALID and HIST_FROZEN up to date (R362, R363). -/
def refreshHistory (s : State) : State :=
  let xs := s.histSpan
  let avg := s.rd TIM_HIST_CFG_AVG pkg
  match s.tim.frozen, s.tim.thawed with
  | some v, none => (s.wrS TIM_HIST_FREQ_FREQ pkg v).wr TIM_DPLL_STATUS_HIST_VALID pkg 1
  | some v, some _ =>
    if avg ≤ xs.length then
      ((s.modTim fun x => { x with frozen := none, thawed := none }).wrS TIM_HIST_FREQ_FREQ pkg (meanOf xs)).wr
        TIM_DPLL_STATUS_HIST_VALID pkg 1
    else (s.wrS TIM_HIST_FREQ_FREQ pkg v).wr TIM_DPLL_STATUS_HIST_VALID pkg 1
  | none, _ =>
    let s := s.wrb TIM_DPLL_STATUS_HIST_VALID pkg (decide (xs ≠ [] ∧ avg ≤ 2 * xs.length))
    if xs.isEmpty then s else s.wrS TIM_HIST_FREQ_FREQ pkg (meanOf xs)

/-- The output frequency that a state holds without steering. -/
def heldFreq (s : State) (v : Nat) : Int :=
  match v with
  | 0 => s.rdS TIM_FREQ_ADJ_FREQ pkg
  | 3 => s.rdS TIM_HIST_FREQ_FREQ pkg
  | 4 => if s.flag TIM_DPLL_STATUS_HIST_VALID pkg then s.rdS TIM_HIST_FREQ_FREQ pkg else s.tim.lastMean
  | _ => s.rdS TIM_DPLL_FREQ_FREQ pkg

/-- The DPLL moves to a state (R360). Log entry 55 DESIGN CHOICE. -/
def setDpll (s : State) (v : Nat) : State :=
  ((s.raise TIM_EVENT_STATE_CHG pkg).wr TIM_DPLL_STATUS_STATE pkg v).wrS TIM_DPLL_FREQ_FREQ pkg (s.heldFreq v)

/-- Holdover while the history is valid, else free run. Log entry 55 DESIGN CHOICE. -/
def toHoldover (s : State) : State := s.setDpll (if s.flag TIM_DPLL_STATUS_HIST_VALID pkg then 3 else 0)

/-- What R361 does with the phase error of an absolute slot: more than 1 µs is removed as a phase step, modulo 1 s for a
1 PPS slot and in full, with TOD_VALID, for a LINE slot. -/
def absoluteEntry (s : State) (k : Nat) : State :=
  let e := s.tim.phase
  if 1000000 < e.natAbs ∧ s.tim.step.isNone then
    let line := s.rd TIM_REF_CFG_SOURCE pkg k == 2
    let v : Int := if line then e else (wrapHalf psSecond e).floor
    (s.modTim fun x => { x with step := some v, stepTod := line }).wr TIM_DPLL_STATUS_STEP_BUSY pkg 1
  else s

/-- Enter acquiring on a slot (R361): a build-out slot is re-referenced, an absolute slot's error is treated. -/
def acquireRef (s : State) (k : Nat) : State :=
  let s := s.setDpll 1
  let s := s.modTim fun x => { x with entry := s.rdS TIM_DPLL_FREQ_FREQ pkg }
  if s.absolute k then
    let e := (s.refSt k).phase + s.rdS TIM_REF_OFS_OFFSET pkg k
    ((s.modTim fun x => { x with phase := e }).absoluteEntry k).showPhase
  else (s.modTim fun x => { x with phase := 0 }).showPhase

/-! ### Selection (R357, R358) -/

/-- A slot is a candidate: monitored, qualified and with a rank. -/
def isCandidate (s : State) (k : Nat) : Bool :=
  s.flag TIM_REF_CFG_EN pkg k && s.flag TIM_REF_STATUS_QUALIFIED pkg k && s.rd TIM_REF_CFG_RANK pkg k != 0

def candidates (s : State) : List Nat := (List.range 16).filter s.isCandidate

/-- The lowest index of the lowest rank among some slots. -/
def bestRank (s : State) (ks : List Nat) : Option Nat :=
  ks.foldl (fun (a : Option Nat) k =>
    match a with
    | none => some k
    | some b => if s.rd TIM_REF_CFG_RANK pkg k < s.rd TIM_REF_CFG_RANK pkg b then some k else some b) none

/-- A rank has a slot in conflict. -/
def rankConflict (s : State) (r : Nat) : Bool :=
  (List.range 16).any fun k => s.rd TIM_REF_CFG_RANK pkg k == r && s.flag TIM_REF_STATUS_CONFLICT pkg k

/-- The slot that selection yields (R357). -/
def pick (s : State) : Option Nat :=
  if s.rd TIM_DPLL_CTRL_MODE pkg = 1 then
    let k := s.rd TIM_DPLL_CTRL_FORCE_REF pkg
    if s.isCandidate k then some k else none
  else
    match s.selected with
    | some c =>
      if s.isCandidate c then
        let better := s.candidates.filter fun k =>
          decide (s.rd TIM_REF_CFG_RANK pkg k < s.rd TIM_REF_CFG_RANK pkg c ∧ s.rd TIM_SEL_CTRL_WTR pkg ≤ (s.refSt k).age) &&
            !s.rankConflict (s.rd TIM_REF_CFG_RANK pkg k)
        if s.flag TIM_DPLL_CTRL_REVERTIVE pkg && !better.isEmpty then s.bestRank better else some c
      else s.bestRank s.candidates
    | none => s.bestRank s.candidates

/-- Show the selected slot. -/
def showSelected (s : State) (k : Option Nat) : State :=
  let s := s.wrb TIM_DPLL_STATUS_SEL_VALID pkg k.isSome
  let s := s.wr TIM_DPLL_STATUS_SELECTED pkg (k.getD 0)
  s.forEach (List.range 16) fun t i => t.wrb TIM_REF_STATUS_SELECTED pkg (k == some i) i

/-- Run selection, and move the DPLL as it asks (R357, R360, R364). Log entry 59 DEDUCED. -/
def select (s : State) : State :=
  let old := s.selected
  let new := s.pick
  let s := if new = old then s else (s.showSelected new).raise TIM_EVENT_SEL_CHG pkg
  let mode := s.rd TIM_DPLL_CTRL_MODE pkg
  match s.dpll, new with
  | 0, some k =>
    if mode < 2 then s.acquireRef k else s.showPhase
  | 3, some k =>
    if mode < 2 ∧ (!s.tim.holdTake || (s.refSt k).fresh) then (s.modTim fun x => { x with holdTake := false }).acquireRef k
    else s.showPhase
  | 0, none => s.showPhase
  | 3, none => s.showPhase
  | _, some k => if old = some k then s else s.acquireRef k
  | _, none => s.toHoldover.showPhase

/-! ### Monitors (R351 to R356) -/

/-- Disqualify a slot with a cause: 1 ACTIVITY, 2 HARD, 3 LOCK, 4 not enabled. Log entry 56 DEDUCED. -/
def disqualify (s : State) (k cause : Nat) : State :=
  let was := s.flag TIM_REF_STATUS_QUALIFIED pkg k
  let s := (s.wr TIM_REF_STATUS_QUALIFIED pkg 0 k).wr TIM_REF_STATUS_DISQ_CAUSE pkg cause k
  let s := (s.wr TIM_REF_STATUS_QUAL_COUNT pkg 0 k).modRef k fun x => { x with good := 0, age := 0, lostAt := [] }
  if was then s.raise TIM_EVENT_DISQ pkg else s

/-- The lanes a die offers as references: its two lowest-indexed lanes with REF_OUT set (R353). -/
def refLanes (s : State) (d : Nat) : List Nat := (List.range 8).filter fun l => s.flag HLN_LANE_CFG_REF_OUT d l

/-- More than two lanes of a die ask to be references (R353). -/
def laneRefLimit (s : State) (d : Nat) : State :=
  if 2 < (s.refLanes d).length then s.raise TIM_EVENT_LANE_REF_LIMIT pkg else s

/-- A die can be the source of a reference. -/
def refDie (s : State) (d : Nat) : Bool :=
  decide (d < s.dieCount) && !s.flag PKG_DIE_STATUS_QUARANTINED d && !s.flag PWR_STATUS_PARKED d && !(s.die d).held &&
    !(s.die d).starting

/-- A slot is active (R355). -/
def slotActive (s : State) (k : Nat) (alive : Bool) : Bool :=
  let d := s.rd TIM_REF_CFG_DIE pkg k
  match s.rd TIM_REF_CFG_SOURCE pkg k with
  | 0 => alive
  | 1 =>
    let l := s.rd TIM_REF_CFG_INDEX pkg k
    s.refDie d && s.laneUp d l && ((s.refLanes d).take 2).contains l && s.flag CNV_STATUS_SCLK_LOCK d &&
      (match s.laneGrp d l with
        | some g => !s.flag HLN_GRP_STATUS_RX_DORMANT d g
        | none => true)
  | 2 => s.refDie d && alive && s.flag FRM_TT_CTRL_EN d
  | _ => s.flag PKG_CROWN_STATUS_PLM_AVAIL pkg && s.rd PLM_STATUS_STATE pkg == 5

/-- The drift of a slot is beyond its limit: the means of the last 8 and the 8 before differ by more than 8 s of it. -/
def driftBad (s : State) (k : Nat) : Bool :=
  let xs := (s.refSt k).freqs
  decide (16 ≤ xs.length ∧
    640 * s.rd TIM_REF_LIM_DRIFT pkg k < ((xs.take 8).sum - ((xs.drop 8).take 8).sum).natAbs)

/-- The frequency of a slot over the last second in 0.1 ppb: as measured, or for a LINE slot the DPLL output frequency plus the
slope of the offset (R355). -/
def slotFreq (s : State) (r : RefSample) : Int :=
  let k : Nat := r.slot
  if s.rd TIM_REF_CFG_SOURCE pkg k = 2 then
    let now := (s.refSt k).phase
    Arith.round ((s.rdS TIM_DPLL_FREQ_FREQ pkg : ℚ) * 10 / 65536 + (((s.refSt k).prev.getD now - now : Int) : ℚ) / 100)
  else r.freq

/-- The phase a slot's last sample shows: as measured, or for a LINE slot that of the last time-transfer result (R353). -/
def slotPhase (s : State) (r : RefSample) : Int :=
  if s.rd TIM_REF_CFG_SOURCE pkg r.slot = 2 then (s.refSt r.slot).phase else r.phase

/-- One second of a slot's monitor (R355, R356). -/
def monitor (s : State) (r : RefSample) : State :=
  let k : Nat := r.slot
  if !s.flag TIM_REF_CFG_EN pkg k then s
  else
    let act := s.slotActive k r.alive
    let s := s.wrb TIM_REF_STATUS_ACTIVE pkg act k
    if !act then s.disqualify k 1
    else
      let freq := s.slotFreq r
      let phase := s.slotPhase r
      let s := s.modRef k fun x =>
        { x with freqs := (freq :: x.freqs).take 16, phase := phase, prev := some phase, fresh := true }
      let s := s.wrSat TIM_REF_FREQ_FREQ pkg freq k
      let hard := decide (1000 * s.rd TIM_REF_LIM_HARD pkg k < freq.natAbs)
      let soft := decide (1000 * s.rd TIM_REF_LIM_SOFT pkg k < freq.natAbs)
      let drift := s.driftBad k
      let new := (soft && !s.flag TIM_REF_STATUS_SOFT_WARN pkg k) || (drift && !s.flag TIM_REF_STATUS_DRIFT_WARN pkg k)
      let s := (s.wrb TIM_REF_STATUS_SOFT_WARN pkg soft k).wrb TIM_REF_STATUS_DRIFT_WARN pkg drift k
      let s := if new then s.raise TIM_EVENT_SOFT pkg else s
      if hard then s.disqualify k 2
      else
        let good := if soft || drift then 0 else (s.refSt k).good + 1
        let s := (s.modRef k fun x => { x with good := good, age := x.age + 1 }).wr TIM_REF_STATUS_QUAL_COUNT pkg (min good 255) k
        if !s.flag TIM_REF_STATUS_QUALIFIED pkg k && decide (s.rd TIM_SEL_CTRL_QUAL pkg ≤ good) then
          ((s.wr TIM_REF_STATUS_QUALIFIED pkg 1 k).wr TIM_REF_STATUS_DISQ_CAUSE pkg 0 k).modRef k fun x => { x with age := 0 }
        else s

/-- Two qualified slots of one rank differ by more than CONFLICT (R358). -/
def conflicts (s : State) (k : Nat) : Bool :=
  s.isCandidate k && (List.range 16).any fun j =>
    j != k && s.isCandidate j && s.rd TIM_REF_CFG_RANK pkg j == s.rd TIM_REF_CFG_RANK pkg k &&
      decide (10 * s.rd TIM_SEL_CTRL_CONFLICT pkg < (s.rdS TIM_REF_FREQ_FREQ pkg j - s.rdS TIM_REF_FREQ_FREQ pkg k).natAbs)

/-- Bring the conflict marks up to date. -/
def refreshConflicts (s : State) : State :=
  let now := (List.range 16).map s.conflicts
  s.forEach (List.range 16) fun t k =>
    if now.getD k false then
      let t := (t.wr TIM_REF_STATUS_CONFLICT pkg 1 k).modRef k fun x => { x with clear := 0 }
      t.raise TIM_EVENT_RANK_CONFLICT pkg
    else if t.flag TIM_REF_STATUS_CONFLICT pkg k then
      let n := (t.refSt k).clear + 1
      let t := t.modRef k fun x => { x with clear := n }
      if t.rd TIM_SEL_CTRL_QUAL pkg ≤ n then t.wr TIM_REF_STATUS_CONFLICT pkg 0 k else t
    else t

/-- Freeze the history while the selected slot shows a warning, and end the freeze (R363). -/
def refreshFreeze (s : State) : State :=
  match s.selected with
  | none => s
  | some k =>
    let warn := s.flag TIM_REF_STATUS_SOFT_WARN pkg k || s.flag TIM_REF_STATUS_DRIFT_WARN pkg k
    if warn then
      let s := s.modTim fun x => { x with calm := 0 }
      if s.flag TIM_DPLL_STATUS_HIST_FROZEN pkg || !s.flag TIM_DPLL_STATUS_HIST_VALID pkg then s
      else
        let s := s.modTim fun x => { x with frozen := some (s.rdS TIM_HIST_FREQ_FREQ pkg), thawed := none }
        (s.wr TIM_DPLL_STATUS_HIST_FROZEN pkg 1).raise TIM_EVENT_HIST_FROZEN pkg
    else if s.flag TIM_DPLL_STATUS_HIST_FROZEN pkg then
      let n := s.tim.calm + 1
      let s := s.modTim fun x => { x with calm := n }
      if s.rd TIM_SEL_CTRL_QUAL pkg ≤ n then
        (s.modTim fun x => { x with thawed := some x.now }).wr TIM_DPLL_STATUS_HIST_FROZEN pkg 0
      else s
    else s

/-- The phase error that the selected absolute slot shows at its last sample. -/
def trackPhase (s : State) : State :=
  match s.selected with
  | some k =>
    if s.absolute k && s.tim.step.isNone then
      (s.modTim fun x => { x with phase := (s.refSt k).phase + s.rdS TIM_REF_OFS_OFFSET pkg k }).showPhase
    else s
  | none => s

/-- A valid time-transfer result, its offset in 2^−16 ns, is one sample of every LINE slot of the team: the phase error is the
negated offset (R353). -/
def lineSample (s : State) (t : Nat) (offset : Int) : State :=
  let ks := (List.range 16).filter fun k =>
    s.flag TIM_REF_CFG_EN pkg k && s.rd TIM_REF_CFG_SOURCE pkg k == 2 && s.teamBase (s.rd TIM_REF_CFG_DIE pkg k) == t
  let s := s.forEach ks fun u k => u.modRef k fun x => { x with phase := Arith.round (-(offset : ℚ) * 1000 / 65536) }
  if ks.any fun k => s.selected == some k then s.trackPhase else s

/-- Settings of a slot break a rule of R351. -/
def slotBad (s : State) (w : Nat) : Bool :=
  let mode := bit w 30
  let d := bitsAt w 24 3
  let index := bitsAt w 20 3
  let freq := bitsAt w 16 4
  match bitsAt w 28 2 with
  | 0 => decide (1 < index ∨ 5 < freq) || (freq == 0 && !mode)
  | 1 => mode || decide (s.dieCount ≤ d)
  | 2 => !mode || decide (s.dieCount ≤ d)
  | _ => mode

/-- A write of `TIM_REF_CFG_k` (R351). A refused write leaves the slot disabled and changes nothing else.
Log entry 56 DEDUCED. -/
def refConfig (s : State) (k w : Nat) : State :=
  let was := s.flag TIM_REF_CFG_EN pkg k
  if s.slotBad w then (s.wr TIM_REF_CFG_EN pkg 0 k).raise TIM_EVENT_CFG_ERR pkg
  else
    let s := ((s.wrb TIM_REF_CFG_EN pkg (bit w 31) k).wrb TIM_REF_CFG_PHASE_MODE pkg (bit w 30) k).wr TIM_REF_CFG_SOURCE pkg
      (bitsAt w 28 2) k
    let s := ((s.wr TIM_REF_CFG_DIE pkg (bitsAt w 24 3) k).wr TIM_REF_CFG_INDEX pkg (bitsAt w 20 3) k).wr TIM_REF_CFG_FREQ pkg
      (bitsAt w 16 4) k
    let s := s.wr TIM_REF_CFG_RANK pkg (bitsAt w 0 4) k
    if bit w 31 && !was then
      ((s.wr TIM_REF_STATUS_QUALIFIED pkg 0 k).wr TIM_REF_STATUS_DISQ_CAUSE pkg 0 k).modRef k fun _ => {}
    else if !bit w 31 && was then
      let s := (s.disqualify k 4).wr TIM_REF_STATUS_ACTIVE pkg 0 k
      if s.selected = some k then s.select else s
    else s

/-! ### Steps and outputs (R365 to R367) -/

/-- The period of an output's pending offset in ps: its own period for a clock, 1 s for PPS_OUT and FRAME_OUT. -/
def outPeriod (s : State) (j : Nat) : ℚ :=
  if j < 2 then
    let f := s.rd TIM_OUT_CFG_PARAM pkg j
    if f = 0 then 0 else (psSecond : ℚ) / (f : ℚ)
  else psSecond

/-- Set a pending offset. Log entry 57 DEDUCED. -/
def setPend (s : State) (j : Nat) (v : ℚ) : State :=
  let v := wrapHalf (s.outPeriod j) v
  (s.modTim fun x => { x with pend := x.pend.set j v }).wrSat TIM_OUT_PEND_PENDING pkg (Arith.round v) j

/-- Outputs re-align (R367): in STEP mode their offsets become 0 at once. -/
def realign (s : State) (mask : Nat) (slew : Bool) : State :=
  if slew then
    if (List.range 4).all fun j => !bit mask j || decide (s.tim.pend.getD j 0 = 0) then s.raise TIM_EVENT_REALIGN_DONE pkg
    else s.modTim fun x => { x with slewing := mask }
  else
    let s := s.forEach (List.range 4) fun t j => if bit mask j then t.setPend j 0 else t
    (s.modTim fun x => { x with slewing := 0 }).raise TIM_EVENT_REALIGN_DONE pkg

/-- A pending step takes effect (R365, R366, R372). -/
def stepApply (s : State) : State :=
  match s.tim.step with
  | none => s
  | some v =>
    let s := s.setTod (s.tod + v * 65536 / 1000)
    let s := if s.tim.stepTod then s.wr TIM_DPLL_STATUS_TOD_VALID pkg 1 else s
    let s := s.forEach (List.range 4) fun t j => t.setPend j (t.tim.pend.getD j 0 + v)
    let abs_ := match s.selected with
      | some k => s.absolute k
      | none => false
    let s := s.modTim fun x => { x with step := none, stepTod := false, phase := if abs_ then x.phase - v else x.phase }
    let s := (s.wr TIM_DPLL_STATUS_STEP_BUSY pkg 0).showPhase
    let s := match s.selected with
      | some k => if s.dpll = 1 ∧ s.absolute k then s.absoluteEntry k else s
      | none => s
    match s.tim.waitGo with
    | some g => (s.modTim fun x => { x with waitGo := none }).realign g.1 g.2
    | none => s

/-- A write of `TIM_STEP` (R365). -/
def phaseStep (s : State) (v : Int) : State :=
  let busy := s.flag TIM_DPLL_STATUS_STEP_BUSY pkg
  let steered := match s.selected with
    | some k => s.absolute k && (s.dpll == 1 || s.dpll == 2 || s.dpll == 4)
    | none => false
  if decide (500000000 < v.natAbs) || busy || steered then s.raise TIM_EVENT_STEP_ERR pkg
  else (s.modTim fun x => { x with step := some v, stepTod := false }).wr TIM_DPLL_STATUS_STEP_BUSY pkg 1

/-- A write of `TIM_REALIGN` (R367): SLEW 0 is stored as 1. -/
def realignWrite (s : State) (w : Nat) : State :=
  let s := (s.wr TIM_REALIGN_SLEW pkg (max 1 (bitsAt w 8 16))).wrb TIM_REALIGN_MODE pkg (bit w 4)
  let mask := bitsAt w 0 4
  if mask = 0 then s
  else if s.flag TIM_DPLL_STATUS_STEP_BUSY pkg then s.modTim fun x => { x with waitGo := some (mask, bit w 4) }
  else s.realign mask (bit w 4)

/-- Settings of an output keep their ranges (R366): frequency, width, PERIOD with its OFFSET. Log entry 57 DEDUCED. -/
def outputOk (j param offset : Nat) : Bool :=
  match j with
  | 2 => decide (1000 ≤ param ∧ param ≤ 500000000)
  | 3 => decide (1000 ≤ param ∧ param ≤ 1000000000 ∧ 1000000000 % param = 0 ∧ offset < param)
  | _ => decide (1 ≤ param ∧ param ≤ 250000000)

/-- A write of `TIM_OUT_CFG_j` or `TIM_OUT_AUX_j` (R366). A disabled output takes any setting. -/
def outputConfig (s : State) (j : Nat) (aux : Bool) (w : Nat) : State :=
  if aux then
    if j ≠ 3 then s
    else if s.flag TIM_OUT_CFG_EN pkg 3 && !outputOk 3 (s.rd TIM_OUT_CFG_PARAM pkg 3) (bitsAt w 0 30) then
      s.raise TIM_EVENT_CFG_ERR pkg
    else s.wr TIM_OUT_AUX_OFFSET pkg (bitsAt w 0 30) 3
  else if bit w 31 && !outputOk j (bitsAt w 0 30) (s.rd TIM_OUT_AUX_OFFSET pkg j) then s.raise TIM_EVENT_CFG_ERR pkg
  else
    let s := (s.wrb TIM_OUT_CFG_EN pkg (bit w 31) j).wr TIM_OUT_CFG_PARAM pkg (bitsAt w 0 30) j
    s.setPend j (s.tim.pend.getD j 0)

/-- A write of MODE (R360): 4 to 7 are stored as 3. Log entries 59 DEDUCED, 138 DEDUCED. -/
def modeWrite (s : State) (m : Nat) : State :=
  let s := s.wr TIM_DPLL_CTRL_MODE pkg (min m 3)
  match min m 3 with
  | 2 => s.toHoldover
  | 3 => s.setDpll 0
  | _ => s.select

/-- The selected slot enters lost (R356, R360): three times within 60 s disqualifies it. -/
def enterLost (s : State) : State :=
  let s := s.setDpll 4
  match s.selected with
  | none => s
  | some k =>
    let now := s.tim.now
    let times := now :: (s.refSt k).lostAt.filter fun t => decide (now ≤ t + 60)
    let s := s.modRef k fun x => { x with lostAt := times }
    if 3 ≤ times.length then (s.disqualify k 3).select else s

/-- A new crown's DPLL starts in holdover with the mirrored history (R364). -/
def dpllTakeover (s : State) (old : Nat) : State :=
  let s := (s.setDpll 3).modTim fun x => { x with holdTake := true }
  let s := s.forEach (List.range 16) fun t k =>
    let t := t.modRef k fun x => { x with fresh := false }
    if t.flag TIM_REF_CFG_EN pkg k && t.rd TIM_REF_CFG_SOURCE pkg k == 1 && t.rd TIM_REF_CFG_DIE pkg k == old then
      (t.disqualify k 1).wr TIM_REF_STATUS_ACTIVE pkg 0 k
    else t
  if s.pick = s.selected then s else (s.showSelected s.pick).raise TIM_EVENT_SEL_CHG pkg

/-- The source die of LANE slots has left: their slots are disqualified at once (R355, R372). -/
def refDieLost (s : State) (d : Nat) : State :=
  let hit := (List.range 16).filter fun k =>
    s.flag TIM_REF_CFG_EN pkg k && (s.rd TIM_REF_CFG_SOURCE pkg k == 1 || s.rd TIM_REF_CFG_SOURCE pkg k == 2) &&
      s.rd TIM_REF_CFG_DIE pkg k == d
  let s := s.forEach hit fun t k => (t.disqualify k 1).wr TIM_REF_STATUS_ACTIVE pkg 0 k
  if hit.any fun k => s.selected == some k then s.select else s

end State

/-! ### Rows -/

/-- TIME_TRANSFER (R247): the TIME record's T_TX, T_RX and RX_MFC, and the own capture t4; the result is a sample of the team's
LINE slots (R353). Log entry 29 DESIGN CHOICE. -/
def execTimeTransfer (die : Fin 8) (tTx tRx : Nat) (rxMfc : Word) (t4 : Nat) (s : State) :
    Host.Outcome State Fault Refusal :=
  runDie s die fun s =>
    if !s.flag FRM_TT_CTRL_EN die then s
    else
      match s.ttSelected die, s.tim.txStamps.find? fun e => e.1 == rxMfc.toNat with
      | some (e, i), some t1 =>
        let a : ℚ := ((tRx : Int) - (t1.2 : Int) : Int)
        let b : ℚ := (t4 : ℚ) - s.dispersionDelay e i * 65536 / 1000 - (tTx : ℚ)
        let asym : ℚ := (s.rdS FRM_TT_CTRL_ASYM die : ℚ) * 65536 / 10
        let offset := Arith.round ((a - b - asym) / 2)
        (s.publishTt die (8 * (e - s.teamBase die) + i) (Arith.round ((a + b) / 2)) offset).lineSample (s.teamBase die) offset
      | _, _ => s.wr FRM_TT_STATUS_VALID die 0

/-- REF_MONITOR_UPDATE (R355 to R358, R363). -/
def execRefMonitorUpdate (samples : List RefSample) (s : State) : Host.Outcome State Fault Refusal :=
  run s fun s =>
    let s := s.modTim fun x => { x with now := x.now + 1 }
    let s := s.forEach s.dieList fun t d => t.laneRefLimit d
    let s := s.forEach samples fun t r => t.monitor r
    (s.refreshConflicts.refreshHistory.refreshFreeze.refreshHistory.trackPhase).select

/-- REF_ACTIVITY_LOSS (R356). -/
def execRefActivityLoss (slot : Fin 16) (s : State) : Host.Outcome State Fault Refusal :=
  run s fun s =>
    let k : Nat := slot
    if s.flag TIM_REF_CFG_EN pkg k then
      let s := (s.wr TIM_REF_STATUS_ACTIVE pkg 0 k).disqualify k 1
      if s.selected = some k then s.select else s
    else s

/-- REF_SLOT_CONFIG (R351). -/
def execRefSlotConfig (slot : Fin 16) (data : Word) (s : State) : Host.Outcome State Fault Refusal :=
  run s fun s => s.refConfig slot data.toNat

/-- REF_OFS_WRITE (R361): values out of range are stored as the nearest bound; the selected absolute slot is pulled in
without a step. -/
def execRefOfsWrite (slot : Fin 16) (data : Word) (s : State) : Host.Outcome State Fault Refusal :=
  run s fun s =>
    let k : Nat := slot
    let old := s.rdS TIM_REF_OFS_OFFSET pkg k
    let v := clampInt (-500000000) 500000000 (toSigned 32 data.toNat)
    let s := s.wrS TIM_REF_OFS_OFFSET pkg v k
    if s.selected = some k ∧ s.absolute k then (s.modTim fun x => { x with phase := x.phase + v - old }).showPhase else s

/-- DPLL_LOCKED (R360). -/
def execDpllLocked (s : State) : Host.Outcome State Fault Refusal :=
  run s fun s => if s.dpll = 1 then s.setDpll 2 else s

/-- DPLL_ACQ_TIMEOUT (R360). -/
def execDpllAcqTimeout (s : State) : Host.Outcome State Fault Refusal :=
  run s fun s => if s.dpll = 1 then s.enterLost else s

/-- DPLL_LOST (R360). -/
def execDpllLost (s : State) : Host.Outcome State Fault Refusal :=
  run s fun s => if s.dpll = 2 then s.enterLost else s

/-- DPLL_REACQUIRE (R360). -/
def execDpllReacquire (s : State) : Host.Outcome State Fault Refusal :=
  run s fun s =>
    match s.dpll, s.selected with
    | 4, some k => s.acquireRef k
    | _, _ => s

/-- DPLL_MODE_WRITE (R360). -/
def execDpllModeWrite (mode : Fin 8) (s : State) : Host.Outcome State Fault Refusal :=
  run s fun s => s.modeWrite mode

/-- HISTORY_SAMPLE (R362): the mean output frequency of the last second, in 2^−16 ppb. -/
def execHistorySample (mean : Int) (s : State) : Host.Outcome State Fault Refusal :=
  run s fun s =>
    if s.dpll = 2 then
      let s := s.modTim fun x =>
        { x with lastMean := mean, samples := ((x.now, mean) :: x.samples).filter fun y => decide (x.now ≤ y.1 + 4350) }
      (s.wrS TIM_DPLL_FREQ_FREQ pkg mean).refreshHistory
    else s

/-- PHASE_STEP (R365). -/
def execPhaseStep (step : Word) (s : State) : Host.Outcome State Fault Refusal :=
  run s fun s => s.phaseStep (toSigned 32 step.toNat)

/-- STEP_APPLY (R365). -/
def execStepApply (s : State) : Host.Outcome State Fault Refusal :=
  run s fun s => s.stepApply

/-- OUTPUT_CONFIG_WRITE (R366). -/
def execOutputConfigWrite (out : Fin 4) (aux : Bool) (data : Word) (s : State) : Host.Outcome State Fault Refusal :=
  run s fun s => s.outputConfig out aux data.toNat

/-- REALIGN (R367). -/
def execRealign (data : Word) (s : State) : Host.Outcome State Fault Refusal :=
  run s fun s => s.realignWrite data.toNat

/-- REALIGN_DONE (R367): the outputs in slew have reached 0. -/
def execRealignDone (s : State) : Host.Outcome State Fault Refusal :=
  run s fun s =>
    if s.tim.slewing = 0 then s
    else
      let m := s.tim.slewing
      let s := s.forEach (List.range 4) fun t j => if bit m j then t.setPend j 0 else t
      (s.modTim fun x => { x with slewing := 0 }).raise TIM_EVENT_REALIGN_DONE pkg

/-- TOD_LOAD (R369). -/
def execTodLoad (s : State) : Host.Outcome State Fault Refusal :=
  run s fun s => s.modTim fun x => { x with loadDue := true }

/-- TOD_LOAD_APPLY (R369). -/
def execTodLoadApply (s : State) : Host.Outcome State Fault Refusal :=
  run s fun s =>
    if s.tim.loadDue then
      let sec := s.rd TIM_TOD_LOAD_S_HI_SECONDS pkg * 2 ^ 32 + s.rd TIM_TOD_LOAD_S_LO_SECONDS pkg
      (s.modTim fun x => { x with todSec := sec, todNs := 0, todFrac := 0, loadDue := false }).wr
        TIM_DPLL_STATUS_TOD_VALID pkg 1
    else s

/-- TOD_SNAP (R370): the counter has advanced by `adv` (2^−16 ns) since it was last brought up to date.
Log entry 58 DESIGN CHOICE. -/
def execTodSnap (adv : Nat) (s : State) : Host.Outcome State Fault Refusal :=
  run s fun s =>
    let s := s.todAdvance adv
    let s := (s.wr TIM_TOD_SNAP_DATA pkg s.tim.todSec 0).wr TIM_TOD_SNAP_DATA pkg (s.tim.todSec / 2 ^ 32) 1
    (s.wr TIM_TOD_SNAP_DATA pkg s.tim.todNs 2).wr TIM_TOD_SNAP_DATA pkg s.tim.todFrac 3

end Sys2Proof.Machine
end

