-- ==== Sys2Proof/Machine/Reset.lean ====
section
/-! DEFINITION. What the four resets clear and keep (spec/00, R13 to R15), what stopping a die does (R51, R348), the cells
of a die and the blocks built from them (spec/03, R69 to R73), and the block resets. -/
namespace Sys2Proof.Machine
open Sys2Proof

/-- Drop the entries of one instance. -/
def Store.dropInst {α : Type} (m : Store α) (d : Nat) : Store α := m.keep fun k => k.inst != d

/-! ### Cells (R69, R70, R72, R73) -/

/-- Working and spare cells of each type: FFT, MAC, CORDIC, mapper, LDPC node, polyphase (R69). Log entry 68 DEDUCED. -/
def cellCounts : List (Nat × Nat) := [(96, 6), (640, 38), (80, 5), (48, 3), (1536, 92), (24, 2)]

/-- The working cells that each row of R70 needs, as type and count: front end, channeliser, resamplers, equaliser, carrier
recovery, seam combiner, demapper, decoder clusters, matcher and mapper, pulse shaping, pre-compensation. -/
def rowCells : List (List (Nat × Nat)) :=
  [ [(1, 64), (2, 16)], [(0, 16), (5, 4)], [(5, 8)], [(0, 48), (1, 256)], [(1, 64), (2, 48)], [(0, 8), (1, 32)], [(3, 24)],
    [(4, 8 * 192)], [(3, 24)], [(0, 24), (1, 128), (5, 12)], [(1, 96), (2, 16)] ]

/-- The cells of a type that a row of R70 needs. -/
def rowNeed (type r : Nat) : Nat := (((rowCells.getD r []).find? fun x => x.1 == type).map Prod.snd).getD 0

/-- The row that holds the p-th working cell of a type, when the rows take their cells one after the other: 11 for none. -/
def rowOfPlace (type p : Nat) : Nat :=
  ((List.range 11).find? fun r => decide (p < ((List.range (r + 1)).map (rowNeed type)).sum)).getD 11

/-- A list made a permutation of the numbers below n: its first use of each, then the rest in order. -/
def orderOf (n : Nat) (l : List Nat) : List Nat :=
  let a := (l.filter fun i => decide (i < n)).dedup
  a ++ (List.range n).filter fun i => !a.contains i

/-- The register block that governs a row of R70. -/
def rowBlock (r : Nat) : Nat := [2, 4, 4, 4, 4, 6, 4, 7, 5, 5, 5].getD r 0

/-- A physical index is a spare of its type: the spares follow the working cells. Log entry 68 DEDUCED. -/
def isSpare (type i : Nat) : Bool :=
  let c := cellCounts.getD type (0, 0)
  decide (c.1 ≤ i ∧ i < c.1 + c.2)

namespace State

/-! ### Cells of a die -/

/-- The valid entries of the remap table: type, failed cell, spare. -/
def remaps (s : State) (d : Nat) : List (Nat × Nat × Nat) :=
  (List.range 32).filterMap fun k =>
    if s.flag IMG_CELL_REMAP_VALID d k then
      some (s.rd IMG_CELL_REMAP_TYPE d k, s.rd IMG_CELL_REMAP_FAILED d k, s.rd IMG_CELL_REMAP_SPARE d k)
    else none

/-- The entries that the loader takes: a spare of the type that no earlier entry uses (`IMG_CELL_REMAP_k.SPARE`). -/
def goodRemaps (s : State) (d : Nat) : List (Nat × Nat × Nat) :=
  (s.remaps d).foldl (fun a e =>
    if isSpare e.1 e.2.2 && !a.any (fun x => x.1 == e.1 && x.2.2 == e.2.2) then a ++ [e] else a) []

/-- The spares of a type that no entry names and that have not failed, lowest first.
Log entries 2 DESIGN CHOICE, 68 DEDUCED. -/
def freeSpares (s : State) (d type : Nat) : List Nat :=
  let c := cellCounts.getD type (0, 0)
  ((List.range c.2).map fun j => c.1 + j).filter fun i =>
    !(s.remaps d).any (fun e => e.1 == type && e.2.2 == i) && !(s.die d).failed.contains (type, i)

/-- Write the remap entry of a failed cell into the first free entry (R72): whether one was written.
Log entry 68 DEDUCED. -/
def remapCell (s : State) (d type i : Nat) : Bool × State :=
  let s := s.modDie d fun x => { x with failed := if x.failed.contains (type, i) then x.failed else x.failed ++ [(type, i)] }
  if (s.remaps d).any fun e => e.1 == type && e.2.1 == i then (true, s)
  else
    match (List.range 32).find? fun k => !s.flag IMG_CELL_REMAP_VALID d k, (s.freeSpares d type).head? with
    | some k, some sp =>
      (true, ((((s.wr IMG_CELL_REMAP_VALID d 1 k).wr IMG_CELL_REMAP_TYPE d type k).wr IMG_CELL_REMAP_FAILED d i k).wr
        IMG_CELL_REMAP_SPARE d sp k))
    | _, _ => (false, s)

/-- The row of R70 that a working cell serves: the loaded image gives each row as many cells as R70 states, in an order that
is its own, since the content of CELL_MAP is not in the spec. Log entry 67 UNVERIFIED. -/
def cellRow (s : State) (d type i : Nat) : Nat :=
  let n := (cellCounts.getD type (0, 0)).1
  let order := orderOf n (Config.cellOrder (s.rd IMG_DIGEST_LO_DIGEST d) (s.rd IMG_DIGEST_HI_DIGEST d) type)
  rowOfPlace type (order.idxOf i)

/-- The row that a cell serves: a spare serves that of the cell it replaces. -/
def servedRow (s : State) (d type i : Nat) : Nat :=
  if isSpare type i then
    match (s.goodRemaps d).find? fun e => e.1 == type && e.2.2 == i with
    | some e => s.cellRow d type e.2.1
    | none => 11
  else s.cellRow d type i

/-- A failed cell is replaced by a spare that works, itself or in its turn; the table has 32 entries. -/
def replaced (s : State) (d type : Nat) : Nat → Nat → Bool
  | 0, _ => false
  | n + 1, i =>
    match (s.goodRemaps d).find? fun e => e.1 == type && e.2.1 == i with
    | some e => !(s.die d).failed.contains (type, e.2.2) || s.replaced d type n e.2.2
    | none => false

/-- A row of R70 needs a failed cell that no working spare replaces (R73). Log entry 67 UNVERIFIED. -/
def rowBroken (s : State) (d r : Nat) : Bool :=
  (s.die d).failed.any fun c => !isSpare c.1 c.2 && s.cellRow d c.1 c.2 == r && !s.replaced d c.1 32 c.2

/-- A row of R70 is retired. Log entry 100 DEDUCED. -/
def rowRetired (s : State) (d r : Nat) : Bool := bit (s.rd IMG_DIE_STATUS_BLOCK_RETIRED d) r

/-- Build some rows of R70 (R72, R73): a row that cannot be built is retired and reported; an entry that cannot be used is
reported as a fault of the block. -/
def buildRows (s : State) (d : Nat) (rows : List Nat) : State :=
  let s := if (s.remaps d).length = (s.goodRemaps d).length then s
    else s.emit (.fault d ⟨1, 0, codeCellRemapped, 1, 0, 0⟩)
  s.forEach (rows.filter fun r => s.rowBroken d r && !s.rowRetired d r) fun t r =>
    ((t.wr IMG_DIE_STATUS_BLOCK_RETIRED d (setBit (t.rd IMG_DIE_STATUS_BLOCK_RETIRED d) r true)).emit
      (.fault d ⟨1, 1, codeBlockRetired, Fin.ofNat 256 (rowBlock r), Fin.ofNat 256 r, 0⟩)).refuseRetired d

/-! ### Stopping a die -/

/-- Blocks that a direction of a flow holds. -/
def flowHeld (s : State) (d u : Nat) : Nat :=
  if u % 2 = 0 then (s.flow d (u / 2)).buffer.length else (s.flow d (u / 2)).toHost.length + (s.flow d (u / 2)).toOld.length

/-- A direction of a flow drops the blocks it holds. -/
def flowDrop (s : State) (d u : Nat) : State :=
  s.modFlow d (u / 2) fun x => if u % 2 = 0 then { x with buffer := [] } else { x with toHost := [], toOld := [] }

/-- Jobs queued on the channel of a cluster. -/
def channel (s : State) (d c : Nat) : List DmaJob := s.dma.get [] (unitKey d c)
def modChannel (s : State) (d c : Nat) (f : List DmaJob → List DmaJob) : State :=
  { s with dma := s.dma.set [] (unitKey d c) (f (s.channel d c)) }

/-- The work units that a unit holds; `given` for the units whose work the state does not hold: converters, receive arms,
engines and watch channels. Log entry 9 DESIGN CHOICE. -/
def heldNow (s : State) (d b u given : Nat) : Nat :=
  match b with
  | 5 => b2n (s.txState d u == 3)
  | 7 => b2n ((s.fecSt d).clusters.getD u none).isSome
  | 10 => s.flowHeld d u
  | 12 => b2n ((s.crcSt d u).pos != 0)
  | 13 => s.grpHeld d u
  | 14 => if u < 64 then given else ((s.channel d (u - 64)).map fun j => (j.len + 31) / 32).sum
  | 20 => b2n (s.seqSt d).pass.isSome
  | 22 => b2n s.plm.tx.isSome + s.plm.marks.length
  | _ => given

/-- What a unit of a block does with the work that it drops. -/
def dropHeld (s : State) (d b u : Nat) (reenable : Bool) : State :=
  match b with
  | 4 =>
    if u < 8 then
      let s := s.rxStop d u true
      if reenable then s.rxStart d u else s
    else s
  | 7 =>
    match (s.fecSt d).clusters.getD u none with
    | some j => (s.modFec d fun y => { y with clusters := y.clusters.set u none }).deliverRaw d j.cw
    | none => s
  | 10 => s.flowDrop d u
  | 13 => s.grpDrop d u
  | 14 =>
    if u < 64 then
      let s := s.haltEng d u 1
      if reenable then s.startEng d u else s
    else s.modChannel d (u - 64) fun _ => []
  | 20 => s.seqStop d true
  | 21 => s.modWch d u fun _ => {}
  | 22 => s.modPlm fun x => { x with tx := none }
  | 12 => s.modCrc d u fun x => { x with running := 0, pos := 0, carry := none }
  | _ => s

/-- The units of a block that hold work, with how much. -/
def heldUnits (s : State) (d b : Nat) : List (Nat × Nat) :=
  let mine {α : Type} (m : Store α) : List Nat := (m.keep fun k => k.inst == d).map fun e => e.1.idx
  let us := match b with
    | 5 => List.range 8
    | 7 => List.range 8
    | 10 => (mine s.flows).flatMap fun f => [2 * f, 2 * f + 1]
    | 12 => mine s.crc
    | 13 => List.range 8
    | 14 => (mine s.dma).map fun c => 64 + c
    | 20 => [0]
    | 22 => [0]
    | _ => []
  (us.map fun u => (u, s.heldNow d b u 0)).filter fun x => x.2 != 0

/-- Every unit of a block of a die that holds work discards it (R99). -/
def abortHeld (s : State) (d b : Nat) : State :=
  s.forEach (s.heldUnits d b) fun t x => (t.abortUnit (disInst d b) b x.1 x.2).dropHeld d b x.1 false

/-- Every unit of a die stops under ABORT: converters, arms, clusters, flows, check units, lanes, engines, channels, the
sequencer and watch channels; the work that they hold is discarded and counted, for a sending arm its superframe and for a
converter its word (R51, R100, R115, R187, R275, R301, R329, R348, R392). `cause` is what the engines show.
Log entry 97 DEDUCED. -/
def stopUnits (s : State) (d cause : Nat) : State :=
  let words (f : Fld) (u0 : Nat) (t : State) : State :=
    if t.flag CNV_STATUS_SCLK_LOCK d then
      t.forEach ((List.range 4).filter fun u => bit (t.rd f d) u) fun u c => u.abortUnit d 2 (u0 + c) 1
    else t
  let s := words CNV_CTRL_DAC_EN 4 (words CNV_CTRL_ADC_EN 0 s)
  let s := s.abortHeld d 5
  let s := s.forEach (List.range 8) fun t i => (t.txStop d i false).rxStop d i false
  let s := ((((s.stopClusters d).stopLanes d).abortHeld d 10).abortHeld d 12)
  let s := s.forEach (List.range 64) fun t e => if t.engRuns d e then t.haltEng d e cause else t
  let s := ((s.abortHeld d 14).abortHeld d 20).seqStop d true
  let s := { s with wch := s.wch.dropInst d }
  s.forEach ((s.units.keep fun k => k.inst == d).filter fun e => e.2.work != 0) fun t e =>
    t.abortUnit d e.1.blk e.1.idx e.2.work

/-! ### The resets -/

/-- The values of a die's staged fields as the crown keeps them for the die's next start (R85). -/
def keepValues (s : State) (d : Nat) : State :=
  if (s.die d).released && !s.image.kept.any (fun e => e.1.inst == d) then
    { s with image := { s.image with
        kept := s.image.kept.putAll (s.regs.keep fun k => k.inst == d && (stagedField k).isSome) } }
  else s

/-- Drop everything a die holds outside its registers, root domain and fuses. -/
def dropRecords (s : State) (d : Nat) : State :=
  { s with
    staged := s.staged.dropInst d, pend := s.pend.dropInst d, shadow := s.shadow.dropInst d
    mem := memClear s.mem (dieBase d + 0x01000000) (dieBase d + 0x04000000)
    load := s.load.dropInst d, units := s.units.dropInst d, blkRst := s.blkRst.dropInst d
    cnv := s.cnv.dropInst d, coef := s.coef.dropInst d, calRej := s.calRej.dropInst d, calRun := s.calRun.dropInst d
    calWin := s.calWin.dropInst d, rxArms := s.rxArms.dropInst d, groups := s.groups.dropInst d
    rxDies := s.rxDies.dropInst d, seams := s.seams.dropInst d, txDies := s.txDies.dropInst d
    txArms := s.txArms.dropInst d, lut := s.lut.dropInst d, fec := s.fec.dropInst d, streams := s.streams.dropInst d
    frm := s.frm.dropInst d, flows := s.flows.dropInst d, keyJobs := s.keyJobs.dropInst d, crc := s.crc.dropInst d
    lanes := s.lanes.dropInst d, grps := s.grps.dropInst d, stamps := s.stamps.dropInst d
    wordErr := s.wordErr.dropInst d
    banks := (s.banks.keep fun k => k.inst != d || ((s.bankSt d k.idx).badSpares != 0)).mapInst {} (fun k => k.inst == d)
      fun x => { badSpares := x.badSpares }
    tcms := s.tcms.dropInst d, engs := s.engs.dropInst d, dma := s.dma.dropInst d, memSts := s.memSts.dropInst d
    pwr := s.pwr.mapInst {} (fun k => k.inst == d) fun x => { temp := x.temp }
    flowPwr := s.flowPwr.dropInst d, seqs := s.seqs.dropInst d, wch := s.wch.dropInst d
    cairn := s.cairn.dropInst d }

/-- The PLLs of a die stop. -/
def stopPlls (s : State) (d : Nat) : State :=
  ((s.wr PWR_STATUS_SAMPLING_LOCK d 0).wr PWR_STATUS_FABRIC_LOCK d 0).wr PWR_STATUS_ENGINE_LOCK d 0

/-- An access in progress to a register of a die of which a reset returns a field, as the test says, completes with an error
response (R14). Log entry 72 DEDUCED. -/
def accessInReset (s : State) (d : Nat) (p : Nat → Nat → Fld → Bool) : State :=
  match s.bus.running with
  | some a =>
    if a.die = d && offTouches (a.addr % 0x04000000 / 0x40000 * 0x40000 + a.addr % 0x20000) p then
      let s := { s with bus := { s.bus with running := some { a with done := some { code := 2, addr := a.addr } } } }
      (s.wr PKG_DIE_ADDR_ERR_ADDR_ADDRESS a.die a.addr).raise PKG_DIE_ADDR_ERR_IN_RESET a.die
    else s
  | none => s

/-- A die reset (R13): everything of the die but its root domain, RWS fields, and POR and PKG fields. The retirements of
arms end (R432). The die starts again; with BOOT_EN set, a march runs (R326). Log entry 156 DEDUCED. -/
def clearDie (s : State) (d : Nat) : State :=
  let s := (s.keepValues d).refDieLost d
  let s := s.dropRecords d
  let s := { s with regs := s.regs.keep fun k => k.inst != d || decide (k.dom < 2) }
  let s := (s.wr FLT_RETIRED_TX_ARM d 0).wr FLT_RETIRED_RX_ARM d 0
  let s := (s.stopPlls d).modDie d fun x =>
    { x with
      selfTest := none, starting := true, loaded := false, released := false, epochRun := 0, timeRun := 0
      valuesLate := false, unparked := false, holdsGo := false, switched := false, reverting := false, prepared := false, answered := none
      mismatch := [], epochAns := none }
  (s.accessInReset d fun _ _ f => decide (2 ≤ f.dom.rank) && f.ty != .rws).bootMarch d

/-- Package reset (R13): every die and every package register, then a cold start. Fields of domain POR, the fault logs, OTP
and flash survive. Log entry 69 DESIGN CHOICE. -/
def clearPackage (s : State) : State :=
  let ds := s.dieList
  let s := s.forEach ds fun t d => t.dropRecords d
  let answer : Resp := match s.bus.running with
    | some _ => { code := 2 }
    | none => s.bus.last
  let s := { s with
    regs := s.regs.keep fun k => decide (k.dom < 1)
    staged := [], pend := [], shadow := [], dies := s.dies.mapInst {} (fun _ => true) fun x => { logSeq := x.logSeq, failed := x.failed }
    crown := {}, bus := { last := answer }, txn := {}, image := {}, time := {}, pwr := [], mgr := [], flowPwr := [], tim := {}
    refs := [], plm := {}, teams := [], retries := [], pins := { s.pins with allFell := false } }
  s.forEach ds fun t d =>
    let t := (t.wr PKG_DIE_STATUS_QUARANTINED d 0).wr PKG_DIE_STATUS_IS_CROWN d 0
    (t.wr PKG_DIE_STATUS_IS_STANDBY d 0).bootMarch d

/-- Power-on reset (R13): everything but OTP contents and the external flash. What lies outside the part, the part itself,
its fused identifiers, the pins and the waiting commands, is unchanged. -/
def clearAll (s : State) : State :=
  { State.reset with
    part := s.part, flash := s.flash, otp := s.otp, dieId := s.dieId, out := s.out, fresh := s.fresh
    pending := s.pending
    pins := { s.pins with porDone := false, waiting := true, allFell := false }
    bus := { last := match s.bus.running with | some _ => { code := 2 } | none => {} } }

/-! ### Block resets (R13, R15) -/

/-- What a block's datapath does after its reset (R113, R162, R186, R213, R231, R261, R276, R302, R328, R381).
Log entry 71 DESIGN CHOICE. -/
def blockRestart (s : State) (d b : Nat) : State :=
  let arms := (List.range 8).filter fun i => s.rxOn d i
  match b with
  | 2 => if s.flag CNV_COEF_CTRL_SWITCH_PENDING d then s.endSwitch d else s
  | 3 => { s with calRej := s.calRej.dropInst d, calRun := s.calRun.dropInst d }
  | 4 => s.forEach arms fun t i => (t.modRx d i fun _ => {}).startArm d i
  | 5 =>
    let s := if s.flag TXD_LUT_CTRL_SWITCH_PENDING d then s.endLutSwitch d else s
    s.forEach (List.range 8) fun t i =>
      if t.txOn d i then ((t.setTxState d i 2).modTx d i fun a => { a with waking := false, due := false }) else t
  | 6 =>
    let t := { s with seams := s.seams.dropInst d }
    (t.seamTry d false).seamTry d true
  | 7 =>
    let t := s.modFec d fun x => { tables := x.tables, ec := x.ec }
    let t := { t with streams := t.streams.mapInst {} (fun k => k.inst == d) fun x =>
      { x with nextOut := x.nextIn, bchBits := [], start := none } }
    (t.forEach (List.range 8) fun u i => u.loseSync d i).showFill d
  | 8 => s.forEach arms fun t i => t.frmHunt d i
  | 10 => { s with flows := s.flows.mapInst {} (fun k => k.inst == d) fun x => { x with buffer := [], toHost := [], toOld := [] } }
  | 11 => s.eraseKeys d
  | 12 => { s with crc := s.crc.dropInst d }
  | 13 =>
    let t := { s with lanes := s.lanes.dropInst d, grps := s.grps.dropInst d, stamps := s.stamps.dropInst d }
    t.forEach (List.range 8) fun u g => if u.flag HLN_GRP_CFG_EN d g then u.grpEnable d g else u
  | 14 => { s with dma := s.dma.dropInst d }
  | 15 => s.modMem d fun x => { x with march := none }
  | 16 =>
    let t := (s.modMem d fun x => { x with scrub := none }).wr ECC_CTRL_SCRUB_BUSY d 0
    let t := ((t.wr ECC_UE_ADDR_ADDRESS d 0).wr ECC_CE_ADDR_ADDRESS d 0).wr ECC_UE_INFO_POISON_READS d 0
    t.forEach (List.range 16) fun u g => u.wr ECC_BUCKET_LEVEL d 0 g
  | 20 => (s.seqStop d true).wr HKA_SEQ_STATUS_PENDING d 0
  | 21 => { s with wch := s.wch.dropInst d }
  | 22 => if s.crown.token = some d then s.plmClear.plmRestart else s
  | _ => s

/-- The reset of a block takes effect (R13, R72): its fields of domain BLK return to their reset values, its datapath
restarts, and it takes the remap entries. Pending fields survive (R95). The modem and the timing block are reset through
the crown. -/
def blockReset (s : State) (d b : Nat) : State :=
  let i := disInst d b
  if i = pkg ∧ s.crown.token ≠ some d then s else
  let s := { s with
    regs := s.regs.keep fun k => !(k.inst == i && k.dom == 3 && (k.blk == b || (k.blk == 27 && k.idx == b)))
    units := s.units.keep fun k => !(k.inst == i && k.blk == b)
    blkRst := s.blkRst.erase (unitKey d b) }
  let s := (s.blockRestart d b).accessInReset d fun blk k f => f.dom == .blk && (blk == b || (blk == 27 && k == b))
  s.buildRows d ((List.range 11).filter fun r => rowBlock r == b)

end State

end Sys2Proof.Machine
end

