-- ==== Sys2Proof/Machine/Members.lean ====
section
/-! DEFINITION. Membership of the package and of teams: eligibility and the standby (R42), leaving a team (R33, R459),
quarantine and release (R50 to R53), rejoin (R37) and the base-camp plan of a die (R415, R416). -/
namespace Sys2Proof.Machine
open Sys2Proof

namespace State

/-! ### Eligibility (R42) -/

/-- A die is parked, quarantined, retired. -/
def parked (s : State) (d : Nat) : Bool := s.flag PWR_STATUS_PARKED d
def quarantined (s : State) (d : Nat) : Bool := bit (s.rd PKG_QUAR_STATUS_QUARANTINED pkg) d
def retiredDie (s : State) (d : Nat) : Bool := s.flag FLT_RETIRED_DIE d

/-- The image digest that heartbeats carry (R77). -/
def digest (s : State) (d : Nat) : Nat × Nat := (s.rd IMG_DIGEST_LO_DIGEST d, s.rd IMG_DIGEST_HI_DIGEST d)

/-- Every condition of eligibility but the agreement of the digest (R42, R52, R431). -/
def nearEligible (s : State) (d : Nat) : Bool :=
  (s.die d).selfTest == some true && !s.quarantined d && !s.retiredDie d && !(s.die d).held &&
  (!s.crown.imageStarted || (!s.parked d && (s.die d).loaded))

/-- The die whose digest counts: the crown, or the crown that has failed. -/
def reference (s : State) : Option Nat :=
  match s.crown.token with
  | some c => some c
  | none => s.crown.failed

/-- A die is eligible to become crown (R42). -/
def eligible (s : State) (d : Nat) : Bool :=
  s.nearEligible d &&
  (!s.crown.imageStarted || match s.reference with
    | some c => s.digest d == s.digest c
    | none => true)

/-- The standby: the lowest eligible die other than the crown (R42). -/
def standby (s : State) : Option Nat := s.dieList.find? fun d => s.eligible d && s.reference != some d

/-- Bring CROWN, STANDBY, STANDBY_VALID, PLM_AVAIL and each die's own bits up to date (R40, R42). Package
registers are held once, not copied to the standby. Log entry 158 DEDUCED. -/
def refreshCrown (s : State) : State :=
  let s := match s.standby with
    | some d => (s.wr PKG_CROWN_STATUS_STANDBY_VALID pkg 1).wr PKG_CROWN_STATUS_STANDBY pkg d
    | none => s.wr PKG_CROWN_STATUS_STANDBY_VALID pkg 0
  let s := match s.crown.token with
    | some c => (s.wr PKG_CROWN_STATUS_CROWN pkg c).wrb PKG_CROWN_STATUS_PLM_AVAIL pkg (decide (c ≤ 1))
    | none => s
  let st := s.standby
  s.forEach s.dieList fun t d =>
    let t := t.wrb PKG_DIE_STATUS_IS_CROWN d (t.crown.token == some d)
    (t.wrb PKG_DIE_STATUS_IS_STANDBY d (st == some d)).wrb PKG_DIE_STATUS_QUARANTINED d (t.quarantined d)

/-! ### Leaving a team (R33, R459) -/

/-- A member stops (R33, steps 1 and 2): its neighbours' seams go own-only and an open transaction that it takes part in
aborts (R92). Step 3 is due. -/
def leaveTeam (s : State) (d : Nat) : State :=
  if s.memberState d = 1 ∨ s.memberState d = 2 then
    ((s.memberAbort d).seamLeave d).modDie d fun x => { x with departed := true }
  else s

/-- The crown declares a departed die absent (R33, step 3): member state, event, log entry. In a team of two or more the
absence change is then due, and the segments that remain take their leads' frequency (R35, R135). A transaction that the loss aborted is restaged without the die (R36). -/
def memberLost (s : State) (d : Nat) : State :=
  if (s.die d).departed then
    let team := decide (2 ≤ s.teamSize d)
    let s := (s.setMember d 3).raise PKG_TEAM_EVENT_MEMBER_LOST pkg (2 ^ d)
    let s := s.logCrown (chipEvent codeMemberLost d 0)
    let s := s.modDie d fun x => { x with departed := false, absenceDue := team, rejoinReq := false }
    let s := if s.rd IMG_TXN_STATUS_RESULT pkg = 2 ∧ s.rd IMG_TXN_STATUS_REASON pkg = 7 then
        { s with staged := s.staged.dropInst d }
      else s
    ((s.forEach ((s.teamDies d).filter s.isActive) fun t e => t.takeFreq e).refreshCrown).showAllSlots
  else s

/-! ### Quarantine and release (R50 to R53) -/

/-- The crown quarantines a die with a cause code (R50, R51): never the crown itself (R52). -/
def quarantine (s : State) (d cause : Nat) : State :=
  if s.crown.token = some d ∨ s.quarantined d then s
  else
    let s := s.wrBit PKG_QUAR_STATUS_QUARANTINED pkg d true
    let s := s.wr PKG_QUAR_CAUSE_CAUSE pkg (setBitsAt (s.rd PKG_QUAR_CAUSE_CAUSE pkg) (4 * d) 4 cause)
    let s := s.raise PKG_QUAR_EVENT_ENTERED pkg (2 ^ d)
    let s := (s.logCrown (chipEvent codeQuarantine d cause)).memberAbort d
    let s := ((s.leaveTeam d).stopUnits d 5).eraseKeys d
    let s := s.modDie d fun x => { x with releaseLeft := none, mismatch := [] }
    (s.refDieLost d).refreshCrown

/-- A release attempt starts (R53): the next 3 heartbeats with values are compared. -/
def startRelease (s : State) (d : Nat) : State :=
  if s.quarantined d then s.modDie d fun x => { x with releaseLeft := some 3, releaseBad := 0 } else s

/-- The die leaves quarantine and starts (R53, R85, R409). -/
def release_ (s : State) (d : Nat) : State :=
  let s := s.wrBit PKG_QUAR_STATUS_QUARANTINED pkg d false
  let s := s.wr PKG_QUAR_CAUSE_CAUSE pkg (setBitsAt (s.rd PKG_QUAR_CAUSE_CAUSE pkg) (4 * d) 4 0)
  let s := s.raise PKG_QUAR_EVENT_RELEASED pkg (2 ^ d)
  let s := s.modDie d fun x => { x with releaseLeft := none, starting := true, released := false }
  { s with image := { s.image with resend := s.image.resend ++ [d] } }.refreshCrown

/-- One heartbeat of a release attempt, in which the items of the list disagreed, as cause codes (R53). A die that failed
self-test needs a passed one. -/
def releaseStep (s : State) (d : Nat) (items : List Nat) : State :=
  match (s.die d).releaseLeft with
  | none => s
  | some n =>
    let bad := if (s.die d).releaseBad != 0 then (s.die d).releaseBad
      else if (s.die d).selfTest != some true then 1 else items.headD 0
    if 1 < n then s.modDie d fun x => { x with releaseLeft := some (n - 1), releaseBad := bad }
    else if bad = 0 then s.release_ d
    else
      let s := s.wr PKG_QUAR_CAUSE_CAUSE pkg (setBitsAt (s.rd PKG_QUAR_CAUSE_CAUSE pkg) (4 * d) 4 bad)
      (s.raise PKG_QUAR_EVENT_RELEASE_FAIL pkg (2 ^ d)).modDie d fun x => { x with releaseLeft := none, releaseBad := 0 }

/-! ### Rejoin (R37) -/

/-- The skew on each seam that a die borders lies within limits: the seam below is judged by the die, the seam above by its
upper neighbour, which the die shows (R37, R124). -/
def seamsWithin (s : State) (d : Nat) : Bool :=
  (!(s.teamPos d != 0 && s.isActive (d - 1)) || s.flag CAL_STATUS_REJOIN_OK_LO d) &&
  (!(s.sameTeam d (d + 1) && s.isActive (d + 1)) || s.flag CAL_STATUS_REJOIN_OK_HI d)

/-- No absence change of a team is due or running (R36). -/
def noAbsence (s : State) (t : Nat) : Bool :=
  (s.teamDies t).all (fun e => !(s.die e).absenceDue && !(s.die e).departed) && ((s.team t).change.isNone)

/-- A die meets the conditions of a rejoin, and one was asked for or is automatic (R37).
Log entries 116 DEDUCED, 118 DEDUCED. -/
def rejoinReady (s : State) (d : Nat) : Bool :=
  (s.memberState d == 1 || s.memberState d == 3) && (s.die d).released && !s.quarantined d && !s.retiredDie d &&
  !s.parked d && (s.rd CAL_STATUS_FG_STATE d == 2 || s.flag BUP_STATUS_WARM d) && s.convertersOn d && s.seamsWithin d &&
  (bit (s.rd PKG_TEAM_CTRL_AUTO_REJOIN pkg) d || (s.die d).rejoinReq || (s.die d).unparked) && s.noAbsence (s.teamBase d)

/-! ### The base-camp plan of a die (R415, R416) -/

/-- The value the PLAN section gives a staged field, or its active value where it gives none. Log entry 144 DEDUCED. -/
def goalRd (s : State) (f : Fld) (d : Nat) (k : Nat := 0) : Nat :=
  ((s.team (s.teamBase d)).goal.find (f.key d k)).getD (s.rd f d k)

/-- Put one subcarrier into base-camp format (R415). -/
def campFormat (s : State) (d i : Nat) : State :=
  let s := ((s.wr TXD_SC_CFG_CLASS d 1 i).wr TXD_SC_CFG_H d 32 i).wr TXD_SC_CFG_CONST d 1 i
  (s.wr TXD_SC_CFG_ROLLOFF d 20 i).wr FEC_SC_CFG_CODE d (s.expressSlot d) i

/-- Take a die's own transmit loading of a subcarrier as its receive loading, which base camp does (R416). -/
def mirrorRx (s : State) (d i : Nat) (valid : Bool) : State :=
  let s := ((s.wrb TXD_SC_RXPLAN_VALID d valid i).wr TXD_SC_RXPLAN_CLASS d (s.rd TXD_SC_CFG_CLASS d i) i)
  let s := (s.wr TXD_SC_RXPLAN_H d (s.rd TXD_SC_CFG_H d i) i).wr TXD_SC_RXPLAN_CONST d (s.rd TXD_SC_CFG_CONST d i) i
  s.wr TXD_SC_RXPLAN_ROLLOFF d (s.rd TXD_SC_CFG_ROLLOFF d i) i

/-- Copy an entry of the transmit slot table to the receive slot table (R416). -/
def mirrorSlot (s : State) (d k : Nat) : State :=
  ((s.wr FLW_RX_SLOT_VALID d (s.rd FLW_TX_SLOT_VALID d k) k).wr FLW_RX_SLOT_DIE d (s.rd FLW_TX_SLOT_DIE d k) k).wr
    FLW_RX_SLOT_FLOW d (s.rd FLW_TX_SLOT_FLOW d k) k

/-- A die takes the base-camp plan: only local subcarrier 3 is active, in base-camp format, with the slots that the PLAN
section places on it, in both directions. -/
def campDie (s : State) (d : Nat) : State :=
  let s := s.forEach (List.range 8) fun t i =>
    if i = 3 then t else if t.txOn d i || t.rxOn d i then (t.txStop d i false).rxStop d i false else t
  let s := ((s.wr TXD_CTRL_SC_EN d 8).wr RXD_CTRL_SC_EN d 8).wr TXD_CTRL_PILOT_BOOST d 0
  let s := s.campFormat d 3
  let s := s.forEach (List.range 8) fun t i => t.mirrorRx d i (i == 3)
  let s := s.forEach (List.range 192) fun t k =>
    if k / 24 = 3 then
      ((t.wr FLW_TX_SLOT_VALID d (t.goalRd FLW_TX_SLOT_VALID d k) k).wr FLW_TX_SLOT_DIE d (t.goalRd FLW_TX_SLOT_DIE d k) k).wr
        FLW_TX_SLOT_FLOW d (t.goalRd FLW_TX_SLOT_FLOW d k) k
    else t.wr FLW_TX_SLOT_VALID d 0 k
  let s := s.forEach (List.range 192) fun t k => t.mirrorSlot d k
  let s := (s.setTxState d 3 2).rxStart d 3
  ((s.armDomains d).refreshPool d).showAllSlots

end State

/-! ### Rows -/

/-- REJOIN_REQUEST (R37): the request waits until the conditions hold (R36). -/
def execRejoinRequest (dies : BitVec 8) (s : State) : Host.Outcome State Fault Refusal :=
  run s fun s =>
    s.forEach (s.dieList.filter fun d => dies.getLsbD d && (s.memberState d == 3 || s.memberState d == 1)) fun t d =>
      t.modDie d fun x => { x with rejoinReq := true, shiftStopped := false }

/-- QUAR_REQ (R50): cause HOST; ignored for the crown. -/
def execQuarReq (dies : BitVec 8) (s : State) : Host.Outcome State Fault Refusal :=
  run s fun s => s.forEach (s.dieList.filter fun d => dies.getLsbD d) fun t d => t.quarantine d 6

/-- QUAR_RELEASE (R53). -/
def execQuarRelease (dies : BitVec 8) (s : State) : Host.Outcome State Fault Refusal :=
  run s fun s => s.forEach (s.dieList.filter fun d => dies.getLsbD d) fun t d => t.startRelease d

end Sys2Proof.Machine
end

