-- ==== Sys2Proof/Machine/Plan.lean ====
section
/-! DEFINITION. The plan of an epoch (spec/08, R236, R237, R241; spec/09, R271, R272): what a team's transmit direction holds,
its entries and digest, taking the far end's direction into the receive registers, and the messages of the handshake. -/
namespace Sys2Proof.Machine
open Sys2Proof

/-! ### Entries (R237, R271) -/

/-- A subcarrier entry: 22 bytes. -/
def PlanSc.entry (g : Nat) (p : PlanSc) : List Byte :=
  bytesBE 1 1 ++ bytesBE 1 g ++ bytesBE 1 p.state ++ bytesBE 1 p.cls ++ bytesBE 4 p.name ++ bytesBE 1 p.h ++
  bytesBE 1 p.const ++ bytesBE 1 p.roll ++ bytesBE 1 p.boost ++ List.replicate 10 0

/-- The 16 bytes of a SLOTS map from a BASE: byte 0 bit 7 is the slot BASE. -/
def slotMap (base : Nat) (slots : List Nat) : List Byte :=
  (List.range 16).map fun b =>
    BitVec.ofNat 8 ((List.range 8).foldl (fun a i => 2 * a + b2n (slots.contains (base + 8 * b + i))) 0)

/-- The slots a map names. -/
def mapSlots (base : Nat) (m : List Byte) : List Nat :=
  (List.range 128).filterMap fun b => if bit (m.getD (b / 8) 0).toNat (7 - b % 8) then some (base + b) else none

/-- The entries of a flow, in order: FLOW, SLOTS in ascending BASE, KEY. -/
def PlanFlow.entries (f : PlanFlow) : List (List Byte) :=
  let flow := bytesBE 1 0x10 ++ bytesBE 2 f.id ++ bytesBE 1 (b2n f.on) ++ bytesBE 1 f.cls ++ bytesBE 1 (b2n f.enc) ++
    bytesBE 1 f.check ++ bytesBE 1 f.span ++ bytesBE 2 f.slots.length ++ List.replicate 12 0
  let bases := ((List.range 12).map fun i => 128 * i).filter fun b => f.slots.any fun x => decide (b ≤ x ∧ x < b + 128)
  let slots := bases.map fun b => bytesBE 1 0x11 ++ bytesBE 2 f.id ++ bytesBE 2 b ++ slotMap b f.slots ++ [0]
  let key := match f.enc, f.key with
    | true, some k => [bytesBE 1 0x12 ++ bytesBE 2 f.id ++ bytesBE 4 k.1 ++ bytesBE 4 k.2 ++ List.replicate 11 0]
    | true, none => [bytesBE 1 0x12 ++ bytesBE 2 f.id ++ List.replicate 19 0]
    | false, _ => []
  flow :: slots ++ key

/-- Every entry of a direction, in the order the digest takes them. -/
def DirPlan.entries (p : DirPlan) : List (List Byte) :=
  (p.scs.zipIdx.map fun x => x.1.entry x.2) ++ p.flows.flatMap PlanFlow.entries

/-- What an entry is about: its type with its subcarrier, or line identifier and BASE. -/
def entryKey (e : List Byte) : List Byte :=
  match (e.headD 0).toNat with
  | 0x01 => e.take 2
  | 0x11 => e.take 5
  | _ => e.take 3

/-- The entries that turn the plan `old` into the plan `new`: those that differ, and off or empty ones for flows and maps
that end. -/
def planDelta (old new : DirPlan) : List (List Byte) :=
  let es := new.entries
  let changed := es.filter fun e => !old.entries.contains e
  let gone := old.entries.filter fun e => !es.any fun x => entryKey x == entryKey e
  changed ++ (gone.filter fun e => (e.headD 0).toNat != 0x12).map fun e =>
    entryKey e ++ List.replicate (22 - (entryKey e).length) 0

/-- Insert or change a flow in ascending order of its line identifier. -/
def putFlow (fs : List PlanFlow) (id : Nat) (f : PlanFlow → PlanFlow) : List PlanFlow :=
  let old := (fs.find? fun x => x.id == id).getD
    { id := id, on := false, cls := 0, enc := false, check := 0, span := 64, slots := [], key := none }
  (fs.filter fun x => decide (x.id < id)) ++ [f old] ++ fs.filter fun x => decide (id < x.id)

/-- A SLOTS entry replaces the slots of its BASE. -/
def withMap (slots : List Nat) (b : Nat) (m : List Byte) : List Nat :=
  slots.filter (fun x => decide (x < b)) ++ mapSlots b m ++ slots.filter fun x => decide (b + 128 ≤ x)

/-- The subcarrier a 0x01 entry describes. -/
def scOfEntry (e : List Byte) : PlanSc :=
  { state := beAt e 2 1, cls := beAt e 3 1, name := beAt e 4 4, h := beAt e 8 1, const := beAt e 9 1
    roll := beAt e 10 1, boost := beAt e 11 1 }

/-- Take an entry into a direction. -/
def DirPlan.take (p : DirPlan) (e : List Byte) : DirPlan :=
  match beAt e 0 1 with
  | 0x01 => { p with scs := p.scs.set (beAt e 1 1) (scOfEntry e) }
  | 0x10 =>
    let enc := beAt e 5 1 != 0
    let fs := putFlow p.flows (beAt e 1 2) fun f =>
      { f with on := beAt e 3 1 != 0, cls := beAt e 4 1, enc := enc, check := beAt e 6 1, span := beAt e 7 1
               key := if enc then f.key else none }
    { p with flows := fs }
  | 0x11 =>
    let fs := putFlow p.flows (beAt e 1 2) fun f => { f with slots := withMap f.slots (beAt e 3 2) (e.drop 5) }
    { p with flows := fs }
  | 0x12 =>
    let fs := putFlow p.flows (beAt e 1 2) fun f => { f with key := some (beAt e 3 4, beAt e 7 4) }
    { p with flows := fs }
  | _ => p

/-- A direction after its entries: flows that are off and hold no slot are not listed. -/
def DirPlan.takeAll (p : DirPlan) (es : List (List Byte)) : DirPlan :=
  let q := es.foldl DirPlan.take p
  { q with flows := q.flows.filter fun f => f.on || !f.slots.isEmpty }

/-- DIGEST (R237): CRC-32C over both directions, that of the end with the lower identity first. Log entry 76 DEDUCED. -/
def planDigest (lower : Bool) (own far : DirPlan) : Nat :=
  let a := own.entries.flatten
  let b := far.entries.flatten
  crc32c (if lower then a ++ b else b ++ a)

/-- An entry that sets a subcarrier absent (R34, R239). -/
def isAbsence (e : List Byte) : Bool := beAt e 0 1 == 0x01 && beAt e 2 1 == 2

namespace State

/-! ### A team's own direction -/

/-- A subcarrier's arm is retired (R431). -/
def armRetired (s : State) (d i : Nat) : Bool := bit (s.rd FLT_RETIRED_TX_ARM d) i || bit (s.rd FLT_RETIRED_RX_ARM d) i

/-- The NAME of a die's code table. -/
def tableName (s : State) (d k : Nat) : Nat := ((s.table d k).map CodeTable.name).getD 0

/-- The state of a subcarrier's plan under fields read by `f`. -/
def scPlanState (s : State) (f : Fld → Nat → Nat → Nat) (d i : Nat) : Nat :=
  if s.memberState d = 3 || s.armRetired d i then 2
  else if bit (f TXD_CTRL_SC_EN d 0) i then 0
  else if bit (s.team (s.teamBase d)).farAbsent (8 * s.teamPos d + i) then 2
  else 1

/-- The plan of a subcarrier under fields read by `f`. -/
def scPlan (s : State) (f : Fld → Nat → Nat → Nat) (d i : Nat) : PlanSc :=
  let cls := f TXD_SC_CFG_CLASS d i
  let h := f TXD_SC_CFG_H d i
  { state := s.scPlanState f d i, cls := cls, name := s.tableName d (f FEC_SC_CFG_CODE d i), h := h
    const := (resolveConst (cls != 0) (f TXD_SC_CFG_CONST d i) h).getD 0, roll := f TXD_SC_CFG_ROLLOFF d i
    boost := f TXD_CTRL_PILOT_BOOST d 0 }

/-- The global slots of a team with the flow that sends in each, as slot, die and flow. -/
def slotOwners (s : State) (f : Fld → Nat → Nat → Nat) (t : Nat) : List (Nat × Nat × Nat) :=
  (s.teamDies t).flatMap fun e =>
    if s.memberState e = 3 then []
    else (List.range 192).filterMap fun k =>
      if f FLW_TX_SLOT_VALID e k != 0 then
        some (192 * (e - t) + k, f FLW_TX_SLOT_DIE e k, f FLW_TX_SLOT_FLOW e k)
      else none

/-- The plan of flow `k` of home die `d` (R271). -/
def flowPlan (s : State) (f : Fld → Nat → Nat → Nat) (own : List (Nat × Nat × Nat)) (d k : Nat) : PlanFlow :=
  let x := s.flow d k
  let key := match x.txNext with
    | some y => some y
    | none => x.txCur
  { id := f FLW_ID_LINE_ID d k, on := f FLW_CFG_TX_EN d k != 0, cls := f FLW_CFG_CLASS d k, enc := f FLW_CFG_ENC d k != 0
    check := 128 * f FLW_CHK_APPEND d k + f FLW_CHK_POLY d k, span := f FLW_CHK_SPAN d k
    slots := (own.filter fun o => o.2.1 == d && o.2.2 == k).map Prod.fst
    key := if f FLW_CFG_ENC d k != 0 then key.map fun y => (y.id, y.kcv) else none }

/-- The transmit direction of a team (R237, R271). -/
def ownPlan (s : State) (f : Fld → Nat → Nat → Nat) (t : Nat) : DirPlan :=
  let own := s.slotOwners f t
  { scs := (List.range (8 * s.teamSize t)).map fun g => s.scPlan f (t + g / 8) (g % 8)
    flows := ((s.teamDies t).flatMap fun d => ((List.range 512).filter fun k =>
        f FLW_CFG_TX_EN d k != 0 || own.any fun o => o.2.1 == d && o.2.2 == k).map fun k => s.flowPlan f own d k).foldl
      (fun a p => putFlow a p.id fun _ => p) [] }

/-- The active and the pending transmit direction. -/
def activePlan (s : State) (t : Nat) : DirPlan := s.ownPlan (fun f d k => s.rd f d k) t
def pendingPlan (s : State) (t : Nat) : DirPlan := s.ownPlan (fun f d k => s.rdPend f d k) t

/-! ### Plans held by epoch -/

/-- Epochs: agreed, of the transmit direction, and as the far end announced last (R242). -/
def agreed (s : State) (t : Nat) : Nat := s.rd FRM_PLAN_EPOCH_AGREED t
def txEpoch (s : State) (t : Nat) : Nat := s.rd FRM_PLAN_ACTIVE_EPOCH t
def farEpoch (s : State) (t : Nat) : Nat := s.rd FRM_PLAN_FAR_EPOCH t

/-- The plan of an epoch among those held. -/
def heldPlan (ps : List (Nat × DirPlan)) (e : Nat) : Option DirPlan := (ps.find? fun x => x.1 == e).map Prod.snd

/-- The far end's direction of an epoch: as it came, or in base camp this end's own mirrored (R416). -/
def farPlan (s : State) (t e : Nat) : Option DirPlan :=
  match heldPlan (s.team t).far e with
  | some p => some p
  | none => if e = 0 then heldPlan (s.team t).own 0 else none

/-- This end's direction of an epoch: as held, or the active one. -/
def ownOf (s : State) (t e : Nat) : DirPlan := (heldPlan (s.team t).own e).getD (s.activePlan t)

/-- Hold a plan for an epoch, latest first; four epochs are kept. -/
def keepPlan (ps : List (Nat × DirPlan)) (e : Nat) (p : DirPlan) : List (Nat × DirPlan) :=
  ((e, p) :: ps.filter fun x => x.1 != e).take 4

/-- This end has the lower node identity of the two. -/
def lowerNode (s : State) (t far : Nat) : Bool := decide (s.nodeId t < far)

/-- The node identity of a team's far end: that of its last PROPOSE, else that discovery chose. -/
def farId (s : State) (t : Nat) : Nat :=
  match (s.team t).head with
  | some h => if h.type = 1 then h.node else ((s.team t).peer.map Prod.fst).getD 0
  | none => ((s.team t).peer.map Prod.fst).getD 0

/-- The plan of a direction with the subcarriers of a mask absent or in base-camp format, and without the slots on them
(R34, R244). Log entry 102 DEDUCED. -/
def markAbsent (p : DirPlan) (mask : Nat) : DirPlan :=
  { scs := p.scs.zipIdx.map fun x => if bit mask x.2 then { x.1 with state := 2 } else x.1
    flows := (p.flows.map fun f => { f with slots := f.slots.filter fun y => !bit mask (y / 24) }).filter fun f =>
      f.on || !f.slots.isEmpty }

/-! ### Taking the far end's direction (R242, R272) -/

/-- The local context with a line identifier (R272). -/
def localFlow (s : State) (t id : Nat) : Option (Nat × Nat) :=
  (((s.teamDies t).flatMap fun d => (List.range 512).map fun k => (d, k)).find? fun x =>
    s.rd FLW_ID_LINE_ID x.1 x.2 == id && (s.flag FLW_CFG_TX_EN x.1 x.2 || s.flag FLW_CFG_RX_EN x.1 x.2))

/-- A subcarrier is absent at either end (R34, R431): its die's slice is, or the far end has marked it. -/
def absentSc (s : State) (d i : Nat) : Bool :=
  s.memberState d == 3 || bit (s.team (s.teamBase d)).farAbsent (8 * s.teamPos d + i)

/-- Fill the receive registers of a subcarrier from the far end's plan (R169, R34). -/
def takeRxSc (s : State) (d i : Nat) (p : PlanSc) : State :=
  let v := p.state == 0 && !s.absentSc d i
  let s := if s.rd TXD_SC_RXPLAN_H d i = p.h ∧ s.rd TXD_SC_RXPLAN_CONST d i = p.const then s else s.markMixed d i
  let s := (s.wrb TXD_SC_RXPLAN_VALID d v i).wr TXD_SC_RXPLAN_CLASS d p.cls i
  let s := ((s.wr TXD_SC_RXPLAN_H d p.h i).wr TXD_SC_RXPLAN_CONST d p.const i).wr TXD_SC_RXPLAN_ROLLOFF d p.roll i
  s.modRxDie d fun x => { x with boost := p.boost }

/-- Fill the receive slot table and the check declarations from the far end's flows (R272, R268). -/
def takeRxFlows (s : State) (t : Nat) (p : DirPlan) : State :=
  let s := s.forEach (s.teamDies t) fun u d => u.forEach (List.range 192) fun v k => v.wr FLW_RX_SLOT_VALID d 0 k
  s.forEach p.flows fun u f =>
    match u.localFlow t f.id with
    | none => u
    | some (hd, hk) =>
      let u := u.modFlow hd hk fun x =>
        { x with farAppend := bit f.check 7, farPoly := f.check % 4, farSpan := if f.span = 0 then 64 else f.span }
      u.forEach (f.slots.filter fun x => !u.absentSc (t + x / 192) (x % 192 / 24)) fun v x =>
        let d := t + x / 192
        let k := x % 192
        ((v.wr FLW_RX_SLOT_VALID d 1 k).wr FLW_RX_SLOT_DIE d hd k).wr FLW_RX_SLOT_FLOW d hk k

/-- The multiframe count of the far end with which the multiframe begins that a receive arm enters now. -/
def farMultiframe (s : State) (d i : Nat) : Nat :=
  let a := s.frmArm d i
  if a.sf = 255 then (a.mfc + 1) % 2 ^ 32 else a.mfc

/-- The streams of a team count their positions on before its receive loading changes (R213). -/
def advanceStreams (s : State) (t : Nat) : State :=
  s.forEach (s.teamDies t) fun u d => u.forEach (List.range 8) fun v i =>
    if v.align d i = 3 then v.advanceStream d (v.scStream d i) (v.farMultiframe d i) else v

/-- The receive direction of a team switches to the far end's plan of an epoch (R242). -/
def rxSwitch (s : State) (t e : Nat) (p : DirPlan) : State :=
  let s := s.advanceStreams t
  let s := s.forEach p.scs.zipIdx fun u x => u.takeRxSc (t + x.2 / 8) (x.2 % 8) x.1
  let s := (s.takeRxFlows t p).modTeam t fun x => { x with rxEpoch := e }
  (s.forEach (s.teamDies t) fun u d => u.refreshPool d).showAllSlots

/-! ### The lead of a proposal (R241) -/

/-- One-way delay in ns: the measured one, or 500 µs. -/
def linkDelay (s : State) (t : Nat) : Nat :=
  if s.flag FRM_TT_STATUS_VALID t then s.rd FRM_TT_DELAY_DELAY t / 256 else 500000

/-- The least L that is at least LEAD and leaves the handshake its time. -/
def autoLead (s : State) (t lead entries : Nat) : Nat :=
  if s.flag FRM_PLAN_CTRL_AUTO_LEAD t then
    let need := 800000 + 2 * s.linkDelay t + (2 + entries + 64) * 4096
    max lead ((need + 1048575) / 1048576 + 1)
  else lead

/-! ### Messages (R236) -/

/-- PROPOSE or REVERT bodies, ACCEPT, and those with an epoch alone. Log entry 76 DEDUCED. -/
def bodyPropose (e base mf digest entries node : Nat) : List Byte :=
  bytesBE 4 e ++ bytesBE 4 base ++ bytesBE 4 mf ++ bytesBE 4 digest ++ bytesBE 2 entries ++ bytesBE 8 node
def bodyRevert (e base mf digest disputed : Nat) : List Byte :=
  bytesBE 4 e ++ bytesBE 4 base ++ bytesBE 4 mf ++ bytesBE 4 digest ++ bytesBE 8 disputed
def bodyAccept (e mf digest entries disputed : Nat) : List Byte :=
  bytesBE 4 e ++ bytesBE 4 mf ++ bytesBE 4 digest ++ bytesBE 2 entries ++ bytesBE 8 disputed

/-- PLAN_DATA messages of a list of entries. -/
def planData (e : Nat) (es : List (List Byte)) : List (Nat × List Byte) :=
  es.zipIdx.map fun x => (0x02, bytesBE 4 e ++ bytesBE 2 x.2 ++ x.1)

/-- Answer REJECT with a code (R239). -/
def sendReject (s : State) (t e code : Nat) : State :=
  let s := s.sendMsgs t [(0x04, bytesBE 4 e ++ bytesBE 1 code)]
  let s := (s.wrTeam FRM_PLAN_STATUS_REJECT_REASON t code).wrTeam FRM_PLAN_STATUS_REJECT_RX t 0
  s.raiseTeam FRM_EVENT_PLAN_REJECT t

/-- Send PROPOSE with its entries, the plan they lead to and the far direction that goes with it (R238, step 2). -/
def sendPropose (s : State) (t e mf : Nat) (es : List (List Byte)) (new far : DirPlan) : State :=
  let dig := planDigest (s.lowerNode t (s.farId t)) new far
  s.sendMsgs t ((0x01, bodyPropose e (s.agreed t) mf dig es.length (s.nodeId t)) :: planData e es)

/-- Send ACCEPT with its entries (R238, step 4): the own direction and the far end's as they will be. -/
def sendAccept (s : State) (t e mf : Nat) (new far : DirPlan) (disputed : Nat) : State :=
  let es := planDelta (s.ownOf t (s.agreed t)) new
  let dig := planDigest (s.lowerNode t (s.farId t)) new far
  s.sendMsgs t ((0x03, bodyAccept e mf dig es.length disputed) :: planData e es)

end State

end Sys2Proof.Machine
end

