-- ==== Sys2Proof/Machine/Validate.lean ====
section
/-! DEFINITION. Validation of a pending set (spec/03, R92, R456, R457), by each die and by the crown. -/
namespace Sys2Proof.Machine
open Sys2Proof

/-- Reason codes of R92. -/
def reasonRange : Nat := 1
def reasonGeom : Nat := 2
def reasonBridge : Nat := 3
def reasonResource : Nat := 4
def reasonPower : Nat := 5
def reasonDeadline : Nat := 6
def reasonMemberLost : Nat := 7
def reasonCrownChange : Nat := 8
def reasonHostAbort : Nat := 9
def reasonPlanRefused : Nat := 10
def reasonInDoubt : Nat := 11
def reasonNoShadow : Nat := 12
def reasonMultiPlan : Nat := 13

namespace State

/-! ### Pending loading -/

/-- A subcarrier is active in the pending set: both arms enabled (R31). -/
def pendActive (s : State) (d i : Nat) : Bool :=
  bit (s.rdPend TXD_CTRL_SC_EN d) i && bit (s.rdPend RXD_CTRL_SC_EN d) i

/-- Class, format and code table of a subcarrier in the pending set. -/
def pendExpress (s : State) (d i : Nat) : Bool := s.rdPend TXD_SC_CFG_CLASS d i != 0
def pendFormat (s : State) (d i : Nat) : Nat × Nat × Nat :=
  (s.rdPend TXD_SC_CFG_H d i, s.rdPend TXD_SC_CFG_CONST d i, s.rdPend TXD_SC_CFG_ROLLOFF d i)
def pendTable (s : State) (d i : Nat) : Option CodeTable := s.table d (s.rdPend FEC_SC_CFG_CODE d i)

/-- The subcarriers of a die that are express in the pending set. -/
def pendExpressScs (s : State) (d : Nat) : List Nat := (List.range 8).filter (s.pendExpress d)

/-- Slots a subcarrier offers in the pending set (R30): none while it is not active. -/
def pendSlots (s : State) (d i : Nat) : Nat :=
  match s.pendTable d i with
  | some t => if s.pendActive d i then slotCount (s.rdPend TXD_SC_CFG_H d i) t.netCode else 0
  | none => 0

/-- The team map of the pending set. -/
def pendMap (s : State) : Nat := s.rdPend PKG_TEAM_MAP_SIZE pkg
def pendBase (s : State) (d : Nat) : Nat := d / sizeOfCode (mapCode s.pendMap d) * sizeOfCode (mapCode s.pendMap d)
def pendTeam (s : State) (t : Nat) : List Nat := (List.range (sizeOfCode (mapCode s.pendMap t))).map fun i => s.pendBase t + i

/-- The team of a die changes: its map code or a member's (R24). -/
def mapMoves (s : State) (d : Nat) : Bool :=
  mapCode s.pendMap d != mapCode (s.rd PKG_TEAM_MAP_SIZE pkg) d || s.rdPend PKG_GEOM_SLICE_SPACING pkg d != s.rd PKG_GEOM_SLICE_SPACING pkg d ||
  s.rdPend PKG_GEOM_SC_SPACING pkg d != s.rd PKG_GEOM_SC_SPACING pkg d

/-! ### A die's own checks -/

/-- R171 and R197 on the pending set of a die. -/
def rangeOk (s : State) (d : Nat) : Bool :=
  let xs := s.pendExpressScs d
  (List.range 8).all (fun i =>
    let f := s.pendFormat d i
    formatOk (s.pendExpress d i) f.1 f.2.1 f.2.2 &&
    ((s.pendTable d i).map CodeTable.express == some (s.pendExpress d i))) &&
  xs.all fun i => s.pendFormat d i == s.pendFormat d (xs.headD 0) &&
    s.rdPend FEC_SC_CFG_CODE d i == s.rdPend FEC_SC_CFG_CODE d (xs.headD 0)

/-- R31 on a die in service outside base camp: two active subcarriers, and the boundary ones that face an active or joining
member. A retired boundary subcarrier is exempt. Log entry 80 DEDUCED. -/
def serviceOk (s : State) (d : Nat) : Bool :=
  if !(s.isActive d) || (s.team (s.teamBase d)).baseCamp || s.mapMoves d then true
  else
    let near (e : Nat) : Bool := s.sameTeam d e && (s.memberState e == 2 || s.memberState e == 1)
    decide (2 ≤ ((List.range 8).filter (s.pendActive d)).length) &&
    (!near (d + 1) || s.pendActive d 7 || s.armRetired d 7) &&
    (s.teamPos d == 0 || !near (d - 1) || s.pendActive d 0 || s.armRetired d 0)

/-- Entry `k` of a die's pending transmit slot table, against a flow's class read by `cls` (R249): a slot that exists and
has the flow's class; a bulk flow stays in its team, an express flow on its home die. Slots on subcarriers that the set
puts to sleep are R97's matter. Log entry 80 DEDUCED. -/
def slotOk (s : State) (e k : Nat) : Bool :=
  let i := k / 24
  let h := s.rdPend FLW_TX_SLOT_DIE e k
  let express := s.rdPend FLW_CFG_CLASS h (s.rdPend FLW_TX_SLOT_FLOW e k) != 0
  decide (h < s.dieCount) && (!(s.pendActive e i) || decide (k % 24 < s.pendSlots e i)) &&
  s.pendExpress e i == express && (if express then h == e else s.pendBase h == s.pendBase e)

/-- The valid entries of a die's pending transmit slot table that name flows of its own, or of other home dies (R457). -/
def pendEntries (s : State) (e : Nat) (own : Bool) : List Nat :=
  (List.range 192).filter fun k => s.rdPend FLW_TX_SLOT_VALID e k != 0 && (s.rdPend FLW_TX_SLOT_DIE e k == e) == own

/-- An encrypting flow that the set sends has a key: NEXT, or CURRENT when unchanged (R272). -/
def keysOk (s : State) (d : Nat) : Bool :=
  (List.range 512).all fun f =>
    !(s.rdPend FLW_CFG_TX_EN d f != 0 && s.rdPend FLW_CFG_ENC d f != 0) || (s.flow d f).txNext.isSome || (s.flow d f).txCur.isSome

/-- The reason RANGE holds for a die. Log entry 80 DEDUCED. -/
def refusesRange (s : State) (d : Nat) : Bool :=
  !(s.rangeOk d && s.serviceOk d && (s.pendEntries d true).all (s.slotOk d) && s.keysOk d)

/-- Some flow holds a transmit or receive slot on a subcarrier now. -/
def carries (s : State) (d i : Nat) : Bool :=
  (List.range 24).any fun k => s.flag FLW_TX_SLOT_VALID d (24 * i + k) || s.flag FLW_RX_SLOT_VALID d (24 * i + k)

/-- A subcarrier is rebuilt by the set: class, code or roll-off change (R96, R97, R175). -/
def rebuilt (s : State) (d i : Nat) : Bool :=
  s.rdPend TXD_SC_CFG_CLASS d i != s.rd TXD_SC_CFG_CLASS d i || s.rdPend FEC_SC_CFG_CODE d i != s.rd FEC_SC_CFG_CODE d i ||
  s.rdPend TXD_SC_CFG_ROLLOFF d i != s.rd TXD_SC_CFG_ROLLOFF d i

/-- A subcarrier is put to sleep, or woken, by the set. -/
def sleeps (s : State) (d i : Nat) : Bool := s.txOn d i && !bit (s.rdPend TXD_CTRL_SC_EN d) i
def wakes (s : State) (d i : Nat) : Bool :=
  (!s.txOn d i && bit (s.rdPend TXD_CTRL_SC_EN d) i) || (!s.rxOn d i && bit (s.rdPend RXD_CTRL_SC_EN d) i)

/-- Receive entropy of a subcarrier at the new epoch (R456): the far end's entry where held, else the own pending loading
mirrored where it changes, else the active one. -/
def newRxH (s : State) (far : Option DirPlan) (d i : Nat) : Nat :=
  match far with
  | some p => ((p.scs[8 * s.teamPos d + i]?).map PlanSc.h).getD 32
  | none =>
    if s.flag TXD_SC_RXPLAN_VALID d i && s.rdPend TXD_SC_CFG_H d i == s.rd TXD_SC_CFG_H d i && !s.rebuilt d i then
      s.rd TXD_SC_RXPLAN_H d i
    else s.rdPend TXD_SC_CFG_H d i

/-- The decoders of a die carry the pending set (R207). -/
def decodersOk (s : State) (far : Option DirPlan) (d : Nat) : Bool :=
  s.loadFits d (fun i => bit (s.rdPend RXD_CTRL_SC_EN d) i) (s.pendExpress d) (fun i => s.rdPend FEC_SC_CFG_CODE d i)
    (s.newRxH far d)

/-- The rows of R70 that a subcarrier needs in service: the front end, the receive rows, the transmit rows, and at a seam the
combiner. Log entry 165 DEDUCED. -/
def rowsFor (s : State) (d i : Nat) : List Nat :=
  [0, 1, 2, 3, 4, 6, 7, 8, 9, 10] ++
    (if sizeOfCode (mapCode s.pendMap d) = 1 ∨ (i ≠ 0 ∧ i ≠ 7) then [] else [5])

/-- A block that a woken or rebuilt subcarrier needs is retired: an arm, or a row of R70. -/
def blockMissing (s : State) (d : Nat) : Bool :=
  (List.range 8).any fun i => (s.wakes d i || (s.pendActive d i && s.rebuilt d i)) &&
    (s.armRetired d i || (s.rowsFor d i).any (s.rowRetired d))

/-- A woken subcarrier needs a PLL that has not locked (R337). -/
def pllMissing (s : State) (d : Nat) : Bool :=
  (List.range 8).any (s.wakes d) && !(s.pllLocked d 0 && s.pllLocked d 1)

/-- A flow appends checks and no unit is bound in APPEND mode (R268). -/
def checkMissing (s : State) (d : Nat) : Bool :=
  (List.range 512).any fun f =>
    s.rdPend FLW_CFG_TX_EN d f != 0 && s.rdPend FLW_CHK_APPEND d f != 0 && (s.boundUnit d f false 0).isNone

/-- The reason RESOURCE holds for a die, with the far end's entries where held (R97, R175, R207, R268, R337, R456). -/
def refusesResource (s : State) (d : Nat) (far : Option DirPlan := none) : Bool :=
  (List.range 8).any (fun i => s.carries d i && (s.rebuilt d i || s.sleeps d i)) ||
  !(s.decodersOk far d) || s.blockMissing d || s.pllMissing d || s.checkMissing d

/-- The reason with the lowest code that a die finds, none when its pending set is valid (R457). -/
def dieReason (s : State) (d : Nat) : Option Nat :=
  if s.refusesRange d then some reasonRange else if s.refusesResource d then some reasonResource else none

/-! ### The crown's checks (R457) -/

/-- Two enabled flows of one team carry the same line identifier (R248). -/
def duplicateLine (s : State) : Bool :=
  (s.dieList.filter fun d => s.pendBase d == d).any fun t =>
    let ids := (s.pendTeam t).flatMap fun d => ((List.range 512).filter fun f =>
      s.rdPend FLW_CFG_TX_EN d f != 0 || s.flag FLW_CFG_RX_EN d f).map fun f => s.rdPend FLW_ID_LINE_ID d f
    ids.dedup.length != ids.length

/-- Transmit traffic of the pending tables, as home die and slot die. -/
def txTraffic (s : State) : List (Nat × Nat) :=
  s.dieList.flatMap fun e => (List.range 192).filterMap fun k =>
    if s.rdPend FLW_TX_SLOT_VALID e k != 0 then some (s.rdPend FLW_TX_SLOT_DIE e k, e) else none

/-- The flow that an entry of the transmit slot table names, as read by `f`: home die and context. -/
def slotFlow (f : Fld → Nat → Nat → Nat) (e k : Nat) : Option (Nat × Nat) :=
  if f FLW_TX_SLOT_VALID e k != 0 then some (f FLW_TX_SLOT_DIE e k, f FLW_TX_SLOT_FLOW e k) else none

/-- The flows whose slot maps the pending set changes. -/
def movedFlows (s : State) : List (Nat × Nat) :=
  (s.dieList.flatMap fun e => (List.range 192).flatMap fun k =>
    let a := slotFlow (fun f d k => s.rd f d k) e k
    let b := slotFlow (fun f d k => s.rdPend f d k) e k
    if a == b then [] else a.toList ++ b.toList).dedup

/-- Receive traffic at the new epoch, as slot die and home die (R456): the far end's entries for a team where they are held;
else the pending slot map, mirrored, of a flow whose map changes, and the active receive tables. -/
def rxTraffic (s : State) (far : Option (Nat × DirPlan)) : List (Nat × Nat) :=
  let moved := s.movedFlows
  s.dieList.flatMap fun e =>
    let t := s.teamBase e
    let own : List (Nat × Nat) := (List.range 192).flatMap fun k =>
      let held := if s.flag FLW_RX_SLOT_VALID e k then [(s.rd FLW_RX_SLOT_DIE e k, s.rd FLW_RX_SLOT_FLOW e k)] else []
      let new := (slotFlow (fun f d k => s.rdPend f d k) e k).toList
      ((held.filter fun x => !moved.contains x) ++ new.filter fun x => moved.contains x).map fun x => (e, x.1)
    match far with
    | some (ft, p) =>
      if ft = t then p.flows.flatMap fun f => match s.localFlow t f.id with
        | some h => (f.slots.filter fun x => x / 192 == s.teamPos e).map fun _ => (e, h.1)
        | none => []
      else own
    | none => own

/-- The seam between a die and the next is in service in the pending set: one team, and neither die absent or stopped (R25,
R33). A team that the set forms has its seams. Log entry 166 DEDUCED. -/
def seamServes (s : State) (b : Nat) : Bool :=
  let up (d : Nat) : Bool := s.mapMoves d || (!s.bridgeGone d && s.memberState d != 0)
  s.pendBase b == s.pendBase (b + 1) && up b && up (b + 1)

/-- Every bridge carries its seam load and the traffic that crosses it, in both directions (R26). -/
def bridgesOk (s : State) (traffic : List (Nat × Nat)) : Bool :=
  (List.range (s.dieCount - 1)).all fun b =>
    let sp := s.rdPend PKG_GEOM_SLICE_SPACING pkg b
    bridgeFits sp (traffic.filter fun x => decide (x.1 ≤ b ∧ b < x.2)).length (s.seamServes b) &&
    bridgeFits sp (traffic.filter fun x => decide (x.2 ≤ b ∧ b < x.1)).length (s.seamServes b)

/-- The loading or the code slot of a subcarrier of a die changes as it is written (R169, R197), also where the plan the far
end is told stays the same, as from an automatic to the same explicit constellation. -/
def loadingMoves (s : State) (d : Nat) : Bool :=
  (List.range 8).any fun i => [TXD_SC_CFG_CLASS, TXD_SC_CFG_H, TXD_SC_CFG_CONST, TXD_SC_CFG_ROLLOFF, FEC_SC_CFG_CODE].any
    fun f => s.rdPend f d i != s.rd f d i

/-- The teams whose plan the pending set changes (R93): those that keep their map and geometry. -/
def planTeams (s : State) : List Nat :=
  s.teamBases.filter fun t => !((s.teamDies t).any s.mapMoves) &&
    (!(planDelta (s.activePlan t) (s.pendingPlan t)).isEmpty || (s.teamDies t).any s.loadingMoves)

/-- The reason with the lowest code that the crown finds, and the event that goes with it. -/
def crownReason (s : State) : Option Nat × State :=
  let teams := s.planTeams
  if s.duplicateLine || s.dieList.any fun e => !(s.pendEntries e false).all (s.slotOk e) then (some reasonRange, s)
  else if !(s.geomOk s.pendMap fun f n => s.rdPend f pkg n) then
    (some reasonGeom, s.raise PKG_TEAM_EVENT_GEOM_REJECT pkg)
  else if !(s.bridgesOk (s.txTraffic ++ s.rxTraffic none)) then
    (some reasonBridge, s.raise PKG_TEAM_EVENT_BRIDGE_REJECT pkg)
  else if s.powerRefuses then (some reasonPower, s)
  else if 1 < teams.length then (some reasonMultiPlan, s)
  else (none, s)

/-- The receive-side checks with the far end's entries (R456): RESOURCE and BRIDGE. -/
def receiveReason (s : State) (t : Nat) (far : DirPlan) : Option Nat × State :=
  if (s.teamDies t).any fun d => s.memberState d != 3 && !(s.decodersOk (some far) d) then (some reasonResource, s)
  else if !(s.bridgesOk (s.txTraffic ++ s.rxTraffic (some (t, far)))) then
    (some reasonBridge, s.raise PKG_TEAM_EVENT_BRIDGE_REJECT pkg)
  else (none, s)

end State

end Sys2Proof.Machine
end

