-- ==== Sys2Proof/Machine/Camp.lean ====
section
/-! DEFINITION. Base camp of a team and the start of its discovery (spec/16, R415 to R418, R423, R428). -/
namespace Sys2Proof.Machine
open Sys2Proof

namespace State

/-! ### The cairn die and its peer table (R418, R423) -/

/-- What the cairn receiver of a die keeps. -/
def cairnSt (s : State) (d : Nat) : CairnSt := s.cairn.get {} (unitKey d 0)
def modCairn (s : State) (d : Nat) (f : CairnSt → CairnSt) : State :=
  { s with cairn := s.cairn.set {} (unitKey d 0) (f (s.cairnSt d)) }

/-- Superframes of the time count. -/
def sfCount (s : State) : Nat := 256 * s.time.mf + s.time.sf

/-- The far end's superframe count as the chosen peer's last good header gives it (R420). -/
def farCount (s : State) (t d : Nat) : Option Int :=
  match (s.team t).peer with
  | some c => ((s.cairnSt d).peers.find? fun p => p.node == c.1 && p.team == c.2).map fun p => (s.sfCount : Int) + p.grid
  | none => none

/-- A die takes part in its team: it reads joining or active. -/
def present (s : State) (d : Nat) : Bool := s.memberState d == 1 || s.memberState d == 2

/-- The cairn die of a team: its lowest die that takes part (R418). -/
def cairnDie (s : State) (t : Nat) : Option Nat := (s.teamDies t).find? s.present

/-- The TEAM byte of a team (R419). -/
def teamByte (s : State) (t : Nat) : Nat := 64 * mapCode (s.rd PKG_TEAM_MAP_SIZE pkg) t + s.teamBase t

/-- A peer entry is compatible with a team (R423). -/
def compatible (s : State) (t : Nat) (p : Peer) : Bool :=
  p.team / 64 == mapCode (s.rd PKG_TEAM_MAP_SIZE pkg) t && p.slice == s.rd PKG_GEOM_SLICE_SPACING pkg t &&
  p.sc == s.rd PKG_GEOM_SC_SPACING pkg t && p.node != s.nodeId t

/-- Show the peer table of a cairn die, the chosen entry and the number of entries. -/
def showPeers (s : State) (d : Nat) : State :=
  let ps := (s.cairnSt d).peers
  let t := s.teamBase d
  let s := s.forEach (List.range 8) fun u k =>
    match ps[k]? with
    | some p =>
      let u := ((u.wr BUP_PEER_LO_NODE_ID d p.node k).wr BUP_PEER_HI_NODE_ID d (p.node / 2 ^ 32) k).wr BUP_PEER_INFO_VALID d 1 k
      let u := (u.wrb BUP_PEER_INFO_COMPATIBLE d (u.compatible t p) k).wr BUP_PEER_INFO_TEAM d p.team k
      (u.wr BUP_PEER_INFO_HEARD d (min 255 p.heard) k).wr BUP_PEER_INFO_POWER d p.power k
    | none =>
      let u := ((u.wr BUP_PEER_LO_NODE_ID d 0 k).wr BUP_PEER_HI_NODE_ID d 0 k).wr BUP_PEER_INFO_VALID d 0 k
      let u := (u.wr BUP_PEER_INFO_COMPATIBLE d 0 k).wr BUP_PEER_INFO_TEAM d 0 k
      (u.wr BUP_PEER_INFO_HEARD d 0 k).wr BUP_PEER_INFO_POWER d 0 k
  let s := s.wr BUP_CAIRN_STATUS_PEERS d ps.length
  match (s.team t).peer with
  | some c =>
    match ps.findIdx? fun p => p.node == c.1 && p.team == c.2 with
    | some k => (s.wr BUP_CAIRN_STATUS_CHOSEN_VALID d 1).wr BUP_CAIRN_STATUS_CHOSEN d k
    | none => s.wr BUP_CAIRN_STATUS_CHOSEN_VALID d 1
  | none => (s.wr BUP_CAIRN_STATUS_CHOSEN_VALID d 0).wr BUP_CAIRN_STATUS_CHOSEN d 0

/-- Discovery of a team starts, with an empty peer table and no peer; the cairn subcarrier's arms run in cairn mode (R418). -/
def startDiscovery (s : State) (t : Nat) : State :=
  let s := s.modTeam t fun x => { x with peer := none }
  match s.cairnDie t with
  | none => s
  | some d =>
    let s := s.forEach ((s.teamDies t).filter fun e => e != d) fun u e => u.wr BUP_CAIRN_STATUS_STATE e 0
    let s := (s.modCairn d fun _ => {}).showPeers d
    let s := (s.wr BUP_CAIRN_STATUS_STATE d 1).wr BUP_CAIRN_STATUS_MUTUAL d 0
    let s := s.forEach ((s.teamDies t).filter s.present) fun u e => u.wr BUP_STATUS_STATE e 4
    (s.wake d (domTxArm 4)).wake d (domRxArm 4)

/-- Discovery of a team is over: the cairn subcarrier leaves cairn mode (R426). -/
def endDiscovery (s : State) (t : Nat) : State :=
  s.forEach (s.teamDies t) fun u d =>
    if u.rd BUP_CAIRN_STATUS_STATE d = 0 then u
    else (u.wr BUP_CAIRN_STATUS_STATE d 4).modCairn d fun x => { x with pkt := none, rest := [] }

/-! ### Base camp (R415, R428, R24) -/

/-- A die can serve in a team: it is released and neither quarantined, parked, retired nor held.
Log entries 74 DEDUCED, 117 DEDUCED. -/
def usable (s : State) (d : Nat) : Bool :=
  (s.die d).released && !s.quarantined d && !s.parked d && !s.retiredDie d && !(s.die d).held

/-- A team takes the base-camp plan at epoch 0 in both directions, without a handshake, and starts discovery.
Log entries 74 DEDUCED, 115 DEDUCED. -/
def startCamp (s : State) (t : Nat) : State :=
  let n := s.teamSize t
  let s := s.forEach (s.teamDies t) fun u d =>
    let u := u.setMember d (if u.usable d then 1 else if u.memberState d = 0 then 0 else 3)
    let u := if u.memberState d = 1 then u.campDie d
      else u.forEach (List.range 8) fun v i => (v.txStop d i false).rxStop d i false
    u.modDie d fun x => { x with absenceDue := false, departed := false }
  let s := s.modTeam t fun x =>
    { seq := x.seq, sending := [], goal := x.goal, baseCamp := true, own := [(0, s.activePlan t)]
      rejoin := if n = 1 then x.rejoin else [] }
  let s := ((s.wrTeam FRM_PLAN_EPOCH_AGREED t 0).wrTeam FRM_PLAN_ACTIVE_EPOCH t 0).wrTeam FRM_PLAN_FAR_EPOCH t 0
  let s := s.wrTeam FRM_PLAN_STATUS_STATE t 0
  let s := s.forEach ((s.teamDies t).filter s.present) fun u d => u.wr BUP_STATUS_STATE d 3
  (s.startDiscovery t).showEstimate

/-- A die has finished its part of a cold start and waits for its base-camp arms (R411, step 10).
Log entry 115 DEDUCED. -/
def campReady (s : State) (d : Nat) : Bool :=
  s.usable d && s.memberState d == 0 && s.convertersOn d && s.rd BUP_STATUS_STATE d == 2 && s.rd CAL_STATUS_FG_STATE d != 1

/-- A die is still expected in the cold start of its team: it has passed self-test and nothing keeps it out. -/
def campAwaited (s : State) (d : Nat) : Bool :=
  (s.die d).selfTest == some true && s.memberState d == 0 && !s.quarantined d && !s.parked d && !s.retiredDie d && !(s.die d).held

/-- Base camp starts at the next multiframe boundary for the teams whose dies are ready (R411, step 10).
Log entry 115 DEDUCED. -/
def campWhenReady (s : State) : State :=
  s.forEach s.teamBases fun u t =>
    let ds := (u.teamDies t).filter u.campAwaited
    if !ds.isEmpty && ds.all u.campReady then u.startCamp t else u

/-- Dies have become active: both dies of every seam that they border learn it, the skew loops acquire, and the dies of their
segments take the lead's frequency at once (R35, R123, R135, R158). -/
def formSeams (s : State) (ds : List Nat) : State :=
  let s := s.forEach ds fun u d =>
    let u := (u.seamTry d false).seamTry d true
    let u := match u.seamMate d true with
      | some e => u.seamTry e false
      | none => u
    match u.seamMate d false with
      | some e => u.seamTry e true
      | none => u
  let s := s.forEach ds fun u d => u.startAcquire d
  s.forEach (s.dieList.filter fun e => s.isActive e && ds.any fun d => s.sameTeam d e) fun u e => u.takeFreq e

/-- Every present member of a team becomes active: its epoch 1 is agreed (R37). Segments and seams form (R35, R158). -/
def teamActive (s : State) (t : Nat) : State :=
  let ds := (s.teamDies t).filter fun d => s.memberState d == 1
  let s := s.forEach ds fun u d => u.setMember d 2
  s.formSeams ds

end State

end Sys2Proof.Machine
end

