-- ==== Sys2Proof/Machine/Txn.lean ====
section
/-! DEFINITION. Configuration transactions (spec/03, R88 to R97): commands, the steps of R90, the switch and its effects, the
revert of R91, the shadow. -/
namespace Sys2Proof.Machine
open Sys2Proof

namespace State

/-! ### Opening -/

/-- A die takes part in a transaction that opens now (R88). -/
def takesPart (s : State) (d : Nat) : Bool :=
  !s.quarantined d && !s.parked d && !s.retiredDie d && !(s.die d).held && !(s.die d).starting

/-- A transaction opens (R90, step 1): E + 1, M, PREPARE. The crown holds the staged fields of the package region. -/
def openTxn (s : State) (rollback : Bool) (lead : Nat) : State :=
  let ms := s.dieList.filter s.takesPart
  let m := s.time.mf + 1 + lead
  let s := { s with txn := { isOpen := true, rollback := rollback, epoch := (s.pkgEpoch + 1) % 2 ^ 32, mf := m, members := ms, m0 := s.time.mf } }
  let s := (s.wr IMG_TXN_STATUS_STATE pkg 1).wr IMG_TXN_STATUS_RESULT pkg 0
  let s := (s.wr IMG_TXN_MF_MF pkg m).clearHolds
  let s := if rollback then s.holdShadow pkg else s.hold pkg
  s.ringTxn s.crownDie 15 1 0

/-- LEAD of `IMG_TXN_CTRL` as stored: below 2 is 2. -/
def storeLead (s : State) (lead : Nat) : State := s.wr IMG_TXN_CTRL_LEAD pkg (max 2 lead)

/-- COMMIT or ROLLBACK (R88, R94): refused with BUSY while a transaction is open. -/
def txnCommand (s : State) (rollback : Bool) (lead : Nat) : State :=
  let s := s.storeLead lead
  if s.txn.isOpen then s.wr IMG_TXN_STATUS_RESULT pkg 3
  else
    let s := s.openTxn rollback (max 2 lead)
    if rollback && !s.flag IMG_SHADOW_VALID pkg then s.abortTxn reasonNoShadow else s

/-! ### Prepare, ready, refuse -/

/-- A die holds its staged set, or the shadow, and validates it (R90, step 2). It answers READY, or REFUSE with the lowest
reason. Log entry 10 DEDUCED. -/
def prepare (s : State) (d : Nat) : State :=
  if s.txn.isOpen && s.txn.members.contains d && !s.flag IMG_DIE_STATUS_PENDING d && !s.txn.goSent then
    let s := if s.txn.rollback then s.holdShadow d else s.hold d
    let s := s.wr IMG_DIE_STATUS_PENDING d 1
    match s.dieReason d with
    | none => (s.modDie d fun x => { x with prepared := true }).ringTxn d s.crownDie 2 0
    | some r => (s.wr IMG_DIE_STATUS_LAST_REASON d r).ringTxn d s.crownDie 3 r
  else s

/-- The crown records the first REFUSE (R92, R457). -/
def refuse (s : State) (d reason : Nat) : State :=
  if s.txn.isOpen && s.txn.refused.isNone then
    { s with txn := { s.txn with refused := some (d, reason) } }.wr IMG_TXN_STATUS_REFUSE_DIE pkg d
  else s

/-- Every die is READY: the crown makes its own checks, and proposes a plan-class change to the far end (R90 step 3, R93,
R238 step 2, R241). -/
def allReady (s : State) : State :=
  match s.crownReason with
  | (some r, s) => s.refuse (s.crown.token.getD 0) r
  | (none, s) =>
    let s := { s with txn := { s.txn with mapChange := s.dieList.any s.mapMoves } }
    match (match s.txn.planTeam with | some t => [t] | none => s.planTeams) with
    | t :: _ =>
      let new := s.pendingPlan t
      let e := max (s.agreed t) (s.txEpoch t) + 1
      let es := planDelta (s.ownOf t (s.agreed t)) new
      let lead := s.txn.mf - s.txn.m0 - 1
      let l := if s.txn.ramp = 1 then s.rd BUP_CTRL_CAIRN_LEAD t else s.autoLead t lead es.length
      let m := s.txn.m0 + 1 + l
      let s := { s with txn := { s.txn with planTeam := some t, planEpoch := e, mf := m } }
      let s := ((s.wr IMG_TXN_MF_MF pkg m).wr IMG_TXN_STATUS_STATE pkg 2).wrTeam FRM_PLAN_STATUS_STATE t 1
      (s.modTeam t fun x => { x with head := none, entries := [], judged := false, agreedM := none, confirm := false }).sendPropose
        t e m es new ((s.farPlan t (s.agreed t)).getD {})
    | [] => s

/-- The crown receives READY (R90): of a die that holds the PREPARE. -/
def ready (s : State) (d : Nat) : State :=
  if s.txn.isOpen && s.txn.members.contains d && (s.die d).prepared && !s.txn.ready.contains d then
    let s := { s with txn := { s.txn with ready := s.txn.ready ++ [d] } }
    if (s.txn.members.all fun e => s.txn.ready.contains e) && s.txn.refused.isNone && !s.txn.acceptor then s.allReady else s
  else s

/-! ### GO -/

/-- GO goes out (R90, step 4; R238, step 6): with CONFIRM to the far end for a proposer. -/
def sendGo (s : State) : State :=
  let s := ({ s with txn := { s.txn with goSent := true } }.wr IMG_TXN_STATUS_STATE pkg 3).ringTxn s.crownDie 15 4 0
  match s.txn.planTeam with
  | some t => if s.txn.acceptor then s else s.sendMsgs t [(0x05, bytesBE 4 s.txn.planEpoch)]
  | none => s

/-- The start of M − 1 (R90, step 4): GO, or ABORT with the first reason. -/
def goDeadline (s : State) : State :=
  if s.txn.isOpen && !s.txn.goSent && !s.txn.acceptor then
    let s := s.toMf (s.txn.mf - 1)
    if s.txn.rollback && !s.flag IMG_SHADOW_VALID pkg then s.abortTxn reasonNoShadow
    else
      match s.txn.refused with
      | some x => s.abortTxn x.2
      | none =>
        if !(s.txn.members.all fun e => s.txn.ready.contains e) then s.abortTxn reasonDeadline
        else if s.txn.planTeam.isSome && !s.txn.planOk then s.abortTxn reasonPlanRefused
        else s.sendGo
  else s

/-- GO of a plan that gives flows of a die receive slots wakes the transmit direction of their trunk groups (R296). -/
def wakeGroups (s : State) (d : Nat) : State :=
  match s.txn.planTeam.bind fun t => (s.farPlan t s.txn.planEpoch).map fun p => (t, p) with
  | none => s
  | some (t, p) =>
    s.forEach (p.flows.filter fun f => !f.slots.isEmpty) fun u f =>
      match u.localFlow t f.id with
      | none => u
      | some x =>
        let g := u.rdPend HLN_FLOW_GRP_GROUP d x.2
        if x.1 == d && u.rdPend HLN_FLOW_GRP_VALID d x.2 == 1 && u.flag HLN_GRP_CFG_EN d g && u.isTrunk d g &&
            u.flag HLN_GRP_STATUS_TX_DORMANT d g then u.grpWake d g
        else u

/-- A die receives GO (R90): lane groups wake (R296), arms that wake are powered (R184), and the decoder clusters the new load needs (R343). -/
def takeGo (s : State) (d : Nat) : State :=
  if s.txn.goSent && s.txn.members.contains d && s.flag IMG_DIE_STATUS_PENDING d && !s.txn.switched then
    let s := s.modDie d fun x => { x with holdsGo := true }
    let s := s.forEach (List.range 8) fun t i =>
      if !t.txOn d i && bit (t.rdPend TXD_CTRL_SC_EN d) i then t.txPower d i else t
    ((s.decoderPower d (s.loadOf d fun f n k => s.rdPend f n k) false).armDomains d).wakeGroups d
  else s

/-! ### The switch (R90, step 5) -/

/-- The enable of a transmit arm has gone to 0 at M (R98, R99, R185, R187): its superframe is its work. -/
def txOff (s : State) (d i : Nat) : State :=
  (s.disableUnit d 5 i (b2n (s.txState d i == 3)) s.usNow).txStop d i true

/-- The enable of a receive arm has gone to 0 at M (R163): in DRAIN an arm in service finishes the blocks it holds, and stops
when it reports idle. Log entry 9 DESIGN CHOICE. -/
def rxOff (s : State) (d i : Nat) : State :=
  let work := b2n (s.rxState d i == 3)
  let s := s.disableUnit d 4 i work s.usNow
  if work = 0 || s.disAbort d 4 then s.rxStop d i true else s

/-- The enable of a receive arm has gone to 1 at M: one that drains starts once it is idle (R101). -/
def rxUp (s : State) (d i : Nat) : State :=
  let old := s.rxState d i
  let s := s.enableUnit d 4 i
  if (s.unit d 4 i).draining then s
  else if old = 5 then (s.rxWake d i).modRx d i fun a => { a with wokeFrom := 5 } else s.rxStart d i

/-- A revert takes an enable back to 0: a woken arm returns to the state it held before (R91, R184). -/
def armsBack (s : State) (d i : Nat) (tx rx : Bool) : State :=
  let s := if tx then (s.setTxState d i (s.txArm d i).before).modTx d i fun a => { a with waking := false, due := false } else s
  if rx then s.rxStop d i ((s.rxArm d i).wokeFrom == 5) else s

/-- The receive-direction H of a subcarrier at the epoch that a commit starts (R203, R456): the far end's entry where the plan
of that epoch is held, else the value in force. -/
def committedH (s : State) (d i : Nat) : Nat :=
  match s.txn.planTeam with
  | some t =>
    match (if s.teamBase d = t then s.farPlan t s.txn.planEpoch else none) with
    | some p => ((p.scs[8 * s.teamPos d + i]?).map PlanSc.h).getD (s.rxH d i)
    | none => s.rxH d i
  | none => s.rxH d i

/-- What a die's arms, decoders and flows do when its fields have switched; `o` is the state before, and `back` tells a
revert. -/
def afterSwitch (s o : State) (d : Nat) (back : Bool := false) : State :=
  let changed (t : State) (f : Fld) (k : Nat) : Bool := t.rd f d k != o.rd f d k
  let s := s.forEach (List.range 8) fun t i =>
    let rebuilt := changed t TXD_SC_CFG_CLASS i || changed t FEC_SC_CFG_CODE i || changed t TXD_SC_CFG_ROLLOFF i
    let t := if o.txOn d i && !t.txOn d i then (if back then t else t.txOff d i)
      else if !o.txOn d i && t.txOn d i then (t.enableUnit d 5 i).txPower d i
      else if t.txOn d i && rebuilt then (t.setTxState d i 1).modTx d i fun a => { a with before := 0, waking := true, due := true }
      else t
    let t := if o.rxOn d i && !t.rxOn d i then (if back then t else t.rxOff d i)
      else if !o.rxOn d i && t.rxOn d i then t.rxUp d i
      else if t.rxOn d i && rebuilt then t.rxStart d i
      else t
    let t := if back then t.armsBack d i (o.txOn d i && !t.txOn d i) (o.rxOn d i && !t.rxOn d i) else t
    (if changed t TXD_SC_CFG_H i || changed t TXD_SC_CFG_CONST i then t.markMixed d i else t).showFormat d i
  let s := s.txMark d
  let s := s.forEach (List.range 512) fun t f =>
    let t := if o.flag FLW_CFG_TX_EN d f && !t.flag FLW_CFG_TX_EN d f then
        let t := t.disableUnit d 10 (2 * f) (t.flow d f).buffer.length t.usNow
        if t.disAbort d 10 then t.modFlow d f fun x => { x with buffer := [] } else t
      else if !o.flag FLW_CFG_TX_EN d f && t.flag FLW_CFG_TX_EN d f then t.enableUnit d 10 (2 * f) else t
    let t := t.moveGroup o d f
    if o.flag FLW_CFG_ENC d f && !t.flag FLW_CFG_ENC d f then t.dropTxKey d f
    else if t.flag FLW_CFG_ENC d f && (t.flow d f).txNext.isSome && t.txn.planTeam.isSome then t.promoteTx d f
    else t
  (s.commitPool d (s.committedH d)).powerCommit d

/-- Restart the teams that a new map or geometry forms, resizes or leaves (R24). Log entry 117 DEDUCED. -/
def restartTeams (s : State) (moved : List Nat) : State :=
  let s := s.forEach moved fun t d =>
    let t := t.forEach (List.range 8) fun u i => (u.txStop d i false).rxStop d i false
    { t with teams := t.teams.erase (unitKey d 0) }.setMember d (if t.usable d then 1 else 0)
  s.forEach (s.teamBases.filter fun t => moved.any fun d => s.sameTeam t d) fun t b => t.startCamp b

/-- A team's transmit direction runs a new plan epoch. -/
def planSwitched (s : State) (t e : Nat) : State :=
  let s := s.modTeam t fun x => { x with own := keepPlan x.own e (s.activePlan t), openAt := some s.time.mf }
  s.wrTeam FRM_PLAN_ACTIVE_EPOCH t e

/-- The team map or geometry of a die differs between two states (R24). -/
def mapDiffers (a b : State) (d : Nat) : Bool :=
  mapCode (a.rd PKG_TEAM_MAP_SIZE pkg) d != mapCode (b.rd PKG_TEAM_MAP_SIZE pkg) d ||
  a.rd PKG_GEOM_SLICE_SPACING pkg d != b.rd PKG_GEOM_SLICE_SPACING pkg d || a.rd PKG_GEOM_SC_SPACING pkg d != b.rd PKG_GEOM_SC_SPACING pkg d

/-- A die that holds GO switches at M; one that holds none is in doubt (R90, R91). -/
def dieSwitch (s : State) (d : Nat) : State :=
  if (s.die d).holdsGo then
    let o := s
    let s := s.switchPend d
    let s := (s.wr IMG_EPOCH_EPOCH d s.txn.epoch).modDie d fun x => { x with switched := true, epochRun := 0 }
    s.afterSwitch o d
  else (s.forEach (List.range 8) fun t i => t.txReturn d i).wr IMG_DIE_STATUS_IN_DOUBT d 1

/-- The start of M (R90, step 5). -/
def txnSwitch (s : State) : State :=
  if s.txn.isOpen && s.txn.goSent && !s.txn.switched then
    let s := s.toMf s.txn.mf
    let was := s
    let s := { s with shadow := [] }.switchPend pkg
    let moved := s.dieList.filter (was.mapDiffers s)
    let s := s.forEach s.txn.members fun t d => t.dieSwitch d
    let s := { s with txn := { s.txn with switched := true } }
    let s := if s.txn.rollback then s else (s.wr IMG_SHADOW_VALID pkg 1).wr IMG_SHADOW_REMAINING pkg 256
    let s := if moved.isEmpty then s else s.restartTeams moved
    let s := match s.txn.planTeam with
      | some t =>
        let s := s.planSwitched t s.txn.planEpoch
        if s.txn.ramp = 1 then
          let s := ((s.endDiscovery t).modTeam t fun x => { x with baseCamp := false })
          s.forEach ((s.teamDies t).filter s.present) fun u d => u.wr BUP_STATUS_STATE d 5
        else if s.txn.ramp = 2 then s.forEach ((s.teamDies t).filter s.present) fun u d => u.wr BUP_STATUS_STATE d 6
        else s
      | none => s
    s.showAllSlots
  else s

/-! ### Close and revert (R90 step 6, R91) -/

/-- A member answers E + 1 in the round that ends: the crown by its own epoch (R90, step 6). -/
def answersNew (s : State) (d : Nat) : Bool :=
  if s.crown.token == some d then s.epoch d == s.txn.epoch else (s.die d).epochAns == some s.txn.epoch

/-- The heartbeat round of M + 1 ends the transaction: committed when every member answers E + 1 and none was lost, else every
die that switched is sent REVERT (R91, R95). Log entry 13 DEDUCED. -/
def txnJudge (s : State) : State :=
  if s.txn.isOpen && s.txn.switched && !s.txn.reverting && decide (s.txn.mf < s.time.mf) then
    if !s.txn.lost && s.txn.members.all s.answersNew then s.closeCommitted
    else
      let s := ({ s with txn := { s.txn with reverting := true } }.wr IMG_TXN_STATUS_SPLIT pkg 1).wr IMG_TXN_STATUS_STATE pkg 4
      s.forEach (s.dieList.filter fun d => (s.die d).switched) fun t d => t.ringTxn t.crownDie d 6 0
  else s

/-- A switched die receives REVERT (R91). -/
def takeRevert (s : State) (d : Nat) : State :=
  if s.txn.reverting && (s.die d).switched then s.modDie d fun x => { x with reverting := true } else s

/-- The start of M + 2 (R91): the dies that switched restore the shadow, and so does the package region; woken arms return
(R184), and dies whose team map or geometry goes back start again (R24). The transaction closes as ABORTED with IN_DOUBT, or
with MEMBER_LOST when a member was lost. The pending values return to the staged copies (R92). The shadow from before a commit
is gone, and VALID reads 0; one that a rollback started from stays while it has multiframes left (R94).
Log entry 164 DESIGN CHOICE. -/
def revertRestore (s : State) : State :=
  if s.txn.isOpen && s.txn.reverting then
    let s := s.toMf (s.txn.mf + 2)
    let was := s
    let back := s.pend
    let s := s.forEach (s.dieList.filter fun d => (s.die d).reverting) fun t d =>
      let o := t
      let t := (t.restoreShadow d).wr IMG_EPOCH_EPOCH d ((t.txn.epoch + 2 ^ 32 - 1) % 2 ^ 32)
      t.afterSwitch o d true
    let s := s.restoreShadow pkg
    let moved := s.dieList.filter (was.mapDiffers s)
    let s := if moved.isEmpty then s else s.restartTeams moved
    let s := s.forEach s.dieList fun t d => t.wr IMG_DIE_STATUS_IN_DOUBT d 0
    let s := match s.txn.planTeam with
      | some t => s.planSwitched t (s.agreed t)
      | none => s
    let keeps := s.txn.rollback && s.flag IMG_SHADOW_VALID pkg
    let s := { s with shadow := if keeps then back else [] }
    (if keeps then s else (s.wr IMG_SHADOW_VALID pkg 0).wr IMG_SHADOW_REMAINING pkg 0).abortTxn
      (if s.txn.lost then reasonMemberLost else reasonInDoubt)
  else s

/-- The shadow's multiframes have run out (R94). -/
def shadowExpire (s : State) : State := if s.rd IMG_SHADOW_REMAINING pkg = 0 then s.shadowGone else s

end State

/-! ### Rows -/

/-- TXN_COMMIT (R88). -/
def execTxnCommit (lead : Fin 256) (s : State) : Host.Outcome State Fault Refusal :=
  run s fun s => (s.txnCommand false lead).respond 0

/-- TXN_ROLLBACK (R94). -/
def execTxnRollback (lead : Fin 256) (s : State) : Host.Outcome State Fault Refusal :=
  run s fun s => (s.txnCommand true lead).respond 0

/-- TXN_ABORT (R88, R92, R95): before GO the transaction aborts; after GO the command is ignored. -/
def execTxnAbort (lead : Fin 256) (s : State) : Host.Outcome State Fault Refusal :=
  run s fun s =>
    let s := (s.storeLead lead).respond 0
    if !s.txn.isOpen then s
    else if s.txn.goSent then (s.raise IMG_TXN_STATUS_ABORT_IGNORED pkg).wr IMG_TXN_STATUS_RESULT pkg 0
    else s.abortTxn reasonHostAbort

/-- TXN_MULTI_COMMAND (R88): only LEAD is stored. -/
def execTxnMultiCommand (lead : Fin 256) (s : State) : Host.Outcome State Fault Refusal :=
  run s fun s => (s.storeLead lead).respond 0

/-- PREPARE (R90). -/
def execPrepare (die : Fin 8) (s : State) : Host.Outcome State Fault Refusal := runDie s die fun s => s.prepare die

/-- READY (R90). -/
def execReady (die : Fin 8) (s : State) : Host.Outcome State Fault Refusal := runDie s die fun s => s.ready die

/-- REFUSE (R90, R92). -/
def execRefuse (die : Fin 8) (reason : Fin 16) (s : State) : Host.Outcome State Fault Refusal :=
  runDie s die fun s => if s.txn.members.contains die then s.refuse die reason else s

/-- TXN_GO_DEADLINE (R90). -/
def execTxnGoDeadline (s : State) : Host.Outcome State Fault Refusal := run s fun s => s.goDeadline

/-- GO (R90). -/
def execGo (die : Fin 8) (s : State) : Host.Outcome State Fault Refusal := runDie s die fun s => s.takeGo die

/-- ABORT (R92): a die discards the pending set it still holds, and its values return to the staged copies. -/
def execAbort (die : Fin 8) (s : State) : Host.Outcome State Fault Refusal :=
  runDie s die fun s =>
    if (s.die die).switched then s
    else
      let s := if s.txn.isOpen && s.txn.rollback then s.dropPend die else s.unhold die
      let s := s.forEach (List.range 8) fun t i => t.txReturn die i
      (s.wr IMG_DIE_STATUS_PENDING die 0).modDie die fun x => { x with holdsGo := false, prepared := false }

/-- TXN_SWITCH (R90). -/
def execTxnSwitch (s : State) : Host.Outcome State Fault Refusal := run s fun s => s.txnSwitch

/-- REVERT (R91). -/
def execRevert (die : Fin 8) (s : State) : Host.Outcome State Fault Refusal := runDie s die fun s => s.takeRevert die

/-- REVERT_RESTORE (R91). -/
def execRevertRestore (s : State) : Host.Outcome State Fault Refusal := run s fun s => s.revertRestore

/-- SHADOW_EXPIRE (R94). -/
def execShadowExpire (s : State) : Host.Outcome State Fault Refusal := run s fun s => s.shadowExpire

/-- STAGE_DISCARD (R87). -/
def execStageDiscard (die : Fin 8) (s : State) : Host.Outcome State Fault Refusal :=
  runDie s die fun s => (s.discard die).respond 0

/-- PKG_STAGE_DISCARD (R87): the package region and every die that is not quarantined. -/
def execPkgStageDiscard (s : State) : Host.Outcome State Fault Refusal :=
  run s fun s =>
    (s.forEach (pkg :: s.dieList.filter fun d => !s.quarantined d) fun t d => t.discard d).respond 0

end Sys2Proof.Machine
end

