-- ==== Sys2Proof/Machine/Handshake.lean ====
section
/-! DEFINITION. The plan-epoch handshake (spec/08, R235 to R245), absence changes (R33, R34), and the headers that announce
epochs (R221, R242). -/
namespace Sys2Proof.Machine
open Sys2Proof

/-- Reject codes of R239. -/
def rejectRange : Nat := 1
def rejectResource : Nat := 2
def rejectPower : Nat := 3
def rejectSymmetry : Nat := 4
def rejectDigest : Nat := 5
def rejectStale : Nat := 6
def rejectBusy : Nat := 7

/-- The global subcarriers whose entries differ between two directions (R244). -/
def diffMask (a b : DirPlan) : Nat :=
  (List.range (max a.scs.length b.scs.length)).foldl (fun m g => if a.scs[g]? == b.scs[g]? then m else m + 2 ^ g) 0

/-- Two proposals conflict in a symmetric item of a subcarrier: both change it, to different values (R243). -/
def planConflict (base a b : DirPlan) : Bool :=
  (List.range base.scs.length).any fun g =>
    match base.scs[g]?, a.scs[g]?, b.scs[g]? with
    | some o, some x, some y =>
      let sym (p : PlanSc) : Nat × Nat × Nat := (p.state, p.cls, p.name)
      sym x != sym o && sym y != sym o && sym x != sym y
    | _, _, _ => false

namespace State

/-! ### Holding the changes that an acceptor takes (R239) -/

/-- Hold a pending value. -/
def pendPut (s : State) (f : Fld) (d v : Nat) (k : Nat := 0) : State :=
  { s with pend := s.pend.put (f.key d k) (v % 2 ^ f.w) }

/-- Take a subcarrier entry of a proposal into the own direction: its state, and for a class or code change the staged
values of the subcarrier. -/
def takeEntry (s : State) (t : Nat) (e : List Byte) : State :=
  if beAt e 0 1 != 0x01 then s
  else
    let d := t + beAt e 1 1 / 8
    let i := beAt e 1 1 % 8
    let on := beAt e 2 1 == 0
    let s := (s.pendPut TXD_CTRL_SC_EN d (setBit (s.rdPend TXD_CTRL_SC_EN d) i on)).pendPut RXD_CTRL_SC_EN d
      (setBit (s.rdPend RXD_CTRL_SC_EN d) i on)
    if beAt e 3 1 = s.rd TXD_SC_CFG_CLASS d i ∧ beAt e 4 4 = s.tableName d (s.rd FEC_SC_CFG_CODE d i) then s
    else
      let s := (s.pendPut TXD_SC_CFG_CLASS d (s.rdStaged TXD_SC_CFG_CLASS d i) i).pendPut FEC_SC_CFG_CODE d (s.rdStaged FEC_SC_CFG_CODE d i) i
      let s := (s.pendPut TXD_SC_CFG_H d (s.rdStaged TXD_SC_CFG_H d i) i).pendPut TXD_SC_CFG_CONST d (s.rdStaged TXD_SC_CFG_CONST d i) i
      s.pendPut TXD_SC_CFG_ROLLOFF d (s.rdStaged TXD_SC_CFG_ROLLOFF d i) i

/-- A class or code change of an entry equals the staged values of its subcarrier (R239, SYMMETRY). -/
def symmetric (s : State) (t : Nat) (e : List Byte) : Bool :=
  let d := t + beAt e 1 1 / 8
  let i := beAt e 1 1 % 8
  beAt e 0 1 != 0x01 ||
  (beAt e 3 1 == s.rd TXD_SC_CFG_CLASS d i && beAt e 4 4 == s.tableName d (s.rd FEC_SC_CFG_CODE d i)) ||
  (beAt e 3 1 == s.rdStaged TXD_SC_CFG_CLASS d i && beAt e 4 4 == s.tableName d (s.rdStaged FEC_SC_CFG_CODE d i))

/-- Every value of the far end's entries is within range for the receive path (R171, R272). -/
def entryOk (s : State) (t : Nat) (e : List Byte) : Bool :=
  match beAt e 0 1 with
  | 0x01 => formatOk (beAt e 3 1 != 0) (beAt e 8 1) (beAt e 9 1) (beAt e 10 1) && decide (beAt e 1 1 < 8 * s.teamSize t ∧ beAt e 2 1 ≤ 2)
  | 0x10 =>
    match s.localFlow t (beAt e 1 2) with
    | none => beAt e 3 1 == 0
    | some h => match s.boundUnit h.1 h.2 true 1 with
      | some u => s.rd CRC_UNIT_CFG_POLY h.1 u == beAt e 6 1 % 4
      | none => true
  | 0x11 => beAt e 3 2 % 128 == 0 && ((mapSlots 0 (e.drop 5)).isEmpty || (s.localFlow t (beAt e 1 2)).isSome)
  | 0x12 =>
    match s.localFlow t (beAt e 1 2) with
    | none => false
    | some h =>
      let x := s.flow h.1 h.2
      (x.rxNext.map KeySlot.kcv == some (beAt e 7 4)) || (x.rxCur.map KeySlot.kcv == some (beAt e 7 4))
  | _ => false

/-- The entries of the far end's message set, by INDEX. -/
def heldEntries (s : State) (t : Nat) : List (List Byte) :=
  let x := s.team t
  (List.range x.entries.length).filterMap fun i => (x.entries.find? fun e => e.1 == i).map Prod.snd

/-- The PLAN section's values of a team's dies: subcarrier states and loadings, and with `all` the flows too (R425, R427). -/
def goalEntries (s : State) (t : Nat) (all : Bool) : Store Nat :=
  (s.team t).goal.keep fun k => s.present k.inst && (all || decide (k.blk ≠ 10 ∧ k.blk ≠ 13))

/-! ### Judging a proposal (R239, R243) -/

/-- The pending set the acceptor would hold: the PLAN section in epoch 1, then the entries. -/
def withProposal (s : State) (t : Nat) (es : List (List Byte)) : State :=
  let s := if (s.team t).baseCamp then { s with pend := s.pend.putAll (s.goalEntries t false) } else s
  s.forEach es fun u e => u.takeEntry t e

/-- The staged values an acceptor compares with: in epoch 1 the PLAN section (R425). -/
def withGoalStaged (s : State) (t : Nat) : State :=
  if (s.team t).baseCamp then { s with staged := s.staged.putAll (s.goalEntries t false) } else s

/-- The first failing check of R239 on a proposal, but for that of an open transaction: its code. `u` holds the changes that
the acceptor would take. Bridges that the new traffic overloads are a matter of load (R26, R456). Log entry 166 DEDUCED. -/
def proposalFault (s u : State) (t : Nat) (h : PlanHead) (es : List (List Byte)) (farNew : DirPlan) : Option Nat :=
  if h.base != s.agreed t then some rejectStale
  else if planDigest (s.lowerNode t h.node) (s.ownOf t (s.agreed t)) farNew != h.digest then some rejectDigest
  else if !es.all ((s.withGoalStaged t).symmetric t) then some rejectSymmetry
  else if !es.all (s.entryOk t) || ((s.teamDies t).filter s.present).any u.refusesRange then some rejectRange
  else if ((s.teamDies t).filter s.present).any (fun d => u.refusesResource d (some farNew)) ||
      !u.bridgesOk (u.txTraffic ++ u.rxTraffic (some (t, farNew))) then
    some rejectResource
  else if u.powerRefuses then some rejectPower
  else none

/-- The acceptor takes a proposal: its own transaction opens, prepared on every die that takes part, with M_B (R238, step 4).
Log entry 79 DEDUCED. -/
def takeProposal (s : State) (t : Nat) (h : PlanHead) (es : List (List Byte)) (farNew : DirPlan) : State :=
  let lead := s.rd IMG_TXN_CTRL_LEAD pkg
  let camp := (s.team t).baseCamp
  let s := (s.openTxn false lead).withProposal t es
  let ms := s.txn.members
  let s := { s with txn := { s.txn with acceptor := true, planTeam := some t, planEpoch := h.epoch, planOk := true, ready := ms, ramp := if camp then 1 else 0 } }
  let s := s.forEach ms fun u d => (u.wr IMG_DIE_STATUS_PENDING d 1).modDie d fun x => { x with prepared := true }
  let s := (s.wr IMG_TXN_STATUS_STATE pkg 2).wrTeam FRM_PLAN_STATUS_STATE t 3
  let s := s.modTeam t fun x => { x with far := keepPlan x.far h.epoch farNew, confirm := false, goNext := false, agreedM := some h.mf }
  s.sendAccept t h.epoch s.txn.mf (s.pendingPlan t) farNew 0

/-- A change without a transaction begins: the plan of both directions for its epoch is held (R33, R34, R244). -/
def startChange (s : State) (t : Nat) (c : PlanChange) (far : DirPlan) (state : Nat) : State :=
  (s.modTeam t fun x => { x with change := some c, far := keepPlan x.far c.epoch far }).wrTeam FRM_PLAN_STATUS_STATE t state

/-- The own open proposal that has not switched is withdrawn (R245). -/
def withdrawOwn (s : State) (t : Nat) : State :=
  if s.txn.isOpen && s.txn.planTeam == some t && !s.txn.goSent then s.abortTxn reasonPlanRefused else s

/-- An absence change of the far end is taken at the earliest multiframe (R34, R238). -/
def acceptAbsence (s : State) (t : Nat) (h : PlanHead) (mask : Nat) (farNew : DirPlan) : State :=
  let m := s.time.mf + 1 + s.rd IMG_TXN_CTRL_LEAD pkg
  let far := markAbsent farNew mask
  let s := s.startChange t { revert := false, epoch := h.epoch, mf := m, disputed := mask } far 3
  s.sendAccept t h.epoch m (markAbsent (s.activePlan t) mask) far 0

/-- An absence proposal is accepted without checks (R34, R239). An own absence change that has not switched keeps its switch
multiframe and takes the far end's slices as well (R36). -/
def takeAbsence (s : State) (t : Nat) (h : PlanHead) (es : List (List Byte)) (farNew : DirPlan) : State :=
  let s := s.withdrawOwn t
  let mask := es.foldl (fun m e => m ||| 2 ^ beAt e 1 1) 0
  match (s.team t).change with
  | some c =>
    if !c.revert && !c.switched then
      let all := c.disputed ||| mask
      let s := s.startChange t { c with epoch := max c.epoch h.epoch, disputed := all } (markAbsent farNew all)
        (s.rd FRM_PLAN_STATUS_STATE t)
      s.sendAccept t h.epoch c.mf (markAbsent (s.activePlan t) all) (markAbsent farNew all) 0
    else s.acceptAbsence t h mask farNew
  | none => s.acceptAbsence t h mask farNew

/-- Reject a proposal (R239); a rejected epoch 1 shows at the cairn die (R425). -/
def rejectProposal (s : State) (t e code : Nat) : State :=
  let s := s.sendReject t e code
  if (s.team t).baseCamp then s.raiseTeam BUP_EVENT_EPOCH1_FAIL t else s

/-- A proposal is held whole (R239, R243). Log entries 77 DESIGN CHOICE, 79 DEDUCED. -/
def judgeProposal (s : State) (t : Nat) (h : PlanHead) : State :=
  let es := s.heldEntries t
  let base := (s.farPlan t (s.agreed t)).getD {}
  let farNew := base.takeAll es
  let evaluate (u : State) : State :=
    if u.txn.isOpen then u.rejectProposal t h.epoch rejectBusy
    else
      match u.proposalFault (u.withProposal t es) t h es farNew with
      | some c => u.rejectProposal t h.epoch c
      | none => u.takeProposal t h es farNew
  let st := s.rd FRM_PLAN_STATUS_STATE t
  if !es.isEmpty && es.all isAbsence then s.takeAbsence t h es farNew
  else if st = 3 ∨ st = 4 then s.rejectProposal t h.epoch rejectBusy
  else if st = 1 ∧ s.txn.planTeam = some t ∧ s.txn.planEpoch = h.epoch ∧ s.txn.goSent = false then
    if planConflict (s.ownOf t (s.agreed t)) (s.pendingPlan t) farNew then
      if h.node < s.nodeId t then s
      else evaluate (((s.closePlan t).sendMsgs t [(0x06, bytesBE 4 s.txn.planEpoch)]).abortTxn reasonPlanRefused
        |>.wrTeam FRM_PLAN_STATUS_LOST_TIE t 1)
    else
      let u := s.withProposal t es
      match s.proposalFault u t h es farNew with
      | some c => s.rejectProposal t h.epoch c
      | none =>
        match u.receiveReason t farNew with
        | (some r, u) => u.abortTxn r
        | (none, u) =>
          let s := { u with txn := { u.txn with planOk := true } }
          let s := s.modTeam t fun x => { x with far := keepPlan x.far h.epoch farNew, agreedM := some h.mf }
          s.sendAccept t h.epoch s.txn.mf (s.pendingPlan t) farNew 0
  else evaluate s

/-! ### Judging an acceptance (R238, steps 5 and 6; R456) -/

/-- An ACCEPT is held whole. -/
def judgeAccept (s : State) (t : Nat) (h : PlanHead) : State :=
  let base := (s.farPlan t (s.agreed t)).getD {}
  let farNew := base.takeAll (s.heldEntries t)
  match (s.team t).change with
  | some c =>
    if c.epoch = h.epoch then
      let s := s.modTeam t fun x => { x with agreedM := some h.mf, change := some { c with disputed := c.disputed ||| h.disputed } }
      if c.revert then s
      else s.modTeam t fun x => { x with far := keepPlan x.far h.epoch (markAbsent farNew c.disputed) }
    else s
  | none =>
    if s.txn.isOpen && s.txn.planTeam == some t && s.txn.planEpoch == h.epoch && !s.txn.acceptor && !s.txn.goSent then
      if planDigest (s.lowerNode t (s.farId t)) (s.pendingPlan t) farNew = h.digest then
        match s.receiveReason t farNew with
        | (some r, s) => s.abortTxn r
        | (none, s) =>
          { s with txn := { s.txn with planOk := true } }.modTeam t fun x =>
            { x with far := keepPlan x.far h.epoch farNew, agreedM := some h.mf }
      else s
    else s

/-- Judge a message set once every entry is held (R236, R239). -/
def judgeHead (s : State) (t : Nat) : State :=
  let x := s.team t
  match x.head with
  | some h =>
    if x.judged || decide (x.entries.length < h.entries) then s
    else
      let s := s.modTeam t fun y => { y with judged := true }
      if h.type = 1 then s.judgeProposal t h else s.judgeAccept t h
  | none => s

/-- A PROPOSE or ACCEPT arrives; a repeat changes nothing (R235). -/
def takeHead (s : State) (t : Nat) (h : PlanHead) : State :=
  if (s.team t).head = some h then s
  else (s.modTeam t fun x => { x with head := some h, entries := [], judged := false }).judgeHead t

def headPropose (b : List Byte) : PlanHead :=
  { type := 1, epoch := beAt b 0 4, base := beAt b 4 4, mf := beAt b 8 4, digest := beAt b 12 4, entries := beAt b 16 2
    node := beAt b 18 8, disputed := 0 }
def headAccept (b : List Byte) : PlanHead :=
  { type := 3, epoch := beAt b 0 4, base := 0, mf := beAt b 4 4, digest := beAt b 8 4, entries := beAt b 12 2, node := 0
    disputed := beAt b 14 8 }

/-- ACCEPT (R238): taken while the own proposal or change of that epoch is open. -/
def takeAccept (s : State) (t : Nat) (b : List Byte) : State :=
  let st := s.rd FRM_PLAN_STATUS_STATE t
  if st = 1 ∨ st = 4 then s.takeHead t (headAccept b) else s

/-- PLAN_DATA (R236): an entry of the set being received; repeats are discarded. -/
def takePlanData (s : State) (t : Nat) (b : List Byte) : State :=
  let x := s.team t
  match x.head with
  | some h =>
    let i := beAt b 4 2
    if beAt b 0 4 = h.epoch ∧ i < h.entries ∧ x.judged = false ∧ x.entries.any (fun e => e.1 == i) = false then
      (s.modTeam t fun y => { y with entries := y.entries ++ [(i, (b.drop 6).take 22)] }).judgeHead t
    else s
  | none => s

/-- REJECT (R245): the proposer aborts with PLAN_REFUSED and records the code. A rejected epoch 1 shows at the cairn die
(R425); a rejection of a manager step for power sets REFUSED and holds the manager off (R350). -/
def takeReject (s : State) (t : Nat) (b : List Byte) : State :=
  if s.rd FRM_PLAN_STATUS_STATE t = 1 ∧ s.txn.isOpen ∧ s.txn.planTeam = some t ∧ beAt b 0 4 = s.txn.planEpoch then
    let s := s.wrTeam FRM_PLAN_STATUS_REJECT_REASON t (beAt b 4 1)
    let s := (s.wrTeam FRM_PLAN_STATUS_REJECT_RX t 1).raiseTeam FRM_EVENT_PLAN_REJECT t
    let s := if s.txn.ramp = 1 then s.raiseTeam BUP_EVENT_EPOCH1_FAIL t else s
    let m : MgrSt := s.mgr.get {} (unitKey t 0)
    let s := if m.step.isSome && beAt b 4 1 == rejectPower then
        { (s.raise PWR_EVENT_REFUSED (s.crown.token.getD 0)) with mgr := s.mgr.set {} (unitKey t 0) { m with holdoff := 4 } }
      else s
    (s.closePlan t).abortTxn reasonPlanRefused
  else s

/-- CONFIRM (R238, step 8). -/
def takeConfirm (s : State) (t : Nat) (b : List Byte) : State :=
  if s.txn.acceptor ∧ s.txn.planTeam = some t ∧ beAt b 0 4 = s.txn.planEpoch then s.modTeam t fun x => { x with confirm := true }
  else s

/-- WITHDRAW (R240): before the acceptor's GO its transaction aborts. -/
def takeWithdraw (s : State) (t : Nat) (b : List Byte) : State :=
  let s := if s.txn.isOpen && s.txn.acceptor && s.txn.planTeam == some t && s.txn.planEpoch == beAt b 0 4 && !s.txn.goSent then
      (s.closePlan t).abortTxn reasonPlanRefused
    else s
  if ((s.team t).head.map PlanHead.epoch) = some (beAt b 0 4) ∧ (s.team t).judged = false then
    s.modTeam t fun x => { x with head := none, entries := [] }
  else s

/-! ### Revert (R244) -/

/-- Subcarriers in dispute: those whose entries, in either direction, differ between the agreed plan and the plans that run
or are held. -/
def disputed (s : State) (t : Nat) : Nat :=
  let a := s.agreed t
  let own := ((s.team t).own.foldl (fun m x => m ||| diffMask (s.ownOf t a) x.2) (diffMask (s.ownOf t a) (s.activePlan t)))
  let farA := (s.farPlan t a).getD {}
  let far := (s.team t).far.foldl (fun m x => if a ≤ x.1 then m ||| diffMask farA x.2 else m) 0
  own ||| far ||| (s.team t).dispute

/-- The plan of BASE with the disputed subcarriers in base-camp format, or in the format of their die's other express
subcarriers, and without the slots on them. -/
def revertPlan (s : State) (t : Nat) (p : DirPlan) (mask : Nat) : DirPlan :=
  { scs := p.scs.zipIdx.map fun x =>
      if bit mask x.2 then
        let d := x.2 / 8
        match (p.scs.zipIdx.find? fun y => y.2 / 8 == d && !bit mask y.2 && y.1.cls == 1) with
        | some y => { y.1 with state := x.1.state }
        | none => { state := x.1.state, cls := 1, name := s.tableName (t + d) (s.expressSlot (t + d)), h := 32, const := 1
                    roll := 20, boost := 0 }
      else x.1
    flows := p.flows.map fun f => { f with slots := f.slots.filter fun y => !bit mask (y / 24) } }

/-- Show the disputed subcarriers of a revert, and its event. -/
def showDispute (s : State) (t mask : Nat) : State :=
  ((s.wrTeam FRM_PLAN_DISP_LO_MASK t mask).wrTeam FRM_PLAN_DISP_HI_MASK t (mask / 2 ^ 32)).raiseTeam FRM_EVENT_PLAN_REVERT t

/-- A revert begins here: both directions go back to BASE. -/
def startRevert (s : State) (t e m mask : Nat) : State :=
  let far := s.revertPlan t ((s.farPlan t (s.agreed t)).getD {}) mask
  (s.startChange t { revert := true, epoch := e, mf := m, disputed := mask } far 4).showDispute t mask

/-- REVERT is received: accepted without checks; two REVERTs merge (R243, R244). -/
def takeRevertMsg (s : State) (t : Nat) (b : List Byte) : State :=
  let e := beAt b 0 4
  let theirs := beAt b 16 8
  match (s.team t).change with
  | some c =>
    if c.revert && !c.switched then
      s.startRevert t (max c.epoch e) c.mf (c.disputed ||| theirs)
    else s
  | none =>
    let s := s.withdrawOwn t
    let mask := theirs ||| s.disputed t
    let m := s.time.mf + 1 + s.rd IMG_TXN_CTRL_LEAD pkg
    let s := s.startRevert t e m mask
    let own := s.revertPlan t (s.ownOf t (s.agreed t)) mask
    s.sendMsgs t [(0x03, bodyAccept e m (planDigest (s.lowerNode t (s.farId t)) own ((s.farPlan t e).getD {})) 0 mask)]

/-- A persistent disagreement (R244): the crown sends REVERT. -/
def disagreement (s : State) (t : Nat) : State :=
  let st := s.rd FRM_PLAN_STATUS_STATE t
  if st = 0 ∧ (s.team t).openAt = none ∧ s.rd FRM_PLAN_CTRL_PLAN_WAIT t ≤ (s.team t).diffRun ∧ (s.team t).baseCamp = false then
    let e := max (s.txEpoch t) (s.farEpoch t) + 1
    let m := s.time.mf + 1 + s.autoLead t (s.rd IMG_TXN_CTRL_LEAD pkg) 0
    let mask := s.disputed t
    let s := s.startRevert t e m mask
    let own := s.revertPlan t (s.ownOf t (s.agreed t)) mask
    s.sendMsgs t [(0x07, bodyRevert e (s.agreed t) m (planDigest (s.lowerNode t (s.farId t)) own ((s.farPlan t e).getD {})) mask)]
  else s

/-! ### Absence changes (R33, R34, R36) -/

/-- The crown starts the change that marks every absent slice and every subcarrier with a retired arm absent (R33 step 4,
R431): it replaces one that has not switched (R36), and follows one that has. Its entries set STATE to absent and nothing
else; the slots that lie on what is absent end with it at both ends (R34, R239). Log entry 94 DEDUCED. -/
def startAbsence (s : State) (t : Nat) : State :=
  let ds := (s.teamDies t).filter fun d => (s.die d).absenceDue
  if ds.isEmpty then s
  else
    let s := s.withdrawOwn t
    let s := match (s.team t).change with
      | some c => if c.switched then s else s.sendMsgs t [(0x06, bytesBE 4 c.epoch)]
      | none => s
    let s := s.forEach ds fun u d => u.modDie d fun x => { x with absenceDue := false }
    let gone (d i : Nat) : Bool := s.memberState d == 3 || s.armRetired d i
    let mask := (List.range (8 * s.teamSize t)).foldl (fun m g => if gone (t + g / 8) (g % 8) then m + 2 ^ g else m) 0
    let e := max (s.agreed t) (s.txEpoch t) + 1
    let new := markAbsent (s.activePlan t) mask
    let es := (planDelta (s.ownOf t (s.agreed t)) new).filter isAbsence
    let m := s.time.mf + 1 + s.autoLead t (s.rd IMG_TXN_CTRL_LEAD pkg) es.length
    let far := markAbsent ((s.farPlan t (s.agreed t)).getD {}) mask
    (s.startChange t { revert := false, epoch := e, mf := m, disputed := mask } far 1).sendPropose t e m es new far

/-- Write a direction into the transmit registers of a team (R244). -/
def applyOwn (s : State) (t : Nat) (p : DirPlan) : State :=
  let s := s.forEach p.scs.zipIdx fun u x =>
    let d := t + x.2 / 8
    let i := x.2 % 8
    let on := x.1.state == 0
    let code := ((List.range 4).find? fun k => u.tableName d k == x.1.name).getD (u.rd FEC_SC_CFG_CODE d i)
    let u := (u.wrBit TXD_CTRL_SC_EN d i on).wrBit RXD_CTRL_SC_EN d i on
    let u := ((u.wr TXD_SC_CFG_CLASS d x.1.cls i).wr TXD_SC_CFG_H d x.1.h i).wr TXD_SC_CFG_CONST d x.1.const i
    ((u.wr TXD_SC_CFG_ROLLOFF d x.1.roll i).wr FEC_SC_CFG_CODE d code i).wr TXD_CTRL_PILOT_BOOST d x.1.boost
  let slots := p.flows.flatMap fun f => f.slots
  s.forEach (List.range (192 * s.teamSize t)) fun u g =>
    if slots.contains g then u else u.wr FLW_TX_SLOT_VALID (t + g / 192) 0 (g % 192)

/-- The subcarriers of a mask go dormant in both directions: their arms stop and their slots are cleared; the seams of a whole
slice go own-only (R33 step 5, R34, R431). -/
def sliceDark (s : State) (t mask : Nat) : State :=
  let gs := (List.range (8 * s.teamSize t)).filter fun g => bit mask g
  let s := s.modTeam t fun x => { x with farAbsent := x.farAbsent ||| mask }
  let s := s.forEach gs fun u g =>
    let d := t + g / 8
    let i := g % 8
    let u := (u.wrBit TXD_CTRL_SC_EN d i false).wrBit RXD_CTRL_SC_EN d i false
    let u := (u.txStop d i true).rxStop d i true
    u.forEach (List.range 24) fun v k => v.wr FLW_TX_SLOT_VALID d 0 (24 * i + k)
  let ds := ((s.teamDies t).filter fun d => bitsAt mask (8 * s.teamPos d) 8 == 255)
  (s.forEach ds fun u d => u.seamLeave d).forEach ds fun u d =>
    (if u.rd (seamStateFld false) d = 0 then u else u.seamOwn d false)

/-- At its switch multiframe a change without a transaction switches the team's transmit plan (R34, R244): it moves no
configuration epoch (R458). -/
def changeSwitch (s : State) (t : Nat) : State :=
  match (s.team t).change with
  | none => s
  | some c =>
    if c.switched then s
    else
      let s := s.toMf c.mf
      let s :=
        if c.revert then
          let o := s
          let s := s.applyOwn t (s.revertPlan t (s.ownOf t (s.agreed t)) c.disputed)
          s.forEach ((s.teamDies t).filter s.present) fun u d => u.afterSwitch o d
        else
          let far := (List.range (8 * s.teamSize t)).foldl (fun m g => if bit c.disputed g && s.memberState (t + g / 8) != 3 then m + 2 ^ g else m) 0
          let s := s.sliceDark t far
          let s := s.forEach ((s.teamDies t).filter fun d => s.memberState d == 3) fun u d =>
            u.forEach (List.range 192) fun v k => v.wr FLW_TX_SLOT_VALID d 0 k
          s
      let s := s.modTeam t fun x => { x with change := some { c with switched := true } }
      (s.planSwitched t c.epoch).showAllSlots

/-! ### Headers and the agreed epoch (R221, R242) -/

/-- Every seam of a team combines, and every flow of its PLAN section holds its slots (R427). -/
def fullService (s : State) (t : Nat) : Bool :=
  let ds := (s.teamDies t).filter s.isActive
  (ds.all fun d => (s.seamMate d true).all fun e =>
    !s.isActive e || !s.flag (seamEnFld true) d || (s.rd (seamStateFld true) d == 2 && s.rd (seamStateFld false) e == 2)) &&
  ((s.goalEntries t true).keep fun k => k.blk == 10 && k.reg == 0x1000).all fun e => s.keyActive e.1 == e.2

/-- Full service is reached after epoch 2 (R427); a team of one that came back by a rebase has rejoined (R459). -/
def checkFull (s : State) (t : Nat) : State :=
  if s.rd BUP_STATUS_STATE t = 6 ∧ s.agreed t = s.txEpoch t ∧ s.fullService t then
    let s := s.forEach ((s.teamDies t).filter s.present) fun u d => u.wr BUP_STATUS_STATE d 7
    let s := s.raiseTeam BUP_EVENT_FULL t
    if (s.team t).rejoin.isEmpty then s
    else
      let ds := (s.team t).rejoin
      (s.forEach ds fun u d => u.raise PKG_TEAM_EVENT_MEMBER_REJOINED pkg (2 ^ d)).modTeam t fun x => { x with rejoin := [] }
  else s

/-- Dies that raised their slice to the plan read active once that epoch is agreed (R37). -/
def rejoined (s : State) (t : Nat) : State :=
  if s.teamSize t < 2 ∨ (s.team t).baseCamp then s
  else
    let ds := (s.team t).rejoin
    let s := s.forEach ds fun u d => (u.setMember d 2).raise PKG_TEAM_EVENT_MEMBER_REJOINED pkg (2 ^ d)
    let s := s.formSeams ds
    (s.forEach ds fun u d => u.modDie d fun x => { x with rejoinReq := false }).modTeam t fun x => { x with rejoin := [] }

/-- The agreed epoch: the highest that both ends announce (R238, step 10). -/
def refreshAgreed (s : State) (t : Nat) : State :=
  let e := s.txEpoch t
  if s.farEpoch t = e ∧ s.agreed t < e then
    let first := decide (s.agreed t = 0)
    let s := ((s.wrTeam FRM_PLAN_EPOCH_AGREED t e).raiseTeam FRM_EVENT_PLAN_DONE t).closePlan t
    let s := s.modTeam t fun x =>
      { x with dispute := 0, diffRun := 0, change := if (x.change.map PlanChange.switched) == some true then none else x.change }
    let s := if first then s.teamActive t else s
    s.rejoined t
  else s

/-- A good header's epoch reaches the crown (R235, R242): the last announced, and, for an acceptor, that of superframes 240
to 255 of the multiframe before the proposer's switch (R240). Log entry 78 DEDUCED. -/
def announced (s : State) (t sf mfc e : Nat) : State :=
  let s := s.wrTeam FRM_PLAN_FAR_EPOCH t e
  let last := decide (240 ≤ sf) && (s.team t).head.any fun h => h.mf == mfc + 1
  let s := if last then s.modTeam t fun x => { x with farNext := some e } else s
  let s := if (s.farPlan t e).isNone && e != (s.team t).rxEpoch then s.raiseTeam FRM_EVENT_PLAN_UNKNOWN t else s
  (s.refreshAgreed t).checkFull t

/-- No arm of the team is in frame, and the multiframe that the cairn exchange named for epoch 1 has come on the far end's
count (R426). -/
def cairnSwitch (s : State) (t : Nat) : Bool :=
  let ds := (s.teamDies t).filter s.present
  s.agreed t == 0 && (s.team t).rxEpoch == 0 && ds.all (fun d => (List.range 8).all fun i => s.align d i != 3) &&
  match (s.cairnDie t).bind (s.farCount t), (s.team t).head with
  | some n, some h => h.epoch == 1 && decide ((256 * h.mf : Nat) ≤ n)
  | _, _ => false

/-- RX_PLAN_SWITCH (R242, R272, R426): the receive direction takes the announced epoch, or epoch 1 at the multiframe that the
cairn exchange named, if its plan is held. -/
def rxPlanSwitch (s : State) (t : Nat) : State :=
  let e := if s.cairnSwitch t then 1 else s.farEpoch t
  if e = (s.team t).rxEpoch then s
  else
    match s.farPlan t e with
    | none => s.raiseTeam FRM_EVENT_PLAN_UNKNOWN t
    | some p =>
      let cleared := p.scs.zipIdx.foldl (fun m x => if x.1.state == 2 then m else m ||| 2 ^ x.2) 0
      let s := s.modTeam t fun x => { x with farAbsent := clearBits x.farAbsent cleared }
      let cold := s.cairnSwitch t
      let s := s.rxSwitch t e p
      if cold then
        s.forEach ((s.teamDies t).filter s.present) fun u d => u.forEach (List.range 8) fun v i =>
          if v.rxOn d i then v.rxStart d i else v
      else s

/-- The acceptor's deadline at the start of M_B − 1 (R240). Without CONFIRM it keeps the pending set until the far end's
headers of M_A − 1 have announced an epoch. Log entry 78 DEDUCED. -/
def acceptorDeadline (s : State) (t : Nat) : State :=
  if s.txn.isOpen && s.txn.acceptor && s.txn.planTeam == some t && !s.txn.goSent then
    let s := s.toMf (s.txn.mf - 1)
    let x := s.team t
    if x.confirm || x.goNext then s.sendGo
    else
      match x.farNext with
      | some e =>
        if e = s.txn.planEpoch then
          let s := { s with txn := { s.txn with mf := max s.txn.mf (s.time.mf + 1) + 1 } }
          (s.wr IMG_TXN_MF_MF pkg s.txn.mf).modTeam t fun y => { y with goNext := true }
        else (s.closePlan t).abortTxn reasonPlanRefused
      | none => s
  else s

/-- A handshake that has stayed open 16 multiframes after its local switch closes (R244). -/
def handshakeTimeout (s : State) (t : Nat) : State :=
  match (s.team t).openAt with
  | some m => if m + 16 ≤ s.time.mf then s.closePlan t else s
  | none => s

/-- Take one MSG record by its type (R236). -/
def takeMsg (s : State) (t type : Nat) (b : List Byte) : State :=
  match type with
  | 0x01 => s.takeHead t (headPropose b)
  | 0x02 => s.takePlanData t b
  | 0x03 => s.takeAccept t b
  | 0x04 => s.takeReject t b
  | 0x05 => s.takeConfirm t b
  | 0x06 => s.takeWithdraw t b
  | 0x07 => s.takeRevertMsg t b
  | _ => s

/-- The record of a good header goes where its superframe number says (R221). The TIME record waits for the capture that
TIME_TRANSFER brings (R247). -/
def takeRecord (s : State) (d i : Nat) (h : Header) : State :=
  if h.sf = 0 then
    s.streamRecord d i (beAt h.record 0 3) (beAt h.record 3 2) (beAt h.record 5 4 % 2 ^ 31) (beAt h.record 9 1) h.mfc
  else if h.sf = 64 then (if h.mfc % 16 = 0 then s.skewRecord d h.record else s)
  else if h.sf = 128 then s
  else s.takeMsg (s.teamBase d) (beAt h.record 0 1) (h.record.drop 4)

/-- The header that the overhead symbols of an arm in frame carry, if its CRC holds (R219, R221). -/
def readHeader (s : State) (d i : Nat) (syms : List Vec2) : Option Header :=
  let a := s.rxArm d i
  Header.parse (packBytes (headerBits (1 / a.sigmaX) (1 / a.sigmaY) syms))

/-- A superframe header is received (R219 to R221, R230); without the sampling reference the read is suspended (R231). -/
def headerReceive (s : State) (d i : Nat) (syms : List Vec2) : State :=
  if s.align d i != 3 then s
  else if !s.flag CNV_STATUS_SCLK_LOCK d then s.suspendedFrame d i
  else
    match s.readHeader d i syms with
    | none => (s.count FRM_OH_ERR_COUNT d 1 i).countFrame d i none
    | some h =>
      (((s.countFrame d i (some (h.sf, h.mfc))).takeHeader d i h).announced (s.teamBase d) h.sf h.mfc h.epoch).takeRecord d i h

end State

/-! ### Rows -/

/-- Run an operation on the team of a die. -/
def runTeam (s : State) (d : Nat) (f : State → Nat → State) : Host.Outcome State Fault Refusal :=
  runDie s d fun s => f s (s.teamBase d)

/-- HEADER_RECEIVE (R221). Log entry 29 DESIGN CHOICE. -/
def execHeaderReceive (die sc : Fin 8) (syms : List Vec2) (s : State) : Host.Outcome State Fault Refusal :=
  runDie s die fun s => s.headerReceive die sc syms

/-- PROPOSE (R239). Log entry 77 DESIGN CHOICE. -/
def execPropose (team : Fin 8) (body : List Byte) (s : State) : Host.Outcome State Fault Refusal :=
  runTeam s team fun s t => s.takeHead t (State.headPropose body)

/-- PLAN_DATA (R236). Log entry 77 DESIGN CHOICE. -/
def execPlanData (team : Fin 8) (body : List Byte) (s : State) : Host.Outcome State Fault Refusal :=
  runTeam s team fun s t => s.takePlanData t body

/-- ACCEPT (R238). -/
def execAccept (team : Fin 8) (body : List Byte) (s : State) : Host.Outcome State Fault Refusal :=
  runTeam s team fun s t => s.takeAccept t body

/-- REJECT (R245). -/
def execReject (team : Fin 8) (body : List Byte) (s : State) : Host.Outcome State Fault Refusal :=
  runTeam s team fun s t => s.takeReject t body

/-- CONFIRM (R238). -/
def execConfirm (team : Fin 8) (body : List Byte) (s : State) : Host.Outcome State Fault Refusal :=
  runTeam s team fun s t => s.takeConfirm t body

/-- WITHDRAW (R240). -/
def execWithdraw (team : Fin 8) (body : List Byte) (s : State) : Host.Outcome State Fault Refusal :=
  runTeam s team fun s t => s.takeWithdraw t body

/-- PLAN_REVERT (R244). -/
def execPlanRevert (team : Fin 8) (body : List Byte) (s : State) : Host.Outcome State Fault Refusal :=
  runTeam s team fun s t => s.takeRevertMsg t body

/-- ACCEPTOR_GO_DEADLINE (R240). -/
def execAcceptorGoDeadline (team : Fin 8) (s : State) : Host.Outcome State Fault Refusal :=
  runTeam s team fun s t => s.acceptorDeadline t

/-- RX_PLAN_SWITCH (R242). -/
def execRxPlanSwitch (team : Fin 8) (s : State) : Host.Outcome State Fault Refusal :=
  runTeam s team fun s t => s.rxPlanSwitch t

/-- PLAN_DISAGREEMENT (R244). -/
def execPlanDisagreement (team : Fin 8) (s : State) : Host.Outcome State Fault Refusal :=
  runTeam s team fun s t => s.disagreement t

/-- HANDSHAKE_TIMEOUT (R244). -/
def execHandshakeTimeout (team : Fin 8) (s : State) : Host.Outcome State Fault Refusal :=
  runTeam s team fun s t => s.handshakeTimeout t

/-- ABSENCE_CHANGE_START (R33). -/
def execAbsenceChangeStart (team : Fin 8) (s : State) : Host.Outcome State Fault Refusal :=
  runTeam s team fun s t => s.startAbsence t

/-- PLAN_CHANGE_TX_SWITCH (R34, R244). -/
def execPlanChangeTxSwitch (team : Fin 8) (s : State) : Host.Outcome State Fault Refusal :=
  runTeam s team fun s t => s.changeSwitch t

end Sys2Proof.Machine
end

