-- ==== Sys2Proof/Machine/Image.lean ====
section
/-! DEFINITION. The structure image (spec/03, R74 to R86): the file's checks, distribution to the dies, flash commands, OTP and
the rollback counter. -/
namespace Sys2Proof.Machine
open Sys2Proof

/-! ### The file (R75 to R78, R306) -/

/-- The little-endian number of `n` bytes at byte `i`. -/
def leAt (bs : List Byte) (i n : Nat) : Nat := natLE ((bs.drop i).take n)

/-- A section table entry (R76). -/
structure Section where
  type   : Nat
  flags  : Nat
  offset : Nat
  length : Nat
  iv     : List Byte
  crc    : Nat
  aad    : List Byte
deriving DecidableEq, Repr

def Section.encrypted (x : Section) : Bool := bit x.flags 0
def Section.required (x : Section) : Bool := bit x.flags 1

/-- The sections an image names. -/
def imageSections (im : List Byte) : List Section :=
  (List.range (leAt im 6 2)).map fun k =>
    let e := (im.drop (128 + 32 * k)).take 32
    { type := leAt e 0 1, flags := leAt e 1 1, offset := leAt e 4 4, length := leAt e 8 4, iv := (e.drop 12).take 12
      crc := leAt e 24 4, aad := e.take 12 }

/-- IMAGE_LEN. -/
def imageLen (im : List Byte) : Nat := leAt im 8 4

/-- The bytes of a section as stored. -/
def sectionStored (im : List Byte) (x : Section) : List Byte := (im.drop x.offset).take x.length

/-- The bytes of a section in clear, under the image key. -/
def sectionClear (key : List Byte) (im : List Byte) (x : Section) : List Byte :=
  let st := sectionStored im x
  if x.encrypted then Crypto.gcmCtr key x.iv (st.take (x.length - 16)) else st

/-- The section of a type, in clear; empty when the image has none. Of several sections of one type the first counts (log entry
163 DESIGN CHOICE). -/
def sectionOf (key : List Byte) (im : List Byte) (type : Nat) : List Byte :=
  match (imageSections im).find? fun x => x.type == type with
  | some x => sectionClear key im x
  | none => []

/-- Check 1 of R81: header, table, bounds, required sections. -/
def headerOk (im : List Byte) : Bool :=
  let n := leAt im 6 2
  let len := imageLen im
  let xs := if n ≤ 64 then imageSections im else []
  decide (leAt im 0 4 = 0x494E5246 ∧ leAt im 4 2 = 1 ∧ 1 ≤ n ∧ n ≤ 64 ∧ len ≤ 8388608 ∧ 128 + 32 * n + 96 ≤ len) &&
  decide (leAt im 124 4 = crc32c (im.take 124 ++ (im.drop 128).take (32 * n))) &&
  xs.all (fun x => decide (x.offset % 64 = 0 ∧ 128 + 32 * n ≤ x.offset ∧ x.offset + x.length ≤ len - 96)) &&
  [1, 2, 3].all (fun t => (xs.filter fun x => x.type == t).length == 1) &&
  xs.all fun x => decide (1 ≤ x.type ∧ x.type ≤ 7) || !x.required

/-- A descriptor of the FIRMWARE section (R306). -/
structure Segment where
  target : Nat
  bank   : Nat
  offset : Nat
  length : Nat
  data   : Nat
  mask   : Nat
deriving DecidableEq, Repr

/-- The segments of a FIRMWARE section. -/
def segments (fw : List Byte) : List Segment :=
  (List.range (min 512 (leAt fw 0 4))).map fun k =>
    let e := (fw.drop (4 + 24 * k)).take 24
    { target := leAt e 0 1, bank := leAt e 2 2, offset := leAt e 4 4, length := leAt e 8 4, data := leAt e 12 4
      mask := leAt e 16 8 }

/-- Every descriptor lies within its ranges (R306). -/
def segmentsOk (fw : List Byte) : Bool :=
  decide (1 ≤ leAt fw 0 4 ∧ leAt fw 0 4 ≤ 512) &&
  (segments fw).all fun x =>
    decide (x.offset % 8 = 0 ∧ x.length % 8 = 0 ∧ x.data % 8 = 0 ∧ x.data + x.length ≤ fw.length) &&
    (match x.target with
      | 0 => decide (x.offset + x.length ≤ 65536)
      | 1 => decide (64 ≤ x.bank ∧ x.bank ≤ 255 ∧ x.offset + x.length ≤ 131072 ∧ x.mask = 0)
      | _ => false)

/-- PART_MASK bit of a part. -/
def Part.maskBit (p : Part) : Nat :=
  match p.size with
  | .d2 => 0
  | .d4 => 1
  | .d8 => 2

/-- OTP words as bytes, lowest word first. -/
def wordBytes (ws : List Nat) : List Byte := ws.flatMap (bytesLE 4)

namespace State

/-! ### Checks of R81 -/

/-- OTP of a die, and its image key (no bytes while blank). -/
def otpSt (s : State) (d : Nat) : OtpSt := s.otp.get {} (unitKey d 0)
def imageKey (s : State) (d : Nat) : List Byte := wordBytes ((s.otpSt d).imageKey.getD [])

/-- The image in a die's buffer, banks 0 to 63. -/
def imageBytes (s : State) (d : Nat) : List Byte :=
  let len := min 8388608 (natLE (s.memRead (bankBase d 0 + 8) 4))
  s.memRead (bankBase d 0) (max 128 len)

/-- The digest over the signed range (R77). -/
def imageDigest (im : List Byte) : List Byte := Crypto.sha384 (im.take (imageLen im - 96))

/-- The first check that an image misses on a die (R81), checks 1 to 8 with the descriptors of R306; `from6` leaves out the
checks before 6 (R85). -/
def imageFault (s : State) (d : Nat) (im : List Byte) (from6 : Bool) : Option Nat :=
  let o := s.otpSt d
  let key := s.imageKey d
  let pub := (im.drop 24).take 97
  let xs := imageSections im
  if !from6 && !headerOk im then some 1
  else if !from6 && !bit (leAt im 12 1) s.part.maskBit then some 2
  else if !from6 && decide (0x11 < leAt im 13 1) then some 3
  else if !from6 && decide (leAt im 14 1 < o.rollback) then some 4
  else if !from6 && (o.keyHash.elim false fun h => Crypto.sha384 pub != wordBytes h) then some 5
  else if xs.any fun x => crc32c (sectionStored im x) != x.crc then some 6
  else if !Crypto.ecdsaVerify pub (imageDigest im) ((im.drop (imageLen im - 96)).take 96) then some 7
  else if xs.any (fun x => x.encrypted && (o.imageKey.isNone ||
      Crypto.gcmTag key x.iv x.aad ((sectionStored im x).take (x.length - 16)) != (sectionStored im x).drop (x.length - 16))) then
    some 8
  else if !segmentsOk (sectionOf key im 3) then some 1
  else none

/-! ### Distribution (R82, R83, R85, R86) -/

/-- What a die keeps of the load. -/
def loadSt (s : State) (d : Nat) : LoadSt := s.load.get {} (unitKey d 0)
def modLoad (s : State) (d : Nat) (f : LoadSt → LoadSt) : State :=
  { s with load := s.load.set {} (unitKey d 0) (f (s.loadSt d)) }

/-- The dies that take part in a load at cold start: those that passed self-test and are not quarantined. -/
def loadDies (s : State) : List Nat := s.dieList.filter fun d => (s.die d).selfTest == some true && !s.quarantined d && !(s.die d).held

/-- Fill banks 0 to 63 of a die with zeros and valid check bits (R82). -/
def clearBuffer (s : State) (d : Nat) : State :=
  let lo := bankBase 0 0
  { s with
    mem := memClear s.mem (bankBase d 0) (bankBase d 64)
    wordErr := s.wordErr.keep fun k => !(k.inst == d && decide (lo ≤ k.idx ∧ k.idx < lo + 8388608)) }

/-- Start loading a copy: 1 update, 2 golden, 3 host buffer. Every die fills banks 0 to 63 with zeros (R82), but for the
crown's when the host buffer is the source (R83). -/
def beginCopy (s : State) (k : Nat) : State :=
  let s := { s with image := { s.image with trying := some k, reading := k != 3, results := [] } }
  s.forEach s.loadDies fun t d =>
    let t := if k = 3 ∧ t.crown.token = some d then t
      else t.clearBuffer d
    (t.modLoad d fun _ => {}).wr IMG_STATUS_STATE d 1

/-- No image runs: the endpoint stays in service (R81). Log entry 82 DEDUCED. -/
def noImage (s : State) : State :=
  let s := { s with image := { s.image with trying := none, reading := false, results := [] } }
  s.forEach s.loadDies fun t d => t.wr IMG_STATUS_STATE d 0

/-- The loader starts at a cold start, as SOURCE_SEL says (R81). -/
def startLoad (s : State) : State :=
  match s.rd IMG_LOAD_CTRL_SOURCE_SEL pkg with
  | 2 => s.beginCopy 2
  | 3 => s.noImage
  | _ => s.beginCopy 1

/-- The bytes of a chunk at the crown's source: the flash copy being read, or the crown's own buffer (R82, R83, R85). A copy and
the buffer end at 8 MiB, so the last chunk is short (R74). -/
def chunkData (s : State) (i : Nat) : List Byte :=
  let n := min 24 (8388608 - 24 * i)
  match s.image.trying with
  | some 1 => memBytes flashDefault s.flash (0x800000 + 24 * i) n
  | some 2 => memBytes flashDefault s.flash (24 * i) n
  | _ => s.memRead (bankBase (s.crown.token.getD 0) 0 + 24 * i) n

/-- Send a chunk to a die, or with 15 to all dies (R89). -/
def sendChunk (s : State) (dst i : Nat) : State :=
  let bs := s.chunkData i
  s.emit (.ring
    { type := 8, src := s.crown.token.getD 0, dst := dst
      payload := 0x10 * 2 ^ 216 + i % 2 ^ 24 * 2 ^ 192 + natBE (bs ++ List.replicate (24 - bs.length) 0) })

/-- A die receives a chunk (R82): it lies in the buffer, and the die is loading. The crown, as it reads the chunk, sends it to
every die. -/
def takeChunk (s : State) (d i : Nat) : State :=
  if (s.image.trying.isSome || s.image.resend.contains d) && decide (24 * i < 8388608) then
    let s := if s.crown.token == some d then s.sendChunk 15 i else s
    let s := s.memWrite (bankBase d 0 + 24 * i) (s.chunkData i)
    s.modLoad d fun x => { x with chunks := if x.chunks.contains i then x.chunks else x.chunks ++ [i] }
  else s

/-- The lowest chunk of the image that a die misses. -/
def missingChunk (s : State) (d : Nat) : Option Nat :=
  let n := (max 128 (min 8388608 (natLE (s.memRead (bankBase d 0 + 8) 4))) + 23) / 24
  (List.range n).find? fun i => !(s.loadSt d).chunks.contains i

/-- A die finishes receiving and runs its checks (R81, R82, R85); a missing chunk is asked for again. A die that starts
alone checks from check 6 and, passed, answers with its values. IMAGE_RESULT carries the reason, 0 for a pass, in the lowest 8
bits of CHUNK and the first 8 bytes of the digest at the top of the data bits. Log entry 163 DESIGN CHOICE. -/
def checkImage (s : State) (d : Nat) : State :=
  let alone := s.image.resend.contains d
  let own := s.crown.token == some d && s.image.trying == some 3
  if !(alone || s.image.trying.isSome) || (s.loadSt d).result.isSome then s
  else
    match if own then none else s.missingChunk d with
    | some i => s.emit (.ring { type := 8, src := d, dst := s.crown.token.getD 0, payload := 0x11 * 2 ^ 216 + i % 2 ^ 24 * 2 ^ 192 })
    | none =>
      let im := s.imageBytes d
      let dg := (imageDigest im).take 8
      let fault := match s.imageFault d im alone with
        | some r => some r
        | none => if alone && (natLE (dg.take 4), natLE (dg.drop 4)) != s.digest (s.crown.token.getD 0) then some 9 else none
      let s := s.modLoad d fun x => { x with result := some (fault.getD 0), digest := dg, rollback := leAt im 14 1 }
      let s := s.wr IMG_STATUS_STATE d 2
      let s := s.emit (.ring { type := 8, src := d, dst := s.crown.token.getD 0, payload := 0x12 * 2 ^ 216 + fault.getD 0 * 2 ^ 192 + natBE dg * 2 ^ 128 })
      match fault with
      | some r => s.wr IMG_STATUS_FAIL_REASON d r
      | none => s

/-- A die holds the image: its digest, rollback value and source show (R77, R81). -/
def markLoaded (s : State) (d source : Nat) : State :=
  let x := s.loadSt d
  let s := (s.wr IMG_DIGEST_LO_DIGEST d (natLE (x.digest.take 4))).wr IMG_DIGEST_HI_DIGEST d (natLE (x.digest.drop 4))
  let s := ((s.wr IMG_STATUS_ROLLBACK d x.rollback).wr IMG_STATUS_SOURCE d source).wr IMG_STATUS_STATE d 3
  let s := s.wrb IMG_STATUS_UNSECURED d (s.otpSt d).keyHash.isNone
  s.modDie d fun y => { y with loaded := true, starting := false }

/-- The copy that is being tried failed for a reason: its status, and the next copy that SOURCE_SEL allows (R81).
Log entry 82 DEDUCED. -/
def copyFailed (s : State) (reason : Nat) : State :=
  let k := s.image.trying.getD 0
  let s := s.forEach s.loadDies fun t d =>
    let t := t.wr IMG_STATUS_FAIL_REASON d reason
    if k = 1 then t.raise IMG_STATUS_UPDATE_FAIL d else if k = 2 then t.raise IMG_STATUS_GOLDEN_FAIL d else t
  if k = 1 ∧ s.rd IMG_LOAD_CTRL_SOURCE_SEL pkg = 0 then s.beginCopy 2 else s.noImage

/-- The crown receives a die's result (R81, R89): with every die's in hand the copy passes or fails, with the reason of the
first result received that is not a pass (log entry 163 DESIGN CHOICE). -/
def takeResult (s : State) (d : Nat) : State :=
  match (s.loadSt d).result with
  | none => s
  | some r =>
    if s.image.resend.contains d then if r = 0 then s.markLoaded d (s.rd IMG_STATUS_SOURCE (s.crown.token.getD 0)) else s
    else
      match s.image.trying with
      | none => s
      | some k =>
        let s := { s with image := { s.image with results := if s.image.results.any (fun x => x.1 == d) then s.image.results else s.image.results ++ [(d, r)] } }
        let ds := s.loadDies
        if !(ds.all fun e => s.image.results.any fun x => x.1 == e) then s
        else
          match s.image.results.find? fun x => x.2 != 0 with
          | some x => s.copyFailed x.2
          | none =>
            let dg := (s.loadSt (s.crown.token.getD 0)).digest
            if ds.all fun e => (s.loadSt e).digest == dg then
              let s := { s with image := { s.image with reading := false } }
              { (s.forEach ds fun t e => t.markLoaded e k) with crown := { s.crown with imageStarted := true } }.refreshCrown
            else s.copyFailed 9

/-- The crown sends a die its image again, with the active values of its staged fields and the epoch (R85). The die powers
its fabric and PLLs (R413) and reads joining (R37). Log entries 70 DEDUCED, 147 DEDUCED. -/
def resendDie (s : State) (d : Nat) : State :=
  let c := s.crown.token.getD 0
  if (s.die d).starting && !(s.die d).held && !s.parked d && !s.retiredDie d && (s.die d).selfTest == some true &&
      s.crown.token.isSome && s.crown.token != some d && (s.die c).loaded then
    let s := if s.domain d 1 = 0 then s else ((s.setDomain d 1 0).startPll d 1).startPll d 2
    let s := { s with image := { s.image with resend := if s.image.resend.contains d then s.image.resend else s.image.resend ++ [d] } }
    let buf := s.mem.filter fun x => decide (bankBase c 0 ≤ x.1 ∧ x.1 < bankBase c 64)
    let s := s.clearBuffer d
    let s := s.forEach buf fun t x => t.memWrite (x.1 - bankBase c 0 + bankBase d 0) [x.2]
    let n := (max 128 (min 8388608 (natLE (s.memRead (bankBase c 0 + 8) 4))) + 23) / 24
    let s := s.modLoad d fun _ => { chunks := List.range n }
    let mine := s.image.kept.keep fun k => k.inst == d
    let s := s.forEach mine fun t e => t.keyActivate e.1 e.2
    let s := { s with image := { s.image with kept := s.image.kept.keep fun k => k.inst != d } }
    let s := s.wr IMG_EPOCH_EPOCH d s.pkgEpoch
    let s := s.wr BUP_STATUS_STATE d 1
    if s.memberState d = 0 && !s.crown.imageStarted || s.quarantined d then s else s.setMember d 1
  else s

/-! ### Flash (R84) and OTP (R79, R80) -/

/-- A flash command: refused while the loader reads or a command runs, at an address of the wrong alignment, and for a
write of a locked golden copy. Log entry 75 PRESUMED. -/
def flashCommand (s : State) (cmd : Nat) : State :=
  let a := s.rd IMG_FLASH_ADDR_ADDRESS pkg
  let locked := match s.crown.token with
    | some c => decide (a < 0x800000) && ((s.otpSt c).goldenLock.getD 0 != 0)
    | none => false
  let unaligned := a % (if cmd = 3 then 65536 else 4) != 0
  if s.image.reading || s.flag IMG_FLASH_CMD_BUSY pkg || unaligned || (cmd != 1 && locked) then s.raise IMG_FLASH_CMD_ERR pkg
  else
    { s with image := { s.image with flashCmd := some (cmd, a, s.rd IMG_FLASH_DATA_DATA pkg) } }.wr IMG_FLASH_CMD_BUSY pkg 1

/-- A flash command completes. Programming clears bits and erasing sets them (PRESUMED, the flash is NOR: log entry 75). -/
def flashDone (s : State) (ok : Bool) : State :=
  match s.image.flashCmd with
  | none => s
  | some (cmd, a, v) =>
    let s := { s with image := { s.image with flashCmd := none } }.wr IMG_FLASH_CMD_BUSY pkg 0
    if !ok then s.raise IMG_FLASH_CMD_ERR pkg
    else
      match cmd with
      | 1 => s.wr IMG_FLASH_DATA_DATA pkg (natLE (memBytes flashDefault s.flash a 4))
      | 2 => { s with flash := memStore flashDefault s.flash a (bytesLE 4 (natLE (memBytes flashDefault s.flash a 4) &&& v)) }
      | _ => { s with flash := memClear s.flash a (a + 65536) }

/-- Words of an OTP item (R80). -/
def itemWords (item : Nat) : Nat := [12, 8, 1, 2].getD item 0

/-- The item is programmed on a die. Log entry 83 DEDUCED. -/
def itemProgrammed (s : State) (d item : Nat) : Bool :=
  let o := s.otpSt d
  match item with
  | 0 => o.keyHash.isSome
  | 1 => o.imageKey.isSome
  | 2 => o.goldenLock.isSome
  | _ => o.rollback != 0

/-- Clear the word counter. -/
def clearWords (s : State) : State := { s with image := { s.image with otpWords := [] } }.wr IMG_OTP_CTRL_WORDS pkg 0

/-- PROGRAM of an item (R80). Item 3 is programmed only through `IMG_ROLLBACK_ADV`. While another job programs fuses the
attempt is refused (log entry 163 DESIGN CHOICE). Log entry 83 DEDUCED. -/
def otpProgram (s : State) (item : Nat) : State :=
  let ws := s.image.otpWords
  let s := (s.wr IMG_OTP_CTRL_ITEM pkg item).clearWords
  if ws.length != itemWords item || item == 3 || s.image.otpJob.isSome || s.dieList.any fun d => s.itemProgrammed d item then
    s.raise IMG_OTP_CTRL_ERR pkg
  else { s with image := { s.image with otpJob := some (item, ws) } }

/-- ROLLBACK_ADV (R79): refused above the ROLLBACK of the running image and below the counter, and while another job programs
fuses. A ROLLBACK above 64 in an image is not refused, so the counter can pass its 64 fuses. Log entry 163 DESIGN CHOICE. -/
def rollbackAdvance (s : State) (v : Nat) : State :=
  let c := s.crown.token.getD 0
  if v > s.rd IMG_STATUS_ROLLBACK c || v < (s.otpSt c).rollback || s.image.otpJob.isSome then s.raise IMG_OTP_CTRL_ERR pkg
  else { s with image := { s.image with otpJob := some (3, [v]) } }

/-- Programming has completed on every die. -/
def otpDone (s : State) : State :=
  match s.image.otpJob with
  | none => s
  | some (item, ws) =>
    let s := { s with image := { s.image with otpJob := none } }.raise IMG_OTP_CTRL_DONE pkg
    s.forEach s.dieList fun t d =>
      let o := t.otpSt d
      let o := match item with
        | 0 => { o with keyHash := some ws }
        | 1 => { o with imageKey := some ws }
        | 2 => { o with goldenLock := some (ws.headD 0) }
        | _ => { o with rollback := ws.headD 0 }
      { t with otp := t.otp.set {} (unitKey d 0) o }

end State

/-! ### Rows -/

/-- IMAGE_CHUNK (R82). -/
def execImageChunk (die : Fin 8) (index : Nat) (s : State) : Host.Outcome State Fault Refusal :=
  runDie s die fun s => s.takeChunk die index

/-- IMAGE_RESEND (R82). -/
def execImageResend (die : Fin 8) (index : Nat) (s : State) : Host.Outcome State Fault Refusal :=
  runDie s die fun s => s.sendChunk die index

/-- IMAGE_CHECKS (R81). -/
def execImageChecks (die : Fin 8) (s : State) : Host.Outcome State Fault Refusal := runDie s die fun s => s.checkImage die

/-- IMAGE_RESULT (R89). -/
def execImageResult (die : Fin 8) (s : State) : Host.Outcome State Fault Refusal := runDie s die fun s => s.takeResult die

/-- IMG_LOAD_GO (R83): with the host buffer selected, or no image loaded and no load running. -/
def execImgLoadGo (s : State) : Host.Outcome State Fault Refusal :=
  run s fun s =>
    let c := s.crown.token.getD 0
    let s := s.respond 0
    if s.image.trying.isNone && s.rd IMG_STATUS_STATE c == 0 then s.beginCopy 3 else s

/-- FLASH_READ_WORD (R84). -/
def execFlashReadWord (s : State) : Host.Outcome State Fault Refusal := run s fun s => (s.flashCommand 1).respond 0

/-- FLASH_PROGRAM_WORD (R84). -/
def execFlashProgramWord (s : State) : Host.Outcome State Fault Refusal := run s fun s => (s.flashCommand 2).respond 0

/-- FLASH_ERASE_SECTOR (R84). -/
def execFlashEraseSector (s : State) : Host.Outcome State Fault Refusal := run s fun s => (s.flashCommand 3).respond 0

/-- FLASH_CMD_DONE (R84). -/
def execFlashCmdDone (ok : Bool) (s : State) : Host.Outcome State Fault Refusal := run s fun s => s.flashDone ok

/-- A word for an OTP item (R80): beyond 16 it is ignored. -/
def State.otpData (s : State) (v : Nat) : State :=
  let ws := s.image.otpWords
  if ws.length < 16 then
    { s with image := { s.image with otpWords := ws ++ [v] } }.wr IMG_OTP_CTRL_WORDS pkg (ws.length + 1)
  else s

/-- ITEM is written without PROGRAM (R80): a change clears the word counter. -/
def State.otpItem (s : State) (item : Nat) : State :=
  if s.rd IMG_OTP_CTRL_ITEM pkg = item then s else (s.wr IMG_OTP_CTRL_ITEM pkg item).clearWords

/-- OTP_DATA_WRITE (R80). -/
def execOtpDataWrite (data : Word) (s : State) : Host.Outcome State Fault Refusal :=
  run s fun s => (s.otpData data.toNat).respond 0

/-- OTP_ITEM_SELECT (R80). -/
def execOtpItemSelect (item : Fin 4) (s : State) : Host.Outcome State Fault Refusal := run s fun s => (s.otpItem item).respond 0

/-- OTP_PROGRAM (R80). -/
def execOtpProgram (item : Fin 4) (s : State) : Host.Outcome State Fault Refusal := run s fun s => (s.otpProgram item).respond 0

/-- OTP_PROGRAM_DONE (R80). -/
def execOtpProgramDone (s : State) : Host.Outcome State Fault Refusal := run s fun s => s.otpDone

/-- ROLLBACK_ADVANCE (R79). -/
def execRollbackAdvance (value : Fin 128) (s : State) : Host.Outcome State Fault Refusal :=
  run s fun s => (s.rollbackAdvance value).respond 0

/-- DIE_IMAGE_RESEND (R85). -/
def execDieImageResend (die : Fin 8) (s : State) : Host.Outcome State Fault Refusal := runDie s die fun s => s.resendDie die

/-- VALUES_TIMEOUT (R85): a die that still starts counts as missing from now on. -/
def execValuesTimeout (die : Fin 8) (s : State) : Host.Outcome State Fault Refusal :=
  runDie s die fun s => if (s.die die).starting then s.modDie die fun x => { x with valuesLate := true } else s

end Sys2Proof.Machine
end

