-- ==== Sys2Proof/Machine/Crown.lean ====
section
/-! DEFINITION. Resets and the cold start (spec/00, R13; spec/16, R410, R411; spec/17, R448 to R450), the crown die (spec/02,
R41 to R47, R460) and the ring messages around it. -/
namespace Sys2Proof.Machine
open Sys2Proof

namespace State

/-! ### Ring messages (R48) -/

/-- Send a ring message whose payload the spec does not lay out: its 224 bits are free (log entry 85). -/
def ringMsg (s : State) (type src dst : Nat) : State :=
  let x := s.free 224
  x.2.emit (.ring { type := type, src := src, dst := dst, payload := x.1 })

/-! ### Self-test and election (R410, R41) -/

/-- The package runs its start: POR is released, RESET_N and VDDIO are high (R448, R449, R450). -/
def started (s : State) : Bool := s.pins.porDone && !s.pins.waiting && !s.pins.ioLow

/-- A self-test passes: failed cells do not fail a die (R410). -/
def selfTestOk (r : SelfTestResult) : Bool := r.rootOk && r.ringOk && r.fabricOk && r.cluster0Ok && r.banksOk

/-- A die publishes its self-test result, with remap entries for its failed cells (R410, R72). -/
def selftest (s : State) (d : Nat) (r : SelfTestResult) : State :=
  if !s.started || (s.die d).held || (s.die d).selfTest.isSome then s
  else
    let s := s.forEach r.failed fun t c => (t.remapCell d c.type c.index).2
    let s := s.modDie d fun x => { x with selfTest := some (selfTestOk r) }
    if selfTestOk r then s.wr BUP_STATUS_STATE d 1 else s.emit (.fault d ⟨3, 0, codeSelftestFail, 0, Fin.ofNat 256 d, 0⟩)

/-- A die powers its fabric, its fabric and engine PLLs and its engine clusters (R411, step 4; R413).
Log entry 70 DEDUCED. -/
def powerFabric (s : State) (d : Nat) : State :=
  let s := ((s.setDomain d 1 0).startPll d 1).startPll d 2
  s.forEach (List.range 8) fun t c => t.wake d (domEngines c)

/-- Every die that is not held has published its result. -/
def resultsIn (s : State) : Bool := s.dieList.all fun d => (s.die d).held || (s.die d).selfTest.isSome

/-- The crown election of a cold start (R41, R411 steps 3 and 4). -/
def elect (s : State) : State :=
  if !s.started || s.crown.token.isSome || s.crown.failed.isSome || s.crown.nonePassed || s.crown.noCandidate ||
      s.crown.imageStarted || !s.resultsIn then s
  else
    let bad := s.dieList.filter fun d => (s.die d).selfTest == some false
    match s.dieList.find? fun d => s.nearEligible d with
    | none => { (s.forEach bad fun t d => t.quarantine d 1) with crown := { s.crown with nonePassed := true } }
    | some c =>
      let s := { s with crown := { s.crown with token := some c, elected := some c, endpoint := .service } }
      let s := s.forEach bad fun t d => t.quarantine d 1
      let s := s.forEach (s.dieList.filter fun d => (s.die d).selfTest == some true && !(s.die d).held) fun t d => t.powerFabric d
      s.refreshCrown.plmRestart.startLoad

/-! ### Takeover after a failure (R42, R45, R46, R460) -/

/-- What every die's summary is now becomes the crown's copy (R66). -/
def rebuildCopies (s : State) : State :=
  s.forEach s.dieList fun t d => t.modDie d fun x => { x with irqCopy := t.dieSummary d, ringCopy := t.ringLive d }

/-- The token moves: IS_CROWN follows it (R42). -/
def showToken (s : State) : State := s.forEach s.dieList fun t d => t.wrb PKG_DIE_STATUS_IS_CROWN d (t.crown.token == some d)

/-- A die may claim the free token: it is eligible, and it is no crown that has failed (R42, R45, R46). -/
def canClaim (s : State) (d : Nat) : Bool := s.eligible d && !s.crown.olds.contains d

/-- While the token is free after a failure: when no die is left that can claim it, no takeover is in progress any more and
FAULT_N is held (R67, R431). -/
def refreshCandidates (s : State) : State :=
  if s.crown.token.isNone && s.crown.failed.isSome && !s.crown.noCandidate && !s.dieList.any s.canClaim then
    { s with crown := { s.crown with noCandidate := true, endpoint := .off } }
  else s

/-- Steps 1 and 2 of R33 for a failed crown (R36): it stops transmitting, its neighbours' seams go own-only and its groups
leave the joint sums. Steps 3 to 5 wait for the new crown. -/
def crownDark (s : State) (d : Nat) : State :=
  let s := s.forEach (List.range 8) fun t i => (t.txStop d i false).rxStop d i false
  if s.memberState d = 1 ∨ s.memberState d = 2 then s.seamLeave d else s

/-- The crown stops: the token is free (R42). With no other eligible die none can claim it (R431). Package registers keep
their values (R44); a handover that waits for a transaction to close waits on, a handover that waits for the boundary alone
ends. Log entries 86 DEDUCED, 102 DEDUCED,
177 DESIGN CHOICE. -/
def crownFails (s : State) : State :=
  match s.crown.token with
  | none => s
  | some c =>
    let keep := s.flag PKG_CROWN_STATUS_HANDOVER_PENDING pkg
    let s := s.crownDark c
    let s := { s with
      crown := { s.crown with
        token := none, failed := some c, olds := s.crown.olds.filter (fun d => d != c) ++ [c], acks := []
        handover := if keep then s.crown.handover else none
        deferredReset := if keep then s.crown.deferredReset else none, round := false
        noCandidate := false, endpoint := .takeover }
      bus := { s.bus with running := none, waiting := [] } }
    s.refreshCandidates.showToken

/-- An eligible die finds the token free, takes it and claims (R45, step 3; R364). During image distribution it restarts the
load (R86). -/
def claimToken (s : State) (d : Nat) : State :=
  match s.crown.token, s.crown.failed with
  | none, some old =>
    if s.canClaim d && s.crown.endpoint == .takeover then
      let s := { s with crown := { s.crown with token := some d, acks := [], noCandidate := false } }
      let s := ((s.ringMsg 3 d 15).dpllTakeover old).showToken
      if s.crown.imageStarted then s else s.startLoad
    else s
  | _, _ => s

/-- A die acknowledges a claim (R45, step 4). -/
def takeClaim (s : State) (d : Nat) : State :=
  match s.crown.token with
  | some c => if s.crown.endpoint == .takeover && c != d then s.ringMsg 4 d c else s
  | none => s

/-- The claiming die receives an acknowledgement. -/
def takeClaimAck (s : State) (d : Nat) : State :=
  if s.crown.token.isSome && s.crown.token != some d && s.crown.endpoint == .takeover && !s.crown.acks.contains d then
    { s with crown := { s.crown with acks := s.crown.acks ++ [d] } }
  else s

/-- An old crown leaves its team (R45 step 6, R36): steps 3 to 5 of R33 are due. -/
def leaveOld (s : State) (d : Nat) : State :=
  if s.memberState d = 1 ∨ s.memberState d = 2 then s.modDie d fun x => { x with departed := true } else s

/-- The transaction that was open when the crown failed (R46): it stands when every die that takes part holds GO or has
switched; before M it aborts otherwise. -/
def takeoverTxn (s : State) : State :=
  if s.txn.isOpen && !s.txn.switched &&
      !(s.txn.members.all fun d => (s.die d).holdsGo || (s.die d).switched) then s.abortTxn reasonCrownChange
  else s

/-- Takeover is complete (R45 steps 5 and 6, R46). Log entries 84 DEDUCED, 86 DEDUCED, 94 DEDUCED. -/
def finishTakeover (s : State) : State :=
  match s.crown.token, s.crown.failed with
  | some _, some old =>
    let olds := s.crown.olds
    let s := { s with
      crown := { s.crown with failed := none, olds := [], endpoint := .service }
      bus := { s.bus with keptInband := none, keptPair := none, running := none, waiting := [] } }
    let s := s.takeoverTxn.forEach olds leaveOld
    let s := (s.raise PKG_CROWN_STATUS_TAKEOVER pkg).count PKG_CROWN_STATUS_TAKEOVER_COUNT pkg
    let s := s.logCrown (chipEvent codeTakeover old 0)
    s.refreshCrown.rebuildCopies.plmMoved
  | _, _ => s

/-- The token stays held with no heartbeat (R46). -/
def stick (s : State) : State :=
  match s.crown.token with
  | none => s
  | some c =>
    let s := { s with crown := { s.crown with stuck := true } }
    s.forEach (s.dieList.filter fun d => d != c) fun t d => t.raise PKG_DIE_STATUS_CROWN_STUCK d

/-! ### Die reset and planned handover (R13, R47) -/

/-- A die reset takes effect: the die leaves its team and starts again; a quarantined die begins a release attempt when
AUTO_RELEASE is 1 (R53). -/
def resetDie (s : State) (d : Nat) : State :=
  let s := ((s.memberAbort d).leaveTeam d).clearDie d
  let s := if s.quarantined d && s.flag PKG_QUAR_CTRL_AUTO_RELEASE pkg then s.startRelease d else s
  s.refreshCrown

/-- The die that receives the crown in a planned handover: TARGET, or the standby in its place (R47). -/
def handoverTarget (s : State) : Option Nat :=
  let t := s.rd PKG_CROWN_CTRL_TARGET pkg
  if t < s.dieCount ∧ s.crown.token ≠ some t ∧ s.eligible t then some t else s.standby

/-- A handover is refused (R47): the die reset that asked for it has no effect. -/
def refuseHandover (s : State) (reset : Bool) : State :=
  let s := { s with crown := { s.crown with handover := none, deferredReset := none } }
  let s := (s.raise PKG_CROWN_STATUS_HANDOVER_REFUSED pkg).wr PKG_CROWN_STATUS_HANDOVER_PENDING pkg 0
  if reset then s.refuseAccess else s

/-- A planned handover is asked for, by a write or by a die reset aimed at the crown (R47). -/
def askHandover (s : State) (reset : Bool) : State :=
  match s.crown.token, s.handoverTarget with
  | some c, some t =>
    let s := { s with crown := { s.crown with
      handover := some t, deferredReset := if reset then some c else s.crown.deferredReset } }
    (s.wrb PKG_CROWN_STATUS_HANDOVER_PENDING pkg s.txn.isOpen).respond 0
  | some _, none => (s.respond 0).refuseHandover reset
  | none, _ => s.respond 4

/-- The crown releases the token at a multiframe boundary and the target claims it at once; the target drives IRQ_N and
FAULT_N from the copied registers (R47, R460). It waits while a transaction is open. The access
that asked for a die reset has completed by then. Log entries 86 DEDUCED, 176 DEDUCED. -/
def releaseToken (s : State) : State :=
  match s.crown.token, s.crown.handover with
  | some _, some _ =>
    if s.txn.isOpen then s.wr PKG_CROWN_STATUS_HANDOVER_PENDING pkg 1
    else
      match s.handoverTarget with
      | none => s.refuseHandover s.crown.deferredReset.isSome
      | some t =>
        let s := { s with crown := { s.crown with token := some t, handover := none, endpoint := .handover, round := false } }
        ((s.wr PKG_CROWN_STATUS_HANDOVER_PENDING pkg 0).ringMsg 3 t 15).refreshCrown.rebuildCopies.plmMoved
  | _, _ => s

/-- The BUSY period of a planned handover ends; a die reset aimed at the old crown takes effect (R47).
Log entry 86 DEDUCED. -/
def finishHandover (s : State) : State :=
  if s.crown.endpoint == .handover then
    let back := s.crown.deferredReset
    let s := { s with crown := { s.crown with endpoint := .service, deferredReset := none } }
    let s := s.raise PKG_CROWN_STATUS_HANDOVER_DONE pkg
    match back with
    | some d => s.resetDie d
    | none => s
  else s

/-- A die reset command (R13): aimed at the crown it asks for a handover first. -/
def dieResetCommand (s : State) (d : Nat) : State :=
  if s.crown.token = some d then s.askHandover true else (s.resetDie d).respond 0

/-! ### Package reset (R13, R450) -/

/-- A package reset runs and the cold start begins, unless VDDIO or POR still hold the package. -/
def resetPackage (s : State) : State :=
  let s := s.clearPackage
  { s with pins := { s.pins with resetN := true, waiting := !s.pins.porDone } }

/-- A low pulse on RESET_N (R450): shorter than 100 ns ignored, of 1 µs or more a package reset, between them either. -/
def resetPulse (s : State) (ns : Nat) : State :=
  if ns < 100 then s
  else if 1000 ≤ ns then s.resetPackage
  else
    let x := s.freeBool
    if x.1 then x.2.resetPackage else x.2

/-! ### A lost member (R33, R429) -/

/-- The crown declares a die absent. During base camp its slice is absent from epoch 0, and when it was the cairn die the
next one starts with an empty peer table (R429). -/
def declareLost (s : State) (d : Nat) : State :=
  if (s.die d).departed then
    let t := s.teamBase d
    let s := s.memberLost d
    if (s.team t).baseCamp then
      let s := s.modDie d fun x => { x with absenceDue := false }
      if ((s.teamDies t).filter s.present).all fun e => decide (d < e) then
        ((s.wr BUP_CAIRN_STATUS_STATE d 0).modCairn d fun _ => {}).startDiscovery t
      else s
    else s
  else s

end State

/-! ### Rows -/

/-- POWER_ON_RESET (R13, R449). -/
def execPowerOnReset (s : State) : Host.Outcome State Fault Refusal := run s fun s => s.clearAll

/-- POR_RELEASE (R448): every rail is up, and the cold start begins when RESET_N is high. -/
def execPorRelease (resetN : Bool) (s : State) : Host.Outcome State Fault Refusal :=
  run s fun s =>
    if s.pins.porDone then s
    else { s with pins := { s.pins with porDone := true, resetN := resetN, waiting := !resetN, low := 0, ioLow := false } }

/-- RESET_N_PULSE (R450). -/
def execResetNPulse (ns : Nat) (s : State) : Host.Outcome State Fault Refusal := run s fun s => s.resetPulse ns

/-- PACKAGE_RESET (R13). -/
def execPackageReset (s : State) : Host.Outcome State Fault Refusal := run s fun s => s.resetPackage.respond 0

/-- DIE_RESET (R13, R47). -/
def execDieReset (die : Fin 8) (_byCrown : Bool) (s : State) : Host.Outcome State Fault Refusal :=
  runDie s die fun s => s.dieResetCommand die

/-- SELFTEST (R410). -/
def execSelftest (die : Fin 8) (result : SelfTestResult) (s : State) : Host.Outcome State Fault Refusal :=
  runDie s die fun s => s.selftest die result

/-- CROWN_ELECTION (R41). -/
def execCrownElection (s : State) : Host.Outcome State Fault Refusal := run s fun s => s.elect

/-- CROWN_WATCHDOG_EXPIRY (R42). -/
def execCrownWatchdogExpiry (s : State) : Host.Outcome State Fault Refusal := run s fun s => s.crownFails

/-- CROWN_CLAIM (R45). -/
def execCrownClaim (die : Fin 8) (s : State) : Host.Outcome State Fault Refusal := runDie s die fun s => s.claimToken die

/-- CLAIM (R45). -/
def execClaim (die : Fin 8) (s : State) : Host.Outcome State Fault Refusal := runDie s die fun s => s.takeClaim die

/-- CLAIM_ACK (R45). -/
def execClaimAck (die : Fin 8) (s : State) : Host.Outcome State Fault Refusal := runDie s die fun s => s.takeClaimAck die

/-- TAKEOVER_COMPLETE (R45). -/
def execTakeoverComplete (s : State) : Host.Outcome State Fault Refusal := run s fun s => s.finishTakeover

/-- CROWN_STUCK (R46). -/
def execCrownStuck (s : State) : Host.Outcome State Fault Refusal := run s fun s => s.stick

/-- HANDOVER (R47): a write stores TARGET and asks; a die reset aimed at the crown asks. -/
def execHandover (req : HandoverReq) (s : State) : Host.Outcome State Fault Refusal :=
  run s fun s =>
    match req with
    | .write target => (s.wr PKG_CROWN_CTRL_TARGET pkg target).askHandover false
    | .dieReset => s.askHandover true

/-- HANDOVER_RELEASE (R47). -/
def execHandoverRelease (s : State) : Host.Outcome State Fault Refusal := run s fun s => s.releaseToken

/-- HANDOVER_COMPLETE (R47). -/
def execHandoverComplete (s : State) : Host.Outcome State Fault Refusal := run s fun s => s.finishHandover

/-- The die that a ring message to the crown is addressed to: the crown, or all dies while there is none. -/
def State.crownDst (s : State) : Nat := s.crown.token.getD 15

/-- IRQ_SUM (R48, R66): the die sends its summary on the ring, and it reaches the crown. -/
def execIrqSum (die : Fin 8) (s : State) : Host.Outcome State Fault Refusal :=
  runDie s die fun s =>
    (s.ringMsg 7 die s.crownDst).modDie die fun x => { x with irqCopy := s.dieSummary die, ringCopy := s.ringLive die }

/-- FAULT (R48): the die sends its report on the ring, and it reaches the crown's fault log. -/
def execFault (_die : Fin 8) (rec : FaultRec) (s : State) : Host.Outcome State Fault Refusal :=
  runDie s _die fun s => (s.ringMsg 9 _die s.crownDst).logCrown rec

/-- RING_MESSAGE_DISCARD (R48, R49): a frame that fails its CHECK is discarded and counted; one that passes it is a message
of its TYPE's row and changes nothing here. -/
def execRingMessageDiscard (die : Fin 8) (cw : RingFrame) (s : State) : Host.Outcome State Fault Refusal :=
  runDie s die fun s =>
    if (ringParse cw.frame).isSome then s
    else
      (if cw.cw then s.count RING_DISCARD_CW_COUNT die else s.count RING_DISCARD_CCW_COUNT die).raise RING_EVENT_DISCARD die

/-- MEMBER_LOST_DECLARE (R33, R459). -/
def execMemberLostDeclare (die : Fin 8) (s : State) : Host.Outcome State Fault Refusal :=
  runDie s die fun s => s.declareLost die

end Sys2Proof.Machine
end

