-- ==== Sys2Proof/Machine/Park.lean ====
section
/-! DEFINITION. Parked dies (spec/12, R348) and package root state (R349). -/
namespace Sys2Proof.Machine
open Sys2Proof

namespace State

/-- A flow of home die `d` holds slots on another die. -/
def slotsElsewhere (s : State) (d : Nat) : Bool :=
  (s.dieList.filter fun e => e != d).any fun e =>
    (List.range 192).any fun k => s.flag FLW_TX_SLOT_VALID e k && s.rd FLW_TX_SLOT_DIE e k == d

/-- The die goes down to its root domain: every unit is disabled, every other domain is off and the PLLs stop. Its member
state reads 0 (R348). Log entry 97 DEDUCED. -/
def goDown (s : State) (d : Nat) : State :=
  let s := (s.keepValues d).stopUnits d 5
  let s := s.modPwr d fun x => { temp := x.temp }
  let s := s.forEach ((List.range 57).map fun k => k + 1) fun t k => t.setDomain d k 2
  let s := ((s.refDieLost d).stopPlls d).wr PWR_STATUS_PARKED d 1
  (s.setMember d 0).modDie d fun x => { x with departed := false, absenceDue := false, rejoinReq := false, missRun := 0 }

/-- PARK (R348). Log entry 97 DEDUCED. -/
def park (s : State) (d : Nat) : State :=
  if s.parked d then s.respond 0
  else if s.crown.token = some d ∨ 2 ≤ s.teamSize d ∨ s.slotsElsewhere d then (s.raise PWR_EVENT_PARK_REFUSED d).respond 0
  else
    let s := (s.memberAbort d).goDown d
    let t := s.teamBase d
    let s := s.modTeam t fun x => { x with baseCamp := false, rebase := false, change := none, sending := [] }
    (s.refreshCrown.showEstimate).respond 0

/-- UNPARK: the die powers up and starts as after a die reset (R348, R85). Package root state is left only by WAKE, RESET_N
or POR (R349). Log entries 96 DEDUCED, 118 DEDUCED. -/
def unpark (s : State) (d : Nat) : State :=
  if s.parked d && !s.rootState then
    let s := (s.wr PWR_STATUS_PARKED d 0).clearDie d
    ((s.modDie d fun x => { x with held := false, unparked := decide (s.teamSize d = 1) }).refreshCrown).respond 0
  else s.respond 0

/-- Every die parks, the crown last; the crown keeps its token and serves its endpoint from its root domain (R349). -/
def sleepAll (s : State) : State :=
  match s.crown.token with
  | none => s
  | some c =>
    let s := s.forEach ((s.dieList.filter fun d => d != c && !s.parked d && !(s.die d).held) ++ [c]) fun t d => t.goDown d
    let s := s.forEach s.teamBases fun u t =>
      u.modTeam t fun x => { x with baseCamp := false, rebase := false, change := none, sending := [] }
    let s := { s with crown := { s.crown with sleepDue := false, handover := none, deferredReset := none } }
    (s.wr PKG_CROWN_STATUS_HANDOVER_PENDING pkg 0).refreshCrown.showEstimate

/-- SLEEP: the crown waits for an open transaction to close (R349). -/
def sleepCommand (s : State) : State :=
  match s.crown.token with
  | none => s.refuseAccess
  | some _ =>
    if s.txn.isOpen then { s with crown := { s.crown with sleepDue := true } }.respond 0
    else (if s.rootState then s else s.sleepAll).respond 0

/-- A waiting SLEEP takes effect once no transaction is open. Log entry 95 DEDUCED. -/
def sleepWhenClosed (s : State) : State := if s.crown.sleepDue && !s.txn.isOpen then s.sleepAll else s

/-- WAKE: leaving package root state acts as a package reset (R349). Log entry 96 DEDUCED. -/
def wakeCommand (s : State) : State := if s.rootState then s.resetPackage.respond 0 else s.respond 0

end State

/-! ### Rows -/

/-- PARK (R348). -/
def execPark (die : Fin 8) (s : State) : Host.Outcome State Fault Refusal := runDie s die fun s => s.park die

/-- UNPARK (R348). -/
def execUnpark (die : Fin 8) (s : State) : Host.Outcome State Fault Refusal := runDie s die fun s => s.unpark die

/-- PKG_SLEEP (R349). -/
def execPkgSleep (s : State) : Host.Outcome State Fault Refusal := run s fun s => s.sleepCommand

/-- PKG_WAKE (R349). -/
def execPkgWake (s : State) : Host.Outcome State Fault Refusal := run s fun s => s.wakeCommand

end Sys2Proof.Machine
end

