-- ==== Sys2Proof/Machine/Enables.lean ====
section
/-! DEFINITION. What each block does with the enable of one of its units under the disable rule (spec/03, R98 to R101; R115,
R163, R187, R212, R275, R301, R329, R392, R408). Units by block slot: converters 0 to 3 ADC and 4 to 7 DAC; arms by
subcarrier; clusters; flow directions 2f transmit and 2f + 1 receive; check units; lane groups; engines 0 to 63 and DMA
channels from 64; the sequencer; watch channels; the modem. -/
namespace Sys2Proof.Machine
open Sys2Proof

namespace State

/-! ### Converters (R115) -/

/-- The enable field of a converter unit. -/
def cnvEnable (u : Nat) : Fld := if u < 4 then CNV_CTRL_ADC_EN else CNV_CTRL_DAC_EN

/-- Enable or disable a converter; `work` is the word it holds, 0 or 1. -/
def converter (s : State) (d u : Nat) (on : Bool) (work now : Nat) : State :=
  let was := bit (s.rd (cnvEnable u) d) (u % 4)
  let s := s.wrBit (cnvEnable u) d (u % 4) on
  let s := if on && !was then s.enableUnit d 2 u else if !on && was then s.disableUnit d 2 u work now else s
  s.converterDomains d

/-! ### Flow directions (R275) -/

/-- The enable of a flow direction changes; in ABORT it discards its blocks. -/
def flowEnable (s : State) (d u : Nat) (on : Bool) (now : Nat) : State :=
  let f := if u % 2 = 0 then FLW_CFG_TX_EN else FLW_CFG_RX_EN
  let s := s.wrb f d on (u / 2)
  if on then s.enableUnit d 10 u
  else
    let s := s.disableUnit d 10 u (s.flowHeld d u) now
    if s.disAbort d 10 then s.flowDrop d u else s

/-! ### Engines and DMA channels (R329) -/

/-- An engine stops; `work` accesses are queued. In DRAIN it halts when they have completed. -/
def engineStop (s : State) (d e work now : Nat) : State :=
  let s := s.wrBit ENG_RUN_RUN d (e % 32) false (e / 32)
  if s.disAbort d 14 then (s.abortUnit d 14 e work).haltEng d e 1
  else
    let s := s.drainUnit d 14 e work now
    if work = 0 then s.haltEng d e 1 else s.wr ENG_STATUS_STATE d 2 e

/-- The RUN bit of an engine changes. Log entry 98 DEDUCED. -/
def engineRun (s : State) (d e : Nat) (on : Bool) (work now : Nat) : State :=
  let was := bit (s.rd ENG_RUN_RUN d (e / 32)) (e % 32)
  if on && !was then
    let s := (s.wrBit ENG_RUN_RUN d (e % 32) true (e / 32)).enableUnit d 14 e
    if (s.unit d 14 e).draining then s else s.startEng d e
  else if !on && was then
    if s.engRuns d e then s.engineStop d e work now else s.wrBit ENG_RUN_RUN d (e % 32) false (e / 32)
  else s

/-- The enable of a DMA channel changes; in ABORT the rest of its queue is discarded. In DRAIN it completes the row in hand and
holds the rest.
Log entries 98 DEDUCED, 142 DEDUCED. -/
def channelEnable (s : State) (d c : Nat) (on : Bool) (now : Nat) : State :=
  let was := bit (s.rd ENG_CTRL_DMA_EN d) c
  let s := s.wrBit ENG_CTRL_DMA_EN d c on
  if on && !was then s.enableUnit d 14 (64 + c)
  else if !on && was then
    if s.disAbort d 14 then (s.abortUnit d 14 (64 + c) (s.heldNow d 14 (64 + c) 0)).modChannel d c fun _ => []
    else s.drainUnit d 14 (64 + c) (b2n (s.heldNow d 14 (64 + c) 0 != 0)) now
  else s

/-! ### Clearing an enable -/

/-- The enable of a unit goes to 0, in the mode of its block. `work` is what the unit holds where the model does not hold
it itself. -/
def clearEnable (s : State) (d b u work now : Nat) : State :=
  match b with
  | 2 => if u < 8 then s.converter d u false work now else s
  | 4 =>
    if u < 8 then
      let s := (s.disableUnit d 4 u work now).wrBit RXD_CTRL_SC_EN d u false
      if s.rxState d u = 0 ∨ s.rxState d u = 5 ∨ (s.unit d 4 u).draining then s else s.rxStop d u true
    else s
  | 5 =>
    if u < 8 then
      let s := (s.disableUnit d 5 u work now).wrBit TXD_CTRL_SC_EN d u false
      if s.txState d u = 0 ∨ s.txState d u = 4 then s else s.txStop d u true
    else s
  | 7 => if u < 8 then s.clusterEnables d (setBit (s.rd FEC_CTRL_CLUSTER_EN d) u false) now else s
  | 10 => if u < 1024 then s.flowEnable d u false now else s
  | 12 => if u < 64 then s.crcOff d u now else s
  | 13 => if u < 8 then (if s.flag HLN_GRP_CFG_EN d u then s.grpOff d u now else s) else s
  | 14 =>
    if u < 64 then s.engineRun d u false work now
    else if u < 72 then s.channelEnable d (u - 64) false now
    else s
  | 20 => if u = 0 then s.seqOff d now else s
  | 21 => if u < 16 then s.wchOff d u work now else s
  | 22 => if u = 0 ∧ s.crown.token = some d then s.plmEnable false else s
  | _ => s

/-- A unit that drained reports idle. -/
def drained (s : State) (d b u : Nat) : State :=
  let x := s.unit (disInst d b) b u
  let s := s.unitIdle (disInst d b) b u
  if !x.draining then s
  else
    match b with
    | 4 =>
      if u < 8 then
        let s := s.rxStop d u true
        if x.reenable then s.rxUp d u else s
      else s
    | 14 =>
      if u < 64 then
        let s := s.haltEng d u 1
        if x.reenable then s.startEng d u else s
      else s
    | _ => s

/-- The drain of a unit ends at its limit, or by a change of the mode: what it still holds, `given` where the model does not
hold it, is discarded (R98, R101). -/
def cutDrain (s : State) (d b u given : Nat) (timeout : Bool) : State :=
  let i := disInst d b
  let x := s.unit i b u
  if x.draining then (s.drainCut i b u (s.heldNow d b u given) timeout).dropHeld d b u x.reenable else s

/-- The draining units of a block that a test picks, each with what the row gives for all of them: the first takes it.
Without one, the work that a unit held when its drain began. Log entry 9 DESIGN CHOICE. -/
def cutDrains (s : State) (d b : Nat) (given : Option Nat) (timeout : Bool) (p : UnitSt → Bool) : State :=
  s.forEach (((s.blockUnits (disInst d b) b).filter fun e => e.2.draining && p e.2).zipIdx) fun t e =>
    t.cutDrain d b e.1.1.idx (match given with | some n => if e.2 = 0 then n else 0 | none => e.1.2.work) timeout

/-- MODE of a block is written (R101): ABORT discards what the draining units still hold; DRAIN leaves a disable in progress
as it is. -/
def setDisMode (s : State) (d b : Nat) (abort : Bool) (given : Option Nat) : State :=
  let s := s.wrb BLK_DIS_CTRL_MODE (disInst d b) abort b
  if abort then s.cutDrains d b given false fun _ => true else s

/-- LIMIT of a block is written (R101): 0 is stored as 1, and a drain that has lasted as long at time `now` times out. -/
def setDisLimit (s : State) (d b limit now : Nat) (given : Option Nat) : State :=
  let l := max 1 limit
  (s.wr BLK_DIS_CTRL_LIMIT (disInst d b) l b).cutDrains d b given true fun x => decide (x.since + l ≤ now)

/-! ### Block resets (R15) -/

/-- A block reset is asked for (R15): the disable rule of the block's mode is applied to its work in flight first, `work` of
which lies in units that the model does not hold. -/
def requestBlockReset (s : State) (d b work now : Nat) : State :=
  let i := disInst d b
  let held := s.heldUnits d b
  let held := if work = 0 then held else if held.isEmpty then [(0, work)] else held
  if held.isEmpty && s.blockIdle i b then s.blockReset d b
  else if s.disAbort i b then
    let s := s.forEach held fun t x => (t.abortUnit i b x.1 x.2).dropHeld d b x.1 false
    (s.cutDrains d b none false fun _ => true).blockReset d b
  else
    let s := s.forEach held fun t x => if (t.unit i b x.1).draining then t else t.drainUnit i b x.1 x.2 now
    { s with blkRst := s.blkRst.put (unitKey d b) true }

end State

/-! ### Rows -/

/-- ENABLE_CLEAR_DRAIN (R98): it acts while the block's mode is DRAIN. -/
def execEnableClearDrain (die : Fin 8) (blk : Fin 26) (unit work now : Nat) (s : State) :
    Host.Outcome State Fault Refusal :=
  runDie s die fun s => if s.disAbort (disInst die blk) blk then s else s.clearEnable die blk unit work now

/-- ENABLE_CLEAR_ABORT (R99): it acts while the block's mode is ABORT. -/
def execEnableClearAbort (die : Fin 8) (blk : Fin 26) (unit work : Nat) (s : State) :
    Host.Outcome State Fault Refusal :=
  runDie s die fun s => if s.disAbort (disInst die blk) blk then s.clearEnable die blk unit work 0 else s

/-- DRAIN_IDLE (R98). -/
def execDrainIdle (die : Fin 8) (blk : Fin 26) (unit : Nat) (s : State) : Host.Outcome State Fault Refusal :=
  runDie s die fun s => s.drained die blk unit

/-- DRAIN_TIMEOUT (R98). Log entry 90 DESIGN CHOICE. -/
def execDrainTimeout (die : Fin 8) (blk : Fin 26) (unit left : Nat) (s : State) : Host.Outcome State Fault Refusal :=
  runDie s die fun s => s.cutDrain die blk unit left true

/-- DIS_MODE_WRITE (R101). -/
def execDisModeWrite (die : Fin 8) (blk : Fin 26) (abort : Bool) (left : Nat) (s : State) :
    Host.Outcome State Fault Refusal :=
  runDie s die fun s => s.setDisMode die blk abort (some left)

/-- DIS_LIMIT_WRITE (R101). -/
def execDisLimitWrite (die : Fin 8) (blk : Fin 26) (limit : Fin 65536) (now left : Nat) (s : State) :
    Host.Outcome State Fault Refusal :=
  runDie s die fun s => s.setDisLimit die blk limit now (some left)

/-- BLOCK_RESET (R15). -/
def execBlockReset (die : Fin 8) (blk : Fin 26) (work now : Nat) (s : State) : Host.Outcome State Fault Refusal :=
  runDie s die fun s => s.requestBlockReset die blk work now

/-- BLOCK_RESET_EFFECT (R15): the block reports idle, or the drain limit expires and the rest is discarded. -/
def execBlockResetEffect (die : Fin 8) (blk : Fin 26) (s : State) : Host.Outcome State Fault Refusal :=
  runDie s die fun s =>
    if (s.blkRst.find (unitKey die blk)).isSome then (s.cutDrains die blk none true fun _ => true).blockReset die blk else s

end Sys2Proof.Machine
end

