-- ==== Sys2Proof/Machine/Manager.lean ====
section
/-! DEFINITION. The package power manager (spec/12, R340 to R347, R350): windows, grow, shrink, sleep and wake steps, the
envelope and temperature, shedding and restoring. -/
namespace Sys2Proof.Machine
open Sys2Proof

namespace State

/-! ### What the manager keeps -/

/-- The manager's record of a team, or of the package at instance 8. -/
def mgrSt (s : State) (t : Nat) : MgrSt := s.mgr.get {} (unitKey t 0)
def modMgr (s : State) (t : Nat) (f : MgrSt → MgrSt) : State :=
  { s with mgr := s.mgr.set {} (unitKey t 0) (f (s.mgrSt t)) }

/-- The manager's record of a flow at its home die. -/
def flowPwrSt (s : State) (d f : Nat) : FlowPwr := s.flowPwr.get {} (unitKey d f)
def modFlowPwr (s : State) (d f : Nat) (g : FlowPwr → FlowPwr) : State :=
  { s with flowPwr := s.flowPwr.set {} (unitKey d f) (g (s.flowPwrSt d f)) }

/-- The die whose `PWR_EVENT` shows package-level events: the crown. -/
def mgrDie (s : State) : Nat := s.crown.token.getD 0

/-! ### Slots -/

/-- The transmit slots of a flow on the dies of a team, as die and table entry. -/
def flowSlots (s : State) (t d f : Nat) : List (Nat × Nat) :=
  (s.teamDies t).flatMap fun e => (List.range 192).filterMap fun k =>
    if s.flag FLW_TX_SLOT_VALID e k && s.rd FLW_TX_SLOT_DIE e k == d && s.rd FLW_TX_SLOT_FLOW e k == f then some (e, k) else none

/-- A subcarrier is in service at this end: active and tracking. -/
def inService (s : State) (e i : Nat) : Bool := s.isActive e && s.txOn e i && s.rxOn e i && s.rxState e i == 3

/-- The slots of a subcarrier that no flow holds. -/
def freeOn (s : State) (e i : Nat) : List (Nat × Nat) :=
  ((List.range (s.pendSlots e i)).map fun j => (e, 24 * i + j)).filter fun x => !s.flag FLW_TX_SLOT_VALID x.1 x.2

/-- The free slots of a team (R341). -/
def freeSlots (s : State) (t : Nat) : List (Nat × Nat) :=
  (s.teamDies t).flatMap fun e => (List.range 8).flatMap fun i => if s.inService e i then s.freeOn e i else []

/-- Distance of two dies. -/
def dieGap (a b : Nat) : Nat := (a - b) + (b - a)

/-- Free slots that a flow may take, its home die first, then the dies nearest it; an express flow's lie on its home die
(R249, R341). -/
def freeFor (s : State) (t d f : Nat) : List (Nat × Nat) :=
  let express := s.flag FLW_CFG_CLASS d f
  let ok := (s.freeSlots t).filter fun x => s.flag TXD_SC_CFG_CLASS x.1 (x.2 / 24) == express && (!express || x.1 == d)
  (List.range 8).flatMap fun g => ok.filter fun x => dieGap x.1 d == g

/-- Stage one entry of a transmit slot table for a flow, or clear it. -/
def stageSlot (s : State) (e k d f : Nat) (v : Bool) : State :=
  let s := s.stage FLW_TX_SLOT_VALID e (b2n v) k
  if v then (s.stage FLW_TX_SLOT_DIE e d k).stage FLW_TX_SLOT_FLOW e f k else s

/-- The bridges carry the plan with further slots of a flow (R26). -/
def bridgesTake (s : State) (d : Nat) (xs : List (Nat × Nat)) : Bool :=
  let more := xs.map fun x => (d, x.1)
  s.bridgesOk (s.txTraffic ++ s.rxTraffic none ++ more ++ more.map fun x => (x.2, x.1))

/-- The first `n` slots of a list that stay within the bridge budget (R341). -/
def takeSlots (s : State) (d n : Nat) (xs : List (Nat × Nat)) : List (Nat × Nat) :=
  xs.foldl (fun a x => if a.length < n && (x.1 == d || s.bridgesTake d (a ++ [x])) then a ++ [x] else a) []

/-! ### Steps as transactions (R340) -/

/-- The manager commits what it has staged for some teams in one transaction, and their step is open. -/
def openSteps (s : State) (ts : List Nat) (k : MgrStep) : State :=
  let s := (s.forEach ts fun u t => u.modMgr t fun x => { x with step := some k }).wr PKG_PWR_STATUS_IDLE pkg 0
  s.openTxn false (max 2 (s.rd IMG_TXN_CTRL_LEAD pkg))

/-- The manager commits what it has staged for a team and the step is open. -/
def openStep (s : State) (t : Nat) (k : MgrStep) : State := s.openSteps [t] k

/-- Close the steps whose transaction has closed: what was shed or restored is marked, a wake then waits for its arm, a
refusal for power shows (R345 to R347, R350). Log entry 91 DEDUCED. -/
def closeSteps (s : State) : State :=
  if s.txn.isOpen then s
  else
    let s := s.forEach s.teamBases fun u t =>
      match (u.mgrSt t).step with
      | none => u
      | some k =>
        let done := u.rd IMG_TXN_STATUS_RESULT pkg == 1
        let u := u.modMgr t fun x =>
          { x with step := none, waking := match k with
            | .wake d i => if done then some (d, i) else x.waking
            | _ => x.waking }
        let u := if !done && u.rd IMG_TXN_STATUS_REASON pkg == reasonPower then u.raise PWR_EVENT_REFUSED u.mgrDie else u
        let fs := (u.flowPwr.keep fun y => u.teamBase y.inst == t).filter fun e => e.2.held != 0
        u.forEach fs fun v e =>
          let d := e.1.inst
          let f := e.1.idx
          let none_ := (v.flowSlots t d f).isEmpty
          if !v.flag PWR_FLOW_SHED d f then
            if done && none_ then (v.wr PWR_FLOW_SHED d 1 f).raise PWR_EVENT_SHED v.mgrDie
            else v.modFlowPwr d f fun x => { x with held := 0 }
          else if done && !none_ then
            let rank := v.rd PWR_FLOW_SHED_RANK d f
            let w := ((v.wr PWR_FLOW_SHED d 0 f).modFlowPwr d f fun x => { x with held := 0 }).raise PWR_EVENT_RESTORED v.mgrDie
            if w.dieList.any fun e => (List.range 512).any fun g => w.flag PWR_FLOW_SHED e g && w.rd PWR_FLOW_SHED_RANK e g == rank then w
            else w.modMgr pkg fun x => { x with since := 0 }
          else v
    s.wrb PKG_PWR_STATUS_IDLE pkg (s.teamBases.all fun t => (s.mgrSt t).step.isNone)

/-! ### Temperature (R346, R350) -/

/-- The highest die temperature as the crown has it, in 0.125 °C (R376). -/
def temperature (s : State) : Int := s.dieList.foldl (fun m d => max m (s.pwrSt d).temp) (s.pwrSt 0).temp

/-- Ranked flows of a team that still carry: home die, flow, rank. -/
def ranked (s : State) (t : Nat) : List (Nat × Nat × Nat) :=
  (s.teamDies t).flatMap fun d => (List.range 512).filterMap fun f =>
    let r := s.rd PWR_FLOW_SHED_RANK d f
    if r != 0 && !(s.flowSlots t d f).isEmpty then some (d, f, r) else none

/-- Stage the removal of every slot of some flows, and commit it in one transaction (R346). -/
def shedFlows (s : State) (fs : List (Nat × Nat × Nat)) : State :=
  let s := s.forEach fs fun u x =>
    let xs := u.flowSlots (u.teamBase x.1) x.1 x.2.1
    let u := u.modFlowPwr x.1 x.2.1 fun y => { y with held := xs.length }
    u.forEach xs fun v y => v.stageSlot y.1 y.2 0 0 false
  let ts := s.teamBases.filter fun t => fs.any fun x => s.teamBase x.1 == t
  (s.openSteps ts .shed).modMgr pkg fun x => { x with since := 0 }

/-- The critical shed that is due: every ranked flow that still carries, in one transaction, once none is open (R346).
Log entry 91 DEDUCED. -/
def critShed (s : State) : State :=
  if !(s.mgrSt pkg).critDue || s.txn.isOpen || !s.flag PKG_PWR_CTRL_AUTO pkg then s
  else
    let fs := s.teamBases.flatMap s.ranked
    if fs.isEmpty then s.modMgr pkg fun x => { x with critDue := false } else s.shedFlows fs

/-- The temperature is below WARN − HYST (R346, R347). -/
def cool (s : State) : Bool :=
  decide (s.temperature < 8 * ((s.rd PKG_PWR_THERM_WARN pkg : Int) - s.rd PKG_PWR_THERM_HYST pkg))

/-- Discard every staged field of the package and of its dies (R87). -/
def discardAll (s : State) : State := s.forEach (pkg :: s.dieList.filter fun d => !s.quarantined d) fun t d => t.discard d

/-- Judge the reported temperature (R346): the flags follow it, and THERM is set when WARN or CRIT is reached. At CRIT the
staged fields are discarded, a manager wake that has no GO aborts, and a shed of ranks 15 down to 1 is due. -/
def thermal (s : State) : State :=
  let t := s.temperature
  let warn := decide (8 * (s.rd PKG_PWR_THERM_WARN pkg : Int) ≤ t)
  let crit := decide (8 * (s.rd PKG_PWR_THERM_CRIT pkg : Int) ≤ t)
  let reached := (warn && !s.flag PKG_PWR_STATUS_THERM_WARN pkg) || (crit && !s.flag PKG_PWR_STATUS_THERM_CRIT pkg)
  let fresh := crit && !s.flag PKG_PWR_STATUS_THERM_CRIT pkg && s.flag PKG_PWR_CTRL_AUTO pkg
  let s := (s.wrb PKG_PWR_STATUS_THERM_WARN pkg warn).wrb PKG_PWR_STATUS_THERM_CRIT pkg crit
  let s := if reached then s.raise PWR_EVENT_THERM s.mgrDie else s
  let s := s.modMgr pkg fun x => { x with hot := warn || (x.hot && !s.cool) }
  let s :=
    if fresh then
      let waking := s.teamBases.any fun b => match (s.mgrSt b).step with
        | some (.wake _ _) => true
        | _ => false
      let s := if waking && s.txn.isOpen && !s.txn.goSent then s.abortTxn reasonHostAbort else s
      s.discardAll.modMgr pkg fun x => { x with critDue := true }
    else s
  s.closeSteps.critShed

/-! ### Targets (R342) -/

/-- The target of an elastic flow: the smallest slot count in its range that carries RATE with its headroom. -/
def target (s : State) (d f : Nat) : Nat :=
  let lo := s.rd PWR_FLOW_SIZE_MIN_SLOTS d f
  let hi := s.rd PWR_FLOW_SIZE_MAX_SLOTS d f
  let need := s.rd PWR_FLOW_RATE d f * 5000 * (20 + s.rd PWR_FLOW_HEADROOM d f)
  ((List.range (hi + 1 - lo)).map fun j => lo + j).find? (fun n => decide (need + 305 ≤ n * 6250000)) |>.getD hi

/-- The elastic flows of a team that are not shed: home die, flow, slots held, target. -/
def elastic (s : State) (t : Nat) : List (Nat × Nat × Nat × Nat) :=
  (s.teamDies t).flatMap fun d => (List.range 512).filterMap fun f =>
    if s.flag PWR_FLOW_ELASTIC d f && !s.flag PWR_FLOW_SHED d f then
      some (d, f, (s.flowSlots t d f).length, s.target d f)
    else none

/-- The shed flows of a team that the manager restores now (R347): those of the package's lowest shed rank, while no shedding
condition holds and the estimate with the rank restored lies within the envelope. -/
def restoring (s : State) (t : Nat) : List (Nat × Nat × Nat × Nat) :=
  let shed := s.dieList.flatMap fun d => (List.range 512).filterMap fun f =>
    if s.flag PWR_FLOW_SHED d f then some (d, f, s.rd PWR_FLOW_SHED_RANK d f) else none
  let rank := shed.foldl (fun m x => min m x.2.2) 15
  let mine := shed.filter fun x => x.2.2 == rank
  let extra := (mine.map fun x => 25 * (s.flowPwrSt x.1 x.2.1).held).sum
  let env := 8 * s.rd PKG_PWR_ENVELOPE_ENVELOPE pkg
  let m := s.mgrSt pkg
  if s.flag PKG_PWR_CTRL_AUTO_RESTORE pkg && s.cool && !m.hot && !m.critDue && decide (s.rd PKG_PWR_THERM_SHED_INTERVAL pkg ≤ m.since) &&
      (env == 0 || decide (s.estimatePkg + extra ≤ env)) then
    (mine.filter fun x => s.teamBase x.1 == t).map fun x => (x.1, x.2.1, 0, (s.flowPwrSt x.1 x.2.1).held)
  else []

/-! ### Steps (R341) -/

/-- The cheapest dormant subcarrier of a flow's class to wake: retained before off, nearest the home die, lowest index. -/
def cheapest (s : State) (t d f : Nat) : Option (Nat × Nat) :=
  let express := s.flag FLW_CFG_CLASS d f
  let all := (s.teamDies t).flatMap fun e => (List.range 8).filterMap fun i =>
    if s.isActive e && !s.txOn e i && !s.armRetired e i && s.flag TXD_SC_CFG_CLASS e i == express && (!express || e == d) then
      some (e, i)
    else none
  let kept (x : Nat × Nat) : Bool := s.txState x.1 x.2 == 4 || s.rxState x.1 x.2 == 5
  let order := (List.range 8).flatMap fun g => all.filter fun x => dieGap x.1 d == g
  ((order.filter kept) ++ order.filter fun x => !kept x).head?

/-- Put a subcarrier to sleep, or wake it, in a transaction. -/
def stageArms (s : State) (e i : Nat) (on : Bool) : State :=
  (s.stage TXD_CTRL_SC_EN e (setBit (s.rd TXD_CTRL_SC_EN e) i on)).stage RXD_CTRL_SC_EN e (setBit (s.rd RXD_CTRL_SC_EN e) i on)

/-- R31 lets an active subcarrier sleep. -/
def restAllows (s : State) (e i : Nat) : Bool :=
  let near (x : Nat) : Bool := s.sameTeam e x && (s.memberState x == 2 || s.memberState x == 1)
  decide (3 ≤ ((List.range 8).filter fun j => s.txOn e j && s.rxOn e j).length) &&
  !(i == 7 && near (e + 1)) && !(i == 0 && s.teamPos e != 0 && near (e - 1))

/-- The flow entries on a subcarrier: table entry, home die, flow. -/
def heldOn (s : State) (e i : Nat) : List (Nat × Nat × Nat) :=
  (List.range 24).filterMap fun j =>
    if s.flag FLW_TX_SLOT_VALID e (24 * i + j) then
      some (24 * i + j, s.rd FLW_TX_SLOT_DIE e (24 * i + j), s.rd FLW_TX_SLOT_FLOW e (24 * i + j))
    else none

/-- Subcarriers of a team that may sleep, best first: fewest flow slots, then the higher global index. Emptied ones need not
wait while shedding is in force (R346). -/
def sleepers (s : State) (t : Nat) : List (Nat × Nat) :=
  let wait := s.rd PKG_PWR_CTRL_SLEEP_WAIT pkg
  let runs := (s.mgrSt t).spareRun
  let shedding := s.flag PKG_PWR_STATUS_SHEDDING pkg
  let all := (s.teamDies t).flatMap fun e => (List.range 8).filterMap fun i =>
    let held := s.heldOn e i
    let run := ((runs.find? fun x => x.1 == 8 * e + i).map Prod.snd).getD 0
    if s.inService e i && s.restAllows e i && !(held.any fun x => s.flag PWR_FLOW_PINNED x.2.1 x.2.2) &&
        (decide (wait ≤ run) || (shedding && held.isEmpty)) then some (e, i)
    else none
  (List.range 25).flatMap fun n => (all.filter fun x => (s.heldOn x.1 x.2).length == n).reverse

/-- Where the flow slots of a subcarrier move: free slots of its class elsewhere, home die first (R341). -/
def moves (s : State) (t e i : Nat) : List ((Nat × Nat × Nat) × (Nat × Nat)) :=
  (s.heldOn e i).foldl (fun a x =>
    let used := a.map Prod.snd
    let room := (s.freeFor t x.2.1 x.2.2).filter fun y => !(y.1 == e && y.2 / 24 == i) && !used.contains y
    match (s.takeSlots x.2.1 1 room).head? with
    | some y => a ++ [(x, y)]
    | none => a) []

/-- Count the windows in which a subcarrier's slots could be spared (R341). -/
def countSpare (s : State) (t : Nat) : State :=
  let free := (s.freeSlots t).length
  let spare := s.rd PKG_PWR_CFG_SPARE_SLOTS pkg
  s.modMgr t fun x =>
    { x with spareRun := (s.teamDies t).flatMap fun e => (List.range 8).filterMap fun i =>
        let run := ((x.spareRun.find? fun y => y.1 == 8 * e + i).map Prod.snd).getD 0
        if s.inService e i && decide (spare + s.pendSlots e i ≤ free) then some (8 * e + i, run + 1) else none }

/-- Count the windows in which an elastic flow's target stayed below its slots. -/
def countSurplus (s : State) (t : Nat) : State :=
  s.forEach (s.elastic t) fun u x => u.modFlowPwr x.1 x.2.1 fun y => { y with run := if x.2.2.2 < x.2.2.1 then y.run + 1 else 0 }

/-- Take back the surplus slots of a flow: those farthest from its home die first. -/
def shrink (s : State) (t : Nat) (x : Nat × Nat × Nat × Nat) : State :=
  let held := s.flowSlots t x.1 x.2.1
  let order := (List.range 8).flatMap fun g => held.filter fun y => dieGap y.1 x.1 == g
  (s.forEach (order.drop x.2.2.2) fun u y => u.stageSlot y.1 y.2 0 0 false).openStep t .slots

/-- The flows of a team that must grow: those being restored, then the elastic ones below their target.
Log entry 91 DEDUCED. -/
def growing (s : State) (t : Nat) : List (Nat × Nat × Nat × Nat) :=
  s.restoring t ++ (s.elastic t).filter fun x => decide (x.2.2.1 < x.2.2.2)

/-- The step a team takes at a window end (R341). -/
def teamStep (s : State) (t : Nat) : State :=
  match (s.growing t).head? with
  | some x =>
    let n := x.2.2.2 - x.2.2.1
    if (s.mgrSt pkg).hot then s.raise PWR_EVENT_REFUSED s.mgrDie
    else
      let got := s.takeSlots x.1 n (s.freeFor t x.1 x.2.1)
      if got.length = n then (s.forEach got fun u y => u.stageSlot y.1 y.2 x.1 x.2.1 true).openStep t (if x.2.2.1 = 0 then .restore else .slots)
      else
        match s.cheapest t x.1 x.2.1 with
        | some y => (s.stageArms y.1 y.2 true).openStep t (.wake y.1 y.2)
        | none => s
  | none =>
    match (s.elastic t).find? fun x => decide (x.2.2.2 < x.2.2.1 ∧ s.rd PKG_PWR_CTRL_SLEEP_WAIT pkg ≤ (s.flowPwrSt x.1 x.2.1).run) with
    | some x => s.shrink t x
    | none =>
      match (s.sleepers t).head? with
      | some y =>
        let held := s.heldOn y.1 y.2
        if held.isEmpty then (s.stageArms y.1 y.2 false).openStep t (.sleep y.1 y.2)
        else
          let ms := s.moves t y.1 y.2
          if ms.length = held.length then
            (s.forEach ms fun u m => (u.stageSlot y.1 m.1.1 0 0 false).stageSlot m.2.1 m.2.2 m.1.2.1 m.1.2.2 true).openStep t .slots
          else s
      | none => s

/-- A team may take a step now (R340, R341, R350): its last step is closed, a woken arm tracks, no refusal is being waited
out, and nothing else is being committed or staged. -/
def mayStep (s : State) (t : Nat) : Bool :=
  let m := s.mgrSt t
  s.flag PKG_PWR_CTRL_AUTO pkg && !s.flag PKG_PWR_CTRL_HOLD pkg && !s.txn.isOpen && m.step.isNone && m.waking.isNone &&
  m.holdoff == 0 && !(s.dieList.any s.dirty) && !(s.team t).baseCamp

/-- A woken subcarrier whose arm tracks, or was disabled again, is waited for no longer. -/
def wakeSettled (s : State) (t : Nat) : State :=
  match (s.mgrSt t).waking with
  | some (d, i) => if s.rxState d i = 3 ∨ !s.rxOn d i then s.modMgr t fun x => { x with waking := none } else s
  | none => s

/-- Shedding holds (R346): over the envelope, or hot. -/
def overEnvelope (s : State) : Bool :=
  s.rd PKG_PWR_ENVELOPE_ENVELOPE pkg != 0 && decide (8 * s.rd PKG_PWR_ENVELOPE_ENVELOPE pkg < s.estimatePkg)

/-- The flows to shed at this window, if a shed is due: those of the package's highest rank still carrying, in the teams that
may take a step. Log entry 91 DEDUCED. -/
def shedStep (s : State) : List (Nat × Nat × Nat) :=
  let m := s.mgrSt pkg
  if s.overEnvelope || (m.hot && decide (s.rd PKG_PWR_THERM_SHED_INTERVAL pkg ≤ m.since)) then
    let rank := (s.teamBases.flatMap s.ranked).foldl (fun a x => max a x.2.2) 0
    (s.teamBases.filter s.mayStep).flatMap fun t => (s.ranked t).filter fun x => x.2.2 == rank
  else []

/-- Store RATE of the window for each flow (R342): 0 for a flow that offered nothing. Log entry 91 DEDUCED. -/
def takeRates (s : State) (rates : List (Nat × Nat × Nat)) : State :=
  let s := { s with regs := s.regs.keep fun k => !(k.blk == PWR_FLOW_RATE.blk && k.reg == PWR_FLOW_RATE.reg && k.lo == PWR_FLOW_RATE.lo) }
  s.forEach rates fun t r => if r.1 < t.dieCount then t.wr PWR_FLOW_RATE r.1 r.2.2 r.2.1 else t

/-- The end of a window (R341). -/
def window (s : State) (rates : List (Nat × Nat × Nat)) : State :=
  let s := (s.takeRates rates).showEstimate
  if s.crown.token.isNone then s
  else
    let s := (s.modMgr pkg fun x => { x with since := x.since + 1 }).thermal
    let s := s.wrb PKG_PWR_STATUS_SHEDDING pkg (s.overEnvelope || (s.mgrSt pkg).hot || (s.mgrSt pkg).critDue)
    let dirty := s.dieList.any s.dirty
    let s := s.forEach s.teamBases fun u t =>
      let u := ((u.wakeSettled t).countSpare t).countSurplus t
      u.modMgr t fun x => { x with holdoff := x.holdoff - 1, dirty := if dirty then x.dirty + 1 else 0 }
    let s := if s.flag PKG_PWR_CTRL_AUTO pkg && s.teamBases.any (fun t => decide (4 ≤ (s.mgrSt t).dirty)) then
        s.raise PWR_EVENT_WAIT_HOST s.mgrDie
      else s
    if !s.shedStep.isEmpty then s.shedFlows s.shedStep
    else s.forEach s.teamBases fun u t => if u.mayStep t then u.teamStep t else u

end State

/-! ### Rows -/

/-- PWR_WINDOW (R341). -/
def execPwrWindow (rates : List (Fin 8 × Fin 512 × Fin 65536)) (s : State) : Host.Outcome State Fault Refusal :=
  run s fun s => s.window (rates.map fun r => (r.1.val, r.2.1.val, r.2.2.val))

end Sys2Proof.Machine
end

