-- ==== Sys2Proof/Machine/Agreement.lean ====
section
/-! DEFINITION. Heartbeats (spec/02, R48 to R53, R43, R66): the ring directions, the comparisons of a round, quarantine and
release, and what a multiframe boundary moves on. -/
namespace Sys2Proof.Machine
open Sys2Proof

namespace State

/-! ### Ring directions (R49) -/

/-- One observation of the clockwise direction at a die: reached, or reached on the other direction only. -/
def cwSeen (s : State) (d : Nat) (ok : Bool) : State :=
  if ok then
    let s := s.modDie d fun x => { x with cwMiss := 0, cwHit := x.cwHit + 1 }
    if (s.die d).cwHit = 3 then s.wr PKG_DIE_STATUS_RING_CW_OK d 1 else s
  else
    let s := s.modDie d fun x => { x with cwHit := 0, cwMiss := x.cwMiss + 1 }
    if (s.die d).cwMiss = 3 then (s.wr PKG_DIE_STATUS_RING_CW_OK d 0).raise RING_EVENT_CW_BREAK d else s

/-- The same of the counter-clockwise direction. -/
def ccwSeen (s : State) (d : Nat) (ok : Bool) : State :=
  if ok then
    let s := s.modDie d fun x => { x with ccwMiss := 0, ccwHit := x.ccwHit + 1 }
    if (s.die d).ccwHit = 3 then s.wr PKG_DIE_STATUS_RING_CCW_OK d 1 else s
  else
    let s := s.modDie d fun x => { x with ccwHit := 0, ccwMiss := x.ccwMiss + 1 }
    if (s.die d).ccwMiss = 3 then (s.wr PKG_DIE_STATUS_RING_CCW_OK d 0).raise RING_EVENT_CCW_BREAK d else s

/-- A heartbeat reaches a die on the directions given; on neither it is no observation. -/
def dirStep (s : State) (d : Nat) (cw ccw : Bool) : State :=
  if cw || ccw then (s.cwSeen d cw).ccwSeen d ccw else s

/-! ### Comparing an answer (R50) -/

/-- Largest difference of ticks that still agrees. -/
def tickLimit : Int := 16

/-- Ticks of the sampling reference that a ring message takes for one hop (R50), and in a superframe. -/
def hopTicks : Nat := 110
def superframeTicks : Nat := 11264

/-- Hops from a die to another along one direction of a ring of `n` dies; clockwise is the direction of rising index.
Log entry 160 DESIGN CHOICE. -/
def hopsOn (n from_ to_ : Nat) (cw : Bool) : Nat := if cw then (to_ + n - from_) % n else (from_ + n - to_) % n

/-- The hops that the first copy of a heartbeat took from the crown to a die it reached on the directions given (R49).
Log entry 160 DESIGN CHOICE. -/
def hops (s : State) (c d : Nat) (cw ccw : Bool) : Nat :=
  let a := hopsOn s.dieCount c d true
  let b := hopsOn s.dieCount c d false
  if cw && ccw then min a b else if cw then a else b

/-- A time count with the ticks of the hops taken off (R50): multiframe, superframe and tick. Log entry 160 DESIGN CHOICE. -/
def hopCorrect (mf sf tick h : Nat) : Nat × Nat × Nat :=
  let t := (mf * 256 + sf) * superframeTicks + tick - hopTicks * h
  (t / superframeTicks / 256, t / superframeTicks % 256, t % superframeTicks)

/-- A time count, after the hop correction, agrees with the crown's own. -/
def timeAgrees (s : State) (mf sf tick : Nat) : Bool :=
  mf == s.time.mf && sf == s.time.sf && decide (((tick : Int) - (s.time.tick : Int)).natAbs ≤ tickLimit.toNat)

/-- Take the values of a die's answer: its runs move on, and the items whose rule is met are kept for the round, as cause
codes in the order of R50. Log entry 93 DEDUCED. -/
def compareValues (s : State) (c d mf sf tick : Nat) : State :=
  let epochBad := !s.txn.isOpen && s.epoch d != s.epoch c
  let timeBad := !s.timeAgrees mf sf tick
  let s := s.modDie d fun x =>
    { x with epochRun := if epochBad then x.epochRun + 1 else 0, timeRun := if timeBad then x.timeRun + 1 else 0 }
  let digestBad := s.digest d != s.digest c
  let met := (if (s.die d).selfTest == some false then [1] else []) ++ (if digestBad then [2] else []) ++
    (if 2 ≤ (s.die d).epochRun then [3] else []) ++ (if 3 ≤ (s.die d).timeRun then [4] else [])
  if s.quarantined d then
    s.releaseStep d ((if digestBad then [2] else []) ++ (if epochBad then [3] else []) ++ (if timeBad then [4] else []))
  else s.modDie d fun x => { x with mismatch := met }

/-- The mark of an answer that counts as missing: a die that still starts 1 s after its image transfer (R85). -/
def missingMark : Nat := 5

/-- The answer as the die makes it: while it starts it carries the starting mark whatever else it would say (R85). -/
def markedAnswer (s : State) (d : Nat) (a : HbAnswer) : HbAnswer :=
  match a with
  | .values mf sf tick => if (s.die d).starting then .starting else .values mf sf tick
  | x => x

/-- The crown receives an answer (R50, R66, R85, R348, R376). Log entry 92 DEDUCED. -/
def takeAnswer (s : State) (c d : Nat) (a : HbAnswer) (cw ccw : Bool) : State :=
  let s := s.modDie d fun x => { x with
    answered := some (cw, ccw), irqCopy := s.dieSummary d, ringCopy := s.ringLive d }
  match a with
  | .values mf sf tick =>
    let v := hopCorrect mf sf tick (s.hops c d cw ccw)
    let s := s.modDie d fun x => { x with epochAns := some (s.epoch d) }
    (s.modPwr d fun x => { x with temp := s.rdS HKA_TEMP_MAX_TEMP d }).compareValues c d v.1 v.2.1 v.2.2
  | .parked => s.modDie d fun x => { x with epochRun := 0, timeRun := 0 }
  | .starting => s.modDie d fun x =>
      { x with epochRun := 0, timeRun := 0, mismatch := if x.valuesLate then [missingMark] else [] }

/-! ### Judging a round (R49, R50, R52) -/

/-- The dies other than the crown. -/
def others (s : State) (c : Nat) : List Nat := s.dieList.filter fun d => d != c

/-- Two or more dies that are eligible but for their digest all mismatch on one item (R52). -/
def massMismatch (s : State) (c : Nat) : Bool :=
  let near := (s.others c).filter s.nearEligible
  decide (2 ≤ near.length) && [2, 3, 4].any fun k => near.all fun d => (s.die d).mismatch.contains k

/-- A die has given no answer that counts in this round. -/
def missing (s : State) (d : Nat) : Bool := (s.die d).answered.isNone || (s.die d).mismatch.contains missingMark

/-- Count the rounds without an answer; after three the crown issues a die reset over the ring, which DIE_RESET is where it
arrives, and the 100 ms run (R50). Log entry 161 DEDUCED. -/
def countMissing (s : State) (d : Nat) : State :=
  if s.quarantined d || s.parked d then s
  else if s.missing d then
    let s := s.modDie d fun x => { x with missRun := x.missRun + 1 }
    if (s.die d).missRun = 3 then (s.ringMsg 5 (s.crown.token.getD 15) d).modDie d fun x => { x with waitReset := true }
    else if 3 < (s.die d).missRun then s.modDie d fun x => { x with waitReset := true } else s
  else s.modDie d fun x => { x with missRun := 0, waitReset := false }

/-- The crown's own observation of the ring directions in a round (R49). -/
def crownDirs (s : State) (c : Nat) : State :=
  let seen := (s.others c).filterMap fun d => (s.die d).answered
  if seen.isEmpty then s else (s.cwSeen c (seen.all Prod.fst)).ccwSeen c (seen.all Prod.snd)

/-- The heartbeat round ends: directions, missing answers, quarantine or MASS_MISMATCH, and the open transaction (R90).
Log entries 92 DEDUCED, 93 DEDUCED. -/
def judgeRound (s : State) : State :=
  match s.crown.token with
  | none => s
  | some c =>
    if !s.crown.round then s
    else
      let s := { s with crown := { s.crown with round := false } }
      let s := s.forEach (s.others c) fun t d => t.countMissing d
      let s := s.crownDirs c
      let met (t : State) (d : Nat) : List Nat := (t.die d).mismatch.filter fun k => k != missingMark
      let mass := s.massMismatch c
      let s := if mass then s.raise PKG_QUAR_EVENT_MASS_MISMATCH pkg else s
      let s := s.forEach ((s.others c).filter fun d => !(mass && s.nearEligible d)) fun t d =>
        match (met t d).head? with
        | some k => t.quarantine d k
        | none => t
      s.txnJudge.closeSteps.refreshCrown

/-! ### A multiframe begins -/

/-- The multiframe count moves on, with the time of day and its stamp of the boundary (R246), the shadow's count (R94), the
transmit-seam reports that have grown old (R125) and the runs of the plan epochs (R244, R428). -/
def newMultiframe (s : State) : State :=
  let s := if s.rootState then s.nextMf else s.nextMf.todAdvance s.mfAdvance
  let s := s.modTim fun x => { x with txStamps := ((s.time.mf, s.tod.toNat) :: x.txStamps).take 16 }
  let s := s.shadowPass 1
  let s := s.forEach s.dieList fun t d =>
    match (t.cnvSt d).txLast with
    | some m => if m + 32 ≤ t.time.mf then t.wr CAL_TX_SEAM_LO_VALID d 0 else t
    | none => t
  s.forEach s.teamBases fun u t =>
    let differs := u.farEpoch t != u.txEpoch t
    let zero := u.farEpoch t == 0 && u.txEpoch t != 0
    u.modTeam t fun x => { x with diffRun := if differs then x.diffRun + 1 else 0, zeroRun := if zero then x.zeroRun + 1 else 0 }

/-- The crown ends the last round, the multiframe begins, and a HEARTBEAT opens the next round (R48).
Log entries 4 DESIGN CHOICE, 92 DEDUCED. -/
def heartbeatSend (s : State) : State :=
  match s.crown.token with
  | none => s
  | some c =>
    let s := s.judgeRound.sleepWhenClosed.newMultiframe.campWhenReady
    let s := { s with crown := { s.crown with round := true, stuck := false } }
    let s := s.forEach s.dieList fun t d => t.modDie d fun x => { x with answered := none, mismatch := [], epochAns := none }
    let s := s.modPwr c fun x => { x with temp := s.rdS HKA_TEMP_MAX_TEMP c }
    (s.ringMsg 1 c 15).thermal

/-- A die receives a heartbeat, or misses it on both directions, and answers (R45, R49). -/
def heartbeat (s : State) (d : Nat) (cw ccw : Bool) : State :=
  match s.crown.token with
  | none => s
  | some c =>
    if d = c then s
    else if cw || ccw then
      ((s.dirStep d cw ccw).modDie d fun x => { x with hbMissed := 0 }).ringMsg 2 d c
    else s.modDie d fun x => { x with hbMissed := x.hbMissed + 1 }

/-- The crown takes an answer of the open round; when every other die has answered the round is judged. -/
def hbAnswer (s : State) (d : Nat) (a : HbAnswer) (cw ccw : Bool) : State :=
  match s.crown.token with
  | none => s
  | some c =>
    if d = c || !s.crown.round || (s.die d).answered.isSome || !(cw || ccw) then s
    else
      let s := (s.takeAnswer c d (s.markedAnswer d a) cw ccw).thermal
      if (s.others c).all fun e => (s.die e).answered.isSome then s.judgeRound else s

/-- No answer within 100 ms of the crown's die reset (R50). -/
def noAnswer (s : State) (d : Nat) : State :=
  if (s.die d).waitReset then (s.modDie d fun x => { x with waitReset := false, missRun := 0 }).quarantine d 5 else s

end State

/-! ### Rows -/

/-- HEARTBEAT_SEND (R48). -/
def execHeartbeatSend (s : State) : Host.Outcome State Fault Refusal := run s fun s => s.heartbeatSend

/-- HEARTBEAT (R49). -/
def execHeartbeat (die : Fin 8) (cw ccw : Bool) (s : State) : Host.Outcome State Fault Refusal :=
  runDie s die fun s => s.heartbeat die cw ccw

/-- HB_ANSWER (R50). -/
def execHbAnswer (die : Fin 8) (ans : HbAnswer) (cw ccw : Bool) (s : State) : Host.Outcome State Fault Refusal :=
  runDie s die fun s => s.hbAnswer die ans cw ccw

/-- NO_ANSWER_TIMEOUT (R50). Log entry 90 DESIGN CHOICE. -/
def execNoAnswerTimeout (die : Fin 8) (s : State) : Host.Outcome State Fault Refusal :=
  runDie s die fun s => s.noAnswer die

end Sys2Proof.Machine
end

