-- ==== Sys2Proof/Machine/Bursts.lean ====
section
/-! DEFINITION. The symbols of cairn bursts (spec/16, R418, R421): what a burst sends, the repetition metric, and the bytes of
a received header and body. -/
namespace Sys2Proof.Machine
open Sys2Proof

/-! ### Sending (R418) -/

/-- A BPSK symbol: a 0 is +1. Log entry 87 DEDUCED. -/
def bpsk (b : Bool) : Int := if b then -1 else 1

/-- Chips of the sequence x^7 + x^6 + 1 from a state. -/
def prbs7 : Nat → Nat → List Bool
  | 0, _ => []
  | n + 1, s =>
    let b := s.testBit 6 != s.testBit 5
    b :: prbs7 n ((2 * s + b2n b) % 128)

/-- The 128 chips that the preamble repeats: the sequence from all ones, and one −1 chip. -/
def preambleChips : List Int := (prbs7 127 127).map bpsk ++ [-1]

/-- The delimiter's bits, 63 to 0. -/
def delimiterBits : List Bool := (List.range 64).map fun i => bit 0x9E3779B97F4A7C15 (63 - i)

/-- Bytes sent most significant bit first, each bit on `n` symbols in a row. -/
def repeatBits (n : Nat) (bytes : List Byte) : List Int := (unpackBits bytes).flatMap fun b => List.replicate n (bpsk b)

/-- The symbols of a burst: preamble, delimiter, header and body (R418). -/
def burstSymbols (header body : List Byte) : List Int :=
  (List.replicate 16 preambleChips).flatten ++ delimiterBits.map bpsk ++ repeatBits 4 header ++ repeatBits 2 body

/-! ### Receiving (R421) -/

/-- Σ r(k) r*(k − 128) over the last 1 024 of some symbols. -/
def repetitionSum (rx : List Cpx) : Cpx := Cpx.sum (((rx.drop 128).zip rx).map fun p => p.1.mul p.2.conj)

/-- The repetition metric m and the power estimate P from 1 152 symbols, the last 1 024 and the 128 before them. -/
def repetition (rx : List Cpx) : ℚ × ℚ :=
  let c := (repetitionSum rx).abs
  (c / ((rx.drop 128).map Cpx.abs2).sum, c / 1024)

/-- The bytes of received symbols that carry each bit on `n` in a row: the sign of their sum decides. Log entry 87 DEDUCED. -/
def burstBytes (n : Nat) (syms : List ℚ) : List Byte :=
  packBytes ((List.range (syms.length / n)).map fun i => decide (((syms.drop (n * i)).take n).sum < 0))

/-- The delimiter starts at a symbol. -/
def delimiterAt (syms : List ℚ) (j : Nat) : Bool := ((syms.drop j).take 64).map (fun x => decide (x < 0)) == delimiterBits

/-- The header of a packet from the symbols after its detection: the delimiter is searched for within 1 152 of them. No bytes
where none is found (R421). -/
def burstHeader (syms : List ℚ) : List Byte :=
  match (List.range 1089).find? (delimiterAt syms) with
  | some j => burstBytes 4 ((syms.drop (j + 64)).take 1024)
  | none => []

end Sys2Proof.Machine
end

