-- ==== Sys2Proof/Machine/Cairn.lean ====
section
/-! DEFINITION. Cairn frames and discovery, epochs 1 and 2, and the rebase (spec/16, R418 to R429). -/
namespace Sys2Proof.Machine
open Sys2Proof

/-- The burst TYPE that carries a MSG record type (R419). -/
def burstType (msg : Nat) : Nat :=
  match msg with
  | 0x01 => 0x02
  | 0x03 => 0x03
  | 0x04 => 0x04
  | 0x05 => 0x05
  | _ => 0x06

/-- Counters of `BUP_CAIRN_CNT_k`. -/
def cntDetect : Nat := 0
def cntFalse : Nat := 1
def cntCaptured : Nat := 2
def cntMissed : Nat := 3
def cntBody : Nat := 4
def cntReflect : Nat := 5

namespace State

/-- The cairn subcarrier of a die runs in cairn mode: the die is its team's cairn die and the team discovers (R418). -/
def discovering (s : State) (d : Nat) : Bool :=
  let st := s.rd BUP_CAIRN_STATUS_STATE d
  s.cairnDie (s.teamBase d) == some d && decide (1 ≤ st ∧ st ≤ 3)

/-- A transaction for a team's plan that has not switched is withdrawn (R428, R429). -/
def withdrawTeam (s : State) (t : Nat) : State :=
  let s := if s.txn.isOpen && !s.txn.switched && s.txn.planTeam == some t then s.abortTxn reasonPlanRefused else s
  if s.rd FRM_PLAN_STATUS_STATE t = 0 then s else s.closePlan t

/-! ### Sending (R419, R420) -/

/-- The 32-byte header of a burst (R419). Log entry 87 DEDUCED. -/
def cairnHeader (s : State) (d type bodyLen : Nat) : List Byte :=
  let t := s.teamBase d
  let peer := (s.team t).peer.getD (0, 0)
  let h := bytesBE 1 1 ++ bytesBE 1 type ++ bytesBE 1 (s.teamByte t) ++ bytesBE 2 (s.rd PKG_GEOM_SLICE_SPACING pkg t) ++
    bytesBE 1 (s.rd PKG_GEOM_SC_SPACING pkg t) ++ bytesBE 8 (s.nodeId d) ++ bytesBE 8 peer.1 ++ bytesBE 1 peer.2 ++
    bytesBE 1 s.time.sf ++ bytesBE 4 s.time.mf ++ bytesBE 2 bodyLen
  h ++ bytesBE 2 (crc16 h)

/-- A burst leaves the cairn subcarrier (R420): an ANNOUNCE, or in turn up to 48 records of the current message set.
Log entry 87 DEDUCED. -/
def sendBurst (s : State) (d : Nat) : State :=
  if !s.discovering d then s
  else
    let set_ := (s.team (s.teamBase d)).sending
    if set_.isEmpty || !(s.cairnSt d).turn then
      (s.emit (.cairn d (burstSymbols (s.cairnHeader d 0x01 0) []))).modCairn d fun x => { x with turn := !set_.isEmpty }
    else
      let recs := if (s.cairnSt d).rest.isEmpty then set_ else (s.cairnSt d).rest
      let body := (recs.take 48).flatten
      let type := burstType (beAt (set_.headD []) 0 1)
      (s.emit (.cairn d (burstSymbols (s.cairnHeader d type body.length) (body ++ bytesBE 4 (crc32c body))))).modCairn d fun x =>
        { x with turn := false, rest := recs.drop 48 }

/-! ### Receiving (R421 to R424) -/

/-- A detection: a packet starts, captures the current one, or is missed (R421, R422). -/
def detection (s : State) (d : Nat) (power : ℚ) (pos : Nat) : State :=
  if !s.discovering d then s
  else
    let fresh : CairnPkt := { power := power, pos := pos }
    match (s.cairnSt d).pkt with
    | none => (s.count BUP_CAIRN_CNT_COUNT d 1 cntDetect).modCairn d fun x => { x with pkt := some fresh }
    | some c =>
      if c.pos = pos then s
      else
        let s := s.count BUP_CAIRN_CNT_COUNT d 1 cntDetect
        if c.power * pow10 ((s.rd BUP_CAIRN_CTRL_CAPTURE d : ℚ) / 20) ≤ power then
          (s.count BUP_CAIRN_CNT_COUNT d 1 cntCaptured).modCairn d fun x => { x with pkt := some fresh }
        else s.count BUP_CAIRN_CNT_COUNT d 1 cntMissed

/-- Drop the packet in reception. -/
def dropPkt (s : State) (d : Nat) : State := s.modCairn d fun x => { x with pkt := none }

/-- A power estimate in 0.5 dB below full level (R423). -/
def powerCode (p : ℚ) : Nat := (clampInt 0 255 (Arith.round (-20 * Arith.log10 p))).toNat

/-- Enter or refresh a peer (R423): a full table gives up the entry heard longest ago. -/
def hearPeer (s : State) (d : Nat) (h : List Byte) (power : ℚ) : State :=
  let node := beAt h 6 8
  let team := beAt h 2 1
  s.modCairn d fun x =>
    let old := x.peers.find? fun p => p.node == node && p.team == team
    let p : Peer :=
      { node := node, team := team, slice := beAt h 3 2, sc := beAt h 5 1, power := powerCode power
        heard := (old.elim 0 Peer.heard) + 1, at_ := s.sfCount
        grid := (256 * beAt h 24 4 + beAt h 23 1 : Nat) - (s.sfCount : Int) }
    if old.isSome then { x with peers := x.peers.map fun q => if q.node == node && q.team == team then p else q }
    else
      let stale := x.peers.foldl (fun m q => min m q.at_) s.sfCount
      let k := (x.peers.findIdx? fun q => q.at_ == stale).getD 0
      { x with peers := if 8 ≤ x.peers.length then x.peers.set k p else x.peers ++ [p] }

/-- An entry has been heard within DWELL (R424). -/
def heardLately (s : State) (d : Nat) (p : Peer) : Bool :=
  decide ((s.sfCount - p.at_) * 4096 ≤ s.rd BUP_CAIRN_CTRL_DWELL d * 1000000)

/-- The peer that a cairn die may choose now (R424), if any. -/
def choice (s : State) (d : Nat) : Option Peer :=
  let t := s.teamBase d
  let ok := (s.cairnSt d).peers.filter (s.compatible t)
  let sel := s.rd BUP_PEER_SEL_HI_NODE_ID d * 2 ^ 32 + s.rd BUP_PEER_SEL_LO_NODE_ID d
  if sel ≠ 0 then ok.find? fun p => p.node == sel && decide (2 ≤ p.heard)
  else if (s.cairnSt d).multi then none
  else ok.find? fun p => decide (4 ≤ p.heard) && ok.all fun q => q == p || !s.heardLately d q

/-- Two or more compatible entries have been heard within DWELL (R424). Log entry 88 DEDUCED. -/
def severalHeard (s : State) (d : Nat) : Bool :=
  decide (2 ≤ ((s.cairnSt d).peers.filter fun p => s.compatible (s.teamBase d) p && s.heardLately d p).length)

/-- Choose a peer, unless one is chosen (R424). Log entry 88 DEDUCED. -/
def choosePeer (s : State) (d : Nat) : State :=
  let t := s.teamBase d
  let sel := s.rd BUP_PEER_SEL_HI_NODE_ID d != 0 || s.rd BUP_PEER_SEL_LO_NODE_ID d != 0
  if (s.team t).peer.isSome then s
  else
    let s := if !sel && s.severalHeard d then (s.modCairn d fun x => { x with multi := true }).raise BUP_EVENT_MULTI d else s
    match s.choice d with
    | some p => (s.modTeam t fun x => { x with peer := some (p.node, p.team) }).wr BUP_CAIRN_STATUS_STATE d 2
    | none => s

/-! ### Epoch 1 and epoch 2 (R425, R427) -/

/-- The crown stages values of the PLAN section and commits them as a start epoch of a team. -/
def commitGoal (s : State) (t ramp : Nat) : State :=
  if s.txn.isOpen || s.rd FRM_PLAN_STATUS_STATE t != 0 then s
  else
    let s := { s with staged := s.staged.putAll (s.goalEntries t (ramp == 2)) }
    let lead := if ramp = 1 then s.rd BUP_CTRL_CAIRN_LEAD t else s.rd IMG_TXN_CTRL_LEAD pkg
    let s := s.openTxn false (max 2 lead)
    { s with txn := { s.txn with ramp := ramp, planTeam := some t } }

/-- This end commits epoch 1: its node identity is the higher (R425). -/
def leadsStart (s : State) (t : Nat) : Bool :=
  match (s.team t).peer with
  | some p => decide (p.1 < s.nodeId t)
  | none => false

/-- Discovery is mutual: CHOSEN is set, and the end with the higher identity commits epoch 1 (R424, R425). -/
def becomeMutual (s : State) (d : Nat) : State :=
  let t := s.teamBase d
  let s := ((s.wr BUP_CAIRN_STATUS_MUTUAL d 1).wr BUP_CAIRN_STATUS_STATE d 3).raise BUP_EVENT_CHOSEN d
  if s.leadsStart t then s.commitGoal t 1 else s

/-- What a good header means for the chosen peer: mutual discovery, or a far end that has restarted (R424, R429). -/
def judgeAnnounce (s : State) (d : Nat) (h : List Byte) : State :=
  let t := s.teamBase d
  if beAt h 1 1 != 1 || (s.team t).peer != some (beAt h 6 8, beAt h 2 1) then s
  else if beAt h 14 8 = s.nodeId t ∧ beAt h 22 1 = s.teamByte t then
    if s.flag BUP_CAIRN_STATUS_MUTUAL d then s else s.becomeMutual d
  else if beAt h 14 8 = 0 ∧ s.rd BUP_CAIRN_STATUS_STATE d = 3 then (s.withdrawTeam t).startDiscovery t
  else s

/-- The header of the packet in reception: none found (no bytes), a failed CRC, a reflection, or a good one (R421). -/
def takeCairnHeader (s : State) (d : Nat) (h : List Byte) : State :=
  match s.discovering d, (s.cairnSt d).pkt with
  | true, some p =>
    if h.length != 32 || crc16 (h.take 30) != beAt h 30 2 then (s.count BUP_CAIRN_CNT_COUNT d 1 cntFalse).dropPkt d
    else if beAt h 6 8 = s.nodeId d then (s.count BUP_CAIRN_CNT_COUNT d 1 cntReflect).dropPkt d
    else
      let s := s.hearPeer d h p.power
      let s := if beAt h 28 2 = 0 then s.dropPkt d else s.modCairn d fun x => { x with pkt := some { p with header := some h } }
      let known := (s.cairnSt d).peers.find? fun q => q.node == beAt h 6 8 && q.team == beAt h 2 1
      let s := if known.any fun q => !s.compatible (s.teamBase d) q then s.raise BUP_EVENT_INCOMPATIBLE d else s
      let s := (s.choosePeer d).judgeAnnounce d h
      s.showPeers d
  | _, _ => s

/-- The body of the packet in reception: dropped on a CRC error, else its records are taken from the chosen peer (R421,
R425). Log entry 87 DEDUCED. -/
def takeCairnBody (s : State) (d : Nat) (b : List Byte) : State :=
  match s.discovering d, (s.cairnSt d).pkt with
  | true, some p =>
    match p.header with
    | none => s
    | some h =>
      let n := beAt h 28 2
      let s := s.dropPkt d
      let t := s.teamBase d
      if b.length != n + 4 || crc32c (b.take n) != beAt b n 4 then s.count BUP_CAIRN_CNT_COUNT d 1 cntBody
      else if (s.team t).peer != some (beAt h 6 8, beAt h 2 1) || beAt h 14 8 != s.nodeId t || beAt h 22 1 != s.teamByte t then s
      else
        s.forEach (List.range (n / 32)) fun u k =>
          let r := (b.drop (32 * k)).take 32
          u.takeMsg t (beAt r 0 1) (r.drop 4)
  | _, _ => s

/-- A peer entry that has not been heard for 64 ms is removed (R423). A superframe lasts 4 096 ns. -/
def expirePeer (s : State) (d k : Nat) : State :=
  match (s.cairnSt d).peers[k]? with
  | some p =>
    if 64000000 ≤ (s.sfCount - p.at_) * 4096 then (s.modCairn d fun x => { x with peers := x.peers.eraseIdx k }).showPeers d
    else s
  | none => s

/-- No compatible entry has been heard for NO_PEER seconds (R424). -/
def noPeer (s : State) (d : Nat) : State :=
  if s.discovering d && !((s.cairnSt d).peers.any (s.compatible (s.teamBase d))) then s.raise BUP_EVENT_NO_PEER d else s

/-- The conditions of epoch 2 hold (R427): every subcarrier that epoch 1 made active tracks, and every die has converged. -/
def rampReady (s : State) (t : Nat) : Bool :=
  ((s.teamDies t).filter s.present).all fun d =>
    ((List.range 8).all fun i => !s.rxOn d i || s.rxState d i == 3) &&
    (s.flag CAL_STATUS_BG_CONVERGED d || (s.flag BUP_STATUS_WARM d && (s.cnvSt d).recConverged && !(s.cnvSt d).verifying))

/-- EPOCH2_COMMIT (R427). -/
def epoch2 (s : State) (t : Nat) : State :=
  if s.flag BUP_CTRL_AUTO_RAMP t && s.rd BUP_STATUS_STATE ((s.cairnDie t).getD t) == 5 && s.agreed t == s.txEpoch t && s.rampReady t then
    s.commitGoal t 2
  else s

/-- EPOCH1_RETRY (R425, R429): the end that leads proposes again. -/
def epoch1Retry (s : State) (t : Nat) : State :=
  match s.cairnDie t with
  | some d =>
    if (s.team t).baseCamp && s.discovering d && s.flag BUP_CAIRN_STATUS_MUTUAL d && s.leadsStart t then s.commitGoal t 1 else s
  | none => s

/-- Discovery starts again while the team is at base camp; a switched epoch 1 stands (R429). Log entry 117 DEDUCED. -/
def restartDiscovery (s : State) (d : Nat) : State :=
  let t := s.teamBase d
  if (s.team t).baseCamp && s.cairnDie t == some d then (s.withdrawTeam t).startDiscovery t else s

/-! ### Rebase (R428) -/

/-- The crown decides a rebase: an open transaction aborts, and the team switches at the next multiframe boundary.
Log entry 89 DEDUCED. -/
def decideRebase (s : State) (t reason : Nat) : State :=
  let s := if s.txn.isOpen && !s.txn.switched then s.abortTxn reason else s
  s.modTeam t fun x => { x with rebase := true }

/-- The boundary: both directions take the base-camp plan, the agreed epoch is 0 and discovery restarts.
Log entry 89 DEDUCED. -/
def rebaseSwitch (s : State) (t : Nat) : State :=
  if (s.team t).rebase then (s.startCamp t).logCrown (chipEvent codeRebase t 0) else s

/-- Every enabled receive arm of a team has LOF declared. -/
def allLof (s : State) (t : Nat) : Bool :=
  let arms := ((s.teamDies t).filter s.present).flatMap fun d => ((List.range 8).filter (s.rxOn d)).map fun i => (d, i)
  !arms.isEmpty && arms.all fun x => s.flag FRM_SC_STATUS_LOF x.1 x.2

/-- A cause of R428 holds: the far end announces epoch 0 for PLAN_WAIT multiframes, or LOF on every arm.
Log entry 89 DEDUCED. -/
def rebaseCause (s : State) (t : Nat) (c : RebaseCause) : Bool :=
  match c with
  | .farEpoch0 => decide (s.rd FRM_PLAN_CTRL_PLAN_WAIT t ≤ (s.team t).zeroRun ∧ 0 < (s.team t).zeroRun)
  | .lof => s.allLof t

end State

/-! ### Rows -/

/-- CAIRN_BURST_SEND (R420). -/
def execCairnBurstSend (die : Fin 8) (s : State) : Host.Outcome State Fault Refusal := runDie s die fun s => s.sendBurst die

/-- CAIRN_DETECTION (R421, R422): the last 1 152 symbols at a position. It is a detection where their repetition metric
reaches DET_TH. -/
def execCairnDetection (die : Fin 8) (rx : List Cpx) (pos : Nat) (s : State) : Host.Outcome State Fault Refusal :=
  runDie s die fun s =>
    if (s.rd BUP_CAIRN_CTRL_DET_TH die : ℚ) / 256 ≤ (repetition rx).1 then s.detection die (repetition rx).2 pos else s

/-- CAIRN_HEADER (R421): the combined symbols after a detection. -/
def execCairnHeader (die : Fin 8) (syms : List ℚ) (s : State) : Host.Outcome State Fault Refusal :=
  runDie s die fun s => s.takeCairnHeader die (burstHeader syms)

/-- CAIRN_BODY (R421): the symbols of the body and its CRC. -/
def execCairnBody (die : Fin 8) (syms : List ℚ) (s : State) : Host.Outcome State Fault Refusal :=
  runDie s die fun s => s.takeCairnBody die (burstBytes 2 syms)

/-- PEER_EXPIRE (R423). Log entry 90 DESIGN CHOICE. -/
def execPeerExpire (die idx : Fin 8) (s : State) : Host.Outcome State Fault Refusal :=
  runDie s die fun s => s.expirePeer die idx

/-- NO_PEER (R424). Log entry 90 DESIGN CHOICE. -/
def execNoPeer (die : Fin 8) (s : State) : Host.Outcome State Fault Refusal := runDie s die fun s => s.noPeer die

/-- EPOCH1_RETRY (R425). -/
def execEpoch1Retry (team : Fin 8) (s : State) : Host.Outcome State Fault Refusal := runTeam s team fun s t => s.epoch1Retry t

/-- EPOCH2_COMMIT (R427). -/
def execEpoch2Commit (team : Fin 8) (s : State) : Host.Outcome State Fault Refusal := runTeam s team fun s t => s.epoch2 t

/-- CAIRN_RESTART (R429). -/
def execCairnRestart (die : Fin 8) (s : State) : Host.Outcome State Fault Refusal :=
  runDie s die fun s => (s.restartDiscovery die).respond 0

/-- REBASE (R428). -/
def execRebase (die : Fin 8) (s : State) : Host.Outcome State Fault Refusal :=
  runTeam s die fun s t => (s.decideRebase t reasonHostAbort).respond 0

/-- AUTO_REBASE (R428). -/
def execAutoRebase (team : Fin 8) (cause : RebaseCause) (s : State) : Host.Outcome State Fault Refusal :=
  runTeam s team fun s t =>
    if s.rebaseCause t cause && !(s.team t).baseCamp then s.decideRebase t reasonPlanRefused else s

/-- REBASE_SWITCH (R428). -/
def execRebaseSwitch (team : Fin 8) (s : State) : Host.Outcome State Fault Refusal :=
  runTeam s team fun s t => s.rebaseSwitch t

end Sys2Proof.Machine
end

