-- ==== Sys2Proof/Machine/Recovery.lean ====
section
/-! DEFINITION. Fault policy (spec/16, R430 to R432): counting, retry and retirement by level, the fault log's clear control
and the release of a retired die. -/
namespace Sys2Proof.Machine
open Sys2Proof

namespace State

/-! ### The window of R430 -/

/-- The key of a unit's transient faults: level, block and unit. -/
def retryKey (d : Nat) (r : FaultRec) : Key :=
  { dom := 0, inst := d, blk := r.block, reg := r.level, lo := 0, idx := r.unit }

/-- The transient faults of a unit that lie inside the window, by their multiframe; a multiframe lasts 1 048 576 ns. -/
def inWindow (s : State) (d : Nat) (r : FaultRec) : List Nat :=
  let w := max 1 (s.rd FLT_RETRY_CFG_WINDOW d r.level)
  ((s.retries.get [] (retryKey d r)).filter fun t => decide ((s.time.mf - t) * 1048576 < w * 1000000000))

/-- A transient fault is within what the level tolerates. -/
def tolerated (s : State) (d : Nat) (r : FaultRec) : Bool :=
  decide ((s.inWindow d r).length < s.rd FLT_RETRY_CFG_COUNT d r.level)

/-- Count a transient fault. -/
def noteTransient (s : State) (d : Nat) (r : FaultRec) : State :=
  { s with retries := s.retries.set [] (retryKey d r) (s.inWindow d r ++ [s.time.mf]) }

/-! ### Engines (R306, R431) -/

/-- Write the segments of a firmware section that name engine `e` into the tightly coupled memory of engine `dst`. -/
def reloadTcm (s : State) (d e dst : Nat) (fw : List Byte) : State :=
  s.forEach ((segments fw).filter fun x => x.target == 0 && bit x.mask e) fun t x =>
    t.memWrite (tcmBase d dst + x.offset) ((fw.drop x.data).take x.length)

/-- The firmware in the die's image buffer, banks 0 to 63. -/
def firmware (s : State) (d : Nat) : List Byte := sectionOf (s.imageKey d) (s.imageBytes d) 3

/-- A fresh tightly coupled memory with the firmware of an engine. -/
def freshTcm (s : State) (d e dst : Nat) : State :=
  (s.fillMem d (.tcm (Fin.ofNat 64 dst))).reloadTcm d e dst (s.firmware d)

/-- Retry of an engine: its memory is reloaded from the image buffer and it restarts. -/
def restartEngine (s : State) (d e : Nat) : State :=
  if s.rd ENG_STATUS_STATE d e = 3 then s
  else
    let s := ((s.freshTcm d e e).wrBit ENG_RUN_RUN d (e % 32) true (e / 32)).startEng d e
    s.log d ⟨2, 3, codeEngineRestart, 14, Fin.ofNat 256 e, 0⟩

/-- A halted engine that can take over: of the same cluster, else of cluster 7. -/
def spareEngine (s : State) (d e : Nat) : Option Nat :=
  let free (k : Nat) : Bool := k != e && s.engHalted d k && s.rd ENG_STATUS_STATE d k == 0 && !(s.tcmSt d k).failed
  let own := (List.range 8).map fun j => e / 8 * 8 + j
  let last := (List.range 8).map fun j => 56 + j
  (own ++ last).find? free

/-- Retirement of an engine: halted, it reads retired, and its functions move. -/
def retireEngine (s : State) (d e : Nat) : State :=
  let s := if s.engHalted d e then s else s.haltEng d e (s.rd ENG_STATUS_CAUSE d e)
  let s := (s.wr ENG_STATUS_STATE d 3 e).wrBit ENG_RUN_RUN d (e % 32) false (e / 32)
  let s := s.log d ⟨2, 2, codeEngineRetired, 14, Fin.ofNat 256 e, 0⟩
  match s.spareEngine d e with
  | some k => ((s.freshTcm d e k).wrBit ENG_RUN_RUN d (k % 32) true (k / 32)).startEng d k
  | none => s

/-! ### Banks and lanes -/

/-- Retry of a bank: a scrub of it, when none runs, and a repair of the row that holds the captured word. -/
def retryBank (s : State) (d b : Nat) : State :=
  let m := MemId.bank (Fin.ofNat 256 b)
  let s :=
    if (s.memSt d).scrub.isSome then s
    else (s.modMem d fun x => { x with scrub := some (m.off, m.off + m.size) }).wr ECC_CTRL_SCRUB_BUSY d 1
  let a := s.rd ECC_UE_ADDR_ADDRESS d
  if s.flag ECC_EVENT_UE d && decide (m.off ≤ a ∧ a < m.off + m.size) && !s.underMarch d m then
    s.repairRow d b ((a - m.off) / 32)
  else s

/-- Retirement of a bank: FAILED, and a fault at its owner's level. -/
def retireBank (s : State) (d b : Nat) : State :=
  let s := s.wr MEM_BANK_STATUS_FAILED d 1 b
  let s := s.log d ⟨2, 2, codeBankFailed, 15, Fin.ofNat 256 b, 0⟩
  if s.rd MEM_BANK_CFG_KIND d b = 2 then
    s.emit (.fault d ⟨1, 0, codeBankFailed, Fin.ofNat 256 (s.rd MEM_BANK_CFG_OWNER d b), 0, Fin.ofNat 65536 b⟩)
  else s

/-- Retry of a lane: it trains again. -/
def retrainLane (s : State) (d l : Nat) : State := if s.flag HLN_LANE_CFG_EN d l then s.laneDown d l 1 0 else s

/-- Retirement of a lane: EN is cleared and its group re-forms. -/
def retireLane (s : State) (d l : Nat) : State :=
  let s := ((s.wr HLN_LANE_CFG_EN d 0 l).laneDown d l 0 0).wrBit FLT_RETIRED_LANE d l true
  s.log d ⟨2, 2, codeLaneRetired, 13, Fin.ofNat 256 l, 0⟩

/-! ### Arms -/

/-- The seam of a retired boundary subcarrier goes own-only at both its dies. -/
def boundaryOwn (s : State) (d i : Nat) : State :=
  let own (t : State) (e : Nat) (hi : Bool) : State := if t.rd (seamStateFld hi) e = 0 then t else t.seamOwn e hi
  if i = 0 then
    match s.seamMate d false with
    | some e => own (own s d false) e true
    | none => s
  else if i = 7 then
    match s.seamMate d true with
    | some e => own (own s d true) e false
    | none => s
  else s

/-- Retirement of an arm: its subcarrier becomes absent through a plan change that the crown starts. -/
def retireArm (s : State) (d i : Nat) (tx : Bool) : State :=
  let s := if tx then s.wrBit FLT_RETIRED_TX_ARM d i true else s.wrBit FLT_RETIRED_RX_ARM d i true
  let s := s.log d ⟨1, 2, codeScRetired, if tx then 5 else 4, Fin.ofNat 256 i, 0⟩
  let s := ((if tx then s.txStop d i false else s.rxStop d i false).boundaryOwn d i).refuseRetired d
  if s.memberState d = 2 then s.modDie d fun x => { x with absenceDue := true } else s

/-! ### Dies -/

/-- A die goes into die reset and is held there: it leaves its team, or does not join it. -/
def holdDie (s : State) (d : Nat) : State :=
  let left := s.memberState d = 1 ∨ s.memberState d = 2
  let s := (((s.memberAbort d).leaveTeam d).stopUnits d 1).clearDie d
  let s := s.modDie d fun x => { x with held := true }
  let s := if left then s else if 2 ≤ s.teamSize d then s.setMember d 3 else s
  let crown := s.crown.token == some d
  (if crown then s.crownFails else s).refreshCandidates.refreshCrown

/-- Retirement of a die. Log entry 102 DEDUCED. -/
def retireDie (s : State) (d : Nat) : State :=
  if s.retiredDie d then s
  else
    let s := (s.log d ⟨3, 2, codeDieRetired, 0, Fin.ofNat 256 d, 0⟩).wr FLT_RETIRED_DIE d 1
    s.holdDie d

/-- Retry of a die: a die reset issued by the crown. -/
def recoverDie (s : State) (d : Nat) : State :=
  (s.log d ⟨3, 3, codeDieReset, 0, Fin.ofNat 256 d, 0⟩).dieResetCommand d

/-! ### Levels (R431) -/

/-- Retry at a level. Log entry 99 DEDUCED. -/
def retry (s : State) (d : Nat) (r : FaultRec) : State :=
  let u : Nat := r.unit
  match (r.level : Nat) with
  | 1 =>
    if (r.block : Nat) < 26 then
      (s.log d ⟨1, 3, codeBlockReset, r.block, 0, 0⟩).requestBlockReset d r.block 0 s.usNow
    else s
  | 2 =>
    match (r.block : Nat) with
    | 13 => if u < 8 then s.retrainLane d u else s
    | 14 => if u < 64 then s.restartEngine d u else s
    | 15 => s.retryBank d u
    | _ => s
  | 3 => s.recoverDie d
  | _ => s

/-- Retirement of a decoder cluster (R212): logged once. -/
def loseCluster (s : State) (d k : Nat) : State :=
  let s := if bit (s.rd FEC_POOL_STATUS_RETIRED d) k then s else s.log d ⟨1, 2, codeClusterRetired, 7, Fin.ofNat 256 k, 0⟩
  (s.retireCluster d k).refuseRetired d

/-- Retirement at block level: an arm, a decoder cluster, or a shared block, which is a region fault. A block that R73 has
retired stays so. Log entry 100 DEDUCED. -/
def retireBlock (s : State) (d : Nat) (r : FaultRec) : State :=
  let u : Nat := r.unit
  match (r.block : Nat) with
  | 4 => if u < 8 then s.retireArm d u false else s.retireDie d
  | 5 => if u < 8 then s.retireArm d u true else s.retireDie d
  | b =>
    if r.code = codeBlockRetired ∧ u < 12 ∧ rowBlock u = b ∧ s.rowRetired d u then s
    else if b = 7 ∧ u < 8 ∧ r.code ≠ codeBlockRetired then
      s.loseCluster d u
    else s.retireDie d

/-- Retirement of a cell: a remap entry, taken at a block reset; with no free entry or spare the row that needs the cell is
retired and reported (R72, R73). DETAIL of a cell
fault holds the cell's type in its high four bits and its physical index below. Log entry 101 DESIGN CHOICE. -/
def retireCell (s : State) (d : Nat) (r : FaultRec) : State :=
  let x := s.remapCell d (r.detail / 4096) (r.detail % 4096)
  if x.1 then
    let s := x.2.log d ⟨0, 2, codeCellRemapped, r.block, r.unit, r.detail⟩
    if (r.block : Nat) < 26 then s.requestBlockReset d r.block 0 s.usNow else s
  else x.2.buildRows d [x.2.servedRow d (r.detail / 4096) (r.detail % 4096)]

/-- Retirement at a level. Log entry 99 DEDUCED. -/
def retire (s : State) (d : Nat) (r : FaultRec) : State :=
  let u : Nat := r.unit
  match (r.level : Nat) with
  | 0 => s.retireCell d r
  | 1 => s.retireBlock d r
  | 2 =>
    match (r.block : Nat) with
    | 13 => if u < 8 then s.retireLane d u else s
    | 14 => if u < 64 then s.retireEngine d u else s
    | 15 => s.retireBank d u
    | _ => s
  | 3 => s.retireDie d
  | _ => s

/-- A fault report: logged with the class that it is judged to have, then retried or retired (R430, R431). A memory
error was logged where it was found (R317, R318). Log entries 49 DEDUCED, 99 DEDUCED. -/
def faultReport (s : State) (d : Nat) (r : FaultRec) : State :=
  if 2 ≤ (r.cls : Nat) ∨ (r.level : Nat) = 4 then s.log d r
  else
    let perm := r.cls == 1 || !s.tolerated d r
    let s := if r.cls == 0 then s.noteTransient d r else s
    let s := if r.code = codeMemUe ∧ r.cls = 0 then s else s.log d { r with cls := if perm then 1 else 0 }
    if perm then s.retire d r else s.retry d r

/-! ### Release of a retired die (R432) -/

/-- A write of 0 to `FLT_RETIRED.DIE`: the die starts. -/
def releaseDie (s : State) (d : Nat) : State :=
  if s.retiredDie d then
    let s := ((s.wr FLT_RETIRED_DIE d 0).clearDie d).modDie d fun x => { x with held := false }
    s.refreshCrown
  else s

end State

/-! ### Rows -/

/-- FAULT_REPORT (R430). -/
def execFaultReport (die : Fin 8) (rec : FaultRec) (s : State) : Host.Outcome State Fault Refusal :=
  runDie s die fun s => s.faultReport die rec

/-- FAULT_LOG_CLEAR (R433). -/
def execFaultLogClear (die : Fin 8) (s : State) : Host.Outcome State Fault Refusal :=
  runDie s die fun s => (s.clearLog die).respond 0

/-- CLUSTER_RETIRE (R212, R431): logged, and an open transaction that the die has validated is refused (R95). -/
def execClusterRetire (die cluster : Fin 8) (s : State) : Host.Outcome State Fault Refusal :=
  runDie s die fun s => s.loseCluster die cluster

/-- DIE_RELEASE (R432). -/
def execDieRelease (die : Fin 8) (s : State) : Host.Outcome State Fault Refusal :=
  runDie s die fun s => (s.releaseDie die).respond 0

end Sys2Proof.Machine
end

