-- ==== Sys2Proof/Machine/Pins.lean ====
section
/-! DEFINITION. Rails (spec/17, R448, R449, R451), the reference oscillator pin (R331), general-purpose pins (R442) and boundary
scan (R452). -/
namespace Sys2Proof

/-- The place of a die rail in the low mask. -/
def Rail.index : Rail → Nat
  | .core => 0
  | .ret => 1
  | .cnv => 2
  | .hl => 3
  | .io => 4
  | .root => 5

end Sys2Proof

namespace Sys2Proof.Machine
open Sys2Proof

/-- The output pins that R39 busses to every die. -/
inductive OutPin where
  | miso
  | fspi
  | irqN
  | faultN
  | ready
  | clkOut (k : Fin 2)
  | ppsOut
  | frameOut
  | syncOut
  | gpio (n : Fin 16)
deriving DecidableEq, Repr

namespace State

/-! ### Rails -/

/-- A rail is below its threshold at a die. -/
def railLow (s : State) (d r : Nat) : Bool := bit s.pins.low (5 * d + r)

/-- Note a rail's level at a die. -/
def setRail (s : State) (d r : Nat) (v : Bool) : State := { s with pins := { s.pins with low := setBit s.pins.low (5 * d + r) v } }

/-- Set the sticky bit of a fallen rail in `PKG_DIE_SUPPLY`. -/
def supplyFell (s : State) (d : Nat) (r : Rail) : State :=
  match r with
  | .core => s.raise PKG_DIE_SUPPLY_CORE_LOW d
  | .ret => s.raise PKG_DIE_SUPPLY_RET_LOW d
  | .cnv => s.raise PKG_DIE_SUPPLY_CNV_LOW d
  | .hl => s.raise PKG_DIE_SUPPLY_HL_LOW d
  | .io => s.raise PKG_DIE_SUPPLY_IO_LOW d
  | .root => s

/-- A die rail other than VDD_ROOT and VDDIO is low at a die. -/
def coreLow (s : State) (d : Nat) : Bool := (List.range 4).any fun r => s.railLow d r

/-- A rail falls below its threshold (R449, R451). -/
def railFalls (s : State) (d : Nat) (r : Rail) : State :=
  match r with
  | .root => s.clearAll
  | .io =>
    let s := ((s.setRail d r.index true).supplyFell d r).clearPackage
    { s with pins := { s.pins with ioLow := true } }
  | _ =>
    let s := (s.setRail d r.index true).supplyFell d r
    let s := if (s.die d).held then s else s.holdDie d
    if s.dieList.all s.coreLow then
      { s with
        pins := { s.pins with allFell := true }
        crown := { s.crown with token := none, noCandidate := true, endpoint := .off } }
    else s

/-- A rail recovers (R451). After a fall on every die, and in package root state, the package runs a package reset; a die
rail lets its die start. Log entry 107 DEDUCED. -/
def railRises (s : State) (d : Nat) (r : Rail) : State :=
  match r with
  | .root => s
  | .io =>
    let s := s.setRail d r.index false
    { s with pins := { s.pins with ioLow := s.dieList.any fun e => s.railLow e 4 } }
  | _ =>
    let was := s.railLow d r.index
    let s := s.setRail d r.index false
    if !was || s.coreLow d then s
    else if s.pins.allFell then if s.dieList.any s.coreLow then s else s.resetPackage
    else if s.rootState then s.resetPackage
    else if s.retiredDie d then s
    else ((s.clearDie d).modDie d fun x => { x with held := false }).refreshCrown

/-! ### Reference oscillator (R331) -/

/-- REFXO becomes invalid: the root clock runs free, and what the monitors took against it is lost.
Log entry 106 DEDUCED. -/
def refxoLost (s : State) : State :=
  let s := { s with pins := { s.pins with refxo := false } }
  { s with refs := s.refs.mapInst {} (fun _ => true) fun x => { x with freqs := [] } }

/-! ### General-purpose pins (R442) -/

/-- Who drives a bussed output (R39, R42): only the die that holds the crown token; every other die holds it at high impedance.
FAULT_N is pulled low by any die that has cause to (R41, R46, R67); a general-purpose pin is driven when it is an output and
the package is not in root state (R442). -/
def drives (s : State) (d : Nat) (p : OutPin) : Bool :=
  match p with
  | .faultN => s.crown.token == some d || s.crown.noCandidate || s.crown.nonePassed || s.flag PKG_DIE_STATUS_CROWN_STUCK d
  | .gpio n => s.crown.token == some d && !s.rootState && bit (s.rd PKG_GPIO_DIR_OUT_EN pkg) n
  | _ => s.crown.token == some d

/-- The crown drives the general-purpose outputs: not in reset, in package root state, or while the token is free. -/
def gpioDriven (s : State) : Bool := s.crown.token.isSome && !s.rootState

/-- The level at each ball: an output carries its bit of `PKG_GPIO_OUT`, an input what the board gives it.
Log entry 104 DEDUCED. -/
def gpioLevel (s : State) : Nat :=
  let dir := if s.gpioDriven then s.rd PKG_GPIO_DIR_OUT_EN pkg else 0
  clearBits s.pins.gpio dir ||| (s.rd PKG_GPIO_OUT_VALUE pkg &&& dir)

/-- Set the events of selected edges between two sets of levels. Log entry 104 DEDUCED. -/
def gpioEvents (s : State) (old new : Nat) : State :=
  let rise := clearBits new old &&& s.rd PKG_GPIO_EDGE_RISE pkg
  let fall := clearBits old new &&& s.rd PKG_GPIO_EDGE_FALL pkg
  (s.raise PKG_GPIO_EVENT_RISE pkg rise).raise PKG_GPIO_EVENT_FALL pkg fall

/-- An operation that may move the output levels; a driven level persists. Log entry 104 DEDUCED. -/
def gpioMove (s : State) (f : State → State) : State :=
  let t := f s
  if s.gpioDriven && t.gpioDriven then t.gpioEvents s.gpioLevel t.gpioLevel else t

/-- An edge that the board gives a ball: shorter than 3 fabric cycles it sets no event. -/
def gpioEdge (s : State) (g : Nat) (rising : Bool) (cycles : Nat) : State :=
  let old := s.gpioLevel
  let s := { s with pins := { s.pins with gpio := setBit s.pins.gpio g rising } }
  if 3 ≤ cycles ∧ s.gpioDriven then s.gpioEvents old s.gpioLevel else s

/-! ### Boundary scan (R452) -/

/-- What every die's IDCODE register holds. Log entry 105 PRESUMED. -/
def idCode (s : State) : Nat :=
  match s.part.size with
  | .d2 => 0x1FA0274B
  | .d4 => 0x1FA0474B
  | .d8 => 0x1FA0874B

/-- The instruction of a die's test access port is loaded. Log entry 105 PRESUMED. -/
def tap (s : State) (d ir : Nat) : State :=
  { s with taps := s.taps.set {} (unitKey d 0) { s.taps.get {} (unitKey d 0) with ir := ir } }

/-- A die's port has the boundary register selected: SAMPLE/PRELOAD or EXTEST. -/
def tapCells (s : State) (d : Nat) : Bool :=
  (s.taps.get {} (unitKey d 0)).ir == 1 || (s.taps.get {} (unitKey d 0)).ir == 2

/-- What the register that a die's port has selected holds when a scan of another die's begins. Log entry 105 PRESUMED. -/
def tapReg (s : State) (d : Nat) : List Bool :=
  let x := s.taps.get {} (unitKey d 0)
  if s.tapCells d then x.cells
  else if x.ir = 3 then (List.range 32).map fun i => s.idCode.testBit i
  else [false]

/-- The registers of the chain from JTAG_TDO back to JTAG_TDI, the last die's first: `reg` at die `d`. -/
def chain (s : State) (d : Nat) (reg : List Bool) : List (Nat × List Bool) :=
  s.dieList.reverse.map fun e => (e, if e = d then reg else s.tapReg e)

/-- Shift bits through the chain, with `reg` captured at die `d`: what comes out, and what stays in the boundary registers that
are selected. Log entry 105 PRESUMED. -/
def scan (s : State) (d : Nat) (reg tdi : List Bool) : State :=
  let c := s.chain d reg
  let bits := c.flatMap Prod.snd ++ tdi
  let stay := c.foldl (fun (a : Store TapSt × List Bool) x =>
    (if s.tapCells x.1 then a.1.set {} (unitKey x.1 0) { a.1.get {} (unitKey x.1 0) with cells := a.2.take x.2.length } else a.1,
      a.2.drop x.2.length)) (s.taps, bits.drop tdi.length)
  { s with taps := stay.1 }.emit (.scan (bits.take tdi.length))

end State

/-! ### Rows -/

/-- RAIL_LOW (R449). -/
def execRailLow (die : Fin 8) (rail : Rail) (s : State) : Host.Outcome State Fault Refusal :=
  runDie s die fun s => s.railFalls die rail

/-- RAIL_RECOVER (R451). -/
def execRailRecover (die : Fin 8) (rail : Rail) (s : State) : Host.Outcome State Fault Refusal :=
  runDie s die fun s => s.railRises die rail

/-- GPIO_EDGE (R442). -/
def execGpioEdge (pin : Fin 16) (rising : Bool) (cycles : Nat) (s : State) : Host.Outcome State Fault Refusal :=
  run s fun s => s.gpioEdge pin rising cycles

/-- JTAG_BYPASS (R452): one bit that captures 0. -/
def execJtagBypass (die : Fin 8) (tdi : List Bool) (s : State) : Host.Outcome State Fault Refusal :=
  runDie s die fun s => (s.tap die 0).scan die [false] tdi

/-- JTAG_SAMPLE_PRELOAD (R452): the pins are sampled and the cells preloaded. -/
def execJtagSamplePreload (die : Fin 8) (pins tdi : List Bool) (s : State) : Host.Outcome State Fault Refusal :=
  runDie s die fun s => (s.tap die 1).scan die pins tdi

/-- JTAG_EXTEST (R452): the cells drive the balls, and the pins are captured. -/
def execJtagExtest (die : Fin 8) (pins tdi : List Bool) (s : State) : Host.Outcome State Fault Refusal :=
  runDie s die fun s => (s.tap die 2).scan die pins tdi

/-- JTAG_IDCODE (R452): the identification register, least significant bit first. -/
def execJtagIdcode (die : Fin 8) (tdi : List Bool) (s : State) : Host.Outcome State Fault Refusal :=
  runDie s die fun s => (s.tap die 3).scan die ((List.range 32).map fun i => s.idCode.testBit i) tdi

/-- JTAG_CLAMP (R452): the cells drive the balls, with the bypass register selected. -/
def execJtagClamp (die : Fin 8) (tdi : List Bool) (s : State) : Host.Outcome State Fault Refusal :=
  runDie s die fun s => (s.tap die 4).scan die [false] tdi

/-- JTAG_HIGHZ (R452): the balls float, with the bypass register selected. -/
def execJtagHighz (die : Fin 8) (tdi : List Bool) (s : State) : Host.Outcome State Fault Refusal :=
  runDie s die fun s => (s.tap die 5).scan die [false] tdi

/-- REFXO_LOSS (R331). -/
def execRefxoLoss (s : State) : Host.Outcome State Fault Refusal := run s fun s => s.refxoLost

/-- REFXO_RETURN (R331): the root clock locks again. Log entry 106 DEDUCED. -/
def execRefxoReturn (s : State) : Host.Outcome State Fault Refusal :=
  run s fun s => { s with pins := { s.pins with refxo := true } }

end Sys2Proof.Machine
end

