-- ==== Sys2Proof/Machine/Startup.lean ====
section
/-! DEFINITION. The end of a start (spec/16, R411 steps 8 to 10, R412, R413): foreground passes, the wait for a record, the
converters, and the rejoin of a die (spec/01, R37, R31, R459). -/
namespace Sys2Proof.Machine
open Sys2Proof

namespace State

/-! ### Foreground passes and the converters (R411, R412) -/

/-- A die starts: its engines run, and it has not begun base camp (`BUP_STATUS.STATE` 2). -/
def startingUp (s : State) (d : Nat) : Bool := (s.die d).released && s.rd BUP_STATUS_STATE d == 2

/-- Firmware starts a foreground pass of a scope. -/
def beginPass (s : State) (d scope : Nat) : State :=
  ((s.wr CAL_STATUS_FG_STATE d 1).wr CNV_STATUS_FG_ACTIVE d 1).modCnv d fun x => { x with fgScope := scope, fgFailed := 0 }

/-- Every converter of a die is enabled, and background calibration runs (R411, step 10). -/
def convertersStart (s : State) (d : Nat) : State :=
  let s := s.forEach (List.range 8) fun t u => t.converter d u true 0 0
  ((s.wr CAL_CTRL_BG_ADC_EN d 1).wr CAL_CTRL_BG_DAC_EN d 1).showEstimate

/-- A foreground pass ends. What a good pass wrote becomes the active set at once; without the sampling reference the swap
waits; where firmware may not write the set it asks for no switch (R111, R113). Log entry 169 DEDUCED.
In a start the quick ADC pass is followed by the DAC pass, and that by the converters (R411, R120). -/
def foregroundEnd (s : State) (d : Nat) (r : FgResult) : State :=
  if s.rd CAL_STATUS_FG_STATE d ≠ 1 then s
  else
    let scope := (s.cnvSt d).fgScope
    let owns := firmwareOwns s d
    let s := s.fgPassEnd d r
    if s.rd CAL_STATUS_FG_STATE d ≠ 2 then s
    else
      let s := if owns then s.wr CNV_COEF_CTRL_SWITCH_PENDING d 1 else s
      let s := if owns && s.flag CNV_STATUS_SCLK_LOCK d then s.endSwitch d else s
      if !s.startingUp d then s
      else if scope = 2 then s.convertersStart d
      else s.beginPass d 2

/-- The wait for a record ends without one: the start is a cold one (R412). -/
def coldPasses (s : State) (d : Nat) : State :=
  if s.startingUp d && s.flag BUP_STATUS_REC_WAITING d then
    ((s.wr BUP_STATUS_REC_WAITING d 0).wr BUP_STATUS_WARM d 0).beginPass d 0
  else s

/-- RESTORE during the wait of a start: a good record makes it a warm start, whose converters come on at once; a refused one
ends the wait (R412). -/
def restoreInStart (s : State) (d : Nat) : State :=
  if s.flag CAL_REC_CTRL_BUSY d then s.calRestore d
  else
    let s := s.calRestore d
    if s.startingUp d && s.flag BUP_STATUS_REC_WAITING d then
      if (s.cnvSt d).recResult = some recRestored ∨ (s.cnvSt d).restoring then
        ((s.wr BUP_STATUS_REC_WAITING d 0).wr BUP_STATUS_WARM d 1).convertersStart d
      else s.coldPasses d
    else s

/-- The end of verification (R129): after a failure every converter is disabled and its domains go down. -/
def verifyEnd (s : State) (d : Nat) : State :=
  let failed := (s.cnvSt d).verifying && (s.cnvSt d).verifyBad
  let s := if failed then s.forEach (List.range 8) fun t u => t.converter d u false 0 0 else s
  s.calVerifyEnd d

/-! ### Rejoin (R37, R31, R459) -/

/-- Boundary subcarriers of active neighbours that face a die and are dormant: die and subcarrier (R31). -/
def dormantFacing (s : State) (d : Nat) : List (Nat × Nat) :=
  let side (e i : Nat) (ok : Bool) : List (Nat × Nat) :=
    if ok && s.sameTeam d e && s.isActive e && !(s.txOn e i && s.rxOn e i) && !s.armRetired e i then [(e, i)] else []
  side (d - 1) 7 (s.teamPos d != 0) ++ side (d + 1) 0 true

/-- The values that a die's staged fields had before it took the base-camp plan are staged again; a die that carried nothing
takes those of the PLAN section. Log entry 116 DEDUCED. -/
def stageFormer (s o : State) (d : Nat) : State :=
  let t := s.teamBase d
  let keys := ((o.regs ++ s.regs).map Prod.fst).filter fun k => k.inst == d && (stagedField k).isSome && o.keyActive k != s.keyActive k
  let former := (keys.map fun k => (k, o.keyActive k))
  let goal := ((s.team t).goal.keep fun k => k.inst == d)
  let es := if o.rd TXD_CTRL_SC_EN d = 0 then goal else former
  { s with staged := es.foldl (fun (m : Store Nat) e => m.put e.1 e.2) s.staged }

/-- A departed die comes back (R37): in a team of one by a rebase (R459, R348); else at base-camp format, with the plan change
that raises its slice. A dormant neighbouring boundary subcarrier is woken first (R31). Log entry 116 DEDUCED. -/
def startRejoin (s : State) (d : Nat) : State :=
  let t := s.teamBase d
  if !s.rejoinReady d then s
  else if s.teamSize d = 1 then
    let quiet := (s.die d).unparked
    let s := s.setMember d 1
    (s.modTeam t fun x => { x with rebase := true, rejoin := if quiet then [] else [d] }).modDie d fun x =>
      { x with rejoinReq := false, unparked := false }
  else if s.txn.isOpen || s.rd FRM_PLAN_STATUS_STATE t != 0 || (s.team t).baseCamp then s
  else
    let facing := s.dormantFacing d
    let lead := max 2 (s.rd IMG_TXN_CTRL_LEAD pkg)
    if !facing.isEmpty then
      let s := s.setMember d 1
      (s.forEach facing fun u x => u.stageArms x.1 x.2 true).openTxn false lead
    else
      let o := s
      let s := ((s.setMember d 1).campDie d).modDie d fun x => { x with shiftStopped := false }
      let s := (s.wr BUP_STATUS_STATE d 3).stageFormer o d
      let s := s.modTeam t fun x => { x with rejoin := if x.rejoin.contains d then x.rejoin else x.rejoin ++ [d] }
      let s := s.openTxn false lead
      { s with txn := { s.txn with planTeam := some t } }

end State

/-! ### Rows -/

/-- FG_PASS_END (R116, R120, R411). -/
def execFgPassEnd (die : Fin 8) (result : FgResult) (s : State) : Host.Outcome State Fault Refusal :=
  runDie s die fun s => s.foregroundEnd die result

/-- REC_WAIT_EXPIRE (R412). -/
def execRecWaitExpire (die : Fin 8) (s : State) : Host.Outcome State Fault Refusal := runDie s die fun s => s.coldPasses die

/-- CAL_RESTORE (R128, R412). -/
def execCalRestore (die : Fin 8) (s : State) : Host.Outcome State Fault Refusal := runDie s die fun s => s.restoreInStart die

/-- CAL_VERIFY_END (R129). -/
def execCalVerifyEnd (die : Fin 8) (s : State) : Host.Outcome State Fault Refusal := runDie s die fun s => s.verifyEnd die

/-- RX_ARM_TRACKING (R148): the arm is in service. -/
def execRxArmTracking (die sc : Fin 8) (s : State) : Host.Outcome State Fault Refusal :=
  runDie s die fun s => s.rxTracking die sc

/-- REJOIN_START (R37). -/
def execRejoinStart (die : Fin 8) (s : State) : Host.Outcome State Fault Refusal := runDie s die fun s => s.startRejoin die

end Sys2Proof.Machine
end

