-- ==== Sys2Proof/Machine/Registers.lean ====
section
/-! DEFINITION. What a read and a write of each register do (R8 to R12, R87): the stored value, the nearest bound where the
register table names one, and the action of a write that has one. -/
namespace Sys2Proof.Machine
open Sys2Proof

/-- Who writes: the host over a management path, engine firmware, or the image loader. Log entry 150 DEDUCED. -/
inductive Writer where
  | host
  | firmware
  | loader
deriving DecidableEq, Repr

/-! ### Nearest bounds -/

/-- Unsigned fields whose table stores a value out of range as the nearest bound. Log entry 129 DESIGN CHOICE. -/
def bounds : List (Fld × Nat × Nat) :=
  [ (BLK_DIS_CTRL_LIMIT, 1, 65535), (IMG_TXN_CTRL_LEAD, 2, 255), (CAL_SEAM_CTRL_STEP, 1, 15),
    (CAL_LIMITS_0_ADC_OFFSET, limitRange CAL_LIMITS_0_ADC_OFFSET), (CAL_LIMITS_0_GAIN, limitRange CAL_LIMITS_0_GAIN),
    (CAL_LIMITS_0_SKEW, limitRange CAL_LIMITS_0_SKEW), (CAL_LIMITS_0_BW, limitRange CAL_LIMITS_0_BW),
    (CAL_LIMITS_1_DAC_OFFSET, limitRange CAL_LIMITS_1_DAC_OFFSET),
    (CAL_LIMITS_1_SEAM_PLAUS, limitRange CAL_LIMITS_1_SEAM_PLAUS),
    (RXD_FREQ_CTRL_LOOP_SHIFT, 1, 8), (RXD_JOINT_CTRL_SPAN, 1, 65535), (RXD_Q_CTRL_AVG, 1, 255),
    (RXD_SC_CFG_PILOT_WIN, 1, 8), (RXD_SC_CFG_BPS_HALFWIN, 1, 15), (RXD_SC_CFG_BPS_PHASES, 0, 2),
    (TXD_CTRL_PILOT_BOOST, 0, 6), (TXD_LEVEL_LEVEL, 100, 300) ] ++
  [ (FEC_POOL_CTRL_MIN_ITER, 1, 24), (FEC_POOL_CTRL_HIGH, 1, 31), (FEC_POOL_CTRL_GUARANTEE, 1, 24),
    (FEC_POOL_CTRL_MAX_ITER, 1, 24), (FEC_DM_CTRL_AGREE_LLR, 1, 31), (FEC_DM_CTRL_LIST, 0, 2), (FRM_CTRL_HUNT_TH, 1, 255),
    (FRM_PLAN_CTRL_PLAN_WAIT, 1, 255), (FLW_DEF_INTEG_CLEAR, 1, 255), (FLW_DEF_INTEG_SET, 1, 255), (FLW_CHK_SPAN, 1, 64),
    (HLN_HELLO_CFG_LOSS, 2, 255), (HLN_HELLO_CFG_PERIOD, 10, 65535), (HLN_LANE_CFG_DEBOUNCE, 1, 255),
    (ENG_CTRL_WDOG_PERIOD, 1, 4095), (ECC_BUCKET_SIZE, 1, 255), (PKG_PWR_CTRL_WINDOW, 1, 255),
    (PKG_PWR_CTRL_SLEEP_WAIT, 1, 15), (PKG_PWR_THERM_SHED_INTERVAL, 1, 255) ] ++
  [ (TIM_DPLL_CTRL_MODE, 0, 3), (TIM_DPLL_CTRL_BW, 5, 10000), (TIM_LOOP_CFG_PULL_MAX, 1, 65535), (TIM_LOOP_CFG_LOCK_WIN, 1, 255),
    (TIM_SEL_CTRL_CONFLICT, 1, 255), (TIM_SEL_CTRL_QUAL, 1, 255), (TIM_HIST_CFG_AVG, 1, 4095), (TIM_REF_LIM_DRIFT, 1, 255),
    (HKA_SEQ_CTRL_TRIG, 0, 5), (HKA_SEQ_CTRL_PERIOD, 5, 65535), (HKA_SEQ_ENTRY_MODE, 0, 2), (HKA_SEQ_ENTRY_INPUT_A, 0, 23),
    (HKA_SEQ_ENTRY_INPUT_B, 0, 23), (WCH_CH_THR_PERSIST, 1, 255), (PLM_LIMITS_K_MAX, 4, 125), (PLM_LIMITS_K_MIN, 4, 125),
    (BUP_CTRL_CAIRN_LEAD, 2, 255), (BUP_CTRL_RECOVER, 1, 15), (BUP_CTRL_NO_PEER, 1, 15), (BUP_CAIRN_CTRL_DWELL, 1, 255),
    (BUP_CAIRN_CTRL_DET_TH, 1, 255), (FLT_RETRY_CFG_WINDOW, 1, 65535) ]

/-- Signed fields whose table stores a value out of range as the nearest bound. -/
def signedBounds : List (Fld × Int × Int) :=
  [ (TXD_FREQ_TRIM_TRIM, -500, 500), (TXD_XY_BAL_BAL, -100, 100), (TXD_SC_TILT_TILT, -60, 30), (WCH_CH_SHIFT_BIQ_SHIFT, -8, 15),
    (PLM_TX_LEVEL_LEVEL, -100, 140) ]

/-- The value a write of `v` stores in a field. Log entry 129 DESIGN CHOICE. -/
def storedAs (f : Fld) (v : Nat) : Nat :=
  match bounds.find? fun b => b.1 == f with
  | some b => clamp b.2.1 b.2.2 v
  | none =>
    match signedBounds.find? fun b => b.1 == f with
    | some b => ofSigned f.w (clampInt b.2.1 b.2.2 (toSigned f.w v))
    | none => v

namespace State

/-! ### Storing -/

/-- A write of one field by its access type (R8): staged fields change their staged copy (R87), which the loader makes
active at once. Log entry 150 DEDUCED. -/
def storeField (s : State) (w : Writer) (f : Fld) (d k v : Nat) : State :=
  match f.ty with
  | .rw | .rws =>
    if !f.stg then s.wr f d (storedAs f v) k
    else if w = .loader then s.wrBoth f d (storedAs f v) k
    else s.stage f d (storedAs f v) k
  | .w1c => s.lower f d v k
  | _ => s

/-- A write of some fields of a register. -/
def storeFlds (s : State) (w : Writer) (fs : List Fld) (d k v : Nat) : State :=
  fs.foldl (fun (t : State) f => t.storeField w f d k (bitsAt v f.lo f.w)) s

/-- A register write with no action of its own. -/
def storeReg (s : State) (w : Writer) (r : Reg) (d k v : Nat) : State := s.storeFlds w r.flds d k v

/-! ### What reads show -/

/-- Fields that read what the device drives at the moment of the read (RO, R8). Log entry 2 DESIGN CHOICE. -/
def liveField (s : State) (f : Fld) (d : Nat) : Option Nat :=
  if f = PKG_DIE_INFO_DIE_INDEX then some d
  else if f = PKG_INFO_DIE_COUNT then some s.dieCount
  else if f = PKG_INFO_SPEED_GRADE then some (b2n s.part.isX)
  else if f = IMG_STATUS_OTP_ROLLBACK then some (s.otpSt d).rollback
  else if f = IMG_OTP_CTRL_PROGRAMMED then
    some (((List.range 4).map fun i => 2 ^ i * b2n (s.itemProgrammed (s.crown.token.getD 0) i)).sum)
  else if f = IMG_DIE_STATUS_DIRTY then some (b2n (s.dirty d))
  else if f = IMG_CELL_SPARES_FFT then some (s.freeSpares d 0).length
  else if f = IMG_CELL_SPARES_MAC then some (s.freeSpares d 1).length
  else if f = IMG_CELL_SPARES_CORDIC then some (s.freeSpares d 2).length
  else if f = IMG_CELL_SPARES_MAPPER then some (s.freeSpares d 3).length
  else if f = IMG_CELL_SPARES_LDPC then some (s.freeSpares d 4).length
  else if f = IMG_CELL_SPARES_POLY then some (s.freeSpares d 5).length
  else if f = CAL_DIE_ID_LO_ID then some (s.dieId.get 0 (unitKey d 0) % 2 ^ 32)
  else if f = CAL_DIE_ID_HI_ID then some (s.dieId.get 0 (unitKey d 0) / 2 ^ 32)
  else if f = PKG_GPIO_IN_LEVEL then some s.gpioLevel
  else if f = PWR_STATUS_ROOT_LOCKED then some (b2n s.pins.refxo)
  else if f = PKG_DIE_SUPPLY_CORE_OK then some (b2n !(s.railLow d Rail.core.index))
  else if f = PKG_DIE_SUPPLY_RET_OK then some (b2n !(s.railLow d Rail.ret.index))
  else if f = PKG_DIE_SUPPLY_CNV_OK then some (b2n !(s.railLow d Rail.cnv.index))
  else if f = PKG_DIE_SUPPLY_HL_OK then some (b2n !(s.railLow d Rail.hl.index))
  else if f = PKG_DIE_SUPPLY_IO_OK then some (b2n !s.pins.ioLow)
  else none

/-- What a read of a field returns, at its own address or at the staged view (R8, R87). -/
def readField (s : State) (view : Bool) (f : Fld) (d k : Nat) : Nat :=
  if f.ty = .wo then 0
  else
    match s.liveField f d with
    | some v => v % 2 ^ f.w
    | none => if view && f.stg then s.rdStaged f d k else s.rd f d k

/-- The word of some fields of a register. -/
def fieldsWord (s : State) (view : Bool) (fs : List Fld) (d k : Nat) : Nat :=
  (fs.map fun f => s.readField view f d k * 2 ^ f.lo).sum

/-- A read clears RC fields, except at the staged view (R8). -/
def clearRc (s : State) (fs : List Fld) (d k : Nat) : State :=
  fs.foldl (fun (t : State) f => if f.ty = .rc then t.wr f d 0 k else t) s

/-- A read of a register. The read of the last word of a timestamp removes the head entry (R299), except at the staged
view. -/
def readReg (s : State) (view : Bool) (r : Reg) (fs : List Fld) (d k : Nat) : State :=
  let s := s.respond 0 (s.fieldsWord view fs d k)
  if view then s
  else
    let s := s.clearRc fs d k
    if r.flds = [HLN_TS_ENTRY_DATA] ∧ k = 3 then s.setStamps d ((s.stampQ d).drop 1) else s

/-! ### Writes that act, block by block. `w` is the writer, `r` the register, `k` its element and `v` the word. -/

/-- The package-level PKG block (spec/01, 02, 12, 17). -/
def writePkg (s : State) (w : Writer) (r : Reg) (k v : Nat) : State :=
  let t := s.storeReg w r pkg k v
  match r.reg with
  | 0x08 => if bit v 8 then t.askHandover false else t
  | 0x18 =>
    let t := t.forEach (t.dieList.filter fun d => bit v d) fun u d => u.quarantine d 6
    t.forEach (t.dieList.filter fun d => bit v (8 + d)) fun u d => u.startRelease d
  | 0x40 => if s.flag PKG_MGMT_PATH_CTRL_LOCK pkg then s else t
  | 0x104 =>
    t.forEach (t.dieList.filter fun d => bit v (8 + d) && (t.memberState d == 3 || t.memberState d == 1)) fun u d =>
      u.modDie d fun x => { x with rejoinReq := true, shiftStopped := false }
  | 0x200 => if bit v 27 then t.wakeCommand else if bit v 28 then t.sleepCommand else t
  | 0x300 => if s.flag PKG_JTAG_CTRL_LOCK pkg then s else t
  | 0x310 => s.gpioMove fun u => u.storeReg w r pkg k v
  | 0x314 => s.gpioMove fun u => u.storeReg w r pkg k v
  | _ => t

/-- The die-local PKG block: CROWN_STUCK stays while its condition lasts (R46). -/
def writeDiePkg (s : State) (w : Writer) (r : Reg) (d k v : Nat) : State :=
  if r.reg = 0x28 ∧ s.crown.stuck then s else s.storeReg w r d k v

/-- The IMG block at a die (spec/03). -/
def writeDieImg (s : State) (w : Writer) (r : Reg) (d k v : Nat) : State :=
  if r.reg = 0x200 then (if bit v 0 then s.discard d else s) else s.storeReg w r d k v

/-- The package IMG instance (R79, R80, R83, R84, R87, R88, R94): one transaction command at a time acts (R88). -/
def writePkgImg (s : State) (w : Writer) (r : Reg) (k v : Nat) : State :=
  let t := s.storeReg w r pkg k v
  match r.reg with
  | 0x10 =>
    let c := t.crown.token.getD 0
    if bit v 8 && t.image.trying.isNone && t.rd IMG_STATUS_STATE c == 0 then t.beginCopy 3 else t
  | 0x28 => if bitsAt v 0 2 = 0 then t else t.flashCommand (bitsAt v 0 2)
  | 0x30 => s.otpData v
  | 0x34 =>
    let t := s.storeFlds w [IMG_OTP_CTRL_ERR, IMG_OTP_CTRL_DONE] pkg k v
    if bit v 5 then t.otpProgram (bitsAt v 0 2) else t.otpItem (bitsAt v 0 2)
  | 0x3C => s.rollbackAdvance (bitsAt v 0 7)
  | 0x100 =>
    let lead := bitsAt v 0 8
    match bit v 8, bit v 9, bit v 10 with
    | true, false, false => s.txnCommand false lead
    | false, false, true => s.txnCommand true lead
    | false, true, false =>
      if !t.txn.isOpen then t
      else if t.txn.goSent then (t.raise IMG_TXN_STATUS_ABORT_IGNORED pkg).wr IMG_TXN_STATUS_RESULT pkg 0
      else t.abortTxn reasonHostAbort
    | _, _, _ => t
  | 0x200 =>
    if bit v 0 then s.forEach (pkg :: s.dieList.filter fun d => !s.quarantined d) fun u d => u.discard d else s
  | _ => t

/-- CNV (spec/04). A converter that a write turns off holds no word. -/
def writeCnv (s : State) (w : Writer) (r : Reg) (d k v : Nat) : State :=
  match r.reg with
  | 0x00 => (s.forEach (List.range 8) fun t u => t.converter d u (bit v u) (b2n (t.flag CNV_STATUS_SCLK_LOCK d)) t.usNow).wr CNV_CTRL_SENSE_EN d (bitsAt v 8 1)
  | 0x20 =>
    let s := (s.storeFlds w [CNV_COEF_CTRL_WR_ERR, CNV_COEF_CTRL_COPY_BACK] d k v)
    let owner := bit v 4
    if s.flag CNV_COEF_CTRL_SWITCH_PENDING d then
      let s := if bit v 1 then s.raise CNV_EVENT_SWITCH_ERR d else s
      s.modCnv d fun x => { x with ownerNext := some owner }
    else
      let s := s.wrb CNV_COEF_CTRL_OWNER d owner
      if bit v 1 then s.wr CNV_COEF_CTRL_SWITCH_PENDING d 1 else s
  | 0x30 =>
    if s.isActive d && s.rd CNV_RX_DELAY_WHOLE d != bitsAt v 0 7 then s.refuseAccess else (s.storeReg w r d k v).refreshSlew d
  | 0x34 =>
    if s.isActive d && s.rd CNV_TX_DELAY_WHOLE d != bitsAt v 0 7 then s.refuseAccess else (s.storeReg w r d k v).refreshSlew d
  | 0x38 => if s.adcOn d then s.refuseAccess else s.wrRxSkew d v
  | 0x3C => if s.dacOn d then s.refuseAccess else s.wrTxSkew d v
  | _ => s.storeReg w r d k v

/-- A foreground pass is asked for (R116). Log entry 14 DESIGN CHOICE. -/
def fgStart (s : State) (d : Nat) : State :=
  let scope := s.rd CAL_CTRL_FG_SCOPE d
  if s.rd CAL_STATUS_FG_STATE d = 1 then s
  else if s.adcOn d || (scope == 2 && s.dacOn d) then s.wr CAL_STATUS_FG_STATE d 4
  else s.beginPass d (if scope = 3 then 0 else scope)

/-- A record save is asked for (R113, R127). Log entry 128 DEDUCED. -/
def saveAsked (s : State) (d : Nat) : State :=
  if s.flag CAL_REC_CTRL_BUSY d then s.refuseAccess
  else
    let s := s.wr CAL_REC_CTRL_BUSY d 1
    if s.flag CNV_COEF_CTRL_SWITCH_PENDING d then s.modCnv d fun x => { x with saveDue := true } else s.saveRecord d

/-- CAL (spec/04). A die whose SEAM_EN is set starts its loop with acquisition (R123).
Log entries 128 DEDUCED, 168 DESIGN CHOICE. -/
def writeCal (s : State) (w : Writer) (r : Reg) (d k v : Nat) : State :=
  let t := s.storeReg w r d k v
  match r.reg with
  | 0x00 =>
    let t := if t.flag CAL_CTRL_SEAM_EN d && !s.flag CAL_CTRL_SEAM_EN d then t.startAcquire d else t.resumeArms d
    if bit v 0 then t.fgStart d else t
  | 0x60 => if bit v 0 then t.saveAsked d else if bit v 1 then t.restoreInStart d else t
  | _ => t

/-- RXD (spec/05): corrections that the die keeps itself ignore host writes (R133). -/
def writeRxd (s : State) (w : Writer) (r : Reg) (d k v : Nat) : State :=
  if (r.reg = 0x14 ∧ s.flag RXD_DFE_CTRL_IQ_AUTO d) ∨ (r.reg = 0x18 ∧ s.flag RXD_DFE_CTRL_SKEW_AUTO d) then s
  else s.storeReg w r d k v

/-- TXD (spec/06). Log entry 133 DEDUCED. -/
def writeTxd (s : State) (w : Writer) (r : Reg) (d k v : Nat) : State :=
  let t := s.storeReg w r d k v
  match r.reg with
  | 0x10 => t.levelsAtOnce d
  | 0x404 => t.levelsAtOnce d
  | 0x30 =>
    let s := s.storeFlds w [TXD_LUT_CTRL_BYPASS, TXD_LUT_CTRL_WR_ERR, TXD_LUT_CTRL_COPY_BACK] d k v
    let owner := bit v 4
    if s.flag TXD_LUT_CTRL_SWITCH_PENDING d then
      let s := if bit v 1 then s.raise TXD_EVENT_LUT_SWITCH_ERR d else s
      s.modTxDie d fun x => { x with ownerNext := some owner }
    else
      let s := s.wrb TXD_LUT_CTRL_OWNER d owner
      if bit v 1 then s.wr TXD_LUT_CTRL_SWITCH_PENDING d 1 else s
  | _ => t

/-- SEAM (R157 to R159). -/
def writeSeam (s : State) (w : Writer) (r : Reg) (d k v : Nat) : State :=
  if r.reg = 0 then
    (s.storeFlds w (r.flds.filter fun f => f != SEAM_CTRL_COMB_LO_EN && f != SEAM_CTRL_COMB_HI_EN) d k v).seamEnables d
      (bitsAt v 0 1) (bitsAt v 1 1)
  else s.storeReg w r d k v

/-- FEC (R211, R212). -/
def writeFec (s : State) (w : Writer) (r : Reg) (d k v : Nat) : State :=
  match r.reg with
  | 0x00 => s.clusterEnables d (bitsAt v 0 8) s.usNow
  | 0xF0 =>
    let b := (s.fecSt d).bins
    let s := if bit v 0 then
        (s.forEach (List.range 24) fun t i => t.wr FEC_ITER_HIST_COUNT d (b.getD i 0) i).wr FEC_ITER_HIST_FAIL_COUNT d (b.getD 24 0)
      else s
    if bit v 0 || bit v 1 then s.modFec d fun x => { x with bins := List.replicate 25 0 } else s
  | _ => s.storeReg w r d k v

/-- FRM: `FRM_PLAN_CTRL` is written on every die of the team (spec/08, FRM registers). -/
def writeFrm (s : State) (w : Writer) (r : Reg) (d k v : Nat) : State :=
  if r.reg = 0x100 then s.forEach (s.teamDies d) fun t e => t.storeReg w r e k v else s.storeReg w r d k v

/-- FLW: RX_EN acts at the write (R275). -/
def writeFlw (s : State) (w : Writer) (r : Reg) (d k v : Nat) : State :=
  if r.reg = 0x8000 then
    let t := s.storeFlds w (r.flds.filter fun f => f != FLW_CFG_RX_EN) d k v
    if t.flag FLW_CFG_RX_EN d k == bit v 30 then t else t.flowEnable d (2 * k + 1) (bit v 30) t.usNow
  else s.storeReg w r d k v

/-- CRY (R264): a command written while one runs is refused. LOAD goes before ERASE. Log entry 128 DEDUCED. -/
def writeCry (s : State) (w : Writer) (r : Reg) (d k v : Nat) : State :=
  let t := s.storeReg w r d k v
  match r.reg with
  | 0x20 => s.wr CRY_KEY_DATA_DATA d v k
  | 0x4C =>
    let f := bitsAt v 0 9
    let rx := bit v 10
    let next := bit v 11
    if !bit v 12 && !bit v 13 then t
    else if t.flag CRY_KEY_STATUS_BUSY d then t.refuseAccess
    else if !next && t.encrypts d f rx then t.startKeyJob d f rx next 4 none
    else if !bit v 12 then t.startKeyJob d f rx next 1 none
    else
      match (t.otpSt d).imageKey with
      | none => t.startKeyJob d f rx next 3 none
      | some key =>
        match keyUnwrap (kekOf key) (t.wrappedKey d) with
        | none => t.startKeyJob d f rx next 2 none
        | some b => t.startKeyJob d f rx next 1 (some { key := b, id := t.rd CRY_KEY_ID_KEY_ID d, kcv := kcvOf b })
  | _ => t

/-- CRC (R270). -/
def writeCrc (s : State) (w : Writer) (r : Reg) (d k v : Nat) : State :=
  match r.reg with
  | 0x100 => s.crcCfgWrite d k v
  | 0x104 => s.crcRunningWrite d k v
  | _ => s.storeReg w r d k v

/-- HLN (spec/10): a lane whose enable goes to 0 is down at once; one whose enable goes to 1 starts where its group is
enabled (R289, R301). -/
def writeHln (s : State) (w : Writer) (r : Reg) (d k v : Nat) : State :=
  match r.reg with
  | 0x100 =>
    let was := s.flag HLN_LANE_CFG_EN d k
    let ref := s.flag HLN_LANE_CFG_REF_OUT d k
    let t := s.storeReg w r d k v
    let t := if !ref && bit v 0 then t.laneRefLimit d else t
    if was && !bit v 31 then t.laneDown d k 0 0
    else if !was && bit v 31 && (t.laneGrp d k).elim false (fun g => t.flag HLN_GRP_CFG_EN d g) then
      t.wr HLN_LANE_STATUS_STATE d 1 k
    else t
  | 0x400 => s.grpWrite d k v s.usNow
  | _ => s.storeReg w r d k v

/-- ENG (R329). -/
def writeEng (s : State) (w : Writer) (r : Reg) (d k v : Nat) : State :=
  match r.reg with
  | 0x00 => s.forEach (List.range 32) fun t i => t.engineRun d (32 * k + i) (bit v i) 0 t.usNow
  | 0x10 =>
    let s := s.storeFlds w (r.flds.filter fun f => f != ENG_CTRL_DMA_EN) d k v
    s.forEach (List.range 8) fun t c => t.channelEnable d c (bit v (24 + c)) t.usNow
  | _ => s.storeReg w r d k v

/-- MEM (R310, R314, R325, R327). A change of power waits for the bank's first idle cycle. -/
def writeMemReg (s : State) (w : Writer) (r : Reg) (d k v : Nat) : State :=
  match r.reg with
  | 0x20 =>
    let t := s.storeReg w r d k v
    if bit v 28 then t.marchStart d else t
  | 0x1000 =>
    let o := ((s.bankSt d k).owner).getD (s.rd MEM_BANK_CFG_KIND d k, s.rd MEM_BANK_CFG_OWNER d k)
    let s := if o = (bitsAt v 6 2, bitsAt v 0 5) then s else s.bankOwnerWrite d k (bitsAt v 6 2) (bitsAt v 0 5)
    if s.rd MEM_BANK_CFG_POWER d k = min 2 (bitsAt v 8 2) then s else s.bankPowerWrite d k (bitsAt v 8 2) false
  | 0x3000 => s.repairWrite d k 0 v
  | 0x3004 => s.repairWrite d k 1 v
  | _ => s.storeReg w r d k v

/-- ECC (R316, R323): SCRUB_STOP ends the scrub at the word it has reached, which is its first here; the repeated checker
self-test finds every checker good (CHECKER_SELFTEST brings what it finds). Log entry 135 DEDUCED. -/
def writeEcc (s : State) (w : Writer) (r : Reg) (d k v : Nat) : State :=
  if r.reg = 0 then
    let s := s.storeReg w r d k v
    let s := if bit v 2 then s.scrubStart d else s
    if bit v 3 then
      match (s.memSt d).scrub with
      | some x => s.endScrub d x.1 x.1
      | none => s
    else s
  else s.storeReg w r d k v

/-- PWR (R348). -/
def writePwr (s : State) (w : Writer) (r : Reg) (d k v : Nat) : State :=
  if r.reg = 0 then
    if bit v 0 then s.park d else if bit v 1 then s.unpark d else s
  else s.storeReg w r d k v

/-- The package TIM instance (spec/13). -/
def writeTim (s : State) (w : Writer) (r : Reg) (k v : Nat) : State :=
  let t := s.storeReg w r pkg k v
  match r.reg with
  | 0x00 =>
    let m := min 3 (bitsAt v 24 3)
    let u := s.storeFlds w (r.flds.filter fun f => f != TIM_DPLL_CTRL_MODE) pkg k v
    if s.rd TIM_DPLL_CTRL_MODE pkg != m || (m == 2 && s.dpll == 0 && s.flag TIM_DPLL_STATUS_HIST_VALID pkg) then u.modeWrite m
    else if s.rd TIM_DPLL_CTRL_FORCE_REF pkg != bitsAt v 28 4 then u.select
    else u
  | 0x24 => if t.dpll = 0 then t.wrS TIM_DPLL_FREQ_FREQ pkg (t.rdS TIM_FREQ_ADJ_FREQ pkg) else t
  | 0x2C => s.phaseStep (toSigned 32 v)
  | 0x100 => s.refConfig k v
  | 0x200 =>
    let old := s.rdS TIM_REF_OFS_OFFSET pkg k
    let x := clampInt (-500000000) 500000000 (toSigned 32 v)
    let s := s.wrS TIM_REF_OFS_OFFSET pkg x k
    if s.selected = some k ∧ s.absolute k then (s.modTim fun y => { y with phase := y.phase + x - old }).showPhase else s
  | 0x300 => s.outputConfig k false v
  | 0x304 => s.outputConfig k true v
  | 0x340 => s.realignWrite v
  | 0x400 =>
    let s := if bit v 1 then s.modTim fun x => { x with loadDue := true } else s
    if bit v 0 then
      let s := (s.wr TIM_TOD_SNAP_DATA pkg s.tim.todSec 0).wr TIM_TOD_SNAP_DATA pkg (s.tim.todSec / 2 ^ 32) 1
      (s.wr TIM_TOD_SNAP_DATA pkg s.tim.todNs 2).wr TIM_TOD_SNAP_DATA pkg s.tim.todFrac 3
    else s
  | _ => t

/-- HKA (R377 to R379, R392). -/
def writeHka (s : State) (w : Writer) (r : Reg) (d k v : Nat) : State :=
  match r.reg with
  | 0x00 =>
    let was := s.flag HKA_SEQ_CTRL_EN d
    let t := s.storeReg w r d k v
    let t := if was && !bit v 31 then t.seqOff d t.usNow
      else if !was && bit v 31 then
        let t := t.enableUnit d 20 0
        if t.rd HKA_SEQ_CTRL_TRIG d = 5 then t.seqTrigger d else t
      else t
    if bit v 30 && t.rd HKA_SEQ_CTRL_TRIG d == 0 then t.seqTrigger d else t
  | 0x14 => if bit v 31 then s.urgentGo d v else s.urgentFields d v
  | _ => s.storeReg w r d k v

/-- WCH (R380, R388, R391). -/
def writeWch (s : State) (w : Writer) (r : Reg) (d k v : Nat) : State :=
  match r.reg with
  | 0x00 =>
    let s := if bit v 0 then s.wchSync d else s
    if bit v 1 && s.crown.token == some d then s.modSeq d fun x => { x with syncOut := true } else s
  | 0x100 => s.wchConfig d k v
  | 0x108 => s.wchStep d k v
  | _ => s.storeReg w r d k v

/-- PLM (R403, R405, R408). -/
def writePlm (s : State) (w : Writer) (r : Reg) (k v : Nat) : State :=
  match r.reg with
  | 0x00 =>
    let s := (s.storeFlds w (r.flds.filter fun f => f != PLM_CTRL_EN) pkg k v).plmEnable (bit v 31)
    if bit v 25 then s.plmDown false else s
  | 0x80 =>
    let s := s.storeReg w r pkg k v
    let s := if bit v 29 then s.plmAck else s
    if bit v 31 then s.plmTxGo else s
  | _ => s.storeReg w r pkg k v

/-- BUP (R414, R424, R428, R429): the node identity is ignored once fixed; a changed selection after a choice starts
discovery again. -/
def writeBup (s : State) (w : Writer) (r : Reg) (d k v : Nat) : State :=
  let t := s.storeReg w r d k v
  match r.reg with
  | 0x04 => if bit v 31 then t.decideRebase (t.teamBase d) reasonHostAbort else t
  | 0x10 => if (s.die d).nodeFixed then s else t
  | 0x14 => if (s.die d).nodeFixed then s else t
  | 0x20 => if bit v 31 then t.restartDiscovery d else t
  | 0x24 =>
    if (t.team (t.teamBase d)).peer.isSome && s.rd BUP_PEER_SEL_LO_NODE_ID d != v then t.restartDiscovery d else t
  | 0x28 =>
    if (t.team (t.teamBase d)).peer.isSome && s.rd BUP_PEER_SEL_HI_NODE_ID d != v then t.restartDiscovery d else t
  | _ => t

/-- FLT (R432, R433): a write of 0 to DIE releases a retired die; other writes of the field are ignored. -/
def writeFlt (s : State) (w : Writer) (r : Reg) (d k v : Nat) : State :=
  let t := s.storeReg w r d k v
  match r.reg with
  | 0x04 => if bit v 0 then t.clearLog d else t
  | 0x40 => if bit v 31 then s else s.releaseDie d
  | _ => t

/-- The common disable registers of block `k` (R98, R101): LIMIT and MODE act on the drains that run. -/
def writeDis (s : State) (w : Writer) (r : Reg) (d k v : Nat) : State :=
  if r.reg = 0x1FF00 then
    (s.setDisLimit d k (bitsAt v 0 16) s.usNow none).setDisMode d k (bit v 31) none
  else s.storeReg w r d k v

/-- A write of a register of a die's block. -/
def writeDieReg (s : State) (w : Writer) (blk : Nat) (r : Reg) (d k v : Nat) : State :=
  match blk with
  | 0 => s.writeDiePkg w r d k v
  | 1 => s.writeDieImg w r d k v
  | 2 => s.writeCnv w r d k v
  | 3 => s.writeCal w r d k v
  | 4 => s.writeRxd w r d k v
  | 5 => s.writeTxd w r d k v
  | 6 => s.writeSeam w r d k v
  | 7 => s.writeFec w r d k v
  | 8 => s.writeFrm w r d k v
  | 10 => s.writeFlw w r d k v
  | 11 => s.writeCry w r d k v
  | 12 => s.writeCrc w r d k v
  | 13 => s.writeHln w r d k v
  | 14 => s.writeEng w r d k v
  | 15 => s.writeMemReg w r d k v
  | 16 => s.writeEcc w r d k v
  | 17 => s.writePwr w r d k v
  | 20 => s.writeHka w r d k v
  | 21 => s.writeWch w r d k v
  | 22 => s.writePlm w r k v
  | 23 => s.writeBup w r d k v
  | 24 => s.writeFlt w r d k v
  | 27 => s.writeDis w r d k v
  | _ => s.storeReg w r d k v

end State

end Sys2Proof.Machine
end

