-- ==== Sys2Proof/Machine/Bus.lean ====
section
/-! DEFINITION. Register access (spec/00, spec/02): what answers at an address, the errors of R6, R7,
R55 and R63, the staged view and the windows, and the commands that write and read registers. -/
namespace Sys2Proof.Machine
open Sys2Proof

/-- The IMG registers that act at the package instance only (spec/03, IMG registers). -/
def imgPackageOnly : List Nat := [0x10, 0x20, 0x24, 0x28, 0x30, 0x34, 0x3C, 0x100, 0x104, 0x10C, 0x110]

/-- The IMG registers that have one meaning of their own at the package instance: these, DISCARD and the epoch. -/
def imgPackage : List Nat := 0x200 :: imgPackageOnly

/-- The BUP registers of the cairn receiver, which read 0 off the cairn die. Log entry 130 DEDUCED. -/
def cairnReg (r : Nat) : Bool := decide (0x20 ≤ r ∧ r < 0x1000)

/-- The offset of a register spot. -/
def Spot.offset : Spot → Nat
  | .reg _ r _ => r.reg
  | _ => 0

/-- The spot is a register of its own block, not a common disable register. -/
def Spot.own : Spot → Bool
  | .reg b _ _ => b != 27
  | _ => false

/-- The fields that answer while a die's fabric is off: those held in its root domain (R330, R348, R349).
Log entry 120 DEDUCED. -/
def rootFlds (blk : Nat) (r : Reg) : List Fld :=
  if blk = 22 ∨ (blk = 17 ∧ r.reg ≤ 4) ∨ (blk = 24 ∧ (r.reg = 4 ∨ r.reg = 0x10 ∨ 0x100 ≤ r.reg)) ∨ (blk = 0 ∧ r.reg = 0x40) ∨
      (blk = 26 ∧ (r.reg = 0x40 ∨ r.reg = 0x300 ∨ (0x200 ≤ r.reg ∧ r.reg ≤ 0x210))) then r.flds
  else r.flds.filter fun f => f.ty = .rws

namespace State

/-! ### Errors -/

/-- Record an access error at a die: the address of the first is captured (`PKG_DIE_ADDR_ERR`). Log entry 141 DEDUCED. -/
def dieAddrErr (s : State) (d : Nat) (f : Fld) (addr : Nat) : State :=
  let s := if s.anySet PKG_DIE_ADDR_ERR_flds d then s else s.wr PKG_DIE_ADDR_ERR_ADDR_ADDRESS d addr
  s.raise f d

/-- Record an access error at the package: the address of the first is captured (`PKG_ADDR_ERR`). -/
def pkgAddrErr (s : State) (f : Fld) (addr : Nat) : State :=
  let s := if s.anySet PKG_ADDR_ERR_flds pkg then s else s.wr PKG_ADDR_ERR_ADDR_ADDRESS pkg addr
  s.raise f pkg

/-- The fabric of a die is off: only its root domain answers (R330, R333, R348). Log entry 120 DEDUCED. -/
def fabricOff (s : State) (d : Nat) : Bool := s.parked d || (s.die d).held || s.domain d 1 != 0

/-! ### One spot -/

/-- The instance that answers at a spot of die `d`'s window: none where the spot reads 0 and ignores writes.
Log entries 130 DEDUCED, 131 DEDUCED, 132 DEDUCED. -/
def dieInst (s : State) (d blk : Nat) (sp : Spot) (write : Bool) : Option Nat :=
  match blk with
  | 1 => if sp.own && imgPackageOnly.contains sp.offset then none else some d
  | 19 =>
    if !write && s.flag PKG_CROWN_STATUS_STANDBY_VALID pkg && s.rd PKG_CROWN_STATUS_STANDBY pkg == d then some pkg else none
  | 22 => if d ≤ 1 then some pkg else none
  | 23 => if !write && sp.own && cairnReg sp.offset && s.cairnDie (s.teamBase d) != some d then none else some d
  | _ => some d

/-- The instance that answers at a spot of the package region, with `c` the crown (spec/02, 03, 13, 15).
Log entry 132 DEDUCED. -/
def packageInst (c blk : Nat) (sp : Spot) : Option Nat :=
  match blk with
  | 25 => some c
  | 1 => if sp.own && imgPackage.contains sp.offset then some pkg else some c
  | 22 => if c ≤ 1 then some pkg else none
  | _ => some pkg

/-- A write of a register at an instance. -/
def writeReg (s : State) (w : Writer) (blk inst : Nat) (r : Reg) (k v : Nat) : State :=
  if blk = 26 then s.writePkg w r k v
  else if blk = 1 ∧ inst = pkg then s.writePkgImg w r k v
  else if blk = 19 then s.writeTim w r k v
  else s.writeDieReg w blk r inst k v

/-- A read at a spot. -/
def readSpot (s : State) (view : Bool) (inst : Nat) (sp : Spot) (fs : List Fld) : State :=
  match sp with
  | .reg _ r k => s.readReg view r fs inst k
  | .cnvSet active i =>
    s.respond 0 (s.coefRd inst (if active then 1 - s.inactiveSet inst else s.inactiveSet inst) i)
  | .record i => s.respond 0 (s.winRd inst i)
  | .lut active kind c x =>
    let a := s.rd TXD_LUT_CTRL_ACTIVE_SET inst
    s.respond 0 (s.lutRd inst (if active then a else 1 - a) kind c x)
  | .plmTx i => s.respond 0 (s.plm.txWindow.getD i 0)
  | .plmRx i => s.respond 0 (s.plmRxWord i)
  | .empty => s.respond 0

/-- A write of a word of the inactive coefficient set (R111, R113). -/
def coefWindowWrite (s : State) (d : Nat) (byHost : Bool) (i v : Nat) : State :=
  if s.flag CNV_COEF_CTRL_OWNER d != byHost || s.flag CNV_COEF_CTRL_SWITCH_PENDING d then
    (s.raise CNV_COEF_CTRL_WR_ERR d).refuseAccess
  else (s.coefWr d (s.inactiveSet d) i (if i < 640 then v else v % 1024)).respond 0

/-- A write at a spot; `whole` when every field of a register answers. -/
def writeSpot (s : State) (w : Writer) (inst : Nat) (sp : Spot) (fs : List Fld) (whole : Bool) (v : Nat) : State :=
  match sp with
  | .reg blk r k => if whole then (s.respond 0).writeReg w blk inst r k v else (s.respond 0).storeFlds w fs inst k v
  | .cnvSet active i => if active then s.refuseAccess else s.coefWindowWrite inst (w == .host) i v
  | .record i => if s.flag CAL_REC_CTRL_BUSY inst then s.refuseAccess else (s.winWr inst i v).respond 0
  | .lut active kind c x => s.lutWindowWrite inst (w == .host) active kind c x v
  | .plmTx i => (s.modPlm fun x => { x with txWindow := x.txWindow.set i v }).respond 0
  | .plmRx _ => s.respond 0
  | .empty => s.respond 0

/-- The fields that answer at a spot, when the fabric behind it is off or on. -/
def spotFlds (sp : Spot) (off : Bool) : List Fld :=
  match sp with
  | .reg blk r _ => if off then rootFlds blk r else r.flds
  | _ => []

/-- An access at a spot, with the staged view read-only (R87), `inst` the instance that answers and `off` that its fabric
is off. Log entry 120 DEDUCED. -/
def atSpot (s : State) (w : Writer) (view off : Bool) (inst : Option Nat) (sp : Spot) (write : Option Nat) : State :=
  let fs := spotFlds sp off
  if off && fs.isEmpty && (match sp with | .plmTx _ | .plmRx _ => false | _ => true) then s.refuseAccess
  else
    match inst, write with
    | _, some v =>
      if view then s.refuseAccess
      else
        match inst with
        | some i => s.writeSpot w i sp fs (fs == spotFlds sp false) v
        | none => s.respond 0
    | some i, none => s.readSpot view i sp fs
    | none, none => s.respond 0

/-- The staged view of a block: its upper half (R87). -/
def viewOf (off : Nat) : Bool := decide (0x20000 ≤ off)

/-- An access to the window of a die that the part has (R54). Log entry 136 DEDUCED. -/
def atDie (s : State) (w : Writer) (d off : Nat) (write : Option Nat) : State :=
  if s.fabricOff d ∧ 0x680000 ≤ off then s.refuseAccess
  else if 0x680000 ≤ off then
    match memAt off with
    | some (.tcm e) => s.mgmtTcm d e (off % 0x10000 / 4) (write.map fun v => BitVec.ofNat 32 v)
    | some (.bank b) => s.mgmtBank d b (off % 0x20000) (write.map fun v => BitVec.ofNat 32 v)
    | none => (s.dieAddrErr d PKG_DIE_ADDR_ERR_UNMAPPED (dieBase d + off)).respond 0
  else
    let blk := off / 0x40000
    let sp := spotAt blk (off % 0x20000)
    if sp = .empty then
      if s.fabricOff d then s.refuseAccess
      else (s.dieAddrErr d PKG_DIE_ADDR_ERR_UNMAPPED (dieBase d + off)).respond 0
    else s.atSpot w (viewOf (off % 0x40000)) (s.fabricOff d) (s.dieInst d blk sp write.isSome) sp write

/-- An access to the package region, at the crown `c`. Log entries 123 DEDUCED, 136 DEDUCED. -/
def atPackage (s : State) (w : Writer) (c blk off addr : Nat) (write : Option Nat) : State :=
  let sp := spotAt blk (off % 0x20000)
  if sp = .empty then
    if s.rootState then s.refuseAccess else (s.pkgAddrErr PKG_ADDR_ERR_UNMAPPED addr).respond 0
  else s.atSpot w (viewOf off) s.rootState (packageInst c blk sp) sp write

/-! ### Broadcast (R55) -/

/-- The dies in the scope of the broadcast space. -/
def aliasDies (s : State) (team : Bool) : List Nat :=
  if team then s.teamDies (s.rd PKG_BCAST_SEL_DIE pkg) else s.dieList

/-- A broadcast write: every target applies it to its own window, and those that report an error are named. A target that
does not answer within 10 µs (bit n of `silent`) fails with TIMEOUT (R59). Log entries 126 DEDUCED, 141 DEDUCED. -/
def broadcast (s : State) (w : Writer) (dies : List Nat) (off v : Nat) (silent : Nat) (addr : Nat) : State :=
  let r := dies.foldl (fun (a : Nat × State) d =>
    let t := if bit silent d then (a.2.pkgAddrErr PKG_ADDR_ERR_TIMEOUT addr).refuseAccess else a.2.atDie w d off (some v)
    (if t.bus.last.code = 0 then a.1 else a.1 ||| 2 ^ d, t)) (0, s)
  (r.2.wr PKG_BCAST_STATUS_FAIL_MASK pkg r.1).respond (if r.1 = 0 then 0 else 2)

/-- An access to the broadcast space. -/
def atAlias (s : State) (w : Writer) (team : Bool) (off addr : Nat) (write : Option Nat) (silent : Nat := 0) : State :=
  let bad := (s.pkgAddrErr PKG_ADDR_ERR_BCAST_BAD addr).refuseAccess
  if s.rootState then s.refuseAccess
  else
    match write with
    | none => bad
    | some v =>
      if 0x01000000 ≤ off ∨ (team ∧ s.part.dies ≤ s.rd PKG_BCAST_SEL_DIE pkg) then bad
      else
        match (s.aliasDies team).filter fun d => !s.quarantined d && !s.parked d with
        | [] => bad
        | ds => s.broadcast w ds off v (if s.crown.token.any fun c => bit silent c then clearBits silent (2 ^ s.crown.token.getD 0) else silent) addr

/-! ### Path controls (R63) -/

/-- An address lies in the CRY or IMG block of a die, or in the package IMG instance. -/
def secureAddr (addr : Nat) : Bool :=
  match regionOf 8 addr with
  | .die _ off => off / 0x40000 == 1 || off / 0x40000 == 11
  | .everyDie _ off => off / 0x40000 == 1 || off / 0x40000 == 11
  | .package blk _ => blk == 1
  | _ => false

/-- A write over a path is denied. -/
def pathDenies (s : State) (p : Path) (addr : Nat) : Bool :=
  let remote (en : Fld) : Bool := !s.flag en pkg || (secureAddr addr && !s.flag PKG_MGMT_PATH_CTRL_REMOTE_SECURE_EN pkg)
  match p with
  | .spi => false
  | .inband => remote PKG_MGMT_PATH_CTRL_INBAND_WR_EN
  | .pairLine => remote PKG_MGMT_PATH_CTRL_PL_WR_EN

/-! ### One access -/

/-- An access to any address, with the unaligned ones refused (R6); `silent` names the dies, other than the crown, that do not
answer within 10 µs (R59). Log entries 123 DEDUCED, 126 DEDUCED, 136 DEDUCED. -/
def accessAt (s : State) (w : Writer) (addr : Nat) (write : Option Nat) (silent : Nat := 0) : State :=
  match s.crown.token with
  | none =>
    match regionOf s.part.dies addr with
    | .die d off => if addr % 4 ≠ 0 then s.refuseAccess else s.atDie w d off write
    | _ => s.refuseAccess
  | some c =>
    match regionOf s.part.dies addr with
    | .die d off =>
      if bit silent d && d != c then (s.pkgAddrErr PKG_ADDR_ERR_TIMEOUT addr).refuseAccess
      else if addr % 4 ≠ 0 then
        (if s.fabricOff d then s else s.dieAddrErr d PKG_DIE_ADDR_ERR_UNALIGNED addr).refuseAccess
      else s.atDie w d off write
    | .noDie =>
      if s.rootState then s.refuseAccess
      else
        let s := s.pkgAddrErr PKG_ADDR_ERR_NO_DIE addr
        if addr % 4 ≠ 0 then s.refuseAccess else s.respond 0
    | .package blk off => if addr % 4 ≠ 0 then s.refuseAccess else s.atPackage w c blk off addr write
    | .everyDie team off => if addr % 4 ≠ 0 then s.refuseAccess else s.atAlias w team off addr write silent
    | .nothing =>
      if addr % 4 ≠ 0 ∨ s.rootState then s.refuseAccess else (s.pkgAddrErr PKG_ADDR_ERR_UNMAPPED addr).respond 0

/-- Begin an access: its result is that of this address. -/
def begin (s : State) (addr : Nat) : State := { s with bus := { s.bus with last := { addr := addr } } }

/-- An access over a management path that is in service: the path controls come after the alignment (R6, R63).
Log entry 121 DEDUCED. -/
def pathAccess (s : State) (p : Path) (addr : Nat) (write : Option Nat) (silent : Nat := 0) : State :=
  let s := s.begin addr
  if addr % 4 = 0 ∧ write.isSome ∧ s.pathDenies p addr then
    (if s.rootState then s else s.pkgAddrErr PKG_ADDR_ERR_DENIED addr).respond 8
  else s.accessAt .host addr write silent

/-- The endpoint serves a path now (R46, R54, R349): none where the access is not answered at all. -/
def pathServed (s : State) (p : Path) : Option Bool :=
  match s.crown.endpoint, p with
  | .off, _ => none
  | .service, .inband => if s.rootState then none else some true
  | .service, _ => some true
  | .takeover, .spi => some false
  | .takeover, _ => none
  | .handover, _ => some false

/-- An address lies in the package region. -/
def inPackageRegion (addr : Nat) : Bool := decide (0x20000000 ≤ addr ∧ addr < 0x30000000)

/-- Firmware reaches the registers of its own die window and the package region (R304). -/
def firmwareReaches (s : State) (d addr : Nat) : Bool :=
  match regionOf s.part.dies addr with
  | .die n off => n == d && decide (off < 0x680000)
  | _ => inPackageRegion addr

/-- An access by a path or by firmware. Without a crown, firmware's access to the package region waits: it has no effect
yet, and PKG_ACCESS_NO_CROWN ends it after 10 µs (R54). Log entry 139 DEDUCED. -/
def access (s : State) (src : Origin) (addr : Nat) (write : Option Nat) (silent : Nat := 0) : State :=
  match src with
  | .path p =>
    match s.pathServed p with
    | none => s
    | some false => (s.begin addr).respond 4
    | some true => s.pathAccess p addr write silent
  | .firmware d =>
    if inPackageRegion addr && s.crown.token.isNone then s
    else if s.firmwareReaches d addr then (s.begin addr).accessAt .firmware addr write else (s.begin addr).refuseAccess

/-- The address of a mask register, where the register exists. Log entry 140 DESIGN CHOICE. -/
def maskAddr : MaskReg → Option Nat
  | .pkgIrq => some 0x20000024
  | .pkgFault => some 0x20000028
  | .gpio => some (0x20000000 + PKG_GPIO_EVENT_MASK_ENABLE.reg)
  | .dieIrq d => some (dieBase d + PKG_DIE_IRQ_MASK_ENABLE.reg)
  | .block d b =>
    if (b : Nat) = 19 then some (0x200C0000 + TIM_EVENT_MASK_ENABLE.reg)
    else if (b : Nat) = 22 then some (0x20100000 + PLM_EVENT_MASK_ENABLE.reg)
    else (dieSources.find? fun x => x.1 == (b : Nat)).map fun x => dieBase d + (b : Nat) * 0x40000 + x.2.2.reg
  | .wchStat d => some (dieBase d + 21 * 0x40000 + WCH_STAT_EVENT_MASK_ENABLE.reg)
  | .wchCfgErr d => some (dieBase d + 21 * 0x40000 + WCH_CFG_ERR_MASK_ENABLE.reg)

end State

/-! ### Meanings -/

/-- REGISTER_WRITE (R8). -/
def execRegisterWrite (src : Origin) (addr data : Word) (s : State) : Host.Outcome State Fault Refusal :=
  run s fun s => s.access src addr.toNat (some data.toNat)

/-- RC_READ (R8, R11, R87). -/
def execRcRead (src : Origin) (addr : Word) (s : State) : Host.Outcome State Fault Refusal :=
  run s fun s => s.access src addr.toNat none

/-- SUMMARY_W1C_WRITE (R65): a bit whose level below is still live is set again at once. -/
def execSummaryW1cWrite (die : Option (Fin 8)) (bits : Word) (s : State) : Host.Outcome State Fault Refusal :=
  run s fun s =>
    let addr := match die with
      | some d => dieBase d + 0x20
      | none => 0x20000020
    s.access (.path .spi) addr (some bits.toNat)

/-- IRQ_MASK_WRITE (R65, R67): the summaries and the pins follow at once. Log entry 140 DESIGN CHOICE. -/
def execIrqMaskWrite (reg : MaskReg) (data : Word) (s : State) : Host.Outcome State Fault Refusal :=
  run s fun s =>
    match State.maskAddr reg with
    | some addr => s.access (.path .spi) addr (some data.toNat)
    | none => s

/-- STAGED_WRITE (R87). -/
def execStagedWrite (src : Origin) (addr data : Word) (s : State) : Host.Outcome State Fault Refusal :=
  run s fun s => s.access src addr.toNat (some data.toNat)

/-- STAGED_VIEW_WRITE (R87). -/
def execStagedViewWrite (src : Origin) (addr data : Word) (s : State) : Host.Outcome State Fault Refusal :=
  run s fun s => s.access src addr.toNat (some data.toNat)

/-- BROADCAST_WRITE (R55); the write's `silent` names the dies that do not answer in time (R59). -/
def execBroadcastWrite (src : Origin) (addr : Word) (data : Sent Word) (s : State) :
    Host.Outcome State Fault Refusal :=
  run s fun s => s.access src addr.toNat (some data.value.toNat) data.silent.toNat

end Sys2Proof.Machine
end

