-- ==== Sys2Proof/Machine/Endpoint.lean ====
section
/-! DEFINITION. The management endpoint (spec/02): SPI frames, accesses forwarded over the ring, management messages and
the MGMT packets of the pair-line modem. -/
namespace Sys2Proof.Machine
open Sys2Proof

/-! ### Management messages (R61) -/

/-- A parsed request record. -/
structure MgmtRec where
  op   : Nat
  addr : Nat
  data : Nat
deriving DecidableEq, Repr

/-- A parsed message. -/
structure MgmtMsg where
  flags : Nat
  seq   : Nat
  recs  : List MgmtRec
deriving DecidableEq, Repr

/-- Bytes of a message before its check: records and padding up to a multiple of 4. -/
def mgmtBody (n : Nat) : Nat := (8 + 9 * n + 3) / 4 * 4

/-- The records of a message. -/
def mgmtRecs : Nat → List Byte → List MgmtRec
  | 0, _ => []
  | n + 1, bs =>
    { op := natLE (bs.take 1), addr := natLE ((bs.drop 1).take 4), data := natLE ((bs.drop 5).take 4) } ::
      mgmtRecs n (bs.drop 9)

/-- Parse a message: none when its VERSION, COUNT, length or CHECK is invalid (R61, R62). Log entry 124 DEDUCED. -/
def mgmtParse (bs : List Byte) : Option MgmtMsg :=
  match bs with
  | version :: flags :: count :: _ :: q0 :: q1 :: _ :: _ :: rest =>
    let n := count.toNat
    if version = 1 ∧ 1 ≤ n ∧ n ≤ 16 ∧ bs.length = mgmtBody n + 4 ∧
        natLE (bs.drop (mgmtBody n)) = crc32c (bs.take (mgmtBody n)) then
      some { flags := flags.toNat, seq := natLE [q0, q1], recs := mgmtRecs n rest }
    else none
  | _ => none

/-- The bytes of a response: RESPONSE set, STOP_ON_ERROR and SEQ as in the request, and one record for each result.
Log entry 124 DEDUCED. -/
def mgmtPack (m : MgmtMsg) (rs : List Resp) : List Byte :=
  let head := bytesLE 1 1 ++ bytesLE 1 (1 + 2 * b2n (bit m.flags 1)) ++ bytesLE 1 rs.length ++ bytesLE 1 0 ++
    bytesLE 2 m.seq ++ bytesLE 2 0
  let body := head ++ rs.flatMap fun r => bytesLE 1 r.code ++ bytesLE 4 r.addr ++ bytesLE 4 r.data
  let full := body ++ List.replicate (mgmtBody rs.length - body.length) 0
  full ++ bytesLE 4 (crc32c full)

/-- The status of a message record after an error, with STOP_ON_ERROR set (R57). -/
def codeSkipped : Nat := 7

namespace State

/-- The kept response of a remote path (R62). -/
def kept (s : State) : RemotePath → Option Kept
  | .inband => s.bus.keptInband
  | .pairLine => s.bus.keptPair

/-- Keep a response. -/
def keep (s : State) (p : RemotePath) (k : Kept) : State :=
  match p with
  | .inband => { s with bus := { s.bus with keptInband := some k } }
  | .pairLine => { s with bus := { s.bus with keptPair := some k } }

/-- One record of a message (R61): NOP, READ, WRITE, and anything else BAD_OPCODE. A read returns its data. -/
def runRecord (s : State) (p : Path) (r : MgmtRec) (silent : Nat := 0) : State :=
  match r.op with
  | 0 => (s.begin r.addr).respond 0
  | 1 => s.pathAccess p r.addr none silent
  | 2 => s.pathAccess p r.addr (some r.data) silent
  | _ => (s.begin r.addr).respond 5

/-- The records of a message in order (R62, R64): after an error with STOP_ON_ERROR the rest is skipped; once a record has
taken the endpoint out of service, the rest completes with an error. Log entries 125 DEDUCED, 126 DEDUCED. -/
def runRecords (s : State) (p : Path) (stop : Bool) (recs : List MgmtRec) (silent : Nat := 0) : State × List Resp :=
  recs.foldl (fun (a : State × List Resp) r =>
    if stop && a.2.any fun x => x.code != 0 then (a.1, a.2 ++ [{ code := codeSkipped, addr := r.addr }])
    else if a.1.crown.endpoint != .service then (a.1, a.2 ++ [{ code := 2, addr := r.addr }])
    else
      let t := a.1.runRecord p r silent
      (t, a.2 ++ [t.bus.last])) (s, [])

/-- The path that carries a message. -/
def pathOf : RemotePath → Path
  | .inband => .inband
  | .pairLine => .pairLine

/-- The enable of a remote path. -/
def pathEnabled (s : State) : RemotePath → Bool
  | .inband => s.flag PKG_MGMT_PATH_CTRL_INBAND_EN pkg
  | .pairLine => s.flag PKG_MGMT_PATH_CTRL_PL_EN pkg

/-- An error of a message, which has no address of its own. Log entry 122 DEDUCED. -/
def messageErr (s : State) (f : Fld) : State := if s.rootState then s else s.raise f pkg

/-- Run a message's records, keep the response and send it, unless a record took the endpoint out of service (R62).
Log entry 125 DEDUCED. -/
def runMessage (s : State) (p : RemotePath) (m : MgmtMsg) (silent : Nat := 0) : State × Option (List Byte) :=
  let r := s.runRecords (pathOf p) (bit m.flags 1) m.recs silent
  let out := mgmtPack m r.2
  if r.1.crown.endpoint = .service then (r.1.keep p { seq := m.seq, bytes := out }, some out) else (r.1, none)

/-- A message reaches the endpoint (R62): the response it sends, if any. Log entry 124 DEDUCED. -/
def message (s : State) (p : RemotePath) (bytes : List Byte) (silent : Nat := 0) : State × Option (List Byte) :=
  match s.pathServed (pathOf p) with
  | none => (s, none)
  | some served =>
    let s := if s.pathEnabled p then s else s.messageErr PKG_ADDR_ERR_PATH_OFF
    match mgmtParse bytes with
    | none => (s.messageErr PKG_ADDR_ERR_BAD_MSG, none)
    | some m =>
      if !s.pathEnabled p || bit m.flags 0 then (s, none)
      else if !served then
        (s, some (mgmtPack m (m.recs.map fun r => { code := 4, addr := r.addr })))
      else
        match s.kept p with
        | some k =>
          if k.seq = m.seq then (s, some k.bytes) else s.runMessage p m silent
        | none => s.runMessage p m silent

/-- A message and what its path does with the response (R61, R405): an in-band or pair-line message, or a MGMT packet. -/
def serveMessage (s : State) (m : WaitMsg) : State :=
  let r := s.message m.path m.bytes m.silent
  match r.2 with
  | some bs => if m.packet then r.1.plmSend 1 bs else r.1.emit (.response m.path bs)
  | none => r.1

/-- A message arrives: while an access of another path runs it waits for it (R64). -/
def offerMessage (s : State) (m : WaitMsg) : State :=
  if s.bus.running.isSome && s.crown.endpoint == .service then
    { s with bus := { s.bus with waiting := s.bus.waiting ++ [m] } }
  else s.serveMessage m

/-- The messages that waited are served in order of arrival (R64). -/
def serveWaiting (s : State) : State :=
  let ms := s.bus.waiting
  { s with bus := { s.bus with waiting := [] } }.forEach ms serveMessage

/-! ### SPI frames (R56, R58) -/

/-- The number spelled by bits, most significant first. -/
def bitsBE (bs : List Bool) : Nat := bs.foldl (fun a b => 2 * a + b2n b) 0

/-- The 80 bits of a frame of R56 whose first byte is `head`: 72 bits and their CRC-8. -/
def spiBits (head addr data : Nat) : List Byte :=
  let body := bytesBE 1 head ++ bytesBE 4 addr ++ bytesBE 4 data
  body ++ bytesBE 1 (crc8 body)

/-- The MISO frame that carries a result (R56). -/
def misoFrame (r : Resp) : List Byte := spiBits r.code r.addr r.data

/-- What the MOSI bits of a frame spell (R56, R57): why it is not executed, or its opcode, address and data. The length is
checked first, then the CRC. -/
def spiParse (mosi : List Bool) : SpiBad ⊕ (Nat × Nat × Nat) :=
  let v := bitsBE mosi
  let addr := bitsAt v 40 32
  if mosi.length ≠ 80 then .inl .length
  else if crc8 (bytesBE 9 (v / 256)) ≠ v % 256 then .inl (.crc (BitVec.ofNat 32 addr))
  else if 2 < bitsAt v 72 8 then .inl (.opcode (Fin.ofNat 256 (bitsAt v 72 8)) (BitVec.ofNat 32 addr))
  else .inr (bitsAt v 72 8, addr, bitsAt v 8 32)

/-- What MISO carries during a frame (R56, R58, R46, R47). Log entry 127 DEDUCED. -/
def misoNow (s : State) : Option Resp :=
  let irq := 128 * b2n s.irqLow
  match s.crown.endpoint with
  | .off => none
  | .takeover => some { code := 4 }
  | .handover => some { code := 4 + irq }
  | .service =>
    match s.bus.running with
    | some a => some { code := 1 + irq, addr := a.addr }
    | none => some { s.bus.prev with code := s.bus.prev.code + irq }

/-- The next frame reports a result. Log entry 127 DEDUCED. -/
def report (s : State) (r : Resp) : State := { s with bus := { s.bus with prev := r } }

/-- A frame that executes nothing: MISO carries what it must, and the next frame reports `r`; during a takeover or handover
it reports BUSY, and while an access runs the frame leaves it as it is, so that a later frame reports that access and not why
this one was not executed (log entry 159 DESIGN CHOICE). -/
def spiIdle (s : State) (r : Resp) : State :=
  let s := { s with bus := { s.bus with miso := s.misoNow } }
  match s.crown.endpoint with
  | .off => s
  | .service => if s.bus.running.isSome then s else s.report r
  | _ => s.report { r with code := 4, data := 0 }

/-- The die an access is forwarded to: an existing die other than the crown (R54, R60). Log entry 126 DEDUCED. -/
def forwardTo (s : State) (addr : Nat) : Option Nat :=
  match regionOf s.part.dies addr with
  | .die d _ => if addr % 4 = 0 ∧ s.crown.token ≠ some d then some d else none
  | _ => none

/-- A READ or WRITE frame (R56, R58, R64): an access to another die is forwarded and completes later.
Log entry 127 DEDUCED. -/
def spiAccess (s : State) (addr : Nat) (write : Option Nat) : State :=
  if s.crown.endpoint != .service || s.bus.running.isSome then s.spiIdle { addr := addr }
  else
    let s := { s with bus := { s.bus with miso := s.misoNow } }
    match s.forwardTo addr with
    | none =>
      let s := s.pathAccess .spi addr write
      if s.crown.endpoint = .off then s else s.report s.bus.last
    | some d =>
      let s := s.ringMsg 5 (s.crown.token.getD 0) d
      { s with
        bus := { s.bus with
          running := some
            { path := .spi, die := d, write := write.isSome, addr := addr, data := write.getD 0, done := none } } }

/-- The running access completes (R58), and the messages that waited for it run (R64). -/
def complete (s : State) (r : Resp) : State :=
  { s with bus := { s.bus with running := none, prev := r, last := r } }.serveWaiting

/-- The bits of a frame that the model knows by its parts (R56, R57). -/
def spiFrame (s : State) (mosi : List Bool) : State :=
  match spiParse mosi with
  | .inl (.crc addr) => s.spiIdle { code := 3, addr := addr.toNat }
  | .inl (.opcode _ addr) => s.spiIdle { code := 5, addr := addr.toNat }
  | .inl .length => let x := s.free 32; x.2.spiIdle { code := 6, addr := x.1 }
  | .inr (0, addr, _) => s.spiIdle { addr := addr }
  | .inr (1, addr, _) => s.spiAccess addr none
  | .inr (_, addr, data) => s.spiAccess addr (some data)

end State

/-! ### Meanings -/

/-- SPI_NOP (R58): never discarded; it leaves a running access as it is. -/
def execSpiNop (addr : Word) (s : State) : Host.Outcome State Fault Refusal :=
  run s fun s => s.spiIdle { addr := addr.toNat }

/-- SPI_READ (R56). -/
def execSpiRead (addr : Word) (s : State) : Host.Outcome State Fault Refusal :=
  run s fun s => s.spiAccess addr.toNat none

/-- SPI_WRITE (R56). -/
def execSpiWrite (addr data : Word) (s : State) : Host.Outcome State Fault Refusal :=
  run s fun s => s.spiAccess addr.toNat (some data.toNat)

/-- SPI_FRAME_INVALID (R56, R57): a frame as its MOSI bits. One with another length, a failed CRC or an opcode outside R56 is
not executed, and the next frame reports why; a good frame is the command that it spells. The address echoed after a frame of
another length is a free value (log entry 108). -/
def execSpiFrameInvalid (mosi : List Bool) (s : State) : Host.Outcome State Fault Refusal :=
  run s fun s => s.spiFrame mosi

/-- ACCESS_TIMEOUT (R59). -/
def execAccessTimeout (s : State) : Host.Outcome State Fault Refusal :=
  run s fun s =>
    match s.bus.running with
    | some a => (s.pkgAddrErr PKG_ADDR_ERR_TIMEOUT a.addr).complete { code := 2, addr := a.addr }
    | none => s

/-- REG_REQ (R48): the target executes the forwarded access and sends its result. -/
def execRegReq (s : State) : Host.Outcome State Fault Refusal :=
  run s fun s =>
    match s.bus.running with
    | some a =>
      if a.done.isSome then s
      else
        let last := s.bus.last
        let t := (s.begin a.addr).accessAt .host a.addr (if a.write then some a.data else none)
        let r := t.bus.last
        let t := { t with bus := { t.bus with last := last } }
        match t.bus.running with
        | some b => ({ t with bus := { t.bus with running := some { b with done := some r } } }).ringMsg 6 a.die
            (t.crown.token.getD 0)
        | none => t
    | none => s

/-- REG_RSP (R48): the crown completes the access with the target's result. -/
def execRegRsp (s : State) : Host.Outcome State Fault Refusal :=
  run s fun s =>
    match s.bus.running with
    | some a =>
      match a.done with
      | some r => s.complete r
      | none => s
    | none => s

/-- MGMT_MESSAGE (R62, R64); the message's `silent` names the dies that do not answer a record's access in time (R59). -/
def execMgmtMessage (path : RemotePath) (bytes : Sent (List Byte)) (s : State) :
    Host.Outcome State Fault Refusal :=
  run s fun s =>
    if path == .pairLine && !s.plmRuns then s
    else s.offerMessage { path := path, packet := false, bytes := bytes.value, silent := bytes.silent.toNat }

/-- MGMT_PACKET (R405): a request goes to the endpoint while EXEC is 1, and its response returns as a MGMT packet; every
other packet goes to the host buffer. -/
def execMgmtPacket (payload : Sent (List Byte)) (s : State) : Host.Outcome State Fault Refusal :=
  run s fun s =>
    if s.flag PLM_CTRL_EXEC pkg && !bit (natLE ((payload.value.drop 1).take 1)) 0 then
      s.offerMessage { path := .pairLine, packet := true, bytes := payload.value, silent := payload.silent.toNat }
    else s.plmHost 1 payload.value

end Sys2Proof.Machine
end

