-- ==== Sys2Proof/Machine/Riscv.lean ====
section
/-! DEFINITION. The base instruction set of the engines (R303): RV32IMC with Zicsr, machine mode only. Decoding of 32-bit and
compressed words, and the arithmetic of the instructions. The standard is named by spec/00; its text is taken from outside
the spec (log entry 109). -/
namespace Sys2Proof.Machine
open Sys2Proof

/-! ### Instructions -/

/-- Arithmetic and logic operations, the M extension among them. -/
inductive Alu where
  | add | sub | sll | slt | sltu | xor | srl | sra | or | and
  | mul | mulh | mulhsu | mulhu | div | divu | rem | remu
deriving DecidableEq, Repr

/-- Branch conditions. -/
inductive Cond where
  | eq | ne | lt | ge | ltu | geu
deriving DecidableEq, Repr

/-- How a CSR instruction changes the register. -/
inductive CsrOp where
  | write | set | clear
deriving DecidableEq, Repr

/-- A decoded instruction. Immediates are sign-extended; `size` is 1, 2 or 4 bytes; a CSR source is a register or a
constant. -/
inductive Rv where
  | lui (rd : Nat) (imm : Word)
  | auipc (rd : Nat) (imm : Word)
  | jal (rd : Nat) (off : Word)
  | jalr (rd rs : Nat) (imm : Word)
  | branch (c : Cond) (a b : Nat) (off : Word)
  | load (size : Nat) (signed : Bool) (rd rs : Nat) (imm : Word)
  | store (size : Nat) (rs src : Nat) (imm : Word)
  | imm (op : Alu) (rd rs : Nat) (imm : Word)
  | reg (op : Alu) (rd a b : Nat)
  | fence
  | ecall
  | ebreak
  | mret
  | wfi
  | csr (op : CsrOp) (rd : Nat) (src : Nat) (const : Bool) (num : Nat)
  | custom
  | illegal
deriving DecidableEq, Repr

/-! ### Fields -/

/-- The `n` bits of a word at bit `lo`. -/
def rvBits (w lo n : Nat) : Nat := (w >>> lo) % 2 ^ n

/-- An `n`-bit number sign-extended to a word. -/
def rvSext (n v : Nat) : Word := (BitVec.ofNat n v).signExtend 32

/-- The immediates of the five formats. -/
def immI (w : Nat) : Word := rvSext 12 (rvBits w 20 12)
def immS (w : Nat) : Word := rvSext 12 (rvBits w 25 7 * 32 + rvBits w 7 5)
def immB (w : Nat) : Word :=
  rvSext 13 (rvBits w 31 1 * 4096 + rvBits w 7 1 * 2048 + rvBits w 25 6 * 32 + rvBits w 8 4 * 2)
def immU (w : Nat) : Word := BitVec.ofNat 32 (rvBits w 12 20 * 4096)
def immJ (w : Nat) : Word :=
  rvSext 21 (rvBits w 31 1 * 1048576 + rvBits w 12 8 * 4096 + rvBits w 20 1 * 2048 + rvBits w 21 10 * 2)

/-- The condition of a branch's funct3. -/
def condOf : Nat → Option Cond
  | 0 => some .eq
  | 1 => some .ne
  | 4 => some .lt
  | 5 => some .ge
  | 6 => some .ltu
  | 7 => some .geu
  | _ => none

/-- The operation of funct7 and funct3. -/
def aluOf (f7 f3 : Nat) : Option Alu :=
  match f7, f3 with
  | 0, 0 => some .add
  | 0, 1 => some .sll
  | 0, 2 => some .slt
  | 0, 3 => some .sltu
  | 0, 4 => some .xor
  | 0, 5 => some .srl
  | 0, 6 => some .or
  | 0, 7 => some .and
  | 32, 0 => some .sub
  | 32, 5 => some .sra
  | 1, 0 => some .mul
  | 1, 1 => some .mulh
  | 1, 2 => some .mulhsu
  | 1, 3 => some .mulhu
  | 1, 4 => some .div
  | 1, 5 => some .divu
  | 1, 6 => some .rem
  | 1, 7 => some .remu
  | _, _ => none

/-- The CSR instruction of a funct3. -/
def csrOf (f3 : Nat) : Option (CsrOp × Bool) :=
  match f3 with
  | 1 => some (.write, false)
  | 2 => some (.set, false)
  | 3 => some (.clear, false)
  | 5 => some (.write, true)
  | 6 => some (.set, true)
  | 7 => some (.clear, true)
  | _ => none

/-! ### Decoding -/

/-- The instruction of a 32-bit word. Log entry 109 PRESUMED. -/
def rvDecode (w : Nat) : Rv :=
  let rd := rvBits w 7 5
  let f3 := rvBits w 12 3
  let a := rvBits w 15 5
  let b := rvBits w 20 5
  let f7 := rvBits w 25 7
  match rvBits w 0 7 with
  | 0x37 => .lui rd (immU w)
  | 0x17 => .auipc rd (immU w)
  | 0x6F => .jal rd (immJ w)
  | 0x67 => if f3 = 0 then .jalr rd a (immI w) else .illegal
  | 0x63 =>
    match condOf f3 with
    | some c => .branch c a b (immB w)
    | none => .illegal
  | 0x03 =>
    match f3 with
    | 0 => .load 1 true rd a (immI w)
    | 1 => .load 2 true rd a (immI w)
    | 2 => .load 4 true rd a (immI w)
    | 4 => .load 1 false rd a (immI w)
    | 5 => .load 2 false rd a (immI w)
    | _ => .illegal
  | 0x23 =>
    match f3 with
    | 0 => .store 1 a b (immS w)
    | 1 => .store 2 a b (immS w)
    | 2 => .store 4 a b (immS w)
    | _ => .illegal
  | 0x13 =>
    if f3 = 1 ∨ f3 = 5 then
      match aluOf f7 f3 with
      | some .sll => .imm .sll rd a (BitVec.ofNat 32 b)
      | some .srl => .imm .srl rd a (BitVec.ofNat 32 b)
      | some .sra => .imm .sra rd a (BitVec.ofNat 32 b)
      | _ => .illegal
    else
      match aluOf 0 f3 with
      | some op => .imm op rd a (immI w)
      | none => .illegal
  | 0x33 =>
    match aluOf f7 f3 with
    | some op => .reg op rd a b
    | none => .illegal
  | 0x0F => if f3 = 0 then .fence else .illegal
  | 0x73 =>
    if f3 = 0 then
      match w with
      | 0x00000073 => .ecall
      | 0x00100073 => .ebreak
      | 0x30200073 => .mret
      | 0x10500073 => .wfi
      | _ => .illegal
    else
      match csrOf f3 with
      | some x => .csr x.1 rd a x.2 (rvBits w 20 12)
      | none => .illegal
  | 0x0B => .custom
  | 0x2B => .custom
  | _ => .illegal

/-- The registers x8 to x15 of a compressed field. -/
def rvcReg (w lo : Nat) : Nat := 8 + rvBits w lo 3

/-- The offsets of compressed loads, stores, jumps and branches. -/
def rvcWordOff (w : Nat) : Word := BitVec.ofNat 32 (rvBits w 5 1 * 64 + rvBits w 10 3 * 8 + rvBits w 6 1 * 4)
def rvcImm6 (w : Nat) : Word := rvSext 6 (rvBits w 12 1 * 32 + rvBits w 2 5)
def rvcJump (w : Nat) : Word :=
  rvSext 12 (rvBits w 12 1 * 2048 + rvBits w 8 1 * 1024 + rvBits w 9 2 * 256 + rvBits w 6 1 * 128 + rvBits w 7 1 * 64 +
    rvBits w 2 1 * 32 + rvBits w 11 1 * 16 + rvBits w 3 3 * 2)
def rvcBranch (w : Nat) : Word :=
  rvSext 9 (rvBits w 12 1 * 256 + rvBits w 5 2 * 64 + rvBits w 2 1 * 32 + rvBits w 10 2 * 8 + rvBits w 3 2 * 2)

/-- Quadrant 0 of the compressed words. -/
def rvcQ0 (w : Nat) : Rv :=
  match rvBits w 13 3 with
  | 0 =>
    let n := rvBits w 7 4 * 64 + rvBits w 11 2 * 16 + rvBits w 5 1 * 8 + rvBits w 6 1 * 4
    if n = 0 then .illegal else .imm .add (rvcReg w 2) 2 (BitVec.ofNat 32 n)
  | 2 => .load 4 true (rvcReg w 2) (rvcReg w 7) (rvcWordOff w)
  | 6 => .store 4 (rvcReg w 7) (rvcReg w 2) (rvcWordOff w)
  | _ => .illegal

/-- Quadrant 1. -/
def rvcQ1 (w : Nat) : Rv :=
  let rd := rvBits w 7 5
  match rvBits w 13 3 with
  | 0 => .imm .add rd rd (rvcImm6 w)
  | 1 => .jal 1 (rvcJump w)
  | 2 => .imm .add rd 0 (rvcImm6 w)
  | 3 =>
    if rvcImm6 w = 0 then .illegal
    else if rd = 2 then
      .imm .add 2 2
        (rvSext 10 (rvBits w 12 1 * 512 + rvBits w 3 2 * 128 + rvBits w 5 1 * 64 + rvBits w 2 1 * 32 + rvBits w 6 1 * 16))
    else .lui rd (rvcImm6 w <<< 12)
  | 4 =>
    let r := rvcReg w 7
    let x := rvcReg w 2
    match rvBits w 10 2, rvBits w 12 1, rvBits w 5 2 with
    | 0, 0, _ => .imm .srl r r (BitVec.ofNat 32 (rvBits w 2 5))
    | 1, 0, _ => .imm .sra r r (BitVec.ofNat 32 (rvBits w 2 5))
    | 2, _, _ => .imm .and r r (rvcImm6 w)
    | 3, 0, 0 => .reg .sub r r x
    | 3, 0, 1 => .reg .xor r r x
    | 3, 0, 2 => .reg .or r r x
    | 3, 0, 3 => .reg .and r r x
    | _, _, _ => .illegal
  | 5 => .jal 0 (rvcJump w)
  | 6 => .branch .eq (rvcReg w 7) 0 (rvcBranch w)
  | _ => .branch .ne (rvcReg w 7) 0 (rvcBranch w)

/-- Quadrant 2. -/
def rvcQ2 (w : Nat) : Rv :=
  let rd := rvBits w 7 5
  let rs := rvBits w 2 5
  match rvBits w 13 3 with
  | 0 => if rvBits w 12 1 = 1 then .illegal else .imm .sll rd rd (BitVec.ofNat 32 rs)
  | 2 =>
    if rd = 0 then .illegal
    else .load 4 true rd 2 (BitVec.ofNat 32 (rvBits w 2 2 * 64 + rvBits w 12 1 * 32 + rvBits w 4 3 * 4))
  | 4 =>
    if rvBits w 12 1 = 0 then
      if rs = 0 then (if rd = 0 then .illegal else .jalr 0 rd 0) else .reg .add rd 0 rs
    else if rs = 0 then (if rd = 0 then .ebreak else .jalr 1 rd 0)
    else .reg .add rd rd rs
  | 6 => .store 4 2 rs (BitVec.ofNat 32 (rvBits w 7 2 * 64 + rvBits w 9 4 * 4))
  | _ => .illegal

/-- The instruction of a compressed word. Log entry 109 PRESUMED. -/
def rvcDecode (w : Nat) : Rv :=
  match rvBits w 0 2 with
  | 0 => rvcQ0 w
  | 1 => rvcQ1 w
  | _ => rvcQ2 w

/-! ### Arithmetic -/

/-- A condition holds of two words. -/
def Cond.holds (c : Cond) (a b : Word) : Bool :=
  match c with
  | .eq => a == b
  | .ne => a != b
  | .lt => decide (a.toInt < b.toInt)
  | .ge => decide (b.toInt ≤ a.toInt)
  | .ltu => decide (a.toNat < b.toNat)
  | .geu => decide (b.toNat ≤ a.toNat)

/-- The result of an operation. Division by zero gives all ones or the dividend, and the overflow of a signed division
gives the dividend or 0, as the M extension says. -/
def Alu.result (op : Alu) (a b : Word) : Word :=
  match op with
  | .add => a + b
  | .sub => a - b
  | .sll => a <<< (b.toNat % 32)
  | .slt => if a.toInt < b.toInt then 1 else 0
  | .sltu => if a.toNat < b.toNat then 1 else 0
  | .xor => a ^^^ b
  | .srl => a >>> (b.toNat % 32)
  | .sra => a.sshiftRight (b.toNat % 32)
  | .or => a ||| b
  | .and => a &&& b
  | .mul => a * b
  | .mulh => BitVec.ofInt 32 (a.toInt * b.toInt / 4294967296)
  | .mulhsu => BitVec.ofInt 32 (a.toInt * (b.toNat : Int) / 4294967296)
  | .mulhu => BitVec.ofNat 32 (a.toNat * b.toNat / 4294967296)
  | .div => if b = 0 then BitVec.allOnes 32 else BitVec.ofInt 32 (a.toInt.tdiv b.toInt)
  | .divu => if b = 0 then BitVec.allOnes 32 else BitVec.ofNat 32 (a.toNat / b.toNat)
  | .rem => if b = 0 then a else BitVec.ofInt 32 (a.toInt.tmod b.toInt)
  | .remu => if b = 0 then a else BitVec.ofNat 32 (a.toNat % b.toNat)

end Sys2Proof.Machine
end

