-- ==== Sys2Proof/Machine/Engines.lean ====
section
/-! DEFINITION. The engines (spec/11, R303 to R307, R311): the address map of an engine, traps, the base instructions, the
complex-vector extension and the DMA channels. -/
namespace Sys2Proof.Machine
open Sys2Proof

/-! ### Complex-vector arithmetic (R305) -/

/-- A shift right by `k` places, rounded to nearest; which way a tie goes is open (log entry 61). -/
def shrNearest (n : Int) (k : Nat) : Int :=
  let d : Int := (2 ^ k : Nat)
  let q := n / d
  let r := 2 * (n % d)
  if r < d then q else if d < r then q + 1 else if Config.tieUp n k then q + 1 else q

/-- Saturation to `w` bits, and whether it changed the value. -/
def saturate (w : Nat) (n : Int) : Int × Bool :=
  let m := clampInt (-(2 ^ (w - 1) : Nat)) ((2 ^ (w - 1) : Nat) - 1) n
  (m, m != n)

/-- A complex element saturated to `w` bits. -/
def CElem.sat (w : Nat) (x : CElem) : CElem × Bool :=
  let i := saturate w x.i
  let q := saturate w x.q
  ({ i := i.1, q := q.1 }, i.2 || q.2)

/-- The exact product of two elements, in units of 2^−30. -/
def CElem.mul (x y : CElem) : CElem := { i := x.i * y.i - x.q * y.q, q := x.i * y.q + x.q * y.i }

/-- An element rounded by a shift. -/
def CElem.shr (x : CElem) (k : Nat) : CElem := { i := shrNearest x.i k, q := shrNearest x.q k }

/-- The sum of two elements. -/
def CElem.add (x y : CElem) : CElem := { i := x.i + y.i, q := x.q + y.q }

/-- An element rotated by an angle in units of 2π × 2^−16. -/
def CElem.rot (x : CElem) (angle : Nat) : CElem :=
  let a := 2 * Arith.pi * (angle : ℚ) / 65536
  let i : ℚ := x.i
  let q : ℚ := x.q
  { i := Arith.round (i * Arith.cos a - q * Arith.sin a), q := Arith.round (i * Arith.sin a + q * Arith.cos a) }

/-- A vector of elements saturated to `w` bits, and whether one saturated. -/
def satVec (w : Nat) (xs : List CElem) : List CElem × Bool :=
  (xs.map fun x => (x.sat w).1, xs.any fun x => (x.sat w).2)

/-- The 32 bytes of a vector register: element by element, I then Q, 16 bits each. -/
def vecBytes (xs : List CElem) : List Byte := xs.flatMap fun x => bytesLE 2 (ofSigned 16 x.i) ++ bytesLE 2 (ofSigned 16 x.q)

/-- A vector register from its 32 bytes. -/
def bytesVec (bs : List Byte) : List CElem :=
  (List.range 8).map fun j =>
    { i := toSigned 16 (natLE ((bs.drop (4 * j)).take 2)), q := toSigned 16 (natLE ((bs.drop (4 * j + 2)).take 2)) }

/-! ### The address map of an engine (R304) -/

/-- What an engine address names: a memory and a byte of it, a register address of the management map, or nothing. -/
inductive EngTarget where
  | memory (m : MemId) (off : Nat)
  | register (addr : Nat)
  | nothing
deriving DecidableEq, Repr

/-- The address map of R304, for engine `e` of die `d`. -/
def engTarget (d e a : Nat) : EngTarget :=
  if a < 0x10000 then .memory (.tcm (Fin.ofNat 64 e)) a
  else if 0x40000000 ≤ a ∧ a < 0x40680000 then .register (dieBase d + (a - 0x40000000))
  else if 0x50000000 ≤ a ∧ a < 0x60000000 then .register (a - 0x50000000 + 0x20000000)
  else if 0x80000000 ≤ a ∧ a < 0x82000000 then
    .memory (.bank (Fin.ofNat 256 ((a - 0x80000000) / 0x20000))) (a % 0x20000)
  else .nothing

/-- Causes of mcause. -/
def causeFetch : Nat := 1
def causeIllegal : Nat := 2
def causeBreak : Nat := 3
def causeLoadAlign : Nat := 4
def causeLoad : Nat := 5
def causeStoreAlign : Nat := 6
def causeStore : Nat := 7
def causeCall : Nat := 11

/-- What an access of an engine answers: its data, an exception, or nothing yet. -/
inductive EngAnswer where
  | data (v : Nat)
  | trap (cause : Nat)
  | wait
deriving DecidableEq, Repr

namespace State

/-! ### Records -/

/-- An engine. -/
def eng (s : State) (d e : Nat) : EngSt := s.engs.get {} (unitKey d e)
def modEng (s : State) (d e : Nat) (f : EngSt → EngSt) : State :=
  { s with engs := s.engs.set {} (unitKey d e) (f (s.eng d e)) }

/-- A general register: x0 reads 0. -/
def xreg (s : State) (d e i : Nat) : Word := if i = 0 then 0 else (s.eng d e).x.getD i 0

/-- Write a general register: a write of x0 is discarded. -/
def setX (s : State) (d e i : Nat) (v : Word) : State :=
  if i = 0 then s else s.modEng d e fun r => { r with x := r.x.set i v }

/-- Set the program counter; an instruction has retired. -/
def goTo (s : State) (d e : Nat) (pc : Word) : State := s.modEng d e fun r => { r with pc := pc, instret := r.instret + 1 }

/-! ### Traps (R303, R307) -/

/-- An exception: the saved state and mtvec, or a halt while HALT_ON_TRAP is 1 (R307). Log entry 109 PRESUMED. -/
def engTrap (s : State) (d e cause : Nat) (tval : Word) : State :=
  let s := s.modEng d e fun r =>
    { r with
      mepc := r.pc, mcause := BitVec.ofNat 32 cause, mtval := tval, mpie := r.mie, mie := false
      pc := r.mtvec &&& 0xFFFFFFFC#32 }
  let s := s.wr ENG_STATUS_MCAUSE d (cause % 16) e
  if s.flag ENG_CTRL_HALT_ON_TRAP d then
    ((s.haltEng d e 3).raise ENG_EVENT_TRAP d (2 ^ (e / 8))).emit
      (.fault d { level := 2, cls := 0, code := codeEngineRestart, block := 14, unit := Fin.ofNat 256 e, detail := 3 })
  else s

/-- A watchdog expires (R307). -/
def engWatchdog (s : State) (d e : Nat) : State :=
  if s.engRuns d e then
    ((s.haltEng d e 2).raise ENG_EVENT_WATCHDOG d (2 ^ (e / 8))).emit
      (.fault d { level := 2, cls := 0, code := codeEngineRestart, block := 14, unit := Fin.ofNat 256 e, detail := 2 })
  else s

/-! ### Accesses -/

/-- A register access of firmware (R304, R6): 32 bits wide; without a crown the package region waits (R54). -/
def engReg (s : State) (addr size : Nat) (write : Option Nat) (cause : Nat) : EngAnswer × State :=
  if size ≠ 4 then (.trap cause, s)
  else if 0x20000000 ≤ addr ∧ s.crown.token.isNone then (.wait, s)
  else
    let t := (s.begin addr).accessAt .firmware addr write
    (if t.bus.last.code = 0 then .data t.bus.last.data else .trap cause, t)

/-- A load of an engine. -/
def engLoad (s : State) (d e a size : Nat) : EngAnswer × State :=
  if a % size ≠ 0 then (.trap causeLoadAlign, s)
  else
    match engTarget d e a with
    | .memory m off =>
      let r := s.readMem d m off size (.engine (Fin.ofNat 64 e))
      (match r.1 with | some bs => .data (natLE bs) | none => .trap causeLoad, r.2)
    | .register addr => s.engReg addr size none causeLoad
    | .nothing => (.trap causeLoad, s)

/-- A store of an engine. -/
def engStore (s : State) (d e a size v : Nat) : EngAnswer × State :=
  if a % size ≠ 0 then (.trap causeStoreAlign, s)
  else
    match engTarget d e a with
    | .memory m off =>
      let r := s.writeMem d m off (bytesLE size v) (.engine (Fin.ofNat 64 e))
      (if r.1 then .data 0 else .trap causeStore, r.2)
    | .register addr => s.engReg addr size (some v) causeStore
    | .nothing => (.trap causeStore, s)

/-- Instruction bytes: from the tightly coupled memory or a bank (log entry 110). -/
def fetchBytes (s : State) (d e a n : Nat) : Option Nat × State :=
  match engTarget d e a with
  | .memory m off => let r := s.readMem d m off n (.engine (Fin.ofNat 64 e)); (r.1.map natLE, r.2)
  | _ => (none, s)

/-- Fetch the instruction at an address: its bits and its length, 2 or 4. Log entry 110 PRESUMED. -/
def engFetch (s : State) (d e a : Nat) : Option (Nat × Nat) × State :=
  if a % 4 = 0 then
    let r := s.fetchBytes d e a 4
    (r.1.map fun w => if w % 4 = 3 then (w, 4) else (w % 65536, 2), r.2)
  else
    let r := s.fetchBytes d e a 2
    match r.1 with
    | none => (none, r.2)
    | some lo =>
      if lo % 4 = 3 then
        let h := r.2.fetchBytes d e (a + 2) 2
        (h.1.map fun x => (lo + 65536 * x, 4), h.2)
      else (some (lo, 2), r.2)

/-! ### Control and status registers (R303, R305, R307, R311) -/

/-- Read a CSR: none where the engine has none. The cycle counters have moved on by an open amount (log entry 111).
Log entry 109 PRESUMED. -/
def csrRead (s : State) (d e n : Nat) : Option Word × State :=
  let r := s.eng d e
  match n with
  | 0x300 => (some (BitVec.ofNat 32 (6144 + 128 * b2n r.mpie + 8 * b2n r.mie)), s)
  | 0x301 => (some 0x40801104#32, s)
  | 0x304 => (some r.mieReg, s)
  | 0x305 => (some r.mtvec, s)
  | 0x340 => (some r.mscratch, s)
  | 0x341 => (some r.mepc, s)
  | 0x342 => (some r.mcause, s)
  | 0x343 => (some r.mtval, s)
  | 0x344 => (some 0, s)
  | 0x7C0 => let x := s.free 32; (some (BitVec.ofNat 32 x.1), x.2)
  | 0x7C1 => (some (BitVec.ofNat 32 (b2n r.sat)), s)
  | 0x7C2 => (some (BitVec.ofNat 32 (b2n r.dmaErr)), s)
  | 0xB00 =>
    let x := s.free 32
    let t := x.2.modEng d e fun y => { y with cycle := (y.cycle + x.1) % 2 ^ 64 }
    (some (BitVec.ofNat 32 (t.eng d e).cycle), t)
  | 0xB80 =>
    let x := s.free 32
    let t := x.2.modEng d e fun y => { y with cycle := (y.cycle + x.1) % 2 ^ 64 }
    (some (BitVec.ofNat 32 ((t.eng d e).cycle / 2 ^ 32)), t)
  | 0xB02 => (some (BitVec.ofNat 32 r.instret), s)
  | 0xB82 => (some (BitVec.ofNat 32 (r.instret / 2 ^ 32)), s)
  | 0xF11 => (some 0, s)
  | 0xF12 => (some 0, s)
  | 0xF13 => (some 0, s)
  | 0xF14 => (some (BitVec.ofNat 32 e), s)
  | _ => (none, s)

/-- Write a CSR. Log entries 109 PRESUMED, 111 DESIGN CHOICE, 143 DEDUCED. -/
def csrWrite (s : State) (d e n : Nat) (v : Word) : State :=
  s.modEng d e fun r =>
    match n with
    | 0x300 => { r with mie := v.getLsbD 3, mpie := v.getLsbD 7 }
    | 0x304 => { r with mieReg := v }
    | 0x305 => { r with mtvec := v &&& 0xFFFFFFFD#32 }
    | 0x340 => { r with mscratch := v }
    | 0x341 => { r with mepc := v &&& 0xFFFFFFFE#32 }
    | 0x342 => { r with mcause := v }
    | 0x343 => { r with mtval := v }
    | 0x7C1 => { r with sat := v.getLsbD 0 }
    | 0x7C2 => { r with dmaErr := v.getLsbD 0 }
    | 0xB00 => { r with cycle := r.cycle / 2 ^ 32 * 2 ^ 32 + v.toNat }
    | 0xB80 => { r with cycle := r.cycle % 2 ^ 32 + v.toNat * 2 ^ 32 }
    | 0xB02 => { r with instret := r.instret / 2 ^ 32 * 2 ^ 32 + v.toNat }
    | 0xB82 => { r with instret := r.instret % 2 ^ 32 + v.toNat * 2 ^ 32 }
    | _ => r

/-- A CSR instruction: a write to a read-only register is illegal, and a set or clear from x0 or 0 writes nothing. -/
def csrOp (s : State) (d e : Nat) (op : CsrOp) (rd src : Nat) (const : Bool) (n bits : Nat) (next : Word) : State :=
  let v := if const then BitVec.ofNat 32 src else s.xreg d e src
  let writes := op == .write || src != 0
  let r := s.csrRead d e n
  match r.1 with
  | none => s.engTrap d e causeIllegal (BitVec.ofNat 32 bits)
  | some old =>
    if writes && 0xC00 ≤ n then s.engTrap d e causeIllegal (BitVec.ofNat 32 bits)
    else
      let w := match op with
        | .write => v
        | .set => old ||| v
        | .clear => old &&& ~~~v
      let t := (r.2.goTo d e next).setX d e rd old
      if writes then t.csrWrite d e n w else t

/-! ### The base instructions -/

/-- An answer becomes the rest of the instruction: an exception traps, an access that waits changes nothing. -/
def withAnswer (s : State) (d e : Nat) (a : Nat) (r : EngAnswer × State) (f : State → Nat → State) : State :=
  match r.1 with
  | .data v => f r.2 v
  | .trap c => r.2.engTrap d e c (BitVec.ofNat 32 a)
  | .wait => s

/-- Sign-extend a loaded value. -/
def loadValue (size : Nat) (signed : Bool) (v : Nat) : Word :=
  if signed then BitVec.ofInt 32 (toSigned (8 * size) v) else BitVec.ofNat 32 v

/-- One instruction of `len` bytes with the bits `bits`, at the engine's program counter.
Log entries 109 PRESUMED, 112 DESIGN CHOICE. -/
def rvExec (s : State) (d e : Nat) (i : Rv) (bits len : Nat) : State :=
  let pc := (s.eng d e).pc
  let next := pc + BitVec.ofNat 32 len
  let illegal := s.engTrap d e causeIllegal (BitVec.ofNat 32 bits)
  match i with
  | .lui rd v => (s.goTo d e next).setX d e rd v
  | .auipc rd v => (s.goTo d e next).setX d e rd (pc + v)
  | .jal rd off => (s.goTo d e (pc + off)).setX d e rd next
  | .jalr rd rs v => (s.goTo d e ((s.xreg d e rs + v) &&& 0xFFFFFFFE#32)).setX d e rd next
  | .branch c a b off => s.goTo d e (if c.holds (s.xreg d e a) (s.xreg d e b) then pc + off else next)
  | .load size signed rd rs v =>
    let a := (s.xreg d e rs + v).toNat
    s.withAnswer d e a (s.engLoad d e a size) fun t x => (t.goTo d e next).setX d e rd (loadValue size signed x)
  | .store size rs src v =>
    let a := (s.xreg d e rs + v).toNat
    s.withAnswer d e a (s.engStore d e a size ((s.xreg d e src).toNat % 2 ^ (8 * size))) fun t _ => t.goTo d e next
  | .imm op rd rs v => (s.goTo d e next).setX d e rd (op.result (s.xreg d e rs) v)
  | .reg op rd a b => (s.goTo d e next).setX d e rd (op.result (s.xreg d e a) (s.xreg d e b))
  | .fence => s.goTo d e next
  | .wfi => s.goTo d e next
  | .ecall => s.engTrap d e causeCall 0
  | .ebreak => s.engTrap d e causeBreak 0
  | .mret =>
    let epc := (s.eng d e).mepc
    (s.goTo d e epc).modEng d e fun r => { r with mie := r.mpie, mpie := true }
  | .csr op rd src const n => s.csrOp d e op rd src const n bits next
  | .custom => s
  | .illegal => illegal

/-- A running engine executes the instruction at its program counter; a word of the custom opcodes is left to the commands
of the complex-vector extension, whose encodings the spec does not give (log entry 112). -/
def engStep (s : State) (d e : Nat) : State :=
  if !s.engRuns d e then s
  else
    let pc := (s.eng d e).pc
    let r := s.engFetch d e pc.toNat
    match r.1 with
    | none => r.2.engTrap d e causeFetch pc
    | some x =>
      match if x.2 = 4 then rvDecode x.1 else rvcDecode x.1 with
      | .custom => s
      | i => r.2.rvExec d e i x.1 x.2

/-! ### The complex-vector extension -/

/-- A vector register and an accumulator. -/
def cvReg (s : State) (d e v : Nat) : List CElem := (s.eng d e).cv.getD v []
def caReg (s : State) (d e a : Nat) : List CElem := (s.eng d e).ca.getD a []

/-- A custom instruction completes: 4 bytes long. Log entry 113 DEDUCED. -/
def cvDone (s : State) (d e : Nat) : State := s.goTo d e ((s.eng d e).pc + 4)

/-- Write a vector register, saturated to 16 bits; a saturation sets the sticky flag (R305). -/
def setCv (s : State) (d e v : Nat) (xs : List CElem) : State :=
  let r := satVec 16 xs
  (s.modEng d e fun y => { y with cv := y.cv.set v r.1, sat := y.sat || r.2 }).cvDone d e

/-- Write an accumulator, saturated to 40 bits. -/
def setCa (s : State) (d e a : Nat) (xs : List CElem) : State :=
  let r := satVec 40 xs
  (s.modEng d e fun y => { y with ca := y.ca.set a r.1, sat := y.sat || r.2 }).cvDone d e

/-- A complex-vector instruction of an engine that runs. -/
def cvRun (s : State) (d e : Nat) (f : State → State) : State := if s.engRuns d e then f s else s

/-- cv.ld: 32 bytes, aligned to 32 bytes, from a memory. -/
def cvLoad (s : State) (d e v a : Nat) : State :=
  if a % 32 ≠ 0 then s.engTrap d e causeLoadAlign (BitVec.ofNat 32 a)
  else
    match engTarget d e a with
    | .memory m off =>
      let r := s.readMem d m off 32 (.engine (Fin.ofNat 64 e))
      match r.1 with
      | some bs => r.2.setCv d e v (bytesVec bs)
      | none => r.2.engTrap d e causeLoad (BitVec.ofNat 32 a)
    | _ => s.engTrap d e causeLoad (BitVec.ofNat 32 a)

/-- cv.st: one whole row, never a partial write. -/
def cvStore (s : State) (d e v a : Nat) : State :=
  if a % 32 ≠ 0 then s.engTrap d e causeStoreAlign (BitVec.ofNat 32 a)
  else
    match engTarget d e a with
    | .memory m off =>
      let r := s.writeMem d m off (vecBytes (s.cvReg d e v)) (.engine (Fin.ofNat 64 e))
      if r.1 then r.2.cvDone d e else r.2.engTrap d e causeStore (BitVec.ofNat 32 a)
    | _ => s.engTrap d e causeStore (BitVec.ofNat 32 a)

/-- cv.dma: a copy joins the queue of the cluster's channel; a channel disabled in ABORT mode refuses its rows (R98,
R329). Log entry 142 DEDUCED. -/
def cvQueue (s : State) (d e : Nat) (j : DmaJob) : State :=
  let c := e / 8
  let s :=
    if bit (s.rd ENG_CTRL_DMA_EN d) c || !s.disAbort d 14 then s.modChannel d c fun q => q ++ [j]
    else s.refuseWork d 14 ((j.len + 31) / 32)
  s.cvDone d e

/-! ### DMA channels (R311) -/

/-- A channel may reach an end of a copy: a memory of its cluster, within it. Log entry 142 DEDUCED. -/
def dmaReaches (c : Nat) (x : DmaEnd) (n : Nat) : Bool :=
  decide ((x.off : Nat) + n ≤ x.mem.size) &&
    (match x.mem with
    | .tcm e => (e : Nat) / 8 == c
    | .bank _ => true)

/-- One row of up to 32 bytes at an offset of a copy: whether it completed. Log entry 143 DEDUCED. -/
def dmaRow (s : State) (d c : Nat) (j : DmaJob) (at_ : Nat) : Bool × State :=
  let n := min 32 (j.len - at_)
  let req := MemReq.dma (Fin.ofNat 8 c)
  let r := s.readMem d j.src.mem ((j.src.off : Nat) + at_) n req
  match r.1 with
  | some bs => r.2.writeMem d j.dst.mem ((j.dst.off : Nat) + at_) bs req
  | none => (false, r.2)

/-- The rows of a copy in order, until one fails. -/
def dmaRows (s : State) (d c : Nat) (j : DmaJob) : Bool × State :=
  (List.range ((j.len + 31) / 32)).foldl (fun (a : Bool × State) i =>
    if a.1 then a.2.dmaRow d c j (32 * i) else a) (true, s)

/-- The copy at the head of a channel's queue completes or stops. -/
def dmaHead (s : State) (d c : Nat) : State :=
  if !bit (s.rd ENG_CTRL_DMA_EN d) c then s
  else
    match s.channel d c with
    | [] => s
    | j :: q =>
      let r := if dmaReaches c j.src j.len && dmaReaches c j.dst j.len then s.dmaRows d c j else (false, s)
      let t := r.2.modChannel d c fun _ => q
      if r.1 then t else t.modEng d j.eng fun y => { y with dmaErr := true }

end State

/-! ### Meanings -/

/-- ENGINE_INSTRUCTION (R303). Log entry 112 DESIGN CHOICE. -/
def execEngineInstruction (die : Fin 8) (eng : Fin 64) (s : State) : Host.Outcome State Fault Refusal :=
  runDie s die fun s => s.engStep die eng

/-- ENGINE_WATCHDOG (R307). Log entry 111 DESIGN CHOICE. -/
def execEngineWatchdog (die : Fin 8) (eng : Fin 64) (s : State) : Host.Outcome State Fault Refusal :=
  runDie s die fun s => s.engWatchdog die eng

/-- ENGINE_TRAP (R307): an exception of a running engine. -/
def execEngineTrap (die : Fin 8) (eng : Fin 64) (cause : Fin 16) (tval : Word) (s : State) :
    Host.Outcome State Fault Refusal :=
  runDie s die fun s => if s.engRuns die eng then s.engTrap die eng cause tval else s

/-- PKG_ACCESS_NO_CROWN (R54, R304): no die has claimed the token within 10 µs. No error bit is recorded.
Log entry 139 DEDUCED. -/
def execPkgAccessNoCrown (die : Fin 8) (engine : Fin 64) (addr : Word) (write : Bool) (s : State) :
    Host.Outcome State Fault Refusal :=
  runDie s die fun s =>
    if s.engRuns die engine ∧ s.crown.token.isNone ∧ 0x50000000 ≤ addr.toNat ∧ addr.toNat < 0x60000000 then
      s.engTrap die engine (if write then causeStore else causeLoad) addr
    else s

/-- CV_LD (R305). Log entry 112 DESIGN CHOICE. -/
def execCvLd (die : Fin 8) (eng : Fin 64) (v : Fin 8) (addr : Word) (s : State) : Host.Outcome State Fault Refusal :=
  runDie s die fun s => s.cvRun die eng fun s => s.cvLoad die eng v addr.toNat

/-- CV_ST (R305). -/
def execCvSt (die : Fin 8) (eng : Fin 64) (v : Fin 8) (addr : Word) (s : State) : Host.Outcome State Fault Refusal :=
  runDie s die fun s => s.cvRun die eng fun s => s.cvStore die eng v addr.toNat

/-- CV_MUL (R305): the product in units of 2^−15, rounded. -/
def execCvMul (die : Fin 8) (eng : Fin 64) (vd va vb : Fin 8) (s : State) : Host.Outcome State Fault Refusal :=
  runDie s die fun s => s.cvRun die eng fun s =>
    s.setCv die eng vd (((s.cvReg die eng va).zip (s.cvReg die eng vb)).map fun p => (p.1.mul p.2).shr 15)

/-- CV_MAC (R305): the exact product joins the accumulator (log entry 113). -/
def execCvMac (die : Fin 8) (eng : Fin 64) (acc : Fin 2) (va vb : Fin 8) (s : State) :
    Host.Outcome State Fault Refusal :=
  runDie s die fun s => s.cvRun die eng fun s =>
    let ps := ((s.cvReg die eng va).zip (s.cvReg die eng vb)).map fun p => p.1.mul p.2
    s.setCa die eng acc (((s.caReg die eng acc).zip ps).map fun p => p.1.add p.2)

/-- CV_CONJ (R305). -/
def execCvConj (die : Fin 8) (eng : Fin 64) (vd va : Fin 8) (s : State) : Host.Outcome State Fault Refusal :=
  runDie s die fun s => s.cvRun die eng fun s => s.setCv die eng vd ((s.cvReg die eng va).map fun x => { x with q := -x.q })

/-- CV_ABS2 (R305). -/
def execCvAbs2 (die : Fin 8) (eng : Fin 64) (vd va : Fin 8) (s : State) : Host.Outcome State Fault Refusal :=
  runDie s die fun s => s.cvRun die eng fun s =>
    s.setCv die eng vd ((s.cvReg die eng va).map fun x => { i := shrNearest (x.i * x.i + x.q * x.q) 15, q := 0 })

/-- CV_ROT (R305). -/
def execCvRot (die : Fin 8) (eng : Fin 64) (vd va : Fin 8) (angle : Fin 65536) (s : State) :
    Host.Outcome State Fault Refusal :=
  runDie s die fun s => s.cvRun die eng fun s => s.setCv die eng vd ((s.cvReg die eng va).map fun x => x.rot angle)

/-- CV_SUM (R305): the sum replaces element 0; the other elements stay. Log entry 113 DEDUCED. -/
def execCvSum (die : Fin 8) (eng : Fin 64) (acc : Fin 2) (va : Fin 8) (s : State) : Host.Outcome State Fault Refusal :=
  runDie s die fun s => s.cvRun die eng fun s =>
    s.setCa die eng acc ((s.caReg die eng acc).set 0 ((s.cvReg die eng va).foldl CElem.add {}))

/-- CV_SHR (R305). -/
def execCvShr (die : Fin 8) (eng : Fin 64) (vd : Fin 8) (acc : Fin 2) (shift : Fin 25) (s : State) :
    Host.Outcome State Fault Refusal :=
  runDie s die fun s => s.cvRun die eng fun s => s.setCv die eng vd ((s.caReg die eng acc).map fun x => x.shr shift)

/-- CV_DMA (R305, R311). -/
def execCvDma (die : Fin 8) (eng : Fin 64) (src dst : DmaEnd) (more : Fin 65505) (s : State) :
    Host.Outcome State Fault Refusal :=
  runDie s die fun s => s.cvRun die eng fun s =>
    s.cvQueue die eng { eng := eng, src := src, dst := dst, len := 32 + (more : Nat) }

/-- DMA_COPY_DONE (R311). -/
def execDmaCopyDone (die : Fin 8) (ch : Fin 8) (s : State) : Host.Outcome State Fault Refusal :=
  runDie s die fun s => s.dmaHead die ch

end Sys2Proof.Machine
end

