-- ==== Sys2Proof/Machine/Sections.lean ====
section
/-! DEFINITION. Applying the sections of a checked image (R82, R411 step 7; R19, R73, R118, R198, R306, R414): the plan, the
blocks, tables, firmware, limits and register writes of each die, the node identity, and the release of the engines. -/
namespace Sys2Proof.Machine
open Sys2Proof

/-- The fields of `CAL_LIMITS_0` and `CAL_LIMITS_1`. -/
def limitFlds0 : List Fld := [CAL_LIMITS_0_BW, CAL_LIMITS_0_SKEW, CAL_LIMITS_0_GAIN, CAL_LIMITS_0_ADC_OFFSET]
def limitFlds1 : List Fld := [CAL_LIMITS_1_DAC_OFFSET, CAL_LIMITS_1_REJOIN, CAL_LIMITS_1_SEAM_ALARM, CAL_LIMITS_1_SEAM_PLAUS]

namespace State

/-! ### What is applied -/

/-- A die has passed the checks of its image and waits for its sections. -/
def awaitsSections (s : State) (d : Nat) : Bool :=
  (s.die d).loaded && !(s.die d).released && (s.loadSt d).result == some 0 && !(s.die d).held && !s.parked d

/-- The die starts alone, with the image and the values that the crown sent it (R85, R413). -/
def startsAlone (s : State) (d : Nat) : Bool := s.image.resend.contains d

/-- The section of a type in a die's image, in clear: none when the image has none. Of several sections of one type the first
counts (log entry 163 DESIGN CHOICE). -/
def section_ (s : State) (d type : Nat) : Option (List Byte) :=
  let im := s.imageBytes d
  ((imageSections im).find? fun x => x.type == type).map fun x => sectionClear (s.imageKey d) im x

/-! ### The PLAN section (R19, R425) -/

/-- The fields whose PLAN values wait for epoch 1 or 2: subcarriers, their loading, and slots (R425, R427). -/
def planned (f : Fld) : Bool := f.stg && (f.blk == 4 || f.blk == 5 || f.blk == 7 || (f.blk == 10 && f.reg == 0x1000))

/-- One write of the PLAN section: map, geometry and flow settings are loaded, what the plan epochs bring is kept. -/
def planWrite (s : State) (e : Nat × Nat) : State :=
  match regionOf s.part.dies e.1 with
  | .package 26 off =>
    match spotAt 26 off with
    | .reg _ r k => s.storeReg .loader r pkg k e.2
    | _ => s
  | .die d off =>
    match spotAt (off / 0x40000) (off % 0x40000) with
    | .reg _ r k =>
      let s := s.storeFlds .loader (r.flds.filter fun f => !planned f) d k e.2
      s.forEach (r.flds.filter planned) fun t f =>
        t.modTeam (t.teamBase d) fun x => { x with goal := x.goal.put (f.key d k) (bitsAt e.2 f.lo f.w) }
    | _ => s
  | _ => s

/-- A loaded map or geometry that breaks R18, R19 or R22: every die becomes an independent carrier, and one whose geometry
breaks R18 alone takes the reset values (R19). Log entries 81 DEDUCED, 145 DEDUCED. -/
def geometryCheck (s : State) : State :=
  let geom (t : State) (f : Fld) (n : Nat) : Nat := t.rd f pkg n
  if s.geomOk (s.rd PKG_TEAM_MAP_SIZE pkg) (geom s) then s
  else
    let s := (s.raise PKG_TEAM_EVENT_GEOM_REJECT pkg).logCrown ⟨4, 3, codeImageFail, 1, 0, 0⟩
    let s := s.wrBoth PKG_TEAM_MAP_SIZE pkg 0
    s.forEach s.dieList fun t d =>
      if geomRange 1 (t.rd PKG_GEOM_SLICE_SPACING pkg d) (t.rd PKG_GEOM_SC_SPACING pkg d) then t
      else
        (t.wrBoth PKG_GEOM_SLICE_SPACING pkg (PKG_GEOM_SLICE_SPACING.reset t.part.isX d) d).wrBoth PKG_GEOM_SC_SPACING pkg
          (PKG_GEOM_SC_SPACING.reset t.part.isX d) d

/-- The PLAN section of a cold start: first the team map and geometry, which name the teams, then the rest.
Log entry 144 DEDUCED. -/
def applyPlan (s : State) (c : Nat) : State :=
  match s.section_ c 5 with
  | none => s.geometryCheck
  | some bs =>
    let ws := Config.planWrites bs
    let top (e : Nat × Nat) : Bool := decide (0x20000000 ≤ e.1)
    let s := (s.forEach (ws.filter top) planWrite).geometryCheck
    let s := s.forEach s.teamBases fun t b => t.modTeam b fun x => { x with goal := [] }
    s.forEach (ws.filter fun e => !top e) planWrite

/-! ### The sections of one die -/

/-- CAL_LIMITS (R118): a value outside its range keeps the default and sets LIMIT_BAD. -/
def applyLimits (s : State) (d : Nat) (ws : Nat × Nat) : State :=
  s.forEach ((limitFlds0.map fun f => (f, ws.1)) ++ limitFlds1.map fun f => (f, ws.2)) fun t e =>
    let v := bitsAt e.2 e.1.lo e.1.w
    if (limitRange e.1).1 ≤ v ∧ v ≤ (limitRange e.1).2 then t.wr e.1 d v else t.raise CAL_EVENT_LIMIT_BAD d

/-- CODE_TABLE (R198, R199): an image without the section loads no table. Log entry 146 DEDUCED. -/
def applyTables (s : State) (d : Nat) : State :=
  match s.section_ d 4 with
  | some bs => s.loadTables d bs
  | none => (s.modFec d fun x => { x with tables := [] }).emit (.fault d (fecFault 1 1))

/-- FIRMWARE (R306): segments of tightly coupled memories and banks. -/
def applyFirmware (s : State) (d : Nat) (fw : List Byte) : State :=
  let s := s.forEach (List.range 64) fun t e => t.reloadTcm d e e fw
  s.forEach ((segments fw).filter fun x => x.target == 1) fun t x =>
    t.memWrite (bankBase d x.bank + x.offset) ((fw.drop x.data).take x.length)

/-- The engines a FIRMWARE section names (R306). Log entry 149 DEDUCED. -/
def firmwareMask (fw : List Byte) : Nat := (segments fw).foldl (fun a x => if x.target = 0 then a ||| x.mask else a) 0

/-- The image buffer belongs to IMG, and the engine clusters are on. -/
def claimBuffer (s : State) (d : Nat) : State :=
  let s := s.forEach (List.range 64) fun t b => (t.wr MEM_BANK_CFG_KIND d 2 b).wr MEM_BANK_CFG_OWNER d 1 b
  s.forEach (List.range 8) fun t c => (t.setWant d (domEngines c) none).setDomain d (domEngines c) 0

/-- The sections of a die up to its register writes. -/
def applyDie (s : State) (d : Nat) : State :=
  let s := ((s.claimBuffer d).buildRows d (List.range 11)).applyTables d
  let s := s.applyFirmware d ((s.section_ d 3).getD [])
  match s.section_ d 6 with
  | some bs => s.applyLimits d (Config.calLimits bs)
  | none => s

/-! ### REG_INIT -/

/-- A register write of the loader: it leaves the result that the management paths show. Log entry 150 DEDUCED. -/
def loaderWrite (s : State) (e : Nat × Nat) : State :=
  let last := s.bus.last
  let s := (s.begin e.1).accessAt .loader e.1 (some e.2)
  { s with bus := { s.bus with last := last } }

/-- The window offset at which a write reaches die `d` when it starts alone: its own window, or a broadcast in whose scope
it lies (R85, R55). Log entry 147 DEDUCED. -/
def reaches (s : State) (d addr : Nat) : Option Nat :=
  match regionOf s.part.dies addr with
  | .die n off => if n = d then some off else none
  | .everyDie team off =>
    if !team || s.sameTeam d (s.rd PKG_BCAST_SEL_DIE pkg) then some off else none
  | _ => none

/-- REG_INIT of a cold start: every write in order. -/
def regInitAll (s : State) (c : Nat) : State :=
  match s.section_ c 2 with
  | some bs => s.forEach (Config.regInit bs) loaderWrite
  | none => s

/-- REG_INIT of a die that starts alone: what reaches it; its staged fields then have the values the crown sent (R85).
Log entry 147 DEDUCED. -/
def regInitDie (s : State) (d : Nat) : State :=
  match s.section_ d 2 with
  | none => s
  | some bs =>
    let mine (k : Key) : Bool := k.inst == d && (stagedField k).isSome
    let values := s.regs.keep mine
    let s := s.forEach (Config.regInit bs) fun t e =>
      match t.reaches d e.1 with
      | some off => t.loaderWrite (dieBase d + off, e.2)
      | none => t
    { s with regs := (s.regs.keep fun k => !mine k).putAll values }

/-! ### Node identity and release (R414, R306, R411) -/

/-- Write the node identity into the registers of a die, and fix it. Log entry 148 DEDUCED. -/
def giveNode (s : State) (d node : Nat) : State :=
  ((s.wr BUP_NODE_ID_LO_NODE_ID d (bitsAt node 0 32)).wr BUP_NODE_ID_HI_NODE_ID d (bitsAt node 32 32)).modDie d fun x =>
    { x with nodeFixed := true }

/-- The node identity is fixed: the registers as REG_INIT left them, or the die identifier of the die elected crown with bit
63 set, in every die (R414). Log entry 148 DEDUCED. -/
def fixNode (s : State) (c : Nat) : State :=
  let lo := s.rd BUP_NODE_ID_LO_NODE_ID c
  let hi := s.rd BUP_NODE_ID_HI_NODE_ID c
  let e := s.crown.elected.getD c
  let node := if lo = 0 ∧ hi = 0 then setBit (s.dieId.get 0 (unitKey e 0)) 63 true else hi <<< 32 + lo
  s.forEach s.dieList fun t d => t.giveNode d node

/-- The crown no longer holds a die's image and values for its start. -/
def endResend (s : State) (d : Nat) : State :=
  { s with image := { s.image with resend := s.image.resend.filter fun e => e != d } }

/-- The engines that the firmware names are enabled and start at their reset vector (R306). Log entry 149 DEDUCED. -/
def startEngines (s : State) (d : Nat) : State :=
  let mask := firmwareMask ((s.section_ d 3).getD [])
  s.forEach ((List.range 64).filter fun e => bit mask e) fun t e => t.engineRun d e true 0 0

/-- The engines are released; the converter domains wait for the sampling PLL, and the passes or the wait for a record
begin (R306, R411 steps 7 to 9, R412). Log entry 149 DEDUCED. -/
def releaseEngines (s : State) (d : Nat) : State :=
  let s := (s.startEngines d).modDie d fun x => { x with released := true }
  let s := (s.wr BUP_STATUS_STATE d 2).wr BUP_STATUS_WARM d 0
  let s := (s.forEach (List.range 8) fun t u => t.wake d (5 + u)).endResend d
  if s.flag BUP_CTRL_REC_WAIT d then s.wr BUP_STATUS_REC_WAITING d 1 else s.beginPass d 0

/-- SECTION_APPLY: a cold start applies the plan and every die's sections, and fixes the node identity; a die that starts
alone applies its own. Log entries 73 UNVERIFIED, 81 DEDUCED, 145 DEDUCED. -/
def applySections (s : State) : State :=
  let ds := s.dieList.filter s.awaitsSections
  let cold := ds.filter fun d => !s.startsAlone d
  let alone := ds.filter s.startsAlone
  let s :=
    match cold with
    | [] => s
    | d :: _ =>
      let c := if cold.contains (s.crown.token.getD d) then s.crown.token.getD d else d
      let s := s.forEach cold fun t e => t.applyDie e
      let s := ((s.applyPlan c).regInitAll c).fixNode c
      s.forEach cold fun t e => t.releaseEngines e
  s.forEach alone fun t d => ((t.applyDie d).regInitDie d).releaseEngines d

end State

/-! ### Meanings -/

/-- SECTION_APPLY (R82, R411). -/
def execSectionApply (s : State) : Host.Outcome State Fault Refusal := run s fun s => s.applySections

end Sys2Proof.Machine
end

