-- ==== Sys2Proof/Machine/Sending.lean ====
section
/-! DEFINITION. What a die sends in a superframe (spec/06 to spec/08): stream coding, matcher and mapper, pilots, FAS, header
and training, pulse shaping and synthesis, pre-compensation, and the words of the line DACs. -/
namespace Sys2Proof.Machine
open Sys2Proof

/-! ### Coding (R191, R195, R222) -/

/-- Information bits of a frame codeword with a table (R222). -/
def CodeTable.frame (t : CodeTable) : Nat := if t.outer then frameBits false else t.info

/-- A stream takes slot content: it is scrambled, and the frame codewords, LDPC codewords and interleaver blocks that are now
complete are formed. -/
def TxCoding.encode (x : TxCoding) (t : CodeTable) (content : List Bool) : TxCoding :=
  let info := x.info ++ scramble x.scr content
  let k := info.length / t.frame
  let outer := x.outer ++ (chunk t.frame k info).flatMap fun b => if t.outer then bchEncode b else b
  let m := outer.length / t.info
  let words := x.words ++ (chunk t.info m outer).map (ldpcEncode t)
  let g := words.length / 4
  { x with
    scr := scramAfter content.length x.scr, info := info.drop (t.frame * k), outer := outer.drop (t.info * m)
    words := if t.outer then words.drop (4 * g) else []
    coded := x.coded ++ (if t.outer then (List.range g).flatMap fun j => interleave ((words.drop (4 * j)).take 4) t.n
      else words.flatten) }

/-- Frame codewords that a stream takes until it holds `need` coded bits: whole interleaver blocks of four LDPC codewords, or
E7 codewords, and no more, so that the first one of a multiframe is its anchor (R191, R223). -/
def TxCoding.framesFor (x : TxCoding) (t : CodeTable) (need : Nat) : Nat :=
  let short := need - x.coded.length
  if t.outer then
    blocksTo (blocksTo short (4 * t.n) * (4 * t.info) - (t.info * x.words.length + x.outer.length)) 14224
  else blocksTo short t.n

/-- Stream bits that a matcher block of N amplitudes takes (R193). -/
def blockBits (h n : Nat) : Nat := matcherBits n h + n

/-- Dimensions in pairs: I, then Q. -/
def pairUp : List ℚ → List Cpx
  | a :: b :: t => { re := a, im := b } :: pairUp t
  | _ => []

/-- The symbols of a matcher block: K matcher bits, then a sign bit for each amplitude (R172, R173, R193). -/
def mapBlock (c h n : Nat) (bits : List Bool) : List Cpx :=
  let k := matcherBits n h
  pairUp ((((bits.drop k).take n).zip (matchBlock c h n (bits.take k))).map fun p => mapDim c h n p.1 p.2)

/-- The symbols of X and Y of k pairs of blocks from block b, as far as the bits reach; `len` gives each block's
amplitudes. -/
def mapBlocks (len : Nat → Nat) (c h : Nat) : Nat → Nat → List Bool → List Cpx × List Cpx
  | 0, _, _ => ([], [])
  | k + 1, b, bits =>
    let n := blockBits h (len b)
    if bits.length < 2 * n then ([], [])
    else
      let r := mapBlocks len c h k (b + 1) (bits.drop (2 * n))
      (mapBlock c h (len b) (bits.take n) ++ r.1, mapBlock c h (len b) ((bits.drop n).take n) ++ r.2)

/-- The payload of a subcarrier in a superframe: symbols of X and Y with those that remain for the next one, and the stream
bits that its new blocks take. -/
structure Payload where
  x    : List Cpx
  y    : List Cpx
  bits : List Bool
  next : Nat
deriving DecidableEq, Repr

/-! ### Waveform (R175 to R182, R108, R114) -/

/-- One subcarrier of the slice: its offset in GHz, roll-off, amplitude, and its symbols, of which 128 belong to the
superframe before. -/
structure Shaped where
  f    : ℚ
  beta : ℚ
  amp  : ℚ
  syms : List Vec2
deriving DecidableEq, Repr

/-- A subcarrier's contribution to full-rate sample m of a superframe that starts with sample number `start`: the pulses of
the 128 symbols around it, eleven samples to a symbol (R175, R176). The samples run 64 symbols behind the symbols. -/
def Shaped.at (x : Shaped) (start : Nat) (m : Int) : Vec2 :=
  let t : ℚ := (m : ℚ) / 11 + 64
  let a := (t.floor - 63).toNat
  let v := sumVec ((List.range 128).map fun j => scaleVec (rrc x.beta (t - ((a + j : Nat) : ℚ))) (x.syms.getD (a + j) {}))
  scaleVec x.amp (mixDown (-x.f) (start + m).toNat v)

/-- The components of a sample by path: XI, XQ, YI, YQ. -/
def pathPart (c : Nat) (v : Vec2) : ℚ := [v.x.re, v.x.im, v.y.re, v.y.im].getD c 0

/-- A byte of a register word as a signed number. -/
def byteOf (w k : Nat) : Int := toSigned 8 (bitsAt w (8 * k) 8)

namespace State

/-! ### Streams and subcarriers -/

/-- Constellation and H in which a subcarrier sends. -/
def txFormat (s : State) (d i : Nat) : Nat × Nat := (s.rd TXD_SC_STATUS_CONST d i, s.rd TXD_SC_CFG_H d i)

/-- The container words of a stream from word number `turn` of its period on, taken from the slots in turn; a slot that no
flow holds, or for which no flow frame has come, gives a word of zeros (R251). Log entry 171 DESIGN CHOICE. -/
def takeWords (s : State) (d : Nat) (slots : List Nat) : Nat → Nat → List (List Bool) × State
  | _, 0 => ([], s)
  | turn, n + 1 =>
    let p := slots.getD (turn % slots.length) 0
    let q := (s.txArm d (p / 24)).waiting.getD (p % 24) []
    let s := if slots.isEmpty then s
      else s.modTx d (p / 24) fun a => { a with waiting := a.waiting.set (p % 24) (q.drop 1) }
    let r := s.takeWords d slots (turn + 1) n
    ((if slots.isEmpty then List.replicate 80 false else q.headD (List.replicate 80 false)) :: r.1, r.2)

/-- A multiframe begins: the next frame codeword of each sending stream is its anchor, and starts a container period
(R250). -/
def startPeriod (s : State) (d n : Nat) : State :=
  let slots := s.txStreamSlots d n
  s.modTx d n fun a => { a with coding := { a.coding with slots := slots, turn := 0 } }

/-- Block numbers of a bulk subcarrier in a superframe: the first new block and how many there are. Blocks have 1 024
amplitudes, the last of a multiframe 512; they restart with the multiframe (R172). -/
def bulkBlocks (s : State) (d i sf : Nat) : Nat × Nat :=
  let a := s.txArm d i
  if sf = 0 then (0, (payloadSymbols sf + 511) / 512)
  else (a.blockTx, (payloadSymbols sf + 511 - a.symX.length) / 512)

/-- Amplitudes of a bulk block. -/
def bulkLen (b : Nat) : Nat := if b = 31615 then 512 else 1024

/-- Stream bits that a subcarrier takes in one superframe, by pair of blocks for X and Y. -/
def bulkNeed (s : State) (d i sf : Nat) : Nat :=
  let b := s.bulkBlocks d i sf
  ((List.range b.2).map fun j => 2 * blockBits (s.txFormat d i).2 (bulkLen (b.1 + j))).sum

/-- Stream bits that an express subcarrier takes in one block time (R196). -/
def expressNeed (s : State) (d i : Nat) : Nat := 2 * blockBits (s.txFormat d i).2 64

/-- Stream bits that a stream sends in a superframe. -/
def streamNeed (s : State) (d n sf : Nat) : Nat :=
  if n = 8 then payloadSymbols sf / 32 * ((s.expressScs d).map (s.expressNeed d)).sum else s.bulkNeed d n sf

/-- A stream takes the slot content that a superframe needs, as whole frame codewords (R222, R250). -/
def encodeStream (s : State) (d n sf : Nat) : State :=
  match s.txTable d n with
  | none => s
  | some t =>
    let s := if sf = 0 then s.startPeriod d n else s
    let x := (s.txArm d n).coding
    let k := x.framesFor t (s.streamNeed d n sf) * (t.frame / 80)
    let r := s.takeWords d x.slots x.turn k
    r.2.modTx d n fun a => { a with coding := { (a.coding.encode t r.1.flatten) with turn := a.coding.turn + k } }

/-- The streams of a die that send. -/
def sendingStreams (s : State) (d : Nat) : List Nat := ((s.sendingScs d).map (s.scStream d)).dedup

/-- The streams of a die take their slot content for a superframe. -/
def encodeStreams (s : State) (d sf : Nat) : State := s.forEach (s.sendingStreams d) fun t n => t.encodeStream d n sf

/-- The payload of a bulk subcarrier. -/
def bulkPayload (s : State) (d i sf : Nat) : Payload :=
  let a := s.txArm d i
  let fmt := s.txFormat d i
  let b := s.bulkBlocks d i sf
  let bits := a.coding.coded.take (s.bulkNeed d i sf)
  let m := mapBlocks bulkLen fmt.1 fmt.2 b.2 b.1 bits
  { x := (if sf = 0 then [] else a.symX) ++ m.1, y := (if sf = 0 then [] else a.symY) ++ m.2, bits := bits
    next := b.1 + b.2 }

/-- The payload of an express subcarrier: its share of the die's stream, striped by block time (R196). -/
def expressPayload (s : State) (d i sf : Nat) : Payload :=
  let fmt := s.txFormat d i
  let es := s.expressScs d
  let row := (es.map (s.expressNeed d)).sum
  let before := ((es.filter fun e => decide (e < i)).map (s.expressNeed d)).sum
  let k := payloadSymbols sf / 32
  let coded := (s.txArm d 8).coding.coded
  let bits := (List.range k).flatMap fun r => (coded.drop (r * row + before)).take (s.expressNeed d i)
  let m := mapBlocks (fun _ => 64) fmt.1 fmt.2 k 0 bits
  { x := m.1, y := m.2, bits := bits, next := 0 }

/-- The payload of a subcarrier. -/
def payload (s : State) (d i sf : Nat) : Payload :=
  if s.scExpress d i then s.expressPayload d i sf else s.bulkPayload d i sf

/-! ### Header and records (R220, R221, R223, R226, R246) -/

/-- The plan epoch a header announces (R220): in the last sixteen superframes that of the next multiframe. -/
def sentEpoch (s : State) (t sf : Nat) : Nat :=
  let next := s.time.mf + 1
  if sf < 240 then s.txEpoch t
  else if s.txn.isOpen && s.txn.goSent && !s.txn.switched && s.txn.planTeam == some t && s.txn.mf == next then s.txn.planEpoch
  else
    match (s.team t).change with
    | some c => if !c.switched && c.mf == next then c.epoch else s.txEpoch t
    | none => s.txEpoch t

/-- The STREAM record of a subcarrier (R194, R223). -/
def streamSent (s : State) (d i : Nat) : List Byte :=
  let n := s.scStream d i
  let p := (s.txArm d n).coding.pos
  match s.txTable d n with
  | none => List.replicate 32 0
  | some t =>
    if n = 8 then
      bytesBE 3 (p % 2048) ++ bytesBE 2 0 ++ bytesBE 4 (scramAfter (1920 * anchorOf true t.n t.info p) scramInit) ++ bytesBE 1 1 ++
        List.replicate 22 0
    else
      let bit0 := blocksTo p (4 * t.n) * (4 * t.info)
      let k := anchorOf false t.n t.info p
      bytesBE 3 (p % (4 * t.n)) ++ bytesBE 2 (k * 14224 - bit0) ++ bytesBE 4 (scramAfter (14000 * k) scramInit) ++
        bytesBE 1 0 ++ List.replicate 22 0

/-- A time of day in 2^−16 ns as the TIME record holds it: seconds, nanoseconds and fraction (R246). -/
def stampBytes (x : Nat) : List Byte :=
  let ns := x / 65536
  bytesBE 6 (ns / 1000000000) ++ bytesBE 4 (ns % 1000000000) ++ bytesBE 2 (x % 65536)

/-- The number of a MSG slot, counted over all multiframes; superframes 0, 64 and 128 carry none. -/
def msgSlot (mf sf : Nat) : Nat := 253 * mf + sf - 1 - b2n (decide (64 < sf)) - b2n (decide (128 < sf))

/-- TAU of the SKEW record in 0.01 ps (R226): the mean of the arrival differences, each arrival corrected by its dispersion
delay. -/
def sentTau (s : State) (d : Nat) (skews : List (ℚ × ℚ)) : Int :=
  let xs := skews.map fun p => (p.1 - s.dispersionDelay d 0) - (p.2 - s.dispersionDelay (d - 1) 7)
  Arith.round (100 * (xs.sum / xs.length))

/-- A capture on a subcarrier in 2^−16 ns, corrected by its dispersion delay (R246). -/
def corrected (s : State) (d i capture : Nat) : Int :=
  capture - Arith.round (s.dispersionDelay d i * 65536 / 1000)

/-- RECORD of a header (R221): the current message set goes round through the MSG slots (R235). -/
def sentRecord (s : State) (d i : Nat) (f : TxFrame) : List Byte :=
  let sf : Nat := f.sf
  if sf = 0 then s.streamSent d i
  else if sf = 64 then
    if s.time.mf % 16 = 0 then
      let valid := s.teamPos d != 0 && s.rxState d 0 == 3 && s.rxState (d - 1) 7 == 3
      bytesBE 2 (ofSigned 16 (clampInt (-32768) 32767 (s.sentTau d f.skews))) ++ bytesBE 1 (128 * b2n valid) ++ List.replicate 29 0
    else List.replicate 32 0
  else if sf = 128 then
    stampBytes (((s.tim.txStamps.find? fun e => e.1 == s.time.mf).map Prod.snd).getD 0) ++
      stampBytes ((s.ttSelected d).elim f.tRx fun p => (s.corrected p.1 p.2 f.tRx).toNat) ++ bytesBE 4 f.rxMfc.toNat ++ List.replicate 4 0
  else
    let rs := (s.team (s.teamBase d)).sending
    rs.getD (msgSlot s.time.mf sf % max 1 rs.length) (List.replicate 32 0)

/-- The header that a subcarrier sends (R220, R225, R234). -/
def sentHeader (s : State) (d i : Nat) (f : TxFrame) : Header :=
  { sf := f.sf, mfc := s.time.mf % 2 ^ 32, sbip := (s.txArm d i).bip, rei := (s.frmArm d i).reiTx
    bdi := bit (s.rd FRM_BDI_TX_BDI d) i, pt := (List.range 24).any fun k => s.flag FLW_TX_SLOT_VALID d (24 * i + k)
    epoch := s.sentEpoch (s.teamBase d) f.sf, record := s.sentRecord d i f }

/-- The 65 536 symbols of a subcarrier's superframe (R174, R214, R216 to R219). -/
def frameSymbols (s : State) (d i : Nat) (f : TxFrame) : List Vec2 :=
  let sf : Nat := f.sf
  let p := s.payload d i sf
  let boost := s.rd TXD_CTRL_PILOT_BOOST d
  let head := (s.sentHeader d i f).encode.flatMap fun b => natBits 8 b.toNat
  (List.range 65536).map fun k =>
    match contentAt sf k with
    | .pilot q => knownPilot boost sf q
    | .fas u => { x := fasValue fasX u, y := fasValue fasY u }
    | .overhead n =>
      let v := qpsk (head.getD (2 * n) false) (head.getD (2 * n + 1) false)
      { x := v, y := v }
    | .training => trainingValue k
    | .payload =>
      let u := 31 * (k / 32) + (k % 32 - 1) - (if sf = 0 then 512 else 256)
      { x := p.x.getD u {}, y := p.y.getD u {} }

/-! ### From symbols to DAC words -/

/-- A subcarrier ready for synthesis: level and tilt as applied, against a full scale of 512 (R178). Log entry 171 DESIGN
CHOICE. -/
def shaped (s : State) (d i : Nat) (f : TxFrame) : Shaped :=
  let a := s.txArm d i
  { f := s.armFreq d i, beta := (s.rd TXD_SC_CFG_ROLLOFF d i : ℚ) / 200
    amp := 512 * pow10 ((a.tilt - ((s.txDie d).level : Int) : ℚ) / 400)
    syms := List.replicate (128 - a.last.length) {} ++ a.last ++ s.frameSymbols d i f }

/-- The slice on path c: the sum of the subcarriers, shifted by the applied trim in MHz (R176, R177). -/
def sliceAt (s : State) (d : Nat) (xs : List Shaped) (start c : Nat) (m : Int) : ℚ :=
  let v := sumVec (xs.map fun x => x.at start m)
  pathPart c (mixDown (-((s.rdS TXD_FREQ_TRIM_APPLIED d : ℚ) / 1000)) (start + m).toNat v)

/-- A path after FIR and table, and whether the value saturated (R180, R181). -/
def lutAt (s : State) (d : Nat) (xs : List Shaped) (start c : Nat) (m : Int) : Int × Bool :=
  let taps := (List.range 33).map fun t => toSigned 12 (s.lutRd d (s.rd TXD_LUT_CTRL_ACTIVE_SET d) 1 c t)
  s.lutOut d c (firOut taps ((List.range 33).map fun (t : Nat) => s.sliceAt d xs start c (m - (t : Int))))

/-- A path after the modulator's IQ correction and the scaling of Y against X, as applied (R182, steps 1 and 2). -/
def balancedAt (s : State) (d : Nat) (xs : List Shaped) (start c : Nat) (m : Int) : ℚ :=
  let x := s.txDie d
  let v (k : Nat) : ℚ := ((s.lutAt d xs start k m).1 : ℚ)
  let pol := c / 2
  let r := iqCorrect ((byteOf x.iq (2 * pol) : ℚ) / 2000) ((byteOf x.iq (2 * pol + 1) : ℚ) / 20 * Arith.pi / 180)
    (v (2 * pol)) (v (2 * pol + 1))
  (if c % 2 = 0 then r.1 else r.2) * (if pol = 1 then pow10 ((toSigned 8 x.bal : ℚ) / 2000) else 1)

/-- A path after its fractional delay, in DAC LSB (R182, step 3). -/
def delayedAt (s : State) (d : Nat) (xs : List Shaped) (start c : Nat) (m : Int) : ℚ :=
  ((fracDelay (skewSamples (byteOf (s.txDie d).skew c))
    ((List.range 9).map fun (t : Nat) => s.balancedAt d xs start c (m - 4 + (t : Int)))).headD 0) / 8

/-- A path after pre-emphasis with the active taps (R114). -/
def emphasisedAt (s : State) (d : Nat) (xs : List Shaped) (start c : Nat) (m : Int) : ℚ :=
  let taps := (List.range 7).map fun t => toSigned 10 (s.coefRd d (s.activeSet d) (640 + 7 * c + t))
  preEmphasis taps ((List.range 7).map fun (t : Nat) => s.delayedAt d xs start c (m - (t : Int)))

/-- The word of DAC c for sample m: corrected with the entry of its sub-DAC in the active set; a converter that is disabled or
has no sampling reference drives zero (R107, R108, R115). -/
def dacWord (s : State) (d : Nat) (xs : List Shaped) (start c : Nat) (m : Int) : Int :=
  if bit (s.rd CNV_CTRL_DAC_EN d) c && s.flag CNV_STATUS_SCLK_LOCK d then
    let j := ((start + m) % 16).toNat
    let term (t : Nat) : ℚ := (s.termRd d (s.activeSet d) true c j t : ℚ)
    clampInt (-64) 63 (Arith.round (dacCorrect (term 0 / 256) (term 1 / 32768) (term 3 / 32768)
      (s.emphasisedAt d xs start c m) (s.emphasisedAt d xs start c (m - 1))))
  else 0

/-- The words that the four DACs drive for the samples of a window. -/
def sendWindow (s : State) (d : Nat) (xs : List Shaped) (f : TxFrame) : State :=
  let ms := (List.range f.count).map fun k => ((f.first + k : Nat) : Int)
  s.forEach (List.range 4) fun t c => t.emit (.dac d c (f.start + f.first) (ms.map (s.dacWord d xs f.start c)))

/-- Saturated table inputs of a window, by path, counted (R181). -/
def countClips (s : State) (d : Nat) (xs : List Shaped) (f : TxFrame) : State :=
  s.forEach (List.range 4) fun t c =>
    let n := ((List.range f.count).filter fun k => (s.lutAt d xs f.start c ((f.first + k : Nat) : Int)).2).length
    if n = 0 then t else (t.count TXD_CLIP_COUNT_COUNT d n c).raise TXD_EVENT_CLIP d

/-! ### A superframe -/

/-- What a subcarrier keeps after a superframe: the symbols and blocks that wait, the parity for the next header (R225), and
the symbols that the filters still hold. Log entry 171 DESIGN CHOICE. -/
def armSent (s : State) (d i : Nat) (f : TxFrame) : State :=
  let p := s.payload d i f.sf
  let n := payloadSymbols f.sf
  let last := (s.frameSymbols d i f).drop (65536 - 128)
  s.modTx d i fun a =>
    let a := { a with symX := p.x.drop n, symY := p.y.drop n, blockTx := p.next, bip := bip8 p.bits, last := last }
    if s.scExpress d i then a
    else { a with coding := { a.coding with coded := a.coding.coded.drop p.bits.length, pos := a.coding.pos + p.bits.length } }

/-- The express stream after a superframe: the bits that its subcarriers took. -/
def expressSent (s : State) (d : Nat) (f : TxFrame) : State :=
  let used := ((s.expressScs d).map fun i => (s.payload d i f.sf).bits.length).sum
  s.modTx d 8 fun a =>
    { a with coding := { a.coding with coded := a.coding.coded.drop used, pos := a.coding.pos + used } }

/-- At the end of a multiframe the position at which the next one begins is kept for each stream. -/
def markStreams (s : State) (d sf : Nat) : State :=
  if sf = 255 then
    s.forEach (s.sendingStreams d) fun t n =>
      t.modTx d n fun a => { a with coding := { a.coding with mark := a.coding.pos, markMf := s.time.mf + 1 } }
  else s

/-- One superframe is sent. -/
def sendSuperframe (s : State) (d : Nat) (f : TxFrame) : State :=
  let s := s.encodeStreams d f.sf
  let xs := (s.sendingScs d).map fun i => s.shaped d i f
  let u := (s.sendWindow d xs f).countClips d xs f
  (u.forEach (s.sendingScs d) fun t i =>
    let v := s.armSent d i f
    t.modTx d i fun _ => v.txArm d i).expressSent d f |>.markStreams d f.sf

/-- A transmit stream starts at bit 0 with the multiframe in which its subcarrier starts sending; the express stream starts
with the first express subcarrier (R192). -/
def startStream (s : State) (d i : Nat) : State :=
  let s := if s.scExpress d i && (s.expressScs d).isEmpty then
      s.modTx d 8 fun a => { a with coding := { markMf := s.time.mf } } else s
  s.modTx d i fun a =>
    { a with coding := { markMf := s.time.mf }, symX := [], symY := [], blockTx := 0, bip := 0, last := []
             waiting := List.replicate 24 [] }

end State

/-! ### Meanings -/

/-- TX_ARM_SEND_START (R184, step 3; R186, R192): an arm that is ready at M starts there, one that was not starts late. -/
def execTxArmSendStart (die sc : Fin 8) (s : State) : Host.Outcome State Fault Refusal :=
  runDie s die fun s =>
    if !s.txOn die sc then s
    else if s.txState die sc = 1 then s.modTx die sc fun a => { a with due := true }
    else if s.txState die sc = 2 && s.flag CNV_STATUS_SCLK_LOCK die then
      let s := if (s.txArm die sc).due then s.raise TXD_EVENT_TX_LATE die (2 ^ (sc : Nat)) else s
      ((s.startStream die sc).setTxState die sc 3).modTx die sc fun a => { a with waking := false, due := false }
    else s

/-- TX_CORR_APPLY (R181, R182): at a superframe boundary the written corrections apply, and the superframe that begins is
sent with them. Log entry 133 DEDUCED. -/
def execTxCorrApply (die : Fin 8) (frame : TxFrame) (s : State) : Host.Outcome State Fault Refusal :=
  runDie s die fun s =>
    let s := s.modTxDie die fun x =>
      { x with iq := s.txIqWord die, bal := s.rd TXD_XY_BAL_BAL die, skew := s.txFineSkewWord die }
    s.sendSuperframe die frame

end Sys2Proof.Machine
end

