-- ==== Sys2Proof/Machine/Dispatch.lean ====
section
/-! DEFINITION. The dispatch: one arm for each command, each a direct call of its meaning. -/
namespace Sys2Proof.Machine
open Sys2Proof

/-- The effect of a command on everything but the queue of waiting commands. -/
def exec (i : Instr) (s : State) : Host.Outcome State Fault Refusal :=
  match i with
  | .registerWrite src addr data => Sys2Proof.Machine.execRegisterWrite src addr data s
  | .rcRead src addr => Sys2Proof.Machine.execRcRead src addr s
  | .summaryW1cWrite die bits => Sys2Proof.Machine.execSummaryW1cWrite die bits s
  | .irqMaskWrite reg data => Sys2Proof.Machine.execIrqMaskWrite reg data s
  | .powerOnReset => Sys2Proof.Machine.execPowerOnReset s
  | .porRelease resetN => Sys2Proof.Machine.execPorRelease resetN s
  | .resetNPulse ns => Sys2Proof.Machine.execResetNPulse ns s
  | .packageReset => Sys2Proof.Machine.execPackageReset s
  | .dieReset die byCrown => Sys2Proof.Machine.execDieReset die byCrown s
  | .blockReset die blk work now => Sys2Proof.Machine.execBlockReset die blk work now s
  | .blockResetEffect die blk => Sys2Proof.Machine.execBlockResetEffect die blk s
  | .memberLostDeclare die => Sys2Proof.Machine.execMemberLostDeclare die s
  | .absenceChangeStart team => Sys2Proof.Machine.execAbsenceChangeStart team s
  | .rejoinRequest dies => Sys2Proof.Machine.execRejoinRequest dies s
  | .rejoinStart die => Sys2Proof.Machine.execRejoinStart die s
  | .selftest die result => Sys2Proof.Machine.execSelftest die result s
  | .crownElection => Sys2Proof.Machine.execCrownElection s
  | .crownWatchdogExpiry => Sys2Proof.Machine.execCrownWatchdogExpiry s
  | .heartbeatSend => Sys2Proof.Machine.execHeartbeatSend s
  | .heartbeat die cw ccw => Sys2Proof.Machine.execHeartbeat die cw ccw s
  | .hbAnswer die ans cw ccw => Sys2Proof.Machine.execHbAnswer die ans cw ccw s
  | .noAnswerTimeout die => Sys2Proof.Machine.execNoAnswerTimeout die s
  | .crownClaim die => Sys2Proof.Machine.execCrownClaim die s
  | .claim die => Sys2Proof.Machine.execClaim die s
  | .claimAck die => Sys2Proof.Machine.execClaimAck die s
  | .takeoverComplete => Sys2Proof.Machine.execTakeoverComplete s
  | .crownStuck => Sys2Proof.Machine.execCrownStuck s
  | .handover req => Sys2Proof.Machine.execHandover req s
  | .handoverRelease => Sys2Proof.Machine.execHandoverRelease s
  | .regReq => Sys2Proof.Machine.execRegReq s
  | .regRsp => Sys2Proof.Machine.execRegRsp s
  | .irqSum die => Sys2Proof.Machine.execIrqSum die s
  | .fault die rec => Sys2Proof.Machine.execFault die rec s
  | .quarReq dies => Sys2Proof.Machine.execQuarReq dies s
  | .quarRelease dies => Sys2Proof.Machine.execQuarRelease dies s
  | .broadcastWrite src addr data => Sys2Proof.Machine.execBroadcastWrite src addr data s
  | .spiNop addr => Sys2Proof.Machine.execSpiNop addr s
  | .spiRead addr => Sys2Proof.Machine.execSpiRead addr s
  | .spiWrite addr data => Sys2Proof.Machine.execSpiWrite addr data s
  | .accessTimeout => Sys2Proof.Machine.execAccessTimeout s
  | .mgmtMessage path bytes => Sys2Proof.Machine.execMgmtMessage path bytes s
  | .pkgAccessNoCrown die engine addr write => Sys2Proof.Machine.execPkgAccessNoCrown die engine addr write s
  | .imageChunk die index => Sys2Proof.Machine.execImageChunk die index s
  | .imageResend die index => Sys2Proof.Machine.execImageResend die index s
  | .imageChecks die => Sys2Proof.Machine.execImageChecks die s
  | .imageResult die => Sys2Proof.Machine.execImageResult die s
  | .sectionApply => Sys2Proof.Machine.execSectionApply s
  | .imgLoadGo => Sys2Proof.Machine.execImgLoadGo s
  | .flashReadWord => Sys2Proof.Machine.execFlashReadWord s
  | .flashProgramWord => Sys2Proof.Machine.execFlashProgramWord s
  | .flashEraseSector => Sys2Proof.Machine.execFlashEraseSector s
  | .flashCmdDone ok => Sys2Proof.Machine.execFlashCmdDone ok s
  | .otpDataWrite data => Sys2Proof.Machine.execOtpDataWrite data s
  | .otpItemSelect item => Sys2Proof.Machine.execOtpItemSelect item s
  | .otpProgram item => Sys2Proof.Machine.execOtpProgram item s
  | .otpProgramDone => Sys2Proof.Machine.execOtpProgramDone s
  | .rollbackAdvance value => Sys2Proof.Machine.execRollbackAdvance value s
  | .dieImageResend die => Sys2Proof.Machine.execDieImageResend die s
  | .valuesTimeout die => Sys2Proof.Machine.execValuesTimeout die s
  | .stagedWrite src addr data => Sys2Proof.Machine.execStagedWrite src addr data s
  | .stagedViewWrite src addr data => Sys2Proof.Machine.execStagedViewWrite src addr data s
  | .stageDiscard die => Sys2Proof.Machine.execStageDiscard die s
  | .pkgStageDiscard => Sys2Proof.Machine.execPkgStageDiscard s
  | .txnCommit lead => Sys2Proof.Machine.execTxnCommit lead s
  | .txnAbort lead => Sys2Proof.Machine.execTxnAbort lead s
  | .txnRollback lead => Sys2Proof.Machine.execTxnRollback lead s
  | .txnMultiCommand lead => Sys2Proof.Machine.execTxnMultiCommand lead s
  | .prepare die => Sys2Proof.Machine.execPrepare die s
  | .ready die => Sys2Proof.Machine.execReady die s
  | .refuse die reason => Sys2Proof.Machine.execRefuse die reason s
  | .txnGoDeadline => Sys2Proof.Machine.execTxnGoDeadline s
  | .go die => Sys2Proof.Machine.execGo die s
  | .abort die => Sys2Proof.Machine.execAbort die s
  | .txnSwitch => Sys2Proof.Machine.execTxnSwitch s
  | .revert die => Sys2Proof.Machine.execRevert die s
  | .revertRestore => Sys2Proof.Machine.execRevertRestore s
  | .shadowExpire => Sys2Proof.Machine.execShadowExpire s
  | .enableClearDrain die blk unit work now => Sys2Proof.Machine.execEnableClearDrain die blk unit work now s
  | .enableClearAbort die blk unit work => Sys2Proof.Machine.execEnableClearAbort die blk unit work s
  | .drainIdle die blk unit => Sys2Proof.Machine.execDrainIdle die blk unit s
  | .drainTimeout die blk unit left => Sys2Proof.Machine.execDrainTimeout die blk unit left s
  | .disModeWrite die blk abort left => Sys2Proof.Machine.execDisModeWrite die blk abort left s
  | .disLimitWrite die blk limit now left => Sys2Proof.Machine.execDisLimitWrite die blk limit now left s
  | .synthSwitch => Sys2Proof.Machine.execSynthSwitch s
  | .sclkLost die => Sys2Proof.Machine.execSclkLost die s
  | .sclkReturn die => Sys2Proof.Machine.execSclkReturn die s
  | .pathSkewWrite die tx data => Sys2Proof.Machine.execPathSkewWrite die tx data s
  | .coefWindowWrite die byHost index data => Sys2Proof.Machine.execCoefWindowWrite die byHost index data s
  | .coefSwitch die copyBack owner => Sys2Proof.Machine.execCoefSwitch die copyBack owner s
  | .coefSwap die => Sys2Proof.Machine.execCoefSwap die s
  | .fgStart die scope => Sys2Proof.Machine.execFgStart die scope s
  | .fgPassEnd die result => Sys2Proof.Machine.execFgPassEnd die result s
  | .bgCalUpdate die est => Sys2Proof.Machine.execBgCalUpdate die est s
  | .delayWrite die tx whole fine => Sys2Proof.Machine.execDelayWrite die tx whole fine s
  | .fineSlewStep die => Sys2Proof.Machine.execFineSlewStep die s
  | .seamSkewEstimate die tones => Sys2Proof.Machine.execSeamSkewEstimate die tones s
  | .txSeamReport die tau => Sys2Proof.Machine.execTxSeamReport die tau s
  | .calSave die => Sys2Proof.Machine.execCalSave die s
  | .calRestore die => Sys2Proof.Machine.execCalRestore die s
  | .calVerifyEnd die => Sys2Proof.Machine.execCalVerifyEnd die s
  | .dfeAutoUpdate die st => Sys2Proof.Machine.execDfeAutoUpdate die st s
  | .freqReport lead reports => Sys2Proof.Machine.execFreqReport lead reports s
  | .freqApply lead => Sys2Proof.Machine.execFreqApply lead s
  | .coarseFreqAcq die centroid => Sys2Proof.Machine.execCoarseFreqAcq die centroid s
  | .fdeBlock die sc input syms clockErr => Sys2Proof.Machine.execFdeBlock die sc input syms clockErr s
  | .training die sc rx snr => Sys2Proof.Machine.execTraining die sc rx snr s
  | .cdScanDone die sc coarse fine => Sys2Proof.Machine.execCdScanDone die sc coarse fine s
  | .rxArmStart die sc => Sys2Proof.Machine.execRxArmStart die sc s
  | .rxArmTracking die sc => Sys2Proof.Machine.execRxArmTracking die sc s
  | .rxAcqTimeout die sc => Sys2Proof.Machine.execRxAcqTimeout die sc s
  | .rxArmWake die sc => Sys2Proof.Machine.execRxArmWake die sc s
  | .pilotInterval die own remote => Sys2Proof.Machine.execPilotInterval die own remote s
  | .carrierLockLost die sc => Sys2Proof.Machine.execCarrierLockLost die sc s
  | .seamCombineUpdate die hi means => Sys2Proof.Machine.execSeamCombineUpdate die hi means s
  | .seamLearningEnd die hi => Sys2Proof.Machine.execSeamLearningEnd die hi s
  | .bridgeLost die hi bad => Sys2Proof.Machine.execBridgeLost die hi bad s
  | .bridgeRestored die hi => Sys2Proof.Machine.execBridgeRestored die hi s
  | .qWindowPublish die sums => Sys2Proof.Machine.execQWindowPublish die sums s
  | .txArmReady die sc => Sys2Proof.Machine.execTxArmReady die sc s
  | .txArmSendStart die sc => Sys2Proof.Machine.execTxArmSendStart die sc s
  | .freqTrimStep die => Sys2Proof.Machine.execFreqTrimStep die s
  | .levelRampStep die => Sys2Proof.Machine.execLevelRampStep die s
  | .lutSwitch die copyBack owner => Sys2Proof.Machine.execLutSwitch die copyBack owner s
  | .lutSwap die => Sys2Proof.Machine.execLutSwap die s
  | .txCorrApply die clips => Sys2Proof.Machine.execTxCorrApply die clips s
  | .codewordRelease die sc llr => Sys2Proof.Machine.execCodewordRelease die sc llr s
  | .clusterFree die cluster => Sys2Proof.Machine.execClusterFree die cluster s
  | .expressCodeword die llr cut => Sys2Proof.Machine.execExpressCodeword die llr cut s
  | .clusterRetire die cluster => Sys2Proof.Machine.execClusterRetire die cluster s
  | .histSnap die => Sys2Proof.Machine.execHistSnap die s
  | .histClear die => Sys2Proof.Machine.execHistClear die s
  | .headerReceive die sc bytes => Sys2Proof.Machine.execHeaderReceive die sc bytes s
  | .streamRecord die sc mfc ptr bch scr => Sys2Proof.Machine.execStreamRecord die sc mfc ptr bch scr s
  | .sbipCompare die sc parity => Sys2Proof.Machine.execSbipCompare die sc parity s
  | .fasPeak die sc pos rx => Sys2Proof.Machine.execFasPeak die sc pos rx s
  | .candidateCheck die sc checks => Sys2Proof.Machine.execCandidateCheck die sc checks s
  | .inFrameFasCheck die sc fas => Sys2Proof.Machine.execInFrameFasCheck die sc fas s
  | .defectSample die power lock => Sys2Proof.Machine.execDefectSample die power lock s
  | .propose team body => Sys2Proof.Machine.execPropose team body s
  | .planData team body => Sys2Proof.Machine.execPlanData team body s
  | .accept team body => Sys2Proof.Machine.execAccept team body s
  | .reject team body => Sys2Proof.Machine.execReject team body s
  | .confirm team body => Sys2Proof.Machine.execConfirm team body s
  | .withdraw team body => Sys2Proof.Machine.execWithdraw team body s
  | .planRevert team body => Sys2Proof.Machine.execPlanRevert team body s
  | .acceptorGoDeadline team => Sys2Proof.Machine.execAcceptorGoDeadline team s
  | .rxPlanSwitch team => Sys2Proof.Machine.execRxPlanSwitch team s
  | .planDisagreement team => Sys2Proof.Machine.execPlanDisagreement team s
  | .handshakeTimeout team => Sys2Proof.Machine.execHandshakeTimeout team s
  | .timeTransfer die tTx tRx rxMfc t4 => Sys2Proof.Machine.execTimeTransfer die tTx tRx rxMfc t4 s
  | .flowFrameSend die flow mf => Sys2Proof.Machine.execFlowFrameSend die flow mf s
  | .flowFrameReceive die flow shares marked first last => Sys2Proof.Machine.execFlowFrameReceive die flow shares marked first last s
  | .flowDefectIdleSample die flow => Sys2Proof.Machine.execFlowDefectIdleSample die flow s
  | .flowBlockIn die flow block => Sys2Proof.Machine.execFlowBlockIn die flow block s
  | .keyLoad die flow rx next => Sys2Proof.Machine.execKeyLoad die flow rx next s
  | .keyErase die flow rx next => Sys2Proof.Machine.execKeyErase die flow rx next s
  | .crcBoundary die => Sys2Proof.Machine.execCrcBoundary die s
  | .crcTake die unit source => Sys2Proof.Machine.execCrcTake die unit source s
  | .crcRunningWrite die unit data => Sys2Proof.Machine.execCrcRunningWrite die unit data s
  | .groupEnable die grp data => Sys2Proof.Machine.execGroupEnable die grp data s
  | .laneDisable die lane transit => Sys2Proof.Machine.execLaneDisable die lane transit s
  | .laneSignalDetect die lane => Sys2Proof.Machine.execLaneSignalDetect die lane s
  | .laneDebounceEnd die lane => Sys2Proof.Machine.execLaneDebounceEnd die lane s
  | .laneAdapted die lane partnerTrain => Sys2Proof.Machine.execLaneAdapted die lane partnerTrain s
  | .laneLock die lane taps => Sys2Proof.Machine.execLaneLock die lane taps s
  | .helloSend die lane => Sys2Proof.Machine.execHelloSend die lane s
  | .helloReceive die lane bytes transit => Sys2Proof.Machine.execHelloReceive die lane bytes transit s
  | .helloLoss die lane transit => Sys2Proof.Machine.execHelloLoss die lane transit s
  | .reform die grp transit => Sys2Proof.Machine.execReform die grp transit s
  | .align die lane pos size epoch count => Sys2Proof.Machine.execAlign die lane pos size epoch count s
  | .groupUp die grp => Sys2Proof.Machine.execGroupUp die grp s
  | .reformTimeout die grp => Sys2Proof.Machine.execReformTimeout die grp s
  | .flowTag die grp body data => Sys2Proof.Machine.execFlowTag die grp body data s
  | .replaceTagSend die flow => Sys2Proof.Machine.execReplaceTagSend die flow s
  | .auiCodeword die grp lane blocks corrected bad => Sys2Proof.Machine.execAuiCodeword die grp lane blocks corrected bad s
  | .txRateLimit die grp => Sys2Proof.Machine.execTxRateLimit die grp s
  | .directionSleep die grp => Sys2Proof.Machine.execDirectionSleep die grp s
  | .sleep die grp => Sys2Proof.Machine.execSleep die grp s
  | .groupWake die grp => Sys2Proof.Machine.execGroupWake die grp s
  | .wakeBurst die grp transit => Sys2Proof.Machine.execWakeBurst die grp transit s
  | .wakeFail die lane transit => Sys2Proof.Machine.execWakeFail die lane transit s
  | .timestamp die grp tx kind seqId domain msgType => Sys2Proof.Machine.execTimestamp die grp tx kind seqId domain msgType s
  | .tsEntryRead die => Sys2Proof.Machine.execTsEntryRead die s
  | .cvLd die eng v addr => Sys2Proof.Machine.execCvLd die eng v addr s
  | .cvSt die eng v addr => Sys2Proof.Machine.execCvSt die eng v addr s
  | .cvMul die eng vd va vb => Sys2Proof.Machine.execCvMul die eng vd va vb s
  | .cvMac die eng acc va vb => Sys2Proof.Machine.execCvMac die eng acc va vb s
  | .cvConj die eng vd va => Sys2Proof.Machine.execCvConj die eng vd va s
  | .cvAbs2 die eng vd va => Sys2Proof.Machine.execCvAbs2 die eng vd va s
  | .cvRot die eng vd va angle => Sys2Proof.Machine.execCvRot die eng vd va angle s
  | .cvSum die eng acc va => Sys2Proof.Machine.execCvSum die eng acc va s
  | .cvShr die eng vd acc shift => Sys2Proof.Machine.execCvShr die eng vd acc shift s
  | .cvDma die eng src dst more => Sys2Proof.Machine.execCvDma die eng src dst more s
  | .dmaCopyDone die ch => Sys2Proof.Machine.execDmaCopyDone die ch s
  | .engineWatchdog die eng => Sys2Proof.Machine.execEngineWatchdog die eng s
  | .engineTrap die eng cause tval => Sys2Proof.Machine.execEngineTrap die eng cause tval s
  | .tcmAccess die eng word write upset => Sys2Proof.Machine.execTcmAccess die eng word write upset s
  | .bankAccess die bank word req op meets upset => Sys2Proof.Machine.execBankAccess die bank word req op meets upset s
  | .bankOwnerWrite die bank kind owner => Sys2Proof.Machine.execBankOwnerWrite die bank kind owner s
  | .bankHandover die bank => Sys2Proof.Machine.execBankHandover die bank s
  | .bankPowerWrite die bank power idle => Sys2Proof.Machine.execBankPowerWrite die bank power idle s
  | .memoryFill die mem => Sys2Proof.Machine.execMemoryFill die mem s
  | .checkerSelftest die failing => Sys2Proof.Machine.execCheckerSelftest die failing s
  | .bucketLeak die grp => Sys2Proof.Machine.execBucketLeak die grp s
  | .scrubStart die => Sys2Proof.Machine.execScrubStart die s
  | .scrubStop die upto upsets => Sys2Proof.Machine.execScrubStop die upto upsets s
  | .scrubDone die upsets => Sys2Proof.Machine.execScrubDone die upsets s
  | .marchStart die => Sys2Proof.Machine.execMarchStart die s
  | .marchDone die rows upsets => Sys2Proof.Machine.execMarchDone die rows upsets s
  | .repairEntryWrite die bank j data => Sys2Proof.Machine.execRepairEntryWrite die bank j data s
  | .domainPowerOn die dom => Sys2Proof.Machine.execDomainPowerOn die dom s
  | .domainLower die dom => Sys2Proof.Machine.execDomainLower die dom s
  | .pllLock die pll => Sys2Proof.Machine.execPllLock die pll s
  | .pllLockFail die pll => Sys2Proof.Machine.execPllLockFail die pll s
  | .samplingPllStop die => Sys2Proof.Machine.execSamplingPllStop die s
  | .pwrWindow rates => Sys2Proof.Machine.execPwrWindow rates s
  | .armsOffAfter die sc => Sys2Proof.Machine.execArmsOffAfter die sc s
  | .park die => Sys2Proof.Machine.execPark die s
  | .unpark die => Sys2Proof.Machine.execUnpark die s
  | .pkgSleep => Sys2Proof.Machine.execPkgSleep s
  | .pkgWake => Sys2Proof.Machine.execPkgWake s
  | .refMonitorUpdate samples => Sys2Proof.Machine.execRefMonitorUpdate samples s
  | .refActivityLoss slot => Sys2Proof.Machine.execRefActivityLoss slot s
  | .refSlotConfig slot data => Sys2Proof.Machine.execRefSlotConfig slot data s
  | .refOfsWrite slot data => Sys2Proof.Machine.execRefOfsWrite slot data s
  | .dpllLocked => Sys2Proof.Machine.execDpllLocked s
  | .dpllAcqTimeout => Sys2Proof.Machine.execDpllAcqTimeout s
  | .dpllLost => Sys2Proof.Machine.execDpllLost s
  | .dpllReacquire => Sys2Proof.Machine.execDpllReacquire s
  | .dpllModeWrite mode => Sys2Proof.Machine.execDpllModeWrite mode s
  | .historySample mean => Sys2Proof.Machine.execHistorySample mean s
  | .phaseStep step => Sys2Proof.Machine.execPhaseStep step s
  | .stepApply => Sys2Proof.Machine.execStepApply s
  | .outputConfigWrite out aux data => Sys2Proof.Machine.execOutputConfigWrite out aux data s
  | .realign data => Sys2Proof.Machine.execRealign data s
  | .realignDone => Sys2Proof.Machine.execRealignDone s
  | .todLoad => Sys2Proof.Machine.execTodLoad s
  | .todLoadApply => Sys2Proof.Machine.execTodLoadApply s
  | .todSnap adv => Sys2Proof.Machine.execTodSnap adv s
  | .sensorSlot die a b => Sys2Proof.Machine.execSensorSlot die a b s
  | .seqTrigger die trig => Sys2Proof.Machine.execSeqTrigger die trig s
  | .seqGo die => Sys2Proof.Machine.execSeqGo die s
  | .hkConversion die a b => Sys2Proof.Machine.execHkConversion die a b s
  | .seqPassEnd die => Sys2Proof.Machine.execSeqPassEnd die s
  | .urgentGo die data => Sys2Proof.Machine.execUrgentGo die data s
  | .urgentDone die a b => Sys2Proof.Machine.execUrgentDone die a b s
  | .syncInEdge => Sys2Proof.Machine.execSyncInEdge s
  | .syncOutGo die => Sys2Proof.Machine.execSyncOutGo die s
  | .syncOutPulse => Sys2Proof.Machine.execSyncOutPulse s
  | .wchSync die => Sys2Proof.Machine.execWchSync die s
  | .wchChannelConfig die ch step data => Sys2Proof.Machine.execWchChannelConfig die ch step data s
  | .wchInputSample die ch x full => Sys2Proof.Machine.execWchInputSample die ch x full s
  | .plmP1Send => Sys2Proof.Machine.execPlmP1Send s
  | .plmHandshake probe => Sys2Proof.Machine.execPlmHandshake probe s
  | .plmQualityUpdate decided slicer => Sys2Proof.Machine.execPlmQualityUpdate decided slicer s
  | .statusPacketSend => Sys2Proof.Machine.execStatusPacketSend s
  | .plmDownshift => Sys2Proof.Machine.execPlmDownshift s
  | .plmUpshift => Sys2Proof.Machine.execPlmUpshift s
  | .plmLinkDown cause => Sys2Proof.Machine.execPlmLinkDown cause s
  | .plmRetrain => Sys2Proof.Machine.execPlmRetrain s
  | .plmFastRetrainEnd ok probe => Sys2Proof.Machine.execPlmFastRetrainEnd ok probe s
  | .mgmtPacket payload => Sys2Proof.Machine.execMgmtPacket payload s
  | .statusPacket margin evm => Sys2Proof.Machine.execStatusPacket margin evm s
  | .hostPacket payload => Sys2Proof.Machine.execHostPacket payload s
  | .selectPacket profile => Sys2Proof.Machine.execSelectPacket profile s
  | .plmTxGo => Sys2Proof.Machine.execPlmTxGo s
  | .plmRxAck => Sys2Proof.Machine.execPlmRxAck s
  | .recWaitExpire die => Sys2Proof.Machine.execRecWaitExpire die s
  | .cairnBurstSend die => Sys2Proof.Machine.execCairnBurstSend die s
  | .cairnDetection die rx pos => Sys2Proof.Machine.execCairnDetection die rx pos s
  | .cairnHeader die syms => Sys2Proof.Machine.execCairnHeader die syms s
  | .cairnBody die syms => Sys2Proof.Machine.execCairnBody die syms s
  | .peerExpire die idx => Sys2Proof.Machine.execPeerExpire die idx s
  | .noPeer die => Sys2Proof.Machine.execNoPeer die s
  | .epoch1Retry team => Sys2Proof.Machine.execEpoch1Retry team s
  | .epoch2Commit team => Sys2Proof.Machine.execEpoch2Commit team s
  | .cairnRestart die => Sys2Proof.Machine.execCairnRestart die s
  | .rebase die => Sys2Proof.Machine.execRebase die s
  | .autoRebase team cause => Sys2Proof.Machine.execAutoRebase team cause s
  | .faultReport die rec => Sys2Proof.Machine.execFaultReport die rec s
  | .faultLogClear die => Sys2Proof.Machine.execFaultLogClear die s
  | .dieRelease die => Sys2Proof.Machine.execDieRelease die s
  | .railLow die rail => Sys2Proof.Machine.execRailLow die rail s
  | .railRecover die rail => Sys2Proof.Machine.execRailRecover die rail s
  | .gpioEdge pin rising cycles => Sys2Proof.Machine.execGpioEdge pin rising cycles s
  | .jtagBypass die tdi => Sys2Proof.Machine.execJtagBypass die tdi s
  | .jtagSamplePreload die pins tdi => Sys2Proof.Machine.execJtagSamplePreload die pins tdi s
  | .jtagExtest die pins tdi => Sys2Proof.Machine.execJtagExtest die pins tdi s
  | .jtagIdcode die tdi => Sys2Proof.Machine.execJtagIdcode die tdi s
  | .jtagClamp die tdi => Sys2Proof.Machine.execJtagClamp die tdi s
  | .jtagHighz die tdi => Sys2Proof.Machine.execJtagHighz die tdi s
  | .handoverComplete => Sys2Proof.Machine.execHandoverComplete s
  | .ringMessageDiscard die cw => Sys2Proof.Machine.execRingMessageDiscard die cw s
  | .spiFrameInvalid mosi => Sys2Proof.Machine.execSpiFrameInvalid mosi s
  | .engineInstruction die eng => Sys2Proof.Machine.execEngineInstruction die eng s
  | .planChangeTxSwitch team => Sys2Proof.Machine.execPlanChangeTxSwitch team s
  | .rebaseSwitch team => Sys2Proof.Machine.execRebaseSwitch team s
  | .trunkCodeword die lane corrected bad blocks => Sys2Proof.Machine.execTrunkCodeword die lane corrected bad blocks s
  | .plmCodeword info check => Sys2Proof.Machine.execPlmCodeword info check s
  | .laneSignalLoss die lane present transit => Sys2Proof.Machine.execLaneSignalLoss die lane present transit s
  | .refxoLoss => Sys2Proof.Machine.execRefxoLoss s
  | .refxoReturn => Sys2Proof.Machine.execRefxoReturn s
  | .txRateInRange die grp idles => Sys2Proof.Machine.execTxRateInRange die grp idles s
  | .calRecordDone die => Sys2Proof.Machine.execCalRecordDone die s
  | .keyCommandDone die => Sys2Proof.Machine.execKeyCommandDone die s

end Sys2Proof.Machine
end

