-- ==== Sys2Proof/WellFormed.lean ====
section
/-! DEFINITION. Well-formed commands: the die a command acts at exists in the ordered part (R2), a unit number lies within its
block, a chunk within the image buffer (R82), a plan message body within its record (R236), a pair-line payload within its
packet (R404). -/
namespace Sys2Proof
open Machine

/-- The die at which a command acts, or the die whose team it concerns; none for a command that names no die, or whose die
index only forms an address. -/
def Instr.site : Instr → Option (Fin 8)
  | .registerWrite _ _ _ => none
  | .rcRead _ _ => none
  | .summaryW1cWrite _ _ => none
  | .irqMaskWrite _ _ => none
  | .powerOnReset => none
  | .porRelease _ => none
  | .resetNPulse _ => none
  | .packageReset => none
  | .dieReset d _ => some d
  | .blockReset d _ _ _ => some d
  | .blockResetEffect d _ => some d
  | .memberLostDeclare d => some d
  | .absenceChangeStart d => some d
  | .rejoinRequest _ => none
  | .rejoinStart d => some d
  | .selftest d _ => some d
  | .crownElection => none
  | .crownWatchdogExpiry => none
  | .heartbeatSend => none
  | .heartbeat d _ _ => some d
  | .hbAnswer d _ _ _ => some d
  | .noAnswerTimeout d => some d
  | .crownClaim d => some d
  | .claim d => some d
  | .claimAck d => some d
  | .takeoverComplete => none
  | .crownStuck => none
  | .handover _ => none
  | .handoverRelease => none
  | .regReq => none
  | .regRsp => none
  | .irqSum d => some d
  | .fault d _ => some d
  | .quarReq _ => none
  | .quarRelease _ => none
  | .broadcastWrite _ _ _ => none
  | .spiNop _ => none
  | .spiRead _ => none
  | .spiWrite _ _ => none
  | .accessTimeout => none
  | .mgmtMessage _ _ => none
  | .pkgAccessNoCrown d _ _ _ => some d
  | .imageChunk d _ => some d
  | .imageResend d _ => some d
  | .imageChecks d => some d
  | .imageResult d => some d
  | .sectionApply => none
  | .imgLoadGo => none
  | .flashReadWord => none
  | .flashProgramWord => none
  | .flashEraseSector => none
  | .flashCmdDone _ => none
  | .otpDataWrite _ => none
  | .otpItemSelect _ => none
  | .otpProgram _ => none
  | .otpProgramDone => none
  | .rollbackAdvance _ => none
  | .dieImageResend d => some d
  | .valuesTimeout d => some d
  | .stagedWrite _ _ _ => none
  | .stagedViewWrite _ _ _ => none
  | .stageDiscard d => some d
  | .pkgStageDiscard => none
  | .txnCommit _ => none
  | .txnAbort _ => none
  | .txnRollback _ => none
  | .txnMultiCommand _ => none
  | .prepare d => some d
  | .ready d => some d
  | .refuse d _ => some d
  | .txnGoDeadline => none
  | .go d => some d
  | .abort d => some d
  | .txnSwitch => none
  | .revert d => some d
  | .revertRestore => none
  | .shadowExpire => none
  | .enableClearDrain d _ _ _ _ => some d
  | .enableClearAbort d _ _ _ => some d
  | .drainIdle d _ _ => some d
  | .drainTimeout d _ _ _ => some d
  | .disModeWrite d _ _ _ => some d
  | .disLimitWrite d _ _ _ _ => some d
  | .synthSwitch => none
  | .sclkLost d => some d
  | .sclkReturn d => some d
  | .pathSkewWrite d _ _ => some d
  | .coefWindowWrite d _ _ _ => some d
  | .coefSwitch d _ _ => some d
  | .coefSwap d => some d
  | .fgStart d _ => some d
  | .fgPassEnd d _ => some d
  | .bgCalUpdate d _ => some d
  | .delayWrite d _ _ _ => some d
  | .fineSlewStep d => some d
  | .seamSkewEstimate d _ => some d
  | .txSeamReport d _ => some d
  | .calSave d => some d
  | .calRestore d => some d
  | .calVerifyEnd d => some d
  | .dfeAutoUpdate d _ => some d
  | .freqReport d _ => some d
  | .freqApply d => some d
  | .coarseFreqAcq d _ => some d
  | .fdeBlock d _ _ _ _ => some d
  | .training d _ _ _ => some d
  | .cdScanDone d _ _ _ => some d
  | .rxArmStart d _ => some d
  | .rxArmTracking d _ => some d
  | .rxAcqTimeout d _ => some d
  | .rxArmWake d _ => some d
  | .pilotInterval d _ _ => some d
  | .carrierLockLost d _ => some d
  | .seamCombineUpdate d _ _ => some d
  | .seamLearningEnd d _ => some d
  | .bridgeLost d _ _ => some d
  | .bridgeRestored d _ => some d
  | .qWindowPublish d _ => some d
  | .txArmReady d _ => some d
  | .txArmSendStart d _ => some d
  | .freqTrimStep d => some d
  | .levelRampStep d => some d
  | .lutSwitch d _ _ => some d
  | .lutSwap d => some d
  | .txCorrApply d _ => some d
  | .codewordRelease d _ _ => some d
  | .clusterFree d _ => some d
  | .expressCodeword d _ _ => some d
  | .clusterRetire d _ => some d
  | .histSnap d => some d
  | .histClear d => some d
  | .headerReceive d _ _ => some d
  | .streamRecord d _ _ _ _ _ => some d
  | .sbipCompare d _ _ => some d
  | .fasPeak d _ _ _ => some d
  | .candidateCheck d _ _ => some d
  | .inFrameFasCheck d _ _ => some d
  | .defectSample d _ _ => some d
  | .propose d _ => some d
  | .planData d _ => some d
  | .accept d _ => some d
  | .reject d _ => some d
  | .confirm d _ => some d
  | .withdraw d _ => some d
  | .planRevert d _ => some d
  | .acceptorGoDeadline d => some d
  | .rxPlanSwitch d => some d
  | .planDisagreement d => some d
  | .handshakeTimeout d => some d
  | .timeTransfer d _ _ _ _ => some d
  | .flowFrameSend d _ _ => some d
  | .flowFrameReceive d _ _ _ _ _ => some d
  | .flowDefectIdleSample d _ => some d
  | .flowBlockIn d _ _ => some d
  | .keyLoad d _ _ _ => some d
  | .keyErase d _ _ _ => some d
  | .crcBoundary d => some d
  | .crcTake d _ _ => some d
  | .crcRunningWrite d _ _ => some d
  | .groupEnable d _ _ => some d
  | .laneDisable d _ _ => some d
  | .laneSignalDetect d _ => some d
  | .laneDebounceEnd d _ => some d
  | .laneAdapted d _ _ => some d
  | .laneLock d _ _ => some d
  | .helloSend d _ => some d
  | .helloReceive d _ _ _ => some d
  | .helloLoss d _ _ => some d
  | .reform d _ _ => some d
  | .align d _ _ _ _ _ => some d
  | .groupUp d _ => some d
  | .reformTimeout d _ => some d
  | .flowTag d _ _ _ => some d
  | .replaceTagSend d _ => some d
  | .auiCodeword d _ _ _ _ _ => some d
  | .txRateLimit d _ => some d
  | .directionSleep d _ => some d
  | .sleep d _ => some d
  | .groupWake d _ => some d
  | .wakeBurst d _ _ => some d
  | .wakeFail d _ _ => some d
  | .timestamp d _ _ _ _ _ _ => some d
  | .tsEntryRead d => some d
  | .cvLd d _ _ _ => some d
  | .cvSt d _ _ _ => some d
  | .cvMul d _ _ _ _ => some d
  | .cvMac d _ _ _ _ => some d
  | .cvConj d _ _ _ => some d
  | .cvAbs2 d _ _ _ => some d
  | .cvRot d _ _ _ _ => some d
  | .cvSum d _ _ _ => some d
  | .cvShr d _ _ _ _ => some d
  | .cvDma d _ _ _ _ => some d
  | .dmaCopyDone d _ => some d
  | .engineWatchdog d _ => some d
  | .engineTrap d _ _ _ => some d
  | .tcmAccess d _ _ _ _ => some d
  | .bankAccess d _ _ _ _ _ _ => some d
  | .bankOwnerWrite d _ _ _ => some d
  | .bankHandover d _ => some d
  | .bankPowerWrite d _ _ _ => some d
  | .memoryFill d _ => some d
  | .checkerSelftest d _ => some d
  | .bucketLeak d _ => some d
  | .scrubStart d => some d
  | .scrubStop d _ _ => some d
  | .scrubDone d _ => some d
  | .marchStart d => some d
  | .marchDone d _ _ => some d
  | .repairEntryWrite d _ _ _ => some d
  | .domainPowerOn d _ => some d
  | .domainLower d _ => some d
  | .pllLock d _ => some d
  | .pllLockFail d _ => some d
  | .samplingPllStop d => some d
  | .pwrWindow _ => none
  | .armsOffAfter d _ => some d
  | .park d => some d
  | .unpark d => some d
  | .pkgSleep => none
  | .pkgWake => none
  | .refMonitorUpdate _ => none
  | .refActivityLoss _ => none
  | .refSlotConfig _ _ => none
  | .refOfsWrite _ _ => none
  | .dpllLocked => none
  | .dpllAcqTimeout => none
  | .dpllLost => none
  | .dpllReacquire => none
  | .dpllModeWrite _ => none
  | .historySample _ => none
  | .phaseStep _ => none
  | .stepApply => none
  | .outputConfigWrite _ _ _ => none
  | .realign _ => none
  | .realignDone => none
  | .todLoad => none
  | .todLoadApply => none
  | .todSnap _ => none
  | .sensorSlot d _ _ => some d
  | .seqTrigger d _ => some d
  | .seqGo d => some d
  | .hkConversion d _ _ => some d
  | .seqPassEnd d => some d
  | .urgentGo d _ => some d
  | .urgentDone d _ _ => some d
  | .syncInEdge => none
  | .syncOutGo d => some d
  | .syncOutPulse => none
  | .wchSync d => some d
  | .wchChannelConfig d _ _ _ => some d
  | .wchInputSample d _ _ _ => some d
  | .plmP1Send => none
  | .plmHandshake _ => none
  | .plmQualityUpdate _ _ => none
  | .statusPacketSend => none
  | .plmDownshift => none
  | .plmUpshift => none
  | .plmLinkDown _ => none
  | .plmRetrain => none
  | .plmFastRetrainEnd _ _ => none
  | .mgmtPacket _ => none
  | .statusPacket _ _ => none
  | .hostPacket _ => none
  | .selectPacket _ => none
  | .plmTxGo => none
  | .plmRxAck => none
  | .recWaitExpire d => some d
  | .cairnBurstSend d => some d
  | .cairnDetection d _ _ => some d
  | .cairnHeader d _ => some d
  | .cairnBody d _ => some d
  | .peerExpire d _ => some d
  | .noPeer d => some d
  | .epoch1Retry d => some d
  | .epoch2Commit d => some d
  | .cairnRestart d => some d
  | .rebase d => some d
  | .autoRebase d _ => some d
  | .faultReport d _ => some d
  | .faultLogClear d => some d
  | .dieRelease d => some d
  | .railLow d _ => some d
  | .railRecover d _ => some d
  | .gpioEdge _ _ _ => none
  | .jtagBypass d _ => some d
  | .jtagSamplePreload d _ _ => some d
  | .jtagExtest d _ _ => some d
  | .jtagIdcode d _ => some d
  | .jtagClamp d _ => some d
  | .jtagHighz d _ => some d
  | .handoverComplete => none
  | .ringMessageDiscard d _ => some d
  | .spiFrameInvalid _ => none
  | .engineInstruction d _ => some d
  | .planChangeTxSwitch d => some d
  | .rebaseSwitch d => some d
  | .trunkCodeword d _ _ _ _ => some d
  | .plmCodeword _ _ => none
  | .laneSignalLoss d _ _ _ => some d
  | .refxoLoss => none
  | .refxoReturn => none
  | .txRateInRange d _ _ => some d
  | .calRecordDone d => some d
  | .keyCommandDone d => some d

/-- The die a command acts at exists. -/
def Instr.siteOk (i : Instr) (p : Part) : Bool :=
  match i.site with
  | some d => decide ((d : Nat) < p.dies)
  | none => true

/-- The units of a block under the disable rule (R98 and the unit rules of each chapter). -/
def blockUnitCount : Nat → Nat
  | 2 => 8
  | 4 => 8
  | 5 => 8
  | 7 => 8
  | 10 => 1024
  | 12 => 64
  | 13 => 8
  | 14 => 72
  | 20 => 1
  | 21 => 16
  | 22 => 1
  | _ => 0

/-- A unit number lies within its block. -/
def Instr.unitOk : Instr → Bool
  | .enableClearDrain _ blk unit _ _ => decide (unit < blockUnitCount blk)
  | .enableClearAbort _ blk unit _ => decide (unit < blockUnitCount blk)
  | .drainIdle _ blk unit => decide (unit < blockUnitCount blk)
  | .drainTimeout _ blk unit _ => decide (unit < blockUnitCount blk)
  | _ => true

/-- A chunk of 24 bytes lies within the 8 MiB image buffer. -/
def Instr.chunkOk : Instr → Bool
  | .imageChunk _ index => decide (24 * index < 8388608)
  | .imageResend _ index => decide (24 * index < 8388608)
  | _ => true

/-- The body of a plan message fits the 28 bytes of its record. -/
def Instr.bodyOk : Instr → Bool
  | .propose _ body => decide (body.length ≤ 28)
  | .planData _ body => decide (body.length ≤ 28)
  | .accept _ body => decide (body.length ≤ 28)
  | .reject _ body => decide (body.length ≤ 28)
  | .confirm _ body => decide (body.length ≤ 28)
  | .withdraw _ body => decide (body.length ≤ 28)
  | .planRevert _ body => decide (body.length ≤ 28)
  | _ => true

/-- The payload of a pair-line packet has at most 1 024 bytes. -/
def Instr.payloadOk : Instr → Bool
  | .mgmtPacket payload => decide (payload.value.length ≤ 1024)
  | .hostPacket payload => decide (payload.length ≤ 1024)
  | _ => true

/-- A command that can reach a package of the ordered part. -/
def Instr.wellFormed (i : Instr) (p : Part) : Bool :=
  i.siteOk p && i.unitOk && i.chunkOk && i.bodyOk && i.payloadOk

end Sys2Proof
end

