-- ==== Sys2Proof/Safety.lean ====
section
/-! DEFINITION. What a safe run is, in the terms the statements use: a command that completes, what a command leaves as it
was, an interrupt tree that hides no event, memories in canonical form. -/
namespace Sys2Proof.Machine
open Sys2Proof

/-- The command answers a next state, and the state has the property. -/
def Completes (c : Instr) (s : State) (P : State → Prop) : Prop := ∃ t, exec c s = .next t ∧ P t

/-- The place of a field: what tells two fields apart whatever the instance and the element. -/
def place (f : Fld) : Nat × Nat × Nat × Nat := (f.dom.rank, f.blk, f.reg, f.lo)

/-- The summary fields of the interrupt tree, which every command brings up to date at its end (R65). -/
def summaryPlaces : List (Nat × Nat × Nat × Nat) :=
  [place PKG_DIE_IRQ_STATUS_BLOCK, place PKG_IRQ_STATUS_GPIO, place PKG_IRQ_STATUS_IMG, place PKG_IRQ_STATUS_PLM,
    place PKG_IRQ_STATUS_TIM, place PKG_IRQ_STATUS_ADDR, place PKG_IRQ_STATUS_RING, place PKG_IRQ_STATUS_QUAR,
    place PKG_IRQ_STATUS_CROWN, place PKG_IRQ_STATUS_TEAM, place PKG_IRQ_STATUS_DIE]

/-- Every register field reads as before, at every instance and element, but for the fields named and the summaries. -/
def KeepsRegs (fs : List Fld) (s t : State) : Prop :=
  ∀ (g : Fld) (e j : Nat), place g ∉ fs.map place → place g ∉ summaryPlaces → t.rd g e j = s.rd g e j

/-- Every byte of the tightly coupled memories, the banks and the flash reads as before. -/
def KeepsMemory (s t : State) : Prop :=
  (∀ a, memByte ramDefault t.mem a = memByte ramDefault s.mem a) ∧
    ∀ a, memByte flashDefault t.flash a = memByte flashDefault s.flash a

/-- Only register fields among those named, the summaries and what was sent differ. -/
def OnlyRegs (fs : List Fld) (s t : State) : Prop :=
  t = { s with regs := t.regs, out := t.out } ∧ KeepsRegs fs s t

/-- The management endpoint answers: it is in service and a die holds the crown token (R46, R54). -/
def Serves (s : State) : Prop := s.crown.endpoint = .service ∧ s.crown.token.isSome = true

/-- An address names an offset of a block of die `d`, whose fabric answers (R54, R330). -/
def Reaches (s : State) (d blk off : Nat) (addr : Word) : Prop :=
  d < s.part.dies ∧ s.fabricOff d = false ∧ addr.toNat = dieBase d + blk * 0x40000 + off

/-- The level above shows every live event of a die's blocks (R65). -/
def SettledDie (s : State) (d : Nat) : Prop :=
  ∀ i, (s.liveDie d).testBit i = true → (s.rd PKG_DIE_IRQ_STATUS_BLOCK d).testBit i = true

/-- The package summary shows every live source, while a die holds the crown token (R65, R66, R68). -/
def SettledPkg (s : State) : Prop :=
  ∀ c, s.crown.token = some c →
    (∀ x ∈ s.pkgSources c, x.2 = true → s.flag x.1 pkg = true) ∧
      ∀ i, (s.livePkgDie c).testBit i = true → (s.rd PKG_IRQ_STATUS_DIE pkg).testBit i = true

/-- No event of the interrupt tree is hidden: every live source shows in the summary above it. -/
def Settled (s : State) : Prop := (∀ d, d < s.part.dies → SettledDie s d) ∧ SettledPkg s

/-- The byte memories are in canonical form. -/
def CanonicalMemory (s : State) : Prop := Memory.wf ramDefault s.mem = true ∧ Memory.wf flashDefault s.flash = true

end Sys2Proof.Machine
end

