-- ==== Sys2Proof/Certificates/Slice0/Obligations.lean ====
section
/-! DEFINITION. The statements for the provers. Each says what a command or the machine does by the rules of the spec. -/
open Sys2Proof Sys2Proof.Machine

/-- A step takes the command at the front of the queue and runs it with the queue's rest. -/
def Obligations.StepRunsFrontCommand : Prop :=
  ∀ (s : State) (c : Instr) (rest : List Instr), s.pending = c :: rest → step s = exec c { s with pending := rest }

/-- The model's choice (log entry 4): an empty queue idles. -/
def Obligations.EmptyQueueIdles : Prop := ∀ s : State, s.pending = [] → step s = .next s

/-- The state right after power-on reset: every field reads its reset value (R13), nothing is live, memory lists nothing. -/
def Obligations.ResetStateIsSafe : Prop :=
  Settled State.reset ∧ CanonicalMemory State.reset ∧
    ∀ (f : Fld) (d k : Nat), State.reset.rd f d k = f.reset false k

/-- R65 to R68: whatever the command, no event of the tree is hidden after a step. -/
def Obligations.StepsKeepTreeSettled : Prop :=
  ∀ s t : State, Settled s → step s = .next t → Settled t

/-- Every one of the commands is executed: none is refused and none stops. R2: the part has 2, 4 or 8 dies; what would act at
another die does nothing. -/
def Obligations.EveryCommandAnswers : Prop :=
  ∀ (c : Instr) (s : State),
    (Completes c s fun t => t.pending = s.pending ∧ t.part = s.part ∧ Settled t) ∧
      ∀ d : Fin 8, c.site = some d → s.part.dies ≤ (d : Nat) → Completes c s (OnlyRegs [] s)

/-- R6. -/
def Obligations.UnalignedAccessRefused : Prop :=
  ∀ (s : State) (addr data : Word), Serves s → addr.toNat % 4 ≠ 0 →
    let after := fun t : State =>
      t.bus.last = { code := 2, addr := addr.toNat, data := 0 } ∧
        t = { s with regs := t.regs, bus := t.bus, out := t.out } ∧
          KeepsRegs [PKG_DIE_ADDR_ERR_UNALIGNED, PKG_DIE_ADDR_ERR_ADDR_ADDRESS, PKG_ADDR_ERR_NO_DIE, PKG_ADDR_ERR_ADDR_ADDRESS] s t
    Completes (.rcRead (.path .spi) addr) s after ∧ Completes (.registerWrite (.path .spi) addr data) s after

/-- R7: the three places where the error is recorded. -/
def Obligations.UnoccupiedAddressRecorded : Prop :=
  (∀ (s : State) (d off : Nat) (addr data : Word), Serves s → Reaches s d 0 off addr → off < 0x04000000 → off % 4 = 0 →
    (if off < 0x680000 then spotAt (off / 0x40000) (off % 0x20000) = .empty else memAt off = none) →
    let after := fun t : State =>
      t.bus.last = { addr := addr.toNat } ∧ t = { s with regs := t.regs, bus := t.bus, out := t.out } ∧
        t.rd PKG_DIE_ADDR_ERR_UNMAPPED d = 1 ∧
          KeepsRegs [PKG_DIE_ADDR_ERR_UNMAPPED, PKG_DIE_ADDR_ERR_ADDR_ADDRESS] s t
    Completes (.rcRead (.path .spi) addr) s after ∧ Completes (.registerWrite (.path .spi) addr data) s after) ∧
  (∀ (s : State) (addr data : Word), Serves s → s.rootState = false → addr.toNat % 4 = 0 →
    (regionOf s.part.dies addr.toNat = .nothing ∨
      ∃ blk off, regionOf s.part.dies addr.toNat = .package blk off ∧ spotAt blk (off % 0x20000) = .empty) →
    let after := fun t : State =>
      t.bus.last = { addr := addr.toNat } ∧ t = { s with regs := t.regs, bus := t.bus, out := t.out } ∧
        t.rd PKG_ADDR_ERR_UNMAPPED pkg = 1 ∧ KeepsRegs [PKG_ADDR_ERR_UNMAPPED, PKG_ADDR_ERR_ADDR_ADDRESS] s t
    Completes (.rcRead (.path .spi) addr) s after ∧ Completes (.registerWrite (.path .spi) addr data) s after) ∧
  (∀ (s : State) (addr data : Word), Serves s → s.rootState = false → addr.toNat % 4 = 0 →
    regionOf s.part.dies addr.toNat = .noDie →
    let after := fun t : State =>
      t.bus.last = { addr := addr.toNat } ∧ t = { s with regs := t.regs, bus := t.bus, out := t.out } ∧
        t.rd PKG_ADDR_ERR_NO_DIE pkg = 1 ∧ KeepsRegs [PKG_ADDR_ERR_NO_DIE, PKG_ADDR_ERR_ADDR_ADDRESS] s t
    Completes (.rcRead (.path .spi) addr) s after ∧ Completes (.registerWrite (.path .spi) addr data) s after)

/-- R8, on a register of each access type. -/
def Obligations.AccessTypesOfRegisters : Prop :=
  ∀ (s : State) (d : Nat) (addr data : Word), Serves s →
    (Reaches s d 4 0x34 addr → Completes (.registerWrite (.path .spi) addr data) s fun t =>
      t.rd RXD_Q_CTRL_AVG d = clamp 1 255 (data.toNat % 256) ∧ t.rd RXD_Q_CTRL_SNR_TR d = data.toNat / 65536 ∧
        t.bus.last = { addr := addr.toNat } ∧ t = { s with regs := t.regs, bus := t.bus, out := t.out } ∧
          KeepsRegs [RXD_Q_CTRL_AVG, RXD_Q_CTRL_SNR_TR] s t) ∧
    (Reaches s d 3 4 addr → Completes (.registerWrite (.path .spi) addr data) s fun t =>
      t.bus.last = { addr := addr.toNat } ∧ t = { s with regs := t.regs, bus := t.bus, out := t.out } ∧ KeepsRegs [] s t) ∧
    (Reaches s d 6 8 addr → Completes (.registerWrite (.path .spi) addr data) s fun t =>
      (∀ f ∈ SEAM_EVENT_flds, t.rd f d = if bit data.toNat f.lo then 0 else s.rd f d % 2) ∧
        t.bus.last = { addr := addr.toNat } ∧ t = { s with regs := t.regs, bus := t.bus, out := t.out } ∧
          KeepsRegs SEAM_EVENT_flds s t) ∧
    (Reaches s d 11 0x20 addr → Completes (.rcRead (.path .spi) addr) s fun t =>
      t.bus.last = { addr := addr.toNat } ∧ t = { s with regs := t.regs, bus := t.bus, out := t.out } ∧ KeepsRegs [] s t) ∧
    (Reaches s d 3 0x10 addr → Completes (.rcRead (.path .spi) addr) s fun t =>
      t.bus.last = { addr := addr.toNat, data := s.rd CAL_REJECTS_COUNT d } ∧ t.rd CAL_REJECTS_COUNT d = 0 ∧
        t = { s with regs := t.regs, bus := t.bus, out := t.out } ∧ KeepsRegs [CAL_REJECTS_COUNT] s t)

/-- R87, R55 and R65. -/
def Obligations.StagedBroadcastMaskAndSummaryWrites : Prop :=
  (∀ (s : State) (d k : Nat) (addr data : Word), Serves s → k < 8 →
    Reaches s d 7 (0x400 + 0x40 * k) addr →
    Completes (.stagedWrite (.path .spi) addr data) s fun t =>
      t.rdStaged FEC_SC_CFG_CODE d k = data.toNat % 4 ∧ t.rd FEC_SC_CFG_CODE d k = s.rd FEC_SC_CFG_CODE d k ∧
        t = { s with regs := t.regs, staged := t.staged, bus := t.bus, out := t.out } ∧ KeepsRegs [] s t) ∧
  (∀ (s : State) (d blk off k : Nat) (r : Reg) (addr data : Word), Serves s → Reaches s d blk (0x20000 + off) addr →
    blk < 26 → off < 0x20000 → off % 4 = 0 → spotAt blk off = .reg blk r k →
    Completes (.stagedViewWrite (.path .spi) addr data) s fun t =>
      t.bus.last = { code := 2, addr := addr.toNat } ∧ t = { s with regs := t.regs, bus := t.bus, out := t.out } ∧
        KeepsRegs [] s t) ∧
  (∀ (s : State) (addr data : Word), Serves s → s.rootState = false → addr.toNat = 0x30000000 + 4 * 0x40000 + 0x34 →
    (∀ d, d < s.part.dies → s.fabricOff d = false) → (∃ d, d < s.part.dies ∧ s.quarantined d = false ∧ s.parked d = false) →
    Completes (.broadcastWrite (.path .spi) addr ⟨data, 0⟩) s fun t =>
      (∀ d, d < s.part.dies → s.quarantined d = false → s.parked d = false →
        t.rd RXD_Q_CTRL_AVG d = clamp 1 255 (data.toNat % 256) ∧ t.rd RXD_Q_CTRL_SNR_TR d = data.toNat / 65536) ∧
      t.rd PKG_BCAST_STATUS_FAIL_MASK pkg = 0 ∧ t.bus.last = { addr := addr.toNat } ∧
        t = { s with regs := t.regs, bus := t.bus, out := t.out } ∧
          KeepsRegs [RXD_Q_CTRL_AVG, RXD_Q_CTRL_SNR_TR, PKG_BCAST_STATUS_FAIL_MASK] s t) ∧
  (∀ (s : State) (d : Fin 8) (data : Word), Serves s → (d : Nat) < s.part.dies → s.fabricOff d = false →
    Completes (.irqMaskWrite (.dieIrq d) data) s fun t =>
      t.rd PKG_DIE_IRQ_MASK_ENABLE d = data.toNat % 2 ^ 26 ∧
        t = { s with regs := t.regs, bus := t.bus, out := t.out } ∧ KeepsRegs [PKG_DIE_IRQ_MASK_ENABLE] s t) ∧
  (∀ (s : State) (d : Fin 8) (bits : Word), Serves s → (d : Nat) < s.part.dies → s.fabricOff d = false →
    Completes (.summaryW1cWrite (some d) bits) s fun t =>
      (∀ i, i < 26 → (t.rd PKG_DIE_IRQ_STATUS_BLOCK d).testBit i =
        (((s.rd PKG_DIE_IRQ_STATUS_BLOCK d).testBit i && !bits.toNat.testBit i) || (s.liveDie d).testBit i)) ∧
        t = { s with regs := t.regs, bus := t.bus, out := t.out } ∧ KeepsRegs [] s t)

/-- R63. -/
def Obligations.ClosedPathDeniesWrites : Prop :=
  ∀ (s : State) (addr data : Word), Serves s → s.rootState = false → addr.toNat % 4 = 0 →
    let after := fun t : State =>
      t.bus.last = { code := 8, addr := addr.toNat } ∧ t.rd PKG_ADDR_ERR_DENIED pkg = 1 ∧
        t = { s with regs := t.regs, bus := t.bus, out := t.out } ∧
          KeepsRegs [PKG_ADDR_ERR_DENIED, PKG_ADDR_ERR_ADDR_ADDRESS] s t
    (s.rd PKG_MGMT_PATH_CTRL_INBAND_WR_EN pkg = 0 → Completes (.registerWrite (.path .inband) addr data) s after) ∧
    (s.rd PKG_MGMT_PATH_CTRL_PL_WR_EN pkg = 0 → Completes (.registerWrite (.path .pairLine) addr data) s after)

/-- R13, R448, R450. -/
def Obligations.ResetsClearWhatTheirDomainSays : Prop :=
  (∀ s : State, Completes .powerOnReset s fun t =>
    t.mem = [] ∧ t.otp = s.otp ∧ t.flash = s.flash ∧ t.dieId = s.dieId ∧ t.crown = {} ∧ t.txn = {} ∧ t.dies = [] ∧
      ∀ (g : Fld) (e j : Nat), place g ∉ summaryPlaces → t.rd g e j = g.reset s.part.isX j) ∧
  (∀ (s : State) (n : Bool), s.pins.porDone = false → Completes (.porRelease n) s fun t =>
    t.pins = { s.pins with porDone := true, resetN := n, waiting := !n, low := 0, ioLow := false } ∧
      t = { s with regs := t.regs, pins := t.pins, out := t.out } ∧ KeepsRegs [] s t) ∧
  (∀ (s : State) (ns : Nat), ns < 100 → Completes (.resetNPulse ns) s fun t => OnlyRegs [] s t) ∧
  (∀ s : State, (∀ d, d < s.part.dies → s.rd MEM_MARCH_CTRL_BOOT_EN d = 0) →
    let after := fun t : State =>
      t.otp = s.otp ∧ t.flash = s.flash ∧ t.crown = {} ∧ t.txn = {} ∧
      (∀ (g : Fld) (e j : Nat), g.dom ≠ .por → place g ∉ summaryPlaces → t.rd g e j = g.reset s.part.isX j) ∧
      ∀ (g : Fld) (e j : Nat), g.dom = .por → place g ∉ summaryPlaces →
        place g ∉ [place PKG_DIE_STATUS_QUARANTINED, place PKG_DIE_STATUS_IS_CROWN, place PKG_DIE_STATUS_IS_STANDBY] →
        t.rd g e j = s.rd g e j
    Completes .packageReset s after ∧ ∀ ns, 1000 ≤ ns → Completes (.resetNPulse ns) s after)

/-- R13 and R15. -/
def Obligations.DieAndBlockResetScope : Prop :=
  (∀ (s : State) (d : Fin 8) (byCrown : Bool), (d : Nat) < s.part.dies → s.crown.token ≠ some (d : Nat) →
    s.memberState d ≠ 1 → s.memberState d ≠ 2 → s.quarantined d = false → s.txn.isOpen = false → s.bus.running = none →
    s.rd MEM_MARCH_CTRL_BOOT_EN d = 0 →
    Completes (.dieReset d byCrown) s fun t =>
      (∀ (g : Fld) (j : Nat), (g.dom = .die ∨ g.dom = .blk) → place g ∉ summaryPlaces → t.rd g d j = g.reset s.part.isX j) ∧
      (∀ (g : Fld) (j : Nat), (g.dom = .por ∨ g.dom = .pkg) → place g ∉ summaryPlaces →
        place g ∉ [place PKG_DIE_STATUS_QUARANTINED, place PKG_DIE_STATUS_IS_CROWN, place PKG_DIE_STATUS_IS_STANDBY,
          place PWR_STATUS_SAMPLING_LOCK, place PWR_STATUS_FABRIC_LOCK, place PWR_STATUS_ENGINE_LOCK,
          place FLT_RETIRED_TX_ARM, place FLT_RETIRED_RX_ARM] →
        t.rd g d j = s.rd g d j) ∧
      t.rd FLT_RETIRED_TX_ARM d = 0 ∧ t.rd FLT_RETIRED_RX_ARM d = 0 ∧
      (t.die d).starting = true ∧ (t.die d).selfTest = none ∧ (t.die d).loaded = false) ∧
  (∀ (s : State) (d : Fin 8) (b : Fin 26) (now : Nat), (d : Nat) < s.part.dies →
    (b : Nat) = 12 ∨ (b : Nat) = 14 ∨ (b : Nat) = 21 →
    let after := fun t : State =>
      (∀ (g : Fld) (j : Nat), g.dom = .blk → g.blk = (b : Nat) → place g ∉ summaryPlaces → t.rd g d j = g.reset s.part.isX j) ∧
      ∀ (g : Fld) (j : Nat), g.dom ≠ .blk → place g ∉ summaryPlaces →
        place g ∉ [place PKG_DIE_ADDR_ERR_IN_RESET, place PKG_DIE_ADDR_ERR_ADDR_ADDRESS] → t.rd g d j = s.rd g d j
    (s.heldUnits d b = [] → s.blockIdle d b = true → Completes (.blockReset d b 0 now) s after) ∧
    (s.blkRst.find (unitKey d b) = some true → (∀ e ∈ s.blockUnits d b, e.2.draining = false) →
      Completes (.blockResetEffect d b) s after))

/-- R410 and R41. -/
def Obligations.SelfTestAndElection : Prop :=
  (∀ (s : State) (d : Fin 8) (r : SelfTestResult), (d : Nat) < s.part.dies → s.started = true → (s.die d).held = false →
    (s.die d).selfTest = none →
    Completes (.selftest d r) s fun t =>
      (t.die d).selfTest = some (r.rootOk && r.ringOk && r.fabricOk && r.cluster0Ok && r.banksOk) ∧
        t = { s with regs := t.regs, dies := t.dies, out := t.out }) ∧
  (∀ (s : State) (c : Nat), s.started = true → s.crown = {} → s.resultsIn = true →
    s.dieList.find? (fun d => s.nearEligible d) = some c →
    Completes .crownElection s fun t => t.crown.token = some c ∧ t.crown.endpoint = .service) ∧
  (∀ s : State, s.started = true → s.crown = {} → s.resultsIn = true →
    s.dieList.find? (fun d => s.nearEligible d) = none →
    Completes .crownElection s fun t => t.crown.token = none ∧ t.crown.nonePassed = true)

/-- R42, R45 and R46. -/
def Obligations.CrownTakeover : Prop :=
  (∀ (s : State) (c : Nat), s.crown.token = some c → Completes .crownWatchdogExpiry s fun t =>
    t.crown.token = none ∧ t.crown.failed = some c ∧ t.crown.olds = s.crown.olds.filter (fun d => d != c) ++ [c] ∧
      t.crown.endpoint =
        (if s.dieList.any (fun d => d != c && s.eligible d && !s.crown.olds.contains d) then .takeover else .off) ∧
      (∀ d, d < s.part.dies → t.rd PKG_DIE_STATUS_IS_CROWN d = 0) ∧
      t.bus = { s.bus with running := none, waiting := [] } ∧ t.txn = s.txn ∧ KeepsMemory s t ∧
      ∀ (g : Fld) (j : Nat), g.blk = 26 → place g ∉ summaryPlaces → t.rd g pkg j = s.rd g pkg j) ∧
  (∀ (s : State) (d : Fin 8) (old : Nat), (d : Nat) < s.part.dies → s.crown.token = none → s.crown.failed = some old →
    s.crown.endpoint = .takeover → s.canClaim d = true → s.crown.imageStarted = true →
    Completes (.crownClaim d) s fun t =>
      t.crown = { s.crown with token := some (d : Nat), acks := [], noCandidate := false } ∧
        t.rd PKG_DIE_STATUS_IS_CROWN d = 1 ∧ t.mem = s.mem ∧ t.flash = s.flash) ∧
  (∀ (s : State) (d : Fin 8) (c : Nat), (d : Nat) < s.part.dies → s.crown.token = some c → c ≠ (d : Nat) →
    s.crown.endpoint = .takeover →
    (Completes (.claim d) s fun t =>
      (∃ p, t.out = [.ring { type := 4, src := (d : Nat), dst := c, payload := p }]) ∧
        t = { s with regs := t.regs, fresh := s.fresh + 1, out := t.out } ∧ KeepsRegs [] s t) ∧
    ((d : Nat) ∉ s.crown.acks → Completes (.claimAck d) s fun t =>
      t.crown.acks = s.crown.acks ++ [(d : Nat)] ∧
        t = { s with regs := t.regs, crown := { s.crown with acks := t.crown.acks }, out := t.out } ∧ KeepsRegs [] s t)) ∧
  (∀ (s : State) (c old : Nat), s.crown.token = some c → s.crown.failed = some old → Completes .takeoverComplete s fun t =>
    t.crown.token = some c ∧ t.crown.failed = none ∧ t.crown.endpoint = .service ∧
      t.rd PKG_CROWN_STATUS_TAKEOVER pkg = 1 ∧
      t.rd PKG_CROWN_STATUS_TAKEOVER_COUNT pkg =
        min (s.rd PKG_CROWN_STATUS_TAKEOVER_COUNT pkg + 1) (2 ^ PKG_CROWN_STATUS_TAKEOVER_COUNT.w - 1)) ∧
  (∀ (s : State) (c : Nat), s.crown.token = some c → Completes .crownStuck s fun t =>
    t.crown = { s.crown with stuck := true } ∧ (∀ d, d < s.part.dies → d ≠ c → t.rd PKG_DIE_STATUS_CROWN_STUCK d = 1) ∧
      t = { s with regs := t.regs, crown := t.crown, out := t.out } ∧ KeepsRegs [PKG_DIE_STATUS_CROWN_STUCK] s t)

/-- R47. -/
def Obligations.PlannedHandover : Prop :=
  (∀ (s : State) (target : Fin 8) (c k : Nat), s.crown.token = some c →
    (s.wr PKG_CROWN_CTRL_TARGET pkg target).handoverTarget = some k →
    Completes (.handover (.write target)) s fun t =>
      t.rd PKG_CROWN_CTRL_TARGET pkg = target ∧ t.crown = { s.crown with handover := some k } ∧
        t.rd PKG_CROWN_STATUS_HANDOVER_PENDING pkg = b2n s.txn.isOpen ∧
        t = { s with regs := t.regs, crown := t.crown, bus := t.bus, out := t.out } ∧
        KeepsRegs [PKG_CROWN_CTRL_TARGET, PKG_CROWN_STATUS_HANDOVER_PENDING] s t) ∧
  (∀ (s : State) (target : Fin 8) (c : Nat), s.crown.token = some c →
    (s.wr PKG_CROWN_CTRL_TARGET pkg target).handoverTarget = none →
    Completes (.handover (.write target)) s fun t =>
      t.rd PKG_CROWN_STATUS_HANDOVER_REFUSED pkg = 1 ∧ t.crown.token = some c ∧ t.crown.handover = none ∧
        t = { s with regs := t.regs, crown := t.crown, bus := t.bus, out := t.out } ∧
        KeepsRegs [PKG_CROWN_CTRL_TARGET, PKG_CROWN_STATUS_HANDOVER_PENDING, PKG_CROWN_STATUS_HANDOVER_REFUSED] s t) ∧
  (∀ (s : State) (c h k : Nat), s.crown.token = some c → s.crown.handover = some h → s.txn.isOpen = false →
    s.handoverTarget = some k →
    Completes .handoverRelease s fun t =>
      t.crown = { s.crown with token := some k, handover := none, endpoint := .handover, round := false } ∧
        t.rd PKG_CROWN_STATUS_HANDOVER_PENDING pkg = 0 ∧ t.rd PKG_CROWN_STATUS_CROWN pkg = k % 8) ∧
  (∀ s : State, s.crown.endpoint = .handover → s.crown.deferredReset = none → Completes .handoverComplete s fun t =>
    t.crown = { s.crown with endpoint := .service } ∧ t.rd PKG_CROWN_STATUS_HANDOVER_DONE pkg = 1 ∧
      t = { s with regs := t.regs, crown := t.crown, out := t.out } ∧ KeepsRegs [PKG_CROWN_STATUS_HANDOVER_DONE] s t)

/-- R66, R433, R434 and R49. -/
def Obligations.RingReports : Prop :=
  (∀ (s : State) (d : Fin 8), (d : Nat) < s.part.dies → Completes (.irqSum d) s fun t =>
    t.die d = { s.die d with irqCopy := s.dieSummary d, ringCopy := s.ringLive d } ∧ (∀ e, e ≠ (d : Nat) → t.die e = s.die e) ∧
      t = { s with regs := t.regs, dies := t.dies, fresh := s.fresh + 1, out := t.out } ∧ KeepsRegs [] s t) ∧
  (∀ (s : State) (d : Fin 8) (c : Nat) (r : FaultRec), (d : Nat) < s.part.dies → s.crown.token = some c →
    s.rd FLT_LOG_STATUS_COUNT c < 64 → s.rd FLT_LOG_STATUS_NEXT c < 64 →
    Completes (.fault d r) s fun t =>
      t.rd FLT_LOG_ENTRY0_WORD c (s.rd FLT_LOG_STATUS_NEXT c) =
        ((s.die c).logSeq % 65536) * 65536 + (r.level : Nat) * 4096 + (r.cls : Nat) * 256 + (r.code : Nat) ∧
      t.rd FLT_LOG_ENTRY1_WORD c (s.rd FLT_LOG_STATUS_NEXT c) =
        (r.block : Nat) * 16777216 + (r.unit : Nat) * 65536 + (r.detail : Nat) ∧
      t.rd FLT_LOG_STATUS_COUNT c = s.rd FLT_LOG_STATUS_COUNT c + 1 ∧
      t.rd FLT_LOG_STATUS_NEXT c = (s.rd FLT_LOG_STATUS_NEXT c + 1) % 64 ∧
      t.rd FLT_EVENT_LOGGED c = 1 ∧
      (t.die c).logSeq = ((s.die c).logSeq + 1) % 65536 ∧
      t = { s with regs := t.regs, dies := t.dies, fresh := s.fresh + 1, out := t.out } ∧
      KeepsRegs [FLT_LOG_ENTRY0_WORD, FLT_LOG_ENTRY1_WORD, FLT_LOG_ENTRY2_WORD, FLT_LOG_ENTRY3_WORD, FLT_LOG_STATUS_COUNT,
        FLT_LOG_STATUS_NEXT, FLT_LOG_STATUS_FULL, FLT_EVENT_LOGGED, FLT_EVENT_PERMANENT, FLT_EVENT_RETIRED] s t) ∧
  (∀ (s : State) (d : Fin 8) (f : RingFrame), (d : Nat) < s.part.dies →
    (ringCheckOk f.frame = false → Completes (.ringMessageDiscard d f) s fun t =>
      t.rd (if f.cw then RING_DISCARD_CW_COUNT else RING_DISCARD_CCW_COUNT) d =
        min (s.rd (if f.cw then RING_DISCARD_CW_COUNT else RING_DISCARD_CCW_COUNT) d + 1) (2 ^ 32 - 1) ∧
        t.rd RING_EVENT_DISCARD d = 1 ∧
        OnlyRegs [if f.cw then RING_DISCARD_CW_COUNT else RING_DISCARD_CCW_COUNT, RING_EVENT_DISCARD] s t) ∧
    (ringCheckOk f.frame = true → Completes (.ringMessageDiscard d f) s (OnlyRegs [] s)))

/-- R48 to R50. -/
def Obligations.HeartbeatRounds : Prop :=
  (∀ (s : State) (c : Nat), s.crown.token = some c → Completes .heartbeatSend s fun t =>
    t.crown.round = true ∧ t.crown.stuck = false) ∧
  (∀ (s : State) (d : Fin 8) (c : Nat) (cw ccw : Bool), (d : Nat) < s.part.dies → s.crown.token = some c → c ≠ (d : Nat) →
    Completes (.heartbeat d cw ccw) s fun t =>
      (cw = true ∨ ccw = true → (t.die d).hbMissed = 0 ∧
        (∃ p, t.out = [.ring { type := 2, src := (d : Nat), dst := c, payload := p }]) ∧
        t = { s with regs := t.regs, dies := t.dies, fresh := s.fresh + 1, out := t.out } ∧
        KeepsRegs [PKG_DIE_STATUS_RING_CW_OK, PKG_DIE_STATUS_RING_CCW_OK, RING_EVENT_CW_BREAK, RING_EVENT_CCW_BREAK] s t) ∧
      (cw = false → ccw = false → t.die d = { s.die d with hbMissed := (s.die d).hbMissed + 1 } ∧
        t = { s with regs := t.regs, dies := t.dies, out := t.out } ∧ KeepsRegs [] s t)) ∧
  (∀ (s : State) (d : Fin 8) (c : Nat) (a : HbAnswer) (cw ccw : Bool), (d : Nat) < s.part.dies → s.crown.token = some c →
    c ≠ (d : Nat) → s.crown.round = true → (s.die d).answered = none → (cw || ccw) = true →
    (∃ e ∈ s.others c, e ≠ (d : Nat) ∧ (s.die e).answered = none) →
    Completes (.hbAnswer d a cw ccw) s fun t => (t.die d).answered = some (cw, ccw) ∧ t.crown.round = true) ∧
  (∀ (s : State) (d : Fin 8), (d : Nat) < s.part.dies → (s.die d).waitReset = true → s.crown.token ≠ some (d : Nat) →
    s.quarantined d = false →
    Completes (.noAnswerTimeout d) s fun t =>
      t.quarantined d = true ∧ bitsAt (t.rd PKG_QUAR_CAUSE_CAUSE pkg) (4 * d) 4 = 5 ∧
        (t.rd PKG_QUAR_EVENT_ENTERED pkg).testBit d = true ∧ (t.die d).waitReset = false)

/-- R33, R37, R50 and R53. -/
def Obligations.MembershipRequests : Prop :=
  (∀ (s : State) (d : Fin 8), (d : Nat) < s.part.dies → (s.die d).departed = true → (s.team (s.teamBase d)).baseCamp = false →
    Completes (.memberLostDeclare d) s fun t =>
      t.memberState d = 3 ∧ (t.rd PKG_TEAM_EVENT_MEMBER_LOST pkg).testBit d = true ∧ (t.die d).departed = false) ∧
  (∀ (s : State) (dies : BitVec 8), Completes (.rejoinRequest dies) s fun t =>
    (∀ d, d < s.part.dies → dies.getLsbD d = true → s.memberState d = 1 ∨ s.memberState d = 3 →
      t.die d = { s.die d with rejoinReq := true, shiftStopped := false }) ∧
    (∀ d, ¬ (d < s.part.dies ∧ dies.getLsbD d = true ∧ (s.memberState d = 1 ∨ s.memberState d = 3)) → t.die d = s.die d) ∧
      t = { s with regs := t.regs, dies := t.dies, out := t.out } ∧ KeepsRegs [] s t) ∧
  (∀ (s : State) (dies : BitVec 8), Completes (.quarReq dies) s fun t =>
    (∀ d, d < s.part.dies → dies.getLsbD d = true → s.crown.token ≠ some d → t.quarantined d = true) ∧
      ∀ c, s.crown.token = some c → t.quarantined c = s.quarantined c) ∧
  (∀ (s : State) (dies : BitVec 8), Completes (.quarRelease dies) s fun t =>
    (∀ d, d < s.part.dies → dies.getLsbD d = true → s.quarantined d = true →
      t.die d = { s.die d with releaseLeft := some 3, releaseBad := 0 }) ∧
    (∀ d, s.quarantined d = false → t.die d = s.die d) ∧
      t = { s with regs := t.regs, dies := t.dies, out := t.out } ∧ KeepsRegs [] s t)

/-- R449, R451, R331 and R442. -/
def Obligations.RailsClockPinAndGpio : Prop :=
  (∀ (s : State) (d : Fin 8), (d : Nat) < s.part.dies → Completes (.railLow d .root) s fun t =>
    t.crown = {} ∧ t.mem = [] ∧ t.otp = s.otp ∧ t.flash = s.flash ∧ t.pins.porDone = false ∧
      ∀ (g : Fld) (e j : Nat), place g ∉ summaryPlaces → t.rd g e j = g.reset s.part.isX j) ∧
  (∀ (s : State) (d : Fin 8), (d : Nat) < s.part.dies → Completes (.railLow d .io) s fun t =>
    t.crown = {} ∧ t.pins.ioLow = true ∧ t.rd PKG_DIE_SUPPLY_IO_LOW d = 1 ∧ t.flash = s.flash) ∧
  (∀ (s : State) (d : Fin 8) (r : Rail) (f : Fld), (d : Nat) < s.part.dies →
    (r, f) ∈ [(Rail.core, PKG_DIE_SUPPLY_CORE_LOW), (Rail.ret, PKG_DIE_SUPPLY_RET_LOW), (Rail.cnv, PKG_DIE_SUPPLY_CNV_LOW),
      (Rail.hl, PKG_DIE_SUPPLY_HL_LOW)] →
    (Completes (.railLow d r) s fun t => t.railLow d r.index = true ∧ t.rd f d = 1 ∧ (t.die d).held = true) ∧
    (s.railLow d r.index = true → (∀ k, k < 4 → k ≠ r.index → s.railLow d k = false) → s.pins.allFell = false →
      s.rootState = false → s.retiredDie d = false →
      Completes (.railRecover d r) s fun t =>
        t.railLow d r.index = false ∧ (t.die d).held = false ∧ (t.die d).starting = true)) ∧
  (∀ s : State,
    (Completes .refxoLoss s fun t => t.pins = { s.pins with refxo := false } ∧
      t = { s with regs := t.regs, pins := t.pins, refs := t.refs, out := t.out } ∧ KeepsRegs [] s t) ∧
    Completes .refxoReturn s fun t => t.pins = { s.pins with refxo := true } ∧
      t = { s with regs := t.regs, pins := t.pins, out := t.out } ∧ KeepsRegs [] s t) ∧
  (∀ (s : State) (p : Fin 16) (n : Nat), s.gpioDriven = true → s.rd PKG_GPIO_DIR_OUT_EN pkg = 0 →
    s.pins.gpio.testBit p = false → (s.rd PKG_GPIO_EDGE_RISE pkg).testBit p = true →
    Completes (.gpioEdge p true n) s fun t =>
      t.pins.gpio.testBit p = true ∧ (3 ≤ n → (t.rd PKG_GPIO_EVENT_RISE pkg).testBit p = true) ∧
        t = { s with regs := t.regs, pins := { s.pins with gpio := t.pins.gpio }, out := t.out } ∧
        KeepsRegs (if 3 ≤ n then [PKG_GPIO_EVENT_RISE, PKG_GPIO_EVENT_FALL] else []) s t)

/-- R452, with log entry 105 for what the named standard gives. -/
def Obligations.BoundaryScanInstructions : Prop :=
  ∀ (s : State) (d : Fin 8) (pins tdi : List Bool), (d : Nat) < s.part.dies →
    let cells := fun t : State => (t.taps.get {} (unitKey d 0)).cells
    let bits := fun reg : List Bool => (s.chain d reg).flatMap Prod.snd ++ tdi
    let shifts := fun (ir : Nat) (reg : List Bool) (t : State) =>
      t.out = [.scan ((bits reg).take tdi.length)] ∧ (t.taps.get {} (unitKey d 0)).ir = ir ∧
        t = { s with regs := t.regs, taps := t.taps, out := t.out } ∧ KeepsRegs [] s t
    let ahead := ((s.chain d pins).takeWhile fun x => x.1 != (d : Nat)).flatMap Prod.snd
    let stays := fun t : State => cells t = ((bits pins).drop (tdi.length + ahead.length)).take pins.length
    Completes (.jtagBypass d tdi) s (fun t => shifts 0 [false] t ∧ cells t = cells s) ∧
    Completes (.jtagClamp d tdi) s (fun t => shifts 4 [false] t ∧ cells t = cells s) ∧
    Completes (.jtagHighz d tdi) s (fun t => shifts 5 [false] t ∧ cells t = cells s) ∧
    Completes (.jtagIdcode d tdi) s (fun t =>
      shifts 3 ((List.range 32).map fun i => s.idCode.testBit i) t ∧ cells t = cells s) ∧
    Completes (.jtagSamplePreload d pins tdi) s (fun t => shifts 1 pins t ∧ stays t) ∧
    Completes (.jtagExtest d pins tdi) s (fun t => shifts 2 pins t ∧ stays t)

/-- R430 to R433. -/
def Obligations.FaultPolicy : Prop :=
  (∀ (s : State) (d : Fin 8) (r : FaultRec), (d : Nat) < s.part.dies → 2 ≤ (r.cls : Nat) ∨ (r.level : Nat) = 4 →
    s.rd FLT_LOG_STATUS_COUNT d < 64 →
    Completes (.faultReport d r) s fun t =>
      t.rd FLT_LOG_STATUS_COUNT d = s.rd FLT_LOG_STATUS_COUNT d + 1 ∧ t.rd FLT_EVENT_LOGGED d = 1 ∧
        t = { s with regs := t.regs, dies := t.dies, out := t.out } ∧
        KeepsRegs [FLT_LOG_ENTRY0_WORD, FLT_LOG_ENTRY1_WORD, FLT_LOG_ENTRY2_WORD, FLT_LOG_ENTRY3_WORD, FLT_LOG_STATUS_COUNT,
          FLT_LOG_STATUS_NEXT, FLT_LOG_STATUS_FULL, FLT_EVENT_LOGGED, FLT_EVENT_PERMANENT, FLT_EVENT_RETIRED] s t) ∧
  (∀ (s : State) (d : Fin 8) (r : FaultRec), (d : Nat) < s.part.dies → (r.cls : Nat) = 1 → (r.level : Nat) = 3 →
    s.retiredDie d = false → s.crown.token ≠ some (d : Nat) →
    Completes (.faultReport d r) s fun t => t.rd FLT_RETIRED_DIE d = 1 ∧ (t.die d).held = true) ∧
  (∀ (s : State) (d : Fin 8), (d : Nat) < s.part.dies → Completes (.faultLogClear d) s fun t =>
    t.rd FLT_LOG_STATUS_COUNT d = 0 ∧ t.rd FLT_LOG_STATUS_FULL d = 0 ∧ t.rd FLT_LOG_STATUS_NEXT d = 0 ∧
      t = { s with regs := t.regs, bus := t.bus, out := t.out } ∧
      KeepsRegs [FLT_LOG_STATUS_COUNT, FLT_LOG_STATUS_FULL, FLT_LOG_STATUS_NEXT] s t) ∧
  (∀ (s : State) (d : Fin 8), (d : Nat) < s.part.dies → s.retiredDie d = true → Completes (.dieRelease d) s fun t =>
    t.rd FLT_RETIRED_DIE d = 0 ∧ (t.die d).held = false ∧ (t.die d).starting = true)

/-- R348 and R349. -/
def Obligations.ParkingAndPackageSleep : Prop :=
  (∀ (s : State) (d : Fin 8), (d : Nat) < s.part.dies → s.parked d = false → s.crown.token ≠ some (d : Nat) →
    s.teamSize d = 1 → s.slotsElsewhere d = false →
    Completes (.park d) s fun t => t.rd PWR_STATUS_PARKED d = 1 ∧ t.memberState d = 0) ∧
  (∀ (s : State) (d : Fin 8), (d : Nat) < s.part.dies → s.parked d = false → s.crown.token = some (d : Nat) →
    Completes (.park d) s fun t => t.rd PWR_EVENT_PARK_REFUSED d = 1 ∧
      t = { s with regs := t.regs, bus := t.bus, out := t.out } ∧ KeepsRegs [PWR_EVENT_PARK_REFUSED] s t) ∧
  (∀ (s : State) (d : Fin 8), (d : Nat) < s.part.dies → s.parked d = true → s.rootState = false →
    Completes (.unpark d) s fun t => t.rd PWR_STATUS_PARKED d = 0 ∧ (t.die d).starting = true ∧ (t.die d).held = false) ∧
  (∀ (s : State) (c : Nat), s.crown.token = some c → s.txn.isOpen = true → Completes .pkgSleep s fun t =>
    t.crown = { s.crown with sleepDue := true } ∧
      t = { s with regs := t.regs, crown := t.crown, bus := t.bus, out := t.out } ∧ KeepsRegs [] s t) ∧
  (∀ (s : State) (c : Nat), s.crown.token = some c → c < s.part.dies → s.txn.isOpen = false → s.rootState = false →
    Completes .pkgSleep s fun t => t.rootState = true ∧
      ∀ d, d < s.part.dies → (s.die d).held = false → t.parked d = true) ∧
  (∀ s : State, s.rootState = true → (∀ d, d < s.part.dies → s.rd MEM_MARCH_CTRL_BOOT_EN d = 0) →
    Completes .pkgWake s fun t => t.crown = {} ∧ t.otp = s.otp ∧ t.flash = s.flash ∧
      ∀ (g : Fld) (e j : Nat), g.dom ≠ .por → place g ∉ summaryPlaces → t.rd g e j = g.reset s.part.isX j) ∧
  (∀ s : State, s.rootState = false → Completes .pkgWake s fun t =>
    t = { s with regs := t.regs, bus := t.bus, out := t.out } ∧ KeepsRegs [] s t)

/-- R81 to R85 and R89. -/
def Obligations.ImageDistribution : Prop :=
  (∀ (s : State) (d : Fin 8) (i : Nat), (d : Nat) < s.part.dies → s.image.trying.isSome = true → 24 * i < 8388608 →
    Completes (.imageChunk d i) s fun t =>
      (∀ j, j < 24 → 24 * i + j < 8388608 →
        memByte ramDefault t.mem (bankBase d 0 + 24 * i + j) = (s.chunkData i).getD j 0) ∧
      (∀ a, ¬ (bankBase d 0 + 24 * i ≤ a ∧ a < bankBase d 0 + min (24 * i + 24) 8388608) →
        memByte ramDefault t.mem a = memByte ramDefault s.mem a) ∧
      (t.loadSt d).chunks.contains i = true ∧
        t = { s with regs := t.regs, mem := t.mem, load := t.load, out := t.out } ∧ KeepsRegs [] s t) ∧
  (∀ (s : State) (d : Fin 8) (i : Nat), (d : Nat) < s.part.dies → Completes (.imageResend d i) s fun t =>
    (∃ m : RingMsg, t.out = [.ring m] ∧ m.type = 8 ∧ m.dst = (d : Nat) ∧
      m.payload = 0x10 * 2 ^ 216 + i % 2 ^ 24 * 2 ^ 192 +
        natBE (s.chunkData i ++ List.replicate (24 - (s.chunkData i).length) 0)) ∧ OnlyRegs [] s t) ∧
  (∀ (s : State) (d : Fin 8) (k : Nat), (d : Nat) < s.part.dies → s.image.trying = some k →
    k ≠ 3 ∨ s.crown.token ≠ some (d : Nat) →
    s.image.resend.contains (d : Nat) = false → (s.loadSt d).result = none → s.missingChunk d = none →
    Completes (.imageChecks d) s fun t =>
      (t.loadSt d).result = some ((s.imageFault d (s.imageBytes d) false).getD 0) ∧ t.rd IMG_STATUS_STATE d = 2 ∧
      (∀ r, s.imageFault d (s.imageBytes d) false = some r → t.rd IMG_STATUS_FAIL_REASON d = r % 16) ∧
        t = { s with regs := t.regs, load := t.load, out := t.out } ∧
        KeepsRegs [IMG_STATUS_STATE, IMG_STATUS_FAIL_REASON] s t) ∧
  (∀ (s : State) (d : Fin 8) (k r : Nat), (d : Nat) < s.part.dies → (s.loadSt d).result = some r →
    s.image.resend.contains (d : Nat) = false → s.image.trying = some k → s.image.results.any (fun x => x.1 == (d : Nat)) = false →
    ((∃ e ∈ s.loadDies, e ≠ (d : Nat) ∧ s.image.results.any (fun x => x.1 == e) = false) →
      Completes (.imageResult d) s fun t => t.image = { s.image with results := s.image.results ++ [((d : Nat), r)] } ∧
        t = { s with regs := t.regs, image := t.image, out := t.out } ∧ KeepsRegs [] s t) ∧
    ((∀ e ∈ s.loadDies, e = (d : Nat) ∨ s.image.results.any (fun x => x.1 == e) = true) → r = 0 →
      (∀ x ∈ s.image.results, x.2 = 0) → (∀ e ∈ s.loadDies, (s.loadSt e).digest = (s.loadSt (s.crown.token.getD 0)).digest) →
      Completes (.imageResult d) s fun t => t.crown = { s.crown with imageStarted := true } ∧
        ∀ e ∈ s.loadDies, (t.die e).loaded = true ∧ t.rd IMG_STATUS_STATE e = 3 ∧ t.rd IMG_STATUS_SOURCE e = k % 4)) ∧
  (∀ s : State, s.image.trying = none → s.rd IMG_STATUS_STATE (s.crown.token.getD 0) = 0 →
    Completes .imgLoadGo s fun t => t.image.trying = some 3 ∧ t.image.reading = false ∧
      (∀ e ∈ s.loadDies, t.rd IMG_STATUS_STATE e = 1) ∧
      t = { s with regs := t.regs, image := t.image, mem := t.mem, wordErr := t.wordErr, load := t.load, bus := t.bus, out := t.out } ∧
      KeepsRegs [IMG_STATUS_STATE] s t) ∧
  (∀ (s : State) (d : Fin 8), (d : Nat) < s.part.dies → (s.die d).starting = true → Completes (.valuesTimeout d) s fun t =>
    t.die d = { s.die d with valuesLate := true } ∧ (∀ e, e ≠ (d : Nat) → t.die e = s.die e) ∧
      t = { s with regs := t.regs, dies := t.dies, out := t.out } ∧ KeepsRegs [] s t)

/-- R84 and R85; log entry 75 for the effect of programming on a bit. -/
def Obligations.FlashCommandsAndResend : Prop :=
  (∀ s : State, s.image.reading = false → s.rd IMG_FLASH_CMD_BUSY pkg = 0 →
    let started := fun (cmd : Nat) (t : State) =>
      t.image = { s.image with flashCmd := some (cmd, s.rd IMG_FLASH_ADDR_ADDRESS pkg, s.rd IMG_FLASH_DATA_DATA pkg) } ∧
        t.rd IMG_FLASH_CMD_BUSY pkg = 1 ∧ t = { s with regs := t.regs, image := t.image, bus := t.bus, out := t.out } ∧
        KeepsRegs [IMG_FLASH_CMD_BUSY] s t
    let unlocked := ∀ c, s.crown.token = some c → s.rd IMG_FLASH_ADDR_ADDRESS pkg < 0x800000 →
      (s.otpSt c).goldenLock.getD 0 = 0
    (s.rd IMG_FLASH_ADDR_ADDRESS pkg % 4 = 0 → Completes .flashReadWord s (started 1)) ∧
    (s.rd IMG_FLASH_ADDR_ADDRESS pkg % 4 = 0 → unlocked → Completes .flashProgramWord s (started 2)) ∧
    (s.rd IMG_FLASH_ADDR_ADDRESS pkg % 65536 = 0 → unlocked → Completes .flashEraseSector s (started 3))) ∧
  (∀ (s : State) (a v : Nat),
    (s.image.flashCmd = some (1, a, v) → Completes (.flashCmdDone true) s fun t =>
      t.rd IMG_FLASH_DATA_DATA pkg = natLE (memBytes flashDefault s.flash a 4) ∧ t.rd IMG_FLASH_CMD_BUSY pkg = 0 ∧
        t = { s with regs := t.regs, image := { s.image with flashCmd := none }, out := t.out } ∧
        KeepsRegs [IMG_FLASH_CMD_BUSY, IMG_FLASH_DATA_DATA] s t) ∧
    (s.image.flashCmd = some (2, a, v) → Completes (.flashCmdDone true) s fun t =>
      natLE (memBytes flashDefault t.flash a 4) = natLE (memBytes flashDefault s.flash a 4) &&& v % 2 ^ 32 ∧
        (∀ b, ¬ (a ≤ b ∧ b < a + 4) → memByte flashDefault t.flash b = memByte flashDefault s.flash b) ∧
        t = { s with regs := t.regs, image := { s.image with flashCmd := none }, flash := t.flash, out := t.out } ∧
        KeepsRegs [IMG_FLASH_CMD_BUSY] s t) ∧
    (s.image.flashCmd = some (3, a, v) → Completes (.flashCmdDone true) s fun t =>
      (∀ b, a ≤ b ∧ b < a + 65536 → memByte flashDefault t.flash b = 0xFF) ∧
        (∀ b, ¬ (a ≤ b ∧ b < a + 65536) → memByte flashDefault t.flash b = memByte flashDefault s.flash b) ∧
        t = { s with regs := t.regs, image := { s.image with flashCmd := none }, flash := t.flash, out := t.out } ∧
        KeepsRegs [IMG_FLASH_CMD_BUSY] s t) ∧
    (∀ k, s.image.flashCmd = some (k, a, v) → Completes (.flashCmdDone false) s fun t =>
      t.rd IMG_FLASH_CMD_ERR pkg = 1 ∧ t.flash = s.flash ∧
        t = { s with regs := t.regs, image := { s.image with flashCmd := none }, out := t.out } ∧
        KeepsRegs [IMG_FLASH_CMD_BUSY, IMG_FLASH_CMD_ERR] s t)) ∧
  (∀ (s : State) (d : Fin 8) (c : Nat), (d : Nat) < s.part.dies → (s.die d).starting = true → (s.die d).held = false →
    s.parked d = false → s.retiredDie d = false → (s.die d).selfTest = some true → s.crown.token = some c → c ≠ (d : Nat) →
    (s.die c).loaded = true →
    Completes (.dieImageResend d) s fun t =>
      t.image.resend.contains (d : Nat) = true ∧ t.rd BUP_STATUS_STATE d = 1 ∧ t.crown = s.crown ∧ t.flash = s.flash)

/-- R79 and R80. -/
def Obligations.OtpProgramming : Prop :=
  (∀ (s : State) (v : Word), s.image.otpWords.length < 16 → Completes (.otpDataWrite v) s fun t =>
    t.image = { s.image with otpWords := s.image.otpWords ++ [v.toNat] } ∧
      t.rd IMG_OTP_CTRL_WORDS pkg = s.image.otpWords.length + 1 ∧
      t = { s with regs := t.regs, image := t.image, bus := t.bus, out := t.out } ∧ KeepsRegs [IMG_OTP_CTRL_WORDS] s t) ∧
  (∀ (s : State) (i : Fin 4), s.rd IMG_OTP_CTRL_ITEM pkg ≠ (i : Nat) → Completes (.otpItemSelect i) s fun t =>
    t.rd IMG_OTP_CTRL_ITEM pkg = (i : Nat) ∧ t.image = { s.image with otpWords := [] } ∧ t.rd IMG_OTP_CTRL_WORDS pkg = 0 ∧
      t = { s with regs := t.regs, image := t.image, bus := t.bus, out := t.out } ∧
      KeepsRegs [IMG_OTP_CTRL_ITEM, IMG_OTP_CTRL_WORDS] s t) ∧
  (∀ (s : State) (i : Fin 4), s.image.otpJob = none →
    ((i : Nat) ≠ 3 → s.image.otpWords.length = [12, 8, 1].getD i 0 → (∀ d, d < s.part.dies → s.itemProgrammed d i = false) →
      Completes (.otpProgram i) s fun t =>
        t.image = { s.image with otpWords := [], otpJob := some ((i : Nat), s.image.otpWords) } ∧
          t = { s with regs := t.regs, image := t.image, bus := t.bus, out := t.out } ∧
          KeepsRegs [IMG_OTP_CTRL_ITEM, IMG_OTP_CTRL_WORDS] s t) ∧
    ((i : Nat) = 3 ∨ s.image.otpWords.length ≠ [12, 8, 1, 2].getD i 0 →
      Completes (.otpProgram i) s fun t => t.rd IMG_OTP_CTRL_ERR pkg = 1 ∧ t.image = { s.image with otpWords := [] } ∧
        t = { s with regs := t.regs, image := t.image, bus := t.bus, out := t.out } ∧
        KeepsRegs [IMG_OTP_CTRL_ITEM, IMG_OTP_CTRL_WORDS, IMG_OTP_CTRL_ERR] s t)) ∧
  (∀ (s : State) (v : Fin 128), s.image.otpJob = none → (v : Nat) ≤ s.rd IMG_STATUS_ROLLBACK (s.crown.token.getD 0) →
    (s.otpSt (s.crown.token.getD 0)).rollback ≤ (v : Nat) →
    Completes (.rollbackAdvance v) s fun t => t.image = { s.image with otpJob := some (3, [(v : Nat)]) } ∧
      t = { s with regs := t.regs, image := t.image, bus := t.bus, out := t.out } ∧ KeepsRegs [] s t) ∧
  (∀ (s : State) (i : Nat) (ws : List Nat), s.image.otpJob = some (i, ws) → Completes .otpProgramDone s fun t =>
    t.rd IMG_OTP_CTRL_DONE pkg = 1 ∧ t.image = { s.image with otpJob := none } ∧
      (∀ d, d < s.part.dies →
        (i = 0 → (t.otpSt d).keyHash = some ws) ∧ (i = 1 → (t.otpSt d).imageKey = some ws) ∧
        (i = 2 → (t.otpSt d).goldenLock = some (ws.headD 0)) ∧ (i = 3 → (t.otpSt d).rollback = ws.headD 0)) ∧
      t = { s with regs := t.regs, image := t.image, otp := t.otp, out := t.out } ∧ KeepsRegs [IMG_OTP_CTRL_DONE] s t)

/-- R88, R92 and R94. -/
def Obligations.TransactionCommands : Prop :=
  (∀ (s : State) (lead : Fin 256), s.txn.isOpen = false →
    let opened := fun (rollback : Bool) (t : State) =>
      t.txn = {
        isOpen := true
        rollback := rollback
        epoch := (s.pkgEpoch + 1) % 2 ^ 32
        mf := s.time.mf + 1 + max 2 (lead : Nat)
        members := s.dieList.filter s.takesPart
        m0 := s.time.mf } ∧
      t.rd IMG_TXN_CTRL_LEAD pkg = max 2 (lead : Nat) ∧ t.rd IMG_TXN_STATUS_STATE pkg = 1 ∧ t.rd IMG_TXN_STATUS_RESULT pkg = 0 ∧
      t.rd IMG_TXN_MF_MF pkg = (s.time.mf + 1 + max 2 (lead : Nat)) % 2 ^ 32 ∧
      KeepsRegs [IMG_TXN_CTRL_LEAD, IMG_TXN_STATUS_STATE, IMG_TXN_STATUS_RESULT, IMG_TXN_MF_MF, IMG_DIE_STATUS_PENDING] s t
    Completes (.txnCommit lead) s (opened false) ∧
    (s.rd IMG_SHADOW_VALID pkg = 1 → Completes (.txnRollback lead) s (opened true)) ∧
    (s.rd IMG_SHADOW_VALID pkg = 0 → Completes (.txnRollback lead) s fun t =>
      t.txn.isOpen = false ∧ t.rd IMG_TXN_STATUS_RESULT pkg = 2 ∧ t.rd IMG_TXN_STATUS_REASON pkg = reasonNoShadow ∧
        t.mem = s.mem)) ∧
  (∀ (s : State) (lead : Fin 256), s.txn.isOpen = true →
    let busy := fun t : State => t.rd IMG_TXN_STATUS_RESULT pkg = 3 ∧
      t = { s with regs := t.regs, bus := t.bus, out := t.out } ∧ KeepsRegs [IMG_TXN_CTRL_LEAD, IMG_TXN_STATUS_RESULT] s t
    Completes (.txnCommit lead) s busy ∧ Completes (.txnRollback lead) s busy ∧
    (s.txn.goSent = false → Completes (.txnAbort lead) s fun t =>
      t.txn.isOpen = false ∧ t.rd IMG_TXN_STATUS_RESULT pkg = 2 ∧ t.rd IMG_TXN_STATUS_REASON pkg = reasonHostAbort ∧
        t.rd IMG_TXN_STATUS_STATE pkg = 0 ∧ t.rd IMG_TXN_CTRL_LEAD pkg = max 2 (lead : Nat)) ∧
    (s.txn.goSent = true → Completes (.txnAbort lead) s fun t =>
      t.rd IMG_TXN_STATUS_ABORT_IGNORED pkg = 1 ∧ t.rd IMG_TXN_STATUS_RESULT pkg = 0 ∧
        t = { s with regs := t.regs, bus := t.bus, out := t.out } ∧
        KeepsRegs [IMG_TXN_CTRL_LEAD, IMG_TXN_STATUS_ABORT_IGNORED, IMG_TXN_STATUS_RESULT] s t)) ∧
  (∀ (s : State) (lead : Fin 256), Completes (.txnMultiCommand lead) s fun t =>
    t.rd IMG_TXN_CTRL_LEAD pkg = max 2 (lead : Nat) ∧ t = { s with regs := t.regs, bus := t.bus, out := t.out } ∧
      KeepsRegs [IMG_TXN_CTRL_LEAD] s t)

/-- R90 and R92. -/
def Obligations.TransactionAgreement : Prop :=
  (∀ (s : State) (d : Fin 8), (d : Nat) < s.part.dies → s.txn.isOpen = true → s.txn.members.contains (d : Nat) = true →
    s.rd IMG_DIE_STATUS_PENDING d = 0 → s.txn.goSent = false → s.txn.rollback = false →
    Completes (.prepare d) s fun t =>
      t.rd IMG_DIE_STATUS_PENDING d = 1 ∧ t.pend = (s.hold d).pend ∧ t.staged = (s.hold d).staged ∧
      (((s.hold d).wr IMG_DIE_STATUS_PENDING d 1).dieReason d = none → (t.die d).prepared = true) ∧
      (∀ r, ((s.hold d).wr IMG_DIE_STATUS_PENDING d 1).dieReason d = some r →
        t.rd IMG_DIE_STATUS_LAST_REASON d = r % 2 ^ IMG_DIE_STATUS_LAST_REASON.w ∧ t.die d = s.die d) ∧
      t = { s with regs := t.regs, pend := t.pend, staged := t.staged, dies := t.dies, out := t.out } ∧
      KeepsRegs [IMG_DIE_STATUS_PENDING, IMG_DIE_STATUS_LAST_REASON] s t) ∧
  (∀ (s : State) (d : Fin 8), (d : Nat) < s.part.dies → s.txn.isOpen = true → s.txn.members.contains (d : Nat) = true →
    ((s.die d).prepared = true → s.txn.ready.contains (d : Nat) = false →
      (∃ e ∈ s.txn.members, e ≠ (d : Nat) ∧ s.txn.ready.contains e = false) →
      Completes (.ready d) s fun t => t.txn = { s.txn with ready := s.txn.ready ++ [(d : Nat)] } ∧
        t = { s with regs := t.regs, txn := t.txn, out := t.out } ∧ KeepsRegs [] s t) ∧
    (∀ r : Fin 16, s.txn.refused = none → Completes (.refuse d r) s fun t =>
      t.txn = { s.txn with refused := some ((d : Nat), (r : Nat)) } ∧ t.rd IMG_TXN_STATUS_REFUSE_DIE pkg = (d : Nat) ∧
        t = { s with regs := t.regs, txn := t.txn, out := t.out } ∧ KeepsRegs [IMG_TXN_STATUS_REFUSE_DIE] s t) ∧
    (s.txn.goSent = true → s.rd IMG_DIE_STATUS_PENDING d = 1 → s.txn.switched = false →
      Completes (.go d) s fun t => t.die d = { s.die d with holdsGo := true } ∧ t.txn = s.txn ∧ t.mem = s.mem)) ∧
  (∀ s : State, s.txn.isOpen = true → s.txn.goSent = false → s.txn.acceptor = false → s.txn.rollback = false →
    s.txn.refused = none →
    (s.txn.planTeam = none → (∀ e ∈ s.txn.members, s.txn.ready.contains e = true) → Completes .txnGoDeadline s fun t =>
      t.txn = { s.txn with goSent := true } ∧ t.rd IMG_TXN_STATUS_STATE pkg = 3 ∧
        t = { s with regs := t.regs, txn := t.txn, time := t.time, shadow := t.shadow, out := t.out } ∧
        KeepsRegs [IMG_TXN_STATUS_STATE, IMG_SHADOW_VALID, IMG_SHADOW_REMAINING] s t) ∧
    ((∃ e ∈ s.txn.members, s.txn.ready.contains e = false) → Completes .txnGoDeadline s fun t =>
      t.txn.isOpen = false ∧ t.rd IMG_TXN_STATUS_RESULT pkg = 2 ∧ t.rd IMG_TXN_STATUS_REASON pkg = reasonDeadline)) ∧
  (∀ (s : State) (d : Fin 8), (d : Nat) < s.part.dies → (s.die d).switched = false → Completes (.abort d) s fun t =>
    t.rd IMG_DIE_STATUS_PENDING d = 0 ∧ t.pend = (s.pend.keep fun k => k.inst != (d : Nat)) ∧
      (t.die d).holdsGo = false ∧ (t.die d).prepared = false ∧ t.txn = s.txn)

/-- R87, R90, R91 and R94. -/
def Obligations.TransactionSwitchAndStages : Prop :=
  (∀ s : State, s.txn.isOpen = true → s.txn.goSent = true → s.txn.switched = false → s.txn.planTeam = none →
    (∀ d, d < s.part.dies → s.mapDiffers (s.switchPend pkg) d = false) → Completes .txnSwitch s fun t =>
      t.txn = { s.txn with switched := true } ∧
      (∀ d ∈ s.txn.members, (s.die d).holdsGo = true → t.rd IMG_EPOCH_EPOCH d = s.txn.epoch % 2 ^ 32 ∧
        (t.die d).switched = true) ∧
      (∀ d ∈ s.txn.members, (s.die d).holdsGo = false → t.rd IMG_DIE_STATUS_IN_DOUBT d = 1) ∧
      (s.txn.rollback = false → t.rd IMG_SHADOW_VALID pkg = 1 ∧ t.rd IMG_SHADOW_REMAINING pkg = 256)) ∧
  (∀ (s : State) (d : Fin 8), (d : Nat) < s.part.dies → s.txn.reverting = true → (s.die d).switched = true →
    Completes (.revert d) s fun t => t.die d = { s.die d with reverting := true } ∧
      t = { s with regs := t.regs, dies := t.dies, out := t.out } ∧ KeepsRegs [] s t) ∧
  (∀ s : State, s.txn.isOpen = true → s.txn.reverting = true → Completes .revertRestore s fun t =>
    t.txn.isOpen = false ∧ t.rd IMG_TXN_STATUS_RESULT pkg = 2 ∧ 
      t.rd IMG_TXN_STATUS_REASON pkg = (if s.txn.lost then reasonMemberLost else reasonInDoubt) ∧
      ∀ d, d < s.part.dies → t.rd IMG_DIE_STATUS_IN_DOUBT d = 0) ∧
  (∀ s : State, s.rd IMG_SHADOW_REMAINING pkg = 0 → Completes .shadowExpire s fun t =>
    t.shadow = (if s.txn.isOpen && s.txn.rollback && s.txn.switched then s.shadow else []) ∧
      t.rd IMG_SHADOW_VALID pkg = 0 ∧ t.rd IMG_SHADOW_REMAINING pkg = 0 ∧
      t = { s with regs := t.regs, shadow := t.shadow, out := t.out } ∧
      KeepsRegs [IMG_SHADOW_VALID, IMG_SHADOW_REMAINING] s t) ∧
  (∀ s : State, s.rd IMG_SHADOW_REMAINING pkg ≠ 0 → Completes .shadowExpire s (OnlyRegs [] s)) ∧
  (∀ (s : State) (d : Fin 8), (d : Nat) < s.part.dies → Completes (.stageDiscard d) s fun t =>
    (∀ f ∈ stagedFields, ∀ k, t.rdStaged f d k = s.rd f d k) ∧
      (∀ f ∈ stagedFields, ∀ e k, e ≠ (d : Nat) → t.rdStaged f e k = s.rdStaged f e k) ∧
      t = { s with regs := t.regs, staged := t.staged, bus := t.bus, out := t.out } ∧ KeepsRegs [] s t) ∧
  (∀ s : State, Completes .pkgStageDiscard s fun t =>
    (∀ f ∈ stagedFields, ∀ k, t.rdStaged f pkg k = s.rd f pkg k) ∧
      (∀ f ∈ stagedFields, ∀ d k, d < s.part.dies → s.quarantined d = false → t.rdStaged f d k = s.rd f d k) ∧
      (∀ f ∈ stagedFields, ∀ d k, d < s.part.dies → s.quarantined d = true → t.rdStaged f d k = s.rdStaged f d k) ∧
      t = { s with regs := t.regs, staged := t.staged, bus := t.bus, out := t.out } ∧ KeepsRegs [] s t)

/-- R98 to R101. -/
def Obligations.DisableRule : Prop :=
  let crcWork := fun (s : State) (d u : Nat) => b2n ((s.crcSt d u).pos != 0)
  let crcIdle := fun (s t : State) (d u : Nat) =>
    t.crcSt d u = { s.crcSt d u with running := 0, pos := 0, carry := none }
  (∀ (s : State) (d : Fin 8) (u work now : Nat), (d : Nat) < s.part.dies → u < 64 →
    (s.rd BLK_DIS_CTRL_MODE d 12 = 0 → Completes (.enableClearDrain d 12 u work now) s fun t =>
      t.rd CRC_UNIT_CFG_EN d u = 0 ∧
      t.unit d 12 u = { s.unit d 12 u with
        enabled := false, reenable := false, draining := decide ((s.crcSt d u).pos ≠ 0), since := now
        work := crcWork s d u } ∧
      t = { s with regs := t.regs, units := t.units, out := t.out } ∧
      KeepsRegs [CRC_UNIT_CFG_EN, BLK_DIS_STATUS_DRAINING, BLK_DIS_STATUS_IDLE] s t) ∧
    (s.rd BLK_DIS_CTRL_MODE d 12 = 1 → Completes (.enableClearAbort d 12 u work) s fun t =>
      t.rd CRC_UNIT_CFG_EN d u = 0 ∧ (t.unit d 12 u).draining = false ∧ (t.unit d 12 u).work = 0 ∧
      t.rd BLK_DIS_DISCARDS_COUNT d 12 = min (s.rd BLK_DIS_DISCARDS_COUNT d 12 + crcWork s d u) (2 ^ 32 - 1) ∧
      ((s.crcSt d u).pos ≠ 0 → t.rd BLK_DIS_STATUS_ABORTED d 12 = 1) ∧ crcIdle s t d u ∧
      t = { s with regs := t.regs, units := t.units, crc := t.crc, out := t.out } ∧
      KeepsRegs [CRC_UNIT_CFG_EN, BLK_DIS_DISCARDS_COUNT, BLK_DIS_STATUS_ABORTED, BLK_DIS_STATUS_DRAINING, BLK_DIS_STATUS_IDLE]
        s t)) ∧
  (∀ (s : State) (d : Fin 8) (b : Fin 26) (u : Nat), (d : Nat) < s.part.dies → (b : Nat) ≠ 4 →
    (b : Nat) ≠ 14 →
    (s.unit (disInst d b) b u).draining = true →
    Completes (.drainIdle d b u) s fun t =>
      t.unit (disInst d b) b u = { s.unit (disInst d b) b u with
        draining := false, work := 0, enabled := (s.unit (disInst d b) b u).reenable, reenable := false } ∧
      t = { s with regs := t.regs, units := t.units, out := t.out } ∧
      KeepsRegs [BLK_DIS_STATUS_DRAINING, BLK_DIS_STATUS_IDLE] s t) ∧
  (∀ (s : State) (d : Fin 8) (u left : Nat), (d : Nat) < s.part.dies → (s.unit d 12 u).draining = true →
    Completes (.drainTimeout d 12 u left) s fun t =>
      (t.unit d 12 u).draining = false ∧ crcIdle s t d u ∧
      t.rd BLK_DIS_DISCARDS_COUNT d 12 = min (s.rd BLK_DIS_DISCARDS_COUNT d 12 + crcWork s d u) (2 ^ 32 - 1) ∧
      t.rd BLK_DIS_TIMEOUTS_COUNT d 12 = min (s.rd BLK_DIS_TIMEOUTS_COUNT d 12 + 1) (2 ^ 32 - 1) ∧
      t.rd BLK_DIS_STATUS_DRAIN_TIMEOUT d 12 = 1 ∧
      t = { s with regs := t.regs, units := t.units, crc := t.crc, out := t.out } ∧
      KeepsRegs [BLK_DIS_DISCARDS_COUNT, BLK_DIS_TIMEOUTS_COUNT, BLK_DIS_STATUS_DRAIN_TIMEOUT, BLK_DIS_STATUS_DRAINING,
        BLK_DIS_STATUS_IDLE] s t) ∧
  (∀ (s : State) (d : Fin 8) (b : Fin 26) (abort : Bool) (left : Nat), (d : Nat) < s.part.dies →
    Completes (.disModeWrite d b abort left) s fun t =>
      t.rd BLK_DIS_CTRL_MODE (disInst d b) b = b2n abort ∧
      (abort = false → t = { s with regs := t.regs, out := t.out } ∧ KeepsRegs [BLK_DIS_CTRL_MODE] s t) ∧
      (abort = true → ∀ u, (t.unit (disInst d b) b u).draining = false)) ∧
  (∀ (s : State) (d : Fin 8) (u left : Nat), (d : Nat) < s.part.dies → (s.unit d 12 u).draining = true →
    (∀ v, v ≠ u → (s.unit d 12 v).draining = false) →
    Completes (.disModeWrite d 12 true left) s fun t =>
      crcIdle s t d u ∧ t.rd BLK_DIS_STATUS_ABORTED d 12 = 1 ∧
      t.rd BLK_DIS_DISCARDS_COUNT d 12 = min (s.rd BLK_DIS_DISCARDS_COUNT d 12 + crcWork s d u) (2 ^ 32 - 1) ∧
      t = { s with regs := t.regs, units := t.units, crc := t.crc, out := t.out } ∧
      KeepsRegs [BLK_DIS_CTRL_MODE, BLK_DIS_DISCARDS_COUNT, BLK_DIS_STATUS_ABORTED, BLK_DIS_STATUS_DRAINING,
        BLK_DIS_STATUS_IDLE] s t) ∧
  (∀ (s : State) (d : Fin 8) (b : Fin 26) (l : Fin 65536) (now left : Nat), (d : Nat) < s.part.dies →
    Completes (.disLimitWrite d b l now left) s fun t =>
      t.rd BLK_DIS_CTRL_LIMIT (disInst d b) b = max 1 (l : Nat) ∧
      ((∀ e ∈ s.blockUnits (disInst d b) b, e.2.draining = true → now < e.2.since + max 1 (l : Nat)) →
        OnlyRegs [BLK_DIS_CTRL_LIMIT] s t)) ∧
  (∀ (s : State) (d : Fin 8) (u : Nat) (l : Fin 65536) (now left : Nat), (d : Nat) < s.part.dies →
    (s.unit d 12 u).draining = true → (s.unit d 12 u).since + max 1 (l : Nat) ≤ now →
    (∀ v, v ≠ u → (s.unit d 12 v).draining = false) →
    Completes (.disLimitWrite d 12 l now left) s fun t =>
      (t.unit d 12 u).draining = false ∧ crcIdle s t d u ∧ t.rd BLK_DIS_STATUS_DRAIN_TIMEOUT d 12 = 1 ∧
      t.rd BLK_DIS_TIMEOUTS_COUNT d 12 = min (s.rd BLK_DIS_TIMEOUTS_COUNT d 12 + 1) (2 ^ 32 - 1) ∧
      t = { s with regs := t.regs, units := t.units, crc := t.crc, out := t.out })

/-- R48, R54 to R59. -/
def Obligations.SpiFrames : Prop :=
  (∀ s : State, s.crown.endpoint = .service → s.bus.running = none →
    let idle := fun (r : Resp) (t : State) => t.bus = { s.bus with miso := s.misoNow, prev := r }
    (∀ addr : Word, Completes (.spiNop addr) s fun t => idle { addr := addr.toNat } t ∧
      t = { s with regs := t.regs, bus := t.bus, out := t.out } ∧ KeepsRegs [] s t) ∧
    (∀ mosi : List Bool, mosi.length = 80 →
      let v := State.bitsBE mosi
      let reports := fun (code : Nat) (t : State) => idle { code := code, addr := bitsAt v 40 32 } t ∧
        t = { s with regs := t.regs, bus := t.bus, out := t.out } ∧ KeepsRegs [] s t
      (crc8 (bytesBE 9 (v / 256)) ≠ v % 256 → Completes (.spiFrameInvalid mosi) s (reports 3)) ∧
      (crc8 (bytesBE 9 (v / 256)) = v % 256 → 2 < bitsAt v 72 8 → Completes (.spiFrameInvalid mosi) s (reports 5))) ∧
    (∀ mosi : List Bool, mosi.length ≠ 80 → Completes (.spiFrameInvalid mosi) s fun t =>
      (∃ a, idle { code := 6, addr := a } t) ∧
      t = { s with regs := t.regs, bus := t.bus, fresh := s.fresh + 1, out := t.out } ∧ KeepsRegs [] s t)) ∧
  (∀ (s : State) (d : Nat) (addr data : Word), s.crown.endpoint = .service → s.crown.token = some d → s.bus.running = none →
    (Reaches s d 3 0x10 addr → Completes (.spiRead addr) s fun t =>
      t.bus.prev = { addr := addr.toNat, data := s.rd CAL_REJECTS_COUNT d } ∧ t.rd CAL_REJECTS_COUNT d = 0 ∧
        t = { s with regs := t.regs, bus := t.bus, out := t.out } ∧ KeepsRegs [CAL_REJECTS_COUNT] s t) ∧
    (Reaches s d 4 0x34 addr → Completes (.spiWrite addr data) s fun t =>
      t.bus.prev = { addr := addr.toNat } ∧ t.rd RXD_Q_CTRL_AVG d = clamp 1 255 (data.toNat % 256) ∧
        t = { s with regs := t.regs, bus := t.bus, out := t.out } ∧ KeepsRegs [RXD_Q_CTRL_AVG, RXD_Q_CTRL_SNR_TR] s t)) ∧
  (∀ (s : State) (d : Nat) (addr data : Word), s.crown.endpoint = .service → s.bus.running = none →
    s.forwardTo addr.toNat = some d →
    let sent := fun (w : Option Nat) (t : State) =>
      t.bus = { s.bus with
        miso := s.misoNow
        running := some { path := .spi, die := d, write := w.isSome, addr := addr.toNat, data := w.getD 0, done := none } } ∧
      t = { s with regs := t.regs, bus := t.bus, fresh := s.fresh + 1, out := t.out } ∧ KeepsRegs [] s t
    Completes (.spiRead addr) s (sent none) ∧ Completes (.spiWrite addr data) s (sent (some data.toNat))) ∧
  (∀ (s : State) (a : RingAccess), s.bus.running = some a → s.bus.waiting = [] →
    (Completes .accessTimeout s fun t =>
      t.bus.running = none ∧ t.bus.prev = { code := 2, addr := a.addr } ∧ t.rd PKG_ADDR_ERR_TIMEOUT pkg = 1 ∧
        t = { s with regs := t.regs, bus := t.bus, out := t.out } ∧
        KeepsRegs [PKG_ADDR_ERR_TIMEOUT, PKG_ADDR_ERR_ADDR_ADDRESS] s t) ∧
    (∀ r, a.done = some r → Completes .regRsp s fun t => t.bus = { s.bus with running := none, prev := r, last := r } ∧
      t = { s with regs := t.regs, bus := t.bus, out := t.out } ∧ KeepsRegs [] s t) ∧
    (∀ addr : Word, Serves s → a.done = none → a.write = false → a.addr = addr.toNat → Reaches s a.die 3 0x10 addr →
      Completes .regReq s fun t =>
        t.bus.running = some { a with done := some { addr := a.addr, data := s.rd CAL_REJECTS_COUNT a.die } } ∧
        t.rd CAL_REJECTS_COUNT a.die = 0 ∧ t.bus.last = s.bus.last ∧
        t = { s with regs := t.regs, bus := t.bus, fresh := s.fresh + 1, out := t.out } ∧ KeepsRegs [CAL_REJECTS_COUNT] s t))

/-- R61, R62 and R405. -/
def Obligations.ManagementMessages : Prop :=
  (∀ (s : State) (bytes : List Byte) (m : MgmtMsg), Serves s → s.bus.running = none → s.rootState = false →
    s.rd PKG_MGMT_PATH_CTRL_INBAND_EN pkg = 1 → mgmtParse bytes = some m → bit m.flags 0 = false →
    ((∀ r ∈ m.recs, r.op = 0) → (∀ k, s.bus.keptInband = some k → k.seq ≠ m.seq) →
      Completes (.mgmtMessage .inband ⟨bytes, 0⟩) s fun t =>
        t.out = [.response .inband (mgmtPack m (m.recs.map fun r => { addr := r.addr }))] ∧
        t.bus.keptInband = some { seq := m.seq, bytes := mgmtPack m (m.recs.map fun r => { addr := r.addr }) } ∧
        t = { s with regs := t.regs, bus := t.bus, out := t.out } ∧ KeepsRegs [] s t) ∧
    (∀ k, s.bus.keptInband = some k → k.seq = m.seq → Completes (.mgmtMessage .inband ⟨bytes, 0⟩) s fun t =>
      t.out = [.response .inband k.bytes] ∧ OnlyRegs [] s t)) ∧
  (∀ (s : State) (bytes : List Byte), Serves s → s.bus.running = none → s.rootState = false →
    s.rd PKG_MGMT_PATH_CTRL_INBAND_EN pkg = 1 → mgmtParse bytes = none →
    Completes (.mgmtMessage .inband ⟨bytes, 0⟩) s fun t =>
      t.out = [] ∧ t.rd PKG_ADDR_ERR_BAD_MSG pkg = 1 ∧ OnlyRegs [PKG_ADDR_ERR_BAD_MSG] s t) ∧
  (∀ (s : State) (bytes : List Byte) (silent : BitVec 8), Serves s → s.bus.running.isSome = true →
    Completes (.mgmtMessage .inband ⟨bytes, silent⟩) s fun t =>
      t = { s with
        regs := t.regs, out := []
        bus := { s.bus with waiting := s.bus.waiting ++ [⟨.inband, false, bytes, silent.toNat⟩] } } ∧ KeepsRegs [] s t) ∧
  (∀ (s : State) (bytes : List Byte) (m : MgmtMsg), Serves s → s.bus.running = none → s.rd PKG_MGMT_PATH_CTRL_PL_EN pkg = 1 →
    s.rd PLM_CTRL_EXEC pkg = 1 → mgmtParse bytes = some m → bit m.flags 0 = false → (∀ r ∈ m.recs, r.op = 0) →
    (∀ k, s.bus.keptPair = some k → k.seq ≠ m.seq) →
    Completes (.mgmtPacket ⟨bytes, 0⟩) s fun t =>
      t.out = [.plmPacket 1 (mgmtPack m (m.recs.map fun r => { addr := r.addr }))] ∧
      t.bus.keptPair = some { seq := m.seq, bytes := mgmtPack m (m.recs.map fun r => { addr := r.addr }) } ∧
      t.plm = pushPacket s.plm 1 (mgmtPack m (m.recs.map fun r => { addr := r.addr })) ∧
      t = { s with regs := t.regs, bus := t.bus, plm := t.plm, out := t.out } ∧ KeepsRegs [] s t)

/-- R308, R309, R311 and R319. -/
def Obligations.MemoryAccessesTouchTheirBytes : Prop :=
  (∀ (s : State) (d : Fin 8) (e : Fin 64) (w : Fin 16384) (v : Word), (d : Nat) < s.part.dies →
    (s.tcmOpen d e = true → s.tcmSt d e = {} →
      (Completes (.tcmAccess d e w (some v) none) s fun t =>
        t.memWord (tcmBase d e + 4 * w) = v.toNat ∧
        (∀ a, ¬ (tcmBase d e + 4 * w ≤ a ∧ a < tcmBase d e + 4 * w + 4) →
          memByte ramDefault t.mem a = memByte ramDefault s.mem a) ∧
        t.errAt d ((MemId.tcm e).off + 4 * w) = none ∧ t.bus.last = { s.bus.last with code := 0, data := 0 } ∧
        t = { s with regs := t.regs, mem := t.mem, wordErr := t.wordErr, bus := t.bus, out := t.out } ∧ KeepsRegs [] s t) ∧
      (s.errAt d ((MemId.tcm e).off + 4 * w) = none → Completes (.tcmAccess d e w none none) s fun t =>
        t.bus.last = { s.bus.last with code := 0, data := s.memWord (tcmBase d e + 4 * w) } ∧
        t = { s with regs := t.regs, bus := t.bus, out := t.out } ∧ KeepsRegs [] s t)) ∧
    (s.tcmOpen d e = false → ∀ x : Option Word, Completes (.tcmAccess d e w x none) s fun t =>
      t.rd MEM_EVENT_TCM_BUSY d = 1 ∧ t.bus.last.code = 2 ∧
        t = { s with regs := t.regs, bus := t.bus, out := t.out } ∧ KeepsRegs [MEM_EVENT_TCM_BUSY] s t)) ∧
  (∀ (s : State) (d : Fin 8) (b : Fin 256) (w : Fin 16384) (req : MemReq), (d : Nat) < s.part.dies →
    (s.bankOwns d b req = true → s.rd MEM_BANK_STATUS_FAILED d b = 0 → (s.bankSt d b).march = false →
      s.rd MEM_BANK_STATUS_POWER d b = 0 → s.errAt d ((MemId.bank b).off + 8 * w) = none →
      (∀ (lanes : Fin 256) (v : BitVec 64), Completes (.bankAccess d b w req (.write lanes v) false none) s fun t =>
        (∀ i, i < 8 → memByte ramDefault t.mem (bankBase d b + 8 * w + i) =
          if bit lanes i then (bytesLE 8 v.toNat).getD i 0 else memByte ramDefault s.mem (bankBase d b + 8 * w + i)) ∧
        (∀ a, ¬ (bankBase d b + 8 * w ≤ a ∧ a < bankBase d b + 8 * w + 8) →
          memByte ramDefault t.mem a = memByte ramDefault s.mem a) ∧ t.bus.last.code = 0 ∧
        t = { s with regs := t.regs, mem := t.mem, wordErr := t.wordErr, bus := t.bus, out := t.out } ∧ KeepsRegs [] s t) ∧
      Completes (.bankAccess d b w req .read false none) s fun t =>
        t.bus.last = { s.bus.last with code := 0, data := natLE (s.memRead (bankBase d b + 8 * w) 8) } ∧
        t = { s with regs := t.regs, bus := t.bus, out := t.out } ∧ KeepsRegs [] s t) ∧
    (s.bankOwns d b req = false → ∀ op : BankOp, Completes (.bankAccess d b w req op false none) s fun t =>
      t.rd MEM_EVENT_ACC_ERR d = 1 ∧ t.bus.last.code = 2 ∧
        t = { s with regs := t.regs, bus := t.bus, out := t.out } ∧
        KeepsRegs [MEM_EVENT_ACC_ERR, MEM_ACC_ERR_KIND, MEM_ACC_ERR_REQ, MEM_ACC_ERR_BANK, MEM_ACC_ERR_ADDR_ADDRESS] s t))

/-- R310, R314 and R315. -/
def Obligations.BankOwnershipPowerAndFill : Prop :=
  (∀ (s : State) (d : Fin 8) (b : Fin 256) (k : Fin 4) (o : Fin 32), (d : Nat) < s.part.dies →
    Completes (.bankOwnerWrite d b k o) s fun t =>
      t.rd MEM_BANK_STATUS_HANDOVER_PENDING d b = 1 ∧ t.bankSt d b = { s.bankSt d b with owner := some ((k : Nat), (o : Nat)) } ∧
        t = { s with regs := t.regs, banks := t.banks, out := t.out } ∧ KeepsRegs [MEM_BANK_STATUS_HANDOVER_PENDING] s t) ∧
  (∀ (s : State) (d : Fin 8) (b : Fin 256) (k : Fin 4) (o : Fin 32), (d : Nat) < s.part.dies →
    (s.bankSt d b).owner = some ((k : Nat), (o : Nat)) → (s.bankSt d b).power = none →
    Completes (.bankHandover d b) s fun t =>
      t.rd MEM_BANK_CFG_KIND d b = (k : Nat) ∧ t.rd MEM_BANK_CFG_OWNER d b = (o : Nat) ∧
        t.rd MEM_BANK_STATUS_HANDOVER_PENDING d b = 0 ∧ (t.bankSt d b).owner = none ∧
        t = { s with regs := t.regs, banks := t.banks, out := t.out } ∧
        KeepsRegs [MEM_BANK_CFG_KIND, MEM_BANK_CFG_OWNER, MEM_BANK_STATUS_HANDOVER_PENDING] s t) ∧
  (∀ (s : State) (d : Fin 8) (b : Fin 256) (p : Fin 4), (d : Nat) < s.part.dies →
    (s.rd MEM_BANK_STATUS_POWER d b = 2 → Completes (.bankPowerWrite d b 0 true) s fun t =>
      t.rd MEM_BANK_CFG_POWER d b = 0 ∧ t.rd MEM_BANK_STATUS_POWER d b = 3 ∧
        t = { s with regs := t.regs, banks := t.banks, out := t.out } ∧
        KeepsRegs [MEM_BANK_CFG_POWER, MEM_BANK_STATUS_POWER] s t) ∧
    ((p : Nat) ≠ 0 → Completes (.bankPowerWrite d b p false) s fun t =>
      t.rd MEM_BANK_CFG_POWER d b = min (p : Nat) 2 ∧ t.bankSt d b = { s.bankSt d b with power := some (min (p : Nat) 2) } ∧
        t = { s with regs := t.regs, banks := t.banks, out := t.out } ∧ KeepsRegs [MEM_BANK_CFG_POWER] s t)) ∧
  (∀ (s : State) (d : Fin 8) (m : MemId), (d : Nat) < s.part.dies → Completes (.memoryFill d m) s fun t =>
    (∀ i, i < m.size → memByte ramDefault t.mem (dieBase d + m.off + i) = 0) ∧
      (∀ a, ¬ (dieBase d + m.off ≤ a ∧ a < dieBase d + m.off + m.size) →
        memByte ramDefault t.mem a = memByte ramDefault s.mem a) ∧
      (match m with
        | .tcm e => (t.tcmSt d e).power = 0
        | .bank b => t.rd MEM_BANK_STATUS_POWER d b = 0) ∧
      t = { s with regs := t.regs, mem := t.mem, wordErr := t.wordErr, tcms := t.tcms, out := t.out } ∧
      KeepsRegs [MEM_BANK_STATUS_POWER] s t)

/-- R316, R318, R323, R325 and R327. -/
def Obligations.ScrubMarchAndRepair : Prop :=
  (∀ (s : State) (d : Fin 8) (b : Fin 256), (d : Nat) < s.part.dies → Completes (.checkerSelftest d [.bank b]) s fun t =>
    t.rd ECC_EVENT_SELFTEST_FAIL d = 1 ∧ t.rd MEM_BANK_STATUS_FAILED d b = 1 ∧
      OnlyRegs [ECC_EVENT_SELFTEST_FAIL, MEM_BANK_STATUS_FAILED] s t) ∧
  (∀ (s : State) (d : Fin 8) (g : Fin 16), (d : Nat) < s.part.dies → Completes (.bucketLeak d g) s fun t =>
    (s.rd ECC_BUCKET_LEAK d g ≠ 0 → t.rd ECC_BUCKET_LEVEL d g = (s.rd ECC_BUCKET_LEVEL d g - 1) % 256) ∧
      OnlyRegs (if s.rd ECC_BUCKET_LEAK d g = 0 then [] else [ECC_BUCKET_LEVEL]) s t) ∧
  (∀ (s : State) (d : Fin 8), (d : Nat) < s.part.dies →
    let lo := s.rd ECC_SCRUB_START_ADDRESS d
    let hi := s.rd ECC_SCRUB_END_ADDRESS d
    (lo < hi → (s.memSt d).scrub = none → Completes (.scrubStart d) s fun t =>
      (t.memSt d).scrub = some (lo, hi) ∧ t.rd ECC_CTRL_SCRUB_BUSY d = 1 ∧
        t = { s with regs := t.regs, memSts := t.memSts, out := t.out } ∧ KeepsRegs [ECC_CTRL_SCRUB_BUSY] s t) ∧
    (hi ≤ lo → Completes (.scrubStart d) s fun t =>
      t.rd ECC_CTRL_SCRUB_ERR d = 1 ∧ OnlyRegs [ECC_CTRL_SCRUB_ERR] s t)) ∧
  (∀ (s : State) (d : Fin 8) (lo hi : Nat) (upto : Word), (d : Nat) < s.part.dies → (s.memSt d).scrub = some (lo, hi) →
    s.wordErr = [] →
    let ended := fun (top : Nat) (t : State) =>
      (t.memSt d).scrub = none ∧ t.rd ECC_CTRL_SCRUB_BUSY d = 0 ∧ t.rd ECC_EVENT_SCRUB_DONE d = 1 ∧
      t.rd ECC_SCRUB_RESULT_CORR d = 0 ∧ t.rd ECC_SCRUB_RESULT_UNC d = 0 ∧ t.rd ECC_SCRUB_FIRST_ADDRESS d = 0 ∧
      t.rd ECC_SCRUB_WORDS_COUNT d = s.scrubWords d lo top % 2 ^ 32 ∧
      t = { s with regs := t.regs, memSts := t.memSts, out := t.out }
    Completes (.scrubDone d []) s (ended hi) ∧ Completes (.scrubStop d upto []) s (ended (clamp lo hi upto.toNat))) ∧
  (∀ (s : State) (d : Fin 8), (d : Nat) < s.part.dies → (s.memSt d).march = none →
    (∀ m ∈ s.marchMems d, s.marchRefuses d m = false) → Completes (.marchStart d) s fun t =>
      (t.memSt d).march = some (s.marchMems d, s.rd MEM_MARCH_CTRL_MODE d == 1) ∧ t.rd MEM_MARCH_STATUS_BUSY d = 1 ∧
        t.rd MEM_MARCH_STATUS_REFUSED d = 0 ∧ t.mem = s.mem) ∧
  (∀ (s : State) (d : Fin 8) (ms : List MemId), (d : Nat) < s.part.dies → (s.memSt d).march = some (ms, false) →
    Completes (.marchDone d [] []) s fun t =>
      (t.memSt d).march = none ∧ t.rd MEM_MARCH_STATUS_BUSY d = 0 ∧ t.rd MEM_EVENT_MARCH_DONE d = 1 ∧
      (∀ m ∈ ms, ∀ i, i < m.size → memByte ramDefault t.mem (dieBase d + m.off + i) = 0) ∧
      (∀ a, (∀ m ∈ ms, ¬ (dieBase d + m.off ≤ a ∧ a < dieBase d + m.off + m.size)) →
        memByte ramDefault t.mem a = memByte ramDefault s.mem a)) ∧
  (∀ (s : State) (d : Fin 8) (b : Fin 256) (v : Word), (d : Nat) < s.part.dies →
    (s.underMarch d (.bank b) = false → Completes (.repairEntryWrite d b 0 v) s fun t =>
      t.rd MEM_REPAIR0_VALID_LO d b = b2n (bit v.toNat 15) ∧ t.rd MEM_REPAIR0_ROW_LO d b = bitsAt v.toNat 0 12 ∧
        t.rd MEM_REPAIR0_VALID_HI d b = b2n (bit v.toNat 31) ∧ t.rd MEM_REPAIR0_ROW_HI d b = bitsAt v.toNat 16 12 ∧
        t.mem = s.mem) ∧
    (s.underMarch d (.bank b) = true → ∀ j, Completes (.repairEntryWrite d b j v) s fun t =>
      t.rd MEM_EVENT_REPAIR_ERR d = 1 ∧ OnlyRegs [MEM_EVENT_REPAIR_ERR] s t))

/-- R303, R304 and R307; log entry 109 for the base instruction set. -/
def Obligations.EngineInstructionsAndTraps : Prop :=
  (∀ (s : State) (d : Fin 8) (e : Fin 64) (bits len : Nat), (d : Nat) < s.part.dies → s.engRuns d e = true → s.out = [] →
    s.engFetch d e (s.eng d e).pc.toNat = (some (bits, len), s) →
    let i := if len = 4 then rvDecode bits else rvcDecode bits
    let pc := (s.eng d e).pc
    let next := pc + BitVec.ofNat 32 len
    let writes := fun (rd : Nat) (v : Word) (to_ : Word) (t : State) =>
      t.eng d e = { s.eng d e with
        pc := to_, instret := (s.eng d e).instret + 1, x := if rd = 0 then (s.eng d e).x else (s.eng d e).x.set rd v } ∧
      (∀ k, k ≠ (e : Nat) → t.eng d k = s.eng d k) ∧ t = { s with regs := t.regs, engs := t.engs, out := t.out } ∧ KeepsRegs [] s t
    (∀ op rd rs v, i = .imm op rd rs v → Completes (.engineInstruction d e) s (writes rd (op.result (s.xreg d e rs) v) next)) ∧
    (∀ op rd a b, i = .reg op rd a b →
      Completes (.engineInstruction d e) s (writes rd (op.result (s.xreg d e a) (s.xreg d e b)) next)) ∧
    (∀ rd v, i = .lui rd v → Completes (.engineInstruction d e) s (writes rd v next)) ∧
    (∀ rd off, i = .jal rd off → Completes (.engineInstruction d e) s (writes rd next (pc + off))) ∧
    (∀ c a b off, i = .branch c a b off → Completes (.engineInstruction d e) s
      (writes 0 0 (if c.holds (s.xreg d e a) (s.xreg d e b) then pc + off else next)))) ∧
  (∀ (s : State) (d : Fin 8) (e : Fin 64) (c : Fin 16) (v : Word), (d : Nat) < s.part.dies → s.engRuns d e = true →
    let trapped := { s.eng d e with
      mepc := (s.eng d e).pc, mcause := BitVec.ofNat 32 (c : Nat), mtval := v, mpie := (s.eng d e).mie, mie := false
      pc := (s.eng d e).mtvec &&& 0xFFFFFFFC#32 }
    (s.rd ENG_CTRL_HALT_ON_TRAP d = 0 → Completes (.engineTrap d e c v) s fun t =>
      t.eng d e = trapped ∧ t.rd ENG_STATUS_MCAUSE d e = (c : Nat) ∧
        t = { s with regs := t.regs, engs := t.engs, out := t.out } ∧ KeepsRegs [ENG_STATUS_MCAUSE] s t) ∧
    (s.rd ENG_CTRL_HALT_ON_TRAP d = 1 → Completes (.engineTrap d e c v) s fun t =>
      t.eng d e = trapped ∧ t.rd ENG_STATUS_STATE d e = 0 ∧ t.rd ENG_STATUS_CAUSE d e = 3 ∧ t.engHalted d e = true ∧
        (t.rd ENG_EVENT_TRAP d).testBit ((e : Nat) / 8) = true)) ∧
  (∀ (s : State) (d : Fin 8) (e : Fin 64), (d : Nat) < s.part.dies → s.engRuns d e = true →
    Completes (.engineWatchdog d e) s fun t =>
      t.rd ENG_STATUS_STATE d e = 0 ∧ t.rd ENG_STATUS_CAUSE d e = 2 ∧ t.engHalted d e = true ∧
        (t.rd ENG_EVENT_WATCHDOG d).testBit ((e : Nat) / 8) = true ∧
        OnlyRegs [ENG_STATUS_STATE, ENG_STATUS_CAUSE, ENG_HALTED_HALTED, ENG_EVENT_WATCHDOG] s t) ∧
  (∀ (s : State) (d : Fin 8) (e : Fin 64) (a : Word) (w : Bool), (d : Nat) < s.part.dies → s.engRuns d e = true →
    s.crown.token = none → 0x50000000 ≤ a.toNat → a.toNat < 0x60000000 → s.rd ENG_CTRL_HALT_ON_TRAP d = 0 →
    Completes (.pkgAccessNoCrown d e a w) s fun t =>
      (t.eng d e).mcause = BitVec.ofNat 32 (if w then 7 else 5) ∧ (t.eng d e).mtval = a ∧
        (t.eng d e).mepc = (s.eng d e).pc ∧
        t = { s with regs := t.regs, engs := t.engs, out := t.out } ∧ KeepsRegs [ENG_STATUS_MCAUSE] s t)

/-- R305 and R311; log entry 113. -/
def Obligations.VectorInstructionsAndDma : Prop :=
  (∀ (s : State) (d : Fin 8) (e : Fin 64), (d : Nat) < s.part.dies → s.engRuns d e = true →
    let r := s.eng d e
    let frame := fun t : State => (∀ k, k ≠ (e : Nat) → t.eng d k = s.eng d k) ∧
      t = { s with regs := t.regs, engs := t.engs, out := t.out } ∧ KeepsRegs [] s t
    let vec := fun (v : Nat) (xs : List CElem) (t : State) =>
      t.eng d e = { r with
        cv := r.cv.set v (satVec 16 xs).1, sat := r.sat || (satVec 16 xs).2, pc := r.pc + 4, instret := r.instret + 1 } ∧ frame t
    let acc := fun (a : Nat) (xs : List CElem) (t : State) =>
      t.eng d e = { r with
        ca := r.ca.set a (satVec 40 xs).1, sat := r.sat || (satVec 40 xs).2, pc := r.pc + 4, instret := r.instret + 1 } ∧ frame t
    ∀ (vd va vb : Fin 8) (a : Fin 2) (angle : Fin 65536) (sh : Fin 25),
      Completes (.cvMul d e vd va vb) s
        (vec vd (((s.cvReg d e va).zip (s.cvReg d e vb)).map fun p => (p.1.mul p.2).shr 15)) ∧
      Completes (.cvMac d e a va vb) s
        (acc a (((s.caReg d e a).zip (((s.cvReg d e va).zip (s.cvReg d e vb)).map fun p => p.1.mul p.2)).map
          fun p => p.1.add p.2)) ∧
      Completes (.cvConj d e vd va) s (vec vd ((s.cvReg d e va).map fun x => { x with q := -x.q })) ∧
      Completes (.cvAbs2 d e vd va) s
        (vec vd ((s.cvReg d e va).map fun x => { i := shrNearest (x.i * x.i + x.q * x.q) 15, q := 0 })) ∧
      Completes (.cvRot d e vd va angle) s (vec vd ((s.cvReg d e va).map fun x => x.rot angle)) ∧
      Completes (.cvSum d e a va) s (acc a ((s.caReg d e a).set 0 ((s.cvReg d e va).foldl CElem.add {}))) ∧
      Completes (.cvShr d e vd a sh) s (vec vd ((s.caReg d e a).map fun x => x.shr sh))) ∧
  (∀ (s : State) (d : Fin 8) (e : Fin 64) (v : Fin 8) (a : Word), (d : Nat) < s.part.dies → s.engRuns d e = true →
    a.toNat % 32 = 0 → a.toNat < 0x10000 → s.tcmSt d e = {} → s.wordErr = [] →
    (Completes (.cvLd d e v a) s fun t =>
      (t.eng d e).cv = (s.eng d e).cv.set v (satVec 16 (bytesVec (s.memRead (tcmBase d e + a.toNat) 32))).1 ∧
        (t.eng d e).pc = (s.eng d e).pc + 4 ∧
        t = { s with regs := t.regs, engs := t.engs, out := t.out } ∧ KeepsRegs [] s t) ∧
    (Completes (.cvSt d e v a) s fun t =>
      t.memRead (tcmBase d e + a.toNat) (vecBytes (s.cvReg d e v)).length = vecBytes (s.cvReg d e v) ∧
        (∀ x, ¬ (tcmBase d e + a.toNat ≤ x ∧ x < tcmBase d e + a.toNat + (vecBytes (s.cvReg d e v)).length) →
          memByte ramDefault t.mem x = memByte ramDefault s.mem x) ∧ (t.eng d e).pc = (s.eng d e).pc + 4 ∧
        t = { s with regs := t.regs, engs := t.engs, mem := t.mem, wordErr := t.wordErr, out := t.out } ∧ KeepsRegs [] s t)) ∧
  (∀ (s : State) (d : Fin 8) (e : Fin 64) (src dst : DmaEnd) (n : Fin 65505), (d : Nat) < s.part.dies →
    s.engRuns d e = true → bit (s.rd ENG_CTRL_DMA_EN d) ((e : Nat) / 8) = true →
    Completes (.cvDma d e src dst n) s fun t =>
      t.channel d ((e : Nat) / 8) = s.channel d ((e : Nat) / 8) ++ [{ eng := (e : Nat), src := src, dst := dst, len := 32 + (n : Nat) }] ∧
        (t.eng d e).pc = (s.eng d e).pc + 4 ∧
        t = { s with regs := t.regs, engs := t.engs, dma := t.dma, out := t.out } ∧ KeepsRegs [] s t) ∧
  (∀ (s : State) (d : Fin 8) (c : Fin 8) (x y : Fin 64) (j : DmaJob) (q : List DmaJob), (d : Nat) < s.part.dies →
    bit (s.rd ENG_CTRL_DMA_EN d) c = true → s.channel d c = j :: q → j.len = 32 → j.src.mem = .tcm x → j.dst.mem = .tcm y →
    (x : Nat) / 8 = (c : Nat) → (y : Nat) / 8 = (c : Nat) → (j.src.off : Nat) + 32 ≤ 0x10000 → (j.dst.off : Nat) + 32 ≤ 0x10000 →
    s.tcmSt d x = {} → s.tcmSt d y = {} → s.wordErr = [] →
    Completes (.dmaCopyDone d c) s fun t =>
      t.channel d c = q ∧ t.memRead (tcmBase d y + j.dst.off) 32 = s.memRead (tcmBase d x + j.src.off) 32 ∧
        (∀ a, ¬ (tcmBase d y + j.dst.off ≤ a ∧ a < tcmBase d y + j.dst.off + 32) →
          memByte ramDefault t.mem a = memByte ramDefault s.mem a) ∧
        t = { s with regs := t.regs, dma := t.dma, mem := t.mem, wordErr := t.wordErr, out := t.out } ∧ KeepsRegs [] s t)

/-- R107, R333, R334, R336, R337, R341, R342 and R344. -/
def Obligations.PowerDomainsAndWindows : Prop :=
  (∀ (s : State) (d : Fin 8) (k : Fin 58), (d : Nat) < s.part.dies →
    (s.domWant d k = some 0 → (∀ p, domPll k = some p → s.pllLocked d p = true) → Completes (.domainPowerOn d k) s fun t =>
      t.domain d k = 0 ∧ t.domWant d k = none ∧ (∀ j, j < 58 → j ≠ (k : Nat) → t.domain d j = s.domain d j) ∧
        KeepsRegs [PWR_DOM_STATE] s t) ∧
    (∀ p, domPll k = some p → s.pllLocked d p = false → Completes (.domainPowerOn d k) s (OnlyRegs [] s)) ∧
    (∀ v, (k : Nat) < 50 → (v = 1 ∨ v = 2) → s.domWant d k = some v → s.domIdle d k = true → Completes (.domainLower d k) s fun t =>
      t.domain d k = v ∧ t.domWant d k = none ∧ (∀ j, j < 58 → j ≠ (k : Nat) → t.domain d j = s.domain d j) ∧
        (v = 1 ∨ (k : Nat) < 14 ∨ 21 < (k : Nat) → t.rxArms = s.rxArms) ∧
        (v = 1 ∨ (k : Nat) < 23 ∨ 30 < (k : Nat) → t.txArms = s.txArms) ∧
        t = { s with regs := t.regs, pwr := t.pwr, rxArms := t.rxArms, txArms := t.txArms, out := t.out } ∧ KeepsRegs [PWR_DOM_STATE] s t) ∧
    (s.domIdle d k = false → Completes (.domainLower d k) s (OnlyRegs [] s))) ∧
  (∀ (s : State) (d : Fin 8) (p : Fin 3), (d : Nat) < s.part.dies → bit (s.pwrSt d).pllRun p = true →
    (Completes (.pllLock d p) s fun t => t.pllLocked d p = true ∧ t.domain d (2 + p) = 0 ∧
      ∀ k, k < 58 → domPll k = some (p : Nat) → s.domWant d k = some 0 → t.domain d k = 0) ∧
    Completes (.pllLockFail d p) s fun t =>
      t.rd PWR_EVENT_PLL_FAIL d = 1 ∧ t.domain d (2 + p) = 2 ∧
      (∀ k, k < 58 → domPll k = some (p : Nat) → s.domWant d k = some 0 → t.domain d k = s.domainStay d k) ∧
      (∃ r, t.out = [.fault d r] ∧ r.level = (if (p : Nat) = 1 then 3 else 1) ∧ r.cls = 0 ∧ r.block = 17) ∧
      t = { s with regs := t.regs, pwr := t.pwr, out := t.out } ∧ KeepsRegs [PWR_DOM_STATE, PWR_EVENT_PLL_FAIL] s t) ∧
  (∀ (s : State) (d : Fin 8), (d : Nat) < s.part.dies →
    (Completes (.sclkLost d) s fun t =>
      t.rd CNV_STATUS_SCLK_LOCK d = 0 ∧ t.rd CNV_EVENT_SCLK_LOST d = 1 ∧ t.rd FRM_TT_STATUS_VALID (s.teamBase d) = 0 ∧
      (∀ i, i < 8 → s.rxOn d i = true → s.rxState d i ≠ 0 → s.rxState d i ≠ 5 → t.rxState d i = 4) ∧
      t = { s with regs := t.regs, rxArms := t.rxArms, txArms := t.txArms, seams := t.seams, out := t.out } ∧
      KeepsRegs [CNV_STATUS_SCLK_LOCK, CNV_EVENT_SCLK_LOST, RXD_SC_STATUS_STATE, SEAM_EVENT_INVALID_HI,
        SEAM_EVENT_INVALID_LO, SEAM_STATUS_HI_STATE, SEAM_STATUS_LO_STATE, RXD_SC_STATUS_COMBINED, FRM_TT_STATUS_VALID] s t) ∧
    (Completes (.sclkReturn d) s fun t => t.rd CNV_STATUS_SCLK_LOCK d = 1 ∧
      ((s.isActive d && s.flag CAL_CTRL_SEAM_EN d) = false → s.heldIdle d = false → ∀ i, i < 8 →
        (s.rxArm d i).coldDue = false → s.rxState d i = 4 → t.rxState d i = if (s.rxArm d i).cd.isSome then 6 else 1) ∧
      ((s.isActive d && s.flag CAL_CTRL_SEAM_EN d && s.lowerPresent d) = true → ∀ i, i < 8 → t.rxState d i = s.rxState d i)) ∧
    ((∀ c, c < 8 → s.domain d (5 + c) ≠ 0) → s.pllLocked d 0 = true → Completes (.samplingPllStop d) s fun t =>
      t.pllLocked d 0 = false ∧ t.domain d 2 = 2 ∧ t.rd CNV_STATUS_SCLK_LOCK d = 0)) ∧
  (∀ (s : State) (d i : Fin 8), (d : Nat) < s.part.dies →
    (s.rd PKG_PWR_CFG_OFF_AFTER pkg = 0 → Completes (.armsOffAfter d i) s (OnlyRegs [] s)) ∧
    (s.rd PKG_PWR_CFG_OFF_AFTER pkg ≠ 0 → Completes (.armsOffAfter d i) s fun t =>
      (s.txState d i = 4 → t.txState d i = 0) ∧ (s.rxState d i = 5 → t.rxState d i = 0) ∧
        t = { s with regs := t.regs, rxArms := t.rxArms, txArms := t.txArms, pwr := t.pwr, out := t.out })) ∧
  (∀ (s : State) (rates : List (Fin 8 × Fin 512 × Fin 65536)), s.rd PKG_PWR_CTRL_AUTO pkg = 0 →
    (∀ b, b < 8 → (s.mgrSt b).step = none) → Completes (.pwrWindow rates) s fun t =>
      (∀ (e : Fin 8) (f : Fin 512), (e : Nat) < s.part.dies → t.rd PWR_FLOW_RATE e f =
        (((rates.filter fun r => r.1 = e ∧ r.2.1 = f).getLast?.map fun r => (r.2.2 : Nat)).getD 0)) ∧
      (s.crown.token.isSome = true →
        t.rd PKG_PWR_STATUS_THERM_WARN pkg = b2n (decide (8 * (s.rd PKG_PWR_THERM_WARN pkg : Int) ≤ s.temperature)) ∧
        t.rd PKG_PWR_STATUS_THERM_CRIT pkg = b2n (decide (8 * (s.rd PKG_PWR_THERM_CRIT pkg : Int) ≤ s.temperature))) ∧
      t.staged = s.staged ∧ t.txn = s.txn ∧ t.mem = s.mem)

/-- R351, R353, R355, R356 and R361. -/
def Obligations.TimingReferences : Prop :=
  (∀ (s : State) (r : RefSample), s.rd TIM_REF_CFG_EN pkg r.slot = 1 →
    let k := (r.slot : Nat)
    let hard := 1000 * s.rd TIM_REF_LIM_HARD pkg k
    let soft := 1000 * s.rd TIM_REF_LIM_SOFT pkg k
    (s.slotActive k r.alive = false → Completes (.refMonitorUpdate [r]) s fun t =>
      t.rd TIM_REF_STATUS_ACTIVE pkg k = 0 ∧ t.rd TIM_REF_STATUS_QUALIFIED pkg k = 0 ∧ t.rd TIM_REF_STATUS_DISQ_CAUSE pkg k = 1) ∧
    (s.slotActive k r.alive = true → Completes (.refMonitorUpdate [r]) s fun t =>
      t.rd TIM_REF_STATUS_ACTIVE pkg k = 1 ∧ (t.refSt k).phase = s.slotPhase r ∧ (t.refSt k).fresh = true) ∧
    (s.slotActive k r.alive = true → hard < (s.slotFreq r).natAbs → Completes (.refMonitorUpdate [r]) s fun t =>
      t.rd TIM_REF_STATUS_QUALIFIED pkg k = 0 ∧ t.rd TIM_REF_STATUS_DISQ_CAUSE pkg k = 2) ∧
    (s.slotActive k r.alive = true → (s.slotFreq r).natAbs ≤ hard → (s.slotFreq r).natAbs ≤ soft →
      (s.refSt k).freqs.length < 15 → s.rd TIM_REF_STATUS_QUALIFIED pkg k = 0 →
      s.rd TIM_SEL_CTRL_QUAL pkg ≤ (s.refSt k).good + 1 → Completes (.refMonitorUpdate [r]) s fun t =>
        t.rd TIM_REF_STATUS_QUALIFIED pkg k = 1 ∧ t.rd TIM_REF_STATUS_DISQ_CAUSE pkg k = 0)) ∧
  (∀ (s : State) (k : Fin 16),
    (s.rd TIM_REF_CFG_EN pkg k = 0 → Completes (.refActivityLoss k) s (OnlyRegs [] s)) ∧
    (s.rd TIM_REF_CFG_EN pkg k = 1 → Completes (.refActivityLoss k) s fun t =>
      t.rd TIM_REF_STATUS_ACTIVE pkg k = 0 ∧ t.rd TIM_REF_STATUS_QUALIFIED pkg k = 0 ∧ t.rd TIM_REF_STATUS_DISQ_CAUSE pkg k = 1 ∧
      (s.rd TIM_REF_STATUS_QUALIFIED pkg k = 1 → t.rd TIM_EVENT_DISQ pkg = 1) ∧
      (s.selected ≠ some (k : Nat) → t = { s with regs := t.regs, refs := t.refs, out := t.out } ∧
        KeepsRegs [TIM_REF_STATUS_ACTIVE, TIM_REF_STATUS_QUALIFIED, TIM_REF_STATUS_DISQ_CAUSE, TIM_REF_STATUS_QUAL_COUNT,
          TIM_EVENT_DISQ] s t))) ∧
  (∀ (s : State) (k : Fin 16) (w : Word),
    (s.slotBad w.toNat = true → Completes (.refSlotConfig k w) s fun t =>
      t.rd TIM_REF_CFG_EN pkg k = 0 ∧ t.rd TIM_EVENT_CFG_ERR pkg = 1 ∧ OnlyRegs [TIM_REF_CFG_EN, TIM_EVENT_CFG_ERR] s t) ∧
    (s.slotBad w.toNat = false → Completes (.refSlotConfig k w) s fun t =>
      t.rd TIM_REF_CFG_EN pkg k = b2n (bit w.toNat 31) ∧ t.rd TIM_REF_CFG_PHASE_MODE pkg k = b2n (bit w.toNat 30) ∧
      t.rd TIM_REF_CFG_SOURCE pkg k = bitsAt w.toNat 28 2 ∧ t.rd TIM_REF_CFG_DIE pkg k = bitsAt w.toNat 24 3 ∧
      t.rd TIM_REF_CFG_INDEX pkg k = bitsAt w.toNat 20 3 ∧ t.rd TIM_REF_CFG_FREQ pkg k = bitsAt w.toNat 16 4 ∧
      t.rd TIM_REF_CFG_RANK pkg k = bitsAt w.toNat 0 4)) ∧
  (∀ (s : State) (k : Fin 16) (w : Word), Completes (.refOfsWrite k w) s fun t =>
    let v := clampInt (-500000000) 500000000 (toSigned 32 w.toNat)
    t.rdS TIM_REF_OFS_OFFSET pkg k = v ∧
      (¬ (s.selected = some (k : Nat) ∧ s.absolute k = true) → OnlyRegs [TIM_REF_OFS_OFFSET] s t) ∧
      (s.selected = some (k : Nat) → s.absolute k = true →
        t.tim = { s.tim with phase := s.tim.phase + v - s.rdS TIM_REF_OFS_OFFSET pkg k } ∧
        t = { s with regs := t.regs, tim := t.tim, out := t.out } ∧ KeepsRegs [TIM_REF_OFS_OFFSET, TIM_PHASE_ERR_ERROR] s t))

/-- R356, R360, R361 and R362. -/
def Obligations.DpllStatesAndHistory : Prop :=
  ∀ s : State,
    let moved := fun (v : Nat) (t : State) => t.dpll = v ∧ t.rd TIM_EVENT_STATE_CHG pkg = 1
    let recent := fun k => ((s.refSt k).lostAt.filter fun x => decide (s.tim.now ≤ x + 60)).length
    let lostOnly := fun t : State => moved 4 t ∧ t = { s with regs := t.regs, refs := t.refs, out := t.out } ∧
      KeepsRegs [TIM_EVENT_STATE_CHG, TIM_DPLL_STATUS_STATE, TIM_DPLL_FREQ_FREQ] s t
    let cause3 := fun (k : Nat) (t : State) =>
      t.rd TIM_REF_STATUS_QUALIFIED pkg k = 0 ∧ t.rd TIM_REF_STATUS_DISQ_CAUSE pkg k = 3
    (s.dpll = 1 → Completes .dpllLocked s fun t => moved 2 t ∧
      OnlyRegs [TIM_EVENT_STATE_CHG, TIM_DPLL_STATUS_STATE, TIM_DPLL_FREQ_FREQ] s t) ∧
    (s.dpll ≠ 1 → Completes .dpllLocked s (OnlyRegs [] s)) ∧
    (s.dpll = 1 → (∀ k, s.selected = some k → recent k < 2) → Completes .dpllAcqTimeout s lostOnly) ∧
    (∀ k, s.dpll = 1 → s.selected = some k → 2 ≤ recent k → Completes .dpllAcqTimeout s (cause3 k)) ∧
    (s.dpll ≠ 1 → Completes .dpllAcqTimeout s (OnlyRegs [] s)) ∧
    (s.dpll = 2 → (∀ k, s.selected = some k → recent k < 2) → Completes .dpllLost s lostOnly) ∧
    (∀ k, s.dpll = 2 → s.selected = some k → 2 ≤ recent k → Completes .dpllLost s (cause3 k)) ∧
    (s.dpll ≠ 2 → Completes .dpllLost s (OnlyRegs [] s)) ∧
    (s.dpll = 4 → s.selected.isSome = true → Completes .dpllReacquire s fun t => moved 1 t ∧
      t.tim.entry = s.rdS TIM_DPLL_FREQ_FREQ pkg ∧ t = { s with regs := t.regs, tim := t.tim, out := t.out } ∧
      KeepsRegs [TIM_EVENT_STATE_CHG, TIM_DPLL_STATUS_STATE, TIM_DPLL_FREQ_FREQ, TIM_DPLL_STATUS_STEP_BUSY,
        TIM_PHASE_ERR_ERROR] s t) ∧
    (s.dpll ≠ 4 ∨ s.selected = none → Completes .dpllReacquire s (OnlyRegs [] s)) ∧
    (∀ m : Fin 8, Completes (.dpllModeWrite m) s fun t => t.rd TIM_DPLL_CTRL_MODE pkg = min (m : Nat) 3 ∧
      (2 ≤ (m : Nat) → moved (if (m : Nat) = 2 ∧ s.rd TIM_DPLL_STATUS_HIST_VALID pkg ≠ 0 then 3 else 0) t ∧
        OnlyRegs [TIM_DPLL_CTRL_MODE, TIM_EVENT_STATE_CHG, TIM_DPLL_STATUS_STATE, TIM_DPLL_FREQ_FREQ] s t)) ∧
    (∀ mean : Int, s.dpll = 2 → Completes (.historySample mean) s fun t =>
      t.tim.lastMean = mean ∧
      t.tim.samples = ((s.tim.now, mean) :: s.tim.samples).filter (fun y => decide (s.tim.now ≤ y.1 + 4350)) ∧
      t.rd TIM_DPLL_FREQ_FREQ pkg = ofSigned 32 mean ∧ t = { s with regs := t.regs, tim := t.tim, out := t.out } ∧
      KeepsRegs [TIM_DPLL_FREQ_FREQ, TIM_HIST_FREQ_FREQ, TIM_DPLL_STATUS_HIST_VALID] s t) ∧
    ∀ mean : Int, s.dpll ≠ 2 → Completes (.historySample mean) s (OnlyRegs [] s)

/-- R365, R366, R367, R369 and R370. -/
def Obligations.TimingStepsAndOutputs : Prop :=
  (∀ (s : State) (w : Word),
    let v := toSigned 32 w.toNat
    (500000000 < v.natAbs ∨ s.rd TIM_DPLL_STATUS_STEP_BUSY pkg ≠ 0 → Completes (.phaseStep w) s fun t =>
      t.rd TIM_EVENT_STEP_ERR pkg = 1 ∧ OnlyRegs [TIM_EVENT_STEP_ERR] s t) ∧
    (v.natAbs ≤ 500000000 → s.rd TIM_DPLL_STATUS_STEP_BUSY pkg = 0 → s.selected = none → Completes (.phaseStep w) s fun t =>
      t.tim = { s.tim with step := some v, stepTod := false } ∧ t.rd TIM_DPLL_STATUS_STEP_BUSY pkg = 1 ∧
        t = { s with regs := t.regs, tim := t.tim, out := t.out } ∧ KeepsRegs [TIM_DPLL_STATUS_STEP_BUSY] s t)) ∧
  (∀ (s : State) (v : Int), s.tim.step = some v → s.tim.waitGo = none → s.tim.pend.length = 4 →
    (∀ k, s.selected = some k → s.absolute k = false) → Completes .stepApply s fun t =>
      t.tod = (s.tod + v * 65536 / 1000) % ((2 ^ 48 * 1000000000 * 65536 : Nat) : Int) ∧
      (∀ j, j < 4 → t.tim.pend.getD j 0 = wrapHalf (s.outPeriod j) (s.tim.pend.getD j 0 + v)) ∧
      t.tim.step = none ∧ t.rd TIM_DPLL_STATUS_STEP_BUSY pkg = 0 ∧
      t = { s with regs := t.regs, tim := t.tim, out := t.out } ∧
      KeepsRegs [TIM_DPLL_STATUS_TOD_VALID, TIM_OUT_PEND_PENDING, TIM_DPLL_STATUS_STEP_BUSY, TIM_PHASE_ERR_ERROR] s t) ∧
  (∀ (s : State) (j : Fin 4) (w : Word),
    (bit w.toNat 31 = true → State.outputOk j (bitsAt w.toNat 0 30) (s.rd TIM_OUT_AUX_OFFSET pkg j) = false →
      Completes (.outputConfigWrite j false w) s fun t => t.rd TIM_EVENT_CFG_ERR pkg = 1 ∧ OnlyRegs [TIM_EVENT_CFG_ERR] s t) ∧
    (bit w.toNat 31 = false ∨ State.outputOk j (bitsAt w.toNat 0 30) (s.rd TIM_OUT_AUX_OFFSET pkg j) = true →
      Completes (.outputConfigWrite j false w) s fun t =>
        t.rd TIM_OUT_CFG_EN pkg j = b2n (bit w.toNat 31) ∧ t.rd TIM_OUT_CFG_PARAM pkg j = bitsAt w.toNat 0 30 ∧
          t = { s with regs := t.regs, tim := t.tim, out := t.out } ∧
          KeepsRegs [TIM_OUT_CFG_EN, TIM_OUT_CFG_PARAM, TIM_OUT_PEND_PENDING] s t) ∧
    (s.rd TIM_OUT_CFG_EN pkg 3 = 0 → Completes (.outputConfigWrite 3 true w) s fun t =>
      t.rd TIM_OUT_AUX_OFFSET pkg 3 = bitsAt w.toNat 0 30 ∧ OnlyRegs [TIM_OUT_AUX_OFFSET] s t)) ∧
  (∀ (s : State) (w : Word), bitsAt w.toNat 0 4 ≠ 0 → Completes (.realign w) s fun t =>
    t.rd TIM_REALIGN_SLEW pkg = max 1 (bitsAt w.toNat 8 16) ∧ t.rd TIM_REALIGN_MODE pkg = b2n (bit w.toNat 4) ∧
    (s.rd TIM_DPLL_STATUS_STEP_BUSY pkg ≠ 0 →
      t.tim = { s.tim with waitGo := some (bitsAt w.toNat 0 4, bit w.toNat 4) } ∧
        KeepsRegs [TIM_REALIGN_SLEW, TIM_REALIGN_MODE] s t) ∧
    (s.rd TIM_DPLL_STATUS_STEP_BUSY pkg = 0 → bit w.toNat 4 = false →
      (∀ j, j < 4 → t.tim.pend.getD j 0 = if bit w.toNat j then 0 else s.tim.pend.getD j 0) ∧ t.tim.slewing = 0 ∧
        t.rd TIM_EVENT_REALIGN_DONE pkg = 1) ∧
    t = { s with regs := t.regs, tim := t.tim, out := t.out } ∧
    KeepsRegs [TIM_REALIGN_SLEW, TIM_REALIGN_MODE, TIM_OUT_PEND_PENDING, TIM_EVENT_REALIGN_DONE] s t) ∧
  (∀ s : State, s.tim.slewing ≠ 0 → Completes .realignDone s fun t =>
    (∀ j, j < 4 → t.tim.pend.getD j 0 = if bit s.tim.slewing j then 0 else s.tim.pend.getD j 0) ∧ t.tim.slewing = 0 ∧
      t.rd TIM_EVENT_REALIGN_DONE pkg = 1 ∧ t = { s with regs := t.regs, tim := t.tim, out := t.out } ∧
      KeepsRegs [TIM_OUT_PEND_PENDING, TIM_EVENT_REALIGN_DONE] s t) ∧
  (∀ s : State,
    (Completes .todLoad s fun t => t.tim = { s.tim with loadDue := true } ∧
      t = { s with regs := t.regs, tim := t.tim, out := t.out } ∧ KeepsRegs [] s t) ∧
    (s.tim.loadDue = true → Completes .todLoadApply s fun t =>
      t.tim = { s.tim with
        todSec := s.rd TIM_TOD_LOAD_S_HI_SECONDS pkg * 2 ^ 32 + s.rd TIM_TOD_LOAD_S_LO_SECONDS pkg
        todNs := 0
        todFrac := 0
        loadDue := false } ∧ t.rd TIM_DPLL_STATUS_TOD_VALID pkg = 1 ∧
        t = { s with regs := t.regs, tim := t.tim, out := t.out } ∧ KeepsRegs [TIM_DPLL_STATUS_TOD_VALID] s t) ∧
    ∀ adv : Nat, Completes (.todSnap adv) s fun t =>
      t.tod = (s.tod + adv) % ((2 ^ 48 * 1000000000 * 65536 : Nat) : Int) ∧
      t.rd TIM_TOD_SNAP_DATA pkg 0 = t.tim.todSec % 2 ^ 32 ∧ t.rd TIM_TOD_SNAP_DATA pkg 1 = t.tim.todSec / 2 ^ 32 ∧
      t.rd TIM_TOD_SNAP_DATA pkg 2 = t.tim.todNs ∧ t.rd TIM_TOD_SNAP_DATA pkg 3 = t.tim.todFrac ∧
      t = { s with regs := t.regs, tim := t.tim, out := t.out } ∧ KeepsRegs [TIM_TOD_SNAP_DATA] s t)

/-- R374 and R376 to R380. -/
def Obligations.HousekeepingConversions : Prop :=
  (∀ (s : State) (d : Fin 8) (a b : Fin 65536), (d : Nat) < s.part.dies → s.rd PWR_STATUS_PARKED d = 0 →
    (s.seqSt d).urgent = none → Completes (.sensorSlot d a b) s fun t =>
      let k := b2n (s.seqSt d).second
      t.rd HKA_TEMP_TEMP d k = (a : Nat) ∧ t.rd HKA_TEMP_TEMP d (2 + k) = (b : Nat) ∧
      t.rd HKA_TEMP_TEMP d (1 - k) = s.rd HKA_TEMP_TEMP d (1 - k) ∧ t.rd HKA_TEMP_TEMP d (3 - k) = s.rd HKA_TEMP_TEMP d (3 - k) ∧
      (∀ i, i < 4 → t.rdS HKA_TEMP_TEMP d i ≤ t.rdS HKA_TEMP_MAX_TEMP d) ∧
      (∃ i, i < 4 ∧ t.rdS HKA_TEMP_MAX_TEMP d = t.rdS HKA_TEMP_TEMP d i) ∧
      t.seqSt d = { s.seqSt d with second := !(s.seqSt d).second } ∧
      t = { s with regs := t.regs, seqs := t.seqs, out := t.out } ∧ KeepsRegs [HKA_TEMP_TEMP, HKA_TEMP_MAX_TEMP] s t) ∧
  (∀ (s : State) (d : Fin 8), (d : Nat) < s.part.dies →
    let started := fun t : State => (t.seqSt d).pass = some { entries := s.seqEntries d } ∧ t.rd HKA_SEQ_STATUS_RUNNING d = 1 ∧
      t.rd HKA_SEQ_STATUS_ENTRY d = 0 ∧ t = { s with regs := t.regs, seqs := t.seqs, out := t.out } ∧
      KeepsRegs [HKA_SEQ_STATUS_RUNNING, HKA_SEQ_STATUS_ENTRY] s t
    (s.rd HKA_SEQ_CTRL_EN d = 1 → s.heldIdle d = false → (s.seqSt d).pass = none → (s.seqSt d).urgent = none →
      (∀ g : Fin 6, s.rd HKA_SEQ_CTRL_TRIG d = (g : Nat) → Completes (.seqTrigger d g) s started) ∧
      (s.rd HKA_SEQ_CTRL_TRIG d = 0 → Completes (.seqGo d) s started)) ∧
    (∀ g : Fin 6, s.rd HKA_SEQ_CTRL_TRIG d ≠ (g : Nat) → Completes (.seqTrigger d g) s (OnlyRegs [] s)) ∧
    (s.rd HKA_SEQ_CTRL_TRIG d ≠ 0 → Completes (.seqGo d) s (OnlyRegs [] s)) ∧
    (∀ (p : PassCfg) (e : Nat × Nat × Nat × Nat) (a b : Int), (s.seqSt d).pass = some p → (s.seqSt d).urgent = none →
      p.entries[p.next]? = some e → Completes (.hkConversion d a b) s fun t =>
        (e.1 ≠ 1 → t.rd HKA_RESULT_A d p.next = hkResult e.2.2.1 e.2.1 a) ∧
        (e.1 ≠ 0 → t.rd HKA_RESULT_B d p.next = hkResult e.2.2.2 e.2.1 b) ∧
        (t.seqSt d).pass = some { p with next := p.next + 1 } ∧
        t = { s with regs := t.regs, seqs := t.seqs, out := t.out } ∧
        KeepsRegs [HKA_RESULT_A, HKA_RESULT_B, HKA_SEQ_STATUS_ENTRY] s t) ∧
    (∀ p, (s.seqSt d).pass = some p → p.next < p.entries.length → Completes (.seqPassEnd d) s (OnlyRegs [] s)) ∧
    (∀ p, (s.seqSt d).pass = some p → p.entries.length ≤ p.next → s.rd HKA_SEQ_STATUS_PENDING d = 0 →
      s.rd HKA_SEQ_CTRL_TRIG d ≠ 5 → Completes (.seqPassEnd d) s fun t =>
        (t.seqSt d).pass = none ∧ t.rd HKA_SEQ_STATUS_RUNNING d = 0 ∧ t.rd HKA_EVENT_PASS_DONE d = 1 ∧
        t.rd HKA_SEQ_STATUS_PASS_COUNT d = (s.rd HKA_SEQ_STATUS_PASS_COUNT d + 1) % 65536 ∧
        t = { s with regs := t.regs, seqs := t.seqs, out := t.out } ∧
        KeepsRegs [HKA_SEQ_STATUS_RUNNING, HKA_EVENT_PASS_DONE, HKA_SEQ_STATUS_PASS_COUNT, HKA_SEQ_STATUS_PENDING] s t)) ∧
  (∀ (s : State) (d : Fin 8) (w : Word), (d : Nat) < s.part.dies →
    ((s.seqSt d).urgent = none → Completes (.urgentGo d w) s fun t =>
      t.seqSt d = { s.seqSt d with urgent := some (min 2 (bitsAt w.toNat 16 2), bitsAt w.toNat 15 1,
        min 23 (bitsAt w.toNat 0 5), min 23 (bitsAt w.toNat 8 5)) } ∧
      t = { s with regs := t.regs, seqs := t.seqs, out := t.out } ∧
      KeepsRegs [HKA_URGENT_MODE, HKA_URGENT_ALIGN, HKA_URGENT_INPUT_B, HKA_URGENT_INPUT_A] s t) ∧
    ((s.seqSt d).urgent.isSome = true → Completes (.urgentGo d w) s fun t => t.rd HKA_EVENT_URGENT_BUSY d = 1 ∧
      OnlyRegs [HKA_URGENT_MODE, HKA_URGENT_ALIGN, HKA_URGENT_INPUT_B, HKA_URGENT_INPUT_A, HKA_EVENT_URGENT_BUSY] s t) ∧
    (∀ (u : Nat × Nat × Nat × Nat) (a b : Int), (s.seqSt d).urgent = some u → (s.seqSt d).trigWait = false →
      Completes (.urgentDone d a b) s fun t =>
        (u.1 ≠ 1 → t.rd HKA_URGENT_RESULT_A d = hkResult u.2.2.1 u.2.1 a) ∧
        (u.1 ≠ 0 → t.rd HKA_URGENT_RESULT_B d = hkResult u.2.2.2 u.2.1 b) ∧ t.rd HKA_EVENT_URGENT_DONE d = 1 ∧
        t.seqSt d = { s.seqSt d with urgent := none } ∧ t = { s with regs := t.regs, seqs := t.seqs, out := t.out } ∧
        KeepsRegs [HKA_URGENT_RESULT_A, HKA_URGENT_RESULT_B, HKA_EVENT_URGENT_DONE] s t)) ∧
  (∀ s : State, Completes .syncInEdge s fun t => ∀ e c, e < s.part.dies → c < 16 →
    t.wchSt e c = if s.flag WCH_CH_CFG_SYNC_EN e c then { s.wchSt e c with group := 0, acc := 0, skip := 0 } else s.wchSt e c) ∧
  (∀ (s : State) (d : Fin 8), (d : Nat) < s.part.dies →
    (s.crown.token = some (d : Nat) → Completes (.syncOutGo d) s fun t =>
      t.seqSt d = { s.seqSt d with syncOut := true } ∧ t = { s with regs := t.regs, seqs := t.seqs, out := t.out } ∧
        KeepsRegs [] s t) ∧
    (s.crown.token ≠ some (d : Nat) → Completes (.syncOutGo d) s (OnlyRegs [] s)) ∧
    (s.crown.token = some (d : Nat) → (s.seqSt d).syncOut = true → Completes .syncOutPulse s fun t =>
      t.out = [.syncOut] ∧ t.seqSt d = { s.seqSt d with syncOut := false } ∧
        t = { s with regs := t.regs, seqs := t.seqs, out := t.out } ∧ KeepsRegs [] s t))

/-- R382, R383, R388, R390 and R391. What a stream delivers is `State.streamSample`. Log entry 63 DESIGN CHOICE. -/
def Obligations.WatchChannels : Prop :=
  ∀ (s : State) (d : Fin 8) (c : Fin 16), (d : Nat) < s.part.dies →
    (∀ w : Word, s.rd WCH_CH_CFG_EN d c = 0 → bit w.toNat 31 = true →
      let bad := 30 ≤ bitsAt w.toNat 10 5 ∨ 30 ≤ bitsAt w.toNat 5 5 ∨ s.rd WCH_CH_STEP_STEP d c < 65536
      (¬ bad → Completes (.wchChannelConfig d c false w) s fun t =>
        t.rd WCH_CH_CFG_EN d c = 1 ∧ t.wchSt d c = {} ∧ t.rd WCH_CH_CFG_FIR_SEL d c = bitsAt w.toNat 10 5 ∧
          t.rd WCH_CH_CFG_DEC d c = bitsAt w.toNat 16 4 ∧ t.rd WCH_CH_CFG_BIQ_SEL d c = bitsAt w.toNat 5 5 ∧ t.bus.last.code = 0) ∧
      (bad → Completes (.wchChannelConfig d c false w) s fun t =>
        t.rd WCH_CH_CFG_EN d c = 0 ∧ t.rd WCH_CFG_ERR_CFG_ERR d = 1 ∧ t.rd WCH_CFG_ERR_LAST_CH d = (c : Nat) ∧
          t = { s with regs := t.regs, bus := t.bus, out := t.out })) ∧
    (∀ w : Word,
      (s.rd WCH_CH_CFG_EN d c = 0 → Completes (.wchChannelConfig d c true w) s fun t =>
        t.rd WCH_CH_STEP_STEP d c = bitsAt w.toNat 0 24 ∧ t.bus.last.code = 0 ∧
          t = { s with regs := t.regs, bus := t.bus, out := t.out } ∧ KeepsRegs [WCH_CH_STEP_STEP] s t) ∧
      (s.rd WCH_CH_CFG_EN d c ≠ 0 → Completes (.wchChannelConfig d c true w) s fun t => t.bus.last.code = 2 ∧
        t = { s with regs := t.regs, bus := t.bus, out := t.out } ∧ KeepsRegs [] s t)) ∧
    (∀ (x : Int) (full : Bool),
      (s.rd WCH_CH_CFG_EN d c = 0 → Completes (.wchInputSample d c x full) s (OnlyRegs [] s)) ∧
      (s.rd WCH_CH_CFG_EN d c ≠ 0 → s.heldIdle d = true ∨ s.streamSample d c x = none →
        Completes (.wchInputSample d c x full) s (OnlyRegs [] s)) ∧
      (s.rd WCH_CH_CFG_EN d c ≠ 0 → s.heldIdle d = false → (s.streamSample d c x).isSome = true → full = true → Completes (.wchInputSample d c x full) s fun t =>
        t.rd WCH_CH_LOST_COUNT d c = min (s.rd WCH_CH_LOST_COUNT d c + 1) (2 ^ 32 - 1) ∧
          (t.rd WCH_STAT_EVENT_OVERLOAD d).testBit c = true ∧ OnlyRegs [WCH_CH_LOST_COUNT, WCH_STAT_EVENT_OVERLOAD] s t) ∧
      (∀ v, s.rd WCH_CH_CFG_EN d c ≠ 0 → s.heldIdle d = false → s.streamSample d c x = some v → full = false → Completes (.wchInputSample d c x full) s fun t =>
        (t.wchSt d c).fir = (clampInt (-8388608) 8388607 v :: (s.wchSt d c).fir).take (firLen (s.rd WCH_CH_CFG_FIR_SEL d c)) ∧
          (t.wchSt d c).group =
            (if s.rd WCH_CH_CFG_DEC d c + 1 ≤ (s.wchSt d c).group + 1 then 0 else (s.wchSt d c).group + 1) ∧
          (∀ e, e ≠ (c : Nat) → t.wchSt d e = s.wchSt d e) ∧ t = { s with regs := t.regs, wch := t.wch, out := t.out } ∧
          KeepsRegs [WCH_CH_OUT_OUT, WCH_CH_STATUS_OUT_COUNT, WCH_CH_STATUS_HIGH_DECL, WCH_CH_STATUS_LOW_DECL, WCH_EVENT_HIGH,
            WCH_EVENT_LOW, WCH_STAT_EVENT_SAT] s t)) ∧
    Completes (.wchSync d) s fun t =>
      (∀ e, e < 16 → t.wchSt d e =
        if s.flag WCH_CH_CFG_SYNC_EN d e then { s.wchSt d e with group := 0, acc := 0, skip := 0 } else s.wchSt d e) ∧
      t = { s with regs := t.regs, wch := t.wch, out := t.out } ∧ KeepsRegs [] s t

/-- R396, R398, R400 to R405 and R408. One codeword leaves for each received. Log entries 66, 175 DESIGN CHOICE. -/
def Obligations.PairLineModem : Prop :=
  (∀ s : State, s.plmRuns = true → s.plmExchange = true → s.plmState < 3 → Completes .plmP1Send s fun t =>
    t.out = [.plmProbe] ∧ t.plmState = 2 ∧ OnlyRegs [PLM_STATUS_STATE] s t) ∧
  (∀ (s : State) (r : PlmProbe) (k p : Nat), s.plmRuns = true → s.plmState ≠ 5 → s.plmState ≠ 6 → r.otherRole = true →
    (if s.plmExchange then s.plmPickK r else if s.plmKs.contains (r.sentK : Nat) then some (r.sentK : Nat) else none) = some k →
    mostBits (plmAdmitted (plmSnr10 r.symbols.decided r.symbols.slicer) (s.rd PLM_LIMITS_TARGET pkg)) = some p → Completes (.plmHandshake r) s fun t =>
      t.plmState = 5 ∧ t.rd PLM_STATUS_K pkg = k % 128 ∧ t.plmRx = p ∧ t.plmTx = min 5 (r.farSelect : Nat) ∧
        t.rd PLM_STATUS_PEER_VALID pkg = 1 ∧ t.rd PLM_PEER_LO_NODE_ID pkg = r.peer.toNat % 2 ^ 32 ∧
        t.rd PLM_PEER_HI_NODE_ID pkg = r.peer.toNat / 2 ^ 32 ∧ t.rd PLM_EVENT_UP pkg = 1 ∧
        t.rdS PLM_TX_LEVEL_APPLIED pkg = clampInt (-256) 255 (s.rdS PLM_TX_LEVEL_LEVEL pkg - s.plmMaskSteps k) ∧
        t = { s with regs := t.regs, plm := t.plm, out := t.out }) ∧
  (∀ s : State, s.plmState = 5 →
    let sent := fun (p : Nat) (t : State) => t.out = [.plmPacket 4 [BitVec.ofNat 8 p]] ∧
      t.plm = { pushPacket s.plm 4 [BitVec.ofNat 8 p] with sentSel := some p } ∧ t = { s with regs := t.regs, plm := t.plm, out := t.out } ∧ KeepsRegs [] s t
    let lower := (List.range 6).filter fun p => decide ((plmProfile p).1 < (plmProfile s.plmRx).1)
    let adm := plmAdmitted s.plmSnr (s.rd PLM_LIMITS_TARGET pkg)
    let low := s.rdS PLM_QUALITY_MARGIN pkg < (s.rd PLM_LIMITS_TARGET pkg : Int) - 30
    let down := fun (fast : Bool) (t : State) =>
      t.plmState = (if fast && s.flag PLM_CTRL_FAST_EN pkg then 6
        else if s.plmRuns then (if s.plmExchange then 2 else 1) else 0) ∧ t.rd PLM_EVENT_DOWN pkg = 1 ∧
      t.plm = { s.plm with part := [], resync := true, sentSel := none, gotSel := none, line := [], marks := [] } ∧
      t = { s with regs := t.regs, plm := t.plm, out := t.out } ∧ KeepsRegs [PLM_EVENT_DOWN, PLM_CNT_COUNT, PLM_STATUS_STATE] s t
    (∀ y z : List ℚ, Completes (.plmQualityUpdate y z) s fun t =>
      t.rdS PLM_QUALITY_MARGIN pkg = clampInt (-32768) 32767 (plmSnr10 y z - (plmProfile s.plmRx).2) ∧
        t.rd PLM_QUALITY_EVM pkg = plmEvm y z ∧ OnlyRegs [PLM_QUALITY_MARGIN, PLM_QUALITY_EVM] s t) ∧
    (Completes .statusPacketSend s fun t =>
      let bytes := bytesBE 2 (s.rd PLM_QUALITY_MARGIN pkg) ++ bytesBE 2 (s.rd PLM_QUALITY_EVM pkg)
      t.out = [.plmPacket 2 bytes] ∧ t.plm = pushPacket s.plm 2 bytes ∧
        t = { s with regs := t.regs, plm := t.plm, out := t.out } ∧ KeepsRegs [] s t) ∧
    (low → ∀ p, mostBits (lower.filter adm.contains) = some p → Completes .plmDownshift s (sent p)) ∧
    (low → ∀ p, mostBits (lower.filter adm.contains) = none → mostBits lower = some p → Completes .plmDownshift s (sent p)) ∧
    (¬ low ∨ lower = [] → Completes .plmDownshift s (OnlyRegs [] s)) ∧
    (∀ p, mostBits adm = some p → s.rd PLM_CTRL_UPSHIFT_EN pkg = 1 → (plmProfile s.plmRx).1 < (plmProfile p).1 →
      Completes .plmUpshift s (sent p)) ∧
    (∀ c : PlmDown, Completes (.plmLinkDown c) s (down true)) ∧ Completes .plmRetrain s (down false) ∧
    (∀ p : Fin 8, (p : Nat) < 6 → Completes (.selectPacket p) s fun t => t.plm = { s.plm with gotSel := some (p : Nat) } ∧
      t = { s with regs := t.regs, plm := t.plm, out := t.out } ∧ KeepsRegs [] s t) ∧
    (∀ p : Fin 8, 6 ≤ (p : Nat) → Completes (.selectPacket p) s (OnlyRegs [] s)) ∧
    (∀ info check : List Byte, s.plm.sentSel = none → s.plm.gotSel = none →
      let code := plmCode (s.rd PLM_STATUS_CODE_TX pkg)
      let own := nextInfo s.plm code.1
      (s.plmDecode info check = none → Completes (.plmCodeword info check) s fun t =>
        t.plm = { afterInfo s.plm code.1 with part := [], resync := true } ∧
        t.rd PLM_CNT_COUNT pkg 1 = min (s.rd PLM_CNT_COUNT pkg 1 + 1) (2 ^ 32 - 1) ∧
        t.out = [.plmCodeword (own ++ rsCheck code.2 own)] ∧
        t = { s with regs := t.regs, plm := t.plm, out := t.out } ∧ KeepsRegs [PLM_CNT_COUNT] s t) ∧
      ∀ r, s.plmDecode info check = some r → Completes (.plmCodeword info check) s fun t =>
        let all := s.plmBytes r.1
        t.out = (plmParse all.length all).1.map (fun p => .plmReceived p.1 p.2) ++ [.plmCodeword (own ++ rsCheck code.2 own)] ∧
          t.plm.part = (plmParse all.length all).2.1 ∧ t.plm.line = s.plm.line.drop (code.1 - 1) ∧
          t = { s with regs := t.regs, plm := t.plm, out := t.out } ∧ KeepsRegs [PLM_CNT_COUNT] s t) ∧
    (∀ (info check : List Byte) (p : Nat), p < 6 →
      (s.plm.gotSel = some p → Completes (.plmCodeword info check) s fun t =>
        t.plmTx = p ∧ t.rd PLM_EVENT_SHIFT pkg = 1 ∧ t.plm.gotSel = none) ∧
      (s.plm.sentSel = some p → Completes (.plmCodeword info check) s fun t =>
        t.plmRx = p ∧ t.rd PLM_EVENT_SHIFT pkg = 1 ∧ t.plm.sentSel = none))) ∧
  (∀ (s : State) (c : Instr), s.plmState ≠ 5 →
    ((∃ y z, c = .plmQualityUpdate y z) ∨ c = .statusPacketSend ∨ c = .plmDownshift ∨ c = .plmUpshift ∨
      (∃ x, c = .plmLinkDown x) ∨ c = .plmRetrain ∨ (∃ p, c = .selectPacket p) ∨ ∃ i k, c = .plmCodeword i k) →
    Completes c s (OnlyRegs [] s)) ∧
  (∀ (s : State) (r : PlmProbe), s.plmState = 6 →
    (Completes (.plmFastRetrainEnd false r) s fun t =>
      t.plmState = (if s.plmRuns then (if s.plmExchange then 2 else 1) else 0) ∧ OnlyRegs [PLM_STATUS_STATE] s t) ∧
    ∀ p, mostBits (plmAdmitted (plmSnr10 r.symbols.decided r.symbols.slicer) (s.rd PLM_LIMITS_TARGET pkg)) = some p →
      Completes (.plmFastRetrainEnd true r) s fun t =>
      t.plmState = 5 ∧ t.plmRx = p ∧ t.plmTx = min 5 (r.farSelect : Nat) ∧ t.rd PLM_EVENT_UP pkg = 1 ∧
        t.rdS PLM_TX_LEVEL_APPLIED pkg = clampInt (-256) 255 (s.rdS PLM_TX_LEVEL_LEVEL pkg - s.plmMaskSteps (s.rd PLM_STATUS_K pkg)) ∧
        t = { s with regs := t.regs, plm := t.plm, out := t.out }) ∧
  (∀ (s : State) (m : Int) (evm : Fin 65536), Completes (.statusPacket m evm) s fun t =>
    t.rdS PLM_FAR_QUALITY_MARGIN pkg = clampInt (-32768) 32767 m ∧ t.rd PLM_FAR_QUALITY_EVM pkg = (evm : Nat) ∧
      OnlyRegs [PLM_FAR_QUALITY_MARGIN, PLM_FAR_QUALITY_EVM] s t) ∧
  (∀ (s : State) (bs : List Byte),
    (s.plm.rx.length < 4 → Completes (.hostPacket bs) s fun t =>
      t.plm = { s.plm with rx := s.plm.rx ++ [(3, bs)] } ∧ t.rd PLM_EVENT_RX_PACKET pkg = 1 ∧
        t.rd PLM_HOST_CTRL_RX_VALID pkg = 1 ∧ t.rd PLM_HOST_CTRL_RX_FILL pkg = s.plm.rx.length + 1 ∧
        t = { s with regs := t.regs, plm := t.plm, out := t.out } ∧
        KeepsRegs [PLM_EVENT_RX_PACKET, PLM_HOST_CTRL_RX_VALID, PLM_HOST_CTRL_RX_FILL, PLM_HOST_CTRL_RX_LEN] s t) ∧
    (4 ≤ s.plm.rx.length → Completes (.hostPacket bs) s fun t => t.rd PLM_EVENT_RX_DROP pkg = 1 ∧
      OnlyRegs [PLM_CNT_COUNT, PLM_EVENT_RX_DROP] s t)) ∧
  (∀ s : State, Completes .plmRxAck s fun t => t.plm = { s.plm with rx := s.plm.rx.drop 1 } ∧
    t.rd PLM_HOST_CTRL_RX_FILL pkg = (s.plm.rx.length - 1) % 8 ∧ t = { s with regs := t.regs, plm := t.plm, out := t.out } ∧
    KeepsRegs [PLM_HOST_CTRL_RX_VALID, PLM_HOST_CTRL_RX_FILL, PLM_HOST_CTRL_RX_LEN] s t) ∧
  (∀ s : State, s.rd PLM_HOST_CTRL_TX_BUSY pkg = 0 →
    let bytes := (s.plm.txWindow.flatMap fun w => bytesLE 4 w).take (min 1024 (s.rd PLM_HOST_CTRL_TX_LEN pkg))
    let type := if s.flag PLM_HOST_CTRL_TX_TYPE pkg then 1 else 3
    (s.plmState = 5 → Completes .plmTxGo s fun t => t.out = [.plmPacket type bytes] ∧
      t.plm = { pushPacket s.plm type bytes with tx := none } ∧
      t.rd PLM_HOST_CTRL_TX_BUSY pkg = 0 ∧ t.rd PLM_EVENT_TX_DONE pkg = 1 ∧
      t = { s with regs := t.regs, plm := t.plm, out := t.out } ∧ KeepsRegs [PLM_HOST_CTRL_TX_BUSY, PLM_EVENT_TX_DONE] s t) ∧
    (s.plmState ≠ 5 → Completes .plmTxGo s fun t => t.plm = { s.plm with tx := some (type, bytes) } ∧
      t.rd PLM_HOST_CTRL_TX_BUSY pkg = 1 ∧ t = { s with regs := t.regs, plm := t.plm, out := t.out } ∧
      KeepsRegs [PLM_HOST_CTRL_TX_BUSY] s t))

/-- R106, R110 to R113, R121 to R123 and R125. -/
def Obligations.ConverterSetsAndDelays : Prop :=
  (∀ s : State, Completes .synthSwitch s fun t => (∀ e, e < s.part.dies → s.rd CNV_STATUS_SOURCE e ≠ 0 →
    t.rd CNV_EVENT_SCLK_SWITCH e = 1 ∧ t.rd CNV_STATUS_SYNTH_STANDBY e = 1) ∧
    OnlyRegs [CNV_EVENT_SCLK_SWITCH, CNV_STATUS_SYNTH_STANDBY] s t) ∧
  (∀ (s : State) (d : Fin 8), (d : Nat) < s.part.dies →
    let bus := fun t : State => t = { s with regs := t.regs, bus := t.bus, out := t.out }
    let refused := fun t : State => t.bus.last.code = 2 ∧ bus t ∧ KeepsRegs [] s t
    (∀ w : Word,
      (s.adcOn d = true → Completes (.pathSkewWrite d false w) s refused) ∧
      (s.dacOn d = true → Completes (.pathSkewWrite d true w) s refused) ∧
      (s.adcOn d = false → Completes (.pathSkewWrite d false w) s fun t =>
        t.rd CNV_RX_PATH_SKEW_YQ d = bitsAt w.toNat 24 8 ∧ t.rd CNV_RX_PATH_SKEW_YI d = bitsAt w.toNat 16 8 ∧
        t.rd CNV_RX_PATH_SKEW_XQ d = bitsAt w.toNat 8 8 ∧ t.rd CNV_RX_PATH_SKEW_XI d = bitsAt w.toNat 0 8 ∧
        t.bus.last.code = 0 ∧ bus t ∧
        KeepsRegs [CNV_RX_PATH_SKEW_YQ, CNV_RX_PATH_SKEW_YI, CNV_RX_PATH_SKEW_XQ, CNV_RX_PATH_SKEW_XI] s t) ∧
      (s.dacOn d = false → Completes (.pathSkewWrite d true w) s fun t =>
        t.rd CNV_TX_PATH_SKEW_YQ d = bitsAt w.toNat 24 8 ∧ t.rd CNV_TX_PATH_SKEW_YI d = bitsAt w.toNat 16 8 ∧
        t.rd CNV_TX_PATH_SKEW_XQ d = bitsAt w.toNat 8 8 ∧ t.rd CNV_TX_PATH_SKEW_XI d = bitsAt w.toNat 0 8 ∧
        t.bus.last.code = 0 ∧ bus t ∧
        KeepsRegs [CNV_TX_PATH_SKEW_YQ, CNV_TX_PATH_SKEW_YI, CNV_TX_PATH_SKEW_XQ, CNV_TX_PATH_SKEW_XI] s t)) ∧
    (∀ (h : Bool) (i : Fin 668) (w : Word),
      (s.flag CNV_COEF_CTRL_OWNER d = h → s.rd CNV_COEF_CTRL_SWITCH_PENDING d = 0 → Completes (.coefWindowWrite d h i w) s fun t =>
        t.coefRd d (s.inactiveSet d) i = (if (i : Nat) < 640 then w.toNat else w.toNat % 1024) ∧
        (∀ set j, ¬ (set = s.inactiveSet d ∧ j = (i : Nat)) → t.coefRd d set j = s.coefRd d set j) ∧ t.bus.last.code = 0 ∧
        t = { s with regs := t.regs, coef := t.coef, bus := t.bus, out := t.out } ∧ KeepsRegs [] s t) ∧
      (s.flag CNV_COEF_CTRL_OWNER d = !h ∨ s.rd CNV_COEF_CTRL_SWITCH_PENDING d ≠ 0 →
        Completes (.coefWindowWrite d h i w) s fun t => t.rd CNV_COEF_CTRL_WR_ERR d = 1 ∧ t.bus.last.code = 2 ∧ bus t ∧
          KeepsRegs [CNV_COEF_CTRL_WR_ERR] s t)) ∧
    (∀ c o : Bool,
      (s.rd CNV_COEF_CTRL_SWITCH_PENDING d = 0 → Completes (.coefSwitch d c o) s fun t =>
        t.rd CNV_COEF_CTRL_COPY_BACK d = b2n c ∧ t.rd CNV_COEF_CTRL_OWNER d = b2n o ∧ t.rd CNV_COEF_CTRL_SWITCH_PENDING d = 1 ∧
        OnlyRegs [CNV_COEF_CTRL_COPY_BACK, CNV_COEF_CTRL_OWNER, CNV_COEF_CTRL_SWITCH_PENDING] s t) ∧
      (s.rd CNV_COEF_CTRL_SWITCH_PENDING d ≠ 0 → Completes (.coefSwitch d c o) s fun t =>
        t.rd CNV_EVENT_SWITCH_ERR d = 1 ∧ t.cnvSt d = { s.cnvSt d with ownerNext := some o } ∧
        t = { s with regs := t.regs, cnv := t.cnv, out := t.out } ∧ KeepsRegs [CNV_COEF_CTRL_COPY_BACK, CNV_EVENT_SWITCH_ERR] s t)) ∧
    (s.rd CNV_COEF_CTRL_SWITCH_PENDING d ≠ 0 → s.rd CNV_STATUS_SCLK_LOCK d ≠ 0 → (s.cnvSt d).saveDue = false →
      (s.cnvSt d).restoring = false → (s.cnvSt d).restoreDue = false →
      Completes (.coefSwap d) s fun t =>
        t.activeSet d = s.inactiveSet d ∧ t.rd CNV_COEF_CTRL_SWITCH_PENDING d = 0 ∧
        (∀ o, (s.cnvSt d).ownerNext = some o → t.rd CNV_COEF_CTRL_OWNER d = b2n o) ∧ (t.cnvSt d).ownerNext = none ∧
        t = { s with regs := t.regs, coef := t.coef, cnv := t.cnv, out := t.out } ∧
        KeepsRegs [CNV_COEF_CTRL_ACTIVE_SET, CNV_COEF_CTRL_SWITCH_PENDING, CNV_COEF_CTRL_OWNER, CNV_EVENT_CLAMP] s t) ∧
    (s.rd CNV_STATUS_SCLK_LOCK d = 0 → Completes (.coefSwap d) s (OnlyRegs [] s)) ∧
    (∀ (n : Fin 128) (f : Fin 1024),
      (s.isActive d = true → s.rd CNV_RX_DELAY_WHOLE d ≠ (n : Nat) → Completes (.delayWrite d false n f) s refused) ∧
      (s.isActive d = false ∨ s.rd CNV_RX_DELAY_WHOLE d = (n : Nat) → Completes (.delayWrite d false n f) s fun t =>
        t.rd CNV_RX_DELAY_WHOLE d = (n : Nat) ∧ t.rd CNV_RX_DELAY_FINE d = (f : Nat) ∧ t.bus.last.code = 0 ∧ bus t ∧
          KeepsRegs [CNV_RX_DELAY_WHOLE, CNV_RX_DELAY_FINE, CNV_STATUS_FINE_SLEWING] s t)) ∧
    (Completes (.fineSlewStep d) s fun t =>
      t.cnvSt d = { s.cnvSt d with
        fineRx := slewStep (s.cnvSt d).fineRx (s.rdS CNV_RX_DELAY_FINE d)
        fineTx := slewStep (s.cnvSt d).fineTx (s.rdS CNV_TX_DELAY_FINE d) } ∧
      t = { s with regs := t.regs, cnv := t.cnv, out := t.out } ∧ KeepsRegs [CNV_STATUS_FINE_SLEWING] s t) ∧
    (∀ tones : List (List (Cpx × Cpx)),
      let e := seamEstimate tones
      let limit : Nat := if s.rd CAL_STATUS_SEAM_LO_STATE d = 1 then 25000 else 50 * s.rd CAL_LIMITS_1_SEAM_PLAUS d
      let shown := clampInt (-32768) 32767 (Arith.round e.1)
      (s.lowerPresent d = false → Completes (.seamSkewEstimate d tones) s (OnlyRegs [] s)) ∧
      (s.lowerPresent d = true → e.2 < 1 / 2 ∨ (limit : ℚ) < |e.1| → Completes (.seamSkewEstimate d tones) s fun t =>
        t.rd CAL_SEAM_LO_VALID d = 0 ∧ t.rd CAL_SEAM_HI_VALID (d - 1) = 0 ∧ t.rdS CAL_SEAM_LO_TAU d = shown ∧ t.rd CAL_EVENT_REJECT d = 1 ∧
        t.rd CAL_REJECTS_COUNT d = min (s.rd CAL_REJECTS_COUNT d + 1) (2 ^ 32 - 1) ∧
        OnlyRegs [CAL_SEAM_LO_VALID, CAL_SEAM_LO_TAU, CAL_SEAM_LO_RHO, CAL_SEAM_HI_VALID, CAL_SEAM_HI_TAU, CAL_SEAM_HI_RHO,
          CAL_REJECTS_COUNT, CAL_EVENT_REJECT] s t) ∧
      (s.lowerPresent d = true → 1 / 2 ≤ e.2 → |e.1| ≤ (limit : ℚ) → Completes (.seamSkewEstimate d tones) s fun t =>
        t.rd CAL_SEAM_LO_VALID d = 1 ∧ t.rdS CAL_SEAM_LO_TAU d = shown ∧ t.rd CAL_SEAM_HI_VALID (d - 1) = 1 ∧
        t.rdS CAL_SEAM_HI_TAU (d - 1) = shown ∧
        (s.rd CAL_CTRL_SEAM_EN d ≠ 0 → s.rd CAL_SEAM_CTRL_HOLD d = 0 → s.lowerActive d = true →
          s.rd CAL_STATUS_SEAM_LO_STATE d = 2 →
          t.rdS CNV_RX_DELAY_FINE d = clampInt (-512) 511 (s.rdS CNV_RX_DELAY_FINE d + s.trackStep d e.1)))) ∧
    ∀ tau : Int, Completes (.txSeamReport d tau) s fun t =>
      t.rd CAL_TX_SEAM_LO_VALID d = 1 ∧ t.rdS CAL_TX_SEAM_LO_TAU d = clampInt (-32768) 32767 tau ∧
      (t.cnvSt d).txLast = some s.time.mf ∧
      t.rdS CNV_TX_DELAY_FINE d =
        (if s.flag CAL_CTRL_TX_SEAM_EN d && s.lowerActive d && !s.flag CAL_SEAM_CTRL_HOLD d then
          clampInt (-512) 511 (s.rdS CNV_TX_DELAY_FINE d + s.trackStep d tau) else s.rdS CNV_TX_DELAY_FINE d) ∧
      t = { s with regs := t.regs, cnv := t.cnv, out := t.out } ∧
      KeepsRegs [CAL_TX_SEAM_LO_VALID, CAL_TX_SEAM_LO_TAU, CAL_EVENT_SKEW_ALARM, CNV_TX_DELAY_FINE, CAL_EVENT_TRIM_LIMIT,
        CNV_STATUS_FINE_SLEWING] s t)

/-- R111, R113, R116 to R120, R126 to R129 and R412. Log entries 167 DESIGN CHOICE, 169 DEDUCED. -/
def Obligations.CalibrationPassesAndRecords : Prop :=
  ∀ (s : State) (d : Fin 8), (d : Nat) < s.part.dies →
    (∀ scope : Fin 4,
      (s.rd CAL_STATUS_FG_STATE d = 1 → Completes (.fgStart d scope) s (OnlyRegs [CAL_CTRL_FG_SCOPE] s)) ∧
      (s.rd CAL_STATUS_FG_STATE d ≠ 1 → s.adcOn d = true → Completes (.fgStart d scope) s fun t =>
        t.rd CAL_STATUS_FG_STATE d = 4 ∧ OnlyRegs [CAL_CTRL_FG_SCOPE, CAL_STATUS_FG_STATE] s t) ∧
      (s.rd CAL_STATUS_FG_STATE d ≠ 1 → s.adcOn d = false → s.dacOn d = false → Completes (.fgStart d scope) s fun t =>
        t.rd CAL_STATUS_FG_STATE d = 1 ∧ t.rd CNV_STATUS_FG_ACTIVE d = 1 ∧
        t.cnvSt d = { s.cnvSt d with fgScope := if (scope : Nat) = 3 then 0 else (scope : Nat), fgFailed := 0 } ∧
        t = { s with regs := t.regs, cnv := t.cnv, out := t.out } ∧
        KeepsRegs [CAL_CTRL_FG_SCOPE, CAL_STATUS_FG_STATE, CNV_STATUS_FG_ACTIVE] s t)) ∧
    (∀ r : FgResult, s.rd CAL_STATUS_FG_STATE d = 1 →
      let scope := (s.cnvSt d).fgScope
      let a := s.inactiveSet d
      let done := fun t : State => t.rd CAL_STATUS_FG_STATE d = 2 ∧ t.rd CAL_EVENT_FG_DONE d = 1 ∧
        t.rd CNV_STATUS_FG_ACTIVE d = 0 ∧
        (scope ≠ 2 → t.rd CNV_RX_PATH_SKEW_XI d = bitsAt r.rxSkew.toNat 0 8 ∧
          t.rd CNV_TX_PATH_SKEW_XI d = s.rd CNV_TX_PATH_SKEW_XI d) ∧
        (scope = 2 → t.rd CNV_TX_PATH_SKEW_XI d = bitsAt r.txSkew.toNat 0 8 ∧
          t.rd CNV_RX_PATH_SKEW_XI d = s.rd CNV_RX_PATH_SKEW_XI d)
      (passInLimits s d scope r = true → firmwareOwns s d = true → s.startingUp d = false → s.rd CNV_STATUS_SCLK_LOCK d = 0 →
        Completes (.fgPassEnd d r) s fun t => done t ∧ t.rd CNV_COEF_CTRL_SWITCH_PENDING d = 1 ∧
          (∀ j, (∀ e ∈ r.words, (e.1 : Nat) ≠ j ∨ passFinds scope j = false) → t.coefRd d a j = s.coefRd d a j) ∧
          (∀ e, r.words = [e] → passFinds scope e.1 = true →
            t.coefRd d a e.1 = passWord scope e.1 (s.coefRd d a e.1) e.2.toNat)) ∧
      (passInLimits s d scope r = true → firmwareOwns s d = false → s.startingUp d = false →
        Completes (.fgPassEnd d r) s fun t => done t ∧ t.rd CNV_COEF_CTRL_WR_ERR d = 1 ∧ t.coef = s.coef ∧
          t.rd CNV_COEF_CTRL_SWITCH_PENDING d = s.rd CNV_COEF_CTRL_SWITCH_PENDING d) ∧
      (passInLimits s d scope r = false → (s.cnvSt d).fgFailed + 1 ≤ s.rd CAL_CTRL_FG_RETRIES d → Completes (.fgPassEnd d r) s fun t =>
        t.cnvSt d = { s.cnvSt d with fgFailed := (s.cnvSt d).fgFailed + 1 } ∧
        t = { s with regs := t.regs, cnv := t.cnv, out := t.out } ∧ KeepsRegs [] s t) ∧
      (passInLimits s d scope r = false → s.rd CAL_CTRL_FG_RETRIES d < (s.cnvSt d).fgFailed + 1 → Completes (.fgPassEnd d r) s fun t =>
        t.rd CAL_STATUS_FG_STATE d = 3 ∧ t.rd CAL_EVENT_FG_FAIL d = 1 ∧ t.out = [.fault d (cnvFault 1 1)] ∧
        OnlyRegs [CAL_STATUS_FG_STATE, CNV_STATUS_FG_ACTIVE, CAL_EVENT_FG_FAIL, CAL_EVENT_FG_DONE] s t)) ∧
    (∀ e : BgEstimate, e.clips = 0 → e.dac = false → e.low = false → s.rd CAL_CTRL_BG_ADC_EN d ≠ 0 →
      bit (s.rd CNV_CTRL_ADC_EN d) e.conv = true → (s.cnvSt d).verifying = false →
      (s.inValueLimit d false e.term e.value = true → -32768 ≤ e.value → e.value ≤ 32767 →
        ((e.value - s.termRd d (s.inactiveSet d) false e.conv e.sub e.term).natAbs : ℚ) ≤ stepLimit e.term →
        (firmwareOwns s d = false → Completes (.bgCalUpdate d e) s fun t => t.rd CNV_COEF_CTRL_WR_ERR d = 1 ∧
          t = { s with regs := t.regs, calRej := t.calRej, out := t.out } ∧ KeepsRegs [CNV_COEF_CTRL_WR_ERR] s t) ∧
        (firmwareOwns s d = true → Completes (.bgCalUpdate d e) s fun t =>
          t.termRd d (s.inactiveSet d) false e.conv e.sub e.term = e.value ∧
          t = { s with regs := t.regs, coef := t.coef, calRej := t.calRej, calRun := t.calRun, out := t.out } ∧
          KeepsRegs [CAL_STATUS_BG_CONVERGED] s t)) ∧
      (s.inValueLimit d false e.term e.value = false → Completes (.bgCalUpdate d e) s fun t =>
        t.rd CAL_REJECTS_COUNT d = min (s.rd CAL_REJECTS_COUNT d + 1) (2 ^ 32 - 1) ∧ t.rd CAL_EVENT_REJECT d = 1 ∧
          t = { s with regs := t.regs, calRej := t.calRej, calRun := t.calRun, out := t.out } ∧
          KeepsRegs [CAL_REJECTS_COUNT, CAL_EVENT_REJECT, CAL_FAIL_WHERE_TERM, CAL_FAIL_WHERE_KIND, CAL_FAIL_WHERE_CONVERTER,
            CAL_FAIL_WHERE_SUB, CAL_EVENT_SUB_FAIL] s t)) ∧
    (s.rd CAL_REC_CTRL_BUSY d ≠ 0 →
      let refused := fun t : State => t.bus.last.code = 2 ∧ t = { s with regs := t.regs, bus := t.bus, out := t.out } ∧ KeepsRegs [] s t
      Completes (.calSave d) s refused ∧ Completes (.calRestore d) s refused) ∧
    (s.rd CAL_REC_CTRL_BUSY d = 0 →
      (s.rd CNV_COEF_CTRL_SWITCH_PENDING d ≠ 0 → Completes (.calSave d) s fun t => t.rd CAL_REC_CTRL_BUSY d = 1 ∧
        t.cnvSt d = { s.cnvSt d with saveDue := true } ∧ t.calWin = s.calWin ∧ t.bus.last.code = 0) ∧
      (s.rd CNV_COEF_CTRL_SWITCH_PENDING d = 0 → Completes (.calSave d) s fun t => t.rd CAL_REC_CTRL_BUSY d = 1 ∧
        t.cnvSt d = { s.cnvSt d with saveDue := false, recResult := some recSaved } ∧
        (∀ w, w < 1024 → t.winRd d w = natLE (((s.recordBody d ++ bytesLE 4 (crc32c (s.recordBody d))).drop (4 * w)).take 4)) ∧
        t = { s with regs := t.regs, cnv := t.cnv, calWin := t.calWin, bus := t.bus, out := t.out } ∧
        KeepsRegs [CAL_REC_CTRL_BUSY] s t) ∧
      (s.rd CNV_COEF_CTRL_SWITCH_PENDING d ≠ 0 → s.startingUp d = false → Completes (.calRestore d) s fun t =>
        t.rd CAL_REC_CTRL_BUSY d = 1 ∧ t.cnvSt d = { s.cnvSt d with restoreDue := true } ∧ t.coef = s.coef ∧
        t.bus.last.code = 0) ∧
      (∀ n, s.rd CNV_COEF_CTRL_SWITCH_PENDING d = 0 → s.startingUp d = false → s.recordReason d (s.winBytes d) = some n → Completes (.calRestore d) s fun t =>
        t.rd CAL_REC_CTRL_REASON d = n ∧ t.rd CAL_EVENT_REC_REFUSED d = 1 ∧ t.rd CAL_REC_CTRL_BUSY d = 1 ∧
        t.cnvSt d = { s.cnvSt d with recResult := some recRefused } ∧
        t = { s with regs := t.regs, cnv := t.cnv, bus := t.bus, out := t.out } ∧
        KeepsRegs [CAL_REC_CTRL_BUSY, CAL_REC_CTRL_REASON, CAL_EVENT_REC_REFUSED] s t) ∧
      (s.rd CNV_COEF_CTRL_SWITCH_PENDING d = 0 → s.startingUp d = false → s.recordReason d (s.winBytes d) = none →
        (s.rd CNV_STATUS_SCLK_LOCK d = 0 → Completes (.calRestore d) s fun t =>
          (t.cnvSt d).restoring = true ∧ (t.cnvSt d).verifying = true ∧ t.rd CNV_COEF_CTRL_SWITCH_PENDING d = 1 ∧
          t.activeSet d = s.activeSet d ∧ ∀ w, w < 668 → t.coefRd d (s.inactiveSet d) w = recWord (s.winBytes d) w) ∧
        (s.rd CNV_STATUS_SCLK_LOCK d ≠ 0 → Completes (.calRestore d) s fun t =>
          t.rd CAL_EVENT_REC_RESTORED d = 1 ∧ (t.cnvSt d).recResult = some recRestored ∧ (t.cnvSt d).verifying = true ∧
          t.rd CNV_COEF_CTRL_SWITCH_PENDING d = 0 ∧ t.activeSet d = s.inactiveSet d ∧
          ∀ w, w < 668 → t.coefRd d (s.inactiveSet d) w = recWord (s.winBytes d) w))) ∧
    (∀ r, (s.cnvSt d).recResult = some r → r < 16 → Completes (.calRecordDone d) s fun t =>
      t.rd CAL_REC_CTRL_BUSY d = 0 ∧ t.rd CAL_REC_CTRL_RESULT d = r ∧ (r = recSaved → t.rd CAL_EVENT_REC_SAVED d = 1) ∧
        t.cnvSt d = { s.cnvSt d with recResult := none } ∧ t = { s with regs := t.regs, cnv := t.cnv, out := t.out } ∧
        KeepsRegs [CAL_REC_CTRL_BUSY, CAL_REC_CTRL_RESULT, CAL_EVENT_REC_SAVED] s t) ∧
    ((s.cnvSt d).verifying = true → (s.cnvSt d).verifyBad = true → Completes (.calVerifyEnd d) s fun t =>
      t.rd CNV_CTRL_ADC_EN d = 0 ∧ t.rd CNV_CTRL_DAC_EN d = 0 ∧ t.rd CAL_EVENT_VERIFY_FAIL d = 1 ∧
        t.rd CAL_REC_CTRL_RESULT d = recVerifyFail ∧ t.rd CAL_STATUS_FG_STATE d = 1 ∧ t.rd BUP_STATUS_WARM d = 0) ∧
    ((s.cnvSt d).verifying = true → (s.cnvSt d).verifyBad = false → Completes (.calVerifyEnd d) s fun t =>
      t.cnvSt d = { s.cnvSt d with verifying := false } ∧ t = { s with regs := t.regs, cnv := t.cnv, out := t.out } ∧
        KeepsRegs [] s t) ∧
    (s.startingUp d = true → s.rd BUP_STATUS_REC_WAITING d ≠ 0 → Completes (.recWaitExpire d) s fun t =>
      t.rd BUP_STATUS_REC_WAITING d = 0 ∧ t.rd BUP_STATUS_WARM d = 0 ∧ t.rd CAL_STATUS_FG_STATE d = 1 ∧
        t.rd CNV_STATUS_FG_ACTIVE d = 1 ∧ t.cnvSt d = { s.cnvSt d with fgScope := 0, fgFailed := 0 } ∧
        t = { s with regs := t.regs, cnv := t.cnv, out := t.out } ∧
        KeepsRegs [BUP_STATUS_REC_WAITING, BUP_STATUS_WARM, CAL_STATUS_FG_STATE, CNV_STATUS_FG_ACTIVE] s t)

/-- R130, R132, R136, R138, R139, R141, R143, R144, R147 to R150, R156 and R162. How a block comes from the raw samples is
`State.fdeInput`. Log entry 170 DESIGN CHOICE. -/
def Obligations.ReceiveArms : Prop :=
  ∀ (s : State) (d i : Fin 8), (d : Nat) < s.part.dies →
    let a := s.rxArm d i
    let arms := fun t : State => t = { s with regs := t.regs, rxArms := t.rxArms, out := t.out }
    (s.rxOn d i = false → Completes (.rxArmStart d i) s (OnlyRegs [] s)) ∧
    (s.rxOn d i = true → s.heldIdle d = false → Completes (.rxArmStart d i) s fun t => t.rxState d i = 1 ∧
      (s.rd CNV_STATUS_SCLK_LOCK d = 0 → (t.rxArm d i).coldDue = true) ∧
      (s.rd CNV_STATUS_SCLK_LOCK d ≠ 0 → (t.rxArm d i).coldDue = false ∧ (t.rxArm d i).trainings = 0 ∧
        ((t.rxArm d i).step = 2 ∨ (t.rxArm d i).step = 3)) ∧ (t.align d i = 1 ∨ t.align d i = 2)) ∧
    (s.rxOn d i = true → s.heldIdle d = false → s.rd CNV_STATUS_SCLK_LOCK d ≠ 0 → s.rxState d i = 5 ∨ s.rxState d i = 4 →
      Completes (.rxArmWake d i) s fun t => t.rxState d i = 6 ∧ (t.rxArm d i).trainings = 0 ∧ (t.rxArm d i).taps = a.taps ∧
        (t.rxArm d i).cd = a.cd ∧ t = { s with regs := t.regs, rxArms := t.rxArms, frm := t.frm, out := t.out }) ∧
    (s.rxState d i ≠ 5 → s.rxState d i ≠ 4 → Completes (.rxArmWake d i) s (OnlyRegs [] s)) ∧
    (∀ c : Int, s.rxState d i = 1 ∨ s.rxState d i = 2 → a.cd = some c → Completes (.rxAcqTimeout d i) s fun t =>
      (t.rd RXD_EVENT_ACQ_FAIL d).testBit i = true ∧ t.rxState d i = 1 ∧ (t.rxArm d i).cd = some c ∧ (t.rxArm d i).step = 3 ∧
        (t.rxArm d i).trainings = 0 ∧ arms t ∧ KeepsRegs [RXD_EVENT_ACQ_FAIL, RXD_SC_STATUS_STATE] s t) ∧
    (s.rxState d i = 2 → 3 ≤ a.trainings → a.locked = true → snrSteady a.snrs = true → Completes (.rxArmTracking d i) s fun t => t.rxState d i = 3 ∧ arms t ∧
      KeepsRegs [RXD_SC_STATUS_STATE] s t) ∧
    (a.trainings < 3 ∨ a.locked = false ∨ snrSteady a.snrs = false → Completes (.rxArmTracking d i) s (OnlyRegs [] s)) ∧
    (s.rxState d i = 0 ∨ s.rxState d i = 4 ∨ s.rxState d i = 5 → Completes (.carrierLockLost d i) s (OnlyRegs [] s)) ∧
    (s.rxState d i ≠ 0 → s.rxState d i ≠ 4 → s.rxState d i ≠ 5 → Completes (.carrierLockLost d i) s fun t =>
      (t.rd RXD_EVENT_LOCK_LOST d).testBit i = true ∧ t.rxState d i = 1 ∧ (t.rxArm d i).locked = false ∧
        (t.rxArm d i).trainings = 0 ∧ (t.rxArm d i).cd = a.cd ∧ (t.rxArm d i).step = (if a.cd.isSome then 3 else 2) ∧ arms t ∧
        KeepsRegs [RXD_EVENT_LOCK_LOST, RXD_SC_STATUS_STATE, RXD_FREQ_STATUS_LOCKED] s t) ∧
    (∀ (coarse fine : List ℚ) (b f : Int × ℚ), s.rxState d i = 1 → a.step = 2 →
      let cands := (s.scanGrid d).zip coarse
      let near := (fineGrid b.1).zip fine
      b ∈ cands → (∀ x ∈ cands, x ≠ b → x.2 < b.2) →
      (near = [] ∧ f = b) ∨ (f ∈ near ∧ ∀ x ∈ near, x ≠ f → x.2 < f.2) →
      (6 ≤ 20 * Arith.log10 (b.2 / mean (cands.map Prod.snd)) → Completes (.cdScanDone d i coarse fine) s fun t =>
        t.rxArm d i = { a with step := 3, cd := some f.1, resid := 0, taps := initTaps (s.armTones d i) f.1 (s.scFreq d i) } ∧
          arms t ∧ KeepsRegs [] s t) ∧
      (20 * Arith.log10 (b.2 / mean (cands.map Prod.snd)) < 6 → Completes (.cdScanDone d i coarse fine) s fun t =>
        (t.rd RXD_EVENT_ACQ_FAIL d).testBit i = true ∧ OnlyRegs [RXD_EVENT_ACQ_FAIL] s t)) ∧
    (∀ (rx : List Vec2) (snr : ℚ) (cd0 : Int), a.cd = some cd0 → s.rxState d i = 2 ∨ s.rxState d i = 3 →
      let ex := s.scExpress d i
      let r := residualCd (fdeTones ex) cd0 (s.scFreq d i) a.taps
      let cd := if 200 < r ∨ r < -200 then cd0 + Arith.round r else cd0
      let beta : ℚ := match a.snr with
        | some v => pow10 (-(v : ℚ) / 1000)
        | none => 1 / 100
      let wt := trainTaps ex cd (s.scFreq d i) beta rx
      (s.rd RXD_CTRL_FREEZE d ≠ 0 → Completes (.training d i rx snr) s fun t => t.rxArm d i = { a with report := wt } ∧ arms t ∧
        KeepsRegs [] s t) ∧
      (s.rd RXD_CTRL_FREEZE d = 0 → Completes (.training d i rx snr) s fun t =>
        (t.rxArm d i).taps = trainStep a.taps wt (if a.trainings = 0 then 0 else s.rd RXD_SC_CFG_TRAIN_SHIFT d i) ∧
          (t.rxArm d i).trainings = a.trainings + 1 ∧ (t.rxArm d i).cd = some cd ∧
          t.rd RXD_SC_STATUS_TRAIN_COUNT d i = (s.rd RXD_SC_STATUS_TRAIN_COUNT d i + 1) % 65536 ∧ arms t ∧
          KeepsRegs [RXD_SC_STATUS_TRAIN_COUNT] s t)) ∧
    (∀ (input : FdeIn) (syms : FdeAt) (err : ℚ),
      let n := s.armTones d i
      let l := fdeOverlap (s.scExpress d i) (s.flag RXD_SC_CFG_OVERLAP d i)
      let turn := 1 + a.rate / 1000000
      let next := a.nextAt.getD (((input.raw.start : ℚ) / 11).ceil + (l : ℚ) * turn)
      let xs := s.fdeInput d i input (next - (l : ℚ) * turn)
      let moved := some (next + ((n - l : Nat) : ℚ) * turn)
      let sent := fun t : State => t.out = [.symbols d i (equalise a.taps xs l)] ∧ KeepsRegs [] s t ∧
        t = { s with regs := t.regs, rxArms := t.rxArms, rxDies := t.rxDies, out := t.out } ∧
        ∀ j, j ≠ (i : Nat) → t.rxArm d j = s.rxArm d j
      (a.taps.length ≠ n ∨ s.rxState d i = 0 ∨ s.rxState d i = 4 ∨ s.rxState d i = 5 →
        Completes (.fdeBlock d i input syms err) s (OnlyRegs [] s)) ∧
      (a.taps.length = n → s.rxState d i = 1 ∨ s.rxState d i = 2 ∨ s.rxState d i = 3 ∨ s.rxState d i = 6 →
        (s.rd RXD_CTRL_FREEZE d ≠ 0 → Completes (.fdeBlock d i input syms err) s fun t => sent t ∧
          t.rxArm d i = { a with nextAt := moved }) ∧
        (s.rd RXD_CTRL_FREEZE d = 0 → a.everTrained = false → Completes (.fdeBlock d i input syms err) s fun t => sent t ∧
          t.rxArm d i = { a with nextAt := moved, rate := boundRate (Config.timingRate a.rate err)
                                 phase := Config.timingPhase a.phase a.rate err }) ∧
        (s.rd RXD_CTRL_FREEZE d = 0 → a.everTrained = true → Completes (.fdeBlock d i input syms err) s fun t => sent t ∧
          (t.rxArm d i).power = powerStep a.power (blockTones xs) ∧ (t.rxArm d i).report = (t.rxArm d i).taps ∧
          (t.rxArm d i).nextAt = moved ∧ -200 ≤ (t.rxArm d i).rate ∧ (t.rxArm d i).rate ≤ 200 ∧
          (s.rxState d i = 1 ∨ s.rxState d i = 6 → (t.rxArm d i).taps = a.taps)))) ∧
    ∀ (p : PilotSc) (remote : List RemoteSum), p.sc = i → Completes (.pilotInterval d [p] remote) s fun t =>
      (t.rxArm d i).hist = (if s.rxState d i = 0 ∨ s.rxState d i = 4 ∨ s.rxState d i = 5 then a.hist
        else (s.pilotSum d p :: a.hist).take 17) ∧
      (∀ j, j ≠ (i : Nat) → (t.rxArm d j).hist = (s.rxArm d j).hist) ∧
      (s.rd RXD_CTRL_FREEZE d ≠ 0 → ∀ j, (t.rxArm d j).psi = (s.rxArm d j).psi) ∧
      t = { s with regs := t.regs, rxArms := t.rxArms, rxDies := t.rxDies, groups := t.groups, out := t.out } ∧
      KeepsRegs [RXD_SC_STATUS_JOINT_UNITS, RXD_SLIPS_COUNT, RXD_EVENT_SLIP] s t

/-- R131, R133 to R135, R157 to R159, R164, R165 and R210. -/
def Obligations.ReceiveFrontAndSeams : Prop :=
  ∀ (s : State) (d : Fin 8), (d : Nat) < s.part.dies →
    (∀ st : DfeStats,
      (s.rd RXD_DFE_CTRL_IQ_AUTO d = 0 → s.rd RXD_DFE_CTRL_SKEW_AUTO d = 0 → Completes (.dfeAutoUpdate d st) s (OnlyRegs [] s)) ∧
      Completes (.dfeAutoUpdate d st) s fun t =>
        (s.rd RXD_DFE_CTRL_IQ_AUTO d ≠ 0 → t.rdS RXD_DFE_IQ_X_GAIN d =
          clampInt (-128) 127 (Arith.round (gainError st.x)) ∧
          t.rdS RXD_DFE_IQ_Y_PHASE d = clampInt (-128) 127 (Arith.round (phaseError st.y))) ∧
        (s.rd RXD_DFE_CTRL_SKEW_AUTO d ≠ 0 → t.rdS RXD_DFE_SKEW_XI d = 
          clampInt (-128) 127 (Arith.round (50 * Config.pathSkew 0 (mirrorSlope st.mirrorX)))) ∧
        OnlyRegs [RXD_DFE_IQ_X_GAIN, RXD_DFE_IQ_X_PHASE, RXD_DFE_IQ_Y_GAIN, RXD_DFE_IQ_Y_PHASE, RXD_DFE_SKEW_XI, RXD_DFE_SKEW_XQ,
          RXD_DFE_SKEW_YI, RXD_DFE_SKEW_YQ] s t) ∧
    (s.rd RXD_FREQ_CTRL_HOLD d ≠ 0 → ∀ rs, Completes (.freqReport d rs) s (OnlyRegs [] s)) ∧
    (s.freqLead d = (d : Nat) → s.rd RXD_FREQ_CTRL_HOLD d = 0 → s.lockedCount d ≠ 0 →
      Completes (.freqReport d [d]) s fun t =>
        (let f := (s.rxDie d).freq + Arith.round (s.freqResidual d / 2 ^ s.rd RXD_FREQ_CTRL_LOOP_SHIFT d)
         t.rxDie d = { s.rxDie d with freqNext := some (clampInt (-3000000) 3000000 f) }) ∧
        t = { s with regs := t.regs, rxDies := t.rxDies, out := t.out } ∧ KeepsRegs [RXD_EVENT_FREQ_LIMIT] s t) ∧
    (∀ f : Int, (s.rxDie d).freqNext = some f → s.freqLead d ≠ (d : Nat) ∨ s.rd RXD_FREQ_CTRL_HOLD d ≠ 0 ∨ (s.die d).departed = true →
      Completes (.freqApply d) s fun t => t.rxDie d = { s.rxDie d with freqNext := none } ∧
        t = { s with regs := t.regs, rxDies := t.rxDies, out := t.out } ∧ KeepsRegs [] s t) ∧
    (∀ f : Int, (s.rxDie d).freqNext = some f → s.freqLead d = (d : Nat) → s.rd RXD_FREQ_CTRL_HOLD d = 0 →
      (s.die d).departed = false → Completes (.freqApply d) s fun t =>
      (∀ e ∈ (if s.isActive d then s.segment d else [(d : Nat)]), (t.rxDie e).freq = f) ∧ (t.rxDie d).freqNext = none ∧
        t = { s with regs := t.regs, rxDies := t.rxDies, out := t.out } ∧
        KeepsRegs [RXD_FREQ_STATUS_OFFSET, RXD_FREQ_STATUS_FROM_LEAD] s t) ∧
    (∀ raw : RawSlice, s.freqLead d = (d : Nat) → s.lockedCount d = 0 → Completes (.coarseFreqAcq d raw) s fun t =>
      let c := Arith.round (centroid (s.dfeSamples d raw))
      (t.rxDie d).freq = clampInt (-3000000) 3000000 c ∧ (c < -3000000 ∨ 3000000 < c → t.rd RXD_EVENT_FREQ_LIMIT d = 1) ∧
        t = { s with regs := t.regs, rxDies := t.rxDies, out := t.out } ∧
        KeepsRegs [RXD_EVENT_FREQ_LIMIT, RXD_FREQ_STATUS_OFFSET, RXD_FREQ_STATUS_FROM_LEAD] s t) ∧
    (∀ hi : Bool,
      let st := State.seamStateFld hi
      let seams := fun t : State => t = { s with regs := t.regs, seams := t.seams, out := t.out }
      (∀ ms : List SeamObs, s.rd (State.seamEnFld hi) d ≠ 0 → s.rd st d = 1 → (s.seam d hi).sf ≠ 255 →
        Completes (.seamCombineUpdate d hi ms) s fun t => (t.seam d hi).weights = ms.map (fun _ => 1) ∧
          (t.seam d hi).stats = ms.zipIdx.map (fun e => State.seamStat (s.rd SEAM_CTRL_SMOOTH d) ((s.seam d hi).stats.getD e.2 {}) e.1) ∧
          (t.seam d hi).sf = (s.seam d hi).sf + 1 ∧ (t.seam d hi).tones = (s.seam d hi).tones ∧
          t.rd (if hi then SEAM_TONES_HI else SEAM_TONES_LO) d = 0 ∧ seams t ∧
          KeepsRegs [if hi then SEAM_TONES_HI else SEAM_TONES_LO] s t) ∧
      (∀ ms : List SeamObs, s.rd (State.seamEnFld hi) d = 0 ∨ (s.rd st d ≠ 1 ∧ s.rd st d ≠ 2) → Completes (.seamCombineUpdate d hi ms) s (OnlyRegs [] s)) ∧
      (s.rd st d = 1 → Completes (.seamLearningEnd d hi) s fun t => t.rd st d = 2 ∧
        t.rd RXD_SC_STATUS_COMBINED d (State.seamSc hi) = b2n (!s.scExpress d (State.seamSc hi)) ∧
        OnlyRegs [st, RXD_SC_STATUS_COMBINED] s t) ∧
      (s.rd st d ≠ 1 → Completes (.seamLearningEnd d hi) s (OnlyRegs [] s)) ∧
      (∀ n : Nat, Completes (.bridgeLost d hi n) s fun t => t.rd (State.seamLinkFld hi) d = 0 ∧ (t.seam d hi).lost = true ∧
        t.rd (if hi then SEAM_LINK_ERR_HI_COUNT else SEAM_LINK_ERR_LO_COUNT) d =
          min (s.rd (if hi then SEAM_LINK_ERR_HI_COUNT else SEAM_LINK_ERR_LO_COUNT) d + n) (2 ^ 32 - 1) ∧
        t.rd (if hi then SEAM_EVENT_LINK_HI_LOST else SEAM_EVENT_LINK_LO_LOST) d = 1 ∧ (s.rd st d ≠ 0 → t.rd st d = 3) ∧
        (hi = true ∨ s.rd CAL_STATUS_SEAM_LO_STATE d = 0 → seams t) ∧
        (hi = false → s.rd CAL_STATUS_SEAM_LO_STATE d ≠ 0 → t.rd CAL_STATUS_SEAM_LO_STATE d = 3 ∧
          t.rd CNV_RX_DELAY_FINE d = s.rd CNV_RX_DELAY_FINE d)) ∧
      (∀ e, s.rd st d = 3 → s.seamMate d hi = some e → s.rd (State.seamEnFld hi) d ≠ 0 → s.isActive d = true →
        s.isActive e = true → (s.seam d hi).invalid = false → Completes (.bridgeRestored d hi) s fun t =>
          t.rd (State.seamLinkFld hi) d = 1 ∧ (t.seam d hi).lost = false ∧ t.rd st d = 1 ∧ (t.seam d hi).weights = [] ∧
          seams t)) ∧
    (∀ sums : List QSums, Completes (.qWindowPublish d sums) s fun t =>
      t.rd RXD_Q_STATUS_SEQ d = (s.rd RXD_Q_STATUS_SEQ d + 1) % 65536 ∧ t.rd RXD_EVENT_Q_UPDATE d = 1 ∧
      (∀ i, i < 8 → (t.rxArm d i).tracked = (s.rxState d i == 3) ∧ (t.rxArm d i).mixed = false) ∧
      (∀ i, i < 8 → (∀ q ∈ sums, (q.sc : Nat) ≠ i) → t.rd RXD_Q_SNR_TOT_TOTAL d i = 0 ∧ t.rd RXD_Q_BER_MANT d i = 0) ∧
      (∀ q, sums = [q] → (s.rxArm d q.sc).tracked = true → t.rdS RXD_Q_SNR_TOT_TOTAL d q.sc =
        clampInt (-32768) 32767 (Arith.round (100 * db (State.totalSnr q))) ∧
        ∀ c h, s.rxFormat d q.sc = some (c, h) → State.labelPairs c h q.blocks ≠ [] →
          let ps := State.labelPairs c h q.blocks
          let b := berCode (ps.filter fun p => decide (p.2 < 0) != p.1).length ps.length
          t.rd RXD_Q_BER_EXP d q.sc = b.1 ∧ t.rd RXD_Q_BER_MANT d q.sc = b.2) ∧
      t = { s with regs := t.regs, rxArms := t.rxArms, fresh := t.fresh, out := t.out })

/-- R107, R113 to R115, R175 to R182, R184, R186 and R192. The words of a superframe are `State.dacWord`.
Log entry 171 DESIGN CHOICE. -/
def Obligations.TransmitArmsAndCorrections : Prop :=
  ∀ (s : State) (d : Fin 8), (d : Nat) < s.part.dies →
    (∀ i : Fin 8,
      (s.heldIdle d = false → s.txState d i = 1 → Completes (.txArmReady d i) s fun t => t.txState d i = 2 ∧ t.rd FEC_SC_STATUS_TX_RUN d i = 0 ∧
        OnlyRegs [TXD_SC_STATUS_STATE, TXD_SC_STATUS_CONST, TXD_SC_STATUS_BYPASSED, FEC_SC_STATUS_TX_RUN] s t) ∧
      (s.heldIdle d = true ∨ s.txState d i ≠ 1 → Completes (.txArmReady d i) s (OnlyRegs [] s)) ∧
      (s.txOn d i = true → s.heldIdle d = false → s.txState d i = 2 → s.rd CNV_STATUS_SCLK_LOCK d ≠ 0 → Completes (.txArmSendStart d i) s fun t =>
        t.txState d i = 3 ∧ t.rd FEC_SC_STATUS_TX_RUN d i = 1 ∧
        ((s.txArm d i).due = true → (t.rd TXD_EVENT_TX_LATE d).testBit i = true) ∧
        t.txArm d i = { tilt := (s.txArm d i).tilt, before := (s.txArm d i).before, coding := { markMf := s.time.mf } } ∧
        (∀ j, j < 8 → j ≠ (i : Nat) → t.txArm d j = s.txArm d j) ∧
        t = { s with regs := t.regs, txArms := t.txArms, out := t.out } ∧
        KeepsRegs [TXD_SC_STATUS_STATE, TXD_SC_STATUS_CONST, TXD_SC_STATUS_BYPASSED, FEC_SC_STATUS_TX_RUN, TXD_EVENT_TX_LATE] s t) ∧
      (s.txOn d i = true → s.txState d i = 1 → Completes (.txArmSendStart d i) s fun t =>
        t.txArm d i = { s.txArm d i with due := true } ∧ t = { s with regs := t.regs, txArms := t.txArms, out := t.out } ∧
        KeepsRegs [] s t) ∧
      (s.txOn d i = false → Completes (.txArmSendStart d i) s (OnlyRegs [] s))) ∧
    (Completes (.freqTrimStep d) s fun t =>
      t.rdS TXD_FREQ_TRIM_APPLIED d = slewStep (s.rdS TXD_FREQ_TRIM_APPLIED d) (s.rdS TXD_FREQ_TRIM_TRIM d) ∧
      (s.rdS TXD_FREQ_TRIM_APPLIED d ≠ s.rdS TXD_FREQ_TRIM_TRIM d → t.rd TXD_EVENT_TRIM_SLEW d = 1) ∧
      OnlyRegs [TXD_FREQ_TRIM_APPLIED, TXD_EVENT_TRIM_SLEW] s t) ∧
    (Completes (.levelRampStep d) s fun t =>
      let goal := 2 * s.rd TXD_LEVEL_LEVEL d
      let now := (s.txDie d).level
      let dark := fun i => s.txState d i = 0 ∨ s.txState d i = 4
      ((∃ i, i < 8 ∧ ¬ dark i) →
        (t.txDie d).level = (if now < goal then now + 1 else if goal < now then now - 1 else now)) ∧
      ((∀ i, i < 8 → dark i) → (t.txDie d).level = goal) ∧
      t.rd TXD_LEVEL_APPLIED d = (t.txDie d).level / 2 % 512 ∧
      (∀ i, i < 8 → (t.txArm d i).tilt =
        if s.txState d i = 0 ∨ s.txState d i = 4 then 2 * s.rdS TXD_SC_TILT_TILT d i
        else slewStep (s.txArm d i).tilt (2 * s.rdS TXD_SC_TILT_TILT d i)) ∧
      t = { s with regs := t.regs, txDies := t.txDies, txArms := t.txArms, out := t.out } ∧
      KeepsRegs [TXD_LEVEL_APPLIED, TXD_SC_TILT_APPLIED] s t) ∧
    (∀ c o : Bool,
      (s.rd TXD_LUT_CTRL_SWITCH_PENDING d = 0 → Completes (.lutSwitch d c o) s fun t =>
        t.rd TXD_LUT_CTRL_COPY_BACK d = b2n c ∧ t.rd TXD_LUT_CTRL_OWNER d = b2n o ∧ t.rd TXD_LUT_CTRL_SWITCH_PENDING d = 1 ∧
        OnlyRegs [TXD_LUT_CTRL_COPY_BACK, TXD_LUT_CTRL_OWNER, TXD_LUT_CTRL_SWITCH_PENDING] s t) ∧
      (s.rd TXD_LUT_CTRL_SWITCH_PENDING d ≠ 0 → Completes (.lutSwitch d c o) s fun t =>
        t.rd TXD_EVENT_LUT_SWITCH_ERR d = 1 ∧ t.txDie d = { s.txDie d with ownerNext := some o } ∧
        t = { s with regs := t.regs, txDies := t.txDies, out := t.out } ∧
        KeepsRegs [TXD_LUT_CTRL_COPY_BACK, TXD_EVENT_LUT_SWITCH_ERR] s t)) ∧
    (s.rd TXD_LUT_CTRL_SWITCH_PENDING d ≠ 0 → s.rd CNV_STATUS_SCLK_LOCK d ≠ 0 → Completes (.lutSwap d) s fun t =>
      t.rd TXD_LUT_CTRL_ACTIVE_SET d = 1 - s.rd TXD_LUT_CTRL_ACTIVE_SET d ∧ t.rd TXD_LUT_CTRL_SWITCH_PENDING d = 0 ∧
      (∀ o, (s.txDie d).ownerNext = some o → t.rd TXD_LUT_CTRL_OWNER d = b2n o) ∧
      t.txDie d = { s.txDie d with ownerNext := none } ∧ (s.rd TXD_LUT_CTRL_COPY_BACK d = 0 → t.lut = s.lut) ∧
      t = { s with regs := t.regs, lut := t.lut, txDies := t.txDies, out := t.out } ∧
      KeepsRegs [TXD_LUT_CTRL_ACTIVE_SET, TXD_LUT_CTRL_SWITCH_PENDING, TXD_LUT_CTRL_OWNER] s t) ∧
    (s.rd CNV_STATUS_SCLK_LOCK d = 0 → Completes (.lutSwap d) s (OnlyRegs [] s)) ∧
    ∀ f : TxFrame, Completes (.txCorrApply d f) s fun t =>
      let set_ := { s.txDie d with iq := s.txIqWord d, bal := s.rd TXD_XY_BAL_BAL d, skew := s.txFineSkewWord d }
      let u := (s.modTxDie d fun _ => set_).encodeStreams d f.sf
      let xs := (u.sendingScs d).map fun i => u.shaped d i f
      let sample := fun k : Nat => ((f.first + k : Nat) : Int)
      t.txDie d = set_ ∧
      t.out = (List.range 4).map (fun c =>
        .dac d c (f.start + f.first) ((List.range f.count).map fun k => u.dacWord d xs f.start c (sample k))) ∧
      (∀ c, c < 4 → bit (s.rd CNV_CTRL_DAC_EN d) c = false ∨ s.rd CNV_STATUS_SCLK_LOCK d = 0 →
        ∀ k : Nat, u.dacWord d xs f.start c (sample k) = 0) ∧
      (∀ c, c < 4 → ∀ n, n = ((List.range f.count).filter fun k => (u.lutAt d xs f.start c (sample k)).2).length → n ≠ 0 →
        t.rd TXD_CLIP_COUNT_COUNT d c = min (s.rd TXD_CLIP_COUNT_COUNT d c + n) (2 ^ 32 - 1) ∧ t.rd TXD_EVENT_CLIP d = 1) ∧
      t = { s with regs := t.regs, txDies := t.txDies, txArms := t.txArms, out := t.out } ∧
      KeepsRegs [TXD_CLIP_COUNT_COUNT, TXD_EVENT_CLIP] s t

/-- R194 to R196, R202 to R204, R211, R212, R223 and R224. Log entry 29 DESIGN CHOICE: a record of another KIND. -/
def Obligations.DecoderPoolAndStreams : Prop :=
  ∀ (s : State) (d : Fin 8), (d : Nat) < s.part.dies →
    (∀ (i : Fin 8) (held : BlockOut),
      let slot := s.rd FEC_SC_STATUS_CODE d i
      let cw : CodeTable → Codeword := fun t =>
        { stream := i, seq := (s.stream d i).nextIn, slot := slot
          llr := (deinterleave held.block t.n held.index).map (clampInt (-32) 31) }
      let pool := fun t : State => (t.stream d i).nextIn = (s.stream d i).nextIn + 1 ∧
        t = { s with regs := t.regs, fec := t.fec, streams := t.streams, out := t.out } ∧
        KeepsRegs [FEC_POOL_STATUS_FILL, FEC_QUEUE_PEAK_PEAK, FEC_EVENT_QUEUE_HIGH] s t
      (s.table d slot = none → Completes (.codewordRelease d i held) s fun t =>
        t.rd BLK_DIS_REFUSED_COUNT d 7 = min (s.rd BLK_DIS_REFUSED_COUNT d 7 + 1) (2 ^ BLK_DIS_REFUSED_COUNT.w - 1) ∧
          OnlyRegs [BLK_DIS_REFUSED_COUNT] s t) ∧
      (∀ x, s.table d slot = some x → s.rd FEC_SC_STATUS_RX_SYNC d i = 0 ∨ held.block.length < 4 * x.n →
        Completes (.codewordRelease d i held) s (OnlyRegs [] s)) ∧
      (∀ x, s.table d slot = some x → s.rd FEC_SC_STATUS_RX_SYNC d i ≠ 0 → 4 * x.n ≤ held.block.length →
        ((s.fecSt d).queue.length < 32 → s.bulkPool d = [] → Completes (.codewordRelease d i held) s fun t =>
          (t.fecSt d).queue = (s.fecSt d).queue ++ [cw x] ∧ pool t) ∧
        ∀ k : Nat, (s.fecSt d).queue = [] → s.bulkPool d = [k] → (s.fecSt d).clusters.getD k none = none →
          k < (s.fecSt d).clusters.length → Completes (.codewordRelease d i held) s fun t =>
            (∃ j, (t.fecSt d).clusters.getD k none = some j ∧ j.cw = cw x) ∧ (t.fecSt d).queue = [] ∧ pool t)) ∧
    (∀ k : Fin 8,
      ((s.fecSt d).clusters.getD k none = none → Completes (.clusterFree d k) s (OnlyRegs [] s)) ∧
      (∀ j, (s.fecSt d).clusters.getD k none = some j → (s.fecSt d).queue = [] → Completes (.clusterFree d k) s fun t =>
        (t.fecSt d).clusters.getD k none = none ∧ (t.fecSt d).queue = [] ∧
          t.rd FEC_CW_COUNT d j.cw.stream = min (s.rd FEC_CW_COUNT d j.cw.stream + 1) (2 ^ 32 - 1)) ∧
      Completes (.clusterRetire d k) s fun t =>
        (t.rd FEC_POOL_STATUS_RETIRED d).testBit k = true ∧ (t.rd FEC_POOL_STATUS_EXPRESS d).testBit k = false ∧
          (t.fecSt d).clusters.getD k none = none) ∧
    (∀ (held : Stripe) (cut : Bool) (x : CodeTable), s.table d (s.expressSlot d) = some x → (s.joinExpress d).expressSet d ≠ [] →
      (s.streamKnown d 8 = false ∨ (striped held.times).length < held.offset + x.n →
        Completes (.expressCodeword d held cut) s (OnlyRegs [FEC_POOL_STATUS_EXPRESS] s)) ∧
      (s.streamKnown d 8 = true → held.offset + x.n ≤ (striped held.times).length → 0 < x.n →
        Completes (.expressCodeword d held cut) s fun t =>
        t.rd FEC_EXP_CW_COUNT d = min (s.rd FEC_EXP_CW_COUNT d + 1) (2 ^ 32 - 1) ∧
          (t.stream d 8).nextIn = (s.stream d 8).nextIn + 1 ∧
          (cut = true → t.rd FEC_EXP_FAIL_COUNT d = min (s.rd FEC_EXP_FAIL_COUNT d + 1) (2 ^ 32 - 1)))) ∧
    (Completes (.histSnap d) s fun t =>
      (∀ k, k < 24 → t.rd FEC_ITER_HIST_COUNT d k = (s.fecSt d).bins.getD k 0 % 2 ^ 32) ∧
        t.rd FEC_ITER_HIST_FAIL_COUNT d = (s.fecSt d).bins.getD 24 0 % 2 ^ 32 ∧
        t.fecSt d = { s.fecSt d with bins := List.replicate 25 0 } ∧
        t = { s with regs := t.regs, fec := t.fec, out := t.out } ∧
        KeepsRegs [FEC_ITER_HIST_COUNT, FEC_ITER_HIST_FAIL_COUNT] s t) ∧
    (Completes (.histClear d) s fun t => t.fecSt d = { s.fecSt d with bins := List.replicate 25 0 } ∧
      t = { s with regs := t.regs, fec := t.fec, out := t.out } ∧ KeepsRegs [] s t) ∧
    ∀ (i : Fin 8) (mfc : Word) (ptr : Fin 16777216) (bch : Fin 65536) (rest : StreamTail),
      let n := s.scStream d i
      let st := s.stream d n
      let v := rest.scr.toNat % 2 ^ 31
      let kind := rest.kind.toNat = b2n (n == 8)
      let trained := s.rxState d i = 2 ∨ s.rxState d i = 3
      let adopted := { st with
        ptr := ptr, bch := bch, scr := v, mf := mfc.toNat, bad := 0, start := some st.nextIn, skip := bch, startScr := v
        anchor := 0, ahead := [], startMf := mfc.toNat }
      let taken := fun t : State => t.rd FEC_SC_STATUS_RX_SYNC d i = 1 ∧
        t.rxArm d i = { s.rxArm d i with block := 0, labX := [], labY := [] } ∧
        t = { s with regs := t.regs, rxArms := t.rxArms, streams := t.streams, out := t.out }
      (s.rd FRM_SC_STATUS_ALIGN d i ≠ 3 ∨ ¬ trained ∨ ¬ kind → Completes (.streamRecord d i mfc ptr bch rest) s (OnlyRegs [] s)) ∧
      (s.rd FRM_SC_STATUS_ALIGN d i = 3 → trained → kind →
        (s.streamKnown d n = false → Completes (.streamRecord d i mfc ptr bch rest) s fun t => t.stream d n = adopted ∧ taken t ∧
          KeepsRegs [FEC_SC_STATUS_RX_SYNC] s t) ∧
        (s.streamKnown d n = true → st.mf = mfc.toNat → Completes (.streamRecord d i mfc ptr bch rest) s fun t => t.stream d n = st ∧ taken t ∧
          KeepsRegs [FEC_SC_STATUS_RX_SYNC] s t) ∧
        (s.streamKnown d n = true → st.mf ≠ mfc.toNat →
          let e := s.predict d n ((mfc.toNat + 2 ^ 32 - st.mf) % 2 ^ 32)
          let agrees := (e.1, e.2.1, e.2.2.1) = ((ptr : Nat), (bch : Nat), v)
          (agrees → Completes (.streamRecord d i mfc ptr bch rest) s fun t => t.stream d n = { st.onward e mfc.toNat with bad := 0 } ∧ taken t ∧
            KeepsRegs [FEC_SC_STATUS_RX_SYNC] s t) ∧
          (¬ agrees → st.bad = 0 → Completes (.streamRecord d i mfc ptr bch rest) s fun t => t.stream d n = { st.onward e mfc.toNat with bad := 1 } ∧ taken t ∧
            KeepsRegs [FEC_SC_STATUS_RX_SYNC] s t) ∧
          (¬ agrees → st.bad ≠ 0 → Completes (.streamRecord d i mfc ptr bch rest) s fun t => t.stream d n = adopted ∧ taken t ∧
            (t.rd FEC_EVENT_PTR_ERR d).testBit (if n = 8 then 7 else (i : Nat)) = true)))

/-- R219, R221 and R227 to R230. How a candidate's header is demodulated: log entry 171 DESIGN CHOICE. -/
def Obligations.FrameAlignment : Prop :=
  ∀ (s : State) (d i : Fin 8), (d : Nat) < s.part.dies →
    (∀ (pos : Fin 65536) (rx : List Vec2),
      let m := (State.peakMetrics rx).getD 16 0
      let peak := ∀ x ∈ State.peakMetrics rx, x ≤ m
      let cs := (s.frmArm d i).cands
      (¬ peak → Completes (.fasPeak d i pos rx) s (OnlyRegs [] s)) ∧
      (s.align d i ≠ 1 → s.align d i ≠ 2 → Completes (.fasPeak d i pos rx) s (OnlyRegs [] s)) ∧
      (s.fasMatches d m = false → Completes (.fasPeak d i pos rx) s (OnlyRegs [] s)) ∧
      (s.rd CNV_STATUS_SCLK_LOCK d = 0 → Completes (.fasPeak d i pos rx) s (OnlyRegs [] s)) ∧
      (peak → s.align d i = 1 ∨ s.align d i = 2 → s.fasMatches d m = true → s.rd CNV_STATUS_SCLK_LOCK d ≠ 0 → cs.length < 4 →
        Completes (.fasPeak d i pos rx) s fun t =>
          t.frmArm d i = { s.frmArm d i with cands := cs ++ [{ pos := pos, count := 1, metrics := [m] }] } ∧
          t.align d i = 2 ∧ t.rd FRM_SC_STATUS_CANDIDATES d i = cs.length + 1 ∧
          t = { s with regs := t.regs, frm := t.frm, out := t.out } ∧
          KeepsRegs [FRM_SC_STATUS_CANDIDATES, FRM_SC_STATUS_ALIGN] s t)) ∧
    (∀ (c : Cand) (k : CandCheck),
      let m := fasMetric k.fas
      let c' : Cand := { c with
        count := c.count + 1, metrics := m :: c.metrics
        heads := ((candHeader k).map fun h => (h.sf, h.mfc)) :: c.heads }
      let counted := fun t : State => candHeader k = none →
        t.rd FRM_OH_ERR_COUNT d i = min (s.rd FRM_OH_ERR_COUNT d i + 1) (2 ^ 32 - 1)
      (s.align d i ≠ 2 → Completes (.candidateCheck d i [k]) s (OnlyRegs [] s)) ∧
      (s.align d i = 2 → s.rd CNV_STATUS_SCLK_LOCK d ≠ 0 → (s.frmArm d i).cands = [c] → (k.pos : Nat) = c.pos →
        (s.fasMatches d m = false → Completes (.candidateCheck d i [k]) s fun t =>
          (t.frmArm d i).cands = [] ∧ t.align d i = 1 ∧ t.rd FRM_SC_STATUS_CANDIDATES d i = 0 ∧
          KeepsRegs [FRM_SC_STATUS_CANDIDATES, FRM_SC_STATUS_ALIGN] s t) ∧
        (s.fasMatches d m = true → c.count < 2 → Completes (.candidateCheck d i [k]) s fun t =>
          (t.frmArm d i).cands = [c'] ∧ t.align d i = 2 ∧ t.rd FRM_SC_STATUS_CANDIDATES d i = 1 ∧ counted t ∧
          KeepsRegs [FRM_SC_STATUS_CANDIDATES, FRM_SC_STATUS_ALIGN, FRM_OH_ERR_COUNT] s t) ∧
        (s.fasMatches d m = true → 2 ≤ c.count → Completes (.candidateCheck d i [k]) s fun t =>
          (t.frmArm d i).cands = [] ∧ (t.frmArm d i).pos = c.pos ∧ (t.frmArm d i).fasRun = 0 ∧ t.align d i = 3 ∧
          t.rd FRM_SC_STATUS_CANDIDATES d i = 0 ∧ t.rd FRM_SC_STATUS_MF d i = (if State.consistent c'.heads then 2 else 1) ∧
          counted t ∧ t = { s with regs := t.regs, frm := t.frm, out := t.out } ∧
          KeepsRegs [FRM_SC_STATUS_CANDIDATES, FRM_SC_STATUS_ALIGN, FRM_SC_STATUS_MF, FRM_OH_ERR_COUNT] s t))) ∧
    ∀ fas : List Vec2,
      let good := s.fasMatches d (fasMetric fas)
      let run := (s.frmArm d i).fasRun
      let counted := fun t : State => t.rd FRM_FAS_ERR_COUNT d i = min (s.rd FRM_FAS_ERR_COUNT d i + 1) (2 ^ 32 - 1)
      (s.align d i ≠ 3 → Completes (.inFrameFasCheck d i fas) s (OnlyRegs [] s)) ∧
      (s.align d i = 3 → s.rd CNV_STATUS_SCLK_LOCK d ≠ 0 →
        (good = true → Completes (.inFrameFasCheck d i fas) s fun t => t.frmArm d i = { s.frmArm d i with fasRun := 0 } ∧
          t = { s with regs := t.regs, frm := t.frm, out := t.out } ∧ KeepsRegs [] s t) ∧
        (good = false → run ≠ 4 → Completes (.inFrameFasCheck d i fas) s fun t => counted t ∧
          t.frmArm d i = { s.frmArm d i with fasRun := run + 1 } ∧
          t = { s with regs := t.regs, frm := t.frm, out := t.out } ∧ KeepsRegs [FRM_FAS_ERR_COUNT] s t) ∧
        (good = false → run = 4 → Completes (.inFrameFasCheck d i fas) s fun t => counted t ∧ t.align d i = 1 ∧
          t.rd FRM_SC_STATUS_MF d i = 0 ∧ t.rd FRM_SC_STATUS_CANDIDATES d i = 0 ∧ (t.frmArm d i).cands = [] ∧
          (t.frmArm d i).fasRun = 0 ∧ t.rd FRM_OOF_COUNT_COUNT d i = min (s.rd FRM_OOF_COUNT_COUNT d i + 1) (2 ^ 32 - 1) ∧
          t.rd FEC_SC_STATUS_RX_SYNC d i = 0))

/-- R219, R221, R225, R226, R230 to R234, R247 and R353. Firmware's writes of BDI_TX: log entry 173 DESIGN CHOICE. -/
def Obligations.FrameHeadersDefectsAndTime : Prop :=
  ∀ (s : State) (d i : Fin 8), (d : Nat) < s.part.dies →
    (∀ syms : List Vec2,
      let a := s.frmArm d i
      let want := nextFrame (a.sf, a.mfc)
      let b := s.teamBase d
      (s.align d i ≠ 3 → Completes (.headerReceive d i syms) s (OnlyRegs [] s)) ∧
      (s.align d i = 3 → s.rd CNV_STATUS_SCLK_LOCK d = 0 → Completes (.headerReceive d i syms) s fun t =>
        t.frmArm d i = { a with sf := want.1, mfc := want.2, broke := a.broke.map nextFrame } ∧
        t = { s with regs := t.regs, frm := t.frm, out := t.out } ∧ KeepsRegs [] s t) ∧
      (s.align d i = 3 → s.rd CNV_STATUS_SCLK_LOCK d ≠ 0 → s.readHeader d i syms = none → Completes (.headerReceive d i syms) s fun t =>
        t.rd FRM_OH_ERR_COUNT d i = min (s.rd FRM_OH_ERR_COUNT d i + 1) (2 ^ 32 - 1) ∧
        t.frmArm d i = { a with
          sf := want.1, mfc := want.2, goodRun := 0, badRun := a.badRun + 1, broke := none } ∧
        t = { s with regs := t.regs, frm := t.frm, out := t.out } ∧ KeepsRegs [FRM_OH_ERR_COUNT, FRM_SC_STATUS_MF] s t) ∧
      (∀ h, s.align d i = 3 → s.rd CNV_STATUS_SCLK_LOCK d ≠ 0 → s.readHeader d i syms = some h → s.agreed b = s.txEpoch b →
        s.rd BUP_STATUS_STATE b ≠ 6 → h.sf = 0 ∨ h.sf = 64 ∨ h.sf = 128 ∨ beAt h.record 0 1 = 0 →
        Completes (.headerReceive d i syms) s fun t =>
          t.rd FRM_REI_COUNT d i = min (s.rd FRM_REI_COUNT d i + h.rei) (2 ^ 32 - 1) ∧
          t.rd FRM_SC_STATUS_REI_LAST d i = h.rei % 16 ∧ t.rd FRM_SC_STATUS_BDI_RX d i = b2n h.bdi ∧
          t.rd FRM_SC_STATUS_PT_RX d i = b2n h.pt ∧ (t.frmArm d i).sbip = some h.sbip ∧
          t.farEpoch b = h.epoch % 2 ^ 32 ∧
          ((h.sf, h.mfc) = want → (t.frmArm d i).goodRun = a.goodRun + 1 ∧ (t.frmArm d i).badRun = 0 ∧
            ((t.frmArm d i).sf, (t.frmArm d i).mfc) = want) ∧
          (h.sf = 64 → h.mfc % 16 = 0 → (s.cnvSt d).txLast ≠ some s.time.mf → ((h.record.getD 2 0).toNat).testBit 7 = true →
            t.rdS CAL_TX_SEAM_LO_TAU d = toSigned 16 (256 * (h.record.getD 0 0).toNat + (h.record.getD 1 0).toNat)))) ∧
    (∀ bits : List Bool,
      (∀ b, (s.frmArm d i).sbip = some b → Completes (.sbipCompare d i bits) s fun t =>
        t.rd FRM_SBIP_ERR_COUNT d i = min (s.rd FRM_SBIP_ERR_COUNT d i + bitsDiffer (bip8 bits) b) (2 ^ 32 - 1) ∧
        t.frmArm d i = { s.frmArm d i with reiTx := bitsDiffer (bip8 bits) b, sbip := none } ∧
        t = { s with regs := t.regs, frm := t.frm, out := t.out } ∧ KeepsRegs [FRM_SBIP_ERR_COUNT] s t) ∧
      ((s.frmArm d i).sbip = none → Completes (.sbipCompare d i bits) s fun t =>
        t.frmArm d i = { s.frmArm d i with reiTx := 0 } ∧ t = { s with regs := t.regs, frm := t.frm, out := t.out } ∧
        KeepsRegs [] s t)) ∧
    (∀ (power : Nat) (lock : BitVec 8), Completes (.defectSample d power lock) s fun t =>
      let step := fun (raw : Bool) (x : FrmArm) (f : Fld) (n k : Nat) =>
        (State.defectStep raw (s.flag f d k) (x.raw.getD n 0) (x.clear.getD n 0) (s.rd FRM_INTEG_SET d n)
          (s.rd FRM_INTEG_CLEAR d n)).2.2
      let los := ((List.range 8).any fun j => s.rxOn d j) &&
        (decide (s.rd FRM_CTRL_LOS_TH d < power) || !s.flag CNV_STATUS_SCLK_LOCK d)
      (t.rd FRM_BDI_TX_BDI d).testBit i =
        (if t.backward d i = s.backward d i then (s.rd FRM_BDI_TX_BDI d).testBit i else t.backward d i) ∧
      t.rd FRM_STATUS_LOS_RAW d = b2n los ∧ t.flag FRM_STATUS_LOS d = step los (s.frmArm d 8) FRM_STATUS_LOS 0 0 ∧
      (s.rxOn d i = true → s.align d i ≠ 0 →
        t.flag FRM_SC_STATUS_LOL d i = step (!lock.toNat.testBit i) (s.frmArm d i) FRM_SC_STATUS_LOL 1 i ∧
        t.flag FRM_SC_STATUS_LOF d i = step (s.align d i != 3) (s.frmArm d i) FRM_SC_STATUS_LOF 2 i)) ∧
    ∀ (tTx tRx : Nat) (mfc : Word) (t4 : Nat),
      (s.rd FRM_TT_CTRL_EN d = 0 → Completes (.timeTransfer d tTx tRx mfc t4) s (OnlyRegs [] s)) ∧
      (s.rd FRM_TT_CTRL_EN d ≠ 0 → s.ttSelected d = none → Completes (.timeTransfer d tTx tRx mfc t4) s fun t =>
        t.rd FRM_TT_STATUS_VALID d = 0 ∧ OnlyRegs [FRM_TT_STATUS_VALID] s t) ∧
      (∀ (e j : Nat) (t1 : Nat × Nat), s.rd FRM_TT_CTRL_EN d ≠ 0 → s.ttSelected d = some (e, j) →
        (s.tim.txStamps.find? fun x => x.1 == mfc.toNat) = some t1 → Completes (.timeTransfer d tTx tRx mfc t4) s fun t =>
          let a : ℚ := ((tRx : Int) - (t1.2 : Int) : Int)
          let b : ℚ := (t4 : ℚ) - s.dispersionDelay e j * 65536 / 1000 - (tTx : ℚ)
          let line := fun k : Fin 16 => s.rd TIM_REF_CFG_EN pkg k ≠ 0 ∧ s.rd TIM_REF_CFG_SOURCE pkg k = 2 ∧
            s.teamBase (s.rd TIM_REF_CFG_DIE pkg k) = s.teamBase d
          let delay := Arith.round ((a + b) / 2)
          let offset := Arith.round ((a - b - (s.rdS FRM_TT_CTRL_ASYM d : ℚ) * 65536 / 10) / 2)
          let sec : Int := 65536 * 1000000000
          t.rd FRM_TT_OFS_S_SECONDS d = ofSigned 32 (offset / sec) % 2 ^ 32 ∧
          t.rd FRM_TT_OFS_NS_NS d = (offset % sec).toNat / 65536 % 2 ^ 30 ∧
          t.rd FRM_TT_OFS_FRAC_FRAC d = (offset % sec).toNat % 65536 ∧
          t.rd FRM_TT_DELAY_DELAY d = ofSigned 32 (Arith.round ((delay : ℚ) / 256)) % 2 ^ 32 ∧
          t.rd FRM_TT_STATUS_VALID d = 1 ∧ t.rd FRM_TT_STATUS_SC d = (8 * (e - s.teamBase d) + j) % 64 ∧
          t.rd FRM_TT_STATUS_SEQ d = (s.rd FRM_TT_STATUS_SEQ d + 1) % 2 ^ 16 ∧ t.rd FRM_EVENT_TT_UPDATE d % 2 = 1 ∧
          (∀ k, line k → (t.refSt k).phase = Arith.round (-(offset : ℚ) * 1000 / 65536)) ∧
          (∀ k, ¬ line k → t.refSt k = s.refSt k) ∧
          t = { s with regs := t.regs, refs := t.refs, tim := t.tim, out := t.out } ∧
          KeepsRegs [TIM_PHASE_ERR_ERROR, FRM_TT_OFS_S_SECONDS, FRM_TT_OFS_NS_NS, FRM_TT_OFS_FRAC_FRAC, FRM_TT_DELAY_DELAY, FRM_TT_STATUS_SC,
            FRM_TT_STATUS_VALID, FRM_TT_STATUS_SEQ, FRM_EVENT_TT_UPDATE] s t)

/-- R252, R254, R257, R258, R260, R274; R261's writes by firmware as log entry 173 has them, the buffer's bound as log entry 174 has
it. -/
def Obligations.FlowFramesAndBlocks : Prop :=
  ∀ (s : State) (d : Fin 8) (f : Fin 512), (d : Nat) < s.part.dies →
    (∀ b : List Bool,
      let x := s.flow d f
      (s.rd FLW_CFG_TX_EN d f = 0 → Completes (.flowBlockIn d f b) s fun t =>
        t.rd BLK_DIS_REFUSED_COUNT d 10 = min (s.rd BLK_DIS_REFUSED_COUNT d 10 + 1) (2 ^ 32 - 1) ∧
        OnlyRegs [BLK_DIS_REFUSED_COUNT] s t) ∧
      (s.rd FLW_CFG_TX_EN d f ≠ 0 → s.txSlots d f = [] ∨ 16 + s.frameRoom d f s.time.mf ≤ x.buffer.length → Completes (.flowBlockIn d f b) s fun t =>
        t.rd FLW_CNT5_COUNT d f = min (s.rd FLW_CNT5_COUNT d f + 1) (2 ^ 32 - 1) ∧ t.rd FLW_EVENT_OVERFLOW d = 1 ∧
        OnlyRegs [FLW_CNT5_COUNT, FLW_EVENT_OVERFLOW] s t) ∧
      (s.rd FLW_CFG_TX_EN d f ≠ 0 → s.txSlots d f ≠ [] → x.buffer.length < 16 + s.frameRoom d f s.time.mf → Completes (.flowBlockIn d f b) s fun t =>
        t.flow d f = { x with buffer := x.buffer ++ [b] } ∧ t = { s with regs := t.regs, flows := t.flows, out := t.out } ∧
        KeepsRegs [] s t)) ∧
    (∀ mf : Nat,
      let x := s.flow d f
      let words := (s.flowShares d f mf).sum
      let p := positions (dataBits words)
      let client := x.buffer.take p
      let data := packBits (layOut (dataBits words) p client.length p 0 client)
      let poh : Poh := {
        id := s.rd FLW_ID_LINE_ID d f, kp := s.flag CRY_FLOW_STATUS_TX_KP d f, enc := false
        fbdi := s.flag FLW_CFG_FBDI_TX d f, csf := s.flag FLW_CFG_CSF_TX d f, rei := x.reiTx, kfc := x.kfc
        nb := client.length, pbip := x.txBip, tag := x.txTag }
      let bits := unpackBits (poh.encode ++ data)
      (words < 4 → Completes (.flowFrameSend d f mf) s (OnlyRegs [] s)) ∧
      (4 ≤ words → s.rd FLW_CHK_APPEND d f = 0 → s.rd FLW_CFG_ENC d f = 0 → s.boundUnit d f false 2 = none →
        Completes (.flowFrameSend d f mf) s fun t =>
          t.out = [.flowFrame d f poh.encode data] ∧ t.rd CRY_FLOW_STATUS_TX_ENC d f = 0 ∧
          t.flow d f = { x with
            buffer := x.buffer.drop client.length, kfc := (x.kfc + 1) % 2 ^ 48, txBip := bip8 (unpackBits data), txTag := []
            reiTx := 0 } ∧
          (∀ n w, (s.txSlots d f)[n]? = some w → (s.txArm w.1 (w.2 / 24)).waiting.length = 24 →
            (t.txArm w.1 (w.2 / 24)).waiting.getD (w.2 % 24) [] = (s.txArm w.1 (w.2 / 24)).waiting.getD (w.2 % 24) [] ++
              (splitShares (s.flowShares d f mf) (chunk 80 (bits.length / 80) bits)).getD n []) ∧
          ((s.unit d 10 (2 * (f : Nat))).draining = false → t = { s with regs := t.regs, flows := t.flows, txArms := t.txArms, out := t.out } ∧
            KeepsRegs [CRY_FLOW_STATUS_TX_ENC] s t))) ∧
    (∀ (shares : List (List (List Bool))) (marked : List Nat) (first last : Nat),
      let x := s.flow d f
      let poh := packBits ((mergeShares shares).take 4).flatten
      let data := packBits ((mergeShares shares).drop 4).flatten
      let p := positions (8 * data.length)
      (Poh.parse poh = none → Completes (.flowFrameReceive d f shares marked first last) s fun t =>
        (t.flow d f).nb = min x.nb p ∧ (t.flow d f).enc = x.enc ∧ (t.flow d f).kp = x.kp ∧ (t.flow d f).rxBip = none ∧
        (t.flow d f).reiTx = 0 ∧
        (t.rd FLW_DEF_DECLARED d f).testBit 1 =
          ((s.rd FLW_DEF_DECLARED d f).testBit 1 || decide (s.rd FLW_DEF_INTEG_SET d ≤ x.raw.getD 1 0 + 1))) ∧
      (∀ h, Poh.parse poh = some h → h.nb ≤ p → s.rxSlots d f ≠ [] →
        Completes (.flowFrameReceive d f shares marked first last) s fun t =>
        t.rd FLW_CNT4_COUNT d f = min (s.rd FLW_CNT4_COUNT d f + h.rei) (2 ^ 32 - 1) ∧
        (t.flow d f).nb = h.nb ∧ (t.flow d f).enc = h.enc ∧ (t.flow d f).kp = h.kp ∧
        (t.flow d f).rxBip = some (bip8 (unpackBits data)) ∧
        (t.flow d f).reiTx = (match x.rxBip with | some b => bitsDiffer b h.pbip | none => 0) ∧
        (∀ b, x.rxBip = some b →
          t.rd FLW_CNT3_COUNT d f = min (s.rd FLW_CNT3_COUNT d f + bitsDiffer b h.pbip) (2 ^ 32 - 1)))) ∧
    Completes (.flowDefectIdleSample d f) s fun t =>
      let x := s.flow d f
      let raw := fun n => if n = 0 then s.capRaw d f 0 else decide (n = 1)
      (∀ n, n < 7 → (t.rd FLW_DEF_DECLARED d f).testBit n =
        if raw n then (s.rd FLW_DEF_DECLARED d f).testBit n || decide (s.rd FLW_DEF_INTEG_SET d ≤ x.raw.getD n 0 + 1)
        else (s.rd FLW_DEF_DECLARED d f).testBit n && !decide (s.rd FLW_DEF_INTEG_CLEAR d ≤ x.clear.getD n 0 + 1)) ∧
      (t.rd FLW_DEF_DECLARED d f ≠ s.rd FLW_DEF_DECLARED d f → t.rd FLW_EVENT_DEF_CHG d = 1 ∧
        (t.rd FLW_DEF_CHG_FLOW d (f / 32)).testBit (f % 32) = true) ∧
      (if (t.rd FLW_DEF_DECLARED d f % 8 = 0 ↔ s.rd FLW_DEF_DECLARED d f % 8 = 0) then
        t.rd FLW_CFG_FBDI_TX d f = s.rd FLW_CFG_FBDI_TX d f ∧ t.rd FLW_CFG_REPLACE d f = s.rd FLW_CFG_REPLACE d f
      else
        t.rd FLW_CFG_FBDI_TX d f = min 1 (t.rd FLW_DEF_DECLARED d f % 8) ∧
        t.rd FLW_CFG_REPLACE d f = min 1 (t.rd FLW_DEF_DECLARED d f % 8)) ∧
      t = { s with regs := t.regs, flows := t.flows, out := t.out } ∧
      KeepsRegs [FLW_DEF_DECLARED, FLW_DEF_CHG_FLOW, FLW_EVENT_DEF_CHG, FLW_CFG_FBDI_TX, FLW_CFG_REPLACE] s t

/-- R264, R270 and R276. -/
def Obligations.KeysAndCheckUnits : Prop :=
  ∀ (s : State) (d : Fin 8), (d : Nat) < s.part.dies →
    (∀ (f : Fin 512) (rx next : Bool),
      let refused := fun t : State => t.bus.last.code = 2 ∧ t = { s with regs := t.regs, bus := t.bus, out := t.out } ∧ KeepsRegs [] s t
      let starts := fun (result : Nat) (key : Option KeySlot) (t : State) => t.bus.last.code = 0 ∧ t.rd CRY_KEY_STATUS_BUSY d = 1 ∧
        t.keyJobs.find (unitKey d 0) = some { flow := f, rx := rx, next := next, result := result, key := key } ∧
        t = { s with regs := t.regs, keyJobs := t.keyJobs, bus := t.bus, out := t.out } ∧ KeepsRegs [CRY_KEY_STATUS_BUSY] s t
      let image := (s.otp.get {} (unitKey d 0)).imageKey
      let blocked := !next && s.encrypts d f rx
      (s.rd CRY_KEY_STATUS_BUSY d ≠ 0 → Completes (.keyLoad d f rx next) s refused ∧ Completes (.keyErase d f rx next) s refused) ∧
      (s.rd CRY_KEY_STATUS_BUSY d = 0 →
        (blocked = true → Completes (.keyLoad d f rx next) s (starts 4 none)) ∧
        (blocked = false → image = none → Completes (.keyLoad d f rx next) s (starts 3 none)) ∧
        (∀ k, blocked = false → image = some k → keyUnwrap (kekOf k) (s.wrappedKey d) = none →
          Completes (.keyLoad d f rx next) s (starts 2 none)) ∧
        (∀ k b, blocked = false → image = some k → keyUnwrap (kekOf k) (s.wrappedKey d) = some b →
          Completes (.keyLoad d f rx next) s (starts 1 (some { key := b, id := s.rd CRY_KEY_ID_KEY_ID d, kcv := kcvOf b }))) ∧
        Completes (.keyErase d f rx next) s (starts (if blocked then 4 else 1) none))) ∧
    (s.keyJobs.find (unitKey d 0) = none → Completes (.keyCommandDone d) s (OnlyRegs [] s)) ∧
    (∀ j, s.keyJobs.find (unitKey d 0) = some j → Completes (.keyCommandDone d) s fun t =>
      t.keyJobs.find (unitKey d 0) = none ∧ t.rd CRY_KEY_STATUS_BUSY d = 0 ∧ t.rd CRY_KEY_STATUS_RESULT d = j.result % 16 ∧
      (j.result ≠ 1 → t.rd CRY_EVENT_LOAD_FAIL d = 1 ∧ t = { s with regs := t.regs, keyJobs := t.keyJobs, out := t.out } ∧
        KeepsRegs [CRY_KEY_STATUS_BUSY, CRY_KEY_STATUS_RESULT, CRY_EVENT_LOAD_FAIL] s t) ∧
      (j.result = 1 → t.rd CRY_EVENT_LOAD_DONE d = 1 ∧
        t.flow d j.flow = (match j.rx, j.next with
          | false, false => { s.flow d j.flow with txCur := j.key }
          | false, true => { s.flow d j.flow with txNext := j.key }
          | true, false => { s.flow d j.flow with rxCur := j.key }
          | true, true => { s.flow d j.flow with rxNext := j.key }) ∧
        t.rd CRY_FLOW_STATUS_TX_CURRENT d j.flow = b2n (t.flow d j.flow).txCur.isSome ∧
        t.rd CRY_FLOW_STATUS_RX_CURRENT d j.flow = b2n (t.flow d j.flow).rxCur.isSome ∧
        t.rd CRY_FLOW_STATUS_TX_NEXT d j.flow = b2n (t.flow d j.flow).txNext.isSome ∧
        t.rd CRY_FLOW_STATUS_RX_NEXT d j.flow = b2n (t.flow d j.flow).rxNext.isSome ∧
        t = { s with regs := t.regs, flows := t.flows, keyJobs := t.keyJobs, out := t.out } ∧
        KeepsRegs [CRY_KEY_STATUS_BUSY, CRY_KEY_STATUS_RESULT, CRY_EVENT_LOAD_DONE, CRY_FLOW_STATUS_RX_NEXT,
          CRY_FLOW_STATUS_RX_CURRENT, CRY_FLOW_STATUS_TX_NEXT, CRY_FLOW_STATUS_TX_CURRENT, CRY_KCV_TX_KCV, CRY_KCV_RX_KCV,
          CRY_KID_TX_KEY_ID, CRY_KID_RX_KEY_ID] s t)) ∧
    (∀ (u : Fin 64) (v : Word),
      (s.rd CRC_UNIT_CFG_MODE d u = 2 → Completes (.crcRunningWrite d u v) s fun t => t.bus.last.code = 0 ∧
        t.crcSt d u = { s.crcSt d u with heldRun := some v.toNat } ∧
        t = { s with regs := t.regs, crc := t.crc, bus := t.bus, out := t.out } ∧ KeepsRegs [] s t) ∧
      (s.rd CRC_UNIT_CFG_MODE d u ≠ 2 → Completes (.crcRunningWrite d u v) s fun t => t.bus.last.code = 2 ∧
        t = { s with regs := t.regs, bus := t.bus, out := t.out } ∧ KeepsRegs [] s t)) ∧
    ((∀ u, (s.crcSt d u).heldCfg = none) → Completes (.crcBoundary d) s fun t =>
      (∀ u, t.crcSt d u = { s.crcSt d u with
        running := (s.crcSt d u).heldRun.getD (s.crcSt d u).running, heldRun := none
        carry := if (s.crcSt d u).heldRun.isSome then (s.crcSt d u).heldRun else (s.crcSt d u).carry }) ∧
      (∀ u, (s.crc.find (unitKey d u)).isSome = true → t.rd CRC_RUNNING_VALUE d u = (s.crcSt d u).running % 2 ^ 32) ∧
      t = { s with regs := t.regs, crc := t.crc, out := t.out } ∧ KeepsRegs [CRC_RUNNING_VALUE] s t) ∧
    ∀ u src : Fin 64,
      (s.rd CRC_UNIT_CFG_EN d src ≠ 0 → Completes (.crcTake d u src) s fun t =>
        t.crcSt d u = { s.crcSt d u with
          running := (s.crcSt d src).running, pos := (s.crcSt d src).pos, carry := (s.crcSt d src).carry } ∧
        t.rd CRC_UNIT_CFG_EN d src = 0 ∧ t = { s with regs := t.regs, crc := t.crc, out := t.out } ∧
        KeepsRegs [CRC_UNIT_CFG_EN] s t) ∧
      (s.rd CRC_UNIT_CFG_EN d src = 0 → Completes (.crcTake d u src) s fun t => t.rd CRC_EVENT_TAKE_ERR d = 1 ∧
        OnlyRegs [CRC_EVENT_TAKE_ERR] s t)

/-- R278, R289, R292, R295 and R301. -/
def Obligations.LaneGroupsAndLanes : Prop :=
  ∀ (s : State) (d g l : Fin 8), (d : Nat) < s.part.dies →
    (∀ w : Word,
      let fs := State.grpFields w.toNat
      let s1 := fs.foldl (fun (t : State) p => t.wr p.1 d p.2 g) s
      (s.rd HLN_GRP_CFG_EN d g ≠ 0 → (fs.any fun p => s.rd p.1 d g != p.2) = true → Completes (.groupEnable d g w) s fun t =>
        t.bus.last.code = 2 ∧ t = { s with regs := t.regs, bus := t.bus, out := t.out } ∧ KeepsRegs [] s t) ∧
      (s.rd HLN_GRP_CFG_EN d g = 0 → w.toNat.testBit 31 = false → Completes (.groupEnable d g w) s fun t =>
        t.bus.last.code = 0 ∧ (∀ p ∈ fs, t.rd p.1 d g = p.2) ∧
        t = { s with regs := t.regs, bus := t.bus, out := t.out } ∧ KeepsRegs (fs.map Prod.fst) s t) ∧
      (s.rd HLN_GRP_CFG_EN d g = 0 → w.toNat.testBit 31 = true → s1.grpBad d g = true → Completes (.groupEnable d g w) s fun t =>
        t.bus.last.code = 0 ∧ t.rd HLN_EVENT_CFG_ERR d = 1 ∧ t.rd HLN_GRP_CFG_EN d g = 0 ∧ (∀ p ∈ fs, t.rd p.1 d g = p.2)) ∧
      (s.rd HLN_GRP_CFG_EN d g = 0 → w.toNat.testBit 31 = true → s1.grpBad d g = false → Completes (.groupEnable d g w) s fun t =>
        t.bus.last.code = 0 ∧ t.rd HLN_GRP_CFG_EN d g = 1 ∧ (∀ p ∈ fs, t.rd p.1 d g = p.2) ∧
        if s.heldIdle d then t.grpState d g = s.grpState d g ∧ ∀ k, t.laneState d k = s.laneState d k
        else t.grpState d g = 1 ∧
          ∀ k ∈ s1.grpLanes d g, t.laneState d k = if s.rd HLN_LANE_CFG_EN d k = 0 then 0 else 1)) ∧
    (s.rd HLN_LANE_CFG_EN d l ≠ 0 → s.laneState d l = 1 → Completes (.laneSignalDetect d l) s fun t =>
      t.laneState d l = 2 ∧ OnlyRegs [HLN_LANE_STATUS_STATE] s t) ∧
    (s.rd HLN_LANE_CFG_EN d l = 0 → Completes (.laneSignalDetect d l) s (OnlyRegs [] s)) ∧
    (s.laneState d l = 2 → Completes (.laneDebounceEnd d l) s fun t =>
      t.laneState d l = 3 ∧ OnlyRegs [HLN_LANE_STATUS_STATE] s t) ∧
    (s.laneState d l ≠ 2 → Completes (.laneDebounceEnd d l) s (OnlyRegs [] s)) ∧
    (∀ k, s.laneState d l = 3 → s.laneGrp d l = some k → s.isTrunk d k = true → s.rd HLN_LANE_CFG_TRAIN_EN d l ≠ 0 →
      Completes (.laneAdapted d l true) s fun t => t.laneState d l = 4 ∧ OnlyRegs [HLN_LANE_STATUS_STATE] s t) ∧
    Completes (.laneAdapted d l false) s (OnlyRegs [] s) ∧
    (∀ taps : Option Word,
      let st := s.laneState d l
      (st ≠ 3 → st ≠ 4 → Completes (.laneLock d l taps) s (OnlyRegs [] s)) ∧
      (∀ w, st = 4 → taps = some w → Completes (.laneLock d l taps) s fun t =>
        t.rd HLN_LANE_FFE_POST1 d l = w.toNat / 2 ^ 24 % 256 ∧ t.rd HLN_LANE_FFE_MAIN d l = w.toNat / 2 ^ 16 % 256 ∧
        t.rd HLN_LANE_FFE_PRE1 d l = w.toNat / 2 ^ 8 % 256 ∧ t.rd HLN_LANE_FFE_PRE2 d l = w.toNat % 256) ∧
      (st = 3 → s.laneGrp d l = none → Completes (.laneLock d l taps) s fun t =>
        t.laneState d l = 5 ∧ OnlyRegs [HLN_LANE_STATUS_STATE] s t) ∧
      (∀ k, st = 3 → s.laneGrp d l = some k → s.isTrunk d k = true → Completes (.laneLock d l taps) s fun t =>
        t.laneState d l = 6 ∧ t.lane d l = { s.lane d l with good := 0 } ∧
        t = { s with regs := t.regs, lanes := t.lanes, out := t.out } ∧ KeepsRegs [HLN_LANE_STATUS_STATE] s t) ∧
      (∀ k, st = 3 → s.laneGrp d l = some k → s.isTrunk d k = false →
        (∀ j ∈ s.grpLanes d k, j ≠ (l : Nat) → s.laneState d j = 5) → Completes (.laneLock d l taps) s fun t =>
          (t.rd HLN_EVENT_LANE_UP d).testBit l = true ∧ t.grpState d k = 2 ∧ (∀ j ∈ s.grpLanes d k, t.laneState d j = 7) ∧
          t.rd HLN_GRP_STATUS_ACTIVE d k = laneMask (s.grpLanes d k) % 256 ∧
          t.grp d k = { s.grp d k with order := s.grpLanes d k, rxUp := true })) ∧
    ∀ transit : Nat,
      let falls := fun (k v : Nat) (t : State) => t.laneState d l = v ∧ (t.rd HLN_EVENT_LANE_DOWN d).testBit l = true ∧
        t.grpState d k = 3 ∧ t.rd HLN_GRP_STATUS_EPOCH d k = (s.rd HLN_GRP_STATUS_EPOCH d k + 1) % 256 ∧
        (t.rd HLN_GRP_STATUS_ACTIVE d k).testBit l = false ∧
        t.rd HLN_GRP_CNT0_COUNT d k = min (s.rd HLN_GRP_CNT0_COUNT d k + transit) (2 ^ 32 - 1)
      let inSet := fun k => s.laneGrp d l = some k ∧ s.isTrunk d k = true ∧ s.grpState d k = 2 ∧ s.laneState d l = 7 ∧
        (s.rd HLN_GRP_STATUS_ACTIVE d k).testBit l = true
      (Completes (.laneDisable d l transit) s fun t => t.rd HLN_LANE_CFG_EN d l = 0 ∧ t.laneState d l = 0 ∧
        (s.laneUp d l = true → (t.rd HLN_EVENT_LANE_DOWN d).testBit l = true) ∧ ∀ k, inSet k → falls k 0 t) ∧
      (∀ present : Bool,
        (s.laneState d l = 0 ∨ s.laneState d l = 9 → Completes (.laneSignalLoss d l present transit) s (OnlyRegs [] s)) ∧
        (s.laneState d l ≠ 0 → s.laneState d l ≠ 9 → Completes (.laneSignalLoss d l present transit) s fun t =>
          t.laneState d l = (if present then 2 else 1) ∧ ∀ k, inSet k → falls k (if present then 2 else 1) t)) ∧
      (s.laneState d l = 0 → Completes (.wakeFail d l transit) s (OnlyRegs [] s)) ∧
      (s.laneState d l ≠ 0 → Completes (.wakeFail d l transit) s fun t => t.rd HLN_EVENT_WAKE_FAIL d = 1 ∧ t.laneState d l = 1 ∧
        ∀ k, inSet k → falls k 1 t)

/-- R284, R290 to R293 and R297. -/
def Obligations.HelloAndReform : Prop :=
  ∀ (s : State) (d g l : Fin 8), (d : Nat) < s.part.dies →
    (∀ k, s.laneGrp d l = some k → s.isTrunk d k = true → Completes (.helloSend d l) s fun t =>
      t.out = [.hello d l (s.helloOf d l k).encode] ∧ OnlyRegs [] s t) ∧
    (s.laneGrp d l = none → Completes (.helloSend d l) s fun t => t.out = [] ∧ OnlyRegs [] s t) ∧
    (∀ (bytes : List Byte) (transit : Nat),
      (Hello.parse bytes = none → Completes (.helloReceive d l bytes transit) s (OnlyRegs [] s)) ∧
      (∀ h k, Hello.parse bytes = some h → s.laneGrp d l = some k → s.isTrunk d k = true →
        ((s.grp d k).partner = none ∨ (s.grp d k).partner = some h.node → Completes (.helloReceive d l bytes transit) s fun t =>
          (t.lane d l).heard = some h ∧ (t.lane d l).good = (s.lane d l).good + 1 ∧ t.rd HLN_LANE_STATUS_PL_VALID d l = 1 ∧
          t.rd HLN_LANE_STATUS_PDIE d l = h.die % 8 ∧ t.rd HLN_LANE_STATUS_PLANE d l = h.lane % 8 ∧
          (s.laneState d l = 6 → 1 ≤ (s.lane d l).good →
            t.laneState d l = 8 ∧ (t.rd HLN_EVENT_LANE_UP d).testBit l = true) ∧
          (s.laneState d l = 6 → (s.lane d l).good = 0 → t.laneState d l = 6) ∧
          (epochAhead h.epoch (s.rd HLN_GRP_STATUS_EPOCH d k) = true → t.rd HLN_GRP_STATUS_EPOCH d k = h.epoch % 256 ∧
            (s.grpState d k = 2 → h.state = 2 → t.grpState d k = 3))) ∧
        (∀ p, (s.grp d k).partner = some p → p ≠ h.node → Completes (.helloReceive d l bytes transit) s fun t =>
          t.rd HLN_EVENT_PARTNER_CHG d = 1 ∧ (t.lane d l).heard = some h))) ∧
    (∀ transit : Nat,
      (∀ k, s.laneGrp d l = some k → s.isTrunk d k = true → s.rd HLN_GRP_STATUS_RX_DORMANT d k = 0 →
        Completes (.helloLoss d l transit) s fun t =>
          (t.lane d l).heard = none ∧ (t.lane d l).good = 0 ∧ t.rd HLN_LANE_STATUS_PL_VALID d l = 0 ∧
          (s.laneUp d l = true → t.laneState d l = 6 ∧ (t.rd HLN_EVENT_LANE_DOWN d).testBit l = true) ∧
          (s.laneUp d l = false → t.laneState d l = s.laneState d l)) ∧
      (∀ k, s.laneGrp d l = some k → s.rd HLN_GRP_STATUS_RX_DORMANT d k ≠ 0 →
        Completes (.helloLoss d l transit) s (OnlyRegs [] s)) ∧
      (s.isTrunk d g = false ∨ s.grpState d g = 0 → Completes (.reform d g transit) s (OnlyRegs [] s)) ∧
      (s.isTrunk d g = true → s.grpState d g ≠ 0 → Completes (.reform d g transit) s fun t =>
        t.rd HLN_GRP_STATUS_EPOCH d g = (s.rd HLN_GRP_STATUS_EPOCH d g + 1) % 256 ∧
        t.rd HLN_GRP_CNT0_COUNT d g = min (s.rd HLN_GRP_CNT0_COUNT d g + transit) (2 ^ 32 - 1) ∧
        t.grpState d g = (if s.grpState d g = 1 then 1 else 3) ∧
        (∀ k ∈ s.grpLanes d g, t.lane d k = { s.lane d k with held := [] }) ∧
        t = { s with regs := t.regs, lanes := t.lanes, out := t.out } ∧
        KeepsRegs [HLN_GRP_STATUS_EPOCH, HLN_GRP_CNT0_COUNT, HLN_GRP_STATUS_STATE, HLN_EVENT_GRP_CHG,
          HLN_GRP_STATUS_INPUT_LOST, FLW_CFG_CSF_TX] s t)) ∧
    (∀ (pos : Fin 8) (size : Fin 9) (epoch : Fin 256) (count : Fin 16777216),
      Completes (.align d l pos size epoch count) s fun t =>
        t.lane d l = { s.lane d l with align := some ((pos : Nat), (size : Nat), (epoch : Nat), (count : Nat)), next := (count : Nat) } ∧
        t = { s with regs := t.regs, lanes := t.lanes, out := t.out } ∧ KeepsRegs [] s t) ∧
    (let e := s.rd HLN_GRP_STATUS_EPOCH d g
      let ls := s.activeSet_ d g
      (ls = [] → Completes (.groupUp d g) s (OnlyRegs [] s)) ∧
      (s.isTrunk d g = true → s.grpState d g = 1 ∨ s.grpState d g = 3 → ls ≠ [] →
        (∀ k ∈ ls, (s.lane d k).heard.map Hello.epoch = some e ∧ (s.lane d k).align.map (fun a => a.2.2.1) = some e) →
        Completes (.groupUp d g) s fun t =>
          t.grpState d g = 2 ∧ (t.grp d g).order = ls ∧ (t.grp d g).rxUp = true ∧ (∀ k ∈ ls, t.laneState d k = 7) ∧
          t.rd HLN_GRP_STATUS_ACTIVE d g = laneMask ls % 256 ∧
          t.rd HLN_GRP_CNT1_COUNT d g = min (s.rd HLN_GRP_CNT1_COUNT d g + 1) (2 ^ 32 - 1))) ∧
    (s.grpState d g = 1 ∨ s.grpState d g = 3 → Completes (.reformTimeout d g) s fun t =>
      t.grp d g = { s.grp d g with rxUp := false } ∧
      t.rd HLN_GRP_STATUS_INPUT_LOST d g =
        b2n (s.flag HLN_GRP_CFG_EN d g && !s.flag HLN_GRP_STATUS_RX_DORMANT d g) ∧
      (∀ f ∈ s.clientFlows d g, t.rd FLW_CFG_CSF_TX d f =
        if t.inputLost d f = s.inputLost d f then s.rd FLW_CFG_CSF_TX d f else b2n (t.inputLost d f)) ∧
      t = { s with regs := t.regs, grps := t.grps, out := t.out } ∧
      KeepsRegs [HLN_GRP_STATUS_INPUT_LOST, FLW_CFG_CSF_TX] s t) ∧
    (s.grpState d g ≠ 1 → s.grpState d g ≠ 3 → Completes (.reformTimeout d g) s (OnlyRegs [] s))

/-- R281 to R283, R286, R294 to R296, R298 and R299. -/
def Obligations.HostTrafficSleepAndStamps : Prop :=
  ∀ (s : State) (d g l : Fin 8), (d : Nat) < s.part.dies →
    (∀ (body : List Byte) (data : List (Option (List Bool))),
      let f := bitsAt (beAt body 0 2) 0 9
      let crcOk := beAt body 6 1 = crcMsb 8 0x07 0 (body.take 6)
      let mapped := s.rd HLN_FLOW_GRP_VALID d f ≠ 0 ∧ s.rd HLN_FLOW_GRP_GROUP d f = g
      (s.isTrunk d g = false ∨ s.rd HLN_GRP_CFG_EN d g = 0 → Completes (.flowTag d g body data) s (OnlyRegs [] s)) ∧
      (s.isTrunk d g = true → s.rd HLN_GRP_CFG_EN d g ≠ 0 → body.length ≠ 7 ∨ ¬crcOk ∨ ¬mapped →
        Completes (.flowTag d g body data) s fun t =>
        t.rd HLN_GRP_CNT2_COUNT d g = min (s.rd HLN_GRP_CNT2_COUNT d g + 1) (2 ^ 32 - 1) ∧ OnlyRegs [HLN_GRP_CNT2_COUNT] s t) ∧
      (s.isTrunk d g = true → s.rd HLN_GRP_CFG_EN d g ≠ 0 → body.length = 7 → crcOk → mapped →
        (beAt body 2 1 = 0 → Completes (.flowTag d g body data) s fun t =>
          t.flow d f = { s.flow d f with replaceRx := (beAt body 4 1).testBit 0 } ∧
          t.rd FLW_CFG_CSF_TX d f =
            (if t.inputLost d f = s.inputLost d f then s.rd FLW_CFG_CSF_TX d f else b2n (t.inputLost d f)) ∧
          t = { s with regs := t.regs, flows := t.flows, out := t.out } ∧ KeepsRegs [FLW_CFG_CSF_TX] s t) ∧
        (∀ w0 w1 w2 w3, beAt body 2 1 = 1 → data = [some w0, some w1, some w2, some w3] →
          s.rd HLN_GRP_STATUS_RX_DORMANT d g = 0 → s.rd FLW_CFG_TX_EN d f ≠ 0 → s.txSlots d f ≠ [] →
          (s.flow d f).buffer.length < 16 + s.frameRoom d f s.time.mf → Completes (.flowTag d g body data) s fun t =>
            t.flow d f = { s.flow d f with
              replaceRx := (beAt body 4 1).testBit 0
              buffer := (s.flow d f).buffer ++ [true :: (w0 ++ (w1 ++ (w2 ++ w3)))] } ∧
            t = { s with regs := t.regs, flows := t.flows, out := t.out } ∧ KeepsRegs [FLW_CFG_CSF_TX] s t))) ∧
    (∀ f : Fin 512,
      (s.flowGrp d f = none → Completes (.replaceTagSend d f) s fun t => t.out = [] ∧ OnlyRegs [] s t) ∧
      (∀ k l, s.flowGrp d f = some k → s.isTrunk d k = true → s.grpState d k = 2 → s.rd HLN_GRP_STATUS_TX_DORMANT d k = 0 →
        s.rd FLW_CFG_REPLACE d f ≠ 0 ∨ (s.flow d f).toHost = [] →
        (s.grp d k).order[(s.grp d k).turnTx % (s.grp d k).order.length]? = some l →
        (s.lane d l).sent % 20480 ≠ 0 → (s.lane d l).filled < 1022 → Completes (.replaceTagSend d f) s fun t =>
          let b := bytesBE 2 f ++ [0, 0, 1, 0]
          let r := selfScramble (s.lane d l).scrTx (unpackBits (0x2D :: (b ++ bytesBE 1 (crcMsb 8 0x07 0 b))))
          t.out = [.laneBlock d l true r.1] ∧
          t.lane d l = { s.lane d l with
            sent := (s.lane d l).sent + 1, filled := (s.lane d l).filled + 1, scrTx := r.2
            dealt := ((s.lane d l).dealt + 1) % 2 ^ 24 } ∧
          t.grp d k = { s.grp d k with turnTx := (s.grp d k).turnTx + 1 } ∧
          t = { s with regs := t.regs, lanes := t.lanes, grps := t.grps, out := t.out } ∧ KeepsRegs [] s t)) ∧
    (∀ (corrected bad : Bool),
      let fecOf := fun t : State =>
        t.rd HLN_LANE_FEC_UNC_COUNT d l =
          (if bad then min (s.rd HLN_LANE_FEC_UNC_COUNT d l + 1) (2 ^ 32 - 1) else s.rd HLN_LANE_FEC_UNC_COUNT d l) ∧
        t.rd HLN_LANE_FEC_CORR_COUNT d l = (if !bad && corrected then min (s.rd HLN_LANE_FEC_CORR_COUNT d l + 1) (2 ^ 32 - 1)
          else s.rd HLN_LANE_FEC_CORR_COUNT d l)
      (∀ b : List Bool,
        let f := s.rd HLN_GRP_CFG_FLOW d g
        (s.isTrunk d g = true ∨ s.grpState d g ≠ 2 →
          Completes (.auiCodeword d g l [b] corrected bad) s (OnlyRegs [] s)) ∧
        (s.isTrunk d g = false → s.grpState d g = 2 → s.rd FLW_CFG_TX_EN d f ≠ 0 → s.txSlots d f ≠ [] →
          (s.flow d f).buffer.length < 16 + s.frameRoom d f s.time.mf → Completes (.auiCodeword d g l [b] corrected bad) s fun t => fecOf t ∧
            (bad = true → t.rd HLN_GRP_CNT3_COUNT d g = min (s.rd HLN_GRP_CNT3_COUNT d g + 1) (2 ^ 32 - 1)) ∧
            t.flow d f = { s.flow d f with buffer := (s.flow d f).buffer ++ [if bad then errorBlock else b] } ∧
            t = { s with regs := t.regs, flows := t.flows, out := t.out } ∧
            KeepsRegs [HLN_LANE_FEC_UNC_COUNT, HLN_LANE_FEC_CORR_COUNT, HLN_GRP_CNT3_COUNT] s t)) ∧
      (∀ blocks, Completes (.trunkCodeword d l corrected bad blocks) s fun t => fecOf t ∧
        t = { s with regs := t.regs, lanes := t.lanes, grps := t.grps, out := t.out } ∧
        KeepsRegs [HLN_LANE_FEC_UNC_COUNT, HLN_LANE_FEC_CORR_COUNT, HLN_GRP_CNT2_COUNT] s t ∧
        (s.laneGrp d l = none → t.lanes = s.lanes ∧ t.grps = s.grps ∧ t.out = [] ∧
          ∀ k, t.rd HLN_GRP_CNT2_COUNT d k = s.rd HLN_GRP_CNT2_COUNT d k)) ∧
      ∀ (k : Nat) (ctl : Bool) (bits : List Bool), s.laneGrp d l = some k → s.isTrunk d k = true →
        (s.grp d k).order = [(l : Nat)] → (s.lane d l).held = [] →
        ({ control := some ctl, bits := bits } : TrunkBlock).type ≠ some 0x4B →
        let r := selfDescramble (s.lane d l).scrRx bits
        let b : TrunkBlock := { control := some ctl, bits := r.1 }
        let c := [((if ctl then 2 else 1 : BitVec 2), bits)]
        (b.type = some 0x1E ∨ b.type = some 0x55 → Completes (.trunkCodeword d l corrected false c) s fun t =>
          t.out = [] ∧ t.lane d l = { s.lane d l with scrRx := r.2 } ∧ t.grp d k = s.grp d k) ∧
        (ctl = false → s.grpState d k = 2 → (s.grp d k).turnRx % 2 ^ 24 = (s.lane d l).next →
          Completes (.trunkCodeword d l corrected false c) s fun t =>
            t.lane d l = { s.lane d l with scrRx := r.2, next := ((s.lane d l).next + 1) % 2 ^ 24 } ∧
            (t.grp d k).turnRx = (s.grp d k).turnRx + 1 ∧ (t.grp d k).burst = (s.grp d k).burst - 1 ∧
            if (s.grp d k).burst = 0 then t.out = [] ∧
              t.rd HLN_GRP_CNT2_COUNT d k = min (s.rd HLN_GRP_CNT2_COUNT d k + 1) (2 ^ 32 - 1)
            else t.out = [.groupBlock d k b] ∧ t.rd HLN_GRP_CNT2_COUNT d k = s.rd HLN_GRP_CNT2_COUNT d k)) ∧
    (s.isTrunk d g = true ∨ s.rd HLN_GRP_CFG_TX_TIMING d g ≠ 0 → Completes (.txRateLimit d g) s (OnlyRegs [] s)) ∧
    (s.isTrunk d g = false → s.rd HLN_GRP_CFG_TX_TIMING d g = 0 → Completes (.txRateLimit d g) s fun t =>
      t.rd HLN_EVENT_TX_RATE_LIMIT d = 1 ∧ t.grp d g = { s.grp d g with limited := true } ∧
      t = { s with regs := t.regs, grps := t.grps, out := t.out } ∧ KeepsRegs [HLN_EVENT_TX_RATE_LIMIT] s t) ∧
    (∀ idles : Nat, Completes (.txRateInRange d g idles) s fun t =>
      t.rd HLN_GRP_CNT4_COUNT d g = min (s.rd HLN_GRP_CNT4_COUNT d g + idles) (2 ^ 32 - 1) ∧
      t.grp d g = { s.grp d g with limited := false } ∧
      t = { s with regs := t.regs, grps := t.grps, out := t.out } ∧ KeepsRegs [HLN_GRP_CNT4_COUNT] s t) ∧
    (s.rd HLN_GRP_CFG_SLEEP_EN d g = 0 →
      Completes (.directionSleep d g) s (OnlyRegs [] s) ∧ Completes (.sleep d g) s (OnlyRegs [] s)) ∧
    (s.isTrunk d g = true → s.rd HLN_GRP_CFG_SLEEP_EN d g ≠ 0 →
      (s.grpState d g = 2 → (s.rd HLN_GRP_PCAP_CAP d g).testBit 0 = true →
        (∀ f ∈ s.grpFlows d g, s.rxSlots d f = [] ∧ (s.flow d f).toHost = []) → Completes (.directionSleep d g) s fun t =>
          t.rd HLN_GRP_STATUS_TX_DORMANT d g = 1 ∧ t.out.length = 16 * (s.grp d g).order.length ∧
          (∀ o ∈ t.out, ∃ k ∈ (s.grp d g).order, ∃ bits, o = .laneBlock d k true bits) ∧
          t = { s with regs := t.regs, lanes := t.lanes, out := t.out } ∧ KeepsRegs [HLN_GRP_STATUS_TX_DORMANT] s t) ∧
      (s.rd HLN_GRP_CFG_EN d g ≠ 0 → Completes (.sleep d g) s fun t =>
        t.rd HLN_GRP_STATUS_RX_DORMANT d g = 1 ∧ t.rd HLN_GRP_STATUS_INPUT_LOST d g = 0 ∧
        (∀ k ∈ s.grpLanes d g, t.laneState d k = if s.laneUp d k then 9 else s.laneState d k) ∧
        t.grp d g = { s.grp d g with resume := s.grpState d g == 3 || s.grpState d g == 1 } ∧
        t = { s with regs := t.regs, grps := t.grps, out := t.out } ∧
        KeepsRegs [HLN_GRP_STATUS_RX_DORMANT, HLN_GRP_STATUS_INPUT_LOST, HLN_LANE_STATUS_STATE, FLW_CFG_CSF_TX] s t)) ∧
    (s.rd HLN_GRP_STATUS_TX_DORMANT d g = 0 → Completes (.groupWake d g) s fun t => t.out = [] ∧ OnlyRegs [] s t) ∧
    (s.rd HLN_GRP_STATUS_TX_DORMANT d g ≠ 0 → Completes (.groupWake d g) s fun t =>
      t.rd HLN_GRP_STATUS_TX_DORMANT d g = 0 ∧
      t.out = ((s.grp d g).order.zipIdx.map fun e => .laneBlock d e.1 true
        (alignBlock e.2 (s.grp d g).order.length (s.rd HLN_GRP_STATUS_EPOCH d g) (s.lane d e.1).dealt).bits) ∧
      t = { s with regs := t.regs, lanes := t.lanes, out := t.out } ∧ KeepsRegs [HLN_GRP_STATUS_TX_DORMANT] s t) ∧
    (∀ transit : Nat,
      (s.rd HLN_GRP_STATUS_RX_DORMANT d g = 0 → Completes (.wakeBurst d g transit) s (OnlyRegs [] s)) ∧
      (s.rd HLN_GRP_STATUS_RX_DORMANT d g ≠ 0 → Completes (.wakeBurst d g transit) s fun t =>
        t.rd HLN_GRP_STATUS_RX_DORMANT d g = 0 ∧ t.grp d g = { s.grp d g with resume := false } ∧
        (∀ k ∈ s.grpLanes d g, t.laneState d k = if s.laneState d k = 9 then
          (if (s.rd HLN_GRP_STATUS_ACTIVE d g).testBit k then 7 else 8) else s.laneState d k) ∧
        ((s.grp d g).resume = true → s.isTrunk d g = true → s.grpState d g ≠ 0 →
          t.rd HLN_GRP_STATUS_EPOCH d g = (s.rd HLN_GRP_STATUS_EPOCH d g + 1) % 256))) ∧
    (∀ (tx : Bool) (seqId : Fin 65536) (domain : Fin 256) (msgType : Fin 16),
      (∀ kind, s.rd HLN_TS_CTRL_EN d = 0 → Completes (.timestamp d g tx kind seqId domain msgType) s (OnlyRegs [] s)) ∧
      (s.rd HLN_TS_CTRL_L2 d = 0 → Completes (.timestamp d g tx .l2 seqId domain msgType) s (OnlyRegs [] s)) ∧
      (s.rd HLN_TS_CTRL_EN d ≠ 0 → s.rd HLN_TS_CTRL_L2 d ≠ 0 → s.isTrunk d g = false →
        ((s.stampQ d).length < 64 → Completes (.timestamp d g tx .l2 seqId domain msgType) s fun t =>
          t.stampQ d = s.stampQ d ++ [s.stampWords g tx seqId domain msgType] ∧
          t.rd HLN_TS_STATUS_FILL d = (s.stampQ d).length + 1) ∧
        (64 ≤ (s.stampQ d).length → Completes (.timestamp d g tx .l2 seqId domain msgType) s fun t =>
          t.rd HLN_TS_STATUS_LOST d = min (s.rd HLN_TS_STATUS_LOST d + 1) (2 ^ 16 - 1) ∧ t.rd HLN_EVENT_TS_OVERFLOW d = 1 ∧
          OnlyRegs [HLN_TS_STATUS_LOST, HLN_EVENT_TS_OVERFLOW] s t)) ∧
      (s.rd HLN_TS_CTRL_EN d ≠ 0 → s.rd HLN_TS_CTRL_MARK d ≠ 0 → s.isTrunk d g = true → (s.stampQ d).length < 64 →
        Completes (.timestamp d g tx .mark seqId domain msgType) s fun t => t.stampQ d = s.stampQ d ++ [s.stampWords g tx seqId 0 0])) ∧
    Completes (.tsEntryRead d) s fun t =>
      t.bus.last.code = 0 ∧ t.bus.last.data = s.rd HLN_TS_ENTRY_DATA d 3 ∧ t.stampQ d = (s.stampQ d).drop 1 ∧
      t.rd HLN_TS_STATUS_FILL d = ((s.stampQ d).length - 1) % 2 ^ 7 ∧
      (∀ e es, s.stampQ d = e :: es → ∀ k, k < 4 →
        t.rd HLN_TS_ENTRY_DATA d k = (es.headD [0, 0, 0, 0]).getD k 0 % 2 ^ 32) ∧
      t = { s with regs := t.regs, stamps := t.stamps, bus := t.bus, out := t.out } ∧
      KeepsRegs [HLN_TS_STATUS_FILL, HLN_TS_ENTRY_DATA] s t

/-- R235, R236, R238 to R240 and R243 to R245. -/
def Obligations.PlanMessages : Prop :=
  ∀ (s : State) (d : Fin 8) (body : List Byte), (d : Nat) < s.part.dies →
    let b := s.teamBase d
    let x := s.team b
    let st := s.rd FRM_PLAN_STATUS_STATE b
    let onlyTeams := fun t : State => t = { s with regs := t.regs, teams := t.teams, out := t.out } ∧ KeepsRegs [] s t
    let h := State.headPropose body
    let a := State.headAccept body
    (x.head = some h → Completes (.propose d body) s (OnlyRegs [] s)) ∧
    (x.head ≠ some h → h.entries ≠ 0 → Completes (.propose d body) s fun t =>
      t.team b = { x with head := some h, entries := [], judged := false } ∧ onlyTeams t) ∧
    (x.head ≠ some h → h.entries = 0 → s.txn.isOpen = true → st = 0 → Completes (.propose d body) s fun t =>
      (t.team b).judged = true ∧ t.rd FRM_PLAN_STATUS_REJECT_REASON b = rejectBusy ∧ t.rd FRM_EVENT_PLAN_REJECT b = 1 ∧
      (t.team b).sending = [bytesBE 1 4 ++ bytesBE 1 ((x.seq + 1) % 256) ++ [0, 0] ++
        (bytesBE 4 h.epoch ++ bytesBE 1 rejectBusy) ++ List.replicate 23 0] ∧
      t.out = [.planMsg b (t.team b).sending]) ∧
    (x.head = none → Completes (.planData d body) s (OnlyRegs [] s)) ∧
    (∀ k, x.head = some k →
      let i := beAt body 4 2
      (beAt body 0 4 ≠ k.epoch ∨ k.entries ≤ i ∨ x.judged = true ∨ (x.entries.any fun e => e.1 == i) = true →
        Completes (.planData d body) s (OnlyRegs [] s)) ∧
      (beAt body 0 4 = k.epoch → i < k.entries → x.judged = false → (x.entries.any fun e => e.1 == i) = false →
        x.entries.length + 1 < k.entries → Completes (.planData d body) s fun t =>
          t.team b = { x with entries := x.entries ++ [(i, (body.drop 6).take 22)] } ∧ onlyTeams t)) ∧
    (st ≠ 1 → st ≠ 4 → Completes (.accept d body) s (OnlyRegs [] s)) ∧
    (st = 1 ∨ st = 4 → x.head ≠ some a → a.entries ≠ 0 → Completes (.accept d body) s fun t =>
      t.team b = { x with head := some a, entries := [], judged := false } ∧ onlyTeams t) ∧
    (st ≠ 1 → Completes (.reject d body) s (OnlyRegs [] s)) ∧
    (st = 1 → s.txn.isOpen = true → s.txn.planTeam = some b → beAt body 0 4 = s.txn.planEpoch →
      Completes (.reject d body) s fun t =>
        t.rd FRM_PLAN_STATUS_REJECT_REASON b = beAt body 4 1 % 16 ∧ t.rd FRM_PLAN_STATUS_REJECT_RX b = 1 ∧
        t.rd FRM_EVENT_PLAN_REJECT b = 1 ∧ t.rd FRM_PLAN_STATUS_STATE b = 0 ∧ t.txn.isOpen = false ∧
        t.rd IMG_TXN_STATUS_RESULT pkg = 2 ∧ t.rd IMG_TXN_STATUS_REASON pkg = reasonPlanRefused % 16) ∧
    (s.txn.acceptor = false → Completes (.confirm d body) s (OnlyRegs [] s)) ∧
    (s.txn.acceptor = true → s.txn.planTeam = some b → beAt body 0 4 = s.txn.planEpoch → Completes (.confirm d body) s fun t =>
      t.team b = { x with confirm := true } ∧ onlyTeams t) ∧
    (s.txn.acceptor = false → x.head = none → Completes (.withdraw d body) s (OnlyRegs [] s)) ∧
    (s.txn.acceptor = true → s.txn.isOpen = true → s.txn.planTeam = some b → s.txn.planEpoch = beAt body 0 4 →
      s.txn.goSent = false → Completes (.withdraw d body) s fun t =>
        t.txn.isOpen = false ∧ t.rd FRM_PLAN_STATUS_STATE b = 0 ∧ t.rd IMG_TXN_STATUS_RESULT pkg = 2 ∧ (t.team b).head = none) ∧
    (∀ c, x.change = some c → c.revert = false ∨ c.switched = true → Completes (.planRevert d body) s (OnlyRegs [] s)) ∧
    (x.change = none → s.txn.isOpen = false → Completes (.planRevert d body) s fun t =>
      let mask := beAt body 16 8 ||| s.disputed b
      (t.team b).change = some {
        revert := true, epoch := beAt body 0 4, mf := s.time.mf + 1 + s.rd IMG_TXN_CTRL_LEAD pkg, disputed := mask } ∧
      t.rd FRM_PLAN_STATUS_STATE b = 4 ∧ t.rd FRM_PLAN_DISP_LO_MASK b = mask % 2 ^ 32 ∧
      t.rd FRM_PLAN_DISP_HI_MASK b = mask / 2 ^ 32 % 2 ^ 32 ∧ t.rd FRM_EVENT_PLAN_REVERT b = 1)

/-- R33, R34, R37, R240, R242, R244 and R459. -/
def Obligations.PlanChanges : Prop :=
  ∀ (s : State) (d : Fin 8), (d : Nat) < s.part.dies →
    let b := s.teamBase d
    let x := s.team b
    let mine := s.txn.isOpen = true ∧ s.txn.acceptor = true ∧ s.txn.planTeam = some b ∧ s.txn.goSent = false
    (s.txn.isOpen = false ∨ s.txn.acceptor = false ∨ s.txn.goSent = true →
      Completes (.acceptorGoDeadline d) s (OnlyRegs [] s)) ∧
    (mine → x.confirm = true → Completes (.acceptorGoDeadline d) s fun t =>
      t.txn = { s.txn with goSent := true } ∧ t.rd IMG_TXN_STATUS_STATE pkg = 3 ∧
      t.time.mf = max s.time.mf (s.txn.mf - 1) ∧
      (s.rd IMG_SHADOW_VALID pkg = 0 →
        t = { s with regs := t.regs, txn := t.txn, time := t.time, out := t.out } ∧ KeepsRegs [IMG_TXN_STATUS_STATE] s t)) ∧
    (mine → x.confirm = false → x.goNext = false →
      (x.farNext = some s.txn.planEpoch → Completes (.acceptorGoDeadline d) s fun t =>
        t.txn.isOpen = true ∧ t.txn.goSent = false ∧ s.txn.mf < t.txn.mf ∧ t.time.mf + 2 ≤ t.txn.mf ∧
        t.rd IMG_TXN_MF_MF pkg = t.txn.mf % 2 ^ 32 ∧ (t.team b).goNext = true) ∧
      (∀ e, x.farNext = some e → e ≠ s.txn.planEpoch → Completes (.acceptorGoDeadline d) s fun t =>
        t.txn.isOpen = false ∧ t.rd IMG_TXN_STATUS_RESULT pkg = 2 ∧ t.rd FRM_PLAN_STATUS_STATE b = 0)) ∧
    (let e := if s.cairnSwitch b then 1 else s.farEpoch b
     (e = x.rxEpoch → Completes (.rxPlanSwitch d) s (OnlyRegs [] s)) ∧
      (e ≠ x.rxEpoch → s.farPlan b e = none → Completes (.rxPlanSwitch d) s fun t => t.rd FRM_EVENT_PLAN_UNKNOWN b = 1 ∧
        OnlyRegs [FRM_EVENT_PLAN_UNKNOWN] s t) ∧
      ∀ p, e ≠ x.rxEpoch → s.farPlan b e = some p → Completes (.rxPlanSwitch d) s fun t => (t.team b).rxEpoch = e) ∧
    (x.diffRun < s.rd FRM_PLAN_CTRL_PLAN_WAIT b → Completes (.planDisagreement d) s (OnlyRegs [] s)) ∧
    (s.rd FRM_PLAN_STATUS_STATE b = 0 → x.openAt = none → s.rd FRM_PLAN_CTRL_PLAN_WAIT b ≤ x.diffRun → x.baseCamp = false →
      Completes (.planDisagreement d) s fun t =>
        (∃ m, s.time.mf < m ∧ (t.team b).change = some {
          revert := true, epoch := max (s.txEpoch b) (s.farEpoch b) + 1, mf := m, disputed := s.disputed b }) ∧
        t.rd FRM_PLAN_STATUS_STATE b = 4 ∧ t.rd FRM_EVENT_PLAN_REVERT b = 1) ∧
    (x.openAt = none → Completes (.handshakeTimeout d) s (OnlyRegs [] s)) ∧
    (∀ m, x.openAt = some m →
      (s.time.mf < m + 16 → Completes (.handshakeTimeout d) s (OnlyRegs [] s)) ∧
      (m + 16 ≤ s.time.mf → Completes (.handshakeTimeout d) s fun t => t.rd FRM_PLAN_STATUS_STATE b = 0 ∧
        t.team b = { x with
          head := none, entries := [], judged := false, agreedM := none, confirm := false, goNext := false, farNext := none
          openAt := none } ∧
        t = { s with regs := t.regs, teams := t.teams, out := t.out } ∧ KeepsRegs [FRM_PLAN_STATUS_STATE] s t)) ∧
    ((∀ e ∈ s.teamDies b, (s.die e).absenceDue = false) → Completes (.absenceChangeStart d) s (OnlyRegs [] s)) ∧
    (∀ e ∈ s.teamDies b, (s.die e).absenceDue = true → s.txn.isOpen = false → x.change = none →
      Completes (.absenceChangeStart d) s fun t => (t.die e).absenceDue = false ∧ t.rd FRM_PLAN_STATUS_STATE b = 1 ∧
        ∃ m mask, s.time.mf < m ∧ (t.team b).change = some {
          revert := false, epoch := max (s.agreed b) (s.txEpoch b) + 1, mf := m, disputed := mask } ∧
          ∀ g, g < 8 * s.teamSize b →
            mask.testBit g = (s.memberState (b + g / 8) == 3 || s.armRetired (b + g / 8) (g % 8))) ∧
    ((∀ c, x.change = some c → c.switched = true) → Completes (.planChangeTxSwitch d) s (OnlyRegs [] s)) ∧
    (∀ c, x.change = some c → c.switched = false → Completes (.planChangeTxSwitch d) s fun t =>
      (t.team b).change = some { c with switched := true } ∧ t.txEpoch b = c.epoch % 2 ^ 32 ∧
      (t.team b).openAt = some t.time.mf) ∧
    (s.rejoinReady d = false → Completes (.rejoinStart d) s (OnlyRegs [] s)) ∧
    (s.rejoinReady d = true → s.teamSize d = 1 → Completes (.rejoinStart d) s fun t =>
      t.memberState d = 1 ∧ (t.team d).rebase = true ∧ (t.team d).rejoin = (if (s.die d).unparked then [] else [(d : Nat)]) ∧
      t.die d = { s.die d with rejoinReq := false, unparked := false }) ∧
    (s.rejoinReady d = true → s.teamSize d ≠ 1 → s.txn.isOpen = true → Completes (.rejoinStart d) s (OnlyRegs [] s))

/-- R418 to R425 and R427. -/
def Obligations.CairnDiscovery : Prop :=
  ∀ (s : State) (d : Fin 8), (d : Nat) < s.part.dies →
    let b := s.teamBase d
    let x := s.cairnSt d
    let cnt := fun (k : Nat) (t : State) => t.rd BUP_CAIRN_CNT_COUNT d k = min (s.rd BUP_CAIRN_CNT_COUNT d k + 1) (2 ^ 32 - 1)
    let only := fun (fs : List Fld) (t : State) =>
      t = { s with regs := t.regs, cairn := t.cairn, out := t.out } ∧ KeepsRegs fs s t
    (s.discovering d = false → Completes (.cairnBurstSend d) s (OnlyRegs [] s) ∧ Completes (.noPeer d) s (OnlyRegs [] s) ∧
      (∀ rx pos, Completes (.cairnDetection d rx pos) s (OnlyRegs [] s)) ∧
      ∀ syms, Completes (.cairnHeader d syms) s (OnlyRegs [] s) ∧ Completes (.cairnBody d syms) s (OnlyRegs [] s)) ∧
    (s.discovering d = true →
      ((s.team b).sending = [] ∨ x.turn = false → Completes (.cairnBurstSend d) s fun t =>
        t.out = [.cairn d (burstSymbols (s.cairnHeader d 0x01 0) [])] ∧ t.cairnSt d = { x with turn := !(s.team b).sending.isEmpty } ∧ only [] t) ∧
      ((s.team b).sending ≠ [] → x.turn = true → Completes (.cairnBurstSend d) s fun t =>
        let recs := if x.rest = [] then (s.team b).sending else x.rest
        let body := (recs.take 48).flatten
        t.out = [.cairn d (burstSymbols (s.cairnHeader d (burstType (beAt ((s.team b).sending.headD []) 0 1)) body.length)
          (body ++ bytesBE 4 (crc32c body)))] ∧
        t.cairnSt d = { x with turn := false, rest := recs.drop 48 } ∧ only [] t) ∧
      (∀ (rx : List Cpx) (pos : Nat),
        let power := (repetition rx).2
        let high := (s.rd BUP_CAIRN_CTRL_DET_TH d : ℚ) / 256 ≤ (repetition rx).1
        let fresh : CairnPkt := { power := power, pos := pos }
        (¬high → Completes (.cairnDetection d rx pos) s (OnlyRegs [] s)) ∧
        (high → x.pkt = none → Completes (.cairnDetection d rx pos) s fun t => cnt cntDetect t ∧ t.cairnSt d = { x with pkt := some fresh } ∧
          only [BUP_CAIRN_CNT_COUNT] t) ∧
        (∀ p, x.pkt = some p → p.pos = pos → Completes (.cairnDetection d rx pos) s (OnlyRegs [] s)) ∧
        (∀ p, high → x.pkt = some p → p.pos ≠ pos →
          (p.power * pow10 ((s.rd BUP_CAIRN_CTRL_CAPTURE d : ℚ) / 20) ≤ power → Completes (.cairnDetection d rx pos) s fun t =>
            cnt cntDetect t ∧ cnt cntCaptured t ∧ t.cairnSt d = { x with pkt := some fresh } ∧ only [BUP_CAIRN_CNT_COUNT] t) ∧
          (power < p.power * pow10 ((s.rd BUP_CAIRN_CTRL_CAPTURE d : ℚ) / 20) → Completes (.cairnDetection d rx pos) s fun t =>
            cnt cntDetect t ∧ cnt cntMissed t ∧ t.cairnSt d = x ∧ OnlyRegs [BUP_CAIRN_CNT_COUNT] s t))) ∧
      (∀ syms : List ℚ,
        let bytes := burstHeader syms
        let body := burstBytes 2 syms
        (x.pkt = none → Completes (.cairnHeader d syms) s (OnlyRegs [] s) ∧ Completes (.cairnBody d syms) s (OnlyRegs [] s)) ∧
        (∀ p, x.pkt = some p →
          let good := bytes.length = 32 ∧ crc16 (bytes.take 30) = beAt bytes 30 2
          (¬good → Completes (.cairnHeader d syms) s fun t => cnt cntFalse t ∧ t.cairnSt d = { x with pkt := none } ∧
            only [BUP_CAIRN_CNT_COUNT] t) ∧
          (good → beAt bytes 6 8 = s.nodeId d → Completes (.cairnHeader d syms) s fun t => cnt cntReflect t ∧
            t.cairnSt d = { x with pkt := none } ∧ only [BUP_CAIRN_CNT_COUNT] t) ∧
          (good → beAt bytes 6 8 ≠ s.nodeId d → s.rd BUP_CAIRN_STATUS_STATE d ≠ 3 → Completes (.cairnHeader d syms) s fun t =>
            ∃ q ∈ (t.cairnSt d).peers, q.node = beAt bytes 6 8 ∧ q.team = beAt bytes 2 1 ∧ q.at_ = s.sfCount ∧
              q.power = State.powerCode p.power ∧ q.grid = (256 * beAt bytes 24 4 + beAt bytes 23 1 : Nat) - (s.sfCount : Int)) ∧
          (p.header = none → Completes (.cairnBody d syms) s (OnlyRegs [] s)) ∧
          (∀ h, p.header = some h →
            let n := beAt h 28 2
            let whole := body.length = n + 4 ∧ crc32c (body.take n) = beAt body n 4
            (¬whole → Completes (.cairnBody d syms) s fun t => cnt cntBody t ∧ t.cairnSt d = { x with pkt := none } ∧
              only [BUP_CAIRN_CNT_COUNT] t) ∧
            (whole → (s.team b).peer ≠ some (beAt h 6 8, beAt h 2 1) → Completes (.cairnBody d syms) s fun t =>
              t.cairnSt d = { x with pkt := none } ∧ only [] t)))) ∧
      ((x.peers.any (s.compatible b)) = true → Completes (.noPeer d) s (OnlyRegs [] s)) ∧
      ((x.peers.any (s.compatible b)) = false → Completes (.noPeer d) s fun t =>
        t.rd BUP_EVENT_NO_PEER d = 1 ∧ OnlyRegs [BUP_EVENT_NO_PEER] s t)) ∧
    (∀ i : Fin 8,
      (x.peers.length ≤ i → Completes (.peerExpire d i) s (OnlyRegs [] s)) ∧
      (∀ p, x.peers[(i : Nat)]? = some p →
        ((s.sfCount - p.at_) * 4096 < 64000000 → Completes (.peerExpire d i) s (OnlyRegs [] s)) ∧
        (64000000 ≤ (s.sfCount - p.at_) * 4096 → Completes (.peerExpire d i) s fun t =>
          t.cairnSt d = { x with peers := x.peers.eraseIdx i } ∧
          t.rd BUP_CAIRN_STATUS_PEERS d = (x.peers.length - 1) % 16))) ∧
    (s.cairnDie b = none → Completes (.epoch1Retry d) s (OnlyRegs [] s)) ∧
    (s.rd BUP_CTRL_AUTO_RAMP b = 0 → Completes (.epoch2Commit d) s (OnlyRegs [] s)) ∧
    (s.txn.isOpen = false → s.rd FRM_PLAN_STATUS_STATE b = 0 →
      let opened := fun (ramp lead : Nat) (t : State) => t.txn.isOpen = true ∧ t.txn.ramp = ramp ∧ t.txn.planTeam = some b ∧
        t.txn.mf = s.time.mf + 1 + max 2 lead ∧ t.rd IMG_TXN_STATUS_STATE pkg = 1
      (∀ e, s.cairnDie b = some e → (s.team b).baseCamp = true → s.discovering e = true →
        s.rd BUP_CAIRN_STATUS_MUTUAL e ≠ 0 → s.leadsStart b = true → Completes (.epoch1Retry d) s fun t =>
          opened 1 (s.rd BUP_CTRL_CAIRN_LEAD b) t) ∧
      (s.rd BUP_CTRL_AUTO_RAMP b ≠ 0 → s.rd BUP_STATUS_STATE ((s.cairnDie b).getD b) = 5 → s.agreed b = s.txEpoch b →
        s.rampReady b = true → Completes (.epoch2Commit d) s fun t => opened 2 (s.rd IMG_TXN_CTRL_LEAD pkg) t))

/-- R306, R411, R428 and R429. -/
def Obligations.RebaseAndSections : Prop :=
  ∀ (s : State) (d : Fin 8), (d : Nat) < s.part.dies →
    let b := s.teamBase d
    let x := s.team b
    (x.baseCamp = false ∨ s.cairnDie b ≠ some (d : Nat) → Completes (.cairnRestart d) s fun t =>
      t.bus.last.code = 0 ∧ t = { s with regs := t.regs, bus := t.bus, out := t.out } ∧ KeepsRegs [] s t) ∧
    (x.baseCamp = true → s.cairnDie b = some (d : Nat) → s.txn.isOpen = false → s.rd FRM_PLAN_STATUS_STATE b = 0 →
      Completes (.cairnRestart d) s fun t =>
        t.bus.last.code = 0 ∧ (t.team b).peer = none ∧ t.cairnSt d = {} ∧ t.rd BUP_CAIRN_STATUS_STATE d = 1 ∧
        t.rd BUP_CAIRN_STATUS_MUTUAL d = 0 ∧ t.rd BUP_CAIRN_STATUS_PEERS d = 0 ∧ t.rd BUP_CAIRN_STATUS_CHOSEN_VALID d = 0) ∧
    (Completes (.rebase d) s fun t => t.bus.last.code = 0 ∧ (t.team b).rebase = true ∧
      (s.txn.isOpen = false → t.team b = { x with rebase := true } ∧
        t = { s with regs := t.regs, teams := t.teams, bus := t.bus, out := t.out } ∧ KeepsRegs [] s t)) ∧
    (∀ c : RebaseCause,
      (s.rebaseCause b c = false ∨ x.baseCamp = true → Completes (.autoRebase d c) s (OnlyRegs [] s)) ∧
      (s.rebaseCause b c = true → x.baseCamp = false → Completes (.autoRebase d c) s fun t => (t.team b).rebase = true ∧
        (s.txn.isOpen = false → t.team b = { x with rebase := true } ∧
          t = { s with regs := t.regs, teams := t.teams, out := t.out } ∧ KeepsRegs [] s t))) ∧
    (x.rebase = false → Completes (.rebaseSwitch d) s (OnlyRegs [] s)) ∧
    (x.rebase = true → Completes (.rebaseSwitch d) s fun t =>
      (t.team b).baseCamp = true ∧ (t.team b).rebase = false ∧ (t.team b).peer = none ∧ (t.team b).head = none ∧
      (t.team b).change = none ∧ t.agreed b = 0 ∧ t.txEpoch b = 0 ∧ t.farEpoch b = 0 ∧ t.rd FRM_PLAN_STATUS_STATE b = 0) ∧
    ((∀ e, e < s.part.dies → s.awaitsSections e = false) → Completes .sectionApply s (OnlyRegs [] s)) ∧
    (s.dieList.filter s.awaitsSections = [(d : Nat)] → Completes .sectionApply s fun t =>
      (t.die d).released = true ∧ t.rd BUP_STATUS_STATE d = 2 ∧
      (t.rd BUP_STATUS_REC_WAITING d = 1 ∨ t.rd CAL_STATUS_FG_STATE d = 1))
end

