-- ==== Sys2Proof/Laws/Store.lean ====
section
/-! SUPPORT. The laws of the sorted association lists behind registers, tables and memories: what a lookup gives after an
insertion or a removal, and that both keep the canonical form. -/
namespace Sys2Proof.Laws
open Sys2Proof Sys2Proof.Machine

/-! ### Lookups -/

section Lookups
variable {κ α : Type} [DecidableEq κ]

theorem find_insert_same (lt : κ → κ → Bool) (k : κ) (v : α) (m : List (κ × α)) :
    assocFind k (assocInsert lt k v m) = some v := by
  induction m with
  | nil => simp [assocInsert, assocFind]
  | cons e t ih =>
    obtain ⟨k', v'⟩ := e
    simp only [assocInsert]
    split
    · simp [assocFind]
    · split
      · simp [assocFind]
      · simp_all [assocFind]

theorem find_insert_other (lt : κ → κ → Bool) {k j : κ} (h : j ≠ k) (v : α) (m : List (κ × α)) :
    assocFind j (assocInsert lt k v m) = assocFind j m := by
  induction m with
  | nil => simp [assocInsert, assocFind, h]
  | cons e t ih =>
    obtain ⟨k', v'⟩ := e
    simp only [assocInsert]
    split
    · subst_vars; simp [assocFind, h]
    · split
      · simp [assocFind, h]
      · simp [assocFind, ih]

theorem find_erase_same (k : κ) (m : List (κ × α)) : assocFind k (assocErase k m) = none := by
  induction m with
  | nil => rfl
  | cons e t ih =>
    obtain ⟨k', v'⟩ := e
    simp only [assocErase]
    split
    · exact ih
    · simp_all [assocFind]

theorem find_erase_other {k j : κ} (h : j ≠ k) (m : List (κ × α)) : assocFind j (assocErase k m) = assocFind j m := by
  induction m with
  | nil => rfl
  | cons e t ih =>
    obtain ⟨k', v'⟩ := e
    simp only [assocErase]
    split
    · subst_vars; simp [assocFind, h, ih]
    · simp [assocFind, ih]

end Lookups

/-! ### Stores -/

@[simp] theorem get_set_same {α : Type} [DecidableEq α] (m : Store α) (x : α) (k : Key) (v : α) :
    (m.set x k v).get x k = v := by
  unfold Store.set Store.get
  split
  · simp_all [find_erase_same]
  · simp [find_insert_same]

theorem get_set_other {α : Type} [DecidableEq α] (m : Store α) (x y : α) {k j : Key} (h : j ≠ k) (v : α) :
    (m.set x k v).get y j = m.get y j := by
  unfold Store.set Store.get
  split
  · rw [find_erase_other h]
  · rw [find_insert_other _ h]

theorem find_put_same {α : Type} (m : Store α) (k : Key) (v : α) : (m.put k v).find k = some v :=
  find_insert_same _ _ _ _

theorem find_put_other {α : Type} (m : Store α) {k j : Key} (h : j ≠ k) (v : α) : (m.put k v).find j = m.find j :=
  find_insert_other _ h _ _

/-! ### Order -/

section Order
variable {κ α : Type} [DecidableEq κ] {lt : κ → κ → Bool}

/-- Every key of a list lies above `k`. -/
def Above (lt : κ → κ → Bool) (k : κ) (m : List (κ × α)) : Prop := ∀ e ∈ m, lt k e.1 = true

theorem sorted_cons (tr : ∀ a b c, lt a b = true → lt b c = true → lt a c = true) (k : κ) (v : α) (m : List (κ × α)) :
    assocSorted lt ((k, v) :: m) = true ↔ Above lt k m ∧ assocSorted lt m = true := by
  induction m generalizing k v with
  | nil => simp [assocSorted, Above]
  | cons e t ih =>
    obtain ⟨k', v'⟩ := e
    have step : assocSorted lt ((k, v) :: (k', v') :: t) = true ↔
        lt k k' = true ∧ assocSorted lt ((k', v') :: t) = true := by simp [assocSorted]
    rw [step, ih]
    constructor
    · rintro ⟨h, ha, hs⟩
      refine ⟨fun e he => ?_, ha, hs⟩
      rcases List.mem_cons.mp he with rfl | he
      · exact h
      · exact tr _ _ _ h (ha e he)
    · rintro ⟨ha, hb, hs⟩
      exact ⟨ha (k', v') (by simp), hb, hs⟩

theorem above_insert {j k : κ} (hj : lt j k = true) (v : α) {m : List (κ × α)} (h : Above lt j m) :
    Above lt j (assocInsert lt k v m) := by
  induction m with
  | nil => intro e he; simp [assocInsert] at he; subst he; exact hj
  | cons x t ih =>
    obtain ⟨k', v'⟩ := x
    have h' : lt j k' = true := h (k', v') (by simp)
    have ht : Above lt j t := fun e he => h e (by simp [he])
    intro e he
    simp only [assocInsert] at he
    split at he
    · rcases List.mem_cons.mp he with rfl | he
      exacts [hj, ht e he]
    · split at he
      · rcases List.mem_cons.mp he with rfl | he
        exacts [hj, h e he]
      · rcases List.mem_cons.mp he with rfl | he
        exacts [h', ih ht e he]

theorem sorted_insert (tr : ∀ a b c, lt a b = true → lt b c = true → lt a c = true)
    (total : ∀ a b, a ≠ b → lt a b = false → lt b a = true) (k : κ) (v : α) (m : List (κ × α))
    (h : assocSorted lt m = true) : assocSorted lt (assocInsert lt k v m) = true := by
  induction m with
  | nil => simp [assocInsert, assocSorted]
  | cons x t ih =>
    obtain ⟨k', v'⟩ := x
    obtain ⟨ha, hs⟩ := (sorted_cons tr k' v' t).mp h
    simp only [assocInsert]
    split
    · subst_vars; exact (sorted_cons tr _ _ _).mpr ⟨ha, hs⟩
    · rename_i hne
      split
      · rename_i hl
        refine (sorted_cons tr _ _ _).mpr ⟨fun e he => ?_, h⟩
        rcases List.mem_cons.mp he with rfl | he
        exacts [hl, tr _ _ _ hl (ha e he)]
      · rename_i hl
        exact (sorted_cons tr _ _ _).mpr ⟨above_insert (total k k' hne (by simpa using hl)) v ha, ih hs⟩

theorem above_erase {j : κ} (k : κ) {m : List (κ × α)} (h : Above lt j m) : Above lt j (assocErase k m) := by
  induction m with
  | nil => exact h
  | cons x t ih =>
    obtain ⟨k', v'⟩ := x
    have ht : Above lt j t := fun e he => h e (by simp [he])
    simp only [assocErase]
    split
    · exact ih ht
    · intro e he
      rcases List.mem_cons.mp he with rfl | he
      exacts [h _ (by simp), ih ht e he]

theorem sorted_erase (tr : ∀ a b c, lt a b = true → lt b c = true → lt a c = true) (k : κ) (m : List (κ × α))
    (h : assocSorted lt m = true) : assocSorted lt (assocErase k m) = true := by
  induction m with
  | nil => rfl
  | cons x t ih =>
    obtain ⟨k', v'⟩ := x
    obtain ⟨ha, hs⟩ := (sorted_cons tr k' v' t).mp h
    simp only [assocErase]
    split
    · exact ih hs
    · exact (sorted_cons tr _ _ _).mpr ⟨above_erase k ha, ih hs⟩

theorem sorted_filter (tr : ∀ a b c, lt a b = true → lt b c = true → lt a c = true) (p : κ × α → Bool)
    (m : List (κ × α)) (h : assocSorted lt m = true) : assocSorted lt (m.filter p) = true := by
  induction m with
  | nil => rfl
  | cons x t ih =>
    obtain ⟨k', v'⟩ := x
    obtain ⟨ha, hs⟩ := (sorted_cons tr k' v' t).mp h
    rw [List.filter_cons]
    split
    · exact (sorted_cons tr _ _ _).mpr ⟨fun e he => ha e (List.mem_filter.mp he).1, ih hs⟩
    · exact ih hs

theorem mem_insert {k : κ} {v : α} {m : List (κ × α)} {e : κ × α} (h : e ∈ assocInsert lt k v m) : e = (k, v) ∨ e ∈ m := by
  induction m with
  | nil => simpa [assocInsert] using h
  | cons x t ih =>
    obtain ⟨k', v'⟩ := x
    simp only [assocInsert] at h
    split at h
    · rcases List.mem_cons.mp h with rfl | h
      · exact .inl rfl
      · exact .inr (by simp [h])
    · split at h
      · rcases List.mem_cons.mp h with rfl | h
        · exact .inl rfl
        · exact .inr h
      · rcases List.mem_cons.mp h with rfl | h
        · exact .inr (by simp)
        · rcases ih h with h | h
          · exact .inl h
          · exact .inr (by simp [h])

theorem mem_erase {k : κ} {m : List (κ × α)} {e : κ × α} (h : e ∈ assocErase k m) : e ∈ m := by
  induction m with
  | nil => exact h
  | cons x t ih =>
    obtain ⟨k', v'⟩ := x
    simp only [assocErase] at h
    split at h
    · exact by simp [ih h]
    · rcases List.mem_cons.mp h with rfl | h
      · simp
      · simp [ih h]

end Order

/-! ### Byte memories -/

theorem blt_trans (a b c : Nat) (h : Nat.blt a b = true) (h' : Nat.blt b c = true) : Nat.blt a c = true := by
  simp [Nat.blt_eq] at *; omega

theorem blt_total (a b : Nat) (h : a ≠ b) (h' : Nat.blt a b = false) : Nat.blt b a = true := by
  have : ¬ a < b := fun hl => by simp [Nat.blt_eq.mpr hl] at h'
  exact Nat.blt_eq.mpr (by omega)

@[simp] theorem memByte_memSet_same (x : Byte) (m : List Host.Cell) (a : Nat) (b : Byte) :
    memByte x (memSet x m a b) a = b := by
  unfold memByte memSet
  split
  · simp_all [find_erase_same]
  · simp [find_insert_same]

theorem memByte_memSet_other (x : Byte) (m : List Host.Cell) {a a' : Nat} (h : a' ≠ a) (b : Byte) :
    memByte x (memSet x m a b) a' = memByte x m a' := by
  unfold memByte memSet
  split
  · rw [find_erase_other h]
  · rw [find_insert_other _ h]

/-- A write keeps the canonical form. -/
theorem memSet_wf (x : Byte) (m : List Host.Cell) (a : Nat) (b : Byte) (h : Memory.wf x m = true) :
    Memory.wf x (memSet x m a b) = true := by
  simp only [Memory.wf, Bool.and_eq_true, List.all_eq_true, decide_eq_true_eq] at *
  unfold memSet
  split
  · exact ⟨sorted_erase blt_trans a m h.1, fun e he => h.2 e (mem_erase he)⟩
  · rename_i hb
    refine ⟨sorted_insert blt_trans blt_total a b m h.1, fun e he => ?_⟩
    rcases mem_insert he with rfl | he
    exacts [hb, h.2 e he]

/-- A write of bytes keeps the canonical form. -/
theorem memStore_wf (x : Byte) (m : List Host.Cell) (a : Nat) (bs : List Byte) (h : Memory.wf x m = true) :
    Memory.wf x (memStore x m a bs) = true := by
  induction bs generalizing m a with
  | nil => exact h
  | cons b bs ih => exact ih _ _ (memSet_wf x m a b h)

/-- Clearing a range keeps the canonical form. -/
theorem memClear_wf (x : Byte) (m : List Host.Cell) (lo hi : Nat) (h : Memory.wf x m = true) :
    Memory.wf x (memClear m lo hi) = true := by
  simp only [Memory.wf, Bool.and_eq_true, List.all_eq_true, decide_eq_true_eq] at *
  exact ⟨sorted_filter blt_trans _ m h.1, fun e he => h.2 e (List.mem_filter.mp he).1⟩

/-- A byte outside the bytes written reads as before. -/
theorem memByte_memStore_outside (x : Byte) (m : List Host.Cell) (a : Nat) (bs : List Byte) {c : Nat}
    (h : c < a ∨ a + bs.length ≤ c) : memByte x (memStore x m a bs) c = memByte x m c := by
  induction bs generalizing m a with
  | nil => rfl
  | cons b bs ih =>
    simp only [List.length_cons] at h
    rw [memStore, ih _ _ (by omega), memByte_memSet_other x m (by omega) b]

/-- A byte written reads as written. -/
theorem memByte_memStore_inside (x : Byte) (m : List Host.Cell) (a : Nat) (bs : List Byte) {i : Nat} (h : i < bs.length) :
    memByte x (memStore x m a bs) (a + i) = bs[i] := by
  induction bs generalizing m a i with
  | nil => simp at h
  | cons b bs ih =>
    cases i with
    | zero =>
      rw [memStore, memByte_memStore_outside x _ _ _ (by omega)]
      simp
    | succ j =>
      have := ih (memSet x m a b) (a + 1) (i := j) (by simpa using h)
      rw [memStore, show a + (j + 1) = a + 1 + j by omega, this]
      simp

/-! ### Stores keep their order -/

theorem lexLt_trans (a b c : List Nat) (h : lexLt a b = true) (h' : lexLt b c = true) : lexLt a c = true := by
  induction a generalizing b c with
  | nil => cases b <;> cases c <;> simp_all [lexLt]
  | cons x xs ih =>
    cases b with
    | nil => simp [lexLt] at h
    | cons y ys =>
      cases c with
      | nil => simp [lexLt] at h'
      | cons z zs =>
        simp only [lexLt, Bool.or_eq_true, Bool.and_eq_true, beq_iff_eq, Nat.blt_eq] at *
        rcases h with h | ⟨rfl, h⟩ <;> rcases h' with h' | ⟨rfl, h'⟩
        · exact .inl (by omega)
        · exact .inl h
        · exact .inl h'
        · exact .inr ⟨rfl, ih _ _ h h'⟩

theorem lexLt_total (a b : List Nat) (n : a ≠ b) (h : lexLt a b = false) : lexLt b a = true := by
  induction a generalizing b with
  | nil => cases b <;> simp_all [lexLt]
  | cons x xs ih =>
    cases b with
    | nil => simp [lexLt]
    | cons y ys =>
      simp only [lexLt, Bool.or_eq_false_iff, Bool.and_eq_false_iff, Bool.or_eq_true, Bool.and_eq_true, beq_iff_eq,
        Nat.blt_eq] at *
      have hxy : ¬ x < y := fun hl => by simp [Nat.blt_eq.mpr hl] at h
      by_cases e : x = y
      · subst e
        have : xs ≠ ys := fun e => n (by rw [e])
        exact .inr ⟨rfl, ih _ this (by simpa using h.2)⟩
      · exact .inl (by omega)

theorem keyLt_trans (a b c : Key) (h : Key.lt a b = true) (h' : Key.lt b c = true) : Key.lt a c = true :=
  lexLt_trans _ _ _ h h'

theorem path_injective {a b : Key} (h : a.path = b.path) : a = b := by
  cases a; cases b; simp_all [Key.path]

theorem keyLt_total (a b : Key) (n : a ≠ b) (h : Key.lt a b = false) : Key.lt b a = true :=
  lexLt_total _ _ (fun e => n (path_injective e)) h

theorem set_sorted {α : Type} [DecidableEq α] (m : Store α) (x : α) (k : Key) (v : α) (h : m.sorted = true) :
    (m.set x k v).sorted = true := by
  unfold Store.set
  split
  · exact sorted_erase keyLt_trans k m h
  · exact sorted_insert keyLt_trans keyLt_total k v m h

theorem put_sorted {α : Type} (m : Store α) (k : Key) (v : α) (h : m.sorted = true) : (m.put k v).sorted = true :=
  sorted_insert keyLt_trans keyLt_total k v m h

theorem keep_sorted {α : Type} (m : Store α) (p : Key → Bool) (h : m.sorted = true) : (m.keep p).sorted = true :=
  sorted_filter keyLt_trans _ m h

end Sys2Proof.Laws
end

