-- ==== Sys2Proof/Laws/Fields.lean ====
section
/-! SUPPORT. The laws of register fields: what a field reads as after a write of it or of another field, what the operations
built on `wr` give, and that bringing the interrupt tree up to date touches the summary fields alone. -/
namespace Sys2Proof.Laws
open Sys2Proof Sys2Proof.Machine

theorem key_ne_of_place {f g : Fld} (h : place g ≠ place f) (d e k j : Nat) : g.key e j ≠ f.key d k := by
  intro he
  simp only [Fld.key, Key.mk.injEq] at he
  exact h (by simp [place, he.1, he.2.2.1, he.2.2.2.1, he.2.2.2.2.1])

theorem key_ne_of_inst {f g : Fld} {d e : Nat} (h : e ≠ d) (k j : Nat) : g.key e j ≠ f.key d k := by
  intro he; simp only [Fld.key, Key.mk.injEq] at he; exact h he.2.1

theorem key_ne_of_elem {f g : Fld} {k j : Nat} (h : j ≠ k) (d e : Nat) : g.key e j ≠ f.key d k := by
  intro he; simp only [Fld.key, Key.mk.injEq] at he; exact h he.2.2.2.2.2

section
variable (s : State)

/-! ### Writing one field -/

@[simp] theorem rd_wr_same (f : Fld) (d v k : Nat) : (s.wr f d v k).rd f d k = v % 2 ^ f.w := by
  simp [State.rd, State.wr]

theorem rd_wr_key {f g : Fld} {d e k j : Nat} (h : g.key e j ≠ f.key d k) (v : Nat) :
    (s.wr f d v k).rd g e j = s.rd g e j := by
  simp [State.rd, State.wr, get_set_other _ _ _ h]

/-- A write of a field leaves a field at another place. -/
theorem rd_wr_other {f g : Fld} (h : place g ≠ place f) (d e v k j : Nat) : (s.wr f d v k).rd g e j = s.rd g e j :=
  rd_wr_key s (key_ne_of_place h d e k j) v

/-- A write of a field leaves it at another instance. -/
theorem rd_wr_inst (f g : Fld) {d e : Nat} (h : e ≠ d) (v k j : Nat) : (s.wr f d v k).rd g e j = s.rd g e j :=
  rd_wr_key s (key_ne_of_inst h k j) v

/-- A write of a field leaves its other elements. -/
theorem rd_wr_elem (f g : Fld) {k j : Nat} (h : j ≠ k) (d e v : Nat) : (s.wr f d v k).rd g e j = s.rd g e j :=
  rd_wr_key s (key_ne_of_elem h d e) v

/-! ### The operations built on it -/

@[simp] theorem rd_wrb_same (f : Fld) (d k : Nat) (b : Bool) (h : f.w = 1) : (s.wrb f d b k).rd f d k = b2n b := by
  rw [State.wrb, rd_wr_same, h]; cases b <;> rfl

theorem rd_raise_same (f : Fld) (d m k : Nat) : (s.raise f d m k).rd f d k = (s.rd f d k ||| m) % 2 ^ f.w := by
  simp [State.raise]

theorem rd_lower_same (f : Fld) (d m k : Nat) : (s.lower f d m k).rd f d k = clearBits (s.rd f d k) m % 2 ^ f.w := by
  simp [State.lower]

theorem rd_raise_other {f g : Fld} (h : place g ≠ place f) (d e m k j : Nat) : (s.raise f d m k).rd g e j = s.rd g e j :=
  rd_wr_other s h ..

theorem rd_raise_inst (f g : Fld) {d e : Nat} (h : e ≠ d) (m k j : Nat) : (s.raise f d m k).rd g e j = s.rd g e j :=
  rd_wr_inst s f g h ..

theorem rd_lower_other {f g : Fld} (h : place g ≠ place f) (d e m k j : Nat) : (s.lower f d m k).rd g e j = s.rd g e j :=
  rd_wr_other s h ..

theorem rd_count_other {f g : Fld} (h : place g ≠ place f) (d e n k j : Nat) : (s.count f d n k).rd g e j = s.rd g e j :=
  rd_wr_other s h ..

theorem rd_wrb_other {f g : Fld} (h : place g ≠ place f) (d e k j : Nat) (b : Bool) :
    (s.wrb f d b k).rd g e j = s.rd g e j := rd_wr_other s h ..

theorem rd_wrBit_other {f g : Fld} (h : place g ≠ place f) (d e i k j : Nat) (b : Bool) :
    (s.wrBit f d i b k).rd g e j = s.rd g e j := rd_wr_other s h ..

theorem rd_wrS_other {f g : Fld} (h : place g ≠ place f) (d e k j : Nat) (v : Int) :
    (s.wrS f d v k).rd g e j = s.rd g e j := rd_wr_other s h ..

/-- A counter saturates (R12). -/
theorem rd_count_same (f : Fld) (d n k : Nat) : (s.count f d n k).rd f d k = min (s.rd f d k + n) (2 ^ f.w - 1) := by
  simp only [State.count, rd_wr_same]
  have : 0 < 2 ^ f.w := Nat.two_pow_pos _
  exact Nat.mod_eq_of_lt (by omega)

/-- A read depends on the stored fields and the part alone. -/
theorem rd_congr {s t : State} (h : t.regs = s.regs) (p : t.part = s.part) (f : Fld) (d k : Nat) :
    t.rd f d k = s.rd f d k := by
  simp [State.rd, h, p]

/-! ### The interrupt tree -/

/-- `t` differs from `s` in registers alone, and there at the summary fields alone. -/
structure OnlySummaries (s t : State) : Prop where
  rest : t = { s with regs := t.regs }
  rd : ∀ (g : Fld) (e j : Nat), place g ∉ summaryPlaces → t.rd g e j = s.rd g e j

theorem OnlySummaries.refl : OnlySummaries s s := ⟨rfl, fun _ _ _ _ => rfl⟩

theorem OnlySummaries.trans {s t u : State} (a : OnlySummaries s t) (b : OnlySummaries t u) : OnlySummaries s u := by
  refine ⟨?_, fun g e j h => (b.rd g e j h).trans (a.rd g e j h)⟩
  rw [b.rest, a.rest]

theorem onlySummaries_raise {f : Fld} (h : place f ∈ summaryPlaces) (d m k : Nat) : OnlySummaries s (s.raise f d m k) :=
  ⟨rfl, fun g e j hg => rd_raise_other (f := f) (g := g) s (fun he => hg (he ▸ h)) d e m k j⟩

theorem onlySummaries_foldl {α : Type} (xs : List α) (f : State → α → State)
    (h : ∀ t x, x ∈ xs → OnlySummaries t (f t x)) : OnlySummaries s (xs.foldl f s) := by
  induction xs generalizing s with
  | nil => exact .refl s
  | cons x xs ih => exact (h s x (by simp)).trans (ih (f s x) fun t y hy => h t y (by simp [hy]))

theorem pkgSources_place (c : Nat) (x : Fld × Bool) (h : x ∈ s.pkgSources c) : place x.1 ∈ summaryPlaces := by
  simp only [State.pkgSources, List.mem_cons, List.not_mem_nil, or_false] at h
  rcases h with rfl | rfl | rfl | rfl | rfl | rfl | rfl | rfl | rfl <;> simp only [summaryPlaces] <;> decide

theorem onlySummaries_settlePkg : OnlySummaries s s.settlePkg := by
  unfold State.settlePkg
  split
  · exact .refl s
  · refine (onlySummaries_foldl s _ _ fun t x hx => ?_).trans (onlySummaries_raise _ (by decide) _ _ _)
    split
    · exact onlySummaries_raise t (pkgSources_place s _ x hx) _ _ _
    · exact .refl t

/-- `settle` changes the summary fields alone. -/
theorem onlySummaries_settle : OnlySummaries s s.settle :=
  (onlySummaries_foldl s _ _ fun t d _ => onlySummaries_raise t (by decide) d _ _).trans
    (onlySummaries_settlePkg _)

/-- A field that is no summary reads the same after `settle`. -/
theorem rd_settle {g : Fld} (h : place g ∉ summaryPlaces) (e j : Nat) : s.settle.rd g e j = s.rd g e j :=
  (onlySummaries_settle s).rd g e j h

/-- `settle` changes nothing but registers. -/
theorem settle_eq : s.settle = { s with regs := s.settle.regs } := (onlySummaries_settle s).rest

/-! ### Running a command -/

/-- The state a command's operation starts from. -/
theorem run_eq (f : State → State) :
    run s f = .next { f { s with out := [] } with part := s.part, pending := s.pending }.settle := rfl

theorem runDie_eq {d : Nat} (h : d < s.part.dies) (f : State → State) : runDie s d f = run s f := by
  simp [runDie, h]

theorem runDie_absent {d : Nat} (h : ¬ d < s.part.dies) (f : State → State) : runDie s d f = run s id := by
  simp [runDie, h]

end
end Sys2Proof.Laws
end

