-- ==== Sys2Proof/Laws/Running.lean ====
section
/-! SUPPORT. What running an operation as a command gives: it answers a next state, the interrupt tree's update leaves every
component but the register fields, and the queue and the ordered part stay. -/
namespace Sys2Proof.Laws
open Sys2Proof Sys2Proof.Machine

variable (s : State)

@[simp] theorem settle_part : s.settle.part = s.part := by rw [settle_eq]
@[simp] theorem settle_staged : s.settle.staged = s.staged := by rw [settle_eq]
@[simp] theorem settle_pend : s.settle.pend = s.pend := by rw [settle_eq]
@[simp] theorem settle_shadow : s.settle.shadow = s.shadow := by rw [settle_eq]
@[simp] theorem settle_mem : s.settle.mem = s.mem := by rw [settle_eq]
@[simp] theorem settle_flash : s.settle.flash = s.flash := by rw [settle_eq]
@[simp] theorem settle_otp : s.settle.otp = s.otp := by rw [settle_eq]
@[simp] theorem settle_dieId : s.settle.dieId = s.dieId := by rw [settle_eq]
@[simp] theorem settle_time : s.settle.time = s.time := by rw [settle_eq]
@[simp] theorem settle_dies : s.settle.dies = s.dies := by rw [settle_eq]
@[simp] theorem settle_crown : s.settle.crown = s.crown := by rw [settle_eq]
@[simp] theorem settle_bus : s.settle.bus = s.bus := by rw [settle_eq]
@[simp] theorem settle_txn : s.settle.txn = s.txn := by rw [settle_eq]
@[simp] theorem settle_image : s.settle.image = s.image := by rw [settle_eq]
@[simp] theorem settle_load : s.settle.load = s.load := by rw [settle_eq]
@[simp] theorem settle_units : s.settle.units = s.units := by rw [settle_eq]
@[simp] theorem settle_blkRst : s.settle.blkRst = s.blkRst := by rw [settle_eq]
@[simp] theorem settle_cnv : s.settle.cnv = s.cnv := by rw [settle_eq]
@[simp] theorem settle_coef : s.settle.coef = s.coef := by rw [settle_eq]
@[simp] theorem settle_calRej : s.settle.calRej = s.calRej := by rw [settle_eq]
@[simp] theorem settle_calRun : s.settle.calRun = s.calRun := by rw [settle_eq]
@[simp] theorem settle_calWin : s.settle.calWin = s.calWin := by rw [settle_eq]
@[simp] theorem settle_rxArms : s.settle.rxArms = s.rxArms := by rw [settle_eq]
@[simp] theorem settle_groups : s.settle.groups = s.groups := by rw [settle_eq]
@[simp] theorem settle_rxDies : s.settle.rxDies = s.rxDies := by rw [settle_eq]
@[simp] theorem settle_seams : s.settle.seams = s.seams := by rw [settle_eq]
@[simp] theorem settle_txDies : s.settle.txDies = s.txDies := by rw [settle_eq]
@[simp] theorem settle_txArms : s.settle.txArms = s.txArms := by rw [settle_eq]
@[simp] theorem settle_lut : s.settle.lut = s.lut := by rw [settle_eq]
@[simp] theorem settle_fec : s.settle.fec = s.fec := by rw [settle_eq]
@[simp] theorem settle_streams : s.settle.streams = s.streams := by rw [settle_eq]
@[simp] theorem settle_frm : s.settle.frm = s.frm := by rw [settle_eq]
@[simp] theorem settle_flows : s.settle.flows = s.flows := by rw [settle_eq]
@[simp] theorem settle_keyJobs : s.settle.keyJobs = s.keyJobs := by rw [settle_eq]
@[simp] theorem settle_crc : s.settle.crc = s.crc := by rw [settle_eq]
@[simp] theorem settle_lanes : s.settle.lanes = s.lanes := by rw [settle_eq]
@[simp] theorem settle_grps : s.settle.grps = s.grps := by rw [settle_eq]
@[simp] theorem settle_stamps : s.settle.stamps = s.stamps := by rw [settle_eq]
@[simp] theorem settle_wordErr : s.settle.wordErr = s.wordErr := by rw [settle_eq]
@[simp] theorem settle_banks : s.settle.banks = s.banks := by rw [settle_eq]
@[simp] theorem settle_tcms : s.settle.tcms = s.tcms := by rw [settle_eq]
@[simp] theorem settle_engs : s.settle.engs = s.engs := by rw [settle_eq]
@[simp] theorem settle_dma : s.settle.dma = s.dma := by rw [settle_eq]
@[simp] theorem settle_memSts : s.settle.memSts = s.memSts := by rw [settle_eq]
@[simp] theorem settle_pwr : s.settle.pwr = s.pwr := by rw [settle_eq]
@[simp] theorem settle_mgr : s.settle.mgr = s.mgr := by rw [settle_eq]
@[simp] theorem settle_flowPwr : s.settle.flowPwr = s.flowPwr := by rw [settle_eq]
@[simp] theorem settle_tim : s.settle.tim = s.tim := by rw [settle_eq]
@[simp] theorem settle_refs : s.settle.refs = s.refs := by rw [settle_eq]
@[simp] theorem settle_seqs : s.settle.seqs = s.seqs := by rw [settle_eq]
@[simp] theorem settle_wch : s.settle.wch = s.wch := by rw [settle_eq]
@[simp] theorem settle_plm : s.settle.plm = s.plm := by rw [settle_eq]
@[simp] theorem settle_teams : s.settle.teams = s.teams := by rw [settle_eq]
@[simp] theorem settle_cairn : s.settle.cairn = s.cairn := by rw [settle_eq]
@[simp] theorem settle_retries : s.settle.retries = s.retries := by rw [settle_eq]
@[simp] theorem settle_pins : s.settle.pins = s.pins := by rw [settle_eq]
@[simp] theorem settle_taps : s.settle.taps = s.taps := by rw [settle_eq]
@[simp] theorem settle_out : s.settle.out = s.out := by rw [settle_eq]
@[simp] theorem settle_fresh : s.settle.fresh = s.fresh := by rw [settle_eq]
@[simp] theorem settle_pending : s.settle.pending = s.pending := by rw [settle_eq]

/-- The state an operation leaves when it is run as a command. -/
def ran (f : State → State) : State := { f { s with out := [] } with part := s.part, pending := s.pending }.settle

theorem run_next (f : State → State) : run s f = .next (ran s f) := rfl

theorem completes_run {f : State → State} {P : State → Prop} (h : P (ran s f)) : ∃ t, run s f = .next t ∧ P t :=
  ⟨_, rfl, h⟩

theorem completes_runDie {d : Nat} (hd : d < s.part.dies) {f : State → State} {P : State → Prop} (h : P (ran s f)) :
    ∃ t, runDie s d f = .next t ∧ P t :=
  ⟨_, by rw [runDie_eq s hd, run_next], h⟩

variable (f : State → State)

@[simp] theorem ran_part : (ran s f).part = s.part := by simp [ran]
@[simp] theorem ran_pending : (ran s f).pending = s.pending := by simp [ran]

@[simp] theorem ran_staged : (ran s f).staged = (f { s with out := [] }).staged := by simp [ran]
@[simp] theorem ran_pend : (ran s f).pend = (f { s with out := [] }).pend := by simp [ran]
@[simp] theorem ran_shadow : (ran s f).shadow = (f { s with out := [] }).shadow := by simp [ran]
@[simp] theorem ran_mem : (ran s f).mem = (f { s with out := [] }).mem := by simp [ran]
@[simp] theorem ran_flash : (ran s f).flash = (f { s with out := [] }).flash := by simp [ran]
@[simp] theorem ran_otp : (ran s f).otp = (f { s with out := [] }).otp := by simp [ran]
@[simp] theorem ran_dieId : (ran s f).dieId = (f { s with out := [] }).dieId := by simp [ran]
@[simp] theorem ran_time : (ran s f).time = (f { s with out := [] }).time := by simp [ran]
@[simp] theorem ran_dies : (ran s f).dies = (f { s with out := [] }).dies := by simp [ran]
@[simp] theorem ran_crown : (ran s f).crown = (f { s with out := [] }).crown := by simp [ran]
@[simp] theorem ran_bus : (ran s f).bus = (f { s with out := [] }).bus := by simp [ran]
@[simp] theorem ran_txn : (ran s f).txn = (f { s with out := [] }).txn := by simp [ran]
@[simp] theorem ran_image : (ran s f).image = (f { s with out := [] }).image := by simp [ran]
@[simp] theorem ran_load : (ran s f).load = (f { s with out := [] }).load := by simp [ran]
@[simp] theorem ran_units : (ran s f).units = (f { s with out := [] }).units := by simp [ran]
@[simp] theorem ran_blkRst : (ran s f).blkRst = (f { s with out := [] }).blkRst := by simp [ran]
@[simp] theorem ran_cnv : (ran s f).cnv = (f { s with out := [] }).cnv := by simp [ran]
@[simp] theorem ran_coef : (ran s f).coef = (f { s with out := [] }).coef := by simp [ran]
@[simp] theorem ran_calRej : (ran s f).calRej = (f { s with out := [] }).calRej := by simp [ran]
@[simp] theorem ran_calRun : (ran s f).calRun = (f { s with out := [] }).calRun := by simp [ran]
@[simp] theorem ran_calWin : (ran s f).calWin = (f { s with out := [] }).calWin := by simp [ran]
@[simp] theorem ran_rxArms : (ran s f).rxArms = (f { s with out := [] }).rxArms := by simp [ran]
@[simp] theorem ran_groups : (ran s f).groups = (f { s with out := [] }).groups := by simp [ran]
@[simp] theorem ran_rxDies : (ran s f).rxDies = (f { s with out := [] }).rxDies := by simp [ran]
@[simp] theorem ran_seams : (ran s f).seams = (f { s with out := [] }).seams := by simp [ran]
@[simp] theorem ran_txDies : (ran s f).txDies = (f { s with out := [] }).txDies := by simp [ran]
@[simp] theorem ran_txArms : (ran s f).txArms = (f { s with out := [] }).txArms := by simp [ran]
@[simp] theorem ran_lut : (ran s f).lut = (f { s with out := [] }).lut := by simp [ran]
@[simp] theorem ran_fec : (ran s f).fec = (f { s with out := [] }).fec := by simp [ran]
@[simp] theorem ran_streams : (ran s f).streams = (f { s with out := [] }).streams := by simp [ran]
@[simp] theorem ran_frm : (ran s f).frm = (f { s with out := [] }).frm := by simp [ran]
@[simp] theorem ran_flows : (ran s f).flows = (f { s with out := [] }).flows := by simp [ran]
@[simp] theorem ran_keyJobs : (ran s f).keyJobs = (f { s with out := [] }).keyJobs := by simp [ran]
@[simp] theorem ran_crc : (ran s f).crc = (f { s with out := [] }).crc := by simp [ran]
@[simp] theorem ran_lanes : (ran s f).lanes = (f { s with out := [] }).lanes := by simp [ran]
@[simp] theorem ran_grps : (ran s f).grps = (f { s with out := [] }).grps := by simp [ran]
@[simp] theorem ran_stamps : (ran s f).stamps = (f { s with out := [] }).stamps := by simp [ran]
@[simp] theorem ran_wordErr : (ran s f).wordErr = (f { s with out := [] }).wordErr := by simp [ran]
@[simp] theorem ran_banks : (ran s f).banks = (f { s with out := [] }).banks := by simp [ran]
@[simp] theorem ran_tcms : (ran s f).tcms = (f { s with out := [] }).tcms := by simp [ran]
@[simp] theorem ran_engs : (ran s f).engs = (f { s with out := [] }).engs := by simp [ran]
@[simp] theorem ran_dma : (ran s f).dma = (f { s with out := [] }).dma := by simp [ran]
@[simp] theorem ran_memSts : (ran s f).memSts = (f { s with out := [] }).memSts := by simp [ran]
@[simp] theorem ran_pwr : (ran s f).pwr = (f { s with out := [] }).pwr := by simp [ran]
@[simp] theorem ran_mgr : (ran s f).mgr = (f { s with out := [] }).mgr := by simp [ran]
@[simp] theorem ran_flowPwr : (ran s f).flowPwr = (f { s with out := [] }).flowPwr := by simp [ran]
@[simp] theorem ran_tim : (ran s f).tim = (f { s with out := [] }).tim := by simp [ran]
@[simp] theorem ran_refs : (ran s f).refs = (f { s with out := [] }).refs := by simp [ran]
@[simp] theorem ran_seqs : (ran s f).seqs = (f { s with out := [] }).seqs := by simp [ran]
@[simp] theorem ran_wch : (ran s f).wch = (f { s with out := [] }).wch := by simp [ran]
@[simp] theorem ran_plm : (ran s f).plm = (f { s with out := [] }).plm := by simp [ran]
@[simp] theorem ran_teams : (ran s f).teams = (f { s with out := [] }).teams := by simp [ran]
@[simp] theorem ran_cairn : (ran s f).cairn = (f { s with out := [] }).cairn := by simp [ran]
@[simp] theorem ran_retries : (ran s f).retries = (f { s with out := [] }).retries := by simp [ran]
@[simp] theorem ran_pins : (ran s f).pins = (f { s with out := [] }).pins := by simp [ran]
@[simp] theorem ran_taps : (ran s f).taps = (f { s with out := [] }).taps := by simp [ran]
@[simp] theorem ran_out : (ran s f).out = (f { s with out := [] }).out := by simp [ran]
@[simp] theorem ran_fresh : (ran s f).fresh = (f { s with out := [] }).fresh := by simp [ran]

/-- A field that is no summary reads as the operation left it. -/
theorem ran_rd {g : Fld} (h : place g ∉ summaryPlaces) (e j : Nat) (hp : (f { s with out := [] }).part = s.part) :
    (ran s f).rd g e j = (f { s with out := [] }).rd g e j := by
  rw [ran, rd_settle _ h]
  exact rd_congr (s := f { s with out := [] })
    (t := { f { s with out := [] } with part := s.part, pending := s.pending }) rfl hp.symm g e j

end Sys2Proof.Laws
end

