-- ==== Sys2Proof/Laws/State.lean ====
section
/-! SUPPORT. What each update of the state leaves: one lemma for each update and each field it does not write, so that no
proof unfolds a record update. -/
namespace Sys2Proof.Laws
open Sys2Proof Sys2Proof.Machine

variable (s : State)

section
variable (f : Fld) (d v k : Nat)
@[simp] theorem wr_part : (s.wr f d v k).part = s.part := rfl
@[simp] theorem wr_staged : (s.wr f d v k).staged = s.staged := rfl
@[simp] theorem wr_pend : (s.wr f d v k).pend = s.pend := rfl
@[simp] theorem wr_shadow : (s.wr f d v k).shadow = s.shadow := rfl
@[simp] theorem wr_mem : (s.wr f d v k).mem = s.mem := rfl
@[simp] theorem wr_flash : (s.wr f d v k).flash = s.flash := rfl
@[simp] theorem wr_otp : (s.wr f d v k).otp = s.otp := rfl
@[simp] theorem wr_dieId : (s.wr f d v k).dieId = s.dieId := rfl
@[simp] theorem wr_time : (s.wr f d v k).time = s.time := rfl
@[simp] theorem wr_dies : (s.wr f d v k).dies = s.dies := rfl
@[simp] theorem wr_crown : (s.wr f d v k).crown = s.crown := rfl
@[simp] theorem wr_bus : (s.wr f d v k).bus = s.bus := rfl
@[simp] theorem wr_txn : (s.wr f d v k).txn = s.txn := rfl
@[simp] theorem wr_image : (s.wr f d v k).image = s.image := rfl
@[simp] theorem wr_load : (s.wr f d v k).load = s.load := rfl
@[simp] theorem wr_units : (s.wr f d v k).units = s.units := rfl
@[simp] theorem wr_blkRst : (s.wr f d v k).blkRst = s.blkRst := rfl
@[simp] theorem wr_cnv : (s.wr f d v k).cnv = s.cnv := rfl
@[simp] theorem wr_coef : (s.wr f d v k).coef = s.coef := rfl
@[simp] theorem wr_calRej : (s.wr f d v k).calRej = s.calRej := rfl
@[simp] theorem wr_calRun : (s.wr f d v k).calRun = s.calRun := rfl
@[simp] theorem wr_calWin : (s.wr f d v k).calWin = s.calWin := rfl
@[simp] theorem wr_rxArms : (s.wr f d v k).rxArms = s.rxArms := rfl
@[simp] theorem wr_groups : (s.wr f d v k).groups = s.groups := rfl
@[simp] theorem wr_rxDies : (s.wr f d v k).rxDies = s.rxDies := rfl
@[simp] theorem wr_seams : (s.wr f d v k).seams = s.seams := rfl
@[simp] theorem wr_txDies : (s.wr f d v k).txDies = s.txDies := rfl
@[simp] theorem wr_txArms : (s.wr f d v k).txArms = s.txArms := rfl
@[simp] theorem wr_lut : (s.wr f d v k).lut = s.lut := rfl
@[simp] theorem wr_fec : (s.wr f d v k).fec = s.fec := rfl
@[simp] theorem wr_streams : (s.wr f d v k).streams = s.streams := rfl
@[simp] theorem wr_frm : (s.wr f d v k).frm = s.frm := rfl
@[simp] theorem wr_flows : (s.wr f d v k).flows = s.flows := rfl
@[simp] theorem wr_keyJobs : (s.wr f d v k).keyJobs = s.keyJobs := rfl
@[simp] theorem wr_crc : (s.wr f d v k).crc = s.crc := rfl
@[simp] theorem wr_lanes : (s.wr f d v k).lanes = s.lanes := rfl
@[simp] theorem wr_grps : (s.wr f d v k).grps = s.grps := rfl
@[simp] theorem wr_stamps : (s.wr f d v k).stamps = s.stamps := rfl
@[simp] theorem wr_wordErr : (s.wr f d v k).wordErr = s.wordErr := rfl
@[simp] theorem wr_banks : (s.wr f d v k).banks = s.banks := rfl
@[simp] theorem wr_tcms : (s.wr f d v k).tcms = s.tcms := rfl
@[simp] theorem wr_engs : (s.wr f d v k).engs = s.engs := rfl
@[simp] theorem wr_dma : (s.wr f d v k).dma = s.dma := rfl
@[simp] theorem wr_memSts : (s.wr f d v k).memSts = s.memSts := rfl
@[simp] theorem wr_pwr : (s.wr f d v k).pwr = s.pwr := rfl
@[simp] theorem wr_mgr : (s.wr f d v k).mgr = s.mgr := rfl
@[simp] theorem wr_flowPwr : (s.wr f d v k).flowPwr = s.flowPwr := rfl
@[simp] theorem wr_tim : (s.wr f d v k).tim = s.tim := rfl
@[simp] theorem wr_refs : (s.wr f d v k).refs = s.refs := rfl
@[simp] theorem wr_seqs : (s.wr f d v k).seqs = s.seqs := rfl
@[simp] theorem wr_wch : (s.wr f d v k).wch = s.wch := rfl
@[simp] theorem wr_plm : (s.wr f d v k).plm = s.plm := rfl
@[simp] theorem wr_teams : (s.wr f d v k).teams = s.teams := rfl
@[simp] theorem wr_cairn : (s.wr f d v k).cairn = s.cairn := rfl
@[simp] theorem wr_retries : (s.wr f d v k).retries = s.retries := rfl
@[simp] theorem wr_pins : (s.wr f d v k).pins = s.pins := rfl
@[simp] theorem wr_taps : (s.wr f d v k).taps = s.taps := rfl
@[simp] theorem wr_out : (s.wr f d v k).out = s.out := rfl
@[simp] theorem wr_fresh : (s.wr f d v k).fresh = s.fresh := rfl
@[simp] theorem wr_pending : (s.wr f d v k).pending = s.pending := rfl
end

section
variable (f : Fld) (d v k : Nat)
@[simp] theorem raise_part : (s.raise f d v k).part = s.part := rfl
@[simp] theorem raise_staged : (s.raise f d v k).staged = s.staged := rfl
@[simp] theorem raise_pend : (s.raise f d v k).pend = s.pend := rfl
@[simp] theorem raise_shadow : (s.raise f d v k).shadow = s.shadow := rfl
@[simp] theorem raise_mem : (s.raise f d v k).mem = s.mem := rfl
@[simp] theorem raise_flash : (s.raise f d v k).flash = s.flash := rfl
@[simp] theorem raise_otp : (s.raise f d v k).otp = s.otp := rfl
@[simp] theorem raise_dieId : (s.raise f d v k).dieId = s.dieId := rfl
@[simp] theorem raise_time : (s.raise f d v k).time = s.time := rfl
@[simp] theorem raise_dies : (s.raise f d v k).dies = s.dies := rfl
@[simp] theorem raise_crown : (s.raise f d v k).crown = s.crown := rfl
@[simp] theorem raise_bus : (s.raise f d v k).bus = s.bus := rfl
@[simp] theorem raise_txn : (s.raise f d v k).txn = s.txn := rfl
@[simp] theorem raise_image : (s.raise f d v k).image = s.image := rfl
@[simp] theorem raise_load : (s.raise f d v k).load = s.load := rfl
@[simp] theorem raise_units : (s.raise f d v k).units = s.units := rfl
@[simp] theorem raise_blkRst : (s.raise f d v k).blkRst = s.blkRst := rfl
@[simp] theorem raise_cnv : (s.raise f d v k).cnv = s.cnv := rfl
@[simp] theorem raise_coef : (s.raise f d v k).coef = s.coef := rfl
@[simp] theorem raise_calRej : (s.raise f d v k).calRej = s.calRej := rfl
@[simp] theorem raise_calRun : (s.raise f d v k).calRun = s.calRun := rfl
@[simp] theorem raise_calWin : (s.raise f d v k).calWin = s.calWin := rfl
@[simp] theorem raise_rxArms : (s.raise f d v k).rxArms = s.rxArms := rfl
@[simp] theorem raise_groups : (s.raise f d v k).groups = s.groups := rfl
@[simp] theorem raise_rxDies : (s.raise f d v k).rxDies = s.rxDies := rfl
@[simp] theorem raise_seams : (s.raise f d v k).seams = s.seams := rfl
@[simp] theorem raise_txDies : (s.raise f d v k).txDies = s.txDies := rfl
@[simp] theorem raise_txArms : (s.raise f d v k).txArms = s.txArms := rfl
@[simp] theorem raise_lut : (s.raise f d v k).lut = s.lut := rfl
@[simp] theorem raise_fec : (s.raise f d v k).fec = s.fec := rfl
@[simp] theorem raise_streams : (s.raise f d v k).streams = s.streams := rfl
@[simp] theorem raise_frm : (s.raise f d v k).frm = s.frm := rfl
@[simp] theorem raise_flows : (s.raise f d v k).flows = s.flows := rfl
@[simp] theorem raise_keyJobs : (s.raise f d v k).keyJobs = s.keyJobs := rfl
@[simp] theorem raise_crc : (s.raise f d v k).crc = s.crc := rfl
@[simp] theorem raise_lanes : (s.raise f d v k).lanes = s.lanes := rfl
@[simp] theorem raise_grps : (s.raise f d v k).grps = s.grps := rfl
@[simp] theorem raise_stamps : (s.raise f d v k).stamps = s.stamps := rfl
@[simp] theorem raise_wordErr : (s.raise f d v k).wordErr = s.wordErr := rfl
@[simp] theorem raise_banks : (s.raise f d v k).banks = s.banks := rfl
@[simp] theorem raise_tcms : (s.raise f d v k).tcms = s.tcms := rfl
@[simp] theorem raise_engs : (s.raise f d v k).engs = s.engs := rfl
@[simp] theorem raise_dma : (s.raise f d v k).dma = s.dma := rfl
@[simp] theorem raise_memSts : (s.raise f d v k).memSts = s.memSts := rfl
@[simp] theorem raise_pwr : (s.raise f d v k).pwr = s.pwr := rfl
@[simp] theorem raise_mgr : (s.raise f d v k).mgr = s.mgr := rfl
@[simp] theorem raise_flowPwr : (s.raise f d v k).flowPwr = s.flowPwr := rfl
@[simp] theorem raise_tim : (s.raise f d v k).tim = s.tim := rfl
@[simp] theorem raise_refs : (s.raise f d v k).refs = s.refs := rfl
@[simp] theorem raise_seqs : (s.raise f d v k).seqs = s.seqs := rfl
@[simp] theorem raise_wch : (s.raise f d v k).wch = s.wch := rfl
@[simp] theorem raise_plm : (s.raise f d v k).plm = s.plm := rfl
@[simp] theorem raise_teams : (s.raise f d v k).teams = s.teams := rfl
@[simp] theorem raise_cairn : (s.raise f d v k).cairn = s.cairn := rfl
@[simp] theorem raise_retries : (s.raise f d v k).retries = s.retries := rfl
@[simp] theorem raise_pins : (s.raise f d v k).pins = s.pins := rfl
@[simp] theorem raise_taps : (s.raise f d v k).taps = s.taps := rfl
@[simp] theorem raise_out : (s.raise f d v k).out = s.out := rfl
@[simp] theorem raise_fresh : (s.raise f d v k).fresh = s.fresh := rfl
@[simp] theorem raise_pending : (s.raise f d v k).pending = s.pending := rfl
end

section
variable (f : Fld) (d v k : Nat)
@[simp] theorem lower_part : (s.lower f d v k).part = s.part := rfl
@[simp] theorem lower_staged : (s.lower f d v k).staged = s.staged := rfl
@[simp] theorem lower_pend : (s.lower f d v k).pend = s.pend := rfl
@[simp] theorem lower_shadow : (s.lower f d v k).shadow = s.shadow := rfl
@[simp] theorem lower_mem : (s.lower f d v k).mem = s.mem := rfl
@[simp] theorem lower_flash : (s.lower f d v k).flash = s.flash := rfl
@[simp] theorem lower_otp : (s.lower f d v k).otp = s.otp := rfl
@[simp] theorem lower_dieId : (s.lower f d v k).dieId = s.dieId := rfl
@[simp] theorem lower_time : (s.lower f d v k).time = s.time := rfl
@[simp] theorem lower_dies : (s.lower f d v k).dies = s.dies := rfl
@[simp] theorem lower_crown : (s.lower f d v k).crown = s.crown := rfl
@[simp] theorem lower_bus : (s.lower f d v k).bus = s.bus := rfl
@[simp] theorem lower_txn : (s.lower f d v k).txn = s.txn := rfl
@[simp] theorem lower_image : (s.lower f d v k).image = s.image := rfl
@[simp] theorem lower_load : (s.lower f d v k).load = s.load := rfl
@[simp] theorem lower_units : (s.lower f d v k).units = s.units := rfl
@[simp] theorem lower_blkRst : (s.lower f d v k).blkRst = s.blkRst := rfl
@[simp] theorem lower_cnv : (s.lower f d v k).cnv = s.cnv := rfl
@[simp] theorem lower_coef : (s.lower f d v k).coef = s.coef := rfl
@[simp] theorem lower_calRej : (s.lower f d v k).calRej = s.calRej := rfl
@[simp] theorem lower_calRun : (s.lower f d v k).calRun = s.calRun := rfl
@[simp] theorem lower_calWin : (s.lower f d v k).calWin = s.calWin := rfl
@[simp] theorem lower_rxArms : (s.lower f d v k).rxArms = s.rxArms := rfl
@[simp] theorem lower_groups : (s.lower f d v k).groups = s.groups := rfl
@[simp] theorem lower_rxDies : (s.lower f d v k).rxDies = s.rxDies := rfl
@[simp] theorem lower_seams : (s.lower f d v k).seams = s.seams := rfl
@[simp] theorem lower_txDies : (s.lower f d v k).txDies = s.txDies := rfl
@[simp] theorem lower_txArms : (s.lower f d v k).txArms = s.txArms := rfl
@[simp] theorem lower_lut : (s.lower f d v k).lut = s.lut := rfl
@[simp] theorem lower_fec : (s.lower f d v k).fec = s.fec := rfl
@[simp] theorem lower_streams : (s.lower f d v k).streams = s.streams := rfl
@[simp] theorem lower_frm : (s.lower f d v k).frm = s.frm := rfl
@[simp] theorem lower_flows : (s.lower f d v k).flows = s.flows := rfl
@[simp] theorem lower_keyJobs : (s.lower f d v k).keyJobs = s.keyJobs := rfl
@[simp] theorem lower_crc : (s.lower f d v k).crc = s.crc := rfl
@[simp] theorem lower_lanes : (s.lower f d v k).lanes = s.lanes := rfl
@[simp] theorem lower_grps : (s.lower f d v k).grps = s.grps := rfl
@[simp] theorem lower_stamps : (s.lower f d v k).stamps = s.stamps := rfl
@[simp] theorem lower_wordErr : (s.lower f d v k).wordErr = s.wordErr := rfl
@[simp] theorem lower_banks : (s.lower f d v k).banks = s.banks := rfl
@[simp] theorem lower_tcms : (s.lower f d v k).tcms = s.tcms := rfl
@[simp] theorem lower_engs : (s.lower f d v k).engs = s.engs := rfl
@[simp] theorem lower_dma : (s.lower f d v k).dma = s.dma := rfl
@[simp] theorem lower_memSts : (s.lower f d v k).memSts = s.memSts := rfl
@[simp] theorem lower_pwr : (s.lower f d v k).pwr = s.pwr := rfl
@[simp] theorem lower_mgr : (s.lower f d v k).mgr = s.mgr := rfl
@[simp] theorem lower_flowPwr : (s.lower f d v k).flowPwr = s.flowPwr := rfl
@[simp] theorem lower_tim : (s.lower f d v k).tim = s.tim := rfl
@[simp] theorem lower_refs : (s.lower f d v k).refs = s.refs := rfl
@[simp] theorem lower_seqs : (s.lower f d v k).seqs = s.seqs := rfl
@[simp] theorem lower_wch : (s.lower f d v k).wch = s.wch := rfl
@[simp] theorem lower_plm : (s.lower f d v k).plm = s.plm := rfl
@[simp] theorem lower_teams : (s.lower f d v k).teams = s.teams := rfl
@[simp] theorem lower_cairn : (s.lower f d v k).cairn = s.cairn := rfl
@[simp] theorem lower_retries : (s.lower f d v k).retries = s.retries := rfl
@[simp] theorem lower_pins : (s.lower f d v k).pins = s.pins := rfl
@[simp] theorem lower_taps : (s.lower f d v k).taps = s.taps := rfl
@[simp] theorem lower_out : (s.lower f d v k).out = s.out := rfl
@[simp] theorem lower_fresh : (s.lower f d v k).fresh = s.fresh := rfl
@[simp] theorem lower_pending : (s.lower f d v k).pending = s.pending := rfl
end

section
variable (f : Fld) (d v k : Nat)
@[simp] theorem count_part : (s.count f d v k).part = s.part := rfl
@[simp] theorem count_staged : (s.count f d v k).staged = s.staged := rfl
@[simp] theorem count_pend : (s.count f d v k).pend = s.pend := rfl
@[simp] theorem count_shadow : (s.count f d v k).shadow = s.shadow := rfl
@[simp] theorem count_mem : (s.count f d v k).mem = s.mem := rfl
@[simp] theorem count_flash : (s.count f d v k).flash = s.flash := rfl
@[simp] theorem count_otp : (s.count f d v k).otp = s.otp := rfl
@[simp] theorem count_dieId : (s.count f d v k).dieId = s.dieId := rfl
@[simp] theorem count_time : (s.count f d v k).time = s.time := rfl
@[simp] theorem count_dies : (s.count f d v k).dies = s.dies := rfl
@[simp] theorem count_crown : (s.count f d v k).crown = s.crown := rfl
@[simp] theorem count_bus : (s.count f d v k).bus = s.bus := rfl
@[simp] theorem count_txn : (s.count f d v k).txn = s.txn := rfl
@[simp] theorem count_image : (s.count f d v k).image = s.image := rfl
@[simp] theorem count_load : (s.count f d v k).load = s.load := rfl
@[simp] theorem count_units : (s.count f d v k).units = s.units := rfl
@[simp] theorem count_blkRst : (s.count f d v k).blkRst = s.blkRst := rfl
@[simp] theorem count_cnv : (s.count f d v k).cnv = s.cnv := rfl
@[simp] theorem count_coef : (s.count f d v k).coef = s.coef := rfl
@[simp] theorem count_calRej : (s.count f d v k).calRej = s.calRej := rfl
@[simp] theorem count_calRun : (s.count f d v k).calRun = s.calRun := rfl
@[simp] theorem count_calWin : (s.count f d v k).calWin = s.calWin := rfl
@[simp] theorem count_rxArms : (s.count f d v k).rxArms = s.rxArms := rfl
@[simp] theorem count_groups : (s.count f d v k).groups = s.groups := rfl
@[simp] theorem count_rxDies : (s.count f d v k).rxDies = s.rxDies := rfl
@[simp] theorem count_seams : (s.count f d v k).seams = s.seams := rfl
@[simp] theorem count_txDies : (s.count f d v k).txDies = s.txDies := rfl
@[simp] theorem count_txArms : (s.count f d v k).txArms = s.txArms := rfl
@[simp] theorem count_lut : (s.count f d v k).lut = s.lut := rfl
@[simp] theorem count_fec : (s.count f d v k).fec = s.fec := rfl
@[simp] theorem count_streams : (s.count f d v k).streams = s.streams := rfl
@[simp] theorem count_frm : (s.count f d v k).frm = s.frm := rfl
@[simp] theorem count_flows : (s.count f d v k).flows = s.flows := rfl
@[simp] theorem count_keyJobs : (s.count f d v k).keyJobs = s.keyJobs := rfl
@[simp] theorem count_crc : (s.count f d v k).crc = s.crc := rfl
@[simp] theorem count_lanes : (s.count f d v k).lanes = s.lanes := rfl
@[simp] theorem count_grps : (s.count f d v k).grps = s.grps := rfl
@[simp] theorem count_stamps : (s.count f d v k).stamps = s.stamps := rfl
@[simp] theorem count_wordErr : (s.count f d v k).wordErr = s.wordErr := rfl
@[simp] theorem count_banks : (s.count f d v k).banks = s.banks := rfl
@[simp] theorem count_tcms : (s.count f d v k).tcms = s.tcms := rfl
@[simp] theorem count_engs : (s.count f d v k).engs = s.engs := rfl
@[simp] theorem count_dma : (s.count f d v k).dma = s.dma := rfl
@[simp] theorem count_memSts : (s.count f d v k).memSts = s.memSts := rfl
@[simp] theorem count_pwr : (s.count f d v k).pwr = s.pwr := rfl
@[simp] theorem count_mgr : (s.count f d v k).mgr = s.mgr := rfl
@[simp] theorem count_flowPwr : (s.count f d v k).flowPwr = s.flowPwr := rfl
@[simp] theorem count_tim : (s.count f d v k).tim = s.tim := rfl
@[simp] theorem count_refs : (s.count f d v k).refs = s.refs := rfl
@[simp] theorem count_seqs : (s.count f d v k).seqs = s.seqs := rfl
@[simp] theorem count_wch : (s.count f d v k).wch = s.wch := rfl
@[simp] theorem count_plm : (s.count f d v k).plm = s.plm := rfl
@[simp] theorem count_teams : (s.count f d v k).teams = s.teams := rfl
@[simp] theorem count_cairn : (s.count f d v k).cairn = s.cairn := rfl
@[simp] theorem count_retries : (s.count f d v k).retries = s.retries := rfl
@[simp] theorem count_pins : (s.count f d v k).pins = s.pins := rfl
@[simp] theorem count_taps : (s.count f d v k).taps = s.taps := rfl
@[simp] theorem count_out : (s.count f d v k).out = s.out := rfl
@[simp] theorem count_fresh : (s.count f d v k).fresh = s.fresh := rfl
@[simp] theorem count_pending : (s.count f d v k).pending = s.pending := rfl
end

section
variable (f : Fld) (d k : Nat) (b : Bool)
@[simp] theorem wrb_part : (s.wrb f d b k).part = s.part := rfl
@[simp] theorem wrb_staged : (s.wrb f d b k).staged = s.staged := rfl
@[simp] theorem wrb_pend : (s.wrb f d b k).pend = s.pend := rfl
@[simp] theorem wrb_shadow : (s.wrb f d b k).shadow = s.shadow := rfl
@[simp] theorem wrb_mem : (s.wrb f d b k).mem = s.mem := rfl
@[simp] theorem wrb_flash : (s.wrb f d b k).flash = s.flash := rfl
@[simp] theorem wrb_otp : (s.wrb f d b k).otp = s.otp := rfl
@[simp] theorem wrb_dieId : (s.wrb f d b k).dieId = s.dieId := rfl
@[simp] theorem wrb_time : (s.wrb f d b k).time = s.time := rfl
@[simp] theorem wrb_dies : (s.wrb f d b k).dies = s.dies := rfl
@[simp] theorem wrb_crown : (s.wrb f d b k).crown = s.crown := rfl
@[simp] theorem wrb_bus : (s.wrb f d b k).bus = s.bus := rfl
@[simp] theorem wrb_txn : (s.wrb f d b k).txn = s.txn := rfl
@[simp] theorem wrb_image : (s.wrb f d b k).image = s.image := rfl
@[simp] theorem wrb_load : (s.wrb f d b k).load = s.load := rfl
@[simp] theorem wrb_units : (s.wrb f d b k).units = s.units := rfl
@[simp] theorem wrb_blkRst : (s.wrb f d b k).blkRst = s.blkRst := rfl
@[simp] theorem wrb_cnv : (s.wrb f d b k).cnv = s.cnv := rfl
@[simp] theorem wrb_coef : (s.wrb f d b k).coef = s.coef := rfl
@[simp] theorem wrb_calRej : (s.wrb f d b k).calRej = s.calRej := rfl
@[simp] theorem wrb_calRun : (s.wrb f d b k).calRun = s.calRun := rfl
@[simp] theorem wrb_calWin : (s.wrb f d b k).calWin = s.calWin := rfl
@[simp] theorem wrb_rxArms : (s.wrb f d b k).rxArms = s.rxArms := rfl
@[simp] theorem wrb_groups : (s.wrb f d b k).groups = s.groups := rfl
@[simp] theorem wrb_rxDies : (s.wrb f d b k).rxDies = s.rxDies := rfl
@[simp] theorem wrb_seams : (s.wrb f d b k).seams = s.seams := rfl
@[simp] theorem wrb_txDies : (s.wrb f d b k).txDies = s.txDies := rfl
@[simp] theorem wrb_txArms : (s.wrb f d b k).txArms = s.txArms := rfl
@[simp] theorem wrb_lut : (s.wrb f d b k).lut = s.lut := rfl
@[simp] theorem wrb_fec : (s.wrb f d b k).fec = s.fec := rfl
@[simp] theorem wrb_streams : (s.wrb f d b k).streams = s.streams := rfl
@[simp] theorem wrb_frm : (s.wrb f d b k).frm = s.frm := rfl
@[simp] theorem wrb_flows : (s.wrb f d b k).flows = s.flows := rfl
@[simp] theorem wrb_keyJobs : (s.wrb f d b k).keyJobs = s.keyJobs := rfl
@[simp] theorem wrb_crc : (s.wrb f d b k).crc = s.crc := rfl
@[simp] theorem wrb_lanes : (s.wrb f d b k).lanes = s.lanes := rfl
@[simp] theorem wrb_grps : (s.wrb f d b k).grps = s.grps := rfl
@[simp] theorem wrb_stamps : (s.wrb f d b k).stamps = s.stamps := rfl
@[simp] theorem wrb_wordErr : (s.wrb f d b k).wordErr = s.wordErr := rfl
@[simp] theorem wrb_banks : (s.wrb f d b k).banks = s.banks := rfl
@[simp] theorem wrb_tcms : (s.wrb f d b k).tcms = s.tcms := rfl
@[simp] theorem wrb_engs : (s.wrb f d b k).engs = s.engs := rfl
@[simp] theorem wrb_dma : (s.wrb f d b k).dma = s.dma := rfl
@[simp] theorem wrb_memSts : (s.wrb f d b k).memSts = s.memSts := rfl
@[simp] theorem wrb_pwr : (s.wrb f d b k).pwr = s.pwr := rfl
@[simp] theorem wrb_mgr : (s.wrb f d b k).mgr = s.mgr := rfl
@[simp] theorem wrb_flowPwr : (s.wrb f d b k).flowPwr = s.flowPwr := rfl
@[simp] theorem wrb_tim : (s.wrb f d b k).tim = s.tim := rfl
@[simp] theorem wrb_refs : (s.wrb f d b k).refs = s.refs := rfl
@[simp] theorem wrb_seqs : (s.wrb f d b k).seqs = s.seqs := rfl
@[simp] theorem wrb_wch : (s.wrb f d b k).wch = s.wch := rfl
@[simp] theorem wrb_plm : (s.wrb f d b k).plm = s.plm := rfl
@[simp] theorem wrb_teams : (s.wrb f d b k).teams = s.teams := rfl
@[simp] theorem wrb_cairn : (s.wrb f d b k).cairn = s.cairn := rfl
@[simp] theorem wrb_retries : (s.wrb f d b k).retries = s.retries := rfl
@[simp] theorem wrb_pins : (s.wrb f d b k).pins = s.pins := rfl
@[simp] theorem wrb_taps : (s.wrb f d b k).taps = s.taps := rfl
@[simp] theorem wrb_out : (s.wrb f d b k).out = s.out := rfl
@[simp] theorem wrb_fresh : (s.wrb f d b k).fresh = s.fresh := rfl
@[simp] theorem wrb_pending : (s.wrb f d b k).pending = s.pending := rfl
end

section
variable (f : Fld) (d i k : Nat) (b : Bool)
@[simp] theorem wrBit_part : (s.wrBit f d i b k).part = s.part := rfl
@[simp] theorem wrBit_staged : (s.wrBit f d i b k).staged = s.staged := rfl
@[simp] theorem wrBit_pend : (s.wrBit f d i b k).pend = s.pend := rfl
@[simp] theorem wrBit_shadow : (s.wrBit f d i b k).shadow = s.shadow := rfl
@[simp] theorem wrBit_mem : (s.wrBit f d i b k).mem = s.mem := rfl
@[simp] theorem wrBit_flash : (s.wrBit f d i b k).flash = s.flash := rfl
@[simp] theorem wrBit_otp : (s.wrBit f d i b k).otp = s.otp := rfl
@[simp] theorem wrBit_dieId : (s.wrBit f d i b k).dieId = s.dieId := rfl
@[simp] theorem wrBit_time : (s.wrBit f d i b k).time = s.time := rfl
@[simp] theorem wrBit_dies : (s.wrBit f d i b k).dies = s.dies := rfl
@[simp] theorem wrBit_crown : (s.wrBit f d i b k).crown = s.crown := rfl
@[simp] theorem wrBit_bus : (s.wrBit f d i b k).bus = s.bus := rfl
@[simp] theorem wrBit_txn : (s.wrBit f d i b k).txn = s.txn := rfl
@[simp] theorem wrBit_image : (s.wrBit f d i b k).image = s.image := rfl
@[simp] theorem wrBit_load : (s.wrBit f d i b k).load = s.load := rfl
@[simp] theorem wrBit_units : (s.wrBit f d i b k).units = s.units := rfl
@[simp] theorem wrBit_blkRst : (s.wrBit f d i b k).blkRst = s.blkRst := rfl
@[simp] theorem wrBit_cnv : (s.wrBit f d i b k).cnv = s.cnv := rfl
@[simp] theorem wrBit_coef : (s.wrBit f d i b k).coef = s.coef := rfl
@[simp] theorem wrBit_calRej : (s.wrBit f d i b k).calRej = s.calRej := rfl
@[simp] theorem wrBit_calRun : (s.wrBit f d i b k).calRun = s.calRun := rfl
@[simp] theorem wrBit_calWin : (s.wrBit f d i b k).calWin = s.calWin := rfl
@[simp] theorem wrBit_rxArms : (s.wrBit f d i b k).rxArms = s.rxArms := rfl
@[simp] theorem wrBit_groups : (s.wrBit f d i b k).groups = s.groups := rfl
@[simp] theorem wrBit_rxDies : (s.wrBit f d i b k).rxDies = s.rxDies := rfl
@[simp] theorem wrBit_seams : (s.wrBit f d i b k).seams = s.seams := rfl
@[simp] theorem wrBit_txDies : (s.wrBit f d i b k).txDies = s.txDies := rfl
@[simp] theorem wrBit_txArms : (s.wrBit f d i b k).txArms = s.txArms := rfl
@[simp] theorem wrBit_lut : (s.wrBit f d i b k).lut = s.lut := rfl
@[simp] theorem wrBit_fec : (s.wrBit f d i b k).fec = s.fec := rfl
@[simp] theorem wrBit_streams : (s.wrBit f d i b k).streams = s.streams := rfl
@[simp] theorem wrBit_frm : (s.wrBit f d i b k).frm = s.frm := rfl
@[simp] theorem wrBit_flows : (s.wrBit f d i b k).flows = s.flows := rfl
@[simp] theorem wrBit_keyJobs : (s.wrBit f d i b k).keyJobs = s.keyJobs := rfl
@[simp] theorem wrBit_crc : (s.wrBit f d i b k).crc = s.crc := rfl
@[simp] theorem wrBit_lanes : (s.wrBit f d i b k).lanes = s.lanes := rfl
@[simp] theorem wrBit_grps : (s.wrBit f d i b k).grps = s.grps := rfl
@[simp] theorem wrBit_stamps : (s.wrBit f d i b k).stamps = s.stamps := rfl
@[simp] theorem wrBit_wordErr : (s.wrBit f d i b k).wordErr = s.wordErr := rfl
@[simp] theorem wrBit_banks : (s.wrBit f d i b k).banks = s.banks := rfl
@[simp] theorem wrBit_tcms : (s.wrBit f d i b k).tcms = s.tcms := rfl
@[simp] theorem wrBit_engs : (s.wrBit f d i b k).engs = s.engs := rfl
@[simp] theorem wrBit_dma : (s.wrBit f d i b k).dma = s.dma := rfl
@[simp] theorem wrBit_memSts : (s.wrBit f d i b k).memSts = s.memSts := rfl
@[simp] theorem wrBit_pwr : (s.wrBit f d i b k).pwr = s.pwr := rfl
@[simp] theorem wrBit_mgr : (s.wrBit f d i b k).mgr = s.mgr := rfl
@[simp] theorem wrBit_flowPwr : (s.wrBit f d i b k).flowPwr = s.flowPwr := rfl
@[simp] theorem wrBit_tim : (s.wrBit f d i b k).tim = s.tim := rfl
@[simp] theorem wrBit_refs : (s.wrBit f d i b k).refs = s.refs := rfl
@[simp] theorem wrBit_seqs : (s.wrBit f d i b k).seqs = s.seqs := rfl
@[simp] theorem wrBit_wch : (s.wrBit f d i b k).wch = s.wch := rfl
@[simp] theorem wrBit_plm : (s.wrBit f d i b k).plm = s.plm := rfl
@[simp] theorem wrBit_teams : (s.wrBit f d i b k).teams = s.teams := rfl
@[simp] theorem wrBit_cairn : (s.wrBit f d i b k).cairn = s.cairn := rfl
@[simp] theorem wrBit_retries : (s.wrBit f d i b k).retries = s.retries := rfl
@[simp] theorem wrBit_pins : (s.wrBit f d i b k).pins = s.pins := rfl
@[simp] theorem wrBit_taps : (s.wrBit f d i b k).taps = s.taps := rfl
@[simp] theorem wrBit_out : (s.wrBit f d i b k).out = s.out := rfl
@[simp] theorem wrBit_fresh : (s.wrBit f d i b k).fresh = s.fresh := rfl
@[simp] theorem wrBit_pending : (s.wrBit f d i b k).pending = s.pending := rfl
end

section
variable (f : Fld) (d k : Nat) (v : Int)
@[simp] theorem wrS_part : (s.wrS f d v k).part = s.part := rfl
@[simp] theorem wrS_staged : (s.wrS f d v k).staged = s.staged := rfl
@[simp] theorem wrS_pend : (s.wrS f d v k).pend = s.pend := rfl
@[simp] theorem wrS_shadow : (s.wrS f d v k).shadow = s.shadow := rfl
@[simp] theorem wrS_mem : (s.wrS f d v k).mem = s.mem := rfl
@[simp] theorem wrS_flash : (s.wrS f d v k).flash = s.flash := rfl
@[simp] theorem wrS_otp : (s.wrS f d v k).otp = s.otp := rfl
@[simp] theorem wrS_dieId : (s.wrS f d v k).dieId = s.dieId := rfl
@[simp] theorem wrS_time : (s.wrS f d v k).time = s.time := rfl
@[simp] theorem wrS_dies : (s.wrS f d v k).dies = s.dies := rfl
@[simp] theorem wrS_crown : (s.wrS f d v k).crown = s.crown := rfl
@[simp] theorem wrS_bus : (s.wrS f d v k).bus = s.bus := rfl
@[simp] theorem wrS_txn : (s.wrS f d v k).txn = s.txn := rfl
@[simp] theorem wrS_image : (s.wrS f d v k).image = s.image := rfl
@[simp] theorem wrS_load : (s.wrS f d v k).load = s.load := rfl
@[simp] theorem wrS_units : (s.wrS f d v k).units = s.units := rfl
@[simp] theorem wrS_blkRst : (s.wrS f d v k).blkRst = s.blkRst := rfl
@[simp] theorem wrS_cnv : (s.wrS f d v k).cnv = s.cnv := rfl
@[simp] theorem wrS_coef : (s.wrS f d v k).coef = s.coef := rfl
@[simp] theorem wrS_calRej : (s.wrS f d v k).calRej = s.calRej := rfl
@[simp] theorem wrS_calRun : (s.wrS f d v k).calRun = s.calRun := rfl
@[simp] theorem wrS_calWin : (s.wrS f d v k).calWin = s.calWin := rfl
@[simp] theorem wrS_rxArms : (s.wrS f d v k).rxArms = s.rxArms := rfl
@[simp] theorem wrS_groups : (s.wrS f d v k).groups = s.groups := rfl
@[simp] theorem wrS_rxDies : (s.wrS f d v k).rxDies = s.rxDies := rfl
@[simp] theorem wrS_seams : (s.wrS f d v k).seams = s.seams := rfl
@[simp] theorem wrS_txDies : (s.wrS f d v k).txDies = s.txDies := rfl
@[simp] theorem wrS_txArms : (s.wrS f d v k).txArms = s.txArms := rfl
@[simp] theorem wrS_lut : (s.wrS f d v k).lut = s.lut := rfl
@[simp] theorem wrS_fec : (s.wrS f d v k).fec = s.fec := rfl
@[simp] theorem wrS_streams : (s.wrS f d v k).streams = s.streams := rfl
@[simp] theorem wrS_frm : (s.wrS f d v k).frm = s.frm := rfl
@[simp] theorem wrS_flows : (s.wrS f d v k).flows = s.flows := rfl
@[simp] theorem wrS_keyJobs : (s.wrS f d v k).keyJobs = s.keyJobs := rfl
@[simp] theorem wrS_crc : (s.wrS f d v k).crc = s.crc := rfl
@[simp] theorem wrS_lanes : (s.wrS f d v k).lanes = s.lanes := rfl
@[simp] theorem wrS_grps : (s.wrS f d v k).grps = s.grps := rfl
@[simp] theorem wrS_stamps : (s.wrS f d v k).stamps = s.stamps := rfl
@[simp] theorem wrS_wordErr : (s.wrS f d v k).wordErr = s.wordErr := rfl
@[simp] theorem wrS_banks : (s.wrS f d v k).banks = s.banks := rfl
@[simp] theorem wrS_tcms : (s.wrS f d v k).tcms = s.tcms := rfl
@[simp] theorem wrS_engs : (s.wrS f d v k).engs = s.engs := rfl
@[simp] theorem wrS_dma : (s.wrS f d v k).dma = s.dma := rfl
@[simp] theorem wrS_memSts : (s.wrS f d v k).memSts = s.memSts := rfl
@[simp] theorem wrS_pwr : (s.wrS f d v k).pwr = s.pwr := rfl
@[simp] theorem wrS_mgr : (s.wrS f d v k).mgr = s.mgr := rfl
@[simp] theorem wrS_flowPwr : (s.wrS f d v k).flowPwr = s.flowPwr := rfl
@[simp] theorem wrS_tim : (s.wrS f d v k).tim = s.tim := rfl
@[simp] theorem wrS_refs : (s.wrS f d v k).refs = s.refs := rfl
@[simp] theorem wrS_seqs : (s.wrS f d v k).seqs = s.seqs := rfl
@[simp] theorem wrS_wch : (s.wrS f d v k).wch = s.wch := rfl
@[simp] theorem wrS_plm : (s.wrS f d v k).plm = s.plm := rfl
@[simp] theorem wrS_teams : (s.wrS f d v k).teams = s.teams := rfl
@[simp] theorem wrS_cairn : (s.wrS f d v k).cairn = s.cairn := rfl
@[simp] theorem wrS_retries : (s.wrS f d v k).retries = s.retries := rfl
@[simp] theorem wrS_pins : (s.wrS f d v k).pins = s.pins := rfl
@[simp] theorem wrS_taps : (s.wrS f d v k).taps = s.taps := rfl
@[simp] theorem wrS_out : (s.wrS f d v k).out = s.out := rfl
@[simp] theorem wrS_fresh : (s.wrS f d v k).fresh = s.fresh := rfl
@[simp] theorem wrS_pending : (s.wrS f d v k).pending = s.pending := rfl
end

section
variable (f : Fld) (d k : Nat) (v : Int)
@[simp] theorem wrSat_part : (s.wrSat f d v k).part = s.part := rfl
@[simp] theorem wrSat_staged : (s.wrSat f d v k).staged = s.staged := rfl
@[simp] theorem wrSat_pend : (s.wrSat f d v k).pend = s.pend := rfl
@[simp] theorem wrSat_shadow : (s.wrSat f d v k).shadow = s.shadow := rfl
@[simp] theorem wrSat_mem : (s.wrSat f d v k).mem = s.mem := rfl
@[simp] theorem wrSat_flash : (s.wrSat f d v k).flash = s.flash := rfl
@[simp] theorem wrSat_otp : (s.wrSat f d v k).otp = s.otp := rfl
@[simp] theorem wrSat_dieId : (s.wrSat f d v k).dieId = s.dieId := rfl
@[simp] theorem wrSat_time : (s.wrSat f d v k).time = s.time := rfl
@[simp] theorem wrSat_dies : (s.wrSat f d v k).dies = s.dies := rfl
@[simp] theorem wrSat_crown : (s.wrSat f d v k).crown = s.crown := rfl
@[simp] theorem wrSat_bus : (s.wrSat f d v k).bus = s.bus := rfl
@[simp] theorem wrSat_txn : (s.wrSat f d v k).txn = s.txn := rfl
@[simp] theorem wrSat_image : (s.wrSat f d v k).image = s.image := rfl
@[simp] theorem wrSat_load : (s.wrSat f d v k).load = s.load := rfl
@[simp] theorem wrSat_units : (s.wrSat f d v k).units = s.units := rfl
@[simp] theorem wrSat_blkRst : (s.wrSat f d v k).blkRst = s.blkRst := rfl
@[simp] theorem wrSat_cnv : (s.wrSat f d v k).cnv = s.cnv := rfl
@[simp] theorem wrSat_coef : (s.wrSat f d v k).coef = s.coef := rfl
@[simp] theorem wrSat_calRej : (s.wrSat f d v k).calRej = s.calRej := rfl
@[simp] theorem wrSat_calRun : (s.wrSat f d v k).calRun = s.calRun := rfl
@[simp] theorem wrSat_calWin : (s.wrSat f d v k).calWin = s.calWin := rfl
@[simp] theorem wrSat_rxArms : (s.wrSat f d v k).rxArms = s.rxArms := rfl
@[simp] theorem wrSat_groups : (s.wrSat f d v k).groups = s.groups := rfl
@[simp] theorem wrSat_rxDies : (s.wrSat f d v k).rxDies = s.rxDies := rfl
@[simp] theorem wrSat_seams : (s.wrSat f d v k).seams = s.seams := rfl
@[simp] theorem wrSat_txDies : (s.wrSat f d v k).txDies = s.txDies := rfl
@[simp] theorem wrSat_txArms : (s.wrSat f d v k).txArms = s.txArms := rfl
@[simp] theorem wrSat_lut : (s.wrSat f d v k).lut = s.lut := rfl
@[simp] theorem wrSat_fec : (s.wrSat f d v k).fec = s.fec := rfl
@[simp] theorem wrSat_streams : (s.wrSat f d v k).streams = s.streams := rfl
@[simp] theorem wrSat_frm : (s.wrSat f d v k).frm = s.frm := rfl
@[simp] theorem wrSat_flows : (s.wrSat f d v k).flows = s.flows := rfl
@[simp] theorem wrSat_keyJobs : (s.wrSat f d v k).keyJobs = s.keyJobs := rfl
@[simp] theorem wrSat_crc : (s.wrSat f d v k).crc = s.crc := rfl
@[simp] theorem wrSat_lanes : (s.wrSat f d v k).lanes = s.lanes := rfl
@[simp] theorem wrSat_grps : (s.wrSat f d v k).grps = s.grps := rfl
@[simp] theorem wrSat_stamps : (s.wrSat f d v k).stamps = s.stamps := rfl
@[simp] theorem wrSat_wordErr : (s.wrSat f d v k).wordErr = s.wordErr := rfl
@[simp] theorem wrSat_banks : (s.wrSat f d v k).banks = s.banks := rfl
@[simp] theorem wrSat_tcms : (s.wrSat f d v k).tcms = s.tcms := rfl
@[simp] theorem wrSat_engs : (s.wrSat f d v k).engs = s.engs := rfl
@[simp] theorem wrSat_dma : (s.wrSat f d v k).dma = s.dma := rfl
@[simp] theorem wrSat_memSts : (s.wrSat f d v k).memSts = s.memSts := rfl
@[simp] theorem wrSat_pwr : (s.wrSat f d v k).pwr = s.pwr := rfl
@[simp] theorem wrSat_mgr : (s.wrSat f d v k).mgr = s.mgr := rfl
@[simp] theorem wrSat_flowPwr : (s.wrSat f d v k).flowPwr = s.flowPwr := rfl
@[simp] theorem wrSat_tim : (s.wrSat f d v k).tim = s.tim := rfl
@[simp] theorem wrSat_refs : (s.wrSat f d v k).refs = s.refs := rfl
@[simp] theorem wrSat_seqs : (s.wrSat f d v k).seqs = s.seqs := rfl
@[simp] theorem wrSat_wch : (s.wrSat f d v k).wch = s.wch := rfl
@[simp] theorem wrSat_plm : (s.wrSat f d v k).plm = s.plm := rfl
@[simp] theorem wrSat_teams : (s.wrSat f d v k).teams = s.teams := rfl
@[simp] theorem wrSat_cairn : (s.wrSat f d v k).cairn = s.cairn := rfl
@[simp] theorem wrSat_retries : (s.wrSat f d v k).retries = s.retries := rfl
@[simp] theorem wrSat_pins : (s.wrSat f d v k).pins = s.pins := rfl
@[simp] theorem wrSat_taps : (s.wrSat f d v k).taps = s.taps := rfl
@[simp] theorem wrSat_out : (s.wrSat f d v k).out = s.out := rfl
@[simp] theorem wrSat_fresh : (s.wrSat f d v k).fresh = s.fresh := rfl
@[simp] theorem wrSat_pending : (s.wrSat f d v k).pending = s.pending := rfl
end

section
variable (d k v : Nat)
@[simp] theorem setDomain_part : (s.setDomain d k v).part = s.part := rfl
@[simp] theorem setDomain_staged : (s.setDomain d k v).staged = s.staged := rfl
@[simp] theorem setDomain_pend : (s.setDomain d k v).pend = s.pend := rfl
@[simp] theorem setDomain_shadow : (s.setDomain d k v).shadow = s.shadow := rfl
@[simp] theorem setDomain_mem : (s.setDomain d k v).mem = s.mem := rfl
@[simp] theorem setDomain_flash : (s.setDomain d k v).flash = s.flash := rfl
@[simp] theorem setDomain_otp : (s.setDomain d k v).otp = s.otp := rfl
@[simp] theorem setDomain_dieId : (s.setDomain d k v).dieId = s.dieId := rfl
@[simp] theorem setDomain_time : (s.setDomain d k v).time = s.time := rfl
@[simp] theorem setDomain_dies : (s.setDomain d k v).dies = s.dies := rfl
@[simp] theorem setDomain_crown : (s.setDomain d k v).crown = s.crown := rfl
@[simp] theorem setDomain_bus : (s.setDomain d k v).bus = s.bus := rfl
@[simp] theorem setDomain_txn : (s.setDomain d k v).txn = s.txn := rfl
@[simp] theorem setDomain_image : (s.setDomain d k v).image = s.image := rfl
@[simp] theorem setDomain_load : (s.setDomain d k v).load = s.load := rfl
@[simp] theorem setDomain_units : (s.setDomain d k v).units = s.units := rfl
@[simp] theorem setDomain_blkRst : (s.setDomain d k v).blkRst = s.blkRst := rfl
@[simp] theorem setDomain_cnv : (s.setDomain d k v).cnv = s.cnv := rfl
@[simp] theorem setDomain_coef : (s.setDomain d k v).coef = s.coef := rfl
@[simp] theorem setDomain_calRej : (s.setDomain d k v).calRej = s.calRej := rfl
@[simp] theorem setDomain_calRun : (s.setDomain d k v).calRun = s.calRun := rfl
@[simp] theorem setDomain_calWin : (s.setDomain d k v).calWin = s.calWin := rfl
@[simp] theorem setDomain_rxArms : (s.setDomain d k v).rxArms = s.rxArms := rfl
@[simp] theorem setDomain_groups : (s.setDomain d k v).groups = s.groups := rfl
@[simp] theorem setDomain_rxDies : (s.setDomain d k v).rxDies = s.rxDies := rfl
@[simp] theorem setDomain_seams : (s.setDomain d k v).seams = s.seams := rfl
@[simp] theorem setDomain_txDies : (s.setDomain d k v).txDies = s.txDies := rfl
@[simp] theorem setDomain_txArms : (s.setDomain d k v).txArms = s.txArms := rfl
@[simp] theorem setDomain_lut : (s.setDomain d k v).lut = s.lut := rfl
@[simp] theorem setDomain_fec : (s.setDomain d k v).fec = s.fec := rfl
@[simp] theorem setDomain_streams : (s.setDomain d k v).streams = s.streams := rfl
@[simp] theorem setDomain_frm : (s.setDomain d k v).frm = s.frm := rfl
@[simp] theorem setDomain_flows : (s.setDomain d k v).flows = s.flows := rfl
@[simp] theorem setDomain_keyJobs : (s.setDomain d k v).keyJobs = s.keyJobs := rfl
@[simp] theorem setDomain_crc : (s.setDomain d k v).crc = s.crc := rfl
@[simp] theorem setDomain_lanes : (s.setDomain d k v).lanes = s.lanes := rfl
@[simp] theorem setDomain_grps : (s.setDomain d k v).grps = s.grps := rfl
@[simp] theorem setDomain_stamps : (s.setDomain d k v).stamps = s.stamps := rfl
@[simp] theorem setDomain_wordErr : (s.setDomain d k v).wordErr = s.wordErr := rfl
@[simp] theorem setDomain_banks : (s.setDomain d k v).banks = s.banks := rfl
@[simp] theorem setDomain_tcms : (s.setDomain d k v).tcms = s.tcms := rfl
@[simp] theorem setDomain_engs : (s.setDomain d k v).engs = s.engs := rfl
@[simp] theorem setDomain_dma : (s.setDomain d k v).dma = s.dma := rfl
@[simp] theorem setDomain_memSts : (s.setDomain d k v).memSts = s.memSts := rfl
@[simp] theorem setDomain_pwr : (s.setDomain d k v).pwr = s.pwr := rfl
@[simp] theorem setDomain_mgr : (s.setDomain d k v).mgr = s.mgr := rfl
@[simp] theorem setDomain_flowPwr : (s.setDomain d k v).flowPwr = s.flowPwr := rfl
@[simp] theorem setDomain_tim : (s.setDomain d k v).tim = s.tim := rfl
@[simp] theorem setDomain_refs : (s.setDomain d k v).refs = s.refs := rfl
@[simp] theorem setDomain_seqs : (s.setDomain d k v).seqs = s.seqs := rfl
@[simp] theorem setDomain_wch : (s.setDomain d k v).wch = s.wch := rfl
@[simp] theorem setDomain_plm : (s.setDomain d k v).plm = s.plm := rfl
@[simp] theorem setDomain_teams : (s.setDomain d k v).teams = s.teams := rfl
@[simp] theorem setDomain_cairn : (s.setDomain d k v).cairn = s.cairn := rfl
@[simp] theorem setDomain_retries : (s.setDomain d k v).retries = s.retries := rfl
@[simp] theorem setDomain_pins : (s.setDomain d k v).pins = s.pins := rfl
@[simp] theorem setDomain_taps : (s.setDomain d k v).taps = s.taps := rfl
@[simp] theorem setDomain_out : (s.setDomain d k v).out = s.out := rfl
@[simp] theorem setDomain_fresh : (s.setDomain d k v).fresh = s.fresh := rfl
@[simp] theorem setDomain_pending : (s.setDomain d k v).pending = s.pending := rfl
end

section
variable (f : Fld) (d v k : Nat)
@[simp] theorem stage_part : (s.stage f d v k).part = s.part := rfl
@[simp] theorem stage_regs : (s.stage f d v k).regs = s.regs := rfl
@[simp] theorem stage_pend : (s.stage f d v k).pend = s.pend := rfl
@[simp] theorem stage_shadow : (s.stage f d v k).shadow = s.shadow := rfl
@[simp] theorem stage_mem : (s.stage f d v k).mem = s.mem := rfl
@[simp] theorem stage_flash : (s.stage f d v k).flash = s.flash := rfl
@[simp] theorem stage_otp : (s.stage f d v k).otp = s.otp := rfl
@[simp] theorem stage_dieId : (s.stage f d v k).dieId = s.dieId := rfl
@[simp] theorem stage_time : (s.stage f d v k).time = s.time := rfl
@[simp] theorem stage_dies : (s.stage f d v k).dies = s.dies := rfl
@[simp] theorem stage_crown : (s.stage f d v k).crown = s.crown := rfl
@[simp] theorem stage_bus : (s.stage f d v k).bus = s.bus := rfl
@[simp] theorem stage_txn : (s.stage f d v k).txn = s.txn := rfl
@[simp] theorem stage_image : (s.stage f d v k).image = s.image := rfl
@[simp] theorem stage_load : (s.stage f d v k).load = s.load := rfl
@[simp] theorem stage_units : (s.stage f d v k).units = s.units := rfl
@[simp] theorem stage_blkRst : (s.stage f d v k).blkRst = s.blkRst := rfl
@[simp] theorem stage_cnv : (s.stage f d v k).cnv = s.cnv := rfl
@[simp] theorem stage_coef : (s.stage f d v k).coef = s.coef := rfl
@[simp] theorem stage_calRej : (s.stage f d v k).calRej = s.calRej := rfl
@[simp] theorem stage_calRun : (s.stage f d v k).calRun = s.calRun := rfl
@[simp] theorem stage_calWin : (s.stage f d v k).calWin = s.calWin := rfl
@[simp] theorem stage_rxArms : (s.stage f d v k).rxArms = s.rxArms := rfl
@[simp] theorem stage_groups : (s.stage f d v k).groups = s.groups := rfl
@[simp] theorem stage_rxDies : (s.stage f d v k).rxDies = s.rxDies := rfl
@[simp] theorem stage_seams : (s.stage f d v k).seams = s.seams := rfl
@[simp] theorem stage_txDies : (s.stage f d v k).txDies = s.txDies := rfl
@[simp] theorem stage_txArms : (s.stage f d v k).txArms = s.txArms := rfl
@[simp] theorem stage_lut : (s.stage f d v k).lut = s.lut := rfl
@[simp] theorem stage_fec : (s.stage f d v k).fec = s.fec := rfl
@[simp] theorem stage_streams : (s.stage f d v k).streams = s.streams := rfl
@[simp] theorem stage_frm : (s.stage f d v k).frm = s.frm := rfl
@[simp] theorem stage_flows : (s.stage f d v k).flows = s.flows := rfl
@[simp] theorem stage_keyJobs : (s.stage f d v k).keyJobs = s.keyJobs := rfl
@[simp] theorem stage_crc : (s.stage f d v k).crc = s.crc := rfl
@[simp] theorem stage_lanes : (s.stage f d v k).lanes = s.lanes := rfl
@[simp] theorem stage_grps : (s.stage f d v k).grps = s.grps := rfl
@[simp] theorem stage_stamps : (s.stage f d v k).stamps = s.stamps := rfl
@[simp] theorem stage_wordErr : (s.stage f d v k).wordErr = s.wordErr := rfl
@[simp] theorem stage_banks : (s.stage f d v k).banks = s.banks := rfl
@[simp] theorem stage_tcms : (s.stage f d v k).tcms = s.tcms := rfl
@[simp] theorem stage_engs : (s.stage f d v k).engs = s.engs := rfl
@[simp] theorem stage_dma : (s.stage f d v k).dma = s.dma := rfl
@[simp] theorem stage_memSts : (s.stage f d v k).memSts = s.memSts := rfl
@[simp] theorem stage_pwr : (s.stage f d v k).pwr = s.pwr := rfl
@[simp] theorem stage_mgr : (s.stage f d v k).mgr = s.mgr := rfl
@[simp] theorem stage_flowPwr : (s.stage f d v k).flowPwr = s.flowPwr := rfl
@[simp] theorem stage_tim : (s.stage f d v k).tim = s.tim := rfl
@[simp] theorem stage_refs : (s.stage f d v k).refs = s.refs := rfl
@[simp] theorem stage_seqs : (s.stage f d v k).seqs = s.seqs := rfl
@[simp] theorem stage_wch : (s.stage f d v k).wch = s.wch := rfl
@[simp] theorem stage_plm : (s.stage f d v k).plm = s.plm := rfl
@[simp] theorem stage_teams : (s.stage f d v k).teams = s.teams := rfl
@[simp] theorem stage_cairn : (s.stage f d v k).cairn = s.cairn := rfl
@[simp] theorem stage_retries : (s.stage f d v k).retries = s.retries := rfl
@[simp] theorem stage_pins : (s.stage f d v k).pins = s.pins := rfl
@[simp] theorem stage_taps : (s.stage f d v k).taps = s.taps := rfl
@[simp] theorem stage_out : (s.stage f d v k).out = s.out := rfl
@[simp] theorem stage_fresh : (s.stage f d v k).fresh = s.fresh := rfl
@[simp] theorem stage_pending : (s.stage f d v k).pending = s.pending := rfl
@[simp] theorem stage_rd (g : Fld) (e j : Nat) : (s.stage f d v k).rd g e j = s.rd g e j := rfl
end

section
variable (f : Fld) (d v k : Nat)
@[simp] theorem wrBoth_part : (s.wrBoth f d v k).part = s.part := rfl
@[simp] theorem wrBoth_pend : (s.wrBoth f d v k).pend = s.pend := rfl
@[simp] theorem wrBoth_shadow : (s.wrBoth f d v k).shadow = s.shadow := rfl
@[simp] theorem wrBoth_mem : (s.wrBoth f d v k).mem = s.mem := rfl
@[simp] theorem wrBoth_flash : (s.wrBoth f d v k).flash = s.flash := rfl
@[simp] theorem wrBoth_otp : (s.wrBoth f d v k).otp = s.otp := rfl
@[simp] theorem wrBoth_dieId : (s.wrBoth f d v k).dieId = s.dieId := rfl
@[simp] theorem wrBoth_time : (s.wrBoth f d v k).time = s.time := rfl
@[simp] theorem wrBoth_dies : (s.wrBoth f d v k).dies = s.dies := rfl
@[simp] theorem wrBoth_crown : (s.wrBoth f d v k).crown = s.crown := rfl
@[simp] theorem wrBoth_bus : (s.wrBoth f d v k).bus = s.bus := rfl
@[simp] theorem wrBoth_txn : (s.wrBoth f d v k).txn = s.txn := rfl
@[simp] theorem wrBoth_image : (s.wrBoth f d v k).image = s.image := rfl
@[simp] theorem wrBoth_load : (s.wrBoth f d v k).load = s.load := rfl
@[simp] theorem wrBoth_units : (s.wrBoth f d v k).units = s.units := rfl
@[simp] theorem wrBoth_blkRst : (s.wrBoth f d v k).blkRst = s.blkRst := rfl
@[simp] theorem wrBoth_cnv : (s.wrBoth f d v k).cnv = s.cnv := rfl
@[simp] theorem wrBoth_coef : (s.wrBoth f d v k).coef = s.coef := rfl
@[simp] theorem wrBoth_calRej : (s.wrBoth f d v k).calRej = s.calRej := rfl
@[simp] theorem wrBoth_calRun : (s.wrBoth f d v k).calRun = s.calRun := rfl
@[simp] theorem wrBoth_calWin : (s.wrBoth f d v k).calWin = s.calWin := rfl
@[simp] theorem wrBoth_rxArms : (s.wrBoth f d v k).rxArms = s.rxArms := rfl
@[simp] theorem wrBoth_groups : (s.wrBoth f d v k).groups = s.groups := rfl
@[simp] theorem wrBoth_rxDies : (s.wrBoth f d v k).rxDies = s.rxDies := rfl
@[simp] theorem wrBoth_seams : (s.wrBoth f d v k).seams = s.seams := rfl
@[simp] theorem wrBoth_txDies : (s.wrBoth f d v k).txDies = s.txDies := rfl
@[simp] theorem wrBoth_txArms : (s.wrBoth f d v k).txArms = s.txArms := rfl
@[simp] theorem wrBoth_lut : (s.wrBoth f d v k).lut = s.lut := rfl
@[simp] theorem wrBoth_fec : (s.wrBoth f d v k).fec = s.fec := rfl
@[simp] theorem wrBoth_streams : (s.wrBoth f d v k).streams = s.streams := rfl
@[simp] theorem wrBoth_frm : (s.wrBoth f d v k).frm = s.frm := rfl
@[simp] theorem wrBoth_flows : (s.wrBoth f d v k).flows = s.flows := rfl
@[simp] theorem wrBoth_keyJobs : (s.wrBoth f d v k).keyJobs = s.keyJobs := rfl
@[simp] theorem wrBoth_crc : (s.wrBoth f d v k).crc = s.crc := rfl
@[simp] theorem wrBoth_lanes : (s.wrBoth f d v k).lanes = s.lanes := rfl
@[simp] theorem wrBoth_grps : (s.wrBoth f d v k).grps = s.grps := rfl
@[simp] theorem wrBoth_stamps : (s.wrBoth f d v k).stamps = s.stamps := rfl
@[simp] theorem wrBoth_wordErr : (s.wrBoth f d v k).wordErr = s.wordErr := rfl
@[simp] theorem wrBoth_banks : (s.wrBoth f d v k).banks = s.banks := rfl
@[simp] theorem wrBoth_tcms : (s.wrBoth f d v k).tcms = s.tcms := rfl
@[simp] theorem wrBoth_engs : (s.wrBoth f d v k).engs = s.engs := rfl
@[simp] theorem wrBoth_dma : (s.wrBoth f d v k).dma = s.dma := rfl
@[simp] theorem wrBoth_memSts : (s.wrBoth f d v k).memSts = s.memSts := rfl
@[simp] theorem wrBoth_pwr : (s.wrBoth f d v k).pwr = s.pwr := rfl
@[simp] theorem wrBoth_mgr : (s.wrBoth f d v k).mgr = s.mgr := rfl
@[simp] theorem wrBoth_flowPwr : (s.wrBoth f d v k).flowPwr = s.flowPwr := rfl
@[simp] theorem wrBoth_tim : (s.wrBoth f d v k).tim = s.tim := rfl
@[simp] theorem wrBoth_refs : (s.wrBoth f d v k).refs = s.refs := rfl
@[simp] theorem wrBoth_seqs : (s.wrBoth f d v k).seqs = s.seqs := rfl
@[simp] theorem wrBoth_wch : (s.wrBoth f d v k).wch = s.wch := rfl
@[simp] theorem wrBoth_plm : (s.wrBoth f d v k).plm = s.plm := rfl
@[simp] theorem wrBoth_teams : (s.wrBoth f d v k).teams = s.teams := rfl
@[simp] theorem wrBoth_cairn : (s.wrBoth f d v k).cairn = s.cairn := rfl
@[simp] theorem wrBoth_retries : (s.wrBoth f d v k).retries = s.retries := rfl
@[simp] theorem wrBoth_pins : (s.wrBoth f d v k).pins = s.pins := rfl
@[simp] theorem wrBoth_taps : (s.wrBoth f d v k).taps = s.taps := rfl
@[simp] theorem wrBoth_out : (s.wrBoth f d v k).out = s.out := rfl
@[simp] theorem wrBoth_fresh : (s.wrBoth f d v k).fresh = s.fresh := rfl
@[simp] theorem wrBoth_pending : (s.wrBoth f d v k).pending = s.pending := rfl
end

section
variable (d : Nat) (x : DieSt)
@[simp] theorem setDie_part : (s.setDie d x).part = s.part := rfl
@[simp] theorem setDie_regs : (s.setDie d x).regs = s.regs := rfl
@[simp] theorem setDie_staged : (s.setDie d x).staged = s.staged := rfl
@[simp] theorem setDie_pend : (s.setDie d x).pend = s.pend := rfl
@[simp] theorem setDie_shadow : (s.setDie d x).shadow = s.shadow := rfl
@[simp] theorem setDie_mem : (s.setDie d x).mem = s.mem := rfl
@[simp] theorem setDie_flash : (s.setDie d x).flash = s.flash := rfl
@[simp] theorem setDie_otp : (s.setDie d x).otp = s.otp := rfl
@[simp] theorem setDie_dieId : (s.setDie d x).dieId = s.dieId := rfl
@[simp] theorem setDie_time : (s.setDie d x).time = s.time := rfl
@[simp] theorem setDie_crown : (s.setDie d x).crown = s.crown := rfl
@[simp] theorem setDie_bus : (s.setDie d x).bus = s.bus := rfl
@[simp] theorem setDie_txn : (s.setDie d x).txn = s.txn := rfl
@[simp] theorem setDie_image : (s.setDie d x).image = s.image := rfl
@[simp] theorem setDie_load : (s.setDie d x).load = s.load := rfl
@[simp] theorem setDie_units : (s.setDie d x).units = s.units := rfl
@[simp] theorem setDie_blkRst : (s.setDie d x).blkRst = s.blkRst := rfl
@[simp] theorem setDie_cnv : (s.setDie d x).cnv = s.cnv := rfl
@[simp] theorem setDie_coef : (s.setDie d x).coef = s.coef := rfl
@[simp] theorem setDie_calRej : (s.setDie d x).calRej = s.calRej := rfl
@[simp] theorem setDie_calRun : (s.setDie d x).calRun = s.calRun := rfl
@[simp] theorem setDie_calWin : (s.setDie d x).calWin = s.calWin := rfl
@[simp] theorem setDie_rxArms : (s.setDie d x).rxArms = s.rxArms := rfl
@[simp] theorem setDie_groups : (s.setDie d x).groups = s.groups := rfl
@[simp] theorem setDie_rxDies : (s.setDie d x).rxDies = s.rxDies := rfl
@[simp] theorem setDie_seams : (s.setDie d x).seams = s.seams := rfl
@[simp] theorem setDie_txDies : (s.setDie d x).txDies = s.txDies := rfl
@[simp] theorem setDie_txArms : (s.setDie d x).txArms = s.txArms := rfl
@[simp] theorem setDie_lut : (s.setDie d x).lut = s.lut := rfl
@[simp] theorem setDie_fec : (s.setDie d x).fec = s.fec := rfl
@[simp] theorem setDie_streams : (s.setDie d x).streams = s.streams := rfl
@[simp] theorem setDie_frm : (s.setDie d x).frm = s.frm := rfl
@[simp] theorem setDie_flows : (s.setDie d x).flows = s.flows := rfl
@[simp] theorem setDie_keyJobs : (s.setDie d x).keyJobs = s.keyJobs := rfl
@[simp] theorem setDie_crc : (s.setDie d x).crc = s.crc := rfl
@[simp] theorem setDie_lanes : (s.setDie d x).lanes = s.lanes := rfl
@[simp] theorem setDie_grps : (s.setDie d x).grps = s.grps := rfl
@[simp] theorem setDie_stamps : (s.setDie d x).stamps = s.stamps := rfl
@[simp] theorem setDie_wordErr : (s.setDie d x).wordErr = s.wordErr := rfl
@[simp] theorem setDie_banks : (s.setDie d x).banks = s.banks := rfl
@[simp] theorem setDie_tcms : (s.setDie d x).tcms = s.tcms := rfl
@[simp] theorem setDie_engs : (s.setDie d x).engs = s.engs := rfl
@[simp] theorem setDie_dma : (s.setDie d x).dma = s.dma := rfl
@[simp] theorem setDie_memSts : (s.setDie d x).memSts = s.memSts := rfl
@[simp] theorem setDie_pwr : (s.setDie d x).pwr = s.pwr := rfl
@[simp] theorem setDie_mgr : (s.setDie d x).mgr = s.mgr := rfl
@[simp] theorem setDie_flowPwr : (s.setDie d x).flowPwr = s.flowPwr := rfl
@[simp] theorem setDie_tim : (s.setDie d x).tim = s.tim := rfl
@[simp] theorem setDie_refs : (s.setDie d x).refs = s.refs := rfl
@[simp] theorem setDie_seqs : (s.setDie d x).seqs = s.seqs := rfl
@[simp] theorem setDie_wch : (s.setDie d x).wch = s.wch := rfl
@[simp] theorem setDie_plm : (s.setDie d x).plm = s.plm := rfl
@[simp] theorem setDie_teams : (s.setDie d x).teams = s.teams := rfl
@[simp] theorem setDie_cairn : (s.setDie d x).cairn = s.cairn := rfl
@[simp] theorem setDie_retries : (s.setDie d x).retries = s.retries := rfl
@[simp] theorem setDie_pins : (s.setDie d x).pins = s.pins := rfl
@[simp] theorem setDie_taps : (s.setDie d x).taps = s.taps := rfl
@[simp] theorem setDie_out : (s.setDie d x).out = s.out := rfl
@[simp] theorem setDie_fresh : (s.setDie d x).fresh = s.fresh := rfl
@[simp] theorem setDie_pending : (s.setDie d x).pending = s.pending := rfl
@[simp] theorem setDie_rd (g : Fld) (e j : Nat) : (s.setDie d x).rd g e j = s.rd g e j := rfl
end

section
variable (d : Nat) (f : DieSt → DieSt)
@[simp] theorem modDie_part : (s.modDie d f).part = s.part := rfl
@[simp] theorem modDie_regs : (s.modDie d f).regs = s.regs := rfl
@[simp] theorem modDie_staged : (s.modDie d f).staged = s.staged := rfl
@[simp] theorem modDie_pend : (s.modDie d f).pend = s.pend := rfl
@[simp] theorem modDie_shadow : (s.modDie d f).shadow = s.shadow := rfl
@[simp] theorem modDie_mem : (s.modDie d f).mem = s.mem := rfl
@[simp] theorem modDie_flash : (s.modDie d f).flash = s.flash := rfl
@[simp] theorem modDie_otp : (s.modDie d f).otp = s.otp := rfl
@[simp] theorem modDie_dieId : (s.modDie d f).dieId = s.dieId := rfl
@[simp] theorem modDie_time : (s.modDie d f).time = s.time := rfl
@[simp] theorem modDie_crown : (s.modDie d f).crown = s.crown := rfl
@[simp] theorem modDie_bus : (s.modDie d f).bus = s.bus := rfl
@[simp] theorem modDie_txn : (s.modDie d f).txn = s.txn := rfl
@[simp] theorem modDie_image : (s.modDie d f).image = s.image := rfl
@[simp] theorem modDie_load : (s.modDie d f).load = s.load := rfl
@[simp] theorem modDie_units : (s.modDie d f).units = s.units := rfl
@[simp] theorem modDie_blkRst : (s.modDie d f).blkRst = s.blkRst := rfl
@[simp] theorem modDie_cnv : (s.modDie d f).cnv = s.cnv := rfl
@[simp] theorem modDie_coef : (s.modDie d f).coef = s.coef := rfl
@[simp] theorem modDie_calRej : (s.modDie d f).calRej = s.calRej := rfl
@[simp] theorem modDie_calRun : (s.modDie d f).calRun = s.calRun := rfl
@[simp] theorem modDie_calWin : (s.modDie d f).calWin = s.calWin := rfl
@[simp] theorem modDie_rxArms : (s.modDie d f).rxArms = s.rxArms := rfl
@[simp] theorem modDie_groups : (s.modDie d f).groups = s.groups := rfl
@[simp] theorem modDie_rxDies : (s.modDie d f).rxDies = s.rxDies := rfl
@[simp] theorem modDie_seams : (s.modDie d f).seams = s.seams := rfl
@[simp] theorem modDie_txDies : (s.modDie d f).txDies = s.txDies := rfl
@[simp] theorem modDie_txArms : (s.modDie d f).txArms = s.txArms := rfl
@[simp] theorem modDie_lut : (s.modDie d f).lut = s.lut := rfl
@[simp] theorem modDie_fec : (s.modDie d f).fec = s.fec := rfl
@[simp] theorem modDie_streams : (s.modDie d f).streams = s.streams := rfl
@[simp] theorem modDie_frm : (s.modDie d f).frm = s.frm := rfl
@[simp] theorem modDie_flows : (s.modDie d f).flows = s.flows := rfl
@[simp] theorem modDie_keyJobs : (s.modDie d f).keyJobs = s.keyJobs := rfl
@[simp] theorem modDie_crc : (s.modDie d f).crc = s.crc := rfl
@[simp] theorem modDie_lanes : (s.modDie d f).lanes = s.lanes := rfl
@[simp] theorem modDie_grps : (s.modDie d f).grps = s.grps := rfl
@[simp] theorem modDie_stamps : (s.modDie d f).stamps = s.stamps := rfl
@[simp] theorem modDie_wordErr : (s.modDie d f).wordErr = s.wordErr := rfl
@[simp] theorem modDie_banks : (s.modDie d f).banks = s.banks := rfl
@[simp] theorem modDie_tcms : (s.modDie d f).tcms = s.tcms := rfl
@[simp] theorem modDie_engs : (s.modDie d f).engs = s.engs := rfl
@[simp] theorem modDie_dma : (s.modDie d f).dma = s.dma := rfl
@[simp] theorem modDie_memSts : (s.modDie d f).memSts = s.memSts := rfl
@[simp] theorem modDie_pwr : (s.modDie d f).pwr = s.pwr := rfl
@[simp] theorem modDie_mgr : (s.modDie d f).mgr = s.mgr := rfl
@[simp] theorem modDie_flowPwr : (s.modDie d f).flowPwr = s.flowPwr := rfl
@[simp] theorem modDie_tim : (s.modDie d f).tim = s.tim := rfl
@[simp] theorem modDie_refs : (s.modDie d f).refs = s.refs := rfl
@[simp] theorem modDie_seqs : (s.modDie d f).seqs = s.seqs := rfl
@[simp] theorem modDie_wch : (s.modDie d f).wch = s.wch := rfl
@[simp] theorem modDie_plm : (s.modDie d f).plm = s.plm := rfl
@[simp] theorem modDie_teams : (s.modDie d f).teams = s.teams := rfl
@[simp] theorem modDie_cairn : (s.modDie d f).cairn = s.cairn := rfl
@[simp] theorem modDie_retries : (s.modDie d f).retries = s.retries := rfl
@[simp] theorem modDie_pins : (s.modDie d f).pins = s.pins := rfl
@[simp] theorem modDie_taps : (s.modDie d f).taps = s.taps := rfl
@[simp] theorem modDie_out : (s.modDie d f).out = s.out := rfl
@[simp] theorem modDie_fresh : (s.modDie d f).fresh = s.fresh := rfl
@[simp] theorem modDie_pending : (s.modDie d f).pending = s.pending := rfl
@[simp] theorem modDie_rd (g : Fld) (e j : Nat) : (s.modDie d f).rd g e j = s.rd g e j := rfl
end

section
variable (c x : Nat)
@[simp] theorem respond_part : (s.respond c x).part = s.part := rfl
@[simp] theorem respond_regs : (s.respond c x).regs = s.regs := rfl
@[simp] theorem respond_staged : (s.respond c x).staged = s.staged := rfl
@[simp] theorem respond_pend : (s.respond c x).pend = s.pend := rfl
@[simp] theorem respond_shadow : (s.respond c x).shadow = s.shadow := rfl
@[simp] theorem respond_mem : (s.respond c x).mem = s.mem := rfl
@[simp] theorem respond_flash : (s.respond c x).flash = s.flash := rfl
@[simp] theorem respond_otp : (s.respond c x).otp = s.otp := rfl
@[simp] theorem respond_dieId : (s.respond c x).dieId = s.dieId := rfl
@[simp] theorem respond_time : (s.respond c x).time = s.time := rfl
@[simp] theorem respond_dies : (s.respond c x).dies = s.dies := rfl
@[simp] theorem respond_crown : (s.respond c x).crown = s.crown := rfl
@[simp] theorem respond_txn : (s.respond c x).txn = s.txn := rfl
@[simp] theorem respond_image : (s.respond c x).image = s.image := rfl
@[simp] theorem respond_load : (s.respond c x).load = s.load := rfl
@[simp] theorem respond_units : (s.respond c x).units = s.units := rfl
@[simp] theorem respond_blkRst : (s.respond c x).blkRst = s.blkRst := rfl
@[simp] theorem respond_cnv : (s.respond c x).cnv = s.cnv := rfl
@[simp] theorem respond_coef : (s.respond c x).coef = s.coef := rfl
@[simp] theorem respond_calRej : (s.respond c x).calRej = s.calRej := rfl
@[simp] theorem respond_calRun : (s.respond c x).calRun = s.calRun := rfl
@[simp] theorem respond_calWin : (s.respond c x).calWin = s.calWin := rfl
@[simp] theorem respond_rxArms : (s.respond c x).rxArms = s.rxArms := rfl
@[simp] theorem respond_groups : (s.respond c x).groups = s.groups := rfl
@[simp] theorem respond_rxDies : (s.respond c x).rxDies = s.rxDies := rfl
@[simp] theorem respond_seams : (s.respond c x).seams = s.seams := rfl
@[simp] theorem respond_txDies : (s.respond c x).txDies = s.txDies := rfl
@[simp] theorem respond_txArms : (s.respond c x).txArms = s.txArms := rfl
@[simp] theorem respond_lut : (s.respond c x).lut = s.lut := rfl
@[simp] theorem respond_fec : (s.respond c x).fec = s.fec := rfl
@[simp] theorem respond_streams : (s.respond c x).streams = s.streams := rfl
@[simp] theorem respond_frm : (s.respond c x).frm = s.frm := rfl
@[simp] theorem respond_flows : (s.respond c x).flows = s.flows := rfl
@[simp] theorem respond_keyJobs : (s.respond c x).keyJobs = s.keyJobs := rfl
@[simp] theorem respond_crc : (s.respond c x).crc = s.crc := rfl
@[simp] theorem respond_lanes : (s.respond c x).lanes = s.lanes := rfl
@[simp] theorem respond_grps : (s.respond c x).grps = s.grps := rfl
@[simp] theorem respond_stamps : (s.respond c x).stamps = s.stamps := rfl
@[simp] theorem respond_wordErr : (s.respond c x).wordErr = s.wordErr := rfl
@[simp] theorem respond_banks : (s.respond c x).banks = s.banks := rfl
@[simp] theorem respond_tcms : (s.respond c x).tcms = s.tcms := rfl
@[simp] theorem respond_engs : (s.respond c x).engs = s.engs := rfl
@[simp] theorem respond_dma : (s.respond c x).dma = s.dma := rfl
@[simp] theorem respond_memSts : (s.respond c x).memSts = s.memSts := rfl
@[simp] theorem respond_pwr : (s.respond c x).pwr = s.pwr := rfl
@[simp] theorem respond_mgr : (s.respond c x).mgr = s.mgr := rfl
@[simp] theorem respond_flowPwr : (s.respond c x).flowPwr = s.flowPwr := rfl
@[simp] theorem respond_tim : (s.respond c x).tim = s.tim := rfl
@[simp] theorem respond_refs : (s.respond c x).refs = s.refs := rfl
@[simp] theorem respond_seqs : (s.respond c x).seqs = s.seqs := rfl
@[simp] theorem respond_wch : (s.respond c x).wch = s.wch := rfl
@[simp] theorem respond_plm : (s.respond c x).plm = s.plm := rfl
@[simp] theorem respond_teams : (s.respond c x).teams = s.teams := rfl
@[simp] theorem respond_cairn : (s.respond c x).cairn = s.cairn := rfl
@[simp] theorem respond_retries : (s.respond c x).retries = s.retries := rfl
@[simp] theorem respond_pins : (s.respond c x).pins = s.pins := rfl
@[simp] theorem respond_taps : (s.respond c x).taps = s.taps := rfl
@[simp] theorem respond_out : (s.respond c x).out = s.out := rfl
@[simp] theorem respond_fresh : (s.respond c x).fresh = s.fresh := rfl
@[simp] theorem respond_pending : (s.respond c x).pending = s.pending := rfl
@[simp] theorem respond_rd (g : Fld) (e j : Nat) : (s.respond c x).rd g e j = s.rd g e j := rfl
end

section
variable (o : Output)
@[simp] theorem emit_part : (s.emit o).part = s.part := rfl
@[simp] theorem emit_regs : (s.emit o).regs = s.regs := rfl
@[simp] theorem emit_staged : (s.emit o).staged = s.staged := rfl
@[simp] theorem emit_pend : (s.emit o).pend = s.pend := rfl
@[simp] theorem emit_shadow : (s.emit o).shadow = s.shadow := rfl
@[simp] theorem emit_mem : (s.emit o).mem = s.mem := rfl
@[simp] theorem emit_flash : (s.emit o).flash = s.flash := rfl
@[simp] theorem emit_otp : (s.emit o).otp = s.otp := rfl
@[simp] theorem emit_dieId : (s.emit o).dieId = s.dieId := rfl
@[simp] theorem emit_time : (s.emit o).time = s.time := rfl
@[simp] theorem emit_dies : (s.emit o).dies = s.dies := rfl
@[simp] theorem emit_crown : (s.emit o).crown = s.crown := rfl
@[simp] theorem emit_bus : (s.emit o).bus = s.bus := rfl
@[simp] theorem emit_txn : (s.emit o).txn = s.txn := rfl
@[simp] theorem emit_image : (s.emit o).image = s.image := rfl
@[simp] theorem emit_load : (s.emit o).load = s.load := rfl
@[simp] theorem emit_units : (s.emit o).units = s.units := rfl
@[simp] theorem emit_blkRst : (s.emit o).blkRst = s.blkRst := rfl
@[simp] theorem emit_cnv : (s.emit o).cnv = s.cnv := rfl
@[simp] theorem emit_coef : (s.emit o).coef = s.coef := rfl
@[simp] theorem emit_calRej : (s.emit o).calRej = s.calRej := rfl
@[simp] theorem emit_calRun : (s.emit o).calRun = s.calRun := rfl
@[simp] theorem emit_calWin : (s.emit o).calWin = s.calWin := rfl
@[simp] theorem emit_rxArms : (s.emit o).rxArms = s.rxArms := rfl
@[simp] theorem emit_groups : (s.emit o).groups = s.groups := rfl
@[simp] theorem emit_rxDies : (s.emit o).rxDies = s.rxDies := rfl
@[simp] theorem emit_seams : (s.emit o).seams = s.seams := rfl
@[simp] theorem emit_txDies : (s.emit o).txDies = s.txDies := rfl
@[simp] theorem emit_txArms : (s.emit o).txArms = s.txArms := rfl
@[simp] theorem emit_lut : (s.emit o).lut = s.lut := rfl
@[simp] theorem emit_fec : (s.emit o).fec = s.fec := rfl
@[simp] theorem emit_streams : (s.emit o).streams = s.streams := rfl
@[simp] theorem emit_frm : (s.emit o).frm = s.frm := rfl
@[simp] theorem emit_flows : (s.emit o).flows = s.flows := rfl
@[simp] theorem emit_keyJobs : (s.emit o).keyJobs = s.keyJobs := rfl
@[simp] theorem emit_crc : (s.emit o).crc = s.crc := rfl
@[simp] theorem emit_lanes : (s.emit o).lanes = s.lanes := rfl
@[simp] theorem emit_grps : (s.emit o).grps = s.grps := rfl
@[simp] theorem emit_stamps : (s.emit o).stamps = s.stamps := rfl
@[simp] theorem emit_wordErr : (s.emit o).wordErr = s.wordErr := rfl
@[simp] theorem emit_banks : (s.emit o).banks = s.banks := rfl
@[simp] theorem emit_tcms : (s.emit o).tcms = s.tcms := rfl
@[simp] theorem emit_engs : (s.emit o).engs = s.engs := rfl
@[simp] theorem emit_dma : (s.emit o).dma = s.dma := rfl
@[simp] theorem emit_memSts : (s.emit o).memSts = s.memSts := rfl
@[simp] theorem emit_pwr : (s.emit o).pwr = s.pwr := rfl
@[simp] theorem emit_mgr : (s.emit o).mgr = s.mgr := rfl
@[simp] theorem emit_flowPwr : (s.emit o).flowPwr = s.flowPwr := rfl
@[simp] theorem emit_tim : (s.emit o).tim = s.tim := rfl
@[simp] theorem emit_refs : (s.emit o).refs = s.refs := rfl
@[simp] theorem emit_seqs : (s.emit o).seqs = s.seqs := rfl
@[simp] theorem emit_wch : (s.emit o).wch = s.wch := rfl
@[simp] theorem emit_plm : (s.emit o).plm = s.plm := rfl
@[simp] theorem emit_teams : (s.emit o).teams = s.teams := rfl
@[simp] theorem emit_cairn : (s.emit o).cairn = s.cairn := rfl
@[simp] theorem emit_retries : (s.emit o).retries = s.retries := rfl
@[simp] theorem emit_pins : (s.emit o).pins = s.pins := rfl
@[simp] theorem emit_taps : (s.emit o).taps = s.taps := rfl
@[simp] theorem emit_fresh : (s.emit o).fresh = s.fresh := rfl
@[simp] theorem emit_pending : (s.emit o).pending = s.pending := rfl
@[simp] theorem emit_rd (g : Fld) (e j : Nat) : (s.emit o).rd g e j = s.rd g e j := rfl
end

section
variable (a v : Nat)
@[simp] theorem setMemWord_part : (s.setMemWord a v).part = s.part := rfl
@[simp] theorem setMemWord_regs : (s.setMemWord a v).regs = s.regs := rfl
@[simp] theorem setMemWord_staged : (s.setMemWord a v).staged = s.staged := rfl
@[simp] theorem setMemWord_pend : (s.setMemWord a v).pend = s.pend := rfl
@[simp] theorem setMemWord_shadow : (s.setMemWord a v).shadow = s.shadow := rfl
@[simp] theorem setMemWord_flash : (s.setMemWord a v).flash = s.flash := rfl
@[simp] theorem setMemWord_otp : (s.setMemWord a v).otp = s.otp := rfl
@[simp] theorem setMemWord_dieId : (s.setMemWord a v).dieId = s.dieId := rfl
@[simp] theorem setMemWord_time : (s.setMemWord a v).time = s.time := rfl
@[simp] theorem setMemWord_dies : (s.setMemWord a v).dies = s.dies := rfl
@[simp] theorem setMemWord_crown : (s.setMemWord a v).crown = s.crown := rfl
@[simp] theorem setMemWord_bus : (s.setMemWord a v).bus = s.bus := rfl
@[simp] theorem setMemWord_txn : (s.setMemWord a v).txn = s.txn := rfl
@[simp] theorem setMemWord_image : (s.setMemWord a v).image = s.image := rfl
@[simp] theorem setMemWord_load : (s.setMemWord a v).load = s.load := rfl
@[simp] theorem setMemWord_units : (s.setMemWord a v).units = s.units := rfl
@[simp] theorem setMemWord_blkRst : (s.setMemWord a v).blkRst = s.blkRst := rfl
@[simp] theorem setMemWord_cnv : (s.setMemWord a v).cnv = s.cnv := rfl
@[simp] theorem setMemWord_coef : (s.setMemWord a v).coef = s.coef := rfl
@[simp] theorem setMemWord_calRej : (s.setMemWord a v).calRej = s.calRej := rfl
@[simp] theorem setMemWord_calRun : (s.setMemWord a v).calRun = s.calRun := rfl
@[simp] theorem setMemWord_calWin : (s.setMemWord a v).calWin = s.calWin := rfl
@[simp] theorem setMemWord_rxArms : (s.setMemWord a v).rxArms = s.rxArms := rfl
@[simp] theorem setMemWord_groups : (s.setMemWord a v).groups = s.groups := rfl
@[simp] theorem setMemWord_rxDies : (s.setMemWord a v).rxDies = s.rxDies := rfl
@[simp] theorem setMemWord_seams : (s.setMemWord a v).seams = s.seams := rfl
@[simp] theorem setMemWord_txDies : (s.setMemWord a v).txDies = s.txDies := rfl
@[simp] theorem setMemWord_txArms : (s.setMemWord a v).txArms = s.txArms := rfl
@[simp] theorem setMemWord_lut : (s.setMemWord a v).lut = s.lut := rfl
@[simp] theorem setMemWord_fec : (s.setMemWord a v).fec = s.fec := rfl
@[simp] theorem setMemWord_streams : (s.setMemWord a v).streams = s.streams := rfl
@[simp] theorem setMemWord_frm : (s.setMemWord a v).frm = s.frm := rfl
@[simp] theorem setMemWord_flows : (s.setMemWord a v).flows = s.flows := rfl
@[simp] theorem setMemWord_keyJobs : (s.setMemWord a v).keyJobs = s.keyJobs := rfl
@[simp] theorem setMemWord_crc : (s.setMemWord a v).crc = s.crc := rfl
@[simp] theorem setMemWord_lanes : (s.setMemWord a v).lanes = s.lanes := rfl
@[simp] theorem setMemWord_grps : (s.setMemWord a v).grps = s.grps := rfl
@[simp] theorem setMemWord_stamps : (s.setMemWord a v).stamps = s.stamps := rfl
@[simp] theorem setMemWord_wordErr : (s.setMemWord a v).wordErr = s.wordErr := rfl
@[simp] theorem setMemWord_banks : (s.setMemWord a v).banks = s.banks := rfl
@[simp] theorem setMemWord_tcms : (s.setMemWord a v).tcms = s.tcms := rfl
@[simp] theorem setMemWord_engs : (s.setMemWord a v).engs = s.engs := rfl
@[simp] theorem setMemWord_dma : (s.setMemWord a v).dma = s.dma := rfl
@[simp] theorem setMemWord_memSts : (s.setMemWord a v).memSts = s.memSts := rfl
@[simp] theorem setMemWord_pwr : (s.setMemWord a v).pwr = s.pwr := rfl
@[simp] theorem setMemWord_mgr : (s.setMemWord a v).mgr = s.mgr := rfl
@[simp] theorem setMemWord_flowPwr : (s.setMemWord a v).flowPwr = s.flowPwr := rfl
@[simp] theorem setMemWord_tim : (s.setMemWord a v).tim = s.tim := rfl
@[simp] theorem setMemWord_refs : (s.setMemWord a v).refs = s.refs := rfl
@[simp] theorem setMemWord_seqs : (s.setMemWord a v).seqs = s.seqs := rfl
@[simp] theorem setMemWord_wch : (s.setMemWord a v).wch = s.wch := rfl
@[simp] theorem setMemWord_plm : (s.setMemWord a v).plm = s.plm := rfl
@[simp] theorem setMemWord_teams : (s.setMemWord a v).teams = s.teams := rfl
@[simp] theorem setMemWord_cairn : (s.setMemWord a v).cairn = s.cairn := rfl
@[simp] theorem setMemWord_retries : (s.setMemWord a v).retries = s.retries := rfl
@[simp] theorem setMemWord_pins : (s.setMemWord a v).pins = s.pins := rfl
@[simp] theorem setMemWord_taps : (s.setMemWord a v).taps = s.taps := rfl
@[simp] theorem setMemWord_out : (s.setMemWord a v).out = s.out := rfl
@[simp] theorem setMemWord_fresh : (s.setMemWord a v).fresh = s.fresh := rfl
@[simp] theorem setMemWord_pending : (s.setMemWord a v).pending = s.pending := rfl
@[simp] theorem setMemWord_rd (g : Fld) (e j : Nat) : (s.setMemWord a v).rd g e j = s.rd g e j := rfl
end

section
variable (a : Nat) (bs : List Byte)
@[simp] theorem memWrite_part : (s.memWrite a bs).part = s.part := rfl
@[simp] theorem memWrite_regs : (s.memWrite a bs).regs = s.regs := rfl
@[simp] theorem memWrite_staged : (s.memWrite a bs).staged = s.staged := rfl
@[simp] theorem memWrite_pend : (s.memWrite a bs).pend = s.pend := rfl
@[simp] theorem memWrite_shadow : (s.memWrite a bs).shadow = s.shadow := rfl
@[simp] theorem memWrite_flash : (s.memWrite a bs).flash = s.flash := rfl
@[simp] theorem memWrite_otp : (s.memWrite a bs).otp = s.otp := rfl
@[simp] theorem memWrite_dieId : (s.memWrite a bs).dieId = s.dieId := rfl
@[simp] theorem memWrite_time : (s.memWrite a bs).time = s.time := rfl
@[simp] theorem memWrite_dies : (s.memWrite a bs).dies = s.dies := rfl
@[simp] theorem memWrite_crown : (s.memWrite a bs).crown = s.crown := rfl
@[simp] theorem memWrite_bus : (s.memWrite a bs).bus = s.bus := rfl
@[simp] theorem memWrite_txn : (s.memWrite a bs).txn = s.txn := rfl
@[simp] theorem memWrite_image : (s.memWrite a bs).image = s.image := rfl
@[simp] theorem memWrite_load : (s.memWrite a bs).load = s.load := rfl
@[simp] theorem memWrite_units : (s.memWrite a bs).units = s.units := rfl
@[simp] theorem memWrite_blkRst : (s.memWrite a bs).blkRst = s.blkRst := rfl
@[simp] theorem memWrite_cnv : (s.memWrite a bs).cnv = s.cnv := rfl
@[simp] theorem memWrite_coef : (s.memWrite a bs).coef = s.coef := rfl
@[simp] theorem memWrite_calRej : (s.memWrite a bs).calRej = s.calRej := rfl
@[simp] theorem memWrite_calRun : (s.memWrite a bs).calRun = s.calRun := rfl
@[simp] theorem memWrite_calWin : (s.memWrite a bs).calWin = s.calWin := rfl
@[simp] theorem memWrite_rxArms : (s.memWrite a bs).rxArms = s.rxArms := rfl
@[simp] theorem memWrite_groups : (s.memWrite a bs).groups = s.groups := rfl
@[simp] theorem memWrite_rxDies : (s.memWrite a bs).rxDies = s.rxDies := rfl
@[simp] theorem memWrite_seams : (s.memWrite a bs).seams = s.seams := rfl
@[simp] theorem memWrite_txDies : (s.memWrite a bs).txDies = s.txDies := rfl
@[simp] theorem memWrite_txArms : (s.memWrite a bs).txArms = s.txArms := rfl
@[simp] theorem memWrite_lut : (s.memWrite a bs).lut = s.lut := rfl
@[simp] theorem memWrite_fec : (s.memWrite a bs).fec = s.fec := rfl
@[simp] theorem memWrite_streams : (s.memWrite a bs).streams = s.streams := rfl
@[simp] theorem memWrite_frm : (s.memWrite a bs).frm = s.frm := rfl
@[simp] theorem memWrite_flows : (s.memWrite a bs).flows = s.flows := rfl
@[simp] theorem memWrite_keyJobs : (s.memWrite a bs).keyJobs = s.keyJobs := rfl
@[simp] theorem memWrite_crc : (s.memWrite a bs).crc = s.crc := rfl
@[simp] theorem memWrite_lanes : (s.memWrite a bs).lanes = s.lanes := rfl
@[simp] theorem memWrite_grps : (s.memWrite a bs).grps = s.grps := rfl
@[simp] theorem memWrite_stamps : (s.memWrite a bs).stamps = s.stamps := rfl
@[simp] theorem memWrite_wordErr : (s.memWrite a bs).wordErr = s.wordErr := rfl
@[simp] theorem memWrite_banks : (s.memWrite a bs).banks = s.banks := rfl
@[simp] theorem memWrite_tcms : (s.memWrite a bs).tcms = s.tcms := rfl
@[simp] theorem memWrite_engs : (s.memWrite a bs).engs = s.engs := rfl
@[simp] theorem memWrite_dma : (s.memWrite a bs).dma = s.dma := rfl
@[simp] theorem memWrite_memSts : (s.memWrite a bs).memSts = s.memSts := rfl
@[simp] theorem memWrite_pwr : (s.memWrite a bs).pwr = s.pwr := rfl
@[simp] theorem memWrite_mgr : (s.memWrite a bs).mgr = s.mgr := rfl
@[simp] theorem memWrite_flowPwr : (s.memWrite a bs).flowPwr = s.flowPwr := rfl
@[simp] theorem memWrite_tim : (s.memWrite a bs).tim = s.tim := rfl
@[simp] theorem memWrite_refs : (s.memWrite a bs).refs = s.refs := rfl
@[simp] theorem memWrite_seqs : (s.memWrite a bs).seqs = s.seqs := rfl
@[simp] theorem memWrite_wch : (s.memWrite a bs).wch = s.wch := rfl
@[simp] theorem memWrite_plm : (s.memWrite a bs).plm = s.plm := rfl
@[simp] theorem memWrite_teams : (s.memWrite a bs).teams = s.teams := rfl
@[simp] theorem memWrite_cairn : (s.memWrite a bs).cairn = s.cairn := rfl
@[simp] theorem memWrite_retries : (s.memWrite a bs).retries = s.retries := rfl
@[simp] theorem memWrite_pins : (s.memWrite a bs).pins = s.pins := rfl
@[simp] theorem memWrite_taps : (s.memWrite a bs).taps = s.taps := rfl
@[simp] theorem memWrite_out : (s.memWrite a bs).out = s.out := rfl
@[simp] theorem memWrite_fresh : (s.memWrite a bs).fresh = s.fresh := rfl
@[simp] theorem memWrite_pending : (s.memWrite a bs).pending = s.pending := rfl
@[simp] theorem memWrite_rd (g : Fld) (e j : Nat) : (s.memWrite a bs).rd g e j = s.rd g e j := rfl
end

section
@[simp] theorem nextMf_part : (s.nextMf).part = s.part := rfl
@[simp] theorem nextMf_regs : (s.nextMf).regs = s.regs := rfl
@[simp] theorem nextMf_staged : (s.nextMf).staged = s.staged := rfl
@[simp] theorem nextMf_pend : (s.nextMf).pend = s.pend := rfl
@[simp] theorem nextMf_shadow : (s.nextMf).shadow = s.shadow := rfl
@[simp] theorem nextMf_mem : (s.nextMf).mem = s.mem := rfl
@[simp] theorem nextMf_flash : (s.nextMf).flash = s.flash := rfl
@[simp] theorem nextMf_otp : (s.nextMf).otp = s.otp := rfl
@[simp] theorem nextMf_dieId : (s.nextMf).dieId = s.dieId := rfl
@[simp] theorem nextMf_dies : (s.nextMf).dies = s.dies := rfl
@[simp] theorem nextMf_crown : (s.nextMf).crown = s.crown := rfl
@[simp] theorem nextMf_bus : (s.nextMf).bus = s.bus := rfl
@[simp] theorem nextMf_txn : (s.nextMf).txn = s.txn := rfl
@[simp] theorem nextMf_image : (s.nextMf).image = s.image := rfl
@[simp] theorem nextMf_load : (s.nextMf).load = s.load := rfl
@[simp] theorem nextMf_units : (s.nextMf).units = s.units := rfl
@[simp] theorem nextMf_blkRst : (s.nextMf).blkRst = s.blkRst := rfl
@[simp] theorem nextMf_cnv : (s.nextMf).cnv = s.cnv := rfl
@[simp] theorem nextMf_coef : (s.nextMf).coef = s.coef := rfl
@[simp] theorem nextMf_calRej : (s.nextMf).calRej = s.calRej := rfl
@[simp] theorem nextMf_calRun : (s.nextMf).calRun = s.calRun := rfl
@[simp] theorem nextMf_calWin : (s.nextMf).calWin = s.calWin := rfl
@[simp] theorem nextMf_rxArms : (s.nextMf).rxArms = s.rxArms := rfl
@[simp] theorem nextMf_groups : (s.nextMf).groups = s.groups := rfl
@[simp] theorem nextMf_rxDies : (s.nextMf).rxDies = s.rxDies := rfl
@[simp] theorem nextMf_seams : (s.nextMf).seams = s.seams := rfl
@[simp] theorem nextMf_txDies : (s.nextMf).txDies = s.txDies := rfl
@[simp] theorem nextMf_txArms : (s.nextMf).txArms = s.txArms := rfl
@[simp] theorem nextMf_lut : (s.nextMf).lut = s.lut := rfl
@[simp] theorem nextMf_fec : (s.nextMf).fec = s.fec := rfl
@[simp] theorem nextMf_streams : (s.nextMf).streams = s.streams := rfl
@[simp] theorem nextMf_frm : (s.nextMf).frm = s.frm := rfl
@[simp] theorem nextMf_flows : (s.nextMf).flows = s.flows := rfl
@[simp] theorem nextMf_keyJobs : (s.nextMf).keyJobs = s.keyJobs := rfl
@[simp] theorem nextMf_crc : (s.nextMf).crc = s.crc := rfl
@[simp] theorem nextMf_lanes : (s.nextMf).lanes = s.lanes := rfl
@[simp] theorem nextMf_grps : (s.nextMf).grps = s.grps := rfl
@[simp] theorem nextMf_stamps : (s.nextMf).stamps = s.stamps := rfl
@[simp] theorem nextMf_wordErr : (s.nextMf).wordErr = s.wordErr := rfl
@[simp] theorem nextMf_banks : (s.nextMf).banks = s.banks := rfl
@[simp] theorem nextMf_tcms : (s.nextMf).tcms = s.tcms := rfl
@[simp] theorem nextMf_engs : (s.nextMf).engs = s.engs := rfl
@[simp] theorem nextMf_dma : (s.nextMf).dma = s.dma := rfl
@[simp] theorem nextMf_memSts : (s.nextMf).memSts = s.memSts := rfl
@[simp] theorem nextMf_pwr : (s.nextMf).pwr = s.pwr := rfl
@[simp] theorem nextMf_mgr : (s.nextMf).mgr = s.mgr := rfl
@[simp] theorem nextMf_flowPwr : (s.nextMf).flowPwr = s.flowPwr := rfl
@[simp] theorem nextMf_tim : (s.nextMf).tim = s.tim := rfl
@[simp] theorem nextMf_refs : (s.nextMf).refs = s.refs := rfl
@[simp] theorem nextMf_seqs : (s.nextMf).seqs = s.seqs := rfl
@[simp] theorem nextMf_wch : (s.nextMf).wch = s.wch := rfl
@[simp] theorem nextMf_plm : (s.nextMf).plm = s.plm := rfl
@[simp] theorem nextMf_teams : (s.nextMf).teams = s.teams := rfl
@[simp] theorem nextMf_cairn : (s.nextMf).cairn = s.cairn := rfl
@[simp] theorem nextMf_retries : (s.nextMf).retries = s.retries := rfl
@[simp] theorem nextMf_pins : (s.nextMf).pins = s.pins := rfl
@[simp] theorem nextMf_taps : (s.nextMf).taps = s.taps := rfl
@[simp] theorem nextMf_out : (s.nextMf).out = s.out := rfl
@[simp] theorem nextMf_fresh : (s.nextMf).fresh = s.fresh := rfl
@[simp] theorem nextMf_pending : (s.nextMf).pending = s.pending := rfl
@[simp] theorem nextMf_rd (g : Fld) (e j : Nat) : (s.nextMf).rd g e j = s.rd g e j := rfl
end

section
variable (d b u : Nat) (x : UnitSt)
@[simp] theorem setUnit_part : (s.setUnit d b u x).part = s.part := rfl
@[simp] theorem setUnit_regs : (s.setUnit d b u x).regs = s.regs := rfl
@[simp] theorem setUnit_staged : (s.setUnit d b u x).staged = s.staged := rfl
@[simp] theorem setUnit_pend : (s.setUnit d b u x).pend = s.pend := rfl
@[simp] theorem setUnit_shadow : (s.setUnit d b u x).shadow = s.shadow := rfl
@[simp] theorem setUnit_mem : (s.setUnit d b u x).mem = s.mem := rfl
@[simp] theorem setUnit_flash : (s.setUnit d b u x).flash = s.flash := rfl
@[simp] theorem setUnit_otp : (s.setUnit d b u x).otp = s.otp := rfl
@[simp] theorem setUnit_dieId : (s.setUnit d b u x).dieId = s.dieId := rfl
@[simp] theorem setUnit_time : (s.setUnit d b u x).time = s.time := rfl
@[simp] theorem setUnit_dies : (s.setUnit d b u x).dies = s.dies := rfl
@[simp] theorem setUnit_crown : (s.setUnit d b u x).crown = s.crown := rfl
@[simp] theorem setUnit_bus : (s.setUnit d b u x).bus = s.bus := rfl
@[simp] theorem setUnit_txn : (s.setUnit d b u x).txn = s.txn := rfl
@[simp] theorem setUnit_image : (s.setUnit d b u x).image = s.image := rfl
@[simp] theorem setUnit_load : (s.setUnit d b u x).load = s.load := rfl
@[simp] theorem setUnit_blkRst : (s.setUnit d b u x).blkRst = s.blkRst := rfl
@[simp] theorem setUnit_cnv : (s.setUnit d b u x).cnv = s.cnv := rfl
@[simp] theorem setUnit_coef : (s.setUnit d b u x).coef = s.coef := rfl
@[simp] theorem setUnit_calRej : (s.setUnit d b u x).calRej = s.calRej := rfl
@[simp] theorem setUnit_calRun : (s.setUnit d b u x).calRun = s.calRun := rfl
@[simp] theorem setUnit_calWin : (s.setUnit d b u x).calWin = s.calWin := rfl
@[simp] theorem setUnit_rxArms : (s.setUnit d b u x).rxArms = s.rxArms := rfl
@[simp] theorem setUnit_groups : (s.setUnit d b u x).groups = s.groups := rfl
@[simp] theorem setUnit_rxDies : (s.setUnit d b u x).rxDies = s.rxDies := rfl
@[simp] theorem setUnit_seams : (s.setUnit d b u x).seams = s.seams := rfl
@[simp] theorem setUnit_txDies : (s.setUnit d b u x).txDies = s.txDies := rfl
@[simp] theorem setUnit_txArms : (s.setUnit d b u x).txArms = s.txArms := rfl
@[simp] theorem setUnit_lut : (s.setUnit d b u x).lut = s.lut := rfl
@[simp] theorem setUnit_fec : (s.setUnit d b u x).fec = s.fec := rfl
@[simp] theorem setUnit_streams : (s.setUnit d b u x).streams = s.streams := rfl
@[simp] theorem setUnit_frm : (s.setUnit d b u x).frm = s.frm := rfl
@[simp] theorem setUnit_flows : (s.setUnit d b u x).flows = s.flows := rfl
@[simp] theorem setUnit_keyJobs : (s.setUnit d b u x).keyJobs = s.keyJobs := rfl
@[simp] theorem setUnit_crc : (s.setUnit d b u x).crc = s.crc := rfl
@[simp] theorem setUnit_lanes : (s.setUnit d b u x).lanes = s.lanes := rfl
@[simp] theorem setUnit_grps : (s.setUnit d b u x).grps = s.grps := rfl
@[simp] theorem setUnit_stamps : (s.setUnit d b u x).stamps = s.stamps := rfl
@[simp] theorem setUnit_wordErr : (s.setUnit d b u x).wordErr = s.wordErr := rfl
@[simp] theorem setUnit_banks : (s.setUnit d b u x).banks = s.banks := rfl
@[simp] theorem setUnit_tcms : (s.setUnit d b u x).tcms = s.tcms := rfl
@[simp] theorem setUnit_engs : (s.setUnit d b u x).engs = s.engs := rfl
@[simp] theorem setUnit_dma : (s.setUnit d b u x).dma = s.dma := rfl
@[simp] theorem setUnit_memSts : (s.setUnit d b u x).memSts = s.memSts := rfl
@[simp] theorem setUnit_pwr : (s.setUnit d b u x).pwr = s.pwr := rfl
@[simp] theorem setUnit_mgr : (s.setUnit d b u x).mgr = s.mgr := rfl
@[simp] theorem setUnit_flowPwr : (s.setUnit d b u x).flowPwr = s.flowPwr := rfl
@[simp] theorem setUnit_tim : (s.setUnit d b u x).tim = s.tim := rfl
@[simp] theorem setUnit_refs : (s.setUnit d b u x).refs = s.refs := rfl
@[simp] theorem setUnit_seqs : (s.setUnit d b u x).seqs = s.seqs := rfl
@[simp] theorem setUnit_wch : (s.setUnit d b u x).wch = s.wch := rfl
@[simp] theorem setUnit_plm : (s.setUnit d b u x).plm = s.plm := rfl
@[simp] theorem setUnit_teams : (s.setUnit d b u x).teams = s.teams := rfl
@[simp] theorem setUnit_cairn : (s.setUnit d b u x).cairn = s.cairn := rfl
@[simp] theorem setUnit_retries : (s.setUnit d b u x).retries = s.retries := rfl
@[simp] theorem setUnit_pins : (s.setUnit d b u x).pins = s.pins := rfl
@[simp] theorem setUnit_taps : (s.setUnit d b u x).taps = s.taps := rfl
@[simp] theorem setUnit_out : (s.setUnit d b u x).out = s.out := rfl
@[simp] theorem setUnit_fresh : (s.setUnit d b u x).fresh = s.fresh := rfl
@[simp] theorem setUnit_pending : (s.setUnit d b u x).pending = s.pending := rfl
@[simp] theorem setUnit_rd (g : Fld) (e j : Nat) : (s.setUnit d b u x).rd g e j = s.rd g e j := rfl
end

section
variable (t : Nat) (f : TeamSt → TeamSt)
@[simp] theorem modTeam_part : (s.modTeam t f).part = s.part := rfl
@[simp] theorem modTeam_regs : (s.modTeam t f).regs = s.regs := rfl
@[simp] theorem modTeam_staged : (s.modTeam t f).staged = s.staged := rfl
@[simp] theorem modTeam_pend : (s.modTeam t f).pend = s.pend := rfl
@[simp] theorem modTeam_shadow : (s.modTeam t f).shadow = s.shadow := rfl
@[simp] theorem modTeam_mem : (s.modTeam t f).mem = s.mem := rfl
@[simp] theorem modTeam_flash : (s.modTeam t f).flash = s.flash := rfl
@[simp] theorem modTeam_otp : (s.modTeam t f).otp = s.otp := rfl
@[simp] theorem modTeam_dieId : (s.modTeam t f).dieId = s.dieId := rfl
@[simp] theorem modTeam_time : (s.modTeam t f).time = s.time := rfl
@[simp] theorem modTeam_dies : (s.modTeam t f).dies = s.dies := rfl
@[simp] theorem modTeam_crown : (s.modTeam t f).crown = s.crown := rfl
@[simp] theorem modTeam_bus : (s.modTeam t f).bus = s.bus := rfl
@[simp] theorem modTeam_txn : (s.modTeam t f).txn = s.txn := rfl
@[simp] theorem modTeam_image : (s.modTeam t f).image = s.image := rfl
@[simp] theorem modTeam_load : (s.modTeam t f).load = s.load := rfl
@[simp] theorem modTeam_units : (s.modTeam t f).units = s.units := rfl
@[simp] theorem modTeam_blkRst : (s.modTeam t f).blkRst = s.blkRst := rfl
@[simp] theorem modTeam_cnv : (s.modTeam t f).cnv = s.cnv := rfl
@[simp] theorem modTeam_coef : (s.modTeam t f).coef = s.coef := rfl
@[simp] theorem modTeam_calRej : (s.modTeam t f).calRej = s.calRej := rfl
@[simp] theorem modTeam_calRun : (s.modTeam t f).calRun = s.calRun := rfl
@[simp] theorem modTeam_calWin : (s.modTeam t f).calWin = s.calWin := rfl
@[simp] theorem modTeam_rxArms : (s.modTeam t f).rxArms = s.rxArms := rfl
@[simp] theorem modTeam_groups : (s.modTeam t f).groups = s.groups := rfl
@[simp] theorem modTeam_rxDies : (s.modTeam t f).rxDies = s.rxDies := rfl
@[simp] theorem modTeam_seams : (s.modTeam t f).seams = s.seams := rfl
@[simp] theorem modTeam_txDies : (s.modTeam t f).txDies = s.txDies := rfl
@[simp] theorem modTeam_txArms : (s.modTeam t f).txArms = s.txArms := rfl
@[simp] theorem modTeam_lut : (s.modTeam t f).lut = s.lut := rfl
@[simp] theorem modTeam_fec : (s.modTeam t f).fec = s.fec := rfl
@[simp] theorem modTeam_streams : (s.modTeam t f).streams = s.streams := rfl
@[simp] theorem modTeam_frm : (s.modTeam t f).frm = s.frm := rfl
@[simp] theorem modTeam_flows : (s.modTeam t f).flows = s.flows := rfl
@[simp] theorem modTeam_keyJobs : (s.modTeam t f).keyJobs = s.keyJobs := rfl
@[simp] theorem modTeam_crc : (s.modTeam t f).crc = s.crc := rfl
@[simp] theorem modTeam_lanes : (s.modTeam t f).lanes = s.lanes := rfl
@[simp] theorem modTeam_grps : (s.modTeam t f).grps = s.grps := rfl
@[simp] theorem modTeam_stamps : (s.modTeam t f).stamps = s.stamps := rfl
@[simp] theorem modTeam_wordErr : (s.modTeam t f).wordErr = s.wordErr := rfl
@[simp] theorem modTeam_banks : (s.modTeam t f).banks = s.banks := rfl
@[simp] theorem modTeam_tcms : (s.modTeam t f).tcms = s.tcms := rfl
@[simp] theorem modTeam_engs : (s.modTeam t f).engs = s.engs := rfl
@[simp] theorem modTeam_dma : (s.modTeam t f).dma = s.dma := rfl
@[simp] theorem modTeam_memSts : (s.modTeam t f).memSts = s.memSts := rfl
@[simp] theorem modTeam_pwr : (s.modTeam t f).pwr = s.pwr := rfl
@[simp] theorem modTeam_mgr : (s.modTeam t f).mgr = s.mgr := rfl
@[simp] theorem modTeam_flowPwr : (s.modTeam t f).flowPwr = s.flowPwr := rfl
@[simp] theorem modTeam_tim : (s.modTeam t f).tim = s.tim := rfl
@[simp] theorem modTeam_refs : (s.modTeam t f).refs = s.refs := rfl
@[simp] theorem modTeam_seqs : (s.modTeam t f).seqs = s.seqs := rfl
@[simp] theorem modTeam_wch : (s.modTeam t f).wch = s.wch := rfl
@[simp] theorem modTeam_plm : (s.modTeam t f).plm = s.plm := rfl
@[simp] theorem modTeam_cairn : (s.modTeam t f).cairn = s.cairn := rfl
@[simp] theorem modTeam_retries : (s.modTeam t f).retries = s.retries := rfl
@[simp] theorem modTeam_pins : (s.modTeam t f).pins = s.pins := rfl
@[simp] theorem modTeam_taps : (s.modTeam t f).taps = s.taps := rfl
@[simp] theorem modTeam_out : (s.modTeam t f).out = s.out := rfl
@[simp] theorem modTeam_fresh : (s.modTeam t f).fresh = s.fresh := rfl
@[simp] theorem modTeam_pending : (s.modTeam t f).pending = s.pending := rfl
@[simp] theorem modTeam_rd (g : Fld) (e j : Nat) : (s.modTeam t f).rd g e j = s.rd g e j := rfl
end

section
variable (d : Nat) (f : CnvSt → CnvSt)
@[simp] theorem modCnv_part : (s.modCnv d f).part = s.part := rfl
@[simp] theorem modCnv_regs : (s.modCnv d f).regs = s.regs := rfl
@[simp] theorem modCnv_staged : (s.modCnv d f).staged = s.staged := rfl
@[simp] theorem modCnv_pend : (s.modCnv d f).pend = s.pend := rfl
@[simp] theorem modCnv_shadow : (s.modCnv d f).shadow = s.shadow := rfl
@[simp] theorem modCnv_mem : (s.modCnv d f).mem = s.mem := rfl
@[simp] theorem modCnv_flash : (s.modCnv d f).flash = s.flash := rfl
@[simp] theorem modCnv_otp : (s.modCnv d f).otp = s.otp := rfl
@[simp] theorem modCnv_dieId : (s.modCnv d f).dieId = s.dieId := rfl
@[simp] theorem modCnv_time : (s.modCnv d f).time = s.time := rfl
@[simp] theorem modCnv_dies : (s.modCnv d f).dies = s.dies := rfl
@[simp] theorem modCnv_crown : (s.modCnv d f).crown = s.crown := rfl
@[simp] theorem modCnv_bus : (s.modCnv d f).bus = s.bus := rfl
@[simp] theorem modCnv_txn : (s.modCnv d f).txn = s.txn := rfl
@[simp] theorem modCnv_image : (s.modCnv d f).image = s.image := rfl
@[simp] theorem modCnv_load : (s.modCnv d f).load = s.load := rfl
@[simp] theorem modCnv_units : (s.modCnv d f).units = s.units := rfl
@[simp] theorem modCnv_blkRst : (s.modCnv d f).blkRst = s.blkRst := rfl
@[simp] theorem modCnv_coef : (s.modCnv d f).coef = s.coef := rfl
@[simp] theorem modCnv_calRej : (s.modCnv d f).calRej = s.calRej := rfl
@[simp] theorem modCnv_calRun : (s.modCnv d f).calRun = s.calRun := rfl
@[simp] theorem modCnv_calWin : (s.modCnv d f).calWin = s.calWin := rfl
@[simp] theorem modCnv_rxArms : (s.modCnv d f).rxArms = s.rxArms := rfl
@[simp] theorem modCnv_groups : (s.modCnv d f).groups = s.groups := rfl
@[simp] theorem modCnv_rxDies : (s.modCnv d f).rxDies = s.rxDies := rfl
@[simp] theorem modCnv_seams : (s.modCnv d f).seams = s.seams := rfl
@[simp] theorem modCnv_txDies : (s.modCnv d f).txDies = s.txDies := rfl
@[simp] theorem modCnv_txArms : (s.modCnv d f).txArms = s.txArms := rfl
@[simp] theorem modCnv_lut : (s.modCnv d f).lut = s.lut := rfl
@[simp] theorem modCnv_fec : (s.modCnv d f).fec = s.fec := rfl
@[simp] theorem modCnv_streams : (s.modCnv d f).streams = s.streams := rfl
@[simp] theorem modCnv_frm : (s.modCnv d f).frm = s.frm := rfl
@[simp] theorem modCnv_flows : (s.modCnv d f).flows = s.flows := rfl
@[simp] theorem modCnv_keyJobs : (s.modCnv d f).keyJobs = s.keyJobs := rfl
@[simp] theorem modCnv_crc : (s.modCnv d f).crc = s.crc := rfl
@[simp] theorem modCnv_lanes : (s.modCnv d f).lanes = s.lanes := rfl
@[simp] theorem modCnv_grps : (s.modCnv d f).grps = s.grps := rfl
@[simp] theorem modCnv_stamps : (s.modCnv d f).stamps = s.stamps := rfl
@[simp] theorem modCnv_wordErr : (s.modCnv d f).wordErr = s.wordErr := rfl
@[simp] theorem modCnv_banks : (s.modCnv d f).banks = s.banks := rfl
@[simp] theorem modCnv_tcms : (s.modCnv d f).tcms = s.tcms := rfl
@[simp] theorem modCnv_engs : (s.modCnv d f).engs = s.engs := rfl
@[simp] theorem modCnv_dma : (s.modCnv d f).dma = s.dma := rfl
@[simp] theorem modCnv_memSts : (s.modCnv d f).memSts = s.memSts := rfl
@[simp] theorem modCnv_pwr : (s.modCnv d f).pwr = s.pwr := rfl
@[simp] theorem modCnv_mgr : (s.modCnv d f).mgr = s.mgr := rfl
@[simp] theorem modCnv_flowPwr : (s.modCnv d f).flowPwr = s.flowPwr := rfl
@[simp] theorem modCnv_tim : (s.modCnv d f).tim = s.tim := rfl
@[simp] theorem modCnv_refs : (s.modCnv d f).refs = s.refs := rfl
@[simp] theorem modCnv_seqs : (s.modCnv d f).seqs = s.seqs := rfl
@[simp] theorem modCnv_wch : (s.modCnv d f).wch = s.wch := rfl
@[simp] theorem modCnv_plm : (s.modCnv d f).plm = s.plm := rfl
@[simp] theorem modCnv_teams : (s.modCnv d f).teams = s.teams := rfl
@[simp] theorem modCnv_cairn : (s.modCnv d f).cairn = s.cairn := rfl
@[simp] theorem modCnv_retries : (s.modCnv d f).retries = s.retries := rfl
@[simp] theorem modCnv_pins : (s.modCnv d f).pins = s.pins := rfl
@[simp] theorem modCnv_taps : (s.modCnv d f).taps = s.taps := rfl
@[simp] theorem modCnv_out : (s.modCnv d f).out = s.out := rfl
@[simp] theorem modCnv_fresh : (s.modCnv d f).fresh = s.fresh := rfl
@[simp] theorem modCnv_pending : (s.modCnv d f).pending = s.pending := rfl
@[simp] theorem modCnv_rd (g : Fld) (e j : Nat) : (s.modCnv d f).rd g e j = s.rd g e j := rfl
end

section
variable (d i : Nat) (f : RxArm → RxArm)
@[simp] theorem modRx_part : (s.modRx d i f).part = s.part := rfl
@[simp] theorem modRx_regs : (s.modRx d i f).regs = s.regs := rfl
@[simp] theorem modRx_staged : (s.modRx d i f).staged = s.staged := rfl
@[simp] theorem modRx_pend : (s.modRx d i f).pend = s.pend := rfl
@[simp] theorem modRx_shadow : (s.modRx d i f).shadow = s.shadow := rfl
@[simp] theorem modRx_mem : (s.modRx d i f).mem = s.mem := rfl
@[simp] theorem modRx_flash : (s.modRx d i f).flash = s.flash := rfl
@[simp] theorem modRx_otp : (s.modRx d i f).otp = s.otp := rfl
@[simp] theorem modRx_dieId : (s.modRx d i f).dieId = s.dieId := rfl
@[simp] theorem modRx_time : (s.modRx d i f).time = s.time := rfl
@[simp] theorem modRx_dies : (s.modRx d i f).dies = s.dies := rfl
@[simp] theorem modRx_crown : (s.modRx d i f).crown = s.crown := rfl
@[simp] theorem modRx_bus : (s.modRx d i f).bus = s.bus := rfl
@[simp] theorem modRx_txn : (s.modRx d i f).txn = s.txn := rfl
@[simp] theorem modRx_image : (s.modRx d i f).image = s.image := rfl
@[simp] theorem modRx_load : (s.modRx d i f).load = s.load := rfl
@[simp] theorem modRx_units : (s.modRx d i f).units = s.units := rfl
@[simp] theorem modRx_blkRst : (s.modRx d i f).blkRst = s.blkRst := rfl
@[simp] theorem modRx_cnv : (s.modRx d i f).cnv = s.cnv := rfl
@[simp] theorem modRx_coef : (s.modRx d i f).coef = s.coef := rfl
@[simp] theorem modRx_calRej : (s.modRx d i f).calRej = s.calRej := rfl
@[simp] theorem modRx_calRun : (s.modRx d i f).calRun = s.calRun := rfl
@[simp] theorem modRx_calWin : (s.modRx d i f).calWin = s.calWin := rfl
@[simp] theorem modRx_groups : (s.modRx d i f).groups = s.groups := rfl
@[simp] theorem modRx_rxDies : (s.modRx d i f).rxDies = s.rxDies := rfl
@[simp] theorem modRx_seams : (s.modRx d i f).seams = s.seams := rfl
@[simp] theorem modRx_txDies : (s.modRx d i f).txDies = s.txDies := rfl
@[simp] theorem modRx_txArms : (s.modRx d i f).txArms = s.txArms := rfl
@[simp] theorem modRx_lut : (s.modRx d i f).lut = s.lut := rfl
@[simp] theorem modRx_fec : (s.modRx d i f).fec = s.fec := rfl
@[simp] theorem modRx_streams : (s.modRx d i f).streams = s.streams := rfl
@[simp] theorem modRx_frm : (s.modRx d i f).frm = s.frm := rfl
@[simp] theorem modRx_flows : (s.modRx d i f).flows = s.flows := rfl
@[simp] theorem modRx_keyJobs : (s.modRx d i f).keyJobs = s.keyJobs := rfl
@[simp] theorem modRx_crc : (s.modRx d i f).crc = s.crc := rfl
@[simp] theorem modRx_lanes : (s.modRx d i f).lanes = s.lanes := rfl
@[simp] theorem modRx_grps : (s.modRx d i f).grps = s.grps := rfl
@[simp] theorem modRx_stamps : (s.modRx d i f).stamps = s.stamps := rfl
@[simp] theorem modRx_wordErr : (s.modRx d i f).wordErr = s.wordErr := rfl
@[simp] theorem modRx_banks : (s.modRx d i f).banks = s.banks := rfl
@[simp] theorem modRx_tcms : (s.modRx d i f).tcms = s.tcms := rfl
@[simp] theorem modRx_engs : (s.modRx d i f).engs = s.engs := rfl
@[simp] theorem modRx_dma : (s.modRx d i f).dma = s.dma := rfl
@[simp] theorem modRx_memSts : (s.modRx d i f).memSts = s.memSts := rfl
@[simp] theorem modRx_pwr : (s.modRx d i f).pwr = s.pwr := rfl
@[simp] theorem modRx_mgr : (s.modRx d i f).mgr = s.mgr := rfl
@[simp] theorem modRx_flowPwr : (s.modRx d i f).flowPwr = s.flowPwr := rfl
@[simp] theorem modRx_tim : (s.modRx d i f).tim = s.tim := rfl
@[simp] theorem modRx_refs : (s.modRx d i f).refs = s.refs := rfl
@[simp] theorem modRx_seqs : (s.modRx d i f).seqs = s.seqs := rfl
@[simp] theorem modRx_wch : (s.modRx d i f).wch = s.wch := rfl
@[simp] theorem modRx_plm : (s.modRx d i f).plm = s.plm := rfl
@[simp] theorem modRx_teams : (s.modRx d i f).teams = s.teams := rfl
@[simp] theorem modRx_cairn : (s.modRx d i f).cairn = s.cairn := rfl
@[simp] theorem modRx_retries : (s.modRx d i f).retries = s.retries := rfl
@[simp] theorem modRx_pins : (s.modRx d i f).pins = s.pins := rfl
@[simp] theorem modRx_taps : (s.modRx d i f).taps = s.taps := rfl
@[simp] theorem modRx_out : (s.modRx d i f).out = s.out := rfl
@[simp] theorem modRx_fresh : (s.modRx d i f).fresh = s.fresh := rfl
@[simp] theorem modRx_pending : (s.modRx d i f).pending = s.pending := rfl
@[simp] theorem modRx_rd (g : Fld) (e j : Nat) : (s.modRx d i f).rd g e j = s.rd g e j := rfl
end

section
variable (d : Nat) (f : RxDie → RxDie)
@[simp] theorem modRxDie_part : (s.modRxDie d f).part = s.part := rfl
@[simp] theorem modRxDie_regs : (s.modRxDie d f).regs = s.regs := rfl
@[simp] theorem modRxDie_staged : (s.modRxDie d f).staged = s.staged := rfl
@[simp] theorem modRxDie_pend : (s.modRxDie d f).pend = s.pend := rfl
@[simp] theorem modRxDie_shadow : (s.modRxDie d f).shadow = s.shadow := rfl
@[simp] theorem modRxDie_mem : (s.modRxDie d f).mem = s.mem := rfl
@[simp] theorem modRxDie_flash : (s.modRxDie d f).flash = s.flash := rfl
@[simp] theorem modRxDie_otp : (s.modRxDie d f).otp = s.otp := rfl
@[simp] theorem modRxDie_dieId : (s.modRxDie d f).dieId = s.dieId := rfl
@[simp] theorem modRxDie_time : (s.modRxDie d f).time = s.time := rfl
@[simp] theorem modRxDie_dies : (s.modRxDie d f).dies = s.dies := rfl
@[simp] theorem modRxDie_crown : (s.modRxDie d f).crown = s.crown := rfl
@[simp] theorem modRxDie_bus : (s.modRxDie d f).bus = s.bus := rfl
@[simp] theorem modRxDie_txn : (s.modRxDie d f).txn = s.txn := rfl
@[simp] theorem modRxDie_image : (s.modRxDie d f).image = s.image := rfl
@[simp] theorem modRxDie_load : (s.modRxDie d f).load = s.load := rfl
@[simp] theorem modRxDie_units : (s.modRxDie d f).units = s.units := rfl
@[simp] theorem modRxDie_blkRst : (s.modRxDie d f).blkRst = s.blkRst := rfl
@[simp] theorem modRxDie_cnv : (s.modRxDie d f).cnv = s.cnv := rfl
@[simp] theorem modRxDie_coef : (s.modRxDie d f).coef = s.coef := rfl
@[simp] theorem modRxDie_calRej : (s.modRxDie d f).calRej = s.calRej := rfl
@[simp] theorem modRxDie_calRun : (s.modRxDie d f).calRun = s.calRun := rfl
@[simp] theorem modRxDie_calWin : (s.modRxDie d f).calWin = s.calWin := rfl
@[simp] theorem modRxDie_rxArms : (s.modRxDie d f).rxArms = s.rxArms := rfl
@[simp] theorem modRxDie_groups : (s.modRxDie d f).groups = s.groups := rfl
@[simp] theorem modRxDie_seams : (s.modRxDie d f).seams = s.seams := rfl
@[simp] theorem modRxDie_txDies : (s.modRxDie d f).txDies = s.txDies := rfl
@[simp] theorem modRxDie_txArms : (s.modRxDie d f).txArms = s.txArms := rfl
@[simp] theorem modRxDie_lut : (s.modRxDie d f).lut = s.lut := rfl
@[simp] theorem modRxDie_fec : (s.modRxDie d f).fec = s.fec := rfl
@[simp] theorem modRxDie_streams : (s.modRxDie d f).streams = s.streams := rfl
@[simp] theorem modRxDie_frm : (s.modRxDie d f).frm = s.frm := rfl
@[simp] theorem modRxDie_flows : (s.modRxDie d f).flows = s.flows := rfl
@[simp] theorem modRxDie_keyJobs : (s.modRxDie d f).keyJobs = s.keyJobs := rfl
@[simp] theorem modRxDie_crc : (s.modRxDie d f).crc = s.crc := rfl
@[simp] theorem modRxDie_lanes : (s.modRxDie d f).lanes = s.lanes := rfl
@[simp] theorem modRxDie_grps : (s.modRxDie d f).grps = s.grps := rfl
@[simp] theorem modRxDie_stamps : (s.modRxDie d f).stamps = s.stamps := rfl
@[simp] theorem modRxDie_wordErr : (s.modRxDie d f).wordErr = s.wordErr := rfl
@[simp] theorem modRxDie_banks : (s.modRxDie d f).banks = s.banks := rfl
@[simp] theorem modRxDie_tcms : (s.modRxDie d f).tcms = s.tcms := rfl
@[simp] theorem modRxDie_engs : (s.modRxDie d f).engs = s.engs := rfl
@[simp] theorem modRxDie_dma : (s.modRxDie d f).dma = s.dma := rfl
@[simp] theorem modRxDie_memSts : (s.modRxDie d f).memSts = s.memSts := rfl
@[simp] theorem modRxDie_pwr : (s.modRxDie d f).pwr = s.pwr := rfl
@[simp] theorem modRxDie_mgr : (s.modRxDie d f).mgr = s.mgr := rfl
@[simp] theorem modRxDie_flowPwr : (s.modRxDie d f).flowPwr = s.flowPwr := rfl
@[simp] theorem modRxDie_tim : (s.modRxDie d f).tim = s.tim := rfl
@[simp] theorem modRxDie_refs : (s.modRxDie d f).refs = s.refs := rfl
@[simp] theorem modRxDie_seqs : (s.modRxDie d f).seqs = s.seqs := rfl
@[simp] theorem modRxDie_wch : (s.modRxDie d f).wch = s.wch := rfl
@[simp] theorem modRxDie_plm : (s.modRxDie d f).plm = s.plm := rfl
@[simp] theorem modRxDie_teams : (s.modRxDie d f).teams = s.teams := rfl
@[simp] theorem modRxDie_cairn : (s.modRxDie d f).cairn = s.cairn := rfl
@[simp] theorem modRxDie_retries : (s.modRxDie d f).retries = s.retries := rfl
@[simp] theorem modRxDie_pins : (s.modRxDie d f).pins = s.pins := rfl
@[simp] theorem modRxDie_taps : (s.modRxDie d f).taps = s.taps := rfl
@[simp] theorem modRxDie_out : (s.modRxDie d f).out = s.out := rfl
@[simp] theorem modRxDie_fresh : (s.modRxDie d f).fresh = s.fresh := rfl
@[simp] theorem modRxDie_pending : (s.modRxDie d f).pending = s.pending := rfl
@[simp] theorem modRxDie_rd (g : Fld) (e j : Nat) : (s.modRxDie d f).rd g e j = s.rd g e j := rfl
end

section
variable (d a h : Nat) (f : RemoteGroup → RemoteGroup)
@[simp] theorem modGroup_part : (s.modGroup d a h f).part = s.part := rfl
@[simp] theorem modGroup_regs : (s.modGroup d a h f).regs = s.regs := rfl
@[simp] theorem modGroup_staged : (s.modGroup d a h f).staged = s.staged := rfl
@[simp] theorem modGroup_pend : (s.modGroup d a h f).pend = s.pend := rfl
@[simp] theorem modGroup_shadow : (s.modGroup d a h f).shadow = s.shadow := rfl
@[simp] theorem modGroup_mem : (s.modGroup d a h f).mem = s.mem := rfl
@[simp] theorem modGroup_flash : (s.modGroup d a h f).flash = s.flash := rfl
@[simp] theorem modGroup_otp : (s.modGroup d a h f).otp = s.otp := rfl
@[simp] theorem modGroup_dieId : (s.modGroup d a h f).dieId = s.dieId := rfl
@[simp] theorem modGroup_time : (s.modGroup d a h f).time = s.time := rfl
@[simp] theorem modGroup_dies : (s.modGroup d a h f).dies = s.dies := rfl
@[simp] theorem modGroup_crown : (s.modGroup d a h f).crown = s.crown := rfl
@[simp] theorem modGroup_bus : (s.modGroup d a h f).bus = s.bus := rfl
@[simp] theorem modGroup_txn : (s.modGroup d a h f).txn = s.txn := rfl
@[simp] theorem modGroup_image : (s.modGroup d a h f).image = s.image := rfl
@[simp] theorem modGroup_load : (s.modGroup d a h f).load = s.load := rfl
@[simp] theorem modGroup_units : (s.modGroup d a h f).units = s.units := rfl
@[simp] theorem modGroup_blkRst : (s.modGroup d a h f).blkRst = s.blkRst := rfl
@[simp] theorem modGroup_cnv : (s.modGroup d a h f).cnv = s.cnv := rfl
@[simp] theorem modGroup_coef : (s.modGroup d a h f).coef = s.coef := rfl
@[simp] theorem modGroup_calRej : (s.modGroup d a h f).calRej = s.calRej := rfl
@[simp] theorem modGroup_calRun : (s.modGroup d a h f).calRun = s.calRun := rfl
@[simp] theorem modGroup_calWin : (s.modGroup d a h f).calWin = s.calWin := rfl
@[simp] theorem modGroup_rxArms : (s.modGroup d a h f).rxArms = s.rxArms := rfl
@[simp] theorem modGroup_rxDies : (s.modGroup d a h f).rxDies = s.rxDies := rfl
@[simp] theorem modGroup_seams : (s.modGroup d a h f).seams = s.seams := rfl
@[simp] theorem modGroup_txDies : (s.modGroup d a h f).txDies = s.txDies := rfl
@[simp] theorem modGroup_txArms : (s.modGroup d a h f).txArms = s.txArms := rfl
@[simp] theorem modGroup_lut : (s.modGroup d a h f).lut = s.lut := rfl
@[simp] theorem modGroup_fec : (s.modGroup d a h f).fec = s.fec := rfl
@[simp] theorem modGroup_streams : (s.modGroup d a h f).streams = s.streams := rfl
@[simp] theorem modGroup_frm : (s.modGroup d a h f).frm = s.frm := rfl
@[simp] theorem modGroup_flows : (s.modGroup d a h f).flows = s.flows := rfl
@[simp] theorem modGroup_keyJobs : (s.modGroup d a h f).keyJobs = s.keyJobs := rfl
@[simp] theorem modGroup_crc : (s.modGroup d a h f).crc = s.crc := rfl
@[simp] theorem modGroup_lanes : (s.modGroup d a h f).lanes = s.lanes := rfl
@[simp] theorem modGroup_grps : (s.modGroup d a h f).grps = s.grps := rfl
@[simp] theorem modGroup_stamps : (s.modGroup d a h f).stamps = s.stamps := rfl
@[simp] theorem modGroup_wordErr : (s.modGroup d a h f).wordErr = s.wordErr := rfl
@[simp] theorem modGroup_banks : (s.modGroup d a h f).banks = s.banks := rfl
@[simp] theorem modGroup_tcms : (s.modGroup d a h f).tcms = s.tcms := rfl
@[simp] theorem modGroup_engs : (s.modGroup d a h f).engs = s.engs := rfl
@[simp] theorem modGroup_dma : (s.modGroup d a h f).dma = s.dma := rfl
@[simp] theorem modGroup_memSts : (s.modGroup d a h f).memSts = s.memSts := rfl
@[simp] theorem modGroup_pwr : (s.modGroup d a h f).pwr = s.pwr := rfl
@[simp] theorem modGroup_mgr : (s.modGroup d a h f).mgr = s.mgr := rfl
@[simp] theorem modGroup_flowPwr : (s.modGroup d a h f).flowPwr = s.flowPwr := rfl
@[simp] theorem modGroup_tim : (s.modGroup d a h f).tim = s.tim := rfl
@[simp] theorem modGroup_refs : (s.modGroup d a h f).refs = s.refs := rfl
@[simp] theorem modGroup_seqs : (s.modGroup d a h f).seqs = s.seqs := rfl
@[simp] theorem modGroup_wch : (s.modGroup d a h f).wch = s.wch := rfl
@[simp] theorem modGroup_plm : (s.modGroup d a h f).plm = s.plm := rfl
@[simp] theorem modGroup_teams : (s.modGroup d a h f).teams = s.teams := rfl
@[simp] theorem modGroup_cairn : (s.modGroup d a h f).cairn = s.cairn := rfl
@[simp] theorem modGroup_retries : (s.modGroup d a h f).retries = s.retries := rfl
@[simp] theorem modGroup_pins : (s.modGroup d a h f).pins = s.pins := rfl
@[simp] theorem modGroup_taps : (s.modGroup d a h f).taps = s.taps := rfl
@[simp] theorem modGroup_out : (s.modGroup d a h f).out = s.out := rfl
@[simp] theorem modGroup_fresh : (s.modGroup d a h f).fresh = s.fresh := rfl
@[simp] theorem modGroup_pending : (s.modGroup d a h f).pending = s.pending := rfl
@[simp] theorem modGroup_rd (g : Fld) (e j : Nat) : (s.modGroup d a h f).rd g e j = s.rd g e j := rfl
end

section
variable (d : Nat) (h : Bool) (f : SeamSt → SeamSt)
@[simp] theorem modSeam_part : (s.modSeam d h f).part = s.part := rfl
@[simp] theorem modSeam_regs : (s.modSeam d h f).regs = s.regs := rfl
@[simp] theorem modSeam_staged : (s.modSeam d h f).staged = s.staged := rfl
@[simp] theorem modSeam_pend : (s.modSeam d h f).pend = s.pend := rfl
@[simp] theorem modSeam_shadow : (s.modSeam d h f).shadow = s.shadow := rfl
@[simp] theorem modSeam_mem : (s.modSeam d h f).mem = s.mem := rfl
@[simp] theorem modSeam_flash : (s.modSeam d h f).flash = s.flash := rfl
@[simp] theorem modSeam_otp : (s.modSeam d h f).otp = s.otp := rfl
@[simp] theorem modSeam_dieId : (s.modSeam d h f).dieId = s.dieId := rfl
@[simp] theorem modSeam_time : (s.modSeam d h f).time = s.time := rfl
@[simp] theorem modSeam_dies : (s.modSeam d h f).dies = s.dies := rfl
@[simp] theorem modSeam_crown : (s.modSeam d h f).crown = s.crown := rfl
@[simp] theorem modSeam_bus : (s.modSeam d h f).bus = s.bus := rfl
@[simp] theorem modSeam_txn : (s.modSeam d h f).txn = s.txn := rfl
@[simp] theorem modSeam_image : (s.modSeam d h f).image = s.image := rfl
@[simp] theorem modSeam_load : (s.modSeam d h f).load = s.load := rfl
@[simp] theorem modSeam_units : (s.modSeam d h f).units = s.units := rfl
@[simp] theorem modSeam_blkRst : (s.modSeam d h f).blkRst = s.blkRst := rfl
@[simp] theorem modSeam_cnv : (s.modSeam d h f).cnv = s.cnv := rfl
@[simp] theorem modSeam_coef : (s.modSeam d h f).coef = s.coef := rfl
@[simp] theorem modSeam_calRej : (s.modSeam d h f).calRej = s.calRej := rfl
@[simp] theorem modSeam_calRun : (s.modSeam d h f).calRun = s.calRun := rfl
@[simp] theorem modSeam_calWin : (s.modSeam d h f).calWin = s.calWin := rfl
@[simp] theorem modSeam_rxArms : (s.modSeam d h f).rxArms = s.rxArms := rfl
@[simp] theorem modSeam_groups : (s.modSeam d h f).groups = s.groups := rfl
@[simp] theorem modSeam_rxDies : (s.modSeam d h f).rxDies = s.rxDies := rfl
@[simp] theorem modSeam_txDies : (s.modSeam d h f).txDies = s.txDies := rfl
@[simp] theorem modSeam_txArms : (s.modSeam d h f).txArms = s.txArms := rfl
@[simp] theorem modSeam_lut : (s.modSeam d h f).lut = s.lut := rfl
@[simp] theorem modSeam_fec : (s.modSeam d h f).fec = s.fec := rfl
@[simp] theorem modSeam_streams : (s.modSeam d h f).streams = s.streams := rfl
@[simp] theorem modSeam_frm : (s.modSeam d h f).frm = s.frm := rfl
@[simp] theorem modSeam_flows : (s.modSeam d h f).flows = s.flows := rfl
@[simp] theorem modSeam_keyJobs : (s.modSeam d h f).keyJobs = s.keyJobs := rfl
@[simp] theorem modSeam_crc : (s.modSeam d h f).crc = s.crc := rfl
@[simp] theorem modSeam_lanes : (s.modSeam d h f).lanes = s.lanes := rfl
@[simp] theorem modSeam_grps : (s.modSeam d h f).grps = s.grps := rfl
@[simp] theorem modSeam_stamps : (s.modSeam d h f).stamps = s.stamps := rfl
@[simp] theorem modSeam_wordErr : (s.modSeam d h f).wordErr = s.wordErr := rfl
@[simp] theorem modSeam_banks : (s.modSeam d h f).banks = s.banks := rfl
@[simp] theorem modSeam_tcms : (s.modSeam d h f).tcms = s.tcms := rfl
@[simp] theorem modSeam_engs : (s.modSeam d h f).engs = s.engs := rfl
@[simp] theorem modSeam_dma : (s.modSeam d h f).dma = s.dma := rfl
@[simp] theorem modSeam_memSts : (s.modSeam d h f).memSts = s.memSts := rfl
@[simp] theorem modSeam_pwr : (s.modSeam d h f).pwr = s.pwr := rfl
@[simp] theorem modSeam_mgr : (s.modSeam d h f).mgr = s.mgr := rfl
@[simp] theorem modSeam_flowPwr : (s.modSeam d h f).flowPwr = s.flowPwr := rfl
@[simp] theorem modSeam_tim : (s.modSeam d h f).tim = s.tim := rfl
@[simp] theorem modSeam_refs : (s.modSeam d h f).refs = s.refs := rfl
@[simp] theorem modSeam_seqs : (s.modSeam d h f).seqs = s.seqs := rfl
@[simp] theorem modSeam_wch : (s.modSeam d h f).wch = s.wch := rfl
@[simp] theorem modSeam_plm : (s.modSeam d h f).plm = s.plm := rfl
@[simp] theorem modSeam_teams : (s.modSeam d h f).teams = s.teams := rfl
@[simp] theorem modSeam_cairn : (s.modSeam d h f).cairn = s.cairn := rfl
@[simp] theorem modSeam_retries : (s.modSeam d h f).retries = s.retries := rfl
@[simp] theorem modSeam_pins : (s.modSeam d h f).pins = s.pins := rfl
@[simp] theorem modSeam_taps : (s.modSeam d h f).taps = s.taps := rfl
@[simp] theorem modSeam_out : (s.modSeam d h f).out = s.out := rfl
@[simp] theorem modSeam_fresh : (s.modSeam d h f).fresh = s.fresh := rfl
@[simp] theorem modSeam_pending : (s.modSeam d h f).pending = s.pending := rfl
@[simp] theorem modSeam_rd (g : Fld) (e j : Nat) : (s.modSeam d h f).rd g e j = s.rd g e j := rfl
end

section
variable (d : Nat) (f : TxDie → TxDie)
@[simp] theorem modTxDie_part : (s.modTxDie d f).part = s.part := rfl
@[simp] theorem modTxDie_regs : (s.modTxDie d f).regs = s.regs := rfl
@[simp] theorem modTxDie_staged : (s.modTxDie d f).staged = s.staged := rfl
@[simp] theorem modTxDie_pend : (s.modTxDie d f).pend = s.pend := rfl
@[simp] theorem modTxDie_shadow : (s.modTxDie d f).shadow = s.shadow := rfl
@[simp] theorem modTxDie_mem : (s.modTxDie d f).mem = s.mem := rfl
@[simp] theorem modTxDie_flash : (s.modTxDie d f).flash = s.flash := rfl
@[simp] theorem modTxDie_otp : (s.modTxDie d f).otp = s.otp := rfl
@[simp] theorem modTxDie_dieId : (s.modTxDie d f).dieId = s.dieId := rfl
@[simp] theorem modTxDie_time : (s.modTxDie d f).time = s.time := rfl
@[simp] theorem modTxDie_dies : (s.modTxDie d f).dies = s.dies := rfl
@[simp] theorem modTxDie_crown : (s.modTxDie d f).crown = s.crown := rfl
@[simp] theorem modTxDie_bus : (s.modTxDie d f).bus = s.bus := rfl
@[simp] theorem modTxDie_txn : (s.modTxDie d f).txn = s.txn := rfl
@[simp] theorem modTxDie_image : (s.modTxDie d f).image = s.image := rfl
@[simp] theorem modTxDie_load : (s.modTxDie d f).load = s.load := rfl
@[simp] theorem modTxDie_units : (s.modTxDie d f).units = s.units := rfl
@[simp] theorem modTxDie_blkRst : (s.modTxDie d f).blkRst = s.blkRst := rfl
@[simp] theorem modTxDie_cnv : (s.modTxDie d f).cnv = s.cnv := rfl
@[simp] theorem modTxDie_coef : (s.modTxDie d f).coef = s.coef := rfl
@[simp] theorem modTxDie_calRej : (s.modTxDie d f).calRej = s.calRej := rfl
@[simp] theorem modTxDie_calRun : (s.modTxDie d f).calRun = s.calRun := rfl
@[simp] theorem modTxDie_calWin : (s.modTxDie d f).calWin = s.calWin := rfl
@[simp] theorem modTxDie_rxArms : (s.modTxDie d f).rxArms = s.rxArms := rfl
@[simp] theorem modTxDie_groups : (s.modTxDie d f).groups = s.groups := rfl
@[simp] theorem modTxDie_rxDies : (s.modTxDie d f).rxDies = s.rxDies := rfl
@[simp] theorem modTxDie_seams : (s.modTxDie d f).seams = s.seams := rfl
@[simp] theorem modTxDie_txArms : (s.modTxDie d f).txArms = s.txArms := rfl
@[simp] theorem modTxDie_lut : (s.modTxDie d f).lut = s.lut := rfl
@[simp] theorem modTxDie_fec : (s.modTxDie d f).fec = s.fec := rfl
@[simp] theorem modTxDie_streams : (s.modTxDie d f).streams = s.streams := rfl
@[simp] theorem modTxDie_frm : (s.modTxDie d f).frm = s.frm := rfl
@[simp] theorem modTxDie_flows : (s.modTxDie d f).flows = s.flows := rfl
@[simp] theorem modTxDie_keyJobs : (s.modTxDie d f).keyJobs = s.keyJobs := rfl
@[simp] theorem modTxDie_crc : (s.modTxDie d f).crc = s.crc := rfl
@[simp] theorem modTxDie_lanes : (s.modTxDie d f).lanes = s.lanes := rfl
@[simp] theorem modTxDie_grps : (s.modTxDie d f).grps = s.grps := rfl
@[simp] theorem modTxDie_stamps : (s.modTxDie d f).stamps = s.stamps := rfl
@[simp] theorem modTxDie_wordErr : (s.modTxDie d f).wordErr = s.wordErr := rfl
@[simp] theorem modTxDie_banks : (s.modTxDie d f).banks = s.banks := rfl
@[simp] theorem modTxDie_tcms : (s.modTxDie d f).tcms = s.tcms := rfl
@[simp] theorem modTxDie_engs : (s.modTxDie d f).engs = s.engs := rfl
@[simp] theorem modTxDie_dma : (s.modTxDie d f).dma = s.dma := rfl
@[simp] theorem modTxDie_memSts : (s.modTxDie d f).memSts = s.memSts := rfl
@[simp] theorem modTxDie_pwr : (s.modTxDie d f).pwr = s.pwr := rfl
@[simp] theorem modTxDie_mgr : (s.modTxDie d f).mgr = s.mgr := rfl
@[simp] theorem modTxDie_flowPwr : (s.modTxDie d f).flowPwr = s.flowPwr := rfl
@[simp] theorem modTxDie_tim : (s.modTxDie d f).tim = s.tim := rfl
@[simp] theorem modTxDie_refs : (s.modTxDie d f).refs = s.refs := rfl
@[simp] theorem modTxDie_seqs : (s.modTxDie d f).seqs = s.seqs := rfl
@[simp] theorem modTxDie_wch : (s.modTxDie d f).wch = s.wch := rfl
@[simp] theorem modTxDie_plm : (s.modTxDie d f).plm = s.plm := rfl
@[simp] theorem modTxDie_teams : (s.modTxDie d f).teams = s.teams := rfl
@[simp] theorem modTxDie_cairn : (s.modTxDie d f).cairn = s.cairn := rfl
@[simp] theorem modTxDie_retries : (s.modTxDie d f).retries = s.retries := rfl
@[simp] theorem modTxDie_pins : (s.modTxDie d f).pins = s.pins := rfl
@[simp] theorem modTxDie_taps : (s.modTxDie d f).taps = s.taps := rfl
@[simp] theorem modTxDie_out : (s.modTxDie d f).out = s.out := rfl
@[simp] theorem modTxDie_fresh : (s.modTxDie d f).fresh = s.fresh := rfl
@[simp] theorem modTxDie_pending : (s.modTxDie d f).pending = s.pending := rfl
@[simp] theorem modTxDie_rd (g : Fld) (e j : Nat) : (s.modTxDie d f).rd g e j = s.rd g e j := rfl
end

section
variable (d i : Nat) (f : TxArm → TxArm)
@[simp] theorem modTx_part : (s.modTx d i f).part = s.part := rfl
@[simp] theorem modTx_regs : (s.modTx d i f).regs = s.regs := rfl
@[simp] theorem modTx_staged : (s.modTx d i f).staged = s.staged := rfl
@[simp] theorem modTx_pend : (s.modTx d i f).pend = s.pend := rfl
@[simp] theorem modTx_shadow : (s.modTx d i f).shadow = s.shadow := rfl
@[simp] theorem modTx_mem : (s.modTx d i f).mem = s.mem := rfl
@[simp] theorem modTx_flash : (s.modTx d i f).flash = s.flash := rfl
@[simp] theorem modTx_otp : (s.modTx d i f).otp = s.otp := rfl
@[simp] theorem modTx_dieId : (s.modTx d i f).dieId = s.dieId := rfl
@[simp] theorem modTx_time : (s.modTx d i f).time = s.time := rfl
@[simp] theorem modTx_dies : (s.modTx d i f).dies = s.dies := rfl
@[simp] theorem modTx_crown : (s.modTx d i f).crown = s.crown := rfl
@[simp] theorem modTx_bus : (s.modTx d i f).bus = s.bus := rfl
@[simp] theorem modTx_txn : (s.modTx d i f).txn = s.txn := rfl
@[simp] theorem modTx_image : (s.modTx d i f).image = s.image := rfl
@[simp] theorem modTx_load : (s.modTx d i f).load = s.load := rfl
@[simp] theorem modTx_units : (s.modTx d i f).units = s.units := rfl
@[simp] theorem modTx_blkRst : (s.modTx d i f).blkRst = s.blkRst := rfl
@[simp] theorem modTx_cnv : (s.modTx d i f).cnv = s.cnv := rfl
@[simp] theorem modTx_coef : (s.modTx d i f).coef = s.coef := rfl
@[simp] theorem modTx_calRej : (s.modTx d i f).calRej = s.calRej := rfl
@[simp] theorem modTx_calRun : (s.modTx d i f).calRun = s.calRun := rfl
@[simp] theorem modTx_calWin : (s.modTx d i f).calWin = s.calWin := rfl
@[simp] theorem modTx_rxArms : (s.modTx d i f).rxArms = s.rxArms := rfl
@[simp] theorem modTx_groups : (s.modTx d i f).groups = s.groups := rfl
@[simp] theorem modTx_rxDies : (s.modTx d i f).rxDies = s.rxDies := rfl
@[simp] theorem modTx_seams : (s.modTx d i f).seams = s.seams := rfl
@[simp] theorem modTx_txDies : (s.modTx d i f).txDies = s.txDies := rfl
@[simp] theorem modTx_lut : (s.modTx d i f).lut = s.lut := rfl
@[simp] theorem modTx_fec : (s.modTx d i f).fec = s.fec := rfl
@[simp] theorem modTx_streams : (s.modTx d i f).streams = s.streams := rfl
@[simp] theorem modTx_frm : (s.modTx d i f).frm = s.frm := rfl
@[simp] theorem modTx_flows : (s.modTx d i f).flows = s.flows := rfl
@[simp] theorem modTx_keyJobs : (s.modTx d i f).keyJobs = s.keyJobs := rfl
@[simp] theorem modTx_crc : (s.modTx d i f).crc = s.crc := rfl
@[simp] theorem modTx_lanes : (s.modTx d i f).lanes = s.lanes := rfl
@[simp] theorem modTx_grps : (s.modTx d i f).grps = s.grps := rfl
@[simp] theorem modTx_stamps : (s.modTx d i f).stamps = s.stamps := rfl
@[simp] theorem modTx_wordErr : (s.modTx d i f).wordErr = s.wordErr := rfl
@[simp] theorem modTx_banks : (s.modTx d i f).banks = s.banks := rfl
@[simp] theorem modTx_tcms : (s.modTx d i f).tcms = s.tcms := rfl
@[simp] theorem modTx_engs : (s.modTx d i f).engs = s.engs := rfl
@[simp] theorem modTx_dma : (s.modTx d i f).dma = s.dma := rfl
@[simp] theorem modTx_memSts : (s.modTx d i f).memSts = s.memSts := rfl
@[simp] theorem modTx_pwr : (s.modTx d i f).pwr = s.pwr := rfl
@[simp] theorem modTx_mgr : (s.modTx d i f).mgr = s.mgr := rfl
@[simp] theorem modTx_flowPwr : (s.modTx d i f).flowPwr = s.flowPwr := rfl
@[simp] theorem modTx_tim : (s.modTx d i f).tim = s.tim := rfl
@[simp] theorem modTx_refs : (s.modTx d i f).refs = s.refs := rfl
@[simp] theorem modTx_seqs : (s.modTx d i f).seqs = s.seqs := rfl
@[simp] theorem modTx_wch : (s.modTx d i f).wch = s.wch := rfl
@[simp] theorem modTx_plm : (s.modTx d i f).plm = s.plm := rfl
@[simp] theorem modTx_teams : (s.modTx d i f).teams = s.teams := rfl
@[simp] theorem modTx_cairn : (s.modTx d i f).cairn = s.cairn := rfl
@[simp] theorem modTx_retries : (s.modTx d i f).retries = s.retries := rfl
@[simp] theorem modTx_pins : (s.modTx d i f).pins = s.pins := rfl
@[simp] theorem modTx_taps : (s.modTx d i f).taps = s.taps := rfl
@[simp] theorem modTx_out : (s.modTx d i f).out = s.out := rfl
@[simp] theorem modTx_fresh : (s.modTx d i f).fresh = s.fresh := rfl
@[simp] theorem modTx_pending : (s.modTx d i f).pending = s.pending := rfl
@[simp] theorem modTx_rd (g : Fld) (e j : Nat) : (s.modTx d i f).rd g e j = s.rd g e j := rfl
end

section
variable (d : Nat) (f : FecSt → FecSt)
@[simp] theorem modFec_part : (s.modFec d f).part = s.part := rfl
@[simp] theorem modFec_regs : (s.modFec d f).regs = s.regs := rfl
@[simp] theorem modFec_staged : (s.modFec d f).staged = s.staged := rfl
@[simp] theorem modFec_pend : (s.modFec d f).pend = s.pend := rfl
@[simp] theorem modFec_shadow : (s.modFec d f).shadow = s.shadow := rfl
@[simp] theorem modFec_mem : (s.modFec d f).mem = s.mem := rfl
@[simp] theorem modFec_flash : (s.modFec d f).flash = s.flash := rfl
@[simp] theorem modFec_otp : (s.modFec d f).otp = s.otp := rfl
@[simp] theorem modFec_dieId : (s.modFec d f).dieId = s.dieId := rfl
@[simp] theorem modFec_time : (s.modFec d f).time = s.time := rfl
@[simp] theorem modFec_dies : (s.modFec d f).dies = s.dies := rfl
@[simp] theorem modFec_crown : (s.modFec d f).crown = s.crown := rfl
@[simp] theorem modFec_bus : (s.modFec d f).bus = s.bus := rfl
@[simp] theorem modFec_txn : (s.modFec d f).txn = s.txn := rfl
@[simp] theorem modFec_image : (s.modFec d f).image = s.image := rfl
@[simp] theorem modFec_load : (s.modFec d f).load = s.load := rfl
@[simp] theorem modFec_units : (s.modFec d f).units = s.units := rfl
@[simp] theorem modFec_blkRst : (s.modFec d f).blkRst = s.blkRst := rfl
@[simp] theorem modFec_cnv : (s.modFec d f).cnv = s.cnv := rfl
@[simp] theorem modFec_coef : (s.modFec d f).coef = s.coef := rfl
@[simp] theorem modFec_calRej : (s.modFec d f).calRej = s.calRej := rfl
@[simp] theorem modFec_calRun : (s.modFec d f).calRun = s.calRun := rfl
@[simp] theorem modFec_calWin : (s.modFec d f).calWin = s.calWin := rfl
@[simp] theorem modFec_rxArms : (s.modFec d f).rxArms = s.rxArms := rfl
@[simp] theorem modFec_groups : (s.modFec d f).groups = s.groups := rfl
@[simp] theorem modFec_rxDies : (s.modFec d f).rxDies = s.rxDies := rfl
@[simp] theorem modFec_seams : (s.modFec d f).seams = s.seams := rfl
@[simp] theorem modFec_txDies : (s.modFec d f).txDies = s.txDies := rfl
@[simp] theorem modFec_txArms : (s.modFec d f).txArms = s.txArms := rfl
@[simp] theorem modFec_lut : (s.modFec d f).lut = s.lut := rfl
@[simp] theorem modFec_streams : (s.modFec d f).streams = s.streams := rfl
@[simp] theorem modFec_frm : (s.modFec d f).frm = s.frm := rfl
@[simp] theorem modFec_flows : (s.modFec d f).flows = s.flows := rfl
@[simp] theorem modFec_keyJobs : (s.modFec d f).keyJobs = s.keyJobs := rfl
@[simp] theorem modFec_crc : (s.modFec d f).crc = s.crc := rfl
@[simp] theorem modFec_lanes : (s.modFec d f).lanes = s.lanes := rfl
@[simp] theorem modFec_grps : (s.modFec d f).grps = s.grps := rfl
@[simp] theorem modFec_stamps : (s.modFec d f).stamps = s.stamps := rfl
@[simp] theorem modFec_wordErr : (s.modFec d f).wordErr = s.wordErr := rfl
@[simp] theorem modFec_banks : (s.modFec d f).banks = s.banks := rfl
@[simp] theorem modFec_tcms : (s.modFec d f).tcms = s.tcms := rfl
@[simp] theorem modFec_engs : (s.modFec d f).engs = s.engs := rfl
@[simp] theorem modFec_dma : (s.modFec d f).dma = s.dma := rfl
@[simp] theorem modFec_memSts : (s.modFec d f).memSts = s.memSts := rfl
@[simp] theorem modFec_pwr : (s.modFec d f).pwr = s.pwr := rfl
@[simp] theorem modFec_mgr : (s.modFec d f).mgr = s.mgr := rfl
@[simp] theorem modFec_flowPwr : (s.modFec d f).flowPwr = s.flowPwr := rfl
@[simp] theorem modFec_tim : (s.modFec d f).tim = s.tim := rfl
@[simp] theorem modFec_refs : (s.modFec d f).refs = s.refs := rfl
@[simp] theorem modFec_seqs : (s.modFec d f).seqs = s.seqs := rfl
@[simp] theorem modFec_wch : (s.modFec d f).wch = s.wch := rfl
@[simp] theorem modFec_plm : (s.modFec d f).plm = s.plm := rfl
@[simp] theorem modFec_teams : (s.modFec d f).teams = s.teams := rfl
@[simp] theorem modFec_cairn : (s.modFec d f).cairn = s.cairn := rfl
@[simp] theorem modFec_retries : (s.modFec d f).retries = s.retries := rfl
@[simp] theorem modFec_pins : (s.modFec d f).pins = s.pins := rfl
@[simp] theorem modFec_taps : (s.modFec d f).taps = s.taps := rfl
@[simp] theorem modFec_out : (s.modFec d f).out = s.out := rfl
@[simp] theorem modFec_fresh : (s.modFec d f).fresh = s.fresh := rfl
@[simp] theorem modFec_pending : (s.modFec d f).pending = s.pending := rfl
@[simp] theorem modFec_rd (g : Fld) (e j : Nat) : (s.modFec d f).rd g e j = s.rd g e j := rfl
end

section
variable (d i : Nat) (f : StreamSt → StreamSt)
@[simp] theorem modStream_part : (s.modStream d i f).part = s.part := rfl
@[simp] theorem modStream_regs : (s.modStream d i f).regs = s.regs := rfl
@[simp] theorem modStream_staged : (s.modStream d i f).staged = s.staged := rfl
@[simp] theorem modStream_pend : (s.modStream d i f).pend = s.pend := rfl
@[simp] theorem modStream_shadow : (s.modStream d i f).shadow = s.shadow := rfl
@[simp] theorem modStream_mem : (s.modStream d i f).mem = s.mem := rfl
@[simp] theorem modStream_flash : (s.modStream d i f).flash = s.flash := rfl
@[simp] theorem modStream_otp : (s.modStream d i f).otp = s.otp := rfl
@[simp] theorem modStream_dieId : (s.modStream d i f).dieId = s.dieId := rfl
@[simp] theorem modStream_time : (s.modStream d i f).time = s.time := rfl
@[simp] theorem modStream_dies : (s.modStream d i f).dies = s.dies := rfl
@[simp] theorem modStream_crown : (s.modStream d i f).crown = s.crown := rfl
@[simp] theorem modStream_bus : (s.modStream d i f).bus = s.bus := rfl
@[simp] theorem modStream_txn : (s.modStream d i f).txn = s.txn := rfl
@[simp] theorem modStream_image : (s.modStream d i f).image = s.image := rfl
@[simp] theorem modStream_load : (s.modStream d i f).load = s.load := rfl
@[simp] theorem modStream_units : (s.modStream d i f).units = s.units := rfl
@[simp] theorem modStream_blkRst : (s.modStream d i f).blkRst = s.blkRst := rfl
@[simp] theorem modStream_cnv : (s.modStream d i f).cnv = s.cnv := rfl
@[simp] theorem modStream_coef : (s.modStream d i f).coef = s.coef := rfl
@[simp] theorem modStream_calRej : (s.modStream d i f).calRej = s.calRej := rfl
@[simp] theorem modStream_calRun : (s.modStream d i f).calRun = s.calRun := rfl
@[simp] theorem modStream_calWin : (s.modStream d i f).calWin = s.calWin := rfl
@[simp] theorem modStream_rxArms : (s.modStream d i f).rxArms = s.rxArms := rfl
@[simp] theorem modStream_groups : (s.modStream d i f).groups = s.groups := rfl
@[simp] theorem modStream_rxDies : (s.modStream d i f).rxDies = s.rxDies := rfl
@[simp] theorem modStream_seams : (s.modStream d i f).seams = s.seams := rfl
@[simp] theorem modStream_txDies : (s.modStream d i f).txDies = s.txDies := rfl
@[simp] theorem modStream_txArms : (s.modStream d i f).txArms = s.txArms := rfl
@[simp] theorem modStream_lut : (s.modStream d i f).lut = s.lut := rfl
@[simp] theorem modStream_fec : (s.modStream d i f).fec = s.fec := rfl
@[simp] theorem modStream_frm : (s.modStream d i f).frm = s.frm := rfl
@[simp] theorem modStream_flows : (s.modStream d i f).flows = s.flows := rfl
@[simp] theorem modStream_keyJobs : (s.modStream d i f).keyJobs = s.keyJobs := rfl
@[simp] theorem modStream_crc : (s.modStream d i f).crc = s.crc := rfl
@[simp] theorem modStream_lanes : (s.modStream d i f).lanes = s.lanes := rfl
@[simp] theorem modStream_grps : (s.modStream d i f).grps = s.grps := rfl
@[simp] theorem modStream_stamps : (s.modStream d i f).stamps = s.stamps := rfl
@[simp] theorem modStream_wordErr : (s.modStream d i f).wordErr = s.wordErr := rfl
@[simp] theorem modStream_banks : (s.modStream d i f).banks = s.banks := rfl
@[simp] theorem modStream_tcms : (s.modStream d i f).tcms = s.tcms := rfl
@[simp] theorem modStream_engs : (s.modStream d i f).engs = s.engs := rfl
@[simp] theorem modStream_dma : (s.modStream d i f).dma = s.dma := rfl
@[simp] theorem modStream_memSts : (s.modStream d i f).memSts = s.memSts := rfl
@[simp] theorem modStream_pwr : (s.modStream d i f).pwr = s.pwr := rfl
@[simp] theorem modStream_mgr : (s.modStream d i f).mgr = s.mgr := rfl
@[simp] theorem modStream_flowPwr : (s.modStream d i f).flowPwr = s.flowPwr := rfl
@[simp] theorem modStream_tim : (s.modStream d i f).tim = s.tim := rfl
@[simp] theorem modStream_refs : (s.modStream d i f).refs = s.refs := rfl
@[simp] theorem modStream_seqs : (s.modStream d i f).seqs = s.seqs := rfl
@[simp] theorem modStream_wch : (s.modStream d i f).wch = s.wch := rfl
@[simp] theorem modStream_plm : (s.modStream d i f).plm = s.plm := rfl
@[simp] theorem modStream_teams : (s.modStream d i f).teams = s.teams := rfl
@[simp] theorem modStream_cairn : (s.modStream d i f).cairn = s.cairn := rfl
@[simp] theorem modStream_retries : (s.modStream d i f).retries = s.retries := rfl
@[simp] theorem modStream_pins : (s.modStream d i f).pins = s.pins := rfl
@[simp] theorem modStream_taps : (s.modStream d i f).taps = s.taps := rfl
@[simp] theorem modStream_out : (s.modStream d i f).out = s.out := rfl
@[simp] theorem modStream_fresh : (s.modStream d i f).fresh = s.fresh := rfl
@[simp] theorem modStream_pending : (s.modStream d i f).pending = s.pending := rfl
@[simp] theorem modStream_rd (g : Fld) (e j : Nat) : (s.modStream d i f).rd g e j = s.rd g e j := rfl
end

section
variable (d i : Nat) (f : FrmArm → FrmArm)
@[simp] theorem modFrm_part : (s.modFrm d i f).part = s.part := rfl
@[simp] theorem modFrm_regs : (s.modFrm d i f).regs = s.regs := rfl
@[simp] theorem modFrm_staged : (s.modFrm d i f).staged = s.staged := rfl
@[simp] theorem modFrm_pend : (s.modFrm d i f).pend = s.pend := rfl
@[simp] theorem modFrm_shadow : (s.modFrm d i f).shadow = s.shadow := rfl
@[simp] theorem modFrm_mem : (s.modFrm d i f).mem = s.mem := rfl
@[simp] theorem modFrm_flash : (s.modFrm d i f).flash = s.flash := rfl
@[simp] theorem modFrm_otp : (s.modFrm d i f).otp = s.otp := rfl
@[simp] theorem modFrm_dieId : (s.modFrm d i f).dieId = s.dieId := rfl
@[simp] theorem modFrm_time : (s.modFrm d i f).time = s.time := rfl
@[simp] theorem modFrm_dies : (s.modFrm d i f).dies = s.dies := rfl
@[simp] theorem modFrm_crown : (s.modFrm d i f).crown = s.crown := rfl
@[simp] theorem modFrm_bus : (s.modFrm d i f).bus = s.bus := rfl
@[simp] theorem modFrm_txn : (s.modFrm d i f).txn = s.txn := rfl
@[simp] theorem modFrm_image : (s.modFrm d i f).image = s.image := rfl
@[simp] theorem modFrm_load : (s.modFrm d i f).load = s.load := rfl
@[simp] theorem modFrm_units : (s.modFrm d i f).units = s.units := rfl
@[simp] theorem modFrm_blkRst : (s.modFrm d i f).blkRst = s.blkRst := rfl
@[simp] theorem modFrm_cnv : (s.modFrm d i f).cnv = s.cnv := rfl
@[simp] theorem modFrm_coef : (s.modFrm d i f).coef = s.coef := rfl
@[simp] theorem modFrm_calRej : (s.modFrm d i f).calRej = s.calRej := rfl
@[simp] theorem modFrm_calRun : (s.modFrm d i f).calRun = s.calRun := rfl
@[simp] theorem modFrm_calWin : (s.modFrm d i f).calWin = s.calWin := rfl
@[simp] theorem modFrm_rxArms : (s.modFrm d i f).rxArms = s.rxArms := rfl
@[simp] theorem modFrm_groups : (s.modFrm d i f).groups = s.groups := rfl
@[simp] theorem modFrm_rxDies : (s.modFrm d i f).rxDies = s.rxDies := rfl
@[simp] theorem modFrm_seams : (s.modFrm d i f).seams = s.seams := rfl
@[simp] theorem modFrm_txDies : (s.modFrm d i f).txDies = s.txDies := rfl
@[simp] theorem modFrm_txArms : (s.modFrm d i f).txArms = s.txArms := rfl
@[simp] theorem modFrm_lut : (s.modFrm d i f).lut = s.lut := rfl
@[simp] theorem modFrm_fec : (s.modFrm d i f).fec = s.fec := rfl
@[simp] theorem modFrm_streams : (s.modFrm d i f).streams = s.streams := rfl
@[simp] theorem modFrm_flows : (s.modFrm d i f).flows = s.flows := rfl
@[simp] theorem modFrm_keyJobs : (s.modFrm d i f).keyJobs = s.keyJobs := rfl
@[simp] theorem modFrm_crc : (s.modFrm d i f).crc = s.crc := rfl
@[simp] theorem modFrm_lanes : (s.modFrm d i f).lanes = s.lanes := rfl
@[simp] theorem modFrm_grps : (s.modFrm d i f).grps = s.grps := rfl
@[simp] theorem modFrm_stamps : (s.modFrm d i f).stamps = s.stamps := rfl
@[simp] theorem modFrm_wordErr : (s.modFrm d i f).wordErr = s.wordErr := rfl
@[simp] theorem modFrm_banks : (s.modFrm d i f).banks = s.banks := rfl
@[simp] theorem modFrm_tcms : (s.modFrm d i f).tcms = s.tcms := rfl
@[simp] theorem modFrm_engs : (s.modFrm d i f).engs = s.engs := rfl
@[simp] theorem modFrm_dma : (s.modFrm d i f).dma = s.dma := rfl
@[simp] theorem modFrm_memSts : (s.modFrm d i f).memSts = s.memSts := rfl
@[simp] theorem modFrm_pwr : (s.modFrm d i f).pwr = s.pwr := rfl
@[simp] theorem modFrm_mgr : (s.modFrm d i f).mgr = s.mgr := rfl
@[simp] theorem modFrm_flowPwr : (s.modFrm d i f).flowPwr = s.flowPwr := rfl
@[simp] theorem modFrm_tim : (s.modFrm d i f).tim = s.tim := rfl
@[simp] theorem modFrm_refs : (s.modFrm d i f).refs = s.refs := rfl
@[simp] theorem modFrm_seqs : (s.modFrm d i f).seqs = s.seqs := rfl
@[simp] theorem modFrm_wch : (s.modFrm d i f).wch = s.wch := rfl
@[simp] theorem modFrm_plm : (s.modFrm d i f).plm = s.plm := rfl
@[simp] theorem modFrm_teams : (s.modFrm d i f).teams = s.teams := rfl
@[simp] theorem modFrm_cairn : (s.modFrm d i f).cairn = s.cairn := rfl
@[simp] theorem modFrm_retries : (s.modFrm d i f).retries = s.retries := rfl
@[simp] theorem modFrm_pins : (s.modFrm d i f).pins = s.pins := rfl
@[simp] theorem modFrm_taps : (s.modFrm d i f).taps = s.taps := rfl
@[simp] theorem modFrm_out : (s.modFrm d i f).out = s.out := rfl
@[simp] theorem modFrm_fresh : (s.modFrm d i f).fresh = s.fresh := rfl
@[simp] theorem modFrm_pending : (s.modFrm d i f).pending = s.pending := rfl
@[simp] theorem modFrm_rd (g : Fld) (e j : Nat) : (s.modFrm d i f).rd g e j = s.rd g e j := rfl
end

section
variable (d i : Nat) (f : FlowSt → FlowSt)
@[simp] theorem modFlow_part : (s.modFlow d i f).part = s.part := rfl
@[simp] theorem modFlow_regs : (s.modFlow d i f).regs = s.regs := rfl
@[simp] theorem modFlow_staged : (s.modFlow d i f).staged = s.staged := rfl
@[simp] theorem modFlow_pend : (s.modFlow d i f).pend = s.pend := rfl
@[simp] theorem modFlow_shadow : (s.modFlow d i f).shadow = s.shadow := rfl
@[simp] theorem modFlow_mem : (s.modFlow d i f).mem = s.mem := rfl
@[simp] theorem modFlow_flash : (s.modFlow d i f).flash = s.flash := rfl
@[simp] theorem modFlow_otp : (s.modFlow d i f).otp = s.otp := rfl
@[simp] theorem modFlow_dieId : (s.modFlow d i f).dieId = s.dieId := rfl
@[simp] theorem modFlow_time : (s.modFlow d i f).time = s.time := rfl
@[simp] theorem modFlow_dies : (s.modFlow d i f).dies = s.dies := rfl
@[simp] theorem modFlow_crown : (s.modFlow d i f).crown = s.crown := rfl
@[simp] theorem modFlow_bus : (s.modFlow d i f).bus = s.bus := rfl
@[simp] theorem modFlow_txn : (s.modFlow d i f).txn = s.txn := rfl
@[simp] theorem modFlow_image : (s.modFlow d i f).image = s.image := rfl
@[simp] theorem modFlow_load : (s.modFlow d i f).load = s.load := rfl
@[simp] theorem modFlow_units : (s.modFlow d i f).units = s.units := rfl
@[simp] theorem modFlow_blkRst : (s.modFlow d i f).blkRst = s.blkRst := rfl
@[simp] theorem modFlow_cnv : (s.modFlow d i f).cnv = s.cnv := rfl
@[simp] theorem modFlow_coef : (s.modFlow d i f).coef = s.coef := rfl
@[simp] theorem modFlow_calRej : (s.modFlow d i f).calRej = s.calRej := rfl
@[simp] theorem modFlow_calRun : (s.modFlow d i f).calRun = s.calRun := rfl
@[simp] theorem modFlow_calWin : (s.modFlow d i f).calWin = s.calWin := rfl
@[simp] theorem modFlow_rxArms : (s.modFlow d i f).rxArms = s.rxArms := rfl
@[simp] theorem modFlow_groups : (s.modFlow d i f).groups = s.groups := rfl
@[simp] theorem modFlow_rxDies : (s.modFlow d i f).rxDies = s.rxDies := rfl
@[simp] theorem modFlow_seams : (s.modFlow d i f).seams = s.seams := rfl
@[simp] theorem modFlow_txDies : (s.modFlow d i f).txDies = s.txDies := rfl
@[simp] theorem modFlow_txArms : (s.modFlow d i f).txArms = s.txArms := rfl
@[simp] theorem modFlow_lut : (s.modFlow d i f).lut = s.lut := rfl
@[simp] theorem modFlow_fec : (s.modFlow d i f).fec = s.fec := rfl
@[simp] theorem modFlow_streams : (s.modFlow d i f).streams = s.streams := rfl
@[simp] theorem modFlow_frm : (s.modFlow d i f).frm = s.frm := rfl
@[simp] theorem modFlow_keyJobs : (s.modFlow d i f).keyJobs = s.keyJobs := rfl
@[simp] theorem modFlow_crc : (s.modFlow d i f).crc = s.crc := rfl
@[simp] theorem modFlow_lanes : (s.modFlow d i f).lanes = s.lanes := rfl
@[simp] theorem modFlow_grps : (s.modFlow d i f).grps = s.grps := rfl
@[simp] theorem modFlow_stamps : (s.modFlow d i f).stamps = s.stamps := rfl
@[simp] theorem modFlow_wordErr : (s.modFlow d i f).wordErr = s.wordErr := rfl
@[simp] theorem modFlow_banks : (s.modFlow d i f).banks = s.banks := rfl
@[simp] theorem modFlow_tcms : (s.modFlow d i f).tcms = s.tcms := rfl
@[simp] theorem modFlow_engs : (s.modFlow d i f).engs = s.engs := rfl
@[simp] theorem modFlow_dma : (s.modFlow d i f).dma = s.dma := rfl
@[simp] theorem modFlow_memSts : (s.modFlow d i f).memSts = s.memSts := rfl
@[simp] theorem modFlow_pwr : (s.modFlow d i f).pwr = s.pwr := rfl
@[simp] theorem modFlow_mgr : (s.modFlow d i f).mgr = s.mgr := rfl
@[simp] theorem modFlow_flowPwr : (s.modFlow d i f).flowPwr = s.flowPwr := rfl
@[simp] theorem modFlow_tim : (s.modFlow d i f).tim = s.tim := rfl
@[simp] theorem modFlow_refs : (s.modFlow d i f).refs = s.refs := rfl
@[simp] theorem modFlow_seqs : (s.modFlow d i f).seqs = s.seqs := rfl
@[simp] theorem modFlow_wch : (s.modFlow d i f).wch = s.wch := rfl
@[simp] theorem modFlow_plm : (s.modFlow d i f).plm = s.plm := rfl
@[simp] theorem modFlow_teams : (s.modFlow d i f).teams = s.teams := rfl
@[simp] theorem modFlow_cairn : (s.modFlow d i f).cairn = s.cairn := rfl
@[simp] theorem modFlow_retries : (s.modFlow d i f).retries = s.retries := rfl
@[simp] theorem modFlow_pins : (s.modFlow d i f).pins = s.pins := rfl
@[simp] theorem modFlow_taps : (s.modFlow d i f).taps = s.taps := rfl
@[simp] theorem modFlow_out : (s.modFlow d i f).out = s.out := rfl
@[simp] theorem modFlow_fresh : (s.modFlow d i f).fresh = s.fresh := rfl
@[simp] theorem modFlow_pending : (s.modFlow d i f).pending = s.pending := rfl
@[simp] theorem modFlow_rd (g : Fld) (e j : Nat) : (s.modFlow d i f).rd g e j = s.rd g e j := rfl
end

section
variable (d i : Nat) (f : CrcSt → CrcSt)
@[simp] theorem modCrc_part : (s.modCrc d i f).part = s.part := rfl
@[simp] theorem modCrc_regs : (s.modCrc d i f).regs = s.regs := rfl
@[simp] theorem modCrc_staged : (s.modCrc d i f).staged = s.staged := rfl
@[simp] theorem modCrc_pend : (s.modCrc d i f).pend = s.pend := rfl
@[simp] theorem modCrc_shadow : (s.modCrc d i f).shadow = s.shadow := rfl
@[simp] theorem modCrc_mem : (s.modCrc d i f).mem = s.mem := rfl
@[simp] theorem modCrc_flash : (s.modCrc d i f).flash = s.flash := rfl
@[simp] theorem modCrc_otp : (s.modCrc d i f).otp = s.otp := rfl
@[simp] theorem modCrc_dieId : (s.modCrc d i f).dieId = s.dieId := rfl
@[simp] theorem modCrc_time : (s.modCrc d i f).time = s.time := rfl
@[simp] theorem modCrc_dies : (s.modCrc d i f).dies = s.dies := rfl
@[simp] theorem modCrc_crown : (s.modCrc d i f).crown = s.crown := rfl
@[simp] theorem modCrc_bus : (s.modCrc d i f).bus = s.bus := rfl
@[simp] theorem modCrc_txn : (s.modCrc d i f).txn = s.txn := rfl
@[simp] theorem modCrc_image : (s.modCrc d i f).image = s.image := rfl
@[simp] theorem modCrc_load : (s.modCrc d i f).load = s.load := rfl
@[simp] theorem modCrc_units : (s.modCrc d i f).units = s.units := rfl
@[simp] theorem modCrc_blkRst : (s.modCrc d i f).blkRst = s.blkRst := rfl
@[simp] theorem modCrc_cnv : (s.modCrc d i f).cnv = s.cnv := rfl
@[simp] theorem modCrc_coef : (s.modCrc d i f).coef = s.coef := rfl
@[simp] theorem modCrc_calRej : (s.modCrc d i f).calRej = s.calRej := rfl
@[simp] theorem modCrc_calRun : (s.modCrc d i f).calRun = s.calRun := rfl
@[simp] theorem modCrc_calWin : (s.modCrc d i f).calWin = s.calWin := rfl
@[simp] theorem modCrc_rxArms : (s.modCrc d i f).rxArms = s.rxArms := rfl
@[simp] theorem modCrc_groups : (s.modCrc d i f).groups = s.groups := rfl
@[simp] theorem modCrc_rxDies : (s.modCrc d i f).rxDies = s.rxDies := rfl
@[simp] theorem modCrc_seams : (s.modCrc d i f).seams = s.seams := rfl
@[simp] theorem modCrc_txDies : (s.modCrc d i f).txDies = s.txDies := rfl
@[simp] theorem modCrc_txArms : (s.modCrc d i f).txArms = s.txArms := rfl
@[simp] theorem modCrc_lut : (s.modCrc d i f).lut = s.lut := rfl
@[simp] theorem modCrc_fec : (s.modCrc d i f).fec = s.fec := rfl
@[simp] theorem modCrc_streams : (s.modCrc d i f).streams = s.streams := rfl
@[simp] theorem modCrc_frm : (s.modCrc d i f).frm = s.frm := rfl
@[simp] theorem modCrc_flows : (s.modCrc d i f).flows = s.flows := rfl
@[simp] theorem modCrc_keyJobs : (s.modCrc d i f).keyJobs = s.keyJobs := rfl
@[simp] theorem modCrc_lanes : (s.modCrc d i f).lanes = s.lanes := rfl
@[simp] theorem modCrc_grps : (s.modCrc d i f).grps = s.grps := rfl
@[simp] theorem modCrc_stamps : (s.modCrc d i f).stamps = s.stamps := rfl
@[simp] theorem modCrc_wordErr : (s.modCrc d i f).wordErr = s.wordErr := rfl
@[simp] theorem modCrc_banks : (s.modCrc d i f).banks = s.banks := rfl
@[simp] theorem modCrc_tcms : (s.modCrc d i f).tcms = s.tcms := rfl
@[simp] theorem modCrc_engs : (s.modCrc d i f).engs = s.engs := rfl
@[simp] theorem modCrc_dma : (s.modCrc d i f).dma = s.dma := rfl
@[simp] theorem modCrc_memSts : (s.modCrc d i f).memSts = s.memSts := rfl
@[simp] theorem modCrc_pwr : (s.modCrc d i f).pwr = s.pwr := rfl
@[simp] theorem modCrc_mgr : (s.modCrc d i f).mgr = s.mgr := rfl
@[simp] theorem modCrc_flowPwr : (s.modCrc d i f).flowPwr = s.flowPwr := rfl
@[simp] theorem modCrc_tim : (s.modCrc d i f).tim = s.tim := rfl
@[simp] theorem modCrc_refs : (s.modCrc d i f).refs = s.refs := rfl
@[simp] theorem modCrc_seqs : (s.modCrc d i f).seqs = s.seqs := rfl
@[simp] theorem modCrc_wch : (s.modCrc d i f).wch = s.wch := rfl
@[simp] theorem modCrc_plm : (s.modCrc d i f).plm = s.plm := rfl
@[simp] theorem modCrc_teams : (s.modCrc d i f).teams = s.teams := rfl
@[simp] theorem modCrc_cairn : (s.modCrc d i f).cairn = s.cairn := rfl
@[simp] theorem modCrc_retries : (s.modCrc d i f).retries = s.retries := rfl
@[simp] theorem modCrc_pins : (s.modCrc d i f).pins = s.pins := rfl
@[simp] theorem modCrc_taps : (s.modCrc d i f).taps = s.taps := rfl
@[simp] theorem modCrc_out : (s.modCrc d i f).out = s.out := rfl
@[simp] theorem modCrc_fresh : (s.modCrc d i f).fresh = s.fresh := rfl
@[simp] theorem modCrc_pending : (s.modCrc d i f).pending = s.pending := rfl
@[simp] theorem modCrc_rd (g : Fld) (e j : Nat) : (s.modCrc d i f).rd g e j = s.rd g e j := rfl
end

section
variable (d i : Nat) (f : LaneSt → LaneSt)
@[simp] theorem modLane_part : (s.modLane d i f).part = s.part := rfl
@[simp] theorem modLane_regs : (s.modLane d i f).regs = s.regs := rfl
@[simp] theorem modLane_staged : (s.modLane d i f).staged = s.staged := rfl
@[simp] theorem modLane_pend : (s.modLane d i f).pend = s.pend := rfl
@[simp] theorem modLane_shadow : (s.modLane d i f).shadow = s.shadow := rfl
@[simp] theorem modLane_mem : (s.modLane d i f).mem = s.mem := rfl
@[simp] theorem modLane_flash : (s.modLane d i f).flash = s.flash := rfl
@[simp] theorem modLane_otp : (s.modLane d i f).otp = s.otp := rfl
@[simp] theorem modLane_dieId : (s.modLane d i f).dieId = s.dieId := rfl
@[simp] theorem modLane_time : (s.modLane d i f).time = s.time := rfl
@[simp] theorem modLane_dies : (s.modLane d i f).dies = s.dies := rfl
@[simp] theorem modLane_crown : (s.modLane d i f).crown = s.crown := rfl
@[simp] theorem modLane_bus : (s.modLane d i f).bus = s.bus := rfl
@[simp] theorem modLane_txn : (s.modLane d i f).txn = s.txn := rfl
@[simp] theorem modLane_image : (s.modLane d i f).image = s.image := rfl
@[simp] theorem modLane_load : (s.modLane d i f).load = s.load := rfl
@[simp] theorem modLane_units : (s.modLane d i f).units = s.units := rfl
@[simp] theorem modLane_blkRst : (s.modLane d i f).blkRst = s.blkRst := rfl
@[simp] theorem modLane_cnv : (s.modLane d i f).cnv = s.cnv := rfl
@[simp] theorem modLane_coef : (s.modLane d i f).coef = s.coef := rfl
@[simp] theorem modLane_calRej : (s.modLane d i f).calRej = s.calRej := rfl
@[simp] theorem modLane_calRun : (s.modLane d i f).calRun = s.calRun := rfl
@[simp] theorem modLane_calWin : (s.modLane d i f).calWin = s.calWin := rfl
@[simp] theorem modLane_rxArms : (s.modLane d i f).rxArms = s.rxArms := rfl
@[simp] theorem modLane_groups : (s.modLane d i f).groups = s.groups := rfl
@[simp] theorem modLane_rxDies : (s.modLane d i f).rxDies = s.rxDies := rfl
@[simp] theorem modLane_seams : (s.modLane d i f).seams = s.seams := rfl
@[simp] theorem modLane_txDies : (s.modLane d i f).txDies = s.txDies := rfl
@[simp] theorem modLane_txArms : (s.modLane d i f).txArms = s.txArms := rfl
@[simp] theorem modLane_lut : (s.modLane d i f).lut = s.lut := rfl
@[simp] theorem modLane_fec : (s.modLane d i f).fec = s.fec := rfl
@[simp] theorem modLane_streams : (s.modLane d i f).streams = s.streams := rfl
@[simp] theorem modLane_frm : (s.modLane d i f).frm = s.frm := rfl
@[simp] theorem modLane_flows : (s.modLane d i f).flows = s.flows := rfl
@[simp] theorem modLane_keyJobs : (s.modLane d i f).keyJobs = s.keyJobs := rfl
@[simp] theorem modLane_crc : (s.modLane d i f).crc = s.crc := rfl
@[simp] theorem modLane_grps : (s.modLane d i f).grps = s.grps := rfl
@[simp] theorem modLane_stamps : (s.modLane d i f).stamps = s.stamps := rfl
@[simp] theorem modLane_wordErr : (s.modLane d i f).wordErr = s.wordErr := rfl
@[simp] theorem modLane_banks : (s.modLane d i f).banks = s.banks := rfl
@[simp] theorem modLane_tcms : (s.modLane d i f).tcms = s.tcms := rfl
@[simp] theorem modLane_engs : (s.modLane d i f).engs = s.engs := rfl
@[simp] theorem modLane_dma : (s.modLane d i f).dma = s.dma := rfl
@[simp] theorem modLane_memSts : (s.modLane d i f).memSts = s.memSts := rfl
@[simp] theorem modLane_pwr : (s.modLane d i f).pwr = s.pwr := rfl
@[simp] theorem modLane_mgr : (s.modLane d i f).mgr = s.mgr := rfl
@[simp] theorem modLane_flowPwr : (s.modLane d i f).flowPwr = s.flowPwr := rfl
@[simp] theorem modLane_tim : (s.modLane d i f).tim = s.tim := rfl
@[simp] theorem modLane_refs : (s.modLane d i f).refs = s.refs := rfl
@[simp] theorem modLane_seqs : (s.modLane d i f).seqs = s.seqs := rfl
@[simp] theorem modLane_wch : (s.modLane d i f).wch = s.wch := rfl
@[simp] theorem modLane_plm : (s.modLane d i f).plm = s.plm := rfl
@[simp] theorem modLane_teams : (s.modLane d i f).teams = s.teams := rfl
@[simp] theorem modLane_cairn : (s.modLane d i f).cairn = s.cairn := rfl
@[simp] theorem modLane_retries : (s.modLane d i f).retries = s.retries := rfl
@[simp] theorem modLane_pins : (s.modLane d i f).pins = s.pins := rfl
@[simp] theorem modLane_taps : (s.modLane d i f).taps = s.taps := rfl
@[simp] theorem modLane_out : (s.modLane d i f).out = s.out := rfl
@[simp] theorem modLane_fresh : (s.modLane d i f).fresh = s.fresh := rfl
@[simp] theorem modLane_pending : (s.modLane d i f).pending = s.pending := rfl
@[simp] theorem modLane_rd (g : Fld) (e j : Nat) : (s.modLane d i f).rd g e j = s.rd g e j := rfl
end

section
variable (d i : Nat) (f : GrpSt → GrpSt)
@[simp] theorem modGrp_part : (s.modGrp d i f).part = s.part := rfl
@[simp] theorem modGrp_regs : (s.modGrp d i f).regs = s.regs := rfl
@[simp] theorem modGrp_staged : (s.modGrp d i f).staged = s.staged := rfl
@[simp] theorem modGrp_pend : (s.modGrp d i f).pend = s.pend := rfl
@[simp] theorem modGrp_shadow : (s.modGrp d i f).shadow = s.shadow := rfl
@[simp] theorem modGrp_mem : (s.modGrp d i f).mem = s.mem := rfl
@[simp] theorem modGrp_flash : (s.modGrp d i f).flash = s.flash := rfl
@[simp] theorem modGrp_otp : (s.modGrp d i f).otp = s.otp := rfl
@[simp] theorem modGrp_dieId : (s.modGrp d i f).dieId = s.dieId := rfl
@[simp] theorem modGrp_time : (s.modGrp d i f).time = s.time := rfl
@[simp] theorem modGrp_dies : (s.modGrp d i f).dies = s.dies := rfl
@[simp] theorem modGrp_crown : (s.modGrp d i f).crown = s.crown := rfl
@[simp] theorem modGrp_bus : (s.modGrp d i f).bus = s.bus := rfl
@[simp] theorem modGrp_txn : (s.modGrp d i f).txn = s.txn := rfl
@[simp] theorem modGrp_image : (s.modGrp d i f).image = s.image := rfl
@[simp] theorem modGrp_load : (s.modGrp d i f).load = s.load := rfl
@[simp] theorem modGrp_units : (s.modGrp d i f).units = s.units := rfl
@[simp] theorem modGrp_blkRst : (s.modGrp d i f).blkRst = s.blkRst := rfl
@[simp] theorem modGrp_cnv : (s.modGrp d i f).cnv = s.cnv := rfl
@[simp] theorem modGrp_coef : (s.modGrp d i f).coef = s.coef := rfl
@[simp] theorem modGrp_calRej : (s.modGrp d i f).calRej = s.calRej := rfl
@[simp] theorem modGrp_calRun : (s.modGrp d i f).calRun = s.calRun := rfl
@[simp] theorem modGrp_calWin : (s.modGrp d i f).calWin = s.calWin := rfl
@[simp] theorem modGrp_rxArms : (s.modGrp d i f).rxArms = s.rxArms := rfl
@[simp] theorem modGrp_groups : (s.modGrp d i f).groups = s.groups := rfl
@[simp] theorem modGrp_rxDies : (s.modGrp d i f).rxDies = s.rxDies := rfl
@[simp] theorem modGrp_seams : (s.modGrp d i f).seams = s.seams := rfl
@[simp] theorem modGrp_txDies : (s.modGrp d i f).txDies = s.txDies := rfl
@[simp] theorem modGrp_txArms : (s.modGrp d i f).txArms = s.txArms := rfl
@[simp] theorem modGrp_lut : (s.modGrp d i f).lut = s.lut := rfl
@[simp] theorem modGrp_fec : (s.modGrp d i f).fec = s.fec := rfl
@[simp] theorem modGrp_streams : (s.modGrp d i f).streams = s.streams := rfl
@[simp] theorem modGrp_frm : (s.modGrp d i f).frm = s.frm := rfl
@[simp] theorem modGrp_flows : (s.modGrp d i f).flows = s.flows := rfl
@[simp] theorem modGrp_keyJobs : (s.modGrp d i f).keyJobs = s.keyJobs := rfl
@[simp] theorem modGrp_crc : (s.modGrp d i f).crc = s.crc := rfl
@[simp] theorem modGrp_lanes : (s.modGrp d i f).lanes = s.lanes := rfl
@[simp] theorem modGrp_stamps : (s.modGrp d i f).stamps = s.stamps := rfl
@[simp] theorem modGrp_wordErr : (s.modGrp d i f).wordErr = s.wordErr := rfl
@[simp] theorem modGrp_banks : (s.modGrp d i f).banks = s.banks := rfl
@[simp] theorem modGrp_tcms : (s.modGrp d i f).tcms = s.tcms := rfl
@[simp] theorem modGrp_engs : (s.modGrp d i f).engs = s.engs := rfl
@[simp] theorem modGrp_dma : (s.modGrp d i f).dma = s.dma := rfl
@[simp] theorem modGrp_memSts : (s.modGrp d i f).memSts = s.memSts := rfl
@[simp] theorem modGrp_pwr : (s.modGrp d i f).pwr = s.pwr := rfl
@[simp] theorem modGrp_mgr : (s.modGrp d i f).mgr = s.mgr := rfl
@[simp] theorem modGrp_flowPwr : (s.modGrp d i f).flowPwr = s.flowPwr := rfl
@[simp] theorem modGrp_tim : (s.modGrp d i f).tim = s.tim := rfl
@[simp] theorem modGrp_refs : (s.modGrp d i f).refs = s.refs := rfl
@[simp] theorem modGrp_seqs : (s.modGrp d i f).seqs = s.seqs := rfl
@[simp] theorem modGrp_wch : (s.modGrp d i f).wch = s.wch := rfl
@[simp] theorem modGrp_plm : (s.modGrp d i f).plm = s.plm := rfl
@[simp] theorem modGrp_teams : (s.modGrp d i f).teams = s.teams := rfl
@[simp] theorem modGrp_cairn : (s.modGrp d i f).cairn = s.cairn := rfl
@[simp] theorem modGrp_retries : (s.modGrp d i f).retries = s.retries := rfl
@[simp] theorem modGrp_pins : (s.modGrp d i f).pins = s.pins := rfl
@[simp] theorem modGrp_taps : (s.modGrp d i f).taps = s.taps := rfl
@[simp] theorem modGrp_out : (s.modGrp d i f).out = s.out := rfl
@[simp] theorem modGrp_fresh : (s.modGrp d i f).fresh = s.fresh := rfl
@[simp] theorem modGrp_pending : (s.modGrp d i f).pending = s.pending := rfl
@[simp] theorem modGrp_rd (g : Fld) (e j : Nat) : (s.modGrp d i f).rd g e j = s.rd g e j := rfl
end

section
variable (d i : Nat) (f : BankSt → BankSt)
@[simp] theorem modBank_part : (s.modBank d i f).part = s.part := rfl
@[simp] theorem modBank_regs : (s.modBank d i f).regs = s.regs := rfl
@[simp] theorem modBank_staged : (s.modBank d i f).staged = s.staged := rfl
@[simp] theorem modBank_pend : (s.modBank d i f).pend = s.pend := rfl
@[simp] theorem modBank_shadow : (s.modBank d i f).shadow = s.shadow := rfl
@[simp] theorem modBank_mem : (s.modBank d i f).mem = s.mem := rfl
@[simp] theorem modBank_flash : (s.modBank d i f).flash = s.flash := rfl
@[simp] theorem modBank_otp : (s.modBank d i f).otp = s.otp := rfl
@[simp] theorem modBank_dieId : (s.modBank d i f).dieId = s.dieId := rfl
@[simp] theorem modBank_time : (s.modBank d i f).time = s.time := rfl
@[simp] theorem modBank_dies : (s.modBank d i f).dies = s.dies := rfl
@[simp] theorem modBank_crown : (s.modBank d i f).crown = s.crown := rfl
@[simp] theorem modBank_bus : (s.modBank d i f).bus = s.bus := rfl
@[simp] theorem modBank_txn : (s.modBank d i f).txn = s.txn := rfl
@[simp] theorem modBank_image : (s.modBank d i f).image = s.image := rfl
@[simp] theorem modBank_load : (s.modBank d i f).load = s.load := rfl
@[simp] theorem modBank_units : (s.modBank d i f).units = s.units := rfl
@[simp] theorem modBank_blkRst : (s.modBank d i f).blkRst = s.blkRst := rfl
@[simp] theorem modBank_cnv : (s.modBank d i f).cnv = s.cnv := rfl
@[simp] theorem modBank_coef : (s.modBank d i f).coef = s.coef := rfl
@[simp] theorem modBank_calRej : (s.modBank d i f).calRej = s.calRej := rfl
@[simp] theorem modBank_calRun : (s.modBank d i f).calRun = s.calRun := rfl
@[simp] theorem modBank_calWin : (s.modBank d i f).calWin = s.calWin := rfl
@[simp] theorem modBank_rxArms : (s.modBank d i f).rxArms = s.rxArms := rfl
@[simp] theorem modBank_groups : (s.modBank d i f).groups = s.groups := rfl
@[simp] theorem modBank_rxDies : (s.modBank d i f).rxDies = s.rxDies := rfl
@[simp] theorem modBank_seams : (s.modBank d i f).seams = s.seams := rfl
@[simp] theorem modBank_txDies : (s.modBank d i f).txDies = s.txDies := rfl
@[simp] theorem modBank_txArms : (s.modBank d i f).txArms = s.txArms := rfl
@[simp] theorem modBank_lut : (s.modBank d i f).lut = s.lut := rfl
@[simp] theorem modBank_fec : (s.modBank d i f).fec = s.fec := rfl
@[simp] theorem modBank_streams : (s.modBank d i f).streams = s.streams := rfl
@[simp] theorem modBank_frm : (s.modBank d i f).frm = s.frm := rfl
@[simp] theorem modBank_flows : (s.modBank d i f).flows = s.flows := rfl
@[simp] theorem modBank_keyJobs : (s.modBank d i f).keyJobs = s.keyJobs := rfl
@[simp] theorem modBank_crc : (s.modBank d i f).crc = s.crc := rfl
@[simp] theorem modBank_lanes : (s.modBank d i f).lanes = s.lanes := rfl
@[simp] theorem modBank_grps : (s.modBank d i f).grps = s.grps := rfl
@[simp] theorem modBank_stamps : (s.modBank d i f).stamps = s.stamps := rfl
@[simp] theorem modBank_wordErr : (s.modBank d i f).wordErr = s.wordErr := rfl
@[simp] theorem modBank_tcms : (s.modBank d i f).tcms = s.tcms := rfl
@[simp] theorem modBank_engs : (s.modBank d i f).engs = s.engs := rfl
@[simp] theorem modBank_dma : (s.modBank d i f).dma = s.dma := rfl
@[simp] theorem modBank_memSts : (s.modBank d i f).memSts = s.memSts := rfl
@[simp] theorem modBank_pwr : (s.modBank d i f).pwr = s.pwr := rfl
@[simp] theorem modBank_mgr : (s.modBank d i f).mgr = s.mgr := rfl
@[simp] theorem modBank_flowPwr : (s.modBank d i f).flowPwr = s.flowPwr := rfl
@[simp] theorem modBank_tim : (s.modBank d i f).tim = s.tim := rfl
@[simp] theorem modBank_refs : (s.modBank d i f).refs = s.refs := rfl
@[simp] theorem modBank_seqs : (s.modBank d i f).seqs = s.seqs := rfl
@[simp] theorem modBank_wch : (s.modBank d i f).wch = s.wch := rfl
@[simp] theorem modBank_plm : (s.modBank d i f).plm = s.plm := rfl
@[simp] theorem modBank_teams : (s.modBank d i f).teams = s.teams := rfl
@[simp] theorem modBank_cairn : (s.modBank d i f).cairn = s.cairn := rfl
@[simp] theorem modBank_retries : (s.modBank d i f).retries = s.retries := rfl
@[simp] theorem modBank_pins : (s.modBank d i f).pins = s.pins := rfl
@[simp] theorem modBank_taps : (s.modBank d i f).taps = s.taps := rfl
@[simp] theorem modBank_out : (s.modBank d i f).out = s.out := rfl
@[simp] theorem modBank_fresh : (s.modBank d i f).fresh = s.fresh := rfl
@[simp] theorem modBank_pending : (s.modBank d i f).pending = s.pending := rfl
@[simp] theorem modBank_rd (g : Fld) (e j : Nat) : (s.modBank d i f).rd g e j = s.rd g e j := rfl
end

section
variable (d i : Nat) (f : TcmSt → TcmSt)
@[simp] theorem modTcm_part : (s.modTcm d i f).part = s.part := rfl
@[simp] theorem modTcm_regs : (s.modTcm d i f).regs = s.regs := rfl
@[simp] theorem modTcm_staged : (s.modTcm d i f).staged = s.staged := rfl
@[simp] theorem modTcm_pend : (s.modTcm d i f).pend = s.pend := rfl
@[simp] theorem modTcm_shadow : (s.modTcm d i f).shadow = s.shadow := rfl
@[simp] theorem modTcm_mem : (s.modTcm d i f).mem = s.mem := rfl
@[simp] theorem modTcm_flash : (s.modTcm d i f).flash = s.flash := rfl
@[simp] theorem modTcm_otp : (s.modTcm d i f).otp = s.otp := rfl
@[simp] theorem modTcm_dieId : (s.modTcm d i f).dieId = s.dieId := rfl
@[simp] theorem modTcm_time : (s.modTcm d i f).time = s.time := rfl
@[simp] theorem modTcm_dies : (s.modTcm d i f).dies = s.dies := rfl
@[simp] theorem modTcm_crown : (s.modTcm d i f).crown = s.crown := rfl
@[simp] theorem modTcm_bus : (s.modTcm d i f).bus = s.bus := rfl
@[simp] theorem modTcm_txn : (s.modTcm d i f).txn = s.txn := rfl
@[simp] theorem modTcm_image : (s.modTcm d i f).image = s.image := rfl
@[simp] theorem modTcm_load : (s.modTcm d i f).load = s.load := rfl
@[simp] theorem modTcm_units : (s.modTcm d i f).units = s.units := rfl
@[simp] theorem modTcm_blkRst : (s.modTcm d i f).blkRst = s.blkRst := rfl
@[simp] theorem modTcm_cnv : (s.modTcm d i f).cnv = s.cnv := rfl
@[simp] theorem modTcm_coef : (s.modTcm d i f).coef = s.coef := rfl
@[simp] theorem modTcm_calRej : (s.modTcm d i f).calRej = s.calRej := rfl
@[simp] theorem modTcm_calRun : (s.modTcm d i f).calRun = s.calRun := rfl
@[simp] theorem modTcm_calWin : (s.modTcm d i f).calWin = s.calWin := rfl
@[simp] theorem modTcm_rxArms : (s.modTcm d i f).rxArms = s.rxArms := rfl
@[simp] theorem modTcm_groups : (s.modTcm d i f).groups = s.groups := rfl
@[simp] theorem modTcm_rxDies : (s.modTcm d i f).rxDies = s.rxDies := rfl
@[simp] theorem modTcm_seams : (s.modTcm d i f).seams = s.seams := rfl
@[simp] theorem modTcm_txDies : (s.modTcm d i f).txDies = s.txDies := rfl
@[simp] theorem modTcm_txArms : (s.modTcm d i f).txArms = s.txArms := rfl
@[simp] theorem modTcm_lut : (s.modTcm d i f).lut = s.lut := rfl
@[simp] theorem modTcm_fec : (s.modTcm d i f).fec = s.fec := rfl
@[simp] theorem modTcm_streams : (s.modTcm d i f).streams = s.streams := rfl
@[simp] theorem modTcm_frm : (s.modTcm d i f).frm = s.frm := rfl
@[simp] theorem modTcm_flows : (s.modTcm d i f).flows = s.flows := rfl
@[simp] theorem modTcm_keyJobs : (s.modTcm d i f).keyJobs = s.keyJobs := rfl
@[simp] theorem modTcm_crc : (s.modTcm d i f).crc = s.crc := rfl
@[simp] theorem modTcm_lanes : (s.modTcm d i f).lanes = s.lanes := rfl
@[simp] theorem modTcm_grps : (s.modTcm d i f).grps = s.grps := rfl
@[simp] theorem modTcm_stamps : (s.modTcm d i f).stamps = s.stamps := rfl
@[simp] theorem modTcm_wordErr : (s.modTcm d i f).wordErr = s.wordErr := rfl
@[simp] theorem modTcm_banks : (s.modTcm d i f).banks = s.banks := rfl
@[simp] theorem modTcm_engs : (s.modTcm d i f).engs = s.engs := rfl
@[simp] theorem modTcm_dma : (s.modTcm d i f).dma = s.dma := rfl
@[simp] theorem modTcm_memSts : (s.modTcm d i f).memSts = s.memSts := rfl
@[simp] theorem modTcm_pwr : (s.modTcm d i f).pwr = s.pwr := rfl
@[simp] theorem modTcm_mgr : (s.modTcm d i f).mgr = s.mgr := rfl
@[simp] theorem modTcm_flowPwr : (s.modTcm d i f).flowPwr = s.flowPwr := rfl
@[simp] theorem modTcm_tim : (s.modTcm d i f).tim = s.tim := rfl
@[simp] theorem modTcm_refs : (s.modTcm d i f).refs = s.refs := rfl
@[simp] theorem modTcm_seqs : (s.modTcm d i f).seqs = s.seqs := rfl
@[simp] theorem modTcm_wch : (s.modTcm d i f).wch = s.wch := rfl
@[simp] theorem modTcm_plm : (s.modTcm d i f).plm = s.plm := rfl
@[simp] theorem modTcm_teams : (s.modTcm d i f).teams = s.teams := rfl
@[simp] theorem modTcm_cairn : (s.modTcm d i f).cairn = s.cairn := rfl
@[simp] theorem modTcm_retries : (s.modTcm d i f).retries = s.retries := rfl
@[simp] theorem modTcm_pins : (s.modTcm d i f).pins = s.pins := rfl
@[simp] theorem modTcm_taps : (s.modTcm d i f).taps = s.taps := rfl
@[simp] theorem modTcm_out : (s.modTcm d i f).out = s.out := rfl
@[simp] theorem modTcm_fresh : (s.modTcm d i f).fresh = s.fresh := rfl
@[simp] theorem modTcm_pending : (s.modTcm d i f).pending = s.pending := rfl
@[simp] theorem modTcm_rd (g : Fld) (e j : Nat) : (s.modTcm d i f).rd g e j = s.rd g e j := rfl
end

section
variable (d : Nat) (f : MemSt → MemSt)
@[simp] theorem modMem_part : (s.modMem d f).part = s.part := rfl
@[simp] theorem modMem_regs : (s.modMem d f).regs = s.regs := rfl
@[simp] theorem modMem_staged : (s.modMem d f).staged = s.staged := rfl
@[simp] theorem modMem_pend : (s.modMem d f).pend = s.pend := rfl
@[simp] theorem modMem_shadow : (s.modMem d f).shadow = s.shadow := rfl
@[simp] theorem modMem_mem : (s.modMem d f).mem = s.mem := rfl
@[simp] theorem modMem_flash : (s.modMem d f).flash = s.flash := rfl
@[simp] theorem modMem_otp : (s.modMem d f).otp = s.otp := rfl
@[simp] theorem modMem_dieId : (s.modMem d f).dieId = s.dieId := rfl
@[simp] theorem modMem_time : (s.modMem d f).time = s.time := rfl
@[simp] theorem modMem_dies : (s.modMem d f).dies = s.dies := rfl
@[simp] theorem modMem_crown : (s.modMem d f).crown = s.crown := rfl
@[simp] theorem modMem_bus : (s.modMem d f).bus = s.bus := rfl
@[simp] theorem modMem_txn : (s.modMem d f).txn = s.txn := rfl
@[simp] theorem modMem_image : (s.modMem d f).image = s.image := rfl
@[simp] theorem modMem_load : (s.modMem d f).load = s.load := rfl
@[simp] theorem modMem_units : (s.modMem d f).units = s.units := rfl
@[simp] theorem modMem_blkRst : (s.modMem d f).blkRst = s.blkRst := rfl
@[simp] theorem modMem_cnv : (s.modMem d f).cnv = s.cnv := rfl
@[simp] theorem modMem_coef : (s.modMem d f).coef = s.coef := rfl
@[simp] theorem modMem_calRej : (s.modMem d f).calRej = s.calRej := rfl
@[simp] theorem modMem_calRun : (s.modMem d f).calRun = s.calRun := rfl
@[simp] theorem modMem_calWin : (s.modMem d f).calWin = s.calWin := rfl
@[simp] theorem modMem_rxArms : (s.modMem d f).rxArms = s.rxArms := rfl
@[simp] theorem modMem_groups : (s.modMem d f).groups = s.groups := rfl
@[simp] theorem modMem_rxDies : (s.modMem d f).rxDies = s.rxDies := rfl
@[simp] theorem modMem_seams : (s.modMem d f).seams = s.seams := rfl
@[simp] theorem modMem_txDies : (s.modMem d f).txDies = s.txDies := rfl
@[simp] theorem modMem_txArms : (s.modMem d f).txArms = s.txArms := rfl
@[simp] theorem modMem_lut : (s.modMem d f).lut = s.lut := rfl
@[simp] theorem modMem_fec : (s.modMem d f).fec = s.fec := rfl
@[simp] theorem modMem_streams : (s.modMem d f).streams = s.streams := rfl
@[simp] theorem modMem_frm : (s.modMem d f).frm = s.frm := rfl
@[simp] theorem modMem_flows : (s.modMem d f).flows = s.flows := rfl
@[simp] theorem modMem_keyJobs : (s.modMem d f).keyJobs = s.keyJobs := rfl
@[simp] theorem modMem_crc : (s.modMem d f).crc = s.crc := rfl
@[simp] theorem modMem_lanes : (s.modMem d f).lanes = s.lanes := rfl
@[simp] theorem modMem_grps : (s.modMem d f).grps = s.grps := rfl
@[simp] theorem modMem_stamps : (s.modMem d f).stamps = s.stamps := rfl
@[simp] theorem modMem_wordErr : (s.modMem d f).wordErr = s.wordErr := rfl
@[simp] theorem modMem_banks : (s.modMem d f).banks = s.banks := rfl
@[simp] theorem modMem_tcms : (s.modMem d f).tcms = s.tcms := rfl
@[simp] theorem modMem_engs : (s.modMem d f).engs = s.engs := rfl
@[simp] theorem modMem_dma : (s.modMem d f).dma = s.dma := rfl
@[simp] theorem modMem_pwr : (s.modMem d f).pwr = s.pwr := rfl
@[simp] theorem modMem_mgr : (s.modMem d f).mgr = s.mgr := rfl
@[simp] theorem modMem_flowPwr : (s.modMem d f).flowPwr = s.flowPwr := rfl
@[simp] theorem modMem_tim : (s.modMem d f).tim = s.tim := rfl
@[simp] theorem modMem_refs : (s.modMem d f).refs = s.refs := rfl
@[simp] theorem modMem_seqs : (s.modMem d f).seqs = s.seqs := rfl
@[simp] theorem modMem_wch : (s.modMem d f).wch = s.wch := rfl
@[simp] theorem modMem_plm : (s.modMem d f).plm = s.plm := rfl
@[simp] theorem modMem_teams : (s.modMem d f).teams = s.teams := rfl
@[simp] theorem modMem_cairn : (s.modMem d f).cairn = s.cairn := rfl
@[simp] theorem modMem_retries : (s.modMem d f).retries = s.retries := rfl
@[simp] theorem modMem_pins : (s.modMem d f).pins = s.pins := rfl
@[simp] theorem modMem_taps : (s.modMem d f).taps = s.taps := rfl
@[simp] theorem modMem_out : (s.modMem d f).out = s.out := rfl
@[simp] theorem modMem_fresh : (s.modMem d f).fresh = s.fresh := rfl
@[simp] theorem modMem_pending : (s.modMem d f).pending = s.pending := rfl
@[simp] theorem modMem_rd (g : Fld) (e j : Nat) : (s.modMem d f).rd g e j = s.rd g e j := rfl
end

section
variable (d : Nat) (f : PwrSt → PwrSt)
@[simp] theorem modPwr_part : (s.modPwr d f).part = s.part := rfl
@[simp] theorem modPwr_regs : (s.modPwr d f).regs = s.regs := rfl
@[simp] theorem modPwr_staged : (s.modPwr d f).staged = s.staged := rfl
@[simp] theorem modPwr_pend : (s.modPwr d f).pend = s.pend := rfl
@[simp] theorem modPwr_shadow : (s.modPwr d f).shadow = s.shadow := rfl
@[simp] theorem modPwr_mem : (s.modPwr d f).mem = s.mem := rfl
@[simp] theorem modPwr_flash : (s.modPwr d f).flash = s.flash := rfl
@[simp] theorem modPwr_otp : (s.modPwr d f).otp = s.otp := rfl
@[simp] theorem modPwr_dieId : (s.modPwr d f).dieId = s.dieId := rfl
@[simp] theorem modPwr_time : (s.modPwr d f).time = s.time := rfl
@[simp] theorem modPwr_dies : (s.modPwr d f).dies = s.dies := rfl
@[simp] theorem modPwr_crown : (s.modPwr d f).crown = s.crown := rfl
@[simp] theorem modPwr_bus : (s.modPwr d f).bus = s.bus := rfl
@[simp] theorem modPwr_txn : (s.modPwr d f).txn = s.txn := rfl
@[simp] theorem modPwr_image : (s.modPwr d f).image = s.image := rfl
@[simp] theorem modPwr_load : (s.modPwr d f).load = s.load := rfl
@[simp] theorem modPwr_units : (s.modPwr d f).units = s.units := rfl
@[simp] theorem modPwr_blkRst : (s.modPwr d f).blkRst = s.blkRst := rfl
@[simp] theorem modPwr_cnv : (s.modPwr d f).cnv = s.cnv := rfl
@[simp] theorem modPwr_coef : (s.modPwr d f).coef = s.coef := rfl
@[simp] theorem modPwr_calRej : (s.modPwr d f).calRej = s.calRej := rfl
@[simp] theorem modPwr_calRun : (s.modPwr d f).calRun = s.calRun := rfl
@[simp] theorem modPwr_calWin : (s.modPwr d f).calWin = s.calWin := rfl
@[simp] theorem modPwr_rxArms : (s.modPwr d f).rxArms = s.rxArms := rfl
@[simp] theorem modPwr_groups : (s.modPwr d f).groups = s.groups := rfl
@[simp] theorem modPwr_rxDies : (s.modPwr d f).rxDies = s.rxDies := rfl
@[simp] theorem modPwr_seams : (s.modPwr d f).seams = s.seams := rfl
@[simp] theorem modPwr_txDies : (s.modPwr d f).txDies = s.txDies := rfl
@[simp] theorem modPwr_txArms : (s.modPwr d f).txArms = s.txArms := rfl
@[simp] theorem modPwr_lut : (s.modPwr d f).lut = s.lut := rfl
@[simp] theorem modPwr_fec : (s.modPwr d f).fec = s.fec := rfl
@[simp] theorem modPwr_streams : (s.modPwr d f).streams = s.streams := rfl
@[simp] theorem modPwr_frm : (s.modPwr d f).frm = s.frm := rfl
@[simp] theorem modPwr_flows : (s.modPwr d f).flows = s.flows := rfl
@[simp] theorem modPwr_keyJobs : (s.modPwr d f).keyJobs = s.keyJobs := rfl
@[simp] theorem modPwr_crc : (s.modPwr d f).crc = s.crc := rfl
@[simp] theorem modPwr_lanes : (s.modPwr d f).lanes = s.lanes := rfl
@[simp] theorem modPwr_grps : (s.modPwr d f).grps = s.grps := rfl
@[simp] theorem modPwr_stamps : (s.modPwr d f).stamps = s.stamps := rfl
@[simp] theorem modPwr_wordErr : (s.modPwr d f).wordErr = s.wordErr := rfl
@[simp] theorem modPwr_banks : (s.modPwr d f).banks = s.banks := rfl
@[simp] theorem modPwr_tcms : (s.modPwr d f).tcms = s.tcms := rfl
@[simp] theorem modPwr_engs : (s.modPwr d f).engs = s.engs := rfl
@[simp] theorem modPwr_dma : (s.modPwr d f).dma = s.dma := rfl
@[simp] theorem modPwr_memSts : (s.modPwr d f).memSts = s.memSts := rfl
@[simp] theorem modPwr_mgr : (s.modPwr d f).mgr = s.mgr := rfl
@[simp] theorem modPwr_flowPwr : (s.modPwr d f).flowPwr = s.flowPwr := rfl
@[simp] theorem modPwr_tim : (s.modPwr d f).tim = s.tim := rfl
@[simp] theorem modPwr_refs : (s.modPwr d f).refs = s.refs := rfl
@[simp] theorem modPwr_seqs : (s.modPwr d f).seqs = s.seqs := rfl
@[simp] theorem modPwr_wch : (s.modPwr d f).wch = s.wch := rfl
@[simp] theorem modPwr_plm : (s.modPwr d f).plm = s.plm := rfl
@[simp] theorem modPwr_teams : (s.modPwr d f).teams = s.teams := rfl
@[simp] theorem modPwr_cairn : (s.modPwr d f).cairn = s.cairn := rfl
@[simp] theorem modPwr_retries : (s.modPwr d f).retries = s.retries := rfl
@[simp] theorem modPwr_pins : (s.modPwr d f).pins = s.pins := rfl
@[simp] theorem modPwr_taps : (s.modPwr d f).taps = s.taps := rfl
@[simp] theorem modPwr_out : (s.modPwr d f).out = s.out := rfl
@[simp] theorem modPwr_fresh : (s.modPwr d f).fresh = s.fresh := rfl
@[simp] theorem modPwr_pending : (s.modPwr d f).pending = s.pending := rfl
@[simp] theorem modPwr_rd (g : Fld) (e j : Nat) : (s.modPwr d f).rd g e j = s.rd g e j := rfl
end

section
variable (t : Nat) (f : MgrSt → MgrSt)
@[simp] theorem modMgr_part : (s.modMgr t f).part = s.part := rfl
@[simp] theorem modMgr_regs : (s.modMgr t f).regs = s.regs := rfl
@[simp] theorem modMgr_staged : (s.modMgr t f).staged = s.staged := rfl
@[simp] theorem modMgr_pend : (s.modMgr t f).pend = s.pend := rfl
@[simp] theorem modMgr_shadow : (s.modMgr t f).shadow = s.shadow := rfl
@[simp] theorem modMgr_mem : (s.modMgr t f).mem = s.mem := rfl
@[simp] theorem modMgr_flash : (s.modMgr t f).flash = s.flash := rfl
@[simp] theorem modMgr_otp : (s.modMgr t f).otp = s.otp := rfl
@[simp] theorem modMgr_dieId : (s.modMgr t f).dieId = s.dieId := rfl
@[simp] theorem modMgr_time : (s.modMgr t f).time = s.time := rfl
@[simp] theorem modMgr_dies : (s.modMgr t f).dies = s.dies := rfl
@[simp] theorem modMgr_crown : (s.modMgr t f).crown = s.crown := rfl
@[simp] theorem modMgr_bus : (s.modMgr t f).bus = s.bus := rfl
@[simp] theorem modMgr_txn : (s.modMgr t f).txn = s.txn := rfl
@[simp] theorem modMgr_image : (s.modMgr t f).image = s.image := rfl
@[simp] theorem modMgr_load : (s.modMgr t f).load = s.load := rfl
@[simp] theorem modMgr_units : (s.modMgr t f).units = s.units := rfl
@[simp] theorem modMgr_blkRst : (s.modMgr t f).blkRst = s.blkRst := rfl
@[simp] theorem modMgr_cnv : (s.modMgr t f).cnv = s.cnv := rfl
@[simp] theorem modMgr_coef : (s.modMgr t f).coef = s.coef := rfl
@[simp] theorem modMgr_calRej : (s.modMgr t f).calRej = s.calRej := rfl
@[simp] theorem modMgr_calRun : (s.modMgr t f).calRun = s.calRun := rfl
@[simp] theorem modMgr_calWin : (s.modMgr t f).calWin = s.calWin := rfl
@[simp] theorem modMgr_rxArms : (s.modMgr t f).rxArms = s.rxArms := rfl
@[simp] theorem modMgr_groups : (s.modMgr t f).groups = s.groups := rfl
@[simp] theorem modMgr_rxDies : (s.modMgr t f).rxDies = s.rxDies := rfl
@[simp] theorem modMgr_seams : (s.modMgr t f).seams = s.seams := rfl
@[simp] theorem modMgr_txDies : (s.modMgr t f).txDies = s.txDies := rfl
@[simp] theorem modMgr_txArms : (s.modMgr t f).txArms = s.txArms := rfl
@[simp] theorem modMgr_lut : (s.modMgr t f).lut = s.lut := rfl
@[simp] theorem modMgr_fec : (s.modMgr t f).fec = s.fec := rfl
@[simp] theorem modMgr_streams : (s.modMgr t f).streams = s.streams := rfl
@[simp] theorem modMgr_frm : (s.modMgr t f).frm = s.frm := rfl
@[simp] theorem modMgr_flows : (s.modMgr t f).flows = s.flows := rfl
@[simp] theorem modMgr_keyJobs : (s.modMgr t f).keyJobs = s.keyJobs := rfl
@[simp] theorem modMgr_crc : (s.modMgr t f).crc = s.crc := rfl
@[simp] theorem modMgr_lanes : (s.modMgr t f).lanes = s.lanes := rfl
@[simp] theorem modMgr_grps : (s.modMgr t f).grps = s.grps := rfl
@[simp] theorem modMgr_stamps : (s.modMgr t f).stamps = s.stamps := rfl
@[simp] theorem modMgr_wordErr : (s.modMgr t f).wordErr = s.wordErr := rfl
@[simp] theorem modMgr_banks : (s.modMgr t f).banks = s.banks := rfl
@[simp] theorem modMgr_tcms : (s.modMgr t f).tcms = s.tcms := rfl
@[simp] theorem modMgr_engs : (s.modMgr t f).engs = s.engs := rfl
@[simp] theorem modMgr_dma : (s.modMgr t f).dma = s.dma := rfl
@[simp] theorem modMgr_memSts : (s.modMgr t f).memSts = s.memSts := rfl
@[simp] theorem modMgr_pwr : (s.modMgr t f).pwr = s.pwr := rfl
@[simp] theorem modMgr_flowPwr : (s.modMgr t f).flowPwr = s.flowPwr := rfl
@[simp] theorem modMgr_tim : (s.modMgr t f).tim = s.tim := rfl
@[simp] theorem modMgr_refs : (s.modMgr t f).refs = s.refs := rfl
@[simp] theorem modMgr_seqs : (s.modMgr t f).seqs = s.seqs := rfl
@[simp] theorem modMgr_wch : (s.modMgr t f).wch = s.wch := rfl
@[simp] theorem modMgr_plm : (s.modMgr t f).plm = s.plm := rfl
@[simp] theorem modMgr_teams : (s.modMgr t f).teams = s.teams := rfl
@[simp] theorem modMgr_cairn : (s.modMgr t f).cairn = s.cairn := rfl
@[simp] theorem modMgr_retries : (s.modMgr t f).retries = s.retries := rfl
@[simp] theorem modMgr_pins : (s.modMgr t f).pins = s.pins := rfl
@[simp] theorem modMgr_taps : (s.modMgr t f).taps = s.taps := rfl
@[simp] theorem modMgr_out : (s.modMgr t f).out = s.out := rfl
@[simp] theorem modMgr_fresh : (s.modMgr t f).fresh = s.fresh := rfl
@[simp] theorem modMgr_pending : (s.modMgr t f).pending = s.pending := rfl
@[simp] theorem modMgr_rd (g : Fld) (e j : Nat) : (s.modMgr t f).rd g e j = s.rd g e j := rfl
end

section
variable (d i : Nat) (f : FlowPwr → FlowPwr)
@[simp] theorem modFlowPwr_part : (s.modFlowPwr d i f).part = s.part := rfl
@[simp] theorem modFlowPwr_regs : (s.modFlowPwr d i f).regs = s.regs := rfl
@[simp] theorem modFlowPwr_staged : (s.modFlowPwr d i f).staged = s.staged := rfl
@[simp] theorem modFlowPwr_pend : (s.modFlowPwr d i f).pend = s.pend := rfl
@[simp] theorem modFlowPwr_shadow : (s.modFlowPwr d i f).shadow = s.shadow := rfl
@[simp] theorem modFlowPwr_mem : (s.modFlowPwr d i f).mem = s.mem := rfl
@[simp] theorem modFlowPwr_flash : (s.modFlowPwr d i f).flash = s.flash := rfl
@[simp] theorem modFlowPwr_otp : (s.modFlowPwr d i f).otp = s.otp := rfl
@[simp] theorem modFlowPwr_dieId : (s.modFlowPwr d i f).dieId = s.dieId := rfl
@[simp] theorem modFlowPwr_time : (s.modFlowPwr d i f).time = s.time := rfl
@[simp] theorem modFlowPwr_dies : (s.modFlowPwr d i f).dies = s.dies := rfl
@[simp] theorem modFlowPwr_crown : (s.modFlowPwr d i f).crown = s.crown := rfl
@[simp] theorem modFlowPwr_bus : (s.modFlowPwr d i f).bus = s.bus := rfl
@[simp] theorem modFlowPwr_txn : (s.modFlowPwr d i f).txn = s.txn := rfl
@[simp] theorem modFlowPwr_image : (s.modFlowPwr d i f).image = s.image := rfl
@[simp] theorem modFlowPwr_load : (s.modFlowPwr d i f).load = s.load := rfl
@[simp] theorem modFlowPwr_units : (s.modFlowPwr d i f).units = s.units := rfl
@[simp] theorem modFlowPwr_blkRst : (s.modFlowPwr d i f).blkRst = s.blkRst := rfl
@[simp] theorem modFlowPwr_cnv : (s.modFlowPwr d i f).cnv = s.cnv := rfl
@[simp] theorem modFlowPwr_coef : (s.modFlowPwr d i f).coef = s.coef := rfl
@[simp] theorem modFlowPwr_calRej : (s.modFlowPwr d i f).calRej = s.calRej := rfl
@[simp] theorem modFlowPwr_calRun : (s.modFlowPwr d i f).calRun = s.calRun := rfl
@[simp] theorem modFlowPwr_calWin : (s.modFlowPwr d i f).calWin = s.calWin := rfl
@[simp] theorem modFlowPwr_rxArms : (s.modFlowPwr d i f).rxArms = s.rxArms := rfl
@[simp] theorem modFlowPwr_groups : (s.modFlowPwr d i f).groups = s.groups := rfl
@[simp] theorem modFlowPwr_rxDies : (s.modFlowPwr d i f).rxDies = s.rxDies := rfl
@[simp] theorem modFlowPwr_seams : (s.modFlowPwr d i f).seams = s.seams := rfl
@[simp] theorem modFlowPwr_txDies : (s.modFlowPwr d i f).txDies = s.txDies := rfl
@[simp] theorem modFlowPwr_txArms : (s.modFlowPwr d i f).txArms = s.txArms := rfl
@[simp] theorem modFlowPwr_lut : (s.modFlowPwr d i f).lut = s.lut := rfl
@[simp] theorem modFlowPwr_fec : (s.modFlowPwr d i f).fec = s.fec := rfl
@[simp] theorem modFlowPwr_streams : (s.modFlowPwr d i f).streams = s.streams := rfl
@[simp] theorem modFlowPwr_frm : (s.modFlowPwr d i f).frm = s.frm := rfl
@[simp] theorem modFlowPwr_flows : (s.modFlowPwr d i f).flows = s.flows := rfl
@[simp] theorem modFlowPwr_keyJobs : (s.modFlowPwr d i f).keyJobs = s.keyJobs := rfl
@[simp] theorem modFlowPwr_crc : (s.modFlowPwr d i f).crc = s.crc := rfl
@[simp] theorem modFlowPwr_lanes : (s.modFlowPwr d i f).lanes = s.lanes := rfl
@[simp] theorem modFlowPwr_grps : (s.modFlowPwr d i f).grps = s.grps := rfl
@[simp] theorem modFlowPwr_stamps : (s.modFlowPwr d i f).stamps = s.stamps := rfl
@[simp] theorem modFlowPwr_wordErr : (s.modFlowPwr d i f).wordErr = s.wordErr := rfl
@[simp] theorem modFlowPwr_banks : (s.modFlowPwr d i f).banks = s.banks := rfl
@[simp] theorem modFlowPwr_tcms : (s.modFlowPwr d i f).tcms = s.tcms := rfl
@[simp] theorem modFlowPwr_engs : (s.modFlowPwr d i f).engs = s.engs := rfl
@[simp] theorem modFlowPwr_dma : (s.modFlowPwr d i f).dma = s.dma := rfl
@[simp] theorem modFlowPwr_memSts : (s.modFlowPwr d i f).memSts = s.memSts := rfl
@[simp] theorem modFlowPwr_pwr : (s.modFlowPwr d i f).pwr = s.pwr := rfl
@[simp] theorem modFlowPwr_mgr : (s.modFlowPwr d i f).mgr = s.mgr := rfl
@[simp] theorem modFlowPwr_tim : (s.modFlowPwr d i f).tim = s.tim := rfl
@[simp] theorem modFlowPwr_refs : (s.modFlowPwr d i f).refs = s.refs := rfl
@[simp] theorem modFlowPwr_seqs : (s.modFlowPwr d i f).seqs = s.seqs := rfl
@[simp] theorem modFlowPwr_wch : (s.modFlowPwr d i f).wch = s.wch := rfl
@[simp] theorem modFlowPwr_plm : (s.modFlowPwr d i f).plm = s.plm := rfl
@[simp] theorem modFlowPwr_teams : (s.modFlowPwr d i f).teams = s.teams := rfl
@[simp] theorem modFlowPwr_cairn : (s.modFlowPwr d i f).cairn = s.cairn := rfl
@[simp] theorem modFlowPwr_retries : (s.modFlowPwr d i f).retries = s.retries := rfl
@[simp] theorem modFlowPwr_pins : (s.modFlowPwr d i f).pins = s.pins := rfl
@[simp] theorem modFlowPwr_taps : (s.modFlowPwr d i f).taps = s.taps := rfl
@[simp] theorem modFlowPwr_out : (s.modFlowPwr d i f).out = s.out := rfl
@[simp] theorem modFlowPwr_fresh : (s.modFlowPwr d i f).fresh = s.fresh := rfl
@[simp] theorem modFlowPwr_pending : (s.modFlowPwr d i f).pending = s.pending := rfl
@[simp] theorem modFlowPwr_rd (g : Fld) (e j : Nat) : (s.modFlowPwr d i f).rd g e j = s.rd g e j := rfl
end

section
variable (f : TimSt → TimSt)
@[simp] theorem modTim_part : (s.modTim f).part = s.part := rfl
@[simp] theorem modTim_regs : (s.modTim f).regs = s.regs := rfl
@[simp] theorem modTim_staged : (s.modTim f).staged = s.staged := rfl
@[simp] theorem modTim_pend : (s.modTim f).pend = s.pend := rfl
@[simp] theorem modTim_shadow : (s.modTim f).shadow = s.shadow := rfl
@[simp] theorem modTim_mem : (s.modTim f).mem = s.mem := rfl
@[simp] theorem modTim_flash : (s.modTim f).flash = s.flash := rfl
@[simp] theorem modTim_otp : (s.modTim f).otp = s.otp := rfl
@[simp] theorem modTim_dieId : (s.modTim f).dieId = s.dieId := rfl
@[simp] theorem modTim_time : (s.modTim f).time = s.time := rfl
@[simp] theorem modTim_dies : (s.modTim f).dies = s.dies := rfl
@[simp] theorem modTim_crown : (s.modTim f).crown = s.crown := rfl
@[simp] theorem modTim_bus : (s.modTim f).bus = s.bus := rfl
@[simp] theorem modTim_txn : (s.modTim f).txn = s.txn := rfl
@[simp] theorem modTim_image : (s.modTim f).image = s.image := rfl
@[simp] theorem modTim_load : (s.modTim f).load = s.load := rfl
@[simp] theorem modTim_units : (s.modTim f).units = s.units := rfl
@[simp] theorem modTim_blkRst : (s.modTim f).blkRst = s.blkRst := rfl
@[simp] theorem modTim_cnv : (s.modTim f).cnv = s.cnv := rfl
@[simp] theorem modTim_coef : (s.modTim f).coef = s.coef := rfl
@[simp] theorem modTim_calRej : (s.modTim f).calRej = s.calRej := rfl
@[simp] theorem modTim_calRun : (s.modTim f).calRun = s.calRun := rfl
@[simp] theorem modTim_calWin : (s.modTim f).calWin = s.calWin := rfl
@[simp] theorem modTim_rxArms : (s.modTim f).rxArms = s.rxArms := rfl
@[simp] theorem modTim_groups : (s.modTim f).groups = s.groups := rfl
@[simp] theorem modTim_rxDies : (s.modTim f).rxDies = s.rxDies := rfl
@[simp] theorem modTim_seams : (s.modTim f).seams = s.seams := rfl
@[simp] theorem modTim_txDies : (s.modTim f).txDies = s.txDies := rfl
@[simp] theorem modTim_txArms : (s.modTim f).txArms = s.txArms := rfl
@[simp] theorem modTim_lut : (s.modTim f).lut = s.lut := rfl
@[simp] theorem modTim_fec : (s.modTim f).fec = s.fec := rfl
@[simp] theorem modTim_streams : (s.modTim f).streams = s.streams := rfl
@[simp] theorem modTim_frm : (s.modTim f).frm = s.frm := rfl
@[simp] theorem modTim_flows : (s.modTim f).flows = s.flows := rfl
@[simp] theorem modTim_keyJobs : (s.modTim f).keyJobs = s.keyJobs := rfl
@[simp] theorem modTim_crc : (s.modTim f).crc = s.crc := rfl
@[simp] theorem modTim_lanes : (s.modTim f).lanes = s.lanes := rfl
@[simp] theorem modTim_grps : (s.modTim f).grps = s.grps := rfl
@[simp] theorem modTim_stamps : (s.modTim f).stamps = s.stamps := rfl
@[simp] theorem modTim_wordErr : (s.modTim f).wordErr = s.wordErr := rfl
@[simp] theorem modTim_banks : (s.modTim f).banks = s.banks := rfl
@[simp] theorem modTim_tcms : (s.modTim f).tcms = s.tcms := rfl
@[simp] theorem modTim_engs : (s.modTim f).engs = s.engs := rfl
@[simp] theorem modTim_dma : (s.modTim f).dma = s.dma := rfl
@[simp] theorem modTim_memSts : (s.modTim f).memSts = s.memSts := rfl
@[simp] theorem modTim_pwr : (s.modTim f).pwr = s.pwr := rfl
@[simp] theorem modTim_mgr : (s.modTim f).mgr = s.mgr := rfl
@[simp] theorem modTim_flowPwr : (s.modTim f).flowPwr = s.flowPwr := rfl
@[simp] theorem modTim_refs : (s.modTim f).refs = s.refs := rfl
@[simp] theorem modTim_seqs : (s.modTim f).seqs = s.seqs := rfl
@[simp] theorem modTim_wch : (s.modTim f).wch = s.wch := rfl
@[simp] theorem modTim_plm : (s.modTim f).plm = s.plm := rfl
@[simp] theorem modTim_teams : (s.modTim f).teams = s.teams := rfl
@[simp] theorem modTim_cairn : (s.modTim f).cairn = s.cairn := rfl
@[simp] theorem modTim_retries : (s.modTim f).retries = s.retries := rfl
@[simp] theorem modTim_pins : (s.modTim f).pins = s.pins := rfl
@[simp] theorem modTim_taps : (s.modTim f).taps = s.taps := rfl
@[simp] theorem modTim_out : (s.modTim f).out = s.out := rfl
@[simp] theorem modTim_fresh : (s.modTim f).fresh = s.fresh := rfl
@[simp] theorem modTim_pending : (s.modTim f).pending = s.pending := rfl
@[simp] theorem modTim_rd (g : Fld) (e j : Nat) : (s.modTim f).rd g e j = s.rd g e j := rfl
end

section
variable (k : Nat) (f : RefSt → RefSt)
@[simp] theorem modRef_part : (s.modRef k f).part = s.part := rfl
@[simp] theorem modRef_regs : (s.modRef k f).regs = s.regs := rfl
@[simp] theorem modRef_staged : (s.modRef k f).staged = s.staged := rfl
@[simp] theorem modRef_pend : (s.modRef k f).pend = s.pend := rfl
@[simp] theorem modRef_shadow : (s.modRef k f).shadow = s.shadow := rfl
@[simp] theorem modRef_mem : (s.modRef k f).mem = s.mem := rfl
@[simp] theorem modRef_flash : (s.modRef k f).flash = s.flash := rfl
@[simp] theorem modRef_otp : (s.modRef k f).otp = s.otp := rfl
@[simp] theorem modRef_dieId : (s.modRef k f).dieId = s.dieId := rfl
@[simp] theorem modRef_time : (s.modRef k f).time = s.time := rfl
@[simp] theorem modRef_dies : (s.modRef k f).dies = s.dies := rfl
@[simp] theorem modRef_crown : (s.modRef k f).crown = s.crown := rfl
@[simp] theorem modRef_bus : (s.modRef k f).bus = s.bus := rfl
@[simp] theorem modRef_txn : (s.modRef k f).txn = s.txn := rfl
@[simp] theorem modRef_image : (s.modRef k f).image = s.image := rfl
@[simp] theorem modRef_load : (s.modRef k f).load = s.load := rfl
@[simp] theorem modRef_units : (s.modRef k f).units = s.units := rfl
@[simp] theorem modRef_blkRst : (s.modRef k f).blkRst = s.blkRst := rfl
@[simp] theorem modRef_cnv : (s.modRef k f).cnv = s.cnv := rfl
@[simp] theorem modRef_coef : (s.modRef k f).coef = s.coef := rfl
@[simp] theorem modRef_calRej : (s.modRef k f).calRej = s.calRej := rfl
@[simp] theorem modRef_calRun : (s.modRef k f).calRun = s.calRun := rfl
@[simp] theorem modRef_calWin : (s.modRef k f).calWin = s.calWin := rfl
@[simp] theorem modRef_rxArms : (s.modRef k f).rxArms = s.rxArms := rfl
@[simp] theorem modRef_groups : (s.modRef k f).groups = s.groups := rfl
@[simp] theorem modRef_rxDies : (s.modRef k f).rxDies = s.rxDies := rfl
@[simp] theorem modRef_seams : (s.modRef k f).seams = s.seams := rfl
@[simp] theorem modRef_txDies : (s.modRef k f).txDies = s.txDies := rfl
@[simp] theorem modRef_txArms : (s.modRef k f).txArms = s.txArms := rfl
@[simp] theorem modRef_lut : (s.modRef k f).lut = s.lut := rfl
@[simp] theorem modRef_fec : (s.modRef k f).fec = s.fec := rfl
@[simp] theorem modRef_streams : (s.modRef k f).streams = s.streams := rfl
@[simp] theorem modRef_frm : (s.modRef k f).frm = s.frm := rfl
@[simp] theorem modRef_flows : (s.modRef k f).flows = s.flows := rfl
@[simp] theorem modRef_keyJobs : (s.modRef k f).keyJobs = s.keyJobs := rfl
@[simp] theorem modRef_crc : (s.modRef k f).crc = s.crc := rfl
@[simp] theorem modRef_lanes : (s.modRef k f).lanes = s.lanes := rfl
@[simp] theorem modRef_grps : (s.modRef k f).grps = s.grps := rfl
@[simp] theorem modRef_stamps : (s.modRef k f).stamps = s.stamps := rfl
@[simp] theorem modRef_wordErr : (s.modRef k f).wordErr = s.wordErr := rfl
@[simp] theorem modRef_banks : (s.modRef k f).banks = s.banks := rfl
@[simp] theorem modRef_tcms : (s.modRef k f).tcms = s.tcms := rfl
@[simp] theorem modRef_engs : (s.modRef k f).engs = s.engs := rfl
@[simp] theorem modRef_dma : (s.modRef k f).dma = s.dma := rfl
@[simp] theorem modRef_memSts : (s.modRef k f).memSts = s.memSts := rfl
@[simp] theorem modRef_pwr : (s.modRef k f).pwr = s.pwr := rfl
@[simp] theorem modRef_mgr : (s.modRef k f).mgr = s.mgr := rfl
@[simp] theorem modRef_flowPwr : (s.modRef k f).flowPwr = s.flowPwr := rfl
@[simp] theorem modRef_tim : (s.modRef k f).tim = s.tim := rfl
@[simp] theorem modRef_seqs : (s.modRef k f).seqs = s.seqs := rfl
@[simp] theorem modRef_wch : (s.modRef k f).wch = s.wch := rfl
@[simp] theorem modRef_plm : (s.modRef k f).plm = s.plm := rfl
@[simp] theorem modRef_teams : (s.modRef k f).teams = s.teams := rfl
@[simp] theorem modRef_cairn : (s.modRef k f).cairn = s.cairn := rfl
@[simp] theorem modRef_retries : (s.modRef k f).retries = s.retries := rfl
@[simp] theorem modRef_pins : (s.modRef k f).pins = s.pins := rfl
@[simp] theorem modRef_taps : (s.modRef k f).taps = s.taps := rfl
@[simp] theorem modRef_out : (s.modRef k f).out = s.out := rfl
@[simp] theorem modRef_fresh : (s.modRef k f).fresh = s.fresh := rfl
@[simp] theorem modRef_pending : (s.modRef k f).pending = s.pending := rfl
@[simp] theorem modRef_rd (g : Fld) (e j : Nat) : (s.modRef k f).rd g e j = s.rd g e j := rfl
end

section
variable (d : Nat) (f : SeqSt → SeqSt)
@[simp] theorem modSeq_part : (s.modSeq d f).part = s.part := rfl
@[simp] theorem modSeq_regs : (s.modSeq d f).regs = s.regs := rfl
@[simp] theorem modSeq_staged : (s.modSeq d f).staged = s.staged := rfl
@[simp] theorem modSeq_pend : (s.modSeq d f).pend = s.pend := rfl
@[simp] theorem modSeq_shadow : (s.modSeq d f).shadow = s.shadow := rfl
@[simp] theorem modSeq_mem : (s.modSeq d f).mem = s.mem := rfl
@[simp] theorem modSeq_flash : (s.modSeq d f).flash = s.flash := rfl
@[simp] theorem modSeq_otp : (s.modSeq d f).otp = s.otp := rfl
@[simp] theorem modSeq_dieId : (s.modSeq d f).dieId = s.dieId := rfl
@[simp] theorem modSeq_time : (s.modSeq d f).time = s.time := rfl
@[simp] theorem modSeq_dies : (s.modSeq d f).dies = s.dies := rfl
@[simp] theorem modSeq_crown : (s.modSeq d f).crown = s.crown := rfl
@[simp] theorem modSeq_bus : (s.modSeq d f).bus = s.bus := rfl
@[simp] theorem modSeq_txn : (s.modSeq d f).txn = s.txn := rfl
@[simp] theorem modSeq_image : (s.modSeq d f).image = s.image := rfl
@[simp] theorem modSeq_load : (s.modSeq d f).load = s.load := rfl
@[simp] theorem modSeq_units : (s.modSeq d f).units = s.units := rfl
@[simp] theorem modSeq_blkRst : (s.modSeq d f).blkRst = s.blkRst := rfl
@[simp] theorem modSeq_cnv : (s.modSeq d f).cnv = s.cnv := rfl
@[simp] theorem modSeq_coef : (s.modSeq d f).coef = s.coef := rfl
@[simp] theorem modSeq_calRej : (s.modSeq d f).calRej = s.calRej := rfl
@[simp] theorem modSeq_calRun : (s.modSeq d f).calRun = s.calRun := rfl
@[simp] theorem modSeq_calWin : (s.modSeq d f).calWin = s.calWin := rfl
@[simp] theorem modSeq_rxArms : (s.modSeq d f).rxArms = s.rxArms := rfl
@[simp] theorem modSeq_groups : (s.modSeq d f).groups = s.groups := rfl
@[simp] theorem modSeq_rxDies : (s.modSeq d f).rxDies = s.rxDies := rfl
@[simp] theorem modSeq_seams : (s.modSeq d f).seams = s.seams := rfl
@[simp] theorem modSeq_txDies : (s.modSeq d f).txDies = s.txDies := rfl
@[simp] theorem modSeq_txArms : (s.modSeq d f).txArms = s.txArms := rfl
@[simp] theorem modSeq_lut : (s.modSeq d f).lut = s.lut := rfl
@[simp] theorem modSeq_fec : (s.modSeq d f).fec = s.fec := rfl
@[simp] theorem modSeq_streams : (s.modSeq d f).streams = s.streams := rfl
@[simp] theorem modSeq_frm : (s.modSeq d f).frm = s.frm := rfl
@[simp] theorem modSeq_flows : (s.modSeq d f).flows = s.flows := rfl
@[simp] theorem modSeq_keyJobs : (s.modSeq d f).keyJobs = s.keyJobs := rfl
@[simp] theorem modSeq_crc : (s.modSeq d f).crc = s.crc := rfl
@[simp] theorem modSeq_lanes : (s.modSeq d f).lanes = s.lanes := rfl
@[simp] theorem modSeq_grps : (s.modSeq d f).grps = s.grps := rfl
@[simp] theorem modSeq_stamps : (s.modSeq d f).stamps = s.stamps := rfl
@[simp] theorem modSeq_wordErr : (s.modSeq d f).wordErr = s.wordErr := rfl
@[simp] theorem modSeq_banks : (s.modSeq d f).banks = s.banks := rfl
@[simp] theorem modSeq_tcms : (s.modSeq d f).tcms = s.tcms := rfl
@[simp] theorem modSeq_engs : (s.modSeq d f).engs = s.engs := rfl
@[simp] theorem modSeq_dma : (s.modSeq d f).dma = s.dma := rfl
@[simp] theorem modSeq_memSts : (s.modSeq d f).memSts = s.memSts := rfl
@[simp] theorem modSeq_pwr : (s.modSeq d f).pwr = s.pwr := rfl
@[simp] theorem modSeq_mgr : (s.modSeq d f).mgr = s.mgr := rfl
@[simp] theorem modSeq_flowPwr : (s.modSeq d f).flowPwr = s.flowPwr := rfl
@[simp] theorem modSeq_tim : (s.modSeq d f).tim = s.tim := rfl
@[simp] theorem modSeq_refs : (s.modSeq d f).refs = s.refs := rfl
@[simp] theorem modSeq_wch : (s.modSeq d f).wch = s.wch := rfl
@[simp] theorem modSeq_plm : (s.modSeq d f).plm = s.plm := rfl
@[simp] theorem modSeq_teams : (s.modSeq d f).teams = s.teams := rfl
@[simp] theorem modSeq_cairn : (s.modSeq d f).cairn = s.cairn := rfl
@[simp] theorem modSeq_retries : (s.modSeq d f).retries = s.retries := rfl
@[simp] theorem modSeq_pins : (s.modSeq d f).pins = s.pins := rfl
@[simp] theorem modSeq_taps : (s.modSeq d f).taps = s.taps := rfl
@[simp] theorem modSeq_out : (s.modSeq d f).out = s.out := rfl
@[simp] theorem modSeq_fresh : (s.modSeq d f).fresh = s.fresh := rfl
@[simp] theorem modSeq_pending : (s.modSeq d f).pending = s.pending := rfl
@[simp] theorem modSeq_rd (g : Fld) (e j : Nat) : (s.modSeq d f).rd g e j = s.rd g e j := rfl
end

section
variable (d i : Nat) (f : WchSt → WchSt)
@[simp] theorem modWch_part : (s.modWch d i f).part = s.part := rfl
@[simp] theorem modWch_regs : (s.modWch d i f).regs = s.regs := rfl
@[simp] theorem modWch_staged : (s.modWch d i f).staged = s.staged := rfl
@[simp] theorem modWch_pend : (s.modWch d i f).pend = s.pend := rfl
@[simp] theorem modWch_shadow : (s.modWch d i f).shadow = s.shadow := rfl
@[simp] theorem modWch_mem : (s.modWch d i f).mem = s.mem := rfl
@[simp] theorem modWch_flash : (s.modWch d i f).flash = s.flash := rfl
@[simp] theorem modWch_otp : (s.modWch d i f).otp = s.otp := rfl
@[simp] theorem modWch_dieId : (s.modWch d i f).dieId = s.dieId := rfl
@[simp] theorem modWch_time : (s.modWch d i f).time = s.time := rfl
@[simp] theorem modWch_dies : (s.modWch d i f).dies = s.dies := rfl
@[simp] theorem modWch_crown : (s.modWch d i f).crown = s.crown := rfl
@[simp] theorem modWch_bus : (s.modWch d i f).bus = s.bus := rfl
@[simp] theorem modWch_txn : (s.modWch d i f).txn = s.txn := rfl
@[simp] theorem modWch_image : (s.modWch d i f).image = s.image := rfl
@[simp] theorem modWch_load : (s.modWch d i f).load = s.load := rfl
@[simp] theorem modWch_units : (s.modWch d i f).units = s.units := rfl
@[simp] theorem modWch_blkRst : (s.modWch d i f).blkRst = s.blkRst := rfl
@[simp] theorem modWch_cnv : (s.modWch d i f).cnv = s.cnv := rfl
@[simp] theorem modWch_coef : (s.modWch d i f).coef = s.coef := rfl
@[simp] theorem modWch_calRej : (s.modWch d i f).calRej = s.calRej := rfl
@[simp] theorem modWch_calRun : (s.modWch d i f).calRun = s.calRun := rfl
@[simp] theorem modWch_calWin : (s.modWch d i f).calWin = s.calWin := rfl
@[simp] theorem modWch_rxArms : (s.modWch d i f).rxArms = s.rxArms := rfl
@[simp] theorem modWch_groups : (s.modWch d i f).groups = s.groups := rfl
@[simp] theorem modWch_rxDies : (s.modWch d i f).rxDies = s.rxDies := rfl
@[simp] theorem modWch_seams : (s.modWch d i f).seams = s.seams := rfl
@[simp] theorem modWch_txDies : (s.modWch d i f).txDies = s.txDies := rfl
@[simp] theorem modWch_txArms : (s.modWch d i f).txArms = s.txArms := rfl
@[simp] theorem modWch_lut : (s.modWch d i f).lut = s.lut := rfl
@[simp] theorem modWch_fec : (s.modWch d i f).fec = s.fec := rfl
@[simp] theorem modWch_streams : (s.modWch d i f).streams = s.streams := rfl
@[simp] theorem modWch_frm : (s.modWch d i f).frm = s.frm := rfl
@[simp] theorem modWch_flows : (s.modWch d i f).flows = s.flows := rfl
@[simp] theorem modWch_keyJobs : (s.modWch d i f).keyJobs = s.keyJobs := rfl
@[simp] theorem modWch_crc : (s.modWch d i f).crc = s.crc := rfl
@[simp] theorem modWch_lanes : (s.modWch d i f).lanes = s.lanes := rfl
@[simp] theorem modWch_grps : (s.modWch d i f).grps = s.grps := rfl
@[simp] theorem modWch_stamps : (s.modWch d i f).stamps = s.stamps := rfl
@[simp] theorem modWch_wordErr : (s.modWch d i f).wordErr = s.wordErr := rfl
@[simp] theorem modWch_banks : (s.modWch d i f).banks = s.banks := rfl
@[simp] theorem modWch_tcms : (s.modWch d i f).tcms = s.tcms := rfl
@[simp] theorem modWch_engs : (s.modWch d i f).engs = s.engs := rfl
@[simp] theorem modWch_dma : (s.modWch d i f).dma = s.dma := rfl
@[simp] theorem modWch_memSts : (s.modWch d i f).memSts = s.memSts := rfl
@[simp] theorem modWch_pwr : (s.modWch d i f).pwr = s.pwr := rfl
@[simp] theorem modWch_mgr : (s.modWch d i f).mgr = s.mgr := rfl
@[simp] theorem modWch_flowPwr : (s.modWch d i f).flowPwr = s.flowPwr := rfl
@[simp] theorem modWch_tim : (s.modWch d i f).tim = s.tim := rfl
@[simp] theorem modWch_refs : (s.modWch d i f).refs = s.refs := rfl
@[simp] theorem modWch_seqs : (s.modWch d i f).seqs = s.seqs := rfl
@[simp] theorem modWch_plm : (s.modWch d i f).plm = s.plm := rfl
@[simp] theorem modWch_teams : (s.modWch d i f).teams = s.teams := rfl
@[simp] theorem modWch_cairn : (s.modWch d i f).cairn = s.cairn := rfl
@[simp] theorem modWch_retries : (s.modWch d i f).retries = s.retries := rfl
@[simp] theorem modWch_pins : (s.modWch d i f).pins = s.pins := rfl
@[simp] theorem modWch_taps : (s.modWch d i f).taps = s.taps := rfl
@[simp] theorem modWch_out : (s.modWch d i f).out = s.out := rfl
@[simp] theorem modWch_fresh : (s.modWch d i f).fresh = s.fresh := rfl
@[simp] theorem modWch_pending : (s.modWch d i f).pending = s.pending := rfl
@[simp] theorem modWch_rd (g : Fld) (e j : Nat) : (s.modWch d i f).rd g e j = s.rd g e j := rfl
end

section
variable (f : PlmSt → PlmSt)
@[simp] theorem modPlm_part : (s.modPlm f).part = s.part := rfl
@[simp] theorem modPlm_regs : (s.modPlm f).regs = s.regs := rfl
@[simp] theorem modPlm_staged : (s.modPlm f).staged = s.staged := rfl
@[simp] theorem modPlm_pend : (s.modPlm f).pend = s.pend := rfl
@[simp] theorem modPlm_shadow : (s.modPlm f).shadow = s.shadow := rfl
@[simp] theorem modPlm_mem : (s.modPlm f).mem = s.mem := rfl
@[simp] theorem modPlm_flash : (s.modPlm f).flash = s.flash := rfl
@[simp] theorem modPlm_otp : (s.modPlm f).otp = s.otp := rfl
@[simp] theorem modPlm_dieId : (s.modPlm f).dieId = s.dieId := rfl
@[simp] theorem modPlm_time : (s.modPlm f).time = s.time := rfl
@[simp] theorem modPlm_dies : (s.modPlm f).dies = s.dies := rfl
@[simp] theorem modPlm_crown : (s.modPlm f).crown = s.crown := rfl
@[simp] theorem modPlm_bus : (s.modPlm f).bus = s.bus := rfl
@[simp] theorem modPlm_txn : (s.modPlm f).txn = s.txn := rfl
@[simp] theorem modPlm_image : (s.modPlm f).image = s.image := rfl
@[simp] theorem modPlm_load : (s.modPlm f).load = s.load := rfl
@[simp] theorem modPlm_units : (s.modPlm f).units = s.units := rfl
@[simp] theorem modPlm_blkRst : (s.modPlm f).blkRst = s.blkRst := rfl
@[simp] theorem modPlm_cnv : (s.modPlm f).cnv = s.cnv := rfl
@[simp] theorem modPlm_coef : (s.modPlm f).coef = s.coef := rfl
@[simp] theorem modPlm_calRej : (s.modPlm f).calRej = s.calRej := rfl
@[simp] theorem modPlm_calRun : (s.modPlm f).calRun = s.calRun := rfl
@[simp] theorem modPlm_calWin : (s.modPlm f).calWin = s.calWin := rfl
@[simp] theorem modPlm_rxArms : (s.modPlm f).rxArms = s.rxArms := rfl
@[simp] theorem modPlm_groups : (s.modPlm f).groups = s.groups := rfl
@[simp] theorem modPlm_rxDies : (s.modPlm f).rxDies = s.rxDies := rfl
@[simp] theorem modPlm_seams : (s.modPlm f).seams = s.seams := rfl
@[simp] theorem modPlm_txDies : (s.modPlm f).txDies = s.txDies := rfl
@[simp] theorem modPlm_txArms : (s.modPlm f).txArms = s.txArms := rfl
@[simp] theorem modPlm_lut : (s.modPlm f).lut = s.lut := rfl
@[simp] theorem modPlm_fec : (s.modPlm f).fec = s.fec := rfl
@[simp] theorem modPlm_streams : (s.modPlm f).streams = s.streams := rfl
@[simp] theorem modPlm_frm : (s.modPlm f).frm = s.frm := rfl
@[simp] theorem modPlm_flows : (s.modPlm f).flows = s.flows := rfl
@[simp] theorem modPlm_keyJobs : (s.modPlm f).keyJobs = s.keyJobs := rfl
@[simp] theorem modPlm_crc : (s.modPlm f).crc = s.crc := rfl
@[simp] theorem modPlm_lanes : (s.modPlm f).lanes = s.lanes := rfl
@[simp] theorem modPlm_grps : (s.modPlm f).grps = s.grps := rfl
@[simp] theorem modPlm_stamps : (s.modPlm f).stamps = s.stamps := rfl
@[simp] theorem modPlm_wordErr : (s.modPlm f).wordErr = s.wordErr := rfl
@[simp] theorem modPlm_banks : (s.modPlm f).banks = s.banks := rfl
@[simp] theorem modPlm_tcms : (s.modPlm f).tcms = s.tcms := rfl
@[simp] theorem modPlm_engs : (s.modPlm f).engs = s.engs := rfl
@[simp] theorem modPlm_dma : (s.modPlm f).dma = s.dma := rfl
@[simp] theorem modPlm_memSts : (s.modPlm f).memSts = s.memSts := rfl
@[simp] theorem modPlm_pwr : (s.modPlm f).pwr = s.pwr := rfl
@[simp] theorem modPlm_mgr : (s.modPlm f).mgr = s.mgr := rfl
@[simp] theorem modPlm_flowPwr : (s.modPlm f).flowPwr = s.flowPwr := rfl
@[simp] theorem modPlm_tim : (s.modPlm f).tim = s.tim := rfl
@[simp] theorem modPlm_refs : (s.modPlm f).refs = s.refs := rfl
@[simp] theorem modPlm_seqs : (s.modPlm f).seqs = s.seqs := rfl
@[simp] theorem modPlm_wch : (s.modPlm f).wch = s.wch := rfl
@[simp] theorem modPlm_teams : (s.modPlm f).teams = s.teams := rfl
@[simp] theorem modPlm_cairn : (s.modPlm f).cairn = s.cairn := rfl
@[simp] theorem modPlm_retries : (s.modPlm f).retries = s.retries := rfl
@[simp] theorem modPlm_pins : (s.modPlm f).pins = s.pins := rfl
@[simp] theorem modPlm_taps : (s.modPlm f).taps = s.taps := rfl
@[simp] theorem modPlm_out : (s.modPlm f).out = s.out := rfl
@[simp] theorem modPlm_fresh : (s.modPlm f).fresh = s.fresh := rfl
@[simp] theorem modPlm_pending : (s.modPlm f).pending = s.pending := rfl
@[simp] theorem modPlm_rd (g : Fld) (e j : Nat) : (s.modPlm f).rd g e j = s.rd g e j := rfl
end

section
variable (d : Nat) (f : LoadSt → LoadSt)
@[simp] theorem modLoad_part : (s.modLoad d f).part = s.part := rfl
@[simp] theorem modLoad_regs : (s.modLoad d f).regs = s.regs := rfl
@[simp] theorem modLoad_staged : (s.modLoad d f).staged = s.staged := rfl
@[simp] theorem modLoad_pend : (s.modLoad d f).pend = s.pend := rfl
@[simp] theorem modLoad_shadow : (s.modLoad d f).shadow = s.shadow := rfl
@[simp] theorem modLoad_mem : (s.modLoad d f).mem = s.mem := rfl
@[simp] theorem modLoad_flash : (s.modLoad d f).flash = s.flash := rfl
@[simp] theorem modLoad_otp : (s.modLoad d f).otp = s.otp := rfl
@[simp] theorem modLoad_dieId : (s.modLoad d f).dieId = s.dieId := rfl
@[simp] theorem modLoad_time : (s.modLoad d f).time = s.time := rfl
@[simp] theorem modLoad_dies : (s.modLoad d f).dies = s.dies := rfl
@[simp] theorem modLoad_crown : (s.modLoad d f).crown = s.crown := rfl
@[simp] theorem modLoad_bus : (s.modLoad d f).bus = s.bus := rfl
@[simp] theorem modLoad_txn : (s.modLoad d f).txn = s.txn := rfl
@[simp] theorem modLoad_image : (s.modLoad d f).image = s.image := rfl
@[simp] theorem modLoad_units : (s.modLoad d f).units = s.units := rfl
@[simp] theorem modLoad_blkRst : (s.modLoad d f).blkRst = s.blkRst := rfl
@[simp] theorem modLoad_cnv : (s.modLoad d f).cnv = s.cnv := rfl
@[simp] theorem modLoad_coef : (s.modLoad d f).coef = s.coef := rfl
@[simp] theorem modLoad_calRej : (s.modLoad d f).calRej = s.calRej := rfl
@[simp] theorem modLoad_calRun : (s.modLoad d f).calRun = s.calRun := rfl
@[simp] theorem modLoad_calWin : (s.modLoad d f).calWin = s.calWin := rfl
@[simp] theorem modLoad_rxArms : (s.modLoad d f).rxArms = s.rxArms := rfl
@[simp] theorem modLoad_groups : (s.modLoad d f).groups = s.groups := rfl
@[simp] theorem modLoad_rxDies : (s.modLoad d f).rxDies = s.rxDies := rfl
@[simp] theorem modLoad_seams : (s.modLoad d f).seams = s.seams := rfl
@[simp] theorem modLoad_txDies : (s.modLoad d f).txDies = s.txDies := rfl
@[simp] theorem modLoad_txArms : (s.modLoad d f).txArms = s.txArms := rfl
@[simp] theorem modLoad_lut : (s.modLoad d f).lut = s.lut := rfl
@[simp] theorem modLoad_fec : (s.modLoad d f).fec = s.fec := rfl
@[simp] theorem modLoad_streams : (s.modLoad d f).streams = s.streams := rfl
@[simp] theorem modLoad_frm : (s.modLoad d f).frm = s.frm := rfl
@[simp] theorem modLoad_flows : (s.modLoad d f).flows = s.flows := rfl
@[simp] theorem modLoad_keyJobs : (s.modLoad d f).keyJobs = s.keyJobs := rfl
@[simp] theorem modLoad_crc : (s.modLoad d f).crc = s.crc := rfl
@[simp] theorem modLoad_lanes : (s.modLoad d f).lanes = s.lanes := rfl
@[simp] theorem modLoad_grps : (s.modLoad d f).grps = s.grps := rfl
@[simp] theorem modLoad_stamps : (s.modLoad d f).stamps = s.stamps := rfl
@[simp] theorem modLoad_wordErr : (s.modLoad d f).wordErr = s.wordErr := rfl
@[simp] theorem modLoad_banks : (s.modLoad d f).banks = s.banks := rfl
@[simp] theorem modLoad_tcms : (s.modLoad d f).tcms = s.tcms := rfl
@[simp] theorem modLoad_engs : (s.modLoad d f).engs = s.engs := rfl
@[simp] theorem modLoad_dma : (s.modLoad d f).dma = s.dma := rfl
@[simp] theorem modLoad_memSts : (s.modLoad d f).memSts = s.memSts := rfl
@[simp] theorem modLoad_pwr : (s.modLoad d f).pwr = s.pwr := rfl
@[simp] theorem modLoad_mgr : (s.modLoad d f).mgr = s.mgr := rfl
@[simp] theorem modLoad_flowPwr : (s.modLoad d f).flowPwr = s.flowPwr := rfl
@[simp] theorem modLoad_tim : (s.modLoad d f).tim = s.tim := rfl
@[simp] theorem modLoad_refs : (s.modLoad d f).refs = s.refs := rfl
@[simp] theorem modLoad_seqs : (s.modLoad d f).seqs = s.seqs := rfl
@[simp] theorem modLoad_wch : (s.modLoad d f).wch = s.wch := rfl
@[simp] theorem modLoad_plm : (s.modLoad d f).plm = s.plm := rfl
@[simp] theorem modLoad_teams : (s.modLoad d f).teams = s.teams := rfl
@[simp] theorem modLoad_cairn : (s.modLoad d f).cairn = s.cairn := rfl
@[simp] theorem modLoad_retries : (s.modLoad d f).retries = s.retries := rfl
@[simp] theorem modLoad_pins : (s.modLoad d f).pins = s.pins := rfl
@[simp] theorem modLoad_taps : (s.modLoad d f).taps = s.taps := rfl
@[simp] theorem modLoad_out : (s.modLoad d f).out = s.out := rfl
@[simp] theorem modLoad_fresh : (s.modLoad d f).fresh = s.fresh := rfl
@[simp] theorem modLoad_pending : (s.modLoad d f).pending = s.pending := rfl
@[simp] theorem modLoad_rd (g : Fld) (e j : Nat) : (s.modLoad d f).rd g e j = s.rd g e j := rfl
end

section
variable (d e : Nat) (f : EngSt → EngSt)
@[simp] theorem modEng_part : (s.modEng d e f).part = s.part := rfl
@[simp] theorem modEng_regs : (s.modEng d e f).regs = s.regs := rfl
@[simp] theorem modEng_staged : (s.modEng d e f).staged = s.staged := rfl
@[simp] theorem modEng_pend : (s.modEng d e f).pend = s.pend := rfl
@[simp] theorem modEng_shadow : (s.modEng d e f).shadow = s.shadow := rfl
@[simp] theorem modEng_mem : (s.modEng d e f).mem = s.mem := rfl
@[simp] theorem modEng_flash : (s.modEng d e f).flash = s.flash := rfl
@[simp] theorem modEng_otp : (s.modEng d e f).otp = s.otp := rfl
@[simp] theorem modEng_dieId : (s.modEng d e f).dieId = s.dieId := rfl
@[simp] theorem modEng_time : (s.modEng d e f).time = s.time := rfl
@[simp] theorem modEng_dies : (s.modEng d e f).dies = s.dies := rfl
@[simp] theorem modEng_crown : (s.modEng d e f).crown = s.crown := rfl
@[simp] theorem modEng_bus : (s.modEng d e f).bus = s.bus := rfl
@[simp] theorem modEng_txn : (s.modEng d e f).txn = s.txn := rfl
@[simp] theorem modEng_image : (s.modEng d e f).image = s.image := rfl
@[simp] theorem modEng_load : (s.modEng d e f).load = s.load := rfl
@[simp] theorem modEng_units : (s.modEng d e f).units = s.units := rfl
@[simp] theorem modEng_blkRst : (s.modEng d e f).blkRst = s.blkRst := rfl
@[simp] theorem modEng_cnv : (s.modEng d e f).cnv = s.cnv := rfl
@[simp] theorem modEng_coef : (s.modEng d e f).coef = s.coef := rfl
@[simp] theorem modEng_calRej : (s.modEng d e f).calRej = s.calRej := rfl
@[simp] theorem modEng_calRun : (s.modEng d e f).calRun = s.calRun := rfl
@[simp] theorem modEng_calWin : (s.modEng d e f).calWin = s.calWin := rfl
@[simp] theorem modEng_rxArms : (s.modEng d e f).rxArms = s.rxArms := rfl
@[simp] theorem modEng_groups : (s.modEng d e f).groups = s.groups := rfl
@[simp] theorem modEng_rxDies : (s.modEng d e f).rxDies = s.rxDies := rfl
@[simp] theorem modEng_seams : (s.modEng d e f).seams = s.seams := rfl
@[simp] theorem modEng_txDies : (s.modEng d e f).txDies = s.txDies := rfl
@[simp] theorem modEng_txArms : (s.modEng d e f).txArms = s.txArms := rfl
@[simp] theorem modEng_lut : (s.modEng d e f).lut = s.lut := rfl
@[simp] theorem modEng_fec : (s.modEng d e f).fec = s.fec := rfl
@[simp] theorem modEng_streams : (s.modEng d e f).streams = s.streams := rfl
@[simp] theorem modEng_frm : (s.modEng d e f).frm = s.frm := rfl
@[simp] theorem modEng_flows : (s.modEng d e f).flows = s.flows := rfl
@[simp] theorem modEng_keyJobs : (s.modEng d e f).keyJobs = s.keyJobs := rfl
@[simp] theorem modEng_crc : (s.modEng d e f).crc = s.crc := rfl
@[simp] theorem modEng_lanes : (s.modEng d e f).lanes = s.lanes := rfl
@[simp] theorem modEng_grps : (s.modEng d e f).grps = s.grps := rfl
@[simp] theorem modEng_stamps : (s.modEng d e f).stamps = s.stamps := rfl
@[simp] theorem modEng_wordErr : (s.modEng d e f).wordErr = s.wordErr := rfl
@[simp] theorem modEng_banks : (s.modEng d e f).banks = s.banks := rfl
@[simp] theorem modEng_tcms : (s.modEng d e f).tcms = s.tcms := rfl
@[simp] theorem modEng_dma : (s.modEng d e f).dma = s.dma := rfl
@[simp] theorem modEng_memSts : (s.modEng d e f).memSts = s.memSts := rfl
@[simp] theorem modEng_pwr : (s.modEng d e f).pwr = s.pwr := rfl
@[simp] theorem modEng_mgr : (s.modEng d e f).mgr = s.mgr := rfl
@[simp] theorem modEng_flowPwr : (s.modEng d e f).flowPwr = s.flowPwr := rfl
@[simp] theorem modEng_tim : (s.modEng d e f).tim = s.tim := rfl
@[simp] theorem modEng_refs : (s.modEng d e f).refs = s.refs := rfl
@[simp] theorem modEng_seqs : (s.modEng d e f).seqs = s.seqs := rfl
@[simp] theorem modEng_wch : (s.modEng d e f).wch = s.wch := rfl
@[simp] theorem modEng_plm : (s.modEng d e f).plm = s.plm := rfl
@[simp] theorem modEng_teams : (s.modEng d e f).teams = s.teams := rfl
@[simp] theorem modEng_cairn : (s.modEng d e f).cairn = s.cairn := rfl
@[simp] theorem modEng_retries : (s.modEng d e f).retries = s.retries := rfl
@[simp] theorem modEng_pins : (s.modEng d e f).pins = s.pins := rfl
@[simp] theorem modEng_taps : (s.modEng d e f).taps = s.taps := rfl
@[simp] theorem modEng_out : (s.modEng d e f).out = s.out := rfl
@[simp] theorem modEng_fresh : (s.modEng d e f).fresh = s.fresh := rfl
@[simp] theorem modEng_pending : (s.modEng d e f).pending = s.pending := rfl
@[simp] theorem modEng_rd (g : Fld) (e j : Nat) : (s.modEng d e f).rd g e j = s.rd g e j := rfl
end

section
variable (d : Nat) (f : CairnSt → CairnSt)
@[simp] theorem modCairn_part : (s.modCairn d f).part = s.part := rfl
@[simp] theorem modCairn_regs : (s.modCairn d f).regs = s.regs := rfl
@[simp] theorem modCairn_staged : (s.modCairn d f).staged = s.staged := rfl
@[simp] theorem modCairn_pend : (s.modCairn d f).pend = s.pend := rfl
@[simp] theorem modCairn_shadow : (s.modCairn d f).shadow = s.shadow := rfl
@[simp] theorem modCairn_mem : (s.modCairn d f).mem = s.mem := rfl
@[simp] theorem modCairn_flash : (s.modCairn d f).flash = s.flash := rfl
@[simp] theorem modCairn_otp : (s.modCairn d f).otp = s.otp := rfl
@[simp] theorem modCairn_dieId : (s.modCairn d f).dieId = s.dieId := rfl
@[simp] theorem modCairn_time : (s.modCairn d f).time = s.time := rfl
@[simp] theorem modCairn_dies : (s.modCairn d f).dies = s.dies := rfl
@[simp] theorem modCairn_crown : (s.modCairn d f).crown = s.crown := rfl
@[simp] theorem modCairn_bus : (s.modCairn d f).bus = s.bus := rfl
@[simp] theorem modCairn_txn : (s.modCairn d f).txn = s.txn := rfl
@[simp] theorem modCairn_image : (s.modCairn d f).image = s.image := rfl
@[simp] theorem modCairn_load : (s.modCairn d f).load = s.load := rfl
@[simp] theorem modCairn_units : (s.modCairn d f).units = s.units := rfl
@[simp] theorem modCairn_blkRst : (s.modCairn d f).blkRst = s.blkRst := rfl
@[simp] theorem modCairn_cnv : (s.modCairn d f).cnv = s.cnv := rfl
@[simp] theorem modCairn_coef : (s.modCairn d f).coef = s.coef := rfl
@[simp] theorem modCairn_calRej : (s.modCairn d f).calRej = s.calRej := rfl
@[simp] theorem modCairn_calRun : (s.modCairn d f).calRun = s.calRun := rfl
@[simp] theorem modCairn_calWin : (s.modCairn d f).calWin = s.calWin := rfl
@[simp] theorem modCairn_rxArms : (s.modCairn d f).rxArms = s.rxArms := rfl
@[simp] theorem modCairn_groups : (s.modCairn d f).groups = s.groups := rfl
@[simp] theorem modCairn_rxDies : (s.modCairn d f).rxDies = s.rxDies := rfl
@[simp] theorem modCairn_seams : (s.modCairn d f).seams = s.seams := rfl
@[simp] theorem modCairn_txDies : (s.modCairn d f).txDies = s.txDies := rfl
@[simp] theorem modCairn_txArms : (s.modCairn d f).txArms = s.txArms := rfl
@[simp] theorem modCairn_lut : (s.modCairn d f).lut = s.lut := rfl
@[simp] theorem modCairn_fec : (s.modCairn d f).fec = s.fec := rfl
@[simp] theorem modCairn_streams : (s.modCairn d f).streams = s.streams := rfl
@[simp] theorem modCairn_frm : (s.modCairn d f).frm = s.frm := rfl
@[simp] theorem modCairn_flows : (s.modCairn d f).flows = s.flows := rfl
@[simp] theorem modCairn_keyJobs : (s.modCairn d f).keyJobs = s.keyJobs := rfl
@[simp] theorem modCairn_crc : (s.modCairn d f).crc = s.crc := rfl
@[simp] theorem modCairn_lanes : (s.modCairn d f).lanes = s.lanes := rfl
@[simp] theorem modCairn_grps : (s.modCairn d f).grps = s.grps := rfl
@[simp] theorem modCairn_stamps : (s.modCairn d f).stamps = s.stamps := rfl
@[simp] theorem modCairn_wordErr : (s.modCairn d f).wordErr = s.wordErr := rfl
@[simp] theorem modCairn_banks : (s.modCairn d f).banks = s.banks := rfl
@[simp] theorem modCairn_tcms : (s.modCairn d f).tcms = s.tcms := rfl
@[simp] theorem modCairn_engs : (s.modCairn d f).engs = s.engs := rfl
@[simp] theorem modCairn_dma : (s.modCairn d f).dma = s.dma := rfl
@[simp] theorem modCairn_memSts : (s.modCairn d f).memSts = s.memSts := rfl
@[simp] theorem modCairn_pwr : (s.modCairn d f).pwr = s.pwr := rfl
@[simp] theorem modCairn_mgr : (s.modCairn d f).mgr = s.mgr := rfl
@[simp] theorem modCairn_flowPwr : (s.modCairn d f).flowPwr = s.flowPwr := rfl
@[simp] theorem modCairn_tim : (s.modCairn d f).tim = s.tim := rfl
@[simp] theorem modCairn_refs : (s.modCairn d f).refs = s.refs := rfl
@[simp] theorem modCairn_seqs : (s.modCairn d f).seqs = s.seqs := rfl
@[simp] theorem modCairn_wch : (s.modCairn d f).wch = s.wch := rfl
@[simp] theorem modCairn_plm : (s.modCairn d f).plm = s.plm := rfl
@[simp] theorem modCairn_teams : (s.modCairn d f).teams = s.teams := rfl
@[simp] theorem modCairn_retries : (s.modCairn d f).retries = s.retries := rfl
@[simp] theorem modCairn_pins : (s.modCairn d f).pins = s.pins := rfl
@[simp] theorem modCairn_taps : (s.modCairn d f).taps = s.taps := rfl
@[simp] theorem modCairn_out : (s.modCairn d f).out = s.out := rfl
@[simp] theorem modCairn_fresh : (s.modCairn d f).fresh = s.fresh := rfl
@[simp] theorem modCairn_pending : (s.modCairn d f).pending = s.pending := rfl
@[simp] theorem modCairn_rd (g : Fld) (e j : Nat) : (s.modCairn d f).rd g e j = s.rd g e j := rfl
end

end Sys2Proof.Laws
end

