-- ==== Sys2Proof/Laws/Access.lean ====
section
/-! SUPPORT. What an access of the serial path does at a register of a die that answers: the address decode, the path
controls and the error captures are settled once, and the access is one at the register's spot. -/
namespace Sys2Proof.Laws
open Sys2Proof Sys2Proof.Machine

/-- No part has more than eight dies (R2). -/
theorem dies_le (p : Part) : p.dies ≤ 8 := by unfold Part.dies; split <;> decide

/-- An address in the window of a die the part has names that die's offset (R54). -/
theorem regionOf_die {n d off addr : Nat} (hn : n ≤ 8) (hd : d < n) (ho : off < 0x04000000) (ha : addr = dieBase d + off) :
    regionOf n addr = .die d off := by
  unfold dieBase at ha
  have h1 : addr / 0x04000000 = d := by omega
  have h2 : addr % 0x04000000 = off := by omega
  unfold regionOf
  rw [if_pos (by omega), h1, if_pos hd, h2]

/-- The record of the access in hand does not bear on what an address names or who answers. -/
theorem begin_eq (s : State) (a : Nat) : s.begin a = { s with bus := { s.bus with last := { addr := a } } } := rfl

/-- A host access over the serial path to a register of a die whose fabric answers is the access at its spot. -/
theorem access_spi (s : State) (d blk off : Nat) (addr : Word) (sp : Spot) (write : Option Nat) (hs : Serves s)
    (hr : Reaches s d blk off addr) (hb : blk < 26) (ho : off < 0x20000) (h4 : off % 4 = 0) (hsp : spotAt blk off = sp)
    (hne : sp ≠ .empty) :
    s.access (.path .spi) addr.toNat write =
      (s.begin addr.toNat).atSpot .host false false (s.dieInst d blk sp write.isSome) sp write := by
  obtain ⟨he, ht⟩ := hs
  obtain ⟨hd, hf, ha⟩ := hr
  obtain ⟨c, hc⟩ := Option.isSome_iff_exists.mp ht
  have hreg : regionOf (s.begin addr.toNat).part.dies addr.toNat = .die d (blk * 0x40000 + off) :=
    regionOf_die (dies_le s.part) hd (by omega) (by omega)
  have ha4 : addr.toNat % 4 = 0 := by unfold dieBase at ha; omega
  have hf' : (s.begin addr.toNat).fabricOff d = false := hf
  have hc' : (s.begin addr.toNat).crown.token = some c := hc
  have hblk : (blk * 0x40000 + off) / 0x40000 = blk := by omega
  have hoff : (blk * 0x40000 + off) % 0x20000 = off := by omega
  have hview : State.viewOf ((blk * 0x40000 + off) % 0x40000) = false := by
    simp only [State.viewOf, decide_eq_false_iff_not]; omega
  have hbit : bit 0 d = false := by simp [bit]
  simp only [State.access, State.pathServed, he, hbit, Bool.false_and, State.pathAccess, State.pathDenies, Bool.false_eq_true, and_false,
    if_false, State.accessAt, hc', hreg, ha4, ne_eq, not_true_eq_false, State.atDie, hf', false_and, hblk, hoff, hsp, if_neg hne, hview]
  rw [if_neg (by omega)]
  rfl

/-- A write at a register of a die whose fabric answers. -/
theorem access_spi_write (s : State) (d blk off : Nat) (addr : Word) (r : Reg) (b k v i : Nat) (hs : Serves s)
    (hr : Reaches s d blk off addr) (hb : blk < 26) (ho : off < 0x20000) (h4 : off % 4 = 0)
    (hsp : spotAt blk off = .reg b r k) (hi : s.dieInst d blk (.reg b r k) true = some i) :
    s.access (.path .spi) addr.toNat (some v) = ((s.begin addr.toNat).respond 0).writeReg .host b i r k v := by
  rw [access_spi s d blk off addr _ (some v) hs hr hb ho h4 hsp (by simp)]
  simp [State.atSpot, hi, State.writeSpot, State.spotFlds]

/-- A read at a register of a die whose fabric answers. -/
theorem access_spi_read (s : State) (d blk off : Nat) (addr : Word) (r : Reg) (b k i : Nat) (hs : Serves s)
    (hr : Reaches s d blk off addr) (hb : blk < 26) (ho : off < 0x20000) (h4 : off % 4 = 0)
    (hsp : spotAt blk off = .reg b r k) (hi : s.dieInst d blk (.reg b r k) false = some i) :
    s.access (.path .spi) addr.toNat none = (s.begin addr.toNat).readReg false r r.flds i k := by
  rw [access_spi s d blk off addr _ none hs hr hb ho h4 hsp (by simp)]
  simp [State.atSpot, hi, State.readSpot, State.spotFlds]

end Sys2Proof.Laws
end

