-- ==== Sys2Proof/Laws/Records.lean ====
section
/-! SUPPORT. What each change of a unit's record gives: the record changed, and every other record as before. -/
namespace Sys2Proof.Laws
open Sys2Proof Sys2Proof.Machine

theorem unitKey_inj {d i e j : Nat} : unitKey d i = unitKey e j ↔ d = e ∧ i = j := by
  simp [unitKey]

variable (s : State)

@[simp] theorem modDie_die (d : Nat) (f : DieSt → DieSt) : (s.modDie d f).die d = f (s.die d) := by
  simp [State.modDie, State.die, State.setDie]

theorem modDie_die_other {d e : Nat} (h : e ≠ d) (f : DieSt → DieSt) : (s.modDie d f).die e = s.die e :=
  get_set_other _ _ _ (fun k => h (unitKey_inj.mp k).1) _

@[simp] theorem modTeam_team (d : Nat) (f : TeamSt → TeamSt) : (s.modTeam d f).team d = f (s.team d) := by
  simp [State.modTeam, State.team]

theorem modTeam_team_other {d e : Nat} (h : e ≠ d) (f : TeamSt → TeamSt) : (s.modTeam d f).team e = s.team e :=
  get_set_other _ _ _ (fun k => h (unitKey_inj.mp k).1) _

@[simp] theorem modCnv_cnvSt (d : Nat) (f : CnvSt → CnvSt) : (s.modCnv d f).cnvSt d = f (s.cnvSt d) := by
  simp [State.modCnv, State.cnvSt]

theorem modCnv_cnvSt_other {d e : Nat} (h : e ≠ d) (f : CnvSt → CnvSt) : (s.modCnv d f).cnvSt e = s.cnvSt e :=
  get_set_other _ _ _ (fun k => h (unitKey_inj.mp k).1) _

@[simp] theorem modRxDie_rxDie (d : Nat) (f : RxDie → RxDie) : (s.modRxDie d f).rxDie d = f (s.rxDie d) := by
  simp [State.modRxDie, State.rxDie]

theorem modRxDie_rxDie_other {d e : Nat} (h : e ≠ d) (f : RxDie → RxDie) : (s.modRxDie d f).rxDie e = s.rxDie e :=
  get_set_other _ _ _ (fun k => h (unitKey_inj.mp k).1) _

@[simp] theorem modTxDie_txDie (d : Nat) (f : TxDie → TxDie) : (s.modTxDie d f).txDie d = f (s.txDie d) := by
  simp [State.modTxDie, State.txDie]

theorem modTxDie_txDie_other {d e : Nat} (h : e ≠ d) (f : TxDie → TxDie) : (s.modTxDie d f).txDie e = s.txDie e :=
  get_set_other _ _ _ (fun k => h (unitKey_inj.mp k).1) _

@[simp] theorem modFec_fecSt (d : Nat) (f : FecSt → FecSt) : (s.modFec d f).fecSt d = f (s.fecSt d) := by
  simp [State.modFec, State.fecSt]

theorem modFec_fecSt_other {d e : Nat} (h : e ≠ d) (f : FecSt → FecSt) : (s.modFec d f).fecSt e = s.fecSt e :=
  get_set_other _ _ _ (fun k => h (unitKey_inj.mp k).1) _

@[simp] theorem modMem_memSt (d : Nat) (f : MemSt → MemSt) : (s.modMem d f).memSt d = f (s.memSt d) := by
  simp [State.modMem, State.memSt]

theorem modMem_memSt_other {d e : Nat} (h : e ≠ d) (f : MemSt → MemSt) : (s.modMem d f).memSt e = s.memSt e :=
  get_set_other _ _ _ (fun k => h (unitKey_inj.mp k).1) _

@[simp] theorem modPwr_pwrSt (d : Nat) (f : PwrSt → PwrSt) : (s.modPwr d f).pwrSt d = f (s.pwrSt d) := by
  simp [State.modPwr, State.pwrSt]

theorem modPwr_pwrSt_other {d e : Nat} (h : e ≠ d) (f : PwrSt → PwrSt) : (s.modPwr d f).pwrSt e = s.pwrSt e :=
  get_set_other _ _ _ (fun k => h (unitKey_inj.mp k).1) _

@[simp] theorem modMgr_mgrSt (d : Nat) (f : MgrSt → MgrSt) : (s.modMgr d f).mgrSt d = f (s.mgrSt d) := by
  simp [State.modMgr, State.mgrSt]

theorem modMgr_mgrSt_other {d e : Nat} (h : e ≠ d) (f : MgrSt → MgrSt) : (s.modMgr d f).mgrSt e = s.mgrSt e :=
  get_set_other _ _ _ (fun k => h (unitKey_inj.mp k).1) _

@[simp] theorem modSeq_seqSt (d : Nat) (f : SeqSt → SeqSt) : (s.modSeq d f).seqSt d = f (s.seqSt d) := by
  simp [State.modSeq, State.seqSt]

theorem modSeq_seqSt_other {d e : Nat} (h : e ≠ d) (f : SeqSt → SeqSt) : (s.modSeq d f).seqSt e = s.seqSt e :=
  get_set_other _ _ _ (fun k => h (unitKey_inj.mp k).1) _

@[simp] theorem modLoad_loadSt (d : Nat) (f : LoadSt → LoadSt) : (s.modLoad d f).loadSt d = f (s.loadSt d) := by
  simp [State.modLoad, State.loadSt]

theorem modLoad_loadSt_other {d e : Nat} (h : e ≠ d) (f : LoadSt → LoadSt) : (s.modLoad d f).loadSt e = s.loadSt e :=
  get_set_other _ _ _ (fun k => h (unitKey_inj.mp k).1) _

@[simp] theorem modCairn_cairnSt (d : Nat) (f : CairnSt → CairnSt) : (s.modCairn d f).cairnSt d = f (s.cairnSt d) := by
  simp [State.modCairn, State.cairnSt]

theorem modCairn_cairnSt_other {d e : Nat} (h : e ≠ d) (f : CairnSt → CairnSt) : (s.modCairn d f).cairnSt e = s.cairnSt e :=
  get_set_other _ _ _ (fun k => h (unitKey_inj.mp k).1) _

@[simp] theorem modRx_rxArm (d i : Nat) (f : RxArm → RxArm) : (s.modRx d i f).rxArm d i = f (s.rxArm d i) := by
  simp [State.modRx, State.rxArm]

theorem modRx_rxArm_other {d i e j : Nat} (h : ¬ (e = d ∧ j = i)) (f : RxArm → RxArm) :
    (s.modRx d i f).rxArm e j = s.rxArm e j :=
  get_set_other _ _ _ (fun k => h (unitKey_inj.mp k)) _

@[simp] theorem modTx_txArm (d i : Nat) (f : TxArm → TxArm) : (s.modTx d i f).txArm d i = f (s.txArm d i) := by
  simp [State.modTx, State.txArm]

theorem modTx_txArm_other {d i e j : Nat} (h : ¬ (e = d ∧ j = i)) (f : TxArm → TxArm) :
    (s.modTx d i f).txArm e j = s.txArm e j :=
  get_set_other _ _ _ (fun k => h (unitKey_inj.mp k)) _

@[simp] theorem modStream_stream (d i : Nat) (f : StreamSt → StreamSt) : (s.modStream d i f).stream d i = f (s.stream d i) := by
  simp [State.modStream, State.stream]

theorem modStream_stream_other {d i e j : Nat} (h : ¬ (e = d ∧ j = i)) (f : StreamSt → StreamSt) :
    (s.modStream d i f).stream e j = s.stream e j :=
  get_set_other _ _ _ (fun k => h (unitKey_inj.mp k)) _

@[simp] theorem modFrm_frmArm (d i : Nat) (f : FrmArm → FrmArm) : (s.modFrm d i f).frmArm d i = f (s.frmArm d i) := by
  simp [State.modFrm, State.frmArm]

theorem modFrm_frmArm_other {d i e j : Nat} (h : ¬ (e = d ∧ j = i)) (f : FrmArm → FrmArm) :
    (s.modFrm d i f).frmArm e j = s.frmArm e j :=
  get_set_other _ _ _ (fun k => h (unitKey_inj.mp k)) _

@[simp] theorem modFlow_flow (d i : Nat) (f : FlowSt → FlowSt) : (s.modFlow d i f).flow d i = f (s.flow d i) := by
  simp [State.modFlow, State.flow]

theorem modFlow_flow_other {d i e j : Nat} (h : ¬ (e = d ∧ j = i)) (f : FlowSt → FlowSt) :
    (s.modFlow d i f).flow e j = s.flow e j :=
  get_set_other _ _ _ (fun k => h (unitKey_inj.mp k)) _

@[simp] theorem modCrc_crcSt (d i : Nat) (f : CrcSt → CrcSt) : (s.modCrc d i f).crcSt d i = f (s.crcSt d i) := by
  simp [State.modCrc, State.crcSt]

theorem modCrc_crcSt_other {d i e j : Nat} (h : ¬ (e = d ∧ j = i)) (f : CrcSt → CrcSt) :
    (s.modCrc d i f).crcSt e j = s.crcSt e j :=
  get_set_other _ _ _ (fun k => h (unitKey_inj.mp k)) _

@[simp] theorem modLane_lane (d i : Nat) (f : LaneSt → LaneSt) : (s.modLane d i f).lane d i = f (s.lane d i) := by
  simp [State.modLane, State.lane]

theorem modLane_lane_other {d i e j : Nat} (h : ¬ (e = d ∧ j = i)) (f : LaneSt → LaneSt) :
    (s.modLane d i f).lane e j = s.lane e j :=
  get_set_other _ _ _ (fun k => h (unitKey_inj.mp k)) _

@[simp] theorem modGrp_grp (d i : Nat) (f : GrpSt → GrpSt) : (s.modGrp d i f).grp d i = f (s.grp d i) := by
  simp [State.modGrp, State.grp]

theorem modGrp_grp_other {d i e j : Nat} (h : ¬ (e = d ∧ j = i)) (f : GrpSt → GrpSt) :
    (s.modGrp d i f).grp e j = s.grp e j :=
  get_set_other _ _ _ (fun k => h (unitKey_inj.mp k)) _

@[simp] theorem modBank_bankSt (d i : Nat) (f : BankSt → BankSt) : (s.modBank d i f).bankSt d i = f (s.bankSt d i) := by
  simp [State.modBank, State.bankSt]

theorem modBank_bankSt_other {d i e j : Nat} (h : ¬ (e = d ∧ j = i)) (f : BankSt → BankSt) :
    (s.modBank d i f).bankSt e j = s.bankSt e j :=
  get_set_other _ _ _ (fun k => h (unitKey_inj.mp k)) _

@[simp] theorem modTcm_tcmSt (d i : Nat) (f : TcmSt → TcmSt) : (s.modTcm d i f).tcmSt d i = f (s.tcmSt d i) := by
  simp [State.modTcm, State.tcmSt]

theorem modTcm_tcmSt_other {d i e j : Nat} (h : ¬ (e = d ∧ j = i)) (f : TcmSt → TcmSt) :
    (s.modTcm d i f).tcmSt e j = s.tcmSt e j :=
  get_set_other _ _ _ (fun k => h (unitKey_inj.mp k)) _

@[simp] theorem modFlowPwr_flowPwrSt (d i : Nat) (f : FlowPwr → FlowPwr) : (s.modFlowPwr d i f).flowPwrSt d i = f (s.flowPwrSt d i) := by
  simp [State.modFlowPwr, State.flowPwrSt]

theorem modFlowPwr_flowPwrSt_other {d i e j : Nat} (h : ¬ (e = d ∧ j = i)) (f : FlowPwr → FlowPwr) :
    (s.modFlowPwr d i f).flowPwrSt e j = s.flowPwrSt e j :=
  get_set_other _ _ _ (fun k => h (unitKey_inj.mp k)) _

@[simp] theorem modWch_wchSt (d i : Nat) (f : WchSt → WchSt) : (s.modWch d i f).wchSt d i = f (s.wchSt d i) := by
  simp [State.modWch, State.wchSt]

theorem modWch_wchSt_other {d i e j : Nat} (h : ¬ (e = d ∧ j = i)) (f : WchSt → WchSt) :
    (s.modWch d i f).wchSt e j = s.wchSt e j :=
  get_set_other _ _ _ (fun k => h (unitKey_inj.mp k)) _

@[simp] theorem modEng_eng (d i : Nat) (f : EngSt → EngSt) : (s.modEng d i f).eng d i = f (s.eng d i) := by
  simp [State.modEng, State.eng]

theorem modEng_eng_other {d i e j : Nat} (h : ¬ (e = d ∧ j = i)) (f : EngSt → EngSt) :
    (s.modEng d i f).eng e j = s.eng e j :=
  get_set_other _ _ _ (fun k => h (unitKey_inj.mp k)) _

end Sys2Proof.Laws
end

