-- ==== Sys2Proof/Laws/Signals.lean ====
section
/-! SUPPORT. The small laws of rounding, of words dealt to slots and of the lane scrambler, and of the zero
codeword. -/
namespace Sys2Proof.Laws
open Sys2Proof Sys2Proof.Machine

/-- A whole quantity is its own value in a register's unit. -/
@[simp] theorem round_intCast (n : Int) : Arith.round (n : ℚ) = n := by simp [Arith.round]

/-- Rounding gives one of the two whole numbers beside the quantity. -/
theorem round_between (x : ℚ) : x.floor ≤ Arith.round x ∧ Arith.round x ≤ x.floor + 1 := by
  unfold Arith.round; split <;> omega

/-- Cutting words into pieces gives the number of pieces asked for. -/
@[simp] theorem chunk_length (k n : Nat) (bs : List Bool) : (chunk k n bs).length = n := by
  induction n generalizing bs with
  | zero => rfl
  | succ n ih => simp [chunk, ih]

/-- Every slot of a flow gets a list of words. -/
@[simp] theorem splitShares_length {α : Type} (counts : List Nat) (words : List α) :
    (splitShares counts words).length = counts.length := by simp [splitShares]

/-- The descrambler of a lane undoes its scrambler, and both keep the same history (R283). -/
theorem selfDescramble_selfScramble (hist bits : List Bool) :
    selfDescramble hist (selfScramble hist bits).1 = (bits, (selfScramble hist bits).2) := by
  induction bits generalizing hist with
  | nil => rfl
  | cons b bs ih => simp [selfScramble, selfDescramble, ih]

/-- Scrambling keeps the length of a block. -/
@[simp] theorem selfScramble_length (hist bits : List Bool) : (selfScramble hist bits).1.length = bits.length := by
  induction bits generalizing hist with
  | nil => rfl
  | cons b bs ih => simp [selfScramble, ih]

/-- Bytes spelled as bits. -/
@[simp] theorem unpackBits_length (bs : List Byte) : (unpackBits bs).length = 8 * bs.length := by
  simp [unpackBits, List.length_flatMap, Nat.mul_comm]

/-- A control block has 64 bits where its body has at most seven bytes (R284). -/
theorem ctlBlock_length (type : Nat) (body : List Byte) (h : body.length ≤ 7) : (ctlBlock type body).bits.length = 64 := by
  simp [ctlBlock]; omega

@[simp] theorem rsMul_zero_left (b : Nat) : rsMul 0 b = 0 := by simp [rsMul, List.range_succ]

/-- Zeros are a codeword of every length and number of check bytes, whichever root is the generator's first (R396). -/
theorem rsDecode_zeros (n k : Nat) : rsDecode n (List.replicate k 0) = some (List.replicate k 0, 0) := by
  have h : ∀ x m, (List.replicate m (0 : Byte)).foldl (fun a b => rsMul a x ^^^ b.toNat) 0 = 0 := fun x m => by
    induction m with
    | zero => rfl
    | succ m ih => simpa [List.replicate_succ] using ih
  have g : (rsSyndromes n (List.replicate k (0 : Byte))).all (· == 0) = true :=
    List.all_eq_true.2 fun y hy => by
      obtain ⟨x, -, rfl⟩ := List.mem_map.1 hy
      exact beq_iff_eq.2 (h _ _)
  exact if_pos g

end Sys2Proof.Laws
end

