-- ==== Sys2Proof/Tests/Slice0.lean ====
section
/-! SUPPORT. Tests: ill-formed commands that the checks refuse, one step of a command of each family on a small state, and for
each statement states and operands that meet the hypotheses of its clauses. Expected values come from the spec's rules. -/
namespace Sys2Proof.Tests
open Sys2Proof Sys2Proof.Machine

set_option Elab.async false

/-- A package of two dies in service: die 0 holds the crown token, the domains of both dies are on. -/
def up : State :=
  let on := fun (s : State) (d : Nat) =>
    (((s.wr PWR_DOM_STATE d 0 0).wr PWR_DOM_STATE d 0 1).wr PWR_DOM_STATE d 0 2).wr PWR_DOM_STATE d 0 3
  { on (on State.reset 0) 1 with crown := { token := some 0, endpoint := .service } }

/-- The same package with both dies in one team, active, the sampling reference present. -/
def team : State :=
  ((((up.wr PKG_TEAM_MAP_SIZE pkg 5).wr PKG_MEMBER_STATUS_STATE pkg 10).wr CNV_STATUS_SCLK_LOCK 0 1).wr CNV_STATUS_SCLK_LOCK 1 1)

/-! ### Ill-formed commands -/

theorem test_site_refused : Instr.wellFormed (.dieReset 2 false) { size := .d2, isX := false } = false := by decide
theorem test_unit_refused : Instr.wellFormed (.drainIdle 0 12 64) { size := .d2, isX := false } = false := by decide
theorem test_chunk_refused : Instr.wellFormed (.imageChunk 0 349526) { size := .d2, isX := false } = false := by decide
theorem test_body_refused : Instr.wellFormed (.propose 0 (List.replicate 29 0)) { size := .d2, isX := false } = false := by
  decide
theorem test_payload_refused : Instr.payloadOk (.hostPacket (List.replicate 1025 0)) = false := by
  decide +kernel
theorem test_wellFormed_accepted :
    Instr.wellFormed (.dieReset 1 false) { size := .d2, isX := false } = true ∧
    Instr.wellFormed (.drainIdle 0 12 63) { size := .d2, isX := false } = true ∧
    Instr.wellFormed (.imageChunk 0 349525) { size := .d2, isX := false } = true := by decide

/-! ### Witnesses: running, register accesses -/

theorem witness_StepRunsFrontCommand : { up with pending := [.refxoLoss, .refxoReturn] }.pending = .refxoLoss :: [.refxoReturn] := rfl
theorem witness_EmptyQueueIdles : up.pending = [] := by decide +kernel
/-- A package one multiframe after power-on, in which nothing has happened. -/
def quiet : State := { State.reset with time := { mf := 1 } }
theorem quiet_live : ∀ d, d < quiet.part.dies → quiet.liveDie d = 0 := by decide +kernel
theorem quiet_token : quiet.crown.token = none := rfl
theorem witness_StepsKeepTreeSettled : ∃ s t, Settled s ∧ step s = .next t := by
  refine ⟨quiet, quiet, ⟨?_, ?_⟩, rfl⟩
  · intro d hd i h
    rw [quiet_live d hd, Nat.zero_testBit] at h
    cases h
  · intro c h
    rw [quiet_token] at h
    cases h
theorem witness_EveryCommandAnswers : (Instr.sclkLost 2).site = some 2 ∧ up.part.dies ≤ ((2 : Fin 8) : Nat) := by decide

theorem witness_UnalignedAccessRefused : Serves up ∧ (0x00000001#32 : Word).toNat % 4 ≠ 0 ∧ (0xFFFFFFFF#32 : Word).toNat % 4 ≠ 0 := by
  unfold Serves; decide +kernel
theorem witness_UnoccupiedAddressRecorded :
    (Serves up ∧ Reaches up 1 0 0x67FFFC 0x0467FFFC#32 ∧ spotAt (0x67FFFC / 0x40000) (0x67FFFC % 0x20000) = .empty) ∧
    (Reaches up 0 0 0x1400000 0x01400000#32 ∧ memAt 0x1400000 = none) ∧
    up.rootState = false ∧ regionOf up.part.dies (0xFFFFFFFC#32 : Word).toNat = .nothing ∧
    regionOf up.part.dies (0x2001FFF0#32 : Word).toNat = .package 26 0x1FFF0 ∧
    spotAt 26 (0x1FFF0 % 0x20000) = .empty ∧ regionOf up.part.dies (0x08000000#32 : Word).toNat = .noDie := by
  unfold Serves Reaches; decide +kernel
theorem witness_AccessTypesOfRegisters :
    Serves up ∧ Reaches up 0 4 0x34 0x00100034#32 ∧ Reaches up 1 3 4 0x040C0004#32 ∧ Reaches up 1 6 8 0x04180008#32 ∧
    Reaches up 0 11 0x20 0x002C0020#32 ∧ Reaches up 0 3 0x10 0x000C0010#32 := by
  unfold Serves Reaches; decide +kernel
theorem witness_StagedBroadcastMaskAndSummaryWrites :
    (Serves up ∧ Reaches up 0 7 (0x400 + 0x40 * 7) 0x001C05C0#32) ∧
    (Reaches up 1 4 (0x20000 + 0x34) 0x04120034#32 ∧ spotAt 4 0x34 = .reg 4 { reg := 0x34, stride := 0, count := 1, flds := [RXD_Q_CTRL_SNR_TR, RXD_Q_CTRL_AVG] } 0) ∧
    (up.rootState = false ∧ (0x30100034#32 : Word).toNat = 0x30000000 + 4 * 0x40000 + 0x34 ∧
      (∀ d, d < up.part.dies → up.fabricOff d = false) ∧ up.quarantined 1 = false ∧ up.parked 1 = false) := by
  unfold Serves Reaches; decide +kernel
theorem witness_ClosedPathDeniesWrites :
    Serves up ∧ up.rootState = false ∧ up.rd PKG_MGMT_PATH_CTRL_INBAND_WR_EN pkg = 0 ∧
    up.rd PKG_MGMT_PATH_CTRL_PL_WR_EN pkg = 0 ∧ (0xFFFFFFFC#32 : Word).toNat % 4 = 0 := by
  unfold Serves; decide +kernel

/-! ### Witnesses: resets, crown, ring -/

theorem witness_ResetsClearWhatTheirDomainSays :
    State.reset.pins.porDone = false ∧ (99 < 100 ∧ 1000 ≤ 1000) ∧
      ∀ d, d < up.part.dies → up.rd MEM_MARCH_CTRL_BOOT_EN d = 0 := by decide +kernel
theorem witness_DieAndBlockResetScope :
    (1 < up.part.dies ∧ up.crown.token ≠ some 1 ∧ up.memberState 1 ≠ 1 ∧ up.memberState 1 ≠ 2 ∧ up.quarantined 1 = false ∧
      up.txn.isOpen = false ∧ up.bus.running = none ∧ up.rd MEM_MARCH_CTRL_BOOT_EN 1 = 0) ∧
    (∀ b ∈ [12, 14, 21], up.heldUnits 1 b = [] ∧ up.blockIdle 1 b = true) ∧
    ({ up with blkRst := [(unitKey 1 14, true)] } : State).blkRst.find (unitKey 1 14) = some true ∧
    ∀ e ∈ ({ up with blkRst := [(unitKey 1 14, true)] } : State).blockUnits 1 14, e.2.draining = false := by decide +kernel
/-- A package that has started, its dies with a given self-test result and their image load done. -/
def tested (ok : Bool) : State :=
  let f := fun (x : DieSt) => { x with selfTest := some ok, loaded := true }
  (({ State.reset with pins := { porDone := true, resetN := true, waiting := false } }).modDie 0 f).modDie 1 f
theorem witness_SelfTestAndElection :
    ({ tested true with dies := [] }.started = true ∧ (up.die 1).held = false ∧ (up.die 1).selfTest = none) ∧
    ((tested true).started = true ∧ (tested true).crown = {} ∧ (tested true).resultsIn = true ∧
      (tested true).dieList.find? (fun d => (tested true).nearEligible d) = some 0) ∧
    ((tested false).crown = {} ∧ (tested false).resultsIn = true ∧
      (tested false).dieList.find? (fun d => (tested false).nearEligible d) = none) := by decide +kernel
/-- The crown has failed and its digest is that of the other die. -/
def failed : State := { tested true with crown := { failed := some 0, endpoint := .takeover, imageStarted := true } }
/-- A crown that serves, and a standby. -/
def standby : State := { tested true with crown := { token := some 0, handover := some 1, endpoint := .service, imageStarted := true } }
theorem witness_CrownTakeover :
    up.crown.token = some 0 ∧
    (failed.crown.token = none ∧ failed.crown.failed = some 0 ∧ failed.canClaim 1 = true ∧ failed.crown.imageStarted = true) ∧
    (1 ∉ ({ up.crown with endpoint := .takeover } : CrownSt).acks) := by decide +kernel
theorem witness_PlannedHandover :
    (standby.wr PKG_CROWN_CTRL_TARGET pkg ((1 : Fin 8) : Nat)).handoverTarget = some 1 ∧
    (standby.wr PKG_CROWN_CTRL_TARGET pkg ((7 : Fin 8) : Nat)).handoverTarget = some 1 ∧
    (up.wr PKG_CROWN_CTRL_TARGET pkg ((7 : Fin 8) : Nat)).handoverTarget = none ∧
    (standby.crown.handover = some 1 ∧ standby.txn.isOpen = false ∧ standby.handoverTarget = some 1) ∧
    ({ up.crown with endpoint := .handover } : CrownSt).deferredReset = none := by decide +kernel
/-- A ring message of zeros with its check. -/
def goodFrame : List Byte := List.replicate 30 0 ++ bytesBE 2 (crc16 (List.replicate 30 0))
theorem witness_RingReports :
    1 < up.part.dies ∧ up.crown.token = some 0 ∧ up.rd FLT_LOG_STATUS_COUNT 0 < 64 ∧ up.rd FLT_LOG_STATUS_NEXT 0 < 64 ∧
      ringCheckOk (List.replicate 32 1) = false ∧ ringCheckOk goodFrame = true := by
  decide +kernel
/-- A package of four dies with die 0 as the crown and a round of heartbeats open. -/
def round4 : State := { up with part := { size := .d4, isX := false }, crown := { up.crown with round := true } }
theorem witness_HeartbeatRounds :
    (up.crown.token = some 0 ∧ 1 < up.part.dies ∧ (0 : Nat) ≠ 1) ∧
    (3 < round4.part.dies ∧ round4.crown.token = some 0 ∧ round4.crown.round = true ∧ (round4.die 3).answered = none ∧
      ∃ e ∈ round4.others 0, e ≠ 3 ∧ (round4.die e).answered = none) ∧
    ((up.modDie 1 fun x => { x with waitReset := true }).die 1).waitReset = true ∧ up.quarantined 1 = false := by decide +kernel
theorem witness_MembershipRequests :
    ((up.modDie 1 fun x => { x with departed := true }).die 1).departed = true ∧ (up.team (up.teamBase 1)).baseCamp = false ∧
    (∃ d, d < up.part.dies ∧ (2#8).getLsbD d = true ∧ (up.wr PKG_MEMBER_STATUS_STATE pkg 4).memberState d = 1) ∧
    (1 < up.part.dies ∧ (3#8).getLsbD 1 = true ∧ up.crown.token ≠ some 1) ∧
    (((up.wr PKG_QUAR_STATUS_QUARANTINED pkg 2)).quarantined 1 = true) := by decide +kernel

/-! ### Witnesses: pins, faults, parking, images -/

/-- One rail of die 1 is low, and the die is held. -/
def fallen (r : Rail) : State := { up with pins := { low := 2 ^ (5 + r.index) } }
theorem witness_RailsClockPinAndGpio :
    (∀ r ∈ [Rail.core, Rail.ret, Rail.cnv, Rail.hl], (fallen r).railLow 1 r.index = true ∧
      (∀ k, k < 4 → k ≠ r.index → (fallen r).railLow 1 k = false)) ∧
    ((fallen .core).pins.allFell = false ∧ (fallen .core).rootState = false ∧ (fallen .core).retiredDie 1 = false) ∧
    (up.gpioDriven = true ∧ up.rd PKG_GPIO_DIR_OUT_EN pkg = 0 ∧ up.pins.gpio.testBit 15 = false ∧
      ((up.wr PKG_GPIO_EDGE_RISE pkg 32768).rd PKG_GPIO_EDGE_RISE pkg).testBit 15 = true) := by decide +kernel
theorem witness_BoundaryScanInstructions : ((1 : Fin 8) : Nat) < up.part.dies := by decide +kernel
theorem witness_FaultPolicy :
    up.rd FLT_LOG_STATUS_COUNT 1 < 64 ∧ (up.retiredDie 1 = false ∧ up.crown.token ≠ some 1) ∧
    (up.wr FLT_RETIRED_DIE 1 1).retiredDie 1 = true := by decide +kernel
theorem witness_ParkingAndPackageSleep :
    (up.parked 1 = false ∧ up.crown.token ≠ some 1 ∧ up.teamSize 1 = 1 ∧ up.slotsElsewhere 1 = false) ∧
    (up.parked 0 = false ∧ up.crown.token = some 0) ∧
    ((up.wr PWR_STATUS_PARKED 1 1).parked 1 = true ∧ (up.wr PWR_STATUS_PARKED 1 1).rootState = false) ∧
    (up.crown.token = some 0 ∧ 0 < up.part.dies ∧ up.txn.isOpen = false ∧ (up.die 0).held = false) ∧
    ((up.wr PWR_STATUS_PARKED 0 1).rootState = true ∧
      ∀ d, d < up.part.dies → (up.wr PWR_STATUS_PARKED 0 1).rd MEM_MARCH_CTRL_BOOT_EN d = 0) := by decide +kernel
/-- Both dies load the update copy; die 1 has the six chunks of a smallest image; die 0 has reported success. -/
def loading : State :=
  let s := { tested true with crown := { token := some 0, endpoint := .service }, image := { trying := some 1, results := [(0, 0)] } }
  s.modLoad 1 fun x => { x with chunks := [0, 1, 2, 3, 4, 5] }
theorem witness_ImageDistribution :
    (loading.image.trying.isSome = true ∧ 24 * 349525 < 8388608 ∧ ¬ 24 * 349526 < 8388608) ∧
    (loading.image.trying = some 1 ∧ loading.crown.token ≠ some 1 ∧ loading.image.resend.contains 1 = false ∧ (loading.loadSt 1).result = none ∧
      loading.missingChunk 1 = none) ∧
    ((loading.modLoad 1 fun x => { x with result := some 0 }).loadSt 1).result = some 0 ∧
    (loading.image.results.any (fun x => x.1 == 1) = false ∧
      (∀ e ∈ loading.loadDies, e = 1 ∨ loading.image.results.any (fun x => x.1 == e) = true) ∧
      (∀ x ∈ loading.image.results, x.2 = 0) ∧
      ∀ e ∈ loading.loadDies, (loading.loadSt e).digest = (loading.loadSt (loading.crown.token.getD 0)).digest) ∧
    (∃ e ∈ loading.loadDies, e ≠ 1 ∧ ([] : List (Nat × Nat)).any (fun x => x.1 == e) = false) ∧
    (up.image.trying = none ∧ (up.wr IMG_STATUS_STATE 0 0).rd IMG_STATUS_STATE (up.crown.token.getD 0) = 0) ∧ (up.die 1).starting = true := by
  decide +kernel
theorem witness_FlashCommandsAndResend :
    (up.image.reading = false ∧ up.rd IMG_FLASH_CMD_BUSY pkg = 0 ∧
      (up.wr IMG_FLASH_ADDR_ADDRESS pkg 0xFF0000).rd IMG_FLASH_ADDR_ADDRESS pkg % 65536 = 0 ∧
      (up.otpSt 0).goldenLock.getD 0 = 0) ∧
    (((tested true).die 1).starting = true ∧ ((tested true).die 1).held = false ∧ (tested true).parked 1 = false ∧
      (tested true).retiredDie 1 = false ∧ ((tested true).die 1).selfTest = some true ∧ ((tested true).die 0).loaded = true) ∧
    ∀ k ∈ [1, 2, 3], ({ up.image with flashCmd := some (k, 4, 5) } : ImageSt).flashCmd = some (k, 4, 5) := by decide +kernel
theorem witness_OtpProgramming :
    ({ up.image with otpWords := List.replicate 15 1 } : ImageSt).otpWords.length < 16 ∧
    (up.rd IMG_OTP_CTRL_ITEM pkg ≠ ((1 : Fin 4) : Nat) ∧ (up.wr IMG_OTP_CTRL_ITEM pkg 3).rd IMG_OTP_CTRL_ITEM pkg ≠ 0) ∧
    (up.image.otpJob = none ∧ (∀ i : Fin 4, ∀ d, d < up.part.dies → up.itemProgrammed d i = false) ∧
      (List.replicate 12 (7 : Nat)).length = [12, 8, 1].getD 0 0) ∧
    ((up.wr IMG_STATUS_ROLLBACK 0 127).rd IMG_STATUS_ROLLBACK 0 = 127 ∧ (up.otpSt 0).rollback ≤ 127) ∧
    ({ up.image with otpJob := some (1, [1, 2, 3, 4, 5, 6, 7, 8]) } : ImageSt).otpJob = some (1, [1, 2, 3, 4, 5, 6, 7, 8]) := by
  decide +kernel

/-! ### Witnesses: transactions, disabling, the management endpoint -/

/-- A small code of a class; both dies hold one of class bulk in slot 0 and one of class express in slot 1. -/
def code (express : Bool) : CodeTable := {
  name := 1, express := express, zlog2 := 5, rows := 1, cols := 2, outer := false, entries := [(0, 0, 0)] }
def coded (s : State) : State :=
  let f := fun (x : FecSt) => { x with tables := [code false, code true] }
  (s.modFec 0 f).modFec 1 f
/-- An open transaction of both dies, whose decoders hold codes. -/
def opened : State := coded { up with txn := { isOpen := true, members := [0, 1], mf := 3, epoch := 1 } }
theorem witness_TransactionCommands :
    (up.txn.isOpen = false ∧ (up.wr IMG_SHADOW_VALID pkg 1).rd IMG_SHADOW_VALID pkg = 1 ∧ up.rd IMG_SHADOW_VALID pkg = 0) ∧
    (opened.txn.isOpen = true ∧ opened.txn.goSent = false ∧ ({ opened.txn with goSent := true } : TxnSt).goSent = true) := by
  decide +kernel
theorem witness_TransactionAgreement :
    (opened.txn.members.contains 1 = true ∧ opened.rd IMG_DIE_STATUS_PENDING 1 = 0 ∧ opened.txn.rollback = false ∧
      ((opened.hold 1).wr IMG_DIE_STATUS_PENDING 1 1).dieReason 1 = none) ∧
    ((opened.modDie 1 fun x => { x with prepared := true }).die 1).prepared = true ∧ opened.txn.ready.contains 1 = false ∧
    (∃ e ∈ opened.txn.members, e ≠ 1 ∧ opened.txn.ready.contains e = false) ∧ opened.txn.refused = none ∧
    ((opened.wr IMG_DIE_STATUS_PENDING 1 1).rd IMG_DIE_STATUS_PENDING 1 = 1 ∧ opened.txn.switched = false) ∧
    (opened.txn.acceptor = false ∧ opened.txn.planTeam = none ∧
      ∀ e ∈ opened.txn.members, ({ opened.txn with ready := [0, 1] } : TxnSt).ready.contains e = true) ∧
    (opened.die 1).switched = false := by decide +kernel
theorem witness_TransactionSwitchAndStages :
    ({ opened.txn with goSent := true } : TxnSt).switched = false ∧
    (∀ d, d < opened.part.dies → opened.mapDiffers (opened.switchPend pkg) d = false) ∧
    (∃ d ∈ opened.txn.members, (opened.die d).holdsGo = false) ∧
    up.rd IMG_SHADOW_REMAINING pkg = 0 ∧ (up.wr IMG_SHADOW_REMAINING pkg 256).rd IMG_SHADOW_REMAINING pkg ≠ 0 ∧
    ({ opened.txn with reverting := true } : TxnSt).reverting = true ∧ opened.txn.planTeam = none ∧
    ((opened.modDie 1 fun x => { x with switched := true }).die 1).switched = true ∧
    (1 < up.part.dies ∧ up.quarantined 1 = false) := by decide +kernel
/-- Unit 63 of the check block of die 1 drains a span of which it holds 3 bytes. -/
def draining : State :=
  (up.setUnit 1 12 63 { enabled := false, draining := true, since := 5, work := 1 }).modCrc 1 63 fun x => { x with pos := 3 }
/-- No other unit of the block drains. -/
theorem draining_alone (v : Nat) (h : v ≠ 63) : (draining.unit 1 12 v).draining = false := by
  simp only [State.unit, draining, State.setUnit, State.modCrc]
  rw [Laws.get_set_other _ _ _ fun e => h (congrArg Key.idx e)]
  rfl
theorem witness_DisableRule :
    (draining.crcSt 1 63).pos ≠ 0 ∧ (draining.unit 1 12 63).since + max 1 0 ≤ 6 ∧
    (up.rd BLK_DIS_CTRL_MODE 1 12 = 0 ∧ (up.wr BLK_DIS_CTRL_MODE 1 1 12).rd BLK_DIS_CTRL_MODE 1 12 = 1 ∧ 63 < 64) ∧
    (draining.unit (disInst 1 12) 12 63).draining = true ∧ (draining.unit 1 12 63).draining = true ∧
    (∃ u, u < 64 ∧ (draining.unit (disInst 1 12) 12 u).draining = true) ∧
    (∀ e ∈ draining.blockUnits (disInst 1 12) 12, e.2.draining = true → 5 < e.2.since + max 1 0) := by decide +kernel
/-- A read of `CAL_REJECTS` of die 1 is forwarded. -/
def forwarded : State := { up with bus := { running := some { path := .spi, die := 1, write := false, addr := 0x040C0010, data := 0 } } }
/-- The bits of bytes in the order they are sent. -/
def mosi (bs : List Byte) : List Bool := bs.flatMap fun b => (List.range 8).map fun i => b.getLsbD (7 - i)
theorem witness_SpiFrames :
    (up.crown.endpoint = .service ∧ up.bus.running = none ∧ up.crown.token = some 0 ∧ Reaches up 0 3 0x10 0x000C0010#32 ∧
      Reaches up 0 4 0x34 0x00100034#32) ∧
    (∀ f ∈ [mosi (State.spiBits 3 4 5), mosi (State.spiBits 0 4 5 |>.set 9 0)], f.length = 80) ∧
    (let v := State.bitsBE (mosi (State.spiBits 3 4 5))
     crc8 (bytesBE 9 (v / 256)) = v % 256 ∧ 2 < bitsAt v 72 8) ∧
    (let v := State.bitsBE (mosi (State.spiBits 0 4 5 |>.set 9 0))
     crc8 (bytesBE 9 (v / 256)) ≠ v % 256) ∧
    (mosi [1, 2]).length ≠ 80 ∧ forwarded.bus.waiting = [] ∧
    up.forwardTo (0x04000000#32 : Word).toNat = some 1 ∧
    forwarded.bus.running.isSome = true ∧ (Serves forwarded ∧ Reaches forwarded 1 3 0x10 0x040C0010#32) := by
  unfold Serves Reaches; decide +kernel
/-- A message of one NOP record. -/
def nopMsg : List Byte :=
  let b : List Byte := [1, 0, 1, 0, 7, 0, 0, 0, 0, 4, 0, 0, 0, 0, 0, 0, 0, 0, 0, 0]
  b ++ bytesLE 4 (crc32c b)
/-- Both message paths are open. -/
def paths : State := ((up.wr PKG_MGMT_PATH_CTRL_INBAND_EN pkg 1).wr PKG_MGMT_PATH_CTRL_PL_EN pkg 1).wr PLM_CTRL_EXEC pkg 1
theorem witness_ManagementMessages :
    (Serves paths ∧ paths.bus.running = none ∧ paths.rootState = false ∧ paths.rd PKG_MGMT_PATH_CTRL_INBAND_EN pkg = 1 ∧
      mgmtParse nopMsg = some { flags := 0, seq := 7, recs := [{ op := 0, addr := 4, data := 0 }] } ∧ bit 0 0 = false ∧
      paths.bus.keptInband = none) ∧
    mgmtParse (0 :: nopMsg) = none ∧
    (Serves forwarded ∧ forwarded.bus.running.isSome = true) ∧
    (paths.rd PKG_MGMT_PATH_CTRL_PL_EN pkg = 1 ∧ paths.rd PLM_CTRL_EXEC pkg = 1 ∧ paths.bus.keptPair = none) := by
  unfold Serves; decide +kernel

/-! ### Witnesses: memories and engines -/

/-- Engine 63 of die 1 is halted, its memory in use; engine 9 runs with a word at its reset address; two DMA channels are on. -/
def engines (w : Nat) : State :=
  let s := (((up.wr ENG_HALTED_HALTED 1 0).wr ENG_HALTED_HALTED 1 0x80000000 1).wr ENG_STATUS_STATE 1 1 9).wr ENG_CTRL_DMA_EN 1 3
  s.memWrite (tcmBase 1 9) (bytesLE 4 w)
theorem witness_MemoryAccessesTouchTheirBytes :
    ((engines 0).tcmOpen 1 63 = true ∧ (engines 0).tcmSt 1 63 = {} ∧ (engines 0).tcmOpen 1 9 = false ∧
      (engines 0).errAt 1 ((MemId.tcm 63).off + 4 * 16383) = none) ∧
    (up.bankOwns 1 255 .mgmt = true ∧ up.rd MEM_BANK_STATUS_FAILED 1 255 = 0 ∧ (up.bankSt 1 255).march = false ∧
      (up.wr MEM_BANK_STATUS_POWER 1 0 255).rd MEM_BANK_STATUS_POWER 1 255 = 0 ∧
      up.errAt 1 ((MemId.bank 255).off + 8 * 16383) = none ∧ up.bankOwns 1 255 (.engine 63) = false) := by decide +kernel
theorem witness_BankOwnershipPowerAndFill :
    ((up.modBank 1 255 fun x => { x with owner := some (2, 25) }).bankSt 1 255).owner = some (2, 25) ∧
    ((up.modBank 1 255 fun x => { x with owner := some (2, 25) }).bankSt 1 255).power = none ∧
    (up.wr MEM_BANK_STATUS_POWER 1 2 255).rd MEM_BANK_STATUS_POWER 1 255 = 2 ∧ ((3 : Fin 4) : Nat) ≠ 0 := by decide +kernel
/-- The scrub range of die 1. -/
def scrubbing (lo hi : Nat) : State := (up.wr ECC_SCRUB_START_ADDRESS 1 lo).wr ECC_SCRUB_END_ADDRESS 1 hi
theorem witness_ScrubMarchAndRepair :
    (up.wr ECC_BUCKET_LEAK 1 0 15).rd ECC_BUCKET_LEAK 1 15 = 0 ∧
    (up.wr ECC_BUCKET_LEAK 1 3 15).rd ECC_BUCKET_LEAK 1 15 ≠ 0 ∧
    ((scrubbing 0 8).rd ECC_SCRUB_START_ADDRESS 1 < (scrubbing 0 8).rd ECC_SCRUB_END_ADDRESS 1 ∧
      (up.memSt 1).scrub = none) ∧
    (scrubbing 8 8).rd ECC_SCRUB_END_ADDRESS 1 ≤ (scrubbing 8 8).rd ECC_SCRUB_START_ADDRESS 1 ∧
    ((up.modMem 1 fun x => { x with scrub := some (0, 8) }).memSt 1).scrub = some (0, 8) ∧ up.wordErr = [] ∧
    ((up.memSt 1).march = none ∧ ∀ m ∈ up.marchMems 1, up.marchRefuses 1 m = false) ∧
    ((up.modMem 1 fun x => { x with march := some ([.bank 255], false) }).memSt 1).march = some ([.bank 255], false) ∧
    up.underMarch 1 (.bank 255) = false ∧
    (up.modMem 1 fun x => { x with march := some ([.bank 255], false) }).underMarch 1 (.bank 255) = true := by decide +kernel
theorem witness_EngineInstructionsAndTraps :
    (∀ w ∈ [0x00310093, 0x003100B3, 0x000010B7, 0x008000EF, 0x00208463], (engines w).engRuns 1 9 = true ∧ (engines w).out = [] ∧
      (engines w).engFetch 1 9 ((engines w).eng 1 9).pc.toNat = (some (w, 4), engines w)) ∧
    (rvDecode 0x00310093 = .imm .add 1 2 3 ∧ rvDecode 0x003100B3 = .reg .add 1 2 3 ∧ rvDecode 0x000010B7 = .lui 1 0x1000 ∧
      rvDecode 0x008000EF = .jal 1 8 ∧ rvDecode 0x00208463 = .branch .eq 1 2 8) ∧
    ((engines 0).rd ENG_CTRL_HALT_ON_TRAP 1 = 0 ∧
      ((engines 0).wr ENG_CTRL_HALT_ON_TRAP 1 1).rd ENG_CTRL_HALT_ON_TRAP 1 = 1) ∧
    (({ (engines 0) with crown := {} } : State).engRuns 1 9 = true ∧ 0x50000000 ≤ (0x5FFFFFFC#32 : Word).toNat ∧
      (0x5FFFFFFC#32 : Word).toNat < 0x60000000) := by decide +kernel
/-- A copy of 32 bytes within cluster 1 waits at the head of its channel. -/
def copying : DmaJob := { eng := 9, src := { mem := .tcm 9, off := 65504 }, dst := { mem := .tcm 15, off := 0 }, len := 32 }
theorem witness_VectorInstructionsAndDma :
    ((engines 0).engRuns 1 9 = true ∧ (0xFFE0#32 : Word).toNat % 32 = 0 ∧ (0xFFE0#32 : Word).toNat < 0x10000 ∧
      (engines 0).tcmSt 1 9 = {} ∧ (engines 0).wordErr = [] ∧ bit ((engines 0).rd ENG_CTRL_DMA_EN 1) (9 / 8) = true) ∧
    (((engines 0).modChannel 1 1 fun _ => [copying]).channel 1 1 = [copying] ∧ copying.len = 32 ∧ 9 / 8 = 1 ∧ 15 / 8 = 1 ∧
      (copying.src.off : Nat) + 32 ≤ 0x10000 ∧ (copying.dst.off : Nat) + 32 ≤ 0x10000 ∧ (engines 0).tcmSt 1 15 = {}) := by
  decide +kernel

/-! ### Witnesses: power -/

theorem witness_PowerDomainsAndWindows :
    ((up.setWant 1 57 (some 0)).domWant 1 57 = some 0 ∧ domPll 57 = some 2 ∧
      ((up.setWant 1 57 (some 0)).setPll 1 2 true).pllLocked 1 2 = true ∧ up.pllLocked 1 2 = false) ∧
    (domPll 49 = none ∧ (up.setWant 1 49 (some 1)).domWant 1 49 = some 1 ∧ (up.setWant 1 49 (some 2)).domWant 1 49 = some 2 ∧
      (up.setWant 1 49 (some 1)).domIdle 1 49 = true ∧ (up.setUnit 1 4 7 { work := 1 }).domIdle 1 21 = false) ∧
    bit ((up.modPwr 1 fun x => { x with pllRun := 4 }).pwrSt 1).pllRun 2 = true ∧
    ((up.wr TXD_CTRL_SC_EN 1 128).txOn 1 7 = true ∧ (up.wr RXD_CTRL_SC_EN 1 128).rxOn 1 7 = true ∧
      (up.wr RXD_SC_STATUS_STATE 1 3 7).rxState 1 7 ≠ 0 ∧ (up.wr RXD_SC_STATUS_STATE 1 3 7).rxState 1 7 ≠ 5) ∧
    ((up.wr RXD_SC_STATUS_STATE 1 4 7).rxState 1 7 = 4 ∧ (up.rxArm 1 7).coldDue = false ∧ up.isActive 1 = false ∧ up.heldIdle 1 = false ∧
      ((up.modRx 1 7 fun x => { x with cd := some 0 }).rxArm 1 7).cd.isSome = true ∧
      ((team.wr CAL_CTRL_SEAM_EN 1 1).isActive 1 && (team.wr CAL_CTRL_SEAM_EN 1 1).flag CAL_CTRL_SEAM_EN 1 &&
        (team.wr CAL_CTRL_SEAM_EN 1 1).lowerPresent 1) = true) ∧
    ((∀ c, c < 8 → (State.reset.domain 1 (5 + c)) ≠ 0) ∧ (State.reset.setPll 1 0 true).pllLocked 1 0 = true ∧
      ∀ c, c < 8 → ((State.reset.setPll 1 0 true).domain 1 (5 + c)) ≠ 0) ∧
    ((up.wr PKG_PWR_CFG_OFF_AFTER pkg 0).rd PKG_PWR_CFG_OFF_AFTER pkg = 0 ∧
      (up.wr PKG_PWR_CFG_OFF_AFTER pkg 1).rd PKG_PWR_CFG_OFF_AFTER pkg ≠ 0 ∧ (up.wr TXD_SC_STATUS_STATE 1 4 7).txState 1 7 = 4) ∧
    ((up.wr PKG_PWR_CTRL_AUTO pkg 0).rd PKG_PWR_CTRL_AUTO pkg = 0 ∧ ∀ b, b < 8 → (up.mgrSt b).step = none) := by decide +kernel

/-! ### Witnesses: timing -/

/-- Slot 15 is enabled, an external reference. -/
def slot15 : State := up.wr TIM_REF_CFG_EN pkg 1 15
/-- Slot 15 is selected and the DPLL is in a given state. -/
def onSlot15 (state : Nat) : State :=
  ((slot15.wr TIM_DPLL_STATUS_SEL_VALID pkg 1).wr TIM_DPLL_STATUS_SELECTED pkg 15).wr TIM_DPLL_STATUS_STATE pkg state
/-- A second's measurement of slot 15 at a frequency. -/
def sample (freq : Int) : RefSample := { slot := 15, freq := freq, phase := 7, alive := true }
theorem witness_TimingReferences :
    (slot15.rd TIM_REF_CFG_EN pkg 15 = 1 ∧ slot15.slotActive 15 false = false ∧ slot15.slotActive 15 true = true ∧
      1000 * slot15.rd TIM_REF_LIM_HARD pkg 15 < (slot15.slotFreq (sample (-1000000000))).natAbs ∧
      (slot15.slotFreq (sample 0)).natAbs ≤ 1000 * slot15.rd TIM_REF_LIM_HARD pkg 15 ∧
      (slot15.slotFreq (sample 0)).natAbs ≤ 1000 * slot15.rd TIM_REF_LIM_SOFT pkg 15 ∧
      (slot15.refSt 15).freqs.length < 15 ∧ slot15.rd TIM_REF_STATUS_QUALIFIED pkg 15 = 0 ∧
      slot15.rd TIM_SEL_CTRL_QUAL pkg ≤ ((slot15.modRef 15 fun x => { x with good := 65535 }).refSt 15).good + 1) ∧
    ((slot15.wr TIM_REF_STATUS_QUALIFIED pkg 1 15).rd TIM_REF_STATUS_QUALIFIED pkg 15 = 1 ∧ slot15.selected ≠ some 15) ∧
    (up.slotBad (0x80210000#32 : Word).toNat = true ∧ up.slotBad (0x80110000#32 : Word).toNat = false) ∧
    ((onSlot15 2).selected = some 15 ∧ (onSlot15 2).absolute 15 = false ∧
      ((onSlot15 2).wr TIM_REF_CFG_PHASE_MODE pkg 1 15).absolute 15 = true) := by decide +kernel
theorem witness_DpllStatesAndHistory :
    ((onSlot15 1).dpll = 1 ∧ (onSlot15 2).dpll = 2 ∧ (onSlot15 4).dpll = 4 ∧ (onSlot15 4).selected.isSome = true ∧
      up.selected = none ∧ (up.wr TIM_DPLL_STATUS_HIST_VALID pkg 1).rd TIM_DPLL_STATUS_HIST_VALID pkg ≠ 0 ∧
      (((onSlot15 1).refSt 15).lostAt.filter fun x => decide ((onSlot15 1).tim.now ≤ x + 60)).length < 2 ∧
      2 ≤ ((((onSlot15 1).modRef 15 fun x => { x with lostAt := [0, 0] }).refSt 15).lostAt.filter fun x =>
        decide ((onSlot15 1).tim.now ≤ x + 60)).length) := by decide +kernel
theorem witness_TimingStepsAndOutputs :
    (500000000 < (toSigned 32 (500000001#32 : Word).toNat).natAbs ∧ (toSigned 32 (500000000#32 : Word).toNat).natAbs ≤ 500000000 ∧
      up.rd TIM_DPLL_STATUS_STEP_BUSY pkg = 0 ∧ up.selected = none) ∧
    (({ up.tim with step := some (-5) } : TimSt).step = some (-5) ∧ up.tim.waitGo = none ∧ up.tim.pend.length = 4) ∧
    (bit (0x80000000#32 : Word).toNat 31 = true ∧ State.outputOk 0 (bitsAt (0x80000000#32 : Word).toNat 0 30) 0 = false ∧
      State.outputOk 0 (bitsAt (0x80000001#32 : Word).toNat 0 30) 0 = true ∧ State.outputOk 3 1000 999 = true ∧
      State.outputOk 3 1000 1000 = false ∧ up.rd TIM_OUT_CFG_EN pkg 3 = 0) ∧
    (bitsAt (15#32 : Word).toNat 0 4 ≠ 0 ∧ bit (15#32 : Word).toNat 4 = false ∧
      (up.wr TIM_DPLL_STATUS_STEP_BUSY pkg 1).rd TIM_DPLL_STATUS_STEP_BUSY pkg ≠ 0) ∧
    ({ up.tim with slewing := 15 } : TimSt).slewing ≠ 0 ∧ ({ up.tim with loadDue := true } : TimSt).loadDue = true := by
  decide +kernel

/-! ### Witnesses: housekeeping, watch channels, the modem -/

/-- A pass of one entry runs on die 1, next to convert its last entry. -/
def passing : State := up.modSeq 1 fun x => { x with pass := some { entries := [(0, 0, 1, 2), (2, 1, 23, 0)], next := 1 } }
theorem witness_HousekeepingConversions :
    (1 < up.part.dies ∧ up.rd PWR_STATUS_PARKED 1 = 0 ∧ (up.seqSt 1).urgent = none) ∧
    ((up.wr HKA_SEQ_CTRL_EN 1 1).rd HKA_SEQ_CTRL_EN 1 = 1 ∧ up.heldIdle 1 = false ∧ (up.seqSt 1).pass = none ∧
      ((up.wr HKA_SEQ_CTRL_TRIG 1 5).rd HKA_SEQ_CTRL_TRIG 1 = ((5 : Fin 6) : Nat)) ∧ up.rd HKA_SEQ_CTRL_TRIG 1 = 0) ∧
    ((passing.seqSt 1).pass.isSome = true ∧ (passing.seqSt 1).urgent = none ∧
      [(0, 0, 1, 2), (2, 1, 23, 0)][1]? = some (2, 1, 23, 0) ∧
      ((passing.seqSt 1).pass.map fun p => decide (p.next < p.entries.length)) = some true ∧
      (((passing.modSeq 1 fun x => { x with pass := x.pass.map fun p => { p with next := 2 } }).seqSt 1).pass.map fun p =>
        decide (p.entries.length ≤ p.next)) = some true ∧ passing.rd HKA_SEQ_STATUS_PENDING 1 = 0 ∧
      passing.rd HKA_SEQ_CTRL_TRIG 1 ≠ 5) ∧
    (((up.modSeq 1 fun x => { x with urgent := some (2, 1, 23, 0) }).seqSt 1).urgent = some (2, 1, 23, 0) ∧
      (up.seqSt 1).trigWait = false) ∧
    (up.crown.token = some 0 ∧ up.crown.token ≠ some 1 ∧
      ((up.modSeq 0 fun x => { x with syncOut := true }).seqSt 0).syncOut = true) := by decide +kernel
theorem witness_WatchChannels :
    (1 < up.part.dies ∧ up.rd WCH_CH_CFG_EN 1 15 = 0 ∧ (up.wr WCH_CH_CFG_EN 1 1 15).rd WCH_CH_CFG_EN 1 15 ≠ 0) ∧
    (bit (0x80000000#32 : Word).toNat 31 = true ∧ ¬ (30 ≤ bitsAt (0x800077A0#32 : Word).toNat 10 5) ∧
      ¬ (30 ≤ bitsAt (0x800077A0#32 : Word).toNat 5 5) ∧ 30 ≤ bitsAt (0x80007800#32 : Word).toNat 10 5 ∧
      ¬ ((up.wr WCH_CH_STEP_STEP 1 65536 15).rd WCH_CH_STEP_STEP 1 15 < 65536) ∧
      (up.wr WCH_CH_STEP_STEP 1 65535 15).rd WCH_CH_STEP_STEP 1 15 < 65536) ∧
    (up.heldIdle 1 = false ∧ (up.streamSample 1 15 5).isSome = true ∧
      ((up.wr WCH_CH_CFG_SRC 1 1 15).wr WCH_CH_CFG_SRC_SEL 1 33 15).streamSample 1 15 5 = none) := by decide +kernel
/-- The modem runs in a given role and state. -/
def modem (role state : Nat) : State :=
  ((((up.wr PLM_CTRL_EN pkg 1).wr PKG_CROWN_STATUS_PLM_AVAIL pkg 1).wr PLM_CTRL_ROLE pkg role).wr PLM_STATUS_STATE pkg state)
/-- A training in which the peer is heard with 40 dB at K = 16. -/
def probe : PlmProbe := {
  peer := 1, otherRole := true, snrs := [(16, 400)], farRates := [(16, 100000)], sentK := 16
  symbols := { decided := [1, -1], slicer := [99 / 100, -99 / 100] }, farSelect := 3, erle := 0 }
/-- 20 log10 (1 / 0.01) dB, in tenths: 400, or one less where the binary logarithm falls short of it. -/
theorem probe_snr : 399 ≤ plmSnr10 probe.symbols.decided probe.symbols.slicer ∧
    plmSnr10 probe.symbols.decided probe.symbols.slicer ≤ 401 := by
  have h := Laws.round_between (100 * Arith.log10 ((probe.symbols.decided.map fun a => a * a).sum /
    ((probe.symbols.decided.zip probe.symbols.slicer).map fun p => (p.2 - p.1) * (p.2 - p.1)).sum))
  have g : 399 ≤ (100 * Arith.log10 ((probe.symbols.decided.map fun a => a * a).sum /
    ((probe.symbols.decided.zip probe.symbols.slicer).map fun p => (p.2 - p.1) * (p.2 - p.1)).sum)).floor ∧
    (100 * Arith.log10 ((probe.symbols.decided.map fun a => a * a).sum /
    ((probe.symbols.decided.zip probe.symbols.slicer).map fun p => (p.2 - p.1) * (p.2 - p.1)).sum)).floor ≤ 400 := by decide +kernel
  exact ⟨g.1.trans h.1, h.2.trans (by omega)⟩
theorem witness_PairLineModem_profile :
    mostBits (plmAdmitted (plmSnr10 probe.symbols.decided probe.symbols.slicer) ((modem 1 2).rd PLM_LIMITS_TARGET pkg)) = some 4 := by
  obtain ⟨l, u⟩ := probe_snr
  generalize plmSnr10 probe.symbols.decided probe.symbols.slicer = v at l u
  obtain rfl | rfl | rfl : v = 399 ∨ v = 400 ∨ v = 401 := by omega
  all_goals decide +kernel
/-- Up, receiving profile p, with a margin in tenths of a decibel. -/
def linked (p : Nat) (margin : Int) : State :=
  (((modem 1 5).wr PLM_STATUS_M_RX pkg (p / 2)).wr PLM_STATUS_CODE_RX pkg (p % 2)).wr PLM_QUALITY_MARGIN pkg (ofSigned 16 margin)
/-- The profiles of fewer bits than a linked modem receives, and those its quality admits. -/
def lower (s : State) : List Nat := (List.range 6).filter fun p => decide ((plmProfile p).1 < (plmProfile s.plmRx).1)
def admitted (s : State) : List Nat := plmAdmitted s.plmSnr (s.rd PLM_LIMITS_TARGET pkg)
abbrev low (s : State) : Prop := s.rdS PLM_QUALITY_MARGIN pkg < (s.rd PLM_LIMITS_TARGET pkg : Int) - 30
/-- A word of zeros is a codeword, whatever the first root of the generator. -/
theorem witness_PairLineModem_codeword :
    (linked 4 0).plmDecode [] [] = none ∧
      (linked 4 0).plmDecode (List.replicate 200 0) (List.replicate 50 0) = some (List.replicate 200 0, 0) := by
  have h : plmCode ((linked 4 0).rd PLM_STATUS_CODE_RX pkg) = (200, 50) := by decide +kernel
  refine ⟨by simp [State.plmDecode, h], ?_⟩
  simp only [State.plmDecode, h]
  rw [if_pos ⟨List.length_replicate, List.length_replicate⟩, List.replicate_append_replicate, Laws.rsDecode_zeros,
    Option.map_some, List.take_replicate]
  rfl
theorem witness_PairLineModem :
    ((modem 1 2).plmRuns = true ∧ (modem 1 2).plmExchange = true ∧ (modem 1 2).plmState < 3) ∧
    ((modem 1 2).plmState ≠ 5 ∧ (modem 1 2).plmState ≠ 6 ∧ probe.otherRole = true ∧ (modem 1 2).plmPickK probe = some 16 ∧
      (modem 0 1).plmExchange = false ∧ (modem 0 1).plmKs.contains (probe.sentK : Nat) = true) ∧
    ((linked 4 0).plmState = 5 ∧ low (linked 4 0) ∧ mostBits ((lower (linked 4 0)).filter (admitted (linked 4 0)).contains) = some 2 ∧
      low (linked 4 (-300)) ∧ mostBits ((lower (linked 4 (-300))).filter (admitted (linked 4 (-300))).contains) = none ∧
      mostBits (lower (linked 4 (-300))) = some 2 ∧ ¬ low (linked 4 100) ∧ lower (linked 1 0) = [] ∧
      mostBits (admitted (linked 1 500)) = some 4 ∧ (plmProfile (linked 1 500).plmRx).1 < (plmProfile 4).1 ∧
      ((linked 1 500).wr PLM_CTRL_UPSHIFT_EN pkg 1).rd PLM_CTRL_UPSHIFT_EN pkg = 1 ∧
      (linked 4 0).plm.sentSel = none ∧ (linked 4 0).plm.gotSel = none ∧
      ({ (linked 4 0).plm with sentSel := some 5, gotSel := some 5 } : PlmSt).gotSel = some 5) ∧
    (modem 1 6).plmState = 6 ∧ (up.plm.rx.length < 4 ∧ 4 ≤ (List.replicate 4 (3, ([] : List Byte))).length) ∧
    (up.rd PLM_HOST_CTRL_TX_BUSY pkg = 0 ∧ (modem 1 2).plmState ≠ 5) := by decide +kernel

/-! ### Witnesses: converters and calibration -/

/-- The upper die of the team of two, with converters on, a swap waiting. -/
def convert : State := ((team.wr CNV_CTRL_ADC_EN 1 15).wr CNV_CTRL_DAC_EN 1 15).wr CNV_COEF_CTRL_SWITCH_PENDING 1 1
theorem witness_ConverterSetsAndDelays :
    ((up.wr CNV_STATUS_SOURCE 1 1).rd CNV_STATUS_SOURCE 1 ≠ 0 ∧ 1 < up.part.dies) ∧
    (convert.adcOn 1 = true ∧ convert.dacOn 1 = true ∧ up.adcOn 1 = false ∧ up.dacOn 1 = false) ∧
    (up.flag CNV_COEF_CTRL_OWNER 1 = false ∧ (up.wr CNV_COEF_CTRL_OWNER 1 1).flag CNV_COEF_CTRL_OWNER 1 = true ∧
      up.rd CNV_COEF_CTRL_SWITCH_PENDING 1 = 0 ∧ convert.rd CNV_COEF_CTRL_SWITCH_PENDING 1 ≠ 0) ∧
    (convert.rd CNV_STATUS_SCLK_LOCK 1 ≠ 0 ∧ (convert.cnvSt 1).saveDue = false ∧ (convert.cnvSt 1).restoring = false ∧
      (convert.cnvSt 1).restoreDue = false ∧
      ((convert.modCnv 1 fun x => { x with ownerNext := some true }).cnvSt 1).ownerNext = some true ∧
      up.rd CNV_STATUS_SCLK_LOCK 1 = 0) ∧
    (team.isActive 1 = true ∧ team.rd CNV_RX_DELAY_WHOLE 1 ≠ ((127 : Fin 128) : Nat) ∧ up.isActive 1 = false) ∧
    (up.lowerPresent 1 = false ∧ team.lowerPresent 1 = true ∧ team.lowerActive 1 = true ∧ team.rd CAL_SEAM_CTRL_HOLD 1 = 0 ∧
      (team.wr CAL_CTRL_SEAM_EN 1 1).rd CAL_CTRL_SEAM_EN 1 ≠ 0 ∧
      (team.wr CAL_STATUS_SEAM_LO_STATE 1 2).rd CAL_STATUS_SEAM_LO_STATE 1 = 2) := by decide +kernel
/-- Two seam tones over which the sides agree, two over which they are unrelated, and two with a quarter turn between them. -/
def tones (k : Nat) : List (List (Cpx × Cpx)) :=
  let one : Cpx := { re := 1, im := 0 }
  let j : Cpx := { re := 0, im := 1 }
  match k with
  | 0 => [[(one, one)], [(one, one)]]
  | 1 => [[(one, one), (one, { re := -1, im := 0 })], [(one, one), (one, { re := -1, im := 0 })]]
  | _ => [[(one, one)], [(one, j)]]
theorem witness_ConverterSetsAndDelays_estimate :
    (seamEstimate (tones 0)).1 = 0 ∧ (seamEstimate (tones 0)).2 = 1 ∧ (seamEstimate (tones 1)).2 < 1 / 2 ∧
      ((50 * up.rd CAL_LIMITS_1_SEAM_PLAUS 1 : Nat) : ℚ) < |(seamEstimate (tones 2)).1| := by decide +kernel
/-- A foreground pass runs on die 1. -/
def fgRuns : State := up.wr CAL_STATUS_FG_STATE 1 1
/-- Background estimates of the ADCs run on die 1. -/
def background : State := (up.wr CAL_CTRL_BG_ADC_EN 1 1).wr CNV_CTRL_ADC_EN 1 15
theorem witness_CalibrationPassesAndRecords :
    (fgRuns.rd CAL_STATUS_FG_STATE 1 = 1 ∧ up.rd CAL_STATUS_FG_STATE 1 ≠ 1 ∧ convert.adcOn 1 = true) ∧
    (firmwareOwns fgRuns 1 = true ∧ firmwareOwns (fgRuns.wr CNV_COEF_CTRL_OWNER 1 1) 1 = false ∧ passInLimits fgRuns 1 0 { words := [(639, 0)], rxSkew := 5, txSkew := 0 } = true ∧ fgRuns.startingUp 1 = false ∧
      fgRuns.rd CNV_STATUS_SCLK_LOCK 1 = 0 ∧
      passFinds 0 7 = true ∧ passFinds 2 7 = false ∧
      passInLimits fgRuns 1 0 { words := [(2, 0x7FFF)], rxSkew := 0, txSkew := 0 } = false ∧
      (fgRuns.cnvSt 1).fgFailed + 1 ≤ fgRuns.rd CAL_CTRL_FG_RETRIES 1 ∧
      fgRuns.rd CAL_CTRL_FG_RETRIES 1 < ((fgRuns.modCnv 1 fun x => { x with fgFailed := 2 }).cnvSt 1).fgFailed + 1) ∧
    (background.rd CAL_CTRL_BG_ADC_EN 1 ≠ 0 ∧ bit (background.rd CNV_CTRL_ADC_EN 1) ((3 : Fin 4) : Nat) = true ∧
      (background.cnvSt 1).verifying = false ∧ background.inValueLimit 1 false ((0 : Fin 4) : Nat) 64 = true ∧
      (((64 : Int) - background.termRd 1 (background.inactiveSet 1) false 3 63 0).natAbs : ℚ) ≤ stepLimit 0 ∧
      background.inValueLimit 1 false ((0 : Fin 4) : Nat) 32767 = false ∧ firmwareOwns background 1 = true ∧
      firmwareOwns (background.wr CNV_COEF_CTRL_OWNER 1 1) 1 = false) ∧
    ((up.wr CAL_REC_CTRL_BUSY 1 1).rd CAL_REC_CTRL_BUSY 1 ≠ 0 ∧ up.rd CAL_REC_CTRL_BUSY 1 = 0 ∧
      (up.wr CNV_COEF_CTRL_SWITCH_PENDING 1 1).rd CNV_COEF_CTRL_SWITCH_PENDING 1 ≠ 0 ∧
      convert.recordReason 1 (convert.winBytes 1) = some 1) ∧
    (((up.modCnv 1 fun x => { x with recResult := some 15 }).cnvSt 1).recResult = some 15 ∧
      ((up.modCnv 1 fun x => { x with verifying := true, verifyBad := true }).cnvSt 1).verifyBad = true ∧
      ((up.modCnv 1 fun x => { x with verifying := true }).cnvSt 1).verifyBad = false) ∧
    (((up.modDie 1 fun x => { x with released := true }).wr BUP_STATUS_STATE 1 2).startingUp 1 = true ∧
      (up.wr BUP_STATUS_REC_WAITING 1 1).rd BUP_STATUS_REC_WAITING 1 ≠ 0) := by decide +kernel

/-! A calibration record of zeros that passes every check of R128. -/

theorem foldl_lt {β : Type} (n : Nat) (f : Nat → β → Nat) (h : ∀ c b, c < n → f c b < n) :
    ∀ (l : List β) (c : Nat), c < n → l.foldl f c < n
  | [], _, hc => hc
  | b :: l, c, hc => foldl_lt n f h l (f c b) (h c b hc)
theorem crc32c_lt (bs : List Byte) : crc32c bs < 2 ^ 32 := by
  refine Nat.xor_lt_two_pow (foldl_lt _ _ (fun c b hc => foldl_lt _ _ (fun c i hc => ?_) _ _ hc) _ _ (by norm_num)) (by norm_num)
  have h2 : c / 2 < 2 ^ 32 := by omega
  simp only [crcLsbBit]
  split
  · exact Nat.xor_lt_two_pow h2 (by norm_num)
  · exact h2
theorem natLE_bytesLE4 (c : Nat) (h : c < 2 ^ 32) : natLE (bytesLE 4 c) = c := by
  simp only [bytesLE, natLE, BitVec.toNat_ofNat]
  omega
theorem natLE_zeros (n : Nat) : natLE (List.replicate n (0 : Byte)) = 0 := by
  induction n with
  | zero => rfl
  | succ n ih =>
    rw [List.replicate_succ, natLE, ih]
    rfl
theorem zero_words (f : Nat → List Byte) (n : Nat) (h : ∀ w, w < n → f w = [0, 0, 0, 0]) :
    (List.range n).flatMap f = List.replicate (4 * n) 0 := by
  induction n with
  | zero => rfl
  | succ n ih =>
    rw [List.range_succ, List.flatMap_append, ih fun w hw => h w (by omega)]
    simp only [List.flatMap_cons, List.flatMap_nil, List.append_nil, h n (by omega)]
    rw [show ([0, 0, 0, 0] : List Byte) = List.replicate 4 0 from rfl, List.replicate_append_replicate]
    rfl
/-- The sampling reference of die 1 is present or not. -/
def sclk (l : Bool) : State := up.wr CNV_STATUS_SCLK_LOCK 1 (b2n l)
/-- The header of a record of die 1, and the window with it, zeros and a last word. -/
def recHead : List Byte := bytesLE 4 0x524C4143 ++ bytesLE 4 0x11010001
def recBody : List Byte := recHead ++ List.replicate 4084 0
def window (l : Bool) (c : Nat) : State :=
  { sclk l with calWin := [(State.winKey 1 0, 0x524C4143), (State.winKey 1 1, 0x11010001), (State.winKey 1 1023, c)] }
theorem window_winRd (l : Bool) (c w : Nat) : (window l c).winRd 1 w =
    if w = 0 then 0x524C4143 else if w = 1 then 0x11010001 else if w = 1023 then c else 0 := by
  simp only [State.winRd, window, Store.get, assocFind, State.winKey, Key.mk.injEq, true_and]
  split <;> [rfl; split <;> [rfl; split <;> rfl]]
theorem window_winBytes (l : Bool) (c : Nat) : (window l c).winBytes 1 = recBody ++ bytesLE 4 c := by
  have h : ∀ w, (fun w => bytesLE 4 ((window l c).winRd 1 w)) w = bytesLE 4 ((window l c).winRd 1 w) := fun _ => rfl
  unfold State.winBytes
  rw [show (1024 : Nat) = 1021 + 1 + 1 + 1 from rfl, List.range_succ, List.flatMap_append, List.range_succ_eq_map,
    List.flatMap_cons, List.flatMap_map, List.range_succ_eq_map, List.flatMap_cons, List.flatMap_map,
    zero_words _ 1021 fun w hw => by
      rw [window_winRd, if_neg (by omega), if_neg (by omega), if_neg (by omega)]; rfl]
  simp only [window_winRd, List.flatMap_cons, List.flatMap_nil, List.append_nil, recBody, recHead, List.append_assoc]
  rfl
theorem recNat_front (x : List Byte) (i n : Nat) (h : i + n ≤ 8) : recNat (recBody ++ x) i n = recNat recHead i n := by
  have hl : recHead.length = 8 := rfl
  rw [recNat, recNat, recBody, List.append_assoc, List.drop_append_of_le_length (by omega),
    List.take_append_of_le_length (by rw [List.length_drop]; omega)]
theorem recNat_zeros (x : List Byte) (i n : Nat) (h : 8 ≤ i) (h' : i + n ≤ 4092) : recNat (recBody ++ x) i n = 0 := by
  have hl : recHead.length = 8 := rfl
  rw [recNat, recBody, List.append_assoc, List.drop_append, List.drop_of_length_le (by omega), List.nil_append,
    List.drop_append_of_le_length (by rw [List.length_replicate]; omega), List.drop_replicate,
    List.take_append_of_le_length (by rw [List.length_replicate]; omega), List.take_replicate, natLE_zeros]
theorem zero_record_in_range (l : Bool) (x : List Byte) : (sclk l).recordInRange 1 (recBody ++ x) = true := by
  have h : ∀ w, w < 640 → recNat (recBody ++ x) (64 + 4 * w) 4 = 0 := fun w hw => recNat_zeros x _ _ (by omega) (by omega)
  have g : ∀ t, t < 28 → recNat (recBody ++ x) (2624 + 2 * t) 2 = 0 := fun t ht => recNat_zeros x _ _ (by omega) (by omega)
  have k : ∀ i, i < 8 → recNat (recBody ++ x) (2680 + i) 1 = 0 := fun i hi => recNat_zeros x _ _ (by omega) (by omega)
  have z : ∀ dac : Bool, ∀ t, t < 4 → (sclk l).inValueLimit 1 dac t 0 = true := by cases l <;> decide +kernel
  have c : ∀ w, w < 640 → (clampWord w 0).2 = false := by decide +kernel
  simp only [State.recordInRange, Bool.and_eq_true, List.all_eq_true, List.mem_range]
  have m : ∀ i, i = 2699 ∨ i = 2703 → recNat (recBody ++ x) i 1 = 0 := fun i hi => recNat_zeros x _ _ (by omega) (by omega)
  refine ⟨⟨⟨fun w hw => ?_, fun t ht => ?_⟩, fun i hi => ?_⟩, fun i hi => ?_⟩
  · rw [h w hw]
    rw [show toSigned 16 0 = 0 from rfl, c w hw, z _ _ (by split <;> omega),
      z _ _ (by split <;> omega)]
    exact ⟨⟨rfl, rfl⟩, rfl⟩
  · rw [g t ht]; decide
  · rw [k i hi]; decide
  · rw [m (i + 3) (by simp at hi; omega)]; rfl
theorem window_rd (l : Bool) (c : Nat) (f : Fld) (d k : Nat) : (window l c).rd f d k = (sclk l).rd f d k := by simp only [State.rd, window]
theorem window_in_range (l : Bool) (c : Nat) (r : List Byte) : (window l c).recordInRange 1 r = (sclk l).recordInRange 1 r := by
  have h : ∀ dac t v, (window l c).inValueLimit 1 dac t v = (sclk l).inValueLimit 1 dac t v := fun dac t v => by
    simp only [State.inValueLimit, window_rd]
  simp only [State.recordInRange, h, window_rd]
theorem witness_CalibrationPassesAndRecords_good (l : Bool) :
    let s := window l (crc32c recBody)
    s.rd CAL_REC_CTRL_BUSY 1 = 0 ∧ s.rd CNV_COEF_CTRL_SWITCH_PENDING 1 = 0 ∧ s.startingUp 1 = false ∧ s.rd CNV_STATUS_SCLK_LOCK 1 = b2n l ∧
      s.recordReason 1 (s.winBytes 1) = none := by
  refine ⟨by cases l <;> decide +kernel, by cases l <;> decide +kernel, by cases l <;> decide +kernel, by cases l <;> decide +kernel, ?_⟩
  have hl : recBody.length = 4092 := by rw [recBody, List.length_append, List.length_replicate]; rfl
  have hc : recNat (recBody ++ bytesLE 4 (crc32c recBody)) 4092 4 = crc32c recBody := by
    rw [recNat, List.drop_left' hl, show (bytesLE 4 (crc32c recBody)).take 4 = bytesLE 4 (crc32c recBody) from rfl,
      natLE_bytesLE4 _ (crc32c_lt _)]
  have ht : (recBody ++ bytesLE 4 (crc32c recBody)).take 4092 = recBody := List.take_left' hl
  have hn : ¬ (crc32c recBody ≠ crc32c recBody) := fun h => h rfl
  rw [window_winBytes]
  unfold State.recordReason
  simp only [hc, ht, recNat_front _ 0 4 (by omega), recNat_front _ 4 2 (by omega), recNat_front _ 7 1 (by omega),
    recNat_zeros _ 8 8 (by omega) (by omega), recNat_zeros _ 22 2 (by omega) (by omega)]
  rw [if_neg (by cases l <;> decide +kernel), if_neg hn, if_neg (by decide +kernel),
    if_neg (by cases l <;> decide +kernel), if_neg (by decide +kernel), if_neg (by cases l <;> decide +kernel)]
  rw [window_in_range, zero_record_in_range]
  rfl

/-! ### Witnesses: the receive path -/

/-- Die 1 of the team with a receive arm on, in a given state. -/
def arm (state : Nat) : State := (team.wr RXD_CTRL_SC_EN 1 128).wr RXD_SC_STATUS_STATE 1 state 7
/-- The arm has a dispersion value, trainings and as many taps as its block has tones. -/
def trained (state n : Nat) : State :=
  (arm state).modRx 1 7 fun x => { x with cd := some (-5), trainings := n, taps := List.replicate ((arm state).armTones 1 7) {} }
theorem witness_ReceiveArms :
    (up.rxOn 1 7 = false ∧ (arm 1).rxOn 1 7 = true ∧ (arm 1).rd CNV_STATUS_SCLK_LOCK 1 ≠ 0 ∧ up.rd CNV_STATUS_SCLK_LOCK 1 = 0) ∧
    ((arm 4).rxState 1 7 = 4 ∧ (arm 5).rxState 1 7 = 5 ∧ (arm 3).rxState 1 7 ≠ 4 ∧ (arm 3).rxState 1 7 ≠ 5) ∧
    ((trained 2 3).rxState 1 7 = 2 ∧ ((trained 2 3).rxArm 1 7).cd = some (-5) ∧ 3 ≤ ((trained 2 3).rxArm 1 7).trainings ∧
      ((trained 2 2).rxArm 1 7).trainings < 3) ∧
    ((arm 1).heldIdle 1 = false ∧ (arm 1).rxState 1 7 = 1 ∧ (((arm 1).modRx 1 7 fun x => { x with step := 2 }).rxArm 1 7).step = 2) ∧
    (((trained 2 3).modRx 1 7 fun x => { x with locked := true, snrs := [20, 20, 20, 20] }).rxArm 1 7).locked = true ∧
    snrSteady [20, 20, 20, 20] = true ∧ snrSteady [20, 20, 20, 22] = false ∧ (arm 0).rxState 1 7 = 0 ∧
    ((team.wr RXD_CTRL_FREEZE 1 1).rd RXD_CTRL_FREEZE 1 ≠ 0 ∧ (trained 3 3).rd RXD_CTRL_FREEZE 1 = 0) ∧
    (((trained 3 0).rxArm 1 7).taps.length = (trained 3 0).armTones 1 7 ∧
      (List.replicate ((trained 3 0).armTones 1 7) ({} : Vec2)).length = (trained 3 0).armTones 1 7 ∧
      ((arm 3).rxArm 1 7).taps.length ≠ (arm 3).armTones 1 7 ∧ (trained 6 0).rxState 1 7 = 6 ∧
      ((trained 3 0).rxArm 1 7).everTrained = false ∧
      (((trained 3 1).modRx 1 7 fun x => { x with everTrained := true }).rxArm 1 7).everTrained = true) := by decide +kernel
/-- A scan of die 1 in which the candidate 0 stands out by a factor, on the wide grid and on the fine one. -/
def coarse (top : ℚ) : List ℚ := (team.scanGrid 1).map fun x => if x = 0 then top else 1
def fine (top : ℚ) : List ℚ := (fineGrid 0).map fun x => if x = 0 then top else 1
theorem witness_ReceiveArms_scan :
    (∀ top ∈ [4, 11 / 10], ((0 : Int), top) ∈ (team.scanGrid 1).zip (coarse top) ∧
      (∀ x ∈ (team.scanGrid 1).zip (coarse top), x ≠ (0, top) → x.2 < top) ∧
      ((0 : Int), top) ∈ (fineGrid 0).zip (fine top) ∧ ∀ x ∈ (fineGrid 0).zip (fine top), x ≠ (0, top) → x.2 < top) ∧
    6 ≤ 20 * Arith.log10 (4 / mean (((team.scanGrid 1).zip (coarse 4)).map Prod.snd)) ∧
    20 * Arith.log10 (11 / 10 / mean (((team.scanGrid 1).zip (coarse (11 / 10))).map Prod.snd)) < 6 := by decide +kernel
/-- The upper seam of die 0 is enabled, in a given state. -/
def seam (state : Nat) : State := (team.wr (State.seamEnFld true) 0 1).wr (State.seamStateFld true) 0 state
theorem witness_ReceiveFrontAndSeams :
    ((up.wr RXD_DFE_CTRL_IQ_AUTO 1 0).rd RXD_DFE_CTRL_IQ_AUTO 1 = 0 ∧ (up.wr RXD_DFE_CTRL_SKEW_AUTO 1 0).rd RXD_DFE_CTRL_SKEW_AUTO 1 = 0 ∧
      (up.wr RXD_DFE_CTRL_IQ_AUTO 1 1).rd RXD_DFE_CTRL_IQ_AUTO 1 ≠ 0 ∧
      (up.wr RXD_DFE_CTRL_SKEW_AUTO 1 1).rd RXD_DFE_CTRL_SKEW_AUTO 1 ≠ 0) ∧
    ((up.wr RXD_FREQ_CTRL_HOLD 1 1).rd RXD_FREQ_CTRL_HOLD 1 ≠ 0 ∧ team.rd RXD_FREQ_CTRL_HOLD 0 = 0 ∧ team.freqLead 0 = 0 ∧
      team.lockedCount 0 = 0 ∧
      (((team.wr RXD_CTRL_SC_EN 0 1).wr RXD_SC_STATUS_STATE 0 3).modRx 0 0 fun x => { x with locked := true }).lockedCount 0 ≠ 0 ∧
      (team.modRxDie 0 fun x => { x with freqNext := some 9 }).rxDie 0 = { freqNext := some 9 } ∧ team.isActive 0 = true ∧
      (team.die 0).departed = false ∧ ((team.modDie 0 fun x => { x with departed := true }).die 0).departed = true) ∧
    ((seam 1).rd (State.seamEnFld true) 0 ≠ 0 ∧ (seam 1).rd (State.seamStateFld true) 0 = 1 ∧ ((seam 1).seam 0 true).sf ≠ 255 ∧
      team.rd (State.seamEnFld false) 0 = 0 ∧ (seam 3).rd (State.seamStateFld true) 0 ≠ 1) ∧
    ((seam 3).rd (State.seamStateFld true) 0 = 3 ∧ (seam 3).seamMate 0 true = some 1 ∧ (seam 3).isActive 0 = true ∧
      (seam 3).isActive 1 = true ∧ ((seam 3).seam 0 true).invalid = false) ∧
    (team.rd CAL_STATUS_SEAM_LO_STATE 1 = 0 ∧ (team.wr CAL_STATUS_SEAM_LO_STATE 1 2).rd CAL_STATUS_SEAM_LO_STATE 1 ≠ 0) ∧
    (let s := (((team.wr TXD_SC_RXPLAN_VALID 1 1 7).wr TXD_SC_RXPLAN_CONST 1 1 7).wr TXD_SC_RXPLAN_H 1 64 7).modRx 1 7 fun x =>
       { x with tracked := true }
     (s.rxArm 1 7).tracked = true ∧ s.rxFormat 1 7 = some (1, 64) ∧
      State.labelPairs 1 64 [⟨true, [true, false, true, true], [[5, -5], [7, 7]]⟩] ≠ []) := by decide +kernel

/-! ### Witnesses: the transmit path and the decoders -/

/-- Die 1 of the team with a transmit arm on, in a given state, and a switch of the tables waiting. -/
def sender (state : Nat) : State :=
  ((team.wr TXD_CTRL_SC_EN 1 128).wr TXD_SC_STATUS_STATE 1 state 7).wr TXD_LUT_CTRL_SWITCH_PENDING 1 1
/-- Die 1 in quarantine. -/
def held (s : State) : State := s.wr PKG_QUAR_STATUS_QUARANTINED pkg 2
theorem witness_TransmitArmsAndCorrections :
    ((sender 1).txState 1 7 = 1 ∧ (sender 2).txState 1 7 ≠ 1 ∧ (sender 2).txOn 1 7 = true ∧ (sender 2).txState 1 7 = 2 ∧
      (sender 1).heldIdle 1 = false ∧ (held (sender 1)).heldIdle 1 = true ∧ (sender 1).txOn 1 7 = true ∧
      (sender 2).rd CNV_STATUS_SCLK_LOCK 1 ≠ 0 ∧ up.txOn 1 7 = false ∧ up.rd CNV_STATUS_SCLK_LOCK 1 = 0) ∧
    (((sender 2).modTx 1 7 fun x => { x with due := true }).txArm 1 7).due = true ∧
    (up.wr TXD_FREQ_TRIM_TRIM 1 5).rdS TXD_FREQ_TRIM_APPLIED 1 ≠ (up.wr TXD_FREQ_TRIM_TRIM 1 5).rdS TXD_FREQ_TRIM_TRIM 1 ∧
    ((∃ i, i < 8 ∧ ¬ ((sender 1).txState 1 i = 0 ∨ (sender 1).txState 1 i = 4)) ∧
      ∀ i, i < 8 → (sender 4).txState 1 i = 0 ∨ (sender 4).txState 1 i = 4) ∧
    (bit (team.rd CNV_CTRL_DAC_EN 1) 3 = false ∧ up.rd CNV_STATUS_SCLK_LOCK 1 = 0) ∧
    (up.rd TXD_LUT_CTRL_SWITCH_PENDING 1 = 0 ∧ (sender 1).rd TXD_LUT_CTRL_SWITCH_PENDING 1 ≠ 0 ∧
      ((sender 1).wr TXD_LUT_CTRL_COPY_BACK 1 0).rd TXD_LUT_CTRL_COPY_BACK 1 = 0 ∧ ({ ownerNext := some true } : TxDie).ownerNext = some true) := by decide +kernel
/-- The package with codes. -/
def decoding : State := coded up
/-- Subcarrier 7 of the same die is express, its receive arm on. -/
def express : State :=
  ((decoding.wr RXD_CTRL_SC_EN 1 128).wr TXD_SC_CFG_CLASS 1 1 7).wr TXD_SC_CFG_H 1 64 7
/-- Subcarrier 7 of die 1 is framed. -/
def framed : State := (arm 3).wr FRM_SC_STATUS_ALIGN 1 3 7
/-- The same in step with its stream; subcarrier 7 of the die in frame, in step with its express stream. -/
def inStep (s : State) : State := s.wr FEC_SC_STATUS_RX_SYNC 1 1 7
def pooled : State := express.refreshPool 1
def stripe (n : Nat) : Stripe := { times := [[(7, List.replicate n 1, List.replicate n 1)]], offset := 0 }
/-- Subcarrier 7 is in frame and in step; it has no code, so its stream expects the pointers it had. -/
def decoded : State := inStep (framed.modStream 1 7 fun x => { x with mf := 1 })
theorem witness_DecoderPoolAndStreams_sync :
    ((inStep decoding).rd FEC_SC_STATUS_RX_SYNC 1 7 ≠ 0 ∧ (decoding.table 1 (decoding.rd FEC_SC_STATUS_CODE 1 7)).map CodeTable.n = some 64 ∧
      (List.replicate 256 (0 : Int)).length = 4 * 64 ∧ (List.replicate 255 (0 : Int)).length < 4 * 64) ∧
    ((pooled.table 1 (pooled.expressSlot 1)).map CodeTable.n = some 64 ∧ (pooled.joinExpress 1).expressSet 1 ≠ [] ∧
      pooled.streamKnown 1 8 = false ∧ (inStep pooled).streamKnown 1 8 = true ∧
      ((inStep pooled).joinExpress 1).expressSet 1 ≠ [] ∧ (striped (stripe 32).times).length = 64 ∧
      (striped (stripe 31).times).length < 64) ∧
    (framed.scStream 1 7 = 7 ∧ (framed.rxState 1 7 = 2 ∨ framed.rxState 1 7 = 3) ∧ (0 : BitVec 8).toNat = b2n (framed.scStream 1 7 == 8) ∧
      (1 : BitVec 8).toNat ≠ b2n (framed.scStream 1 7 == 8) ∧ framed.streamKnown 1 7 = false ∧ decoded.streamKnown 1 7 = true ∧
      (decoded.stream 1 7).mf = 1 ∧ (2#32 : Word).toNat ≠ (decoded.stream 1 7).mf ∧
      decoded.predict 1 7 1 = (0, 0, 0, 0) ∧
      (decoded.stream 1 7).bad = 0 ∧ ((decoded.modStream 1 7 fun x => { x with bad := 1 }).stream 1 7).bad ≠ 0) := by
  decide +kernel
theorem witness_DecoderPoolAndStreams :
    (up.table 1 (up.rd FEC_SC_STATUS_CODE 1 7) = none ∧ (decoding.table 1 (decoding.rd FEC_SC_STATUS_CODE 1 7)).isSome = true ∧
      (decoding.fecSt 1).queue.length < 32 ∧ (decoding.wr FEC_POOL_STATUS_RETIRED 1 255).bulkPool 1 = [] ∧
      (decoding.wr FEC_POOL_STATUS_RETIRED 1 127).bulkPool 1 = [7] ∧ (decoding.fecSt 1).clusters.getD 7 none = none ∧
      7 < (decoding.fecSt 1).clusters.length ∧ (decoding.fecSt 1).queue = []) ∧
    (let j : ClusterJob := { cw := { stream := 0, seq := 0, slot := 0, llr := [] }, budget := 8, minIt := 1, early := true, offset := 0 }
     ((decoding.modFec 1 fun x => { x with clusters := x.clusters.set 7 (some j) }).fecSt 1).clusters.getD 7 none = some j) ∧
    ((decoding.table 1 (decoding.expressSlot 1)).isSome = true ∧
      ∃ k, k < 8 ∧ bit ((express.refreshPool 1).rd FEC_POOL_STATUS_EXPRESS 1) k = true) ∧
    (up.rd FRM_SC_STATUS_ALIGN 1 7 ≠ 3 ∧ framed.rd FRM_SC_STATUS_ALIGN 1 7 = 3 ∧ framed.rxState 1 7 = 3 ∧
      framed.rd FEC_SC_STATUS_RX_SYNC 1 7 = 0 ∧ (framed.wr FEC_SC_STATUS_RX_SYNC 1 1 7).rd FEC_SC_STATUS_RX_SYNC 1 7 ≠ 0 ∧
      framed.rd CNV_STATUS_SCLK_LOCK 1 ≠ 0) := by
  decide +kernel

/-! ### Witnesses: the frame -/

/-- Subcarrier 7 of die 1 in a given alignment state, with candidates and a run of failed checks. -/
def aligned (state run : Nat) (cs : List Cand) : State :=
  ((((arm 3).wr FRM_SC_STATUS_ALIGN 1 state 7).wr FRM_CTRL_HUNT_TH 1 1).modFrm 1 7 fun x => { x with cands := cs, fasRun := run })
theorem witness_FrameAlignment :
    ((aligned 3 4 []).align 1 7 ≠ 1 ∧ (aligned 3 4 []).align 1 7 ≠ 2 ∧ (aligned 1 0 []).align 1 7 = 1 ∧ (aligned 3 4 []).align 1 7 = 3 ∧
      (aligned 1 0 []).rd CNV_STATUS_SCLK_LOCK 1 ≠ 0 ∧ up.rd CNV_STATUS_SCLK_LOCK 1 = 0) ∧
    ((aligned 1 0 []).fasMatches 1 0 = false ∧ (aligned 1 0 []).fasMatches 1 1 = true ∧
      ((aligned 1 0 (List.replicate 3 { pos := 0, count := 1 })).frmArm 1 7).cands.length < 4) ∧
    (((aligned 2 0 [{ pos := 65535, count := 1 }]).frmArm 1 7).cands = [{ pos := 65535, count := 1 }] ∧
      (aligned 2 0 [{ pos := 65535, count := 1 }]).align 1 7 = 2 ∧ ({ pos := 5, count := 1 } : Cand).count < 2 ∧
      2 ≤ ({ pos := 5, count := 2 } : Cand).count) ∧
    (((aligned 3 4 []).frmArm 1 7).fasRun = 4 ∧ ((aligned 3 3 []).frmArm 1 7).fasRun ≠ 4) := by decide +kernel
/-- A frame alignment word on X and Y, alone and amid silence. -/
def fas : List Vec2 := (List.range 32).map fun u => { x := fasValue fasX u, y := fasValue fasY u }
def silence : List Vec2 := List.replicate 16 {}
def fasWindow : List Vec2 := silence ++ fas ++ silence
theorem witness_FrameAlignment_metric :
    (∀ x ∈ State.peakMetrics fasWindow, x ≤ (State.peakMetrics fasWindow).getD 16 0) ∧
    ¬ (∀ x ∈ State.peakMetrics (fas ++ silence ++ silence), x ≤ (State.peakMetrics (fas ++ silence ++ silence)).getD 16 0) ∧
    (aligned 2 0 []).fasMatches 1 ((State.peakMetrics fasWindow).getD 16 0) = true ∧
    (aligned 2 0 []).fasMatches 1 (fasMetric fas) = true ∧ (aligned 2 0 []).fasMatches 1 (fasMetric silence) = false := by
  decide +kernel
/-- A header with its check. -/
def header : Header := { sf := 1, mfc := 0, sbip := 5, rei := 15, bdi := true, pt := false, epoch := 0, record := List.replicate 32 0 }
/-- The symbols of a header, alike on X and Y. -/
def headSyms (h : Header) : List Vec2 := (List.range 224).map fun k =>
  let b := fun j : Nat => if bit (h.encode.getD (j / 8) 0).toNat (7 - j % 8) then (-1 : ℚ) else 1
  let c : Cpx := { re := b (2 * k), im := b (2 * k + 1) }
  { x := c, y := c }
/-- A SKEW record for a header of superframe 64: τ of 258 units, valid. -/
def skewHeader : Header := { header with sf := 64, record := [1, 2, 128] ++ List.replicate 29 0 }
theorem witness_FrameHeaders_read :
    (aligned 3 0 []).readHeader 1 7 [] = none ∧ (aligned 3 0 []).readHeader 1 7 (headSyms header) = some header ∧
      (aligned 3 0 []).readHeader 1 7 (headSyms skewHeader) = some skewHeader ∧ beAt header.record 0 1 = 0 ∧
      skewHeader.mfc % 16 = 0 ∧ ((aligned 3 0 []).cnvSt 1).txLast ≠ some (aligned 3 0 []).time.mf ∧
      ((skewHeader.record.getD 2 0).toNat).testBit 7 = true ∧
      candHeader { pos := 5, fas := fas, header := [] } = none := by decide +kernel
theorem witness_FrameHeadersDefectsAndTime :
    (up.align 1 7 ≠ 3 ∧ (aligned 3 0 []).align 1 7 = 3 ∧ (aligned 3 0 []).rd CNV_STATUS_SCLK_LOCK 1 ≠ 0 ∧
      ((aligned 3 0 []).wr CNV_STATUS_SCLK_LOCK 1 0).align 1 7 = 3 ∧
      ((aligned 3 0 []).wr CNV_STATUS_SCLK_LOCK 1 0).rd CNV_STATUS_SCLK_LOCK 1 = 0 ∧ Header.parse [] = none ∧ Header.parse header.encode = some header ∧
      nextFrame (((aligned 3 0 []).frmArm 1 7).sf, ((aligned 3 0 []).frmArm 1 7).mfc) = (header.sf, header.mfc) ∧
      (aligned 3 0 []).agreed ((aligned 3 0 []).teamBase 1) = (aligned 3 0 []).txEpoch ((aligned 3 0 []).teamBase 1) ∧
      (aligned 3 0 []).rd BUP_STATUS_STATE ((aligned 3 0 []).teamBase 1) ≠ 6) ∧
    ((((up.modFrm 1 7 fun x => { x with sbip := some 255 }).frmArm 1 7).sbip = some 255) ∧ (up.frmArm 1 7).sbip = none) ∧
    ((aligned 1 0 []).rxOn 1 7 = true ∧ (aligned 1 0 []).align 1 7 ≠ 0) ∧
    (up.rd FRM_TT_CTRL_EN 1 = 0 ∧ (up.wr FRM_TT_CTRL_EN 1 1).rd FRM_TT_CTRL_EN 1 ≠ 0 ∧ up.ttSelected 1 = none ∧
      (((arm 3).wr FRM_TT_CTRL_AUTO_SC 1 0).wr FRM_TT_CTRL_SC 1 15).ttSelected 1 = some (1, 7) ∧
      (({ team.tim with txStamps := [(9, 5)] } : TimSt).txStamps.find? fun x => x.1 == 9) = some (9, 5)) := by decide +kernel

/-! ### Witnesses: flows, keys and check units -/

/-- Flow 511 of die 1 sends and receives over slot 191. -/
def flowing : State :=
  (((((up.wr FLW_CFG_TX_EN 1 1 511).wr FLW_TX_SLOT_VALID 1 1 191).wr FLW_TX_SLOT_FLOW 1 511 191).wr FLW_TX_SLOT_DIE 1 1 191).wr
    FLW_CFG_RX_EN 1 1 511)
/-- The same with the slot in the receive table. -/
def receiving : State := ((flowing.wr FLW_RX_SLOT_VALID 1 1 191).wr FLW_RX_SLOT_FLOW 1 511 191).wr FLW_RX_SLOT_DIE 1 1 191
/-- A path overhead. -/
def poh : Poh := {
  id := 9, kp := false, enc := true, fbdi := false, csf := false, rei := 3, kfc := 7, nb := 1, pbip := 1, tag := List.replicate 16 0 }
/-- Flow 511 sends over slot 168, the first of subcarrier 7, which sends with a code. -/
def loaded : State :=
  (coded ((((up.wr FLW_CFG_TX_EN 1 1 511).wr FLW_TX_SLOT_VALID 1 1 168).wr FLW_TX_SLOT_FLOW 1 511 168).wr FLW_TX_SLOT_DIE 1 1 168)).wr
    TXD_SC_STATUS_STATE 1 3 7
/-- Words as two slots of a flow carry them: the words of an overhead in turn, then two words of client data. -/
def words : List (List Bool) := chunk 80 6 (unpackBits (poh.encode ++ List.replicate 20 0))
def shares : List (List (List Bool)) := splitShares [3, 3] words
theorem witness_FlowFramesAndBlocks_shares :
    (flowing.flowShares 1 511 0).sum < 4 ∧ 4 ≤ (loaded.flowShares 1 511 0).sum ∧ loaded.rd FLW_CHK_APPEND 1 511 = 0 ∧
      loaded.rd FLW_CFG_ENC 1 511 = 0 ∧ loaded.boundUnit 1 511 false 2 = none ∧ loaded.txSlots 1 511 = [(1, 168)] ∧
      (loaded.unit 1 10 1022).draining = false ∧ (loaded.txArm 1 7).waiting.length = 24 ∧
    mergeShares shares = words ∧ Poh.parse (packBits ((mergeShares shares).take 4).flatten) = some poh ∧
      Poh.parse (packBits ((mergeShares ([] : List (List (List Bool)))).take 4).flatten) = none := by decide +kernel
theorem witness_FlowFramesAndBlocks :
    (up.rd FLW_CFG_TX_EN 1 511 = 0 ∧ flowing.rd FLW_CFG_TX_EN 1 511 ≠ 0 ∧ up.txSlots 1 511 = [] ∧ flowing.txSlots 1 511 ≠ [] ∧
      ((flowing.modFlow 1 511 fun x => { x with buffer := List.replicate 15 [true] }).flow 1 511).buffer.length <
        16 + flowing.frameRoom 1 511 flowing.time.mf ∧
      16 + flowing.frameRoom 1 511 flowing.time.mf ≤ ((flowing.modFlow 1 511 fun x => { x with buffer := List.replicate 16 [true] }).flow 1 511).buffer.length) ∧
    (flowing.rd FLW_CHK_APPEND 1 511 = 0 ∧ flowing.rd FLW_CFG_ENC 1 511 = 0 ∧ flowing.boundUnit 1 511 false 2 = none ∧
      positions (dataBits 0) < 16) ∧
    (Poh.parse [] = none ∧ Poh.parse poh.encode = some poh ∧ poh.nb ≤ positions (8 * 100) ∧ receiving.rxSlots 1 511 ≠ []) := by decide +kernel
/-- Die 1 has an image key. -/
def keyed : State := { up with otp := [(unitKey 1 0, { imageKey := some (List.replicate 8 1) })] }
theorem witness_KeysAndCheckUnits :
    ((up.wr CRY_KEY_STATUS_BUSY 1 1).rd CRY_KEY_STATUS_BUSY 1 ≠ 0 ∧ up.rd CRY_KEY_STATUS_BUSY 1 = 0 ∧ up.encrypts 1 511 false = false ∧
      (up.wr CRY_FLOW_STATUS_TX_ENC 1 1 511).encrypts 1 511 false = true ∧ (up.otp.get {} (unitKey 1 0)).imageKey = none ∧
      (keyed.otp.get {} (unitKey 1 0)).imageKey = some (List.replicate 8 1)) ∧
    (up.keyJobs.find (unitKey 1 0) = none ∧
      ∀ r ∈ [1, 4], Store.find [(unitKey 1 0, ({ flow := 511, rx := true, next := true, result := r, key := none } : KeyJob))] (unitKey 1 0) =
        some { flow := 511, rx := true, next := true, result := r, key := none }) ∧
    ((up.wr CRC_UNIT_CFG_MODE 1 2 63).rd CRC_UNIT_CFG_MODE 1 63 = 2 ∧ up.rd CRC_UNIT_CFG_MODE 1 63 ≠ 2) ∧
    (up.crc = [] ∧ (up.wr CRC_UNIT_CFG_EN 1 1 63).rd CRC_UNIT_CFG_EN 1 63 ≠ 0 ∧ up.rd CRC_UNIT_CFG_EN 1 63 = 0) := by decide +kernel
/-- A wrapped key is good or not. -/
theorem witness_KeysAndCheckUnits_unwrap (kek w : List Byte) : keyUnwrap kek w = none ∨ ∃ b, keyUnwrap kek w = some b := by
  cases h : keyUnwrap kek w with
  | none => exact .inl rfl
  | some b => exact .inr ⟨b, rfl⟩

/-! ### Witnesses: host lanes -/

/-- Group 7 of die 1 in a given mode and state over lane 7 in a given state, all enabled. -/
def group (mode state lane : Nat) : State :=
  ((((((up.wr HLN_GRP_CFG_EN 1 1 7).wr HLN_GRP_CFG_MODE 1 mode 7).wr HLN_GRP_CFG_LANES 1 128 7).wr HLN_GRP_STATUS_STATE 1 state 7).wr
    HLN_LANE_CFG_EN 1 1 7).wr HLN_LANE_STATUS_STATE 1 lane 7)
/-- The same with the lane active. -/
def active (mode : Nat) : State := (group mode 2 7).wr HLN_GRP_STATUS_ACTIVE 1 128 7
/-- The configuration of a trunk group over lane 7, and of an Ethernet group over all lanes with a code that needs 2. -/
def trunkCfg : Word := 0xC0800000#32
def badCfg : Word := 0x80FF0000#32
theorem witness_LaneGroupsAndLanes :
    (let s1 := fun w : Word => (State.grpFields w.toNat).foldl (fun (t : State) p => t.wr p.1 1 p.2 7) up
     up.rd HLN_GRP_CFG_EN 1 7 = 0 ∧ trunkCfg.toNat.testBit 31 = true ∧ (s1 trunkCfg).grpBad 1 7 = false ∧
      (s1 badCfg).grpBad 1 7 = true ∧ (0#32 : Word).toNat.testBit 31 = false) ∧
    ((group 1 2 7).rd HLN_GRP_CFG_EN 1 7 ≠ 0 ∧ ((State.grpFields (0#32 : Word).toNat).any fun p => (group 1 2 7).rd p.1 1 7 != p.2) = true) ∧
    ((group 1 1 1).rd HLN_LANE_CFG_EN 1 7 ≠ 0 ∧ (group 1 1 1).laneState 1 7 = 1 ∧ up.rd HLN_LANE_CFG_EN 1 7 = 0 ∧
      (group 1 1 2).laneState 1 7 = 2 ∧ up.laneState 1 7 ≠ 2 ∧ (group 1 1 3).laneState 1 7 = 3 ∧
      (group 1 1 3).laneGrp 1 7 = some 7 ∧ (group 1 1 3).isTrunk 1 7 = true ∧
      ((group 1 1 3).wr HLN_LANE_CFG_TRAIN_EN 1 1 7).rd HLN_LANE_CFG_TRAIN_EN 1 7 ≠ 0) ∧
    ((group 1 1 4).laneState 1 7 = 4 ∧ ((group 1 1 3).wr HLN_GRP_CFG_EN 1 0 7).laneGrp 1 7 = none ∧
      ((group 1 1 3).wr HLN_GRP_CFG_EN 1 0 7).laneState 1 7 = 3 ∧ (group 0 1 3).isTrunk 1 7 = false ∧
      ∀ j ∈ (group 0 1 3).grpLanes 1 7, j ≠ 7 → (group 0 1 3).laneState 1 j = 5) ∧
    ((active 1).laneGrp 1 7 = some 7 ∧ (active 1).isTrunk 1 7 = true ∧ (active 1).grpState 1 7 = 2 ∧ (active 1).laneState 1 7 = 7 ∧
      ((active 1).rd HLN_GRP_STATUS_ACTIVE 1 7).testBit 7 = true ∧ (active 1).laneState 1 7 ≠ 0 ∧ (active 1).laneState 1 7 ≠ 9 ∧
      (active 1).laneUp 1 7 = true ∧ up.laneState 1 7 = 0) := by decide +kernel
/-- A hello message of the partner's lane 0, in an epoch and with the size of its group. -/
def hello (epoch state : Nat) : Hello := { node := 5, die := 0, lane := 0, size := 1, up := 1, epoch := epoch, cap := 0, state := state }
/-- Group 7 re-forms; lane 7 has heard the partner in epoch 0 and both have aligned. -/
def heard : State := (group 1 3 8).modLane 1 7 fun x => { x with heard := some (hello 0 1), good := 5, align := some (0, 1, 0, 0) }
theorem witness_HelloAndReform :
    ((group 1 1 6).laneGrp 1 7 = some 7 ∧ (group 1 1 6).isTrunk 1 7 = true ∧ up.laneGrp 1 7 = none) ∧
    (Hello.parse [] = none ∧ Hello.parse (hello 127 2).encode = some (hello 127 2) ∧ (up.grp 1 7).partner = none ∧
      ((up.modGrp 1 7 fun x => { x with partner := some 6 }).grp 1 7).partner = some 6 ∧ (6 : Nat) ≠ (hello 127 2).node ∧
      ((group 1 2 6).laneState 1 7 = 6) ∧ ((group 1 2 6).lane 1 7).good = 0 ∧ 1 ≤ (heard.lane 1 7).good ∧
      epochAhead (hello 127 2).epoch ((group 1 2 6).rd HLN_GRP_STATUS_EPOCH 1 7) = true ∧ epochAhead 128 0 = false) ∧
    ((group 1 1 6).rd HLN_GRP_STATUS_RX_DORMANT 1 7 = 0 ∧
      ((group 1 1 6).wr HLN_GRP_STATUS_RX_DORMANT 1 1 7).rd HLN_GRP_STATUS_RX_DORMANT 1 7 ≠ 0 ∧ up.grpState 1 7 = 0 ∧
      (group 1 3 6).grpState 1 7 ≠ 0) ∧
    (heard.activeSet_ 1 7 = [7] ∧ heard.grpState 1 7 = 3 ∧ up.activeSet_ 1 7 = [] ∧
      ∀ k ∈ heard.activeSet_ 1 7, (heard.lane 1 k).heard.map Hello.epoch = some (heard.rd HLN_GRP_STATUS_EPOCH 1 7) ∧
        (heard.lane 1 k).align.map (fun a => a.2.2.1) = some (heard.rd HLN_GRP_STATUS_EPOCH 1 7)) := by decide +kernel
/-- Flow 511 is carried by trunk group 7, which is up. -/
def carried : State :=
  let s := { (active 1) with regs := (active 1).regs.putAll flowing.regs }
  (((s.wr HLN_FLOW_GRP_VALID 1 1 511).wr HLN_FLOW_GRP_GROUP 1 7 511).wr HLN_GRP_CFG_SLEEP_EN 1 1 7).wr HLN_GRP_PCAP_CAP 1 1 7
/-- A tag of flow 511 of a given kind. -/
def tag (kind : Nat) : List Byte :=
  let b := bytesBE 2 511 ++ bytesBE 1 kind ++ [0, 1, 0]
  b ++ bytesBE 1 (crcMsb 8 0x07 0 b)
/-- The group deals to lane 7, which has sent its ALIGN and expects a number of data blocks of a burst. -/
def dealing (burst : Nat) : State :=
  (carried.modGrp 1 7 fun x => { x with order := [7], burst := burst }).modLane 1 7 fun x => { x with sent := 1 }
/-- A control block of a type as it arrives on the lane. -/
def arriving (type : Byte) : List Bool := (selfScramble (List.replicate 58 false) (unpackBits (type :: List.replicate 7 0))).1
theorem witness_HostTraffic_lane :
    ((dealing 0).flowGrp 1 511 = some 7 ∧ (dealing 0).isTrunk 1 7 = true ∧ (dealing 0).grpState 1 7 = 2 ∧
      (dealing 0).rd HLN_GRP_STATUS_TX_DORMANT 1 7 = 0 ∧ ((dealing 0).flow 1 511).toHost = [] ∧
      ((dealing 0).grp 1 7).order[((dealing 0).grp 1 7).turnTx % ((dealing 0).grp 1 7).order.length]? = some 7 ∧
      ((dealing 0).lane 1 7).sent % 20480 ≠ 0 ∧ ((dealing 0).lane 1 7).filled < 1022) ∧
    ((dealing 0).laneGrp 1 7 = some 7 ∧ ((dealing 0).lane 1 7).held = [] ∧ up.laneGrp 1 7 = none ∧
      ((dealing 0).grp 1 7).turnRx % 2 ^ 24 = ((dealing 0).lane 1 7).next ∧ ((dealing 0).grp 1 7).burst = 0 ∧
      ((dealing 3).grp 1 7).burst ≠ 0 ∧
      ∀ k ∈ ([0x1E, 0x55, 0x2D] : List Byte), ({ control := some true, bits := arriving k } : TrunkBlock).type ≠ some 0x4B ∧
        ({ control := some true, bits := (selfDescramble ((dealing 0).lane 1 7).scrRx (arriving k)).1 } : TrunkBlock).type = some k.toNat) ∧
    (((dealing 0).wr HLN_GRP_STATUS_TX_DORMANT 1 1 7).rd HLN_GRP_STATUS_TX_DORMANT 1 7 ≠ 0 ∧ up.heldIdle 1 = false ∧
      (held up).heldIdle 1 = true) := by decide +kernel
/-- Timestamps of trunk marks and of layer 2 are on. -/
def stamping (q : Nat) : State :=
  { (((active 0).wr HLN_TS_CTRL_EN 1 1).wr HLN_TS_CTRL_L2 1 1).wr HLN_TS_CTRL_MARK 1 1 with
    stamps := [(unitKey 1 0, List.replicate q [0, 0, 0, 0])] }
theorem witness_HostTrafficSleepAndStamps :
    ((∀ k ∈ [0, 1], bitsAt (beAt (tag k) 0 2) 0 9 = 511 ∧ beAt (tag k) 2 1 = k ∧ (tag k).length = 7 ∧
        beAt (tag k) 6 1 = crcMsb 8 0x07 0 ((tag k).take 6)) ∧ carried.isTrunk 1 7 = true ∧ carried.rd HLN_GRP_CFG_EN 1 7 ≠ 0 ∧
      carried.rd HLN_FLOW_GRP_VALID 1 511 ≠ 0 ∧ carried.rd HLN_FLOW_GRP_GROUP 1 511 = 7 ∧
      carried.rd HLN_GRP_STATUS_RX_DORMANT 1 7 = 0 ∧ carried.rd FLW_CFG_TX_EN 1 511 ≠ 0 ∧ carried.txSlots 1 511 ≠ [] ∧
      (carried.flow 1 511).buffer.length < 16 + carried.frameRoom 1 511 carried.time.mf ∧ up.isTrunk 1 7 = false) ∧
    (up.flowGrp 1 511 = none ∧ carried.flowGrp 1 511 = some 7 ∧ carried.grpState 1 7 = 2 ∧ carried.rd HLN_GRP_STATUS_TX_DORMANT 1 7 = 0 ∧
      (carried.wr FLW_CFG_REPLACE 1 1 511).rd FLW_CFG_REPLACE 1 511 ≠ 0) ∧
    (let s := { (active 0) with regs := ((active 0).regs.putAll flowing.regs) }.wr HLN_GRP_CFG_FLOW 1 511 7
     s.isTrunk 1 7 = false ∧ s.grpState 1 7 = 2 ∧ s.rd FLW_CFG_TX_EN 1 (s.rd HLN_GRP_CFG_FLOW 1 7) ≠ 0 ∧
      s.txSlots 1 (s.rd HLN_GRP_CFG_FLOW 1 7) ≠ []) ∧
    ((up.wr HLN_GRP_CFG_TX_TIMING 1 1 7).rd HLN_GRP_CFG_TX_TIMING 1 7 ≠ 0 ∧ up.rd HLN_GRP_CFG_TX_TIMING 1 7 = 0 ∧
      up.rd HLN_GRP_CFG_SLEEP_EN 1 7 = 0) ∧
    (carried.rd HLN_GRP_CFG_SLEEP_EN 1 7 ≠ 0 ∧ (carried.rd HLN_GRP_PCAP_CAP 1 7).testBit 0 = true ∧
      ∀ f ∈ carried.grpFlows 1 7, carried.rxSlots 1 f = [] ∧ (carried.flow 1 f).toHost = []) ∧
    (((group 1 3 9).wr HLN_GRP_STATUS_RX_DORMANT 1 1 7).rd HLN_GRP_STATUS_RX_DORMANT 1 7 ≠ 0 ∧
      (((group 1 3 9).modGrp 1 7 fun x => { x with resume := true }).grp 1 7).resume = true) ∧
    (up.rd HLN_TS_CTRL_EN 1 = 0 ∧ up.rd HLN_TS_CTRL_L2 1 = 0 ∧ (stamping 63).rd HLN_TS_CTRL_EN 1 ≠ 0 ∧ (stamping 63).rd HLN_TS_CTRL_L2 1 ≠ 0 ∧
      (stamping 63).rd HLN_TS_CTRL_MARK 1 ≠ 0 ∧ (stamping 63).isTrunk 1 7 = false ∧ ((stamping 63).stampQ 1).length < 64 ∧
      64 ≤ ((stamping 64).stampQ 1).length ∧ ((stamping 63).wr HLN_GRP_CFG_MODE 1 1 7).isTrunk 1 7 = true) := by decide +kernel

/-! ### Witnesses: plan epochs, discovery, start -/

/-- A change of the team's record. -/
def withTeam (f : TeamSt → TeamSt) : State := team.modTeam 0 f
/-- The body of a PROPOSE of epoch 1 with no entries. -/
def proposal : List Byte := bytesBE 4 1 ++ List.replicate 24 0
/-- The same with two entries, and the head it gives. -/
def proposal2 : List Byte := bytesBE 4 1 ++ List.replicate 13 0 ++ [2] ++ List.replicate 10 0
def head2 : PlanHead := State.headPropose proposal2
/-- The acceptor's transaction of epoch 1 for the team. -/
def accepting (state : Nat) : State :=
  { (team.wr FRM_PLAN_STATUS_STATE 0 state) with
    txn := { isOpen := true, acceptor := true, planTeam := some 0, planEpoch := 1, mf := 3, members := [0, 1] } }
theorem witness_PlanMessages :
    (team.teamBase 1 = 0 ∧ (withTeam fun x => { x with head := some head2 }).teamBase 1 = 0 ∧
      ((withTeam fun x => { x with head := some head2 }).team 0).head = some (State.headPropose proposal2) ∧
      (team.team 0).head ≠ some head2 ∧ head2.entries ≠ 0 ∧ (State.headPropose proposal).entries = 0 ∧ (team.team 0).head = none ∧
      team.rd FRM_PLAN_STATUS_STATE 0 = 0 ∧ (accepting 0).txn.isOpen = true) ∧
    (beAt (bytesBE 4 1 ++ [0, 1] ++ List.replicate 22 7) 0 4 = head2.epoch ∧
      beAt (bytesBE 4 1 ++ [0, 1] ++ List.replicate 22 7) 4 2 < head2.entries ∧
      beAt (bytesBE 4 1 ++ [0, 2] ++ List.replicate 22 7) 4 2 = head2.entries ∧ (team.team 0).judged = false ∧
      ([] : List (Nat × List Byte)).length + 1 < head2.entries) ∧
    ((accepting 1).rd FRM_PLAN_STATUS_STATE 0 = 1 ∧ (accepting 4).rd FRM_PLAN_STATUS_STATE 0 = 4 ∧
      (State.headAccept (bytesBE 4 1 ++ List.replicate 9 0 ++ [1] ++ List.replicate 14 0)).entries ≠ 0) ∧
    ((accepting 1).txn.planTeam = some 0 ∧ beAt proposal 0 4 = (accepting 1).txn.planEpoch ∧ (accepting 1).txn.acceptor = true ∧
      (accepting 1).txn.goSent = false ∧ team.txn.acceptor = false) ∧
    ((team.team 0).change = none ∧ team.txn.isOpen = false ∧
      ((withTeam fun x => { x with change := some { revert := false, epoch := 1, mf := 3 } }).team 0).change =
        some { revert := false, epoch := 1, mf := 3 }) := by decide +kernel
/-- Die 1 of the pair is ready to take part again. -/
def rejoining : State :=
  ((((team.wr PKG_MEMBER_STATUS_STATE pkg 14).wr CAL_STATUS_FG_STATE 1 2).wr CNV_CTRL_ADC_EN 1 15).wr CAL_STATUS_REJOIN_OK_LO 1 1).modDie 1
    fun x => { x with released := true, rejoinReq := true }
theorem witness_PlanChanges :
    ((accepting 3).txn.isOpen = true ∧ (accepting 3).txn.acceptor = true ∧ (accepting 3).txn.planTeam = some 0 ∧
      (accepting 3).txn.goSent = false ∧ ((accepting 3).team 0).confirm = false ∧ ((accepting 3).team 0).goNext = false ∧
      (((accepting 3).modTeam 0 fun x => { x with confirm := true }).team 0).confirm = true ∧
      (((accepting 3).modTeam 0 fun x => { x with farNext := some 1 }).team 0).farNext = some (accepting 3).txn.planEpoch ∧
      (2 : Nat) ≠ (accepting 3).txn.planEpoch) ∧
    (accepting 3).rd IMG_SHADOW_VALID pkg = 0 ∧
    (team.cairnSwitch 0 = false ∧ team.farEpoch 0 = (team.team 0).rxEpoch ∧ (team.wr FRM_PLAN_FAR_EPOCH 0 1).farEpoch 0 ≠ ((team.wr FRM_PLAN_FAR_EPOCH 0 1).team 0).rxEpoch ∧
      (team.wr FRM_PLAN_FAR_EPOCH 0 1).farPlan 0 1 = none ∧ (withTeam fun x => { x with far := [(1, {})] }).farPlan 0 1 = some {}) ∧
    ((team.team 0).diffRun < team.rd FRM_PLAN_CTRL_PLAN_WAIT 0 ∧
      team.rd FRM_PLAN_CTRL_PLAN_WAIT 0 ≤ ((withTeam fun x => { x with diffRun := 65535 }).team 0).diffRun ∧
      (team.team 0).openAt = none ∧ (team.team 0).baseCamp = false ∧ team.rd FRM_PLAN_STATUS_STATE 0 = 0) ∧
    (({ team.time with mf := 15 } : Time).mf < 0 + 16 ∧ 0 + 16 ≤ ({ team.time with mf := 16 } : Time).mf ∧
      ((withTeam fun x => { x with openAt := some 0 }).team 0).openAt = some 0) ∧
    ((∀ e ∈ team.teamDies 0, (team.die e).absenceDue = false) ∧ 1 ∈ team.teamDies 0 ∧
      ((team.modDie 1 fun x => { x with absenceDue := true }).die 1).absenceDue = true ∧ team.txn.isOpen = false ∧
      (team.team 0).change = none) ∧
    (team.rejoinReady 1 = false ∧ rejoining.rejoinReady 1 = true ∧ rejoining.teamSize 1 ≠ 1 ∧
      (rejoining.wr PKG_TEAM_MAP_SIZE pkg 0).rejoinReady 1 = true ∧ (rejoining.wr PKG_TEAM_MAP_SIZE pkg 0).teamSize 1 = 1 ∧
      ({ rejoining with txn := { isOpen := true } } : State).rejoinReady 1 = true) := by decide +kernel
/-- The team is in base camp; its cairn die 0 discovers, in a given state. -/
def camp (state : Nat) : State := (withTeam fun x => { x with baseCamp := true }).wr BUP_CAIRN_STATUS_STATE 0 state
/-- A good header of another node, and one that reflects the own node (identity 0). -/
def otherHeader : List Byte :=
  let b := [1, 1, 64, 0, 0, 0] ++ bytesBE 8 5 ++ List.replicate 14 0 ++ [0, 2]
  b ++ bytesBE 2 (crc16 b)
def ownHeader : List Byte :=
  let b := List.replicate 30 0
  b ++ bytesBE 2 (crc16 b)
def body2 : List Byte := [1, 2] ++ bytesBE 4 (crc32c [1, 2])
/-- A peer of the same geometry. -/
def peer (s : State) : Peer := {
  node := 5, team := 64 * mapCode (s.rd PKG_TEAM_MAP_SIZE pkg) 0, slice := s.rd PKG_GEOM_SLICE_SPACING pkg 0
  sc := s.rd PKG_GEOM_SC_SPACING pkg 0, power := 0, heard := 1, at_ := 0 }
theorem witness_CairnDiscovery :
    (team.discovering 0 = false ∧ (camp 1).discovering 0 = true ∧ ((camp 1).team 0).sending = [] ∧
      (((camp 1).modTeam 0 fun x => { x with sending := [proposal] }).team 0).sending ≠ [] ∧
      (((camp 1).modCairn 0 fun x => { x with turn := true }).cairnSt 0).turn = true) ∧
    (((camp 1).cairnSt 0).pkt = none ∧
      (((camp 1).modCairn 0 fun x => { x with pkt := some { power := 2, pos := 5, header := some otherHeader } }).cairnSt 0).pkt =
        some { power := 2, pos := 5, header := some otherHeader } ∧ (5 : Nat) ≠ 6) ∧
    (otherHeader.length = 32 ∧ crc16 (otherHeader.take 30) = beAt otherHeader 30 2 ∧ beAt otherHeader 6 8 ≠ (camp 1).nodeId 0 ∧
      ownHeader.length = 32 ∧ crc16 (ownHeader.take 30) = beAt ownHeader 30 2 ∧ beAt ownHeader 6 8 = (camp 1).nodeId 0 ∧
      (camp 1).rd BUP_CAIRN_STATUS_STATE 0 ≠ 3) ∧
    (body2.length = beAt otherHeader 28 2 + 4 ∧ crc32c (body2.take (beAt otherHeader 28 2)) = beAt body2 (beAt otherHeader 28 2) 4 ∧
      ((camp 1).team 0).peer ≠ some (beAt otherHeader 6 8, beAt otherHeader 2 1)) ∧
    ((camp 1).compatible 0 (peer (camp 1)) = true ∧ ((camp 1).cairnSt 0).peers.any ((camp 1).compatible 0) = false ∧
      7 < (List.replicate 8 (peer (camp 1))).length) ∧
    (up.cairnDie 0 = none ∧ (up.wr BUP_CTRL_AUTO_RAMP 0 0).rd BUP_CTRL_AUTO_RAMP 0 = 0) ∧
    ((camp 3).txn.isOpen = false ∧ (camp 3).rd FRM_PLAN_STATUS_STATE 0 = 0 ∧ (camp 3).cairnDie 0 = some 0 ∧
      ((camp 3).team 0).baseCamp = true ∧ (camp 3).discovering 0 = true ∧
      ((camp 3).wr BUP_CAIRN_STATUS_MUTUAL 0 1).rd BUP_CAIRN_STATUS_MUTUAL 0 ≠ 0 ∧
      ((((camp 3).wr BUP_NODE_ID_LO_NODE_ID 0 9).modTeam 0 fun x => { x with peer := some (5, 64) }).leadsStart 0 = true)) ∧
    (let s := ((((team.wr BUP_STATUS_STATE 0 5).wr CAL_STATUS_BG_CONVERGED 0 1).wr CAL_STATUS_BG_CONVERGED 1 1).wr BUP_CTRL_AUTO_RAMP 0 1)
     s.rd BUP_CTRL_AUTO_RAMP 0 ≠ 0 ∧ s.rd BUP_STATUS_STATE ((s.cairnDie 0).getD 0) = 5 ∧ s.agreed 0 = s.txEpoch 0 ∧
      s.rampReady 0 = true) := by decide +kernel
/-- 1 152 equal symbols, which repeat with metric 1 and power 1. -/
def tone : List Cpx := List.replicate 1152 { re := 1, im := 0 }
/-- The symbols of a packet from its delimiter on. -/
def burst (header : List Byte) : List ℚ := (delimiterBits.map bpsk ++ repeatBits 4 header).map fun x => (x : ℚ)
theorem witness_CairnDiscovery_packets :
    (repetition tone = (1, 1) ∧ (repetition []).1 = 0 ∧ 0 < (camp 1).rd BUP_CAIRN_CTRL_DET_TH 0 ∧
      ((camp 1).rd BUP_CAIRN_CTRL_DET_TH 0 : ℚ) / 256 ≤ 1 ∧
      1 / 100 * pow10 (((camp 1).rd BUP_CAIRN_CTRL_CAPTURE 0 : ℚ) / 20) ≤ 1 ∧
      1 < 1 * pow10 (((camp 1).rd BUP_CAIRN_CTRL_CAPTURE 0 : ℚ) / 20)) ∧
    burstHeader [] = [] ∧ burstHeader (burst otherHeader) = otherHeader ∧ burstHeader (burst ownHeader) = ownHeader ∧
    burstBytes 2 ((repeatBits 2 body2).map fun x => (x : ℚ)) = body2 := by decide +kernel
theorem witness_CairnDiscovery_expiry :
    let s := (camp 1).modCairn 0 fun x => { x with peers := [peer (camp 1)] }
    (s.cairnSt 0).peers[((0 : Fin 8) : Nat)]? = some (peer (camp 1)) ∧ (s.cairnSt 0).peers.length ≤ ((1 : Fin 8) : Nat) ∧
      (s.sfCount - (peer (camp 1)).at_) * 4096 < 64000000 ∧
      64000000 ≤ (({ s with time := { mf := 100 } } : State).sfCount - (peer (camp 1)).at_) * 4096 := by decide +kernel
/-- The team's far end is known, and the announced multiframe of its epoch 1 has come. -/
theorem witness_PlanChanges_cairn :
    let s := (withTeam fun x => { x with
      peer := some ((peer team).node, (peer team).team), head := some (State.headPropose proposal), far := [(1, {})] }).modCairn 0
        fun x => { x with peers := [peer team] }
    s.cairnSwitch 0 = true ∧ (s.team 0).rxEpoch ≠ 1 ∧ s.farPlan 0 1 = some {} := by decide +kernel
/-- Die 1 alone awaits the sections of its image. -/
def sectionsDue : State := ((up.modDie 1 fun x => { x with loaded := true }).modLoad 1 fun x => { x with result := some 0 })
theorem witness_RebaseAndSections :
    ((team.team 0).baseCamp = false ∧ ((camp 1).team 0).baseCamp = true ∧ (camp 1).cairnDie 0 = some 0 ∧
      (camp 1).txn.isOpen = false ∧ (camp 1).rd FRM_PLAN_STATUS_STATE 0 = 0 ∧ team.cairnDie 0 ≠ some 1) ∧
    (team.rebaseCause 0 .farEpoch0 = false ∧ (withTeam fun x => { x with zeroRun := 65535 }).rebaseCause 0 .farEpoch0 = true ∧
      (team.team 0).rebase = false ∧ ((withTeam fun x => { x with rebase := true }).team 0).rebase = true) ∧
    ((∀ e, e < up.part.dies → up.awaitsSections e = false) ∧ sectionsDue.dieList.filter sectionsDue.awaitsSections = [1]) := by
  decide +kernel

/-! ### One step of a command of each kind. Expected values come from the rules named. -/

/-- The state a command leaves, the same state where it answers none. -/
def after (s : State) (r : Host.Outcome State Fault Refusal) : State :=
  match r with
  | .next t => t
  | _ => s

/-- R8, R12: 0 is stored as the nearest bound of AVG. -/
theorem test_write_stores_nearest_bound :
    (after up (exec (.registerWrite (.path .spi) 0x00100034#32 0#32) up)).rd RXD_Q_CTRL_AVG 0 = 1 := by decide +kernel
/-- R6. -/
theorem test_unaligned_read_is_refused :
    (after up (exec (.rcRead (.path .spi) 0x00100035#32) up)).bus.last = { code := 2, addr := 0x00100035 } := by decide +kernel
/-- R90: LEAD below 2 is taken as 2, the switch follows the multiframe after the commit. -/
theorem test_commit_lead :
    (after up (exec (.txnCommit 0) up)).txn.mf = up.time.mf + 3 := by decide +kernel
/-- R49: a heartbeat that arrives is answered on the ring (type 2, R48) to the crown. -/
theorem test_heartbeat_answer :
    ((after up (exec (.heartbeat 1 true false) up)).out.map fun o => match o with | .ring m => (m.type, m.src, m.dst) | _ => (0, 0, 0)) =
      [(2, 1, 0)] := by decide +kernel
/-- R365: a step of 0.5 ms is taken, one of 1 ps more is refused. -/
theorem test_phase_step_limit :
    (after up (exec (.phaseStep 500000000#32) up)).rd TIM_EVENT_STEP_ERR pkg = 0 ∧
    (after up (exec (.phaseStep 500000001#32) up)).rd TIM_EVENT_STEP_ERR pkg = 1 := by decide +kernel
/-- R62: a message of one NOP is answered, and again from the kept response. -/
theorem test_message_repeats :
    let t := after paths (exec (.mgmtMessage .inband ⟨nopMsg, 0⟩) paths)
    let u := after t (exec (.mgmtMessage .inband ⟨nopMsg, 0⟩) t)
    t.out.length = 1 ∧ u.out = t.out := by decide +kernel
/-- R303: ADDI x1, x2, 3 with x2 = 0. -/
theorem test_engine_addi :
    let t := after (engines 0x00310093) (exec (.engineInstruction 1 9) (engines 0x00310093))
    t.xreg 1 9 1 = 3 ∧ (t.eng 1 9).pc = 4 := by decide +kernel
/-- R305: −1 × −1 exceeds the element and saturates to 32 767. -/
theorem test_cv_mul_saturates :
    let s := (engines 0).modEng 1 9 fun r => { r with cv := List.replicate 8 (List.replicate 8 { i := -32768, q := 0 }) }
    let t := after s (exec (.cvMul 1 9 2 0 1) s)
    ((t.cvReg 1 9 2).headD {}).i = 32767 ∧ (t.eng 1 9).sat = true := by decide +kernel
/-- R450: RESET_N pulses under 100 ns are ignored. -/
theorem test_short_reset_pulse : (after up (exec (.resetNPulse 99) up)).crown = up.crown := by decide +kernel
/-- R348: the crown die is not parked. -/
theorem test_crown_not_parked :
    (after up (exec (.park 0) up)).parked 0 = false ∧ (after up (exec (.park 1) up)).parked 1 = true := by decide +kernel
/-- R254: a flow holds 16 blocks; the next is counted as lost. -/
theorem test_flow_overflow :
    let s := flowing.modFlow 1 511 fun x => { x with buffer := List.replicate 16 [true] }
    (after s (exec (.flowBlockIn 1 511 [true]) s)).rd FLW_CNT5_COUNT 1 511 = 1 := by decide +kernel
/-- R405 and the host buffer registers of spec/15: an acknowledged host packet leaves the buffer. -/
theorem test_host_packet :
    let t := after up (exec (.hostPacket [1, 2, 3]) up)
    t.rd PLM_HOST_CTRL_RX_LEN pkg = 3 ∧ (after t (exec .plmRxAck t)).rd PLM_HOST_CTRL_RX_VALID pkg = 0 := by decide +kernel
/-- R2: a part of two dies has no die 2. -/
theorem test_absent_die : exec (.sclkLost 2) up = run up id := rfl
/-- The checks of R48 and R61 on the standard string of nine digits. -/
theorem test_check_values :
    crc16 [0x31, 0x32, 0x33, 0x34, 0x35, 0x36, 0x37, 0x38, 0x39] = 0x29B1 ∧
    crc32c [0x31, 0x32, 0x33, 0x34, 0x35, 0x36, 0x37, 0x38, 0x39] = 0xE3069283 := by decide +kernel

end Sys2Proof.Tests
end

section
/-! SUPPORT. PROOFS. Bringing the interrupt tree up to date hides no event, and every command is one run (O5, O3). -/
namespace Sys2Proof.Laws
open Sys2Proof Sys2Proof.Machine

section
variable {s t : State}

theorem eventWord_congr {fs : List Fld} {d : Nat} (h : ∀ f ∈ fs, t.rd f d = s.rd f d) :
    t.eventWord fs d = s.eventWord fs d :=
  List.foldl_ext _ _ _ fun _ f hf => by rw [h f hf]

theorem enabled_congr {fs : List Fld} {m : Fld} {d : Nat} (h : ∀ f ∈ fs, t.rd f d = s.rd f d) (hm : t.rd m d = s.rd m d) :
    t.enabled fs m d = s.enabled fs m d := by
  simp only [State.enabled, eventWord_congr h, hm]

theorem anySet_congr {fs : List Fld} {d : Nat} (h : ∀ f ∈ fs, t.rd f d = s.rd f d) :
    t.anySet fs d = s.anySet fs d := by
  rw [State.anySet, State.anySet, Bool.eq_iff_iff]
  simp only [List.any_eq_true]
  exact exists_congr fun f => and_congr_right fun hf => by rw [State.flag, State.flag, h f hf]

/-- No source of a die's summary is itself a summary. -/
theorem dieSources_place :
    ∀ x ∈ dieSources, (∀ f ∈ x.2.1, place f ∉ summaryPlaces) ∧ place x.2.2 ∉ summaryPlaces := by decide

theorem dieUnmasked_place : ∀ x ∈ dieUnmasked, ∀ f ∈ x.2, place f ∉ summaryPlaces := by decide

theorem OnlySummaries.enabled (h : OnlySummaries s t) {x : Nat × List Fld × Fld} (hx : x ∈ dieSources) (d : Nat) :
    t.enabled x.2.1 x.2.2 d = s.enabled x.2.1 x.2.2 d :=
  enabled_congr (fun f hf => h.rd f d 0 ((dieSources_place x hx).1 f hf)) (h.rd _ d 0 (dieSources_place x hx).2)

theorem foldl_bits_congr {α : Type} {i : α → Nat} {p q : α → Bool} {xs : List α} (h : ∀ x ∈ xs, p x = q x) (a : Nat) :
    xs.foldl (fun a x => if p x then a ||| 2 ^ i x else a) a = xs.foldl (fun a x => if q x then a ||| 2 ^ i x else a) a :=
  List.foldl_ext _ _ _ fun _ x hx => by rw [h x hx]

/-- The live events of a die do not depend on the summaries. -/
theorem OnlySummaries.liveDie (h : OnlySummaries s t) (d : Nat) : t.liveDie d = s.liveDie d := by
  have masked : ∀ x ∈ dieSources, t.enabled x.2.1 x.2.2 d = s.enabled x.2.1 x.2.2 d := fun x hx => h.enabled hx d
  have unmasked : ∀ x ∈ dieUnmasked, t.anySet x.2 d = s.anySet x.2 d := fun x hx =>
    anySet_congr fun f hf => h.rd f d 0 (dieUnmasked_place x hx f hf)
  simp only [State.liveDie, foldl_bits_congr masked, foldl_bits_congr unmasked]

/-- A word that bits of indices below a bound are put into stays below the bound's power of two. -/
theorem foldl_or_lt {α : Type} (w : Nat) (i : α → Nat) (p : α → Bool) (xs : List α) (h : ∀ x ∈ xs, i x < w) {a : Nat}
    (ha : a < 2 ^ w) : xs.foldl (fun a x => if p x then a ||| 2 ^ i x else a) a < 2 ^ w := by
  induction xs generalizing a with
  | nil => exact ha
  | cons x xs ih =>
    refine ih (fun y hy => h y (by simp [hy])) ?_
    dsimp only
    split
    · exact Nat.or_lt_two_pow ha (Nat.pow_lt_pow_right (by decide) (h x (by simp)))
    · exact ha

theorem liveDie_lt (s : State) (d : Nat) : s.liveDie d < 2 ^ 26 :=
  foldl_or_lt 26 Prod.fst (fun x => s.anySet x.2 d) dieUnmasked (by decide)
    (foldl_or_lt 26 Prod.fst (fun x => s.enabled x.2.1 x.2.2 d) dieSources (by decide) (Nat.two_pow_pos 26))

theorem livePkgDie_lt (s : State) (c : Nat) : s.livePkgDie c < 2 ^ 8 :=
  foldl_or_lt 8 (fun n => n) _ _ (fun n hn => by
    have := List.mem_range.mp hn
    have := dies_le s.part
    omega) (by decide)

/-- A bit set in a number below a power of two lies below its exponent. -/
theorem lt_of_testBit_of_lt {n w i : Nat} (hn : n < 2 ^ w) (h : n.testBit i = true) : i < w :=
  (Nat.pow_lt_pow_iff_right (by decide)).mp ((Nat.ge_two_pow_of_testBit h).trans_lt hn)

/-! ### Bits of a raised field -/

/-- Raising bits of a field keeps the bits set in it, at every die. -/
theorem testBit_raise (f : Fld) (d m e i : Nat) (hi : i < f.w) (h : (s.rd f e).testBit i = true) :
    ((s.raise f d m).rd f e).testBit i = true := by
  by_cases he : e = d
  · subst he; simp [rd_raise_same, hi, h]
  · rwa [rd_raise_inst s f f he]

theorem testBit_raise_mask (s : State) (f : Fld) (d m i : Nat) (hi : i < f.w) (h : m.testBit i = true) :
    ((s.raise f d m).rd f d).testBit i = true := by
  simp [rd_raise_same, hi, h]

/-! ### The die summaries -/

theorem onlySummaries_settleDie (s : State) (d : Nat) : OnlySummaries s (s.settleDie d) :=
  onlySummaries_raise s (by decide) d _ _

theorem onlySummaries_settleDies (ds : List Nat) (s : State) : OnlySummaries s (ds.foldl State.settleDie s) :=
  onlySummaries_foldl s ds _ fun t d _ => onlySummaries_settleDie t d

theorem testBit_settleDies (ds : List Nat) {d i : Nat} (hi : i < 26)
    (h : (s.rd PKG_DIE_IRQ_STATUS_BLOCK d).testBit i = true) :
    ((ds.foldl State.settleDie s).rd PKG_DIE_IRQ_STATUS_BLOCK d).testBit i = true := by
  induction ds generalizing s with
  | nil => exact h
  | cons x ds ih => exact ih (testBit_raise _ x _ d i hi h)

/-- Once every die of a list is brought up to date, each shows its live events. -/
theorem settleDies_live (ds : List Nat) {d i : Nat} (hd : d ∈ ds) (h : (s.liveDie d).testBit i = true) :
    ((ds.foldl State.settleDie s).rd PKG_DIE_IRQ_STATUS_BLOCK d).testBit i = true := by
  have hi : i < 26 := lt_of_testBit_of_lt (liveDie_lt s d) h
  induction ds generalizing s with
  | nil => cases hd
  | cons x ds ih =>
    by_cases hx : d = x
    · subst hx
      exact testBit_settleDies ds hi (testBit_raise_mask s _ d _ i hi h)
    · exact ih ((List.mem_cons.mp hd).resolve_left hx) (by rwa [(onlySummaries_settleDie s x).liveDie])

/-! ### The package summary -/

/-- The fields of the package summary that one source each brings up to date. -/
def pkgSummaryFlds : List Fld :=
  [PKG_IRQ_STATUS_TEAM, PKG_IRQ_STATUS_CROWN, PKG_IRQ_STATUS_QUAR, PKG_IRQ_STATUS_RING, PKG_IRQ_STATUS_ADDR,
    PKG_IRQ_STATUS_TIM, PKG_IRQ_STATUS_PLM, PKG_IRQ_STATUS_IMG, PKG_IRQ_STATUS_GPIO]

theorem pkgSources_flds (s : State) (c : Nat) : (s.pkgSources c).map Prod.fst = pkgSummaryFlds := rfl

theorem mem_pkgSummaryFlds {c : Nat} {x : Fld × Bool} (hx : x ∈ s.pkgSources c) : x.1 ∈ pkgSummaryFlds :=
  pkgSources_flds s c ▸ List.mem_map_of_mem hx

theorem pkgSummaryFlds_distinct :
    ∀ f ∈ pkgSummaryFlds, f.w = 1 ∧ place f ≠ place PKG_IRQ_STATUS_DIE ∧ place f ≠ place PKG_DIE_IRQ_STATUS_BLOCK ∧
      ∀ g ∈ pkgSummaryFlds, f = g ∨ place f ≠ place g := by decide

/-- Raise the package summary field of each live source of a list. -/
def raiseSources (xs : List (Fld × Bool)) (s : State) : State :=
  xs.foldl (fun t x => if x.2 then t.raise x.1 pkg else t) s

theorem rd_raiseSources (xs : List (Fld × Bool)) {g : Fld} (h : ∀ x ∈ xs, place g ≠ place x.1) (s : State) (e j : Nat) :
    (raiseSources xs s).rd g e j = s.rd g e j := by
  induction xs generalizing s with
  | nil => rfl
  | cons x xs ih =>
    refine (ih (fun y hy => h y (by simp [hy])) _).trans ?_
    dsimp only
    split
    · exact rd_raise_other _ (h x (by simp)) ..
    · rfl

theorem raiseSources_keeps (xs : List (Fld × Bool)) {f : Fld} (hf : f ∈ pkgSummaryFlds)
    (hxs : ∀ x ∈ xs, x.1 ∈ pkgSummaryFlds) (h : (s.rd f pkg).testBit 0 = true) :
    ((raiseSources xs s).rd f pkg).testBit 0 = true := by
  induction xs generalizing s with
  | nil => exact h
  | cons x xs ih =>
    refine ih (fun y hy => hxs y (by simp [hy])) ?_
    obtain ⟨hw, -, -, hd⟩ := pkgSummaryFlds_distinct f hf
    dsimp only
    split
    · rcases hd x.1 (hxs x (by simp)) with rfl | hne
      · exact testBit_raise _ _ _ _ _ (by omega) h
      · rwa [rd_raise_other _ hne]
    · exact h

theorem raiseSources_shows (xs : List (Fld × Bool)) (hxs : ∀ x ∈ xs, x.1 ∈ pkgSummaryFlds) {x : Fld × Bool} (hx : x ∈ xs)
    (hl : x.2 = true) (s : State) : ((raiseSources xs s).rd x.1 pkg).testBit 0 = true := by
  induction xs generalizing s with
  | nil => cases hx
  | cons y xs ih =>
    have htail : ∀ z ∈ xs, z.1 ∈ pkgSummaryFlds := fun z hz => hxs z (by simp [hz])
    rcases List.mem_cons.mp hx with rfl | hx
    · refine raiseSources_keeps xs (hxs x (by simp)) htail ?_
      dsimp only
      rw [if_pos hl]
      exact testBit_raise_mask s _ _ _ _ (by rw [(pkgSummaryFlds_distinct x.1 (hxs x (by simp))).1]; decide) (by decide)
    · exact ih htail hx _

theorem settlePkg_eq {c : Nat} (h : s.crown.token = some c) :
    s.settlePkg = (raiseSources (s.pkgSources c) s).raise PKG_IRQ_STATUS_DIE pkg (s.livePkgDie c) := by
  unfold State.settlePkg
  rw [h]
  rfl

theorem settlePkg_none (h : s.crown.token = none) : s.settlePkg = s := by
  unfold State.settlePkg
  rw [h]

/-- Bringing the package summary up to date leaves the die summaries. -/
theorem rd_settlePkg_block (s : State) (d : Nat) :
    s.settlePkg.rd PKG_DIE_IRQ_STATUS_BLOCK d = s.rd PKG_DIE_IRQ_STATUS_BLOCK d := by
  cases h : s.crown.token with
  | none => rw [settlePkg_none h]
  | some c =>
    rw [settlePkg_eq h, rd_raise_other _ (by decide)]
    exact rd_raiseSources _ (fun x hx => ((pkgSummaryFlds_distinct _ (mem_pkgSummaryFlds hx)).2.2.1).symm) s d 0

theorem OnlySummaries.ringLive (h : OnlySummaries s t) (n : Nat) : t.ringLive n = s.ringLive n :=
  h.enabled (x := (25, RING_EVENT_flds, RING_EVENT_MASK_ENABLE)) (by decide) n

theorem OnlySummaries.die (h : OnlySummaries s t) (n : Nat) : t.die n = s.die n := by
  rw [h.rest]
  rfl

theorem OnlySummaries.dieList (h : OnlySummaries s t) : t.dieList = s.dieList := by
  rw [h.rest]
  rfl

/-- What makes the package summary live does not depend on the summaries. -/
theorem OnlySummaries.pkgSources (h : OnlySummaries s t) (c : Nat) : t.pkgSources c = s.pkgSources c := by
  have any (fs : List Fld) (d : Nat) (hf : ∀ f ∈ fs, place f ∉ summaryPlaces) : t.anySet fs d = s.anySet fs d :=
    anySet_congr fun f hm => h.rd f d 0 (hf f hm)
  have en (fs : List Fld) (m : Fld) (hf : ∀ f ∈ m :: fs, place f ∉ summaryPlaces) :
      t.enabled fs m pkg = s.enabled fs m pkg :=
    enabled_congr (fun f hm => h.rd f pkg 0 (hf f (by simp [hm]))) (h.rd m pkg 0 (hf m (by simp)))
  unfold State.pkgSources State.liveImg State.crownSeesRing
  simp only [h.ringLive, h.die, h.dieList]
  rw [any PKG_TEAM_EVENT_flds pkg (by decide), any _ pkg (by decide), any PKG_QUAR_EVENT_flds pkg (by decide),
    any PKG_ADDR_ERR_flds pkg (by decide), any _ c (by decide), any _ pkg (by decide),
    en TIM_EVENT_flds _ (by decide), en PLM_EVENT_flds _ (by decide), en PKG_GPIO_EVENT_flds _ (by decide)]

/-- What the crown sees of the dies' summaries is the same where the die summaries are. -/
theorem OnlySummaries.livePkgDie (h : OnlySummaries s t) (c : Nat)
    (hb : t.rd PKG_DIE_IRQ_STATUS_BLOCK c = s.rd PKG_DIE_IRQ_STATUS_BLOCK c) : t.livePkgDie c = s.livePkgDie c := by
  unfold State.livePkgDie State.crownSeesDie State.dieSummary
  simp only [h.die, h.dieList, hb, h.rd PKG_DIE_IRQ_MASK_ENABLE c 0 (by decide)]

theorem settlePkg_settled (s : State) : SettledPkg s.settlePkg := by
  intro c hc
  have hs := onlySummaries_settlePkg s
  have hc' : s.crown.token = some c := by rw [hs.rest] at hc; exact hc
  rw [hs.pkgSources, hs.livePkgDie c (rd_settlePkg_block s c), settlePkg_eq hc']
  constructor
  · intro x hx hl
    have hf := mem_pkgSummaryFlds hx
    have hbit := raiseSources_shows _ (fun y hy => mem_pkgSummaryFlds hy) hx hl s
    rw [State.flag, rd_raise_other _ (pkgSummaryFlds_distinct x.1 hf).2.1, bne_iff_ne]
    intro h0
    rw [h0] at hbit
    cases hbit
  · exact fun i hi => testBit_raise_mask _ _ _ _ i (lt_of_testBit_of_lt (livePkgDie_lt s c) hi) hi

/-- After the tree is brought up to date, no event is hidden (R65 to R68). -/
theorem settled_settle (s : State) : Settled s.settle := by
  have h := onlySummaries_settle s
  refine ⟨fun d hd i hi => ?_, settlePkg_settled _⟩
  rw [h.liveDie] at hi
  rw [State.settle, rd_settlePkg_block]
  exact settleDies_live _ (List.mem_range.mpr (by rwa [h.rest] at hd)) hi

end

/-! ### Every command is a run -/

/-- The outcome of an operation that acts at a site: at a die, or at the package where there is none. -/
def runAt (s : State) (site : Option (Fin 8)) (f : State → State) : Host.Outcome State Fault Refusal :=
  match site with
  | some d => runDie s d f
  | none => run s f

/-- Every command runs one operation at its site. -/
theorem exec_eq_runAt (c : Instr) (s : State) : ∃ f, exec c s = runAt s c.site f := by
  cases c <;> exact ⟨_, rfl⟩

/-- Running at a site is running an operation: at an absent die, one that does nothing. -/
theorem runAt_eq_run (s : State) (site : Option (Fin 8)) (f : State → State) : ∃ g, runAt s site f = run s g := by
  cases site with
  | none => exact ⟨f, rfl⟩
  | some d =>
    by_cases h : (d : Nat) < s.part.dies
    · exact ⟨f, runDie_eq s h f⟩
    · exact ⟨id, runDie_absent s h f⟩

/-- A command runs an operation. -/
theorem exec_eq_run (c : Instr) (s : State) : ∃ f, exec c s = run s f := by
  obtain ⟨f, hf⟩ := exec_eq_runAt c s
  obtain ⟨g, hg⟩ := runAt_eq_run s c.site f
  exact ⟨g, hf.trans hg⟩

theorem settled_ran (s : State) (f : State → State) : Settled (ran s f) := settled_settle _

/-- Running the operation that does nothing changes the summaries and what was sent alone. -/
theorem onlyRegs_ran_id (s : State) : OnlyRegs [] s (ran s id) := by
  refine ⟨?_, fun g e j _ hg => ran_rd s id hg e j rfl⟩
  rw [ran, settle_eq]
  rfl

/-- Settles O5: every command is one run, a run ends with the tree brought up to date, and at an absent die nothing
is run. -/
theorem everyCommandAnswers : Obligations.EveryCommandAnswers := by
  intro c s
  constructor
  · obtain ⟨f, hf⟩ := exec_eq_run c s
    exact ⟨ran s f, hf.trans (run_next s f), ran_pending s f, ran_part s f, settled_ran s f⟩
  · intro d hsite habsent
    obtain ⟨f, hf⟩ := exec_eq_runAt c s
    rw [hsite] at hf
    exact ⟨ran s id, hf.trans (runDie_absent s (Nat.not_lt.mpr habsent) f), onlyRegs_ran_id s⟩

/-! ### After power-on reset -/

/-- Nothing is listed after power-on reset, so every field reads its reset value. -/
theorem rd_reset (f : Fld) (d k : Nat) : State.reset.rd f d k = f.reset false k := rfl

/-- No event of a die is live after power-on reset. -/
theorem liveDie_reset : ∀ d, d < State.reset.part.dies → State.reset.liveDie d = 0 := by decide +kernel

theorem settled_reset : Settled State.reset := by
  refine ⟨fun d hd i hi => ?_, fun c hc => by cases hc⟩
  rw [liveDie_reset d hd, Nat.zero_testBit] at hi
  cases hi

/-- Settles O3: after power-on reset nothing is live, no die holds the token, and registers and memories list nothing. -/
theorem resetStateIsSafe : Obligations.ResetStateIsSafe := ⟨settled_reset, ⟨rfl, rfl⟩, rd_reset⟩

end Sys2Proof.Laws
end

section
/-! SUPPORT. PROOFS. What an access over the serial path may leave, and the accesses that are answered in error (O6, O7). -/
namespace Sys2Proof.Laws
open Sys2Proof Sys2Proof.Machine

/-! ### What an access may leave -/

/-- The state on which a command's operation acts: what the last command sent is gone. -/
def silenced (s : State) : State := { s with out := [] }

theorem ran_eq (s : State) (f : State → State) :
    ran s f = ({ f (silenced s) with part := s.part, pending := s.pending } : State).settle := rfl

/-- A field that is no summary reads as the operation left it. -/
theorem rd_ran {s : State} {f : State → State} (hp : (f (silenced s)).part = s.part) {g : Fld} (hg : place g ∉ summaryPlaces)
    (e j : Nat) : (ran s f).rd g e j = (f (silenced s)).rd g e j := ran_rd s f hg e j hp

/-- The access of a command over the serial path. -/
def spiAccess (addr : Word) (w : Option Nat) (s : State) : State := s.access (.path .spi) addr.toNat w

theorem completes_rcRead {s : State} {addr : Word} {P : State → Prop} (h : P (ran s (spiAccess addr none))) :
    Completes (.rcRead (.path .spi) addr) s P := ⟨_, rfl, h⟩

theorem completes_registerWrite {s : State} {addr data : Word} {P : State → Prop}
    (h : P (ran s (spiAccess addr (some data.toNat)))) : Completes (.registerWrite (.path .spi) addr data) s P := ⟨_, rfl, h⟩

/-- From `s` to `t` only register fields at the places of some fields, the record of the access and what was sent differ,
and the access in hand has the answer `r`. -/
structure Answered (fs : List Fld) (r : Resp) (s t : State) : Prop where
  rest : t = { s with regs := t.regs, bus := t.bus, out := t.out }
  rd : ∀ (g : Fld) (e j : Nat), place g ∉ fs.map place → t.rd g e j = s.rd g e j
  last : t.bus.last = r

section
variable {fs : List Fld} {r : Resp} {s t : State}

theorem place_mem {f : Fld} (hf : f ∈ fs) : place f ∈ fs.map place := List.mem_map_of_mem hf

theorem answered_begin (fs : List Fld) (s : State) (a : Nat) : Answered fs { addr := a } s (s.begin a) :=
  ⟨rfl, fun _ _ _ _ => rfl, rfl⟩

theorem Answered.wr (h : Answered fs r s t) {f : Fld} (hf : f ∈ fs) (d v k : Nat) : Answered fs r s (t.wr f d v k) where
  rest := by rw [h.rest]; rfl
  rd g e j hg := (rd_wr_other (f := f) (g := g) t (fun he => hg (he ▸ place_mem hf)) d e v k j).trans (h.rd g e j hg)
  last := h.last

theorem Answered.raise (h : Answered fs r s t) {f : Fld} (hf : f ∈ fs) (d m k : Nat) : Answered fs r s (t.raise f d m k) :=
  h.wr hf ..

theorem Answered.lower (h : Answered fs r s t) {f : Fld} (hf : f ∈ fs) (d m k : Nat) : Answered fs r s (t.lower f d m k) :=
  h.wr hf ..

theorem Answered.respond (h : Answered fs r s t) (c v : Nat) :
    Answered fs { r with code := c, data := v } s (t.respond c v) where
  rest := by rw [h.rest]; rfl
  rd := h.rd
  last := by rw [State.respond, h.last]

theorem Answered.refuseAccess (h : Answered fs r s t) : Answered fs { r with code := 2, data := 0 } s t.refuseAccess :=
  h.respond 2 0

theorem Answered.dieAddrErr (h : Answered fs r s t) {f : Fld} (hf : f ∈ fs) (ha : PKG_DIE_ADDR_ERR_ADDR_ADDRESS ∈ fs)
    (d a : Nat) : Answered fs r s (t.dieAddrErr d f a) := by
  unfold State.dieAddrErr
  split
  · exact h.raise hf ..
  · exact (h.wr ha ..).raise hf ..

theorem Answered.pkgAddrErr (h : Answered fs r s t) {f : Fld} (hf : f ∈ fs) (ha : PKG_ADDR_ERR_ADDR_ADDRESS ∈ fs)
    (a : Nat) : Answered fs r s (t.pkgAddrErr f a) := by
  unfold State.pkgAddrErr
  split
  · exact h.raise hf ..
  · exact (h.wr ha ..).raise hf ..

/-- A host write of a field that is not staged stores it, clears bits of it or leaves it (R8). -/
theorem storeField_cases (t : State) {f : Fld} (hstg : f.stg = false) (d k v : Nat) :
    t.storeField .host f d k v = t.wr f d (storedAs f v) k ∨ t.storeField .host f d k v = t.lower f d v k ∨
      t.storeField .host f d k v = t := by
  unfold State.storeField
  cases f.ty <;> simp [hstg]

/-- A host write of fields that are not staged changes those fields alone. -/
theorem Answered.storeFlds (h : Answered fs r s t) (gs : List Fld) (hgs : ∀ f ∈ gs, f ∈ fs ∧ f.stg = false) (d k v : Nat) :
    Answered fs r s (t.storeFlds .host gs d k v) := by
  induction gs generalizing t with
  | nil => exact h
  | cons f gs ih =>
    obtain ⟨hf, hstg⟩ := hgs f (by simp)
    refine ih ?_ fun g hg => hgs g (by simp [hg])
    rcases storeField_cases t hstg d k (bitsAt v f.lo f.w) with he | he | he <;> dsimp only <;> rw [he]
    · exact h.wr hf ..
    · exact h.lower hf ..
    · exact h

theorem Answered.part (h : Answered fs r s t) : t.part = s.part := by rw [h.rest]

/-- What a command that runs an access shows of it. -/
theorem Answered.ran {f : State → State} (h : Answered fs r (silenced s) (f (silenced s))) :
    (ran s f).bus.last = r ∧
      ran s f = { s with regs := (ran s f).regs, bus := (ran s f).bus, out := (ran s f).out } ∧
        KeepsRegs fs s (ran s f) := by
  refine ⟨(congrArg BusSt.last (ran_bus s f)).trans h.last, ?_,
    fun g e j hg hs => (rd_ran h.part hs e j).trans (h.rd g e j hg)⟩
  rw [ran_eq, settle_eq, h.rest]
  rfl

end

/-! ### Errors that are recorded -/

theorem or_one_mod_two (n : Nat) : (n ||| 1) % 2 = 1 := by
  rw [Nat.or_mod_two_pow (n := 1)]
  rcases Nat.mod_two_eq_zero_or_one n with h | h <;> simp [h]

theorem rd_raise_one (s : State) {f : Fld} (hw : f.w = 1) (d : Nat) : (s.raise f d).rd f d = 1 := by
  rw [rd_raise_same, hw]
  exact or_one_mod_two _

theorem rd_dieAddrErr (s : State) {f : Fld} (hw : f.w = 1) (d a : Nat) : (s.dieAddrErr d f a).rd f d = 1 :=
  rd_raise_one _ hw d

theorem rd_pkgAddrErr (s : State) {f : Fld} (hw : f.w = 1) (a : Nat) : (s.pkgAddrErr f a).rd f pkg = 1 :=
  rd_raise_one _ hw pkg

/-! ### Accesses over the serial path -/

/-- While the endpoint answers, an access over the serial path is the access to its address. -/
theorem access_serves {s : State} (hs : Serves s) (a : Nat) (w : Option Nat) :
    s.access (.path .spi) a w = (s.begin a).accessAt .host a w := by
  simp only [State.access, State.pathServed, hs.1, State.pathAccess, State.pathDenies, Bool.false_eq_true,
    and_false, if_false]

theorem begin_token {s : State} {c : Nat} (h : s.crown.token = some c) (a : Nat) : (s.begin a).crown.token = some c := h

/-- An unaligned access is refused, and at most the error of the die or the package is recorded (R6). -/
theorem answered_access_unaligned {s : State} (hs : Serves s) {a : Nat} (h4 : a % 4 ≠ 0) (w : Option Nat) :
    Answered [PKG_DIE_ADDR_ERR_UNALIGNED, PKG_DIE_ADDR_ERR_ADDR_ADDRESS, PKG_ADDR_ERR_NO_DIE, PKG_ADDR_ERR_ADDR_ADDRESS]
      { code := 2, addr := a, data := 0 } s (s.access (.path .spi) a w) := by
  obtain ⟨c, hc⟩ := Option.isSome_iff_exists.mp hs.2
  rw [access_serves hs, State.accessAt, begin_token hc]
  have h := answered_begin
    [PKG_DIE_ADDR_ERR_UNALIGNED, PKG_DIE_ADDR_ERR_ADDR_ADDRESS, PKG_ADDR_ERR_NO_DIE, PKG_ADDR_ERR_ADDR_ADDRESS] s a
  cases hr : regionOf (s.begin a).part.dies a with
  | die d off =>
    simp only [bit, Nat.zero_testBit, Bool.false_and, Bool.false_eq_true, if_false, if_pos h4]
    split
    · exact h.refuseAccess
    · exact (h.dieAddrErr (by simp) (by simp) d a).refuseAccess
  | noDie =>
    simp only [if_pos h4]
    split
    · exact h.refuseAccess
    · exact (h.pkgAddrErr (by simp) (by simp) a).refuseAccess
  | package blk off => simpa only [if_pos h4] using h.refuseAccess
  | everyDie team off => simpa only [if_pos h4] using h.refuseAccess
  | nothing => simpa only [if_pos (Or.inl h4)] using h.refuseAccess

/-- Settles O6: an unaligned access is refused before anything of it acts. -/
theorem unalignedAccessRefused : Obligations.UnalignedAccessRefused := by
  intro s addr data hs h4
  have h (w : Option Nat) := (answered_access_unaligned (s := silenced s) hs h4 w).ran (f := spiAccess addr w)
  exact ⟨completes_rcRead (h none), completes_registerWrite (h (some data.toNat))⟩

/-- In the window of a die whose fabric answers, an aligned access where nothing lies records UNMAPPED at that die (R7). -/
theorem access_die_empty {s : State} {d off : Nat} {addr : Word} (hs : Serves s) (hr : Reaches s d 0 off addr)
    (ho : off < 0x04000000) (h4 : off % 4 = 0)
    (he : if off < 0x680000 then spotAt (off / 0x40000) (off % 0x20000) = .empty else memAt off = none) (w : Option Nat) :
    s.access (.path .spi) addr.toNat w =
      ((s.begin addr.toNat).dieAddrErr d PKG_DIE_ADDR_ERR_UNMAPPED (dieBase d + off)).respond 0 := by
  obtain ⟨hd, hf, ha⟩ := hr
  obtain ⟨c, hc⟩ := Option.isSome_iff_exists.mp hs.2
  have hreg : regionOf (s.begin addr.toNat).part.dies addr.toNat = .die d off :=
    regionOf_die (dies_le s.part) hd ho (by omega)
  have ha4 : ¬ addr.toNat % 4 ≠ 0 := by unfold dieBase at ha; omega
  have hf' : (s.begin addr.toNat).fabricOff d = false := hf
  rw [access_serves hs, State.accessAt, begin_token hc, hreg]
  simp only [bit, Nat.zero_testBit, Bool.false_and, Bool.false_eq_true, if_false, if_neg ha4, State.atDie, hf', false_and]
  by_cases hlow : off < 0x680000
  · rw [if_pos hlow] at he
    rw [if_neg (by omega), if_pos he]
  · rw [if_neg hlow] at he
    rw [if_pos (by omega), he]

/-- Outside every die window, an aligned access where nothing lies records UNMAPPED at the package (R7). -/
theorem access_package_empty {s : State} {a : Nat} (hs : Serves s) (hroot : s.rootState = false) (h4 : a % 4 = 0)
    (he : regionOf s.part.dies a = .nothing ∨
      ∃ blk off, regionOf s.part.dies a = .package blk off ∧ spotAt blk (off % 0x20000) = .empty) (w : Option Nat) :
    s.access (.path .spi) a w = ((s.begin a).pkgAddrErr PKG_ADDR_ERR_UNMAPPED a).respond 0 := by
  obtain ⟨c, hc⟩ := Option.isSome_iff_exists.mp hs.2
  have hroot' : (s.begin a).rootState = false := hroot
  have h4' : ¬ a % 4 ≠ 0 := by omega
  rw [access_serves hs, State.accessAt, begin_token hc]
  change regionOf (s.begin a).part.dies a = _ ∨ _ at he
  rcases he with he | ⟨blk, off, he, hsp⟩
  · simp only [he, hroot', Bool.false_eq_true, or_false, if_neg h4']
  · change regionOf (s.begin a).part.dies a = _ at he
    simp only [he, if_neg h4', State.atPackage, if_pos hsp, hroot', Bool.false_eq_true, if_false]

/-- In the window of a die the part lacks, an aligned access records NO_DIE at the package (R7). -/
theorem access_noDie {s : State} {a : Nat} (hs : Serves s) (hroot : s.rootState = false) (h4 : a % 4 = 0)
    (he : regionOf s.part.dies a = .noDie) (w : Option Nat) :
    s.access (.path .spi) a w = ((s.begin a).pkgAddrErr PKG_ADDR_ERR_NO_DIE a).respond 0 := by
  obtain ⟨c, hc⟩ := Option.isSome_iff_exists.mp hs.2
  have hroot' : (s.begin a).rootState = false := hroot
  have he' : regionOf (s.begin a).part.dies a = .noDie := he
  have h4' : ¬ a % 4 ≠ 0 := by omega
  rw [access_serves hs, State.accessAt, begin_token hc]
  simp only [he', if_neg h4', hroot', Bool.false_eq_true, if_false]

/-- An access that only records an error in a field `f` answers OK, sets `f`, and leaves all but `f` and the captured
address. -/
theorem recorded_ran {s : State} {f cap : Fld} {i a : Nat} {op : State → State} (rec : State → State)
    (hsum : place f ∉ summaryPlaces)
    (hop : op (silenced s) = (rec ((silenced s).begin a)).respond 0)
    (hrec : ∀ t r u, Answered [f, cap] r t u → Answered [f, cap] r t (rec u)) (hset : ∀ t, (rec t).rd f i = 1) :
    (ran s op).bus.last = { addr := a } ∧
      ran s op = { s with regs := (ran s op).regs, bus := (ran s op).bus, out := (ran s op).out } ∧
        (ran s op).rd f i = 1 ∧ KeepsRegs [f, cap] s (ran s op) := by
  have h : Answered [f, cap] { addr := a } (silenced s) (op (silenced s)) :=
    hop ▸ (hrec _ _ _ (answered_begin _ _ a)).respond 0 0
  obtain ⟨hlast, hrest, hkeep⟩ := h.ran
  exact ⟨hlast, hrest, by rw [rd_ran h.part hsum, hop, respond_rd, hset], hkeep⟩

/-- Settles O7: the access is answered where its address falls, and there records its error. -/
theorem unoccupiedAddressRecorded : Obligations.UnoccupiedAddressRecorded := by
  refine ⟨fun s d off addr data hs hr ho h4 he => ?_, fun s addr data hs hroot h4 he => ?_,
    fun s addr data hs hroot h4 he => ?_⟩
  · have h (w : Option Nat) := recorded_ran (s := s) (op := spiAccess addr w)
      (fun t => t.dieAddrErr d PKG_DIE_ADDR_ERR_UNMAPPED (dieBase d + off)) (f := PKG_DIE_ADDR_ERR_UNMAPPED)
      (cap := PKG_DIE_ADDR_ERR_ADDR_ADDRESS) (i := d) (by decide)
      (access_die_empty (s := silenced s) hs hr ho h4 he w)
      (fun t r u hu => hu.dieAddrErr (by simp) (by simp) d _) (fun t => rd_dieAddrErr t rfl d _)
    exact ⟨completes_rcRead (h none), completes_registerWrite (h (some data.toNat))⟩
  · have h (w : Option Nat) := recorded_ran (s := s) (op := spiAccess addr w)
      (fun t => t.pkgAddrErr PKG_ADDR_ERR_UNMAPPED addr.toNat) (f := PKG_ADDR_ERR_UNMAPPED)
      (cap := PKG_ADDR_ERR_ADDR_ADDRESS) (i := pkg) (by decide)
      (access_package_empty (s := silenced s) hs hroot h4 he w)
      (fun t r u hu => hu.pkgAddrErr (by simp) (by simp) _) (fun t => rd_pkgAddrErr t rfl _)
    exact ⟨completes_rcRead (h none), completes_registerWrite (h (some data.toNat))⟩
  · have h (w : Option Nat) := recorded_ran (s := s) (op := spiAccess addr w)
      (fun t => t.pkgAddrErr PKG_ADDR_ERR_NO_DIE addr.toNat) (f := PKG_ADDR_ERR_NO_DIE)
      (cap := PKG_ADDR_ERR_ADDR_ADDRESS) (i := pkg) (by decide)
      (access_noDie (s := silenced s) hs hroot h4 he w)
      (fun t r u hu => hu.pkgAddrErr (by simp) (by simp) _) (fun t => rd_pkgAddrErr t rfl _)
    exact ⟨completes_rcRead (h none), completes_registerWrite (h (some data.toNat))⟩

end Sys2Proof.Laws
end

section
/-! SUPPORT. PROOFS. The access types on a register of each (O8). -/
namespace Sys2Proof.Laws
open Sys2Proof Sys2Proof.Machine

/-! ### One register of each access type -/

/-- `RXD_Q_CTRL` (spec/05). -/
def regRxdQCtrl : Reg := { reg := 0x34, stride := 0, count := 1, flds := [RXD_Q_CTRL_SNR_TR, RXD_Q_CTRL_AVG] }

/-- `CAL_STATUS` (spec/04). -/
def regCalStatus : Reg :=
  { reg := 4, stride := 0, count := 1
    flds := [CAL_STATUS_REJOIN_OK_HI, CAL_STATUS_REJOIN_OK_LO, CAL_STATUS_SEAM_HI_STATE, CAL_STATUS_SEAM_LO_STATE,
      CAL_STATUS_BG_CONVERGED, CAL_STATUS_FG_STATE] }

/-- `SEAM_EVENT` (spec/05). -/
def regSeamEvent : Reg := { reg := 8, stride := 0, count := 1, flds := SEAM_EVENT_flds }

/-- `CRY_KEY_DATA` (spec/09). -/
def regCryKeyData : Reg := { reg := 0x20, stride := 4, count := 10, flds := [CRY_KEY_DATA_DATA] }

/-- `CAL_REJECTS` (spec/04). -/
def regCalRejects : Reg := { reg := 0x10, stride := 0, count := 1, flds := [CAL_REJECTS_COUNT] }

theorem spotAt_rxdQCtrl : spotAt 4 0x34 = .reg 4 regRxdQCtrl 0 := by decide +kernel
theorem spotAt_calStatus : spotAt 3 4 = .reg 3 regCalStatus 0 := by decide +kernel
theorem spotAt_seamEvent : spotAt 6 8 = .reg 6 regSeamEvent 0 := by decide +kernel
theorem spotAt_cryKeyData : spotAt 11 0x20 = .reg 11 regCryKeyData 0 := by decide +kernel
theorem spotAt_calRejects : spotAt 3 0x10 = .reg 3 regCalRejects 0 := by decide +kernel

/-! ### Values that a write leaves -/

theorem storeFlds_cons (t : State) (f : Fld) (fs : List Fld) (d k v : Nat) :
    t.storeFlds .host (f :: fs) d k v = (t.storeField .host f d k (bitsAt v f.lo f.w)).storeFlds .host fs d k v := rfl

/-- A host write of fields that are not staged leaves every field at another place. -/
theorem rd_storeFlds_other (gs : List Fld) (hst : ∀ f ∈ gs, f.stg = false) {g : Fld} (hg : ∀ f ∈ gs, place g ≠ place f)
    (t : State) (d k v e j : Nat) : (t.storeFlds .host gs d k v).rd g e j = t.rd g e j := by
  induction gs generalizing t with
  | nil => rfl
  | cons f gs ih =>
    rw [storeFlds_cons, ih (fun f hf => hst f (by simp [hf])) fun f hf => hg f (by simp [hf])]
    have hne := hg f (by simp)
    rcases storeField_cases t (hst f (by simp)) d k (bitsAt v f.lo f.w) with he | he | he <;> rw [he]
    · exact rd_wr_other t hne ..
    · exact rd_lower_other t hne ..

/-- A written 1 clears a W1C bit and a written 0 keeps it (R8). -/
theorem clearBits_bit (x v lo : Nat) : clearBits x (bitsAt v lo 1) % 2 = if bit v lo then 0 else x % 2 := by
  have hb : bitsAt v lo 1 = if v.testBit lo then 1 else 0 := by
    rw [bitsAt, pow_one, Nat.testBit_eq_decide_div_mod_eq, Nat.shiftRight_eq_div_pow]
    rcases Nat.mod_two_eq_zero_or_one (v / 2 ^ lo) with h | h <;> simp [h]
  rw [hb, bit, clearBits]
  cases v.testBit lo
  · simp
  · simp only [if_true, Nat.and_one_is_mod]
    omega

/-- A write of one-bit W1C fields clears those written 1. -/
theorem rd_storeFlds_w1c (gs : List Fld) (hg : ∀ f ∈ gs, f.ty = .w1c ∧ f.w = 1 ∧ f.stg = false)
    (hd : gs.Pairwise fun f g => place f ≠ place g) {f : Fld} (hf : f ∈ gs) (t : State) (d k v : Nat) :
    (t.storeFlds .host gs d k v).rd f d k = if bit v f.lo then 0 else t.rd f d k % 2 := by
  induction gs generalizing t with
  | nil => cases hf
  | cons g gs ih =>
    obtain ⟨hne, hd⟩ := List.pairwise_cons.mp hd
    obtain ⟨hty, hw, hst⟩ := hg g (by simp)
    have hlow : t.storeField .host g d k (bitsAt v g.lo g.w) = t.lower g d (bitsAt v g.lo 1) k := by
      simp only [State.storeField, hty, hw]
    rw [storeFlds_cons, hlow]
    rcases List.mem_cons.mp hf with rfl | hf
    · rw [rd_storeFlds_other gs (fun h hh => (hg h (by simp [hh])).2.2) hne, rd_lower_same, hw]
      exact clearBits_bit ..
    · rw [ih (fun h hh => hg h (by simp [hh])) hd hf, rd_lower_other t (hne f hf).symm]

theorem seamEvent_w1c : ∀ f ∈ SEAM_EVENT_flds, f.ty = .w1c ∧ f.w = 1 ∧ f.stg = false := by decide
theorem seamEvent_distinct : SEAM_EVENT_flds.Pairwise fun f g => place f ≠ place g := by decide
theorem seamEvent_noSummary : ∀ f ∈ SEAM_EVENT_flds, place f ∉ summaryPlaces := by decide

/-! ### An access of each type -/

section
variable {s : State} {d : Nat} {addr : Word} (hs : Serves s)
include hs

theorem write_rxdQCtrl (hr : Reaches s d 4 0x34 addr) (v : Nat) :
    spiAccess addr (some v) s =
      (((s.begin addr.toNat).respond 0).storeFlds .host regRxdQCtrl.flds d 0 v) :=
  (access_spi_write s d 4 0x34 addr _ 4 0 v d hs hr (by decide) (by decide) (by decide) spotAt_rxdQCtrl rfl).trans
    (by simp [State.writeReg, State.writeDieReg, State.writeRxd, State.storeReg, regRxdQCtrl])

theorem write_calStatus (hr : Reaches s d 3 4 addr) (v : Nat) :
    spiAccess addr (some v) s = (s.begin addr.toNat).respond 0 :=
  (access_spi_write s d 3 4 addr _ 3 0 v d hs hr (by decide) (by decide) (by decide) spotAt_calStatus rfl).trans rfl

theorem write_seamEvent (hr : Reaches s d 6 8 addr) (v : Nat) :
    spiAccess addr (some v) s = ((s.begin addr.toNat).respond 0).storeFlds .host SEAM_EVENT_flds d 0 v :=
  (access_spi_write s d 6 8 addr _ 6 0 v d hs hr (by decide) (by decide) (by decide) spotAt_seamEvent rfl).trans
    (by simp [State.writeReg, State.writeDieReg, State.writeSeam, State.storeReg, regSeamEvent])

theorem read_cryKeyData (hr : Reaches s d 11 0x20 addr) :
    spiAccess addr none s = (s.begin addr.toNat).respond 0 0 :=
  (access_spi_read s d 11 0x20 addr _ 11 0 d hs hr (by decide) (by decide) (by decide) spotAt_cryKeyData rfl).trans rfl

theorem read_calRejects (hr : Reaches s d 3 0x10 addr) :
    spiAccess addr none s =
      ((s.begin addr.toNat).respond 0 (s.rd CAL_REJECTS_COUNT d)).wr CAL_REJECTS_COUNT d 0 := by
  refine (access_spi_read s d 3 0x10 addr _ 3 0 d hs hr (by decide) (by decide) (by decide) spotAt_calRejects rfl).trans ?_
  have hword : (s.begin addr.toNat).fieldsWord false regCalRejects.flds d 0 = s.rd CAL_REJECTS_COUNT d := 
    Nat.mul_one _
  simp only [State.readReg, hword]
  rfl

end

/-- AVG stores 0 as 1, its nearest bound (R12). -/
theorem storedAs_avg (x : Nat) : storedAs RXD_Q_CTRL_AVG x = clamp 1 255 x := rfl

theorem storedAs_snrTr (x : Nat) : storedAs RXD_Q_CTRL_SNR_TR x = x := rfl

theorem storeFlds_rxdQCtrl (t : State) (d v : Nat) :
    t.storeFlds .host regRxdQCtrl.flds d 0 v =
      (t.wr RXD_Q_CTRL_SNR_TR d (v >>> 16 % 2 ^ 16)).wr RXD_Q_CTRL_AVG d (clamp 1 255 (v % 256)) := rfl

theorem clamp_lt {n : Nat} : clamp 1 255 n < 256 := by
  unfold clamp
  split
  · decide
  · split <;> omega

theorem rd_storeFlds_avg (t : State) (d v : Nat) :
    (t.storeFlds .host regRxdQCtrl.flds d 0 v).rd RXD_Q_CTRL_AVG d = clamp 1 255 (v % 256) := by
  rw [storeFlds_rxdQCtrl, rd_wr_same]
  exact Nat.mod_eq_of_lt clamp_lt

theorem rd_storeFlds_snrTr (t : State) (d : Nat) {v : Nat} (hv : v < 2 ^ 32) :
    (t.storeFlds .host regRxdQCtrl.flds d 0 v).rd RXD_Q_CTRL_SNR_TR d = v / 65536 := by
  rw [storeFlds_rxdQCtrl, rd_wr_other _ (by decide), rd_wr_same, Nat.shiftRight_eq_div_pow]
  change v / 65536 % 65536 % 65536 = v / 65536
  omega

/-- Settles O8: each access reaches the register's spot and there does what the access type says. -/
theorem accessTypesOfRegisters : Obligations.AccessTypesOfRegisters := by
  intro s d addr data hs
  have hs' : Serves (silenced s) := hs
  refine ⟨fun hr => ?_, fun hr => ?_, fun hr => ?_, fun hr => ?_, fun hr => ?_⟩
  · have hw := write_rxdQCtrl hs' hr data.toNat
    have h : Answered [RXD_Q_CTRL_AVG, RXD_Q_CTRL_SNR_TR] { addr := addr.toNat } (silenced s)
        (spiAccess addr (some data.toNat) (silenced s)) :=
      hw ▸ ((answered_begin _ _ _).respond 0 0).storeFlds _ (by decide) d 0 _
    refine completes_registerWrite ⟨?_, ?_, h.ran⟩
    · exact (rd_ran h.part (by decide) d 0).trans (by rw [hw, rd_storeFlds_avg])
    · exact (rd_ran h.part (by decide) d 0).trans (by rw [hw, rd_storeFlds_snrTr _ _ data.isLt])
  · have h : Answered [] { addr := addr.toNat } (silenced s)
        (spiAccess addr (some data.toNat) (silenced s)) :=
      write_calStatus hs' hr data.toNat ▸ (answered_begin _ _ _).respond 0 0
    exact completes_registerWrite h.ran
  · have hw := write_seamEvent hs' hr data.toNat
    have h : Answered SEAM_EVENT_flds { addr := addr.toNat } (silenced s)
        (spiAccess addr (some data.toNat) (silenced s)) :=
      hw ▸ ((answered_begin _ _ _).respond 0 0).storeFlds _ (by decide) d 0 _
    refine completes_registerWrite ⟨fun f hf => ?_, h.ran⟩
    refine (rd_ran h.part (seamEvent_noSummary f hf) d 0).trans ?_
    rw [hw, rd_storeFlds_w1c _ seamEvent_w1c seamEvent_distinct hf]
    rfl
  · have h : Answered [] { addr := addr.toNat } (silenced s)
        (spiAccess addr none (silenced s)) :=
      read_cryKeyData hs' hr ▸ (answered_begin _ _ _).respond 0 0
    exact completes_rcRead h.ran
  · have hw := read_calRejects hs' hr
    have h : Answered [CAL_REJECTS_COUNT] { addr := addr.toNat, data := s.rd CAL_REJECTS_COUNT d } (silenced s)
        (spiAccess addr none (silenced s)) :=
      hw ▸ ((answered_begin _ _ _).respond 0 _).wr (by simp) d 0 0
    obtain ⟨hlast, hrest, hkeep⟩ := h.ran
    refine completes_rcRead ⟨hlast, ?_, hrest, hkeep⟩
    exact (rd_ran h.part (by decide) d 0).trans (by rw [hw, rd_wr_same]; rfl)

end Sys2Proof.Laws
end

section
/-! SUPPORT. PROOFS. The resets of the package (O11). -/
namespace Sys2Proof.Laws
open Sys2Proof Sys2Proof.Machine

/-! ### Registers that are kept or returned to reset -/

theorem find_filter {κ α : Type} [DecidableEq κ] (p : κ → Bool) (k : κ) (m : List (κ × α)) :
    assocFind k (m.filter fun e => p e.1) = if p k then assocFind k m else none := by
  induction m with
  | nil => simp [assocFind]
  | cons e m ih =>
    obtain ⟨k', v⟩ := e
    rw [List.filter_cons, assocFind]
    by_cases hk : k = k'
    · subst hk
      cases hp : p k
      · simpa [hp] using ih
      · simp [assocFind]
    · cases hp : p k' <;> simp [assocFind, hk, ih]

/-- A field whose entry is kept reads as before, and one whose entry is dropped reads its reset value. -/
theorem rd_of_keep {s t : State} {p : Key → Bool} (hr : t.regs = s.regs.keep p) (hp : t.part = s.part) (g : Fld)
    (e j : Nat) : t.rd g e j = if p (g.key e j) then s.rd g e j else g.reset s.part.isX j := by
  rw [State.rd, State.rd, Store.get, Store.get, hr, hp, Store.keep, find_filter]
  split <;> rfl

theorem rank_lt_one (x : Dom) : x.rank < 1 ↔ x = .por := by cases x <;> decide

/-! ### Operations for every element of a list -/

/-- What every step keeps, the whole keeps. -/
theorem forEach_keeps {α β : Type} (φ : State → β) {f : State → α → State} (xs : List α)
    (h : ∀ t, ∀ x ∈ xs, φ (f t x) = φ t) (s : State) : φ (s.forEach xs f) = φ s := by
  induction xs generalizing s with
  | nil => rfl
  | cons x xs ih => exact (ih (fun t y hy => h t y (by simp [hy])) _).trans (h s x (by simp))

/-- From `s` to `t` only register fields differ, and of those only such as `P` allows at their place and die. -/
structure WritesOnly (P : Fld → Nat → Prop) (s t : State) : Prop where
  rest : t = { s with regs := t.regs }
  rd : ∀ (g : Fld) (e j : Nat), ¬ P g e → t.rd g e j = s.rd g e j

section
variable {P : Fld → Nat → Prop} {s t u : State}

theorem WritesOnly.refl (P : Fld → Nat → Prop) (s : State) : WritesOnly P s s := ⟨rfl, fun _ _ _ _ => rfl⟩

theorem WritesOnly.trans (a : WritesOnly P s t) (b : WritesOnly P t u) : WritesOnly P s u := by
  refine ⟨?_, fun g e j h => (b.rd g e j h).trans (a.rd g e j h)⟩
  rw [b.rest, a.rest]

theorem WritesOnly.wr (a : WritesOnly P s t) {f : Fld} {d : Nat} (hP : ∀ g, place g = place f → P g d) (v k : Nat) :
    WritesOnly P s (t.wr f d v k) := by
  refine a.trans ⟨rfl, fun g e j hg => ?_⟩
  by_cases he : e = d
  · exact rd_wr_other t (fun hpl => hg (he ▸ hP g hpl)) ..
  · exact rd_wr_inst t f g he ..

theorem WritesOnly.forEach {α : Type} (a : WritesOnly P s t) (xs : List α) {f : State → α → State}
    (h : ∀ u, ∀ x ∈ xs, WritesOnly P u (f u x)) : WritesOnly P s (t.forEach xs f) := by
  induction xs generalizing t with
  | nil => exact a
  | cons x xs ih => exact ih (a.trans (h t x (by simp))) fun u y hy => h u y (by simp [hy])

end

/-! ### Package reset -/

/-- The places of a die's own crown, standby and quarantine bits. -/
def crownBits : List (Nat × Nat × Nat × Nat) :=
  [place PKG_DIE_STATUS_QUARANTINED, place PKG_DIE_STATUS_IS_CROWN, place PKG_DIE_STATUS_IS_STANDBY]

/-- The field lies at the place of a die's crown, standby or quarantine bit. -/
def IsCrownBit (g : Fld) (_ : Nat) : Prop := place g ∈ crownBits

theorem IsCrownBit.of_place {f : Fld} (h : place f ∈ crownBits) (d : Nat) (g : Fld) (hg : place g = place f) :
    IsCrownBit g d := by
  rw [IsCrownBit, hg]
  exact h

/-- The crown bits are of domain POR. -/
theorem not_isCrownBit_of_dom {g : Fld} (h : g.dom ≠ .por) (e : Nat) : ¬ IsCrownBit g e := by
  intro hg
  have : g.dom.rank = 0 := by
    have hall : ∀ x ∈ crownBits, x.1 = 0 := by decide
    exact hall _ hg
  exact h ((rank_lt_one _).mp (by omega))

/-- A die's crown, standby and quarantine bits go to 0. -/
def clearCrownBits (t : State) (d : Nat) : State :=
  ((t.wr PKG_DIE_STATUS_QUARANTINED d 0).wr PKG_DIE_STATUS_IS_CROWN d 0).wr PKG_DIE_STATUS_IS_STANDBY d 0

theorem writesOnly_clearCrownBits (t : State) (d : Nat) : WritesOnly IsCrownBit t (clearCrownBits t d) :=
  (((WritesOnly.refl _ t).wr (.of_place (by decide) d) 0 0).wr (.of_place (by decide) d) 0 0).wr
    (.of_place (by decide) d) 0 0

/-- Without BOOT_EN no march runs at boot (R326). -/
theorem bootMarch_off {s : State} {d : Nat} (h : s.rd MEM_MARCH_CTRL_BOOT_EN d = 0) : s.bootMarch d = s := by
  simp [State.bootMarch, State.flag, h]

theorem bootEn_not_crownBit (e : Nat) : ¬ IsCrownBit MEM_MARCH_CTRL_BOOT_EN e := by
  unfold IsCrownBit
  decide

/-- Dies whose BOOT_EN is 0 restart with their crown bits cleared and nothing else. -/
theorem writesOnly_restart (ds : List Nat) {s : State} (h : ∀ d ∈ ds, s.rd MEM_MARCH_CTRL_BOOT_EN d = 0) :
    WritesOnly IsCrownBit s (s.forEach ds fun t d => (clearCrownBits t d).bootMarch d) := by
  induction ds generalizing s with
  | nil => exact .refl _ s
  | cons d ds ih =>
    have hw := writesOnly_clearCrownBits s d
    have hb (e : Nat) (he : e ∈ d :: ds) : (clearCrownBits s d).rd MEM_MARCH_CTRL_BOOT_EN e = 0 :=
      (hw.rd _ e 0 (bootEn_not_crownBit e)).trans (h e he)
    have hd : (clearCrownBits s d).bootMarch d = clearCrownBits s d := bootMarch_off (hb d (by simp))
    have := ih fun e he => hb e (by simp [he])
    exact hw.trans (by simpa only [State.forEach, List.foldl_cons, hd] using this)

/-- What a package reset clears before the dies restart: everything but OTP, flash and the fields of domain POR (R13). -/
theorem clearPackage_shape (s : State) :
    ∃ u : State, s.clearPackage = u.forEach s.dieList (fun t d => (clearCrownBits t d).bootMarch d) ∧
      u.regs = s.regs.keep (fun k => decide (k.dom < 1)) ∧ u.part = s.part ∧ u.otp = s.otp ∧ u.flash = s.flash ∧
        u.crown = {} ∧ u.txn = {} := by
  have keeps {β : Type} (φ : State → β) (h : ∀ t d, φ (t.dropRecords d) = φ t) :
      φ (s.forEach s.dieList fun t d => t.dropRecords d) = φ s := forEach_keeps φ _ (fun t d _ => h t d) s
  exact ⟨_, rfl, congrArg (fun r : Store Nat => r.keep fun k => decide (k.dom < 1)) (keeps State.regs fun _ _ => rfl),
    keeps State.part fun _ _ => rfl, keeps State.otp fun _ _ => rfl, keeps State.flash fun _ _ => rfl, rfl, rfl⟩

/-- What the statement asks of a package reset. -/
structure PackageReset (s t : State) : Prop where
  part : t.part = s.part
  otp : t.otp = s.otp
  flash : t.flash = s.flash
  crown : t.crown = {}
  txn : t.txn = {}
  cleared : ∀ (g : Fld) (e j : Nat), g.dom ≠ .por → t.rd g e j = g.reset s.part.isX j
  kept : ∀ (g : Fld) (e j : Nat), g.dom = .por → place g ∉ crownBits → t.rd g e j = s.rd g e j

theorem packageReset_clearPackage {s : State} (h : ∀ d, d < s.part.dies → s.rd MEM_MARCH_CTRL_BOOT_EN d = 0) :
    PackageReset s s.clearPackage := by
  obtain ⟨u, hu, hregs, hpart, hotp, hflash, hcrown, htxn⟩ := clearPackage_shape s
  have hrd (g : Fld) (e j : Nat) : u.rd g e j = if g.dom = .por then s.rd g e j else g.reset s.part.isX j := by
    rw [rd_of_keep hregs hpart]
    simp only [Fld.key, rank_lt_one, decide_eq_true_eq]
  have hboot (d : Nat) (hd : d ∈ s.dieList) : u.rd MEM_MARCH_CTRL_BOOT_EN d = 0 := by
    rw [hrd, if_pos (show MEM_MARCH_CTRL_BOOT_EN.dom = .por from rfl)]
    exact h d (List.mem_range.mp hd)
  have hw : WritesOnly IsCrownBit u s.clearPackage := hu ▸ writesOnly_restart _ hboot
  have hrest := hw.rest
  exact {
    part := by rw [hrest, hpart]
    otp := by rw [hrest, hotp]
    flash := by rw [hrest, hflash]
    crown := by rw [hrest, hcrown]
    txn := by rw [hrest, htxn]
    cleared := fun g e j hg => by rw [hw.rd g e j (not_isCrownBit_of_dom hg e), hrd, if_neg hg]
    kept := fun g e j hg hp => by rw [hw.rd g e j hp, hrd, if_pos hg] }

/-- What a run shows of a package reset. -/
theorem PackageReset.ran {s : State} {f : State → State} (h : PackageReset (silenced s) (f (silenced s))) :
    (ran s f).otp = s.otp ∧ (ran s f).flash = s.flash ∧ (ran s f).crown = {} ∧ (ran s f).txn = {} ∧
      (∀ (g : Fld) (e j : Nat), g.dom ≠ .por → place g ∉ summaryPlaces → (ran s f).rd g e j = g.reset s.part.isX j) ∧
      ∀ (g : Fld) (e j : Nat), g.dom = .por → place g ∉ summaryPlaces → place g ∉ crownBits →
        (ran s f).rd g e j = s.rd g e j :=
  ⟨(ran_otp s f).trans h.otp, (ran_flash s f).trans h.flash, (ran_crown s f).trans h.crown, (ran_txn s f).trans h.txn,
    fun g e j hd hs => (rd_ran h.part hs e j).trans (h.cleared g e j hd),
    fun g e j hd hs hp => (rd_ran h.part hs e j).trans (h.kept g e j hd hp)⟩

/-- A package reset, with the pins as they then are and the answer of the access that asked for it. -/
theorem packageReset_resetPackage {s : State} (h : ∀ d, d < s.part.dies → s.rd MEM_MARCH_CTRL_BOOT_EN d = 0) :
    PackageReset s s.resetPackage :=
  { packageReset_clearPackage h with }

/-- An operation that leaves the state runs as one that does nothing. -/
theorem ran_of_fixed {s : State} {f : State → State} (h : f (silenced s) = silenced s) : ran s f = ran s id := by
  rw [ran_eq, ran_eq, h]
  rfl

/-- The pins once POR is released with a level of RESET_N (R448). -/
def releasedPins (p : PinSt) (n : Bool) : PinSt :=
  { p with porDone := true, resetN := n, waiting := !n, low := 0, ioLow := false }

/-- What the release of POR does while POR still holds the package. -/
def releasePor (n : Bool) (s : State) : State := if s.pins.porDone then s else { s with pins := releasedPins s.pins n }

theorem releasePor_eq {s : State} (h : s.pins.porDone = false) (n : Bool) :
    releasePor n s = { s with pins := releasedPins s.pins n } := by
  simp [releasePor, h]

/-- A RESET_N pulse under 100 ns is ignored (R450). -/
theorem resetPulse_short (s : State) {ns : Nat} (h : ns < 100) : s.resetPulse ns = s := if_pos h

/-- A RESET_N pulse of 1 µs or more is a package reset (R450). -/
theorem resetPulse_long (s : State) {ns : Nat} (h : 1000 ≤ ns) : s.resetPulse ns = s.resetPackage := by
  rw [State.resetPulse, if_neg (by omega), if_pos h]

/-- Settles O11: each reset is one clearing of the registers by domain, after which the tree is brought up to date. -/
theorem resetsClearWhatTheirDomainSays : Obligations.ResetsClearWhatTheirDomainSays := by
  refine ⟨fun s => ?_, fun s n hpor => ?_, fun s ns hns => ?_, fun s hboot => ?_⟩
  · refine ⟨ran s State.clearAll, rfl, ran_mem s _, ran_otp s _, ran_flash s _, ran_dieId s _, ran_crown s _, ran_txn s _,
      ran_dies s _, fun g e j hg => ?_⟩
    exact rd_ran (f := State.clearAll) rfl hg e j
  · have hf := releasePor_eq (s := silenced s) hpor n
    refine ⟨ran s (releasePor n), rfl, (ran_pins s _).trans (congrArg State.pins hf), ?_, fun g e j _ hg => ?_⟩
    · rw [ran_eq, settle_eq, hf]
      rfl
    · exact (rd_ran (f := releasePor n) (by rw [hf]; rfl) hg e j).trans (by rw [hf]; rfl)
  · have h := onlyRegs_ran_id s
    rw [← ran_of_fixed (f := fun t => t.resetPulse ns) (resetPulse_short _ hns)] at h
    exact ⟨_, rfl, h⟩
  · have h : PackageReset (silenced s) (silenced s).resetPackage := packageReset_resetPackage hboot
    refine ⟨⟨_, rfl, PackageReset.ran (f := fun t => t.resetPackage.respond 0) { h with }⟩, fun ns hns => ?_⟩
    exact ⟨_, rfl, PackageReset.ran (f := fun t => t.resetPulse ns) (resetPulse_long (silenced s) hns ▸ h)⟩

end Sys2Proof.Laws
end

section
/-! SUPPORT. PROOFS. Die and block resets (O12). -/
namespace Sys2Proof.Laws
open Sys2Proof Sys2Proof.Machine

/-! ### The timing function -/

/-- From `s` to `t` only the timing function differs: its records, and fields of block 19 at the package. -/
structure TimOnly (s t : State) : Prop where
  rest : t = { s with regs := t.regs, refs := t.refs, tim := t.tim }
  rd : ∀ (g : Fld) (e j : Nat), e ≠ pkg ∨ g.blk ≠ 19 → t.rd g e j = s.rd g e j

section
variable {s t u : State}

theorem TimOnly.refl (s : State) : TimOnly s s := ⟨rfl, fun _ _ _ _ => rfl⟩

theorem TimOnly.trans (a : TimOnly s t) (b : TimOnly t u) : TimOnly s u := by
  refine ⟨?_, fun g e j h => (b.rd g e j h).trans (a.rd g e j h)⟩
  rw [b.rest, a.rest]

theorem TimOnly.wr (a : TimOnly s t) {f : Fld} (hf : f.blk = 19) (v k : Nat) : TimOnly s (t.wr f pkg v k) := by
  refine a.trans ⟨rfl, fun g e j hg => ?_⟩
  rcases hg with he | hb
  · exact rd_wr_inst t f g he ..
  · exact rd_wr_other t (fun hpl => hb ((congrArg (fun p => p.2.1) hpl).trans hf)) ..

theorem TimOnly.modTim (a : TimOnly s t) (f : TimSt → TimSt) : TimOnly s (t.modTim f) :=
  a.trans ⟨rfl, fun _ _ _ _ => rfl⟩

theorem TimOnly.modRef (a : TimOnly s t) (k : Nat) (f : RefSt → RefSt) : TimOnly s (t.modRef k f) :=
  a.trans ⟨rfl, fun _ _ _ _ => rfl⟩

theorem TimOnly.forEach {α : Type} (a : TimOnly s t) (xs : List α) {f : State → α → State}
    (h : ∀ u x, TimOnly u (f u x)) : TimOnly s (t.forEach xs f) := by
  induction xs generalizing t with
  | nil => exact a
  | cons x xs ih => exact ih (a.trans (h t x))

theorem TimOnly.setDpll (a : TimOnly s t) (v : Nat) : TimOnly s (t.setDpll v) :=
  ((a.wr (f := TIM_EVENT_STATE_CHG) rfl _ _).wr (f := TIM_DPLL_STATUS_STATE) rfl _ _).wr rfl _ _

theorem TimOnly.showPhase (a : TimOnly s t) : TimOnly s t.showPhase := a.wr rfl _ _

theorem TimOnly.absoluteEntry (a : TimOnly s t) (k : Nat) : TimOnly s (t.absoluteEntry k) := by
  unfold State.absoluteEntry
  dsimp only
  split
  · exact (a.modTim _).wr rfl _ _
  · exact a

theorem TimOnly.acquireRef (a : TimOnly s t) (k : Nat) : TimOnly s (t.acquireRef k) := by
  unfold State.acquireRef
  dsimp only
  have h (f : TimSt → TimSt) := (a.setDpll 1).modTim f
  split
  · exact (((h _).modTim _).absoluteEntry k).showPhase
  · exact ((h _).modTim _).showPhase

theorem TimOnly.showSelected (a : TimOnly s t) (k : Option Nat) : TimOnly s (t.showSelected k) :=
  ((a.wr (f := TIM_DPLL_STATUS_SEL_VALID) rfl _ _).wr (f := TIM_DPLL_STATUS_SELECTED) rfl _ _).forEach _
    fun u _ => (TimOnly.refl u).wr rfl _ _

/-- The selection is shown where it has changed (R357). -/
def selectionShown (t : State) : State :=
  if t.pick = t.selected then t else (t.showSelected t.pick).raise TIM_EVENT_SEL_CHG pkg

theorem TimOnly.selectionShown (a : TimOnly s t) : TimOnly s (Laws.selectionShown t) := by
  unfold Laws.selectionShown
  split
  · exact a
  · exact (a.showSelected _).wr rfl _ _

theorem TimOnly.select (a : TimOnly s t) : TimOnly s t.select := by
  unfold State.select
  dsimp only
  have h := a.selectionShown
  rw [← Laws.selectionShown.eq_def t]
  split
  · split
    · exact h.acquireRef _
    · exact h.showPhase
  · split
    · exact (h.modTim _).acquireRef _
    · exact h.showPhase
  · exact h.showPhase
  · exact h.showPhase
  · split
    · exact h
    · exact h.acquireRef _
  · exact (h.setDpll _).showPhase

theorem TimOnly.disqualify (a : TimOnly s t) (k c : Nat) : TimOnly s (t.disqualify k c) := by
  unfold State.disqualify
  dsimp only
  have h := (((a.wr (f := TIM_REF_STATUS_QUALIFIED) rfl 0 k).wr (f := TIM_REF_STATUS_DISQ_CAUSE) rfl c k).wr
    (f := TIM_REF_STATUS_QUAL_COUNT) rfl 0 k).modRef k fun x => { x with good := 0, age := 0, lostAt := [] }
  split
  · exact h.wr rfl _ _
  · exact h

/-- A die that is lost as a source of references changes the timing function alone (R355). -/
theorem timOnly_refDieLost (s : State) (d : Nat) : TimOnly s (s.refDieLost d) := by
  unfold State.refDieLost
  dsimp only
  have h (ks : List Nat) : TimOnly s (s.forEach ks fun t k => (t.disqualify k 1).wr TIM_REF_STATUS_ACTIVE pkg 0 k) :=
    (TimOnly.refl s).forEach ks fun u k => ((TimOnly.refl u).disqualify k 1).wr rfl _ _
  split
  · exact (h _).select
  · exact h _

end

/-! ### Showing the crown -/

/-- What showing the crown may write: the package's fields and each die's crown bits. -/
def ShowsCrown (g : Fld) (e : Nat) : Prop := e = pkg ∨ place g ∈ crownBits

theorem ShowsCrown.of_place {f : Fld} (h : place f ∈ crownBits) (d : Nat) (g : Fld) (hg : place g = place f) :
    ShowsCrown g d :=
  .inr (hg ▸ h)

theorem writesOnly_refreshCrown (s : State) : WritesOnly ShowsCrown s s.refreshCrown := by
  have atPkg {t : State} (h : WritesOnly ShowsCrown s t) (f : Fld) (v k : Nat) : WritesOnly ShowsCrown s (t.wr f pkg v k) :=
    h.wr (fun _ _ => .inl rfl) v k
  unfold State.refreshCrown
  dsimp only
  refine WritesOnly.forEach ?_ _ fun u d _ => ?_
  · cases s.standby with
    | none =>
      have h := atPkg (.refl _ s) PKG_CROWN_STATUS_STANDBY_VALID 0 0
      dsimp only
      split
      · exact atPkg (atPkg h _ _ _) _ _ _
      · exact h
    | some e =>
      have h := atPkg (atPkg (.refl _ s) PKG_CROWN_STATUS_STANDBY_VALID 1 0) PKG_CROWN_STATUS_STANDBY e 0
      dsimp only
      split
      · exact atPkg (atPkg h _ _ _) _ _ _
      · exact h
  · exact (((WritesOnly.refl _ u).wr (.of_place (by decide) d) _ _).wr (.of_place (by decide) d) _ _).wr
      (.of_place (by decide) d) _ _

/-! ### Die reset -/

/-- The fields of domain PKG of a die that its reset writes: the locks of its PLLs and the retirement bits of its arms. -/
def dieResetBits : List (Nat × Nat × Nat × Nat) :=
  [place PWR_STATUS_SAMPLING_LOCK, place PWR_STATUS_FABRIC_LOCK, place PWR_STATUS_ENGINE_LOCK,
    place FLT_RETIRED_TX_ARM, place FLT_RETIRED_RX_ARM]

/-- The field lies at a place that a die reset writes. -/
def IsDieResetBit (g : Fld) (_ : Nat) : Prop := place g ∈ dieResetBits

theorem IsDieResetBit.of_place {f : Fld} (h : place f ∈ dieResetBits) (d : Nat) (g : Fld) (hg : place g = place f) :
    IsDieResetBit g d := by
  rw [IsDieResetBit, hg]
  exact h

/-- A field of domain DIE or BLK is neither a crown bit nor one that a die reset writes. -/
theorem not_bits_of_dom {g : Fld} (h : g.dom = .die ∨ g.dom = .blk) :
    place g ∉ crownBits ∧ place g ∉ dieResetBits := by
  have hr : (place g).1 ≠ 0 ∧ (place g).1 ≠ 1 := by rcases h with h | h <;> simp [place, h, Dom.rank]
  have hc : ∀ x ∈ crownBits, x.1 = 0 := by decide
  have hd : ∀ x ∈ dieResetBits, x.1 = 1 := by decide
  exact ⟨fun hm => hr.1 (hc _ hm), fun hm => hr.2 (hd _ hm)⟩

/-- The writes of a die reset: the arms' retirements end and the PLLs stop. -/
def dieResetWrites (s : State) (d : Nat) : State := ((s.wr FLT_RETIRED_TX_ARM d 0).wr FLT_RETIRED_RX_ARM d 0).stopPlls d

theorem writesOnly_dieResetWrites (s : State) (d : Nat) : WritesOnly IsDieResetBit s (dieResetWrites s d) :=
  (((((WritesOnly.refl _ s).wr (.of_place (by decide) d) 0 0).wr (.of_place (by decide) d) 0 0).wr
    (.of_place (by decide) d) 0 0).wr (.of_place (by decide) d) 0 0).wr (.of_place (by decide) d) 0 0

theorem rd_dieResetWrites_txArm (s : State) (d : Nat) : (dieResetWrites s d).rd FLT_RETIRED_TX_ARM d = 0 := by
  unfold dieResetWrites State.stopPlls
  simp only [rd_wr_other _ (show place FLT_RETIRED_TX_ARM ≠ place PWR_STATUS_SAMPLING_LOCK by decide),
    rd_wr_other _ (show place FLT_RETIRED_TX_ARM ≠ place PWR_STATUS_FABRIC_LOCK by decide),
    rd_wr_other _ (show place FLT_RETIRED_TX_ARM ≠ place PWR_STATUS_ENGINE_LOCK by decide),
    rd_wr_other _ (show place FLT_RETIRED_TX_ARM ≠ place FLT_RETIRED_RX_ARM by decide), rd_wr_same, Nat.zero_mod]

theorem rd_dieResetWrites_rxArm (s : State) (d : Nat) : (dieResetWrites s d).rd FLT_RETIRED_RX_ARM d = 0 := by
  unfold dieResetWrites State.stopPlls
  simp only [rd_wr_other _ (show place FLT_RETIRED_RX_ARM ≠ place PWR_STATUS_SAMPLING_LOCK by decide),
    rd_wr_other _ (show place FLT_RETIRED_RX_ARM ≠ place PWR_STATUS_FABRIC_LOCK by decide),
    rd_wr_other _ (show place FLT_RETIRED_RX_ARM ≠ place PWR_STATUS_ENGINE_LOCK by decide), rd_wr_same, Nat.zero_mod]

/-- The values that the crown keeps for a die are no part of its registers or of an access. -/
theorem keepValues_eq (s : State) (d : Nat) : s.keepValues d = { s with image := (s.keepValues d).image } := by
  unfold State.keepValues
  split <;> rfl

/-- With no access in progress none is cut by a reset (R14). -/
theorem accessInReset_idle {s : State} (h : s.bus.running = none) (d : Nat) (p : Nat → Nat → Fld → Bool) :
    s.accessInReset d p = s := by
  simp [State.accessInReset, h]

/-- The registers that a die reset drops: its own of domain DIE or BLK. -/
def dieResetKeeps (d : Nat) (k : Key) : Bool := k.inst != d || decide (k.dom < 2)

/-- The record of a die that starts again: no self-test result and nothing loaded. -/
def Restarted (x : DieSt) : Prop := x.starting = true ∧ x.selfTest = none ∧ x.loaded = false

/-- A die reset up to the accesses it cuts and the march it may run at boot. -/
theorem clearDie_shape (s : State) (d : Nat) :
    ∃ (u : State) (f : DieSt → DieSt) (p : Nat → Nat → Fld → Bool),
      s.clearDie d = (((dieResetWrites u d).modDie d f).accessInReset d p).bootMarch d ∧ (∀ x, Restarted (f x)) ∧
      u.regs = ((s.keepValues d).refDieLost d).regs.keep (dieResetKeeps d) ∧ u.part = s.part ∧ u.bus = s.bus := by
  have hk := keepValues_eq s d
  have ht := (timOnly_refDieLost (s.keepValues d) d).rest
  refine ⟨_, _, _, rfl, fun _ => ⟨rfl, rfl, rfl⟩, rfl, ?_, ?_⟩
  · change ((s.keepValues d).refDieLost d).part = s.part
    rw [ht, hk]
  · change ((s.keepValues d).refDieLost d).bus = s.bus
    rw [ht, hk]

/-- What a die reset leaves of a die, with no access in progress and no march at boot. -/
structure DieReset (d : Nat) (s t : State) : Prop where
  part : t.part = s.part
  cleared : ∀ (g : Fld) (j : Nat), g.dom = .die ∨ g.dom = .blk → t.rd g d j = g.reset s.part.isX j
  kept : ∀ (g : Fld) (j : Nat), g.dom = .por ∨ g.dom = .pkg → place g ∉ dieResetBits → t.rd g d j = s.rd g d j
  pkgKept : ∀ (g : Fld) (j : Nat), g.blk ≠ 19 → place g ∉ dieResetBits → t.rd g pkg j = s.rd g pkg j
  txArm : t.rd FLT_RETIRED_TX_ARM d = 0
  rxArm : t.rd FLT_RETIRED_RX_ARM d = 0
  die : Restarted (t.die d)

theorem dieReset_clearDie {s : State} {d : Nat} (hd : d ≠ pkg) (hrun : s.bus.running = none)
    (hboot : s.rd MEM_MARCH_CTRL_BOOT_EN d = 0) : DieReset d s (s.clearDie d) := by
  obtain ⟨u, f, p, hu, hf, hregs, hpart, hbus⟩ := clearDie_shape s d
  have hw := writesOnly_dieResetWrites u d
  have ht := timOnly_refDieLost (s.keepValues d) d
  have hk := keepValues_eq s d
  have hkeep (g : Fld) (e j : Nat) : (s.keepValues d).rd g e j = s.rd g e j := rd_congr (by rw [hk]) (by rw [hk]) g e j
  have hupart : u.part = ((s.keepValues d).refDieLost d).part := by rw [hpart, ht.rest, hk]
  have hrd (g : Fld) (e j : Nat) (hg : e ≠ pkg ∨ g.blk ≠ 19) :
      u.rd g e j = if e ≠ d ∨ g.dom.rank < 2 then s.rd g e j else g.reset s.part.isX j := by
    rw [rd_of_keep hregs hupart, ht.rd g e j hg, hkeep, ← hupart, hpart]
    simp [dieResetKeeps, Fld.key]
  have hclear : s.clearDie d = (dieResetWrites u d).modDie d f := by
    have hrun' : ((dieResetWrites u d).modDie d f).bus.running = none := by
      rw [modDie_bus, hw.rest, hbus, hrun]
    rw [hu, accessInReset_idle hrun', bootMarch_off]
    rw [modDie_rd, hw.rd _ d 0 (by unfold IsDieResetBit; decide), hrd _ d 0 (.inl hd), if_pos (.inr (by decide)), hboot]
  have hcrd (g : Fld) (e j : Nat) (hg : place g ∉ dieResetBits) : (s.clearDie d).rd g e j = u.rd g e j := by
    rw [hclear, modDie_rd, hw.rd g e j hg]
  exact {
    part := by rw [hclear, modDie_part, hw.rest, hpart]
    cleared := fun g j hg => by
      rw [hcrd g d j (not_bits_of_dom hg).2, hrd g d j (.inl hd), if_neg]
      rcases hg with hg | hg <;> simp [hg, Dom.rank]
    kept := fun g j hg hp => by
      rw [hcrd g d j hp, hrd g d j (.inl hd), if_pos]
      rcases hg with hg | hg <;> simp [hg, Dom.rank]
    pkgKept := fun g j hg hp => by rw [hcrd g pkg j hp, hrd g pkg j (.inr hg), if_pos (.inl hd.symm)]
    txArm := by rw [hclear, modDie_rd, rd_dieResetWrites_txArm]
    rxArm := by rw [hclear, modDie_rd, rd_dieResetWrites_rxArm]
    die := by rw [hclear, modDie_die]; exact hf _ }

/-- A die reset of a die that is in no team and not quarantined: it is cleared and the crown is shown anew. -/
theorem resetDie_eq {s : State} {d : Nat} (htxn : s.txn.isOpen = false) (h1 : s.memberState d ≠ 1) (h2 : s.memberState d ≠ 2)
    (hq : (s.clearDie d).quarantined d = false) : s.resetDie d = (s.clearDie d).refreshCrown := by
  have habort : s.memberAbort d = s := by simp [State.memberAbort, htxn]
  have hleave : s.leaveTeam d = s := by simp [State.leaveTeam, h1, h2]
  simp [State.resetDie, habort, hleave, hq]

theorem DieReset.quarantined {d : Nat} {s t : State} (h : DieReset d s t) (e : Nat) : t.quarantined e = s.quarantined e := by
  rw [State.quarantined, State.quarantined, h.pkgKept _ 0 (by decide) (by decide)]

/-- What a die reset leaves stays when the crown is shown, but for the crown bits. -/
structure DieResetShown (d : Nat) (s t : State) : Prop where
  part : t.part = s.part
  cleared : ∀ (g : Fld) (j : Nat), g.dom = .die ∨ g.dom = .blk → t.rd g d j = g.reset s.part.isX j
  kept : ∀ (g : Fld) (j : Nat), g.dom = .por ∨ g.dom = .pkg → place g ∉ crownBits → place g ∉ dieResetBits →
    t.rd g d j = s.rd g d j
  txArm : t.rd FLT_RETIRED_TX_ARM d = 0
  rxArm : t.rd FLT_RETIRED_RX_ARM d = 0
  die : Restarted (t.die d)

theorem DieReset.shown {d : Nat} {s t : State} (hd : d ≠ pkg) (h : DieReset d s t) : DieResetShown d s t.refreshCrown := by
  have hw := writesOnly_refreshCrown t
  have hrd (g : Fld) (j : Nat) (hg : place g ∉ crownBits) : t.refreshCrown.rd g d j = t.rd g d j :=
    hw.rd g d j (not_or.mpr ⟨hd, hg⟩)
  exact {
    part := by rw [hw.rest, h.part]
    cleared := fun g j hg => (hrd g j (not_bits_of_dom hg).1).trans (h.cleared g j hg)
    kept := fun g j hg hc hp => (hrd g j hc).trans (h.kept g j hg hp)
    txArm := (hrd _ 0 (by decide)).trans h.txArm
    rxArm := (hrd _ 0 (by decide)).trans h.rxArm
    die := by rw [hw.rest]; exact h.die }

theorem DieResetShown.respond {d : Nat} {s t : State} (h : DieResetShown d s t) (c v : Nat) :
    DieResetShown d s (t.respond c v) := { h with }

/-- A die reset aimed at a die that is not the crown takes effect at once (R13). -/
theorem dieResetCommand_other {s : State} {d : Nat} (h : s.crown.token ≠ some d) :
    s.dieResetCommand d = (s.resetDie d).respond 0 := if_neg h

theorem dieResetShown_command {s : State} {d : Nat} (hd : d ≠ pkg) (htok : s.crown.token ≠ some d) (h1 : s.memberState d ≠ 1)
    (h2 : s.memberState d ≠ 2) (hq : s.quarantined d = false) (htxn : s.txn.isOpen = false) (hrun : s.bus.running = none)
    (hboot : s.rd MEM_MARCH_CTRL_BOOT_EN d = 0) : DieResetShown d s (s.dieResetCommand d) := by
  have h := dieReset_clearDie hd hrun hboot
  rw [dieResetCommand_other htok, resetDie_eq htxn h1 h2 ((h.quarantined d).trans hq)]
  exact (h.shown hd).respond 0 0

/-! ### Block reset -/

/-- The blocks of the statement: check units, engines and watch channels. -/
def IsPlainBlock (b : Nat) : Prop := b = 12 ∨ b = 14 ∨ b = 21

/-- The registers that a block reset keeps. -/
def blockResetKeeps (d b : Nat) (k : Key) : Bool :=
  !(k.inst == d && k.dom == 3 && (k.blk == b || (k.blk == 27 && k.idx == b)))

theorem IsPlainBlock.disInst {b : Nat} (hb : IsPlainBlock b) (d : Nat) : disInst d b = d := by
  rcases hb with rfl | rfl | rfl <;> rfl

/-- The datapaths of these blocks restart without a register write. -/
theorem IsPlainBlock.blockRestart {b : Nat} (hb : IsPlainBlock b) (s : State) (d : Nat) :
    (s.blockRestart d b).regs = s.regs ∧ (s.blockRestart d b).part = s.part := by
  rcases hb with rfl | rfl | rfl <;> exact ⟨rfl, rfl⟩

/-- No row of R70 is built from the cells of these blocks. -/
theorem IsPlainBlock.rows {b : Nat} (hb : IsPlainBlock b) : ((List.range 11).filter fun r => rowBlock r == b) = [] := by
  rcases hb with rfl | rfl | rfl <;> decide

theorem buildRows_nil (s : State) (d : Nat) : (s.buildRows d []).regs = s.regs ∧ (s.buildRows d []).part = s.part := by
  unfold State.buildRows
  dsimp only [List.filter_nil, State.forEach, List.foldl_nil]
  split <;> exact ⟨rfl, rfl⟩

/-- The places of the access error that a reset records (R14). -/
def inResetPlaces : List (Nat × Nat × Nat × Nat) := [place PKG_DIE_ADDR_ERR_IN_RESET, place PKG_DIE_ADDR_ERR_ADDR_ADDRESS]

theorem accessInReset_part (s : State) (d : Nat) (p : Nat → Nat → Fld → Bool) : (s.accessInReset d p).part = s.part := by
  unfold State.accessInReset
  split
  · split <;> rfl
  · rfl

/-- A reset that cuts an access writes the captured access error alone. -/
theorem rd_accessInReset (s : State) (d : Nat) (p : Nat → Nat → Fld → Bool) {g : Fld}
    (hg : place g ∉ inResetPlaces) (e j : Nat) : (s.accessInReset d p).rd g e j = s.rd g e j := by
  simp only [inResetPlaces, List.mem_cons, List.not_mem_nil, or_false, not_or] at hg
  unfold State.accessInReset
  split
  · split
    · exact (rd_raise_other _ hg.1 ..).trans (rd_wr_other _ hg.2 ..)
    · rfl
  · rfl

/-- The state of a block reset once its registers, units and wait are dropped. -/
def blockDropped (s : State) (d b : Nat) : State :=
  { s with
    regs := s.regs.keep (blockResetKeeps d b), units := s.units.keep fun k => !(k.inst == d && k.blk == b)
    blkRst := s.blkRst.erase (unitKey d b) }

/-- A block reset of these blocks: nothing is built from cells. -/
theorem blockReset_shape {s : State} {d b : Nat} (hd : d ≠ pkg) (hb : IsPlainBlock b) :
    ∃ p, s.blockReset d b = (((blockDropped s d b).blockRestart d b).accessInReset d p).buildRows d [] := by
  unfold State.blockReset
  rw [hb.disInst, if_neg fun h => hd h.1, hb.rows]
  exact ⟨_, rfl⟩

/-- A block reset drops the block's fields of domain BLK and leaves every other register, but for the captured access
error. -/
theorem rd_blockReset {s : State} {d b : Nat} (hd : d ≠ pkg) (hb : IsPlainBlock b) {g : Fld} (hg : place g ∉ inResetPlaces)
    (e j : Nat) :
    (s.blockReset d b).rd g e j = if blockResetKeeps d b (g.key e j) then s.rd g e j else g.reset s.part.isX j := by
  obtain ⟨p, hp⟩ := blockReset_shape (s := s) hd hb
  obtain ⟨hbuildRegs, hbuildPart⟩ := buildRows_nil (((blockDropped s d b).blockRestart d b).accessInReset d p) d
  obtain ⟨hregs, hpart⟩ := hb.blockRestart (blockDropped s d b) d
  calc (s.blockReset d b).rd g e j
      = (((blockDropped s d b).blockRestart d b).accessInReset d p).rd g e j := by rw [hp, rd_congr hbuildRegs hbuildPart]
    _ = ((blockDropped s d b).blockRestart d b).rd g e j := rd_accessInReset _ d p hg e j
    _ = _ := rd_of_keep hregs hpart g e j

theorem part_blockReset {s : State} {d b : Nat} (hd : d ≠ pkg) (hb : IsPlainBlock b) : (s.blockReset d b).part = s.part := by
  obtain ⟨p, hp⟩ := blockReset_shape (s := s) hd hb
  rw [hp, (buildRows_nil _ d).2, accessInReset_part, (hb.blockRestart _ d).2]
  rfl

/-- A block that holds no work resets at once (R15). -/
theorem requestBlockReset_idle {s : State} {d b : Nat} (hb : IsPlainBlock b) (hheld : s.heldUnits d b = [])
    (hidle : s.blockIdle d b = true) (now : Nat) : s.requestBlockReset d b 0 now = s.blockReset d b := by
  simp [State.requestBlockReset, hheld, hb.disInst, hidle]

/-- Where no unit drains there is no drain to cut. -/
theorem cutDrains_none {s : State} {d b : Nat} (hb : IsPlainBlock b) (h : ∀ e ∈ s.blockUnits d b, e.2.draining = false)
    (given : Option Nat) (timeout : Bool) (p : UnitSt → Bool) : s.cutDrains d b given timeout p = s := by
  have hnil : ((s.blockUnits d b).filter fun e => e.2.draining && p e.2) = [] :=
    List.filter_eq_nil_iff.mpr fun e he => by simp [h e he]
  rw [State.cutDrains, hb.disInst, hnil]
  rfl

/-- What a command that runs a block reset shows of it. -/
theorem blockReset_ran {s : State} {d b : Nat} {f : State → State} (hd : d ≠ pkg) (hb : IsPlainBlock b)
    (hf : f (silenced s) = (silenced s).blockReset d b) :
    (∀ (g : Fld) (j : Nat), g.dom = .blk → g.blk = b → place g ∉ summaryPlaces → (ran s f).rd g d j = g.reset s.part.isX j) ∧
      ∀ (g : Fld) (j : Nat), g.dom ≠ .blk → place g ∉ summaryPlaces → place g ∉ inResetPlaces →
        (ran s f).rd g d j = s.rd g d j := by
  have hran (g : Fld) (j : Nat) (hs : place g ∉ summaryPlaces) (hp : place g ∉ inResetPlaces) :
      (ran s f).rd g d j = if blockResetKeeps d b (g.key d j) then s.rd g d j else g.reset s.part.isX j := by
    rw [rd_ran (by rw [hf, part_blockReset hd hb]; rfl) hs, hf, rd_blockReset hd hb hp]
    rfl
  constructor
  · intro g j hdom hblk hs
    have hp : place g ∉ inResetPlaces := fun hm => by
      have hall : ∀ x ∈ inResetPlaces, x.1 = 2 := by decide
      have := hall _ hm
      simp [place, hdom, Dom.rank] at this
    rw [hran g j hs hp, if_neg]
    simp [blockResetKeeps, Fld.key, hdom, hblk, Dom.rank]
  · intro g j hdom hs hp
    rw [hran g j hs hp, if_pos]
    have hrank : g.dom.rank ≠ 3 := fun h => hdom (by revert h; cases g.dom <;> simp [Dom.rank])
    simp [blockResetKeeps, Fld.key, hrank]

theorem die_ran (s : State) (f : State → State) (d : Nat) : (ran s f).die d = (f (silenced s)).die d := by
  rw [State.die, ran_dies]
  rfl

/-- What a command that runs a die reset shows of it. -/
theorem DieResetShown.ran {s : State} {d : Nat} {f : State → State} (h : DieResetShown d (silenced s) (f (silenced s))) :
    (∀ (g : Fld) (j : Nat), (g.dom = .die ∨ g.dom = .blk) → place g ∉ summaryPlaces →
        (ran s f).rd g d j = g.reset s.part.isX j) ∧
      (∀ (g : Fld) (j : Nat), (g.dom = .por ∨ g.dom = .pkg) → place g ∉ summaryPlaces →
        place g ∉ crownBits ++ dieResetBits → (ran s f).rd g d j = s.rd g d j) ∧
      (ran s f).rd FLT_RETIRED_TX_ARM d = 0 ∧ (ran s f).rd FLT_RETIRED_RX_ARM d = 0 ∧
      Restarted ((ran s f).die d) := by
  refine ⟨fun g j hg hs => (rd_ran h.part hs d j).trans (h.cleared g j hg), fun g j hg hs hp => ?_,
    (rd_ran h.part (by decide) d 0).trans h.txArm, (rd_ran h.part (by decide) d 0).trans h.rxArm, (die_ran s f d).symm ▸ h.die⟩
  rw [List.mem_append, not_or] at hp
  exact (rd_ran h.part hs d j).trans (h.kept g j hg hp.1 hp.2)

/-- Settles O12: a reset drops the registers of its scope, and what it writes besides is named. -/
theorem dieAndBlockResetScope : Obligations.DieAndBlockResetScope := by
  constructor
  · intro s d byCrown hd htok h1 h2 hq htxn hrun hboot
    have hne : (d : Nat) ≠ pkg := Nat.ne_of_lt d.isLt
    have h : DieResetShown d (silenced s) ((silenced s).dieResetCommand d) :=
      dieResetShown_command hne htok h1 h2 hq htxn hrun hboot
    exact completes_runDie s hd h.ran
  · intro s d b now hd hb
    have hne : (d : Nat) ≠ pkg := Nat.ne_of_lt d.isLt
    refine ⟨fun hheld hidle => completes_runDie s hd (blockReset_ran hne hb ?_),
      fun hwait hdrain => completes_runDie s hd (blockReset_ran hne hb ?_)⟩
    · exact requestBlockReset_idle (s := silenced s) hb hheld hidle now
    · have hwait' : ((silenced s).blkRst.find (unitKey d b)).isSome = true := by
        change (s.blkRst.find (unitKey d b)).isSome = true
        rw [hwait]
        rfl
      rw [if_pos hwait', cutDrains_none (s := silenced s) hb hdrain]

end Sys2Proof.Laws
end

section
/-! SUPPORT. PROOFS. The crown's requests about members (O18). -/
namespace Sys2Proof.Laws
open Sys2Proof Sys2Proof.Machine

/-- A state whose crown token names no die and whose QUARANTINED holds a bit beyond its width of eight. -/
def strayCrown : State :=
  { State.reset with
    regs := Store.put [] (PKG_QUAR_STATUS_QUARANTINED.key pkg 0) (2 ^ 8), crown := { token := some 8 } }

/-- A run of the request to quarantine die 0. -/
def quarReqDie0 (s : State) : State :=
  ran s fun u => u.forEach (u.dieList.filter fun d => (1#8).getLsbD d) fun u d => u.quarantine d 6

/-- Refutes O18: a quarantine request writes QUARANTINED and cuts it to its eight bits. Where the token names no die (8)
and the field holds that bit beyond its width, the bit of the token's holder does not stand. -/
theorem not_membershipRequests : ¬ Obligations.MembershipRequests := by
  rintro ⟨-, -, hquar, -⟩
  obtain ⟨t, ht, -, hcrown⟩ := hquar strayCrown 1
  have hkept : t.quarantined 8 = strayCrown.quarantined 8 := hcrown 8 rfl
  obtain rfl : quarReqDie0 strayCrown = t := Host.Outcome.next.inj ht
  have hset : strayCrown.quarantined 8 = true := by decide +kernel
  have hcut : (quarReqDie0 strayCrown).quarantined 8 = false := by decide +kernel
  exact Bool.false_ne_true (hcut.symm.trans (hkept.trans hset))

end Sys2Proof.Laws
end

section
/-! SUPPORT. PROOFS. What a command of a team shows, a team's registers, messages and handshake (O58). -/
namespace Sys2Proof.Laws
open Sys2Proof Sys2Proof.Machine

/-! ### What a command of a team shows of its operation -/

/-- A command of a team runs its operation on the team's lowest die. -/
theorem completes_runTeam {s : State} {d : Nat} (hd : d < s.part.dies) {op : State → Nat → State} {P : State → Prop}
    (h : P (ran s fun u => op u (s.teamBase d))) : ∃ t, runTeam s d op = .next t ∧ P t :=
  completes_runDie s hd h

/-- An operation that leaves the state shows nothing but the tree brought up to date. -/
theorem onlyRegs_ran_of_fixed {s : State} {f : State → State} (h : f (silenced s) = silenced s) : OnlyRegs [] s (ran s f) :=
  ran_of_fixed h ▸ onlyRegs_ran_id s

/-- A field whose reset value no suffix of the part changes reads as the operation left it. -/
theorem rd_ran_plain (s : State) (f : State → State) {g : Fld} (hx : g.sfx = 0) (hg : place g ∉ summaryPlaces) (e j : Nat) :
    (ran s f).rd g e j = (f (silenced s)).rd g e j := by
  rw [ran_eq, rd_settle _ hg]
  simp [State.rd, Fld.reset, hx]

theorem team_ran (s : State) (f : State → State) (b : Nat) : (ran s f).team b = (f (silenced s)).team b := by
  rw [State.team, ran_teams]
  rfl

/-- The field lies at the place of one of some fields. -/
def AtFields (fs : List Fld) (g : Fld) (_ : Nat) : Prop := place g ∈ fs.map place

theorem AtFields.of_mem {fs : List Fld} {f : Fld} (h : f ∈ fs) (d : Nat) (g : Fld) (hg : place g = place f) : AtFields fs g d := by
  rw [AtFields, hg]
  exact place_mem h

/-- What a run shows of an operation that writes some fields. -/
theorem onlyRegs_ran {fs : List Fld} {s : State} {f : State → State}
    (h : WritesOnly (AtFields fs) (silenced s) (f (silenced s))) : OnlyRegs fs s (ran s f) := by
  have hpart : (f (silenced s)).part = s.part := by
    rw [h.rest]
    rfl
  refine ⟨?_, fun g e j hg hs => (rd_ran hpart hs e j).trans (h.rd g e j hg)⟩
  rw [ran_eq, settle_eq, h.rest]
  rfl

/-! ### Registers of a team -/

theorem mem_teamDies (s : State) (d : Nat) : d ∈ s.teamDies d := by
  have hpos : 0 < s.teamSize d := Nat.two_pow_pos _
  refine List.mem_map.mpr ⟨d % s.teamSize d, List.mem_range.mpr (Nat.mod_lt _ hpos), ?_⟩
  rw [State.teamBase, Nat.mul_comm, Nat.div_add_mod]

/-- What an operation sets at one die of a list and leaves at every other die is set at the end. -/
theorem forEach_sets {α : Type} {φ : State → α} {b : Nat} {v : α} {g : State → Nat → State}
    (hother : ∀ u x, x ≠ b → φ (g u x) = φ u) (hat : ∀ u, φ (g u b) = v) {xs : List Nat} (hb : b ∈ xs) (s : State) :
    φ (s.forEach xs g) = v := by
  induction xs using List.reverseRecOn with
  | nil => cases hb
  | append_singleton xs x ih =>
    rw [State.forEach, List.foldl_append]
    by_cases hx : x = b
    · subst hx
      exact hat _
    · exact (hother _ x hx).trans (ih ((List.mem_append.mp hb).resolve_right (by simpa using Ne.symm hx)))

section
variable (s : State) {f g : Fld} {b v m : Nat}

theorem rd_wrTeam_same : (s.wrTeam f b v).rd f b = v % 2 ^ f.w :=
  forEach_sets (φ := fun u => u.rd f b) (fun u _ hx => rd_wr_inst u f f (Ne.symm hx) ..) (fun u => rd_wr_same u ..)
    (mem_teamDies s b) s

theorem rd_raiseTeam_one (hw : f.w = 1) : (s.raiseTeam f b).rd f b = 1 :=
  forEach_sets (φ := fun u => u.rd f b) (fun u _ hx => rd_raise_inst u f f (Ne.symm hx) ..) (fun u => rd_raise_one u hw b)
    (mem_teamDies s b) s

theorem writesOnly_wrTeam (f : Fld) (b v : Nat) : WritesOnly (AtFields [f]) s (s.wrTeam f b v) :=
  (WritesOnly.refl _ s).forEach _ fun u d _ => (WritesOnly.refl _ u).wr (.of_mem (by simp) d) _ _

theorem writesOnly_raiseTeam (f : Fld) (b m : Nat) : WritesOnly (AtFields [f]) s (s.raiseTeam f b m) :=
  (WritesOnly.refl _ s).forEach _ fun u d _ => (WritesOnly.refl _ u).wr (.of_mem (by simp) d) _ _

theorem rd_wrTeam_other (h : place g ≠ place f) (e j : Nat) : (s.wrTeam f b v).rd g e j = s.rd g e j :=
  (writesOnly_wrTeam s f b v).rd g e j (by simpa [AtFields] using h)

theorem rd_raiseTeam_other (h : place g ≠ place f) (e j : Nat) : (s.raiseTeam f b m).rd g e j = s.rd g e j :=
  (writesOnly_raiseTeam s f b m).rd g e j (by simpa [AtFields] using h)

theorem wrTeam_eq : s.wrTeam f b v = { s with regs := (s.wrTeam f b v).regs } := (writesOnly_wrTeam s f b v).rest
theorem raiseTeam_eq : s.raiseTeam f b m = { s with regs := (s.raiseTeam f b m).regs } := (writesOnly_raiseTeam s f b m).rest

@[simp] theorem wrTeam_part : (s.wrTeam f b v).part = s.part := by rw [wrTeam_eq]
@[simp] theorem wrTeam_txn : (s.wrTeam f b v).txn = s.txn := by rw [wrTeam_eq]
@[simp] theorem wrTeam_time : (s.wrTeam f b v).time = s.time := by rw [wrTeam_eq]
@[simp] theorem wrTeam_teams : (s.wrTeam f b v).teams = s.teams := by rw [wrTeam_eq]
@[simp] theorem wrTeam_dies : (s.wrTeam f b v).dies = s.dies := by rw [wrTeam_eq]
@[simp] theorem raiseTeam_teams : (s.raiseTeam f b m).teams = s.teams := by rw [raiseTeam_eq]

end

theorem team_congr {s t : State} (h : t.teams = s.teams) (b : Nat) : t.team b = s.team b := by
  rw [State.team, State.team, h]

@[simp] theorem wrTeam_team (s : State) (f : Fld) (b v e : Nat) : (s.wrTeam f b v).team e = s.team e :=
  team_congr (wrTeam_teams s) e

@[simp] theorem raiseTeam_team (s : State) (f : Fld) (b m e : Nat) : (s.raiseTeam f b m).team e = s.team e :=
  team_congr (raiseTeam_teams s) e

/-! ### Messages, and a handshake that closes -/

/-- A team with the records of a new message set. -/
def sendingTeam (x : TeamSt) (recs : List (List Byte)) : TeamSt := { x with seq := (x.seq + 1) % 256, sending := recs }

/-- A message set changes what its team sends, and nothing else of its record. -/
theorem sendMsgs_team (s : State) (b : Nat) (ms : List (Nat × List Byte)) :
    ∃ recs, (s.sendMsgs b ms).team b = sendingTeam (s.team b) recs :=
  ⟨_, modTeam_team s b fun x => sendingTeam x _⟩

@[simp] theorem sendMsgs_rd (s : State) (b : Nat) (ms : List (Nat × List Byte)) (g : Fld) (e j : Nat) :
    (s.sendMsgs b ms).rd g e j = s.rd g e j := rfl

@[simp] theorem sendMsgs_die (s : State) (b : Nat) (ms : List (Nat × List Byte)) (e : Nat) :
    (s.sendMsgs b ms).die e = s.die e := rfl

theorem sendMsgs_change (s : State) (b : Nat) (ms : List (Nat × List Byte)) :
    ((s.sendMsgs b ms).team b).change = (s.team b).change := by
  obtain ⟨recs, h⟩ := sendMsgs_team s b ms
  rw [h]
  rfl

/-- A team none of whose handshakes is open. -/
def closedTeam (x : TeamSt) : TeamSt :=
  { x with
    head := none, entries := [], judged := false, agreedM := none, confirm := false, goNext := false, farNext := none
    openAt := none }

theorem closePlan_eq (s : State) (b : Nat) : s.closePlan b = (s.wrTeam FRM_PLAN_STATUS_STATE b 0).modTeam b closedTeam := rfl

theorem rd_closePlan (s : State) (b : Nat) : (s.closePlan b).rd FRM_PLAN_STATUS_STATE b = 0 := by
  rw [closePlan_eq, modTeam_rd, rd_wrTeam_same]
  rfl

@[simp] theorem closePlan_txn (s : State) (b : Nat) : (s.closePlan b).txn = s.txn := wrTeam_txn s

/-- A run of the close of a handshake. -/
theorem closePlan_ran {s : State} {b : Nat} {f : State → State} (h : f (silenced s) = (silenced s).closePlan b) :
    (ran s f).rd FRM_PLAN_STATUS_STATE b = 0 ∧ (ran s f).team b = closedTeam (s.team b) ∧
      ran s f = { s with regs := (ran s f).regs, teams := (ran s f).teams, out := (ran s f).out } ∧
        KeepsRegs [FRM_PLAN_STATUS_STATE] s (ran s f) := by
  have hw := writesOnly_wrTeam (silenced s) FRM_PLAN_STATUS_STATE b 0
  have hpart : (f (silenced s)).part = s.part := by
    rw [h, closePlan_eq]
    exact wrTeam_part (silenced s)
  refine ⟨?_, ?_, ?_, fun g e j hg hs => ?_⟩
  · rw [rd_ran hpart (by decide), h, rd_closePlan]
  · rw [team_ran, h, closePlan_eq, modTeam_team, wrTeam_team]
    rfl
  · rw [ran_eq, settle_eq, h, closePlan_eq, wrTeam_eq]
    rfl
  · rw [rd_ran hpart hs, h, closePlan_eq, modTeam_rd]
    exact hw.rd g e j hg

/-- A handshake whose local switch lies 16 multiframes back closes (R244). -/
theorem handshakeTimeout_due {s : State} {b m : Nat} (h : (s.team b).openAt = some m) (hm : m + 16 ≤ s.time.mf) :
    s.handshakeTimeout b = s.closePlan b := by
  simp [State.handshakeTimeout, h, hm]

theorem handshakeTimeout_early {s : State} {b m : Nat} (h : (s.team b).openAt = some m) (hm : s.time.mf < m + 16) :
    s.handshakeTimeout b = s := by
  simp [State.handshakeTimeout, h, Nat.not_le.mpr hm]

theorem handshakeTimeout_none {s : State} {b : Nat} (h : (s.team b).openAt = none) : s.handshakeTimeout b = s := by
  simp [State.handshakeTimeout, h]

end Sys2Proof.Laws
end

section
/-! SUPPORT. PROOFS. The acceptor's deadline, and a transaction that aborts (O58). -/
namespace Sys2Proof.Laws
open Sys2Proof Sys2Proof.Machine

/-! ### The acceptor's deadline (R240) -/

section
variable (s : State) (m : Nat)

/-- With no shadow the time alone moves. -/
theorem toMf_noShadow {s : State} (h : s.rd IMG_SHADOW_VALID pkg = 0) (m : Nat) :
    s.toMf m = { s with time := (s.toMf m).time } := by
  unfold State.toMf State.shadowPass State.flag
  split
  · simp [h]
  · rfl

/-- The count moves forward and never back. -/
theorem toMf_mf : (s.toMf m).time.mf = max s.time.mf m := by
  unfold State.toMf
  split <;> simp <;> omega

theorem shadowPass_keeps {α : Type} (φ : State → α) (hwr : ∀ t f d v k, φ (State.wr t f d v k) = φ t)
    (hshadow : ∀ t : State, φ { t with shadow := [] } = φ t) : φ (s.shadowPass m) = φ s := by
  unfold State.shadowPass State.shadowGone
  dsimp only
  split
  · split
    · split
      · exact (hwr ..).trans (hwr ..)
      · exact (hshadow _).trans ((hwr ..).trans (hwr ..))
    · exact hwr ..
  · rfl

/-- The shadow's life bears on no record but the shadow. -/
theorem toMf_keeps {α : Type} (φ : State → α) (hwr : ∀ t f d v k, φ (State.wr t f d v k) = φ t)
    (hshadow : ∀ t : State, φ { t with shadow := [] } = φ t) (htime : ∀ (t : State) (x : Time), φ { t with time := x } = φ t) :
    φ (s.toMf m) = φ s := by
  unfold State.toMf
  split
  · exact (htime _ _).trans (shadowPass_keeps s _ φ hwr hshadow)
  · rfl

@[simp] theorem toMf_txn : (s.toMf m).txn = s.txn :=
  toMf_keeps s m State.txn (fun _ _ _ _ _ => rfl) (fun _ => rfl) fun _ _ => rfl

@[simp] theorem toMf_part : (s.toMf m).part = s.part :=
  toMf_keeps s m State.part (fun _ _ _ _ _ => rfl) (fun _ => rfl) fun _ _ => rfl

@[simp] theorem toMf_team (b : Nat) : (s.toMf m).team b = s.team b :=
  toMf_keeps s m (fun t => t.team b) (fun _ _ _ _ _ => rfl) (fun _ => rfl) fun _ _ => rfl

end

/-- The team has an open transaction as acceptor, whose GO has not gone out. -/
def Accepting (s : State) (b : Nat) : Prop :=
  s.txn.isOpen = true ∧ s.txn.acceptor = true ∧ s.txn.planTeam = some b ∧ s.txn.goSent = false

/-- The state at the start of the acceptor's M − 1. -/
def atDeadline (s : State) : State := s.toMf (s.txn.mf - 1)

/-- The acceptor waits one more multiframe, and then sends GO. -/
def waitOneMore (s : State) (b : Nat) : State :=
  let u := { s with txn := { s.txn with mf := max s.txn.mf (s.time.mf + 1) + 1 } }
  (u.wr IMG_TXN_MF_MF pkg u.txn.mf).modTeam b fun y => { y with goNext := true }

/-- What an acceptor at its deadline does: GO goes out, or the far end's announcement is judged. -/
def judgeAnnounced (s : State) (b : Nat) : State :=
  if (s.team b).confirm || (s.team b).goNext then s.sendGo
  else match (s.team b).farNext with
    | some e => if e = s.txn.planEpoch then waitOneMore s b else (s.closePlan b).abortTxn reasonPlanRefused
    | none => s

theorem acceptorDeadline_accepting {s : State} {b : Nat} (h : Accepting s b) :
    s.acceptorDeadline b = judgeAnnounced (atDeadline s) b := by
  obtain ⟨hopen, hacc, hteam, hgo⟩ := h
  exact if_pos (by simp [hopen, hacc, hteam, hgo])

theorem acceptorDeadline_idle {s : State} {b : Nat}
    (h : s.txn.isOpen = false ∨ s.txn.acceptor = false ∨ s.txn.goSent = true) : s.acceptorDeadline b = s := by
  rcases h with h | h | h <;> simp [State.acceptorDeadline, h]

/-- GO of an acceptor goes to the dies alone. -/
def acceptorGo (s : State) : State :=
  ({ s with txn := { s.txn with goSent := true } }.wr IMG_TXN_STATUS_STATE pkg 3).ringTxn s.crownDie 15 4 0

@[simp] theorem acceptorGo_txn (s : State) : (acceptorGo s).txn = { s.txn with goSent := true } := rfl
@[simp] theorem acceptorGo_part (s : State) : (acceptorGo s).part = s.part := rfl
theorem rd_acceptorGo (s : State) : (acceptorGo s).rd IMG_TXN_STATUS_STATE pkg = 3 := rd_wr_same ..
theorem rd_acceptorGo_other (s : State) {g : Fld} (h : place g ≠ place IMG_TXN_STATUS_STATE) (e j : Nat) :
    (acceptorGo s).rd g e j = s.rd g e j := rd_wr_other _ h ..

theorem sendGo_acceptor {s : State} (hacc : s.txn.acceptor = true) : s.sendGo = acceptorGo s := by
  unfold State.sendGo
  dsimp only
  split
  · exact if_pos hacc
  · rfl

/-- With CONFIRM the acceptor's GO goes out at the deadline (R240). -/
theorem acceptorDeadline_confirmed {s : State} {b : Nat} (h : Accepting s b) (hc : (s.team b).confirm = true) :
    s.acceptorDeadline b = acceptorGo (atDeadline s) := by
  have htxn : (atDeadline s).txn = s.txn := toMf_txn ..
  have hteam : (atDeadline s).team b = s.team b := toMf_team ..
  rw [acceptorDeadline_accepting h, judgeAnnounced, if_pos (by simp [hteam, hc])]
  obtain ⟨-, hacc, -, -⟩ := h
  exact sendGo_acceptor (htxn ▸ hacc)

/-- Without CONFIRM the acceptor acts on what the far end's headers announce. -/
theorem acceptorDeadline_unconfirmed {s : State} {b e : Nat} (h : Accepting s b) (hc : (s.team b).confirm = false)
    (hn : (s.team b).goNext = false) (he : (s.team b).farNext = some e) : s.acceptorDeadline b =
      if e = s.txn.planEpoch then waitOneMore (atDeadline s) b
      else ((atDeadline s).closePlan b).abortTxn reasonPlanRefused := by
  have htxn : (atDeadline s).txn = s.txn := toMf_txn ..
  have hteam : (atDeadline s).team b = s.team b := toMf_team ..
  rw [acceptorDeadline_accepting h, judgeAnnounced, if_neg (by simp [hteam, hc, hn]), hteam, he, htxn]

/-- A wait of one multiframe puts the switch later, and two multiframes from now at the earliest. -/
theorem waitOneMore_shape (s : State) (b : Nat) :
    let t := waitOneMore s b
    t.txn = { s.txn with mf := t.txn.mf } ∧ s.txn.mf < t.txn.mf ∧ t.time.mf + 2 ≤ t.txn.mf ∧
      t.rd IMG_TXN_MF_MF pkg = t.txn.mf % 2 ^ 32 ∧ (t.team b).goNext = true := by
  refine ⟨rfl, ?_, ?_, ?_, ?_⟩
  · change s.txn.mf < max s.txn.mf (s.time.mf + 1) + 1
    omega
  · change s.time.mf + 2 ≤ max s.txn.mf (s.time.mf + 1) + 1
    omega
  · exact rd_wr_same ..
  · exact congrArg TeamSt.goNext (modTeam_team ..)

/-! ### A transaction that aborts (R92) -/

/-- An aborted transaction that concerned a team is closed, RESULT shows it, and so does the team's handshake. -/
structure Aborted (b : Nat) (t : State) : Prop where
  closed : t.txn.isOpen = false
  result : t.rd IMG_TXN_STATUS_RESULT pkg = 2
  handshake : t.rd FRM_PLAN_STATUS_STATE b = 0

/-- What a transaction's abort does before its plan is withdrawn: pending values return and the reason is shown. -/
def showAbort (s : State) (reason : Nat) : State :=
  let s := (s.forEach (pkg :: s.dieList) fun t d => if t.txn.rollback then t.dropPend d else t.unhold d).clearHolds
  (((s.wr IMG_TXN_STATUS_RESULT pkg 2).wr IMG_TXN_STATUS_REASON pkg reason).wr IMG_TXN_STATUS_STATE pkg 0).ringTxn
    s.crownDie 15 5 reason

/-- What neither the records that an abort changes nor the registers that it writes bear on, it keeps. -/
theorem showAbort_keeps {α : Type} (φ : State → α) (hdrop : ∀ t d, φ (State.dropPend t d) = φ t)
    (hunhold : ∀ t d, φ (State.unhold t d) = φ t) (hdie : ∀ t d f, φ (State.modDie t d f) = φ t)
    (hout : ∀ t o, φ (State.emit t o) = φ t)
    (hwr : ∀ t, ∀ f ∈ [IMG_DIE_STATUS_PENDING, IMG_TXN_STATUS_RESULT, IMG_TXN_STATUS_REASON, IMG_TXN_STATUS_STATE], ∀ d v k,
      φ (State.wr t f d v k) = φ t) (s : State) (reason : Nat) : φ (showAbort s reason) = φ s := by
  have back (t : State) (d : Nat) : φ (if t.txn.rollback then t.dropPend d else t.unhold d) = φ t := by
    split
    · exact hdrop t d
    · exact hunhold t d
  have clear (t : State) : φ t.clearHolds = φ t :=
    forEach_keeps φ _ (fun u d _ => (hwr _ _ (by simp) _ _ _).trans (hdie ..)) t
  calc φ (showAbort s reason)
      = φ (s.forEach (pkg :: s.dieList) fun t d => if t.txn.rollback then t.dropPend d else t.unhold d).clearHolds :=
        (hout ..).trans ((hwr _ _ (by simp) _ _ _).trans ((hwr _ _ (by simp) _ _ _).trans (hwr _ _ (by simp) _ _ _)))
    _ = φ s := (clear _).trans (forEach_keeps φ _ (fun t d _ => back t d) s)

theorem showAbort_txn (s : State) (reason : Nat) : (showAbort s reason).txn = s.txn :=
  showAbort_keeps State.txn (fun _ _ => rfl) (fun _ _ => rfl) (fun _ _ _ => rfl) (fun _ _ => rfl) (fun _ _ _ _ _ _ => rfl) s reason

theorem rd_showAbort_planState (s : State) (b reason : Nat) :
    (showAbort s reason).rd FRM_PLAN_STATUS_STATE b = s.rd FRM_PLAN_STATUS_STATE b :=
  showAbort_keeps (fun t => t.rd FRM_PLAN_STATUS_STATE b) (fun _ _ => rfl) (fun _ _ => rfl) (fun _ _ _ => rfl) (fun _ _ => rfl)
    (fun t f hf d v k => rd_wr_other t (by revert f; decide) d b v k 0) s reason

theorem rd_showAbort_result (s : State) (reason : Nat) : (showAbort s reason).rd IMG_TXN_STATUS_RESULT pkg = 2 := by
  refine (emit_rd ..).trans ?_
  rw [rd_wr_other _ (by decide), rd_wr_other _ (by decide), rd_wr_same]
  rfl

theorem withdrawPlan_closed {s : State} {b : Nat} (hteam : s.txn.planTeam = some b)
    (hclosed : s.rd FRM_PLAN_STATUS_STATE b = 0) : s.withdrawPlan = s.closePlan b := by
  simp [State.withdrawPlan, hteam, hclosed]

/-- An abort of a transaction that concerned a team whose handshake is closed. -/
theorem aborted_abortTxn {s : State} {b : Nat} (hopen : s.txn.isOpen = true) (hteam : s.txn.planTeam = some b)
    (hclosed : s.rd FRM_PLAN_STATUS_STATE b = 0) (reason : Nat) : Aborted b (s.abortTxn reason) := by
  have hwithdraw : (showAbort s reason).withdrawPlan = (showAbort s reason).closePlan b :=
    withdrawPlan_closed (showAbort_txn s reason ▸ hteam) ((rd_showAbort_planState ..).trans hclosed)
  have hrd (g : Fld) (e : Nat) : (s.abortTxn reason).rd g e = (showAbort s reason).withdrawPlan.rd g e := by
    rw [State.abortTxn, if_pos hopen]
    change State.rd (match (showAbort s reason).withdrawPlan.txn.planTeam with
      | some _ => _
      | none => _) g e = _
    split
    · split <;> rfl
    · rfl
  refine ⟨?_, ?_, ?_⟩
  · rw [State.abortTxn, if_pos hopen]
  · rw [hrd, hwithdraw, closePlan_eq, modTeam_rd, rd_wrTeam_other _ (by decide), rd_showAbort_result]
  · rw [hrd, hwithdraw, rd_closePlan]

end Sys2Proof.Laws
end

section
/-! SUPPORT. PROOFS. Plan changes: the receive switch, disagreement, absence, the local switch and rejoin (O58). -/
namespace Sys2Proof.Laws
open Sys2Proof Sys2Proof.Machine

/-! ### The receive direction (R242) -/

section
variable (s : State) (d i : Nat)

theorem showAllSlots_writes : WritesOnly (fun g _ => g.blk = 10) s s.showAllSlots := by
  have slots (f : Fld) (hf : f.blk = 10) (g : Fld) (hg : place g = place f) : g.blk = 10 :=
    (congrArg (fun x => x.2.1) hg).trans hf
  refine (WritesOnly.refl _ s).forEach _ fun u p _ => ?_
  split
  · exact ((WritesOnly.refl _ u).wr (d := p.1) (slots FLW_SLOTS_TX rfl) _ _).wr (d := p.1) (slots FLW_SLOTS_RX rfl) _ _
  · exact .refl _ u

@[simp] theorem showAllSlots_teams : s.showAllSlots.teams = s.teams := by rw [(showAllSlots_writes s).rest]
@[simp] theorem showAllSlots_time : s.showAllSlots.time = s.time := by rw [(showAllSlots_writes s).rest]

@[simp] theorem showCodes_teams : (s.showCodes d).teams = s.teams := by
  unfold State.showCodes
  exact forEach_keeps State.teams _ (fun t i _ => wr_teams ..) s

@[simp] theorem refreshPool_teams : (s.refreshPool d).teams = s.teams := by
  unfold State.refreshPool State.commitPool
  simp only [wr_teams, modFec_teams, showCodes_teams]

@[simp] theorem setRxState_teams (v : Nat) : (s.setRxState d i v).teams = s.teams := by
  unfold State.setRxState
  dsimp only
  split <;> split <;> rfl

@[simp] theorem takeFreq_teams : (s.takeFreq d).teams = s.teams := by
  unfold State.takeFreq
  dsimp only
  split <;> rfl

@[simp] theorem seekCd_teams : (s.seekCd d i).teams = s.teams := by
  unfold State.seekCd
  dsimp only
  split <;> rfl

@[simp] theorem loseSync_teams : (s.loseSync d i).teams = s.teams := rfl

@[simp] theorem startArm_teams : (s.startArm d i).teams = s.teams := by
  unfold State.startArm
  dsimp only
  split
  · rfl
  · split <;> simp

@[simp] theorem frmStart_teams : (s.frmStart d i).teams = s.teams := by
  unfold State.frmStart
  dsimp only
  split <;> rfl

@[simp] theorem rxStart_teams : (s.rxStart d i).teams = s.teams := by simp [State.rxStart]

end

theorem rxSwitch_rxEpoch (s : State) (b e : Nat) (p : DirPlan) : ((s.rxSwitch b e p).team b).rxEpoch = e := by
  unfold State.rxSwitch
  dsimp only
  rw [team_congr (showAllSlots_teams _)]
  refine (congrArg TeamSt.rxEpoch (team_congr (forEach_keeps State.teams _ (fun u d _ => refreshPool_teams u d) _) b)).trans ?_
  exact congrArg TeamSt.rxEpoch (modTeam_team _ b fun x => { x with rxEpoch := e })

/-- The epoch that the receive direction is to take: as the cairn exchange named it, else as announced. -/
def rxTarget (s : State) (b : Nat) : Nat := if s.cairnSwitch b then 1 else s.farEpoch b

theorem rxPlanSwitch_same {s : State} {b : Nat} (h : rxTarget s b = (s.team b).rxEpoch) : s.rxPlanSwitch b = s := if_pos h

theorem rxPlanSwitch_unknown {s : State} {b : Nat} (h : rxTarget s b ≠ (s.team b).rxEpoch)
    (hp : s.farPlan b (rxTarget s b) = none) : s.rxPlanSwitch b = s.raiseTeam FRM_EVENT_PLAN_UNKNOWN b := by
  refine (if_neg h).trans ?_
  change (match s.farPlan b (rxTarget s b) with
    | none => _
    | some p => _) = _
  rw [hp]

theorem rxPlanSwitch_held {s : State} {b : Nat} {p : DirPlan} (h : rxTarget s b ≠ (s.team b).rxEpoch)
    (hp : s.farPlan b (rxTarget s b) = some p) : ((s.rxPlanSwitch b).team b).rxEpoch = rxTarget s b := by
  have cold (u : State) (ds : List Nat) : (u.forEach ds fun u d => u.forEach (List.range 8) fun v i =>
      if v.rxOn d i then v.rxStart d i else v).teams = u.teams :=
    forEach_keeps State.teams _ (fun v d _ => forEach_keeps State.teams _ (fun w i _ => by split <;> simp) v) u
  unfold State.rxPlanSwitch
  rw [← rxTarget.eq_def, if_neg h, hp]
  dsimp only
  split
  · rw [team_congr (cold _ _), rxSwitch_rxEpoch]
  · rw [rxSwitch_rxEpoch]

/-! ### Changes without a transaction (R33, R34, R244) -/

section
variable (s : State) (b : Nat) (c : PlanChange) (far : DirPlan) (st : Nat)

theorem startChange_change : ((s.startChange b c far st).team b).change = some c := by
  rw [State.startChange, wrTeam_team]
  exact congrArg TeamSt.change (modTeam_team s b _)

theorem rd_startChange : (s.startChange b c far st).rd FRM_PLAN_STATUS_STATE b = st % 2 ^ 4 := rd_wrTeam_same _

@[simp] theorem startChange_dies : (s.startChange b c far st).dies = s.dies := wrTeam_dies _

variable (m mask e : Nat)

theorem showDispute_team : (s.showDispute b mask).team b = s.team b := by simp [State.showDispute]

theorem startRevert_change : ((s.startRevert b e m mask).team b).change =
    some { revert := true, epoch := e, mf := m, disputed := mask } := by
  rw [State.startRevert, showDispute_team, startChange_change]

theorem rd_startRevert_state : (s.startRevert b e m mask).rd FRM_PLAN_STATUS_STATE b = 4 := by
  unfold State.startRevert State.showDispute
  rw [rd_raiseTeam_other _ (by decide), rd_wrTeam_other _ (by decide), rd_wrTeam_other _ (by decide), rd_startChange]
  rfl

theorem rd_startRevert_event : (s.startRevert b e m mask).rd FRM_EVENT_PLAN_REVERT b = 1 := rd_raiseTeam_one _ rfl

end

theorem disagreement_short {s : State} {b : Nat} (h : (s.team b).diffRun < s.rd FRM_PLAN_CTRL_PLAN_WAIT b) :
    s.disagreement b = s := if_neg fun ⟨_, _, hrun, _⟩ => absurd h (Nat.not_lt.mpr hrun)

/-- A disagreement that has lasted starts a revert with an epoch above both ends' (R244). -/
theorem disagreement_lasting {s : State} {b : Nat} (hst : s.rd FRM_PLAN_STATUS_STATE b = 0) (hopen : (s.team b).openAt = none)
    (hrun : s.rd FRM_PLAN_CTRL_PLAN_WAIT b ≤ (s.team b).diffRun) (hcamp : (s.team b).baseCamp = false) :
    ∃ m ms, s.time.mf < m ∧ s.disagreement b =
      (s.startRevert b (max (s.txEpoch b) (s.farEpoch b) + 1) m (s.disputed b)).sendMsgs b ms :=
  ⟨_, _, by omega, if_pos ⟨hst, hopen, hrun, hcamp⟩⟩

/-! ### Absence changes (R33) -/

/-- The number made of the bits below `n` that a test names. -/
def sumBits (p : Nat → Bool) (n : Nat) : Nat := (List.range n).foldl (fun m g => if p g then m + 2 ^ g else m) 0

theorem sumBits_succ (p : Nat → Bool) (n : Nat) : sumBits p (n + 1) = if p n then 2 ^ n + sumBits p n else sumBits p n := by
  rw [sumBits, List.range_succ, List.foldl_append, Nat.add_comm (2 ^ n)]
  rfl

theorem sumBits_lt (p : Nat → Bool) (n : Nat) : sumBits p n < 2 ^ n := by
  induction n with
  | zero => exact Nat.one_pos
  | succ n ih =>
    rw [sumBits_succ]
    split <;> omega

theorem testBit_sumBits (p : Nat → Bool) {n g : Nat} (hg : g < n) : (sumBits p n).testBit g = p g := by
  induction n with
  | zero => omega
  | succ n ih =>
    rw [sumBits_succ]
    rcases Nat.lt_succ_iff_lt_or_eq.mp hg with h | rfl
    · split
      · rw [Nat.testBit_two_pow_add_gt h, ih h]
      · exact ih h
    · have htop : (sumBits p g).testBit g = false := Nat.testBit_lt_two_pow (sumBits_lt p g)
      split
      next hp => rw [Nat.testBit_two_pow_add_eq, htop, hp, Bool.not_false]
      next hp => rw [htop, Bool.eq_false_iff.mpr hp]

section
variable (s : State) (b : Nat)

/-- The dies of a team whose absence change is due. -/
def dueDies (s : State) (b : Nat) : List Nat := (s.teamDies b).filter fun d => (s.die d).absenceDue

/-- The state once the due absences are taken up. -/
def absenceTaken (s : State) (b : Nat) : State :=
  s.forEach (dueDies s b) fun u d => u.modDie d fun x => { x with absenceDue := false }

/-- What no die's record bears on stays as absences are taken up. -/
theorem absenceTaken_keeps {α : Type} (φ : State → α) (h : ∀ t d f, φ (State.modDie t d f) = φ t) :
    φ (absenceTaken s b) = φ s := by
  unfold absenceTaken
  exact forEach_keeps φ _ (fun t d _ => h t d _) s

theorem absenceTaken_rd (g : Fld) (e j : Nat) : (absenceTaken s b).rd g e j = s.rd g e j :=
  absenceTaken_keeps s b (fun t => t.rd g e j) fun _ _ _ => rfl

theorem absenceTaken_time : (absenceTaken s b).time = s.time := absenceTaken_keeps s b State.time fun _ _ _ => rfl

theorem absenceTaken_die {e : Nat} (he : e ∈ dueDies s b) : ((absenceTaken s b).die e).absenceDue = false := by
  unfold absenceTaken
  refine forEach_sets (φ := fun u => (u.die e).absenceDue) (v := false) (fun u x hx => ?_) (fun u => ?_) he s
  · exact congrArg DieSt.absenceDue (modDie_die_other u hx.symm _)
  · rw [modDie_die]

/-- A subcarrier of a team is gone: its slice is absent, or its arm is retired. -/
def scGone (s : State) (b g : Nat) : Bool := s.memberState (b + g / 8) == 3 || s.armRetired (b + g / 8) (g % 8)

/-- The subcarriers of a team that are gone. -/
def goneMask (s : State) (b : Nat) : Nat := sumBits (scGone s b) (8 * s.teamSize b)

theorem goneMask_taken : goneMask (absenceTaken s b) b = goneMask s b := by
  have hgone : scGone (absenceTaken s b) b = scGone s b := by
    funext g
    simp only [scGone, State.memberState, State.armRetired, absenceTaken_rd]
  rw [goneMask, hgone, State.teamSize, absenceTaken_rd]
  rfl

/-- The change that an absence starts. -/
def absenceChange (s : State) (b m : Nat) : PlanChange :=
  { revert := false, epoch := max (s.agreed b) (s.txEpoch b) + 1, mf := m, disputed := goneMask s b }

theorem absenceChange_taken (m : Nat) : absenceChange (absenceTaken s b) b m = absenceChange s b m := by
  have hagreed : (absenceTaken s b).agreed b = s.agreed b := absenceTaken_rd ..
  have htx : (absenceTaken s b).txEpoch b = s.txEpoch b := absenceTaken_rd ..
  rw [absenceChange, hagreed, htx, goneMask_taken]
  rfl

/-- The change begins and is proposed to the far end. -/
def proposeAbsence (s : State) (b : Nat) : State :=
  let new := State.markAbsent (s.activePlan b) (goneMask s b)
  let es := (planDelta (s.ownOf b (s.agreed b)) new).filter isAbsence
  let m := s.time.mf + 1 + s.autoLead b (s.rd IMG_TXN_CTRL_LEAD pkg) es.length
  let far := State.markAbsent ((s.farPlan b (s.agreed b)).getD {}) (goneMask s b)
  let c := absenceChange s b m
  (s.startChange b c far 1).sendPropose b c.epoch m es new far

end

theorem startAbsence_idle {s : State} {b : Nat} (h : ∀ e ∈ s.teamDies b, (s.die e).absenceDue = false) :
    s.startAbsence b = s := by
  have hnone : (dueDies s b).isEmpty = true := by simpa [dueDies] using h
  exact if_pos hnone

/-- An absence change that follows no other one. -/
theorem startAbsence_due {s : State} {b e : Nat} (he : e ∈ dueDies s b) (hopen : s.txn.isOpen = false)
    (hchange : (s.team b).change = none) : s.startAbsence b = proposeAbsence (absenceTaken s b) b := by
  have hsome : ¬ (dueDies s b).isEmpty = true := by simpa using List.ne_nil_of_mem he
  have hown : s.withdrawOwn b = s := if_neg (by simp [hopen])
  refine (if_neg hsome).trans ?_
  rw [hown, hchange]
  rfl

/-- A proposed absence: the change starts at a later multiframe, and the rest is messages. -/
theorem proposeAbsence_shape (s : State) (b : Nat) : ∃ m far ms, s.time.mf < m ∧
    proposeAbsence s b = (s.startChange b (absenceChange s b m) far 1).sendMsgs b ms := by
  refine ⟨_, _, _, ?_, rfl⟩
  omega

/-! ### The local switch of a change (R34, R244) -/

section
variable (s : State) (b : Nat) (c : PlanChange)

/-- The change has switched, and its epoch is the active one. -/
def switchedTo (s : State) (b : Nat) (c : PlanChange) : State :=
  ((s.modTeam b fun x => { x with change := some { c with switched := true } }).planSwitched b c.epoch).showAllSlots

theorem switchedTo_team : (switchedTo s b c).team b =
    { s.team b with
      change := some { c with switched := true }
      own := ((switchedTo s b c).team b).own, openAt := some s.time.mf } := by
  have hteam := (team_congr (showAllSlots_teams ((s.modTeam b fun x =>
    { x with change := some { c with switched := true } }).planSwitched b c.epoch)) b).trans (wrTeam_team ..)
  rw [modTeam_team, modTeam_team] at hteam
  rw [switchedTo, hteam]
  rfl

theorem switchedTo_time : (switchedTo s b c).time = s.time := (showAllSlots_time _).trans (wrTeam_time _)

theorem rd_switchedTo : (switchedTo s b c).txEpoch b = c.epoch % 2 ^ 32 :=
  ((showAllSlots_writes _).rd FRM_PLAN_ACTIVE_EPOCH b 0 (by decide)).trans (rd_wrTeam_same _)

end

theorem changeSwitch_idle {s : State} {b : Nat} (h : ∀ c, (s.team b).change = some c → c.switched = true) :
    s.changeSwitch b = s := by
  unfold State.changeSwitch
  split
  · rfl
  next c hc => exact if_pos (h c hc)

/-- A change that has not switched ends its switch with the new epoch active, whatever its kind. -/
theorem changeSwitch_due {s : State} {b : Nat} {c : PlanChange} (hc : (s.team b).change = some c) (h : c.switched = false) :
    ∃ u, s.changeSwitch b = switchedTo u b c := by
  unfold State.changeSwitch
  rw [hc]
  exact ⟨_, if_neg (by simp [h])⟩

/-! ### Rejoin (R37, R459) -/

/-- A field of a number reads what was put in it, also where the number is cut above the field. -/
theorem bitsAt_setBitsAt {lo w m : Nat} (hm : lo + w ≤ m) (n v : Nat) : bitsAt (setBitsAt n lo w v % 2 ^ m) lo w = v % 2 ^ w := by
  have hcut : ∀ k, k % 2 ^ m / 2 ^ lo % 2 ^ w = k / 2 ^ lo % 2 ^ w := by
    intro k
    obtain ⟨j, rfl⟩ := Nat.exists_eq_add_of_le (show lo ≤ m by omega)
    rw [Nat.pow_add, Nat.mod_mul_right_div_self, Nat.mod_mod_of_dvd _ (Nat.pow_dvd_pow 2 (by omega))]
  rw [bitsAt, Nat.shiftRight_eq_div_pow, hcut, setBitsAt, bitsAt, Nat.shiftRight_eq_div_pow]
  have hpos : 0 < 2 ^ lo := Nat.two_pow_pos lo
  have hsplit : n - n / 2 ^ lo % 2 ^ w * 2 ^ lo = n % 2 ^ lo + 2 ^ w * (n / 2 ^ lo / 2 ^ w) * 2 ^ lo := by
    have hlow := Nat.div_add_mod n (2 ^ lo)
    have hmid := Nat.div_add_mod (n / 2 ^ lo) (2 ^ w)
    have : n = 2 ^ w * (n / 2 ^ lo / 2 ^ w) * 2 ^ lo + n / 2 ^ lo % 2 ^ w * 2 ^ lo + n % 2 ^ lo := by
      rw [← Nat.add_mul, hmid, Nat.mul_comm, hlow]
    omega
  rw [hsplit, Nat.add_mul_div_right _ _ hpos, Nat.add_mul_div_right _ _ hpos, Nat.div_eq_of_lt (Nat.mod_lt _ hpos),
    Nat.zero_add, Nat.mul_add_mod, Nat.mod_mod]

/-- A die's member state reads as set. -/
theorem setMember_memberState {d v : Nat} (hd : d < 8) (hv : v < 3) (s : State) : (s.setMember d v).memberState d = v := by
  have hrd : (s.setMember d v).rd PKG_MEMBER_STATUS_STATE pkg =
      setBitsAt (s.rd PKG_MEMBER_STATUS_STATE pkg) (2 * d) 2 v % 2 ^ 16 := by
    rw [State.setMember, if_neg (by omega), State.refreshSegments, rd_wr_other _ (by decide), rd_wr_same]
    rfl
  rw [State.memberState, hrd, bitsAt_setBitsAt (by omega), Nat.mod_eq_of_lt (by omega)]

theorem startRejoin_unready {s : State} {d : Nat} (h : s.rejoinReady d = false) : s.startRejoin d = s := if_pos (by simp [h])

/-- A larger team's die waits for an open transaction. -/
theorem startRejoin_waiting {s : State} {d : Nat} (h : s.rejoinReady d = true) (hsize : s.teamSize d ≠ 1)
    (hopen : s.txn.isOpen = true) : s.startRejoin d = s :=
  (if_neg (by simp [h])).trans ((if_neg hsize).trans (if_pos (by simp [hopen])))

/-- A team of one comes back by a rebase. -/
def rejoinAlone (s : State) (d : Nat) : State :=
  ((s.setMember d 1).modTeam d fun x => { x with rebase := true, rejoin := if (s.die d).unparked then [] else [d] }).modDie d
    fun x => { x with rejoinReq := false, unparked := false }

theorem startRejoin_alone {s : State} {d : Nat} (h : s.rejoinReady d = true) (hsize : s.teamSize d = 1) :
    s.startRejoin d = rejoinAlone s d := by
  have hbase : s.teamBase d = d := by rw [State.teamBase, hsize, Nat.div_one, Nat.mul_one]
  refine (if_neg (by simp [h])).trans ((if_pos hsize).trans ?_)
  rw [hbase]
  rfl

/-! ### The rows -/

section
variable {s : State} {d : Fin 8} (hd : (d : Nat) < s.part.dies)
include hd

theorem acceptorGoDeadline_idle (h : s.txn.isOpen = false ∨ s.txn.acceptor = false ∨ s.txn.goSent = true) :
    Completes (.acceptorGoDeadline d) s (OnlyRegs [] s) :=
  completes_runTeam (op := State.acceptorDeadline) hd (onlyRegs_ran_of_fixed (acceptorDeadline_idle (s := silenced s) h))

theorem acceptorGoDeadline_confirmed (h : Accepting s (s.teamBase d)) (hc : (s.team (s.teamBase d)).confirm = true) :
    Completes (.acceptorGoDeadline d) s fun t =>
      t.txn = { s.txn with goSent := true } ∧ t.rd IMG_TXN_STATUS_STATE pkg = 3 ∧
      t.time.mf = max s.time.mf (s.txn.mf - 1) ∧
      (s.rd IMG_SHADOW_VALID pkg = 0 →
        t = { s with regs := t.regs, txn := t.txn, time := t.time, out := t.out } ∧ KeepsRegs [IMG_TXN_STATUS_STATE] s t) := by
  have hrun : (silenced s).acceptorDeadline (s.teamBase d) = acceptorGo (atDeadline (silenced s)) :=
    acceptorDeadline_confirmed (s := silenced s) h hc
  have hpart : ((silenced s).acceptorDeadline (s.teamBase d)).part = s.part := by
    rw [hrun, acceptorGo_part, atDeadline, toMf_part]
    rfl
  refine completes_runTeam (op := State.acceptorDeadline) hd ⟨?_, ?_, ?_, fun hshadow => ⟨?_, fun g e j hg hs => ?_⟩⟩
  · rw [ran_txn]
    refine (congrArg State.txn hrun).trans ?_
    rw [acceptorGo_txn, atDeadline, toMf_txn]
    rfl
  · rw [rd_ran (f := fun u => u.acceptorDeadline (s.teamBase d)) hpart (by decide), hrun, rd_acceptorGo]
  · rw [ran_time]
    refine (congrArg (fun u : State => u.time.mf) hrun).trans ?_
    exact toMf_mf (silenced s) _
  · have hq : atDeadline (silenced s) = _ := toMf_noShadow (s := silenced s) hshadow (s.txn.mf - 1)
    rw [ran_eq, settle_eq, hrun, hq]
    rfl
  · have hq : atDeadline (silenced s) = _ := toMf_noShadow (s := silenced s) hshadow (s.txn.mf - 1)
    rw [rd_ran (f := fun u => u.acceptorDeadline (s.teamBase d)) hpart hs, hrun, rd_acceptorGo_other _ (by simpa using hg), hq]
    rfl

theorem acceptorGoDeadline_waits (h : Accepting s (s.teamBase d)) (hc : (s.team (s.teamBase d)).confirm = false)
    (hn : (s.team (s.teamBase d)).goNext = false) (he : (s.team (s.teamBase d)).farNext = some s.txn.planEpoch) :
    Completes (.acceptorGoDeadline d) s fun t =>
      t.txn.isOpen = true ∧ t.txn.goSent = false ∧ s.txn.mf < t.txn.mf ∧ t.time.mf + 2 ≤ t.txn.mf ∧
        t.rd IMG_TXN_MF_MF pkg = t.txn.mf % 2 ^ 32 ∧ (t.team (s.teamBase d)).goNext = true := by
  obtain ⟨hopen, -, -, hgo⟩ := id h
  have hrun : (silenced s).acceptorDeadline (s.teamBase d) = waitOneMore (atDeadline (silenced s)) (s.teamBase d) :=
    (acceptorDeadline_unconfirmed (s := silenced s) h hc hn he).trans (if_pos rfl)
  obtain ⟨htxn, hlater, hnow, hshown, hnext⟩ := waitOneMore_shape (atDeadline (silenced s)) (s.teamBase d)
  have hat : (atDeadline (silenced s)).txn = s.txn := toMf_txn ..
  rw [hat] at htxn hlater
  rw [← hrun] at htxn hlater hnow hshown hnext
  refine completes_runTeam (op := State.acceptorDeadline) hd ⟨?_, ?_, ?_, ?_, ?_, ?_⟩
  · rw [ran_txn]
    exact (congrArg (fun x => x.isOpen) htxn).trans hopen
  · rw [ran_txn]
    exact (congrArg (fun x => x.goSent) htxn).trans hgo
  · rw [ran_txn]
    exact hlater
  · rw [ran_txn, ran_time]
    exact hnow
  · rw [ran_txn, rd_ran_plain _ _ rfl (by decide)]
    exact hshown
  · rw [team_ran]
    exact hnext

theorem acceptorGoDeadline_aborts (h : Accepting s (s.teamBase d)) (hc : (s.team (s.teamBase d)).confirm = false)
    (hn : (s.team (s.teamBase d)).goNext = false) {e : Nat} (he : (s.team (s.teamBase d)).farNext = some e)
    (hother : e ≠ s.txn.planEpoch) :
    Completes (.acceptorGoDeadline d) s fun t =>
        t.txn.isOpen = false ∧ t.rd IMG_TXN_STATUS_RESULT pkg = 2 ∧ t.rd FRM_PLAN_STATUS_STATE (s.teamBase d) = 0 := by
  have hrun : (silenced s).acceptorDeadline (s.teamBase d) =
      ((atDeadline (silenced s)).closePlan (s.teamBase d)).abortTxn reasonPlanRefused :=
    (acceptorDeadline_unconfirmed (s := silenced s) h hc hn he).trans (if_neg hother)
  have hat : ((atDeadline (silenced s)).closePlan (s.teamBase d)).txn = s.txn := (closePlan_txn ..).trans (toMf_txn ..)
  obtain ⟨hopen, -, hteam, -⟩ := id h
  obtain ⟨hclosed, hresult, hhandshake⟩ :=
    aborted_abortTxn (hat.symm ▸ hopen) (hat.symm ▸ hteam) (rd_closePlan ..) reasonPlanRefused
  rw [← hrun] at hclosed hresult hhandshake
  refine completes_runTeam (op := State.acceptorDeadline) hd ⟨?_, ?_, ?_⟩
  · rw [ran_txn]
    exact hclosed
  · rw [rd_ran_plain _ _ rfl (by decide)]
    exact hresult
  · rw [rd_ran_plain _ _ rfl (by decide)]
    exact hhandshake

theorem rxPlanSwitch_idle (h : rxTarget s (s.teamBase d) = (s.team (s.teamBase d)).rxEpoch) :
    Completes (.rxPlanSwitch d) s (OnlyRegs [] s) :=
  completes_runTeam (op := State.rxPlanSwitch) hd (onlyRegs_ran_of_fixed (rxPlanSwitch_same (s := silenced s) h))

theorem rxPlanSwitch_shows_unknown (h : rxTarget s (s.teamBase d) ≠ (s.team (s.teamBase d)).rxEpoch)
    (hp : s.farPlan (s.teamBase d) (rxTarget s (s.teamBase d)) = none) :
    Completes (.rxPlanSwitch d) s fun t => t.rd FRM_EVENT_PLAN_UNKNOWN (s.teamBase d) = 1 ∧
      OnlyRegs [FRM_EVENT_PLAN_UNKNOWN] s t := by
  have hrun := rxPlanSwitch_unknown (s := silenced s) h hp
  refine completes_runTeam (op := State.rxPlanSwitch) hd ⟨?_, onlyRegs_ran (hrun ▸ writesOnly_raiseTeam ..)⟩
  rw [rd_ran_plain _ _ rfl (by decide), hrun, rd_raiseTeam_one _ rfl]

theorem rxPlanSwitch_takes {p : DirPlan} (h : rxTarget s (s.teamBase d) ≠ (s.team (s.teamBase d)).rxEpoch)
    (hp : s.farPlan (s.teamBase d) (rxTarget s (s.teamBase d)) = some p) :
    Completes (.rxPlanSwitch d) s fun t => (t.team (s.teamBase d)).rxEpoch = rxTarget s (s.teamBase d) := by
  refine completes_runTeam (op := State.rxPlanSwitch) hd ?_
  rw [team_ran]
  exact rxPlanSwitch_held (s := silenced s) h hp

theorem planDisagreement_idle (h : (s.team (s.teamBase d)).diffRun < s.rd FRM_PLAN_CTRL_PLAN_WAIT (s.teamBase d)) :
    Completes (.planDisagreement d) s (OnlyRegs [] s) :=
  completes_runTeam (op := State.disagreement) hd (onlyRegs_ran_of_fixed (disagreement_short (s := silenced s) h))

theorem planDisagreement_reverts (hst : s.rd FRM_PLAN_STATUS_STATE (s.teamBase d) = 0)
    (hopen : (s.team (s.teamBase d)).openAt = none)
    (hrun : s.rd FRM_PLAN_CTRL_PLAN_WAIT (s.teamBase d) ≤ (s.team (s.teamBase d)).diffRun)
    (hcamp : (s.team (s.teamBase d)).baseCamp = false) :
    Completes (.planDisagreement d) s fun t =>
      (∃ m, s.time.mf < m ∧ (t.team (s.teamBase d)).change = some {
        revert := true, epoch := max (s.txEpoch (s.teamBase d)) (s.farEpoch (s.teamBase d)) + 1, mf := m
        disputed := s.disputed (s.teamBase d) }) ∧
      t.rd FRM_PLAN_STATUS_STATE (s.teamBase d) = 4 ∧ t.rd FRM_EVENT_PLAN_REVERT (s.teamBase d) = 1 := by
  obtain ⟨m, ms, hm, hop⟩ := disagreement_lasting (s := silenced s) hst hopen hrun hcamp
  refine completes_runTeam (op := State.disagreement) hd ⟨⟨m, hm, ?_⟩, ?_, ?_⟩
  · rw [team_ran, hop, sendMsgs_change, startRevert_change]
    rfl
  · rw [rd_ran_plain _ _ rfl (by decide), hop, sendMsgs_rd, rd_startRevert_state]
  · rw [rd_ran_plain _ _ rfl (by decide), hop, sendMsgs_rd, rd_startRevert_event]

theorem handshakeTimeout_fixed (h : (silenced s).handshakeTimeout (s.teamBase d) = silenced s) :
    Completes (.handshakeTimeout d) s (OnlyRegs [] s) :=
  completes_runTeam (op := State.handshakeTimeout) hd (onlyRegs_ran_of_fixed h)

theorem handshakeTimeout_closes {m : Nat} (h : (s.team (s.teamBase d)).openAt = some m) (hm : m + 16 ≤ s.time.mf) :
    Completes (.handshakeTimeout d) s fun t => t.rd FRM_PLAN_STATUS_STATE (s.teamBase d) = 0 ∧
      t.team (s.teamBase d) = closedTeam (s.team (s.teamBase d)) ∧
      t = { s with regs := t.regs, teams := t.teams, out := t.out } ∧ KeepsRegs [FRM_PLAN_STATUS_STATE] s t :=
  completes_runTeam (op := State.handshakeTimeout) hd (closePlan_ran (handshakeTimeout_due (s := silenced s) h hm))

theorem absenceChangeStart_idle (h : ∀ e ∈ s.teamDies (s.teamBase d), (s.die e).absenceDue = false) :
    Completes (.absenceChangeStart d) s (OnlyRegs [] s) :=
  completes_runTeam (op := State.startAbsence) hd (onlyRegs_ran_of_fixed (startAbsence_idle (s := silenced s) h))

theorem absenceChangeStart_starts {e : Nat} (he : e ∈ s.teamDies (s.teamBase d)) (hdue : (s.die e).absenceDue = true)
    (hopen : s.txn.isOpen = false) (hchange : (s.team (s.teamBase d)).change = none) :
    Completes (.absenceChangeStart d) s fun t => (t.die e).absenceDue = false ∧
      t.rd FRM_PLAN_STATUS_STATE (s.teamBase d) = 1 ∧
      ∃ m, s.time.mf < m ∧ (t.team (s.teamBase d)).change = some (absenceChange s (s.teamBase d) m) := by
  have hmem : e ∈ dueDies (silenced s) (s.teamBase d) := List.mem_filter.mpr ⟨he, hdue⟩
  obtain ⟨m, far, ms, hm, hshape⟩ := proposeAbsence_shape (absenceTaken (silenced s) (s.teamBase d)) (s.teamBase d)
  have hrun := (startAbsence_due (s := silenced s) hmem hopen hchange).trans hshape
  rw [absenceTaken_time] at hm
  refine completes_runTeam (op := State.startAbsence) hd ⟨?_, ?_, m, hm, ?_⟩
  · rw [die_ran, hrun, sendMsgs_die, State.die, startChange_dies]
    exact absenceTaken_die _ _ hmem
  · rw [rd_ran_plain _ _ rfl (by decide), hrun, sendMsgs_rd, rd_startChange]
    rfl
  · rw [team_ran, hrun, sendMsgs_change, startChange_change, absenceChange_taken]
    rfl

theorem planChangeTxSwitch_idle (h : ∀ c, (s.team (s.teamBase d)).change = some c → c.switched = true) :
    Completes (.planChangeTxSwitch d) s (OnlyRegs [] s) :=
  completes_runTeam (op := State.changeSwitch) hd (onlyRegs_ran_of_fixed (changeSwitch_idle (s := silenced s) h))

theorem planChangeTxSwitch_switches {c : PlanChange} (hc : (s.team (s.teamBase d)).change = some c) (h : c.switched = false) :
    Completes (.planChangeTxSwitch d) s fun t =>
      (t.team (s.teamBase d)).change = some { c with switched := true } ∧ t.txEpoch (s.teamBase d) = c.epoch % 2 ^ 32 ∧
      (t.team (s.teamBase d)).openAt = some t.time.mf := by
  obtain ⟨u, hrun⟩ := changeSwitch_due (s := silenced s) hc h
  refine completes_runTeam (op := State.changeSwitch) hd ⟨?_, ?_, ?_⟩
  · rw [team_ran, hrun, switchedTo_team]
  · rw [State.txEpoch, rd_ran_plain _ _ rfl (by decide), hrun]
    exact rd_switchedTo ..
  · rw [team_ran, hrun, switchedTo_team, ran_time]
    exact congrArg (fun x : Time => some x.mf) ((congrArg State.time hrun).trans (switchedTo_time ..)).symm

theorem rejoinStart_fixed (h : (silenced s).startRejoin d = silenced s) : Completes (.rejoinStart d) s (OnlyRegs [] s) :=
  completes_runDie s hd (onlyRegs_ran_of_fixed h)

theorem rejoinStart_alone (h : s.rejoinReady d = true) (hsize : s.teamSize d = 1) :
    Completes (.rejoinStart d) s fun t =>
      t.memberState d = 1 ∧ (t.team d).rebase = true ∧ (t.team d).rejoin = (if (s.die d).unparked then [] else [(d : Nat)]) ∧
      t.die d = { s.die d with rejoinReq := false, unparked := false } := by
  have hrun := startRejoin_alone (s := silenced s) h hsize
  have hteam : (ran s fun u => u.startRejoin d).team d = { (((silenced s).setMember d 1).team d) with
      rebase := true, rejoin := if (s.die d).unparked then [] else [(d : Nat)] } := by
    rw [team_ran, hrun]
    exact modTeam_team ((silenced s).setMember d 1) d fun x =>
      { x with rebase := true, rejoin := if (s.die d).unparked then [] else [(d : Nat)] }
  refine completes_runDie s hd (f := fun u => u.startRejoin d) ⟨?_, ?_, ?_, ?_⟩
  · rw [State.memberState, rd_ran_plain _ _ rfl (by decide), hrun]
    exact setMember_memberState d.isLt (by omega) (silenced s)
  · rw [hteam]
  · rw [hteam]
  · rw [die_ran, hrun]
    exact modDie_die _ d.val fun x => { x with rejoinReq := false, unparked := false }

end

/-- Settles O58, row by row of the plan changes: each row's command runs its operation, whose cases the lemmas above state. -/
theorem planChanges : Obligations.PlanChanges := by
  intro s d hd
  refine ⟨acceptorGoDeadline_idle hd, acceptorGoDeadline_confirmed hd,
    fun hmine hc hn => ⟨acceptorGoDeadline_waits hd hmine hc hn, fun e => acceptorGoDeadline_aborts hd hmine hc hn⟩,
    ⟨rxPlanSwitch_idle hd, rxPlanSwitch_shows_unknown hd, fun p => rxPlanSwitch_takes hd⟩,
    planDisagreement_idle hd, planDisagreement_reverts hd,
    fun hnone => handshakeTimeout_fixed hd (handshakeTimeout_none hnone),
    fun m hat => ⟨fun hearly => handshakeTimeout_fixed hd (handshakeTimeout_early hat hearly), handshakeTimeout_closes hd hat⟩,
    absenceChangeStart_idle hd, fun e he hdue hopen hchange => ?_,
    planChangeTxSwitch_idle hd, fun c => planChangeTxSwitch_switches hd,
    fun hready => rejoinStart_fixed hd (startRejoin_unready hready), rejoinStart_alone hd,
    fun hready hsize hopen => rejoinStart_fixed hd (startRejoin_waiting hready hsize hopen)⟩
  obtain ⟨t, ht, htaken, hstate, m, hm, hc⟩ := absenceChangeStart_starts hd he hdue hopen hchange
  exact ⟨t, ht, htaken, hstate, m, goneMask s (s.teamBase d), hm, hc, fun g hg => testBit_sumBits _ hg⟩

end Sys2Proof.Laws
end

section
/-! SUPPORT. PROOFS. Every step keeps the interrupt tree up to date (O4). -/
namespace Sys2Proof.Laws
open Sys2Proof Sys2Proof.Machine

/-- A command's next state is settled, whatever the state it ran on. -/
theorem settled_of_exec {c : Instr} {s t : State} (h : exec c s = .next t) : Settled t := by
  obtain ⟨f, hf⟩ := exec_eq_run c s
  rw [hf, run_next] at h
  obtain rfl := Host.Outcome.next.inj h
  exact settled_ran s f

/-- Settles O4: a step idles or runs one command, and a command ends with the tree brought up to date. -/
theorem stepsKeepTreeSettled : Obligations.StepsKeepTreeSettled := by
  intro s t hs hstep
  cases hp : s.pending with
  | nil =>
    simp only [step, hp] at hstep
    exact Host.Outcome.next.inj hstep ▸ hs
  | cons c rest =>
    simp only [step, hp] at hstep
    exact settled_of_exec hstep

end Sys2Proof.Laws
end

section
/-! SUPPORT. PROOFS. A write over a remote path that is closed (O10). -/
namespace Sys2Proof.Laws
open Sys2Proof Sys2Proof.Machine

theorem completes_pathWrite {p : Path} {s : State} {addr data : Word} {P : State → Prop}
    (h : P (ran s fun u => u.access (.path p) addr.toNat (some data.toNat))) :
    Completes (.registerWrite (.path p) addr data) s P := ⟨_, rfl, h⟩

/-- Outside package root state an endpoint in service serves every path. -/
theorem pathServed_service {s : State} (hs : Serves s) (hroot : s.rootState = false) (p : Path) : s.pathServed p = some true := by
  cases p <;> simp [State.pathServed, hs.1, hroot]

/-- An aligned write over a path that denies it records DENIED and is not executed (R63). -/
theorem access_denied {s : State} (hs : Serves s) (hroot : s.rootState = false) {a : Nat} (h4 : a % 4 = 0) {p : Path}
    (hden : s.pathDenies p a = true) (v : Nat) :
    s.access (.path p) a (some v) = ((s.begin a).pkgAddrErr PKG_ADDR_ERR_DENIED a).respond 8 := by
  have hroot' : (s.begin a).rootState = false := hroot
  have hden' : (s.begin a).pathDenies p a = true := hden
  simp [State.access, pathServed_service hs hroot, State.pathAccess, h4, hden', hroot']

/-- A command whose write is denied answers DENIED, and records it with the captured address alone. -/
theorem completes_denied {s : State} (hs : Serves s) (hroot : s.rootState = false) {addr : Word} (h4 : addr.toNat % 4 = 0)
    {p : Path} (hden : s.pathDenies p addr.toNat = true) (data : Word) :
    Completes (.registerWrite (.path p) addr data) s fun t =>
      t.bus.last = { code := 8, addr := addr.toNat } ∧ t.rd PKG_ADDR_ERR_DENIED pkg = 1 ∧
        t = { s with regs := t.regs, bus := t.bus, out := t.out } ∧
          KeepsRegs [PKG_ADDR_ERR_DENIED, PKG_ADDR_ERR_ADDR_ADDRESS] s t := by
  have hw := access_denied (s := silenced s) hs hroot h4 hden data.toNat
  have h : Answered [PKG_ADDR_ERR_DENIED, PKG_ADDR_ERR_ADDR_ADDRESS] { code := 8, addr := addr.toNat } (silenced s)
      ((silenced s).access (.path p) addr.toNat (some data.toNat)) :=
    hw ▸ ((answered_begin _ _ _).pkgAddrErr (by simp) (by simp) _).respond 8 0
  obtain ⟨hlast, hrest, hkeep⟩ := h.ran (f := fun u => u.access (.path p) addr.toNat (some data.toNat))
  refine completes_pathWrite ⟨hlast, ?_, hrest, hkeep⟩
  rw [rd_ran_plain _ _ rfl (by decide), hw, respond_rd, rd_pkgAddrErr _ rfl]

/-- Settles O10: a path whose write enable is 0 denies every write. -/
theorem closedPathDeniesWrites : Obligations.ClosedPathDeniesWrites := by
  intro s addr data hs hroot h4
  exact ⟨fun hclosed => completes_denied hs hroot h4 (by simp [State.pathDenies, State.flag, hclosed]) data,
    fun hclosed => completes_denied hs hroot h4 (by simp [State.pathDenies, State.flag, hclosed]) data⟩

end Sys2Proof.Laws
end

section
/-! SUPPORT. PROOFS. SPI frames, and accesses forwarded over the ring (O30). -/
namespace Sys2Proof.Laws
open Sys2Proof Sys2Proof.Machine

/-- What a run shows of an operation that leaves every register but some fields. -/
theorem keepsRegs_ran {fs : List Fld} {s : State} {f : State → State} (hp : (f (silenced s)).part = s.part)
    (h : ∀ (g : Fld) (e j : Nat), place g ∉ fs.map place → (f (silenced s)).rd g e j = s.rd g e j) :
    KeepsRegs fs s (ran s f) := fun g e j hg hs => (rd_ran hp hs e j).trans (h g e j hg)

/-- The state during a frame: MISO carries what it must. -/
def shifting (s : State) : State := { s with bus := { s.bus with miso := s.misoNow } }

/-- The state after a frame that reports `r`. -/
def reporting (s : State) (r : Resp) : State := { s with bus := { s.bus with miso := s.misoNow, prev := r } }

/-! ### Frames that execute nothing -/

section
variable {s : State} (he : s.crown.endpoint = .service) (hrun : s.bus.running = none)
include he hrun

theorem spiIdle_service (r : Resp) : s.spiIdle r = reporting s r := by
  simp [State.spiIdle, he, hrun, State.report, reporting]

theorem spiFrame_crc {mosi : List Bool} (hl : mosi.length = 80)
    (hc : crc8 (bytesBE 9 (State.bitsBE mosi / 256)) ≠ State.bitsBE mosi % 256) :
    s.spiFrame mosi = reporting s { code := 3, addr := bitsAt (State.bitsBE mosi) 40 32 } := by
  simp [State.spiFrame, State.spiParse, hl, hc, spiIdle_service he hrun, bitsAt]

theorem spiFrame_opcode {mosi : List Bool} (hl : mosi.length = 80)
    (hc : crc8 (bytesBE 9 (State.bitsBE mosi / 256)) = State.bitsBE mosi % 256)
    (ho : 2 < bitsAt (State.bitsBE mosi) 72 8) :
    s.spiFrame mosi = reporting s { code := 5, addr := bitsAt (State.bitsBE mosi) 40 32 } := by
  have hparse : State.spiParse mosi = .inl (.opcode (Fin.ofNat 256 (bitsAt (State.bitsBE mosi) 72 8))
      (BitVec.ofNat 32 (bitsAt (State.bitsBE mosi) 40 32))) := by
    simp [State.spiParse, hl, hc, ho]
  simp [State.spiFrame, hparse, spiIdle_service he hrun, bitsAt]

/-- After a frame of another length the address echoed is a free value. -/
theorem spiFrame_length {mosi : List Bool} (hl : mosi.length ≠ 80) :
    ∃ a, s.spiFrame mosi = { reporting s { code := 6, addr := a } with fresh := s.fresh + 1 } := by
  refine ⟨(s.free 32).1, ?_⟩
  have hparse : State.spiParse mosi = .inl .length := if_pos hl
  rw [State.spiFrame, hparse]
  exact spiIdle_service (s := (s.free 32).2) he hrun _

end

/-- A run of a frame that executes nothing. -/
theorem reporting_ran {s : State} {f : State → State} {r : Resp} (h : f (silenced s) = reporting (silenced s) r) :
    (ran s f).bus = { s.bus with miso := s.misoNow, prev := r } ∧
      ran s f = { s with regs := (ran s f).regs, bus := (ran s f).bus, out := (ran s f).out } ∧ KeepsRegs [] s (ran s f) := by
  refine ⟨(ran_bus s f).trans (congrArg State.bus h), ?_, keepsRegs_ran (by rw [h]; rfl) fun g e j _ => by rw [h]; rfl⟩
  rw [ran_eq, settle_eq, h]
  rfl

/-! ### Accesses in the crown's own window -/

section
variable {fs : List Fld} {r : Resp} {s t : State}

theorem Answered.of_bus {b : BusSt} (h : Answered fs r { s with bus := b } t) : Answered fs r s t := ⟨h.rest, h.rd, h.last⟩

theorem Answered.report (h : Answered fs r s t) (x : Resp) : Answered fs r s (t.report x) where
  rest := by rw [h.rest]; rfl
  rd := h.rd
  last := h.last

theorem forwardTo_own {d : Nat} {addr : Word} {blk off : Nat} (hd : s.crown.token = some d) (hb : blk < 26)
    (ho : off < 0x40000) (hr : Reaches s d blk off addr) : s.forwardTo addr.toNat = none := by
  obtain ⟨hlt, -, ha⟩ := hr
  have hreg : regionOf s.part.dies addr.toNat = .die d (blk * 0x40000 + off) :=
    regionOf_die (dies_le s.part) hlt (by omega) (by omega)
  simp [State.forwardTo, hreg, hd]

/-- An access that is not forwarded is executed during its frame, and the next frame reports its answer (R58). -/
theorem spiAccess_own (he : s.crown.endpoint = .service) (hrun : s.bus.running = none) {addr : Word} {w : Option Nat}
    (hfwd : s.forwardTo addr.toNat = none) (h : Answered fs r (shifting s) (spiAccess addr w (shifting s))) :
    s.spiAccess addr.toNat w = (spiAccess addr w (shifting s)).report r := by
  have hpath : (shifting s).pathAccess .spi addr.toNat w = spiAccess addr w (shifting s) := by
    simp [spiAccess, State.access, State.pathServed, show (shifting s).crown.endpoint = .service from he]
  have hend : (spiAccess addr w (shifting s)).crown.endpoint = .service := by rw [h.rest]; exact he
  have hfwd' : (shifting s).forwardTo addr.toNat = none := hfwd
  have hif : (s.crown.endpoint != .service || s.bus.running.isSome) = false := by simp [he, hrun]
  unfold State.spiAccess
  rw [hif]
  change (match (shifting s).forwardTo addr.toNat with
    | none => if ((shifting s).pathAccess .spi addr.toNat w).crown.endpoint = Endpoint.off then _
      else ((shifting s).pathAccess .spi addr.toNat w).report ((shifting s).pathAccess .spi addr.toNat w).bus.last
    | some d => _) = _
  rw [hfwd', hpath]
  dsimp only
  rw [if_neg (by rw [hend]; decide), h.last]

/-- A run of an access in the crown's own window. -/
theorem spiAccess_own_ran {f : State → State} {addr : Word} {w : Option Nat}
    (hop : f (silenced s) = (spiAccess addr w (shifting (silenced s))).report r)
    (h : Answered fs r (shifting (silenced s)) (spiAccess addr w (shifting (silenced s)))) :
    (ran s f).bus.prev = r ∧
      (∀ g, place g ∉ summaryPlaces → ∀ e j, (ran s f).rd g e j = (spiAccess addr w (shifting (silenced s))).rd g e j) ∧
      ran s f = { s with regs := (ran s f).regs, bus := (ran s f).bus, out := (ran s f).out } ∧ KeepsRegs fs s (ran s f) := by
  have hans : Answered fs r (silenced s) (f (silenced s)) := hop ▸ h.of_bus.report r
  obtain ⟨-, hrest, hkeep⟩ := hans.ran
  refine ⟨?_, fun g hg e j => ?_, hrest, hkeep⟩
  · rw [ran_bus]
    exact congrArg (fun u : State => u.bus.prev) hop
  · rw [rd_ran hans.part hg, hop]
    rfl

end

/-! ### Accesses that are forwarded -/

/-- The ring access that a frame starts. -/
def startedAccess (d a : Nat) (w : Option Nat) : RingAccess :=
  { path := .spi, die := d, write := w.isSome, addr := a, data := w.getD 0, done := none }

/-- The bus while the access that a frame started runs. -/
def startedBus (s : State) (d a : Nat) (w : Option Nat) : BusSt :=
  { s.bus with miso := s.misoNow, running := some (startedAccess d a w) }

theorem spiAccess_forwarded {s : State} {d a : Nat} (he : s.crown.endpoint = .service) (hrun : s.bus.running = none)
    (hfwd : s.forwardTo a = some d) (w : Option Nat) :
    s.spiAccess a w = { s.ringMsg 5 (s.crown.token.getD 0) d with bus := startedBus s d a w } := by
  have hfwd' : (shifting s).forwardTo a = some d := hfwd
  have hif : (s.crown.endpoint != .service || s.bus.running.isSome) = false := by simp [he, hrun]
  unfold State.spiAccess
  rw [hif]
  change (match (shifting s).forwardTo a with | none => _ | some d => _) = _
  rw [hfwd']
  rfl

/-- A run of an access that goes to another die. -/
theorem startedAccess_ran {s : State} {f : State → State} {b : BusSt} {o : List Output}
    (h : f (silenced s) = { silenced s with bus := b, fresh := s.fresh + 1, out := o }) :
    (ran s f).bus = b ∧
      ran s f = { s with regs := (ran s f).regs, bus := (ran s f).bus, fresh := s.fresh + 1, out := (ran s f).out } ∧
        KeepsRegs [] s (ran s f) := by
  refine ⟨(ran_bus s f).trans (congrArg State.bus h), ?_, keepsRegs_ran (by rw [h]; rfl) fun g e j _ => by rw [h]; rfl⟩
  rw [ran_eq, settle_eq, h]
  rfl

/-! ### The end of a forwarded access -/

/-- The bus once its access completed with a result. -/
def completedBus (b : BusSt) (r : Resp) : BusSt := { b with running := none, prev := r, last := r }

theorem complete_noneWaiting {s : State} (h : s.bus.waiting = []) (r : Resp) :
    s.complete r = { s with bus := completedBus s.bus r } := by
  have hb : (completedBus s.bus r).waiting = [] := h
  change ({ s with bus := { completedBus s.bus r with waiting := [] } } : State).forEach (completedBus s.bus r).waiting
    State.serveMessage = _
  have hsame : ({ completedBus s.bus r with waiting := [] } : BusSt) = completedBus s.bus r := by rw [← hb]
  rw [hb, hsame]
  rfl

theorem answered_pkgAddrErr (s : State) (f : Fld) (a : Nat) :
    Answered [f, PKG_ADDR_ERR_ADDR_ADDRESS] s.bus.last s (s.pkgAddrErr f a) :=
  Answered.pkgAddrErr ⟨rfl, fun _ _ _ _ => rfl, rfl⟩ (by simp) (by simp) a

@[simp] theorem pkgAddrErr_bus (s : State) (f : Fld) (a : Nat) : (s.pkgAddrErr f a).bus = s.bus := by
  unfold State.pkgAddrErr
  dsimp only
  split <;> rfl

/-- What the crown does when a forwarded access times out (R59). -/
def timeOutForwarded (s : State) : State :=
  match s.bus.running with
  | some a => (s.pkgAddrErr PKG_ADDR_ERR_TIMEOUT a.addr).complete { code := 2, addr := a.addr }
  | none => s

/-- What the crown does with a target's response (R48). -/
def takeResponse (s : State) : State :=
  match s.bus.running with
  | some a =>
    match a.done with
    | some r => s.complete r
    | none => s
  | none => s

theorem accessTimeout_ran {s : State} {f : State → State} {a : Nat} {r : Resp}
    (hf : f (silenced s) = { (silenced s).pkgAddrErr PKG_ADDR_ERR_TIMEOUT a with bus := completedBus s.bus r }) :
    (ran s f).bus = completedBus s.bus r ∧ (ran s f).rd PKG_ADDR_ERR_TIMEOUT pkg = 1 ∧
      ran s f = { s with regs := (ran s f).regs, bus := (ran s f).bus, out := (ran s f).out } ∧
      KeepsRegs [PKG_ADDR_ERR_TIMEOUT, PKG_ADDR_ERR_ADDR_ADDRESS] s (ran s f) := by
  have h := answered_pkgAddrErr (silenced s) PKG_ADDR_ERR_TIMEOUT a
  have hpart : (f (silenced s)).part = s.part := by rw [hf]; exact h.part
  refine ⟨(ran_bus s f).trans (congrArg State.bus hf), ?_, ?_, keepsRegs_ran hpart fun g e j hg => ?_⟩
  · rw [rd_ran hpart (by decide), hf]
    exact rd_pkgAddrErr _ rfl _
  · rw [ran_eq, settle_eq, hf, h.rest]
    rfl
  · rw [hf]
    exact h.rd g e j hg

theorem regRsp_ran {s : State} {f : State → State} {r : Resp}
    (hf : f (silenced s) = { silenced s with bus := completedBus s.bus r }) :
    (ran s f).bus = completedBus s.bus r ∧
      ran s f = { s with regs := (ran s f).regs, bus := (ran s f).bus, out := (ran s f).out } ∧ KeepsRegs [] s (ran s f) := by
  refine ⟨(ran_bus s f).trans (congrArg State.bus hf), ?_, keepsRegs_ran (by rw [hf]; rfl) fun g e j _ => by rw [hf]; rfl⟩
  rw [ran_eq, settle_eq, hf]
  rfl

/-- The target's read of its counter, before the result is held. -/
theorem accessAt_calRejects {s : State} {d : Nat} {addr : Word} (hs : Serves s) (hr : Reaches s d 3 0x10 addr) :
    (s.begin addr.toNat).accessAt .host addr.toNat none =
      ((s.begin addr.toNat).respond 0 (s.rd CAL_REJECTS_COUNT d)).wr CAL_REJECTS_COUNT d 0 :=
  (access_serves hs addr.toNat none).symm.trans (read_calRejects hs hr)

/-- A forwarded access whose target holds its result. -/
def heldAccess (a : RingAccess) (r : Resp) : RingAccess := { a with done := some r }

/-- The bus while the target of a forwarded access holds its result. -/
def heldBus (b : BusSt) (a : RingAccess) (r : Resp) : BusSt := { b with running := some (heldAccess a r) }

/-- What the target does with a forwarded access: it executes it and sends its result. -/
def serveForwarded (s : State) : State :=
  match s.bus.running with
  | some a =>
    if a.done.isSome then s
    else
      let last := s.bus.last
      let t := (s.begin a.addr).accessAt .host a.addr (if a.write then some a.data else none)
      let r := t.bus.last
      let t := { t with bus := { t.bus with last := last } }
      match t.bus.running with
      | some b => ({ t with bus := { t.bus with running := some { b with done := some r } } }).ringMsg 6 a.die
          (t.crown.token.getD 0)
      | none => t
  | none => s

theorem serveForwarded_calRejects {s : State} {a : RingAccess} {addr : Word} (hs : Serves s) (hrun : s.bus.running = some a)
    (hdone : a.done = none) (hread : a.write = false) (ha : a.addr = addr.toNat) (hr : Reaches s a.die 3 0x10 addr) :
    serveForwarded s =
      { (s.wr CAL_REJECTS_COUNT a.die 0).ringMsg 6 a.die (s.crown.token.getD 0) with
        bus := heldBus s.bus a { addr := a.addr, data := s.rd CAL_REJECTS_COUNT a.die } } := by
  have hacc := accessAt_calRejects hs hr
  simp only [serveForwarded, hrun, hdone, hread, ha, hacc, Option.isSome_none, Bool.false_eq_true, if_false]
  have hb : (((s.begin addr.toNat).respond 0 (s.rd CAL_REJECTS_COUNT a.die)).wr CAL_REJECTS_COUNT a.die 0).bus.running = some a :=
    hrun
  rw [hb]
  rfl

theorem serveForwarded_ran {s : State} {f : State → State} {b : BusSt} {d src dst : Nat}
    (hf : f (silenced s) = { ((silenced s).wr CAL_REJECTS_COUNT d 0).ringMsg 6 src dst with bus := b }) :
    (ran s f).bus = b ∧ (ran s f).rd CAL_REJECTS_COUNT d = 0 ∧
      ran s f = { s with regs := (ran s f).regs, bus := (ran s f).bus, fresh := s.fresh + 1, out := (ran s f).out } ∧
        KeepsRegs [CAL_REJECTS_COUNT] s (ran s f) := by
  have hpart : (f (silenced s)).part = s.part := by rw [hf]; rfl
  refine ⟨(ran_bus s f).trans (congrArg State.bus hf), ?_, ?_, keepsRegs_ran hpart fun g e j hg => ?_⟩
  · rw [rd_ran hpart (by decide), hf]
    exact rd_wr_same (silenced s) CAL_REJECTS_COUNT d 0 0
  · rw [ran_eq, settle_eq, hf]
    rfl
  · rw [hf]
    exact rd_wr_other (silenced s) (by simpa using hg) ..

/-! ### The three parts -/

section
variable {s : State} {a : RingAccess} (hrun : s.bus.running = some a)
include hrun

theorem accessTimeout_completes (hw : s.bus.waiting = []) :
    Completes .accessTimeout s fun t =>
      t.bus.running = none ∧ t.bus.prev = { code := 2, addr := a.addr } ∧ t.rd PKG_ADDR_ERR_TIMEOUT pkg = 1 ∧
        t = { s with regs := t.regs, bus := t.bus, out := t.out } ∧
        KeepsRegs [PKG_ADDR_ERR_TIMEOUT, PKG_ADDR_ERR_ADDR_ADDRESS] s t := by
  have hf : timeOutForwarded (silenced s) =
      ((silenced s).pkgAddrErr PKG_ADDR_ERR_TIMEOUT a.addr).complete { code := 2, addr := a.addr } := by
    rw [timeOutForwarded, show (silenced s).bus.running = some a from hrun]
  rw [complete_noneWaiting (by rw [pkgAddrErr_bus]; exact hw), pkgAddrErr_bus] at hf
  obtain ⟨hbus, hshow⟩ := accessTimeout_ran hf
  exact ⟨ran s timeOutForwarded, rfl, by rw [hbus]; rfl, by rw [hbus]; rfl, hshow⟩

theorem regRsp_completes (hw : s.bus.waiting = []) {r : Resp} (hdone : a.done = some r) :
    Completes .regRsp s fun t => t.bus = { s.bus with running := none, prev := r, last := r } ∧
      t = { s with regs := t.regs, bus := t.bus, out := t.out } ∧ KeepsRegs [] s t := by
  have hf : takeResponse (silenced s) = (silenced s).complete r := by
    simp only [takeResponse, show (silenced s).bus.running = some a from hrun, hdone]
  exact ⟨ran s takeResponse, rfl, regRsp_ran (hf.trans (complete_noneWaiting (s := silenced s) hw r))⟩

theorem regReq_completes {addr : Word} (hs : Serves s) (hdone : a.done = none) (hread : a.write = false)
    (ha : a.addr = addr.toNat) (hr : Reaches s a.die 3 0x10 addr) :
    Completes .regReq s fun t =>
      t.bus.running = some { a with done := some { addr := a.addr, data := s.rd CAL_REJECTS_COUNT a.die } } ∧
        t.rd CAL_REJECTS_COUNT a.die = 0 ∧ t.bus.last = s.bus.last ∧
        t = { s with regs := t.regs, bus := t.bus, fresh := s.fresh + 1, out := t.out } ∧
        KeepsRegs [CAL_REJECTS_COUNT] s t := by
  obtain ⟨hbus, hcount, hshow⟩ := serveForwarded_ran (f := serveForwarded)
    (serveForwarded_calRejects (s := silenced s) hs hrun hdone hread ha hr)
  exact ⟨ran s serveForwarded, rfl, by rw [hbus]; rfl, hcount, by rw [hbus]; rfl, hshow⟩

end

section
variable {s : State} (he : s.crown.endpoint = .service) (hrun : s.bus.running = none)
include he hrun

theorem spiFrame_length_completes {mosi : List Bool} (hl : mosi.length ≠ 80) :
    Completes (.spiFrameInvalid mosi) s fun t =>
      (∃ a, t.bus = { s.bus with miso := s.misoNow, prev := { code := 6, addr := a } }) ∧
      t = { s with regs := t.regs, bus := t.bus, fresh := s.fresh + 1, out := t.out } ∧ KeepsRegs [] s t := by
  obtain ⟨f, hexec, a, hf⟩ : ∃ f, exec (.spiFrameInvalid mosi) s = .next (ran s f) ∧ ∃ a, f (silenced s) =
      { reporting (silenced s) { code := 6, addr := a } with fresh := s.fresh + 1 } :=
    ⟨fun u => u.spiFrame mosi, rfl, spiFrame_length (s := silenced s) he hrun hl⟩
  refine ⟨_, hexec, ⟨a, (ran_bus s f).trans (congrArg State.bus hf)⟩, ?_,
    keepsRegs_ran (by rw [hf]; rfl) fun g e j _ => by rw [hf]; rfl⟩
  rw [ran_eq, settle_eq, hf]
  rfl

theorem spiRead_own_completes {d : Nat} {addr : Word} (hd : s.crown.token = some d) (hr : Reaches s d 3 0x10 addr) :
    Completes (.spiRead addr) s fun t =>
      t.bus.prev = { addr := addr.toNat, data := s.rd CAL_REJECTS_COUNT d } ∧ t.rd CAL_REJECTS_COUNT d = 0 ∧
        t = { s with regs := t.regs, bus := t.bus, out := t.out } ∧ KeepsRegs [CAL_REJECTS_COUNT] s t := by
  have hs : Serves (shifting (silenced s)) := ⟨he, Option.isSome_iff_exists.mpr ⟨d, hd⟩⟩
  have hop := read_calRejects (s := shifting (silenced s)) hs hr
  have h : Answered [CAL_REJECTS_COUNT] { addr := addr.toNat, data := s.rd CAL_REJECTS_COUNT d } (shifting (silenced s))
      (spiAccess addr none (shifting (silenced s))) := hop ▸ ((answered_begin _ _ _).respond 0 _).wr (by simp) d 0 0
  obtain ⟨hprev, hrd, hshow⟩ := spiAccess_own_ran (f := fun u => u.spiAccess addr.toNat none)
    (spiAccess_own (s := silenced s) he hrun (forwardTo_own (s := silenced s) hd (by decide) (by decide) hr) h) h
  refine ⟨_, rfl, hprev, ?_, hshow⟩
  exact (hrd CAL_REJECTS_COUNT (by decide) d 0).trans (by rw [hop, rd_wr_same]; rfl)

theorem spiWrite_own_completes {d : Nat} {addr : Word} (hd : s.crown.token = some d) (hr : Reaches s d 4 0x34 addr)
    (data : Word) :
    Completes (.spiWrite addr data) s fun t =>
      t.bus.prev = { addr := addr.toNat } ∧ t.rd RXD_Q_CTRL_AVG d = clamp 1 255 (data.toNat % 256) ∧
        t = { s with regs := t.regs, bus := t.bus, out := t.out } ∧ KeepsRegs [RXD_Q_CTRL_AVG, RXD_Q_CTRL_SNR_TR] s t := by
  have hs : Serves (shifting (silenced s)) := ⟨he, Option.isSome_iff_exists.mpr ⟨d, hd⟩⟩
  have hop := write_rxdQCtrl (s := shifting (silenced s)) hs hr data.toNat
  have h : Answered [RXD_Q_CTRL_AVG, RXD_Q_CTRL_SNR_TR] { addr := addr.toNat } (shifting (silenced s))
      (spiAccess addr (some data.toNat) (shifting (silenced s))) :=
    hop ▸ ((answered_begin _ _ _).respond 0 0).storeFlds _ (by decide) d 0 _
  obtain ⟨hprev, hrd, hshow⟩ := spiAccess_own_ran (f := fun u => u.spiAccess addr.toNat (some data.toNat))
    (spiAccess_own (s := silenced s) he hrun (forwardTo_own (s := silenced s) hd (by decide) (by decide) hr) h) h
  refine ⟨_, rfl, hprev, ?_, hshow⟩
  exact (hrd RXD_Q_CTRL_AVG (by decide) d 0).trans (by rw [hop, rd_storeFlds_avg])

end

/-- Settles O30: what a frame executes, what the next one reports, and how a forwarded access ends. -/
theorem spiFrames : Obligations.SpiFrames := by
  refine ⟨fun s he hrun => ⟨fun addr => ?_, fun mosi hl => ⟨fun hc => ?_, fun hc ho => ?_⟩,
      fun mosi hl => spiFrame_length_completes he hrun hl⟩,
    fun s d addr data he hd hrun => ⟨spiRead_own_completes he hrun hd, fun hr => spiWrite_own_completes he hrun hd hr data⟩,
    fun s d addr data he hrun hfwd => ⟨?_, ?_⟩,
    fun s a hrun hw => ⟨accessTimeout_completes hrun hw, fun r hdone => regRsp_completes hrun hw hdone,
      fun addr hs hdone hread ha hr => regReq_completes hrun hs hdone hread ha hr⟩⟩
  · exact ⟨_, rfl, reporting_ran (f := fun u => u.spiIdle { addr := addr.toNat })
      (spiIdle_service (s := silenced s) he hrun _)⟩
  · exact ⟨_, rfl, reporting_ran (f := fun u => u.spiFrame mosi) (spiFrame_crc (s := silenced s) he hrun hl hc)⟩
  · exact ⟨_, rfl, reporting_ran (f := fun u => u.spiFrame mosi) (spiFrame_opcode (s := silenced s) he hrun hl hc ho)⟩
  · exact ⟨_, rfl, startedAccess_ran (f := fun u => u.spiAccess addr.toNat none)
      (spiAccess_forwarded (s := silenced s) he hrun hfwd none)⟩
  · exact ⟨_, rfl, startedAccess_ran (f := fun u => u.spiAccess addr.toNat (some data.toNat))
      (spiAccess_forwarded (s := silenced s) he hrun hfwd (some data.toNat))⟩

end Sys2Proof.Laws
end

section
/-! SUPPORT. PROOFS. Management messages, over the remote paths and as packets of the pair line (O31). -/
namespace Sys2Proof.Laws
open Sys2Proof Sys2Proof.Machine

/-! ### Messages whose records are all NOP -/

/-- The results of NOP records. -/
def nopResults (recs : List MgmtRec) : List Resp := recs.map fun r => { addr := r.addr }

/-- Only the record of the access in hand differs. -/
def AnswersOnly (s t : State) : Prop := ∃ r, t = { s with bus := { s.bus with last := r } }

theorem AnswersOnly.trans {s t u : State} (h : AnswersOnly s t) (h' : AnswersOnly t u) : AnswersOnly s u := by
  obtain ⟨r, rfl⟩ := h
  obtain ⟨r', rfl⟩ := h'
  exact ⟨r', rfl⟩

theorem answersOnly_respond (s : State) (a : Nat) : AnswersOnly s ((s.begin a).respond 0) := ⟨_, rfl⟩

theorem runRecord_nop (s : State) (p : Path) {r : MgmtRec} (h : r.op = 0) (silent : Nat) :
    s.runRecord p r silent = (s.begin r.addr).respond 0 := by
  simp [State.runRecord, h]

/-- One record of a message after the results of those before it (R62, R64). -/
def recordStep (p : Path) (stop : Bool) (silent : Nat) (a : State × List Resp) (r : MgmtRec) : State × List Resp :=
  if stop && a.2.any fun x => x.code != 0 then (a.1, a.2 ++ [{ code := codeSkipped, addr := r.addr }])
  else if a.1.crown.endpoint != .service then (a.1, a.2 ++ [{ code := 2, addr := r.addr }])
  else
    let t := a.1.runRecord p r silent
    (t, a.2 ++ [t.bus.last])

/-- While the endpoint is in service and no record failed, a NOP record answers OK. -/
theorem recordStep_nop {p : Path} {stop : Bool} {silent : Nat} {a : State × List Resp} {r : MgmtRec} (hr : r.op = 0)
    (he : a.1.crown.endpoint = .service) (hok : ∀ x ∈ a.2, x.code = 0) :
    recordStep p stop silent a r = ((a.1.begin r.addr).respond 0, a.2 ++ [{ addr := r.addr }]) := by
  have hany : (a.2.any fun x => x.code != 0) = false := List.any_eq_false.mpr fun x hx => by simp [hok x hx]
  simp only [recordStep, hany, Bool.and_false, Bool.false_eq_true, if_false, he, runRecord_nop _ _ hr]
  rfl

theorem recordSteps_nop (p : Path) (stop : Bool) (silent : Nat) (recs : List MgmtRec) (hr : ∀ r ∈ recs, r.op = 0)
    (a : State × List Resp) (he : a.1.crown.endpoint = .service) (hok : ∀ x ∈ a.2, x.code = 0) :
    ∃ t, recs.foldl (recordStep p stop silent) a = (t, a.2 ++ nopResults recs) ∧ AnswersOnly a.1 t := by
  induction recs generalizing a with
  | nil => exact ⟨a.1, by simp [nopResults], _, rfl⟩
  | cons r recs ih =>
    rw [List.foldl_cons, recordStep_nop (hr r (by simp)) he hok]
    obtain ⟨t, ht, ha⟩ := ih (fun x hx => hr x (by simp [hx])) ((a.1.begin r.addr).respond 0, a.2 ++ [{ addr := r.addr }]) he
      (by simpa [or_imp, forall_and] using hok)
    exact ⟨t, by rw [ht]; simp [nopResults], (answersOnly_respond a.1 r.addr).trans ha⟩

/-- NOP records answer OK, one result each, and change nothing but the record of the access in hand. -/
theorem runRecords_nop {s : State} (he : s.crown.endpoint = .service) (p : Path) (stop : Bool) {recs : List MgmtRec}
    (hr : ∀ r ∈ recs, r.op = 0) (silent : Nat) :
    ∃ t, s.runRecords p stop recs silent = (t, nopResults recs) ∧ AnswersOnly s t :=
  recordSteps_nop p stop silent recs hr (s, []) he (by simp)

/-- The answer to a message of NOP records. -/
def nopAnswer (m : MgmtMsg) : List Byte := mgmtPack m (nopResults m.recs)

/-- What the endpoint keeps of the answer to a message of NOP records. -/
def nopKept (m : MgmtMsg) : Kept := { seq := m.seq, bytes := nopAnswer m }

/-- From `s` to `t` only the bus differs, where a remote path's answer is kept. -/
def KeepsAnswer (p : RemotePath) (k : Kept) (s t : State) : Prop := ∃ b, t = { s with bus := b } ∧ t.kept p = some k

theorem runMessage_nop {s : State} (he : s.crown.endpoint = .service) (p : RemotePath) {m : MgmtMsg}
    (hr : ∀ r ∈ m.recs, r.op = 0) (silent : Nat) :
    ∃ t, s.runMessage p m silent = (t, some (nopAnswer m)) ∧ KeepsAnswer p (nopKept m) s t := by
  obtain ⟨t, ht, r, rfl⟩ := runRecords_nop he (State.pathOf p) (bit m.flags 1) hr silent
  refine ⟨State.keep { s with bus := { s.bus with last := r } } p (nopKept m), ?_, ?_⟩
  · rw [State.runMessage, ht]
    exact if_pos he
  · cases p <;> exact ⟨_, rfl, rfl⟩

/-! ### A message that reaches the endpoint -/

section
variable {s : State} {p : RemotePath} (hserved : s.pathServed (State.pathOf p) = some true) (hen : s.pathEnabled p = true)
include hserved hen

/-- A well-formed request whose sequence number is not the kept one is executed. -/
theorem message_new {bytes : List Byte} {m : MgmtMsg} (hm : mgmtParse bytes = some m) (hreq : bit m.flags 0 = false)
    (hseq : ∀ k, s.kept p = some k → k.seq ≠ m.seq) (silent : Nat) :
    s.message p bytes silent = s.runMessage p m silent := by
  cases hk : s.kept p with
  | none => simp [State.message, hserved, hen, hm, hreq, hk]
  | some k => simp [State.message, hserved, hen, hm, hreq, hk, hseq k hk]

/-- A request whose sequence number is the kept one is answered with the kept bytes and executes nothing. -/
theorem message_repeated {bytes : List Byte} {m : MgmtMsg} {k : Kept} (hm : mgmtParse bytes = some m)
    (hreq : bit m.flags 0 = false) (hk : s.kept p = some k) (hseq : k.seq = m.seq) (silent : Nat) :
    s.message p bytes silent = (s, some k.bytes) := by
  simp [State.message, hserved, hen, hm, hreq, hk, hseq]

theorem message_malformed {bytes : List Byte} (hm : mgmtParse bytes = none) (silent : Nat) :
    s.message p bytes silent = (s.messageErr PKG_ADDR_ERR_BAD_MSG, none) := by
  simp [State.message, hserved, hen, hm]

end

/-- While no access runs a message is served at once. -/
theorem offerMessage_idle {s : State} (hrun : s.bus.running = none) (m : WaitMsg) : s.offerMessage m = s.serveMessage m := by
  simp [State.offerMessage, hrun]

/-- While an access of another path runs a message waits (R64). -/
theorem offerMessage_busy {s : State} (hrun : s.bus.running.isSome = true) (he : s.crown.endpoint = .service) (m : WaitMsg) :
    s.offerMessage m = { s with bus := { s.bus with waiting := s.bus.waiting ++ [m] } } := by
  simp [State.offerMessage, hrun, he]

/-- The in-band message of some bytes, and the pair line's packet. -/
def inbandMsg (bytes : List Byte) (silent : Nat) : WaitMsg := ⟨.inband, false, bytes, silent⟩
def packetMsg (bytes : List Byte) (silent : Nat) : WaitMsg := ⟨.pairLine, true, bytes, silent⟩

theorem serveMessage_inband {s t : State} {bytes answer : List Byte} {silent : Nat}
    (h : s.message .inband bytes silent = (t, some answer)) :
    s.serveMessage (inbandMsg bytes silent) = t.emit (.response .inband answer) := by
  simp [State.serveMessage, inbandMsg, h]

theorem serveMessage_packet {s t : State} {bytes answer : List Byte} {silent : Nat}
    (h : s.message .pairLine bytes silent = (t, some answer)) :
    s.serveMessage (packetMsg bytes silent) = t.plmSend 1 answer := by
  simp [State.serveMessage, packetMsg, h]

theorem serveMessage_unanswered {s t : State} {bytes : List Byte} {silent : Nat}
    (h : s.message .inband bytes silent = (t, none)) : s.serveMessage (inbandMsg bytes silent) = t := by
  simp [State.serveMessage, inbandMsg, h]

/-! ### Runs -/

/-- The operation of a command that offers an in-band message. -/
def offerInband (bytes : List Byte) (silent : Nat) (s : State) : State := s.offerMessage (inbandMsg bytes silent)

theorem completes_mgmtMessage {s : State} {bytes : List Byte} {silent : BitVec 8} {P : State → Prop}
    (h : P (ran s (offerInband bytes silent.toNat))) : Completes (.mgmtMessage .inband ⟨bytes, silent⟩) s P := ⟨_, rfl, h⟩

/-- Run of an operation that changes the bus and sends some outputs. -/
theorem bus_ran {s : State} {f : State → State} {b : BusSt} {o : List Output}
    (h : f (silenced s) = { silenced s with bus := b, out := o }) :
    (ran s f).out = o ∧ (ran s f).bus = b ∧
      ran s f = { s with regs := (ran s f).regs, bus := (ran s f).bus, out := (ran s f).out } ∧ KeepsRegs [] s (ran s f) := by
  refine ⟨(ran_out s f).trans (congrArg State.out h), (ran_bus s f).trans (congrArg State.bus h), ?_,
    keepsRegs_ran (by rw [h]; rfl) fun g e j _ => by rw [h]; rfl⟩
  rw [ran_eq, settle_eq, h]
  rfl

/-- Run of an operation that sends some outputs and nothing else. -/
theorem out_ran {s : State} {f : State → State} {o : List Output} (h : f (silenced s) = { silenced s with out := o }) :
    (ran s f).out = o ∧ OnlyRegs [] s (ran s f) := by
  refine ⟨(ran_out s f).trans (congrArg State.out h), ?_, keepsRegs_ran (by rw [h]; rfl) fun g e j _ => by rw [h]; rfl⟩
  rw [ran_eq, settle_eq, h]
  rfl

/-- Run of an operation that changes the bus and the pair-line modem and sends some outputs. -/
theorem plm_ran {s : State} {f : State → State} {b : BusSt} {x : PlmSt} {o : List Output}
    (h : f (silenced s) = { silenced s with bus := b, plm := x, out := o }) :
    (ran s f).out = o ∧ (ran s f).bus = b ∧ (ran s f).plm = x ∧
      ran s f = { s with regs := (ran s f).regs, bus := (ran s f).bus, plm := (ran s f).plm, out := (ran s f).out } ∧
        KeepsRegs [] s (ran s f) := by
  refine ⟨(ran_out s f).trans (congrArg State.out h), (ran_bus s f).trans (congrArg State.bus h),
    (ran_plm s f).trans (congrArg State.plm h), ?_, keepsRegs_ran (by rw [h]; rfl) fun g e j _ => by rw [h]; rfl⟩
  rw [ran_eq, settle_eq, h]
  rfl

/-! ### In-band messages -/

section
variable {s : State} {bytes : List Byte} (hs : Serves s) (hrun : s.bus.running = none) (hroot : s.rootState = false)
  (hen : s.rd PKG_MGMT_PATH_CTRL_INBAND_EN pkg = 1)

theorem inband_enabled (hen : s.rd PKG_MGMT_PATH_CTRL_INBAND_EN pkg = 1) : s.pathEnabled .inband = true := by
  simp [State.pathEnabled, State.flag, hen]

include hs hrun hroot hen

theorem inband_new {m : MgmtMsg} (hm : mgmtParse bytes = some m) (hreq : bit m.flags 0 = false)
    (hnop : ∀ r ∈ m.recs, r.op = 0) (hseq : ∀ k, s.bus.keptInband = some k → k.seq ≠ m.seq) :
    Completes (.mgmtMessage .inband ⟨bytes, 0⟩) s fun t =>
      t.out = [.response .inband (nopAnswer m)] ∧ t.bus.keptInband = some (nopKept m) ∧
        t = { s with regs := t.regs, bus := t.bus, out := t.out } ∧ KeepsRegs [] s t := by
  have hmsg := message_new (s := silenced s) (p := .inband) (pathServed_service (s := silenced s) hs hroot .inband)
    (inband_enabled hen) hm hreq hseq 0
  obtain ⟨t, ht, b, rfl, hk⟩ := runMessage_nop (s := silenced s) hs.1 .inband hnop 0
  have hop : offerInband bytes 0 (silenced s) = _ :=
    (offerMessage_idle (s := silenced s) hrun _).trans (serveMessage_inband (hmsg.trans ht))
  obtain ⟨hout, hbus, hshow⟩ := bus_ran (f := offerInband bytes 0) hop
  exact completes_mgmtMessage ⟨hout, (congrArg BusSt.keptInband hbus).trans hk, hshow⟩

theorem inband_repeated {m : MgmtMsg} {k : Kept} (hm : mgmtParse bytes = some m) (hreq : bit m.flags 0 = false)
    (hk : s.bus.keptInband = some k) (hseq : k.seq = m.seq) :
    Completes (.mgmtMessage .inband ⟨bytes, 0⟩) s fun t => t.out = [.response .inband k.bytes] ∧ OnlyRegs [] s t := by
  have hmsg := message_repeated (s := silenced s) (p := .inband) (pathServed_service (s := silenced s) hs hroot .inband)
    (inband_enabled hen) hm hreq hk hseq 0
  have hop : offerInband bytes 0 (silenced s) = _ :=
    (offerMessage_idle (s := silenced s) hrun _).trans (serveMessage_inband hmsg)
  exact completes_mgmtMessage (out_ran (f := offerInband bytes 0) hop)

theorem inband_malformed (hm : mgmtParse bytes = none) :
    Completes (.mgmtMessage .inband ⟨bytes, 0⟩) s fun t =>
      t.out = [] ∧ t.rd PKG_ADDR_ERR_BAD_MSG pkg = 1 ∧ OnlyRegs [PKG_ADDR_ERR_BAD_MSG] s t := by
  have hmsg := message_malformed (s := silenced s) (p := .inband) (pathServed_service (s := silenced s) hs hroot .inband)
    (inband_enabled hen) hm 0
  have herr : (silenced s).messageErr PKG_ADDR_ERR_BAD_MSG = (silenced s).raise PKG_ADDR_ERR_BAD_MSG pkg :=
    if_neg (by rw [show (silenced s).rootState = false from hroot]; decide)
  rw [herr] at hmsg
  have hop : offerInband bytes 0 (silenced s) = _ :=
    (offerMessage_idle (s := silenced s) hrun _).trans (serveMessage_unanswered hmsg)
  refine completes_mgmtMessage ⟨?_, ?_, onlyRegs_ran (hop ▸ (WritesOnly.refl _ _).wr (.of_mem (by simp) _) _ _)⟩
  · exact (ran_out s _).trans (congrArg State.out hop)
  · rw [rd_ran_plain _ _ rfl (by decide)]
    exact (congrArg (fun u : State => u.rd PKG_ADDR_ERR_BAD_MSG pkg) hop).trans (rd_raise_one _ rfl _)

end

/-- A message that finds an access running joins those that wait. -/
theorem inband_waits {s : State} (hs : Serves s) (hrun : s.bus.running.isSome = true) (bytes : List Byte)
    (silent : BitVec 8) :
    Completes (.mgmtMessage .inband ⟨bytes, silent⟩) s fun t =>
      t = { s with
        regs := t.regs, out := []
        bus := { s.bus with waiting := s.bus.waiting ++ [inbandMsg bytes silent.toNat] } } ∧ KeepsRegs [] s t := by
  have hop := offerMessage_busy (s := silenced s) hrun hs.1 (inbandMsg bytes silent.toNat)
  obtain ⟨hout, hbus, hrest, hkeep⟩ := bus_ran (f := offerInband bytes silent.toNat) hop
  rw [hout, hbus] at hrest
  exact completes_mgmtMessage ⟨hrest, hkeep⟩

/-! ### Packets of the pair line -/

/-- The flags of a parsed message are its second byte. -/
theorem mgmtParse_flags {bytes : List Byte} {m : MgmtMsg} (h : mgmtParse bytes = some m) :
    natLE ((bytes.drop 1).take 1) = m.flags := by
  unfold mgmtParse at h
  split at h
  · dsimp only at h
    split at h
    · cases h
      simp [natLE]
    · cases h
  · cases h

/-- The operation of a command that takes a MGMT packet (R405). -/
def takePacket (bytes : List Byte) (silent : Nat) (s : State) : State :=
  if s.flag PLM_CTRL_EXEC pkg && !bit (natLE ((bytes.drop 1).take 1)) 0 then s.offerMessage (packetMsg bytes silent)
  else s.plmHost 1 bytes

theorem packet_new {s : State} {bytes : List Byte} {m : MgmtMsg} (hs : Serves s) (hrun : s.bus.running = none)
    (hen : s.rd PKG_MGMT_PATH_CTRL_PL_EN pkg = 1) (hexec : s.rd PLM_CTRL_EXEC pkg = 1) (hm : mgmtParse bytes = some m)
    (hreq : bit m.flags 0 = false) (hnop : ∀ r ∈ m.recs, r.op = 0) (hseq : ∀ k, s.bus.keptPair = some k → k.seq ≠ m.seq) :
    Completes (.mgmtPacket ⟨bytes, 0⟩) s fun t =>
      t.out = [.plmPacket 1 (nopAnswer m)] ∧ t.bus.keptPair = some (nopKept m) ∧ t.plm = pushPacket s.plm 1 (nopAnswer m) ∧
        t = { s with regs := t.regs, bus := t.bus, plm := t.plm, out := t.out } ∧ KeepsRegs [] s t := by
  have hserved : (silenced s).pathServed (State.pathOf .pairLine) = some true := by
    simp [State.pathServed, State.pathOf, show (silenced s).crown.endpoint = .service from hs.1]
  have hmsg := message_new (s := silenced s) (p := .pairLine) hserved
    (by simp [State.pathEnabled, State.flag, show (silenced s).rd PKG_MGMT_PATH_CTRL_PL_EN pkg = 1 from hen]) hm hreq hseq 0
  obtain ⟨t, ht, b, rfl, hk⟩ := runMessage_nop (s := silenced s) hs.1 .pairLine hnop 0
  have hop : takePacket bytes 0 (silenced s) = _ :=
    (if_pos (by rw [mgmtParse_flags hm, hreq, State.flag, show (silenced s).rd PLM_CTRL_EXEC pkg = 1 from hexec]; rfl)).trans
      ((offerMessage_idle (s := silenced s) hrun _).trans (serveMessage_packet (hmsg.trans ht)))
  obtain ⟨hout, hbus, hplm, hshow⟩ := plm_ran (f := takePacket bytes 0) hop
  exact ⟨ran s (takePacket bytes 0), rfl, hout, (congrArg BusSt.keptPair hbus).trans hk, hplm, hshow⟩

/-- Settles O31: what the endpoint does with a message that is new, repeated, malformed or too early. -/
theorem managementMessages : Obligations.ManagementMessages := by
  refine ⟨fun s bytes m hs hrun hroot hen hm hreq => ⟨fun hnop hseq => ?_, fun k hk hseq => ?_⟩,
    fun s bytes hs hrun hroot hen hm => ?_, fun s bytes silent hs hrun => ?_,
    fun s bytes m hs hrun hen hexec hm hreq hnop hseq => ?_⟩
  · exact inband_new hs hrun hroot hen hm hreq hnop hseq
  · exact inband_repeated hs hrun hroot hen hm hreq hk hseq
  · exact inband_malformed hs hrun hroot hen hm
  · exact inband_waits hs hrun bytes silent
  · exact packet_new hs hrun hen hexec hm hreq hnop hseq

end Sys2Proof.Laws
end

section
/-! SUPPORT. PROOFS. Staged writes and views, broadcast, masks and summaries (O9). -/
namespace Sys2Proof.Laws
open Sys2Proof Sys2Proof.Machine

/-! ### An access at any spot of a die's window -/

/-- A host access to a spot in the window of a die whose fabric answers, at its own address or at the staged view. -/
theorem spiAccess_atSpot {s : State} {d blk off : Nat} {addr : Word} {sp : Spot} (hs : Serves s) (hr : Reaches s d blk off addr)
    (hb : blk < 26) (ho : off < 0x40000) (h4 : off % 4 = 0) (hsp : spotAt blk (off % 0x20000) = sp) (hne : sp ≠ .empty)
    (w : Option Nat) :
    spiAccess addr w s =
      (s.begin addr.toNat).atSpot .host (State.viewOf off) false (s.dieInst d blk sp w.isSome) sp w := by
  obtain ⟨hd, hf, ha⟩ := hr
  obtain ⟨c, hc⟩ := Option.isSome_iff_exists.mp hs.2
  have hreg : regionOf (s.begin addr.toNat).part.dies addr.toNat = .die d (blk * 0x40000 + off) :=
    regionOf_die (dies_le s.part) hd (by omega) (by omega)
  have ha4 : ¬ addr.toNat % 4 ≠ 0 := by unfold dieBase at ha; omega
  have hf' : (s.begin addr.toNat).fabricOff d = false := hf
  have hblk : (blk * 0x40000 + off) / 0x40000 = blk := by omega
  have hoff : (blk * 0x40000 + off) % 0x20000 = off % 0x20000 := by omega
  have hview : (blk * 0x40000 + off) % 0x40000 = off := by omega
  rw [spiAccess, access_serves hs, State.accessAt, begin_token hc, hreg]
  simp only [bit, Nat.zero_testBit, Bool.false_and, Bool.false_eq_true, if_false, if_neg ha4, State.atDie, hf', false_and, hblk,
    hoff, hview, hsp, if_neg hne]
  rw [if_neg (by omega)]
  rfl

/-- The address of an offset of a die's window. -/
def dieAddr (d : Fin 8) (off : Nat) : Word := BitVec.ofNat 32 (dieBase d + off)

theorem dieAddr_toNat {d : Fin 8} {off : Nat} (h : off < 0x04000000) : (dieAddr d off).toNat = dieBase d + off := by
  have := d.isLt
  rw [dieAddr, BitVec.toNat_ofNat]
  refine Nat.mod_eq_of_lt ?_
  unfold dieBase
  omega

theorem reaches_dieAddr {s : State} {d : Fin 8} {off : Nat} (hd : (d : Nat) < s.part.dies) (hf : s.fabricOff d = false)
    (h : off < 0x04000000) : Reaches s d 0 off (dieAddr d off) :=
  ⟨hd, hf, by rw [dieAddr_toNat h, Nat.zero_mul, Nat.add_zero]⟩

/-! ### Staged writes -/

/-- `FEC_SC_CFG_i` (spec/06). -/
def regFecScCfg : Reg := { reg := 0x400, stride := 64, count := 8, flds := [FEC_SC_CFG_CODE] }

theorem spotAt_fecScCfg : ∀ k, k < 8 → spotAt 7 (0x400 + 0x40 * k) = .reg 7 regFecScCfg k := by decide +kernel

/-- A host write of FEC_SC_CFG stages CODE (R87). -/
theorem write_fecScCfg {s : State} {d k : Nat} {addr : Word} (hs : Serves s) (hk : k < 8)
    (hr : Reaches s d 7 (0x400 + 0x40 * k) addr) (v : Nat) :
    spiAccess addr (some v) s = ((s.begin addr.toNat).respond 0).stage FEC_SC_CFG_CODE d (v % 4) k :=
  (access_spi_write s d 7 _ addr _ 7 k v d hs hr (by decide) (by omega) (by omega) (spotAt_fecScCfg k hk) rfl).trans rfl

theorem rdStaged_of_find {s : State} {f : Fld} {d k v : Nat} (h : s.staged.find (f.key d k) = some v) :
    s.rdStaged f d k = v := by
  rw [State.rdStaged, h]

theorem stagedWrite_completes {s : State} {d k : Nat} {addr data : Word} (hs : Serves s) (hk : k < 8)
    (hr : Reaches s d 7 (0x400 + 0x40 * k) addr) :
    Completes (.stagedWrite (.path .spi) addr data) s fun t =>
      t.rdStaged FEC_SC_CFG_CODE d k = data.toNat % 4 ∧ t.rd FEC_SC_CFG_CODE d k = s.rd FEC_SC_CFG_CODE d k ∧
        t = { s with regs := t.regs, staged := t.staged, bus := t.bus, out := t.out } ∧ KeepsRegs [] s t := by
  have hw := write_fecScCfg (s := silenced s) hs hk hr data.toNat
  have hkeep : KeepsRegs [] s (ran s (spiAccess addr (some data.toNat))) :=
    keepsRegs_ran (by rw [hw]; rfl) fun g e j _ => by rw [hw]; rfl
  refine ⟨ran s (spiAccess addr (some data.toNat)), rfl, ?_, hkeep _ _ _ (by simp) (by decide), ?_, hkeep⟩
  · refine rdStaged_of_find ?_
    rw [ran_staged]
    refine (congrArg (fun u : State => u.staged.find (FEC_SC_CFG_CODE.key d k)) hw).trans ?_
    refine (find_put_same ..).trans ?_
    exact congrArg some (Nat.mod_mod ..)
  · rw [ran_eq, settle_eq, hw]
    rfl

/-! ### The staged view -/

theorem stagedViewWrite_completes {s : State} {d blk off k : Nat} {r : Reg} {addr data : Word} (hs : Serves s)
    (hr : Reaches s d blk (0x20000 + off) addr) (hb : blk < 26) (ho : off < 0x20000) (h4 : off % 4 = 0)
    (hsp : spotAt blk off = .reg blk r k) :
    Completes (.stagedViewWrite (.path .spi) addr data) s fun t =>
      t.bus.last = { code := 2, addr := addr.toNat } ∧ t = { s with regs := t.regs, bus := t.bus, out := t.out } ∧
        KeepsRegs [] s t := by
  have hview : State.viewOf (0x20000 + off) = true := decide_eq_true (by omega)
  have hw : spiAccess addr (some data.toNat) (silenced s) = ((silenced s).begin addr.toNat).refuseAccess := by
    rw [spiAccess_atSpot (s := silenced s) (sp := .reg blk r k) hs hr hb (by omega) (by omega)
      (by rw [Nat.add_mod_left, Nat.mod_eq_of_lt ho, hsp]) (by simp), hview]
    rfl
  exact ⟨_, rfl, (hw ▸ (answered_begin [] _ _).refuseAccess :
    Answered [] { code := 2, addr := addr.toNat, data := 0 } (silenced s) (spiAccess addr (some data.toNat) (silenced s))).ran⟩

/-! ### Broadcast -/

/-- The fabric of a die does not depend on the record of an access, nor on fields of other blocks. -/
theorem Answered.fabricOff {fs : List Fld} {r : Resp} {s t : State} (h : Answered fs r s t)
    (hfs : ∀ g ∈ [PWR_STATUS_PARKED, PWR_DOM_STATE], place g ∉ fs.map place) (d : Nat) : t.fabricOff d = s.fabricOff d := by
  have hdie : t.die d = s.die d := by rw [h.rest]; rfl
  simp only [State.fabricOff, State.parked, State.flag, State.domain, hdie, h.rd _ _ _ (hfs PWR_STATUS_PARKED (by simp)),
    h.rd _ _ _ (hfs PWR_DOM_STATE (by simp))]

theorem Answered.forEach {α : Type} {fs : List Fld} {r : Resp} {s t : State} (h : Answered fs r s t) (xs : List α)
    {f : State → α → State} (hf : ∀ u, Answered fs r s u → ∀ x ∈ xs, Answered fs r s (f u x)) :
    Answered fs r s (t.forEach xs f) := by
  induction xs generalizing t with
  | nil => exact h
  | cons x xs ih => exact ih (hf t h x (by simp)) fun u hu y hy => hf u hu y (by simp [hy])

/-- A write of RXD_Q_CTRL at one die. -/
def writeQ (v : Nat) (s : State) (d : Nat) : State := (s.respond 0).storeFlds .host regRxdQCtrl.flds d 0 v

/-- The offset of RXD_Q_CTRL in a die's window. -/
abbrev offRxdQCtrl : Nat := 4 * 0x40000 + 0x34

theorem atDie_rxdQCtrl {s : State} {d : Nat} (hf : s.fabricOff d = false) (v : Nat) :
    s.atDie .host d offRxdQCtrl (some v) = writeQ v s d := by
  have hspot : spotAt (offRxdQCtrl / 0x40000) (offRxdQCtrl % 0x20000) = .reg 4 regRxdQCtrl 0 := spotAt_rxdQCtrl
  simp only [State.atDie, hf, Bool.false_eq_true, false_and, if_false, hspot]
  rfl

/-- One target of a broadcast write: it applies the write, and its failure is counted (R55). -/
def targetStep (v silent addr : Nat) (a : Nat × State) (d : Nat) : Nat × State :=
  let t := if bit silent d then (a.2.pkgAddrErr PKG_ADDR_ERR_TIMEOUT addr).refuseAccess
    else a.2.atDie .host d offRxdQCtrl (some v)
  (if t.bus.last.code = 0 then a.1 else a.1 ||| 2 ^ d, t)

theorem answered_writeQ {s t : State} {fs : List Fld} {a : Nat} (h : Answered fs { addr := a } s t)
    (hfs : ∀ f ∈ regRxdQCtrl.flds, f ∈ fs ∧ f.stg = false) (v d : Nat) : Answered fs { addr := a } s (writeQ v t d) :=
  (h.respond 0 0).storeFlds _ hfs d 0 v

/-- No target fails whose fabric answers. -/
theorem targets_answer {s t : State} {fs : List Fld} {a : Nat} (h : Answered fs { addr := a } s t)
    (hfs : ∀ f ∈ regRxdQCtrl.flds, f ∈ fs ∧ f.stg = false)
    (hpwr : ∀ g ∈ [PWR_STATUS_PARKED, PWR_DOM_STATE], place g ∉ fs.map place) (ds : List Nat)
    (hf : ∀ d ∈ ds, s.fabricOff d = false) (v addr : Nat) :
    ds.foldl (targetStep v 0 addr) (0, t) = (0, t.forEach ds (writeQ v)) := by
  induction ds generalizing t with
  | nil => rfl
  | cons d ds ih =>
    have hstep : targetStep v 0 addr (0, t) d = (0, writeQ v t d) := by
      have hw := atDie_rxdQCtrl ((h.fabricOff hpwr d).trans (hf d (by simp))) v
      have hcode : (writeQ v t d).bus.last.code = 0 := by rw [(answered_writeQ h hfs v d).last]
      simp only [targetStep, bit, Nat.zero_testBit, Bool.false_eq_true, if_false, hw, hcode, if_true]
    rw [List.foldl_cons, hstep, ih (answered_writeQ h hfs v d) fun e he => hf e (by simp [he])]
    rfl

/-- A die's RXD_Q_CTRL after a broadcast to some dies. -/
theorem rd_writeQ_mem {ds : List Nat} {d : Nat} (hd : d ∈ ds) (s : State) {v : Nat} (hv : v < 2 ^ 32) :
    (s.forEach ds (writeQ v)).rd RXD_Q_CTRL_AVG d = clamp 1 255 (v % 256) ∧
      (s.forEach ds (writeQ v)).rd RXD_Q_CTRL_SNR_TR d = v / 65536 := by
  have hother (f : Fld) (u : State) (x : Nat) (hx : x ≠ d) : (writeQ v u x).rd f d = u.rd f d := by
    rw [writeQ, storeFlds_rxdQCtrl, rd_wr_inst _ _ _ (Ne.symm hx), rd_wr_inst _ _ _ (Ne.symm hx), respond_rd]
  exact ⟨forEach_sets (φ := fun u => u.rd RXD_Q_CTRL_AVG d) (hother _) (fun u => rd_storeFlds_avg _ d v) hd s,
    forEach_sets (φ := fun u => u.rd RXD_Q_CTRL_SNR_TR d) (hother _) (fun u => rd_storeFlds_snrTr _ d hv) hd s⟩

/-- The targets of a broadcast to every die (R55). -/
def broadcastDies (s : State) : List Nat := s.dieList.filter fun d => !s.quarantined d && !s.parked d

theorem mem_broadcastDies {s : State} {d : Nat} :
    d ∈ broadcastDies s ↔ d < s.part.dies ∧ s.quarantined d = false ∧ s.parked d = false := by
  simp [broadcastDies, State.dieList]

/-- The fields that a broadcast of RXD_Q_CTRL writes. -/
abbrev broadcastFlds : List Fld := [RXD_Q_CTRL_AVG, RXD_Q_CTRL_SNR_TR, PKG_BCAST_STATUS_FAIL_MASK]

/-- A broadcast of RXD_Q_CTRL writes every target and reports no failure. -/
theorem broadcast_rxdQCtrl {s : State} {addr : Word} (hs : Serves s) (hroot : s.rootState = false)
    (ha : addr.toNat = 0x30000000 + 4 * 0x40000 + 0x34) (hf : ∀ d, d < s.part.dies → s.fabricOff d = false)
    (hex : ∃ d, d ∈ broadcastDies s) (v : Nat) :
    spiAccess addr (some v) s =
      (((s.begin addr.toNat).forEach (broadcastDies s) (writeQ v)).wr PKG_BCAST_STATUS_FAIL_MASK pkg 0).respond 0 := by
  obtain ⟨c, hc⟩ := Option.isSome_iff_exists.mp hs.2
  have hreg : regionOf (s.begin addr.toNat).part.dies addr.toNat = .everyDie false offRxdQCtrl := by
    rw [ha]; rfl
  have ha4 : ¬ addr.toNat % 4 ≠ 0 := by omega
  have htargets : ((s.begin addr.toNat).aliasDies false).filter
      (fun d => !(s.begin addr.toNat).quarantined d && !(s.begin addr.toNat).parked d) = broadcastDies s := rfl
  obtain ⟨x, xs, hxs⟩ := List.exists_cons_of_ne_nil (List.ne_nil_of_mem hex.choose_spec)
  have hsilent : (if (s.begin addr.toNat).crown.token.any fun c => bit 0 c then
      clearBits 0 (2 ^ (s.begin addr.toNat).crown.token.getD 0) else 0) = 0 := by
    simp [begin_token hc, bit]
  have hall : (s.begin addr.toNat).broadcast .host (broadcastDies s) offRxdQCtrl v 0 addr.toNat =
      (((s.begin addr.toNat).forEach (broadcastDies s) (writeQ v)).wr PKG_BCAST_STATUS_FAIL_MASK pkg 0).respond 0 := by
    have h := targets_answer (answered_begin broadcastFlds s addr.toNat) (by decide) (by decide) (broadcastDies s)
      (fun d hd => hf d (mem_broadcastDies.mp hd).1) v addr.toNat
    change (let r := (broadcastDies s).foldl (targetStep v 0 addr.toNat) (0, s.begin addr.toNat)
      (r.2.wr PKG_BCAST_STATUS_FAIL_MASK pkg r.1).respond (if r.1 = 0 then 0 else 2)) = _
    rw [h]
    rfl
  rw [← hall, spiAccess, access_serves hs, State.accessAt, begin_token hc, hreg]
  simp only [if_neg ha4, State.atAlias, show (s.begin addr.toNat).rootState = false from hroot, Bool.false_eq_true, if_false,
    htargets, hxs, false_and, or_false, hsilent]
  rfl

theorem broadcastWrite_completes {s : State} {addr data : Word} (hs : Serves s) (hroot : s.rootState = false)
    (ha : addr.toNat = 0x30000000 + 4 * 0x40000 + 0x34) (hf : ∀ d, d < s.part.dies → s.fabricOff d = false)
    (hex : ∃ d, d ∈ broadcastDies s) :
    Completes (.broadcastWrite (.path .spi) addr ⟨data, 0⟩) s fun t =>
      (∀ d ∈ broadcastDies s,
        t.rd RXD_Q_CTRL_AVG d = clamp 1 255 (data.toNat % 256) ∧ t.rd RXD_Q_CTRL_SNR_TR d = data.toNat / 65536) ∧
      t.rd PKG_BCAST_STATUS_FAIL_MASK pkg = 0 ∧ t.bus.last = { addr := addr.toNat } ∧
        t = { s with regs := t.regs, bus := t.bus, out := t.out } ∧ KeepsRegs broadcastFlds s t := by
  have hw := broadcast_rxdQCtrl (s := silenced s) hs hroot ha hf hex data.toNat
  have h : Answered broadcastFlds { addr := addr.toNat } (silenced s) (spiAccess addr (some data.toNat) (silenced s)) :=
    hw ▸ (((answered_begin _ _ _).forEach _ fun u hu d _ => answered_writeQ hu (by decide) _ d).wr (by simp) _ _ _).respond 0 0
  refine ⟨ran s (spiAccess addr (some data.toNat)), rfl, fun d hd => ?_, ?_, h.ran⟩
  · have hq := rd_writeQ_mem (ds := broadcastDies (silenced s)) hd ((silenced s).begin addr.toNat) data.isLt
    rw [rd_ran h.part (by decide), rd_ran h.part (by decide), hw, respond_rd, respond_rd, rd_wr_other _ (by decide),
      rd_wr_other _ (by decide)]
    exact hq
  · rw [rd_ran h.part (by decide), hw, respond_rd, rd_wr_same]
    rfl

/-! ### Masks -/

/-- `PKG_DIE_IRQ_MASK` (spec/02). -/
def regDieIrqMask : Reg := { reg := 0x24, stride := 0, count := 1, flds := [PKG_DIE_IRQ_MASK_ENABLE] }

/-- `PKG_DIE_IRQ_STATUS` (spec/02). -/
def regDieIrqStatus : Reg := { reg := 0x20, stride := 0, count := 1, flds := [PKG_DIE_IRQ_STATUS_BLOCK] }

theorem spotAt_dieIrqMask : spotAt 0 0x24 = .reg 0 regDieIrqMask 0 := by decide +kernel
theorem spotAt_dieIrqStatus : spotAt 0 0x20 = .reg 0 regDieIrqStatus 0 := by decide +kernel

section
variable {s : State} {d : Nat} {addr : Word} (hs : Serves s)
include hs

theorem write_dieIrqMask (hr : Reaches s d 0 0x24 addr) (v : Nat) :
    spiAccess addr (some v) s = ((s.begin addr.toNat).respond 0).wr PKG_DIE_IRQ_MASK_ENABLE d (v % 2 ^ 26) :=
  (access_spi_write s d 0 0x24 addr _ 0 0 v d hs hr (by decide) (by decide) (by decide) spotAt_dieIrqMask rfl).trans rfl

theorem write_dieIrqStatus (hr : Reaches s d 0 0x20 addr) (v : Nat) :
    spiAccess addr (some v) s = ((s.begin addr.toNat).respond 0).lower PKG_DIE_IRQ_STATUS_BLOCK d (v % 2 ^ 26) :=
  (access_spi_write s d 0 0x20 addr _ 0 0 v d hs hr (by decide) (by decide) (by decide) spotAt_dieIrqStatus rfl).trans rfl

end

theorem exec_irqMaskWrite (d : Fin 8) (data : Word) (s : State) :
    exec (.irqMaskWrite (.dieIrq d) data) s = .next (ran s (spiAccess (dieAddr d 0x24) (some data.toNat))) := by
  unfold spiAccess
  rw [dieAddr_toNat (by decide)]
  rfl

theorem maskWrite_ran {s : State} {d : Nat} {addr : Word} (hs : Serves s) (hr : Reaches s d 0 0x24 addr) (v : Nat) :
    (ran s (spiAccess addr (some v))).rd PKG_DIE_IRQ_MASK_ENABLE d = v % 2 ^ 26 ∧
      ran s (spiAccess addr (some v)) = { s with
        regs := (ran s (spiAccess addr (some v))).regs, bus := (ran s (spiAccess addr (some v))).bus
        out := (ran s (spiAccess addr (some v))).out } ∧
      KeepsRegs [PKG_DIE_IRQ_MASK_ENABLE] s (ran s (spiAccess addr (some v))) := by
  have hw := write_dieIrqMask (s := silenced s) hs hr v
  have h : Answered [PKG_DIE_IRQ_MASK_ENABLE] { addr := addr.toNat } (silenced s) (spiAccess addr (some v) (silenced s)) :=
    hw ▸ ((answered_begin _ _ _).respond 0 0).wr (by simp) _ _ _
  obtain ⟨-, hrest, hkeep⟩ := h.ran
  refine ⟨?_, hrest, hkeep⟩
  rw [rd_ran h.part (by decide), hw, rd_wr_same]
  exact Nat.mod_mod ..

theorem irqMaskWrite_completes {s : State} {d : Fin 8} {data : Word} (hs : Serves s) (hd : (d : Nat) < s.part.dies)
    (hf : s.fabricOff d = false) :
    Completes (.irqMaskWrite (.dieIrq d) data) s fun t =>
      t.rd PKG_DIE_IRQ_MASK_ENABLE d = data.toNat % 2 ^ 26 ∧
        t = { s with regs := t.regs, bus := t.bus, out := t.out } ∧ KeepsRegs [PKG_DIE_IRQ_MASK_ENABLE] s t :=
  ⟨_, exec_irqMaskWrite d data s, maskWrite_ran hs (reaches_dieAddr hd hf (by decide)) data.toNat⟩

/-! ### Summaries -/

theorem clearBits_div_two (a b : Nat) : clearBits a b / 2 = clearBits (a / 2) (b / 2) := by
  have hle : a &&& b ≤ a := Nat.and_le_left
  have hmod : (a &&& b) % 2 = a % 2 &&& b % 2 := Nat.and_mod_two_pow (n := 1)
  have hlow : (a &&& b) % 2 ≤ a % 2 := hmod ▸ Nat.and_le_left
  rw [clearBits, clearBits, ← Nat.and_div_two]
  omega

/-- The bits that clearing leaves. -/
theorem testBit_clearBits (a b i : Nat) : (clearBits a b).testBit i = (a.testBit i && !b.testBit i) := by
  induction i generalizing a b with
  | succ i ih => rw [Nat.testBit_succ, Nat.testBit_succ, Nat.testBit_succ, clearBits_div_two, ih]
  | zero =>
    have hle : a &&& b ≤ a := Nat.and_le_left
    have hmod : (a &&& b) % 2 = a % 2 * (b % 2) := by
      rw [Nat.and_mod_two_pow (n := 1)]
      rcases Nat.mod_two_eq_zero_or_one a with ha | ha <;> rcases Nat.mod_two_eq_zero_or_one b with hb | hb <;> simp [ha, hb]
    rw [clearBits, Bool.eq_iff_iff]
    simp only [Nat.testBit_zero, Bool.and_eq_true, Bool.not_eq_true', decide_eq_true_eq, decide_eq_false_iff_not]
    rcases Nat.mod_two_eq_zero_or_one a with ha | ha <;> rcases Nat.mod_two_eq_zero_or_one b with hb | hb <;>
      rw [ha, hb] at hmod <;> omega

/-- Bringing the die summaries up to date adds the live events. -/
theorem testBit_settleDies_eq (ds : List Nat) {d i : Nat} (hi : i < 26) (s : State) :
    ((ds.foldl State.settleDie s).rd PKG_DIE_IRQ_STATUS_BLOCK d).testBit i =
      ((s.rd PKG_DIE_IRQ_STATUS_BLOCK d).testBit i || (decide (d ∈ ds) && (s.liveDie d).testBit i)) := by
  induction ds generalizing s with
  | nil => simp
  | cons x ds ih =>
    rw [List.foldl_cons, ih, (onlySummaries_settleDie s x).liveDie, State.settleDie]
    by_cases hx : d = x
    · subst hx
      rw [rd_raise_same]
      have hi' : i < PKG_DIE_IRQ_STATUS_BLOCK.w := hi
      simp only [Nat.testBit_mod_two_pow, hi', decide_true, Bool.true_and, Nat.testBit_or, List.mem_cons, true_or]
      cases (s.rd PKG_DIE_IRQ_STATUS_BLOCK d).testBit i <;> cases (s.liveDie d).testBit i <;> simp
    · rw [rd_raise_inst _ _ _ hx]
      simp [hx]

/-- A die's summary after a run: what the operation left, and the live events. -/
theorem testBit_ran_block {s : State} {f : State → State} (hp : (f (silenced s)).part = s.part) {d i : Nat}
    (hd : d < s.part.dies) (hi : i < 26) :
    ((ran s f).rd PKG_DIE_IRQ_STATUS_BLOCK d).testBit i =
      (((f (silenced s)).rd PKG_DIE_IRQ_STATUS_BLOCK d).testBit i || ((f (silenced s)).liveDie d).testBit i) := by
  have hsame : ({ f (silenced s) with part := s.part, pending := s.pending } : State) =
      { f (silenced s) with pending := s.pending } := by rw [← hp]
  rw [ran_eq, hsame, State.settle, rd_settlePkg_block, testBit_settleDies_eq _ hi]
  have hmem : d ∈ ({ f (silenced s) with pending := s.pending } : State).dieList := List.mem_range.mpr (hp ▸ hd)
  rw [decide_eq_true hmem, Bool.true_and]
  rfl

theorem exec_summaryW1cWrite (d : Fin 8) (bits : Word) (s : State) :
    exec (.summaryW1cWrite (some d) bits) s = .next (ran s (spiAccess (dieAddr d 0x20) (some bits.toNat))) := by
  unfold spiAccess
  rw [dieAddr_toNat (by decide)]
  rfl

/-- The live events of a die depend on the fields that read there. -/
theorem liveDie_congr {s t : State} (d : Nat) (h : ∀ g, t.rd g d = s.rd g d) : t.liveDie d = s.liveDie d := by
  have masked : ∀ x ∈ dieSources, t.enabled x.2.1 x.2.2 d = s.enabled x.2.1 x.2.2 d := fun x _ =>
    enabled_congr (fun f _ => h f) (h x.2.2)
  have unmasked : ∀ x ∈ dieUnmasked, t.anySet x.2 d = s.anySet x.2 d := fun x _ => anySet_congr fun f _ => h f
  simp only [State.liveDie, foldl_bits_congr masked, foldl_bits_congr unmasked]

theorem onlySummaries_lower {f : Fld} (hf : place f ∈ summaryPlaces) (s : State) (d m k : Nat) :
    OnlySummaries s (s.lower f d m k) :=
  ⟨rfl, fun g e j hg => rd_lower_other (f := f) (g := g) s (fun he => hg (he ▸ hf)) d e m k j⟩

/-- A write of a die's summary leaves what makes the summary live. -/
theorem liveDie_lower_block (s : State) (d m e : Nat) : (s.lower PKG_DIE_IRQ_STATUS_BLOCK d m).liveDie e = s.liveDie e :=
  (onlySummaries_lower (by decide) s d m 0).liveDie e

/-- A die's summary after a write of 1s: the bits not written and the live ones (R65). -/
theorem summaryWrite_ran {s : State} {d : Nat} {addr : Word} (hs : Serves s) (hr : Reaches s d 0 0x20 addr) (v : Nat) :
    (∀ i, i < 26 → ((ran s (spiAccess addr (some v))).rd PKG_DIE_IRQ_STATUS_BLOCK d).testBit i =
        (((s.rd PKG_DIE_IRQ_STATUS_BLOCK d).testBit i && !v.testBit i) || (s.liveDie d).testBit i)) ∧
      ran s (spiAccess addr (some v)) = { s with
        regs := (ran s (spiAccess addr (some v))).regs, bus := (ran s (spiAccess addr (some v))).bus
        out := (ran s (spiAccess addr (some v))).out } ∧
      KeepsRegs [] s (ran s (spiAccess addr (some v))) := by
  have hw := write_dieIrqStatus (s := silenced s) hs hr v
  have h : Answered [PKG_DIE_IRQ_STATUS_BLOCK] { addr := addr.toNat } (silenced s) (spiAccess addr (some v) (silenced s)) :=
    hw ▸ ((answered_begin _ _ _).respond 0 0).lower (by simp) _ _ _
  have hlive : (spiAccess addr (some v) (silenced s)).liveDie d = s.liveDie d := by
    rw [hw, liveDie_lower_block]
    exact liveDie_congr d fun g => rfl
  obtain ⟨hd, -, -⟩ := hr
  obtain ⟨-, hrest, hkeep⟩ := h.ran
  refine ⟨fun i hi => ?_, hrest, fun g e j _ hg => ?_⟩
  · have hi' : i < PKG_DIE_IRQ_STATUS_BLOCK.w := hi
    rw [testBit_ran_block h.part hd hi, hlive, hw, rd_lower_same, Nat.testBit_mod_two_pow, testBit_clearBits,
      Nat.testBit_mod_two_pow]
    simp only [hi, hi', decide_true, Bool.true_and]
    rfl
  · exact hkeep g e j (fun hm => hg (by rw [List.mem_singleton.mp hm]; decide)) hg

theorem summaryW1cWrite_completes {s : State} {d : Fin 8} {bits : Word} (hs : Serves s) (hd : (d : Nat) < s.part.dies)
    (hf : s.fabricOff d = false) :
    Completes (.summaryW1cWrite (some d) bits) s fun t =>
      (∀ i, i < 26 → (t.rd PKG_DIE_IRQ_STATUS_BLOCK d).testBit i =
        (((s.rd PKG_DIE_IRQ_STATUS_BLOCK d).testBit i && !bits.toNat.testBit i) || (s.liveDie d).testBit i)) ∧
        t = { s with regs := t.regs, bus := t.bus, out := t.out } ∧ KeepsRegs [] s t :=
  ⟨_, exec_summaryW1cWrite d bits s, summaryWrite_ran hs (reaches_dieAddr hd hf (by decide)) bits.toNat⟩

/-- Settles O9: each write reaches its spot, and there stages, is refused, stores or clears. -/
theorem stagedBroadcastMaskAndSummaryWrites : Obligations.StagedBroadcastMaskAndSummaryWrites := by
  refine ⟨fun s d k addr data hs hk hr => stagedWrite_completes hs hk hr,
    fun s d blk off k r addr data hs hr hb ho h4 hsp => stagedViewWrite_completes hs hr hb ho h4 hsp,
    fun s addr data hs hroot ha hf hex => ?_, fun s d data hs hd hf => irqMaskWrite_completes hs hd hf,
    fun s d bits hs hd hf => summaryW1cWrite_completes hs hd hf⟩
  obtain ⟨d, hd⟩ := hex
  obtain ⟨t, ht, hset, hshow⟩ := broadcastWrite_completes (data := data) hs hroot ha hf ⟨d, mem_broadcastDies.mpr hd⟩
  exact ⟨t, ht, fun e he hq hp => hset e (mem_broadcastDies.mpr ⟨he, hq, hp⟩), hshow⟩

end Sys2Proof.Laws
end

section
/-! SUPPORT. PROOFS. What a die's units do not bear on: the crown, the bus, the dies' records, the transaction, the
memories, and the registers of the package, the image, the power, the timing, the pair line, the fault log and the ring. -/
namespace Sys2Proof.Laws
open Sys2Proof Sys2Proof.Machine

/-- The register blocks of a die's units: the datapath, the engines, their memories and housekeeping, and the common disable
registers (spec/00). -/
def unitBlock (b : Nat) : Bool := !([0, 1, 17, 19, 22, 24, 25, 26] : List Nat).contains b

/-- What the units of a die do not bear on. -/
structure Centre where
  part : Part
  crown : CrownSt
  bus : BusSt
  txn : TxnSt
  mem : List Host.Cell
  flash : List Host.Cell
  dies : Store DieSt
  rd : Fld → Nat → Nat → Nat

/-- What a state shows of it. -/
def centre (s : State) : Centre :=
  { part := s.part, crown := s.crown, bus := s.bus, txn := s.txn, mem := s.mem, flash := s.flash, dies := s.dies
    rd := fun g e j => if unitBlock g.blk then 0 else s.rd g e j }

theorem rd_of_centre {s t : State} (h : centre t = centre s) {g : Fld} (hg : unitBlock g.blk = false) (e j : Nat) :
    t.rd g e j = s.rd g e j := by
  have h' := congrFun (congrFun (congrFun (congrArg Centre.rd h) g) e) j
  simpa only [centre, hg, Bool.false_eq_true, if_false] using h'

theorem blk_of_place {f g : Fld} (h : place g = place f) : g.blk = f.blk := congrArg (fun x => x.2.1) h

section
variable (s : State)

/-! ### Registers of the units -/

section
variable (d v k : Nat) {f : Fld} (hf : unitBlock f.blk = true)
include hf

@[simp] theorem centre_wr : centre (s.wr f d v k) = centre s := by
  have hrd : (fun (g : Fld) e j => if unitBlock g.blk then 0 else (s.wr f d v k).rd g e j) =
      fun g e j => if unitBlock g.blk then 0 else s.rd g e j := by
    funext g e j
    split
    · rfl
    · next hg => exact rd_wr_other s (fun h => hg (by rw [blk_of_place h]; exact hf)) ..
  simp only [centre, hrd]
  rfl

@[simp] theorem centre_raise : centre (s.raise f d v k) = centre s := centre_wr s d _ k hf
@[simp] theorem centre_count : centre (s.count f d v k) = centre s := centre_wr s d _ k hf
@[simp] theorem centre_wrb (b : Bool) : centre (s.wrb f d b k) = centre s := centre_wr s d _ k hf
@[simp] theorem centre_wrBit (b : Bool) : centre (s.wrBit f d v b k) = centre s := centre_wr s d _ k hf
@[simp] theorem centre_wrS (x : Int) : centre (s.wrS f d x k) = centre s := centre_wr s d _ k hf

end

/-! ### Records of the units -/

theorem centre_forEach {α : Type} (xs : List α) {f : State → α → State} (h : ∀ t x, centre (f t x) = centre t) :
    centre (s.forEach xs f) = centre s := forEach_keeps centre xs (fun t x _ => h t x) s

@[simp] theorem centre_ite (c : Prop) [Decidable c] (t u : State) :
    centre (if c then t else u) = if c then centre t else centre u :=
  apply_ite centre c t u

variable (d i : Nat)

@[simp] theorem centre_emit (o : Output) : centre (s.emit o) = centre s := rfl
@[simp] theorem centre_setUnit (b u : Nat) (x : UnitSt) : centre (s.setUnit d b u x) = centre s := rfl
@[simp] theorem centre_modCnv (f : CnvSt → CnvSt) : centre (s.modCnv d f) = centre s := rfl
@[simp] theorem centre_modRxDie (f : RxDie → RxDie) : centre (s.modRxDie d f) = centre s := rfl
@[simp] theorem centre_modRx (f : RxArm → RxArm) : centre (s.modRx d i f) = centre s := rfl
@[simp] theorem centre_modSeam (hi : Bool) (f : SeamSt → SeamSt) : centre (s.modSeam d hi f) = centre s := rfl
@[simp] theorem centre_modFec (f : FecSt → FecSt) : centre (s.modFec d f) = centre s := rfl
@[simp] theorem centre_modStream (f : StreamSt → StreamSt) : centre (s.modStream d i f) = centre s := rfl
@[simp] theorem centre_modFrm (f : FrmArm → FrmArm) : centre (s.modFrm d i f) = centre s := rfl
@[simp] theorem centre_modTx (f : TxArm → TxArm) : centre (s.modTx d i f) = centre s := rfl
@[simp] theorem centre_modFlow (f : FlowSt → FlowSt) : centre (s.modFlow d i f) = centre s := rfl
@[simp] theorem centre_modCrc (f : CrcSt → CrcSt) : centre (s.modCrc d i f) = centre s := rfl
@[simp] theorem centre_modLane (f : LaneSt → LaneSt) : centre (s.modLane d i f) = centre s := rfl
@[simp] theorem centre_modGrp (f : GrpSt → GrpSt) : centre (s.modGrp d i f) = centre s := rfl
@[simp] theorem centre_modSeq (f : SeqSt → SeqSt) : centre (s.modSeq d f) = centre s := rfl
@[simp] theorem centre_modWch (f : WchSt → WchSt) : centre (s.modWch d i f) = centre s := rfl
@[simp] theorem centre_modPlm (f : PlmSt → PlmSt) : centre (s.modPlm f) = centre s := rfl
@[simp] theorem centre_modChannel (f : List DmaJob → List DmaJob) : centre (s.modChannel d i f) = centre s := rfl

/-! ### The disable rule (R98, R99) -/

@[simp] theorem centre_refreshDis (b : Nat) : centre (s.refreshDis d b) = centre s := by
  simp (disch := decide) [State.refreshDis]

@[simp] theorem centre_abortUnit (b u work : Nat) : centre (s.abortUnit d b u work) = centre s := by
  simp (disch := decide) [State.abortUnit]

@[simp] theorem centre_drainUnit (b u work now : Nat) : centre (s.drainUnit d b u work now) = centre s := by
  simp [State.drainUnit]

/-! ### Receive arms -/

@[simp] theorem centre_markMixed : centre (s.markMixed d i) = centre s := rfl

@[simp] theorem centre_setRxState (v : Nat) : centre (s.setRxState d i v) = centre s := by
  simp (disch := decide) [State.setRxState]

@[simp] theorem centre_setFreq (f : Int) : centre (s.setFreq d f) = centre s := by
  simp (disch := decide) [State.setFreq]

@[simp] theorem centre_takeFreq : centre (s.takeFreq d) = centre s := by
  simp (disch := decide) [State.takeFreq]

@[simp] theorem centre_seekCd : centre (s.seekCd d i) = centre s := by
  unfold State.seekCd
  dsimp only
  split <;> rfl

@[simp] theorem centre_loseSync : centre (s.loseSync d i) = centre s := by
  simp (disch := decide) [State.loseSync]

@[simp] theorem centre_startArm : centre (s.startArm d i) = centre s := by
  simp (disch := decide) [State.startArm]

@[simp] theorem centre_wakeArm : centre (s.wakeArm d i) = centre s := by
  simp [State.wakeArm]

@[simp] theorem centre_stopArm (retain : Bool) : centre (s.stopArm d i retain) = centre s := by
  simp [State.stopArm]

@[simp] theorem centre_rxResume : centre (s.rxResume d) = centre s :=
  centre_forEach s _ fun t i => by simp

theorem unitBlock_defectFld (n : Nat) : unitBlock (State.defectFld n).blk = true := by
  unfold State.defectFld
  split <;> rfl

theorem centre_wrDefects (ns : List Nat) :
    centre (ns.foldl (fun (t : State) n => t.wr (State.defectFld n) d 0 i) s) = centre s :=
  centre_forEach s ns fun t n => centre_wr t d 0 i (unitBlock_defectFld n)

@[simp] theorem centre_frmStop : centre (s.frmStop d i) = centre s := by
  simp (disch := decide) only [State.frmStop, centre_wrDefects, centre_wr, centre_loseSync, centre_modFrm]

@[simp] theorem centre_rxStop (retain : Bool) : centre (s.rxStop d i retain) = centre s := by
  simp [State.rxStop]

/-! ### Transmit arms -/

@[simp] theorem centre_showFormat : centre (s.showFormat d i) = centre s := by
  simp (disch := decide) [State.showFormat]

@[simp] theorem centre_setTxState (v : Nat) : centre (s.setTxState d i v) = centre s := by
  simp (disch := decide) [State.setTxState]

@[simp] theorem centre_txStop (retain : Bool) : centre (s.txStop d i retain) = centre s := by
  simp [State.txStop]

/-! ### Seams -/

theorem unitBlock_seamStateFld (hi : Bool) : unitBlock (State.seamStateFld hi).blk = true := by cases hi <;> rfl

@[simp] theorem centre_setSeam (hi : Bool) (v : Nat) : centre (s.setSeam d hi v) = centre s := by
  rw [State.setSeam, centre_wrb _ _ _ (by decide), centre_wr _ _ _ _ (unitBlock_seamStateFld hi)]

@[simp] theorem centre_seamOwn (hi : Bool) : centre (s.seamOwn d hi) = centre s := by
  simp [State.seamOwn]

@[simp] theorem centre_resumeArms : centre (s.resumeArms d) = centre s := by
  simp [State.resumeArms]

@[simp] theorem centre_holdTrim : centre (s.holdTrim d) = centre s := by
  simp (disch := decide) [State.holdTrim]

/-- The upper neighbour of a die that leaves its team goes own-only and holds its trim (R33). -/
def leaveAbove (s : State) (d : Nat) : State :=
  match s.seamMate d true with
  | some e => (if s.rd (State.seamStateFld false) e = 0 then s else s.seamOwn e false).holdTrim e
  | none => s

/-- The lower neighbour goes own-only. -/
def leaveBelow (s : State) (d : Nat) : State :=
  match s.seamMate d false with
  | some e => if s.rd (State.seamStateFld true) e = 0 then s else s.seamOwn e true
  | none => s

/-- A die's groups leave the joint sums. -/
def dropGroups (s : State) (d : Nat) : State := { s with groups := s.groups.keep fun k => k.idx / 2 != d }

theorem seamLeave_eq : s.seamLeave d = dropGroups (leaveBelow (leaveAbove s d) d) d := rfl

@[simp] theorem centre_leaveAbove : centre (leaveAbove s d) = centre s := by
  unfold leaveAbove
  split <;> simp

@[simp] theorem centre_leaveBelow : centre (leaveBelow s d) = centre s := by
  unfold leaveBelow
  split <;> simp

@[simp] theorem centre_dropGroups : centre (dropGroups s d) = centre s := rfl

@[simp] theorem centre_seamLeave : centre (s.seamLeave d) = centre s := by
  simp [seamLeave_eq]

/-! ### Decoder clusters -/

@[simp] theorem centre_enterPeriod (n : Nat) : centre (s.enterPeriod d n) = centre s := by
  unfold State.enterPeriod
  dsimp only
  split <;> simp

@[simp] theorem centre_dealInfo (n : Nat) (bits : List Bool) (errored : Bool) :
    centre (s.dealInfo d n bits errored) = centre s := by
  simp [State.dealInfo]

@[simp] theorem centre_deliverInfo (n : Nat) (bits : List Bool) (errored : Bool) :
    centre (s.deliverInfo d n bits errored) = centre s := by
  simp [State.deliverInfo]

@[simp] theorem centre_bchFeed (n : Nat) (bits : List Bool) : centre (s.bchFeed d i n bits) = centre s := by
  induction n generalizing s bits with
  | zero => rfl
  | succ n ih =>
    rw [State.bchFeed]
    split
    · rfl
    · dsimp only
      rw [ih]
      split <;> simp (disch := decide)

@[simp] theorem centre_beginStream (c : Decoded) : centre (s.beginStream d c) = centre s := by
  simp [State.beginStream]

@[simp] theorem centre_leave (c : Decoded) : centre (s.leave d c) = centre s := by
  simp [State.leave]

@[simp] theorem centre_drain (n k : Nat) : centre (s.drain d n k) = centre s := by
  induction k generalizing s with
  | zero => rfl
  | succ k ih =>
    rw [State.drain]
    split
    · rfl
    · simp [ih]

@[simp] theorem centre_handOver (c : Decoded) : centre (s.handOver d c) = centre s := by
  simp [State.handOver]

@[simp] theorem centre_deliverRaw (cw : Codeword) : centre (s.deliverRaw d cw) = centre s := by
  simp (disch := decide) [State.deliverRaw]

@[simp] theorem centre_abortCluster : centre (s.abortCluster d i) = centre s := by
  unfold State.abortCluster
  split <;> simp

@[simp] theorem centre_stopClusters : centre (s.stopClusters d) = centre s :=
  centre_forEach s _ fun t k => by simp

/-! ### Host lanes -/

@[simp] theorem centre_laneSend (l : Nat) (b : TrunkBlock) : centre (s.laneSend d l b) = centre s := by
  simp [State.laneSend]

@[simp] theorem centre_laneDue (g l pos n : Nat) : centre (s.laneDue d g l pos n) = centre s := by
  induction n generalizing s with
  | zero => rfl
  | succ n ih =>
    rw [State.laneDue]
    simp [ih]

@[simp] theorem centre_dealGroup (g : Nat) (b : TrunkBlock) : centre (s.dealGroup d g b) = centre s := by
  unfold State.dealGroup
  dsimp only
  split <;> simp

@[simp] theorem centre_dealBlocks (g : Nat) (bs : List TrunkBlock) : centre (s.dealBlocks d g bs) = centre s :=
  centre_forEach s _ fun t b => by simp

@[simp] theorem centre_clientSignal (f : Nat) (was : Bool) : centre (s.clientSignal d f was) = centre s := by
  simp (disch := decide) [State.clientSignal]

@[simp] theorem centre_showInput (g : Nat) : centre (s.showInput d g) = centre s :=
  (centre_forEach _ _ fun t e => by simp).trans (by simp (disch := decide))

@[simp] theorem centre_setGrp (g v : Nat) : centre (s.setGrp d g v) = centre s := by
  simp (disch := decide) [State.setGrp]

@[simp] theorem centre_grpDrop (g : Nat) : centre (s.grpDrop d g) = centre s :=
  (centre_forEach _ _ fun t f => by simp).trans rfl

@[simp] theorem centre_sendReplacement (g : Nat) : centre (s.sendReplacement d g) = centre s := by
  simp [State.sendReplacement]

/-- The lanes of a group go down with it. -/
theorem centre_laneDown (l : Nat) : centre ((((if s.laneUp d l then s.raise HLN_EVENT_LANE_DOWN d (2 ^ l) else s).wr
    HLN_LANE_STATUS_STATE d 0 l).wr HLN_LANE_STATUS_PL_VALID d 0 l).modLane d l fun _ => {}) = centre s := by
  simp (disch := decide)

@[simp] theorem centre_grpOff (g now : Nat) : centre (s.grpOff d g now) = centre s := by
  unfold State.grpOff
  simp (disch := decide) only [centre_setGrp, centre_modGrp, centre_wr]
  refine (centre_forEach _ _ fun t l => centre_laneDown t d l).trans ((centre_forEach _ _ fun t f => by simp).trans ?_)
  simp (disch := decide)

@[simp] theorem centre_stopLanes : centre (s.stopLanes d) = centre s :=
  centre_forEach s _ fun t g => by simp

/-! ### Keys, engines and housekeeping -/

@[simp] theorem centre_showKeys (f : Nat) : centre (s.showKeys d f) = centre s := by
  simp (disch := decide) [State.showKeys]

@[simp] theorem centre_eraseKeys : centre (s.eraseKeys d) = centre s :=
  (centre_forEach _ _ fun t f => by simp).trans rfl

@[simp] theorem centre_seqStop (abort : Bool) : centre (s.seqStop d abort) = centre s := by
  simp (disch := decide) [State.seqStop]

@[simp] theorem centre_haltEng (e cause : Nat) : centre (s.haltEng d e cause) = centre s := by
  simp (disch := decide) [State.haltEng]

/-! ### Stopping a die (R51) -/

@[simp] theorem centre_flowDrop (u : Nat) : centre (s.flowDrop d u) = centre s := centre_modFlow ..

@[simp] theorem centre_dropHeld (b u : Nat) : centre (s.dropHeld d b u false) = centre s := by
  unfold State.dropHeld
  split
  case h_2 => split <;> simp
  all_goals simp

@[simp] theorem centre_abortHeld (b : Nat) : centre (s.abortHeld d b) = centre s :=
  centre_forEach s _ fun t x => by simp

/-- The converters of one kind drop their words (R115). -/
def dropWords (d : Nat) (f : Fld) (u0 : Nat) (t : State) : State :=
  if t.flag CNV_STATUS_SCLK_LOCK d then
    t.forEach ((List.range 4).filter fun u => bit (t.rd f d) u) fun u c => u.abortUnit d 2 (u0 + c) 1
  else t

/-- Every arm of a die stops. -/
def stopArms (s : State) (d : Nat) : State :=
  s.forEach (List.range 8) fun t i => (t.txStop d i false).rxStop d i false

/-- Every running engine of a die halts. -/
def haltEngs (s : State) (d cause : Nat) : State :=
  s.forEach (List.range 64) fun t e => if t.engRuns d e then t.haltEng d e cause else t

/-- Watch channels drop what they hold. -/
def dropWch (s : State) (d : Nat) : State := { s with wch := s.wch.dropInst d }

/-- The units that still hold work drop it. -/
def abortRest (s : State) (d : Nat) : State :=
  s.forEach ((s.units.keep fun k => k.inst == d).filter fun e => e.2.work != 0) fun t e =>
    t.abortUnit d e.1.blk e.1.idx e.2.work

theorem stopUnits_eq (cause : Nat) :
    s.stopUnits d cause =
      let u := stopArms ((dropWords d CNV_CTRL_DAC_EN 4 (dropWords d CNV_CTRL_ADC_EN 0 s)).abortHeld d 5) d
      let u := haltEngs ((((u.stopClusters d).stopLanes d).abortHeld d 10).abortHeld d 12) d cause
      abortRest (dropWch (((u.abortHeld d 14).abortHeld d 20).seqStop d true) d) d := rfl

@[simp] theorem centre_dropWords (f : Fld) (u0 : Nat) : centre (dropWords d f u0 s) = centre s := by
  unfold dropWords
  split
  · exact centre_forEach s _ fun t c => by simp
  · rfl

@[simp] theorem centre_stopArms : centre (stopArms s d) = centre s := centre_forEach s _ fun t i => by simp

@[simp] theorem centre_haltEngs (cause : Nat) : centre (haltEngs s d cause) = centre s :=
  centre_forEach s _ fun t e => by simp

@[simp] theorem centre_dropWch : centre (dropWch s d) = centre s := rfl

@[simp] theorem centre_abortRest : centre (abortRest s d) = centre s := centre_forEach s _ fun t e => by simp

@[simp] theorem centre_stopUnits (cause : Nat) : centre (s.stopUnits d cause) = centre s := by
  simp [stopUnits_eq]

end

end Sys2Proof.Laws
end

section
/-! SUPPORT. PROOFS. What the crown's bookkeeping leaves: the crown's record, the dies' answers and waits, and the package
registers that do not show the crown. -/
namespace Sys2Proof.Laws
open Sys2Proof Sys2Proof.Machine

/-! ### What shows the crown (R40, R42) -/

/-- The fields that show the crown at the package and at each die. -/
def crownFlds : List Fld :=
  [PKG_CROWN_STATUS_STANDBY_VALID, PKG_CROWN_STATUS_STANDBY, PKG_CROWN_STATUS_CROWN, PKG_CROWN_STATUS_PLM_AVAIL,
    PKG_DIE_STATUS_IS_CROWN, PKG_DIE_STATUS_IS_STANDBY, PKG_DIE_STATUS_QUARANTINED]

/-- STANDBY and STANDBY_VALID follow the standby. -/
def showStandby (s : State) : State :=
  match s.standby with
  | some d => (s.wr PKG_CROWN_STATUS_STANDBY_VALID pkg 1).wr PKG_CROWN_STATUS_STANDBY pkg d
  | none => s.wr PKG_CROWN_STATUS_STANDBY_VALID pkg 0

/-- CROWN and PLM_AVAIL follow the token. -/
def showHolder (s : State) : State :=
  match s.crown.token with
  | some c => (s.wr PKG_CROWN_STATUS_CROWN pkg c).wrb PKG_CROWN_STATUS_PLM_AVAIL pkg (decide (c ≤ 1))
  | none => s

/-- Each die's own bits follow the token, the standby and the quarantine mask. -/
def showDies (s : State) (st : Option Nat) : State :=
  s.forEach s.dieList fun t d =>
    let t := t.wrb PKG_DIE_STATUS_IS_CROWN d (t.crown.token == some d)
    (t.wrb PKG_DIE_STATUS_IS_STANDBY d (st == some d)).wrb PKG_DIE_STATUS_QUARANTINED d (t.quarantined d)

section
variable (s : State)

theorem refreshCrown_eq : s.refreshCrown = showDies (showHolder (showStandby s)) (showHolder (showStandby s)).standby := rfl

theorem writesOnly_showStandby : WritesOnly (AtFields crownFlds) s (showStandby s) := by
  unfold showStandby
  split
  · exact ((WritesOnly.refl _ s).wr (.of_mem (by simp [crownFlds]) _) _ _).wr (.of_mem (by simp [crownFlds]) _) _ _
  · exact (WritesOnly.refl _ s).wr (.of_mem (by simp [crownFlds]) _) _ _

theorem writesOnly_showHolder : WritesOnly (AtFields crownFlds) s (showHolder s) := by
  unfold showHolder
  split
  · exact ((WritesOnly.refl _ s).wr (.of_mem (by simp [crownFlds]) _) _ _).wr (.of_mem (by simp [crownFlds]) _) _ _
  · exact .refl _ s

/-- The bits of a die's own that show the crown. -/
def dieCrownFlds : List Fld := [PKG_DIE_STATUS_IS_CROWN, PKG_DIE_STATUS_IS_STANDBY, PKG_DIE_STATUS_QUARANTINED]

theorem writesOnly_showDies (st : Option Nat) : WritesOnly (AtFields dieCrownFlds) s (showDies s st) :=
  (WritesOnly.refl _ s).forEach _ fun u d _ =>
    (((WritesOnly.refl _ u).wr (.of_mem (by simp [dieCrownFlds]) d) _ _).wr (.of_mem (by simp [dieCrownFlds]) d) _ _).wr
      (.of_mem (by simp [dieCrownFlds]) d) _ _

theorem WritesOnly.mono {P Q : Fld → Nat → Prop} {t u : State} (h : WritesOnly P t u) (hPQ : ∀ g e, P g e → Q g e) :
    WritesOnly Q t u := ⟨h.rest, fun g e j hg => h.rd g e j fun hP => hg (hPQ g e hP)⟩

theorem atCrownFlds_of_die {g : Fld} {e : Nat} (h : AtFields dieCrownFlds g e) : AtFields crownFlds g e := by
  have hsub : ∀ x ∈ dieCrownFlds.map place, x ∈ crownFlds.map place := by decide
  exact hsub _ h

/-- Showing the crown writes the fields that show it and nothing else. -/
theorem writesOnly_refreshCrown_flds : WritesOnly (AtFields crownFlds) s s.refreshCrown := by
  rw [refreshCrown_eq]
  exact ((writesOnly_showStandby s).trans (writesOnly_showHolder _)).trans
    ((writesOnly_showDies _ _).mono fun _ _ => atCrownFlds_of_die)

/-- CROWN shows the die that holds the token. -/
theorem rd_refreshCrown_crown {c : Nat} (h : s.crown.token = some c) :
    s.refreshCrown.rd PKG_CROWN_STATUS_CROWN pkg = c % 8 := by
  have htok : (showStandby s).crown.token = some c := by rw [(writesOnly_showStandby s).rest]; exact h
  rw [refreshCrown_eq, (writesOnly_showDies _ _).rd _ _ _ (by unfold AtFields; decide), showHolder, htok]
  dsimp only
  rw [rd_wrb_other _ (by decide), rd_wr_same]
  rfl

end

/-! ### The token shown at the dies -/

/-- What an operation sets at one die of a list, while a fact holds that it keeps, is set at the end. -/
theorem forEach_sets_while {α : Type} {φ : State → α} {I : State → Prop} {b : Nat} {v : α} {g : State → Nat → State}
    (hI : ∀ u x, I u → I (g u x)) (hother : ∀ u x, x ≠ b → φ (g u x) = φ u) (hat : ∀ u, I u → φ (g u b) = v)
    {xs : List Nat} (hb : b ∈ xs) {s : State} (hs : I s) : φ (s.forEach xs g) = v := by
  have keeps (xs : List Nat) : I (s.forEach xs g) := by
    induction xs using List.reverseRecOn with
    | nil => exact hs
    | append_singleton xs x ih =>
      rw [State.forEach, List.foldl_append]
      exact hI _ x ih
  induction xs using List.reverseRecOn with
  | nil => cases hb
  | append_singleton xs x ih =>
    rw [State.forEach, List.foldl_append]
    by_cases hx : x = b
    · subst hx
      exact hat _ (keeps xs)
    · exact (hother _ x hx).trans (ih ((List.mem_append.mp hb).resolve_right (by simpa using Ne.symm hx)))

theorem writesOnly_showToken (s : State) : WritesOnly (AtFields [PKG_DIE_STATUS_IS_CROWN]) s s.showToken :=
  (WritesOnly.refl _ s).forEach _ fun u d _ => (WritesOnly.refl _ u).wr (.of_mem (by simp) d) _ _

/-- IS_CROWN of a die follows the token. -/
theorem rd_showToken (s : State) {d : Nat} (hd : d < s.part.dies) :
    s.showToken.rd PKG_DIE_STATUS_IS_CROWN d = b2n (s.crown.token == some d) := by
  refine forEach_sets_while (φ := fun u => u.rd PKG_DIE_STATUS_IS_CROWN d) (I := fun u => u.crown = s.crown)
    (g := fun u x => u.wrb PKG_DIE_STATUS_IS_CROWN x (u.crown.token == some x)) (fun u x hu => hu)
    (fun u x hx => rd_wr_inst u _ _ (Ne.symm hx) ..) (fun u hu => ?_) (List.mem_range.mpr hd) rfl
  refine (rd_wr_same u PKG_DIE_STATUS_IS_CROWN d _ 0).trans ?_
  rw [hu]
  cases s.crown.token == some d <;> rfl

/-! ### The crown's bookkeeping -/

/-- What the crown's bookkeeping leaves: the part, the crown's record, which dies have answered and which are
waited for, and the package registers that do not show the crown. -/
structure CrownView where
  part : Part
  crown : CrownSt
  answered : Nat → Option (Bool × Bool)
  waits : Nat → Bool
  rd : Fld → Nat → Nat → Nat

/-- What a state shows of it. -/
def crownView (s : State) : CrownView :=
  { part := s.part, crown := s.crown, answered := fun d => (s.die d).answered, waits := fun d => (s.die d).waitReset
    rd := fun g e j => if g.blk = 26 ∧ place g ∉ crownFlds.map place then s.rd g e j else 0 }

section
variable {s t : State}

theorem crownView_congr (hpart : t.part = s.part) (hcrown : t.crown = s.crown)
    (hdie : ∀ d, (t.die d).answered = (s.die d).answered ∧ (t.die d).waitReset = (s.die d).waitReset)
    (hrd : ∀ g : Fld, g.blk = 26 → place g ∉ crownFlds.map place → ∀ e j, t.rd g e j = s.rd g e j) :
    crownView t = crownView s := by
  simp only [crownView, hpart, hcrown, hdie, CrownView.mk.injEq, true_and]
  funext g e j
  split
  · next h => exact hrd g h.1 h.2 e j
  · rfl

theorem crownView_part (h : crownView t = crownView s) : t.part = s.part := congrArg CrownView.part h

theorem crownView_crown (h : crownView t = crownView s) : t.crown = s.crown := congrArg CrownView.crown h

theorem crownView_answered (h : crownView t = crownView s) (d : Nat) : (t.die d).answered = (s.die d).answered :=
  congrFun (congrArg CrownView.answered h) d

theorem crownView_waits (h : crownView t = crownView s) (d : Nat) : (t.die d).waitReset = (s.die d).waitReset :=
  congrFun (congrArg CrownView.waits h) d

theorem crownView_rd (h : crownView t = crownView s) {g : Fld} (hg : g.blk = 26 ∧ place g ∉ crownFlds.map place) (e j : Nat) :
    t.rd g e j = s.rd g e j := by
  have h' := congrFun (congrFun (congrFun (congrArg CrownView.rd h) g) e) j
  simpa only [crownView, if_pos hg] using h'

/-- What a die's units do the bookkeeping does not see. -/
theorem crownView_of_centre (h : centre t = centre s) : crownView t = crownView s := by
  have hdies : t.dies = s.dies := congrArg Centre.dies h
  refine crownView_congr (congrArg Centre.part h) (congrArg Centre.crown h)
    (fun d => ?_) fun g hg _ => rd_of_centre h (by rw [hg]; rfl)
  rw [State.die, State.die, hdies]
  exact ⟨rfl, rfl⟩

/-- Nor what the timing function does. -/
theorem crownView_of_timOnly (h : TimOnly s t) : crownView t = crownView s := by
  refine crownView_congr (by rw [h.rest]) (by rw [h.rest]) (fun d => by rw [h.rest]; exact ⟨rfl, rfl⟩) fun g hg _ e j =>
    h.rd g e j (.inr (by omega))

theorem crownView_of_writesOnly {P : Fld → Nat → Prop} (h : WritesOnly P s t)
    (hP : ∀ g : Fld, g.blk = 26 → place g ∉ crownFlds.map place → ∀ e, ¬ P g e) : crownView t = crownView s := by
  refine crownView_congr (by rw [h.rest]) (by rw [h.rest]) (fun d => by rw [h.rest]; exact ⟨rfl, rfl⟩) fun g hg hp e j =>
    h.rd g e j (hP g hg hp e)

end

section
variable (s : State)

@[simp] theorem crownView_wr (d v k : Nat) {f : Fld} (hf : f.blk ≠ 26) : crownView (s.wr f d v k) = crownView s :=
  crownView_congr rfl rfl (fun _ => ⟨rfl, rfl⟩) fun _ hg _ _ _ =>
    rd_wr_other s (fun h => hf ((blk_of_place h).symm.trans hg)) ..

@[simp] theorem crownView_raise (d m k : Nat) {f : Fld} (hf : f.blk ≠ 26) : crownView (s.raise f d m k) = crownView s :=
  crownView_wr s d _ k hf

@[simp] theorem crownView_count (d n k : Nat) {f : Fld} (hf : f.blk ≠ 26) : crownView (s.count f d n k) = crownView s :=
  crownView_wr s d _ k hf

@[simp] theorem crownView_wrb (d k : Nat) (b : Bool) {f : Fld} (hf : f.blk ≠ 26) : crownView (s.wrb f d b k) = crownView s :=
  crownView_wr s d _ k hf

/-- A change of a die's record that leaves its answer and the wait for it. -/
theorem crownView_modDie (d : Nat) {f : DieSt → DieSt} (hf : ∀ x, (f x).answered = x.answered ∧ (f x).waitReset = x.waitReset) :
    crownView (s.modDie d f) = crownView s := by
  refine crownView_congr rfl rfl (fun e => ?_) fun _ _ _ _ _ => rfl
  by_cases he : e = d
  · subst he
    rw [modDie_die]
    exact hf _
  · rw [modDie_die_other s he]
    exact ⟨rfl, rfl⟩

theorem crownView_forEach {α : Type} (xs : List α) {f : State → α → State} (h : ∀ t x, crownView (f t x) = crownView t) :
    crownView (s.forEach xs f) = crownView s := forEach_keeps crownView xs (fun t x _ => h t x) s

@[simp] theorem crownView_ite (c : Prop) [Decidable c] (t u : State) :
    crownView (if c then t else u) = if c then crownView t else crownView u := apply_ite crownView c t u

@[simp] theorem crownView_emit (o : Output) : crownView (s.emit o) = crownView s := rfl
@[simp] theorem crownView_modTeam (b : Nat) (f : TeamSt → TeamSt) : crownView (s.modTeam b f) = crownView s := rfl
@[simp] theorem crownView_modPlm (f : PlmSt → PlmSt) : crownView (s.modPlm f) = crownView s := rfl
@[simp] theorem crownView_unhold (d : Nat) : crownView (s.unhold d) = crownView s := rfl
@[simp] theorem crownView_dropPend (d : Nat) : crownView (s.dropPend d) = crownView s := rfl
@[simp] theorem crownView_ringTxn (a b c r : Nat) : crownView (s.ringTxn a b c r) = crownView s := rfl
@[simp] theorem crownView_ringMsg (type src dst : Nat) : crownView (s.ringMsg type src dst) = crownView s := rfl
@[simp] theorem crownView_sendMsgs (b : Nat) (ms : List (Nat × List Byte)) : crownView (s.sendMsgs b ms) = crownView s := rfl

@[simp] theorem crownView_refreshCrown : crownView s.refreshCrown = crownView s :=
  crownView_of_writesOnly (writesOnly_refreshCrown_flds s) fun _ _ hp _ => hp

@[simp] theorem crownView_seamLeave (d : Nat) : crownView (s.seamLeave d) = crownView s :=
  crownView_of_centre (centre_seamLeave s d)

@[simp] theorem crownView_refDieLost (d : Nat) : crownView (s.refDieLost d) = crownView s :=
  crownView_of_timOnly (timOnly_refDieLost s d)

/-! ### A transaction aborts -/

@[simp] theorem crownView_clearHolds : crownView s.clearHolds = crownView s :=
  crownView_forEach s _ fun t d =>
    (crownView_wr _ _ _ _ (by decide)).trans (crownView_modDie t d fun _ => ⟨rfl, rfl⟩)

@[simp] theorem crownView_wrTeam (b v : Nat) {f : Fld} (hf : f.blk ≠ 26) : crownView (s.wrTeam f b v) = crownView s :=
  crownView_forEach s _ fun t d => crownView_wr t d v 0 hf

@[simp] theorem crownView_closePlan (b : Nat) : crownView (s.closePlan b) = crownView s := by
  rw [closePlan_eq, crownView_modTeam, crownView_wrTeam _ _ _ (by decide)]

@[simp] theorem crownView_withdrawPlan : crownView s.withdrawPlan = crownView s := by
  unfold State.withdrawPlan
  split
  · rfl
  · simp

/-- Pending values return, or a rollback's go. -/
theorem crownView_returnPending (ds : List Nat) :
    crownView (s.forEach ds fun t d => if t.txn.rollback then t.dropPend d else t.unhold d) = crownView s :=
  crownView_forEach s ds fun t d => by simp

@[simp] theorem crownView_showAbort (reason : Nat) : crownView (showAbort s reason) = crownView s := by
  simp (disch := decide) [showAbort, crownView_returnPending]

/-- A slice that the transaction would have raised to its plan stays as it is (R37). -/
def dropRejoin (s : State) : State :=
  match s.txn.planTeam with
  | some b => if decide (2 ≤ s.teamSize (s.txn.planTeam.getD 0)) then s.modTeam b fun x => { x with rejoin := [] } else s
  | none => s

/-- The transaction is closed. -/
def closeTxn (s : State) : State :=
  { s with txn := { s.txn with isOpen := false, goSent := false, reverting := false, switched := false, lost := false } }

theorem abortTxn_open {s : State} (h : s.txn.isOpen = true) (reason : Nat) :
    s.abortTxn reason = closeTxn (dropRejoin (showAbort s reason).withdrawPlan) := if_pos h

theorem abortTxn_closed {s : State} (h : s.txn.isOpen = false) (reason : Nat) : s.abortTxn reason = s :=
  if_neg (by simp [h])

theorem crownView_dropRejoin : crownView (dropRejoin s) = crownView s := by
  unfold dropRejoin
  split
  · simp
  · rfl

@[simp] theorem crownView_abortTxn (reason : Nat) : crownView (s.abortTxn reason) = crownView s := by
  cases h : s.txn.isOpen with
  | false => rw [abortTxn_closed h]
  | true =>
    rw [abortTxn_open h]
    change crownView (dropRejoin _) = _
    rw [crownView_dropRejoin, crownView_withdrawPlan, crownView_showAbort]

theorem crownView_setTxn (x : TxnSt) : crownView { s with txn := x } = crownView s := rfl

@[simp] theorem crownView_memberAbort (d : Nat) : crownView (s.memberAbort d) = crownView s := by
  simp [State.memberAbort, crownView_setTxn]

@[simp] theorem crownView_leaveTeam (d : Nat) : crownView (s.leaveTeam d) = crownView s := by
  unfold State.leaveTeam
  split
  · refine (crownView_modDie _ d ?_).trans ?_
    · exact fun _ => ⟨rfl, rfl⟩
    · simp
  · rfl

/-! ### The fault log -/

@[simp] theorem crownView_wrLogWord (d k w v : Nat) : crownView (s.wrLogWord d k w v) = crownView s := by
  unfold State.wrLogWord
  split <;> exact crownView_wr _ _ _ _ (by decide)

@[simp] theorem crownView_wrLogEntry (d k seq : Nat) (r : FaultRec) : crownView (s.wrLogEntry d k seq r) = crownView s := by
  simp [State.wrLogEntry]

@[simp] theorem crownView_log (d : Nat) (r : FaultRec) : crownView (s.log d r) = crownView s := by
  have hseq (n : Nat) : crownView (s.modDie d fun x => { x with logSeq := n }) = crownView s :=
    crownView_modDie s d fun _ => ⟨rfl, rfl⟩
  simp (disch := decide) [State.log, hseq]

@[simp] theorem crownView_logCrown (r : FaultRec) : crownView (s.logCrown r) = crownView s := by
  unfold State.logCrown
  split <;> simp

/-! ### The crown moves -/

@[simp] theorem crownView_rebuildCopies : crownView s.rebuildCopies = crownView s :=
  crownView_forEach s _ fun t d => crownView_modDie t d fun _ => ⟨rfl, rfl⟩

@[simp] theorem crownView_setPlm (v : Nat) : crownView (s.setPlm v) = crownView s := crownView_wr s _ _ _ (by decide)

@[simp] theorem crownView_plmMoved : crownView s.plmMoved = crownView s := by
  simp [State.plmMoved, State.plmCut, State.plmRestart]

end

end Sys2Proof.Laws
end

section
/-! SUPPORT. PROOFS. Planned handover (O15). -/
namespace Sys2Proof.Laws
open Sys2Proof Sys2Proof.Machine

/-! ### What eligibility depends on (R42) -/

/-- The fields that eligibility reads. -/
def eligibleFlds : List Fld :=
  [PKG_QUAR_STATUS_QUARANTINED, FLT_RETIRED_DIE, PWR_STATUS_PARKED, IMG_DIGEST_LO_DIGEST, IMG_DIGEST_HI_DIGEST]

theorem eligible_congr {s t : State} (hdie : ∀ d, t.die d = s.die d) (hrd : ∀ g ∈ eligibleFlds, ∀ e, t.rd g e = s.rd g e)
    (himg : t.crown.imageStarted = s.crown.imageStarted) (href : t.reference = s.reference) (d : Nat) :
    t.eligible d = s.eligible d := by
  have hq := hrd PKG_QUAR_STATUS_QUARANTINED (by simp [eligibleFlds])
  have hr := hrd FLT_RETIRED_DIE (by simp [eligibleFlds])
  have hp := hrd PWR_STATUS_PARKED (by simp [eligibleFlds])
  have hl := hrd IMG_DIGEST_LO_DIGEST (by simp [eligibleFlds])
  have hh := hrd IMG_DIGEST_HI_DIGEST (by simp [eligibleFlds])
  simp only [State.eligible, State.nearEligible, State.quarantined, State.retiredDie, State.parked, State.flag, State.digest,
    hdie, hq, hr, hp, hl, hh, himg, href]

theorem eligible_silenced (s : State) (d : Nat) : (silenced s).eligible d = s.eligible d :=
  eligible_congr (fun _ => rfl) (fun _ _ _ => rfl) rfl rfl d

theorem handoverTarget_silenced (s : State) : (silenced s).handoverTarget = s.handoverTarget := by
  unfold State.handoverTarget State.standby
  simp only [eligible_silenced]
  rfl

/-! ### The operations -/

section
variable {s : State}

theorem askHandover_target {c k : Nat} (htok : s.crown.token = some c) (ht : s.handoverTarget = some k) :
    s.askHandover false =
      ({ s with crown := { s.crown with handover := some k } }.wrb PKG_CROWN_STATUS_HANDOVER_PENDING pkg s.txn.isOpen).respond
        0 := by
  simp [State.askHandover, htok, ht]

theorem askHandover_refused {c : Nat} (htok : s.crown.token = some c) (ht : s.handoverTarget = none) :
    s.askHandover false = (s.respond 0).refuseHandover false := by
  simp [State.askHandover, htok, ht]

/-- The token at its new holder, before the package shows it. -/
def movedToken (s : State) (k : Nat) : State :=
  ({ s with crown := { s.crown with token := some k, handover := none, endpoint := .handover, round := false } }.wr
    PKG_CROWN_STATUS_HANDOVER_PENDING pkg 0).ringMsg 3 k 15

theorem releaseToken_target {c h k : Nat} (htok : s.crown.token = some c) (hh : s.crown.handover = some h)
    (hopen : s.txn.isOpen = false) (ht : s.handoverTarget = some k) :
    s.releaseToken = (movedToken s k).refreshCrown.rebuildCopies.plmMoved := by
  simp [State.releaseToken, htok, hh, hopen, ht, movedToken]

theorem finishHandover_plain (he : s.crown.endpoint = .handover) (hd : s.crown.deferredReset = none) :
    s.finishHandover =
      { s with crown := { s.crown with endpoint := .service, deferredReset := none } }.raise PKG_CROWN_STATUS_HANDOVER_DONE
        pkg := by
  simp [State.finishHandover, he, hd]

end

/-- The modem's move to another crown changes the modem's registers alone. -/
theorem rd_plmMoved (s : State) {g : Fld} (hg : g.blk ≠ 22) (e j : Nat) : s.plmMoved.rd g e j = s.rd g e j := by
  have hwr (t : State) (v : Nat) : (t.setPlm v).rd g e j = t.rd g e j := rd_wr_other t (fun h => hg (blk_of_place h)) ..
  unfold State.plmMoved State.plmRestart
  split
  · exact hwr s 0
  · split
    · exact hwr s 6
    · exact hwr s _

theorem rd_rebuildCopies (s : State) (g : Fld) (e j : Nat) : s.rebuildCopies.rd g e j = s.rd g e j := by
  unfold State.rebuildCopies
  refine forEach_keeps (fun u => u.rd g e j) _ ?_ s
  intro t d _
  rfl

/-! ### Runs -/

/-- A run of an operation that writes some fields, the crown's record and the bus. -/
theorem crownBus_ran {fs : List Fld} {s u : State} {f : State → State} {c : CrownSt} {b : BusSt}
    (h : f (silenced s) = { u with crown := c, bus := b }) (hu : WritesOnly (AtFields fs) (silenced s) u) :
    (ran s f).crown = c ∧
      (∀ g, place g ∉ summaryPlaces → ∀ e j, (ran s f).rd g e j = u.rd g e j) ∧
      ran s f = { s with regs := (ran s f).regs, crown := (ran s f).crown, bus := (ran s f).bus, out := (ran s f).out } ∧
      KeepsRegs fs s (ran s f) := by
  have hpart : (f (silenced s)).part = s.part := by rw [h, hu.rest]; rfl
  have hrd (g : Fld) (e j : Nat) : (f (silenced s)).rd g e j = u.rd g e j := by rw [h]; rfl
  refine ⟨(ran_crown s f).trans (congrArg State.crown h), fun g hg e j => (rd_ran hpart hg e j).trans (hrd g e j), ?_,
    keepsRegs_ran hpart fun g e j hg => (hrd g e j).trans (hu.rd g e j hg)⟩
  rw [ran_eq, settle_eq, h, hu.rest]
  rfl

/-- A run of an operation that writes some fields and the crown's record. -/
theorem crown_ran {fs : List Fld} {s u : State} {f : State → State} {c : CrownSt}
    (h : f (silenced s) = { u with crown := c }) (hu : WritesOnly (AtFields fs) (silenced s) u) :
    (ran s f).crown = c ∧
      (∀ g, place g ∉ summaryPlaces → ∀ e j, (ran s f).rd g e j = u.rd g e j) ∧
      ran s f = { s with regs := (ran s f).regs, crown := (ran s f).crown, out := (ran s f).out } ∧
      KeepsRegs fs s (ran s f) := by
  have hpart : (f (silenced s)).part = s.part := by rw [h, hu.rest]; rfl
  have hrd (g : Fld) (e j : Nat) : (f (silenced s)).rd g e j = u.rd g e j := by rw [h]; rfl
  refine ⟨(ran_crown s f).trans (congrArg State.crown h), fun g hg e j => (rd_ran hpart hg e j).trans (hrd g e j), ?_,
    keepsRegs_ran hpart fun g e j hg => (hrd g e j).trans (hu.rd g e j hg)⟩
  rw [ran_eq, settle_eq, h, hu.rest]
  rfl

/-- The operation of a handover write. -/
def askAt (target : Nat) (s : State) : State := (s.wr PKG_CROWN_CTRL_TARGET pkg target).askHandover false

theorem handoverWrite_asks {s : State} {target : Fin 8} {c k : Nat} (htok : s.crown.token = some c)
    (ht : (s.wr PKG_CROWN_CTRL_TARGET pkg target).handoverTarget = some k) :
    Completes (.handover (.write target)) s fun t =>
      t.rd PKG_CROWN_CTRL_TARGET pkg = target ∧ t.crown = { s.crown with handover := some k } ∧
        t.rd PKG_CROWN_STATUS_HANDOVER_PENDING pkg = b2n s.txn.isOpen ∧
        t = { s with regs := t.regs, crown := t.crown, bus := t.bus, out := t.out } ∧
        KeepsRegs [PKG_CROWN_CTRL_TARGET, PKG_CROWN_STATUS_HANDOVER_PENDING] s t := by
  have hop := askHandover_target (s := silenced (s.wr PKG_CROWN_CTRL_TARGET pkg target)) htok
    ((handoverTarget_silenced _).trans ht)
  obtain ⟨hcrown, hrd, hshow⟩ := crownBus_ran (s := s) (f := askAt target)
    (fs := [PKG_CROWN_CTRL_TARGET, PKG_CROWN_STATUS_HANDOVER_PENDING])
    (u := ((silenced s).wr PKG_CROWN_CTRL_TARGET pkg target).wrb PKG_CROWN_STATUS_HANDOVER_PENDING pkg s.txn.isOpen) hop
    (((WritesOnly.refl _ _).wr (.of_mem (by simp) _) _ _).wr (.of_mem (by simp) _) _ _)
  refine ⟨ran s (askAt target), rfl, ?_, hcrown, ?_, hshow⟩
  · rw [hrd _ (by decide), rd_wrb_other _ (by decide), rd_wr_same]
    exact Nat.mod_eq_of_lt target.isLt
  · rw [hrd _ (by decide)]
    refine (rd_wr_same _ PKG_CROWN_STATUS_HANDOVER_PENDING pkg _ 0).trans ?_
    cases s.txn.isOpen <;> rfl

theorem handoverWrite_refused {s : State} {target : Fin 8} {c : Nat} (htok : s.crown.token = some c)
    (ht : (s.wr PKG_CROWN_CTRL_TARGET pkg target).handoverTarget = none) :
    Completes (.handover (.write target)) s fun t =>
      t.rd PKG_CROWN_STATUS_HANDOVER_REFUSED pkg = 1 ∧ t.crown.token = some c ∧ t.crown.handover = none ∧
        t = { s with regs := t.regs, crown := t.crown, bus := t.bus, out := t.out } ∧
        KeepsRegs [PKG_CROWN_CTRL_TARGET, PKG_CROWN_STATUS_HANDOVER_PENDING, PKG_CROWN_STATUS_HANDOVER_REFUSED] s t := by
  have hop := askHandover_refused (s := silenced (s.wr PKG_CROWN_CTRL_TARGET pkg target)) htok
    ((handoverTarget_silenced _).trans ht)
  obtain ⟨hcrown, hrd, hshow⟩ := crownBus_ran (s := s) (f := askAt target)
    (fs := [PKG_CROWN_CTRL_TARGET, PKG_CROWN_STATUS_HANDOVER_PENDING, PKG_CROWN_STATUS_HANDOVER_REFUSED])
    (u := (((silenced s).wr PKG_CROWN_CTRL_TARGET pkg target).raise PKG_CROWN_STATUS_HANDOVER_REFUSED pkg).wr
      PKG_CROWN_STATUS_HANDOVER_PENDING pkg 0)
    (c := { s.crown with handover := none, deferredReset := none }) hop
    ((((WritesOnly.refl _ _).wr (.of_mem (by simp) _) _ _).wr (.of_mem (by simp) _) _ _).wr (.of_mem (by simp) _) _ _)
  refine ⟨ran s (askAt target), rfl, ?_, by rw [hcrown]; exact htok, by rw [hcrown], hshow⟩
  rw [hrd _ (by decide), rd_wr_other _ (by decide), rd_raise_one _ rfl]

theorem handoverRelease_moves {s : State} {c h k : Nat} (htok : s.crown.token = some c) (hh : s.crown.handover = some h)
    (hopen : s.txn.isOpen = false) (ht : s.handoverTarget = some k) :
    Completes .handoverRelease s fun t =>
      t.crown = { s.crown with token := some k, handover := none, endpoint := .handover, round := false } ∧
        t.rd PKG_CROWN_STATUS_HANDOVER_PENDING pkg = 0 ∧ t.rd PKG_CROWN_STATUS_CROWN pkg = k % 8 := by
  have hop : (silenced s).releaseToken = (movedToken (silenced s) k).refreshCrown.rebuildCopies.plmMoved :=
    releaseToken_target (s := silenced s) htok hh hopen ((handoverTarget_silenced s).trans ht)
  have hview : crownView (silenced s).releaseToken = crownView (movedToken (silenced s) k) := by
    rw [hop, crownView_plmMoved, crownView_rebuildCopies, crownView_refreshCrown]
  refine ⟨ran s State.releaseToken, rfl, ?_, ?_, ?_⟩
  · rw [ran_crown]
    exact crownView_crown hview
  · rw [rd_ran_plain _ _ rfl (by decide), crownView_rd hview (by decide)]
    exact rd_wr_same _ PKG_CROWN_STATUS_HANDOVER_PENDING pkg 0 0
  · rw [rd_ran_plain _ _ rfl (by decide), hop, rd_plmMoved _ (by decide), rd_rebuildCopies, rd_refreshCrown_crown _ rfl]

theorem handoverComplete_serves {s : State} (he : s.crown.endpoint = .handover) (hd : s.crown.deferredReset = none) :
    Completes .handoverComplete s fun t =>
      t.crown = { s.crown with endpoint := .service } ∧ t.rd PKG_CROWN_STATUS_HANDOVER_DONE pkg = 1 ∧
        t = { s with regs := t.regs, crown := t.crown, out := t.out } ∧ KeepsRegs [PKG_CROWN_STATUS_HANDOVER_DONE] s t := by
  have hop := finishHandover_plain (s := silenced s) he hd
  have hsame : ({ s.crown with endpoint := .service, deferredReset := none } : CrownSt) =
      { s.crown with endpoint := .service } := by
    rw [← hd]
  obtain ⟨hcrown, hrd, hshow⟩ := crown_ran (f := State.finishHandover) (fs := [PKG_CROWN_STATUS_HANDOVER_DONE])
    (u := (silenced s).raise PKG_CROWN_STATUS_HANDOVER_DONE pkg)
    (c := { s.crown with endpoint := .service, deferredReset := none }) hop
    ((WritesOnly.refl _ _).wr (.of_mem (by simp) _) _ _)
  refine ⟨ran s State.finishHandover, rfl, hcrown.trans hsame, ?_, hshow⟩
  rw [hrd _ (by decide), rd_raise_one _ rfl]

/-- Settles O15: a handover is asked for or refused, moves the token at a boundary, and ends (log entry 86: PKG_CROWN_STATUS
shows the new crown from the release on). -/
theorem plannedHandover : Obligations.PlannedHandover :=
  ⟨fun _ _ _ _ htok ht => handoverWrite_asks htok ht, fun _ _ _ htok ht => handoverWrite_refused htok ht,
    fun _ _ _ _ htok hh hopen ht => handoverRelease_moves htok hh hopen ht, fun _ he hd => handoverComplete_serves he hd⟩

end Sys2Proof.Laws
end

section
/-! SUPPORT. PROOFS. The takeover after the crown fails (O14). -/
namespace Sys2Proof.Laws
open Sys2Proof Sys2Proof.Machine

/-! ### The crown stops -/

@[simp] theorem centre_crownDark (s : State) (d : Nat) : centre (s.crownDark d) = centre s := by
  have hstop := centre_stopArms s d
  unfold State.crownDark
  rw [← stopArms.eq_def s d]
  dsimp only
  split
  · rw [centre_seamLeave, hstop]
  · exact hstop

/-- The crown's record once die `c` has failed as the crown; a handover that waits for a transaction is kept. -/
def freedCrown (x : CrownSt) (c : Nat) (keep : Bool) : CrownSt :=
  { x with
    token := none, failed := some c, olds := x.olds.filter (fun d => d != c) ++ [c], acks := []
    handover := if keep then x.handover else none
    deferredReset := if keep then x.deferredReset else none, round := false
    noCandidate := false, endpoint := .takeover }

/-- The token is free, and no access runs. -/
def freed (s : State) (c : Nat) (keep : Bool) : State :=
  { s with crown := freedCrown s.crown c keep, bus := { s.bus with running := none, waiting := [] } }

theorem crownFails_held {s : State} {c : Nat} (h : s.crown.token = some c) :
    s.crownFails =
      (freed (s.crownDark c) c (s.flag PKG_CROWN_STATUS_HANDOVER_PENDING pkg)).refreshCandidates.showToken := by
  simp [State.crownFails, h, freed, freedCrown]

/-- The endpoint of a package whose token is free: a takeover goes on while a die can claim. -/
def freeEndpoint (s : State) : Endpoint := if s.dieList.any s.canClaim then .takeover else .off

/-- The crown's record with its endpoint's part set. -/
def shownCandidates (s : State) : State :=
  { s with crown := { s.crown with noCandidate := !s.dieList.any s.canClaim, endpoint := freeEndpoint s } }

theorem refreshCandidates_freed (s : State) (c : Nat) (k : Bool) :
    (freed s c k).refreshCandidates = shownCandidates (freed s c k) := by
  unfold State.refreshCandidates shownCandidates freeEndpoint
  cases h : (freed s c k).dieList.any (freed s c k).canClaim <;> rfl

theorem contains_filter_append (xs : List Nat) (c d : Nat) :
    (!(xs.filter (fun x => x != c) ++ [c]).contains d) = (d != c && !xs.contains d) := by
  by_cases h : d = c <;> simp [h]

/-- The dies that can claim once a crown has failed: the eligible ones that are no failed crown (R42, R45). -/
theorem canClaim_freed {s t : State} {c : Nat} (htok : s.crown.token = some c) (h : centre t = centre s) (k : Bool) (d : Nat) :
    (freed t c k).canClaim d = (d != c && s.eligible d && !s.crown.olds.contains d) := by
  have hcrown : t.crown = s.crown := congrArg Centre.crown h
  have hdies : t.dies = s.dies := congrArg Centre.dies h
  have hunit : ∀ g ∈ eligibleFlds, unitBlock g.blk = false := by decide
  have hel : (freed t c k).eligible d = s.eligible d := by
    refine eligible_congr (t := freed t c k) (fun e => ?_) (fun g hg e => rd_of_centre h (hunit g hg) e 0) ?_ ?_ d
    · change t.die e = _
      rw [State.die, State.die, hdies]
    · change t.crown.imageStarted = _
      rw [hcrown]
    · rw [State.reference, State.reference, htok]
      rfl
  have holds : (freed t c k).crown.olds = s.crown.olds.filter (fun x => x != c) ++ [c] := by
    change t.crown.olds.filter _ ++ _ = _
    rw [hcrown]
  rw [State.canClaim, hel, holds, contains_filter_append]
  cases s.eligible d <;> cases d != c <;> rfl

/-- The state once die `c` has failed as the crown, before the dies show it. -/
def crownLost (s : State) (c : Nat) : State :=
  shownCandidates (freed (s.crownDark c) c (s.flag PKG_CROWN_STATUS_HANDOVER_PENDING pkg))

theorem crownFails_eq {s : State} {c : Nat} (htok : s.crown.token = some c) : s.crownFails = (crownLost s c).showToken := by
  rw [crownFails_held htok, refreshCandidates_freed]
  rfl

theorem crownLost_endpoint {s : State} {c : Nat} (htok : s.crown.token = some c) :
    (crownLost s c).crown.endpoint =
      (if s.dieList.any (fun d => d != c && s.eligible d && !s.crown.olds.contains d) then .takeover else .off) := by
  have hpart : (s.crownDark c).part = s.part := congrArg Centre.part (centre_crownDark s c)
  have hcan : (freed (s.crownDark c) c (s.flag PKG_CROWN_STATUS_HANDOVER_PENDING pkg)).canClaim =
      fun d => d != c && s.eligible d && !s.crown.olds.contains d :=
    funext fun d => canClaim_freed htok (centre_crownDark s c) _ d
  change freeEndpoint _ = _
  rw [freeEndpoint, hcan]
  change (if (List.range (s.crownDark c).part.dies).any _ then _ else _) = _
  rw [hpart]
  rfl

/-- A run of an operation that ends with writes of fields: the rest is as it was before these. -/
theorem ran_of_writesOnly {P : Fld → Nat → Prop} {s u : State} {f : State → State} (h : WritesOnly P u (f (silenced s))) :
    (ran s f).crown = u.crown ∧ (ran s f).bus = u.bus ∧ (ran s f).txn = u.txn ∧ (ran s f).mem = u.mem ∧
      (ran s f).flash = u.flash :=
  ⟨(ran_crown s f).trans (congrArg State.crown h.rest :), (ran_bus s f).trans (congrArg State.bus h.rest :),
    (ran_txn s f).trans (congrArg State.txn h.rest :), (ran_mem s f).trans (congrArg State.mem h.rest :),
    (ran_flash s f).trans (congrArg State.flash h.rest :)⟩

theorem crownWatchdogExpiry_frees {s : State} {c : Nat} (htok : s.crown.token = some c) :
    Completes .crownWatchdogExpiry s fun t =>
      t.crown.token = none ∧ t.crown.failed = some c ∧ t.crown.olds = s.crown.olds.filter (fun d => d != c) ++ [c] ∧
        t.crown.endpoint =
          (if s.dieList.any (fun d => d != c && s.eligible d && !s.crown.olds.contains d) then .takeover else .off) ∧
        (∀ d, d < s.part.dies → t.rd PKG_DIE_STATUS_IS_CROWN d = 0) ∧
        t.bus = { s.bus with running := none, waiting := [] } ∧ t.txn = s.txn ∧ KeepsMemory s t ∧
        ∀ (g : Fld) (j : Nat), g.blk = 26 → place g ∉ summaryPlaces → t.rd g pkg j = s.rd g pkg j := by
  have hdark := centre_crownDark (silenced s) c
  have hop : (silenced s).crownFails = (crownLost (silenced s) c).showToken := crownFails_eq (s := silenced s) htok
  have hshow : WritesOnly (AtFields [PKG_DIE_STATUS_IS_CROWN]) (crownLost (silenced s) c) (silenced s).crownFails :=
    hop ▸ writesOnly_showToken _
  have hpart : (crownLost (silenced s) c).part = s.part := congrArg Centre.part hdark
  have hpart' : (silenced s).crownFails.part = s.part := (congrArg State.part hshow.rest :).trans hpart
  have hend := crownLost_endpoint (s := silenced s) htok
  simp only [eligible_silenced] at hend
  obtain ⟨hcrown, hbus, htxn, hmem, hflash⟩ := ran_of_writesOnly hshow
  refine ⟨ran s State.crownFails, rfl, congrArg CrownSt.token hcrown, congrArg CrownSt.failed hcrown, ?_,
    (congrArg CrownSt.endpoint hcrown).trans hend, fun d hd => ?_, ?_, htxn.trans (congrArg Centre.txn hdark),
    ⟨fun a => ?_, fun a => ?_⟩, fun g j hb hg => ?_⟩
  · rw [hcrown]
    exact congrArg (fun x : Centre => x.crown.olds.filter (fun d => d != c) ++ [c]) hdark
  · rw [rd_ran hpart' (by decide), hop, rd_showToken _ (hpart ▸ hd)]
    rfl
  · rw [hbus]
    exact congrArg (fun x : Centre => ({ x.bus with running := none, waiting := [] } : BusSt)) hdark
  · rw [hmem]
    exact congrArg (fun x : Centre => memByte ramDefault x.mem a) hdark
  · rw [hflash]
    exact congrArg (fun x : Centre => memByte flashDefault x.flash a) hdark
  · have hnot : ¬ AtFields [PKG_DIE_STATUS_IS_CROWN] g pkg := by
      intro h
      have hpl : place g = place PKG_DIE_STATUS_IS_CROWN := by simpa [AtFields] using h
      exact absurd (hb.symm.trans (blk_of_place hpl)) (by decide)
    rw [rd_ran hpart' hg, hshow.rd _ _ _ hnot]
    exact rd_of_centre hdark (by rw [hb]; rfl) pkg j

/-! ### A claim and its acknowledgements -/

/-- The move of the DPLL to a new crown changes the timing function alone (R364). -/
theorem timOnly_dpllTakeover (s : State) (old : Nat) : TimOnly s (s.dpllTakeover old) := by
  have hslot (u : State) (k : Nat) : TimOnly u
      (if (u.modRef k fun x => { x with fresh := false }).flag TIM_REF_CFG_EN pkg k &&
          (u.modRef k fun x => { x with fresh := false }).rd TIM_REF_CFG_SOURCE pkg k == 1 &&
          (u.modRef k fun x => { x with fresh := false }).rd TIM_REF_CFG_DIE pkg k == old then
        ((u.modRef k fun x => { x with fresh := false }).disqualify k 1).wr TIM_REF_STATUS_ACTIVE pkg 0 k
      else u.modRef k fun x => { x with fresh := false }) := by
    have h := (TimOnly.refl u).modRef k fun x => { x with fresh := false }
    split
    · exact (h.disqualify k 1).wr rfl 0 k
    · exact h
  have h := (((TimOnly.refl s).setDpll 3).modTim fun x => { x with holdTake := true }).forEach (List.range 16) hslot
  unfold State.dpllTakeover
  dsimp only
  split
  · exact h
  · exact (h.showSelected _).wr rfl _ _

/-- The claimant holds the token and has sent its claim. -/
def claimed (s : State) (d : Nat) : State :=
  { s with crown := { s.crown with token := some d, acks := [], noCandidate := false } }.ringMsg 3 d 15

/-- What a claim does: the claimant holds the token, the DPLL moves, and the dies show it. -/
theorem claimToken_claims {s : State} {d old : Nat} (htok : s.crown.token = none) (hfail : s.crown.failed = some old)
    (hend : s.crown.endpoint = .takeover) (hcan : s.canClaim d = true) (himg : s.crown.imageStarted = true) :
    ∃ w, TimOnly (claimed s d) w ∧ s.claimToken d = w.showToken := by
  refine ⟨_, timOnly_dpllTakeover (claimed s d) old, ?_⟩
  have himg' (w : State) (h : TimOnly (claimed s d) w) : w.showToken.crown.imageStarted = true := by
    rw [(writesOnly_showToken w).rest, h.rest]
    exact himg
  unfold State.claimToken
  split
  case h_1 o _ hf =>
    obtain rfl : o = old := Option.some.inj (hf.symm.trans hfail)
    rw [if_pos (by rw [hcan, hend]; rfl)]
    dsimp only
    rw [← claimed.eq_def s d]
    exact if_pos (himg' _ (timOnly_dpllTakeover _ o))
  case h_2 h => exact absurd hfail (h old htok)

theorem crownClaim_claims {s : State} {d : Fin 8} {old : Nat} (hd : (d : Nat) < s.part.dies) (htok : s.crown.token = none)
    (hfail : s.crown.failed = some old) (hend : s.crown.endpoint = .takeover) (hcan : s.canClaim d = true)
    (himg : s.crown.imageStarted = true) :
    Completes (.crownClaim d) s fun t =>
      t.crown = { s.crown with token := some (d : Nat), acks := [], noCandidate := false } ∧
        t.rd PKG_DIE_STATUS_IS_CROWN d = 1 ∧ t.mem = s.mem ∧ t.flash = s.flash := by
  have hcan' : (silenced s).canClaim d = true := by
    rw [State.canClaim, eligible_silenced]
    exact hcan
  obtain ⟨w, htim, hop⟩ := claimToken_claims (s := silenced s) htok hfail hend hcan' himg
  have hshow : WritesOnly (AtFields [PKG_DIE_STATUS_IS_CROWN]) w ((silenced s).claimToken d) := hop ▸ writesOnly_showToken w
  have hpart : w.part = s.part := (congrArg State.part htim.rest :)
  have hpart' : ((silenced s).claimToken d).part = s.part := (congrArg State.part hshow.rest :).trans hpart
  have htoken : w.crown.token = some (d : Nat) := (congrArg (fun u : State => u.crown.token) htim.rest :)
  obtain ⟨hcrown, -, -, hmem, hflash⟩ := ran_of_writesOnly (f := fun u => u.claimToken d) hshow
  refine completes_runDie s hd ⟨hcrown.trans (congrArg State.crown htim.rest :), ?_,
    hmem.trans (congrArg State.mem htim.rest :), hflash.trans (congrArg State.flash htim.rest :)⟩
  rw [rd_ran (f := fun u => u.claimToken d) hpart' (by decide), hop, rd_showToken _ (hpart ▸ hd), htoken]
  simp [b2n]

theorem takeClaim_acknowledges {s : State} {d c : Nat} (htok : s.crown.token = some c) (hne : c ≠ d)
    (hend : s.crown.endpoint = .takeover) : s.takeClaim d = s.ringMsg 4 d c := by
  simp [State.takeClaim, htok, hend, hne]

theorem claim_acknowledged {s : State} {d : Fin 8} {c : Nat} (hd : (d : Nat) < s.part.dies) (htok : s.crown.token = some c)
    (hne : c ≠ (d : Nat)) (hend : s.crown.endpoint = .takeover) :
    Completes (.claim d) s fun t =>
      (∃ p, t.out = [.ring { type := 4, src := (d : Nat), dst := c, payload := p }]) ∧
        t = { s with regs := t.regs, fresh := s.fresh + 1, out := t.out } ∧ KeepsRegs [] s t := by
  have hop : (silenced s).takeClaim d = (silenced s).ringMsg 4 d c := takeClaim_acknowledges (s := silenced s) htok hne hend
  obtain ⟨hbus, hrest, hkeep⟩ := startedAccess_ran (s := s) (f := fun u => u.takeClaim d) (b := s.bus) hop
  rw [hbus] at hrest
  exact completes_runDie s hd ⟨⟨_, (ran_out s _).trans (congrArg State.out hop)⟩, hrest, hkeep⟩

theorem takeClaimAck_new {s : State} {d c : Nat} (htok : s.crown.token = some c) (hne : c ≠ d)
    (hend : s.crown.endpoint = .takeover) (hnew : d ∉ s.crown.acks) :
    s.takeClaimAck d = { s with crown := { s.crown with acks := s.crown.acks ++ [d] } } := by
  simp [State.takeClaimAck, htok, hend, hne, hnew]

theorem claimAck_kept {s : State} {d : Fin 8} {c : Nat} (hd : (d : Nat) < s.part.dies) (htok : s.crown.token = some c)
    (hne : c ≠ (d : Nat)) (hend : s.crown.endpoint = .takeover) (hnew : (d : Nat) ∉ s.crown.acks) :
    Completes (.claimAck d) s fun t =>
      t.crown.acks = s.crown.acks ++ [(d : Nat)] ∧
        t = { s with regs := t.regs, crown := { s.crown with acks := t.crown.acks }, out := t.out } ∧ KeepsRegs [] s t := by
  have hop := takeClaimAck_new (s := silenced s) htok hne hend hnew
  obtain ⟨hcrown, -, hrest, hkeep⟩ := crown_ran (s := s) (f := fun u => u.takeClaimAck d) (fs := []) hop (.refl _ _)
  have hacks : (ran s fun u => u.takeClaimAck d).crown.acks = s.crown.acks ++ [(d : Nat)] := congrArg CrownSt.acks hcrown
  refine completes_runDie s hd ⟨hacks, ?_, hkeep⟩
  rw [hacks]
  rw [hcrown] at hrest
  exact hrest

/-! ### The takeover ends -/

/-- The new crown serves, and no answer of the old one stands. -/
def serving (s : State) : State :=
  { s with
    crown := { s.crown with failed := none, olds := [], endpoint := .service }
    bus := { s.bus with keptInband := none, keptPair := none, running := none, waiting := [] } }

/-- The old crowns have left their teams, and what was open is judged (R45, R46). -/
def oldsLeft (s : State) : State := (serving s).takeoverTxn.forEach s.crown.olds State.leaveOld

theorem finishTakeover_eq {s : State} {c old : Nat} (htok : s.crown.token = some c) (hfail : s.crown.failed = some old) :
    s.finishTakeover =
      ((((oldsLeft s).raise PKG_CROWN_STATUS_TAKEOVER pkg).count PKG_CROWN_STATUS_TAKEOVER_COUNT pkg).logCrown
        (chipEvent codeTakeover old 0)).refreshCrown.rebuildCopies.plmMoved := by
  unfold State.finishTakeover
  rw [htok, hfail]
  rfl

theorem crownView_leaveOld (s : State) (d : Nat) : crownView (s.leaveOld d) = crownView s := by
  unfold State.leaveOld
  split
  · exact crownView_modDie s d fun _ => ⟨rfl, rfl⟩
  · rfl

theorem crownView_oldsLeft (s : State) : crownView (oldsLeft s) = crownView (serving s) := by
  refine (crownView_forEach _ _ crownView_leaveOld).trans ?_
  unfold State.takeoverTxn
  split
  · exact crownView_abortTxn _ _
  · rfl

theorem takeoverComplete_serves {s : State} {c old : Nat} (htok : s.crown.token = some c) (hfail : s.crown.failed = some old) :
    Completes .takeoverComplete s fun t =>
      t.crown.token = some c ∧ t.crown.failed = none ∧ t.crown.endpoint = .service ∧
        t.rd PKG_CROWN_STATUS_TAKEOVER pkg = 1 ∧
        t.rd PKG_CROWN_STATUS_TAKEOVER_COUNT pkg =
          min (s.rd PKG_CROWN_STATUS_TAKEOVER_COUNT pkg + 1) (2 ^ PKG_CROWN_STATUS_TAKEOVER_COUNT.w - 1) := by
  have hleft := crownView_oldsLeft (silenced s)
  have hview : crownView (silenced s).finishTakeover =
      crownView (((oldsLeft (silenced s)).raise PKG_CROWN_STATUS_TAKEOVER pkg).count PKG_CROWN_STATUS_TAKEOVER_COUNT pkg) := by
    rw [finishTakeover_eq (s := silenced s) htok hfail, crownView_plmMoved, crownView_rebuildCopies, crownView_refreshCrown,
      crownView_logCrown]
  have hcrown : (ran s State.finishTakeover).crown = (serving s).crown :=
    (ran_crown s _).trans ((crownView_crown hview).trans (crownView_crown hleft :))
  refine ⟨ran s State.finishTakeover, rfl, ?_, by rw [hcrown]; rfl, by rw [hcrown]; rfl, ?_, ?_⟩
  · rw [hcrown]
    exact htok
  · rw [rd_ran_plain _ _ rfl (by decide), crownView_rd hview (by decide), rd_count_other _ (by decide), rd_raise_one _ rfl]
  · rw [rd_ran_plain _ _ rfl (by decide), crownView_rd hview (by decide), rd_count_same, rd_raise_other _ (by decide),
      crownView_rd hleft (by decide)]
    rfl

/-! ### A stuck crown -/

/-- The dies other than the holder of the token show that it is stuck (R46). -/
def showStuck (s : State) (c : Nat) : State :=
  s.forEach (s.dieList.filter fun d => d != c) fun t d => t.raise PKG_DIE_STATUS_CROWN_STUCK d

theorem forEach_setCrown {α : Type} (xs : List α) {f : State → α → State} (x : CrownSt)
    (h : ∀ t a, f { t with crown := x } a = { f t a with crown := x }) (s : State) :
    State.forEach { s with crown := x } xs f = { s.forEach xs f with crown := x } := by
  induction xs generalizing s with
  | nil => rfl
  | cons a xs ih =>
    change State.forEach (f { s with crown := x } a) xs f = _
    rw [h]
    exact ih (f s a)

theorem stick_eq {s : State} {c : Nat} (htok : s.crown.token = some c) :
    s.stick = { showStuck s c with crown := { s.crown with stuck := true } } := by
  unfold State.stick
  rw [htok]
  exact forEach_setCrown _ _ (fun _ _ => rfl) s

theorem writesOnly_showStuck (s : State) (c : Nat) : WritesOnly (AtFields [PKG_DIE_STATUS_CROWN_STUCK]) s (showStuck s c) :=
  (WritesOnly.refl _ s).forEach _ fun u d _ => (WritesOnly.refl _ u).wr (.of_mem (by simp) d) _ _

theorem rd_showStuck (s : State) {c d : Nat} (hd : d < s.part.dies) (hne : d ≠ c) :
    (showStuck s c).rd PKG_DIE_STATUS_CROWN_STUCK d = 1 := by
  refine forEach_sets (φ := fun u => u.rd PKG_DIE_STATUS_CROWN_STUCK d)
    (g := fun u x => u.raise PKG_DIE_STATUS_CROWN_STUCK x) (fun u x hx => ?_) (fun u => rd_raise_one u rfl d) ?_ s
  · exact rd_raise_inst u _ _ (Ne.symm hx) ..
  · exact List.mem_filter.mpr ⟨List.mem_range.mpr hd, by simpa using hne⟩

theorem crownStuck_shown {s : State} {c : Nat} (htok : s.crown.token = some c) :
    Completes .crownStuck s fun t =>
      t.crown = { s.crown with stuck := true } ∧ (∀ d, d < s.part.dies → d ≠ c → t.rd PKG_DIE_STATUS_CROWN_STUCK d = 1) ∧
        t = { s with regs := t.regs, crown := t.crown, out := t.out } ∧ KeepsRegs [PKG_DIE_STATUS_CROWN_STUCK] s t := by
  obtain ⟨hcrown, hrd, hshow⟩ := crown_ran (s := s) (f := State.stick) (stick_eq (s := silenced s) htok)
    (writesOnly_showStuck (silenced s) c)
  refine ⟨ran s State.stick, rfl, hcrown, fun d hd hne => ?_, hshow⟩
  rw [hrd _ (by decide)]
  exact rd_showStuck (silenced s) hd hne

/-- Settles O14: the crown fails, a candidate claims the token, the others acknowledge, the takeover ends, and a stuck crown
shows on the other dies. -/
theorem crownTakeover : Obligations.CrownTakeover :=
  ⟨fun _ _ htok => crownWatchdogExpiry_frees htok,
    fun _ _ _ hd htok hfail hend hcan himg => crownClaim_claims hd htok hfail hend hcan himg,
    fun _ _ _ hd htok hne hend =>
      ⟨claim_acknowledged hd htok hne hend, fun hnew => claimAck_kept hd htok hne hend hnew⟩,
    fun _ _ _ htok hfail => takeoverComplete_serves htok hfail, fun _ _ htok => crownStuck_shown htok⟩

end Sys2Proof.Laws
end

section
/-! SUPPORT. PROOFS. Heartbeats: what the comparisons and the power manager leave of the crown and the answers (O17). -/
namespace Sys2Proof.Laws
open Sys2Proof Sys2Proof.Machine

/-! ### The crown's record and the answers of a round -/

/-- The part, the crown's record, and the directions of each die's answer. -/
structure Lead where
  part : Part
  crown : CrownSt
  answered : Nat → Option (Bool × Bool)

/-- What a state shows of it. -/
def lead (s : State) : Lead := { part := s.part, crown := s.crown, answered := fun d => (s.die d).answered }

section
variable {s t : State}

theorem lead_congr (hpart : t.part = s.part) (hcrown : t.crown = s.crown)
    (hans : ∀ d, (t.die d).answered = (s.die d).answered) : lead t = lead s := by
  simp only [lead, hpart, hcrown, hans]

theorem lead_part (h : lead t = lead s) : t.part = s.part := congrArg Lead.part h

theorem lead_crown (h : lead t = lead s) : t.crown = s.crown := congrArg Lead.crown h

theorem lead_answered (h : lead t = lead s) (d : Nat) : (t.die d).answered = (s.die d).answered :=
  congrFun (congrArg Lead.answered h) d

theorem lead_of_crownView (h : crownView t = crownView s) : lead t = lead s :=
  lead_congr (crownView_part h) (crownView_crown h) (crownView_answered h)

end

section
variable (s : State)

@[simp] theorem lead_ite (c : Prop) [Decidable c] (t u : State) : lead (if c then t else u) = if c then lead t else lead u :=
  apply_ite lead c t u

theorem lead_forEach {α : Type} (xs : List α) {f : State → α → State} (h : ∀ t x, lead (f t x) = lead t) :
    lead (s.forEach xs f) = lead s := forEach_keeps lead xs (fun t x _ => h t x) s

/-- A change of a die's record that leaves its answer. -/
theorem lead_modDie (d : Nat) {f : DieSt → DieSt} (hf : ∀ x, (f x).answered = x.answered) : lead (s.modDie d f) = lead s := by
  refine lead_congr rfl rfl fun e => ?_
  by_cases he : e = d
  · subst he
    exact (congrArg DieSt.answered (modDie_die s e f)).trans (hf _)
  · exact congrArg DieSt.answered (modDie_die_other s he f)

@[simp] theorem lead_wr (f : Fld) (d v k : Nat) : lead (s.wr f d v k) = lead s := rfl
@[simp] theorem lead_wrb (f : Fld) (d k : Nat) (b : Bool) : lead (s.wrb f d b k) = lead s := rfl
@[simp] theorem lead_wrBit (f : Fld) (d i k : Nat) (b : Bool) : lead (s.wrBit f d i b k) = lead s := rfl
@[simp] theorem lead_raise (f : Fld) (d m k : Nat) : lead (s.raise f d m k) = lead s := rfl
@[simp] theorem lead_modPwr (d : Nat) (f : PwrSt → PwrSt) : lead (s.modPwr d f) = lead s := rfl
@[simp] theorem lead_modMgr (t : Nat) (f : MgrSt → MgrSt) : lead (s.modMgr t f) = lead s := rfl
@[simp] theorem lead_modFlowPwr (d i : Nat) (f : FlowPwr → FlowPwr) : lead (s.modFlowPwr d i f) = lead s := rfl
@[simp] theorem lead_stage (f : Fld) (d v k : Nat) : lead (s.stage f d v k) = lead s := rfl
@[simp] theorem lead_discard (d : Nat) : lead (s.discard d) = lead s := rfl
@[simp] theorem lead_hold (d : Nat) : lead (s.hold d) = lead s := rfl
@[simp] theorem lead_holdShadow (d : Nat) : lead (s.holdShadow d) = lead s := rfl
@[simp] theorem lead_ringMsg (type src dst : Nat) : lead (s.ringMsg type src dst) = lead s := rfl
@[simp] theorem lead_ringTxn (a b c r : Nat) : lead (s.ringTxn a b c r) = lead s := rfl
@[simp] theorem lead_refreshCrown : lead s.refreshCrown = lead s := lead_of_crownView (crownView_refreshCrown s)
@[simp] theorem lead_abortTxn (r : Nat) : lead (s.abortTxn r) = lead s := lead_of_crownView (crownView_abortTxn s r)
@[simp] theorem lead_clearHolds : lead s.clearHolds = lead s := lead_of_crownView (crownView_clearHolds s)

/-! ### The power manager -/

theorem lead_setTxn (x : TxnSt) : lead { s with txn := x } = lead s := rfl

@[simp] theorem lead_openTxn (rollback : Bool) (m : Nat) : lead (s.openTxn rollback m) = lead s := by
  simp [State.openTxn, lead_setTxn]

@[simp] theorem lead_openSteps (ts : List Nat) (k : MgrStep) : lead (s.openSteps ts k) = lead s := by
  refine (lead_openTxn _ _ _).trans ((lead_wr _ _ _ _ _).trans (lead_forEach _ _ fun u t => ?_))
  simp

@[simp] theorem lead_stageSlot (e k d f : Nat) (v : Bool) : lead (s.stageSlot e k d f v) = lead s := by
  simp [State.stageSlot]

@[simp] theorem lead_shedFlows (fs : List (Nat × Nat × Nat)) : lead (s.shedFlows fs) = lead s := by
  refine (lead_modMgr _ _ _).trans ((lead_openSteps _ _ _).trans (lead_forEach _ _ fun u x => ?_))
  exact (lead_forEach _ _ fun v y => lead_stageSlot v _ _ _ _ _).trans (lead_modFlowPwr _ _ _ _)

@[simp] theorem lead_critShed : lead s.critShed = lead s := by
  simp [State.critShed]

@[simp] theorem lead_discardAll : lead s.discardAll = lead s := lead_forEach _ _ fun t d => lead_discard t d

@[simp] theorem lead_closeSteps : lead s.closeSteps = lead s := by
  unfold State.closeSteps
  split
  · rfl
  · refine (lead_wrb _ _ _ _ _).trans (lead_forEach _ _ fun u t => ?_)
    dsimp only
    split
    · rfl
    · refine (lead_forEach _ _ fun v e => ?_).trans ?_ <;> simp

@[simp] theorem lead_thermal : lead s.thermal = lead s := by
  simp [State.thermal]

/-! ### An answer -/

theorem lead_setImage (x : ImageSt) : lead { s with image := x } = lead s := rfl

@[simp] theorem lead_release (d : Nat) : lead (s.release_ d) = lead s := by
  refine (lead_refreshCrown _).trans ?_
  rw [lead_setImage]
  simp [lead_modDie]

theorem lead_releaseStep (d : Nat) (items : List Nat) : lead (s.releaseStep d items) = lead s := by
  unfold State.releaseStep
  split
  · rfl
  · simp [lead_modDie]

theorem lead_compareValues (c d mf sf tick : Nat) : lead (s.compareValues c d mf sf tick) = lead s := by
  simp [State.compareValues, lead_releaseStep, lead_modDie]

/-- An answer leaves the crown as it was and is kept with its directions. -/
theorem lead_takeAnswer (c d : Nat) (a : HbAnswer) (cw ccw : Bool) :
    lead (s.takeAnswer c d a cw ccw) = lead (s.modDie d fun x => { x with answered := some (cw, ccw) }) := by
  have hkept (i : Nat) (r : Bool) :
      lead (s.modDie d fun x => { x with answered := some (cw, ccw), irqCopy := i, ringCopy := r }) =
        lead (s.modDie d fun x => { x with answered := some (cw, ccw) }) := by
    refine lead_congr rfl rfl fun e => ?_
    by_cases he : e = d
    · rw [he, modDie_die, modDie_die]
    · rw [modDie_die_other s he, modDie_die_other s he]
  cases a <;> simp [State.takeAnswer, lead_compareValues, lead_modDie, hkept]

end

/-- The answer of a die is kept with its directions. -/
def answeredBy (s : State) (d : Nat) (cw ccw : Bool) : State := s.modDie d fun x => { x with answered := some (cw, ccw) }

/-- While the answer of a third die is missing, not every die has answered. -/
theorem not_allAnswered {s t : State} {c d : Nat} {cw ccw : Bool} (h : lead t = lead (answeredBy s d cw ccw))
    (hwait : ∃ e ∈ s.others c, e ≠ d ∧ (s.die e).answered = none) :
    ((t.others c).all fun e => (t.die e).answered.isSome) = false := by
  obtain ⟨e, hmem, he, hnone⟩ := hwait
  have hothers : t.others c = s.others c := by
    change (List.range t.part.dies).filter _ = _
    rw [lead_part h]
    rfl
  have hans : (t.die e).answered = none := by
    rw [lead_answered h, answeredBy, modDie_die_other s he, hnone]
  exact List.all_eq_false.mpr ⟨e, hothers ▸ hmem, by simp [hans]⟩

/-- The crown keeps an answer, and while another die's is missing the round goes on. -/
theorem lead_hbAnswer {s : State} {c d : Nat} {cw ccw : Bool} (a : HbAnswer) (htok : s.crown.token = some c) (hne : c ≠ d)
    (hround : s.crown.round = true) (hnone : (s.die d).answered = none) (hseen : (cw || ccw) = true)
    (hwait : ∃ e ∈ s.others c, e ≠ d ∧ (s.die e).answered = none) :
    lead (s.hbAnswer d a cw ccw) = lead (answeredBy s d cw ccw) := by
  have htaken : lead (s.takeAnswer c d (s.markedAnswer d a) cw ccw).thermal = lead (answeredBy s d cw ccw) :=
    (lead_thermal _).trans (lead_takeAnswer ..)
  have hall := not_allAnswered htaken hwait
  have hgo : (decide (d = c) || !s.crown.round || (s.die d).answered.isSome || !(cw || ccw)) = false := by
    simp [hround, hnone, hseen, Ne.symm hne]
  rw [← htaken]
  unfold State.hbAnswer
  split
  · next h => simp [htok] at h
  · next k h =>
    obtain rfl : k = c := Option.some.inj (h.symm.trans htok)
    rw [if_neg (by rw [hgo]; simp)]
    exact congrArg lead (if_neg (by rw [hall]; simp))

theorem hbAnswer_kept {s : State} {d : Fin 8} {c : Nat} (a : HbAnswer) {cw ccw : Bool} (hd : (d : Nat) < s.part.dies)
    (htok : s.crown.token = some c) (hne : c ≠ (d : Nat)) (hround : s.crown.round = true) (hnone : (s.die d).answered = none)
    (hseen : (cw || ccw) = true) (hwait : ∃ e ∈ s.others c, e ≠ (d : Nat) ∧ (s.die e).answered = none) :
    Completes (.hbAnswer d a cw ccw) s fun t => (t.die d).answered = some (cw, ccw) ∧ t.crown.round = true := by
  have h : lead ((silenced s).hbAnswer d a cw ccw) = lead (answeredBy (silenced s) d cw ccw) :=
    lead_hbAnswer (s := silenced s) a htok hne hround hnone hseen hwait
  refine completes_runDie s hd (f := fun u => u.hbAnswer d a cw ccw) ⟨?_, ?_⟩
  · rw [State.die, ran_dies]
    exact (lead_answered h d).trans (congrArg DieSt.answered (modDie_die _ _ _))
  · rw [ran_crown]
    exact (congrArg CrownSt.round (lead_crown h)).trans hround

/-! ### A round opens -/

/-- The crown's record when a round opens, over what the last round and the new multiframe left. -/
def openedRound (x : CrownSt) : CrownSt := { x with round := true, stuck := false }

/-- The round is open, and no answer of it has come. -/
def clearedAnswers (s : State) : State :=
  State.forEach { s with crown := openedRound s.crown } s.dieList fun t d =>
    t.modDie d fun x => { x with answered := none, mismatch := [], epochAns := none }

/-- The crown samples its own temperature and sends the heartbeat. -/
def sentHeartbeat (s : State) (c : Nat) : State :=
  (s.modPwr c fun x => { x with temp := s.rdS HKA_TEMP_MAX_TEMP c }).ringMsg 1 c 15

theorem sentHeartbeat_crown (s : State) (c : Nat) : (sentHeartbeat s c).crown = s.crown := rfl

theorem heartbeatSend_eq {s : State} {c : Nat} (htok : s.crown.token = some c) :
    s.heartbeatSend =
      (sentHeartbeat (clearedAnswers s.judgeRound.sleepWhenClosed.newMultiframe.campWhenReady) c).thermal := by
  unfold State.heartbeatSend
  rw [htok]
  rfl

theorem clearedAnswers_crown (s : State) : (clearedAnswers s).crown = openedRound s.crown := by
  refine (forEach_keeps State.crown _ ?_ _).trans rfl
  intro t d _
  rfl

theorem heartbeatSend_crown {s : State} {c : Nat} (htok : s.crown.token = some c) :
    ∃ x, s.heartbeatSend.crown = openedRound x := by
  rw [heartbeatSend_eq htok, lead_crown (lead_thermal _), sentHeartbeat_crown, clearedAnswers_crown]
  exact ⟨_, rfl⟩

theorem heartbeatSend_opens {s : State} {c : Nat} (htok : s.crown.token = some c) :
    Completes .heartbeatSend s fun t => t.crown.round = true ∧ t.crown.stuck = false := by
  obtain ⟨x, hx⟩ := heartbeatSend_crown (s := silenced s) htok
  have h : (ran s State.heartbeatSend).crown = openedRound x := (ran_crown s _).trans hx
  exact ⟨ran s State.heartbeatSend, rfl, congrArg CrownSt.round h, congrArg CrownSt.stuck h⟩

/-! ### A heartbeat -/

/-- From `s` to `t` only the dies' records and register fields differ, and of these only such as `P` allows at their place and
die. -/
structure DieWrites (P : Fld → Nat → Prop) (s t : State) : Prop where
  rest : t = { s with regs := t.regs, dies := t.dies }
  rd : ∀ (g : Fld) (e j : Nat), ¬ P g e → t.rd g e j = s.rd g e j

section
variable {P : Fld → Nat → Prop} {s t u : State}

theorem DieWrites.trans (a : DieWrites P s t) (b : DieWrites P t u) : DieWrites P s u := by
  refine ⟨?_, fun g e j h => (b.rd g e j h).trans (a.rd g e j h)⟩
  rw [b.rest, a.rest]

theorem DieWrites.of_writesOnly (h : WritesOnly P s t) : DieWrites P s t :=
  ⟨h.rest.trans (by rw [h.rest]), h.rd⟩

theorem dieWrites_modDie (s : State) (d : Nat) (f : DieSt → DieSt) : DieWrites P s (s.modDie d f) := ⟨rfl, fun _ _ _ _ => rfl⟩

end

/-- What a heartbeat shows at a die: the state of the ring's directions, and their breaks (R49). -/
def ringFlds : List Fld :=
  [PKG_DIE_STATUS_RING_CW_OK, PKG_DIE_STATUS_RING_CCW_OK, RING_EVENT_CW_BREAK, RING_EVENT_CCW_BREAK]

/-- One observation of a direction: the die's counts move, and the third in a row shows. -/
theorem dieWrites_seen (s : State) (d : Nat) {ok p q : Prop} [Decidable ok] [Decidable p] [Decidable q] (f g : DieSt → DieSt)
    {a b : Fld} (ha : a ∈ ringFlds) (hb : b ∈ ringFlds) :
    DieWrites (AtFields ringFlds) s
      (if ok then if p then (s.modDie d f).wr a d 1 else s.modDie d f
      else if q then ((s.modDie d g).wr a d 0).raise b d else s.modDie d g) := by
  have hwr (t : State) (v : Nat) : WritesOnly (AtFields ringFlds) t (t.wr a d v) := (WritesOnly.refl _ t).wr (.of_mem ha d) _ _
  split
  · split
    · exact (dieWrites_modDie s d f).trans (.of_writesOnly (hwr _ 1))
    · exact dieWrites_modDie s d f
  · split
    · exact (dieWrites_modDie s d g).trans (.of_writesOnly ((hwr _ 0).wr (.of_mem hb d) _ _))
    · exact dieWrites_modDie s d g

theorem dieWrites_cwSeen (s : State) (d : Nat) (ok : Bool) : DieWrites (AtFields ringFlds) s (s.cwSeen d ok) :=
  dieWrites_seen s d _ _ (by simp [ringFlds]) (by simp [ringFlds])

theorem dieWrites_ccwSeen (s : State) (d : Nat) (ok : Bool) : DieWrites (AtFields ringFlds) s (s.ccwSeen d ok) :=
  dieWrites_seen s d _ _ (by simp [ringFlds]) (by simp [ringFlds])

/-- A die that a heartbeat has reached: its directions are observed, and it has missed none. -/
def reached (s : State) (d : Nat) (cw ccw : Bool) : State := (s.dirStep d cw ccw).modDie d fun x => { x with hbMissed := 0 }

/-- A die that a heartbeat has reached on neither direction has missed one more. -/
def missedBy (s : State) (d : Nat) : State := s.modDie d fun x => { x with hbMissed := x.hbMissed + 1 }

theorem dieWrites_reached (s : State) (d : Nat) (cw ccw : Bool) : DieWrites (AtFields ringFlds) s (reached s d cw ccw) := by
  refine DieWrites.trans ?_ (dieWrites_modDie _ d _)
  unfold State.dirStep
  split
  · exact (dieWrites_cwSeen s d cw).trans (dieWrites_ccwSeen _ d ccw)
  · exact ⟨rfl, fun _ _ _ _ => rfl⟩

theorem heartbeat_reached {s : State} {c d : Nat} {cw ccw : Bool} (htok : s.crown.token = some c) (hne : c ≠ d)
    (h : (cw || ccw) = true) : s.heartbeat d cw ccw = (reached s d cw ccw).ringMsg 2 d c := by
  simp [State.heartbeat, htok, Ne.symm hne, h, reached]

theorem heartbeat_missed {s : State} {c d : Nat} {cw ccw : Bool} (htok : s.crown.token = some c) (hne : c ≠ d)
    (h : (cw || ccw) = false) : s.heartbeat d cw ccw = missedBy s d := by
  simp [State.heartbeat, htok, Ne.symm hne, h, missedBy]

/-- A run of an operation that changes the dies' records and some fields, and sends messages. -/
theorem dieWrites_ran {fs : List Fld} {s u : State} {f : State → State} {n : Nat} {o : List Output}
    (h : f (silenced s) = { u with fresh := n, out := o }) (hu : DieWrites (AtFields fs) (silenced s) u) :
    (ran s f).dies = u.dies ∧ (ran s f).out = o ∧
      ran s f = { s with regs := (ran s f).regs, dies := (ran s f).dies, fresh := n, out := (ran s f).out } ∧
        KeepsRegs fs s (ran s f) := by
  have hpart : (f (silenced s)).part = s.part := by rw [h, hu.rest]; rfl
  refine ⟨(ran_dies s f).trans (congrArg State.dies h :), (ran_out s f).trans (congrArg State.out h :), ?_,
    keepsRegs_ran hpart fun g e j hg => ?_⟩
  · rw [ran_eq, settle_eq, h, hu.rest]
    rfl
  · rw [h]
    exact hu.rd g e j hg

theorem heartbeat_answered {s : State} {d : Fin 8} {c : Nat} {cw ccw : Bool} (hd : (d : Nat) < s.part.dies)
    (htok : s.crown.token = some c) (hne : c ≠ (d : Nat)) :
    Completes (.heartbeat d cw ccw) s fun t =>
      (cw = true ∨ ccw = true → (t.die d).hbMissed = 0 ∧
        (∃ p, t.out = [.ring { type := 2, src := (d : Nat), dst := c, payload := p }]) ∧
        t = { s with regs := t.regs, dies := t.dies, fresh := s.fresh + 1, out := t.out } ∧
        KeepsRegs [PKG_DIE_STATUS_RING_CW_OK, PKG_DIE_STATUS_RING_CCW_OK, RING_EVENT_CW_BREAK, RING_EVENT_CCW_BREAK] s t) ∧
      (cw = false → ccw = false → t.die d = { s.die d with hbMissed := (s.die d).hbMissed + 1 } ∧
        t = { s with regs := t.regs, dies := t.dies, out := t.out } ∧ KeepsRegs [] s t) := by
  refine completes_runDie s hd (f := fun u => u.heartbeat d cw ccw) ⟨fun hor => ?_, fun hcw hccw => ?_⟩
  · have hseen : (cw || ccw) = true := by simpa using hor
    have hu := dieWrites_reached (silenced s) d cw ccw
    have hfresh : (reached (silenced s) d cw ccw).fresh = s.fresh := (congrArg State.fresh hu.rest :)
    have hout : (reached (silenced s) d cw ccw).out = [] := (congrArg State.out hu.rest :)
    have hop : (silenced s).heartbeat d cw ccw =
        { reached (silenced s) d cw ccw with
          fresh := s.fresh + 1
          out := [.ring { type := 2, src := (d : Nat), dst := c, payload := (State.free (silenced s) 224).1 }] } := by
      rw [heartbeat_reached (s := silenced s) htok hne hseen, State.ringMsg, State.free, hfresh, State.emit, hout]
      rfl
    obtain ⟨hdies, ho, hrest, hkeep⟩ := dieWrites_ran (f := fun u => u.heartbeat d cw ccw) hop hu
    refine ⟨?_, ⟨_, ho⟩, hrest, hkeep⟩
    rw [State.die, hdies]
    exact congrArg DieSt.hbMissed (modDie_die _ (d : Nat) _)
  · have hop := heartbeat_missed (s := silenced s) htok hne (cw := cw) (ccw := ccw) (by simp [hcw, hccw])
    obtain ⟨hdies, -, hrest, hkeep⟩ := dieWrites_ran (fs := []) (n := s.fresh) (o := [])
      (u := missedBy (silenced s) d) (f := fun u => u.heartbeat d cw ccw) hop (dieWrites_modDie _ _ _)
    refine ⟨?_, hrest, hkeep⟩
    rw [State.die, hdies]
    exact modDie_die (silenced s) (d : Nat) _

/-! ### A die that gives no answer -/

/-- The mask names a die that enters quarantine. -/
def maskQuarantine (s : State) (d : Nat) : State := s.wrBit PKG_QUAR_STATUS_QUARANTINED pkg d true

/-- The mask, the cause and the event of a die that enters quarantine (R51). -/
def enterQuarantine (s : State) (d cause : Nat) : State :=
  ((maskQuarantine s d).wr PKG_QUAR_CAUSE_CAUSE pkg
    (setBitsAt ((maskQuarantine s d).rd PKG_QUAR_CAUSE_CAUSE pkg) (4 * d) 4 cause)).raise PKG_QUAR_EVENT_ENTERED pkg (2 ^ d)

/-- A die that enters quarantine leaves its team and its units stop. -/
def quarantineStops (s : State) (d cause : Nat) : State :=
  ((((s.logCrown (chipEvent codeQuarantine d cause)).memberAbort d).leaveTeam d).stopUnits d 5).eraseKeys d

theorem crownView_quarantineStops (s : State) (d cause : Nat) : crownView (quarantineStops s d cause) = crownView s := by
  have hunits (t : State) : centre ((t.stopUnits d 5).eraseKeys d) = centre t := by simp
  rw [quarantineStops, crownView_of_centre (hunits _), crownView_leaveTeam, crownView_memberAbort, crownView_logCrown]

theorem quarantine_eq {s : State} {d : Nat} (cause : Nat) (htok : s.crown.token ≠ some d) (hq : s.quarantined d = false) :
    s.quarantine d cause =
      (((quarantineStops (enterQuarantine s d cause) d cause).modDie d fun x =>
        { x with releaseLeft := none, mismatch := [] }).refDieLost d).refreshCrown :=
  if_neg (by simp [htok, hq])

theorem crownView_quarantine {s : State} {d : Nat} (cause : Nat) (htok : s.crown.token ≠ some d)
    (hq : s.quarantined d = false) : crownView (s.quarantine d cause) = crownView (enterQuarantine s d cause) := by
  rw [quarantine_eq cause htok hq, crownView_refreshCrown, crownView_refDieLost]
  refine (crownView_modDie _ d ?_).trans (crownView_quarantineStops _ d cause)
  exact fun _ => ⟨rfl, rfl⟩

theorem testBit_setBit (n i : Nat) : (setBit n i true).testBit i = true := by
  unfold setBit
  cases h : n.testBit i
  · simp [Nat.add_comm n, Nat.testBit_two_pow_add_eq, h]
  · simpa using h

theorem quarantined_enterQuarantine (s : State) {d : Nat} (hd : d < 8) (cause : Nat) :
    bit ((enterQuarantine s d cause).rd PKG_QUAR_STATUS_QUARANTINED pkg) d = true := by
  have hrd : (enterQuarantine s d cause).rd PKG_QUAR_STATUS_QUARANTINED pkg =
      setBit (s.rd PKG_QUAR_STATUS_QUARANTINED pkg) d true % 2 ^ 8 := by
    rw [enterQuarantine, rd_raise_other _ (by decide), rd_wr_other _ (by decide), maskQuarantine, State.wrBit, rd_wr_same]
    rfl
  rw [hrd, bit, Nat.testBit_mod_two_pow, testBit_setBit]
  simpa using hd

theorem cause_enterQuarantine (s : State) {d : Nat} (hd : d < 8) (cause : Nat) :
    bitsAt ((enterQuarantine s d cause).rd PKG_QUAR_CAUSE_CAUSE pkg) (4 * d) 4 = cause % 16 := by
  rw [enterQuarantine, rd_raise_other _ (by decide), rd_wr_same]
  exact bitsAt_setBitsAt (m := 32) (by omega) _ _

theorem entered_enterQuarantine (s : State) {d : Nat} (hd : d < 8) (cause : Nat) :
    ((enterQuarantine s d cause).rd PKG_QUAR_EVENT_ENTERED pkg).testBit d = true := by
  have hw : PKG_QUAR_EVENT_ENTERED.w = 8 := rfl
  rw [enterQuarantine, rd_raise_same, hw, Nat.testBit_mod_two_pow, Nat.testBit_or, Nat.testBit_two_pow_self]
  simpa using hd

/-- The crown waits for the die's answer no longer. -/
def waitEnded (s : State) (d : Nat) : State := s.modDie d fun x => { x with waitReset := false, missRun := 0 }

theorem noAnswerTimeout_quarantines {s : State} {d : Fin 8} (hd : (d : Nat) < s.part.dies)
    (hwait : (s.die d).waitReset = true) (htok : s.crown.token ≠ some (d : Nat)) (hq : s.quarantined d = false) :
    Completes (.noAnswerTimeout d) s fun t =>
      t.quarantined d = true ∧ bitsAt (t.rd PKG_QUAR_CAUSE_CAUSE pkg) (4 * d) 4 = 5 ∧
        (t.rd PKG_QUAR_EVENT_ENTERED pkg).testBit d = true ∧ (t.die d).waitReset = false := by
  have hop : (silenced s).noAnswer d = (waitEnded (silenced s) d).quarantine d 5 := if_pos hwait
  have hview : crownView ((silenced s).noAnswer d) = crownView (enterQuarantine (waitEnded (silenced s) d) d 5) :=
    (congrArg crownView hop).trans (crownView_quarantine 5 htok hq)
  refine completes_runDie s hd (f := fun u => u.noAnswer d) ⟨?_, ?_, ?_, ?_⟩
  · rw [State.quarantined, rd_ran_plain _ _ rfl (by decide), crownView_rd hview (by decide)]
    exact quarantined_enterQuarantine _ d.isLt 5
  · rw [rd_ran_plain _ _ rfl (by decide), crownView_rd hview (by decide)]
    exact cause_enterQuarantine _ d.isLt 5
  · rw [rd_ran_plain _ _ rfl (by decide), crownView_rd hview (by decide)]
    exact entered_enterQuarantine _ d.isLt 5
  · have hended : ((waitEnded (silenced s) d).die d).waitReset = false := by rw [waitEnded, modDie_die]
    rw [State.die, ran_dies]
    exact (crownView_waits hview d).trans hended

/-- Settles O17: a round opens, dies answer or miss, the crown takes the answers, and a die that stays silent is
quarantined. -/
theorem heartbeatRounds : Obligations.HeartbeatRounds :=
  ⟨fun _ _ htok => heartbeatSend_opens htok, fun _ _ _ _ _ hd htok hne => heartbeat_answered hd htok hne,
    fun _ _ _ a _ _ hd htok hne hround hnone hseen hwait => hbAnswer_kept a hd htok hne hround hnone hseen hwait,
    fun _ _ hd hwait htok hq => noAnswerTimeout_quarantines hd hwait htok hq⟩

end Sys2Proof.Laws
end

section
/-! SUPPORT. PROOFS. What a command shows of an operation of which it is known which registers it touches. -/
namespace Sys2Proof.Laws
open Sys2Proof Sys2Proof.Machine

/-- A write of one of some fields leaves a field at none of their places. -/
theorem rd_wr_outside {fs : List Fld} {f g : Fld} (hf : f ∈ fs) (hg : place g ∉ fs.map place) (s : State) (d e v k j : Nat) :
    (s.wr f d v k).rd g e j = s.rd g e j :=
  rd_wr_other s (fun h => hg (h.symm ▸ place_mem hf)) d e v k j

/-- From `s` to `t` the part stays, and of the register fields only some may read otherwise. -/
structure Touches (fs : List Fld) (s t : State) : Prop where
  part : t.part = s.part
  rd : ∀ (g : Fld) (e j : Nat), place g ∉ fs.map place → t.rd g e j = s.rd g e j

section
variable {fs : List Fld} {s t u : State}

theorem Touches.of_regs (hregs : t.regs = s.regs) (hpart : t.part = s.part) : Touches fs s t :=
  ⟨hpart, fun g e j _ => rd_congr hregs hpart g e j⟩

theorem Touches.refl (fs : List Fld) (s : State) : Touches fs s s := .of_regs rfl rfl

theorem Touches.trans (a : Touches fs s t) (b : Touches fs t u) : Touches fs s u :=
  ⟨b.part.trans a.part, fun g e j hg => (b.rd g e j hg).trans (a.rd g e j hg)⟩

theorem Touches.wr (a : Touches fs s t) {f : Fld} (hf : f ∈ fs) (d v k : Nat) : Touches fs s (t.wr f d v k) :=
  a.trans ⟨rfl, fun _ e j hg => rd_wr_outside hf hg t d e v k j⟩

theorem Touches.raise (a : Touches fs s t) {f : Fld} (hf : f ∈ fs) (d m k : Nat) : Touches fs s (t.raise f d m k) :=
  a.wr hf ..

theorem Touches.wrb (a : Touches fs s t) {f : Fld} (hf : f ∈ fs) (d k : Nat) (b : Bool) : Touches fs s (t.wrb f d b k) :=
  a.wr hf ..

theorem Touches.count (a : Touches fs s t) {f : Fld} (hf : f ∈ fs) (d n k : Nat) : Touches fs s (t.count f d n k) :=
  a.wr hf ..

theorem Touches.regs (a : Touches fs s t) (hregs : u.regs = t.regs) (hpart : u.part = t.part) : Touches fs s u :=
  a.trans (.of_regs hregs hpart)

theorem Touches.respond (a : Touches fs s t) (c v : Nat) : Touches fs s (t.respond c v) := a.regs rfl rfl

theorem Touches.emit (a : Touches fs s t) (o : Output) : Touches fs s (t.emit o) := a.regs rfl rfl

theorem Touches.forEach {α : Type} (a : Touches fs s t) (xs : List α) {f : State → α → State}
    (h : ∀ u, ∀ x ∈ xs, Touches fs u (f u x)) : Touches fs s (t.forEach xs f) := by
  induction xs generalizing t with
  | nil => exact a
  | cons x xs ih => exact ih (a.trans (h t x (by simp))) fun u y hy => h u y (by simp [hy])

theorem Touches.of_writesOnly (h : WritesOnly (AtFields fs) s t) : Touches fs s t :=
  ⟨by rw [h.rest], fun g e j hg => h.rd g e j hg⟩

end

/-- What a command that starts from `s` shows of an operation that leaves `t`: its records, its registers but for the
summaries, and the queue as before. -/
structure Shows (fs : List Fld) (s t u : State) : Prop where
  rest : u = { t with regs := u.regs, pending := s.pending }
  rd : ∀ (g : Fld) (e j : Nat), place g ∉ summaryPlaces → u.rd g e j = t.rd g e j
  keeps : KeepsRegs fs s u

section
variable (fs : List Fld) {s t : State} (f : State → State)

theorem shows_ran (hop : f (silenced s) = t) (ht : Touches fs (silenced s) t) : Shows fs s t (ran s f) where
  rest := by
    have hpart : s.part = t.part := ht.part.symm
    rw [ran_eq, settle_eq, hop, hpart]
  rd g e j hg := by rw [rd_ran (hop ▸ ht.part) hg, hop]
  keeps := keepsRegs_ran (hop ▸ ht.part) fun g e j hg => by rw [hop]; exact ht.rd g e j hg

/-- A command that runs an operation which leaves `t`. -/
theorem completes_op {P : State → Prop} (hop : f (silenced s) = t) (ht : Touches fs (silenced s) t)
    (h : ∀ u, Shows fs s t u → P u) : ∃ u, run s f = .next u ∧ P u := completes_run s (h _ (shows_ran fs f hop ht))

/-- The same at a die of the part. -/
theorem completes_dieOp {P : State → Prop} {d : Nat} (hd : d < s.part.dies) (hop : f (silenced s) = t)
    (ht : Touches fs (silenced s) t) (h : ∀ u, Shows fs s t u → P u) : ∃ u, runDie s d f = .next u ∧ P u :=
  completes_runDie s hd (h _ (shows_ran fs f hop ht))

end
end Sys2Proof.Laws
end

section
/-! SUPPORT. PROOFS. Loading the image (O23). -/
namespace Sys2Proof.Laws
open Sys2Proof Sys2Proof.Machine

/-! ### Chunks (R82, R83) -/

/-- The crown sends the chunk it reads to every die. -/
def relayed (s : State) (d i : Nat) : State := if s.crown.token == some d then s.sendChunk 15 i else s

/-- IMAGE_CHUNK as the crown sends it. -/
def chunkMsg (s : State) (dst i : Nat) : RingMsg :=
  { type := 8, src := s.crown.token.getD 0, dst := dst
    payload := 0x10 * 2 ^ 216 + i % 2 ^ 24 * 2 ^ 192 +
      natBE (s.chunkData i ++ List.replicate (24 - (s.chunkData i).length) 0) }

/-- A chunk is noted as received. -/
def noted (s : State) (d i : Nat) : State :=
  s.modLoad d fun x => { x with chunks := if x.chunks.contains i then x.chunks else x.chunks ++ [i] }

/-- A chunk lies in the die's buffer and is noted. -/
def stored (s : State) (d i : Nat) : State :=
  noted ((relayed s d i).memWrite (bankBase d 0 + 24 * i) ((relayed s d i).chunkData i)) d i

section
variable (s : State) (d i : Nat)

theorem takeChunk_trying (h : s.image.trying.isSome = true) (hi : 24 * i < 8388608) : s.takeChunk d i = stored s d i :=
  if_pos (by simp [h, hi])

theorem relayed_eq : relayed s d i = { s with out := (relayed s d i).out } := by
  unfold relayed
  split <;> rfl

theorem chunkData_relayed : (relayed s d i).chunkData i = s.chunkData i := by
  rw [relayed_eq]
  rfl

theorem stored_mem : (stored s d i).mem = memStore ramDefault s.mem (bankBase d 0 + 24 * i) (s.chunkData i) := by
  rw [stored, chunkData_relayed, relayed_eq]
  rfl

theorem stored_eq : stored s d i =
    { s with mem := (stored s d i).mem, load := (stored s d i).load, out := (stored s d i).out } := by
  rw [stored, relayed_eq]
  rfl

theorem noted_contains : ((noted s d i).loadSt d).chunks.contains i = true := by
  rw [noted, modLoad_loadSt]
  dsimp only
  split
  · assumption
  · simp

end

theorem memBytes_length (x : Byte) (m : List Host.Cell) (a n : Nat) : (memBytes x m a n).length = n := by
  induction n generalizing a with
  | zero => rfl
  | succ n ih => rw [memBytes, List.length_cons, ih]

/-- A chunk has 24 bytes, but for the last, which ends with the buffer. -/
theorem chunkData_length (s : State) (i : Nat) : (s.chunkData i).length = min 24 (8388608 - 24 * i) := by
  unfold State.chunkData
  dsimp only
  split <;> exact memBytes_length ..

theorem stored_inside (s : State) (d : Nat) {i j : Nat} (hj : j < 24) (hij : 24 * i + j < 8388608) :
    memByte ramDefault (stored s d i).mem (bankBase d 0 + 24 * i + j) = (s.chunkData i).getD j 0 := by
  have hlen : j < (s.chunkData i).length := by rw [chunkData_length]; omega
  rw [stored_mem, memByte_memStore_inside _ _ _ _ hlen, List.getD_eq_getElem _ _ hlen]

theorem stored_outside (s : State) (d i : Nat) {a : Nat}
    (ha : ¬ (bankBase d 0 + 24 * i ≤ a ∧ a < bankBase d 0 + min (24 * i + 24) 8388608)) :
    memByte ramDefault (stored s d i).mem a = memByte ramDefault s.mem a := by
  rw [stored_mem, memByte_memStore_outside]
  rw [chunkData_length]
  omega

/-! ### Checks (R81, R89) -/

/-- The load record of a die that has a result. -/
def withResult (s : State) (d : Nat) (fault : Option Nat) (x : LoadSt) : LoadSt :=
  { x with
    result := some (fault.getD 0), digest := (State.imageDigest (s.imageBytes d)).take 8
    rollback := leAt (s.imageBytes d) 14 1 }

/-- A die keeps the result of its checks and shows state 2. -/
def resultKept (s : State) (d : Nat) (fault : Option Nat) : State :=
  (s.modLoad d (withResult s d fault)).wr IMG_STATUS_STATE d 2

/-- IMAGE_RESULT as a die sends it to the crown. -/
def resultMsg (s : State) (d : Nat) (fault : Option Nat) : Output :=
  .ring
    { type := 8, src := d, dst := s.crown.token.getD 0
      payload := 0x12 * 2 ^ 216 + fault.getD 0 * 2 ^ 192 + natBE ((State.imageDigest (s.imageBytes d)).take 8) * 2 ^ 128 }

/-- A die keeps a result, sends it, and shows the reason of a fault. -/
def resulted (s : State) (d : Nat) (fault : Option Nat) : State :=
  let u := (resultKept s d fault).emit (resultMsg s d fault)
  match fault with
  | some r => u.wr IMG_STATUS_FAIL_REASON d r
  | none => u

section
variable {s : State} {d k : Nat}

/-- A die with every chunk checks its image and finds a result. -/
theorem checkImage_complete (htry : s.image.trying = some k) (hown : k ≠ 3 ∨ s.crown.token ≠ some d)
    (halone : s.image.resend.contains d = false) (hres : (s.loadSt d).result = none) (hmiss : s.missingChunk d = none) :
    s.checkImage d = resulted s d (s.imageFault d (s.imageBytes d) false) := by
  have hnot : (s.crown.token == some d && some k == some 3) = false := by
    rcases hown with h | h <;> simp [h]
  unfold State.checkImage
  simp only [halone, hnot, htry, hres, hmiss, Option.isSome_some, Option.isSome_none, Bool.or_true, Bool.not_true,
    Bool.or_self, Bool.false_eq_true, if_false, Bool.false_and]
  unfold resulted
  cases s.imageFault d (s.imageBytes d) false <;> rfl

variable (s d) (fault : Option Nat)

theorem resulted_rest : resulted s d fault =
    { s with regs := (resulted s d fault).regs, load := (resulted s d fault).load, out := (resulted s d fault).out } := by
  cases fault <;> rfl

theorem resultKept_result : ((resultKept s d fault).loadSt d).result = some (fault.getD 0) :=
  congrArg LoadSt.result (modLoad_loadSt s d (withResult s d fault))

theorem resulted_load : (resulted s d fault).load = (resultKept s d fault).load := by
  cases fault <;> rfl

theorem resulted_state : (resulted s d fault).rd IMG_STATUS_STATE d = 2 := by
  have h : (resultKept s d fault).rd IMG_STATUS_STATE d = 2 := rd_wr_same ..
  cases fault with
  | none => exact (emit_rd ..).trans h
  | some r => exact (rd_wr_other _ (by decide) ..).trans ((emit_rd ..).trans h)

theorem resulted_reason (r : Nat) : (resulted s d (some r)).rd IMG_STATUS_FAIL_REASON d = r % 16 := rd_wr_same ..

theorem touches_resulted : Touches [IMG_STATUS_STATE, IMG_STATUS_FAIL_REASON] s (resulted s d fault) := by
  have h : Touches [IMG_STATUS_STATE, IMG_STATUS_FAIL_REASON] s ((resultKept s d fault).emit (resultMsg s d fault)) :=
    (Touches.wr (.of_regs rfl rfl) (by simp) ..).regs rfl rfl
  cases fault with
  | none => exact h
  | some r => exact h.wr (by simp) ..

end
end Sys2Proof.Laws
end


section
/-! SUPPORT. PROOFS. The result of a load, GO and the late die (O23). -/
namespace Sys2Proof.Laws
open Sys2Proof Sys2Proof.Machine

/-! ### Results at the crown (R81, R89) -/

/-- The crown has a die's result. -/
def resultNoted (s : State) (d r : Nat) : State := { s with image := { s.image with results := s.image.results ++ [(d, r)] } }

/-- The flash copy need not be read any more. -/
def endReading (s : State) : State := { s with image := { s.image with reading := false } }

/-- Every die of the load holds the image. -/
def allLoaded (s : State) (k : Nat) : State :=
  { s.forEach s.loadDies fun t e => t.markLoaded e k with crown := { s.crown with imageStarted := true } }

/-- What the crown makes of the results it has. -/
def judgeResults (s : State) (k : Nat) : State :=
  if !(s.loadDies.all fun e => s.image.results.any fun x => x.1 == e) then s
  else
    match s.image.results.find? fun x => x.2 != 0 with
    | some x => s.copyFailed x.2
    | none =>
      if s.loadDies.all fun e => (s.loadSt e).digest == (s.loadSt (s.crown.token.getD 0)).digest then
        (allLoaded (endReading s) k).refreshCrown
      else s.copyFailed 9

/-- A new result of a die that takes part in the load is kept, and the crown judges those it has. -/
theorem takeResult_new {s : State} {d k r : Nat} (hres : (s.loadSt d).result = some r)
    (halone : s.image.resend.contains d = false) (htry : s.image.trying = some k)
    (hnew : s.image.results.any (fun x => x.1 == d) = false) : s.takeResult d = judgeResults (resultNoted s d r) k := by
  unfold State.takeResult
  simp only [hres, halone, hnew, Bool.false_eq_true, if_false]
  split
  next h => cases htry.symm.trans h
  next h =>
    obtain rfl := Option.some.inj (htry.symm.trans h)
    rfl

/-- While a die's result is missing, the crown only keeps those it has. -/
theorem judgeResults_waiting {s : State} {e : Nat} (he : e ∈ s.loadDies)
    (hmiss : s.image.results.any (fun x => x.1 == e) = false) (k : Nat) : judgeResults s k = s := by
  refine if_pos ?_
  rw [Bool.not_eq_true', List.all_eq_false]
  exact ⟨e, he, by simp [hmiss]⟩

/-- With every die's result in hand, all of them passes with the crown's digest, the copy is loaded. -/
theorem judgeResults_passed {s : State} (hall : ∀ e ∈ s.loadDies, s.image.results.any (fun x => x.1 == e) = true)
    (hpass : ∀ x ∈ s.image.results, x.2 = 0)
    (hdg : ∀ e ∈ s.loadDies, (s.loadSt e).digest = (s.loadSt (s.crown.token.getD 0)).digest) (k : Nat) :
    judgeResults s k = (allLoaded (endReading s) k).refreshCrown := by
  have hnone : s.image.results.find? (fun x => x.2 != 0) = none := List.find?_eq_none.mpr fun x hx => by simp [hpass x hx]
  rw [judgeResults, if_neg (by simp [List.all_eq_true.mpr hall]), hnone]
  exact if_pos (List.all_eq_true.mpr fun e he => beq_iff_eq.mpr (hdg e he))

/-! ### A die that holds the image -/

section
variable (s : State) (k : Nat)

@[simp] theorem refreshCrown_crown : s.refreshCrown.crown = s.crown := by rw [(writesOnly_refreshCrown_flds s).rest]
@[simp] theorem refreshCrown_die (d : Nat) : s.refreshCrown.die d = s.die d := by rw [(writesOnly_refreshCrown_flds s).rest]; rfl

theorem rd_refreshCrown_other {g : Fld} (hg : place g ∉ crownFlds.map place) (e j : Nat) :
    s.refreshCrown.rd g e j = s.rd g e j := (writesOnly_refreshCrown_flds s).rd g e j hg

theorem markLoaded_die (d : Nat) : ((s.markLoaded d k).die d).loaded = true := by
  unfold State.markLoaded
  dsimp only
  rw [modDie_die]

theorem markLoaded_die_other {d e : Nat} (h : e ≠ d) : (s.markLoaded d k).die e = s.die e := by
  unfold State.markLoaded
  dsimp only
  rw [modDie_die_other _ h]
  rfl

theorem markLoaded_state (d : Nat) : (s.markLoaded d k).rd IMG_STATUS_STATE d = 3 := by
  unfold State.markLoaded
  dsimp only
  rw [modDie_rd, rd_wrb_other _ (by decide), rd_wr_same]
  rfl

theorem markLoaded_source (d : Nat) : (s.markLoaded d k).rd IMG_STATUS_SOURCE d = k % 4 := by
  unfold State.markLoaded
  dsimp only
  rw [modDie_rd, rd_wrb_other _ (by decide), rd_wr_other _ (by decide), rd_wr_same]
  rfl

theorem markLoaded_rd_other {d e : Nat} (h : e ≠ d) (g : Fld) (j : Nat) : (s.markLoaded d k).rd g e j = s.rd g e j := by
  unfold State.markLoaded
  dsimp only
  rw [modDie_rd, State.wrb, rd_wr_inst _ _ _ h, rd_wr_inst _ _ _ h, rd_wr_inst _ _ _ h, rd_wr_inst _ _ _ h, rd_wr_inst _ _ _ h,
    rd_wr_inst _ _ _ h]

variable {e : Nat} (he : e ∈ s.loadDies)
include he

theorem allLoaded_die : ((allLoaded s k).die e).loaded = true :=
  forEach_sets (φ := fun u => (u.die e).loaded) (fun u _ hx => congrArg DieSt.loaded (markLoaded_die_other u k (Ne.symm hx)))
    (fun u => markLoaded_die u k e) he s

theorem allLoaded_state : (allLoaded s k).rd IMG_STATUS_STATE e = 3 :=
  forEach_sets (φ := fun u => u.rd IMG_STATUS_STATE e) (fun u _ hx => markLoaded_rd_other u k (Ne.symm hx) ..)
    (fun u => markLoaded_state u k e) he s

theorem allLoaded_source : (allLoaded s k).rd IMG_STATUS_SOURCE e = k % 4 :=
  forEach_sets (φ := fun u => u.rd IMG_STATUS_SOURCE e) (fun u _ hx => markLoaded_rd_other u k (Ne.symm hx) ..)
    (fun u => markLoaded_source u k e) he s

end

/-! ### GO of a load (R83) -/

/-- A die of the load starts: its buffer is filled with zeros unless it holds the source, and it shows state 1. -/
def dieStarts (k : Nat) (t : State) (d : Nat) : State :=
  let t := if k = 3 ∧ t.crown.token = some d then t else t.clearBuffer d
  (t.modLoad d fun _ => {}).wr IMG_STATUS_STATE d 1

/-- A copy is tried. -/
def copyTried (s : State) (k : Nat) : State :=
  { s with image := { s.image with trying := some k, reading := k != 3, results := [] } }

/-- What a load that starts leaves: everything but registers, memory, its error marks and the dies' load records. -/
def beforeLoad (s : State) : State := { s with regs := [], mem := [], wordErr := [], load := [] }

section
variable (s : State) (k : Nat)

theorem beforeLoad_dieStarts (d : Nat) : beforeLoad (dieStarts k s d) = beforeLoad s := by
  unfold dieStarts
  dsimp only
  split <;> rfl

theorem beforeLoad_beginCopy : beforeLoad (s.beginCopy k) = beforeLoad (copyTried s k) :=
  forEach_keeps beforeLoad _ (fun t d _ => beforeLoad_dieStarts t k d) _

theorem beginCopy_image : (s.beginCopy k).image = { s.image with trying := some k, reading := k != 3, results := [] } :=
  congrArg State.image (beforeLoad_beginCopy s k)

theorem beginCopy_rest : s.beginCopy k =
    { s with
      regs := (s.beginCopy k).regs, image := (s.beginCopy k).image, mem := (s.beginCopy k).mem
      wordErr := (s.beginCopy k).wordErr, load := (s.beginCopy k).load } :=
  congrArg (fun x : State => { x with
    regs := (s.beginCopy k).regs, image := (s.beginCopy k).image, mem := (s.beginCopy k).mem
    wordErr := (s.beginCopy k).wordErr, load := (s.beginCopy k).load }) (beforeLoad_beginCopy s k)

theorem touches_dieStarts (d : Nat) : Touches [IMG_STATUS_STATE] s (dieStarts k s d) := by
  unfold dieStarts
  dsimp only
  refine Touches.wr ?_ (by simp) ..
  split <;> exact .of_regs rfl rfl

theorem touches_beginCopy : Touches [IMG_STATUS_STATE] s (s.beginCopy k) :=
  (Touches.of_regs (s := s) (t := copyTried s k) rfl rfl).forEach _ fun u d _ => touches_dieStarts u k d

theorem dieStarts_state (d : Nat) : (dieStarts k s d).rd IMG_STATUS_STATE d = 1 := rd_wr_same ..

theorem dieStarts_state_other {d e : Nat} (h : e ≠ d) : (dieStarts k s d).rd IMG_STATUS_STATE e = s.rd IMG_STATUS_STATE e := by
  unfold dieStarts
  dsimp only
  rw [rd_wr_inst _ _ _ h]
  split <;> rfl

theorem beginCopy_state {e : Nat} (he : e ∈ s.loadDies) : (s.beginCopy k).rd IMG_STATUS_STATE e = 1 :=
  forEach_sets (φ := fun u => u.rd IMG_STATUS_STATE e) (fun u _ hx => dieStarts_state_other u k (Ne.symm hx))
    (fun u => dieStarts_state u k e) he _

end

/-- What GO of a load does: with no image loaded and no load running it starts one from the host buffer. -/
def loadGo (s : State) : State :=
  let c := s.crown.token.getD 0
  let s := s.respond 0
  if s.image.trying.isNone && s.rd IMG_STATUS_STATE c == 0 then s.beginCopy 3 else s

theorem loadGo_starts {s : State} (htry : s.image.trying = none) (hstate : s.rd IMG_STATUS_STATE (s.crown.token.getD 0) = 0) :
    loadGo s = (s.respond 0).beginCopy 3 := by
  refine if_pos ?_
  rw [respond_rd, respond_image, htry, hstate]
  rfl

/-! ### The commands -/

section
variable (s : State) (d : Fin 8)

theorem imageChunk_completes (i : Nat) (hd : (d : Nat) < s.part.dies) (htry : s.image.trying.isSome = true)
    (hi : 24 * i < 8388608) : Completes (.imageChunk d i) s fun t =>
      (∀ j, j < 24 → 24 * i + j < 8388608 →
        memByte ramDefault t.mem (bankBase d 0 + 24 * i + j) = (s.chunkData i).getD j 0) ∧
      (∀ a, ¬ (bankBase d 0 + 24 * i ≤ a ∧ a < bankBase d 0 + min (24 * i + 24) 8388608) →
        memByte ramDefault t.mem a = memByte ramDefault s.mem a) ∧
      (t.loadSt d).chunks.contains i = true ∧
        t = { s with regs := t.regs, mem := t.mem, load := t.load, out := t.out } ∧ KeepsRegs [] s t := by
  have hshape := stored_eq (silenced s) d i
  refine completes_dieOp [] (fun u => u.takeChunk d i) hd (takeChunk_trying (silenced s) d i htry hi)
    (.of_regs (by rw [hshape]) (by rw [hshape])) fun u hu => ?_
  have hmem : u.mem = (stored (silenced s) d i).mem := by rw [hu.rest]
  refine ⟨fun j hj hij => ?_, fun a ha => ?_, ?_, ?_, hu.keeps⟩
  · rw [hmem]
    exact stored_inside (silenced s) d hj hij
  · rw [hmem]
    exact stored_outside (silenced s) d i ha
  · rw [hu.rest]
    exact noted_contains _ d i
  · rw [hu.rest, hshape]
    rfl

theorem imageResend_completes (i : Nat) (hd : (d : Nat) < s.part.dies) : Completes (.imageResend d i) s fun t =>
    (∃ m : RingMsg, t.out = [.ring m] ∧ m.type = 8 ∧ m.dst = (d : Nat) ∧
      m.payload = 0x10 * 2 ^ 216 + i % 2 ^ 24 * 2 ^ 192 +
        natBE (s.chunkData i ++ List.replicate (24 - (s.chunkData i).length) 0)) ∧ OnlyRegs [] s t := by
  refine completes_dieOp [] (fun u => u.sendChunk d i) hd rfl (t := (silenced s).sendChunk d i) (.of_regs rfl rfl) fun u hu =>
    ⟨⟨chunkMsg s d i, ?_, rfl, rfl, rfl⟩, ?_, hu.keeps⟩
  · rw [hu.rest]
    rfl
  · rw [hu.rest]
    rfl

theorem imageChecks_completes (k : Nat) (hd : (d : Nat) < s.part.dies) (htry : s.image.trying = some k)
    (hown : k ≠ 3 ∨ s.crown.token ≠ some (d : Nat)) (halone : s.image.resend.contains (d : Nat) = false)
    (hres : (s.loadSt d).result = none) (hmiss : s.missingChunk d = none) :
    Completes (.imageChecks d) s fun t =>
      (t.loadSt d).result = some ((s.imageFault d (s.imageBytes d) false).getD 0) ∧ t.rd IMG_STATUS_STATE d = 2 ∧
      (∀ r, s.imageFault d (s.imageBytes d) false = some r → t.rd IMG_STATUS_FAIL_REASON d = r % 16) ∧
        t = { s with regs := t.regs, load := t.load, out := t.out } ∧
        KeepsRegs [IMG_STATUS_STATE, IMG_STATUS_FAIL_REASON] s t := by
  have hop : (silenced s).checkImage d = resulted (silenced s) d (s.imageFault d (s.imageBytes d) false) :=
    checkImage_complete (s := silenced s) htry hown halone hres hmiss
  generalize s.imageFault d (s.imageBytes d) false = fault at hop ⊢
  refine completes_dieOp _ (fun u => u.checkImage d) hd hop (touches_resulted ..) fun u hu => ⟨?_, ?_, ?_, ?_, hu.keeps⟩
  · have hload : u.load = (resultKept (silenced s) d fault).load := by rw [hu.rest]; exact resulted_load ..
    rw [State.loadSt, hload]
    exact resultKept_result ..
  · rw [hu.rd _ _ _ (by decide), resulted_state]
  · rintro r rfl
    rw [hu.rd _ _ _ (by decide), resulted_reason]
  · rw [hu.rest, resulted_rest]
    rfl

theorem imageResult_waits {r k e : Nat} (hd : (d : Nat) < s.part.dies) (hres : (s.loadSt d).result = some r)
    (halone : s.image.resend.contains (d : Nat) = false) (htry : s.image.trying = some k)
    (hnew : s.image.results.any (fun x => x.1 == (d : Nat)) = false) (he : e ∈ s.loadDies) (hed : e ≠ (d : Nat))
    (hmiss : s.image.results.any (fun x => x.1 == e) = false) :
    Completes (.imageResult d) s fun t => t.image = { s.image with results := s.image.results ++ [((d : Nat), r)] } ∧
      t = { s with regs := t.regs, image := t.image, out := t.out } ∧ KeepsRegs [] s t := by
  have hmiss' : (resultNoted (silenced s) d r).image.results.any (fun x => x.1 == e) = false := by
    simp [resultNoted, silenced, hmiss, hed.symm]
  refine completes_dieOp [] (fun u => u.takeResult d) hd (t := resultNoted (silenced s) d r)
    ((takeResult_new (s := silenced s) hres halone htry hnew).trans (judgeResults_waiting (s := resultNoted (silenced s) d r) he hmiss' k)) (.of_regs rfl rfl)
    fun u hu => ⟨?_, ?_, hu.keeps⟩
  · rw [hu.rest]
    rfl
  · rw [hu.rest]
    rfl

theorem imageResult_loads {r k : Nat} (hd : (d : Nat) < s.part.dies) (hres : (s.loadSt d).result = some r)
    (halone : s.image.resend.contains (d : Nat) = false) (htry : s.image.trying = some k)
    (hnew : s.image.results.any (fun x => x.1 == (d : Nat)) = false)
    (hall : ∀ e ∈ s.loadDies, e = (d : Nat) ∨ s.image.results.any (fun x => x.1 == e) = true) (hr : r = 0)
    (hpass : ∀ x ∈ s.image.results, x.2 = 0)
    (hdg : ∀ e ∈ s.loadDies, (s.loadSt e).digest = (s.loadSt (s.crown.token.getD 0)).digest) :
    Completes (.imageResult d) s fun t => t.crown = { s.crown with imageStarted := true } ∧
      ∀ e ∈ s.loadDies, (t.die e).loaded = true ∧ t.rd IMG_STATUS_STATE e = 3 ∧ t.rd IMG_STATUS_SOURCE e = k % 4 := by
  have hall' : ∀ e ∈ s.loadDies, (resultNoted (silenced s) d r).image.results.any (fun x => x.1 == e) = true := fun e he => by
    rcases hall e he with rfl | h
    · simp [resultNoted]
    · change (s.image.results ++ [((d : Nat), r)]).any (fun x => x.1 == e) = true
      rw [List.any_append, h, Bool.true_or]
  have hpass' : ∀ x ∈ (resultNoted (silenced s) d r).image.results, x.2 = 0 := fun x hx => by
    rcases List.mem_append.mp hx with hx | hx
    · exact hpass x hx
    · rw [List.mem_singleton.mp hx, hr]
  have hop : (silenced s).takeResult d = (allLoaded (endReading (resultNoted (silenced s) d r)) k).refreshCrown :=
    (takeResult_new (s := silenced s) hres halone htry hnew).trans (judgeResults_passed hall' hpass' hdg k)
  refine completes_runDie s hd (f := fun u => u.takeResult d) ⟨?_, fun e he => ⟨?_, ?_, ?_⟩⟩
  · rw [ran_crown]
    exact (congrArg State.crown hop).trans (refreshCrown_crown _)
  · rw [die_ran, hop, refreshCrown_die]
    exact allLoaded_die (endReading (resultNoted (silenced s) d r)) k he
  · rw [rd_ran_plain _ _ rfl (by decide), hop, rd_refreshCrown_other _ (by decide)]
    exact allLoaded_state (endReading (resultNoted (silenced s) d r)) k he
  · rw [rd_ran_plain _ _ rfl (by decide), hop, rd_refreshCrown_other _ (by decide)]
    exact allLoaded_source (endReading (resultNoted (silenced s) d r)) k he

theorem imgLoadGo_completes (htry : s.image.trying = none) (hstate : s.rd IMG_STATUS_STATE (s.crown.token.getD 0) = 0) :
    Completes .imgLoadGo s fun t => t.image.trying = some 3 ∧ t.image.reading = false ∧
      (∀ e ∈ s.loadDies, t.rd IMG_STATUS_STATE e = 1) ∧
      t = { s with regs := t.regs, image := t.image, mem := t.mem, wordErr := t.wordErr, load := t.load, bus := t.bus, out := t.out } ∧
      KeepsRegs [IMG_STATUS_STATE] s t := by
  refine completes_op _ loadGo (loadGo_starts (s := silenced s) htry hstate)
    ((Touches.of_regs (s := silenced s) (t := (silenced s).respond 0) rfl rfl).trans (touches_beginCopy _ 3)) fun u hu => ?_
  have himg : u.image = (((silenced s).respond 0).beginCopy 3).image := by rw [hu.rest]
  rw [beginCopy_image] at himg
  refine ⟨by rw [himg], by rw [himg]; rfl, fun e he => ?_, ?_, hu.keeps⟩
  · rw [hu.rd _ _ _ (by decide)]
    exact beginCopy_state ((silenced s).respond 0) 3 he
  · rw [hu.rest, beginCopy_rest]
    rfl

/-- A die that still starts is late. -/
def markLate (d : Nat) (s : State) : State :=
  if (s.die d).starting then s.modDie d fun x => { x with valuesLate := true } else s

theorem valuesTimeout_completes (hd : (d : Nat) < s.part.dies) (hstart : (s.die d).starting = true) :
    Completes (.valuesTimeout d) s fun t =>
      t.die d = { s.die d with valuesLate := true } ∧ (∀ e, e ≠ (d : Nat) → t.die e = s.die e) ∧
        t = { s with regs := t.regs, dies := t.dies, out := t.out } ∧ KeepsRegs [] s t := by
  refine completes_dieOp [] (markLate d) hd (if_pos hstart) (.of_regs rfl rfl)
    fun u hu => ?_
  have hdies : u.dies = ((silenced s).modDie d fun x => { x with valuesLate := true }).dies := by rw [hu.rest]
  refine ⟨?_, fun e he => ?_, ?_, hu.keeps⟩
  · rw [State.die, hdies]
    exact modDie_die ..
  · rw [State.die, hdies]
    exact modDie_die_other _ he _
  · rw [hu.rest]
    rfl

end

/-- Settles O23, command by command. -/
theorem imageDistribution : Obligations.ImageDistribution :=
  ⟨fun s d i => imageChunk_completes s d i, fun s d i => imageResend_completes s d i,
    fun s d k => imageChecks_completes s d k,
    fun s d _ _ hd hres halone htry hnew =>
      ⟨fun ⟨_, he, hed, hmiss⟩ => imageResult_waits s d hd hres halone htry hnew he hed hmiss,
        fun hall hr hpass hdg => imageResult_loads s d hd hres halone htry hnew hall hr hpass hdg⟩,
    imgLoadGo_completes, valuesTimeout_completes⟩

end Sys2Proof.Laws
end

section
/-! SUPPORT. PROOFS. Flash commands, and the image of a die that starts alone (O24). -/
namespace Sys2Proof.Laws
open Sys2Proof Sys2Proof.Machine

/-! ### Bytes and ranges of a memory -/

theorem natLE_lt (bs : List Byte) : natLE bs < 256 ^ bs.length := by
  induction bs with
  | nil => decide
  | cons b bs ih =>
    have hb := b.isLt
    rw [natLE, List.length_cons, pow_succ]
    omega

/-- The bytes of a number spell it again, cut to their count. -/
theorem natLE_bytesLE (k n : Nat) : natLE (bytesLE k n) = n % 256 ^ k := by
  induction k generalizing n with
  | zero => exact (Nat.mod_one n).symm
  | succ k ih =>
    rw [bytesLE, natLE, ih, BitVec.toNat_ofNat, pow_succ' 256 k]
    exact (Nat.mod_mul (x := n) (a := 256) (b := 256 ^ k)).symm

theorem bytesLE_length (k n : Nat) : (bytesLE k n).length = k := by
  induction k generalizing n with
  | zero => rfl
  | succ k ih => rw [bytesLE, List.length_cons, ih]

/-- Bytes written read as written. -/
theorem memBytes_memStore (x : Byte) (m : List Host.Cell) (a : Nat) (bs : List Byte) :
    memBytes x (memStore x m a bs) a bs.length = bs := by
  induction bs generalizing m a with
  | nil => rfl
  | cons b bs ih =>
    rw [List.length_cons, memBytes, memStore, ih, memByte_memStore_outside _ _ _ _ (by omega), memByte_memSet_same]

/-- A cleared range reads as unlisted, and the rest as before. -/
theorem memByte_memClear (x : Byte) (m : List Host.Cell) (lo hi a : Nat) :
    memByte x (memClear m lo hi) a = if lo ≤ a ∧ a < hi then x else memByte x m a := by
  unfold memByte memClear
  rw [find_filter fun b => decide (b < lo) || decide (hi ≤ b)]
  by_cases h : lo ≤ a ∧ a < hi
  · rw [if_pos h, if_neg (by simp; omega)]
    rfl
  · rw [if_neg h, if_pos (by simp; omega)]

/-! ### A flash command starts (R84) -/

/-- The flash command the registers name. -/
def namedCmd (s : State) (cmd : Nat) : Nat × Nat × Nat :=
  (cmd, s.rd IMG_FLASH_ADDR_ADDRESS pkg, s.rd IMG_FLASH_DATA_DATA pkg)

/-- A flash command runs, and BUSY shows it. -/
def flashStarted (s : State) (cmd : Nat) : State :=
  { s with image := { s.image with flashCmd := some (namedCmd s cmd) } }.wr IMG_FLASH_CMD_BUSY pkg 1

/-- The golden copy is open to a write at the address that the registers name. -/
def GoldenOpen (s : State) : Prop :=
  ∀ c, s.crown.token = some c → s.rd IMG_FLASH_ADDR_ADDRESS pkg < 0x800000 → (s.otpSt c).goldenLock.getD 0 = 0

/-- A write at the address that the registers name falls on a golden copy that is locked. -/
def goldenLocked (s : State) : Bool :=
  match s.crown.token with
  | some c => decide (s.rd IMG_FLASH_ADDR_ADDRESS pkg < 0x800000) && ((s.otpSt c).goldenLock.getD 0 != 0)
  | none => false

theorem goldenLocked_open {s : State} (h : GoldenOpen s) : goldenLocked s = false := by
  unfold goldenLocked
  split
  next c htok =>
    by_cases ha : s.rd IMG_FLASH_ADDR_ADDRESS pkg < 0x800000
    · simp [h c htok ha]
    · simp [ha]
  next => rfl

theorem flashCommand_eq (s : State) (cmd : Nat) : s.flashCommand cmd =
    if s.image.reading || s.flag IMG_FLASH_CMD_BUSY pkg ||
        s.rd IMG_FLASH_ADDR_ADDRESS pkg % (if cmd = 3 then 65536 else 4) != 0 || (cmd != 1 && goldenLocked s) then
      s.raise IMG_FLASH_CMD_ERR pkg
    else flashStarted s cmd := rfl

section
variable {s : State} {cmd : Nat} (hread : s.image.reading = false) (hbusy : s.rd IMG_FLASH_CMD_BUSY pkg = 0)
  (halign : s.rd IMG_FLASH_ADDR_ADDRESS pkg % (if cmd = 3 then 65536 else 4) = 0) (hopen : cmd = 1 ∨ GoldenOpen s)
include hread hbusy halign hopen

theorem flashCommand_starts : s.flashCommand cmd = flashStarted s cmd := by
  have hlocked : (cmd != 1 && goldenLocked s) = false := by
    rcases hopen with rfl | h
    · rfl
    · rw [goldenLocked_open h, Bool.and_false]
  rw [flashCommand_eq, hlocked, hread, State.flag, hbusy, halign]
  rfl

theorem flashCommand_completes : ∃ t, run s (fun u => (u.flashCommand cmd).respond 0) = .next t ∧
    t.image = { s.image with flashCmd := some (namedCmd s cmd) } ∧ t.rd IMG_FLASH_CMD_BUSY pkg = 1 ∧
      t = { s with regs := t.regs, image := t.image, bus := t.bus, out := t.out } ∧ KeepsRegs [IMG_FLASH_CMD_BUSY] s t := by
  have hop : ((silenced s).flashCommand cmd).respond 0 = (flashStarted (silenced s) cmd).respond 0 :=
    congrArg (fun u => u.respond 0) (flashCommand_starts (s := silenced s) hread hbusy halign hopen)
  have ht : Touches [IMG_FLASH_CMD_BUSY] (silenced s) ((flashStarted (silenced s) cmd).respond 0) :=
    (Touches.wr (.of_regs rfl rfl) (by simp) ..).regs rfl rfl
  refine completes_op _ (fun u => (u.flashCommand cmd).respond 0) hop ht fun u hu => ⟨?_, ?_, ?_, hu.keeps⟩
  · rw [hu.rest]
    rfl
  · rw [hu.rd _ _ _ (by decide), respond_rd]
    exact rd_wr_same ..
  · rw [hu.rest]
    rfl

end

/-! ### A flash command completes (R84; log entry 75 for the effect of programming) -/

/-- The flash command that ran is gone, and BUSY shows it. -/
def flashEnded (s : State) : State := { s with image := { s.image with flashCmd := none } }.wr IMG_FLASH_CMD_BUSY pkg 0

section
variable {s : State} {a v : Nat}

theorem flashDone_read (h : s.image.flashCmd = some (1, a, v)) :
    s.flashDone true = (flashEnded s).wr IMG_FLASH_DATA_DATA pkg (natLE (memBytes flashDefault s.flash a 4)) := by
  unfold State.flashDone
  rw [h]
  rfl

theorem flashDone_program (h : s.image.flashCmd = some (2, a, v)) : s.flashDone true =
    { flashEnded s with
      flash := memStore flashDefault s.flash a (bytesLE 4 (natLE (memBytes flashDefault s.flash a 4) &&& v)) } := by
  unfold State.flashDone
  rw [h]
  rfl

theorem flashDone_erase (h : s.image.flashCmd = some (3, a, v)) :
    s.flashDone true = { flashEnded s with flash := memClear s.flash a (a + 65536) } := by
  unfold State.flashDone
  rw [h]
  rfl

theorem flashDone_failed {k : Nat} (h : s.image.flashCmd = some (k, a, v)) :
    s.flashDone false = (flashEnded s).raise IMG_FLASH_CMD_ERR pkg := by
  unfold State.flashDone
  rw [h]
  rfl

theorem touches_flashEnded {fs : List Fld} (h : IMG_FLASH_CMD_BUSY ∈ fs) (s : State) : Touches fs s (flashEnded s) := by
  refine Touches.wr ?_ h ..
  exact .of_regs rfl rfl

theorem natLE_memBytes_lt (x : Byte) (m : List Host.Cell) (a : Nat) : natLE (memBytes x m a 4) < 2 ^ 32 := by
  have h := natLE_lt (memBytes x m a 4)
  rwa [memBytes_length] at h

/-- The word programmed is the old word with the bits cleared that the data word has 0. -/
theorem natLE_programmed (m : List Host.Cell) (a v : Nat) :
    natLE (memBytes flashDefault (memStore flashDefault m a (bytesLE 4 (natLE (memBytes flashDefault m a 4) &&& v))) a 4) =
      natLE (memBytes flashDefault m a 4) &&& v % 2 ^ 32 := by
  have h := memBytes_memStore flashDefault m a (bytesLE 4 (natLE (memBytes flashDefault m a 4) &&& v))
  rw [bytesLE_length] at h
  rw [h, natLE_bytesLE, show (256 ^ 4 : Nat) = 2 ^ 32 from rfl, Nat.and_mod_two_pow, Nat.mod_eq_of_lt (natLE_memBytes_lt _ _ _)]

theorem flashCmdDone_reads (h : s.image.flashCmd = some (1, a, v)) : Completes (.flashCmdDone true) s fun t =>
    t.rd IMG_FLASH_DATA_DATA pkg = natLE (memBytes flashDefault s.flash a 4) ∧ t.rd IMG_FLASH_CMD_BUSY pkg = 0 ∧
      t = { s with regs := t.regs, image := { s.image with flashCmd := none }, out := t.out } ∧
      KeepsRegs [IMG_FLASH_CMD_BUSY, IMG_FLASH_DATA_DATA] s t := by
  have hop : (silenced s).flashDone true =
      (flashEnded (silenced s)).wr IMG_FLASH_DATA_DATA pkg (natLE (memBytes flashDefault s.flash a 4)) :=
    flashDone_read (s := silenced s) h
  have hlt := natLE_memBytes_lt flashDefault s.flash a
  generalize natLE (memBytes flashDefault s.flash a 4) = word at hop hlt ⊢
  refine completes_op [IMG_FLASH_CMD_BUSY, IMG_FLASH_DATA_DATA] (fun u => u.flashDone true) hop
    ((touches_flashEnded (by simp) (silenced s)).wr (by simp) ..) fun u hu => ⟨?_, ?_, ?_, hu.keeps⟩
  · rw [hu.rd _ _ _ (by decide), rd_wr_same]
    exact Nat.mod_eq_of_lt hlt
  · rw [hu.rd _ _ _ (by decide), rd_wr_other _ (by decide)]
    exact rd_wr_same ..
  · rw [hu.rest]
    rfl

theorem flashCmdDone_programs (h : s.image.flashCmd = some (2, a, v)) : Completes (.flashCmdDone true) s fun t =>
    natLE (memBytes flashDefault t.flash a 4) = natLE (memBytes flashDefault s.flash a 4) &&& v % 2 ^ 32 ∧
      (∀ b, ¬ (a ≤ b ∧ b < a + 4) → memByte flashDefault t.flash b = memByte flashDefault s.flash b) ∧
      t = { s with regs := t.regs, image := { s.image with flashCmd := none }, flash := t.flash, out := t.out } ∧
      KeepsRegs [IMG_FLASH_CMD_BUSY] s t := by
  refine completes_op [IMG_FLASH_CMD_BUSY] (fun u => u.flashDone true) (flashDone_program (s := silenced s) h)
    (.regs (touches_flashEnded (by simp) (silenced s)) rfl rfl) fun u hu => ?_
  have hflash : u.flash =
      memStore flashDefault s.flash a (bytesLE 4 (natLE (memBytes flashDefault s.flash a 4) &&& v)) := by rw [hu.rest]; rfl
  refine ⟨?_, fun b hb => ?_, ?_, hu.keeps⟩
  · rw [hflash, natLE_programmed]
  · rw [hflash, memByte_memStore_outside _ _ _ _ (by rw [bytesLE_length]; omega)]
  · rw [hu.rest]
    rfl

theorem flashCmdDone_erases (h : s.image.flashCmd = some (3, a, v)) : Completes (.flashCmdDone true) s fun t =>
    (∀ b, a ≤ b ∧ b < a + 65536 → memByte flashDefault t.flash b = 0xFF) ∧
      (∀ b, ¬ (a ≤ b ∧ b < a + 65536) → memByte flashDefault t.flash b = memByte flashDefault s.flash b) ∧
      t = { s with regs := t.regs, image := { s.image with flashCmd := none }, flash := t.flash, out := t.out } ∧
      KeepsRegs [IMG_FLASH_CMD_BUSY] s t := by
  refine completes_op [IMG_FLASH_CMD_BUSY] (fun u => u.flashDone true) (flashDone_erase (s := silenced s) h)
    (.regs (touches_flashEnded (by simp) (silenced s)) rfl rfl) fun u hu => ?_
  have hflash : u.flash = memClear s.flash a (a + 65536) := by rw [hu.rest]; rfl
  refine ⟨fun b hb => ?_, fun b hb => ?_, ?_, hu.keeps⟩
  · rw [hflash, memByte_memClear, if_pos hb]
    rfl
  · rw [hflash, memByte_memClear, if_neg hb]
  · rw [hu.rest]
    rfl

theorem flashCmdDone_fails {k : Nat} (h : s.image.flashCmd = some (k, a, v)) : Completes (.flashCmdDone false) s fun t =>
    t.rd IMG_FLASH_CMD_ERR pkg = 1 ∧ t.flash = s.flash ∧
      t = { s with regs := t.regs, image := { s.image with flashCmd := none }, out := t.out } ∧
      KeepsRegs [IMG_FLASH_CMD_BUSY, IMG_FLASH_CMD_ERR] s t := by
  refine completes_op [IMG_FLASH_CMD_BUSY, IMG_FLASH_CMD_ERR] (fun u => u.flashDone false) (flashDone_failed (s := silenced s) h) ((touches_flashEnded (by simp) (silenced s)).raise (by simp) ..) fun u hu =>
    ⟨?_, ?_, ?_, hu.keeps⟩
  · rw [hu.rd _ _ _ (by decide), rd_raise_one _ rfl]
  · rw [hu.rest]
    rfl
  · rw [hu.rest]
    rfl

end

/-! ### The image again (R85) -/

/-- What the resend of an image leaves at the crown: its record, the flash, and the dies that wait for their image. -/
def resendView (s : State) : CrownSt × List Host.Cell × List Nat := (s.crown, s.flash, s.image.resend)

/-- A die's fabric is on, and its fabric and engine PLLs start. -/
def fabricPowered (s : State) (d : Nat) : State :=
  if s.domain d 1 = 0 then s else ((s.setDomain d 1 0).startPll d 1).startPll d 2

/-- A die waits for the crown's image. -/
def awaitsImage (s : State) (d : Nat) : State :=
  { s with image := { s.image with resend := if s.image.resend.contains d then s.image.resend else s.image.resend ++ [d] } }

/-- The crown's buffer lies in the die's, with every chunk received. -/
def bufferCopied (s : State) (d c : Nat) : State :=
  let buf := s.mem.filter fun x => decide (bankBase c 0 ≤ x.1 ∧ x.1 < bankBase c 64)
  let s := (s.clearBuffer d).forEach buf fun t x => t.memWrite (x.1 - bankBase c 0 + bankBase d 0) [x.2]
  s.modLoad d fun _ => { chunks := List.range ((max 128 (min 8388608 (natLE (s.memRead (bankBase c 0 + 8) 4))) + 23) / 24) }

/-- The staged fields of a die have the active values that the crown kept. -/
def keptActivated (s : State) (d : Nat) : State :=
  let s := s.forEach (s.image.kept.keep fun k => k.inst == d) fun t e => t.keyActivate e.1 e.2
  { s with image := { s.image with kept := s.image.kept.keep fun k => k.inst != d } }

/-- The die has the package's epoch and waits for its checks. -/
def checksAwaited (s : State) (d : Nat) : State := (s.wr IMG_EPOCH_EPOCH d s.pkgEpoch).wr BUP_STATUS_STATE d 1

/-- The die joins, where its slice is not absent before the first image and it is not quarantined. -/
def joining (s : State) (d : Nat) : State :=
  if s.memberState d = 0 && !s.crown.imageStarted || s.quarantined d then s else s.setMember d 1

section
variable (s : State) (d : Nat)

theorem resendDie_starting {c : Nat} (hstart : (s.die d).starting = true) (hheld : (s.die d).held = false)
    (hpark : s.parked d = false) (hret : s.retiredDie d = false) (htest : (s.die d).selfTest = some true)
    (htok : s.crown.token = some c) (hc : c ≠ d) (hloaded : (s.die c).loaded = true) :
    s.resendDie d = joining (checksAwaited (keptActivated (bufferCopied (awaitsImage (fabricPowered s d) d) d c) d) d) d := by
  unfold State.resendDie
  rw [htok]
  dsimp only [Option.getD_some]
  rw [if_pos (by simp [hstart, hheld, hpark, hret, htest, hc, hloaded])]
  unfold joining checksAwaited keptActivated bufferCopied awaitsImage fabricPowered
  rfl

theorem resendView_keyActivate (k : Key) (v : Nat) : resendView (s.keyActivate k v) = resendView s := by
  unfold State.keyActivate
  split <;> rfl

theorem resendView_startPll {p : Nat} (hp : p ≠ 0) : resendView (s.startPll d p) = resendView s := by
  unfold State.startPll
  rw [if_neg hp]
  split <;> rfl

theorem resendView_fabricPowered : resendView (fabricPowered s d) = resendView s := by
  unfold fabricPowered
  split
  · rfl
  · exact (resendView_startPll _ d (by decide)).trans (resendView_startPll _ d (by decide))

theorem resendView_bufferCopied (c : Nat) : resendView (bufferCopied s d c) = resendView s :=
  forEach_keeps (f := fun (t : State) (x : Host.Cell) => t.memWrite (x.1 - bankBase c 0 + bankBase d 0) [x.2]) resendView _
    (fun _ _ _ => rfl) (s.clearBuffer d)

theorem resendView_keptActivated : resendView (keptActivated s d) = resendView s :=
  forEach_keeps resendView _ (fun t e _ => resendView_keyActivate t e.1 e.2) s

theorem resendView_checksAwaited : resendView (checksAwaited s d) = resendView s := rfl

theorem resendView_joining : resendView (joining s d) = resendView s := by
  unfold joining
  split <;> rfl

theorem awaitsImage_contains : (awaitsImage s d).image.resend.contains d = true := by
  unfold awaitsImage
  dsimp only
  split
  · assumption
  · simp

theorem joining_bup : (joining s d).rd BUP_STATUS_STATE d = s.rd BUP_STATUS_STATE d := by
  unfold joining
  split
  · rfl
  · rw [State.setMember, if_neg (by decide), State.refreshSegments, rd_wr_other _ (by decide), rd_wr_other _ (by decide)]

end

theorem dieImageResend_completes (s : State) (d : Fin 8) (c : Nat) (hd : (d : Nat) < s.part.dies)
    (hstart : (s.die d).starting = true) (hheld : (s.die d).held = false) (hpark : s.parked d = false)
    (hret : s.retiredDie d = false) (htest : (s.die d).selfTest = some true) (htok : s.crown.token = some c)
    (hc : c ≠ (d : Nat)) (hloaded : (s.die c).loaded = true) : Completes (.dieImageResend d) s fun t =>
      t.image.resend.contains (d : Nat) = true ∧ t.rd BUP_STATUS_STATE d = 1 ∧ t.crown = s.crown ∧ t.flash = s.flash := by
  have hop := resendDie_starting (silenced s) d hstart hheld hpark hret htest htok hc hloaded
  have hview : resendView ((silenced s).resendDie d) = resendView (awaitsImage (fabricPowered (silenced s) d) d) := by
    rw [hop, resendView_joining, resendView_checksAwaited, resendView_keptActivated, resendView_bufferCopied]
  have hpow := resendView_fabricPowered (silenced s) d
  have hcrown : ((silenced s).resendDie d).crown = s.crown := (congrArg (·.1) hview).trans (congrArg (·.1) hpow)
  have hflash : ((silenced s).resendDie d).flash = s.flash := (congrArg (·.2.1) hview).trans (congrArg (·.2.1) hpow)
  have hresend : ((silenced s).resendDie d).image.resend.contains (d : Nat) = true := by
    rw [show ((silenced s).resendDie d).image.resend = _ from congrArg (·.2.2) hview]
    exact awaitsImage_contains _ _
  refine completes_runDie s hd (f := fun u => u.resendDie d) ⟨?_, ?_, ?_, ?_⟩
  · rw [ran_image]
    exact hresend
  · rw [rd_ran_plain _ _ rfl (by decide), hop, joining_bup]
    exact rd_wr_same ..
  · rw [ran_crown]
    exact hcrown
  · rw [ran_flash]
    exact hflash

/-- Settles O24, command by command. That a command which fails at the flash leaves the flash as it was is the model's
choice: the spec says only that ERR is set. -/
theorem flashCommandsAndResend : Obligations.FlashCommandsAndResend := by
  refine ⟨fun s hread hbusy => ⟨fun ha => ?_, fun ha hu => ?_, fun ha hu => ?_⟩,
    fun s a v => ⟨flashCmdDone_reads, flashCmdDone_programs, flashCmdDone_erases, fun k => flashCmdDone_fails⟩,
    dieImageResend_completes⟩
  · exact flashCommand_completes (cmd := 1) hread hbusy ha (.inl rfl)
  · exact flashCommand_completes (cmd := 2) hread hbusy ha (.inr hu)
  · exact flashCommand_completes (cmd := 3) hread hbusy ha (.inr hu)

end Sys2Proof.Laws
end

section
/-! SUPPORT. PROOFS. One-time programming (O25). -/
namespace Sys2Proof.Laws
open Sys2Proof Sys2Proof.Machine

/-! ### Words and items (R80) -/

/-- The words held for an item. -/
def withWords (s : State) (ws : List Nat) : State := { s with image := { s.image with otpWords := ws } }

theorem touches_withWords {fs : List Fld} (h : IMG_OTP_CTRL_WORDS ∈ fs) (s : State) (ws : List Nat) (n : Nat) :
    Touches fs s ((withWords s ws).wr IMG_OTP_CTRL_WORDS pkg n) := by
  refine Touches.wr ?_ h ..
  exact .of_regs rfl rfl

/-- A programming job of an item runs. -/
def withJob (s : State) (item : Nat) (ws : List Nat) : State :=
  { s with image := { s.image with otpJob := some (item, ws) } }

theorem touches_withJob {fs : List Fld} (s : State) (item : Nat) (ws : List Nat) : Touches fs s (withJob s item ws) :=
  .of_regs rfl rfl

/-- An item is selected, and no words are held for it. -/
def itemSelected (s : State) (item : Nat) : State :=
  (withWords (s.wr IMG_OTP_CTRL_ITEM pkg item) []).wr IMG_OTP_CTRL_WORDS pkg 0

theorem touches_itemSelected {fs : List Fld} (hitem : IMG_OTP_CTRL_ITEM ∈ fs) (hwords : IMG_OTP_CTRL_WORDS ∈ fs) (s : State)
    (item : Nat) : Touches fs s (itemSelected s item) := by
  refine Touches.wr (Touches.regs ((Touches.refl fs s).wr hitem pkg item 0) ?_ ?_) hwords .. <;> rfl

theorem itemSelected_item (s : State) (item : Nat) : (itemSelected s item).rd IMG_OTP_CTRL_ITEM pkg = item % 4 :=
  (rd_wr_other _ (by decide) ..).trans (rd_wr_same ..)

theorem itemSelected_words (s : State) (item : Nat) : (itemSelected s item).rd IMG_OTP_CTRL_WORDS pkg = 0 := rd_wr_same ..

section
variable {s : State}

theorem otpData_kept (v : Nat) (h : s.image.otpWords.length < 16) : s.otpData v =
    (withWords s (s.image.otpWords ++ [v])).wr IMG_OTP_CTRL_WORDS pkg (s.image.otpWords.length + 1) := if_pos h

theorem otpItem_changed {item : Nat} (h : s.rd IMG_OTP_CTRL_ITEM pkg ≠ item) :
    s.otpItem item = itemSelected s item := if_neg h

/-- PROGRAM of a blank item with exactly its words starts the job. -/
theorem otpProgram_starts {item : Nat} (hitem : item ≠ 3) (hwords : s.image.otpWords.length = State.itemWords item)
    (hjob : s.image.otpJob = none) (hblank : ∀ d, d < s.part.dies → s.itemProgrammed d item = false) :
    s.otpProgram item = withJob (itemSelected s item) item s.image.otpWords := by
  have hany : (s.dieList.any fun d => s.itemProgrammed d item) = false :=
    List.any_eq_false.mpr fun d hd => by simp [hblank d (List.mem_range.mp hd)]
  refine if_neg ?_
  change ¬ (s.image.otpWords.length != State.itemWords item || item == 3 || s.image.otpJob.isSome ||
    s.dieList.any fun d => s.itemProgrammed d item) = true
  simp [hwords, hitem, hjob, hany]

/-- PROGRAM with a wrong number of words, and PROGRAM of item 3, is an error. -/
theorem otpProgram_refused {item : Nat} (h : item = 3 ∨ s.image.otpWords.length ≠ State.itemWords item) :
    s.otpProgram item = (itemSelected s item).raise IMG_OTP_CTRL_ERR pkg := by
  refine if_pos ?_
  rcases h with rfl | h
  · simp
  · simp [h]

theorem rollbackAdvance_starts {v : Nat} (hjob : s.image.otpJob = none)
    (htop : v ≤ s.rd IMG_STATUS_ROLLBACK (s.crown.token.getD 0)) (hlow : (s.otpSt (s.crown.token.getD 0)).rollback ≤ v) :
    s.rollbackAdvance v = withJob s 3 [v] := by
  refine if_neg ?_
  simp [hjob, htop, hlow]

end

/-! ### Programming completes -/

/-- A die's fuses with an item programmed. -/
def programmed (item : Nat) (ws : List Nat) (o : OtpSt) : OtpSt :=
  match item with
  | 0 => { o with keyHash := some ws }
  | 1 => { o with imageKey := some ws }
  | 2 => { o with goldenLock := some (ws.headD 0) }
  | _ => { o with rollback := ws.headD 0 }

/-- The item is programmed on a die. -/
def dieProgrammed (item : Nat) (ws : List Nat) (t : State) (d : Nat) : State :=
  { t with otp := t.otp.set {} (unitKey d 0) (programmed item ws (t.otpSt d)) }

/-- No job runs any more, and DONE shows it. -/
def jobDone (s : State) : State := { s with image := { s.image with otpJob := none } }.raise IMG_OTP_CTRL_DONE pkg

/-- What programming leaves: everything but the fuses. -/
def beforeFuses (s : State) : State := { s with otp := [] }

section
variable (s : State) {item : Nat} {ws : List Nat}

theorem otpDone_job (h : s.image.otpJob = some (item, ws)) :
    s.otpDone = (jobDone s).forEach s.dieList (dieProgrammed item ws) := by
  unfold State.otpDone
  rw [h]
  rfl

theorem otpDone_rest (h : s.image.otpJob = some (item, ws)) : s.otpDone = { jobDone s with otp := s.otpDone.otp } := by
  have hkeep : beforeFuses s.otpDone = beforeFuses (jobDone s) := by
    rw [otpDone_job s h]
    exact forEach_keeps (f := dieProgrammed item ws) beforeFuses _ (fun _ _ _ => rfl) _
  exact congrArg (fun x : State => { x with otp := s.otpDone.otp }) hkeep

theorem dieProgrammed_same (t : State) (d : Nat) : (dieProgrammed item ws t d).otpSt d = programmed item ws (t.otpSt d) :=
  get_set_same ..

theorem dieProgrammed_other (t : State) {d e : Nat} (h : e ≠ d) : (dieProgrammed item ws t d).otpSt e = t.otpSt e :=
  get_set_other _ _ _ (fun k => h (unitKey_inj.mp k).1) _

/-- What programming sets at every die, whatever the die held. -/
theorem otpDone_sets {α : Type} {φ : OtpSt → α} {v : α} (h : s.image.otpJob = some (item, ws))
    (hφ : ∀ o, φ (programmed item ws o) = v) {d : Nat} (hd : d < s.part.dies) : φ (s.otpDone.otpSt d) = v := by
  rw [otpDone_job s h]
  exact forEach_sets (φ := fun u => φ (u.otpSt d)) (fun u x hx => congrArg φ (dieProgrammed_other u (Ne.symm hx)))
    (fun u => (congrArg φ (dieProgrammed_same u d)).trans (hφ _)) (List.mem_range.mpr hd) _

end

/-! ### The commands -/

section
variable (s : State)

theorem otpDataWrite_completes (v : Word) (h : s.image.otpWords.length < 16) : Completes (.otpDataWrite v) s fun t =>
    t.image = { s.image with otpWords := s.image.otpWords ++ [v.toNat] } ∧
      t.rd IMG_OTP_CTRL_WORDS pkg = s.image.otpWords.length + 1 ∧
      t = { s with regs := t.regs, image := t.image, bus := t.bus, out := t.out } ∧ KeepsRegs [IMG_OTP_CTRL_WORDS] s t := by
  refine completes_op [IMG_OTP_CTRL_WORDS] (fun u => (u.otpData v.toNat).respond 0)
    (congrArg (fun u => u.respond 0) (otpData_kept (s := silenced s) v.toNat h))
    (.respond (touches_withWords (by simp) _ _ _) ..) fun u hu => ⟨?_, ?_, ?_, hu.keeps⟩
  · rw [hu.rest]
    rfl
  · rw [hu.rd _ _ _ (by decide), respond_rd, rd_wr_same]
    exact Nat.mod_eq_of_lt (Nat.lt_of_lt_of_le (Nat.succ_lt_succ h) (by decide))
  · rw [hu.rest]
    rfl

theorem otpItemSelect_completes (i : Fin 4) (h : s.rd IMG_OTP_CTRL_ITEM pkg ≠ (i : Nat)) :
    Completes (.otpItemSelect i) s fun t =>
      t.rd IMG_OTP_CTRL_ITEM pkg = (i : Nat) ∧ t.image = { s.image with otpWords := [] } ∧ t.rd IMG_OTP_CTRL_WORDS pkg = 0 ∧
        t = { s with regs := t.regs, image := t.image, bus := t.bus, out := t.out } ∧
        KeepsRegs [IMG_OTP_CTRL_ITEM, IMG_OTP_CTRL_WORDS] s t := by
  refine completes_op [IMG_OTP_CTRL_ITEM, IMG_OTP_CTRL_WORDS] (fun u => (u.otpItem i).respond 0)
    (congrArg (fun u => u.respond 0) (otpItem_changed (s := silenced s) h))
    (.respond (touches_itemSelected (by simp) (by simp) (silenced s) i) ..) fun u hu => ⟨?_, ?_, ?_, ?_, hu.keeps⟩
  · rw [hu.rd _ _ _ (by decide), respond_rd, itemSelected_item]
    exact Nat.mod_eq_of_lt i.isLt
  · rw [hu.rest]
    rfl
  · rw [hu.rd _ _ _ (by decide), respond_rd, itemSelected_words]
  · rw [hu.rest]
    rfl

theorem otpProgram_completes (i : Fin 4) (hjob : s.image.otpJob = none) (hitem : (i : Nat) ≠ 3)
    (hwords : s.image.otpWords.length = [12, 8, 1].getD i 0) (hblank : ∀ d, d < s.part.dies → s.itemProgrammed d i = false) :
    Completes (.otpProgram i) s fun t =>
      t.image = { s.image with otpWords := [], otpJob := some ((i : Nat), s.image.otpWords) } ∧
        t = { s with regs := t.regs, image := t.image, bus := t.bus, out := t.out } ∧
        KeepsRegs [IMG_OTP_CTRL_ITEM, IMG_OTP_CTRL_WORDS] s t := by
  have hcount : ∀ i : Fin 4, (i : Nat) ≠ 3 → [12, 8, 1].getD i 0 = State.itemWords i := by decide
  refine completes_op [IMG_OTP_CTRL_ITEM, IMG_OTP_CTRL_WORDS] (fun u => (u.otpProgram i).respond 0)
    (congrArg (fun u => u.respond 0)
      (otpProgram_starts (s := silenced s) hitem (hwords.trans (hcount i hitem)) hjob hblank))
    (((touches_itemSelected (by simp) (by simp) (silenced s) i).trans (touches_withJob _ i s.image.otpWords)).respond ..)
    fun u hu => ⟨?_, ?_, hu.keeps⟩
  · rw [hu.rest]
    rfl
  · rw [hu.rest]
    rfl

theorem otpProgram_errs (i : Fin 4) (h : (i : Nat) = 3 ∨ s.image.otpWords.length ≠ [12, 8, 1, 2].getD i 0) :
    Completes (.otpProgram i) s fun t => t.rd IMG_OTP_CTRL_ERR pkg = 1 ∧ t.image = { s.image with otpWords := [] } ∧
      t = { s with regs := t.regs, image := t.image, bus := t.bus, out := t.out } ∧
      KeepsRegs [IMG_OTP_CTRL_ITEM, IMG_OTP_CTRL_WORDS, IMG_OTP_CTRL_ERR] s t := by
  refine completes_op [IMG_OTP_CTRL_ITEM, IMG_OTP_CTRL_WORDS, IMG_OTP_CTRL_ERR] (fun u => (u.otpProgram i).respond 0)
    (congrArg (fun u => u.respond 0) (otpProgram_refused (s := silenced s) h))
    (((touches_itemSelected (by simp) (by simp) (silenced s) i).raise (by simp) ..).respond ..)
    fun u hu => ⟨?_, ?_, ?_, hu.keeps⟩
  · rw [hu.rd _ _ _ (by decide), respond_rd, rd_raise_one _ rfl]
  · rw [hu.rest]
    rfl
  · rw [hu.rest]
    rfl

theorem rollbackAdvance_completes (v : Fin 128) (hjob : s.image.otpJob = none)
    (htop : (v : Nat) ≤ s.rd IMG_STATUS_ROLLBACK (s.crown.token.getD 0))
    (hlow : (s.otpSt (s.crown.token.getD 0)).rollback ≤ (v : Nat)) :
    Completes (.rollbackAdvance v) s fun t => t.image = { s.image with otpJob := some (3, [(v : Nat)]) } ∧
      t = { s with regs := t.regs, image := t.image, bus := t.bus, out := t.out } ∧ KeepsRegs [] s t := by
  refine completes_op [] (fun u => (u.rollbackAdvance v).respond 0)
    (congrArg (fun u => u.respond 0) (rollbackAdvance_starts (s := silenced s) hjob htop hlow))
    ((touches_withJob (silenced s) 3 [(v : Nat)]).respond ..)
    fun u hu => ⟨?_, ?_, hu.keeps⟩
  · rw [hu.rest]
    rfl
  · rw [hu.rest]
    rfl

theorem otpProgramDone_completes (i : Nat) (ws : List Nat) (h : s.image.otpJob = some (i, ws)) :
    Completes .otpProgramDone s fun t =>
      t.rd IMG_OTP_CTRL_DONE pkg = 1 ∧ t.image = { s.image with otpJob := none } ∧
        (∀ d, d < s.part.dies →
          (i = 0 → (t.otpSt d).keyHash = some ws) ∧ (i = 1 → (t.otpSt d).imageKey = some ws) ∧
          (i = 2 → (t.otpSt d).goldenLock = some (ws.headD 0)) ∧ (i = 3 → (t.otpSt d).rollback = ws.headD 0)) ∧
        t = { s with regs := t.regs, image := t.image, otp := t.otp, out := t.out } ∧ KeepsRegs [IMG_OTP_CTRL_DONE] s t := by
  have hrest := otpDone_rest (silenced s) h
  have hregs : (silenced s).otpDone.regs = (jobDone (silenced s)).regs := by rw [hrest]
  have hpart : (silenced s).otpDone.part = s.part := by rw [hrest]; rfl
  have hdone : Touches [IMG_OTP_CTRL_DONE] (silenced s) (jobDone (silenced s)) := by
    refine Touches.raise ?_ (by simp) ..
    exact .of_regs rfl rfl
  refine completes_op [IMG_OTP_CTRL_DONE] State.otpDone rfl (hdone.regs hregs hpart) fun u hu => ?_
  have hotp (d : Nat) : u.otpSt d = (silenced s).otpDone.otpSt d := by rw [hu.rest]; rfl
  refine ⟨?_, ?_, fun d hd => ⟨?_, ?_, ?_, ?_⟩, ?_, hu.keeps⟩
  · rw [hu.rd _ _ _ (by decide), rd_congr hregs hpart, jobDone, rd_raise_one _ rfl]
  · rw [hu.rest, hrest]
    rfl
  · rintro rfl
    rw [hotp]
    exact otpDone_sets (silenced s) h (fun _ => rfl) hd
  · rintro rfl
    rw [hotp]
    exact otpDone_sets (silenced s) h (fun _ => rfl) hd
  · rintro rfl
    rw [hotp]
    exact otpDone_sets (silenced s) h (fun _ => rfl) hd
  · rintro rfl
    rw [hotp]
    exact otpDone_sets (silenced s) h (fun _ => rfl) hd
  · rw [hu.rest, hrest]
    rfl

end

/-- Settles O25, command by command (log entry 83: PROGRAM of item 3 answers ERR by the model's choice). -/
theorem otpProgramming : Obligations.OtpProgramming :=
  ⟨otpDataWrite_completes, otpItemSelect_completes,
    fun s i hjob => ⟨otpProgram_completes s i hjob, otpProgram_errs s i⟩,
    rollbackAdvance_completes, otpProgramDone_completes⟩

end Sys2Proof.Laws
end

section
/-! SUPPORT. PROOFS. What opens and what closes a transaction, and its commands (O26). -/
namespace Sys2Proof.Laws
open Sys2Proof Sys2Proof.Machine

/-! ### A transaction aborts (R92) -/

/-- The registers that an abort writes. -/
def abortFlds : List Fld :=
  [IMG_DIE_STATUS_PENDING, IMG_TXN_STATUS_RESULT, IMG_TXN_STATUS_REASON, IMG_TXN_STATUS_STATE, FRM_PLAN_STATUS_STATE]

theorem Touches.mono {fs gs : List Fld} {s t : State} (h : Touches fs s t) (hsub : ∀ f ∈ fs, f ∈ gs) : Touches gs s t :=
  ⟨h.part, fun g e j hg => h.rd g e j fun hin => by
    obtain ⟨f, hf, hp⟩ := List.mem_map.mp hin
    exact hg (hp ▸ place_mem (hsub f hf))⟩

section
variable (s : State) (reason : Nat)

theorem touches_showAbort : Touches abortFlds s (showAbort s reason) where
  part := showAbort_keeps State.part (fun _ _ => rfl) (fun _ _ => rfl) (fun _ _ _ => rfl) (fun _ _ => rfl)
    (fun _ _ _ _ _ _ => rfl) s reason
  rd g e j hg := showAbort_keeps (fun t => t.rd g e j) (fun _ _ => rfl) (fun _ _ => rfl) (fun _ _ _ => rfl) (fun _ _ => rfl)
    (fun t _ hf d v k => rd_wr_outside (List.mem_append_left [FRM_PLAN_STATUS_STATE] hf) hg t d e v k j) s reason

theorem touches_wrTeam {fs : List Fld} {f : Fld} (hf : f ∈ fs) (b v : Nat) : Touches fs s (s.wrTeam f b v) :=
  (Touches.of_writesOnly (writesOnly_wrTeam s f b v)).mono fun _ hg => List.mem_singleton.mp hg ▸ hf

theorem touches_closePlan (b : Nat) : Touches [FRM_PLAN_STATUS_STATE] s (s.closePlan b) := by
  rw [closePlan_eq]
  exact (touches_wrTeam s (by simp) b 0).regs rfl rfl

/-- A proposer's WITHDRAW to the far end. -/
def withdrawSent (s : State) (b : Nat) : State :=
  if s.rd FRM_PLAN_STATUS_STATE b = 1 then s.sendMsgs b [(0x06, bytesBE 4 s.txn.planEpoch)] else s

theorem withdrawPlan_team {s : State} {b : Nat} (h : s.txn.planTeam = some b) : s.withdrawPlan =
    if (withdrawSent s b).rd FRM_PLAN_STATUS_STATE b = 4 then withdrawSent s b else (withdrawSent s b).closePlan b := by
  unfold State.withdrawPlan
  rw [h]
  rfl

theorem withdrawPlan_none {s : State} (h : s.txn.planTeam = none) : s.withdrawPlan = s := by
  unfold State.withdrawPlan
  rw [h]

/-- What a message set and the close of a handshake keep, the withdrawal of a plan keeps. -/
theorem withdrawPlan_induct {P : State → Prop} (hs : P s) (hsend : ∀ b ms, P (s.sendMsgs b ms))
    (hclose : ∀ t b, P t → P (State.closePlan t b)) : P s.withdrawPlan := by
  cases h : s.txn.planTeam with
  | none => rwa [withdrawPlan_none h]
  | some b =>
    have hsent : P (withdrawSent s b) := by
      unfold withdrawSent
      split
      · exact hsend ..
      · exact hs
    rw [withdrawPlan_team h]
    split
    · exact hsent
    · exact hclose _ _ hsent

theorem touches_withdrawPlan : Touches [FRM_PLAN_STATUS_STATE] s s.withdrawPlan :=
  withdrawPlan_induct s (.refl _ s) (fun _ _ => .of_regs rfl rfl) fun t b h => h.trans (touches_closePlan t b)

theorem touches_dropRejoin {fs : List Fld} : Touches fs s (dropRejoin s) := by
  unfold dropRejoin
  split
  · split
    · exact .of_regs rfl rfl
    · exact .refl _ s
  · exact .refl _ s

variable {s}

/-- After the reason is shown, an abort writes only what the handshake of a plan shows. -/
theorem touches_abortTxn_shown (h : s.txn.isOpen = true) : Touches [FRM_PLAN_STATUS_STATE] (showAbort s reason) (s.abortTxn reason) := by
  rw [abortTxn_open h]
  exact ((touches_withdrawPlan _).trans (touches_dropRejoin _)).regs rfl rfl

theorem touches_abortTxn : Touches abortFlds s (s.abortTxn reason) := by
  cases h : s.txn.isOpen with
  | false =>
    rw [abortTxn_closed h]
    exact .refl _ s
  | true => exact (touches_showAbort s reason).trans ((touches_abortTxn_shown reason h).mono (by simp [abortFlds]))

section
variable (h : s.txn.isOpen = true)
include h

theorem abortTxn_isOpen : (s.abortTxn reason).txn.isOpen = false := by
  rw [abortTxn_open h]
  rfl

theorem rd_abortTxn_result : (s.abortTxn reason).rd IMG_TXN_STATUS_RESULT pkg = 2 := by
  rw [(touches_abortTxn_shown reason h).rd _ _ _ (by decide), rd_showAbort_result]

theorem rd_abortTxn_reason (hr : reason < 16) : (s.abortTxn reason).rd IMG_TXN_STATUS_REASON pkg = reason := by
  rw [(touches_abortTxn_shown reason h).rd _ _ _ (by decide)]
  refine (emit_rd ..).trans ?_
  rw [rd_wr_other _ (by decide), rd_wr_same]
  exact Nat.mod_eq_of_lt hr

theorem rd_abortTxn_state : (s.abortTxn reason).rd IMG_TXN_STATUS_STATE pkg = 0 := by
  rw [(touches_abortTxn_shown reason h).rd _ _ _ (by decide)]
  exact (emit_rd ..).trans (rd_wr_same ..)

end

theorem closePlan_mem (s : State) (b : Nat) : (s.closePlan b).mem = s.mem := by
  rw [closePlan_eq, wrTeam_eq]
  rfl

theorem withdrawPlan_mem (s : State) : s.withdrawPlan.mem = s.mem :=
  withdrawPlan_induct (P := fun t => t.mem = s.mem) s rfl (fun _ _ => rfl) fun t b h => (closePlan_mem t b).trans h

theorem dropRejoin_mem (s : State) : (dropRejoin s).mem = s.mem := by
  unfold dropRejoin
  split
  · split <;> rfl
  · rfl

theorem showAbort_mem (s : State) (reason : Nat) : (showAbort s reason).mem = s.mem :=
  showAbort_keeps State.mem (fun _ _ => rfl) (fun _ _ => rfl) (fun _ _ _ => rfl) (fun _ _ => rfl) (fun _ _ _ _ _ _ => rfl) s reason

theorem abortTxn_mem : (s.abortTxn reason).mem = s.mem := by
  cases h : s.txn.isOpen with
  | false => rw [abortTxn_closed h]
  | true =>
    rw [abortTxn_open h]
    exact (dropRejoin_mem _).trans ((withdrawPlan_mem _).trans (showAbort_mem s reason))

end

/-! ### A transaction opens (R88, R90) -/

/-- The record of a transaction that opens now. -/
def openedTxn (s : State) (rollback : Bool) (lead : Nat) : TxnSt :=
  { isOpen := true
    rollback := rollback
    epoch := (s.pkgEpoch + 1) % 2 ^ 32
    mf := s.time.mf + 1 + lead
    members := s.dieList.filter s.takesPart
    m0 := s.time.mf }

/-- The transaction is open, and its registers show it. -/
def openShown (s : State) (rollback : Bool) (lead : Nat) : State :=
  (({ s with txn := openedTxn s rollback lead }.wr IMG_TXN_STATUS_STATE pkg 1).wr IMG_TXN_STATUS_RESULT pkg 0).wr
    IMG_TXN_MF_MF pkg (s.time.mf + 1 + lead)

/-- The package region holds its staged fields, or the shadow. -/
def packageHolds (s : State) (rollback : Bool) : State := if rollback then s.holdShadow pkg else s.hold pkg

section
variable (s : State) (rollback : Bool) (lead : Nat)

theorem clearHolds_keeps {α : Type} (φ : State → α) (hdie : ∀ t d f, φ (State.modDie t d f) = φ t)
    (hwr : ∀ t d v k, φ (State.wr t IMG_DIE_STATUS_PENDING d v k) = φ t) : φ s.clearHolds = φ s :=
  forEach_keeps φ _ (fun u d _ => (hwr ..).trans (hdie u d _)) s

theorem openTxn_eq : s.openTxn rollback lead =
    (packageHolds (openShown s rollback lead).clearHolds rollback).ringTxn
      (packageHolds (openShown s rollback lead).clearHolds rollback).crownDie 15 1 0 := rfl

theorem packageHolds_keeps {α : Type} (φ : State → α) (hhold : ∀ t, φ (State.hold t pkg) = φ t)
    (hshadow : ∀ t, φ (State.holdShadow t pkg) = φ t) : φ (packageHolds s rollback) = φ s := by
  unfold packageHolds
  split
  · exact hshadow s
  · exact hhold s

theorem openTxn_keeps {α : Type} (φ : State → α) (hdie : ∀ t d f, φ (State.modDie t d f) = φ t)
    (hwr : ∀ t d v k, φ (State.wr t IMG_DIE_STATUS_PENDING d v k) = φ t) (hhold : ∀ t, φ (State.hold t pkg) = φ t)
    (hshadow : ∀ t, φ (State.holdShadow t pkg) = φ t) (hout : ∀ t o, φ (State.emit t o) = φ t) :
    φ (s.openTxn rollback lead) = φ (openShown s rollback lead) := by
  rw [openTxn_eq]
  exact (hout ..).trans ((packageHolds_keeps _ _ φ hhold hshadow).trans (clearHolds_keeps _ φ hdie hwr))

theorem openTxn_txn : (s.openTxn rollback lead).txn = openedTxn s rollback lead :=
  openTxn_keeps s rollback lead State.txn (fun _ _ _ => rfl) (fun _ _ _ _ => rfl) (fun _ => rfl) (fun _ => rfl) fun _ _ => rfl

theorem openTxn_mem : (s.openTxn rollback lead).mem = s.mem :=
  openTxn_keeps s rollback lead State.mem (fun _ _ _ => rfl) (fun _ _ _ _ => rfl) (fun _ => rfl) (fun _ => rfl) fun _ _ => rfl

theorem touches_openTxn_shown : Touches [IMG_DIE_STATUS_PENDING] (openShown s rollback lead) (s.openTxn rollback lead) where
  part := openTxn_keeps s rollback lead State.part (fun _ _ _ => rfl) (fun _ _ _ _ => rfl) (fun _ => rfl) (fun _ => rfl) fun _ _ => rfl
  rd g e j hg := openTxn_keeps s rollback lead (fun t => t.rd g e j) (fun _ _ _ => rfl)
    (fun t d v k => rd_wr_outside (by simp) hg t d e v k j) (fun _ => rfl) (fun _ => rfl) fun _ _ => rfl

/-- The registers that a transaction which opens writes. -/
def openFlds : List Fld :=
  [IMG_TXN_CTRL_LEAD, IMG_TXN_STATUS_STATE, IMG_TXN_STATUS_RESULT, IMG_TXN_MF_MF, IMG_DIE_STATUS_PENDING]

theorem touches_openShown : Touches openFlds s (openShown s rollback lead) := by
  have h : Touches openFlds s { s with txn := openedTxn s rollback lead } := .of_regs rfl rfl
  exact ((h.wr (by simp [openFlds]) ..).wr (by simp [openFlds]) ..).wr (by simp [openFlds]) ..

theorem touches_openTxn : Touches openFlds s (s.openTxn rollback lead) :=
  (touches_openShown s rollback lead).trans ((touches_openTxn_shown s rollback lead).mono (by simp [openFlds]))

theorem rd_openTxn_state : (s.openTxn rollback lead).rd IMG_TXN_STATUS_STATE pkg = 1 := by
  rw [(touches_openTxn_shown s rollback lead).rd _ _ _ (by decide), openShown, rd_wr_other _ (by decide), rd_wr_other _ (by decide),
    rd_wr_same]
  rfl

theorem rd_openTxn_result : (s.openTxn rollback lead).rd IMG_TXN_STATUS_RESULT pkg = 0 := by
  rw [(touches_openTxn_shown s rollback lead).rd _ _ _ (by decide), openShown, rd_wr_other _ (by decide), rd_wr_same]
  rfl

theorem rd_openTxn_mf : (s.openTxn rollback lead).rd IMG_TXN_MF_MF pkg = (s.time.mf + 1 + lead) % 2 ^ 32 := by
  rw [(touches_openTxn_shown s rollback lead).rd _ _ _ (by decide), openShown, rd_wr_same]
  rfl

end

/-! ### COMMIT, ROLLBACK and ABORT (R88, R94, R95) -/

section
variable {s : State} {rollback : Bool} {lead : Nat}

theorem rd_storeLead (h : lead < 256) : (s.storeLead lead).rd IMG_TXN_CTRL_LEAD pkg = max 2 lead := by
  rw [State.storeLead, rd_wr_same]
  exact Nat.mod_eq_of_lt (by change max 2 lead < 256; omega)

theorem openedTxn_storeLead (n : Nat) : openedTxn (s.storeLead lead) rollback n = openedTxn s rollback n := by
  have hepoch : (s.storeLead lead).pkgEpoch = s.pkgEpoch := by
    unfold State.pkgEpoch State.epoch State.storeLead
    rw [wr_crown]
    split <;> exact rd_wr_other _ (by decide) ..
  have htakes : (s.storeLead lead).takesPart = s.takesPart := by
    funext d
    unfold State.takesPart State.quarantined State.parked State.retiredDie State.flag State.storeLead
    rw [rd_wr_other _ (by decide), rd_wr_other _ (by decide), rd_wr_other _ (by decide)]
    rfl
  rw [openedTxn, openedTxn, hepoch, htakes]
  rfl

theorem txnCommand_busy (h : s.txn.isOpen = true) :
    s.txnCommand rollback lead = (s.storeLead lead).wr IMG_TXN_STATUS_RESULT pkg 3 := if_pos h

/-- With no transaction open a command opens one, which aborts at once where it is a rollback and no shadow is valid. -/
theorem txnCommand_opens (h : s.txn.isOpen = false) : s.txnCommand rollback lead =
    if rollback && s.rd IMG_SHADOW_VALID pkg == 0 then
      ((s.storeLead lead).openTxn rollback (max 2 lead)).abortTxn reasonNoShadow
    else (s.storeLead lead).openTxn rollback (max 2 lead) := by
  have hvalid : ((s.storeLead lead).openTxn rollback (max 2 lead)).rd IMG_SHADOW_VALID pkg = s.rd IMG_SHADOW_VALID pkg :=
    ((touches_openTxn _ _ _).rd _ _ _ (by decide)).trans (rd_wr_other _ (by decide) ..)
  have hflag (t : State) : (!t.flag IMG_SHADOW_VALID pkg) = (t.rd IMG_SHADOW_VALID pkg == 0) := by
    rw [State.flag, bne, Bool.not_not]
  unfold State.txnCommand
  dsimp only
  rw [if_neg (by rw [State.storeLead, wr_txn, h]; decide), hflag, hvalid]

end

/-- What ABORT does: before GO the transaction aborts, after GO it is ignored. -/
def abortCommand (lead : Nat) (s : State) : State :=
  let s := (s.storeLead lead).respond 0
  if !s.txn.isOpen then s
  else if s.txn.goSent then (s.raise IMG_TXN_STATUS_ABORT_IGNORED pkg).wr IMG_TXN_STATUS_RESULT pkg 0
  else s.abortTxn reasonHostAbort

theorem abortCommand_goes {s : State} {lead : Nat} (hopen : s.txn.isOpen = true) (hgo : s.txn.goSent = false) :
    abortCommand lead s = ((s.storeLead lead).respond 0).abortTxn reasonHostAbort := by
  have hopen' : ((s.storeLead lead).respond 0).txn.isOpen = true := hopen
  have hgo' : ((s.storeLead lead).respond 0).txn.goSent = false := hgo
  unfold abortCommand
  dsimp only
  rw [hopen', hgo']
  rfl

theorem abortCommand_ignored {s : State} {lead : Nat} (hopen : s.txn.isOpen = true) (hgo : s.txn.goSent = true) :
    abortCommand lead s =
      (((s.storeLead lead).respond 0).raise IMG_TXN_STATUS_ABORT_IGNORED pkg).wr IMG_TXN_STATUS_RESULT pkg 0 := by
  have hopen' : ((s.storeLead lead).respond 0).txn.isOpen = true := hopen
  have hgo' : ((s.storeLead lead).respond 0).txn.goSent = true := hgo
  unfold abortCommand
  dsimp only
  rw [hopen', hgo']
  rfl

section
variable (s : State) (lead : Fin 256)

theorem rd_storeLead_fin (t : State) : (t.storeLead lead).rd IMG_TXN_CTRL_LEAD pkg = max 2 (lead : Nat) := rd_storeLead lead.isLt

theorem touches_storeLead {fs : List Fld} (h : IMG_TXN_CTRL_LEAD ∈ fs) (n : Nat) : Touches fs s (s.storeLead n) :=
  (Touches.refl fs s).wr h ..

/-- The state that a command which opens a transaction leaves. -/
def opened (s : State) (rollback : Bool) (lead : Nat) : State := ((s.storeLead lead).openTxn rollback (max 2 lead)).respond 0

theorem touches_opened (rollback : Bool) (n : Nat) : Touches openFlds s (opened s rollback n) :=
  ((touches_storeLead s (by simp [openFlds]) n).trans (touches_openTxn _ _ _)).respond ..

theorem rd_opened_lead (rollback : Bool) : (opened s rollback lead).rd IMG_TXN_CTRL_LEAD pkg = max 2 (lead : Nat) := by
  rw [opened, respond_rd, (touches_openTxn_shown ..).rd _ _ _ (by decide), openShown, rd_wr_other _ (by decide),
    rd_wr_other _ (by decide), rd_wr_other _ (by decide)]
  exact rd_storeLead_fin lead s

/-- A COMMIT or ROLLBACK that opens a transaction. -/
theorem txnCommand_completes {rollback : Bool} (hopen : s.txn.isOpen = false)
    (hvalid : rollback = true → s.rd IMG_SHADOW_VALID pkg ≠ 0) :
    ∃ t, run s (fun u => (u.txnCommand rollback lead).respond 0) = .next t ∧
      t.txn = openedTxn s rollback (max 2 (lead : Nat)) ∧ t.rd IMG_TXN_CTRL_LEAD pkg = max 2 (lead : Nat) ∧
      t.rd IMG_TXN_STATUS_STATE pkg = 1 ∧ t.rd IMG_TXN_STATUS_RESULT pkg = 0 ∧
      t.rd IMG_TXN_MF_MF pkg = (s.time.mf + 1 + max 2 (lead : Nat)) % 2 ^ 32 ∧ KeepsRegs openFlds s t := by
  have hno : (rollback && s.rd IMG_SHADOW_VALID pkg == 0) = false := by
    cases rollback with
    | false => rfl
    | true => exact beq_false_of_ne (hvalid rfl)
  have hop : ((silenced s).txnCommand rollback lead).respond 0 = opened (silenced s) rollback lead := by
    refine congrArg (fun u => u.respond 0) ((txnCommand_opens (s := silenced s) hopen).trans (if_neg ?_))
    exact Bool.not_eq_true _ ▸ hno
  refine completes_op openFlds (fun u => (u.txnCommand rollback lead).respond 0) hop (touches_opened ..) fun u hu =>
    ⟨?_, ?_, ?_, ?_, ?_, hu.keeps⟩
  · rw [hu.rest]
    exact (openTxn_txn ..).trans (openedTxn_storeLead (s := silenced s) _)
  · rw [hu.rd _ _ _ (by decide), rd_opened_lead]
  · rw [hu.rd _ _ _ (by decide), opened, respond_rd, rd_openTxn_state]
  · rw [hu.rd _ _ _ (by decide), opened, respond_rd, rd_openTxn_result]
  · rw [hu.rd _ _ _ (by decide), opened, respond_rd, rd_openTxn_mf]
    rfl

/-- A ROLLBACK with no valid shadow aborts at once. -/
theorem txnRollback_noShadow (hopen : s.txn.isOpen = false) (hvalid : s.rd IMG_SHADOW_VALID pkg = 0) :
    Completes (.txnRollback lead) s fun t =>
      t.txn.isOpen = false ∧ t.rd IMG_TXN_STATUS_RESULT pkg = 2 ∧ t.rd IMG_TXN_STATUS_REASON pkg = reasonNoShadow ∧
        t.mem = s.mem := by
  have hvalid' : (silenced s).rd IMG_SHADOW_VALID pkg = 0 := hvalid
  have hop := (txnCommand_opens (s := silenced s) (rollback := true) (lead := lead) hopen).trans (if_pos (by simp [hvalid']))
  have hisOpen : (((silenced s).storeLead lead).openTxn true (max 2 (lead : Nat))).txn.isOpen = true := by rw [openTxn_txn]; rfl
  refine completes_run s (f := fun u => (u.txnCommand true lead).respond 0) ⟨?_, ?_, ?_, ?_⟩
  · rw [ran_txn]
    exact (congrArg (fun u : State => u.txn.isOpen) hop).trans (abortTxn_isOpen _ hisOpen)
  · rw [rd_ran_plain _ _ rfl (by decide), respond_rd, hop, rd_abortTxn_result _ hisOpen]
  · rw [rd_ran_plain _ _ rfl (by decide), respond_rd, hop, rd_abortTxn_reason _ hisOpen (by decide)]
  · rw [ran_mem]
    exact (congrArg State.mem hop).trans ((abortTxn_mem _).trans (openTxn_mem ..))

/-- While a transaction is open COMMIT and ROLLBACK only answer BUSY. -/
theorem txnCommand_answersBusy (rollback : Bool) (hopen : s.txn.isOpen = true) :
    ∃ t, run s (fun u => (u.txnCommand rollback lead).respond 0) = .next t ∧ t.rd IMG_TXN_STATUS_RESULT pkg = 3 ∧
      t = { s with regs := t.regs, bus := t.bus, out := t.out } ∧ KeepsRegs [IMG_TXN_CTRL_LEAD, IMG_TXN_STATUS_RESULT] s t := by
  refine completes_op [IMG_TXN_CTRL_LEAD, IMG_TXN_STATUS_RESULT] (fun u => (u.txnCommand rollback lead).respond 0)
    (congrArg (fun u => u.respond 0) (txnCommand_busy (s := silenced s) hopen))
    (((touches_storeLead (silenced s) (by simp) lead).wr (by simp) ..).respond ..) fun u hu => ⟨?_, ?_, hu.keeps⟩
  · rw [hu.rd _ _ _ (by decide), respond_rd, rd_wr_same]
    rfl
  · rw [hu.rest]
    rfl

theorem txnAbort_aborts (hopen : s.txn.isOpen = true) (hgo : s.txn.goSent = false) : Completes (.txnAbort lead) s fun t =>
    t.txn.isOpen = false ∧ t.rd IMG_TXN_STATUS_RESULT pkg = 2 ∧ t.rd IMG_TXN_STATUS_REASON pkg = reasonHostAbort ∧
      t.rd IMG_TXN_STATUS_STATE pkg = 0 ∧ t.rd IMG_TXN_CTRL_LEAD pkg = max 2 (lead : Nat) := by
  have hop := abortCommand_goes (s := silenced s) (lead := lead) hopen hgo
  have hopen' : (((silenced s).storeLead lead).respond 0).txn.isOpen = true := hopen
  refine completes_run s (f := abortCommand lead) ⟨?_, ?_, ?_, ?_, ?_⟩
  · rw [ran_txn]
    exact (congrArg (fun u : State => u.txn.isOpen) hop).trans (abortTxn_isOpen _ hopen')
  · rw [rd_ran_plain _ _ rfl (by decide), hop, rd_abortTxn_result _ hopen']
  · rw [rd_ran_plain _ _ rfl (by decide), hop, rd_abortTxn_reason _ hopen' (by decide)]
  · rw [rd_ran_plain _ _ rfl (by decide), hop, rd_abortTxn_state _ hopen']
  · rw [rd_ran_plain _ _ rfl (by decide), hop, (touches_abortTxn _).rd _ _ _ (by decide), respond_rd, rd_storeLead_fin]

theorem txnAbort_ignored (hopen : s.txn.isOpen = true) (hgo : s.txn.goSent = true) : Completes (.txnAbort lead) s fun t =>
    t.rd IMG_TXN_STATUS_ABORT_IGNORED pkg = 1 ∧ t.rd IMG_TXN_STATUS_RESULT pkg = 0 ∧
      t = { s with regs := t.regs, bus := t.bus, out := t.out } ∧
      KeepsRegs [IMG_TXN_CTRL_LEAD, IMG_TXN_STATUS_ABORT_IGNORED, IMG_TXN_STATUS_RESULT] s t := by
  refine completes_op [IMG_TXN_CTRL_LEAD, IMG_TXN_STATUS_ABORT_IGNORED, IMG_TXN_STATUS_RESULT] (abortCommand lead)
    (abortCommand_ignored (s := silenced s) hopen hgo)
    ((((touches_storeLead (silenced s) (by simp) lead).respond 0 0).raise (by simp) ..).wr (by simp) ..) fun u hu =>
      ⟨?_, ?_, ?_, hu.keeps⟩
  · rw [hu.rd _ _ _ (by decide), rd_wr_other _ (by decide), rd_raise_one _ rfl]
  · rw [hu.rd _ _ _ (by decide), rd_wr_same]
    rfl
  · rw [hu.rest]
    rfl

theorem txnMultiCommand_completes : Completes (.txnMultiCommand lead) s fun t =>
    t.rd IMG_TXN_CTRL_LEAD pkg = max 2 (lead : Nat) ∧ t = { s with regs := t.regs, bus := t.bus, out := t.out } ∧
      KeepsRegs [IMG_TXN_CTRL_LEAD] s t := by
  refine completes_op [IMG_TXN_CTRL_LEAD] (fun u => (u.storeLead lead).respond 0) rfl
    ((touches_storeLead (silenced s) (by simp) lead).respond ..) fun u hu => ⟨?_, ?_, hu.keeps⟩
  · rw [hu.rd _ _ _ (by decide), respond_rd, rd_storeLead_fin]
  · rw [hu.rest]
    rfl

end

/-- Settles O26, command by command. -/
theorem transactionCommands : Obligations.TransactionCommands := by
  refine ⟨fun s lead hopen => ⟨?_, fun hvalid => ?_, txnRollback_noShadow s lead hopen⟩,
    fun s lead hopen => ⟨?_, ?_, txnAbort_aborts s lead hopen, txnAbort_ignored s lead hopen⟩, txnMultiCommand_completes⟩
  · exact txnCommand_completes s lead hopen nofun
  · exact txnCommand_completes s lead hopen fun _ => by rw [hvalid]; decide
  · exact txnCommand_answersBusy s lead false hopen
  · exact txnCommand_answersBusy s lead true hopen

end Sys2Proof.Laws
end

section
/-! SUPPORT. PROOFS. What arms, decoders, flows and power domains do not bear on: the transaction, the memory, the dies'
records and the image registers. -/
namespace Sys2Proof.Laws
open Sys2Proof Sys2Proof.Machine

/-! ### Arms and flows at a switch -/

section
variable (s : State) (d i : Nat)

@[simp] theorem centre_enableUnit (b u : Nat) : centre (s.enableUnit d b u) = centre s := by
  simp [State.enableUnit]

@[simp] theorem centre_disableUnit (b u work now : Nat) : centre (s.disableUnit d b u work now) = centre s := by
  simp [State.disableUnit]

@[simp] theorem centre_setCands (cs : List Cand) : centre (s.setCands d i cs) = centre s := by
  simp (disch := decide) [State.setCands]

@[simp] theorem centre_frmStart : centre (s.frmStart d i) = centre s := by
  unfold State.frmStart
  dsimp only
  split <;> simp (disch := decide)

@[simp] theorem centre_rxStart : centre (s.rxStart d i) = centre s := by
  simp [State.rxStart]

@[simp] theorem centre_rxWake : centre (s.rxWake d i) = centre s := by
  simp [State.rxWake]

@[simp] theorem centre_rxUp : centre (s.rxUp d i) = centre s := by
  simp [State.rxUp]

@[simp] theorem centre_rxOff : centre (s.rxOff d i) = centre s := by
  simp [State.rxOff]

@[simp] theorem centre_txOff : centre (s.txOff d i) = centre s := by
  simp [State.txOff]

@[simp] theorem centre_txPower : centre (s.txPower d i) = centre s := by
  simp [State.txPower]

@[simp] theorem centre_txReturn : centre (s.txReturn d i) = centre s := by
  simp [State.txReturn]

@[simp] theorem centre_armsBack (tx rx : Bool) : centre (s.armsBack d i tx rx) = centre s := by
  simp [State.armsBack]

@[simp] theorem centre_txMark : centre (s.txMark d) = centre s := centre_forEach s _ fun t i => by simp

@[simp] theorem centre_moveGroup (o : State) (f : Nat) : centre (s.moveGroup o d f) = centre s := by
  unfold State.moveGroup
  dsimp only
  split <;> simp

@[simp] theorem centre_dropTxKey (f : Nat) : centre (s.dropTxKey d f) = centre s := by
  simp [State.dropTxKey]

@[simp] theorem centre_promoteTx (f : Nat) : centre (s.promoteTx d f) = centre s := by
  simp (disch := decide) [State.promoteTx]

@[simp] theorem centre_showCodes : centre (s.showCodes d) = centre s := centre_forEach s _ fun t i => by
  simp (disch := decide)

@[simp] theorem centre_commitPool (h : Nat → Nat) : centre (s.commitPool d h) = centre s := by
  simp (disch := decide) [State.commitPool]

@[simp] theorem centre_sendAlign (g : Nat) (ls : List Nat) : centre (s.sendAlign d g ls) = centre s :=
  centre_forEach s _ fun t e => by simp

@[simp] theorem centre_grpWake (g : Nat) : centre (s.grpWake d g) = centre s := by
  simp (disch := decide) [State.grpWake]

/-- What a subcarrier's arms do at a switch from `o`. -/
def armsSwitched (o : State) (back : Bool) (t : State) : State :=
  let changed (t : State) (f : Fld) (k : Nat) : Bool := t.rd f d k != o.rd f d k
  let rebuilt := changed t TXD_SC_CFG_CLASS i || changed t FEC_SC_CFG_CODE i || changed t TXD_SC_CFG_ROLLOFF i
  let t := if o.txOn d i && !t.txOn d i then (if back then t else t.txOff d i)
    else if !o.txOn d i && t.txOn d i then (t.enableUnit d 5 i).txPower d i
    else if t.txOn d i && rebuilt then (t.setTxState d i 1).modTx d i fun a => { a with before := 0, waking := true, due := true }
    else t
  let t := if o.rxOn d i && !t.rxOn d i then (if back then t else t.rxOff d i)
    else if !o.rxOn d i && t.rxOn d i then t.rxUp d i
    else if t.rxOn d i && rebuilt then t.rxStart d i
    else t
  let t := if back then t.armsBack d i (o.txOn d i && !t.txOn d i) (o.rxOn d i && !t.rxOn d i) else t
  (if changed t TXD_SC_CFG_H i || changed t TXD_SC_CFG_CONST i then t.markMixed d i else t).showFormat d i

/-- What a flow does at a switch from `o`. -/
def flowSwitched (o : State) (f : Nat) (t : State) : State :=
  let t := if o.flag FLW_CFG_TX_EN d f && !t.flag FLW_CFG_TX_EN d f then
      let t := t.disableUnit d 10 (2 * f) (t.flow d f).buffer.length t.usNow
      if t.disAbort d 10 then t.modFlow d f fun x => { x with buffer := [] } else t
    else if !o.flag FLW_CFG_TX_EN d f && t.flag FLW_CFG_TX_EN d f then t.enableUnit d 10 (2 * f) else t
  let t := t.moveGroup o d f
  if o.flag FLW_CFG_ENC d f && !t.flag FLW_CFG_ENC d f then t.dropTxKey d f
  else if t.flag FLW_CFG_ENC d f && (t.flow d f).txNext.isSome && t.txn.planTeam.isSome then t.promoteTx d f
  else t

/-- What arms and flows of a die do at a switch from `o`. -/
def unitsSwitched (o : State) (back : Bool) : State :=
  ((s.forEach (List.range 8) fun t i => armsSwitched d i o back t).txMark d).forEach (List.range 512) fun t f =>
    flowSwitched d o f t

theorem afterSwitch_eq (o : State) (back : Bool) : s.afterSwitch o d back =
    ((unitsSwitched s d o back).commitPool d ((unitsSwitched s d o back).committedH d)).powerCommit d := rfl

@[simp] theorem centre_armsSwitched (o : State) (back : Bool) : centre (armsSwitched d i o back s) = centre s := by
  simp [armsSwitched]

@[simp] theorem centre_flowSwitched (o : State) (f : Nat) : centre (flowSwitched d o f s) = centre s := by
  simp [flowSwitched]

@[simp] theorem centre_unitsSwitched (o : State) (back : Bool) : centre (unitsSwitched s d o back) = centre s :=
  (centre_forEach _ _ fun t f => by simp).trans ((centre_txMark _ _).trans (centre_forEach s _ fun t i => by simp))

end

/-! ### The view of a transaction -/

/-- What a transaction's agreement keeps: the part, the transaction, the memory, the dies' records and the image registers. -/
structure TxnView where
  part : Part
  txn : TxnSt
  mem : List Host.Cell
  dies : Store DieSt
  rd : Fld → Nat → Nat → Nat

/-- What a state shows of it. -/
def txnView (s : State) : TxnView :=
  { part := s.part, txn := s.txn, mem := s.mem, dies := s.dies, rd := fun g e j => if g.blk = 1 then s.rd g e j else 0 }

section
variable {s t : State}

theorem rd_of_txnView (h : txnView t = txnView s) {g : Fld} (hg : g.blk = 1) (e j : Nat) : t.rd g e j = s.rd g e j := by
  have h' := congrFun (congrFun (congrFun (congrArg TxnView.rd h) g) e) j
  simpa only [txnView, hg, if_true] using h'

theorem txn_of_txnView (h : txnView t = txnView s) : t.txn = s.txn := congrArg TxnView.txn h
theorem part_of_txnView (h : txnView t = txnView s) : t.part = s.part := congrArg TxnView.part h
theorem dies_of_txnView (h : txnView t = txnView s) : t.dies = s.dies := congrArg TxnView.dies h
theorem mem_of_txnView (h : txnView t = txnView s) : t.mem = s.mem := congrArg TxnView.mem h

theorem die_of_txnView (h : txnView t = txnView s) (e : Nat) : t.die e = s.die e := by
  rw [State.die, State.die, show t.dies = s.dies from congrArg TxnView.dies h]

theorem txnView_of_rd (hpart : t.part = s.part) (htxn : t.txn = s.txn) (hmem : t.mem = s.mem) (hdies : t.dies = s.dies)
    (hrd : ∀ g : Fld, g.blk = 1 → ∀ e j, t.rd g e j = s.rd g e j) : txnView t = txnView s := by
  simp only [txnView, hpart, htxn, hmem, hdies, TxnView.mk.injEq, true_and]
  funext g e j
  split
  · next hg => exact hrd g hg e j
  · rfl

theorem txnView_of_centre (h : centre t = centre s) : txnView t = txnView s :=
  txnView_of_rd (congrArg Centre.part h) (congrArg Centre.txn h) (congrArg Centre.mem h) (congrArg Centre.dies h)
    fun g hg e j => rd_of_centre h (by rw [hg]; rfl) e j

theorem txnView_of_writesOnly {P : Fld → Nat → Prop} (h : WritesOnly P s t) (hP : ∀ g e, P g e → g.blk ≠ 1) :
    txnView t = txnView s :=
  txnView_of_rd (by rw [h.rest]) (by rw [h.rest]) (by rw [h.rest]) (by rw [h.rest]) fun g hg e j =>
    h.rd g e j fun hp => hP g e hp hg

end

section
variable (s : State)

theorem txnView_wr {f : Fld} (hf : f.blk ≠ 1) (d v k : Nat) : txnView (s.wr f d v k) = txnView s :=
  txnView_of_rd rfl rfl rfl rfl fun _ hg _ _ => rd_wr_other s (fun h => hf ((blk_of_place h).symm.trans hg)) ..

theorem txnView_forEach {α : Type} (xs : List α) {f : State → α → State} (h : ∀ t x, txnView (f t x) = txnView t) :
    txnView (s.forEach xs f) = txnView s := forEach_keeps txnView xs (fun t x _ => h t x) s

@[simp] theorem txnView_ite (c : Prop) [Decidable c] (t u : State) :
    txnView (if c then t else u) = if c then txnView t else txnView u := apply_ite txnView c t u

/-! ### Power domains (R332) -/

variable (d : Nat)

@[simp] theorem txnView_setWant (k : Nat) (v : Option Nat) : txnView (s.setWant d k v) = txnView s := rfl

@[simp] theorem txnView_setDomain (k v : Nat) : txnView (s.setDomain d k v) = txnView s := txnView_wr s (by decide) ..

@[simp] theorem txnView_sclkSource : txnView (s.sclkSource d) = txnView s := by
  unfold State.sclkSource
  dsimp only
  split
  · exact txnView_wr s (by decide) ..
  · exact (txnView_wr _ (by decide) ..).trans (txnView_wr s (by decide) ..)

@[simp] theorem txnView_startPll (p : Nat) : txnView (s.startPll d p) = txnView s := by
  have hrun (t : State) (f : PwrSt → PwrSt) : txnView (t.modPwr d f) = txnView t := rfl
  simp [State.startPll, hrun]

@[simp] theorem txnView_wake (k : Nat) : txnView (s.wake d k) = txnView s := by
  unfold State.wake
  split
  · exact txnView_setWant ..
  · split <;> simp

@[simp] theorem txnView_sink (k v : Nat) : txnView (s.sink d k v) = txnView s := by
  simp [State.sink]

/-- The transmit arm's domain follows the arm. -/
def txDomain (t : State) (i : Nat) : State :=
  match t.txState d i with
  | 0 => t.sink d (domTxArm i) 2
  | 4 => t.sink d (domTxArm i) 1
  | _ => t.wake d (domTxArm i)

/-- The receive arm's domain follows the arm. -/
def rxDomain (t : State) (i : Nat) : State :=
  match t.rxState d i with
  | 0 => t.sink d (domRxArm i) 2
  | 5 => t.sink d (domRxArm i) 1
  | _ => t.wake d (domRxArm i)

theorem armDomains_eq : s.armDomains d = s.forEach (List.range 8) fun t i => rxDomain d (txDomain d t i) i := rfl

@[simp] theorem txnView_txDomain (i : Nat) : txnView (txDomain d s i) = txnView s := by
  unfold txDomain
  split <;> simp

@[simp] theorem txnView_rxDomain (i : Nat) : txnView (rxDomain d s i) = txnView s := by
  unfold rxDomain
  split <;> simp

@[simp] theorem txnView_armDomains : txnView (s.armDomains d) = txnView s := by
  rw [armDomains_eq]
  exact txnView_forEach s _ fun t i => by simp

@[simp] theorem txnView_decoderPower (load : ℚ) (lower : Bool) : txnView (s.decoderPower d load lower) = txnView s := by
  have hup (t : State) (ks : List Nat) : txnView (t.forEach ks fun t k => t.wake d (domCluster k)) = txnView t :=
    txnView_forEach t _ fun t k => by simp
  have hdown (t : State) (ks : List Nat) : txnView (t.forEach ks fun t k => t.sink d (domCluster k) 2) = txnView t :=
    txnView_forEach t _ fun t k => by simp
  simp only [State.decoderPower, txnView_ite, hup, hdown, ite_self]

@[simp] theorem txnView_showEstimate : txnView s.showEstimate = txnView s :=
  (txnView_wr _ (by decide) ..).trans (txnView_forEach s _ fun t d => txnView_wr t (by decide) ..)

@[simp] theorem txnView_powerCommit : txnView (s.powerCommit d) = txnView s := by
  simp [State.powerCommit]

@[simp] theorem txnView_afterSwitch (o : State) (back : Bool) : txnView (s.afterSwitch o d back) = txnView s := by
  rw [afterSwitch_eq, txnView_powerCommit]
  exact txnView_of_centre (by simp)

/-! ### GO (R90, R184, R296, R343) -/

@[simp] theorem txnView_wakeGroups : txnView (s.wakeGroups d) = txnView s := by
  unfold State.wakeGroups
  split
  · rfl
  · refine txnView_forEach s _ fun t f => ?_
    split
    · rfl
    · dsimp only
      split
      · exact txnView_of_centre (by simp)
      · rfl

/-- The arms that the pending set enables are powered. -/
def armsPowered (t : State) : State :=
  t.forEach (List.range 8) fun t i => if !t.txOn d i && bit (t.rdPend TXD_CTRL_SC_EN d) i then t.txPower d i else t

@[simp] theorem txnView_armsPowered : txnView (armsPowered d s) = txnView s :=
  txnView_of_centre (centre_forEach s _ fun t i => by simp)

end
end Sys2Proof.Laws
end

section
/-! SUPPORT. PROOFS. PREPARE, READY, REFUSE, the deadline, GO and ABORT (O27). -/
namespace Sys2Proof.Laws
open Sys2Proof Sys2Proof.Machine

theorem flag_of_rd_zero {s : State} {f : Fld} {d k : Nat} (h : s.rd f d k = 0) : s.flag f d k = false := by
  simp [State.flag, h]

theorem flag_of_rd_one {s : State} {f : Fld} {d k : Nat} (h : s.rd f d k = 1) : s.flag f d k = true := by
  simp [State.flag, h]

/-! ### PREPARE (R90, step 2) -/

/-- The answer of a die to PREPARE. -/
def answered (s : State) (d : Nat) : State :=
  match s.dieReason d with
  | none => (s.modDie d fun x => { x with prepared := true }).ringTxn d s.crownDie 2 0
  | some r => (s.wr IMG_DIE_STATUS_LAST_REASON d r).ringTxn d s.crownDie 3 r

/-- A die holds its staged set and reads PENDING. -/
def heldPending (s : State) (d : Nat) : State := (s.hold d).wr IMG_DIE_STATUS_PENDING d 1

section
variable {s : State} {d : Nat}

theorem prepare_commit (hopen : s.txn.isOpen = true) (hmem : s.txn.members.contains d = true)
    (hpend : s.rd IMG_DIE_STATUS_PENDING d = 0) (hgo : s.txn.goSent = false) (hroll : s.txn.rollback = false) :
    s.prepare d = answered (heldPending s d) d := by
  unfold State.prepare
  rw [if_pos (by simp only [hopen, hmem, hgo, flag_of_rd_zero hpend]; rfl), hroll]
  rfl

variable (s d)

theorem answered_rest : answered s d =
    { s with regs := (answered s d).regs, dies := (answered s d).dies, out := (answered s d).out } := by
  unfold answered
  split <;> rfl

theorem touches_answered : Touches [IMG_DIE_STATUS_LAST_REASON] s (answered s d) := by
  unfold answered
  split
  · exact .of_regs rfl rfl
  · exact ((Touches.refl _ s).wr (by simp) ..).regs rfl rfl

theorem touches_prepared : Touches [IMG_DIE_STATUS_PENDING, IMG_DIE_STATUS_LAST_REASON] s (answered (heldPending s d) d) := by
  refine Touches.trans ?_ ((touches_answered _ d).mono (by simp))
  refine Touches.wr ?_ (by simp) ..
  exact .of_regs rfl rfl

variable {s d}

theorem answered_prepared (h : s.dieReason d = none) : ((answered s d).die d).prepared = true := by
  have heq : answered s d = (s.modDie d fun x => { x with prepared := true }).ringTxn d s.crownDie 2 0 := by
    unfold answered
    rw [h]
  rw [heq]
  exact congrArg DieSt.prepared (modDie_die s d fun x => { x with prepared := true })

theorem answered_reason {r : Nat} (h : s.dieReason d = some r) :
    (answered s d).rd IMG_DIE_STATUS_LAST_REASON d = r % 2 ^ IMG_DIE_STATUS_LAST_REASON.w ∧ (answered s d).die d = s.die d := by
  unfold answered
  rw [h]
  exact ⟨(emit_rd ..).trans (rd_wr_same ..), rfl⟩

end

theorem prepare_completes (s : State) (d : Fin 8) (hd : (d : Nat) < s.part.dies) (hopen : s.txn.isOpen = true)
    (hmem : s.txn.members.contains (d : Nat) = true) (hpend : s.rd IMG_DIE_STATUS_PENDING d = 0)
    (hgo : s.txn.goSent = false) (hroll : s.txn.rollback = false) :
    Completes (.prepare d) s fun t =>
      t.rd IMG_DIE_STATUS_PENDING d = 1 ∧ t.pend = (s.hold d).pend ∧ t.staged = (s.hold d).staged ∧
      ((heldPending s d).dieReason d = none → (t.die d).prepared = true) ∧
      (∀ r, (heldPending s d).dieReason d = some r →
        t.rd IMG_DIE_STATUS_LAST_REASON d = r % 2 ^ IMG_DIE_STATUS_LAST_REASON.w ∧ t.die d = s.die d) ∧
      t = { s with regs := t.regs, pend := t.pend, staged := t.staged, dies := t.dies, out := t.out } ∧
      KeepsRegs [IMG_DIE_STATUS_PENDING, IMG_DIE_STATUS_LAST_REASON] s t := by
  have hreason : (heldPending (silenced s) d).dieReason d = (heldPending s d).dieReason d := rfl
  have hdie (u : State) (hu : Shows [IMG_DIE_STATUS_PENDING, IMG_DIE_STATUS_LAST_REASON] s
      (answered (heldPending (silenced s) d) d) u) : u.die d = (answered (heldPending (silenced s) d) d).die d := by
    rw [hu.rest]
    rfl
  refine completes_dieOp [IMG_DIE_STATUS_PENDING, IMG_DIE_STATUS_LAST_REASON] (fun u => u.prepare d) hd
    (prepare_commit (s := silenced s) hopen hmem hpend hgo hroll) (touches_prepared _ d) fun u hu =>
      ⟨?_, ?_, ?_, fun h => ?_, fun r h => ⟨?_, ?_⟩, ?_, hu.keeps⟩
  · rw [hu.rd _ _ _ (by decide), (touches_answered _ _).rd _ _ _ (by decide)]
    exact rd_wr_same ..
  · rw [hu.rest, answered_rest]
    rfl
  · rw [hu.rest, answered_rest]
    rfl
  · rw [hdie u hu, answered_prepared (hreason.trans h)]
  · rw [hu.rd _ _ _ (by decide), (answered_reason (hreason.trans h)).1]
  · rw [hdie u hu, (answered_reason (hreason.trans h)).2]
    rfl
  · rw [hu.rest, answered_rest]
    rfl

/-! ### READY and REFUSE (R90, R92) -/

section
variable {s : State} {d : Nat}

/-- The crown notes that a die is ready. -/
def readyNoted (s : State) (d : Nat) : State := { s with txn := { s.txn with ready := s.txn.ready ++ [d] } }

/-- While another die's READY is missing, a READY is only noted. -/
theorem ready_waiting (hopen : s.txn.isOpen = true) (hmem : s.txn.members.contains d = true)
    (hprep : (s.die d).prepared = true) (hnew : s.txn.ready.contains d = false)
    (hwait : ∃ e ∈ s.txn.members, e ≠ d ∧ s.txn.ready.contains e = false) : s.ready d = readyNoted s d := by
  obtain ⟨e, he, hne, hmiss⟩ := hwait
  have hnot : (s.txn.members.all fun e => (s.txn.ready ++ [d]).contains e) = false := by
    rw [List.all_eq_false]
    refine ⟨e, he, ?_⟩
    have hmiss' : e ∉ s.txn.ready := by simpa using hmiss
    simp [hmiss', hne]
  unfold State.ready
  rw [if_pos (by rw [hopen, hmem, hprep, hnew]; rfl)]
  exact if_neg (by rw [hnot]; exact Bool.false_ne_true)

/-- The crown notes the first REFUSE. -/
def refuseNoted (s : State) (d r : Nat) : State :=
  { s with txn := { s.txn with refused := some (d, r) } }.wr IMG_TXN_STATUS_REFUSE_DIE pkg d

theorem refuse_first (hopen : s.txn.isOpen = true) (hnone : s.txn.refused = none) (r : Nat) :
    s.refuse d r = refuseNoted s d r := if_pos (by rw [hopen, hnone]; rfl)

end

section
variable (s : State) (d : Fin 8) (hd : (d : Nat) < s.part.dies) (hopen : s.txn.isOpen = true)
  (hmem : s.txn.members.contains (d : Nat) = true)
include hd hopen hmem

theorem ready_completes (hprep : (s.die d).prepared = true) (hnew : s.txn.ready.contains (d : Nat) = false)
    (hwait : ∃ e ∈ s.txn.members, e ≠ (d : Nat) ∧ s.txn.ready.contains e = false) :
    Completes (.ready d) s fun t => t.txn = { s.txn with ready := s.txn.ready ++ [(d : Nat)] } ∧
      t = { s with regs := t.regs, txn := t.txn, out := t.out } ∧ KeepsRegs [] s t := by
  refine completes_dieOp [] (fun u => u.ready d) hd (ready_waiting (s := silenced s) hopen hmem hprep hnew hwait)
    (.of_regs rfl rfl) fun u hu => ⟨?_, ?_, hu.keeps⟩ <;> rw [hu.rest] <;> rfl

theorem refuse_completes (r : Fin 16) (hnone : s.txn.refused = none) : Completes (.refuse d r) s fun t =>
    t.txn = { s.txn with refused := some ((d : Nat), (r : Nat)) } ∧ t.rd IMG_TXN_STATUS_REFUSE_DIE pkg = (d : Nat) ∧
      t = { s with regs := t.regs, txn := t.txn, out := t.out } ∧ KeepsRegs [IMG_TXN_STATUS_REFUSE_DIE] s t := by
  have hop : (if (silenced s).txn.members.contains (d : Nat) then (silenced s).refuse d r else silenced s) =
      refuseNoted (silenced s) d r := (if_pos hmem).trans (refuse_first (s := silenced s) hopen hnone _)
  have ht : Touches [IMG_TXN_STATUS_REFUSE_DIE] (silenced s) (refuseNoted (silenced s) d r) := by
    refine Touches.wr ?_ (by simp) ..
    exact .of_regs rfl rfl
  refine completes_dieOp [IMG_TXN_STATUS_REFUSE_DIE]
    (fun u => if u.txn.members.contains (d : Nat) then u.refuse d r else u) hd hop ht fun u hu => ⟨?_, ?_, ?_, hu.keeps⟩
  · rw [hu.rest]
    rfl
  · rw [hu.rd _ _ _ (by decide), refuseNoted, rd_wr_same]
    exact Nat.mod_eq_of_lt (d.isLt.trans_le (by decide))
  · rw [hu.rest]
    rfl

/-! ### GO and the deadline (R90, R92) -/

omit hd hopen in
theorem takeGo_pending (hgo : s.txn.goSent = true) (hpend : s.rd IMG_DIE_STATUS_PENDING d = 1)
    (hsw : s.txn.switched = false) :
    ∃ load, s.takeGo d = (((armsPowered d (s.modDie d fun x => { x with holdsGo := true })).decoderPower d load false).armDomains
      d).wakeGroups d :=
  ⟨_, if_pos (by rw [hgo, hmem, hsw, flag_of_rd_one hpend]; rfl)⟩

omit hopen in
theorem go_completes (hgo : s.txn.goSent = true) (hpend : s.rd IMG_DIE_STATUS_PENDING d = 1) (hsw : s.txn.switched = false) :
    Completes (.go d) s fun t => t.die d = { s.die d with holdsGo := true } ∧ t.txn = s.txn ∧ t.mem = s.mem := by
  obtain ⟨load, hop⟩ := takeGo_pending (silenced s) d hmem hgo hpend hsw
  have hview : txnView ((silenced s).takeGo d) = txnView ((silenced s).modDie d fun x => { x with holdsGo := true }) := by
    rw [hop]
    simp
  refine completes_runDie s hd (f := fun u => u.takeGo d) ⟨?_, ?_, ?_⟩
  · rw [die_ran, die_of_txnView hview, modDie_die]
    rfl
  · rw [ran_txn]
    exact (txn_of_txnView hview).trans rfl
  · rw [ran_mem]
    exact (mem_of_txnView hview).trans rfl

end

/-! ### The deadline (R90, R92) -/

/-- The registers that show the shadow's life. -/
def shadowFlds : List Fld := [IMG_SHADOW_VALID, IMG_SHADOW_REMAINING]

section
variable (s : State) (m : Nat)

theorem touches_shadowGone : Touches shadowFlds s s.shadowGone := by
  have h : Touches shadowFlds s ((s.wr IMG_SHADOW_VALID pkg 0).wr IMG_SHADOW_REMAINING pkg 0) :=
    ((Touches.refl _ s).wr (by simp [shadowFlds]) ..).wr (by simp [shadowFlds]) ..
  unfold State.shadowGone
  dsimp only
  split
  · exact h
  · exact h.regs rfl rfl

theorem touches_shadowPass : Touches shadowFlds s (s.shadowPass m) := by
  unfold State.shadowPass
  dsimp only
  split
  · split
    · exact touches_shadowGone s
    · exact (Touches.refl _ s).wr (by simp [shadowFlds]) ..
  · exact .refl _ s

theorem touches_toMf : Touches shadowFlds s (s.toMf m) := by
  unfold State.toMf
  split
  · exact (touches_shadowPass s _).regs rfl rfl
  · exact .refl _ s

theorem shadowPass_rest : s.shadowPass m = { s with regs := (s.shadowPass m).regs, shadow := (s.shadowPass m).shadow } := by
  unfold State.shadowPass State.shadowGone
  dsimp only
  split
  · split
    · split <;> rfl
    · rfl
  · rfl

theorem toMf_rest : s.toMf m =
    { s with regs := (s.toMf m).regs, time := (s.toMf m).time, shadow := (s.toMf m).shadow } := by
  unfold State.toMf
  split
  · rw [shadowPass_rest]
  · rfl

theorem touches_acceptorGo {fs : List Fld} (h : IMG_TXN_STATUS_STATE ∈ fs) : Touches fs s (acceptorGo s) := by
  have hsent : Touches fs s { s with txn := { s.txn with goSent := true } } := .of_regs rfl rfl
  exact (hsent.wr h ..).regs rfl rfl

variable {s}

theorem sendGo_noPlan (h : s.txn.planTeam = none) : s.sendGo = acceptorGo s := by
  unfold State.sendGo
  dsimp only
  split
  next t ht => cases h.symm.trans ht
  next => rfl

variable (hopen : s.txn.isOpen = true) (hgo : s.txn.goSent = false) (hacc : s.txn.acceptor = false)
  (hroll : s.txn.rollback = false) (hnone : s.txn.refused = none)
include hopen hgo hacc hroll hnone

/-- A proposer's deadline with no refusal. -/
theorem goDeadline_unrefused : s.goDeadline =
    if !(s.txn.members.all fun e => s.txn.ready.contains e) then (atDeadline s).abortTxn reasonDeadline
    else if s.txn.planTeam.isSome && !s.txn.planOk then (atDeadline s).abortTxn reasonPlanRefused
    else (atDeadline s).sendGo := by
  have htxn : (s.toMf (s.txn.mf - 1)).txn = s.txn := toMf_txn ..
  unfold State.goDeadline
  rw [if_pos (by rw [hopen, hgo, hacc]; rfl)]
  simp only [htxn, hroll, hnone]
  rfl

/-- With every die ready and no plan GO goes out. -/
theorem goDeadline_ready (hplan : s.txn.planTeam = none) (hall : ∀ e ∈ s.txn.members, s.txn.ready.contains e = true) :
    s.goDeadline = acceptorGo (atDeadline s) := by
  rw [goDeadline_unrefused hopen hgo hacc hroll hnone, if_neg (by rw [List.all_eq_true.mpr hall]; decide),
    if_neg (by rw [hplan]; exact Bool.false_ne_true)]
  exact sendGo_noPlan ((congrArg TxnSt.planTeam (toMf_txn ..)).trans hplan)

/-- With a READY missing the transaction aborts. -/
theorem goDeadline_missing (hmiss : ∃ e ∈ s.txn.members, s.txn.ready.contains e = false) :
    s.goDeadline = (atDeadline s).abortTxn reasonDeadline := by
  obtain ⟨e, he, hmiss⟩ := hmiss
  rw [goDeadline_unrefused hopen hgo hacc hroll hnone]
  exact if_pos (by rw [List.all_eq_false.mpr ⟨e, he, by rw [hmiss]; exact Bool.false_ne_true⟩]; rfl)

end

section
variable (s : State) (hopen : s.txn.isOpen = true) (hgo : s.txn.goSent = false) (hacc : s.txn.acceptor = false)
  (hroll : s.txn.rollback = false) (hnone : s.txn.refused = none)
include hopen hgo hacc hroll hnone

theorem goDeadline_sends (hplan : s.txn.planTeam = none) (hall : ∀ e ∈ s.txn.members, s.txn.ready.contains e = true) :
    Completes .txnGoDeadline s fun t =>
      t.txn = { s.txn with goSent := true } ∧ t.rd IMG_TXN_STATUS_STATE pkg = 3 ∧
        t = { s with regs := t.regs, txn := t.txn, time := t.time, shadow := t.shadow, out := t.out } ∧
        KeepsRegs [IMG_TXN_STATUS_STATE, IMG_SHADOW_VALID, IMG_SHADOW_REMAINING] s t := by
  have ht : Touches [IMG_TXN_STATUS_STATE, IMG_SHADOW_VALID, IMG_SHADOW_REMAINING] (silenced s)
      (acceptorGo (atDeadline (silenced s))) := by
    refine Touches.trans ?_ (touches_acceptorGo _ (List.mem_cons_self ..))
    exact (touches_toMf _ _).mono (by simp [shadowFlds])
  refine completes_op [IMG_TXN_STATUS_STATE, IMG_SHADOW_VALID, IMG_SHADOW_REMAINING] State.goDeadline
    (goDeadline_ready (s := silenced s) hopen hgo hacc hroll hnone hplan hall) ht fun u hu => ⟨?_, ?_, ?_, hu.keeps⟩
  · rw [hu.rest]
    exact (acceptorGo_txn _).trans (congrArg (fun x : TxnSt => { x with goSent := true }) (toMf_txn ..))
  · rw [hu.rd _ _ _ (by decide), rd_acceptorGo]
  · rw [hu.rest, atDeadline, toMf_rest]
    rfl

theorem goDeadline_aborts (hmiss : ∃ e ∈ s.txn.members, s.txn.ready.contains e = false) :
    Completes .txnGoDeadline s fun t =>
      t.txn.isOpen = false ∧ t.rd IMG_TXN_STATUS_RESULT pkg = 2 ∧ t.rd IMG_TXN_STATUS_REASON pkg = reasonDeadline := by
  have hop := goDeadline_missing (s := silenced s) hopen hgo hacc hroll hnone hmiss
  have hopen' : (atDeadline (silenced s)).txn.isOpen = true := (congrArg TxnSt.isOpen (toMf_txn ..)).trans hopen
  have ht : Touches (shadowFlds ++ abortFlds) (silenced s) ((atDeadline (silenced s)).abortTxn reasonDeadline) :=
    ((touches_toMf _ _).mono fun f hf => List.mem_append_left _ hf).trans
      ((touches_abortTxn _).mono fun f hf => List.mem_append_right _ hf)
  refine completes_op (shadowFlds ++ abortFlds) State.goDeadline hop ht fun u hu => ⟨?_, ?_, ?_⟩
  · rw [hu.rest]
    exact abortTxn_isOpen _ hopen'
  · rw [hu.rd _ _ _ (by decide), rd_abortTxn_result _ hopen']
  · rw [hu.rd _ _ _ (by decide), rd_abortTxn_reason _ hopen' (by decide)]

end

/-! ### ABORT at a die (R92) -/

/-- The pending set of a die is dropped: into nothing for a rollback, else back into the staged copies. -/
def pendDropped (s : State) (d : Nat) : State := if s.txn.isOpen && s.txn.rollback then s.dropPend d else s.unhold d

/-- The transmit arms that woke for the pending set return. -/
def armsReturned (s : State) (d : Nat) : State := s.forEach (List.range 8) fun t i => t.txReturn d i

section
variable (s : State) (d : Nat)

/-- What transmit arms write none of, their return keeps. -/
theorem txReturn_keeps {α : Type} (φ : State → α) (hwr : ∀ t f d v k, φ (State.wr t f d v k) = φ t)
    (harm : ∀ t d i f, φ (State.modTx t d i f) = φ t) (i : Nat) : φ (s.txReturn d i) = φ s := by
  have hshow (t : State) : φ (t.showFormat d i) = φ t := by
    unfold State.showFormat
    dsimp only
    split <;> exact (hwr ..).trans (hwr ..)
  unfold State.txReturn State.setTxState
  dsimp only
  split
  · rw [harm]
    split
    · rfl
    · exact (hwr ..).trans ((hshow _).trans (hwr ..))
  · rfl

theorem armsReturned_keeps {α : Type} (φ : State → α) (hwr : ∀ t f d v k, φ (State.wr t f d v k) = φ t)
    (harm : ∀ t d i f, φ (State.modTx t d i f) = φ t) : φ (armsReturned s d) = φ s :=
  forEach_keeps φ _ (fun t i _ => txReturn_keeps t d φ hwr harm i) s

theorem pendDropped_pend : (pendDropped s d).pend = s.pend.keep fun k => k.inst != d := by
  unfold pendDropped
  split <;> rfl

theorem pendDropped_rest : pendDropped s d = { s with pend := (pendDropped s d).pend, staged := (pendDropped s d).staged } := by
  unfold pendDropped
  split <;> rfl

/-- A die holds no pending set any more. -/
def holdsNone (s : State) (d : Nat) : State :=
  (s.wr IMG_DIE_STATUS_PENDING d 0).modDie d fun x => { x with holdsGo := false, prepared := false }

@[simp] theorem holdsNone_txn : (holdsNone s d).txn = s.txn := rfl
@[simp] theorem holdsNone_pend : (holdsNone s d).pend = s.pend := rfl
theorem holdsNone_die : (holdsNone s d).die d = { s.die d with holdsGo := false, prepared := false } := modDie_die ..
theorem rd_holdsNone : (holdsNone s d).rd IMG_DIE_STATUS_PENDING d = 0 := rd_wr_same ..

/-- A die that has not switched gives up the pending set. -/
def gaveUp (s : State) (d : Nat) : State := holdsNone (armsReturned (pendDropped s d) d) d

theorem gaveUp_txn : (gaveUp s d).txn = s.txn := by
  rw [gaveUp, holdsNone_txn, armsReturned_keeps _ d State.txn (fun _ _ _ _ _ => rfl) fun _ _ _ _ => rfl, pendDropped_rest]

theorem gaveUp_pend : (gaveUp s d).pend = s.pend.keep fun k => k.inst != d := by
  rw [gaveUp, holdsNone_pend, armsReturned_keeps _ d State.pend (fun _ _ _ _ _ => rfl) fun _ _ _ _ => rfl, pendDropped_pend]

end

/-- ABORT at a die. -/
def abandon (d : Nat) (s : State) : State := if (s.die d).switched then s else gaveUp s d

theorem abort_completes (s : State) (d : Fin 8) (hd : (d : Nat) < s.part.dies) (hsw : (s.die d).switched = false) :
    Completes (.abort d) s fun t =>
      t.rd IMG_DIE_STATUS_PENDING d = 0 ∧ t.pend = (s.pend.keep fun k => k.inst != (d : Nat)) ∧
        (t.die d).holdsGo = false ∧ (t.die d).prepared = false ∧ t.txn = s.txn := by
  have hop : abandon d (silenced s) = gaveUp (silenced s) d :=
    if_neg (by rw [show ((silenced s).die d).switched = false from hsw]; exact Bool.false_ne_true)
  refine completes_runDie s hd (f := abandon d) ⟨?_, ?_, ?_, ?_, ?_⟩
  · rw [rd_ran_plain _ _ rfl (by decide), hop, gaveUp, rd_holdsNone]
  · rw [ran_pend]
    exact (congrArg State.pend hop).trans (gaveUp_pend ..)
  · rw [die_ran, hop, gaveUp, holdsNone_die]
  · rw [die_ran, hop, gaveUp, holdsNone_die]
  · rw [ran_txn]
    exact (congrArg State.txn hop).trans (gaveUp_txn ..)

/-- Settles O27, command by command. -/
theorem transactionAgreement : Obligations.TransactionAgreement := by
  refine ⟨prepare_completes, fun s d hd hopen hmem => ⟨ready_completes s d hd hopen hmem, refuse_completes s d hd hopen hmem,
    go_completes s d hd hmem⟩, fun s hopen hgo hacc hroll hnone =>
      ⟨goDeadline_sends s hopen hgo hacc hroll hnone, goDeadline_aborts s hopen hgo hacc hroll hnone⟩, abort_completes⟩

end Sys2Proof.Laws
end

section
/-! SUPPORT. PROOFS. REVERT, the end of the shadow and the discard of staged copies (O28). -/
namespace Sys2Proof.Laws
open Sys2Proof Sys2Proof.Machine

/-! ### Stores -/

section
variable {α : Type} (k : Key) (f : Key → α) (m es : Store α)

theorem find_keep (p : Key → Bool) : (m.keep p).find k = if p k then m.find k else none := find_filter p k m

/-- Values of a function of the key, put over a store. -/
theorem find_putAll_mapKey : (m.putAll (es.mapKey f)).find k = if (es.find k).isSome then some (f k) else m.find k := by
  induction es generalizing m with
  | nil => rfl
  | cons e es ih =>
    obtain ⟨k', v⟩ := e
    refine (ih (m.put k' (f k'))).trans ?_
    simp only [Store.find, assocFind]
    by_cases hk : k = k'
    · subst hk
      have hput : assocFind k (m.put k (f k)) = some (f k) := find_put_same m k (f k)
      simp [hput]
    · have hput : assocFind k (m.put k' (f k')) = assocFind k m := find_put_other m hk (f k')
      simp [hk, hput]

end

/-! ### Staged copies (R87) -/

theorem stagedField_key {f : Fld} (hf : f ∈ stagedFields) (d k : Nat) : stagedField (f.key d k) = some f := by
  have hplaces : ∀ f ∈ stagedFields, stagedFields.find? (fun g => place g == place f) = some f := by decide
  refine Eq.trans ?_ (hplaces f hf)
  unfold stagedField
  congr 1
  funext g
  rw [Bool.eq_iff_iff, beq_iff_eq, beq_iff_eq]
  simp [Fld.key, place]

section
variable (s : State) (d : Nat)

theorem keyActive_key {f : Fld} (hf : f ∈ stagedFields) (e k : Nat) : s.keyActive (f.key e k) = s.rd f e k := by
  rw [State.keyActive, stagedField_key hf]
  rfl

/-- A discard makes every staged copy of its place read the active value. -/
theorem rdStaged_discard {f : Fld} (hf : f ∈ stagedFields) (k : Nat) : (s.discard d).rdStaged f d k = s.rd f d k := by
  have hfind : (s.discard d).staged.find (f.key d k) =
      if (s.pend.find (f.key d k)).isSome then some (s.rd f d k) else none := by
    change ((s.staged.keep _).putAll ((s.pend.keep _).mapKey s.keyActive)).find _ = _
    have hinst : (f.key d k).inst = d := rfl
    rw [find_putAll_mapKey, find_keep, find_keep, keyActive_key s hf, hinst]
    simp
  rw [State.rdStaged, hfind]
  cases hpend : s.pend.find (f.key d k) with
  | none =>
    have hpend' : (s.discard d).pend.find (f.key d k) = none := hpend
    simp only [Option.isSome_none, Bool.false_eq_true, if_false, hpend']
    rfl
  | some v => simp

/-- And changes no other copy. -/
theorem rdStaged_discard_other {e : Nat} (he : e ≠ d) (f : Fld) (k : Nat) :
    (s.discard d).rdStaged f e k = s.rdStaged f e k := by
  have hfind : (s.discard d).staged.find (f.key e k) = s.staged.find (f.key e k) := by
    change ((s.staged.keep _).putAll ((s.pend.keep _).mapKey s.keyActive)).find _ = _
    rw [find_putAll_mapKey, find_keep, find_keep]
    simp [Fld.key, he]
  rw [State.rdStaged, hfind]
  rfl

theorem discard_rest : s.discard d = { s with staged := (s.discard d).staged } := rfl

/-- The places that a discard of the package names. -/
def discardPlaces (s : State) : List Nat := pkg :: s.dieList.filter fun d => !s.quarantined d

/-- Every one of some places is discarded. -/
def discarded (s : State) (ds : List Nat) : State := s.forEach ds fun t d => t.discard d

theorem discarded_rest (ds : List Nat) : discarded s ds = { s with staged := (discarded s ds).staged } := by
  refine List.reverseRecOn (motive := fun ds => discarded s ds = { s with staged := (discarded s ds).staged }) ds rfl
    fun xs x ih => ?_
  have happ : discarded s (xs ++ [x]) = (discarded s xs).discard x := by
    rw [discarded, State.forEach, List.foldl_append]
    rfl
  rw [happ, discard_rest, ih]

variable {s} in
theorem rdStaged_discarded {ds : List Nat} {d : Nat} (hd : d ∈ ds) {f : Fld} (hf : f ∈ stagedFields) (k : Nat) :
    (discarded s ds).rdStaged f d k = s.rd f d k :=
  forEach_sets_while (φ := fun t => t.rdStaged f d k) (g := fun t x => t.discard x) (I := fun t => t.regs = s.regs ∧ t.part = s.part)
    (fun _ _ h => h) (fun t x hx => rdStaged_discard_other t x hx.symm f k)
    (fun t h => (rdStaged_discard t d hf k).trans (rd_congr h.1 h.2 ..)) hd ⟨rfl, rfl⟩

theorem rdStaged_discarded_other {ds : List Nat} {d : Nat} (hd : d ∉ ds) (f : Fld) (k : Nat) :
    (discarded s ds).rdStaged f d k = s.rdStaged f d k :=
  forEach_keeps (fun t => t.rdStaged f d k) ds (fun t x hx => rdStaged_discard_other t x (ne_of_mem_of_not_mem hx hd).symm f k) s

end

section
variable (s : State)

theorem mem_discardPlaces {d : Nat} (hd : d < s.part.dies) : d ∈ discardPlaces s ↔ s.quarantined d = false := by
  have hpkg : d ≠ pkg := by
    have := dies_le s.part
    change d ≠ 8
    omega
  simp [discardPlaces, hpkg, State.dieList, hd]

/-- What a command shows that leaves `t` of the staged copies. -/
theorem staged_ran {t : State} {f : State → State} (hop : f (silenced s) = t.respond 0)
    (ht : t = { silenced s with staged := t.staged }) :
    (∀ g ∈ stagedFields, ∀ e k, (ran s f).rdStaged g e k = t.rdStaged g e k) ∧
      ran s f = { s with regs := (ran s f).regs, staged := (ran s f).staged, bus := (ran s f).bus, out := (ran s f).out } ∧
        KeepsRegs [] s (ran s f) := by
  have htouch : Touches [] (silenced s) (t.respond 0) := by
    rw [ht]
    exact .of_regs rfl rfl
  have hu := shows_ran [] f hop htouch
  have hplaces : ∀ g ∈ stagedFields, place g ∉ summaryPlaces := by decide
  refine ⟨fun g hg e k => ?_, ?_, hu.keeps⟩
  · rw [State.rdStaged, hu.rd g e k (hplaces g hg), hu.rest]
    rfl
  · rw [hu.rest, ht]
    rfl

theorem stageDiscard_completes (d : Fin 8) (hd : (d : Nat) < s.part.dies) : Completes (.stageDiscard d) s fun t =>
    (∀ f ∈ stagedFields, ∀ k, t.rdStaged f d k = s.rd f d k) ∧
      (∀ f ∈ stagedFields, ∀ e k, e ≠ (d : Nat) → t.rdStaged f e k = s.rdStaged f e k) ∧
      t = { s with regs := t.regs, staged := t.staged, bus := t.bus, out := t.out } ∧ KeepsRegs [] s t := by
  obtain ⟨hst, hrest, hkeep⟩ := staged_ran s (f := fun u => (u.discard d).respond 0) rfl (discard_rest _ _)
  refine completes_runDie s hd ⟨fun f hf k => ?_, fun f hf e k he => ?_, hrest, hkeep⟩
  · rw [hst f hf, rdStaged_discard _ _ hf]
    rfl
  · rw [hst f hf, rdStaged_discard_other _ _ he]
    rfl

theorem pkgStageDiscard_completes : Completes .pkgStageDiscard s fun t =>
    (∀ f ∈ stagedFields, ∀ k, t.rdStaged f pkg k = s.rd f pkg k) ∧
      (∀ f ∈ stagedFields, ∀ d k, d < s.part.dies → s.quarantined d = false → t.rdStaged f d k = s.rd f d k) ∧
      (∀ f ∈ stagedFields, ∀ d k, d < s.part.dies → s.quarantined d = true → t.rdStaged f d k = s.rdStaged f d k) ∧
      t = { s with regs := t.regs, staged := t.staged, bus := t.bus, out := t.out } ∧ KeepsRegs [] s t := by
  obtain ⟨hst, hrest, hkeep⟩ :=
    staged_ran s (f := fun u => (discarded u (discardPlaces u)).respond 0) rfl (discarded_rest _ _)
  refine completes_run s (f := fun u => (discarded u (discardPlaces u)).respond 0)
    ⟨fun f hf k => ?_, fun f hf d k hd hq => ?_, fun f hf d k hd hq => ?_, hrest, hkeep⟩
  · rw [hst f hf, rdStaged_discarded (ds := discardPlaces (silenced s)) List.mem_cons_self hf]
    rfl
  · rw [hst f hf, rdStaged_discarded ((mem_discardPlaces (silenced s) hd).mpr hq) hf]
    rfl
  · rw [hst f hf, rdStaged_discarded_other]
    · rfl
    · rw [mem_discardPlaces (silenced s) hd]
      exact fun h => Bool.false_ne_true (h.symm.trans hq)

/-! ### REVERT and the end of the shadow (R91, R94) -/

/-- A die notes REVERT. -/
def revertNoted (s : State) (d : Nat) : State := s.modDie d fun x => { x with reverting := true }

theorem revert_completes (d : Fin 8) (hd : (d : Nat) < s.part.dies) (hrev : s.txn.reverting = true)
    (hsw : (s.die d).switched = true) : Completes (.revert d) s fun t => t.die d = { s.die d with reverting := true } ∧
      t = { s with regs := t.regs, dies := t.dies, out := t.out } ∧ KeepsRegs [] s t := by
  have hop : (silenced s).takeRevert d = revertNoted (silenced s) d :=
    if_pos (by rw [show (silenced s).txn.reverting = true from hrev, show ((silenced s).die d).switched = true from hsw]; rfl)
  refine completes_dieOp [] (fun u => u.takeRevert d) hd hop (.of_regs rfl rfl) fun u hu => ⟨?_, ?_, hu.keeps⟩
  · rw [hu.rest]
    exact modDie_die (silenced s) d fun x => { x with reverting := true }
  · rw [hu.rest]
    rfl

theorem shadowGone_shadow : s.shadowGone.shadow = if s.txn.isOpen && s.txn.rollback && s.txn.switched then s.shadow else [] := by
  unfold State.shadowGone
  dsimp only
  split
  · next h => exact (if_pos h).symm
  · next h => exact (if_neg h).symm

theorem shadowGone_rest : s.shadowGone = { s with regs := s.shadowGone.regs, shadow := s.shadowGone.shadow } := by
  unfold State.shadowGone
  dsimp only
  split <;> rfl

theorem rd_shadowGone (g : Fld) (e j : Nat) : s.shadowGone.rd g e j =
    ((s.wr IMG_SHADOW_VALID pkg 0).wr IMG_SHADOW_REMAINING pkg 0).rd g e j := by
  unfold State.shadowGone
  dsimp only
  split <;> rfl

theorem shadowExpire_gone (h : s.rd IMG_SHADOW_REMAINING pkg = 0) : Completes .shadowExpire s fun t =>
    t.shadow = (if s.txn.isOpen && s.txn.rollback && s.txn.switched then s.shadow else []) ∧
      t.rd IMG_SHADOW_VALID pkg = 0 ∧ t.rd IMG_SHADOW_REMAINING pkg = 0 ∧
      t = { s with regs := t.regs, shadow := t.shadow, out := t.out } ∧
      KeepsRegs [IMG_SHADOW_VALID, IMG_SHADOW_REMAINING] s t := by
  have hop : (silenced s).shadowExpire = (silenced s).shadowGone := if_pos h
  refine completes_op shadowFlds State.shadowExpire hop (touches_shadowGone _) fun u hu => ⟨?_, ?_, ?_, ?_, hu.keeps⟩
  · rw [hu.rest]
    exact shadowGone_shadow (silenced s)
  · rw [hu.rd _ _ _ (by decide), rd_shadowGone, rd_wr_other _ (by decide), rd_wr_same]
    rfl
  · rw [hu.rd _ _ _ (by decide), rd_shadowGone, rd_wr_same]
    rfl
  · rw [hu.rest, shadowGone_rest]
    rfl

theorem shadowExpire_stays (h : s.rd IMG_SHADOW_REMAINING pkg ≠ 0) : Completes .shadowExpire s (OnlyRegs [] s) :=
  completes_run s (f := State.shadowExpire) (onlyRegs_ran_of_fixed (if_neg h))

end
end Sys2Proof.Laws
end

section
/-! SUPPORT. PROOFS. The switch (O28). -/
namespace Sys2Proof.Laws
open Sys2Proof Sys2Proof.Machine

/-! ### Staged fields lie in other blocks than the image's -/

theorem stagedFields_blk : ∀ f ∈ stagedFields, f.blk ≠ 1 := by decide

section
variable (s : State) (d : Nat)

@[simp] theorem txnView_keyActivate (k : Key) (v : Nat) : txnView (s.keyActivate k v) = txnView s := by
  unfold State.keyActivate
  split
  next f hf => exact txnView_wr s (stagedFields_blk f (List.mem_of_find?_eq_some hf)) ..
  next => rfl

@[simp] theorem txnView_switchPend : txnView (s.switchPend d) = txnView s :=
  (txnView_forEach _ _ fun t e => by simp).trans rfl

@[simp] theorem txnView_restoreShadow : txnView (s.restoreShadow d) = txnView s :=
  txnView_forEach s _ fun t e => by simp

end

/-! ### The same registers but for the image's -/

/-- Two states of one part read alike outside the image block. -/
structure SameRest (s t : State) : Prop where
  part : t.part = s.part
  find : ∀ k : Key, k.blk ≠ 1 → t.regs.find k = s.regs.find k

theorem find_set_same (m : Store Nat) (x : Nat) (k : Key) (v : Nat) : (m.set x k v).find k = if v = x then none else some v := by
  unfold Store.set Store.find
  split
  · exact find_erase_same ..
  · exact find_insert_same ..

theorem find_set_other (m : Store Nat) (x : Nat) {k j : Key} (h : j ≠ k) (v : Nat) : (m.set x k v).find j = m.find j := by
  unfold Store.set Store.find
  split
  · exact find_erase_other h _
  · exact find_insert_other _ h _ _

section
variable {s t : State}

theorem SameRest.of_regs (hregs : t.regs = s.regs) (hpart : t.part = s.part) : SameRest s t := ⟨hpart, fun _ _ => by rw [hregs]⟩

theorem SameRest.rd (h : SameRest s t) {g : Fld} (hg : g.blk ≠ 1) (e j : Nat) : t.rd g e j = s.rd g e j := by
  have hfind := h.find (g.key e j) hg
  unfold Store.find at hfind
  rw [State.rd, State.rd, Store.get, Store.get, h.part, hfind]

/-- The same write keeps two states alike. -/
theorem SameRest.wr (h : SameRest s t) (f : Fld) (d v k : Nat) : SameRest (s.wr f d v k) (t.wr f d v k) where
  part := h.part
  find j hj := by
    simp only [State.wr, h.part]
    by_cases hk : j = f.key d k
    · rw [hk, find_set_same, find_set_same]
    · rw [find_set_other _ _ hk, find_set_other _ _ hk, h.find j hj]

/-- A write in the image block is not seen. -/
theorem SameRest.wr_image (h : SameRest s t) {f : Fld} (hf : f.blk = 1) (d v k : Nat) : SameRest s (t.wr f d v k) where
  part := h.part
  find j hj := by
    have hk : j ≠ f.key d k := fun hk => hj (hk ▸ hf)
    exact (find_set_other _ _ hk _).trans (h.find j hj)

theorem SameRest.keyActivate (h : SameRest s t) (k : Key) (v : Nat) : SameRest (s.keyActivate k v) (t.keyActivate k v) := by
  unfold State.keyActivate
  split
  · exact h.wr ..
  · exact h

theorem SameRest.forEach {α : Type} {f : State → α → State} (hf : ∀ s t x, SameRest s t → SameRest (f s x) (f t x))
    (h : SameRest s t) (xs : List α) : SameRest (s.forEach xs f) (t.forEach xs f) := by
  induction xs generalizing s t with
  | nil => exact h
  | cons x xs ih => exact ih (hf s t x h)

theorem SameRest.switchPend (h : SameRest s t) (hpend : t.pend = s.pend) (d : Nat) :
    SameRest (s.switchPend d) (t.switchPend d) := by
  unfold State.switchPend
  rw [hpend]
  refine SameRest.forEach (f := fun t (e : Key × Nat) => t.keyActivate e.1 e.2) (fun _ _ e h => h.keyActivate e.1 e.2) ?_ _
  exact ⟨h.part, h.find⟩

theorem SameRest.mapDiffers {s' t' : State} (h : SameRest s t) (h' : SameRest s' t') (d : Nat) :
    t.mapDiffers t' d = s.mapDiffers s' d := by
  unfold State.mapDiffers
  rw [h.rd (by decide), h.rd (by decide), h.rd (by decide), h'.rd (by decide), h'.rd (by decide), h'.rd (by decide)]

theorem sameRest_toMf (s : State) (m : Nat) : SameRest s (s.toMf m) := by
  have hgone : SameRest s s.shadowGone := by
    have h := ((SameRest.of_regs (s := s) rfl rfl).wr_image (f := IMG_SHADOW_VALID) rfl pkg 0 0).wr_image
      (f := IMG_SHADOW_REMAINING) rfl pkg 0 0
    unfold State.shadowGone
    dsimp only
    split <;> exact ⟨h.part, h.find⟩
  have hpass (n : Nat) : SameRest s (s.shadowPass n) := by
    unfold State.shadowPass
    dsimp only
    split
    · split
      · exact hgone
      · exact (SameRest.of_regs rfl rfl).wr_image rfl ..
    · exact .of_regs rfl rfl
  unfold State.toMf
  split
  · exact ⟨(hpass _).part, (hpass _).find⟩
  · exact .of_regs rfl rfl

end

/-! ### The package region and the dies switch (R90) -/

theorem die_wr (s : State) (f : Fld) (d v k e : Nat) : (s.wr f d v k).die e = s.die e := rfl

/-- The package region has its new fields at the switch. -/
def packageSwitched (s : State) : State := { s.toMf s.txn.mf with shadow := [] }.switchPend pkg

/-- The epoch of a die that switches. -/
def epochSwitched (s : State) (d : Nat) : State :=
  (s.wr IMG_EPOCH_EPOCH d s.txn.epoch).modDie d fun x => { x with switched := true, epochRun := 0 }

theorem epochSwitched_txn (s : State) (d : Nat) : (epochSwitched s d).txn = s.txn := rfl

theorem epochSwitched_part (s : State) (d : Nat) : (epochSwitched s d).part = s.part := rfl

theorem epochSwitched_die (s : State) (d : Nat) :
    (epochSwitched s d).die d = { s.die d with switched := true, epochRun := 0 } := modDie_die ..

theorem epochSwitched_die_other (s : State) {d e : Nat} (h : e ≠ d) : (epochSwitched s d).die e = s.die e :=
  modDie_die_other (s.wr IMG_EPOCH_EPOCH d s.txn.epoch) h _

theorem epochSwitched_holdsGo (s : State) (d e : Nat) : ((epochSwitched s d).die e).holdsGo = (s.die e).holdsGo := by
  by_cases he : e = d
  · rw [he, epochSwitched_die]
  · rw [epochSwitched_die_other s he]

theorem rd_epochSwitched (s : State) (d : Nat) : (epochSwitched s d).rd IMG_EPOCH_EPOCH d = s.txn.epoch % 2 ^ 32 := rd_wr_same ..

theorem rd_epochSwitched_other (s : State) {d e : Nat} (h : e ≠ d) (g : Fld) (j : Nat) :
    (epochSwitched s d).rd g e j = s.rd g e j := rd_wr_inst _ _ _ h ..

/-- A die with GO, or in doubt. -/
def dieSwitched (s : State) (d : Nat) : State :=
  if (s.die d).holdsGo then epochSwitched (s.switchPend d) d else (armsReturned s d).wr IMG_DIE_STATUS_IN_DOUBT d 1

section
variable (s : State) (d : Nat)

@[simp] theorem txnView_armsReturned : txnView (armsReturned s d) = txnView s :=
  txnView_of_centre (centre_forEach s _ fun t i => by simp)

theorem txnView_dieSwitch : txnView (s.dieSwitch d) = txnView (dieSwitched s d) := by
  unfold State.dieSwitch dieSwitched
  split
  · exact txnView_afterSwitch ..
  · rfl

theorem dieSwitched_txn : (dieSwitched s d).txn = s.txn := by
  unfold dieSwitched
  split
  · rw [epochSwitched_txn]
    exact txn_of_txnView (txnView_switchPend s d)
  · rw [wr_txn]
    exact txn_of_txnView (txnView_armsReturned s d)

theorem dieSwitched_part : (dieSwitched s d).part = s.part := by
  unfold dieSwitched
  split
  · rw [epochSwitched_part]
    exact part_of_txnView (txnView_switchPend s d)
  · rw [wr_part]
    exact part_of_txnView (txnView_armsReturned s d)

theorem dieSwitched_holdsGo (e : Nat) : ((dieSwitched s d).die e).holdsGo = (s.die e).holdsGo := by
  unfold dieSwitched
  split
  · rw [epochSwitched_holdsGo, die_of_txnView (txnView_switchPend s d)]
  · rw [die_wr, die_of_txnView (txnView_armsReturned s d)]

variable {s d} in
theorem dieSwitched_die_other {e : Nat} (he : e ≠ d) : (dieSwitched s d).die e = s.die e := by
  unfold dieSwitched
  split
  · rw [epochSwitched_die_other _ he, die_of_txnView (txnView_switchPend s d)]
  · rw [die_wr, die_of_txnView (txnView_armsReturned s d)]

variable {s d} in
theorem rd_dieSwitched_other {e : Nat} (he : e ≠ d) {g : Fld} (hg : g.blk = 1) (j : Nat) :
    (dieSwitched s d).rd g e j = s.rd g e j := by
  unfold dieSwitched
  split
  · rw [rd_epochSwitched_other _ he, rd_of_txnView (txnView_switchPend s d) hg]
  · rw [rd_wr_inst _ _ _ he, rd_of_txnView (txnView_armsReturned s d) hg]

variable {s d} in
theorem dieSwitched_epoch (h : (s.die d).holdsGo = true) :
    (dieSwitched s d).rd IMG_EPOCH_EPOCH d = s.txn.epoch % 2 ^ 32 ∧ ((dieSwitched s d).die d).switched = true := by
  have htxn : (s.switchPend d).txn = s.txn := txn_of_txnView (txnView_switchPend s d)
  rw [dieSwitched, if_pos h, epochSwitched_die, rd_epochSwitched, htxn]
  exact ⟨rfl, rfl⟩

variable {s d} in
theorem dieSwitched_inDoubt (h : (s.die d).holdsGo = false) : (dieSwitched s d).rd IMG_DIE_STATUS_IN_DOUBT d = 1 := by
  rw [dieSwitched, if_neg (by rw [h]; exact Bool.false_ne_true), rd_wr_same]
  rfl

/-- The dies of a transaction switch. -/
def membersSwitched (s : State) : State := s.forEach s.txn.members fun t d => t.dieSwitch d

/-- What one die's part of the switch sets, the switch sets. -/
theorem membersSwitched_sets {α : Type} {φ : State → α} {v : α} (hview : ∀ t u, txnView t = txnView u → φ t = φ u)
    (hother : ∀ t x, x ≠ d → φ (dieSwitched t x) = φ t)
    (hat : ∀ t, t.txn = s.txn → (t.die d).holdsGo = (s.die d).holdsGo → φ (dieSwitched t d) = v)
    (hd : d ∈ s.txn.members) : φ (membersSwitched s) = v := by
  refine forEach_sets_while (φ := φ) (g := fun t d => t.dieSwitch d)
    (I := fun t => t.txn = s.txn ∧ (t.die d).holdsGo = (s.die d).holdsGo) (fun t x h => ⟨?_, ?_⟩)
    (fun t x hx => (hview _ _ (txnView_dieSwitch t x)).trans (hother t x hx))
    (fun t h => (hview _ _ (txnView_dieSwitch t d)).trans (hat t h.1 h.2)) hd ⟨rfl, rfl⟩
  · exact (txn_of_txnView (txnView_dieSwitch t x)).trans ((dieSwitched_txn t x).trans h.1)
  · exact (congrArg DieSt.holdsGo (die_of_txnView (txnView_dieSwitch t x) d)).trans ((dieSwitched_holdsGo t x d).trans h.2)

variable {s d} in
theorem membersSwitched_epoch (hd : d ∈ s.txn.members) (h : (s.die d).holdsGo = true) :
    (membersSwitched s).rd IMG_EPOCH_EPOCH d = s.txn.epoch % 2 ^ 32 ∧ ((membersSwitched s).die d).switched = true := by
  constructor
  · refine membersSwitched_sets s d (φ := fun t => t.rd IMG_EPOCH_EPOCH d) (fun _ _ ht => rd_of_txnView ht rfl ..)
      (fun _ _ hx => rd_dieSwitched_other hx.symm rfl _) (fun t ht hgo => ?_) hd
    rw [(dieSwitched_epoch (hgo.trans h)).1, ht]
  · exact membersSwitched_sets s d (φ := fun t => (t.die d).switched) (fun _ _ ht => congrArg DieSt.switched (die_of_txnView ht d))
      (fun _ _ hx => congrArg DieSt.switched (dieSwitched_die_other hx.symm))
      (fun _ _ hgo => (dieSwitched_epoch (hgo.trans h)).2) hd

variable {s d} in
theorem membersSwitched_inDoubt (hd : d ∈ s.txn.members) (h : (s.die d).holdsGo = false) :
    (membersSwitched s).rd IMG_DIE_STATUS_IN_DOUBT d = 1 :=
  membersSwitched_sets s d (φ := fun t => t.rd IMG_DIE_STATUS_IN_DOUBT d) (fun _ _ ht => rd_of_txnView ht rfl ..)
    (fun _ _ hx => rd_dieSwitched_other hx.symm rfl _) (fun _ _ hgo => dieSwitched_inDoubt (hgo.trans h)) hd

theorem membersSwitched_keeps {α : Type} {φ : State → α} (hview : ∀ t u, txnView t = txnView u → φ t = φ u)
    (h : ∀ t x, φ (dieSwitched t x) = φ t) : φ (membersSwitched s) = φ s :=
  forEach_keeps φ _ (fun t x _ => (hview _ _ (txnView_dieSwitch t x)).trans (h t x)) s

theorem membersSwitched_txn : (membersSwitched s).txn = s.txn :=
  membersSwitched_keeps s (fun _ _ h => txn_of_txnView h) dieSwitched_txn

end

/-- Every die and the package region have switched. -/
def allSwitched (s : State) : State :=
  { membersSwitched (packageSwitched s) with txn := { (membersSwitched (packageSwitched s)).txn with switched := true } }

/-- A commit's shadow is valid for 256 multiframes (R94). -/
def shadowShown (s : State) : State :=
  if s.txn.rollback then s else (s.wr IMG_SHADOW_VALID pkg 1).wr IMG_SHADOW_REMAINING pkg 256

section
variable (s : State)

theorem txnView_packageSwitched : (packageSwitched s).txn = s.txn ∧ (packageSwitched s).dies = s.dies ∧
    (packageSwitched s).part = s.part := by
  have h := txnView_switchPend { s.toMf s.txn.mf with shadow := [] } pkg
  refine ⟨(txn_of_txnView h).trans (toMf_txn ..), (dies_of_txnView h).trans ?_,
    (part_of_txnView h).trans (toMf_part ..)⟩
  exact toMf_keeps s _ State.dies (fun _ _ _ _ _ => rfl) (fun _ => rfl) fun _ _ => rfl

theorem sameRest_packageSwitched : SameRest (s.switchPend pkg) (packageSwitched s) := by
  have h := sameRest_toMf s s.txn.mf
  refine SameRest.switchPend (t := { s.toMf s.txn.mf with shadow := [] }) ⟨h.part, h.find⟩ ?_ pkg
  exact toMf_keeps s _ State.pend (fun _ _ _ _ _ => rfl) (fun _ => rfl) fun _ _ => rfl

theorem allSwitched_txn : (allSwitched s).txn = { s.txn with switched := true } :=
  congrArg (fun x : TxnSt => { x with switched := true })
    ((membersSwitched_txn _).trans (txnView_packageSwitched s).1)

theorem allSwitched_part : (allSwitched s).part = s.part :=
  (membersSwitched_keeps _ (fun _ _ h => part_of_txnView h) dieSwitched_part).trans (txnView_packageSwitched s).2.2

theorem shadowShown_txn : (shadowShown s).txn = s.txn := by
  unfold shadowShown
  split <;> rfl

theorem shadowShown_part : (shadowShown s).part = s.part := by
  unfold shadowShown
  split <;> rfl

theorem shadowShown_die (e : Nat) : (shadowShown s).die e = s.die e := by
  unfold shadowShown
  split <;> rfl

theorem rd_shadowShown {g : Fld} (hg : place g ∉ shadowFlds.map place) (e j : Nat) : (shadowShown s).rd g e j = s.rd g e j := by
  have h : Touches shadowFlds s (shadowShown s) := by
    unfold shadowShown
    split
    · exact .refl _ s
    · exact ((Touches.refl _ s).wr (by simp [shadowFlds]) ..).wr (by simp [shadowFlds]) ..
  exact h.rd g e j hg

theorem txnView_showAllSlots : txnView s.showAllSlots = txnView s :=
  txnView_of_writesOnly (showAllSlots_writes s) fun g e hg h1 => by rw [hg] at h1; cases h1

variable {s}

theorem rd_shadowShown_valid (h : s.txn.rollback = false) :
    (shadowShown s).rd IMG_SHADOW_VALID pkg = 1 ∧ (shadowShown s).rd IMG_SHADOW_REMAINING pkg = 256 := by
  rw [shadowShown, if_neg (by rw [h]; exact Bool.false_ne_true), rd_wr_same, rd_wr_other _ (by decide), rd_wr_same]
  exact ⟨rfl, rfl⟩

/-- A switch that moves neither the map nor a plan. -/
theorem txnSwitch_plain (hopen : s.txn.isOpen = true) (hgo : s.txn.goSent = true) (hsw : s.txn.switched = false)
    (hplan : s.txn.planTeam = none) (hmap : ∀ d, d < s.part.dies → s.mapDiffers (s.switchPend pkg) d = false) :
    s.txnSwitch = (shadowShown (allSwitched s)).showAllSlots := by
  obtain ⟨htxn, -, hpart⟩ := txnView_packageSwitched s
  have hmoved : (packageSwitched s).dieList.filter ((s.toMf s.txn.mf).mapDiffers (packageSwitched s)) = [] := by
    refine List.filter_eq_nil_iff.mpr fun d hd => ?_
    rw [(sameRest_toMf s _).mapDiffers (sameRest_packageSwitched s), hmap d]
    · exact Bool.false_ne_true
    · exact hpart ▸ List.mem_range.mp hd
  have hnone : (shadowShown (allSwitched s)).txn.planTeam = none := by
    rw [shadowShown_txn, allSwitched_txn]
    exact hplan
  unfold State.txnSwitch
  rw [if_pos (by rw [hopen, hgo, hsw]; rfl)]
  dsimp only
  rw [show State.switchPend { s.toMf s.txn.mf with shadow := [] } pkg = packageSwitched s from rfl, hmoved]
  change State.showAllSlots (match (shadowShown (allSwitched s)).txn.planTeam with | some t => _ | none => _) = _
  rw [hnone]
  rfl

end

theorem txnSwitch_completes (s : State) (hopen : s.txn.isOpen = true) (hgo : s.txn.goSent = true) (hsw : s.txn.switched = false)
    (hplan : s.txn.planTeam = none) (hmap : ∀ d, d < s.part.dies → s.mapDiffers (s.switchPend pkg) d = false) :
    Completes .txnSwitch s fun t =>
      t.txn = { s.txn with switched := true } ∧
      (∀ d ∈ s.txn.members, (s.die d).holdsGo = true → t.rd IMG_EPOCH_EPOCH d = s.txn.epoch % 2 ^ 32 ∧
        (t.die d).switched = true) ∧
      (∀ d ∈ s.txn.members, (s.die d).holdsGo = false → t.rd IMG_DIE_STATUS_IN_DOUBT d = 1) ∧
      (s.txn.rollback = false → t.rd IMG_SHADOW_VALID pkg = 1 ∧ t.rd IMG_SHADOW_REMAINING pkg = 256) := by
  obtain ⟨htxn, hdies, -⟩ := txnView_packageSwitched (silenced s)
  have hsame : SameRest s (silenced s) := .of_regs rfl rfl
  have hop := txnSwitch_plain (s := silenced s) hopen hgo hsw hplan fun d hd =>
    (hsame.mapDiffers (hsame.switchPend rfl pkg) d).trans (hmap d hd)
  have hview : txnView (silenced s).txnSwitch = txnView (shadowShown (allSwitched (silenced s))) := by
    rw [hop, txnView_showAllSlots]
  have hpart : (silenced s).txnSwitch.part = s.part :=
    (part_of_txnView hview).trans ((shadowShown_part _).trans (allSwitched_part _))
  have hdie (d : Nat) : (packageSwitched (silenced s)).die d = s.die d := by
    rw [State.die, State.die, hdies]
    rfl
  have hmem {d : Nat} (hd : d ∈ s.txn.members) : d ∈ (packageSwitched (silenced s)).txn.members := htxn ▸ hd
  have hrd {g : Fld} (hg : g.blk = 1) (hs : place g ∉ summaryPlaces) (d : Nat) :
      (ran s State.txnSwitch).rd g d = (shadowShown (allSwitched (silenced s))).rd g d := by
    rw [rd_ran hpart hs, rd_of_txnView hview hg]
  have hall (g : Fld) (d : Nat) : (allSwitched (silenced s)).rd g d = (membersSwitched (packageSwitched (silenced s))).rd g d := rfl
  refine completes_run s (f := State.txnSwitch) ⟨?_, fun d hd h => ⟨?_, ?_⟩, fun d hd h => ?_, fun h => ?_⟩
  · rw [ran_txn]
    exact (txn_of_txnView hview).trans ((shadowShown_txn _).trans (allSwitched_txn _))
  · rw [hrd rfl (by decide), rd_shadowShown _ (by decide), hall, (membersSwitched_epoch (hmem hd) ((hdie d).symm ▸ h)).1, htxn]
    rfl
  · rw [die_ran, die_of_txnView hview, shadowShown_die]
    exact (membersSwitched_epoch (hmem hd) ((hdie d).symm ▸ h)).2
  · rw [hrd rfl (by decide), rd_shadowShown _ (by decide), hall, membersSwitched_inDoubt (hmem hd) ((hdie d).symm ▸ h)]
  · have hroll : (allSwitched (silenced s)).txn.rollback = false := by
      rw [allSwitched_txn]
      exact h
    rw [hrd rfl (by decide), hrd rfl (by decide)]
    exact rd_shadowShown_valid hroll

end Sys2Proof.Laws
end

section
/-! SUPPORT. PROOFS. The restore after REVERT (O28). -/
namespace Sys2Proof.Laws
open Sys2Proof Sys2Proof.Machine

/-! ### What the start of a team keeps: the part and the transaction -/

/-- The part and the transaction of a state. -/
def partTxn (s : State) : Part × TxnSt := (s.part, s.txn)

section
variable {s t : State}

theorem txn_of_partTxn (h : partTxn t = partTxn s) : t.txn = s.txn := congrArg Prod.snd h
theorem part_of_partTxn (h : partTxn t = partTxn s) : t.part = s.part := congrArg Prod.fst h

theorem partTxn_of_txnView (h : txnView t = txnView s) : partTxn t = partTxn s :=
  Prod.ext (part_of_txnView h) (txn_of_txnView h)

theorem partTxn_of_centre (h : centre t = centre s) : partTxn t = partTxn s := partTxn_of_txnView (txnView_of_centre h)

theorem partTxn_of_writesOnly {P : Fld → Nat → Prop} (h : WritesOnly P s t) : partTxn t = partTxn s := by
  rw [h.rest]
  rfl

end

section
variable (s : State)

@[simp] theorem partTxn_wr (f : Fld) (d v k : Nat) : partTxn (s.wr f d v k) = partTxn s := rfl
@[simp] theorem partTxn_wrb (f : Fld) (d k : Nat) (b : Bool) : partTxn (s.wrb f d b k) = partTxn s := rfl
@[simp] theorem partTxn_modDie (d : Nat) (f : DieSt → DieSt) : partTxn (s.modDie d f) = partTxn s := rfl
@[simp] theorem partTxn_modTeam (b : Nat) (f : TeamSt → TeamSt) : partTxn (s.modTeam b f) = partTxn s := rfl
@[simp] theorem partTxn_modCairn (d : Nat) (f : CairnSt → CairnSt) : partTxn (s.modCairn d f) = partTxn s := rfl

theorem partTxn_forEach {α : Type} (xs : List α) {f : State → α → State} (h : ∀ t x, partTxn (f t x) = partTxn t) :
    partTxn (s.forEach xs f) = partTxn s := forEach_keeps partTxn xs (fun t x _ => h t x) s

@[simp] theorem partTxn_ite (c : Prop) [Decidable c] (t u : State) :
    partTxn (if c then t else u) = if c then partTxn t else partTxn u := apply_ite partTxn c t u

@[simp] theorem partTxn_wrTeam (f : Fld) (b v : Nat) : partTxn (s.wrTeam f b v) = partTxn s :=
  partTxn_of_writesOnly (writesOnly_wrTeam s f b v)

@[simp] theorem partTxn_showAllSlots : partTxn s.showAllSlots = partTxn s := partTxn_of_writesOnly (showAllSlots_writes s)

@[simp] theorem partTxn_showEstimate : partTxn s.showEstimate = partTxn s := partTxn_of_txnView (txnView_showEstimate s)

variable (d : Nat)

@[simp] theorem partTxn_txStop (i : Nat) (retain : Bool) : partTxn (s.txStop d i retain) = partTxn s := partTxn_of_centre (by simp)
@[simp] theorem partTxn_rxStop (i : Nat) (retain : Bool) : partTxn (s.rxStop d i retain) = partTxn s := partTxn_of_centre (by simp)
@[simp] theorem partTxn_rxStart (i : Nat) : partTxn (s.rxStart d i) = partTxn s := partTxn_of_centre (by simp)
@[simp] theorem partTxn_setTxState (i v : Nat) : partTxn (s.setTxState d i v) = partTxn s := partTxn_of_centre (by simp)
@[simp] theorem partTxn_refreshPool : partTxn (s.refreshPool d) = partTxn s := partTxn_of_centre (centre_commitPool s d _)
@[simp] theorem partTxn_armDomains : partTxn (s.armDomains d) = partTxn s := partTxn_of_txnView (txnView_armDomains s d)
@[simp] theorem partTxn_wake (k : Nat) : partTxn (s.wake d k) = partTxn s := partTxn_of_txnView (txnView_wake s d k)
@[simp] theorem partTxn_campFormat (i : Nat) : partTxn (s.campFormat d i) = partTxn s := rfl

@[simp] theorem partTxn_armsStopped :
    partTxn (s.forEach (List.range 8) fun t i => (t.txStop d i false).rxStop d i false) = partTxn s :=
  partTxn_forEach s _ fun t i => by simp

@[simp] theorem partTxn_clearRxSlice : partTxn (s.clearRxSlice d) = partTxn s := by
  have hplan (t : State) : partTxn (t.forEach (List.range 8) fun t i => t.wr TXD_SC_RXPLAN_VALID d 0 i) = partTxn t :=
    partTxn_forEach t _ fun _ _ => rfl
  have hslots (t : State) : partTxn (t.forEach (List.range 192) fun t k =>
      ((t.wr FLW_RX_SLOT_VALID d 0 k).wr FLW_RX_SLOT_DIE d 0 k).wr FLW_RX_SLOT_FLOW d 0 k) = partTxn t :=
    partTxn_forEach t _ fun _ _ => rfl
  simp only [State.clearRxSlice, hslots, hplan]

@[simp] theorem partTxn_setMember (v : Nat) : partTxn (s.setMember d v) = partTxn s := by
  unfold State.setMember State.refreshSegments
  dsimp only
  split <;> simp

@[simp] theorem partTxn_campDie : partTxn (s.campDie d) = partTxn s := by
  have harms (t : State) : partTxn (t.forEach (List.range 8) fun t i =>
      if i = 3 then t else if t.txOn d i || t.rxOn d i then (t.txStop d i false).rxStop d i false else t) = partTxn t :=
    partTxn_forEach t _ fun u i => by simp
  have hmirror (t : State) : partTxn (t.forEach (List.range 8) fun t i => t.mirrorRx d i (i == 3)) = partTxn t :=
    partTxn_forEach t _ fun _ _ => rfl
  have hgoal (t : State) : partTxn (t.forEach (List.range 192) fun t k =>
      if k / 24 = 3 then
        ((t.wr FLW_TX_SLOT_VALID d (t.goalRd FLW_TX_SLOT_VALID d k) k).wr FLW_TX_SLOT_DIE d (t.goalRd FLW_TX_SLOT_DIE d k) k).wr
          FLW_TX_SLOT_FLOW d (t.goalRd FLW_TX_SLOT_FLOW d k) k
      else t.wr FLW_TX_SLOT_VALID d 0 k) = partTxn t := partTxn_forEach t _ fun u k => by simp
  have hslots (t : State) : partTxn (t.forEach (List.range 192) fun t k => t.mirrorSlot d k) = partTxn t :=
    partTxn_forEach t _ fun _ _ => rfl
  simp only [State.campDie, partTxn_showAllSlots, partTxn_refreshPool, partTxn_armDomains, partTxn_rxStart,
    partTxn_setTxState, hslots, hgoal, hmirror, partTxn_campFormat, partTxn_wr, harms]

@[simp] theorem partTxn_showPeers : partTxn (s.showPeers d) = partTxn s := by
  have hpeers (t : State) (f : State → Nat → State) (h : ∀ u k, partTxn (f u k) = partTxn u) :
      partTxn (t.forEach (List.range 8) f) = partTxn t := partTxn_forEach t _ h
  unfold State.showPeers
  dsimp only
  split
  · split
    · exact hpeers s _ fun u k => by split <;> rfl
    · exact hpeers s _ fun u k => by split <;> rfl
  · exact hpeers s _ fun u k => by split <;> rfl

variable (b : Nat)

@[simp] theorem partTxn_startDiscovery : partTxn (s.startDiscovery b) = partTxn s := by
  have hstate (t : State) (ds : List Nat) (f : Fld) (v : Nat) : partTxn (t.forEach ds fun u e => u.wr f e v) = partTxn t :=
    partTxn_forEach t _ fun _ _ => rfl
  unfold State.startDiscovery
  dsimp only
  split
  · rfl
  · simp [hstate]

@[simp] theorem partTxn_startCamp : partTxn (s.startCamp b) = partTxn s := by
  have hstate (t : State) (ds : List Nat) (f : Fld) (v : Nat) : partTxn (t.forEach ds fun u e => u.wr f e v) = partTxn t :=
    partTxn_forEach t _ fun _ _ => rfl
  unfold State.startCamp
  dsimp only
  rw [partTxn_showEstimate, partTxn_startDiscovery, hstate]
  simp only [partTxn_wrTeam, partTxn_modTeam]
  exact partTxn_forEach s _ fun u d => by simp

theorem partTxn_teams (x : Store TeamSt) : partTxn { s with teams := x } = partTxn s := rfl

theorem partTxn_restartTeams (moved : List Nat) : partTxn (s.restartTeams moved) = partTxn s := by
  have hcamps (t : State) (bs : List Nat) : partTxn (t.forEach bs fun t b => t.startCamp b) = partTxn t :=
    partTxn_forEach t _ fun u b => partTxn_startCamp u b
  unfold State.restartTeams
  dsimp only
  rw [hcamps]
  refine partTxn_forEach s _ fun t d => ?_
  rw [partTxn_setMember, partTxn_teams]
  exact partTxn_armsStopped t d

end

/-! ### The restore (R91) -/

/-- The dies that got REVERT have the values from before the switch. -/
def diesReverted (s : State) : State :=
  s.forEach (s.dieList.filter fun d => (s.die d).reverting) fun t d =>
    ((t.restoreShadow d).wr IMG_EPOCH_EPOCH d ((t.txn.epoch + 2 ^ 32 - 1) % 2 ^ 32)).afterSwitch t d true

/-- And so has the package region. -/
def allReverted (s : State) : State := (diesReverted s).restoreShadow pkg

/-- Dies whose map or geometry goes back start again. -/
def teamsReverted (s : State) : State :=
  if ((allReverted s).dieList.filter (s.mapDiffers (allReverted s))).isEmpty then allReverted s
  else (allReverted s).restartTeams ((allReverted s).dieList.filter (s.mapDiffers (allReverted s)))

/-- No die is in doubt any more. -/
def doubtGone (s : State) : State := s.forEach s.dieList fun t d => t.wr IMG_DIE_STATUS_IN_DOUBT d 0

/-- A plan goes back to the agreed epoch. -/
def planReverted (s : State) : State := s.txn.planTeam.elim s fun t => s.planSwitched t (s.agreed t)

/-- A rollback's shadow stays while it is valid. -/
def shadowReverted (s : State) (back : Store Nat) : State :=
  let keeps := s.txn.rollback && s.flag IMG_SHADOW_VALID pkg
  let s := { s with shadow := if keeps then back else [] }
  if keeps then s else (s.wr IMG_SHADOW_VALID pkg 0).wr IMG_SHADOW_REMAINING pkg 0

/-- All that the restore does before the shadow and the transaction close. -/
def restored (s : State) : State := planReverted (doubtGone (teamsReverted (s.toMf (s.txn.mf + 2))))

section
variable (s : State)

theorem partTxn_afterSwitch (o : State) (d : Nat) (back : Bool) : partTxn (s.afterSwitch o d back) = partTxn s :=
  partTxn_of_txnView (txnView_afterSwitch ..)

theorem partTxn_restoreShadow (d : Nat) : partTxn (s.restoreShadow d) = partTxn s := partTxn_of_txnView (txnView_restoreShadow s d)

theorem partTxn_allReverted : partTxn (allReverted s) = partTxn s := by
  rw [allReverted, partTxn_restoreShadow]
  exact partTxn_forEach s _ fun t d => by rw [partTxn_afterSwitch, partTxn_wr, partTxn_restoreShadow]

theorem partTxn_teamsReverted : partTxn (teamsReverted s) = partTxn s := by
  unfold teamsReverted
  split
  · exact partTxn_allReverted s
  · rw [partTxn_restartTeams, partTxn_allReverted]

theorem partTxn_doubtGone : partTxn (doubtGone s) = partTxn s := partTxn_forEach s _ fun _ _ => rfl

theorem partTxn_planSwitched (b e : Nat) : partTxn (s.planSwitched b e) = partTxn s := by
  rw [State.planSwitched, partTxn_wrTeam]
  rfl

theorem partTxn_planReverted : partTxn (planReverted s) = partTxn s := by
  unfold planReverted
  cases s.txn.planTeam with
  | none => rfl
  | some t => exact partTxn_planSwitched ..

theorem partTxn_toMf (m : Nat) : partTxn (s.toMf m) = partTxn s :=
  toMf_keeps s m partTxn (fun _ _ _ _ _ => rfl) (fun _ => rfl) fun _ _ => rfl

theorem partTxn_beforeDoubt : partTxn (teamsReverted (s.toMf (s.txn.mf + 2))) = partTxn s := by
  rw [partTxn_teamsReverted, partTxn_toMf]

theorem partTxn_restored : partTxn (restored s) = partTxn s := by
  rw [restored, partTxn_planReverted, partTxn_doubtGone, partTxn_beforeDoubt]

variable {s} in
theorem revertRestore_reverting (hopen : s.txn.isOpen = true) (hrev : s.txn.reverting = true) :
    s.revertRestore = (shadowReverted (restored s) (s.toMf (s.txn.mf + 2)).pend).abortTxn
      (if (restored s).txn.lost then reasonMemberLost else reasonInDoubt) := by
  have hplan : (doubtGone (teamsReverted (s.toMf (s.txn.mf + 2)))).txn.planTeam = s.txn.planTeam := by
    rw [txn_of_partTxn (partTxn_doubtGone _), txn_of_partTxn (partTxn_beforeDoubt s)]
  unfold State.revertRestore
  rw [if_pos (by rw [hopen, hrev]; rfl)]
  unfold restored shadowReverted planReverted
  unfold doubtGone teamsReverted allReverted diesReverted at hplan ⊢
  dsimp only at hplan ⊢
  rw [hplan]
  cases s.txn.planTeam <;> dsimp only [Option.elim] <;> rfl

/-- No die of the part stays in doubt. -/
theorem rd_doubtGone {d : Nat} (hd : d < s.part.dies) : (doubtGone s).rd IMG_DIE_STATUS_IN_DOUBT d = 0 :=
  forEach_sets (φ := fun t => t.rd IMG_DIE_STATUS_IN_DOUBT d) (g := fun t d => t.wr IMG_DIE_STATUS_IN_DOUBT d 0)
    (fun t _ hx => rd_wr_inst t _ _ hx.symm ..) (fun t => rd_wr_same t ..) (List.mem_range.mpr hd) s

theorem rd_planReverted {g : Fld} (hg : place g ≠ place FRM_PLAN_ACTIVE_EPOCH) (e j : Nat) :
    (planReverted s).rd g e j = s.rd g e j := by
  unfold planReverted
  cases s.txn.planTeam with
  | none => rfl
  | some t => exact (rd_wrTeam_other _ hg ..).trans rfl

theorem touches_shadowReverted (back : Store Nat) : Touches shadowFlds s (shadowReverted s back) := by
  have h (x : Store Nat) : Touches shadowFlds s { s with shadow := x } := .of_regs rfl rfl
  unfold shadowReverted
  dsimp only
  split
  · exact h _
  · exact ((h _).wr (by simp [shadowFlds]) ..).wr (by simp [shadowFlds]) ..

theorem shadowReverted_txn (back : Store Nat) : (shadowReverted s back).txn = s.txn := by
  unfold shadowReverted
  dsimp only
  split <;> rfl

theorem rd_restored_inDoubt {d : Nat} (hd : d < s.part.dies) : (restored s).rd IMG_DIE_STATUS_IN_DOUBT d = 0 := by
  rw [restored, rd_planReverted _ (by decide), rd_doubtGone]
  rwa [part_of_partTxn (partTxn_beforeDoubt s)]

theorem revertRestore_completes (hopen : s.txn.isOpen = true) (hrev : s.txn.reverting = true) :
    Completes .revertRestore s fun t =>
      t.txn.isOpen = false ∧ t.rd IMG_TXN_STATUS_RESULT pkg = 2 ∧
        t.rd IMG_TXN_STATUS_REASON pkg = (if s.txn.lost then reasonMemberLost else reasonInDoubt) ∧
        ∀ d, d < s.part.dies → t.rd IMG_DIE_STATUS_IN_DOUBT d = 0 := by
  have hop := revertRestore_reverting (s := silenced s) hopen hrev
  have hpt := partTxn_restored (silenced s)
  have hopen' (back : Store Nat) : (shadowReverted (restored (silenced s)) back).txn.isOpen = true := by
    rw [shadowReverted_txn, txn_of_partTxn hpt]
    exact hopen
  have hlost : (restored (silenced s)).txn.lost = s.txn.lost := congrArg TxnSt.lost (txn_of_partTxn hpt)
  have hreason : (if s.txn.lost then reasonMemberLost else reasonInDoubt) < 16 := by split <;> decide
  rw [hlost] at hop
  have hpart : (silenced s).revertRestore.part = s.part := by
    rw [hop, (touches_abortTxn _).part, (touches_shadowReverted _ _).part]
    exact part_of_partTxn hpt
  refine completes_run s (f := State.revertRestore) ⟨?_, ?_, ?_, fun d hd => ?_⟩
  · rw [ran_txn]
    exact (congrArg (fun u : State => u.txn.isOpen) hop).trans (abortTxn_isOpen _ (hopen' _))
  · rw [rd_ran hpart (by decide), hop, rd_abortTxn_result _ (hopen' _)]
  · rw [rd_ran hpart (by decide), hop, rd_abortTxn_reason _ (hopen' _) hreason]
  · rw [rd_ran hpart (by decide), hop, (touches_abortTxn _).rd _ _ _ (by decide), (touches_shadowReverted _ _).rd _ _ _ (by decide),
      rd_restored_inDoubt (silenced s) hd]

end

/-- Settles O28, command by command. That a member lost gives the restore the reason MEMBER_LOST is the model's choice (log
entry 13). -/
theorem transactionSwitchAndStages : Obligations.TransactionSwitchAndStages :=
  ⟨txnSwitch_completes, revert_completes, revertRestore_completes, shadowExpire_gone, shadowExpire_stays, stageDiscard_completes,
    pkgStageDiscard_completes⟩

end Sys2Proof.Laws
end

section
/-! SUPPORT. PROOFS. What a unit holds does not bear on how units are disabled: their records and the registers of the disable
rule. -/
namespace Sys2Proof.Laws
open Sys2Proof Sys2Proof.Machine

/-- The part, the units and the registers of the disable rule. -/
structure UnitView where
  part : Part
  units : Store UnitSt
  rd : Fld → Nat → Nat → Nat

/-- What a state shows of it. -/
def unitView (s : State) : UnitView :=
  { part := s.part, units := s.units, rd := fun g e j => if g.blk = 27 then s.rd g e j else 0 }

section
variable {s t : State}

theorem part_of_unitView (h : unitView t = unitView s) : t.part = s.part := congrArg UnitView.part h

theorem unit_of_unitView (h : unitView t = unitView s) (d b u : Nat) : t.unit d b u = s.unit d b u := by
  rw [State.unit, State.unit, show t.units = s.units from congrArg UnitView.units h]

theorem rd_of_unitView (h : unitView t = unitView s) {g : Fld} (hg : g.blk = 27) (e j : Nat) : t.rd g e j = s.rd g e j := by
  have h' := congrFun (congrFun (congrFun (congrArg UnitView.rd h) g) e) j
  simpa only [unitView, hg, if_true] using h'

end

section
variable (s : State)

/-! ### Registers and records -/

section
variable (d v k : Nat) {f : Fld} (hf : f.blk ≠ 27)
include hf

@[simp] theorem unitView_wr : unitView (s.wr f d v k) = unitView s := by
  have hrd : (fun (g : Fld) e j => if g.blk = 27 then (s.wr f d v k).rd g e j else 0) =
      fun g e j => if g.blk = 27 then s.rd g e j else 0 := by
    funext g e j
    split
    · next hg => exact rd_wr_other s (fun h => hf ((blk_of_place h).symm.trans hg)) ..
    · rfl
  simp only [unitView, hrd]
  rfl

@[simp] theorem unitView_raise : unitView (s.raise f d v k) = unitView s := unitView_wr s d _ k hf
@[simp] theorem unitView_count : unitView (s.count f d v k) = unitView s := unitView_wr s d _ k hf
@[simp] theorem unitView_wrb (b : Bool) : unitView (s.wrb f d b k) = unitView s := unitView_wr s d _ k hf
@[simp] theorem unitView_wrBit (b : Bool) : unitView (s.wrBit f d v b k) = unitView s := unitView_wr s d _ k hf
@[simp] theorem unitView_wrS (x : Int) : unitView (s.wrS f d x k) = unitView s := unitView_wr s d _ k hf

end

theorem unitView_forEach {α : Type} (xs : List α) {f : State → α → State} (h : ∀ t x, unitView (f t x) = unitView t) :
    unitView (s.forEach xs f) = unitView s := forEach_keeps unitView xs (fun t x _ => h t x) s

@[simp] theorem unitView_ite (c : Prop) [Decidable c] (t u : State) :
    unitView (if c then t else u) = if c then unitView t else unitView u := apply_ite unitView c t u

variable (d i : Nat)

@[simp] theorem unitView_emit (o : Output) : unitView (s.emit o) = unitView s := rfl
@[simp] theorem unitView_modRxDie (f : RxDie → RxDie) : unitView (s.modRxDie d f) = unitView s := rfl
@[simp] theorem unitView_modRx (f : RxArm → RxArm) : unitView (s.modRx d i f) = unitView s := rfl
@[simp] theorem unitView_markMixed : unitView (s.markMixed d i) = unitView s := rfl
@[simp] theorem unitView_modFec (f : FecSt → FecSt) : unitView (s.modFec d f) = unitView s := rfl
@[simp] theorem unitView_modStream (f : StreamSt → StreamSt) : unitView (s.modStream d i f) = unitView s := rfl
@[simp] theorem unitView_modFrm (f : FrmArm → FrmArm) : unitView (s.modFrm d i f) = unitView s := rfl
@[simp] theorem unitView_modFlow (f : FlowSt → FlowSt) : unitView (s.modFlow d i f) = unitView s := rfl
@[simp] theorem unitView_modCrc (f : CrcSt → CrcSt) : unitView (s.modCrc d i f) = unitView s := rfl
@[simp] theorem unitView_modSeq (f : SeqSt → SeqSt) : unitView (s.modSeq d f) = unitView s := rfl
@[simp] theorem unitView_modWch (f : WchSt → WchSt) : unitView (s.modWch d i f) = unitView s := rfl
@[simp] theorem unitView_modPlm (f : PlmSt → PlmSt) : unitView (s.modPlm f) = unitView s := rfl
@[simp] theorem unitView_modChannel (f : List DmaJob → List DmaJob) : unitView (s.modChannel d i f) = unitView s := rfl

/-! ### Receive arms -/

@[simp] theorem unitView_setRxState (v : Nat) : unitView (s.setRxState d i v) = unitView s := by
  simp (disch := decide) [State.setRxState]

@[simp] theorem unitView_setFreq (f : Int) : unitView (s.setFreq d f) = unitView s := by
  simp (disch := decide) [State.setFreq]

@[simp] theorem unitView_takeFreq : unitView (s.takeFreq d) = unitView s := by
  simp (disch := decide) [State.takeFreq]

@[simp] theorem unitView_seekCd : unitView (s.seekCd d i) = unitView s := by
  unfold State.seekCd
  dsimp only
  split <;> rfl

@[simp] theorem unitView_loseSync : unitView (s.loseSync d i) = unitView s := by
  simp (disch := decide) [State.loseSync]

@[simp] theorem unitView_startArm : unitView (s.startArm d i) = unitView s := by
  simp (disch := decide) [State.startArm]

@[simp] theorem unitView_stopArm (retain : Bool) : unitView (s.stopArm d i retain) = unitView s := by
  simp [State.stopArm]

theorem defectFld_blk (n : Nat) : (State.defectFld n).blk ≠ 27 := by
  unfold State.defectFld
  split <;> decide

theorem unitView_wrDefects (ns : List Nat) :
    unitView (ns.foldl (fun (t : State) n => t.wr (State.defectFld n) d 0 i) s) = unitView s :=
  unitView_forEach s ns fun t n => unitView_wr t d 0 i (defectFld_blk n)

@[simp] theorem unitView_frmStop : unitView (s.frmStop d i) = unitView s := by
  simp (disch := decide) only [State.frmStop, unitView_wrDefects, unitView_wr, unitView_loseSync, unitView_modFrm]

@[simp] theorem unitView_setCands (cs : List Cand) : unitView (s.setCands d i cs) = unitView s := by
  simp (disch := decide) [State.setCands]

@[simp] theorem unitView_frmStart : unitView (s.frmStart d i) = unitView s := by
  unfold State.frmStart
  dsimp only
  split <;> simp (disch := decide)

@[simp] theorem unitView_rxStop (retain : Bool) : unitView (s.rxStop d i retain) = unitView s := by
  simp [State.rxStop]

@[simp] theorem unitView_rxStart : unitView (s.rxStart d i) = unitView s := by
  simp [State.rxStart]

/-! ### Decoder clusters -/

@[simp] theorem unitView_enterPeriod (n : Nat) : unitView (s.enterPeriod d n) = unitView s := by
  unfold State.enterPeriod
  dsimp only
  split <;> simp

@[simp] theorem unitView_dealInfo (n : Nat) (bits : List Bool) (errored : Bool) :
    unitView (s.dealInfo d n bits errored) = unitView s := by
  simp [State.dealInfo]

@[simp] theorem unitView_deliverInfo (n : Nat) (bits : List Bool) (errored : Bool) :
    unitView (s.deliverInfo d n bits errored) = unitView s := by
  simp [State.deliverInfo]

@[simp] theorem unitView_bchFeed (n : Nat) (bits : List Bool) : unitView (s.bchFeed d i n bits) = unitView s := by
  induction n generalizing s bits with
  | zero => rfl
  | succ n ih =>
    rw [State.bchFeed]
    split
    · rfl
    · dsimp only
      rw [ih]
      split <;> simp (disch := decide)

@[simp] theorem unitView_beginStream (c : Decoded) : unitView (s.beginStream d c) = unitView s := by
  simp [State.beginStream]

@[simp] theorem unitView_leave (c : Decoded) : unitView (s.leave d c) = unitView s := by
  simp [State.leave]

@[simp] theorem unitView_drain (n k : Nat) : unitView (s.drain d n k) = unitView s := by
  induction k generalizing s with
  | zero => rfl
  | succ k ih =>
    rw [State.drain]
    split
    · rfl
    · simp [ih]

@[simp] theorem unitView_handOver (c : Decoded) : unitView (s.handOver d c) = unitView s := by
  simp [State.handOver]

@[simp] theorem unitView_deliverRaw (cw : Codeword) : unitView (s.deliverRaw d cw) = unitView s := by
  simp (disch := decide) [State.deliverRaw]

/-! ### Groups, engines and housekeeping -/

@[simp] theorem unitView_flowDrop (u : Nat) : unitView (s.flowDrop d u) = unitView s := unitView_modFlow ..

@[simp] theorem unitView_grpDrop (g : Nat) : unitView (s.grpDrop d g) = unitView s :=
  (unitView_forEach _ _ fun t f => by simp).trans rfl

@[simp] theorem unitView_seqStop (abort : Bool) : unitView (s.seqStop d abort) = unitView s := by
  simp (disch := decide) [State.seqStop]

@[simp] theorem unitView_haltEng (e cause : Nat) : unitView (s.haltEng d e cause) = unitView s := by
  simp (disch := decide) [State.haltEng]

@[simp] theorem unitView_startEng (e : Nat) : unitView (s.startEng d e) = unitView s := by
  have hengs (t : State) (x : Store EngSt) : unitView { t with engs := x } = unitView t := rfl
  unfold State.startEng
  split
  · rfl
  · exact (hengs _ _).trans (by simp (disch := decide))

/-- What a unit drops does not bear on the units (R99). -/
@[simp] theorem unitView_dropHeld (b u : Nat) (reenable : Bool) : unitView (s.dropHeld d b u reenable) = unitView s := by
  unfold State.dropHeld
  split
  case h_2 => split <;> simp
  all_goals simp

end
end Sys2Proof.Laws
end

section
/-! SUPPORT. PROOFS. How a unit drains, is idle, and loses what it holds (O29). -/
namespace Sys2Proof.Laws
open Sys2Proof Sys2Proof.Machine

/-! ### Units -/

/-- The record of a unit whose drain has ended. -/
def idled (x : UnitSt) : UnitSt := { x with draining := false, work := 0, enabled := x.reenable, reenable := false }

section
variable (s : State) (d b u : Nat)

theorem unit_setUnit_same (x : UnitSt) : (s.setUnit d b u x).unit d b u = x := get_set_same ..

theorem unit_setUnit_other {v : Nat} (h : v ≠ u) (x : UnitSt) : (s.setUnit d b u x).unit d b v = s.unit d b v :=
  get_set_other _ _ _ (fun hk => h (congrArg Key.idx hk)) _

theorem mem_of_find {α : Type} {m : Store α} {k : Key} {v : α} (h : m.find k = some v) : (k, v) ∈ m := by
  induction m with
  | nil => cases h
  | cons e m ih =>
    obtain ⟨k', v'⟩ := e
    rw [Store.find, assocFind] at h
    split at h
    · next hk =>
      obtain rfl := Option.some.inj h
      exact hk ▸ List.mem_cons_self
    · exact List.mem_cons_of_mem _ (ih h)

variable {s d b u} in
/-- A unit that drains is listed. -/
theorem unit_listed (h : (s.unit d b u).draining = true) : (dieUnit d b u, s.unit d b u) ∈ s.blockUnits d b := by
  have hfind : s.units.find (dieUnit d b u) = some (s.unit d b u) := by
    unfold State.unit Store.get at h ⊢
    unfold Store.find
    cases hx : assocFind (dieUnit d b u) s.units with
    | none => rw [hx] at h; cases h
    | some x => rfl
  exact List.mem_filter.mpr ⟨mem_of_find hfind, by simp [dieUnit]⟩

/-! ### The status of a block -/

/-- The registers that show whether a block drains or is idle. -/
def idleFlds : List Fld := [BLK_DIS_STATUS_DRAINING, BLK_DIS_STATUS_IDLE]

theorem touches_refreshDis : Touches idleFlds s (s.refreshDis d b) :=
  ((Touches.refl _ s).wrb (by simp [idleFlds]) ..).wrb (by simp [idleFlds]) ..

theorem refreshDis_rest : s.refreshDis d b = { s with regs := (s.refreshDis d b).regs } := rfl

theorem refreshDis_unit (e c v : Nat) : (s.refreshDis d b).unit e c v = s.unit e c v := rfl

/-! ### A drain begins or ends (R98) -/

/-- The record of a unit that stops accepting work. -/
def drainBegun (x : UnitSt) (work now : Nat) : UnitSt :=
  { x with enabled := false, reenable := false, draining := decide (work ≠ 0), since := now, work := work }

theorem drainUnit_unit (work now : Nat) : (s.drainUnit d b u work now).unit d b u = drainBegun (s.unit d b u) work now :=
  unit_setUnit_same s d b u (drainBegun (s.unit d b u) work now)

theorem touches_drainUnit (work now : Nat) : Touches idleFlds s (s.drainUnit d b u work now) := by
  refine Touches.trans ?_ (touches_refreshDis _ d b)
  exact .of_regs rfl rfl

/-- A draining unit is idle. -/
def unitIdled (s : State) (d b u : Nat) : State := (s.setUnit d b u (idled (s.unit d b u))).refreshDis d b

theorem unitIdled_unit : (unitIdled s d b u).unit d b u = idled (s.unit d b u) :=
  unit_setUnit_same s d b u (idled (s.unit d b u))

theorem touches_unitIdled : Touches idleFlds s (unitIdled s d b u) := by
  refine Touches.trans ?_ (touches_refreshDis _ d b)
  exact .of_regs rfl rfl

theorem unitIdled_rest : unitIdled s d b u =
    { s with regs := (unitIdled s d b u).regs, units := (unitIdled s d b u).units } := rfl

/-- A draining unit of a block other than RXD and ENG only becomes idle. -/
theorem drained_draining {s : State} {d b u : Nat} (hrx : b ≠ 4) (heng : b ≠ 14)
    (h : (s.unit (disInst d b) b u).draining = true) : s.drained d b u = unitIdled s (disInst d b) b u := by
  have hidle : s.unitIdle (disInst d b) b u = unitIdled s (disInst d b) b u := if_pos h
  unfold State.drained
  dsimp only
  rw [if_neg (by rw [h]; decide)]
  split
  · exact absurd rfl hrx
  · exact absurd rfl heng
  · exact hidle

/-! ### A unit aborts (R99) -/

/-- The registers that an aborted unit writes. -/
def discardFlds : List Fld := [BLK_DIS_DISCARDS_COUNT, BLK_DIS_STATUS_ABORTED] ++ idleFlds

/-- The discarded work is counted. -/
def discardCounted (s : State) (d b work : Nat) : State :=
  if work = 0 then s.count BLK_DIS_DISCARDS_COUNT d work b
  else (s.count BLK_DIS_DISCARDS_COUNT d work b).raise BLK_DIS_STATUS_ABORTED d 1 b

/-- The record of a unit that aborts. -/
def stopped (x : UnitSt) : UnitSt := { x with enabled := false, draining := false, reenable := false, work := 0 }

theorem abortUnit_eq (work : Nat) :
    s.abortUnit d b u work = (discardCounted (s.setUnit d b u (stopped (s.unit d b u))) d b work).refreshDis d b := rfl

theorem touches_discardCounted (work : Nat) : Touches discardFlds s (discardCounted s d b work) := by
  have h : Touches discardFlds s (s.count BLK_DIS_DISCARDS_COUNT d work b) := (Touches.refl _ s).count (by simp [discardFlds]) ..
  unfold discardCounted
  split
  · exact h
  · exact h.raise (by simp [discardFlds]) ..

theorem discardCounted_rest (work : Nat) : discardCounted s d b work = { s with regs := (discardCounted s d b work).regs } := by
  unfold discardCounted
  split <;> rfl

theorem discardCounted_unit (work e c v : Nat) : (discardCounted s d b work).unit e c v = s.unit e c v := by
  unfold discardCounted
  split <;> rfl

theorem rd_discardCounted (work : Nat) :
    (discardCounted s d b work).rd BLK_DIS_DISCARDS_COUNT d b = min (s.rd BLK_DIS_DISCARDS_COUNT d b + work) (2 ^ 32 - 1) := by
  unfold discardCounted
  split
  · exact rd_count_same ..
  · exact (rd_wr_other _ (by decide) ..).trans (rd_count_same ..)

theorem rd_raise_one_elem {f : Fld} (hw : f.w = 1) : (s.raise f d 1 b).rd f d b = 1 := by
  rw [rd_raise_same, hw]
  exact or_one_mod_two _

theorem rd_discardCounted_aborted {work : Nat} (h : work ≠ 0) : (discardCounted s d b work).rd BLK_DIS_STATUS_ABORTED d b = 1 := by
  rw [discardCounted, if_neg h]
  exact rd_raise_one_elem _ _ _ rfl

theorem abortUnit_unit (work : Nat) : (s.abortUnit d b u work).unit d b u = stopped (s.unit d b u) := by
  rw [abortUnit_eq, refreshDis_unit, discardCounted_unit, unit_setUnit_same]

theorem touches_abortUnit (work : Nat) : Touches discardFlds s (s.abortUnit d b u work) := by
  rw [abortUnit_eq]
  refine (Touches.trans ?_ (touches_discardCounted _ d b work)).trans
    ((touches_refreshDis _ d b).mono fun f hf => List.mem_append_right _ hf)
  exact .of_regs rfl rfl

theorem abortUnit_rest (work : Nat) : s.abortUnit d b u work =
    { s with regs := (s.abortUnit d b u work).regs, units := (s.abortUnit d b u work).units } := by
  rw [abortUnit_eq, refreshDis_rest, discardCounted_rest]
  rfl

theorem rd_abortUnit (work : Nat) :
    (s.abortUnit d b u work).rd BLK_DIS_DISCARDS_COUNT d b = min (s.rd BLK_DIS_DISCARDS_COUNT d b + work) (2 ^ 32 - 1) := by
  rw [abortUnit_eq, (touches_refreshDis _ d b).rd _ _ _ (by decide), rd_discardCounted]
  rfl

theorem rd_abortUnit_aborted {work : Nat} (h : work ≠ 0) : (s.abortUnit d b u work).rd BLK_DIS_STATUS_ABORTED d b = 1 := by
  rw [abortUnit_eq, (touches_refreshDis _ d b).rd _ _ _ (by decide), rd_discardCounted_aborted _ _ _ h]

/-! ### A drain is cut (R98, R101) -/

/-- The registers that a cut drain writes. -/
def cutFlds (timeout : Bool) : List Fld :=
  (if timeout then [BLK_DIS_DISCARDS_COUNT, BLK_DIS_TIMEOUTS_COUNT, BLK_DIS_STATUS_DRAIN_TIMEOUT]
    else [BLK_DIS_DISCARDS_COUNT, BLK_DIS_STATUS_ABORTED]) ++ idleFlds

/-- A cut is counted: a timeout as one, and what is left as discarded. -/
def cutCounted (s : State) (d b left : Nat) (timeout : Bool) : State :=
  let s := s.count BLK_DIS_DISCARDS_COUNT d left b
  if timeout then (s.count BLK_DIS_TIMEOUTS_COUNT d 1 b).raise BLK_DIS_STATUS_DRAIN_TIMEOUT d 1 b
  else s.raise BLK_DIS_STATUS_ABORTED d 1 b

variable (left : Nat) (timeout : Bool)

theorem touches_cutCounted : Touches (cutFlds timeout) s (cutCounted s d b left timeout) := by
  cases timeout with
  | false => exact ((Touches.refl _ s).count (by simp [cutFlds]) ..).raise (by simp [cutFlds]) ..
  | true => exact (((Touches.refl _ s).count (by simp [cutFlds]) ..).count (by simp [cutFlds]) ..).raise (by simp [cutFlds]) ..

theorem cutCounted_rest : cutCounted s d b left timeout = { s with regs := (cutCounted s d b left timeout).regs } := by
  cases timeout <;> rfl

theorem cutCounted_unit (e c v : Nat) : (cutCounted s d b left timeout).unit e c v = s.unit e c v := by
  cases timeout <;> rfl

theorem rd_cutCounted : (cutCounted s d b left timeout).rd BLK_DIS_DISCARDS_COUNT d b =
    min (s.rd BLK_DIS_DISCARDS_COUNT d b + left) (2 ^ 32 - 1) := by
  cases timeout with
  | false => exact (rd_wr_other _ (by decide) ..).trans (rd_count_same ..)
  | true => exact (rd_wr_other _ (by decide) ..).trans ((rd_wr_other _ (by decide) ..).trans (rd_count_same ..))

/-- A drain ends with work left. -/
def drainEnded (s : State) (d b u left : Nat) (timeout : Bool) : State :=
  (cutCounted (s.setUnit d b u (idled (s.unit d b u))) d b left timeout).refreshDis d b

theorem touches_drainEnded : Touches (cutFlds timeout) s (drainEnded s d b u left timeout) := by
  refine (Touches.trans ?_ (touches_cutCounted _ d b left timeout)).trans
    ((touches_refreshDis _ d b).mono fun f hf => List.mem_append_right _ hf)
  exact .of_regs rfl rfl

theorem drainEnded_rest : drainEnded s d b u left timeout =
    { s with regs := (drainEnded s d b u left timeout).regs, units := (drainEnded s d b u left timeout).units } := by
  rw [drainEnded, refreshDis_rest, cutCounted_rest]
  rfl

theorem drainEnded_unit : (drainEnded s d b u left timeout).unit d b u = idled (s.unit d b u) := by
  rw [drainEnded, refreshDis_unit, cutCounted_unit, unit_setUnit_same]

theorem drainEnded_unit_other {v : Nat} (h : v ≠ u) : (drainEnded s d b u left timeout).unit d b v = s.unit d b v := by
  rw [drainEnded, refreshDis_unit, cutCounted_unit, unit_setUnit_other _ _ _ _ h]

theorem rd_drainEnded : (drainEnded s d b u left timeout).rd BLK_DIS_DISCARDS_COUNT d b =
    min (s.rd BLK_DIS_DISCARDS_COUNT d b + left) (2 ^ 32 - 1) := by
  rw [drainEnded, (touches_refreshDis _ d b).rd _ _ _ (by decide), rd_cutCounted]
  rfl

theorem rd_drainEnded_aborted : (drainEnded s d b u left false).rd BLK_DIS_STATUS_ABORTED d b = 1 := by
  rw [drainEnded, (touches_refreshDis _ d b).rd _ _ _ (by decide)]
  exact rd_raise_one_elem _ _ _ rfl

theorem rd_drainEnded_timeouts : (drainEnded s d b u left true).rd BLK_DIS_TIMEOUTS_COUNT d b =
    min (s.rd BLK_DIS_TIMEOUTS_COUNT d b + 1) (2 ^ 32 - 1) := by
  rw [drainEnded, (touches_refreshDis _ d b).rd _ _ _ (by decide)]
  refine (rd_wr_other _ (by decide) ..).trans ((rd_count_same ..).trans ?_)
  rw [State.count, rd_wr_other _ (by decide)]
  rfl

theorem rd_drainEnded_timeout : (drainEnded s d b u left true).rd BLK_DIS_STATUS_DRAIN_TIMEOUT d b = 1 := by
  rw [drainEnded, (touches_refreshDis _ d b).rd _ _ _ (by decide)]
  exact rd_raise_one_elem _ _ _ rfl

end

section
variable (s : State) (d b u given : Nat) (timeout : Bool)

variable {s d b u} in
theorem cutDrain_draining (h : (s.unit (disInst d b) b u).draining = true) : s.cutDrain d b u given timeout =
    (drainEnded s (disInst d b) b u (s.heldNow d b u given) timeout).dropHeld d b u (s.unit (disInst d b) b u).reenable :=
  (if_pos h).trans (congrArg (fun t : State => t.dropHeld d b u (s.unit (disInst d b) b u).reenable) (if_pos h))

variable {s d b u} in
theorem cutDrain_still (h : (s.unit (disInst d b) b u).draining = false) : s.cutDrain d b u given timeout = s :=
  if_neg (by rw [h]; exact Bool.false_ne_true)

/-- A cut leaves no drain. -/
theorem cutDrain_idle : ((s.cutDrain d b u given timeout).unit (disInst d b) b u).draining = false := by
  cases h : (s.unit (disInst d b) b u).draining with
  | false => rwa [cutDrain_still given timeout h]
  | true => rw [cutDrain_draining given timeout h, unit_of_unitView (unitView_dropHeld ..), drainEnded_unit]; rfl

/-- And starts none. -/
theorem cutDrain_keeps_idle {v : Nat} (hv : (s.unit (disInst d b) b v).draining = false) :
    ((s.cutDrain d b u given timeout).unit (disInst d b) b v).draining = false := by
  by_cases he : v = u
  · rw [he]
    exact cutDrain_idle ..
  cases h : (s.unit (disInst d b) b u).draining with
  | false => rwa [cutDrain_still given timeout h]
  | true => rwa [cutDrain_draining given timeout h, unit_of_unitView (unitView_dropHeld ..), drainEnded_unit_other _ _ _ _ _ _ he]

theorem cutDrain_part : (s.cutDrain d b u given timeout).part = s.part := by
  cases h : (s.unit (disInst d b) b u).draining with
  | false => rw [cutDrain_still given timeout h]
  | true => rw [cutDrain_draining given timeout h, part_of_unitView (unitView_dropHeld ..), (touches_drainEnded ..).part]

theorem rd_cutDrain {g : Fld} (hg : g.blk = 27) (hcut : place g ∉ (cutFlds timeout).map place) (e j : Nat) :
    (s.cutDrain d b u given timeout).rd g e j = s.rd g e j := by
  cases h : (s.unit (disInst d b) b u).draining with
  | false => rw [cutDrain_still given timeout h]
  | true =>
    rw [cutDrain_draining given timeout h, rd_of_unitView (unitView_dropHeld ..) hg, (touches_drainEnded ..).rd _ _ _ hcut]

end

end Sys2Proof.Laws
end

section
/-! SUPPORT. PROOFS. The commands of the disable rule (O29). -/
namespace Sys2Proof.Laws
open Sys2Proof Sys2Proof.Machine

/-! ### A check unit (R100) -/

/-- The span that a check unit holds, as work. -/
def crcWork (s : State) (d u : Nat) : Nat := b2n ((s.crcSt d u).pos != 0)

/-- The record of a check unit that discards its span. -/
def crcDropped (x : CrcSt) : CrcSt := { x with running := 0, pos := 0, carry := none }

theorem crcWork_ne_zero (s : State) (d u : Nat) : crcWork s d u ≠ 0 ↔ (s.crcSt d u).pos ≠ 0 := by
  unfold crcWork b2n
  split <;> simp_all

section
variable (s : State) (d u : Nat)

/-- A check unit drains. -/
def crcDrains (now : Nat) : State := (s.wr CRC_UNIT_CFG_EN d 0 u).drainUnit d 12 u (crcWork s d u) now

/-- A check unit aborts. -/
def crcAborts : State := ((s.wr CRC_UNIT_CFG_EN d 0 u).abortUnit d 12 u (crcWork s d u)).modCrc d u crcDropped

theorem touches_enable {fs : List Fld} (h : CRC_UNIT_CFG_EN ∈ fs) : Touches fs s (s.wr CRC_UNIT_CFG_EN d 0 u) :=
  (Touches.refl fs s).wr h ..

theorem touches_crcDrains (now : Nat) : Touches (CRC_UNIT_CFG_EN :: idleFlds) s (crcDrains s d u now) :=
  (touches_enable s d u (by simp)).trans ((touches_drainUnit _ d 12 u _ now).mono fun _ hf => List.mem_cons_of_mem _ hf)

theorem touches_crcAborts : Touches (CRC_UNIT_CFG_EN :: discardFlds) s (crcAborts s d u) :=
  ((touches_enable s d u (by simp)).trans
    ((touches_abortUnit _ d 12 u _).mono fun _ hf => List.mem_cons_of_mem _ hf)).regs (modCrc_regs ..) (modCrc_part ..)

theorem crcDrains_rest (now : Nat) :
    crcDrains s d u now = { s with regs := (crcDrains s d u now).regs, units := (crcDrains s d u now).units } := rfl

theorem crcDrains_unit (now : Nat) : (crcDrains s d u now).unit d 12 u = drainBegun (s.unit d 12 u) (crcWork s d u) now :=
  drainUnit_unit (s.wr CRC_UNIT_CFG_EN d 0 u) d 12 u (crcWork s d u) now

theorem crcAborts_rest : crcAborts s d u =
    { s with regs := (crcAborts s d u).regs, units := (crcAborts s d u).units, crc := (crcAborts s d u).crc } := by
  rw [crcAborts, abortUnit_rest]
  rfl

theorem crcAborts_unit : (crcAborts s d u).unit d 12 u = stopped (s.unit d 12 u) :=
  abortUnit_unit (s.wr CRC_UNIT_CFG_EN d 0 u) d 12 u (crcWork s d u)

theorem crcAborts_crcSt : (crcAborts s d u).crcSt d u = crcDropped (s.crcSt d u) := by
  rw [crcAborts, modCrc_crcSt, abortUnit_rest]
  rfl

variable {s d u}

theorem crcOff_drain (h : s.rd BLK_DIS_CTRL_MODE d 12 = 0) (now : Nat) : s.crcOff d u now = crcDrains s d u now := by
  have hbefore : (s.wr CRC_UNIT_CFG_EN d 0 u).disAbort d 12 = false :=
    flag_of_rd_zero ((rd_wr_other _ (by decide) ..).trans h)
  have hafter : (crcDrains s d u now).disAbort d 12 = false :=
    flag_of_rd_zero (((touches_crcDrains s d u now).rd _ _ _ (by decide)).trans h)
  have hoff : (s.wr CRC_UNIT_CFG_EN d 0 u).disableUnit d 12 u (b2n ((s.crcSt d u).pos != 0)) now = crcDrains s d u now :=
    if_neg (by rw [hbefore]; exact Bool.false_ne_true)
  unfold State.crcOff
  dsimp only
  rw [hoff, if_neg (by rw [hafter]; exact Bool.false_ne_true)]

theorem crcOff_abort (h : s.rd BLK_DIS_CTRL_MODE d 12 = 1) (now : Nat) : s.crcOff d u now = crcAborts s d u := by
  have hbefore : (s.wr CRC_UNIT_CFG_EN d 0 u).disAbort d 12 = true :=
    flag_of_rd_one ((rd_wr_other _ (by decide) ..).trans h)
  have hafter : (crcAborts s d u).disAbort d 12 = true :=
    flag_of_rd_one (((touches_crcAborts s d u).rd _ _ _ (by decide)).trans h)
  have hoff : (s.wr CRC_UNIT_CFG_EN d 0 u).disableUnit d 12 u (b2n ((s.crcSt d u).pos != 0)) now =
      (s.wr CRC_UNIT_CFG_EN d 0 u).abortUnit d 12 u (crcWork s d u) := if_pos hbefore
  unfold State.crcOff
  dsimp only
  rw [hoff]
  exact if_pos hafter

end

/-- What a command shows of a unit and of a check unit. -/
theorem Shows.unit {fs : List Fld} {s t v : State} (h : Shows fs s t v) (d b u : Nat) : v.unit d b u = t.unit d b u := by
  rw [h.rest]
  rfl

theorem Shows.crcSt {fs : List Fld} {s t v : State} (h : Shows fs s t v) (d u : Nat) : v.crcSt d u = t.crcSt d u := by
  rw [h.rest]
  rfl

/-! ### The enable is cleared (R98, R99) -/

section
variable (s : State) (d : Fin 8) (u work now : Nat) (hd : (d : Nat) < s.part.dies) (hu : u < 64)
include hd hu

theorem enableClearDrain_completes (h : s.rd BLK_DIS_CTRL_MODE d 12 = 0) : Completes (.enableClearDrain d 12 u work now) s fun t =>
    t.rd CRC_UNIT_CFG_EN d u = 0 ∧ t.unit d 12 u =
      { s.unit d 12 u with
        enabled := false, reenable := false, draining := decide ((s.crcSt d u).pos ≠ 0), since := now, work := crcWork s d u } ∧
      t = { s with regs := t.regs, units := t.units, out := t.out } ∧
      KeepsRegs [CRC_UNIT_CFG_EN, BLK_DIS_STATUS_DRAINING, BLK_DIS_STATUS_IDLE] s t := by
  have hmode : (silenced s).disAbort d 12 = false := flag_of_rd_zero (s := silenced s) h
  have hop : (if (silenced s).disAbort d 12 then silenced s else (silenced s).clearEnable d 12 u work now) =
      crcDrains (silenced s) d u now :=
    (if_neg (by rw [hmode]; exact Bool.false_ne_true)).trans ((if_pos hu).trans (crcOff_drain (s := silenced s) h now))
  refine completes_dieOp (CRC_UNIT_CFG_EN :: idleFlds)
    (fun t => if t.disAbort d 12 then t else t.clearEnable d 12 u work now) hd hop (touches_crcDrains ..) fun t ht =>
      ⟨?_, ?_, ?_, ht.keeps⟩
  · rw [ht.rd _ _ _ (by decide), crcDrains, (touches_drainUnit ..).rd _ _ _ (by decide), rd_wr_same]
    rfl
  · rw [ht.unit, crcDrains_unit, drainBegun, decide_eq_decide.mpr (crcWork_ne_zero (silenced s) d u)]
    rfl
  · rw [ht.rest, crcDrains_rest]
    rfl

theorem enableClearAbort_completes (h : s.rd BLK_DIS_CTRL_MODE d 12 = 1) : Completes (.enableClearAbort d 12 u work) s fun t =>
    t.rd CRC_UNIT_CFG_EN d u = 0 ∧ (t.unit d 12 u).draining = false ∧ (t.unit d 12 u).work = 0 ∧
      t.rd BLK_DIS_DISCARDS_COUNT d 12 = min (s.rd BLK_DIS_DISCARDS_COUNT d 12 + crcWork s d u) (2 ^ 32 - 1) ∧
      ((s.crcSt d u).pos ≠ 0 → t.rd BLK_DIS_STATUS_ABORTED d 12 = 1) ∧ t.crcSt d u = crcDropped (s.crcSt d u) ∧
      t = { s with regs := t.regs, units := t.units, crc := t.crc, out := t.out } ∧
      KeepsRegs [CRC_UNIT_CFG_EN, BLK_DIS_DISCARDS_COUNT, BLK_DIS_STATUS_ABORTED, BLK_DIS_STATUS_DRAINING, BLK_DIS_STATUS_IDLE]
        s t := by
  have hmode : (silenced s).disAbort d 12 = true := flag_of_rd_one (s := silenced s) h
  have hop : (if (silenced s).disAbort d 12 then (silenced s).clearEnable d 12 u work 0 else silenced s) =
      crcAborts (silenced s) d u := (if_pos hmode).trans ((if_pos hu).trans (crcOff_abort (s := silenced s) h 0))
  refine completes_dieOp (CRC_UNIT_CFG_EN :: discardFlds)
    (fun t => if t.disAbort d 12 then t.clearEnable d 12 u work 0 else t) hd hop (touches_crcAborts ..) fun t ht => ?_
  have hunit : t.unit d 12 u = stopped ((silenced s).unit d 12 u) := (ht.unit ..).trans (crcAborts_unit ..)
  refine ⟨?_, by rw [hunit]; rfl, by rw [hunit]; rfl, ?_, fun hpos => ?_, ?_, ?_, ht.keeps⟩
  · rw [ht.rd _ _ _ (by decide), crcAborts, modCrc_rd, (touches_abortUnit ..).rd _ _ _ (by decide), rd_wr_same]
    rfl
  · rw [ht.rd _ _ _ (by decide), crcAborts, modCrc_rd, rd_abortUnit, rd_wr_other _ (by decide)]
    rfl
  · rw [ht.rd _ _ _ (by decide), crcAborts, modCrc_rd,
      rd_abortUnit_aborted _ _ _ _ ((crcWork_ne_zero (silenced s) d u).mpr hpos)]
  · rw [ht.crcSt, crcAborts_crcSt]
    rfl
  · rw [ht.rest, crcAborts_rest]
    rfl

end

/-! ### A drain ends (R98) -/

theorem drainIdle_completes (s : State) (d : Fin 8) (b : Fin 26) (u : Nat) (hd : (d : Nat) < s.part.dies) (hrx : (b : Nat) ≠ 4)
    (heng : (b : Nat) ≠ 14) (h : (s.unit (disInst d b) b u).draining = true) : Completes (.drainIdle d b u) s fun t =>
    t.unit (disInst d b) b u = { s.unit (disInst d b) b u with
      draining := false, work := 0, enabled := (s.unit (disInst d b) b u).reenable, reenable := false } ∧
    t = { s with regs := t.regs, units := t.units, out := t.out } ∧
    KeepsRegs [BLK_DIS_STATUS_DRAINING, BLK_DIS_STATUS_IDLE] s t := by
  refine completes_dieOp idleFlds (fun t => t.drained d b u) hd (drained_draining (s := silenced s) hrx heng h)
    (touches_unitIdled ..) fun t ht => ⟨?_, ?_, ht.keeps⟩
  · rw [ht.unit, unitIdled_unit]
    rfl
  · rw [ht.rest, unitIdled_rest]
    rfl

/-- A check unit's drain is cut. -/
def crcCut (s : State) (d u : Nat) (timeout : Bool) : State := (drainEnded s d 12 u (crcWork s d u) timeout).modCrc d u crcDropped

section
variable {s : State} {d u : Nat}

theorem cutDrain_crc (h : (s.unit d 12 u).draining = true) (given : Nat) (timeout : Bool) :
    s.cutDrain d 12 u given timeout = crcCut s d u timeout := cutDrain_draining (b := 12) given timeout h

variable (s d u) (timeout : Bool)

theorem touches_crcCut : Touches (cutFlds timeout) s (crcCut s d u timeout) :=
  (touches_drainEnded ..).regs (modCrc_regs ..) (modCrc_part ..)

theorem crcCut_rest : crcCut s d u timeout =
    { s with regs := (crcCut s d u timeout).regs, units := (crcCut s d u timeout).units, crc := (crcCut s d u timeout).crc } := by
  rw [crcCut, drainEnded_rest]
  rfl

theorem crcCut_unit : (crcCut s d u timeout).unit d 12 u = idled (s.unit d 12 u) := drainEnded_unit ..

theorem crcCut_crcSt : (crcCut s d u timeout).crcSt d u = crcDropped (s.crcSt d u) := by
  rw [crcCut, modCrc_crcSt, drainEnded_rest]
  rfl

theorem rd_crcCut (g : Fld) (e j : Nat) :
    (crcCut s d u timeout).rd g e j = (drainEnded s d 12 u (crcWork s d u) timeout).rd g e j := rfl

end

theorem drainTimeout_completes (s : State) (d : Fin 8) (u left : Nat) (hd : (d : Nat) < s.part.dies)
    (h : (s.unit d 12 u).draining = true) : Completes (.drainTimeout d 12 u left) s fun t =>
    (t.unit d 12 u).draining = false ∧ t.crcSt d u = crcDropped (s.crcSt d u) ∧
    t.rd BLK_DIS_DISCARDS_COUNT d 12 = min (s.rd BLK_DIS_DISCARDS_COUNT d 12 + crcWork s d u) (2 ^ 32 - 1) ∧
    t.rd BLK_DIS_TIMEOUTS_COUNT d 12 = min (s.rd BLK_DIS_TIMEOUTS_COUNT d 12 + 1) (2 ^ 32 - 1) ∧
    t.rd BLK_DIS_STATUS_DRAIN_TIMEOUT d 12 = 1 ∧
    t = { s with regs := t.regs, units := t.units, crc := t.crc, out := t.out } ∧
    KeepsRegs [BLK_DIS_DISCARDS_COUNT, BLK_DIS_TIMEOUTS_COUNT, BLK_DIS_STATUS_DRAIN_TIMEOUT, BLK_DIS_STATUS_DRAINING,
      BLK_DIS_STATUS_IDLE] s t := by
  refine completes_dieOp (cutFlds true) (fun t => t.cutDrain d 12 u left true) hd
    (cutDrain_crc (s := silenced s) h left true) (touches_crcCut ..) fun t ht => ⟨?_, ?_, ?_, ?_, ?_, ?_, ht.keeps⟩
  · rw [ht.unit, crcCut_unit]
    rfl
  · rw [ht.crcSt, crcCut_crcSt]
    rfl
  · rw [ht.rd _ _ _ (by decide), rd_crcCut, rd_drainEnded]
    rfl
  · rw [ht.rd _ _ _ (by decide), rd_crcCut, rd_drainEnded_timeouts]
    rfl
  · rw [ht.rd _ _ _ (by decide), rd_crcCut, rd_drainEnded_timeout]
  · rw [ht.rest, crcCut_rest]
    rfl

end Sys2Proof.Laws
end

section
/-! SUPPORT. PROOFS. The mode and the limit of a block (O29). -/
namespace Sys2Proof.Laws
open Sys2Proof Sys2Proof.Machine

/-! ### Operations for every element of a list -/

section
variable {α : Type} {f : State → α → State}

/-- What one element brings about and no element undoes, holds at the end. -/
theorem forEach_reaches {P : State → Prop} {xs : List α} (hkeep : ∀ t, ∀ x ∈ xs, P t → P (f t x))
    (hset : ∃ x ∈ xs, ∀ t, P (f t x)) (s : State) : P (s.forEach xs f) := by
  obtain ⟨x, hx, hP⟩ := hset
  induction xs using List.reverseRecOn with
  | nil => cases hx
  | append_singleton xs y ih =>
    rw [State.forEach, List.foldl_append]
    rcases List.mem_append.mp hx with h | h
    · exact hkeep _ y (by simp) (ih (fun t z hz => hkeep t z (by simp [hz])) h)
    · rw [List.mem_singleton] at h
      subst h
      exact hP _

/-- A change that some elements make, each the same one, and that none makes again, is made once. -/
theorem forEach_once {s r : State} {xs : List α} (hs : ∀ x ∈ xs, f s x = s ∨ f s x = r) (hr : ∀ x ∈ xs, f r x = r)
    (hx : ∃ x ∈ xs, f s x = r) : s.forEach xs f = r := by
  have hstays : ∀ ys : List α, (∀ y ∈ ys, f r y = r) → r.forEach ys f = r := fun ys => by
    induction ys with
    | nil => exact fun _ => rfl
    | cons y ys ih =>
      intro hy
      change State.forEach (f r y) ys f = r
      rw [hy y (by simp), ih fun z hz => hy z (by simp [hz])]
  induction xs with
  | nil => obtain ⟨x, hx, -⟩ := hx; cases hx
  | cons x xs ih =>
    change State.forEach (f s x) xs f = r
    rcases hs x (by simp) with h | h
    · obtain ⟨y, hy, hyr⟩ := hx
      rw [h]
      rcases List.mem_cons.mp hy with rfl | hy
      · rw [show s = r from h.symm.trans hyr]
        exact hstays xs fun z hz => hr z (by simp [hz])
      · exact ih (fun z hz => hs z (by simp [hz])) (fun z hz => hr z (by simp [hz])) ⟨y, hy, hyr⟩
    · rw [h]
      exact hstays xs fun z hz => hr z (by simp [hz])

end

/-! ### Every drain of a block -/

/-- The units of a block that drain and meet a condition, counted on. -/
def drains (s : State) (d b : Nat) (p : UnitSt → Bool) : List ((Key × UnitSt) × Nat) :=
  ((s.blockUnits (disInst d b) b).filter fun e => e.2.draining && p e.2).zipIdx

/-- The work of a drain that is cut, where the command gives one. -/
def leftOf (given : Option Nat) (e : (Key × UnitSt) × Nat) : Nat :=
  match given with
  | some n => if e.2 = 0 then n else 0
  | none => e.1.2.work

section
variable (s : State) (d b : Nat) (given : Option Nat) (timeout : Bool) (p : UnitSt → Bool)

theorem cutDrains_eq : s.cutDrains d b given timeout p =
    s.forEach (drains s d b p) fun t e => t.cutDrain d b e.1.1.idx (leftOf given e) timeout := by
  cases given <;> rfl

variable {s d b p} in
theorem exists_drain {u : Nat} (h : (s.unit (disInst d b) b u).draining = true) (hp : p (s.unit (disInst d b) b u) = true) :
    ∃ e ∈ drains s d b p, e.1.1.idx = u := by
  have hmem : (dieUnit (disInst d b) b u, s.unit (disInst d b) b u) ∈
      (s.blockUnits (disInst d b) b).filter fun e => e.2.draining && p e.2 :=
    List.mem_filter.mpr ⟨unit_listed h, by rw [h, hp]; rfl⟩
  rw [← List.zipIdx_map_fst 0 (List.filter _ _)] at hmem
  obtain ⟨e, he, hfst⟩ := List.mem_map.mp hmem
  exact ⟨e, he, by rw [hfst]; rfl⟩

variable {s d b p} in
theorem drains_nil (h : ∀ e ∈ s.blockUnits (disInst d b) b, e.2.draining = true → p e.2 = false) : drains s d b p = [] := by
  have hnil : (s.blockUnits (disInst d b) b).filter (fun e => e.2.draining && p e.2) = [] :=
    List.filter_eq_nil_iff.mpr fun e he hx => by
      obtain ⟨hdr, hp⟩ := Bool.and_eq_true_iff.mp hx
      exact Bool.false_ne_true ((h e he hdr).symm.trans hp)
  rw [drains, hnil]
  rfl

theorem cutDrains_part : (s.cutDrains d b given timeout p).part = s.part := by
  rw [cutDrains_eq]
  exact forEach_keeps State.part _ (fun t e _ => cutDrain_part t d b _ _ timeout) s

theorem rd_cutDrains {g : Fld} (hg : g.blk = 27) (hcut : place g ∉ (cutFlds timeout).map place) (e j : Nat) :
    (s.cutDrains d b given timeout p).rd g e j = s.rd g e j := by
  rw [cutDrains_eq]
  exact forEach_keeps (fun t => t.rd g e j) _ (fun t x _ => rd_cutDrain t d b _ _ timeout hg hcut e j) s

/-- No unit that met the condition drains any more. -/
theorem cutDrains_idle {u : Nat} (hp : p (s.unit (disInst d b) b u) = true) :
    ((s.cutDrains d b given timeout p).unit (disInst d b) b u).draining = false := by
  have hkeep (t : State) (e : (Key × UnitSt) × Nat) (h : (t.unit (disInst d b) b u).draining = false) :=
    cutDrain_keeps_idle t d b e.1.1.idx (leftOf given e) timeout h
  rw [cutDrains_eq]
  cases h : (s.unit (disInst d b) b u).draining with
  | false =>
    refine List.foldlRecOn (motive := fun t : State => (t.unit (disInst d b) b u).draining = false) (drains s d b p) _ h
      fun t ht e _ => hkeep t e ht
  | true =>
    obtain ⟨e, he, hidx⟩ := exists_drain h hp
    refine forEach_reaches (P := fun t => (t.unit (disInst d b) b u).draining = false) (fun t x _ => hkeep t x) ⟨e, he, fun t => ?_⟩ s
    rw [hidx]
    exact cutDrain_idle ..

/-- The one check unit that drains is cut once. -/
theorem cutDrains_crc {u : Nat} (h : (s.unit d 12 u).draining = true) (hp : p (s.unit d 12 u) = true)
    (hone : ∀ v, v ≠ u → (s.unit d 12 v).draining = false) : s.cutDrains d 12 given timeout p = crcCut s d u timeout := by
  have hcut (n : Nat) : s.cutDrain d 12 u n timeout = crcCut s d u timeout := cutDrain_crc h n timeout
  have hafter (v : Nat) : ((crcCut s d u timeout).unit d 12 v).draining = false := by
    rw [← hcut 0]
    by_cases hv : v = u
    · rw [hv]
      exact cutDrain_idle s d 12 u 0 timeout
    · exact cutDrain_keeps_idle s d 12 u 0 timeout (hone v hv)
  rw [cutDrains_eq]
  refine forEach_once (fun e _ => ?_) (fun e _ => cutDrain_still (b := 12) _ timeout (hafter _)) ?_
  · by_cases hv : e.1.1.idx = u
    · rw [hv]
      exact .inr (hcut _)
    · exact .inl (cutDrain_still (b := 12) _ timeout (hone _ hv))
  · obtain ⟨e, he, hidx⟩ := exists_drain (b := 12) h hp
    exact ⟨e, he, by rw [hidx]; exact hcut _⟩

end

/-! ### The mode (R101) -/

section
variable (s : State) (d : Fin 8) (b : Fin 26) (abort : Bool) (left : Nat) (hd : (d : Nat) < s.part.dies)

/-- The mode is stored. -/
def modeStored (s : State) (d b : Nat) (abort : Bool) : State := s.wrb BLK_DIS_CTRL_MODE (disInst d b) abort b

theorem setDisMode_abort (given : Option Nat) :
    s.setDisMode d b true given = (modeStored s d b true).cutDrains d b given false fun _ => true := rfl

include hd

theorem disModeWrite_completes : Completes (.disModeWrite d b abort left) s fun t =>
    t.rd BLK_DIS_CTRL_MODE (disInst d b) b = b2n abort ∧
    (abort = false → t = { s with regs := t.regs, out := t.out } ∧ KeepsRegs [BLK_DIS_CTRL_MODE] s t) ∧
    (abort = true → ∀ u, (t.unit (disInst d b) b u).draining = false) := by
  cases abort with
  | false =>
    refine completes_dieOp [BLK_DIS_CTRL_MODE] (fun t => t.setDisMode d b false (some left)) hd
      (t := modeStored (silenced s) d b false) rfl ((Touches.refl _ _).wrb (by simp) ..) fun t ht =>
        ⟨?_, fun _ => ⟨?_, ht.keeps⟩, nofun⟩
    · rw [ht.rd _ _ _ (by decide)]
      exact rd_wrb_same _ _ _ _ _ rfl
    · rw [ht.rest]
      rfl
  | true =>
    have hpart : ((silenced s).setDisMode d b true (some left)).part = s.part := by
      rw [setDisMode_abort, cutDrains_part]
      rfl
    refine completes_runDie s hd (f := fun t => t.setDisMode d b true (some left)) ⟨?_, nofun, fun _ u => ?_⟩
    · rw [rd_ran hpart (by decide), setDisMode_abort, rd_cutDrains _ _ _ _ _ _ rfl (by decide)]
      exact rd_wrb_same _ _ _ _ _ rfl
    · rw [State.unit, ran_units]
      exact cutDrains_idle (modeStored (silenced s) d b true) d b (some left) false (fun _ => true) rfl

end

section
variable (s : State) (d : Fin 8) (u left : Nat) (hd : (d : Nat) < s.part.dies) (h : (s.unit d 12 u).draining = true)
  (hone : ∀ v, v ≠ u → (s.unit d 12 v).draining = false)
include hd h hone

theorem disModeWrite_crc : Completes (.disModeWrite d 12 true left) s fun t =>
    t.crcSt d u = crcDropped (s.crcSt d u) ∧ t.rd BLK_DIS_STATUS_ABORTED d 12 = 1 ∧
    t.rd BLK_DIS_DISCARDS_COUNT d 12 = min (s.rd BLK_DIS_DISCARDS_COUNT d 12 + crcWork s d u) (2 ^ 32 - 1) ∧
    t = { s with regs := t.regs, units := t.units, crc := t.crc, out := t.out } ∧
    KeepsRegs [BLK_DIS_CTRL_MODE, BLK_DIS_DISCARDS_COUNT, BLK_DIS_STATUS_ABORTED, BLK_DIS_STATUS_DRAINING,
      BLK_DIS_STATUS_IDLE] s t := by
  have hop : (silenced s).setDisMode d 12 true (some left) = crcCut (modeStored (silenced s) d 12 true) d u false :=
    cutDrains_crc (modeStored (silenced s) d 12 true) d (some left) false (fun _ => true) h rfl hone
  have htouch : Touches (BLK_DIS_CTRL_MODE :: cutFlds false) (silenced s) (crcCut (modeStored (silenced s) d 12 true) d u false) :=
    ((Touches.refl _ _).wrb (by simp) ..).trans ((touches_crcCut _ d u false).mono fun _ hf => List.mem_cons_of_mem _ hf)
  refine completes_dieOp (BLK_DIS_CTRL_MODE :: cutFlds false) (fun t => t.setDisMode d 12 true (some left)) hd hop htouch
    fun t ht => ⟨?_, ?_, ?_, ?_, ht.keeps⟩
  · rw [ht.crcSt, crcCut_crcSt]
    rfl
  · rw [ht.rd _ _ _ (by decide), rd_crcCut, rd_drainEnded_aborted]
  · rw [ht.rd _ _ _ (by decide), rd_crcCut, rd_drainEnded, modeStored, State.wrb, rd_wr_other _ (by decide)]
    rfl
  · rw [ht.rest, crcCut_rest]
    rfl

end

/-! ### The limit (R98) -/

/-- The limit is stored, 0 as 1. -/
def limitStored (s : State) (d b limit : Nat) : State := s.wr BLK_DIS_CTRL_LIMIT (disInst d b) (max 1 limit) b

/-- A drain is as old as the limit. -/
def overdue (limit now : Nat) (x : UnitSt) : Bool := decide (x.since + max 1 limit ≤ now)

theorem setDisLimit_eq (s : State) (d b limit now : Nat) (given : Option Nat) :
    s.setDisLimit d b limit now given = (limitStored s d b limit).cutDrains d b given true (overdue limit now) := rfl

section
variable (s : State) (d : Fin 8)

theorem rd_limitStored (b : Fin 26) (l : Fin 65536) :
    (limitStored s d b l).rd BLK_DIS_CTRL_LIMIT (disInst d b) b = max 1 (l : Nat) := by
  rw [limitStored, rd_wr_same]
  refine Nat.mod_eq_of_lt ?_
  change max 1 (l : Nat) < 65536
  omega

theorem disLimitWrite_completes (b : Fin 26) (l : Fin 65536) (now left : Nat) (hd : (d : Nat) < s.part.dies) :
    Completes (.disLimitWrite d b l now left) s fun t =>
      t.rd BLK_DIS_CTRL_LIMIT (disInst d b) b = max 1 (l : Nat) ∧
      ((∀ e ∈ s.blockUnits (disInst d b) b, e.2.draining = true → now < e.2.since + max 1 (l : Nat)) →
        OnlyRegs [BLK_DIS_CTRL_LIMIT] s t) := by
  have hpart : ((silenced s).setDisLimit d b l now (some left)).part = s.part := by
    rw [setDisLimit_eq, cutDrains_part]
    rfl
  refine completes_runDie s hd (f := fun t => t.setDisLimit d b l now (some left)) ⟨?_, fun hnone => ?_⟩
  · rw [rd_ran hpart (by decide), setDisLimit_eq, rd_cutDrains _ _ _ _ _ _ rfl (by decide), rd_limitStored]
  · have hdrains : drains (limitStored (silenced s) d b l) d b (overdue l now) = [] :=
      drains_nil fun e he hdr => decide_eq_false (Nat.not_le.mpr (hnone e he hdr))
    refine onlyRegs_ran ?_
    rw [setDisLimit_eq, cutDrains_eq, hdrains]
    exact (WritesOnly.refl _ _).wr (.of_mem (by simp) _) _ _

theorem disLimitWrite_crc (u : Nat) (l : Fin 65536) (now left : Nat) (hd : (d : Nat) < s.part.dies)
    (h : (s.unit d 12 u).draining = true) (hold : (s.unit d 12 u).since + max 1 (l : Nat) ≤ now)
    (hone : ∀ v, v ≠ u → (s.unit d 12 v).draining = false) : Completes (.disLimitWrite d 12 l now left) s fun t =>
      (t.unit d 12 u).draining = false ∧ t.crcSt d u = crcDropped (s.crcSt d u) ∧
      t.rd BLK_DIS_STATUS_DRAIN_TIMEOUT d 12 = 1 ∧
      t.rd BLK_DIS_TIMEOUTS_COUNT d 12 = min (s.rd BLK_DIS_TIMEOUTS_COUNT d 12 + 1) (2 ^ 32 - 1) ∧
      t = { s with regs := t.regs, units := t.units, crc := t.crc, out := t.out } := by
  have hop : (silenced s).setDisLimit d 12 l now (some left) = crcCut (limitStored (silenced s) d 12 l) d u true :=
    cutDrains_crc (limitStored (silenced s) d 12 l) d (some left) true (overdue l now) h (decide_eq_true hold) hone
  have htouch : Touches (BLK_DIS_CTRL_LIMIT :: cutFlds true) (silenced s) (crcCut (limitStored (silenced s) d 12 l) d u true) :=
    ((Touches.refl _ _).wr (by simp) ..).trans ((touches_crcCut _ d u true).mono fun _ hf => List.mem_cons_of_mem _ hf)
  refine completes_dieOp (BLK_DIS_CTRL_LIMIT :: cutFlds true) (fun t => t.setDisLimit d 12 l now (some left)) hd hop htouch
    fun t ht => ⟨?_, ?_, ?_, ?_, ?_⟩
  · rw [ht.unit, crcCut_unit]
    rfl
  · rw [ht.crcSt, crcCut_crcSt]
    rfl
  · rw [ht.rd _ _ _ (by decide), rd_crcCut, rd_drainEnded_timeout]
  · rw [ht.rd _ _ _ (by decide), rd_crcCut, rd_drainEnded_timeouts, limitStored, rd_wr_other _ (by decide)]
    rfl
  · rw [ht.rest, crcCut_rest]
    rfl

end

/-- Settles O29, command by command. -/
theorem disableRule : Obligations.DisableRule := by
  refine ⟨fun s d u work now hd hu => ⟨enableClearDrain_completes s d u work now hd hu, enableClearAbort_completes s d u work hd hu⟩,
    drainIdle_completes, drainTimeout_completes, disModeWrite_completes, disModeWrite_crc, disLimitWrite_completes,
    disLimitWrite_crc⟩

end Sys2Proof.Laws
end

section
/-! SUPPORT. PROOFS. Numbers in fields: signed values, steps towards a target, and the fields of a number that is written in
parts. -/
namespace Sys2Proof.Laws
open Sys2Proof Sys2Proof.Machine

/-! ### Signed values -/

theorem toSigned_mod (w n : Nat) : toSigned w (n % 2 ^ w) = toSigned w n := by
  simp only [toSigned, Nat.mod_mod]

/-- Two's complement gives a number in range back. -/
theorem toSigned_ofSigned {w : Nat} (hw : 0 < w) {v : Int} (hlo : -((2 ^ (w - 1) : Nat) : Int) ≤ v)
    (hhi : v < ((2 ^ (w - 1) : Nat) : Int)) : toSigned w (ofSigned w v) = v := by
  have hpow : 2 ^ w = 2 * 2 ^ (w - 1) := by rw [← Nat.pow_succ', Nat.succ_eq_add_one, Nat.sub_add_cancel hw]
  simp only [toSigned, ofSigned, hpow]
  generalize 2 ^ (w - 1) = m at hlo hhi
  have hmod : v % ((2 * m : Nat) : Int) = if v < 0 then v + 2 * m else v := by
    split
    · rw [← Int.add_emod_right, Int.emod_eq_of_lt] <;> omega
    · exact Int.emod_eq_of_lt (by omega) (by omega)
  rw [hmod]
  split
  · rw [Nat.mod_eq_of_lt (by omega)]
    split <;> omega
  · rw [Nat.mod_eq_of_lt (by omega)]
    split <;> omega

theorem toSigned_bounds {w : Nat} (hw : 0 < w) (n : Nat) :
    -((2 ^ (w - 1) : Nat) : Int) ≤ toSigned w n ∧ toSigned w n < ((2 ^ (w - 1) : Nat) : Int) := by
  have hpow : 2 ^ w = 2 * 2 ^ (w - 1) := by rw [← Nat.pow_succ', Nat.succ_eq_add_one, Nat.sub_add_cancel hw]
  have hlt : n % 2 ^ w < 2 ^ w := Nat.mod_lt _ (Nat.two_pow_pos w)
  rw [toSigned]
  generalize n % 2 ^ w = x at *
  rw [hpow] at *
  generalize 2 ^ (w - 1) = m at *
  split <;> omega

theorem clampInt_bounds {lo hi : Int} (h : lo ≤ hi) (v : Int) : lo ≤ clampInt lo hi v ∧ clampInt lo hi v ≤ hi := by
  unfold clampInt
  split
  · omega
  · split <;> omega

/-- A step stays between where it starts and its target. -/
theorem slewStep_bounds {lo hi a b : Int} (ha : lo ≤ a ∧ a < hi) (hb : lo ≤ b ∧ b < hi) :
    lo ≤ slewStep a b ∧ slewStep a b < hi := by
  unfold slewStep
  split
  · omega
  · split <;> omega

theorem slewStep_eq_self {a b : Int} : slewStep a b = a ↔ a = b := by
  unfold slewStep
  split
  · omega
  · split <;> omega

section
variable {s t : State} {f : Fld}

theorem rdS_of_rd {d k e j : Nat} (h : t.rd f d k = s.rd f e j) : t.rdS f d k = s.rdS f e j := by
  rw [State.rdS, State.rdS, h]

theorem rdS_wrS (hw : 0 < f.w) {v : Int} (hlo : -((2 ^ (f.w - 1) : Nat) : Int) ≤ v) (hhi : v < ((2 ^ (f.w - 1) : Nat) : Int))
    (d k : Nat) : (s.wrS f d v k).rdS f d k = v := by
  rw [State.rdS, State.wrS, rd_wr_same, toSigned_mod, toSigned_ofSigned hw hlo hhi]

/-- A bounded store is read as the nearest value of the field (R12). -/
theorem rdS_wrSat (hw : 0 < f.w) (d : Nat) (v : Int) (k : Nat) : (s.wrSat f d v k).rdS f d k =
    clampInt (-((2 ^ (f.w - 1) : Nat) : Int)) (((2 ^ (f.w - 1) : Nat) : Int) - 1) v := by
  have hpos : 0 < 2 ^ (f.w - 1) := Nat.two_pow_pos _
  obtain ⟨hlo, hhi⟩ := clampInt_bounds (lo := -((2 ^ (f.w - 1) : Nat) : Int)) (hi := ((2 ^ (f.w - 1) : Nat) : Int) - 1)
    (by omega) v
  exact rdS_wrS hw hlo (by omega) d k

theorem rdS_bounds (hw : 0 < f.w) (d k : Nat) :
    -((2 ^ (f.w - 1) : Nat) : Int) ≤ s.rdS f d k ∧ s.rdS f d k < ((2 ^ (f.w - 1) : Nat) : Int) := toSigned_bounds hw _

theorem flag_of_rd_ne {d k : Nat} (h : s.rd f d k ≠ 0) : s.flag f d k = true := by
  simp [State.flag, h]

end

/-! ### Fields of a number -/

/-- A number with a field replaced, in its three parts. -/
theorem setBitsAt_parts (n lo w v : Nat) :
    setBitsAt n lo w v = n % 2 ^ lo + 2 ^ lo * (v % 2 ^ w + 2 ^ w * (n / 2 ^ lo / 2 ^ w)) := by
  have hlow := Nat.div_add_mod n (2 ^ lo)
  have hmid := Nat.div_add_mod (n / 2 ^ lo) (2 ^ w)
  rw [setBitsAt, bitsAt, Nat.shiftRight_eq_div_pow]
  generalize n / 2 ^ lo / 2 ^ w = hi at *
  generalize n / 2 ^ lo % 2 ^ w = mid at *
  have hn : n = 2 ^ lo * (2 ^ w * hi) + mid * 2 ^ lo + n % 2 ^ lo := by
    rw [Nat.mul_comm mid, ← Nat.mul_add, hmid, hlow]
  rw [Nat.mul_add, Nat.mul_comm (v % 2 ^ w)]
  omega

theorem bitsAt_setBitsAt_whole (n lo w v : Nat) : bitsAt (setBitsAt n lo w v) lo w = v % 2 ^ w := by
  have hpos : 0 < 2 ^ lo := Nat.two_pow_pos lo
  rw [setBitsAt_parts, bitsAt, Nat.shiftRight_eq_div_pow, Nat.add_mul_div_left _ _ hpos, Nat.div_eq_of_lt (Nat.mod_lt _ hpos),
    Nat.zero_add, Nat.add_mul_mod_self_left, Nat.mod_mod]

theorem bitsAt_mod {lo w m : Nat} (h : lo + w ≤ m) (n : Nat) : bitsAt (n % 2 ^ m) lo w = bitsAt n lo w := by
  obtain ⟨j, rfl⟩ := Nat.exists_eq_add_of_le (show lo ≤ m by omega)
  rw [bitsAt, bitsAt, Nat.shiftRight_eq_div_pow, Nat.shiftRight_eq_div_pow, Nat.pow_add, Nat.mod_mul_right_div_self,
    Nat.mod_mod_of_dvd _ (Nat.pow_dvd_pow 2 (by omega))]

/-- A field leaves the fields above it and below it. -/
theorem bitsAt_setBitsAt_apart {lo w lo' w' : Nat} (h : lo' + w' ≤ lo ∨ lo + w ≤ lo') (n v : Nat) :
    bitsAt (setBitsAt n lo w v) lo' w' = bitsAt n lo' w' := by
  rw [setBitsAt_parts]
  rcases h with h | h
  · rw [← bitsAt_mod h, ← bitsAt_mod h n, Nat.add_mul_mod_self_left, Nat.mod_mod]
  · obtain ⟨j, rfl⟩ := Nat.exists_eq_add_of_le h
    have hpos : 0 < 2 ^ lo := Nat.two_pow_pos lo
    have hposw : 0 < 2 ^ w := Nat.two_pow_pos w
    simp only [bitsAt, Nat.shiftRight_eq_div_pow, Nat.pow_add, ← Nat.div_div_eq_div_mul]
    rw [Nat.add_mul_div_left _ _ hpos, Nat.div_eq_of_lt (Nat.mod_lt _ hpos), Nat.zero_add, Nat.add_mul_div_left _ _ hposw,
      Nat.div_eq_of_lt (Nat.mod_lt _ hposw), Nat.zero_add]

end Sys2Proof.Laws
end

section
/-! SUPPORT. PROOFS. Operations for every element of a list, and the switch of a die's coefficient sets. -/
namespace Sys2Proof.Laws
open Sys2Proof Sys2Proof.Machine

/-! ### Operations for every element of a list -/

/-- What only one element's operation acts on, it acts on once. -/
theorem forEach_acts_once {α β : Type} {f : State → α → State} {φ : State → β} {ψ : β → β} {I : State → Prop} {b : α}
    {xs : List α} (hI : ∀ u, ∀ x ∈ xs, I u → I (f u x)) (hother : ∀ u, ∀ x ∈ xs, x ≠ b → φ (f u x) = φ u)
    (hat : ∀ u, I u → φ (f u b) = ψ (φ u)) (hb : b ∈ xs) (hnd : xs.Nodup) {s : State} (hs : I s) :
    φ (s.forEach xs f) = ψ (φ s) := by
  induction xs generalizing s with
  | nil => cases hb
  | cons x xs ih =>
    obtain ⟨hx, hnd⟩ := List.nodup_cons.mp hnd
    change φ (State.forEach (f s x) xs f) = _
    rcases List.mem_cons.mp hb with rfl | hb
    · rw [forEach_keeps φ xs fun t y hy => hother t y (by simp [hy]) (ne_of_mem_of_not_mem hy hx)]
      exact hat s hs
    · rw [ih (fun u y hy => hI u y (by simp [hy])) (fun u y hy => hother u y (by simp [hy])) hb hnd (hI s x (by simp) hs),
        hother s x (by simp) (ne_of_mem_of_not_mem hb hx).symm]

/-- A fact that every element keeps. -/
theorem forEach_invariant {α : Type} {f : State → α → State} {P : State → Prop} (xs : List α)
    (h : ∀ t, ∀ x ∈ xs, P t → P (f t x)) {s : State} (hs : P s) : P (s.forEach xs f) := by
  induction xs generalizing s with
  | nil => exact hs
  | cons x xs ih => exact ih (fun t y hy => h t y (by simp [hy])) (h s x (by simp) hs)

theorem Touches.ite {fs : List Fld} {s t u : State} {c : Prop} [Decidable c] (ht : Touches fs s t) (hu : Touches fs s u) :
    Touches fs s (if c then t else u) := by
  split
  · exact ht
  · exact hu

/-! ### Words of a coefficient set (R109, R111) -/

section
variable (s : State) (d : Nat)

theorem coefKey_inj {d e a b i j : Nat} : coefKey d a i = coefKey e b j ↔ d = e ∧ a = b ∧ i = j := by
  simp [coefKey]

theorem coefRd_coefWr_same (a w v : Nat) : (s.coefWr d a w v).coefRd d a w = v := get_set_same ..

theorem coefRd_coefWr_other {a w b j : Nat} (h : ¬ (b = a ∧ j = w)) (v : Nat) :
    (s.coefWr d a w v).coefRd d b j = s.coefRd d b j :=
  get_set_other _ _ _ (fun k => h (coefKey_inj.mp k).2) _

theorem coefRd_congr {s t : State} (h : t.coef = s.coef) (d a w : Nat) : t.coefRd d a w = s.coefRd d a w := by
  rw [State.coefRd, State.coefRd, h]

theorem inactiveSet_congr {s t : State} {d : Nat} (h : t.rd CNV_COEF_CTRL_ACTIVE_SET d = s.rd CNV_COEF_CTRL_ACTIVE_SET d) :
    t.inactiveSet d = s.inactiveSet d := by
  rw [State.inactiveSet, State.inactiveSet, State.activeSet, State.activeSet, h]

theorem inactiveSet_lt : s.inactiveSet d < 2 := by
  unfold State.inactiveSet
  omega

/-! ### The switch (R112, R113) -/

/-- The fields of a coefficient switch. -/
def swapFlds : List Fld :=
  [CNV_COEF_CTRL_ACTIVE_SET, CNV_COEF_CTRL_SWITCH_PENDING, CNV_COEF_CTRL_OWNER, CNV_EVENT_CLAMP]

theorem touches_clampSet (a : Nat) : Touches swapFlds s (s.clampSet d a) :=
  (Touches.refl _ s).forEach _ fun u e _ =>
    .ite (((Touches.refl swapFlds u).regs (u := u.coefWr d a e.1.idx (clampWord e.1.idx e.2).1) rfl rfl).raise
      (by decide) ..) (.refl _ u)

theorem clampSet_rest (a : Nat) :
    s.clampSet d a = { s with regs := (s.clampSet d a).regs, coef := (s.clampSet d a).coef } := by
  refine forEach_invariant (P := fun u => u = { s with regs := u.regs, coef := u.coef }) _ (fun u e _ hu => ?_) rfl
  rw [hu]
  dsimp only
  split <;> rfl

theorem copySet_rest (a b : Nat) : s.copySet d a b = { s with coef := (s.copySet d a b).coef } :=
  forEach_invariant (P := fun u => u = { s with coef := u.coef }) _ (fun u e _ hu => by rw [hu]; rfl) rfl

theorem touches_copySet (fs : List Fld) (a b : Nat) : Touches fs s (s.copySet d a b) := by
  rw [copySet_rest]
  exact .of_regs rfl rfl

/-- The sets have swapped, clamped and copied back, and no switch is pending. -/
def setsSwapped (s : State) (d : Nat) : State :=
  let u := (s.clampSet d (s.inactiveSet d)).wr CNV_COEF_CTRL_ACTIVE_SET d (s.inactiveSet d)
  (if u.flag CNV_COEF_CTRL_COPY_BACK d then u.copySet d (s.inactiveSet d) (1 - s.inactiveSet d) else u).wr
    CNV_COEF_CTRL_SWITCH_PENDING d 0

/-- An owner applies that was named while the switch was pending. -/
def ownerTaken (s : State) (d : Nat) : State :=
  match (s.cnvSt d).ownerNext with
  | some o => (s.wrb CNV_COEF_CTRL_OWNER d o).modCnv d fun x => { x with ownerNext := none }
  | none => s

theorem swapSets_eq : s.swapSets d = ownerTaken (setsSwapped s d) d := rfl

theorem setsSwapped_rest :
    setsSwapped s d = { s with regs := (setsSwapped s d).regs, coef := (setsSwapped s d).coef } := by
  unfold setsSwapped
  dsimp only
  split
  · rw [copySet_rest, clampSet_rest]
    rfl
  · rw [clampSet_rest]
    rfl

theorem touches_setsSwapped : Touches swapFlds s (setsSwapped s d) := by
  have hset : Touches swapFlds s ((s.clampSet d (s.inactiveSet d)).wr CNV_COEF_CTRL_ACTIVE_SET d (s.inactiveSet d)) :=
    (touches_clampSet s d _).wr (by decide) ..
  exact (Touches.ite (hset.trans (touches_copySet ..)) hset).wr (by decide) ..

theorem touches_ownerTaken : Touches swapFlds s (ownerTaken s d) := by
  unfold ownerTaken
  split
  · exact ((Touches.refl _ s).wrb (by decide) ..).regs (modCnv_regs ..) (modCnv_part ..)
  · exact .refl _ s

theorem ownerTaken_rest : ownerTaken s d = { s with regs := (ownerTaken s d).regs, cnv := (ownerTaken s d).cnv } := by
  unfold ownerTaken
  split <;> rfl

theorem touches_swapSets : Touches swapFlds s (s.swapSets d) := (touches_setsSwapped s d).trans (touches_ownerTaken _ d)

theorem swapSets_rest : s.swapSets d =
    { s with regs := (s.swapSets d).regs, coef := (s.swapSets d).coef, cnv := (s.swapSets d).cnv } := by
  rw [swapSets_eq, ownerTaken_rest, setsSwapped_rest]

theorem setsSwapped_cnvSt : (setsSwapped s d).cnvSt d = s.cnvSt d := by
  rw [setsSwapped_rest]
  rfl

theorem ownerTaken_cnvSt : (ownerTaken s d).cnvSt d = { s.cnvSt d with ownerNext := none } := by
  unfold ownerTaken
  split
  · exact modCnv_cnvSt ..
  · next h => rw [← h]

theorem rd_ownerTaken {g : Fld} (hg : place g ≠ place CNV_COEF_CTRL_OWNER) (e j : Nat) :
    (ownerTaken s d).rd g e j = s.rd g e j := by
  unfold ownerTaken
  split
  · exact rd_wrb_other s hg ..
  · rfl

theorem swapSets_cnvSt : (s.swapSets d).cnvSt d = { s.cnvSt d with ownerNext := none } := by
  rw [swapSets_eq, ownerTaken_cnvSt, setsSwapped_cnvSt]

theorem swapSets_activeSet : (s.swapSets d).activeSet d = s.inactiveSet d := by
  have hlt := inactiveSet_lt s d
  have hcopy : ∀ u : State, u.rd CNV_COEF_CTRL_ACTIVE_SET d = s.inactiveSet d →
      (if u.flag CNV_COEF_CTRL_COPY_BACK d then u.copySet d (s.inactiveSet d) (1 - s.inactiveSet d) else u).rd
        CNV_COEF_CTRL_ACTIVE_SET d = s.inactiveSet d := fun u hu => by
    split
    · rw [copySet_rest]
      exact hu
    · exact hu
  rw [State.activeSet, swapSets_eq, rd_ownerTaken _ _ (by decide), setsSwapped]
  refine (rd_wr_other _ (by decide) ..).trans (hcopy _ ((rd_wr_same ..).trans (Nat.mod_eq_of_lt hlt)))

theorem rd_swapSets_pending : (s.swapSets d).rd CNV_COEF_CTRL_SWITCH_PENDING d = 0 := by
  rw [swapSets_eq, rd_ownerTaken _ _ (by decide)]
  exact rd_wr_same ..

theorem rd_swapSets_owner {o : Bool} (h : (s.cnvSt d).ownerNext = some o) : (s.swapSets d).rd CNV_COEF_CTRL_OWNER d = b2n o := by
  rw [← setsSwapped_cnvSt] at h
  rw [swapSets_eq, ownerTaken, h]
  exact rd_wrb_same _ _ _ _ _ rfl

end
end Sys2Proof.Laws
end

section
/-! SUPPORT. PROOFS. Converters: writes of path skews, coefficient words and delays, and the switch (O44). -/
namespace Sys2Proof.Laws
open Sys2Proof Sys2Proof.Machine

/-! ### What a command of a die shows -/

section
variable {fs : List Fld} {s t u : State} {f : State → State} {d : Nat}

theorem Shows.onlyRegs (h : Shows fs s t u) (ht : t = { s with regs := t.regs, out := t.out }) : OnlyRegs fs s u :=
  ⟨by rw [h.rest, ht], h.keeps⟩

theorem Shows.cnvSt (h : Shows fs s t u) (d : Nat) : u.cnvSt d = t.cnvSt d := by
  rw [h.rest]
  rfl

/-- A write that is refused leaves everything but the access's answer. -/
theorem completes_refused (hd : d < s.part.dies) (hop : f (silenced s) = (silenced s).refuseAccess) :
    ∃ u, runDie s d f = .next u ∧ (u.bus.last.code = 2 ∧
      u = { s with regs := u.regs, bus := u.bus, out := u.out } ∧ KeepsRegs [] s u) :=
  completes_dieOp [] f hd hop (.of_regs rfl rfl) fun u hu => by
    refine ⟨?_, ?_, hu.keeps⟩
    · rw [hu.rest]
      rfl
    · rw [hu.rest]
      rfl

end

/-! ### The synthesiser (R106) -/

/-- A die notes the switch to die 1's synthesiser. -/
def synthNoted (s : State) (d : Nat) : State :=
  if s.flag CNV_STATUS_SOURCE d then (s.raise CNV_EVENT_SCLK_SWITCH d).raise CNV_STATUS_SYNTH_STANDBY d else s

section
variable (s : State)

theorem rd_synthNoted_inst {d e : Nat} (h : e ≠ d) (g : Fld) : (synthNoted s d).rd g e = s.rd g e := by
  unfold synthNoted
  split
  · rw [rd_raise_inst _ _ _ h, rd_raise_inst _ _ _ h]
  · rfl

theorem rd_synthNoted {d : Nat} (hsrc : s.rd CNV_STATUS_SOURCE d ≠ 0) :
    (synthNoted s d).rd CNV_EVENT_SCLK_SWITCH d = 1 ∧ (synthNoted s d).rd CNV_STATUS_SYNTH_STANDBY d = 1 := by
  rw [synthNoted, if_pos (flag_of_rd_ne hsrc)]
  exact ⟨(rd_raise_other _ (by decide) ..).trans (rd_raise_one _ rfl _), rd_raise_one _ rfl _⟩

theorem touches_synthNoted (d : Nat) : Touches [CNV_EVENT_SCLK_SWITCH, CNV_STATUS_SYNTH_STANDBY] s (synthNoted s d) :=
  .ite (((Touches.refl _ s).raise (by decide) ..).raise (by decide) ..) (.refl _ s)

theorem synthNoted_rest (d : Nat) : synthNoted s d = { s with regs := (synthNoted s d).regs } := by
  unfold synthNoted
  split <;> rfl

theorem synthSwitch_notes : Completes .synthSwitch s fun t => (∀ e, e < s.part.dies → s.rd CNV_STATUS_SOURCE e ≠ 0 →
    t.rd CNV_EVENT_SCLK_SWITCH e = 1 ∧ t.rd CNV_STATUS_SYNTH_STANDBY e = 1) ∧
    OnlyRegs [CNV_EVENT_SCLK_SWITCH, CNV_STATUS_SYNTH_STANDBY] s t := by
  refine completes_op [CNV_EVENT_SCLK_SWITCH, CNV_STATUS_SYNTH_STANDBY] (fun u => u.forEach u.dieList synthNoted) rfl
    ((Touches.refl _ _).forEach _ fun u e _ => touches_synthNoted u e) fun t ht => ⟨fun e he hsrc => ?_, ?_⟩
  · have hmem : e ∈ (silenced s).dieList := List.mem_range.mpr he
    have hI : ∀ (u : State) (x : Nat), u.rd CNV_STATUS_SOURCE e ≠ 0 → (synthNoted u x).rd CNV_STATUS_SOURCE e ≠ 0 :=
      fun u x hu => by rwa [(touches_synthNoted u x).rd _ _ _ (by decide)]
    rw [ht.rd _ _ _ (by decide), ht.rd _ _ _ (by decide)]
    exact ⟨forEach_sets_while (b := e) (φ := fun u => u.rd CNV_EVENT_SCLK_SWITCH e) hI (fun u x hx => rd_synthNoted_inst u hx.symm _) (fun u hu => (rd_synthNoted u hu).1)
      hmem hsrc, forEach_sets_while (b := e) (φ := fun u => u.rd CNV_STATUS_SYNTH_STANDBY e) hI (fun u x hx => rd_synthNoted_inst u hx.symm _)
      (fun u hu => (rd_synthNoted u hu).2) hmem hsrc⟩
  · refine ht.onlyRegs (forEach_invariant (P := fun u => u = { s with regs := u.regs, out := u.out }) _ (fun u e _ hu => ?_) rfl)
    rw [synthNoted_rest, hu]

end

theorem refreshSlew_cnvSt (s : State) (d e : Nat) : (s.refreshSlew d).cnvSt e = s.cnvSt e := rfl

/-! ### Path skews (R110) -/

section
variable (s : State) (d w : Nat)

theorem wrRxSkew_rd : (s.wrRxSkew d w).rd CNV_RX_PATH_SKEW_YQ d = bitsAt w 24 8 ∧
    (s.wrRxSkew d w).rd CNV_RX_PATH_SKEW_YI d = bitsAt w 16 8 ∧ (s.wrRxSkew d w).rd CNV_RX_PATH_SKEW_XQ d = bitsAt w 8 8 ∧
    (s.wrRxSkew d w).rd CNV_RX_PATH_SKEW_XI d = bitsAt w 0 8 := by
  simp (disch := decide) only [State.wrRxSkew, rd_wr_same, rd_wr_other, bitsAt, Nat.shiftRight_eq_div_pow, Nat.div_one,
    Nat.pow_zero]
  exact ⟨rfl, rfl, rfl, rfl⟩

theorem wrTxSkew_rd : (s.wrTxSkew d w).rd CNV_TX_PATH_SKEW_YQ d = bitsAt w 24 8 ∧
    (s.wrTxSkew d w).rd CNV_TX_PATH_SKEW_YI d = bitsAt w 16 8 ∧ (s.wrTxSkew d w).rd CNV_TX_PATH_SKEW_XQ d = bitsAt w 8 8 ∧
    (s.wrTxSkew d w).rd CNV_TX_PATH_SKEW_XI d = bitsAt w 0 8 := by
  simp (disch := decide) only [State.wrTxSkew, rd_wr_same, rd_wr_other, bitsAt, Nat.shiftRight_eq_div_pow, Nat.div_one,
    Nat.pow_zero]
  exact ⟨rfl, rfl, rfl, rfl⟩

/-- The fields of the receive and of the transmit path skews. -/
def rxSkewFlds : List Fld := [CNV_RX_PATH_SKEW_YQ, CNV_RX_PATH_SKEW_YI, CNV_RX_PATH_SKEW_XQ, CNV_RX_PATH_SKEW_XI]
def txSkewFlds : List Fld := [CNV_TX_PATH_SKEW_YQ, CNV_TX_PATH_SKEW_YI, CNV_TX_PATH_SKEW_XQ, CNV_TX_PATH_SKEW_XI]

theorem touches_wrRxSkew : Touches rxSkewFlds s (s.wrRxSkew d w) :=
  ((((Touches.refl _ s).wr (by decide) ..).wr (by decide) ..).wr (by decide) ..).wr (by decide) ..

theorem touches_wrTxSkew : Touches txSkewFlds s (s.wrTxSkew d w) :=
  ((((Touches.refl _ s).wr (by decide) ..).wr (by decide) ..).wr (by decide) ..).wr (by decide) ..

end

section
variable {s : State} {d : Fin 8} (hd : (d : Nat) < s.part.dies) (w : Word)
include hd

theorem pathSkewWrite_rx_stored (hoff : s.adcOn d = false) : Completes (.pathSkewWrite d false w) s fun t =>
    t.rd CNV_RX_PATH_SKEW_YQ d = bitsAt w.toNat 24 8 ∧ t.rd CNV_RX_PATH_SKEW_YI d = bitsAt w.toNat 16 8 ∧
    t.rd CNV_RX_PATH_SKEW_XQ d = bitsAt w.toNat 8 8 ∧ t.rd CNV_RX_PATH_SKEW_XI d = bitsAt w.toNat 0 8 ∧
    t.bus.last.code = 0 ∧ t = { s with regs := t.regs, bus := t.bus, out := t.out } ∧ KeepsRegs rxSkewFlds s t := by
  refine completes_dieOp rxSkewFlds _ hd (if_neg (ne_true_of_eq_false hoff)) ((touches_wrRxSkew _ _ _).respond ..)
    fun t ht => ?_
  obtain ⟨hyq, hyi, hxq, hxi⟩ := wrRxSkew_rd (silenced s) d w.toNat
  refine ⟨(ht.rd _ _ _ (by decide)).trans hyq, (ht.rd _ _ _ (by decide)).trans hyi, (ht.rd _ _ _ (by decide)).trans hxq,
    (ht.rd _ _ _ (by decide)).trans hxi, ?_, ?_, ht.keeps⟩
  · rw [ht.rest]
    rfl
  · rw [ht.rest]
    rfl

theorem pathSkewWrite_tx_stored (hoff : s.dacOn d = false) : Completes (.pathSkewWrite d true w) s fun t =>
    t.rd CNV_TX_PATH_SKEW_YQ d = bitsAt w.toNat 24 8 ∧ t.rd CNV_TX_PATH_SKEW_YI d = bitsAt w.toNat 16 8 ∧
    t.rd CNV_TX_PATH_SKEW_XQ d = bitsAt w.toNat 8 8 ∧ t.rd CNV_TX_PATH_SKEW_XI d = bitsAt w.toNat 0 8 ∧
    t.bus.last.code = 0 ∧ t = { s with regs := t.regs, bus := t.bus, out := t.out } ∧ KeepsRegs txSkewFlds s t := by
  refine completes_dieOp txSkewFlds _ hd (if_neg (ne_true_of_eq_false hoff)) ((touches_wrTxSkew _ _ _).respond ..)
    fun t ht => ?_
  obtain ⟨hyq, hyi, hxq, hxi⟩ := wrTxSkew_rd (silenced s) d w.toNat
  refine ⟨(ht.rd _ _ _ (by decide)).trans hyq, (ht.rd _ _ _ (by decide)).trans hyi, (ht.rd _ _ _ (by decide)).trans hxq,
    (ht.rd _ _ _ (by decide)).trans hxi, ?_, ?_, ht.keeps⟩
  · rw [ht.rest]
    rfl
  · rw [ht.rest]
    rfl

/-! ### Words of the coefficient window (R111) -/

section
variable (h : Bool) (i : Fin 668)

theorem coefWindowWrite_stored (hown : s.flag CNV_COEF_CTRL_OWNER d = h) (hpend : s.rd CNV_COEF_CTRL_SWITCH_PENDING d = 0) :
    Completes (.coefWindowWrite d h i w) s fun t =>
      t.coefRd d (s.inactiveSet d) i = (if (i : Nat) < 640 then w.toNat else w.toNat % 1024) ∧
      (∀ set j, ¬ (set = s.inactiveSet d ∧ j = (i : Nat)) → t.coefRd d set j = s.coefRd d set j) ∧ t.bus.last.code = 0 ∧
      t = { s with regs := t.regs, coef := t.coef, bus := t.bus, out := t.out } ∧ KeepsRegs [] s t := by
  have hfree : ((silenced s).flag CNV_COEF_CTRL_OWNER d != h || (silenced s).flag CNV_COEF_CTRL_SWITCH_PENDING d) = false := by
    rw [show (silenced s).flag CNV_COEF_CTRL_OWNER d = h from hown,
      show (silenced s).flag CNV_COEF_CTRL_SWITCH_PENDING d = false from flag_of_rd_zero hpend]
    simp
  refine completes_dieOp [] _ hd (if_neg (ne_true_of_eq_false hfree)) (.of_regs rfl rfl) fun t ht => ?_
  refine ⟨?_, fun set j hj => ?_, ?_, ?_, ht.keeps⟩
  · rw [ht.rest]
    exact coefRd_coefWr_same ..
  · rw [ht.rest]
    exact coefRd_coefWr_other (silenced s) d hj _
  · rw [ht.rest]
    rfl
  · rw [ht.rest]
    rfl

theorem coefWindowWrite_refused
    (hno : s.flag CNV_COEF_CTRL_OWNER d = !h ∨ s.rd CNV_COEF_CTRL_SWITCH_PENDING d ≠ 0) :
    Completes (.coefWindowWrite d h i w) s fun t => t.rd CNV_COEF_CTRL_WR_ERR d = 1 ∧ t.bus.last.code = 2 ∧
      t = { s with regs := t.regs, bus := t.bus, out := t.out } ∧ KeepsRegs [CNV_COEF_CTRL_WR_ERR] s t := by
  have hbad : ((silenced s).flag CNV_COEF_CTRL_OWNER d != h || (silenced s).flag CNV_COEF_CTRL_SWITCH_PENDING d) = true := by
    rcases hno with hown | hpend
    · rw [show (silenced s).flag CNV_COEF_CTRL_OWNER d = !h from hown]
      simp
    · rw [show (silenced s).flag CNV_COEF_CTRL_SWITCH_PENDING d = true from flag_of_rd_ne hpend, Bool.or_true]
  refine completes_dieOp [CNV_COEF_CTRL_WR_ERR] _ hd (if_pos hbad)
    (((Touches.refl _ _).raise (by decide) ..).respond ..) fun t ht => ⟨?_, ?_, ?_, ht.keeps⟩
  · rw [ht.rd _ _ _ (by decide)]
    exact rd_raise_one _ rfl _
  · rw [ht.rest]
    rfl
  · rw [ht.rest]
    rfl

end

/-! ### Requests for a switch, and the switch (R112, R113) -/

theorem coefSwitch_pends (c o : Bool) (hpend : s.rd CNV_COEF_CTRL_SWITCH_PENDING d = 0) :
    Completes (.coefSwitch d c o) s fun t =>
      t.rd CNV_COEF_CTRL_COPY_BACK d = b2n c ∧ t.rd CNV_COEF_CTRL_OWNER d = b2n o ∧ t.rd CNV_COEF_CTRL_SWITCH_PENDING d = 1 ∧
      OnlyRegs [CNV_COEF_CTRL_COPY_BACK, CNV_COEF_CTRL_OWNER, CNV_COEF_CTRL_SWITCH_PENDING] s t := by
  have hflag : ((silenced s).wrb CNV_COEF_CTRL_COPY_BACK d c).flag CNV_COEF_CTRL_SWITCH_PENDING d = false :=
    flag_of_rd_zero ((rd_wrb_other _ (by decide) ..).trans hpend)
  refine completes_dieOp [CNV_COEF_CTRL_COPY_BACK, CNV_COEF_CTRL_OWNER, CNV_COEF_CTRL_SWITCH_PENDING] _ hd
    (if_neg (ne_true_of_eq_false hflag))
    ((((Touches.refl _ _).wrb (by decide) ..).wrb (by decide) ..).wr (by decide) ..) fun t ht => ⟨?_, ?_, ?_, ht.onlyRegs rfl⟩
  · rw [ht.rd _ _ _ (by decide), rd_wr_other _ (by decide), rd_wrb_other _ (by decide), rd_wrb_same _ _ _ _ _ rfl]
  · rw [ht.rd _ _ _ (by decide), rd_wr_other _ (by decide), rd_wrb_same _ _ _ _ _ rfl]
  · rw [ht.rd _ _ _ (by decide), rd_wr_same]
    rfl

theorem coefSwitch_refused (c o : Bool) (hpend : s.rd CNV_COEF_CTRL_SWITCH_PENDING d ≠ 0) :
    Completes (.coefSwitch d c o) s fun t =>
      t.rd CNV_EVENT_SWITCH_ERR d = 1 ∧ t.cnvSt d = { s.cnvSt d with ownerNext := some o } ∧
      t = { s with regs := t.regs, cnv := t.cnv, out := t.out } ∧ KeepsRegs [CNV_COEF_CTRL_COPY_BACK, CNV_EVENT_SWITCH_ERR] s t := by
  have hflag : ((silenced s).wrb CNV_COEF_CTRL_COPY_BACK d c).flag CNV_COEF_CTRL_SWITCH_PENDING d = true :=
    flag_of_rd_ne (by rwa [rd_wrb_other _ (by decide)])
  refine completes_dieOp [CNV_COEF_CTRL_COPY_BACK, CNV_EVENT_SWITCH_ERR] _ hd (if_pos hflag)
    ((((Touches.refl _ _).wrb (by decide) ..).raise (by decide) ..).regs (modCnv_regs ..) (modCnv_part ..))
    fun t ht => ⟨?_, ?_, ?_, ht.keeps⟩
  · rw [ht.rd _ _ _ (by decide), modCnv_rd]
    exact rd_raise_one _ rfl _
  · rw [ht.cnvSt, modCnv_cnvSt]
    rfl
  · rw [ht.rest]
    rfl

theorem coefSwap_swaps (hpend : s.rd CNV_COEF_CTRL_SWITCH_PENDING d ≠ 0) (hlock : s.rd CNV_STATUS_SCLK_LOCK d ≠ 0)
    (hsave : (s.cnvSt d).saveDue = false) (hres : (s.cnvSt d).restoring = false) (hdue : (s.cnvSt d).restoreDue = false) :
    Completes (.coefSwap d) s fun t =>
      t.activeSet d = s.inactiveSet d ∧ t.rd CNV_COEF_CTRL_SWITCH_PENDING d = 0 ∧
      (∀ o, (s.cnvSt d).ownerNext = some o → t.rd CNV_COEF_CTRL_OWNER d = b2n o) ∧ (t.cnvSt d).ownerNext = none ∧
      t = { s with regs := t.regs, coef := t.coef, cnv := t.cnv, out := t.out } ∧ KeepsRegs swapFlds s t := by
  have hend : (silenced s).endSwitch d = (silenced s).swapSets d := by
    have hcnv := swapSets_cnvSt (silenced s) d
    have hres' : (((silenced s).swapSets d).cnvSt d).restoring = false := by rw [hcnv]; exact hres
    have hsave' : (((silenced s).swapSets d).cnvSt d).saveDue = false := by rw [hcnv]; exact hsave
    have hdue' : (((silenced s).swapSets d).cnvSt d).restoreDue = false := by rw [hcnv]; exact hdue
    simp only [State.endSwitch, hres', hsave', hdue', Bool.false_eq_true, if_false]
  have hop : (if (silenced s).flag CNV_COEF_CTRL_SWITCH_PENDING d && (silenced s).flag CNV_STATUS_SCLK_LOCK d then
      (silenced s).endSwitch d else silenced s) = (silenced s).swapSets d := by
    rw [show (silenced s).flag CNV_COEF_CTRL_SWITCH_PENDING d = true from flag_of_rd_ne hpend,
      show (silenced s).flag CNV_STATUS_SCLK_LOCK d = true from flag_of_rd_ne hlock]
    exact hend
  refine completes_dieOp swapFlds _ hd hop (touches_swapSets _ _) fun t ht => ⟨?_, ?_, fun o ho => ?_, ?_, ?_, ht.keeps⟩
  · rw [State.activeSet, ht.rd _ _ _ (by decide)]
    exact swapSets_activeSet (silenced s) d
  · rw [ht.rd _ _ _ (by decide)]
    exact rd_swapSets_pending ..
  · rw [ht.rd _ _ _ (by decide)]
    exact rd_swapSets_owner _ _ ho
  · rw [ht.cnvSt, swapSets_cnvSt]
  · rw [ht.rest, swapSets_rest]
    rfl

theorem coefSwap_waits (hlock : s.rd CNV_STATUS_SCLK_LOCK d = 0) : Completes (.coefSwap d) s (OnlyRegs [] s) :=
  completes_runDie s hd (onlyRegs_ran_of_fixed (if_neg (by
    rw [show (silenced s).flag CNV_STATUS_SCLK_LOCK d = false from flag_of_rd_zero hlock, Bool.and_false]
    exact Bool.false_ne_true)))

/-! ### Delays (R121) -/

theorem delayWrite_stored (n : Fin 128) (f : Fin 1024)
    (hok : s.isActive d = false ∨ s.rd CNV_RX_DELAY_WHOLE d = (n : Nat)) : Completes (.delayWrite d false n f) s fun t =>
      t.rd CNV_RX_DELAY_WHOLE d = (n : Nat) ∧ t.rd CNV_RX_DELAY_FINE d = (f : Nat) ∧ t.bus.last.code = 0 ∧
      t = { s with regs := t.regs, bus := t.bus, out := t.out } ∧
      KeepsRegs [CNV_RX_DELAY_WHOLE, CNV_RX_DELAY_FINE, CNV_STATUS_FINE_SLEWING] s t := by
  have hfree : ((silenced s).isActive d && (silenced s).rd CNV_RX_DELAY_WHOLE d != (n : Nat)) = false := by
    rcases hok with hoff | hsame
    · rw [show (silenced s).isActive d = false from hoff, Bool.false_and]
    · rw [show (silenced s).rd CNV_RX_DELAY_WHOLE d = (n : Nat) from hsame]
      simp
  refine completes_dieOp [CNV_RX_DELAY_WHOLE, CNV_RX_DELAY_FINE, CNV_STATUS_FINE_SLEWING] _ hd
    (if_neg (ne_true_of_eq_false hfree))
    (((((Touches.refl _ _).wr (by decide) ..).wr (by decide) ..).wrb (by decide) ..).respond ..)
    fun t ht => ⟨?_, ?_, ?_, ?_, ht.keeps⟩
  · rw [ht.rd _ _ _ (by decide)]
    refine (rd_wrb_other _ (by decide) ..).trans ((rd_wr_other _ (by decide) ..).trans ((rd_wr_same ..).trans ?_))
    exact Nat.mod_eq_of_lt n.isLt
  · rw [ht.rd _ _ _ (by decide)]
    exact (rd_wrb_other _ (by decide) ..).trans ((rd_wr_same ..).trans (Nat.mod_eq_of_lt f.isLt))
  · rw [ht.rest]
    rfl
  · rw [ht.rest]
    rfl

theorem delayWrite_refused (n : Fin 128) (f : Fin 1024) (hact : s.isActive d = true)
    (hne : s.rd CNV_RX_DELAY_WHOLE d ≠ (n : Nat)) : Completes (.delayWrite d false n f) s fun t =>
      t.bus.last.code = 2 ∧ t = { s with regs := t.regs, bus := t.bus, out := t.out } ∧ KeepsRegs [] s t :=
  completes_refused hd (if_pos (by
    rw [show (silenced s).isActive d = true from hact, Bool.true_and]
    exact bne_iff_ne.mpr hne))

theorem fineSlewStep_moves : Completes (.fineSlewStep d) s fun t =>
    t.cnvSt d = { s.cnvSt d with
      fineRx := slewStep (s.cnvSt d).fineRx (s.rdS CNV_RX_DELAY_FINE d)
      fineTx := slewStep (s.cnvSt d).fineTx (s.rdS CNV_TX_DELAY_FINE d) } ∧
    t = { s with regs := t.regs, cnv := t.cnv, out := t.out } ∧ KeepsRegs [CNV_STATUS_FINE_SLEWING] s t := by
  refine completes_dieOp [CNV_STATUS_FINE_SLEWING] _ hd rfl
    (((Touches.refl _ _).regs (modCnv_regs ..) (modCnv_part ..)).wrb (by decide) ..) fun t ht => ⟨?_, ?_, ht.keeps⟩
  · rw [ht.cnvSt, refreshSlew_cnvSt, modCnv_cnvSt]
    rfl
  · rw [ht.rest]
    rfl

end
end Sys2Proof.Laws
end

section
/-! SUPPORT. PROOFS. The seam loops of the converters (O44). -/
namespace Sys2Proof.Laws
open Sys2Proof Sys2Proof.Machine

/-! ### Which registers the receive arms and the seam loops touch -/

/-- The registers of receive arms that resume. -/
def armFlds : List Fld :=
  [RXD_SC_STATUS_STATE, RXD_SC_STATUS_EXPRESS, FEC_SC_STATUS_RX_SYNC, RXD_FREQ_STATUS_OFFSET, RXD_FREQ_STATUS_FROM_LEAD]

/-- The registers of a trim of a receive delay. -/
def trimFlds : List Fld := [CNV_RX_DELAY_FINE, CNV_RX_DELAY_WHOLE, CAL_EVENT_TRIM_LIMIT, CNV_STATUS_FINE_SLEWING]

/-- The registers of the estimate shown at a seam. -/
def showFlds : List Fld :=
  [CAL_SEAM_LO_VALID, CAL_SEAM_LO_TAU, CAL_SEAM_LO_RHO, CAL_SEAM_HI_VALID, CAL_SEAM_HI_TAU, CAL_SEAM_HI_RHO,
    CAL_STATUS_REJOIN_OK_LO, CAL_STATUS_REJOIN_OK_HI]

/-- The registers of a seam loop. -/
def loopFlds : List Fld := [CAL_STATUS_SEAM_LO_STATE, CAL_STATUS_SEAM_HI_STATE] ++ trimFlds

section
variable (s : State) (d : Nat)

theorem touches_modRx {fs : List Fld} (i : Nat) (f : RxArm → RxArm) : Touches fs s (s.modRx d i f) := .of_regs rfl rfl

theorem touches_modCnv {fs : List Fld} (f : CnvSt → CnvSt) : Touches fs s (s.modCnv d f) := .of_regs rfl rfl

theorem touches_setRxState (i v : Nat) : Touches armFlds s (s.setRxState d i v) := by
  have hwr : Touches armFlds s (s.wr RXD_SC_STATUS_STATE d v i) := (Touches.refl _ s).wr (by decide) ..
  have hmark := Touches.ite (c := ((s.rxState d i == 3) != (v == 3)) = true)
    (hwr.trans (touches_modRx _ d i fun a => { a with mixed := true })) hwr
  exact .ite (hmark.trans (touches_modRx ..)) hmark

theorem touches_takeFreq : Touches armFlds s (s.takeFreq d) :=
  .ite ((Touches.refl _ s).wrb (by decide) ..)
    (((Touches.of_regs (modRxDie_regs ..) (modRxDie_part ..)).wr (by decide) ..).wrb (by decide) ..)

theorem touches_seekCd (i : Nat) : Touches armFlds s (s.seekCd d i) := by
  unfold State.seekCd
  dsimp only
  split <;> exact touches_modRx ..

theorem touches_startArm (i : Nat) : Touches armFlds s (s.startArm d i) := by
  have hst : Touches armFlds s (((s.wrb RXD_SC_STATUS_EXPRESS d (s.scExpress d i) i).setRxState d i 1).loseSync d i) :=
    (((Touches.refl _ s).wrb (by decide) ..).trans (touches_setRxState ..)).wr (by decide) ..
  exact .ite (.refl _ s) (.ite (((hst.trans (touches_modRx ..)).trans (touches_takeFreq ..)).trans (touches_seekCd ..))
    (hst.trans (touches_modRx ..)))

theorem touches_wakeArm (i : Nat) : Touches armFlds s (s.wakeArm d i) :=
  .ite (.refl _ s) (((touches_setRxState s d i 6).wr (by decide) ..).trans (touches_modRx ..))

theorem touches_rxResume : Touches armFlds s (s.rxResume d) :=
  (Touches.refl _ s).forEach _ fun u _ _ => .ite (touches_startArm ..) (.ite (.ite (touches_wakeArm ..)
    ((touches_setRxState ..).trans (touches_seekCd ..))) (.refl _ u))

theorem touches_resumeArms : Touches armFlds s (s.resumeArms d) :=
  .ite ((touches_modCnv ..).trans (touches_rxResume ..)) (.refl _ s)

/-! ### Trims (R121, R123) -/

theorem touches_trimFine {fs : List Fld} {f : Fld} (hf : f ∈ fs) (hlim : CAL_EVENT_TRIM_LIMIT ∈ fs)
    (hslew : CNV_STATUS_FINE_SLEWING ∈ fs) (v : Int) : Touches fs s (s.trimFine f d v) := by
  have hwr : Touches fs s (s.wrSat f d v) := (Touches.refl _ s).wr hf ..
  exact (Touches.ite ((hwr.raise hlim ..).emit _) hwr).wrb hslew ..

theorem trimFine_rest (f : Fld) (v : Int) :
    s.trimFine f d v = { s with regs := (s.trimFine f d v).regs, out := (s.trimFine f d v).out } := by
  unfold State.trimFine
  dsimp only
  split <;> rfl

/-- A trim stops at its range. -/
theorem rdS_trimFine {f : Fld} (hw : f.w = 10) (hlim : place f ≠ place CAL_EVENT_TRIM_LIMIT)
    (hslew : place f ≠ place CNV_STATUS_FINE_SLEWING) (v : Int) : (s.trimFine f d v).rdS f d = clampInt (-512) 511 v := by
  have hsat : (s.wrSat f d v).rdS f d = clampInt (-512) 511 v := by
    rw [rdS_wrSat (by omega), hw]
    rfl
  refine (rdS_of_rd ?_).trans hsat
  refine (rd_wrb_other _ hslew ..).trans ?_
  split
  · rw [emit_rd, rd_raise_other _ hlim]
  · rfl

theorem touches_splitDelay (ps : ℚ) : Touches loopFlds s (s.splitDelay d ps) :=
  ((Touches.refl loopFlds s).wr (by decide) ..).trans (touches_trimFine _ _ (by decide) (by decide) (by decide) _)

/-! ### The loop of a seam (R123, R124) -/

theorem touches_setLoop (st : Nat) : Touches loopFlds s (s.setLoop d st) := by
  have hlo : Touches loopFlds s (s.wr CAL_STATUS_SEAM_LO_STATE d st) := (Touches.refl _ s).wr (by decide) ..
  exact .ite hlo (hlo.wr (by decide) ..)

theorem touches_startAcquire : Touches loopFlds s (s.startAcquire d) :=
  .ite ((touches_setLoop ..).trans (touches_modCnv ..)) (.refl _ s)

theorem touches_acquire (mover : Nat) (tau : ℚ) : Touches loopFlds s (s.acquire d mover tau) :=
  .ite ((((touches_modCnv ..).trans (touches_splitDelay ..)).trans (touches_setLoop ..)).trans (touches_modCnv ..))
    (touches_modCnv ..)

theorem touches_moveSegment (tau : ℚ) : Touches loopFlds s (s.moveSegment d tau) := by
  unfold State.moveSegment
  dsimp only
  split
  · exact .refl _ s
  · split
    · exact ((Touches.refl _ s).raise (by decide) ..).regs rfl rfl
    · exact (Touches.refl _ s).forEach _ fun u e _ => touches_trimFine _ _ (by decide) (by decide) (by decide) _

theorem touches_leaveHold : Touches loopFlds s (s.leaveHold d) := .ite (touches_setLoop ..) (.refl _ s)

theorem touches_seamLoop (tau : ℚ) : Touches loopFlds s (s.seamLoop d tau) :=
  .ite (.refl _ s) <| .ite (touches_setLoop ..) <|
    .ite (.ite (.ite (touches_moveSegment ..) (.refl _ s)) (touches_acquire ..)) <| .ite (.refl _ s) <|
    (touches_leaveHold s d).trans <| .ite (touches_acquire ..) <|
      .ite (touches_trimFine _ _ (by decide) (by decide) (by decide) _) (.refl _ _)

theorem touches_seamAlarm (tau : ℚ) : Touches (CAL_EVENT_SKEW_ALARM :: armFlds) s (s.seamAlarm d tau) :=
  .ite (.ite ((touches_modCnv ..).raise (by decide) ..) (touches_modCnv ..)) (touches_modCnv ..)

/-- The alarm of a seam, and the arms that waited for its acquisition (R123, R162). -/
theorem touches_seamTail (tau : ℚ) :
    Touches (CAL_EVENT_SKEW_ALARM :: armFlds) s ((s.seamAlarm d tau).resumeArms d) :=
  (touches_seamAlarm s d tau).trans ((touches_resumeArms ..).mono fun _ hf => List.mem_cons_of_mem _ hf)

/-- The loop of a seam that tracks trims the receive delay (R123). -/
theorem seamLoop_tracks (tau : ℚ) (hen : s.rd CAL_CTRL_SEAM_EN d ≠ 0) (hhold : s.rd CAL_SEAM_CTRL_HOLD d = 0)
    (hlow : s.lowerActive d = true) (htrack : s.rd CAL_STATUS_SEAM_LO_STATE d = 2) :
    s.seamLoop d tau = s.trimFine CNV_RX_DELAY_FINE d (s.rdS CNV_RX_DELAY_FINE d + s.trackStep d tau) := by
  have hmember : s.memberState (d - 1) = 2 := by
    have h := (Bool.and_eq_true_iff.mp hlow).2
    exact beq_iff_eq.mp h
  have hstays : s.leaveHold d = s := if_neg (by omega)
  simp [State.seamLoop, flag_of_rd_ne hen, flag_of_rd_zero hhold, hlow, hmember, hstays, htrack]

theorem lowerActive_congr {s t : State} (hmap : t.rd PKG_TEAM_MAP_SIZE pkg = s.rd PKG_TEAM_MAP_SIZE pkg)
    (hmem : t.rd PKG_MEMBER_STATUS_STATE pkg = s.rd PKG_MEMBER_STATUS_STATE pkg) (d : Nat) :
    t.lowerActive d = s.lowerActive d := by
  simp only [State.lowerActive, State.teamPos, State.teamBase, State.teamSize, State.isActive, State.memberState, hmap, hmem]

theorem trackStep_congr {s t : State} {d : Nat} (hstep : t.rd CAL_SEAM_CTRL_STEP d = s.rd CAL_SEAM_CTRL_STEP d)
    (hgain : t.rd CAL_SEAM_CTRL_GAIN_SHIFT d = s.rd CAL_SEAM_CTRL_GAIN_SHIFT d) (tau : ℚ) :
    t.trackStep d tau = s.trackStep d tau := by
  simp only [State.trackStep, hstep, hgain]

/-! ### The estimate shown (R122, R124) -/

/-- An estimate as both dies of a seam show it. -/
def seamShown (s : State) (d : Nat) (valid : Bool) (tau rho : ℚ) : State :=
  let t := Arith.round tau
  let r := (clampInt 0 255 (Arith.round (rho * 255))).toNat
  ((((((s.wrb CAL_SEAM_LO_VALID d valid).wrSat CAL_SEAM_LO_TAU d t).wr CAL_SEAM_LO_RHO d r).wrb CAL_SEAM_HI_VALID (d - 1)
    valid).wrSat CAL_SEAM_HI_TAU (d - 1) t).wr CAL_SEAM_HI_RHO (d - 1) r)

variable (valid : Bool) (tau rho : ℚ)

theorem writesOnly_seamShown {fs : List Fld} (h : ∀ f ∈ showFlds.take 6, f ∈ fs) :
    WritesOnly (AtFields fs) s (seamShown s d valid tau rho) :=
  (((((WritesOnly.refl (AtFields fs) s |>.wr (.of_mem (h _ (by decide)) d) _ 0).wr (.of_mem (h _ (by decide)) d) _ 0).wr
    (.of_mem (h _ (by decide)) d) _ 0).wr (.of_mem (h _ (by decide)) (d - 1)) _ 0).wr (.of_mem (h _ (by decide)) (d - 1)) _
    0).wr (.of_mem (h _ (by decide)) (d - 1)) _ 0

theorem touches_seamShown : Touches (showFlds.take 6) s (seamShown s d valid tau rho) :=
  .of_writesOnly (writesOnly_seamShown _ _ _ _ _ fun _ h => h)

theorem rd_seamShown_valid : (seamShown s d valid tau rho).rd CAL_SEAM_LO_VALID d = b2n valid ∧
    (seamShown s d valid tau rho).rd CAL_SEAM_HI_VALID (d - 1) = b2n valid := by
  constructor
  · simp (disch := decide) only [seamShown, State.wrSat, State.wrS, rd_wr_other, rd_wrb_other]
    exact rd_wrb_same _ _ _ _ _ rfl
  · simp (disch := decide) only [seamShown, State.wrSat, State.wrS, rd_wr_other]
    exact rd_wrb_same _ _ _ _ _ rfl

theorem rdS_seamShown_tau :
    (seamShown s d valid tau rho).rdS CAL_SEAM_LO_TAU d = clampInt (-32768) 32767 (Arith.round tau) ∧
    (seamShown s d valid tau rho).rdS CAL_SEAM_HI_TAU (d - 1) = clampInt (-32768) 32767 (Arith.round tau) := by
  constructor
  · refine (rdS_of_rd ?_).trans (rdS_wrSat (s := s.wrb CAL_SEAM_LO_VALID d valid) (by decide) d _ 0)
    exact (rd_wr_other _ (by decide) ..).trans ((rd_wr_other _ (by decide) ..).trans
      ((rd_wrb_other _ (by decide) ..).trans (rd_wr_other _ (by decide) ..)))
  · exact (rdS_of_rd (rd_wr_other _ (by decide) ..)).trans (rdS_wrSat (by decide) _ _ 0)

theorem touches_showSeam_valid :
    Touches [CAL_STATUS_REJOIN_OK_LO, CAL_STATUS_REJOIN_OK_HI] (seamShown s d true tau rho) (s.showSeam d true tau rho) :=
  ((touches_modCnv ..).wrb (by decide) ..).wrb (by decide) ..

theorem touches_showSeam : Touches showFlds s (s.showSeam d true tau rho) :=
  ((touches_seamShown s d true tau rho).mono (by decide)).trans ((touches_showSeam_valid ..).mono (by decide))

end

/-! ### The seam estimates and the reports of the far end -/

section
variable {s : State} {d : Fin 8} (hd : (d : Nat) < s.part.dies)
include hd

section
variable (tones : List (List (Cpx × Cpx)))

theorem seamSkewEstimate_alone (h : s.lowerPresent d = false) : Completes (.seamSkewEstimate d tones) s (OnlyRegs [] s) :=
  completes_runDie s hd (onlyRegs_ran_of_fixed (if_pos (by
    rw [show (silenced s).lowerPresent d = false from h]
    rfl)))

/-- The bound of a plausible estimate, in 0.01 ps (R122). -/
def plausible (s : State) (d : Nat) : Nat :=
  if s.rd CAL_STATUS_SEAM_LO_STATE d = 1 then 25000 else 50 * s.rd CAL_LIMITS_1_SEAM_PLAUS d

/-- What SEAM_SKEW_ESTIMATE does with an estimate. -/
def takesEstimate (s : State) (d : Nat) (e : ℚ × ℚ) : State :=
  if !s.lowerPresent d then s
  else
    let valid := decide (1 / 2 ≤ e.2) && decide (|e.1| ≤ plausible s d)
    let u := s.showSeam d valid e.1 e.2
    if valid then ((u.seamLoop d e.1).seamAlarm d e.1).resumeArms d
    else (u.count CAL_REJECTS_COUNT d).raise CAL_EVENT_REJECT d

/-- An estimate that is not plausible is shown as invalid, and counted. -/
def estimateRejected (s : State) (d : Nat) (e : ℚ × ℚ) : State :=
  ((seamShown s d false e.1 e.2).count CAL_REJECTS_COUNT d).raise CAL_EVENT_REJECT d

/-- The registers of an estimate that is not plausible. -/
def rejectFlds : List Fld :=
  [CAL_SEAM_LO_VALID, CAL_SEAM_LO_TAU, CAL_SEAM_LO_RHO, CAL_SEAM_HI_VALID, CAL_SEAM_HI_TAU, CAL_SEAM_HI_RHO,
    CAL_REJECTS_COUNT, CAL_EVENT_REJECT]

omit hd in
theorem writesOnly_estimateRejected (s : State) (d : Nat) (e : ℚ × ℚ) :
    WritesOnly (AtFields rejectFlds) s (estimateRejected s d e) :=
  ((writesOnly_seamShown _ _ _ _ _ (by decide)).wr (.of_mem (by decide) d) _ 0).wr (.of_mem (by decide) d) _ 0

omit hd in
theorem takesEstimate_rejects {s : State} {d : Nat} {e : ℚ × ℚ} (hlow : s.lowerPresent d = true)
    (hbad : e.2 < 1 / 2 ∨ (plausible s d : ℚ) < |e.1|) :
    takesEstimate s d e = estimateRejected s d e := by
  have hvalid : (decide (1 / 2 ≤ e.2) && decide (|e.1| ≤ plausible s d)) = false := by
    rcases hbad with h | h
    · rw [decide_eq_false (not_le.mpr h), Bool.false_and]
    · rw [decide_eq_false (not_le.mpr h), Bool.and_false]
  simp only [takesEstimate, hlow, hvalid]
  rfl

omit hd in
theorem takesEstimate_takes {s : State} {d : Nat} {e : ℚ × ℚ} (hlow : s.lowerPresent d = true) (hrho : 1 / 2 ≤ e.2)
    (htau : |e.1| ≤ (plausible s d : ℚ)) :
    takesEstimate s d e = (((s.showSeam d true e.1 e.2).seamLoop d e.1).seamAlarm d e.1).resumeArms d := by
  have hvalid : (decide (1 / 2 ≤ e.2) && decide (|e.1| ≤ plausible s d)) = true := by
    rw [decide_eq_true hrho, decide_eq_true htau, Bool.true_and]
  simp only [takesEstimate, hlow, hvalid]
  rfl

theorem seamSkewEstimate_rejects (hlow : s.lowerPresent d = true)
    (hbad : (seamEstimate tones).2 < 1 / 2 ∨ (plausible s d : ℚ) < |(seamEstimate tones).1|) :
    Completes (.seamSkewEstimate d tones) s fun t =>
      t.rd CAL_SEAM_LO_VALID d = 0 ∧ t.rd CAL_SEAM_HI_VALID (d - 1) = 0 ∧
      t.rdS CAL_SEAM_LO_TAU d = clampInt (-32768) 32767 (Arith.round (seamEstimate tones).1) ∧ t.rd CAL_EVENT_REJECT d = 1 ∧
      t.rd CAL_REJECTS_COUNT d = min (s.rd CAL_REJECTS_COUNT d + 1) (2 ^ 32 - 1) ∧
      OnlyRegs rejectFlds s t := by
  have hwrites := writesOnly_estimateRejected (silenced s) d (seamEstimate tones)
  obtain ⟨hlo, hhi⟩ := rd_seamShown_valid (silenced s) d false (seamEstimate tones).1 (seamEstimate tones).2
  obtain ⟨htau, -⟩ := rdS_seamShown_tau (silenced s) d false (seamEstimate tones).1 (seamEstimate tones).2
  refine completes_dieOp _ (fun u => takesEstimate u d (seamEstimate tones)) hd (takesEstimate_rejects (s := silenced s) hlow hbad)
    (.of_writesOnly hwrites) fun t ht => 
      ⟨?_, ?_, (rdS_of_rd ?_).trans htau, ?_, ?_, ht.onlyRegs (hwrites.rest ▸ rfl)⟩
  · rw [ht.rd _ _ _ (by decide), estimateRejected, rd_raise_other _ (by decide), rd_count_other _ (by decide), hlo]
    rfl
  · rw [ht.rd _ _ _ (by decide), estimateRejected, rd_raise_other _ (by decide), rd_count_other _ (by decide), hhi]
    rfl
  · rw [ht.rd _ _ _ (by decide), estimateRejected, rd_raise_other _ (by decide), rd_count_other _ (by decide)]
  · rw [ht.rd _ _ _ (by decide), estimateRejected, rd_raise_one _ rfl]
  · rw [ht.rd _ _ _ (by decide), estimateRejected, rd_raise_other _ (by decide), rd_count_same]
    refine congrArg (fun n => min (n + 1) _) ?_
    exact (touches_seamShown (silenced s) d false _ _).rd _ _ _ (by decide)

/-- A plausible estimate is shown, and a loop that tracks trims the delay. -/
theorem seamSkewEstimate_takes (hlow : s.lowerPresent d = true) (hrho : 1 / 2 ≤ (seamEstimate tones).2)
    (hplaus : |(seamEstimate tones).1| ≤ (plausible s d : ℚ)) :
    Completes (.seamSkewEstimate d tones) s fun t =>
      t.rd CAL_SEAM_LO_VALID d = 1 ∧ t.rdS CAL_SEAM_LO_TAU d = clampInt (-32768) 32767 (Arith.round (seamEstimate tones).1) ∧
      t.rd CAL_SEAM_HI_VALID (d - 1) = 1 ∧
      t.rdS CAL_SEAM_HI_TAU (d - 1) = clampInt (-32768) 32767 (Arith.round (seamEstimate tones).1) ∧
      (s.rd CAL_CTRL_SEAM_EN d ≠ 0 → s.rd CAL_SEAM_CTRL_HOLD d = 0 → s.lowerActive d = true →
        s.rd CAL_STATUS_SEAM_LO_STATE d = 2 →
        t.rdS CNV_RX_DELAY_FINE d =
          clampInt (-512) 511 (s.rdS CNV_RX_DELAY_FINE d + s.trackStep d (seamEstimate tones).1)) := by
  have hop := takesEstimate_takes (s := silenced s) hlow hrho hplaus
  generalize (seamEstimate tones).1 = tau at hop ⊢
  generalize (seamEstimate tones).2 = rho at hop
  have hshow := touches_showSeam (silenced s) d tau rho
  have hloop := touches_seamLoop ((silenced s).showSeam d true tau rho) d tau
  have htail := touches_seamTail (((silenced s).showSeam d true tau rho).seamLoop d tau) d tau
  have hkept (g : Fld) (e : Nat) (hg : place g ∉ showFlds.map place) :
      ((silenced s).showSeam d true tau rho).rd g e = s.rd g e := hshow.rd g e 0 hg
  have hshown (g : Fld) (e : Nat) (h1 : place g ∉ (CAL_EVENT_SKEW_ALARM :: armFlds).map place)
      (h2 : place g ∉ loopFlds.map place) (h3 : place g ∉ [CAL_STATUS_REJOIN_OK_LO, CAL_STATUS_REJOIN_OK_HI].map place) :
      ((((silenced s).showSeam d true tau rho).seamLoop d tau).seamAlarm d tau |>.resumeArms d).rd g e =
        (seamShown (silenced s) d true tau rho).rd g e :=
    (htail.rd g e 0 h1).trans ((hloop.rd g e 0 h2).trans ((touches_showSeam_valid (silenced s) d tau rho).rd g e 0 h3))
  obtain ⟨hlo, hhi⟩ := rd_seamShown_valid (silenced s) d true tau rho
  obtain ⟨hloTau, hhiTau⟩ := rdS_seamShown_tau (silenced s) d true tau rho
  refine completes_dieOp (showFlds ++ loopFlds ++ CAL_EVENT_SKEW_ALARM :: armFlds)
    (fun u => takesEstimate u d (seamEstimate tones)) hd hop
    (((hshow.mono (by decide)).trans (hloop.mono (by decide))).trans (htail.mono (by decide))) fun t ht =>
      ⟨?_, (rdS_of_rd ?_).trans hloTau, ?_, (rdS_of_rd ?_).trans hhiTau, fun hen hhold hact htrack => ?_⟩
  · rw [ht.rd _ _ _ (by decide), hshown _ _ (by decide) (by decide) (by decide), hlo]
    rfl
  · rw [ht.rd _ _ _ (by decide), hshown _ _ (by decide) (by decide) (by decide)]
  · rw [ht.rd _ _ _ (by decide), hshown _ _ (by decide) (by decide) (by decide), hhi]
    rfl
  · rw [ht.rd _ _ _ (by decide), hshown _ _ (by decide) (by decide) (by decide)]
  · have hfine : ((silenced s).showSeam d true tau rho).rdS CNV_RX_DELAY_FINE d = s.rdS CNV_RX_DELAY_FINE d :=
      rdS_of_rd (hkept _ _ (by decide))
    have hstep : ((silenced s).showSeam d true tau rho).trackStep d tau = s.trackStep d tau :=
      trackStep_congr (hkept _ _ (by decide)) (hkept _ _ (by decide)) tau
    have hlow' : ((silenced s).showSeam d true tau rho).lowerActive d = true :=
      (lowerActive_congr (hkept _ _ (by decide)) (hkept _ _ (by decide)) d).trans hact
    rw [← hfine, ← hstep, ← rdS_trimFine _ d (f := CNV_RX_DELAY_FINE) rfl (by decide) (by decide), ← seamLoop_tracks _ d tau
      (by rwa [hkept _ _ (by decide)]) (by rwa [hkept _ _ (by decide)]) hlow' (by rwa [hkept _ _ (by decide)])]
    exact rdS_of_rd ((ht.rd _ _ _ (by decide)).trans (htail.rd _ _ _ (by decide)))

end

/-! ### Reports of the far end (R125) -/

/-- The registers of a report of the far end. -/
def reportFlds : List Fld :=
  [CAL_TX_SEAM_LO_VALID, CAL_TX_SEAM_LO_TAU, CAL_EVENT_SKEW_ALARM, CNV_TX_DELAY_FINE, CAL_EVENT_TRIM_LIMIT,
    CNV_STATUS_FINE_SLEWING]

/-- A report of the far end is shown, and its multiframe noted. -/
def reportShown (s : State) (d : Nat) (tau : Int) : State :=
  ((s.wrb CAL_TX_SEAM_LO_VALID d true).wrSat CAL_TX_SEAM_LO_TAU d tau).modCnv d fun x => { x with txLast := some s.time.mf }

/-- A report counts towards the alarm, or ends the run. -/
def reportJudged (s : State) (d : Nat) (tau : Int) : State :=
  if tau.natAbs > 50 * s.rd CAL_SEAM_CTRL_TX_LIMIT d then
    let s := s.modCnv d fun x => { x with txRun := x.txRun + 1 }
    if (s.cnvSt d).txRun = 4 then s.raise CAL_EVENT_SKEW_ALARM d else s
  else s.modCnv d fun x => { x with txRun := 0 }

/-- The loop of the far end trims the transmit delay. -/
def reportTrims (s : State) (d : Nat) (tau : Int) : State :=
  if s.flag CAL_CTRL_TX_SEAM_EN d && s.lowerActive d && !s.flag CAL_SEAM_CTRL_HOLD d then
    s.trimFine CNV_TX_DELAY_FINE d (s.rdS CNV_TX_DELAY_FINE d + s.trackStep d tau)
  else s

section
omit hd
variable (s : State) (d : Nat) (tau : Int)

theorem txSeamReport_eq : s.txSeamReport d tau = reportTrims (reportJudged (reportShown s d tau) d tau) d tau := rfl

theorem touches_reportShown : Touches [CAL_TX_SEAM_LO_VALID, CAL_TX_SEAM_LO_TAU] s (reportShown s d tau) :=
  (((Touches.refl _ s).wrb (by decide) ..).wr (by decide) ..).trans (touches_modCnv ..)

theorem reportShown_rest :
    reportShown s d tau = { s with regs := (reportShown s d tau).regs, cnv := (reportShown s d tau).cnv } := rfl

theorem touches_reportJudged : Touches [CAL_EVENT_SKEW_ALARM] s (reportJudged s d tau) :=
  .ite (.ite ((touches_modCnv ..).raise (by decide) ..) (touches_modCnv ..)) (touches_modCnv ..)

theorem reportJudged_rest :
    reportJudged s d tau = { s with regs := (reportJudged s d tau).regs, cnv := (reportJudged s d tau).cnv } := by
  unfold reportJudged
  split
  · dsimp only
    split <;> rfl
  · rfl

theorem reportJudged_txLast : ((reportJudged s d tau).cnvSt d).txLast = (s.cnvSt d).txLast := by
  have hrun (f : CnvSt → CnvSt) (hf : ∀ x, (f x).txLast = x.txLast) : ((s.modCnv d f).cnvSt d).txLast = (s.cnvSt d).txLast := by
    rw [modCnv_cnvSt, hf]
  unfold reportJudged
  split
  · dsimp only
    split
    · exact hrun (fun x => { x with txRun := x.txRun + 1 }) fun _ => rfl
    · exact hrun _ fun _ => rfl
  · exact hrun _ fun _ => rfl

theorem touches_reportTrims :
    Touches [CNV_TX_DELAY_FINE, CAL_EVENT_TRIM_LIMIT, CNV_STATUS_FINE_SLEWING] s (reportTrims s d tau) :=
  .ite (touches_trimFine _ _ (by decide) (by decide) (by decide) _) (.refl _ s)

theorem reportTrims_rest :
    reportTrims s d tau = { s with regs := (reportTrims s d tau).regs, out := (reportTrims s d tau).out } := by
  unfold reportTrims
  split
  · exact trimFine_rest ..
  · rfl

theorem rdS_reportTrims : (reportTrims s d tau).rdS CNV_TX_DELAY_FINE d =
    if s.flag CAL_CTRL_TX_SEAM_EN d && s.lowerActive d && !s.flag CAL_SEAM_CTRL_HOLD d then
      clampInt (-512) 511 (s.rdS CNV_TX_DELAY_FINE d + s.trackStep d tau) else s.rdS CNV_TX_DELAY_FINE d := by
  unfold reportTrims
  split
  · exact rdS_trimFine _ d rfl (by decide) (by decide) _
  · rfl

theorem txSeamReport_rest : s.txSeamReport d tau =
    { s with regs := (s.txSeamReport d tau).regs, cnv := (s.txSeamReport d tau).cnv, out := (s.txSeamReport d tau).out } := by
  rw [txSeamReport_eq, reportTrims_rest, reportJudged_rest, reportShown_rest]

end

theorem txSeamReport_shown (tau : Int) : Completes (.txSeamReport d tau) s fun t =>
      t.rd CAL_TX_SEAM_LO_VALID d = 1 ∧ t.rdS CAL_TX_SEAM_LO_TAU d = clampInt (-32768) 32767 tau ∧
      (t.cnvSt d).txLast = some s.time.mf ∧
      t.rdS CNV_TX_DELAY_FINE d =
        (if s.flag CAL_CTRL_TX_SEAM_EN d && s.lowerActive d && !s.flag CAL_SEAM_CTRL_HOLD d then
          clampInt (-512) 511 (s.rdS CNV_TX_DELAY_FINE d + s.trackStep d tau) else s.rdS CNV_TX_DELAY_FINE d) ∧
      t = { s with regs := t.regs, cnv := t.cnv, out := t.out } ∧ KeepsRegs reportFlds s t := by
  have hshow := touches_reportShown (silenced s) d tau
  have hjudge := touches_reportJudged (reportShown (silenced s) d tau) d tau
  have htrim := touches_reportTrims (reportJudged (reportShown (silenced s) d tau) d tau) d tau
  have hkept (g : Fld) (e : Nat) (h1 : place g ∉ [CAL_EVENT_SKEW_ALARM].map place)
      (h2 : place g ∉ [CAL_TX_SEAM_LO_VALID, CAL_TX_SEAM_LO_TAU].map place) :
      (reportJudged (reportShown (silenced s) d tau) d tau).rd g e = s.rd g e :=
    (hjudge.rd g e 0 h1).trans (hshow.rd g e 0 h2)
  refine completes_dieOp reportFlds (fun u => u.txSeamReport d tau) hd (txSeamReport_eq ..)
    (((hshow.mono (by decide)).trans (hjudge.mono (by decide))).trans (htrim.mono (by decide))) fun t ht =>
      ⟨?_, ?_, ?_, ?_, ?_, ht.keeps⟩
  · rw [ht.rd _ _ _ (by decide), htrim.rd _ _ _ (by decide), hjudge.rd _ _ _ (by decide)]
    exact (rd_wr_other _ (by decide) ..).trans (rd_wrb_same _ _ _ _ _ rfl)
  · refine (rdS_of_rd ((ht.rd _ _ _ (by decide)).trans ((htrim.rd _ _ _ (by decide)).trans
      (hjudge.rd _ _ _ (by decide))))).trans ?_
    exact rdS_wrSat (s := (silenced s).wrb CAL_TX_SEAM_LO_VALID d true) (by decide) d tau 0
  · have hlast : ((reportShown (silenced s) d tau).cnvSt d).txLast = some s.time.mf := by
      rw [reportShown, modCnv_cnvSt]
      rfl
    rw [ht.cnvSt, reportTrims_rest]
    exact (reportJudged_txLast _ d tau).trans hlast
  · rw [rdS_of_rd (ht.rd _ _ _ (by decide)), rdS_reportTrims, State.flag, State.flag,
      lowerActive_congr (hkept _ _ (by decide) (by decide)) (hkept _ _ (by decide) (by decide)),
      trackStep_congr (hkept _ _ (by decide) (by decide)) (hkept _ _ (by decide) (by decide)),
      rdS_of_rd (hkept _ _ (by decide) (by decide)), hkept _ _ (by decide) (by decide), hkept _ _ (by decide) (by decide)]
    rfl
  · rw [ht.rest, ← txSeamReport_eq, txSeamReport_rest]
    rfl

end

/-- Settles O44, each command by what its operation leaves: the refusals leave the state, the switch swaps the sets word by
word, and a seam loop that tracks reaches the trim through a die above an active neighbour. -/
theorem converterSetsAndDelays : Obligations.ConverterSetsAndDelays := by
  refine ⟨synthSwitch_notes, fun s d hd => ⟨fun w => ⟨fun h => completes_refused hd (if_pos h),
      fun h => completes_refused hd (if_pos h), pathSkewWrite_rx_stored hd w, pathSkewWrite_tx_stored hd w⟩,
    fun h i w => ⟨coefWindowWrite_stored hd w h i, coefWindowWrite_refused hd w h i⟩,
    fun c o => ⟨coefSwitch_pends hd c o, coefSwitch_refused hd c o⟩, coefSwap_swaps hd, coefSwap_waits hd,
    fun n f => ⟨delayWrite_refused hd n f, delayWrite_stored hd n f⟩, fineSlewStep_moves hd,
    fun tones => ⟨seamSkewEstimate_alone hd tones, seamSkewEstimate_rejects hd tones, seamSkewEstimate_takes hd tones⟩,
    txSeamReport_shown hd⟩⟩

end Sys2Proof.Laws
end

section
/-! SUPPORT. PROOFS. Calibration: foreground passes and background estimates (O45). -/
namespace Sys2Proof.Laws
open Sys2Proof Sys2Proof.Machine

/-! ### A foreground pass starts (R116) -/

section
variable {s : State} {d : Fin 8} (hd : (d : Nat) < s.part.dies) (scope : Fin 4)
include hd

theorem fgStart_goesOn (hrun : s.rd CAL_STATUS_FG_STATE d = 1) :
    Completes (.fgStart d scope) s (OnlyRegs [CAL_CTRL_FG_SCOPE] s) :=
  completes_dieOp [CAL_CTRL_FG_SCOPE] _ hd (if_pos ((rd_wr_other (silenced s) (by decide) ..).trans hrun))
    ((Touches.refl _ _).wr (by decide) ..) fun _ ht => ht.onlyRegs rfl

theorem fgStart_refused (hidle : s.rd CAL_STATUS_FG_STATE d ≠ 1) (hon : s.adcOn d = true) :
    Completes (.fgStart d scope) s fun t =>
      t.rd CAL_STATUS_FG_STATE d = 4 ∧ OnlyRegs [CAL_CTRL_FG_SCOPE, CAL_STATUS_FG_STATE] s t := by
  have hon' : ((silenced s).wr CAL_CTRL_FG_SCOPE d scope).adcOn d = true := by
    rw [State.adcOn, State.flag, rd_wr_other _ (by decide)]
    exact hon
  refine completes_dieOp [CAL_CTRL_FG_SCOPE, CAL_STATUS_FG_STATE] _ hd
    ((if_neg (by rwa [rd_wr_other _ (by decide)])).trans (if_pos (by rw [hon', Bool.true_or])))
    (((Touches.refl _ _).wr (by decide) ..).wr (by decide) ..) fun t ht => ⟨?_, ht.onlyRegs rfl⟩
  rw [ht.rd _ _ _ (by decide), rd_wr_same]
  rfl

theorem fgStart_starts (hidle : s.rd CAL_STATUS_FG_STATE d ≠ 1) (hadc : s.adcOn d = false) (hdac : s.dacOn d = false) :
    Completes (.fgStart d scope) s fun t =>
      t.rd CAL_STATUS_FG_STATE d = 1 ∧ t.rd CNV_STATUS_FG_ACTIVE d = 1 ∧
      t.cnvSt d = { s.cnvSt d with fgScope := if (scope : Nat) = 3 then 0 else (scope : Nat), fgFailed := 0 } ∧
      t = { s with regs := t.regs, cnv := t.cnv, out := t.out } ∧
      KeepsRegs [CAL_CTRL_FG_SCOPE, CAL_STATUS_FG_STATE, CNV_STATUS_FG_ACTIVE] s t := by
  have hoff : (((silenced s).wr CAL_CTRL_FG_SCOPE d scope).adcOn d ||
      ((scope : Nat) == 2 && ((silenced s).wr CAL_CTRL_FG_SCOPE d scope).dacOn d)) = false := by
    rw [State.adcOn, State.dacOn, State.flag, State.flag, rd_wr_other _ (by decide), rd_wr_other _ (by decide)]
    rw [show ((silenced s).rd CNV_CTRL_ADC_EN d != 0) = false from hadc,
      show ((silenced s).rd CNV_CTRL_DAC_EN d != 0) = false from hdac, Bool.and_false, Bool.or_false]
  refine completes_dieOp [CAL_CTRL_FG_SCOPE, CAL_STATUS_FG_STATE, CNV_STATUS_FG_ACTIVE] _ hd
    ((if_neg (by rwa [rd_wr_other _ (by decide)])).trans (if_neg (ne_true_of_eq_false hoff)))
    (((((Touches.refl _ _).wr (by decide) ..).wr (by decide) ..).wr (by decide) ..).trans (touches_modCnv ..))
    fun t ht => ⟨?_, ?_, ?_, ?_, ht.keeps⟩
  · rw [ht.rd _ _ _ (by decide), modCnv_rd, rd_wr_other _ (by decide), rd_wr_same]
    rfl
  · rw [ht.rd _ _ _ (by decide), modCnv_rd, rd_wr_same]
    rfl
  · rw [ht.cnvSt, modCnv_cnvSt]
    rfl
  · rw [ht.rest]
    rfl

end

/-! ### A foreground pass ends (R116, R120) -/

/-- The words a good pass finds are in the inactive set. -/
def passStored (s : State) (d : Nat) (r : FgResult) : State :=
  s.forEach (r.words.filter fun e => passFinds (s.cnvSt d).fgScope e.1) fun t e =>
    t.coefWr d (s.inactiveSet d) e.1
      (passWord (s.cnvSt d).fgScope e.1 (t.coefRd d (s.inactiveSet d) e.1) e.2.toNat)

/-- A good pass of a scope writes its path skews and is done. -/
def passEnded (s : State) (d scope : Nat) (r : FgResult) : State :=
  let s := if scope = 2 then s.wrTxSkew d r.txSkew.toNat else s.wrRxSkew d r.rxSkew.toNat
  let s := s.modCnv d fun x => { x with lastFull := if x.fgScope = 2 then x.lastFull else x.fgScope == 1 }
  ((s.wr CAL_STATUS_FG_STATE d 2).wr CNV_STATUS_FG_ACTIVE d 0).raise CAL_EVENT_FG_DONE d

/-- The registers of a pass that is done. -/
def doneFlds : List Fld := rxSkewFlds ++ txSkewFlds ++ [CAL_STATUS_FG_STATE, CNV_STATUS_FG_ACTIVE, CAL_EVENT_FG_DONE]

section
variable (s : State) (d : Nat) (r : FgResult)

theorem passStored_rest : passStored s d r = { s with coef := (passStored s d r).coef } :=
  forEach_invariant (P := fun u => u = { s with coef := u.coef }) _ (fun u e _ hu => by rw [hu]; rfl) rfl

theorem passStored_other {j : Nat}
    (hj : ∀ e ∈ r.words, (e.1 : Nat) ≠ j ∨ passFinds (s.cnvSt d).fgScope j = false) :
    (passStored s d r).coefRd d (s.inactiveSet d) j = s.coefRd d (s.inactiveSet d) j := by
  refine forEach_keeps (fun u : State => u.coefRd d (s.inactiveSet d) j) _ (fun u e he => ?_) s
  obtain ⟨hmem, hfinds⟩ := List.mem_filter.mp he
  refine coefRd_coefWr_other u d (fun h => ?_) _
  rcases hj e hmem with hne | hno
  · exact hne h.2.symm
  · rw [h.2] at hno
    exact Bool.false_ne_true (hno.symm.trans hfinds)

theorem passStored_single {e : Fin 668 × Word} (hwords : r.words = [e]) (hfinds : passFinds (s.cnvSt d).fgScope e.1 = true) :
    (passStored s d r).coefRd d (s.inactiveSet d) e.1 =
      passWord (s.cnvSt d).fgScope e.1 (s.coefRd d (s.inactiveSet d) e.1) e.2.toNat := by
  rw [passStored, hwords, List.filter_cons_of_pos (by exact hfinds)]
  exact coefRd_coefWr_same ..

theorem fgPassEnd_good (hrun : s.rd CAL_STATUS_FG_STATE d = 1) (hgood : passInLimits s d (s.cnvSt d).fgScope r = true) :
    s.fgPassEnd d r = passEnded (if firmwareOwns s d then passStored s d r else s.raise CNV_COEF_CTRL_WR_ERR d) d
      (s.cnvSt d).fgScope r := by
  rw [State.fgPassEnd, if_neg (not_not_intro hrun), if_pos hgood]
  rfl

variable (scope : Nat)

theorem touches_passEnded : Touches doneFlds s (passEnded s d scope r) := by
  have hskew : Touches doneFlds s (if scope = 2 then s.wrTxSkew d r.txSkew.toNat else s.wrRxSkew d r.rxSkew.toNat) :=
    .ite ((touches_wrTxSkew ..).mono (by decide)) ((touches_wrRxSkew ..).mono (by decide))
  exact (((hskew.trans (touches_modCnv ..)).wr (by decide) ..).wr (by decide) ..).raise (by decide) ..

theorem passEnded_coef : (passEnded s d scope r).coef = s.coef := by
  unfold passEnded
  dsimp only
  split <;> rfl

theorem passEnded_dies : (passEnded s d scope r).dies = s.dies := by
  unfold passEnded
  dsimp only
  split <;> rfl

theorem rd_passEnded : (passEnded s d scope r).rd CAL_STATUS_FG_STATE d = 2 ∧
    (passEnded s d scope r).rd CAL_EVENT_FG_DONE d = 1 ∧ (passEnded s d scope r).rd CNV_STATUS_FG_ACTIVE d = 0 := by
  refine ⟨?_, rd_raise_one _ rfl _, ?_⟩
  · exact (rd_raise_other _ (by decide) ..).trans ((rd_wr_other _ (by decide) ..).trans (rd_wr_same ..))
  · exact (rd_raise_other _ (by decide) ..).trans (rd_wr_same ..)

/-- What a pass writes before it is done stays to its end. -/
theorem rd_passEnded_of_skew {g : Fld}
    (hg : place g ∉ [CAL_STATUS_FG_STATE, CNV_STATUS_FG_ACTIVE, CAL_EVENT_FG_DONE].map place) :
    (passEnded s d scope r).rd g d =
      (if scope = 2 then s.wrTxSkew d r.txSkew.toNat else s.wrRxSkew d r.rxSkew.toNat).rd g d :=
  (rd_wr_outside (by decide) hg ..).trans ((rd_wr_outside (by decide) hg ..).trans (rd_wr_outside (by decide) hg ..))

theorem rd_passEnded_adc (h : scope ≠ 2) : (passEnded s d scope r).rd CNV_RX_PATH_SKEW_XI d = bitsAt r.rxSkew.toNat 0 8 ∧
    (passEnded s d scope r).rd CNV_TX_PATH_SKEW_XI d = s.rd CNV_TX_PATH_SKEW_XI d := by
  rw [rd_passEnded_of_skew _ _ _ _ (by decide), rd_passEnded_of_skew _ _ _ _ (by decide), if_neg h]
  exact ⟨(wrRxSkew_rd s d _).2.2.2, (touches_wrRxSkew ..).rd _ _ _ (by decide)⟩

theorem rd_passEnded_dac (h : scope = 2) : (passEnded s d scope r).rd CNV_TX_PATH_SKEW_XI d = bitsAt r.txSkew.toNat 0 8 ∧
    (passEnded s d scope r).rd CNV_RX_PATH_SKEW_XI d = s.rd CNV_RX_PATH_SKEW_XI d := by
  rw [rd_passEnded_of_skew _ _ _ _ (by decide), rd_passEnded_of_skew _ _ _ _ (by decide), if_pos h]
  exact ⟨(wrTxSkew_rd s d _).2.2.2, (touches_wrTxSkew ..).rd _ _ _ (by decide)⟩

end

/-- A die whose registers of a start and whose record stay is starting up, or is not, as before. -/
theorem startingUp_congr {s t : State} {d : Nat} (hdies : t.dies = s.dies)
    (hst : t.rd BUP_STATUS_STATE d = s.rd BUP_STATUS_STATE d) : t.startingUp d = s.startingUp d := by
  rw [State.startingUp, State.startingUp, State.die, State.die, hdies, hst]

/-- What a pass that is done shows, by the scope it had. -/
def PassDone (s : State) (d scope : Nat) (r : FgResult) (t : State) : Prop :=
  t.rd CAL_STATUS_FG_STATE d = 2 ∧ t.rd CAL_EVENT_FG_DONE d = 1 ∧ t.rd CNV_STATUS_FG_ACTIVE d = 0 ∧
  (scope ≠ 2 → t.rd CNV_RX_PATH_SKEW_XI d = bitsAt r.rxSkew.toNat 0 8 ∧
    t.rd CNV_TX_PATH_SKEW_XI d = s.rd CNV_TX_PATH_SKEW_XI d) ∧
  (scope = 2 → t.rd CNV_TX_PATH_SKEW_XI d = bitsAt r.txSkew.toNat 0 8 ∧
    t.rd CNV_RX_PATH_SKEW_XI d = s.rd CNV_RX_PATH_SKEW_XI d)

theorem passDone_of_passEnded {s u t : State} {d scope : Nat} {r : FgResult} (hu : Touches [CNV_COEF_CTRL_WR_ERR] s u)
    (ht : ∀ g ∈ doneFlds, t.rd g d = (passEnded u d scope r).rd g d) : PassDone s d scope r t := by
  obtain ⟨hst, hdone, hact⟩ := rd_passEnded u d r scope
  refine ⟨?_, ?_, ?_, fun h => ?_, fun h => ?_⟩
  · rw [ht _ (by decide), hst]
  · rw [ht _ (by decide), hdone]
  · rw [ht _ (by decide), hact]
  · rw [ht _ (by decide), ht _ (by decide), ← hu.rd CNV_TX_PATH_SKEW_XI d 0 (by decide)]
    exact rd_passEnded_adc u d r scope h
  · rw [ht _ (by decide), ht _ (by decide), ← hu.rd CNV_RX_PATH_SKEW_XI d 0 (by decide)]
    exact rd_passEnded_dac u d r scope h

section
variable {s : State} {d : Nat} {r : FgResult} (hrun : s.rd CAL_STATUS_FG_STATE d = 1)
include hrun

theorem fgPassEnd_again (hbad : passInLimits s d (s.cnvSt d).fgScope r = false)
    (hretry : (s.cnvSt d).fgFailed + 1 ≤ s.rd CAL_CTRL_FG_RETRIES d) :
    s.foregroundEnd d r = s.modCnv d fun x => { x with fgFailed := (s.cnvSt d).fgFailed + 1 } := by
  have hpass : s.fgPassEnd d r = s.modCnv d fun x => { x with fgFailed := (s.cnvSt d).fgFailed + 1 } := by
    rw [State.fgPassEnd, if_neg (not_not_intro hrun), if_neg (ne_true_of_eq_false hbad)]
    exact if_pos hretry
  rw [State.foregroundEnd, if_neg (not_not_intro hrun), hpass]
  exact if_pos (by rw [modCnv_rd, hrun]; decide)

/-- The last failure of a pass, as the state shows it. -/
def passFailed (s : State) (d : Nat) : State :=
  ((((s.wr CAL_STATUS_FG_STATE d 3).wr CNV_STATUS_FG_ACTIVE d 0).raise CAL_EVENT_FG_FAIL d).raise CAL_EVENT_FG_DONE d).emit
    (.fault d (cnvFault 1 1))

theorem fgPassEnd_fails (hbad : passInLimits s d (s.cnvSt d).fgScope r = false)
    (hlast : s.rd CAL_CTRL_FG_RETRIES d < (s.cnvSt d).fgFailed + 1) : s.foregroundEnd d r = passFailed s d := by
  have hpass : s.fgPassEnd d r = passFailed s d := by
    rw [State.fgPassEnd, if_neg (not_not_intro hrun), if_neg (ne_true_of_eq_false hbad)]
    exact if_neg (by omega)
  have hst : (passFailed s d).rd CAL_STATUS_FG_STATE d = 3 :=
    (rd_raise_other _ (by decide) ..).trans ((rd_raise_other _ (by decide) ..).trans ((rd_wr_other _ (by decide) ..).trans
      (rd_wr_same ..)))
  rw [State.foregroundEnd, if_neg (not_not_intro hrun), hpass]
  exact if_pos (by rw [hst]; decide)

/-- A good pass outside a start, of a die whose set firmware may not write, asks for no switch. -/
theorem foregroundEnd_barred (hgood : passInLimits s d (s.cnvSt d).fgScope r = true) (howns : firmwareOwns s d = false)
    (hup : s.startingUp d = false) :
    s.foregroundEnd d r = passEnded (s.raise CNV_COEF_CTRL_WR_ERR d) d (s.cnvSt d).fgScope r := by
  have hpass : s.fgPassEnd d r = passEnded (s.raise CNV_COEF_CTRL_WR_ERR d) d (s.cnvSt d).fgScope r := by
    rw [fgPassEnd_good s d r hrun hgood, if_neg (ne_true_of_eq_false howns)]
  have hup' : (passEnded (s.raise CNV_COEF_CTRL_WR_ERR d) d (s.cnvSt d).fgScope r).startingUp d = false := by
    rw [startingUp_congr (passEnded_dies ..) ((touches_passEnded ..).rd _ _ _ (by decide)), ← hup]
    exact startingUp_congr rfl (rd_raise_other _ (by decide) ..)
  rw [State.foregroundEnd, if_neg (not_not_intro hrun), hpass]
  simp only [(rd_passEnded _ d r _).1, howns, hup', ne_eq, not_true_eq_false, if_false, if_true, Bool.false_and,
    Bool.false_eq_true, Bool.not_false]

/-- A good pass outside a start asks for a switch, which waits for the sampling reference. -/
theorem foregroundEnd_waits (hgood : passInLimits s d (s.cnvSt d).fgScope r = true) (howns : firmwareOwns s d = true)
    (hup : s.startingUp d = false) (hlock : s.rd CNV_STATUS_SCLK_LOCK d = 0) : s.foregroundEnd d r =
      (passEnded (passStored s d r) d (s.cnvSt d).fgScope r).wr CNV_COEF_CTRL_SWITCH_PENDING d 1 := by
  have hpass : s.fgPassEnd d r = passEnded (passStored s d r) d (s.cnvSt d).fgScope r := by
    rw [fgPassEnd_good s d r hrun hgood, if_pos howns]
  have hkept (g : Fld) (hg : place g ∉ (CNV_COEF_CTRL_SWITCH_PENDING :: doneFlds).map place) :
      ((passEnded (passStored s d r) d (s.cnvSt d).fgScope r).wr CNV_COEF_CTRL_SWITCH_PENDING d 1).rd g d = s.rd g d := by
    rw [rd_wr_outside (by decide) hg, (touches_passEnded ..).rd _ _ _ (fun h => hg (List.mem_cons_of_mem _ h)), passStored_rest]
    rfl
  have hup' : ((passEnded (passStored s d r) d (s.cnvSt d).fgScope r).wr CNV_COEF_CTRL_SWITCH_PENDING d 1).startingUp d =
      false := by
    rw [← hup]
    refine startingUp_congr ((passEnded_dies ..).trans ?_) (hkept _ (by decide))
    rw [passStored_rest]
  rw [State.foregroundEnd, if_neg (not_not_intro hrun), hpass]
  simp only [(rd_passEnded _ d r _).1, howns, hup', State.flag, hkept CNV_STATUS_SCLK_LOCK (by decide), hlock, ne_eq,
    not_true_eq_false, if_false, if_true, Bool.true_and, Bool.false_eq_true, Bool.not_false, bne_self_eq_false]

end

section
variable {s : State} {d : Fin 8} (hd : (d : Nat) < s.part.dies) {r : FgResult} (hrun : s.rd CAL_STATUS_FG_STATE d = 1)
include hd hrun

theorem fgPassEnd_stores (hgood : passInLimits s d (s.cnvSt d).fgScope r = true) (howns : firmwareOwns s d = true)
    (hup : s.startingUp d = false) (hlock : s.rd CNV_STATUS_SCLK_LOCK d = 0) : Completes (.fgPassEnd d r) s fun t =>
      PassDone s d (s.cnvSt d).fgScope r t ∧ t.rd CNV_COEF_CTRL_SWITCH_PENDING d = 1 ∧
      (∀ j, (∀ e ∈ r.words, (e.1 : Nat) ≠ j ∨ passFinds (s.cnvSt d).fgScope j = false) →
        t.coefRd d (s.inactiveSet d) j = s.coefRd d (s.inactiveSet d) j) ∧
      (∀ e, r.words = [e] → passFinds (s.cnvSt d).fgScope e.1 = true → t.coefRd d (s.inactiveSet d) e.1 =
        passWord (s.cnvSt d).fgScope e.1 (s.coefRd d (s.inactiveSet d) e.1) e.2.toNat) := by
  have hstored : Touches [CNV_COEF_CTRL_WR_ERR] (silenced s) (passStored (silenced s) d r) := by
    rw [passStored_rest]
    exact .of_regs rfl rfl
  have hcoef (t : State) (ht : Shows (CNV_COEF_CTRL_SWITCH_PENDING :: CNV_COEF_CTRL_WR_ERR :: doneFlds) s
      ((passEnded (passStored (silenced s) d r) d (s.cnvSt d).fgScope r).wr CNV_COEF_CTRL_SWITCH_PENDING d 1) t) :
      t.coef = (passStored (silenced s) d r).coef := by
    rw [ht.rest]
    exact passEnded_coef ..
  refine completes_dieOp (CNV_COEF_CTRL_SWITCH_PENDING :: CNV_COEF_CTRL_WR_ERR :: doneFlds) _ hd
    (foregroundEnd_waits (s := silenced s) hrun hgood howns hup hlock)
    (((hstored.mono (by decide)).trans ((touches_passEnded ..).mono (by decide))).wr (by decide) ..)
    fun t ht => ⟨passDone_of_passEnded (s := silenced s) hstored fun g hg => ?_, ?_, fun j hj => ?_, fun e he hfinds => ?_⟩
  · have hsum : ∀ g ∈ doneFlds, place g ∉ summaryPlaces := by decide
    have hpend : ∀ g ∈ doneFlds, place g ≠ place CNV_COEF_CTRL_SWITCH_PENDING := by decide
    rw [ht.rd _ _ _ (hsum g hg), rd_wr_other _ (hpend g hg)]
    rfl
  · rw [ht.rd _ _ _ (by decide), rd_wr_same]
    rfl
  · exact (coefRd_congr (hcoef t ht) ..).trans (passStored_other (silenced s) d r hj)
  · exact (coefRd_congr (hcoef t ht) ..).trans (passStored_single (silenced s) d r he hfinds)

theorem fgPassEnd_barred (hgood : passInLimits s d (s.cnvSt d).fgScope r = true) (howns : firmwareOwns s d = false)
    (hup : s.startingUp d = false) : Completes (.fgPassEnd d r) s fun t =>
      PassDone s d (s.cnvSt d).fgScope r t ∧ t.rd CNV_COEF_CTRL_WR_ERR d = 1 ∧ t.coef = s.coef ∧
      t.rd CNV_COEF_CTRL_SWITCH_PENDING d = s.rd CNV_COEF_CTRL_SWITCH_PENDING d := by
  have hraised : Touches [CNV_COEF_CTRL_WR_ERR] (silenced s) ((silenced s).raise CNV_COEF_CTRL_WR_ERR d) :=
    (Touches.refl _ _).raise (by decide) ..
  have hended := touches_passEnded ((silenced s).raise CNV_COEF_CTRL_WR_ERR d) d r (s.cnvSt d).fgScope
  refine completes_dieOp (CNV_COEF_CTRL_WR_ERR :: doneFlds) _ hd
    (foregroundEnd_barred (s := silenced s) hrun hgood howns hup)
    ((hraised.mono (by decide)).trans (hended.mono (by decide)))
    fun t ht => ⟨passDone_of_passEnded (s := silenced s) hraised fun g hg => ?_, ?_, ?_, ?_⟩
  · have hsum : ∀ g ∈ doneFlds, place g ∉ summaryPlaces := by decide
    exact ht.rd _ _ _ (hsum g hg)
  · rw [ht.rd _ _ _ (by decide)]
    exact (hended.rd _ _ _ (by decide)).trans (rd_raise_one _ rfl _)
  · rw [ht.rest]
    exact passEnded_coef ..
  · rw [ht.rd _ _ _ (by decide)]
    exact (hended.rd _ _ _ (by decide)).trans (hraised.rd _ _ _ (by decide))

theorem fgPassEnd_repeats (hbad : passInLimits s d (s.cnvSt d).fgScope r = false)
    (hretry : (s.cnvSt d).fgFailed + 1 ≤ s.rd CAL_CTRL_FG_RETRIES d) : Completes (.fgPassEnd d r) s fun t =>
      t.cnvSt d = { s.cnvSt d with fgFailed := (s.cnvSt d).fgFailed + 1 } ∧
      t = { s with regs := t.regs, cnv := t.cnv, out := t.out } ∧ KeepsRegs [] s t := by
  refine completes_dieOp [] _ hd (fgPassEnd_again (s := silenced s) hrun hbad hretry) (touches_modCnv ..)
    fun t ht => ⟨?_, ?_, ht.keeps⟩
  · rw [ht.cnvSt, modCnv_cnvSt]
    rfl
  · rw [ht.rest]
    rfl

theorem fgPassEnd_gives_up (hbad : passInLimits s d (s.cnvSt d).fgScope r = false)
    (hlast : s.rd CAL_CTRL_FG_RETRIES d < (s.cnvSt d).fgFailed + 1) : Completes (.fgPassEnd d r) s fun t =>
      t.rd CAL_STATUS_FG_STATE d = 3 ∧ t.rd CAL_EVENT_FG_FAIL d = 1 ∧ t.out = [.fault d (cnvFault 1 1)] ∧
      OnlyRegs [CAL_STATUS_FG_STATE, CNV_STATUS_FG_ACTIVE, CAL_EVENT_FG_FAIL, CAL_EVENT_FG_DONE] s t := by
  refine completes_dieOp [CAL_STATUS_FG_STATE, CNV_STATUS_FG_ACTIVE, CAL_EVENT_FG_FAIL, CAL_EVENT_FG_DONE] _ hd
    (fgPassEnd_fails (s := silenced s) hrun hbad hlast)
    (((((Touches.refl _ _).wr (by decide) ..).wr (by decide) ..).raise (by decide) ..).raise (by decide) .. |>.emit _)
    fun t ht => ⟨?_, ?_, ?_, ht.onlyRegs rfl⟩
  · rw [ht.rd _ _ _ (by decide)]
    exact (rd_raise_other _ (by decide) ..).trans ((rd_raise_other _ (by decide) ..).trans
      ((rd_wr_other _ (by decide) ..).trans (rd_wr_same ..)))
  · rw [ht.rd _ _ _ (by decide)]
    exact (rd_raise_other _ (by decide) ..).trans (rd_raise_one _ rfl _)
  · rw [ht.rest]
    rfl

end

/-! ### Background estimates (R117 to R119) -/

section
variable (s : State) (d : Nat)

/-- A term reads as it was written, where it has 16 bits. -/
theorem termRd_termWr (set : Nat) (dac : Bool) (c k term : Nat) {v : Int} (hlo : -32768 ≤ v) (hhi : v ≤ 32767) :
    (s.termWr d set dac c k term v).termRd d set dac c k term = v := by
  rw [State.termRd, State.termWr, coefRd_coefWr_same, bitsAt_setBitsAt_whole, toSigned_mod]
  exact toSigned_ofSigned (by decide) hlo (show v < 32768 by omega)

theorem touches_termWr {fs : List Fld} (set : Nat) (dac : Bool) (c k term : Nat) (v : Int) :
    Touches fs s (s.termWr d set dac c k term v) := .of_regs rfl rfl

theorem touches_convergeTerm (e : BgEstimate) : Touches [CAL_STATUS_BG_CONVERGED] s (s.convergeTerm d e) := by
  have hrun (n : Nat) : Touches [CAL_STATUS_BG_CONVERGED] s { s with calRun := s.calRun.set 0 (termKey d e) n } :=
    .of_regs rfl rfl
  exact .ite ((hrun _).raise (by decide) ..) (hrun _)

theorem convergeTerm_rest (e : BgEstimate) : s.convergeTerm d e =
    { s with regs := (s.convergeTerm d e).regs, calRun := (s.convergeTerm d e).calRun } :=
  iteInduction (motive := fun u : State => u = { s with regs := u.regs, calRun := u.calRun }) (fun _ => rfl) fun _ => rfl

/-- The registers of an estimate outside its value limit. -/
def estimateFlds : List Fld :=
  [CAL_REJECTS_COUNT, CAL_EVENT_REJECT, CAL_FAIL_WHERE_TERM, CAL_FAIL_WHERE_KIND, CAL_FAIL_WHERE_CONVERTER, CAL_FAIL_WHERE_SUB,
    CAL_EVENT_SUB_FAIL]

/-- An estimate outside its value limit is counted (R117). -/
def rejectCounted (s : State) (d : Nat) (e : BgEstimate) : State :=
  let s := (s.count CAL_REJECTS_COUNT d).raise CAL_EVENT_REJECT d
  { s with calRun := s.calRun.set 0 (termKey d e) 0 }

/-- The eighth rejection in a row is SUB_FAIL (R119). -/
def rejectRun (s : State) (d : Nat) (e : BgEstimate) : State :=
  let n := s.calRej.get 0 (termKey d e) + 1
  if n = 8 then
    let s := { s with calRej := s.calRej.set 0 (termKey d e) 0 }
    let s := ((s.wr CAL_FAIL_WHERE_TERM d e.term).wrb CAL_FAIL_WHERE_KIND d e.dac).wr CAL_FAIL_WHERE_CONVERTER d e.conv
    ((s.wr CAL_FAIL_WHERE_SUB d e.sub).raise CAL_EVENT_SUB_FAIL d).emit (.fault d (cnvFault 0 3))
  else { s with calRej := s.calRej.set 0 (termKey d e) n }

variable (e : BgEstimate)

/-- An estimate within its value limit ends the run of rejections. -/
def rejectsEnded (s : State) (d : Nat) (e : BgEstimate) : State := { s with calRej := s.calRej.set 0 (termKey d e) 0 }

theorem touches_rejectsEnded {fs : List Fld} : Touches fs s (rejectsEnded s d e) := .of_regs rfl rfl

theorem touches_rejectCounted : Touches [CAL_REJECTS_COUNT, CAL_EVENT_REJECT] s (rejectCounted s d e) :=
  (((Touches.refl _ s).count (by decide) ..).raise (by decide) ..).regs rfl rfl

theorem touches_rejectRun : Touches (estimateFlds.drop 2) s (rejectRun s d e) := by
  have hrej (n : Nat) : Touches (estimateFlds.drop 2) s { s with calRej := s.calRej.set 0 (termKey d e) n } := .of_regs rfl rfl
  exact .ite (((((((hrej _).wr (by decide) ..).wrb (by decide) ..).wr (by decide) ..).wr (by decide) ..).raise (by decide)
    ..).emit _) (hrej _)

theorem rejectRun_rest : rejectRun s d e =
    { s with regs := (rejectRun s d e).regs, calRej := (rejectRun s d e).calRej, out := (rejectRun s d e).out } :=
  iteInduction (motive := fun u : State => u = { s with regs := u.regs, calRej := u.calRej, out := u.out }) (fun _ => rfl) fun _ => rfl

theorem rd_rejectCounted :
    (rejectCounted s d e).rd CAL_REJECTS_COUNT d = min (s.rd CAL_REJECTS_COUNT d + 1) (2 ^ 32 - 1) ∧
    (rejectCounted s d e).rd CAL_EVENT_REJECT d = 1 :=
  ⟨(rd_raise_other _ (by decide) ..).trans (rd_count_same ..), rd_raise_one _ rfl _⟩

end

section
variable {s : State} {d : Fin 8} (hd : (d : Nat) < s.part.dies) {e : BgEstimate} (hclips : e.clips = 0) (hadc : e.dac = false)
  (hlow : e.low = false) (hen : s.rd CAL_CTRL_BG_ADC_EN d ≠ 0) (hon : bit (s.rd CNV_CTRL_ADC_EN d) e.conv = true)
  (hver : (s.cnvSt d).verifying = false)
include hd hclips hadc hlow hen hon hver

/-- A background estimate that is judged alone: its unit runs, and no record is being verified. -/
theorem bgCalUpdate_of {P : State → Prop} {t : State} {fs : List Fld}
    (hop : (if !(silenced s).inValueLimit d false e.term e.value then (silenced s).rejectEstimate d e
      else
        let u := rejectsEnded (silenced s) d e
        let old := s.termRd d (s.inactiveSet d) false e.conv e.sub e.term
        let new := if ((e.value - old).natAbs : ℚ) > stepLimit e.term then stepTowards e.term old e.value else e.value
        if firmwareOwns (silenced s) d then (u.termWr d (s.inactiveSet d) false e.conv e.sub e.term new).convergeTerm d e
        else u.raise CNV_COEF_CTRL_WR_ERR d) = t)
    (ht : Touches fs (silenced s) t) (h : ∀ u, Shows fs s t u → P u) : Completes (.bgCalUpdate d e) s P := by
  refine completes_dieOp fs _ hd (t := t) ?_ ht h
  have hflag : (silenced s).flag CAL_CTRL_BG_ADC_EN d = true := flag_of_rd_ne hen
  have hbit : bit ((silenced s).rd CNV_CTRL_ADC_EN d) e.conv = true := hon
  have hidle : ((silenced s).cnvSt d).verifying = false := hver
  rw [← hop]
  simp only [hclips, hadc, hlow, bgFormed, hflag, hbit, hidle, true_or, if_true, Bool.and_true, Bool.not_true, Bool.not_false,
    Bool.true_or, Bool.false_and, Bool.or_false, Bool.false_eq_true, if_false]
  rfl

theorem bgCalUpdate_barred (hin : s.inValueLimit d false e.term e.value = true) (howns : firmwareOwns s d = false) :
    Completes (.bgCalUpdate d e) s fun t => t.rd CNV_COEF_CTRL_WR_ERR d = 1 ∧
      t = { s with regs := t.regs, calRej := t.calRej, out := t.out } ∧ KeepsRegs [CNV_COEF_CTRL_WR_ERR] s t := by
  refine bgCalUpdate_of hd hclips hadc hlow hen hon hver (fs := [CNV_COEF_CTRL_WR_ERR])
    (t := (rejectsEnded (silenced s) d e).raise CNV_COEF_CTRL_WR_ERR d) ?_
    ((touches_rejectsEnded ..).raise (by decide) ..) fun t ht => ⟨?_, ?_, ht.keeps⟩
  · rw [if_neg (by rw [show (silenced s).inValueLimit d false e.term e.value = true from hin]; decide)]
    exact if_neg (ne_true_of_eq_false howns)
  · rw [ht.rd _ _ _ (by decide), rd_raise_one _ rfl]
  · rw [ht.rest]
    rfl

theorem bgCalUpdate_applies (hin : s.inValueLimit d false e.term e.value = true) (hlo : -32768 ≤ e.value) (hhi : e.value ≤ 32767)
    (hstep : ((e.value - s.termRd d (s.inactiveSet d) false e.conv e.sub e.term).natAbs : ℚ) ≤ stepLimit e.term)
    (howns : firmwareOwns s d = true) : Completes (.bgCalUpdate d e) s fun t =>
      t.termRd d (s.inactiveSet d) false e.conv e.sub e.term = e.value ∧
      t = { s with regs := t.regs, coef := t.coef, calRej := t.calRej, calRun := t.calRun, out := t.out } ∧
      KeepsRegs [CAL_STATUS_BG_CONVERGED] s t := by
  refine bgCalUpdate_of hd hclips hadc hlow hen hon hver (fs := [CAL_STATUS_BG_CONVERGED])
    (t := ((rejectsEnded (silenced s) d e).termWr d (s.inactiveSet d) false e.conv e.sub e.term e.value).convergeTerm d e) ?_
    (((touches_rejectsEnded ..).trans (touches_termWr ..)).trans (touches_convergeTerm ..)) fun t ht => ⟨?_, ?_, ht.keeps⟩
  · rw [if_neg (by rw [show (silenced s).inValueLimit d false e.term e.value = true from hin]; decide)]
    dsimp only
    rw [if_pos (show firmwareOwns (silenced s) d = true from howns), if_neg (not_lt.mpr hstep)]
  · rw [ht.rest, convergeTerm_rest]
    exact termRd_termWr _ _ _ _ _ _ _ hlo hhi
  · rw [ht.rest, convergeTerm_rest]
    rfl

theorem bgCalUpdate_rejects (hout : s.inValueLimit d false e.term e.value = false) :
    Completes (.bgCalUpdate d e) s fun t =>
      t.rd CAL_REJECTS_COUNT d = min (s.rd CAL_REJECTS_COUNT d + 1) (2 ^ 32 - 1) ∧ t.rd CAL_EVENT_REJECT d = 1 ∧
      t = { s with regs := t.regs, calRej := t.calRej, calRun := t.calRun, out := t.out } ∧ KeepsRegs estimateFlds s t := by
  have hrun := touches_rejectRun (rejectCounted (silenced s) d e) d e
  obtain ⟨hcount, hevent⟩ := rd_rejectCounted (silenced s) d e
  refine bgCalUpdate_of hd hclips hadc hlow hen hon hver (fs := estimateFlds)
    (t := rejectRun (rejectCounted (silenced s) d e) d e) ?_
    (((touches_rejectCounted ..).mono (by decide)).trans (hrun.mono (by decide))) fun t ht => ⟨?_, ?_, ?_, ht.keeps⟩
  · exact if_pos (by rw [show (silenced s).inValueLimit d false e.term e.value = false from hout]; rfl)
  · rw [ht.rd _ _ _ (by decide), hrun.rd _ _ _ (by decide), hcount]
    rfl
  · rw [ht.rd _ _ _ (by decide), hrun.rd _ _ _ (by decide), hevent]
  · rw [ht.rest, rejectRun_rest]
    rfl

end
end Sys2Proof.Laws
end

section
/-! SUPPORT. PROOFS. Calibration records: what a save takes, what a check depends on, and the sets after a restore (O45). -/
namespace Sys2Proof.Laws
open Sys2Proof Sys2Proof.Machine

/-! ### The record window (R126, R127) -/

theorem winRd_winWr_same (s : State) (d w v : Nat) : (s.winWr d w v).winRd d w = v % 2 ^ 32 := get_set_same ..

theorem winRd_winWr_other {w j : Nat} (h : j ≠ w) (s : State) (d v : Nat) : (s.winWr d w v).winRd d j = s.winRd d j :=
  get_set_other _ _ _ (fun k => h (congrArg Key.idx k)) _

theorem winFill_rest (s : State) (d w : Nat) (bs : List Byte) : s.winFill d w bs = { s with calWin := (s.winFill d w bs).calWin } := by
  induction s, w, bs using State.winFill.induct (d := d) with
  | case1 s w b0 b1 b2 b3 bs ih =>
    rw [State.winFill, ih]
    rfl
  | case2 s w bs h =>
    unfold State.winFill
    split
    · exact (h _ _ _ _ _ rfl).elim
    · rfl

/-- A word before the place where a fill begins stays. -/
theorem winRd_winFill_below {s : State} {d w j : Nat} {bs : List Byte} (hj : j < w) :
    (s.winFill d w bs).winRd d j = s.winRd d j := by
  induction s, w, bs using State.winFill.induct (d := d) with
  | case1 s w b0 b1 b2 b3 bs ih => rw [State.winFill, ih (by omega), winRd_winWr_other (by omega)]
  | case2 s w bs h =>
    unfold State.winFill
    split
    · exact (h _ _ _ _ _ rfl).elim
    · rfl

/-- A fill puts the bytes of each word in their place. -/
theorem winRd_winFill (i : Nat) {s : State} {d w : Nat} {bs : List Byte} (hlen : 4 * i + 4 ≤ bs.length) :
    (s.winFill d w bs).winRd d (w + i) = natLE ((bs.drop (4 * i)).take 4) := by
  induction i generalizing s w bs with
  | zero =>
    match bs, hlen with
    | b0 :: b1 :: b2 :: b3 :: bs, _ =>
      rw [State.winFill, winRd_winFill_below (by omega), Nat.add_zero, winRd_winWr_same, List.drop_zero]
      exact Nat.mod_eq_of_lt (lt_of_lt_of_eq (natLE_lt [b0, b1, b2, b3]) (by norm_num))
  | succ i ih =>
    match bs, hlen with
    | b0 :: b1 :: b2 :: b3 :: bs, h =>
      rw [State.winFill, show w + (i + 1) = w + 1 + i by omega, ih (by simp at h; omega)]
      rfl

theorem recordBody_length (s : State) (d : Nat) : (s.recordBody d).length = 4092 := by
  simp only [State.recordBody, State.zeros, List.length_append, List.length_flatMap, bytesLE_length, List.map_const',
    List.sum_replicate, List.length_range, List.length_replicate]
  rfl

/-! ### A save or a restore begins -/

/-- A save or a restore runs, and its access is answered. -/
def recBusy (s : State) (d : Nat) : State := (s.wr CAL_REC_CTRL_BUSY d 1).respond 0

section
variable (s : State) (d : Nat)

theorem touches_recBusy : Touches [CAL_REC_CTRL_BUSY] s (recBusy s d) := ((Touches.refl _ s).wr (by decide) ..).respond ..

theorem rd_recBusy : (recBusy s d).rd CAL_REC_CTRL_BUSY d = 1 := rd_wr_same ..

theorem rd_recBusy_other {g : Fld} (hg : place g ≠ place CAL_REC_CTRL_BUSY) (e : Nat) : (recBusy s d).rd g e = s.rd g e :=
  rd_wr_other _ hg ..

omit s d in
/-- What a record's body depends on. -/
theorem recordBody_congr {s t : State} {d : Nat} (hrd : ∀ g, place g ≠ place CAL_REC_CTRL_BUSY → t.rd g d = s.rd g d)
    (hcnv : t.cnvSt d = s.cnvSt d) (hcoef : t.coef = s.coef) (hid : t.dieId = s.dieId) (htim : t.tim = s.tim) :
    t.recordBody d = s.recordBody d := by
  have hword (set w : Nat) : t.coefRd d set w = s.coefRd d set w := coefRd_congr hcoef ..
  simp (disch := decide) only [State.recordBody, State.activeSet, State.rxSkewWord, State.txSkewWord, State.eventWord,
    State.rxDelayWord, State.txDelayWord, State.seamLoWord, State.seamHiWord, State.flag, List.foldl_cons, List.foldl_nil,
    hrd, hword, hcnv, hid, htim]

theorem recordBody_silenced : (silenced s).recordBody d = s.recordBody d :=
  recordBody_congr (fun _ _ => rfl) rfl rfl rfl rfl

theorem recordBody_recBusy : (recBusy s d).recordBody d = s.recordBody d :=
  recordBody_congr (fun _ hg => rd_recBusy_other s d hg d) rfl rfl rfl rfl

theorem recordInRange_recBusy (r : List Byte) : (recBusy s d).recordInRange d r = s.recordInRange d r := by
  have hlimit (dac : Bool) (term : Nat) (v : Int) : (recBusy s d).inValueLimit d dac term v = s.inValueLimit d dac term v := by
    unfold State.inValueLimit
    simp (disch := decide) only [rd_recBusy_other]
  simp (disch := decide) only [State.recordInRange, hlimit, rd_recBusy_other]

theorem recordReason_recBusy (r : List Byte) : (recBusy s d).recordReason d r = s.recordReason d r := by
  simp (disch := decide) only [State.recordReason, State.adcOn, State.dacOn, State.flag, State.rdS, rd_recBusy_other,
    recordInRange_recBusy]
  rfl

theorem recordReason_le {r : List Byte} {n : Nat} (h : s.recordReason d r = some n) : n ≤ 7 := by
  unfold State.recordReason at h
  dsimp only at h
  split_ifs at h <;> cases h <;> decide

end

/-- A record that passes the checks is within its ranges. -/
theorem recordInRange_of_reason {s : State} {d : Nat} {r : List Byte} (h : s.recordReason d r = none) :
    s.recordInRange d r = true := by
  unfold State.recordReason at h
  dsimp only at h
  split_ifs at h with _ _ _ _ _ _ hrange
  exact hrange

/-- The hardware does not clamp a word of a record that is within its ranges (R109, R128). -/
theorem clampWord_recWord {s : State} {d : Nat} {r : List Byte} (h : s.recordInRange d r = true) (w : Nat) :
    (clampWord w (recWord r w)).2 = false := by
  by_cases hw : w < 640
  · have hall := (Bool.and_eq_true_iff.mp (Bool.and_eq_true_iff.mp (Bool.and_eq_true_iff.mp h).1).1).1
    have hword := List.all_eq_true.mp hall w (List.mem_range.mpr hw)
    have hclamp := (Bool.and_eq_true_iff.mp hword).2
    rw [recWord, if_pos hw]
    simpa using hclamp
  · rw [clampWord, if_pos (by omega)]

/-! ### The sets of a restored record (R128) -/

theorem mem_set {α : Type} [DecidableEq α] {m : Store α} {x : α} {k : Key} {v : α} {e : Key × α} (h : e ∈ m.set x k v) :
    e = (k, v) ∨ e ∈ m := by
  unfold Store.set at h
  split at h
  · exact .inr (mem_erase h)
  · exact mem_insert h

/-- The hardware clamps no word of a set of coefficients. -/
def InHardwareRange (s : State) (d a : Nat) : Prop :=
  ∀ e ∈ s.coef, e.1.inst = d → e.1.reg = a → (clampWord e.1.idx e.2).2 = false

theorem InHardwareRange.coefWr {s : State} {d a b w v : Nat} (h : InHardwareRange s d a)
    (hv : b = a → (clampWord w v).2 = false) : InHardwareRange (s.coefWr d b w v) d a := fun e he hinst hreg => by
  rcases mem_set he with rfl | hold
  · exact hv hreg
  · exact h e hold hinst hreg

theorem InHardwareRange.clampSet {s : State} {d a : Nat} (h : InHardwareRange s d a) : s.clampSet d a = s := by
  refine forEach_invariant (P := fun u => u = s) _ (fun u e he hu => ?_) rfl
  obtain ⟨hmem, hkey⟩ := List.mem_filter.mp he
  obtain ⟨hinst, hreg⟩ := Bool.and_eq_true_iff.mp hkey
  rw [if_neg (ne_true_of_eq_false (h e hmem (beq_iff_eq.mp hinst) (beq_iff_eq.mp hreg))), hu]

/-- A copy of a set leaves every other set. -/
theorem coefRd_copySet_other {a b c : Nat} (h : c ≠ b) (s : State) (d w : Nat) :
    (s.copySet d a b).coefRd d c w = s.coefRd d c w := by
  refine (forEach_keeps (fun u : State => u.coefRd d c w) _ (fun u e _ =>
    coefRd_coefWr_other u d (fun k => h k.1) _) _).trans ?_
  have hkeep : (!((coefKey d c w).inst == d && (coefKey d c w).reg == b)) = true := by
    simp [coefKey, h]
  change ((s.coef.keep fun k => !(k.inst == d && k.reg == b)).find (coefKey d c w)).getD _ = _
  rw [find_keep, if_pos hkeep]
  rfl

/-- Sets whose new one is within the hardware range swap without a change of it. -/
theorem coefRd_swapSets {s : State} {d : Nat} (h : InHardwareRange s d (s.inactiveSet d)) (w : Nat) :
    (s.swapSets d).coefRd d (s.inactiveSet d) w = s.coefRd d (s.inactiveSet d) w := by
  have hne : s.inactiveSet d ≠ 1 - s.inactiveSet d := by omega
  have hset : (setsSwapped s d).coefRd d (s.inactiveSet d) w = s.coefRd d (s.inactiveSet d) w := by
    rw [setsSwapped, h.clampSet]
    refine (coefRd_congr rfl ..).trans (?_ : State.coefRd (if _ then _ else _) d _ w = _)
    split
    · exact (coefRd_copySet_other hne _ _ _).trans rfl
    · rfl
  rw [swapSets_eq, ownerTaken_rest]
  exact hset

/-- The inactive set, and the values that verification compares with, are those of a record. -/
def coefRestored (s : State) (d : Nat) (r : List Byte) : State :=
  let u : State := { s with coef := s.coef.keep fun k => !(k.inst == d && (k.reg == s.inactiveSet d || k.reg == 2)) }
  u.forEach (List.range 668) fun t w => (t.coefWr d (s.inactiveSet d) w (recWord r w)).coefWr d 2 w (recWord r w)

/-- The path skews, delays and seam values are those of a record, and the switch to its set is due. -/
def regsRestored (s : State) (d : Nat) (r : List Byte) : State :=
  let s := (s.wrRxSkew d (recNat r 2680 4)).wrTxSkew d (recNat r 2684 4)
  let s := (s.wr CNV_RX_DELAY_FINE d (recNat r 2690 2)).wr CNV_RX_DELAY_WHOLE d (recNat r 2688 2)
  let s := (s.wr CNV_TX_DELAY_FINE d (recNat r 2694 2)).wr CNV_TX_DELAY_WHOLE d (recNat r 2692 2)
  let s := (s.wr CAL_SEAM_LO_TAU d (recNat r 2696 2)).wr CAL_SEAM_LO_RHO d (recNat r 2698 1)
  let s := s.wr CAL_SEAM_LO_VALID d (recNat r 2699 1 / 128)
  let s := (s.wr CAL_SEAM_HI_TAU d (recNat r 2700 2)).wr CAL_SEAM_HI_RHO d (recNat r 2702 1)
  let s := s.wr CAL_SEAM_HI_VALID d (recNat r 2703 1 / 128)
  (s.wr CNV_COEF_CTRL_SWITCH_PENDING d 1).refreshSlew d

/-- A restored record waits for its switch, and its values for verification. -/
def cnvRestored (s : State) (d : Nat) (r : List Byte) : State :=
  s.modCnv d fun x =>
    { x with restoring := true, verifying := true, verifyBad := false, recConverged := bit (recNat r 24 4) 1
             seed := if recNat r 2699 1 < 128 then none else some (toSigned 16 (recNat r 2696 2)) }

/-- The registers that a restore writes. -/
def restoreFlds : List Fld :=
  rxSkewFlds ++ txSkewFlds ++ [CNV_RX_DELAY_FINE, CNV_RX_DELAY_WHOLE, CNV_TX_DELAY_FINE, CNV_TX_DELAY_WHOLE, CAL_SEAM_LO_TAU,
    CAL_SEAM_LO_RHO, CAL_SEAM_LO_VALID, CAL_SEAM_HI_TAU, CAL_SEAM_HI_RHO, CAL_SEAM_HI_VALID, CNV_COEF_CTRL_SWITCH_PENDING,
    CNV_STATUS_FINE_SLEWING]

section
variable (s : State) (d : Nat) (r : List Byte)

/-- A record's values are written, and its switch waits. -/
def recordWritten : State := cnvRestored (regsRestored (coefRestored s d r) d r) d r

theorem restoreRecord_eq : s.restoreRecord d r =
    if (recordWritten s d r).flag CNV_STATUS_SCLK_LOCK d then ((recordWritten s d r).swapSets d).endRestore d else recordWritten s d r := rfl

theorem coefRestored_rest : coefRestored s d r = { s with coef := (coefRestored s d r).coef } :=
  forEach_invariant (P := fun u => u = { s with coef := u.coef }) _ (fun u e _ hu => by rw [hu]; rfl) rfl

theorem coefRd_coefRestored {w : Nat} (hw : w < 668) :
    (coefRestored s d r).coefRd d (s.inactiveSet d) w = recWord r w := by
  have hlt := inactiveSet_lt s d
  refine forEach_sets (b := w) (φ := fun u : State => u.coefRd d (s.inactiveSet d) w) (fun u x hx => ?_) (fun u => ?_)
    (List.mem_range.mpr hw) _
  · exact (coefRd_coefWr_other _ d (fun k => hx k.2.symm) _).trans (coefRd_coefWr_other _ d (fun k => hx k.2.symm) _)
  · exact (coefRd_coefWr_other _ d (fun k => by omega) _).trans (coefRd_coefWr_same ..)

theorem inHardwareRange_coefRestored (hr : ∀ w, (clampWord w (recWord r w)).2 = false) :
    InHardwareRange (coefRestored s d r) d (s.inactiveSet d) := by
  refine forEach_invariant (P := fun u => InHardwareRange u d (s.inactiveSet d)) _
    (fun u w _ hu => (hu.coefWr fun _ => hr w).coefWr fun _ => hr w) fun e he hinst hreg => ?_
  have hkept := (List.mem_filter.mp he).2
  simp [hinst, hreg] at hkept

theorem writesOnly_regsRestored : WritesOnly (AtFields restoreFlds) s (regsRestored s d r) := by
  have hskew : WritesOnly (AtFields restoreFlds) s ((s.wrRxSkew d (recNat r 2680 4)).wrTxSkew d (recNat r 2684 4)) :=
    ((((((((WritesOnly.refl _ s).wr (.of_mem (by decide) d) _ 0).wr (.of_mem (by decide) d) _ 0).wr (.of_mem (by decide) d) _
      0).wr (.of_mem (by decide) d) _ 0).wr (.of_mem (by decide) d) _ 0).wr (.of_mem (by decide) d) _ 0).wr
      (.of_mem (by decide) d) _ 0).wr (.of_mem (by decide) d) _ 0
  have hdelay := (((hskew.wr (f := CNV_RX_DELAY_FINE) (.of_mem (by decide) d) (recNat r 2690 2) 0).wr
    (f := CNV_RX_DELAY_WHOLE) (.of_mem (by decide) d) (recNat r 2688 2) 0).wr (f := CNV_TX_DELAY_FINE)
    (.of_mem (by decide) d) (recNat r 2694 2) 0).wr (f := CNV_TX_DELAY_WHOLE) (.of_mem (by decide) d) (recNat r 2692 2) 0
  have hseam := (((((hdelay.wr (f := CAL_SEAM_LO_TAU) (.of_mem (by decide) d) (recNat r 2696 2) 0).wr (f := CAL_SEAM_LO_RHO)
    (.of_mem (by decide) d) (recNat r 2698 1) 0).wr (f := CAL_SEAM_LO_VALID) (.of_mem (by decide) d) (recNat r 2699 1 / 128)
    0).wr (f := CAL_SEAM_HI_TAU) (.of_mem (by decide) d) (recNat r 2700 2) 0).wr (f := CAL_SEAM_HI_RHO)
    (.of_mem (by decide) d) (recNat r 2702 1) 0).wr (f := CAL_SEAM_HI_VALID) (.of_mem (by decide) d) (recNat r 2703 1 / 128) 0
  exact (hseam.wr (f := CNV_COEF_CTRL_SWITCH_PENDING) (.of_mem (by decide) d) 1 0).wr (.of_mem (by decide) d) _ 0

theorem regsRestored_coef : (regsRestored s d r).coef = s.coef := by rw [(writesOnly_regsRestored s d r).rest]

theorem regsRestored_dies : (regsRestored s d r).dies = s.dies := by rw [(writesOnly_regsRestored s d r).rest]

theorem rd_regsRestored_pending : (regsRestored s d r).rd CNV_COEF_CTRL_SWITCH_PENDING d = 1 :=
  (rd_wrb_other _ (by decide) ..).trans (rd_wr_same ..)

theorem touches_cnvRestored {fs : List Fld} : Touches fs s (cnvRestored s d r) := touches_modCnv ..

theorem cnvRestored_coef : (cnvRestored s d r).coef = s.coef := rfl

theorem cnvRestored_dies : (cnvRestored s d r).dies = s.dies := rfl

theorem touches_recordWritten : Touches restoreFlds s (recordWritten s d r) := by
  have hcoef : Touches restoreFlds s (coefRestored s d r) := by
    rw [coefRestored_rest]
    exact .of_regs rfl rfl
  exact (hcoef.trans (.of_writesOnly (writesOnly_regsRestored _ d r))).trans (touches_cnvRestored _ d r)

theorem recordWritten_coef : (recordWritten s d r).coef = (coefRestored s d r).coef := by
  rw [recordWritten, cnvRestored_coef, regsRestored_coef]

theorem recordWritten_dies : (recordWritten s d r).dies = s.dies := by
  rw [recordWritten, cnvRestored_dies, regsRestored_dies, coefRestored_rest]

theorem rd_recordWritten_pending : (recordWritten s d r).rd CNV_COEF_CTRL_SWITCH_PENDING d = 1 := by
  rw [recordWritten, (touches_cnvRestored (fs := []) _ d r).rd _ _ _ (by decide)]
  exact rd_regsRestored_pending ..

theorem recordWritten_cnvSt :
    ((recordWritten s d r).cnvSt d).restoring = true ∧ ((recordWritten s d r).cnvSt d).verifying = true := by
  rw [recordWritten, cnvRestored, modCnv_cnvSt]
  exact ⟨rfl, rfl⟩

theorem coefRd_recordWritten {w : Nat} (hw : w < 668) : (recordWritten s d r).coefRd d (s.inactiveSet d) w = recWord r w :=
  (coefRd_congr (recordWritten_coef s d r) ..).trans (coefRd_coefRestored s d r hw)

theorem inHardwareRange_recordWritten (hr : s.recordInRange d r = true) :
    InHardwareRange (recordWritten s d r) d (s.inactiveSet d) := by
  unfold InHardwareRange
  rw [recordWritten_coef]
  exact inHardwareRange_coefRestored s d r (clampWord_recWord hr)

end
end Sys2Proof.Laws
end

section
/-! SUPPORT. PROOFS. Calibration: saves, restores, their end, verification and the wait for a record (O45). -/
namespace Sys2Proof.Laws
open Sys2Proof Sys2Proof.Machine

/-! ### Power domains that are asked for (R333, R336) -/

section
variable (s : State) (d : Nat)

theorem sclkSource_rest : s.sclkSource d = { s with regs := (s.sclkSource d).regs } := by
  unfold State.sclkSource
  dsimp only
  split <;> rfl

theorem startPll_rest (p : Nat) : s.startPll d p = { s with regs := (s.startPll d p).regs, pwr := (s.startPll d p).pwr } := by
  unfold State.startPll
  split
  · rfl
  · split
    · rw [sclkSource_rest]
      rfl
    · rfl

theorem wake_rest (k : Nat) : s.wake d k = { s with regs := (s.wake d k).regs, pwr := (s.wake d k).pwr } := by
  unfold State.wake
  split
  · rfl
  · split
    · rw [startPll_rest]
      rfl
    · rfl

theorem sink_rest (k v : Nat) : s.sink d k v = { s with pwr := (s.sink d k v).pwr } := by
  unfold State.sink
  split <;> rfl

/-! ### Converters that are enabled or disabled (R115) -/

theorem converterDomains_rest :
    s.converterDomains d = { s with regs := (s.converterDomains d).regs, pwr := (s.converterDomains d).pwr } := by
  have hone (t : State) (k : Nat) (c : Bool) (h : t = { s with regs := t.regs, pwr := t.pwr }) :
      (if c then t.wake d k else t.sink d k 2) =
        { s with regs := (if c then t.wake d k else t.sink d k 2).regs, pwr := (if c then t.wake d k else t.sink d k 2).pwr } := by
    split
    · rw [wake_rest, h]
    · rw [sink_rest, h]
  exact forEach_invariant (P := fun u => u = { s with regs := u.regs, pwr := u.pwr }) _ (fun u c _ hu => hone _ _ _ (hone _ _ _ hu)) rfl

theorem enableUnit_rest (b u : Nat) :
    s.enableUnit d b u = { s with regs := (s.enableUnit d b u).regs, units := (s.enableUnit d b u).units } := by
  unfold State.enableUnit
  dsimp only
  split <;> rfl

theorem disableUnit_rest (b u work now : Nat) : s.disableUnit d b u work now =
    { s with regs := (s.disableUnit d b u work now).regs, units := (s.disableUnit d b u work now).units } := by
  unfold State.disableUnit
  split
  · rw [abortUnit_rest]
  · rfl

/-- A converter's enable is written, and its unit follows. -/
def converterSwitched (s : State) (d u : Nat) (on : Bool) (work now : Nat) : State :=
  let was := bit (s.rd (State.cnvEnable u) d) (u % 4)
  let s := s.wrBit (State.cnvEnable u) d (u % 4) on
  if on && !was then s.enableUnit d 2 u else if !on && was then s.disableUnit d 2 u work now else s

theorem converter_eq (u : Nat) (on : Bool) (work now : Nat) :
    s.converter d u on work now = (converterSwitched s d u on work now).converterDomains d := rfl

omit s d in
theorem units_rest_trans {s t u : State} (ht : t = { s with regs := t.regs })
    (hu : u = { t with regs := u.regs, units := u.units }) : u = { s with regs := u.regs, units := u.units } := by
  rw [hu, ht]

theorem converterSwitched_rest (u : Nat) (on : Bool) (work now : Nat) : converterSwitched s d u on work now =
    { s with regs := (converterSwitched s d u on work now).regs, units := (converterSwitched s d u on work now).units } := by
  have hwr : s.wrBit (State.cnvEnable u) d (u % 4) on = { s with regs := (s.wrBit (State.cnvEnable u) d (u % 4) on).regs } := rfl
  exact iteInduction (motive := fun t : State => t = { s with regs := t.regs, units := t.units })
    (fun _ => units_rest_trans hwr (enableUnit_rest ..)) fun _ =>
      iteInduction (motive := fun t : State => t = { s with regs := t.regs, units := t.units })
        (fun _ => units_rest_trans hwr (disableUnit_rest ..)) fun _ => rfl

theorem converter_rest (u : Nat) (on : Bool) (work now : Nat) : s.converter d u on work now =
    { s with regs := (s.converter d u on work now).regs, units := (s.converter d u on work now).units
             pwr := (s.converter d u on work now).pwr } := by
  rw [converter_eq, converterDomains_rest, converterSwitched_rest]

/-! ### A save and a restore (R127, R128) -/

theorem Shows.winRd {fs : List Fld} {s t u : State} (h : Shows fs s t u) (d w : Nat) : u.winRd d w = t.winRd d w := by
  rw [h.rest]
  rfl

theorem Shows.coefRd {fs : List Fld} {s t u : State} (h : Shows fs s t u) (d a w : Nat) : u.coefRd d a w = t.coefRd d a w := by
  rw [h.rest]
  rfl

/-- A save of a record's body, with its CRC. -/
def bodySaved (s : State) (d : Nat) (body : List Byte) : State :=
  (s.winFill d 0 (body ++ bytesLE 4 (crc32c body))).modCnv d fun x => { x with saveDue := false, recResult := some recSaved }

section
variable (s : State) (d : Nat) (body : List Byte)

theorem saveRecord_eq : s.saveRecord d = bodySaved s d (s.recordBody d) := rfl

theorem bodySaved_rest :
    bodySaved s d body = { s with cnv := (bodySaved s d body).cnv, calWin := (bodySaved s d body).calWin } := by
  rw [bodySaved, winFill_rest]
  rfl

theorem winRd_bodySaved {w : Nat} (hw : w < 1024) (hbody : body.length = 4092) :
    (bodySaved s d body).winRd d w = natLE (((body ++ bytesLE 4 (crc32c body)).drop (4 * w)).take 4) := by
  have hlen : 4 * w + 4 ≤ (body ++ bytesLE 4 (crc32c body)).length := by
    rw [List.length_append, hbody, bytesLE_length]
    omega
  rw [← winRd_winFill (s := s) (d := d) (w := 0) w hlen, Nat.zero_add]
  rfl

theorem bodySaved_cnvSt :
    (bodySaved s d body).cnvSt d = { s.cnvSt d with saveDue := false, recResult := some recSaved } := by
  rw [bodySaved, modCnv_cnvSt, winFill_rest]
  rfl

end

theorem touches_endRestore (s : State) (d : Nat) : Touches [CAL_EVENT_REC_RESTORED] s (s.endRestore d) :=
  ((Touches.refl _ s).raise (by decide) ..).trans (touches_modCnv ..)

theorem endRestore_dies (s : State) (d : Nat) : (s.endRestore d).dies = s.dies := rfl

theorem endRestore_coef (s : State) (d : Nat) : (s.endRestore d).coef = s.coef := rfl

theorem rd_endRestore (s : State) (d : Nat) : (s.endRestore d).rd CAL_EVENT_REC_RESTORED d = 1 := rd_raise_one _ rfl _

theorem endRestore_cnvSt (s : State) (d : Nat) :
    (s.endRestore d).cnvSt d = { s.cnvSt d with restoring := false, recResult := some recRestored } := modCnv_cnvSt ..

theorem swapSets_dies (s : State) (d : Nat) : (s.swapSets d).dies = s.dies := by rw [swapSets_rest]

/-- The end of a save or a restore shows its result. -/
def recordEnded (s : State) (d r : Nat) : State :=
  let s := (s.wr CAL_REC_CTRL_BUSY d 0).wr CAL_REC_CTRL_RESULT d r
  let s := if r = recSaved then s.raise CAL_EVENT_REC_SAVED d else s
  s.modCnv d fun x => { x with recResult := none }

section
variable (s : State) (d r : Nat)

theorem touches_recordEnded : Touches [CAL_REC_CTRL_BUSY, CAL_REC_CTRL_RESULT, CAL_EVENT_REC_SAVED] s (recordEnded s d r) := by
  unfold recordEnded
  dsimp only
  refine Touches.trans ?_ (touches_modCnv ..)
  split
  · exact (((Touches.refl _ s).wr (by decide) ..).wr (by decide) ..).raise (by decide) ..
  · exact ((Touches.refl _ s).wr (by decide) ..).wr (by decide) ..

theorem recordEnded_rest :
    recordEnded s d r = { s with regs := (recordEnded s d r).regs, cnv := (recordEnded s d r).cnv } := by
  unfold recordEnded
  dsimp only
  split <;> rfl

theorem recordEnded_cnvSt : (recordEnded s d r).cnvSt d = { s.cnvSt d with recResult := none } := by
  unfold recordEnded
  dsimp only
  split <;> exact modCnv_cnvSt ..

/-- What the end writes before the event stays. -/
theorem rd_recordEnded {g : Fld} (hg : place g ≠ place CAL_EVENT_REC_SAVED) (e : Nat) :
    (recordEnded s d r).rd g e = ((s.wr CAL_REC_CTRL_BUSY d 0).wr CAL_REC_CTRL_RESULT d r).rd g e := by
  unfold recordEnded
  dsimp only
  rw [modCnv_rd]
  split
  · exact rd_raise_other _ hg ..
  · rfl

end

/-- A failed verification shows itself, disables the converters and begins a quick pass. -/
def verifyFailed (s : State) (d : Nat) : State :=
  let s := (s.raise CAL_EVENT_VERIFY_FAIL d).wr CAL_REC_CTRL_RESULT d recVerifyFail
  let s := (s.wr CNV_CTRL_ADC_EN d 0).wr CNV_CTRL_DAC_EN d 0
  let s := (s.wr CAL_STATUS_FG_STATE d 1).wr CNV_STATUS_FG_ACTIVE d 1
  let s := (s.wr BUP_STATUS_WARM d 0).wr BUP_STATUS_STATE d 2
  s.modCnv d fun x => { x with verifying := false, verifyBad := false, recConverged := false, fgScope := 0, fgFailed := 0 }

/-- Every converter of a die is disabled. -/
def convertersOff (s : State) (d : Nat) : State := s.forEach (List.range 8) fun t u => t.converter d u false 0 0

theorem convertersOff_rest (s : State) (d : Nat) : convertersOff s d =
    { s with regs := (convertersOff s d).regs, units := (convertersOff s d).units, pwr := (convertersOff s d).pwr } :=
  forEach_invariant (P := fun u => u = { s with regs := u.regs, units := u.units, pwr := u.pwr }) _
    (fun u c _ hu => by rw [converter_rest, hu]) rfl

theorem verifyEnd_fails {s : State} {d : Nat} (hver : (s.cnvSt d).verifying = true) (hbad : (s.cnvSt d).verifyBad = true) :
    s.verifyEnd d = verifyFailed (convertersOff s d) d := by
  have hcnv : (convertersOff s d).cnvSt d = s.cnvSt d := by
    rw [convertersOff_rest]
    rfl
  rw [State.verifyEnd, hver, hbad]
  refine (if_neg (c := (!((convertersOff s d).cnvSt d).verifying) = true) ?_).trans
    (if_pos (c := ((convertersOff s d).cnvSt d).verifyBad = true) ?_)
  · rw [hcnv, hver]
    decide
  · rw [hcnv, hbad]

theorem verifyEnd_passes {s : State} {d : Nat} (hver : (s.cnvSt d).verifying = true) (hgood : (s.cnvSt d).verifyBad = false) :
    s.verifyEnd d = s.modCnv d fun x => { x with verifying := false } := by
  simp only [State.verifyEnd, State.calVerifyEnd, hver, hgood, Bool.and_false, Bool.not_true, Bool.false_eq_true, if_false]

theorem verifyFailed_part (s : State) (d : Nat) : (verifyFailed s d).part = s.part := rfl

theorem rd_verifyFailed (s : State) (d : Nat) :
    (verifyFailed s d).rd CNV_CTRL_ADC_EN d = 0 ∧ (verifyFailed s d).rd CNV_CTRL_DAC_EN d = 0 ∧
    (verifyFailed s d).rd CAL_EVENT_VERIFY_FAIL d = 1 ∧ (verifyFailed s d).rd CAL_REC_CTRL_RESULT d = recVerifyFail ∧
    (verifyFailed s d).rd CAL_STATUS_FG_STATE d = 1 ∧ (verifyFailed s d).rd BUP_STATUS_WARM d = 0 := by
  simp (disch := decide) only [verifyFailed, modCnv_rd, rd_wr_other, rd_wr_same]
  exact ⟨rfl, rfl, rd_raise_one _ rfl _, rfl, rfl, rfl⟩

/-- A record that is refused shows its reason. -/
def recordRefused (s : State) (d n : Nat) : State :=
  ((s.wr CAL_REC_CTRL_REASON d n).raise CAL_EVENT_REC_REFUSED d).modCnv d fun x => { x with recResult := some recRefused }

theorem startingUp_recBusy : (recBusy s d).startingUp d = s.startingUp d :=
  startingUp_congr rfl (rd_recBusy_other s d (by decide) d)

variable {s d} (hbusy : s.rd CAL_REC_CTRL_BUSY d = 0) (hup : s.startingUp d = false)
include hbusy

theorem calRestore_begins : s.calRestore d =
    if s.flag CNV_COEF_CTRL_SWITCH_PENDING d then (recBusy s d).modCnv d fun x => { x with restoreDue := true }
    else match s.recordReason d (s.winBytes d) with
      | some n => recordRefused (recBusy s d) d n
      | none => (recBusy s d).restoreRecord d (s.winBytes d) := by
  rw [State.calRestore, if_neg (ne_true_of_eq_false (flag_of_rd_zero hbusy)), ← recordReason_recBusy]
  have hflag : (recBusy s d).flag CNV_COEF_CTRL_SWITCH_PENDING d = s.flag CNV_COEF_CTRL_SWITCH_PENDING d := by
    rw [State.flag, State.flag, rd_recBusy_other _ _ (by decide)]
  rw [← hflag]
  rfl

include hup

/-- Outside a start a restore leaves what its checks leave. -/
theorem restoreInStart_of {t : State} (hop : s.calRestore d = t) (ht : t.startingUp d = s.startingUp d) :
    s.restoreInStart d = t := by
  rw [State.restoreInStart, if_neg (ne_true_of_eq_false (flag_of_rd_zero hbusy)), hop]
  exact if_neg (by rw [ht, hup, Bool.false_and]; exact Bool.false_ne_true)

end

section
variable {s : State} {d : Fin 8} (hd : (d : Nat) < s.part.dies)
include hd

theorem calSave_refused (hbusy : s.rd CAL_REC_CTRL_BUSY d ≠ 0) : Completes (.calSave d) s fun t =>
    t.bus.last.code = 2 ∧ t = { s with regs := t.regs, bus := t.bus, out := t.out } ∧ KeepsRegs [] s t :=
  completes_refused hd (if_pos (flag_of_rd_ne (s := silenced s) hbusy))

theorem calRestore_refused (hbusy : s.rd CAL_REC_CTRL_BUSY d ≠ 0) : Completes (.calRestore d) s fun t =>
    t.bus.last.code = 2 ∧ t = { s with regs := t.regs, bus := t.bus, out := t.out } ∧ KeepsRegs [] s t :=
  completes_refused hd ((if_pos (flag_of_rd_ne (s := silenced s) hbusy)).trans
    (if_pos (flag_of_rd_ne (s := silenced s) hbusy)))

section
variable (hbusy : s.rd CAL_REC_CTRL_BUSY d = 0)
include hbusy

theorem calSave_waits (hpend : s.rd CNV_COEF_CTRL_SWITCH_PENDING d ≠ 0) : Completes (.calSave d) s fun t =>
    t.rd CAL_REC_CTRL_BUSY d = 1 ∧ t.cnvSt d = { s.cnvSt d with saveDue := true } ∧ t.calWin = s.calWin ∧
    t.bus.last.code = 0 := by
  have hflag : (recBusy (silenced s) d).flag CNV_COEF_CTRL_SWITCH_PENDING d = true :=
    flag_of_rd_ne (by rwa [rd_recBusy_other _ _ (by decide)])
  refine completes_dieOp [CAL_REC_CTRL_BUSY] _ hd
    ((if_neg (ne_true_of_eq_false (flag_of_rd_zero (s := silenced s) hbusy))).trans (if_pos hflag))
    ((touches_recBusy ..).trans (touches_modCnv ..)) fun t ht => ⟨?_, ?_, ?_, ?_⟩
  · rw [ht.rd _ _ _ (by decide), modCnv_rd]
    exact rd_recBusy ..
  · rw [ht.cnvSt, modCnv_cnvSt]
    rfl
  · rw [ht.rest]
    rfl
  · rw [ht.rest]
    rfl

theorem calSave_saves (hpend : s.rd CNV_COEF_CTRL_SWITCH_PENDING d = 0) : Completes (.calSave d) s fun t =>
    t.rd CAL_REC_CTRL_BUSY d = 1 ∧ t.cnvSt d = { s.cnvSt d with saveDue := false, recResult := some recSaved } ∧
    (∀ w, w < 1024 → t.winRd d w = natLE (((s.recordBody d ++ bytesLE 4 (crc32c (s.recordBody d))).drop (4 * w)).take 4)) ∧
    t = { s with regs := t.regs, cnv := t.cnv, calWin := t.calWin, bus := t.bus, out := t.out } ∧
    KeepsRegs [CAL_REC_CTRL_BUSY] s t := by
  have hflag : (recBusy (silenced s) d).flag CNV_COEF_CTRL_SWITCH_PENDING d = false :=
    flag_of_rd_zero ((rd_recBusy_other _ _ (by decide) _).trans hpend)
  have hlen := recordBody_length s d
  have hop : (recBusy (silenced s) d).saveRecord d = bodySaved (recBusy (silenced s) d) d (s.recordBody d) := by
    rw [saveRecord_eq, recordBody_recBusy, recordBody_silenced]
  generalize s.recordBody d = body at hlen hop ⊢
  have hrest := bodySaved_rest (recBusy (silenced s) d) d body
  refine completes_dieOp [CAL_REC_CTRL_BUSY] _ hd
    (((if_neg (ne_true_of_eq_false (flag_of_rd_zero (s := silenced s) hbusy))).trans
      (if_neg (ne_true_of_eq_false hflag))).trans hop)
    ((touches_recBusy ..).trans (by rw [hrest]; exact .of_regs rfl rfl)) fun t ht => ⟨?_, ?_, fun w hw => ?_, ?_, ht.keeps⟩
  · rw [ht.rd _ _ _ (by decide), hrest]
    exact rd_recBusy ..
  · rw [ht.cnvSt, bodySaved_cnvSt]
    rfl
  · exact (ht.winRd d w).trans (winRd_bodySaved _ d body hw hlen)
  · rw [ht.rest, hrest]
    rfl

section
variable (hup : s.startingUp d = false)
include hup

theorem calRestore_waits (hpend : s.rd CNV_COEF_CTRL_SWITCH_PENDING d ≠ 0) : Completes (.calRestore d) s fun t =>
    t.rd CAL_REC_CTRL_BUSY d = 1 ∧ t.cnvSt d = { s.cnvSt d with restoreDue := true } ∧ t.coef = s.coef ∧
    t.bus.last.code = 0 := by
  have hop := (calRestore_begins (s := silenced s) hbusy).trans (if_pos (flag_of_rd_ne (s := silenced s) hpend))
  refine completes_dieOp [CAL_REC_CTRL_BUSY] _ hd
    (restoreInStart_of (s := silenced s) hbusy hup hop (startingUp_recBusy (silenced s) d))
    ((touches_recBusy ..).trans (touches_modCnv ..)) fun t ht => ⟨?_, ?_, ?_, ?_⟩
  · rw [ht.rd _ _ _ (by decide), modCnv_rd]
    exact rd_recBusy ..
  · rw [ht.cnvSt, modCnv_cnvSt]
    rfl
  · rw [ht.rest]
    rfl
  · rw [ht.rest]
    rfl

variable (hpend : s.rd CNV_COEF_CTRL_SWITCH_PENDING d = 0)
include hpend

theorem calRestore_refuses {n : Nat} (hreason : s.recordReason d (s.winBytes d) = some n) :
    Completes (.calRestore d) s fun t =>
      t.rd CAL_REC_CTRL_REASON d = n ∧ t.rd CAL_EVENT_REC_REFUSED d = 1 ∧ t.rd CAL_REC_CTRL_BUSY d = 1 ∧
      t.cnvSt d = { s.cnvSt d with recResult := some recRefused } ∧
      t = { s with regs := t.regs, cnv := t.cnv, bus := t.bus, out := t.out } ∧
      KeepsRegs [CAL_REC_CTRL_BUSY, CAL_REC_CTRL_REASON, CAL_EVENT_REC_REFUSED] s t := by
  have hreason' : (silenced s).recordReason d ((silenced s).winBytes d) = some n := hreason
  have hop : (silenced s).calRestore d = recordRefused (recBusy (silenced s) d) d n := by
    rw [calRestore_begins (s := silenced s) hbusy, hreason']
    exact if_neg (ne_true_of_eq_false (flag_of_rd_zero (s := silenced s) hpend))
  have hup' : (recordRefused (recBusy (silenced s) d) d n).startingUp d = s.startingUp d :=
    startingUp_congr rfl ((rd_raise_other _ (by decide) ..).trans ((rd_wr_other _ (by decide) ..).trans
      (rd_recBusy_other _ _ (by decide) _)))
  refine completes_dieOp [CAL_REC_CTRL_BUSY, CAL_REC_CTRL_REASON, CAL_EVENT_REC_REFUSED] _ hd
    (restoreInStart_of (s := silenced s) hbusy hup hop hup')
    (((((touches_recBusy ..).mono (by decide)).wr (by decide) ..).raise (by decide) ..).trans (touches_modCnv ..))
    fun t ht => ⟨?_, ?_, ?_, ?_, ?_, ht.keeps⟩
  · rw [ht.rd _ _ _ (by decide), recordRefused, modCnv_rd, rd_raise_other _ (by decide), rd_wr_same]
    have hle := recordReason_le _ _ hreason
    exact Nat.mod_eq_of_lt (show n < 16 by omega)
  · rw [ht.rd _ _ _ (by decide), recordRefused, modCnv_rd, rd_raise_one _ rfl]
  · rw [ht.rd _ _ _ (by decide), recordRefused, modCnv_rd, rd_raise_other _ (by decide), rd_wr_other _ (by decide)]
    exact rd_recBusy ..
  · rw [ht.cnvSt, recordRefused, modCnv_cnvSt]
    rfl
  · rw [ht.rest]
    rfl

section
variable (hgood : s.recordReason d (s.winBytes d) = none)
include hgood

omit hd hup in
theorem calRestore_writes : (silenced s).calRestore d = (recBusy (silenced s) d).restoreRecord d (s.winBytes d) := by
  have hgood' : (silenced s).recordReason d ((silenced s).winBytes d) = none := hgood
  rw [calRestore_begins (s := silenced s) hbusy, hgood']
  exact if_neg (ne_true_of_eq_false (flag_of_rd_zero (s := silenced s) hpend))

/-- A record without a fault is written; without the sampling reference its switch waits. -/
theorem calRestore_pends (hlock : s.rd CNV_STATUS_SCLK_LOCK d = 0) : Completes (.calRestore d) s fun t =>
    (t.cnvSt d).restoring = true ∧ (t.cnvSt d).verifying = true ∧ t.rd CNV_COEF_CTRL_SWITCH_PENDING d = 1 ∧
    t.activeSet d = s.activeSet d ∧ ∀ w, w < 668 → t.coefRd d (s.inactiveSet d) w = recWord (s.winBytes d) w := by
  generalize hr : s.winBytes d = r
  have hwritten := touches_recordWritten (recBusy (silenced s) d) d r
  have hkept (g : Fld) (hg : place g ∉ (CAL_REC_CTRL_BUSY :: restoreFlds).map place) :
      (recordWritten (recBusy (silenced s) d) d r).rd g d = s.rd g d :=
    (hwritten.rd _ _ _ fun h => hg (List.mem_cons_of_mem _ h)).trans
      ((touches_recBusy (silenced s) d).rd _ _ _ fun h => hg (List.mem_cons.mpr (.inl (List.mem_singleton.mp h))))
  have hop : (silenced s).calRestore d = recordWritten (recBusy (silenced s) d) d r := by
    rw [calRestore_writes hbusy hpend hgood, restoreRecord_eq, hr]
    exact if_neg (ne_true_of_eq_false (flag_of_rd_zero ((hkept _ (by decide)).trans hlock)))
  have hup' : (recordWritten (recBusy (silenced s) d) d r).startingUp d = s.startingUp d :=
    startingUp_congr ((recordWritten_dies ..).trans rfl) (hkept _ (by decide))
  have hset : (recBusy (silenced s) d).inactiveSet d = s.inactiveSet d := inactiveSet_congr (rd_recBusy_other _ _ (by decide) _)
  obtain ⟨hres, hver⟩ := recordWritten_cnvSt (recBusy (silenced s) d) d r
  refine completes_dieOp (CAL_REC_CTRL_BUSY :: restoreFlds) _ hd (restoreInStart_of (s := silenced s) hbusy hup hop hup')
    (((touches_recBusy ..).mono (by decide)).trans (hwritten.mono fun _ h => List.mem_cons_of_mem _ h))
    fun t ht => ⟨?_, ?_, ?_, ?_, fun w hw => ?_⟩
  · rw [ht.cnvSt, hres]
  · rw [ht.cnvSt, hver]
  · rw [ht.rd _ _ _ (by decide), rd_recordWritten_pending]
  · exact (ht.rd _ _ _ (by decide)).trans (hkept _ (by decide))
  · rw [ht.coefRd, ← hset]
    exact coefRd_recordWritten _ d r hw

/-- With the sampling reference the switch follows at once, and the record is restored. -/
theorem calRestore_restores (hlock : s.rd CNV_STATUS_SCLK_LOCK d ≠ 0) : Completes (.calRestore d) s fun t =>
    t.rd CAL_EVENT_REC_RESTORED d = 1 ∧ (t.cnvSt d).recResult = some recRestored ∧ (t.cnvSt d).verifying = true ∧
    t.rd CNV_COEF_CTRL_SWITCH_PENDING d = 0 ∧ t.activeSet d = s.inactiveSet d ∧
    ∀ w, w < 668 → t.coefRd d (s.inactiveSet d) w = recWord (s.winBytes d) w := by
  have hrange : (recBusy (silenced s) d).recordInRange d (s.winBytes d) = true := by
    rw [recordInRange_recBusy]
    exact recordInRange_of_reason hgood
  generalize hr : s.winBytes d = r at hrange
  have hwritten := touches_recordWritten (recBusy (silenced s) d) d r
  have hswap := touches_swapSets (recordWritten (recBusy (silenced s) d) d r) d
  have hkept (g : Fld) (hg : place g ∉ (CAL_REC_CTRL_BUSY :: restoreFlds).map place) :
      (recordWritten (recBusy (silenced s) d) d r).rd g d = s.rd g d :=
    (hwritten.rd _ _ _ fun h => hg (List.mem_cons_of_mem _ h)).trans
      ((touches_recBusy (silenced s) d).rd _ _ _ fun h => hg (List.mem_cons.mpr (.inl (List.mem_singleton.mp h))))
  have hop : (silenced s).calRestore d = ((recordWritten (recBusy (silenced s) d) d r).swapSets d).endRestore d := by
    rw [calRestore_writes hbusy hpend hgood, restoreRecord_eq, hr]
    exact if_pos (flag_of_rd_ne (by rwa [hkept _ (by decide)]))
  have hdies : (recordWritten (recBusy (silenced s) d) d r).dies = s.dies := recordWritten_dies ..
  have hset : (recordWritten (recBusy (silenced s) d) d r).inactiveSet d = s.inactiveSet d :=
    inactiveSet_congr (hkept _ (by decide))
  have hbusySet : (recBusy (silenced s) d).inactiveSet d = s.inactiveSet d :=
    inactiveSet_congr (rd_recBusy_other _ _ (by decide) _)
  have hver := (recordWritten_cnvSt (recBusy (silenced s) d) d r).2
  have hword (w : Nat) (hw : w < 668) := coefRd_recordWritten (recBusy (silenced s) d) d r hw
  have hhard := inHardwareRange_recordWritten (recBusy (silenced s) d) d r hrange
  rw [hbusySet] at hword hhard
  have hbusyTo : Touches (CAL_REC_CTRL_BUSY :: restoreFlds) (silenced s) (recordWritten (recBusy (silenced s) d) d r) :=
    ((touches_recBusy ..).mono (by decide)).trans (hwritten.mono fun _ h => List.mem_cons_of_mem _ h)
  generalize recordWritten (recBusy (silenced s) d) d r = v at *
  have hup' : ((v.swapSets d).endRestore d).startingUp d = s.startingUp d := by
    refine startingUp_congr ?_ (((touches_endRestore _ d).rd _ _ _ (by decide)).trans ((hswap.rd _ _ _ (by decide)).trans
      (hkept _ (by decide))))
    rw [endRestore_dies, swapSets_dies, hdies]
  refine completes_dieOp (CAL_EVENT_REC_RESTORED :: swapFlds ++ CAL_REC_CTRL_BUSY :: restoreFlds) _ hd
    (restoreInStart_of (s := silenced s) hbusy hup hop hup')
    (((hbusyTo.mono fun _ h => List.mem_append_right _ h).trans (hswap.mono fun _ h => List.mem_append_left _
      (List.mem_cons_of_mem _ h))).trans ((touches_endRestore ..).mono (by simp)))
    fun t ht => ⟨?_, ?_, ?_, ?_, ?_, fun w hw => ?_⟩
  · rw [ht.rd _ _ _ (by decide), rd_endRestore]
  · rw [ht.cnvSt, endRestore_cnvSt]
  · rw [ht.cnvSt, endRestore_cnvSt, swapSets_cnvSt]
    exact hver
  · rw [ht.rd _ _ _ (by decide), (touches_endRestore _ d).rd _ _ _ (by decide), rd_swapSets_pending]
  · rw [State.activeSet, ht.rd _ _ _ (by decide), (touches_endRestore _ d).rd _ _ _ (by decide), ← hset]
    exact swapSets_activeSet v d
  · rw [ht.coefRd, coefRd_congr (endRestore_coef ..), ← hword w hw]
    rw [← hset] at hhard ⊢
    exact coefRd_swapSets hhard w

end
end
end

/-! ### The end of a save or a restore (R127, R128) -/

theorem calRecordDone_shows {r : Nat} (hresult : (s.cnvSt d).recResult = some r) (hr : r < 16) :
    Completes (.calRecordDone d) s fun t =>
      t.rd CAL_REC_CTRL_BUSY d = 0 ∧ t.rd CAL_REC_CTRL_RESULT d = r ∧ (r = recSaved → t.rd CAL_EVENT_REC_SAVED d = 1) ∧
      t.cnvSt d = { s.cnvSt d with recResult := none } ∧ t = { s with regs := t.regs, cnv := t.cnv, out := t.out } ∧
      KeepsRegs [CAL_REC_CTRL_BUSY, CAL_REC_CTRL_RESULT, CAL_EVENT_REC_SAVED] s t := by
  have hop : (match ((silenced s).cnvSt d).recResult with
      | none => silenced s
      | some r => recordEnded (silenced s) d r) = recordEnded (silenced s) d r := by
    rw [show ((silenced s).cnvSt d).recResult = some r from hresult]
  refine completes_dieOp _ _ hd hop (touches_recordEnded ..) fun t ht => ⟨?_, ?_, fun h => ?_, ?_, ?_, ht.keeps⟩
  · rw [ht.rd _ _ _ (by decide), rd_recordEnded _ _ _ (by decide), rd_wr_other _ (by decide), rd_wr_same]
    rfl
  · rw [ht.rd _ _ _ (by decide), rd_recordEnded _ _ _ (by decide), rd_wr_same]
    exact Nat.mod_eq_of_lt hr
  · rw [ht.rd _ _ _ (by decide), recordEnded, if_pos h, modCnv_rd, rd_raise_one _ rfl]
  · rw [ht.cnvSt, recordEnded_cnvSt]
    rfl
  · rw [ht.rest, recordEnded_rest]
    rfl


/-! ### Verification (R129) -/

theorem calVerifyEnd_fails (hver : (s.cnvSt d).verifying = true) (hbad : (s.cnvSt d).verifyBad = true) :
    Completes (.calVerifyEnd d) s fun t =>
      t.rd CNV_CTRL_ADC_EN d = 0 ∧ t.rd CNV_CTRL_DAC_EN d = 0 ∧ t.rd CAL_EVENT_VERIFY_FAIL d = 1 ∧
      t.rd CAL_REC_CTRL_RESULT d = recVerifyFail ∧ t.rd CAL_STATUS_FG_STATE d = 1 ∧ t.rd BUP_STATUS_WARM d = 0 := by
  have hop : (silenced s).verifyEnd d = verifyFailed (convertersOff (silenced s) d) d := verifyEnd_fails hver hbad
  have hpart : ((silenced s).verifyEnd d).part = s.part := by
    rw [hop, verifyFailed_part, convertersOff_rest]
    rfl
  have hrd (g : Fld) (hg : place g ∉ summaryPlaces) : (ran s fun u => u.verifyEnd d).rd g d =
      (verifyFailed (convertersOff (silenced s) d) d).rd g d := (rd_ran hpart hg d 0).trans (by rw [hop])
  refine completes_runDie s hd ?_
  rw [hrd _ (by decide), hrd _ (by decide), hrd _ (by decide), hrd _ (by decide), hrd _ (by decide), hrd _ (by decide)]
  exact rd_verifyFailed ..


theorem calVerifyEnd_passes (hver : (s.cnvSt d).verifying = true) (hgood : (s.cnvSt d).verifyBad = false) :
    Completes (.calVerifyEnd d) s fun t =>
      t.cnvSt d = { s.cnvSt d with verifying := false } ∧ t = { s with regs := t.regs, cnv := t.cnv, out := t.out } ∧
      KeepsRegs [] s t := by
  have hop := verifyEnd_passes (s := silenced s) (d := d) hver hgood
  refine completes_dieOp [] _ hd hop (touches_modCnv ..) fun t ht => ⟨?_, ?_, ht.keeps⟩
  · rw [ht.cnvSt, modCnv_cnvSt]
    rfl
  · rw [ht.rest]
    rfl


/-! ### The wait for a record (R412) -/

theorem recWaitExpire_cold (hup : s.startingUp d = true) (hwait : s.rd BUP_STATUS_REC_WAITING d ≠ 0) :
    Completes (.recWaitExpire d) s fun t =>
      t.rd BUP_STATUS_REC_WAITING d = 0 ∧ t.rd BUP_STATUS_WARM d = 0 ∧ t.rd CAL_STATUS_FG_STATE d = 1 ∧
      t.rd CNV_STATUS_FG_ACTIVE d = 1 ∧ t.cnvSt d = { s.cnvSt d with fgScope := 0, fgFailed := 0 } ∧
      t = { s with regs := t.regs, cnv := t.cnv, out := t.out } ∧
      KeepsRegs [BUP_STATUS_REC_WAITING, BUP_STATUS_WARM, CAL_STATUS_FG_STATE, CNV_STATUS_FG_ACTIVE] s t := by
  have hop : (silenced s).coldPasses d =
      (((silenced s).wr BUP_STATUS_REC_WAITING d 0).wr BUP_STATUS_WARM d 0).beginPass d 0 := if_pos (by
    rw [show (silenced s).startingUp d = true from hup, flag_of_rd_ne (s := silenced s) hwait]
    rfl)
  refine completes_dieOp [BUP_STATUS_REC_WAITING, BUP_STATUS_WARM, CAL_STATUS_FG_STATE, CNV_STATUS_FG_ACTIVE] _ hd hop
    ((((((Touches.refl _ _).wr (by decide) ..).wr (by decide) ..).wr (by decide) ..).wr (by decide) ..).trans
      (touches_modCnv ..)) fun t ht => ⟨?_, ?_, ?_, ?_, ?_, ?_, ht.keeps⟩
  · rw [ht.rd _ _ _ (by decide), State.beginPass]
    simp (disch := decide) only [modCnv_rd, rd_wr_other, rd_wr_same]
    rfl
  · rw [ht.rd _ _ _ (by decide), State.beginPass]
    simp (disch := decide) only [modCnv_rd, rd_wr_other, rd_wr_same]
    rfl
  · rw [ht.rd _ _ _ (by decide), State.beginPass]
    simp (disch := decide) only [modCnv_rd, rd_wr_other, rd_wr_same]
    rfl
  · rw [ht.rd _ _ _ (by decide), State.beginPass]
    simp only [modCnv_rd, rd_wr_same]
    rfl
  · rw [ht.cnvSt, State.beginPass, modCnv_cnvSt]
    rfl
  · rw [ht.rest]
    rfl


end

/-- Settles O45, each command by what its operation leaves: a pass writes the words it finds and no other, a restored record's
words are within the hardware range, so the switch to them clamps none. -/
theorem calibrationPassesAndRecords : Obligations.CalibrationPassesAndRecords := fun _ _ hd =>
  ⟨fun scope => ⟨fgStart_goesOn hd scope, fgStart_refused hd scope, fgStart_starts hd scope⟩,
    fun _ hrun => ⟨fgPassEnd_stores hd hrun, fgPassEnd_barred hd hrun, fgPassEnd_repeats hd hrun, fgPassEnd_gives_up hd hrun⟩,
    fun _ hclips hadc hlow hen hon hver => ⟨fun hin hlo hhi hstep => ⟨bgCalUpdate_barred hd hclips hadc hlow hen hon hver hin,
      bgCalUpdate_applies hd hclips hadc hlow hen hon hver hin hlo hhi hstep⟩,
      bgCalUpdate_rejects hd hclips hadc hlow hen hon hver⟩,
    fun hbusy => ⟨calSave_refused hd hbusy, calRestore_refused hd hbusy⟩,
    fun hbusy => ⟨calSave_waits hd hbusy, calSave_saves hd hbusy, fun hpend hup => calRestore_waits hd hbusy hup hpend,
      fun _ hpend hup => calRestore_refuses hd hbusy hup hpend,
      fun hpend hup hgood => ⟨calRestore_pends hd hbusy hup hpend hgood, calRestore_restores hd hbusy hup hpend hgood⟩⟩,
    fun _ hresult hr => calRecordDone_shows hd hresult hr, calVerifyEnd_fails hd, calVerifyEnd_passes hd, recWaitExpire_cold hd⟩

end Sys2Proof.Laws
end

section
/-! SUPPORT. PROOFS. Transmit arms, frequency trim, level ramps and the pre-compensation sets (O48). -/
namespace Sys2Proof.Laws
open Sys2Proof Sys2Proof.Machine

theorem Shows.txArm {fs : List Fld} {s t u : State} (h : Shows fs s t u) (d i : Nat) : u.txArm d i = t.txArm d i := by
  rw [h.rest]
  rfl

theorem Shows.txDie {fs : List Fld} {s t u : State} (h : Shows fs s t u) (d : Nat) : u.txDie d = t.txDie d := by
  rw [h.rest]
  rfl

/-! ### The state of a transmit arm (R184, R192) -/

/-- The registers that a transmit arm's state shows in. -/
def txFlds : List Fld := [TXD_SC_STATUS_STATE, TXD_SC_STATUS_CONST, TXD_SC_STATUS_BYPASSED, FEC_SC_STATUS_TX_RUN]

section
variable (s : State) (d i v : Nat)

theorem writesOnly_showFormat : WritesOnly (AtFields [TXD_SC_STATUS_CONST, TXD_SC_STATUS_BYPASSED]) s (s.showFormat d i) := by
  unfold State.showFormat
  split
  · exact ((WritesOnly.refl _ s).wr (.of_mem (by decide) d) _ i).wr (.of_mem (by decide) d) _ i
  · exact ((WritesOnly.refl _ s).wr (.of_mem (by decide) d) _ i).wr (.of_mem (by decide) d) _ i

/-- An arm's state as shown with its format; the stream runs while the arm sends. -/
def txShown (s : State) (d i v : Nat) : State :=
  ((s.wr TXD_SC_STATUS_STATE d v i).showFormat d i).wrb FEC_SC_STATUS_TX_RUN d (v == 3) i

theorem setTxState_of_free (h : s.heldIdle d = false) : s.setTxState d i v = txShown s d i v :=
  if_neg (by rw [h, Bool.false_and]; exact Bool.false_ne_true)

theorem setTxState_of_held (h : s.heldIdle d = true) (hv : v = 1 ∨ v = 2 ∨ v = 3) : s.setTxState d i v = s :=
  if_pos (by rcases hv with rfl | rfl | rfl <;> rw [h] <;> rfl)

theorem touches_showFormat : Touches txFlds s (s.showFormat d i) :=
  (Touches.of_writesOnly (writesOnly_showFormat s d i)).mono (by decide)

theorem touches_txShown : Touches txFlds s (txShown s d i v) :=
  ((((Touches.refl _ s).wr (by decide) ..).trans (touches_showFormat ..)).wrb (by decide) ..)

theorem txShown_rest : txShown s d i v = { s with regs := (txShown s d i v).regs } := by
  rw [txShown, (writesOnly_showFormat ..).rest]
  rfl

theorem txState_txShown (hv : v < 8) : (txShown s d i v).txState d i = v :=
  (rd_wrb_other _ (by decide) ..).trans (((writesOnly_showFormat ..).rd _ _ _ (by unfold AtFields; decide)).trans
    ((rd_wr_same ..).trans (Nat.mod_eq_of_lt hv)))

theorem rd_txShown_run : (txShown s d i v).rd FEC_SC_STATUS_TX_RUN d i = b2n (v == 3) := rd_wrb_same _ _ _ _ _ rfl

end

/-! ### A stream starts (R192) -/

section
variable (s : State) (d i : Nat)

/-- The express stream starts with its first subcarrier. -/
def expressStarted (s : State) (d i : Nat) : State :=
  if s.scExpress d i && (s.expressScs d).isEmpty then
    s.modTx d 8 fun a => { a with coding := { markMf := s.time.mf } } else s

theorem expressStarted_rest : expressStarted s d i = { s with txArms := (expressStarted s d i).txArms } := by
  unfold expressStarted
  split <;> rfl

theorem expressStarted_txArm {j : Nat} (hj : j ≠ 8) : (expressStarted s d i).txArm d j = s.txArm d j := by
  unfold expressStarted
  split
  · exact modTx_txArm_other s (fun h => hj h.2) _
  · rfl

theorem startStream_eq : s.startStream d i = (expressStarted s d i).modTx d i fun a =>
    { a with coding := { markMf := (expressStarted s d i).time.mf }, symX := [], symY := [], blockTx := 0, bip := 0, last := []
             waiting := List.replicate 24 [] } := rfl

theorem startStream_rest : s.startStream d i = { s with txArms := (s.startStream d i).txArms } := by
  rw [startStream_eq, expressStarted_rest]
  rfl

end

section
variable {s : State} {d : Fin 8} (hd : (d : Nat) < s.part.dies) (i : Fin 8)
include hd

theorem txArmReady_ready (hidle : s.heldIdle d = false) (hst : s.txState d i = 1) : Completes (.txArmReady d i) s fun t =>
    t.txState d i = 2 ∧ t.rd FEC_SC_STATUS_TX_RUN d i = 0 ∧ OnlyRegs txFlds s t := by
  refine completes_dieOp txFlds _ hd ((if_pos hst).trans (setTxState_of_free (silenced s) d i 2 hidle)) (touches_txShown ..)
    fun t ht => ⟨?_, ?_, ht.onlyRegs ?_⟩
  · rw [State.txState, ht.rd _ _ _ (by decide)]
    exact txState_txShown _ d i 2 (by decide)
  · rw [ht.rd _ _ _ (by decide), rd_txShown_run]
    rfl
  · rw [txShown_rest]
    rfl

theorem txArmReady_waits (h : s.heldIdle d = true ∨ s.txState d i ≠ 1) : Completes (.txArmReady d i) s (OnlyRegs [] s) := by
  refine completes_runDie s hd (onlyRegs_ran_of_fixed ?_)
  by_cases hst : s.txState d i = 1
  · exact (if_pos hst).trans (setTxState_of_held (silenced s) d i 2 (h.resolve_right (not_not_intro hst)) (by decide))
  · exact if_neg hst

/-! ### An arm starts to send (R184, R186, R192) -/

theorem txArmSendStart_off (hoff : s.txOn d i = false) : Completes (.txArmSendStart d i) s (OnlyRegs [] s) :=
  completes_runDie s hd (onlyRegs_ran_of_fixed (if_pos (by
    rw [show (silenced s).txOn d i = false from hoff]
    rfl)))

theorem txArmSendStart_late (hon : s.txOn d i = true) (hst : s.txState d i = 1) : Completes (.txArmSendStart d i) s fun t =>
    t.txArm d i = { s.txArm d i with due := true } ∧ t = { s with regs := t.regs, txArms := t.txArms, out := t.out } ∧
    KeepsRegs [] s t := by
  have hon' : ¬ (!(silenced s).txOn d i) = true := by
    rw [show (silenced s).txOn d i = true from hon]
    decide
  refine completes_dieOp [] _ hd ((if_neg hon').trans (if_pos hst)) (.of_regs (modTx_regs ..) (modTx_part ..))
    fun t ht => ⟨?_, ?_, ht.keeps⟩
  · rw [ht.txArm, modTx_txArm]
    rfl
  · rw [ht.rest]
    rfl

end

/-- The event of an arm that starts late. -/
def lateShown (s : State) (d i : Nat) : State :=
  if (s.txArm d i).due then s.raise TXD_EVENT_TX_LATE d (2 ^ i) else s

/-- An arm that is ready starts to send, late when it was due. -/
def sendStarted (s : State) (d i : Nat) : State :=
  (txShown ((lateShown s d i).startStream d i) d i 3).modTx d i fun a => { a with waking := false, due := false }

section
variable (s : State) (d i : Nat)

theorem touches_lateShown : Touches [TXD_EVENT_TX_LATE] s (lateShown s d i) :=
  .ite ((Touches.refl _ s).raise (by decide) ..) (.refl _ s)

theorem lateShown_rest : lateShown s d i = { s with regs := (lateShown s d i).regs } := by
  unfold lateShown
  split <;> rfl

theorem lateShown_txArm (j : Nat) : (lateShown s d i).txArm d j = s.txArm d j := by
  rw [lateShown_rest]
  rfl

theorem rd_lateShown (hi : i < 8) (hdue : (s.txArm d i).due = true) :
    ((lateShown s d i).rd TXD_EVENT_TX_LATE d).testBit i = true := by
  rw [lateShown, if_pos hdue]
  exact testBit_raise_mask s _ d _ i hi (Nat.testBit_two_pow_self ..)

theorem touches_startStream {fs : List Fld} : Touches fs s (s.startStream d i) := by
  rw [startStream_rest]
  exact .of_regs rfl rfl

theorem txShown_txArm (v j : Nat) : (txShown s d i v).txArm d j = s.txArm d j := by
  rw [txShown_rest]
  rfl

theorem startStream_txArm (hi : i ≠ 8) : (s.startStream d i).txArm d i =
    { s.txArm d i with coding := { markMf := s.time.mf }, symX := [], symY := [], blockTx := 0, bip := 0, last := []
                       waiting := List.replicate 24 [] } := by
  rw [startStream_eq, modTx_txArm, expressStarted_txArm s d i hi, expressStarted_rest]

theorem startStream_txArm_other {j : Nat} (hj : j ≠ 8) (hji : j ≠ i) : (s.startStream d i).txArm d j = s.txArm d j := by
  rw [startStream_eq, modTx_txArm_other _ (fun h => hji h.2), expressStarted_txArm s d i hj]

theorem touches_sendStarted : Touches (txFlds ++ [TXD_EVENT_TX_LATE]) s (sendStarted s d i) :=
  ((((touches_lateShown s d i).mono (by decide)).trans (touches_startStream ..)).trans
    ((touches_txShown ..).mono (by decide))).regs (modTx_regs ..) (modTx_part ..)

theorem sendStarted_rest :
    sendStarted s d i = { s with regs := (sendStarted s d i).regs, txArms := (sendStarted s d i).txArms } := by
  rw [sendStarted, txShown_rest, startStream_rest, lateShown_rest]
  rfl

theorem sendStarted_txArm (hi : i ≠ 8) : (sendStarted s d i).txArm d i =
    { tilt := (s.txArm d i).tilt, before := (s.txArm d i).before, coding := { markMf := s.time.mf } } := by
  rw [sendStarted, modTx_txArm, txShown_txArm, startStream_txArm _ d i hi, lateShown_txArm, lateShown_rest]

theorem sendStarted_txArm_other {j : Nat} (hj : j ≠ 8) (hji : j ≠ i) : (sendStarted s d i).txArm d j = s.txArm d j := by
  rw [sendStarted, modTx_txArm_other _ (fun h => hji h.2), txShown_txArm, startStream_txArm_other _ d i hj hji, lateShown_txArm]

end

section
variable {s : State} {d : Fin 8} (hd : (d : Nat) < s.part.dies)
include hd

theorem txArmSendStart_sends (i : Fin 8) (hon : s.txOn d i = true) (hidle : s.heldIdle d = false) (hst : s.txState d i = 2)
    (hlock : s.rd CNV_STATUS_SCLK_LOCK d ≠ 0) : Completes (.txArmSendStart d i) s fun t =>
      t.txState d i = 3 ∧ t.rd FEC_SC_STATUS_TX_RUN d i = 1 ∧
      ((s.txArm d i).due = true → (t.rd TXD_EVENT_TX_LATE d).testBit i = true) ∧
      t.txArm d i = { tilt := (s.txArm d i).tilt, before := (s.txArm d i).before, coding := { markMf := s.time.mf } } ∧
      (∀ j, j < 8 → j ≠ (i : Nat) → t.txArm d j = s.txArm d j) ∧
      t = { s with regs := t.regs, txArms := t.txArms, out := t.out } ∧ KeepsRegs (txFlds ++ [TXD_EVENT_TX_LATE]) s t := by
  have hidle' : ((lateShown (silenced s) d i).startStream d i).heldIdle d = false := by
    rw [State.heldIdle, (touches_startStream (fs := []) _ d i).rd _ _ _ (by decide),
      (touches_lateShown _ d i).rd _ _ _ (by decide)]
    exact hidle
  have hop : (if !(silenced s).txOn d i then silenced s
      else if (silenced s).txState d i = 1 then (silenced s).modTx d i fun a => { a with due := true }
      else if (silenced s).txState d i = 2 && (silenced s).flag CNV_STATUS_SCLK_LOCK d then
        (((lateShown (silenced s) d i).startStream d i).setTxState d i 3).modTx d i fun a =>
          { a with waking := false, due := false }
      else silenced s) = sendStarted (silenced s) d i := by
    rw [show (silenced s).txOn d i = true from hon, show (silenced s).txState d i = 2 from hst,
      flag_of_rd_ne (s := silenced s) hlock, setTxState_of_free _ d i 3 hidle']
    rfl
  have hi : (i : Nat) ≠ 8 := by omega
  refine completes_dieOp _ _ hd hop (touches_sendStarted ..)
    fun t ht => ⟨?_, ?_, fun hdue => ?_, ?_, fun j hj hji => ?_, ?_, ht.keeps⟩
  · rw [State.txState, ht.rd _ _ _ (by decide), sendStarted, modTx_rd]
    exact txState_txShown _ d i 3 (by decide)
  · rw [ht.rd _ _ _ (by decide), sendStarted, modTx_rd, rd_txShown_run]
    rfl
  · rw [ht.rd _ _ _ (by decide), sendStarted, modTx_rd, (touches_txShown ..).rd _ _ _ (by decide),
      (touches_startStream (fs := []) _ d i).rd _ _ _ (by decide)]
    exact rd_lateShown (silenced s) d i i.isLt hdue
  · rw [ht.txArm, sendStarted_txArm _ d i hi]
    rfl
  · rw [ht.txArm, sendStarted_txArm_other _ d i (by omega) hji]
    rfl
  · rw [ht.rest, sendStarted_rest]
    rfl

/-! ### The frequency trim (R177) -/

theorem freqTrimStep_moves : Completes (.freqTrimStep d) s fun t =>
    t.rdS TXD_FREQ_TRIM_APPLIED d = slewStep (s.rdS TXD_FREQ_TRIM_APPLIED d) (s.rdS TXD_FREQ_TRIM_TRIM d) ∧
    (s.rdS TXD_FREQ_TRIM_APPLIED d ≠ s.rdS TXD_FREQ_TRIM_TRIM d → t.rd TXD_EVENT_TRIM_SLEW d = 1) ∧
    OnlyRegs [TXD_FREQ_TRIM_APPLIED, TXD_EVENT_TRIM_SLEW] s t := by
  by_cases heq : slewStep (s.rdS TXD_FREQ_TRIM_APPLIED d) (s.rdS TXD_FREQ_TRIM_TRIM d) = s.rdS TXD_FREQ_TRIM_APPLIED d
  · refine completes_dieOp _ _ hd (if_pos heq) (.refl _ _) fun t ht => ⟨?_, fun h => ?_, ht.onlyRegs rfl⟩
    · rw [heq]
      exact rdS_of_rd (ht.rd _ _ _ (by decide))
    · exact absurd (slewStep_eq_self.mp heq) h
  · obtain ⟨hlo, hhi⟩ := slewStep_bounds (rdS_bounds (s := s) (f := TXD_FREQ_TRIM_APPLIED) (by decide) d 0)
      (rdS_bounds (s := s) (f := TXD_FREQ_TRIM_TRIM) (by decide) d 0)
    refine completes_dieOp [TXD_FREQ_TRIM_APPLIED, TXD_EVENT_TRIM_SLEW] _ hd (if_neg heq)
      (((Touches.refl _ _).wr (by decide) ..).raise (by decide) ..) fun t ht => ⟨?_, fun _ => ?_, ht.onlyRegs rfl⟩
    · refine (rdS_of_rd ((ht.rd _ _ _ (by decide)).trans (rd_raise_other _ (by decide) ..))).trans ?_
      exact rdS_wrS (s := silenced s) (by decide) hlo hhi d 0
    · rw [ht.rd _ _ _ (by decide), rd_raise_one _ rfl]

end
end Sys2Proof.Laws
end

section
/-! SUPPORT. PROOFS. Level ramps and the switch of the pre-compensation sets (O48). -/
namespace Sys2Proof.Laws
open Sys2Proof Sys2Proof.Machine

/-! ### Level and tilt (R178, R179) -/

/-- The level of a die moves one step towards its setting. -/
def levelRamped (s : State) (d : Nat) : State :=
  s.modTxDie d fun x =>
    { x with level := if x.level < 2 * s.rd TXD_LEVEL_LEVEL d then x.level + 1
                      else if 2 * s.rd TXD_LEVEL_LEVEL d < x.level then x.level - 1 else x.level }

/-- The tilts of the arms move one step towards their settings. -/
def tiltsRamped (s : State) (d : Nat) : State :=
  s.forEach (List.range 8) fun t i => t.modTx d i fun a => { a with tilt := slewStep a.tilt (2 * t.rdS TXD_SC_TILT_TILT d i) }

/-- The level takes its setting at once where every arm is off or dormant. -/
def levelSet (s : State) (d : Nat) : State :=
  if (List.range 8).all fun i => s.txState d i == 0 || s.txState d i == 4 then
    s.modTxDie d fun x => { x with level := 2 * s.rd TXD_LEVEL_LEVEL d } else s

/-- The tilts of arms that are off or dormant take their settings at once. -/
def tiltsSet (s : State) (d : Nat) : State :=
  s.forEach (List.range 8) fun t i =>
    if !(t.txState d i == 0 || t.txState d i == 4) then t
    else t.modTx d i fun a => { a with tilt := 2 * t.rdS TXD_SC_TILT_TILT d i }

section
variable (s : State) (d : Nat)

/-- Only transmit front ends and arms differ. -/
def MovesArms (s t : State) : Prop := t = { s with txDies := t.txDies, txArms := t.txArms }

omit s d in
theorem MovesArms.trans {s t u : State} (ht : MovesArms s t) (hu : MovesArms t u) : MovesArms s u := by
  unfold MovesArms at *
  rw [hu, ht]

omit s d in
theorem MovesArms.rd {s t : State} (h : MovesArms s t) (g : Fld) (e j : Nat) : t.rd g e j = s.rd g e j := by
  rw [h]
  rfl

theorem movesArms_modTx (i : Nat) (f : TxArm → TxArm) : MovesArms s (s.modTx d i f) := rfl

theorem movesArms_levelRamped : MovesArms s (levelRamped s d) := rfl

theorem movesArms_tiltsRamped : MovesArms s (tiltsRamped s d) :=
  forEach_invariant (P := MovesArms s) _ (fun u i _ hu => hu.trans (movesArms_modTx u d i _)) rfl

theorem movesArms_levelSet : MovesArms s (levelSet s d) := by
  unfold levelSet
  split <;> rfl

theorem movesArms_tiltsSet : MovesArms s (tiltsSet s d) := by
  refine forEach_invariant (P := MovesArms s) _ (fun u i _ hu => hu.trans ?_) rfl
  split <;> rfl

theorem tiltsRamped_txArm {i : Nat} (hi : i < 8) : (tiltsRamped s d).txArm d i =
    { s.txArm d i with tilt := slewStep (s.txArm d i).tilt (2 * s.rdS TXD_SC_TILT_TILT d i) } := by
  refine forEach_acts_once (b := i) (φ := fun u : State => u.txArm d i)
    (ψ := fun a => { a with tilt := slewStep a.tilt (2 * s.rdS TXD_SC_TILT_TILT d i) })
    (I := MovesArms s) (fun u e _ hu => hu.trans (movesArms_modTx u d e _))
    (fun u e _ he => modTx_txArm_other _ (fun h => he h.2.symm) _) (fun u hu => ?_) (List.mem_range.mpr hi) List.nodup_range rfl
  rw [modTx_txArm, rdS_of_rd (hu.rd ..)]

theorem tiltsSet_txArm {i : Nat} (hi : i < 8) : (tiltsSet s d).txArm d i =
    if s.txState d i = 0 ∨ s.txState d i = 4 then { s.txArm d i with tilt := 2 * s.rdS TXD_SC_TILT_TILT d i }
    else s.txArm d i := by
  refine forEach_acts_once (b := i) (φ := fun u : State => u.txArm d i)
    (ψ := fun a => if s.txState d i = 0 ∨ s.txState d i = 4 then { a with tilt := 2 * s.rdS TXD_SC_TILT_TILT d i } else a)
    (I := MovesArms s) (fun u e _ hu => hu.trans ?_) (fun u e _ he => ?_) (fun u hu => ?_)
    (List.mem_range.mpr hi) List.nodup_range rfl
  · split <;> rfl
  · split
    · rfl
    · exact modTx_txArm_other _ (fun h => he h.2.symm) _
  · have hst : u.txState d i = s.txState d i := hu.rd ..
    have htilt : u.rdS TXD_SC_TILT_TILT d i = s.rdS TXD_SC_TILT_TILT d i := rdS_of_rd (hu.rd ..)
    simp only [hst, htilt, Bool.not_eq_true', Bool.or_eq_false_iff, beq_eq_false_iff_ne]
    split
    · next h => rw [if_neg (by omega)]
    · next h => rw [if_pos (by omega), modTx_txArm]

theorem levelSet_txDie : (levelSet s d).txDie d =
    { s.txDie d with level :=
        if (List.range 8).all fun i => s.txState d i == 0 || s.txState d i == 4 then 2 * s.rd TXD_LEVEL_LEVEL d
        else (s.txDie d).level } := by
  unfold levelSet
  split
  · exact modTxDie_txDie ..
  · rfl

theorem allDark_iff : ((List.range 8).all fun i => s.txState d i == 0 || s.txState d i == 4) = true ↔
    ∀ i, i < 8 → s.txState d i = 0 ∨ s.txState d i = 4 := by
  simp

/-! ### What is shown of them -/

theorem writesOnly_showLevels : WritesOnly (AtFields [TXD_LEVEL_APPLIED, TXD_SC_TILT_APPLIED]) s (s.showLevels d) :=
  ((WritesOnly.refl _ s).wr (.of_mem (by decide) d) _ 0).forEach _ fun u i _ =>
    (WritesOnly.refl _ u).wr (.of_mem (by decide) d) _ i

theorem rd_showLevels : (s.showLevels d).rd TXD_LEVEL_APPLIED d = (s.txDie d).level / 2 % 512 := by
  refine (forEach_keeps (fun u : State => u.rd TXD_LEVEL_APPLIED d) _ (fun u i _ => rd_wrS_other _ (by decide) ..) _).trans ?_
  exact rd_wr_same ..

theorem showLevels_txDie : (s.showLevels d).txDie d = s.txDie d := by
  rw [(writesOnly_showLevels s d).rest]
  rfl

theorem showLevels_txArm (i : Nat) : (s.showLevels d).txArm d i = s.txArm d i := by
  rw [(writesOnly_showLevels s d).rest]
  rfl

/-- The state before the levels are shown. -/
def levelsMoved (s : State) (d : Nat) : State := tiltsSet (levelSet (tiltsRamped (levelRamped s d) d) d) d

theorem levelStep_eq : s.levelStep d = (levelsMoved s d).showLevels d := rfl

theorem movesArms_levelsMoved : MovesArms s (levelsMoved s d) :=
  (((movesArms_levelRamped s d).trans (movesArms_tiltsRamped ..)).trans (movesArms_levelSet ..)).trans (movesArms_tiltsSet ..)

theorem modTx_txDie (i : Nat) (f : TxArm → TxArm) : (s.modTx d i f).txDie d = s.txDie d := rfl

theorem tiltsRamped_txDie : (tiltsRamped s d).txDie d = s.txDie d :=
  forEach_keeps (fun u : State => u.txDie d) _ (fun u i _ => modTx_txDie u d i _) s

theorem tiltsSet_txDie : (tiltsSet s d).txDie d = s.txDie d :=
  forEach_keeps (fun u : State => u.txDie d) _ (fun _ _ _ => by split <;> rfl) s

theorem levelSet_txArm (i : Nat) : (levelSet s d).txArm d i = s.txArm d i := by
  unfold levelSet
  split <;> rfl

theorem levelRamped_txDie : (levelRamped s d).txDie d =
    { s.txDie d with
      level := if (s.txDie d).level < 2 * s.rd TXD_LEVEL_LEVEL d then (s.txDie d).level + 1
               else if 2 * s.rd TXD_LEVEL_LEVEL d < (s.txDie d).level then (s.txDie d).level - 1
               else (s.txDie d).level } :=
  modTxDie_txDie ..

theorem levelsMoved_level : ((levelsMoved s d).txDie d).level =
    if (∀ i : Nat, i < 8 → s.txState d i = 0 ∨ s.txState d i = 4) then 2 * s.rd TXD_LEVEL_LEVEL d
    else if (s.txDie d).level < 2 * s.rd TXD_LEVEL_LEVEL d then (s.txDie d).level + 1
    else if 2 * s.rd TXD_LEVEL_LEVEL d < (s.txDie d).level then (s.txDie d).level - 1 else (s.txDie d).level := by
  have hmoves := (movesArms_levelRamped s d).trans (movesArms_tiltsRamped (levelRamped s d) d)
  have hst (i : Nat) : (tiltsRamped (levelRamped s d) d).txState d i = s.txState d i := hmoves.rd ..
  rw [levelsMoved, tiltsSet_txDie, levelSet_txDie, tiltsRamped_txDie, levelRamped_txDie]
  simp only [allDark_iff, hst, hmoves.rd]

theorem levelsMoved_tilt {i : Nat} (hi : i < 8) : ((levelsMoved s d).txArm d i).tilt =
    if s.txState d i = 0 ∨ s.txState d i = 4 then 2 * s.rdS TXD_SC_TILT_TILT d i
    else slewStep (s.txArm d i).tilt (2 * s.rdS TXD_SC_TILT_TILT d i) := by
  have hramped := movesArms_levelRamped s d
  have hmoves := (hramped.trans (movesArms_tiltsRamped _ d)).trans (movesArms_levelSet _ d)
  have hst : (levelSet (tiltsRamped (levelRamped s d) d) d).txState d i = s.txState d i := hmoves.rd ..
  have harm : (levelRamped s d).txArm d i = s.txArm d i := rfl
  rw [levelsMoved, tiltsSet_txArm _ d hi, hst, rdS_of_rd (hmoves.rd ..), levelSet_txArm, tiltsRamped_txArm _ d hi,
    rdS_of_rd (hramped.rd ..), harm]
  split <;> rfl

end

section
variable {s : State} {d : Fin 8} (hd : (d : Nat) < s.part.dies)
include hd

theorem levelRampStep_moves : Completes (.levelRampStep d) s fun t =>
    ((∃ i, i < 8 ∧ ¬ (s.txState d i = 0 ∨ s.txState d i = 4)) → (t.txDie d).level =
      (if (s.txDie d).level < 2 * s.rd TXD_LEVEL_LEVEL d then (s.txDie d).level + 1
        else if 2 * s.rd TXD_LEVEL_LEVEL d < (s.txDie d).level then (s.txDie d).level - 1 else (s.txDie d).level)) ∧
    ((∀ i, i < 8 → s.txState d i = 0 ∨ s.txState d i = 4) → (t.txDie d).level = 2 * s.rd TXD_LEVEL_LEVEL d) ∧
    t.rd TXD_LEVEL_APPLIED d = (t.txDie d).level / 2 % 512 ∧
    (∀ i, i < 8 → (t.txArm d i).tilt =
      if s.txState d i = 0 ∨ s.txState d i = 4 then 2 * s.rdS TXD_SC_TILT_TILT d i
      else slewStep (s.txArm d i).tilt (2 * s.rdS TXD_SC_TILT_TILT d i)) ∧
    t = { s with regs := t.regs, txDies := t.txDies, txArms := t.txArms, out := t.out } ∧
    KeepsRegs [TXD_LEVEL_APPLIED, TXD_SC_TILT_APPLIED] s t := by
  have hmoves := movesArms_levelsMoved (silenced s) d
  have hshows := writesOnly_showLevels (levelsMoved (silenced s) d) d
  have htouch : Touches [TXD_LEVEL_APPLIED, TXD_SC_TILT_APPLIED] (silenced s) (levelsMoved (silenced s) d) :=
    ⟨by rw [hmoves], fun g e j _ => hmoves.rd g e j⟩
  have hlevel := levelsMoved_level (silenced s) d
  refine completes_dieOp _ (fun u => u.levelStep d) hd (levelStep_eq ..) (htouch.trans (.of_writesOnly hshows))
    fun t ht => ⟨fun hsome => ?_, fun hall => ?_, ?_, fun i hi => ?_, ?_, ht.keeps⟩
  · obtain ⟨i, hi, hlit⟩ := hsome
    rw [ht.txDie, showLevels_txDie]
    exact hlevel.trans (if_neg fun hall => hlit (hall i hi))
  · rw [ht.txDie, showLevels_txDie]
    exact hlevel.trans (if_pos hall)
  · rw [ht.rd _ _ _ (by decide), ht.txDie, showLevels_txDie]
    exact rd_showLevels ..
  · rw [ht.txArm, showLevels_txArm]
    exact levelsMoved_tilt (silenced s) d hi
  · rw [ht.rest]
    generalize levelsMoved (silenced s) d = v at hmoves hshows
    rw [hshows.rest, hmoves]
    rfl

end
end Sys2Proof.Laws
end

section
/-! SUPPORT. PROOFS. The switch of the pre-compensation sets (O48). -/
namespace Sys2Proof.Laws
open Sys2Proof Sys2Proof.Machine

/-- The pre-compensation sets have swapped, and no switch is pending. -/
def lutsSwapped (s : State) (d : Nat) : State :=
  let a := 1 - s.rd TXD_LUT_CTRL_ACTIVE_SET d
  let s := s.wr TXD_LUT_CTRL_ACTIVE_SET d a
  (if s.flag TXD_LUT_CTRL_COPY_BACK d then s.copyLut d a (1 - a) else s).wr TXD_LUT_CTRL_SWITCH_PENDING d 0

/-- An owner applies that was named while the switch was pending. -/
def lutOwnerTaken (s : State) (d : Nat) : State :=
  match (s.txDie d).ownerNext with
  | some o => (s.wrb TXD_LUT_CTRL_OWNER d o).modTxDie d fun x => { x with ownerNext := none }
  | none => s

section
variable (s : State) (d : Nat)

theorem copyLut_rest (a b : Nat) : s.copyLut d a b = { s with lut := (s.copyLut d a b).lut } :=
  forEach_invariant (P := fun u => u = { s with lut := u.lut }) _ (fun u e _ hu => by rw [hu]; rfl) rfl

theorem touches_copyLut {fs : List Fld} (a b : Nat) : Touches fs s (s.copyLut d a b) := by
  rw [copyLut_rest]
  exact .of_regs rfl rfl

theorem touches_lutsSwapped : Touches [TXD_LUT_CTRL_ACTIVE_SET, TXD_LUT_CTRL_SWITCH_PENDING] s (lutsSwapped s d) := by
  have hset : Touches [TXD_LUT_CTRL_ACTIVE_SET, TXD_LUT_CTRL_SWITCH_PENDING] s
      (s.wr TXD_LUT_CTRL_ACTIVE_SET d (1 - s.rd TXD_LUT_CTRL_ACTIVE_SET d)) := (Touches.refl _ s).wr (by decide) ..
  exact (Touches.ite (hset.trans (touches_copyLut ..)) hset).wr (by decide) ..

theorem lutsSwapped_rest : lutsSwapped s d = { s with regs := (lutsSwapped s d).regs, lut := (lutsSwapped s d).lut } := by
  unfold lutsSwapped
  dsimp only
  split
  · rw [copyLut_rest]
    rfl
  · rfl

theorem rd_lutsSwapped_set :
    (lutsSwapped s d).rd TXD_LUT_CTRL_ACTIVE_SET d = 1 - s.rd TXD_LUT_CTRL_ACTIVE_SET d := by
  refine (rd_wr_other _ (by decide) ..).trans (?_ : (if _ then _ else _ : State).rd _ d = _)
  have hlt : 1 - s.rd TXD_LUT_CTRL_ACTIVE_SET d < 2 := by omega
  have hset : (s.wr TXD_LUT_CTRL_ACTIVE_SET d (1 - s.rd TXD_LUT_CTRL_ACTIVE_SET d)).rd TXD_LUT_CTRL_ACTIVE_SET d =
      1 - s.rd TXD_LUT_CTRL_ACTIVE_SET d := (rd_wr_same ..).trans (Nat.mod_eq_of_lt hlt)
  split
  · exact ((touches_copyLut (fs := []) ..).rd _ _ _ (by decide)).trans hset
  · exact hset

theorem rd_lutsSwapped_pending : (lutsSwapped s d).rd TXD_LUT_CTRL_SWITCH_PENDING d = 0 := rd_wr_same ..

theorem lutsSwapped_lut (h : s.rd TXD_LUT_CTRL_COPY_BACK d = 0) : (lutsSwapped s d).lut = s.lut := by
  have hback : (s.wr TXD_LUT_CTRL_ACTIVE_SET d (1 - s.rd TXD_LUT_CTRL_ACTIVE_SET d)).flag TXD_LUT_CTRL_COPY_BACK d = false :=
    flag_of_rd_zero ((rd_wr_other _ (by decide) ..).trans h)
  rw [lutsSwapped, if_neg (ne_true_of_eq_false hback)]
  rfl

theorem touches_lutOwnerTaken : Touches [TXD_LUT_CTRL_OWNER] s (lutOwnerTaken s d) := by
  unfold lutOwnerTaken
  split
  · exact ((Touches.refl _ s).wrb (by decide) ..).regs (modTxDie_regs ..) (modTxDie_part ..)
  · exact .refl _ s

theorem lutOwnerTaken_rest :
    lutOwnerTaken s d = { s with regs := (lutOwnerTaken s d).regs, txDies := (lutOwnerTaken s d).txDies } := by
  unfold lutOwnerTaken
  split <;> rfl

theorem lutOwnerTaken_txDie : (lutOwnerTaken s d).txDie d = { s.txDie d with ownerNext := none } := by
  unfold lutOwnerTaken
  split
  · exact modTxDie_txDie ..
  · next h => rw [← h]

theorem rd_lutOwnerTaken {o : Bool} (h : (s.txDie d).ownerNext = some o) :
    (lutOwnerTaken s d).rd TXD_LUT_CTRL_OWNER d = b2n o := by
  rw [lutOwnerTaken, h]
  exact rd_wrb_same _ _ _ _ _ rfl

end

section
variable {s : State} {d : Fin 8} (hd : (d : Nat) < s.part.dies)
include hd

theorem lutSwitch_pends (c o : Bool) (hpend : s.rd TXD_LUT_CTRL_SWITCH_PENDING d = 0) :
    Completes (.lutSwitch d c o) s fun t =>
      t.rd TXD_LUT_CTRL_COPY_BACK d = b2n c ∧ t.rd TXD_LUT_CTRL_OWNER d = b2n o ∧ t.rd TXD_LUT_CTRL_SWITCH_PENDING d = 1 ∧
      OnlyRegs [TXD_LUT_CTRL_COPY_BACK, TXD_LUT_CTRL_OWNER, TXD_LUT_CTRL_SWITCH_PENDING] s t := by
  have hflag : ((silenced s).wrb TXD_LUT_CTRL_COPY_BACK d c).flag TXD_LUT_CTRL_SWITCH_PENDING d = false :=
    flag_of_rd_zero ((rd_wrb_other _ (by decide) ..).trans hpend)
  refine completes_dieOp [TXD_LUT_CTRL_COPY_BACK, TXD_LUT_CTRL_OWNER, TXD_LUT_CTRL_SWITCH_PENDING] _ hd
    (if_neg (ne_true_of_eq_false hflag))
    ((((Touches.refl _ _).wrb (by decide) ..).wrb (by decide) ..).wr (by decide) ..) fun t ht => ⟨?_, ?_, ?_, ht.onlyRegs rfl⟩
  · rw [ht.rd _ _ _ (by decide), rd_wr_other _ (by decide), rd_wrb_other _ (by decide), rd_wrb_same _ _ _ _ _ rfl]
  · rw [ht.rd _ _ _ (by decide), rd_wr_other _ (by decide), rd_wrb_same _ _ _ _ _ rfl]
  · rw [ht.rd _ _ _ (by decide), rd_wr_same]
    rfl

theorem lutSwitch_refused (c o : Bool) (hpend : s.rd TXD_LUT_CTRL_SWITCH_PENDING d ≠ 0) :
    Completes (.lutSwitch d c o) s fun t =>
      t.rd TXD_EVENT_LUT_SWITCH_ERR d = 1 ∧ t.txDie d = { s.txDie d with ownerNext := some o } ∧
      t = { s with regs := t.regs, txDies := t.txDies, out := t.out } ∧
      KeepsRegs [TXD_LUT_CTRL_COPY_BACK, TXD_EVENT_LUT_SWITCH_ERR] s t := by
  have hflag : ((silenced s).wrb TXD_LUT_CTRL_COPY_BACK d c).flag TXD_LUT_CTRL_SWITCH_PENDING d = true :=
    flag_of_rd_ne (by rwa [rd_wrb_other _ (by decide)])
  refine completes_dieOp [TXD_LUT_CTRL_COPY_BACK, TXD_EVENT_LUT_SWITCH_ERR] _ hd (if_pos hflag)
    ((((Touches.refl _ _).wrb (by decide) ..).raise (by decide) ..).regs (modTxDie_regs ..) (modTxDie_part ..))
    fun t ht => ⟨?_, ?_, ?_, ht.keeps⟩
  · rw [ht.rd _ _ _ (by decide), modTxDie_rd]
    exact rd_raise_one _ rfl _
  · rw [ht.txDie, modTxDie_txDie]
    rfl
  · rw [ht.rest]
    rfl

theorem lutSwap_swaps (hpend : s.rd TXD_LUT_CTRL_SWITCH_PENDING d ≠ 0) (hlock : s.rd CNV_STATUS_SCLK_LOCK d ≠ 0) :
    Completes (.lutSwap d) s fun t =>
      t.rd TXD_LUT_CTRL_ACTIVE_SET d = 1 - s.rd TXD_LUT_CTRL_ACTIVE_SET d ∧ t.rd TXD_LUT_CTRL_SWITCH_PENDING d = 0 ∧
      (∀ o, (s.txDie d).ownerNext = some o → t.rd TXD_LUT_CTRL_OWNER d = b2n o) ∧
      t.txDie d = { s.txDie d with ownerNext := none } ∧ (s.rd TXD_LUT_CTRL_COPY_BACK d = 0 → t.lut = s.lut) ∧
      t = { s with regs := t.regs, lut := t.lut, txDies := t.txDies, out := t.out } ∧
      KeepsRegs [TXD_LUT_CTRL_ACTIVE_SET, TXD_LUT_CTRL_SWITCH_PENDING, TXD_LUT_CTRL_OWNER] s t := by
  have hop : (if (silenced s).flag TXD_LUT_CTRL_SWITCH_PENDING d && (silenced s).flag CNV_STATUS_SCLK_LOCK d then
      (silenced s).endLutSwitch d else silenced s) = lutOwnerTaken (lutsSwapped (silenced s) d) d := by
    rw [flag_of_rd_ne (s := silenced s) hpend, flag_of_rd_ne (s := silenced s) hlock]
    rfl
  have hswap := touches_lutsSwapped (silenced s) d
  have hrest := lutsSwapped_rest (silenced s) d
  have hset := rd_lutsSwapped_set (silenced s) d
  have hpending := rd_lutsSwapped_pending (silenced s) d
  have hlut := lutsSwapped_lut (silenced s) d
  generalize lutsSwapped (silenced s) d = v at *
  have hdie : v.txDie d = s.txDie d := by
    rw [hrest]
    rfl
  have htake := touches_lutOwnerTaken v d
  refine completes_dieOp [TXD_LUT_CTRL_ACTIVE_SET, TXD_LUT_CTRL_SWITCH_PENDING, TXD_LUT_CTRL_OWNER] _ hd hop
    ((hswap.mono (by decide)).trans (htake.mono (by decide)))
    fun t ht => ⟨?_, ?_, fun o ho => ?_, ?_, fun hback => ?_, ?_, ht.keeps⟩
  · rw [ht.rd _ _ _ (by decide), htake.rd _ _ _ (by decide), hset]
    rfl
  · rw [ht.rd _ _ _ (by decide), htake.rd _ _ _ (by decide), hpending]
  · rw [ht.rd _ _ _ (by decide), rd_lutOwnerTaken v d (hdie ▸ ho)]
  · rw [ht.txDie, lutOwnerTaken_txDie, hdie]
  · rw [ht.rest, lutOwnerTaken_rest]
    exact hlut hback
  · rw [ht.rest, lutOwnerTaken_rest, hrest]
    rfl

theorem lutSwap_waits (hlock : s.rd CNV_STATUS_SCLK_LOCK d = 0) : Completes (.lutSwap d) s (OnlyRegs [] s) :=
  completes_runDie s hd (onlyRegs_ran_of_fixed (if_neg (by
    rw [flag_of_rd_zero (s := silenced s) hlock, Bool.and_false]
    exact Bool.false_ne_true)))

end
end Sys2Proof.Laws
end

section
/-! SUPPORT. PROOFS. A superframe goes out: what is sent does not depend on what the last command sent, and what a superframe
leaves (O48). -/
namespace Sys2Proof.Laws
open Sys2Proof Sys2Proof.Machine

/-! ### What was sent before bears on no stream and no sample -/

section
variable (s : State) (d : Nat)

theorem sendingStreams_silenced : (silenced s).sendingStreams d = s.sendingStreams d := rfl

theorem txTable_silenced (n : Nat) : (silenced s).txTable d n = s.txTable d n := rfl

theorem streamNeed_silenced (n sf : Nat) : (silenced s).streamNeed d n sf = s.streamNeed d n sf := rfl

theorem takeWords_silenced (slots : List Nat) (turn n : Nat) : (silenced s).takeWords d slots turn n =
    ((s.takeWords d slots turn n).1, silenced (s.takeWords d slots turn n).2) := by
  induction n generalizing s turn with
  | zero => rfl
  | succ n ih =>
    have hpop (c : Bool) (i : Nat) (f : TxArm → TxArm) : (if c then silenced s else (silenced s).modTx d i f) =
        silenced (if c then s else s.modTx d i f) := by cases c <;> rfl
    rw [State.takeWords, State.takeWords]
    dsimp only
    rw [show ∀ i, (silenced s).txArm d i = s.txArm d i from fun _ => rfl, hpop, ih]

theorem encodeStream_silenced (n sf : Nat) : (silenced s).encodeStream d n sf = silenced (s.encodeStream d n sf) := by
  have hperiod : (if sf = 0 then (silenced s).startPeriod d n else silenced s) =
      silenced (if sf = 0 then s.startPeriod d n else s) := by
    split
    · rfl
    · rfl
  unfold State.encodeStream
  rw [txTable_silenced]
  split
  · rfl
  · next t _ =>
    dsimp only
    rw [hperiod, streamNeed_silenced, takeWords_silenced]
    rfl

theorem encodeStreams_silenced (sf : Nat) : (silenced s).encodeStreams d sf = silenced (s.encodeStreams d sf) := by
  rw [State.encodeStreams, State.encodeStreams, sendingStreams_silenced]
  generalize s.sendingStreams d = ns
  induction ns generalizing s with
  | nil => rfl
  | cons n ns ih =>
    change ((silenced s).encodeStream d n sf).forEach ns _ = silenced ((s.encodeStream d n sf).forEach ns _)
    rw [encodeStream_silenced, ih]

/-! ### What the streams take -/

theorem takeWords_rest (slots : List Nat) (turn n : Nat) : (s.takeWords d slots turn n).2 =
    { s with txArms := (s.takeWords d slots turn n).2.txArms } := by
  induction n generalizing s turn with
  | zero => rfl
  | succ n ih =>
    rw [State.takeWords]
    dsimp only
    rw [ih]
    split <;> rfl

theorem encodeStream_rest (n sf : Nat) :
    s.encodeStream d n sf = { s with txArms := (s.encodeStream d n sf).txArms } := by
  unfold State.encodeStream
  split
  · rfl
  · dsimp only
    rw [takeWords_rest]
    split <;> rfl

theorem encodeStreams_rest (sf : Nat) : s.encodeStreams d sf = { s with txArms := (s.encodeStreams d sf).txArms } :=
  forEach_invariant (P := fun u => u = { s with txArms := u.txArms }) _ (fun u n _ hu => by rw [encodeStream_rest, hu]) rfl

/-! ### What the converters drive (R107, R181) -/

theorem encodeStreams_txDie (sf e : Nat) : (s.encodeStreams d sf).txDie e = s.txDie e := by
  rw [encodeStreams_rest]
  rfl

variable (xs : List Shaped) (f : TxFrame)

/-- The words of a window on a path. -/
def windowWords (s : State) (d : Nat) (xs : List Shaped) (f : TxFrame) (c : Nat) : List Int :=
  (List.range f.count).map fun k => s.dacWord d xs f.start c ((f.first + k : Nat) : Int)

/-- The saturated table inputs of a window on a path. -/
def windowClips (s : State) (d : Nat) (xs : List Shaped) (f : TxFrame) (c : Nat) : Nat :=
  ((List.range f.count).filter fun k => (s.lutAt d xs f.start c ((f.first + k : Nat) : Int)).2).length

omit d f xs in
theorem forEach_emit {α : Type} (cs : List α) (g : α → Output) :
    (s.forEach cs fun t c => t.emit (g c)) = { s with out := s.out ++ cs.map g } := by
  induction cs generalizing s with
  | nil => simp [State.forEach]
  | cons c cs ih =>
    change (s.emit (g c)).forEach cs _ = _
    rw [ih]
    simp [State.emit]

theorem sendWindow_eq : s.sendWindow d xs f = { s with
    out := s.out ++ (List.range 4).map fun c => .dac d c (f.start + f.first) (windowWords s d xs f c) } := by
  have hwords (c : Nat) : ((List.range f.count).map fun k => ((f.first + k : Nat) : Int)).map (s.dacWord d xs f.start c) =
      windowWords s d xs f c := List.map_map ..
  simp only [State.sendWindow, hwords]
  exact forEach_emit s _ _

/-- Saturated table inputs of a path are counted. -/
def clipCounted (s : State) (d c n : Nat) : State :=
  if n = 0 then s else (s.count TXD_CLIP_COUNT_COUNT d n c).raise TXD_EVENT_CLIP d

theorem countClips_eq : s.countClips d xs f = s.forEach (List.range 4) fun t c => clipCounted t d c (windowClips s d xs f c) := rfl

theorem touches_clipCounted (c n : Nat) : Touches [TXD_CLIP_COUNT_COUNT, TXD_EVENT_CLIP] s (clipCounted s d c n) :=
  .ite (.refl _ s) (((Touches.refl _ s).count (by decide) ..).raise (by decide) ..)

theorem clipCounted_rest (c n : Nat) : clipCounted s d c n = { s with regs := (clipCounted s d c n).regs } := by
  unfold clipCounted
  split <;> rfl

theorem rd_clipCounted_same (c : Nat) {n : Nat} (hn : n ≠ 0) : (clipCounted s d c n).rd TXD_CLIP_COUNT_COUNT d c =
    min (s.rd TXD_CLIP_COUNT_COUNT d c + n) (2 ^ 32 - 1) := by
  rw [clipCounted, if_neg hn, rd_raise_other _ (by decide), rd_count_same]
  rfl

theorem rd_clipCounted_other {c e : Nat} (h : e ≠ c) (n : Nat) :
    (clipCounted s d c n).rd TXD_CLIP_COUNT_COUNT d e = s.rd TXD_CLIP_COUNT_COUNT d e := by
  unfold clipCounted
  split
  · rfl
  · rw [rd_raise_other _ (by decide)]
    exact rd_wr_elem s _ _ h ..

theorem rd_clipCounted_event {c n : Nat} (hn : n ≠ 0) : (clipCounted s d c n).rd TXD_EVENT_CLIP d = 1 := by
  rw [clipCounted, if_neg hn, rd_raise_one _ rfl]

theorem touches_countClips : Touches [TXD_CLIP_COUNT_COUNT, TXD_EVENT_CLIP] s (s.countClips d xs f) := by
  rw [countClips_eq]
  exact (Touches.refl _ s).forEach _ fun u c _ => touches_clipCounted ..

theorem countClips_rest : s.countClips d xs f = { s with regs := (s.countClips d xs f).regs } := by
  rw [countClips_eq]
  exact forEach_invariant (P := fun u => u = { s with regs := u.regs }) _ (fun u c _ hu => by rw [clipCounted_rest, hu]) rfl

omit xs f in
theorem rd_clipsCounted {n : Nat → Nat} {c : Nat} (hc : c < 4) (hn : n c ≠ 0) :
    (s.forEach (List.range 4) fun t e => clipCounted t d e (n e)).rd TXD_CLIP_COUNT_COUNT d c =
      min (s.rd TXD_CLIP_COUNT_COUNT d c + n c) (2 ^ 32 - 1) ∧
    (s.forEach (List.range 4) fun t e => clipCounted t d e (n e)).rd TXD_EVENT_CLIP d = 1 := by
  constructor
  · exact forEach_acts_once (b := c) (φ := fun u : State => u.rd TXD_CLIP_COUNT_COUNT d c)
      (ψ := fun x => min (x + n c) (2 ^ 32 - 1)) (I := fun _ => True) (fun _ _ _ _ => trivial)
      (fun u e _ he => rd_clipCounted_other u d he.symm _) (fun u _ => rd_clipCounted_same u d c hn) (List.mem_range.mpr hc)
      List.nodup_range trivial
  · refine forEach_reaches (P := fun u => u.rd TXD_EVENT_CLIP d = 1) (f := fun t e => clipCounted t d e (n e))
      (fun u e _ hu => ?_) ⟨c, List.mem_range.mpr hc, fun u => rd_clipCounted_event u d hn⟩ s
    by_cases h0 : n e = 0
    · rwa [clipCounted, if_pos h0]
    · exact rd_clipCounted_event u d h0

theorem rd_countClips {c : Nat} (hc : c < 4) (hn : windowClips s d xs f c ≠ 0) :
    (s.countClips d xs f).rd TXD_CLIP_COUNT_COUNT d c =
      min (s.rd TXD_CLIP_COUNT_COUNT d c + windowClips s d xs f c) (2 ^ 32 - 1) ∧
    (s.countClips d xs f).rd TXD_EVENT_CLIP d = 1 := by
  rw [countClips_eq]
  exact rd_clipsCounted s d (n := windowClips s d xs f) hc hn

/-- The word of a converter that is off or has no sampling reference is zero. -/
theorem dacWord_off {s : State} {d c : Nat} (h : bit (s.rd CNV_CTRL_DAC_EN d) c = false ∨ s.rd CNV_STATUS_SCLK_LOCK d = 0)
    (xs : List Shaped) (start : Nat) (m : Int) : s.dacWord d xs start c m = 0 := by
  refine if_neg ?_
  rcases h with hoff | hlost
  · rw [hoff, Bool.false_and]
    exact Bool.false_ne_true
  · rw [flag_of_rd_zero hlost, Bool.and_false]
    exact Bool.false_ne_true

/-! ### What a superframe leaves -/

/-- The subcarriers, the express stream and the marks of the streams after a superframe. -/
def armsSent (s t : State) (d : Nat) (f : TxFrame) : State :=
  (t.forEach (s.sendingScs d) fun u i => u.modTx d i fun _ => (s.armSent d i f).txArm d i).expressSent d f |>.markStreams d f.sf

theorem sendSuperframe_eq : s.sendSuperframe d f =
    let u := s.encodeStreams d f.sf
    let xs := (u.sendingScs d).map fun i => u.shaped d i f
    armsSent u ((u.sendWindow d xs f).countClips d xs f) d f := rfl

theorem markStreams_rest (sf : Nat) : s.markStreams d sf = { s with txArms := (s.markStreams d sf).txArms } := by
  unfold State.markStreams
  split
  · exact forEach_invariant (P := fun u => u = { s with txArms := u.txArms }) _ (fun u n _ hu => by rw [hu]; rfl) rfl
  · rfl

theorem expressSent_rest : s.expressSent d f = { s with txArms := (s.expressSent d f).txArms } := rfl

theorem armsSent_rest (t : State) : armsSent s t d f = { t with txArms := (armsSent s t d f).txArms } := by
  have hloop : (t.forEach (s.sendingScs d) fun u i => u.modTx d i fun _ => (s.armSent d i f).txArm d i) =
      { t with txArms :=
          (t.forEach (s.sendingScs d) fun u i => u.modTx d i fun _ => (s.armSent d i f).txArm d i).txArms } :=
    forEach_invariant (P := fun u => u = { t with txArms := u.txArms }) _ (fun u n _ hu => by rw [hu]; rfl) rfl
  rw [armsSent, markStreams_rest, expressSent_rest, hloop]

end

/-- The written corrections apply (R181, R182). -/
def corrApplied (s : State) (d : Nat) : State :=
  s.modTxDie d fun x => { x with iq := s.txIqWord d, bal := s.rd TXD_XY_BAL_BAL d, skew := s.txFineSkewWord d }

/-- A superframe of encoded streams goes out. -/
def frameSent (u : State) (d : Nat) (xs : List Shaped) (f : TxFrame) : State :=
  armsSent (silenced u) (((silenced u).sendWindow d xs f).countClips d xs f) d f

section
variable (s : State) (d : Nat) (xs : List Shaped) (f : TxFrame)

theorem corrApplied_sends : (corrApplied (silenced s) d).sendSuperframe d f =
    let u := (corrApplied s d).encodeStreams d f.sf
    frameSent u d ((u.sendingScs d).map fun i => u.shaped d i f) f := by
  have hquiet : corrApplied (silenced s) d = silenced (corrApplied s d) := rfl
  rw [sendSuperframe_eq, hquiet, encodeStreams_silenced]
  rfl

theorem windowClips_sendWindow (c : Nat) :
    windowClips ((silenced s).sendWindow d xs f) d xs f c = windowClips s d xs f c := by
  rw [sendWindow_eq]
  rfl

theorem touches_frameSent : Touches [TXD_CLIP_COUNT_COUNT, TXD_EVENT_CLIP] s (frameSent s d xs f) := by
  have hwindow : Touches [TXD_CLIP_COUNT_COUNT, TXD_EVENT_CLIP] s ((silenced s).sendWindow d xs f) := by
    rw [sendWindow_eq]
    exact .of_regs rfl rfl
  rw [frameSent, armsSent_rest]
  exact (hwindow.trans (touches_countClips ..)).regs rfl rfl

theorem frameSent_rest : frameSent s d xs f =
    { s with regs := (frameSent s d xs f).regs, txArms := (frameSent s d xs f).txArms, out := (frameSent s d xs f).out } := by
  rw [frameSent, armsSent_rest, countClips_rest, sendWindow_eq]
  rfl

theorem frameSent_txDie (e : Nat) : (frameSent s d xs f).txDie e = s.txDie e := by
  rw [frameSent_rest]
  rfl

theorem frameSent_out : (frameSent s d xs f).out =
    (List.range 4).map fun c => .dac d c (f.start + f.first) (windowWords s d xs f c) := by
  rw [frameSent, armsSent_rest, countClips_rest, sendWindow_eq]
  rfl

theorem rd_frameSent {c : Nat} (hc : c < 4) (hn : windowClips s d xs f c ≠ 0) :
    (frameSent s d xs f).rd TXD_CLIP_COUNT_COUNT d c =
      min (s.rd TXD_CLIP_COUNT_COUNT d c + windowClips s d xs f c) (2 ^ 32 - 1) ∧
    (frameSent s d xs f).rd TXD_EVENT_CLIP d = 1 := by
  have hsame : ((silenced s).sendWindow d xs f).rd TXD_CLIP_COUNT_COUNT d c = s.rd TXD_CLIP_COUNT_COUNT d c := by
    rw [sendWindow_eq]
    rfl
  have hclips := rd_countClips ((silenced s).sendWindow d xs f) d xs f hc (by rwa [windowClips_sendWindow])
  rw [windowClips_sendWindow, hsame] at hclips
  rw [frameSent, armsSent_rest]
  exact hclips

end

section
variable {s : State} {d : Fin 8} (hd : (d : Nat) < s.part.dies)
include hd

theorem txCorrApply_sends (f : TxFrame) : Completes (.txCorrApply d f) s fun t =>
    let set_ := { s.txDie d with iq := s.txIqWord d, bal := s.rd TXD_XY_BAL_BAL d, skew := s.txFineSkewWord d }
    let u := (s.modTxDie d fun _ => set_).encodeStreams d f.sf
    let xs := (u.sendingScs d).map fun i => u.shaped d i f
    let sample := fun k : Nat => ((f.first + k : Nat) : Int)
    t.txDie d = set_ ∧
    t.out = (List.range 4).map (fun c =>
      .dac d c (f.start + f.first) ((List.range f.count).map fun k => u.dacWord d xs f.start c (sample k))) ∧
    (∀ c, c < 4 → bit (s.rd CNV_CTRL_DAC_EN d) c = false ∨ s.rd CNV_STATUS_SCLK_LOCK d = 0 →
      ∀ k : Nat, u.dacWord d xs f.start c (sample k) = 0) ∧
    (∀ c, c < 4 → ∀ n, n = ((List.range f.count).filter fun k => (u.lutAt d xs f.start c (sample k)).2).length → n ≠ 0 →
      t.rd TXD_CLIP_COUNT_COUNT d c = min (s.rd TXD_CLIP_COUNT_COUNT d c + n) (2 ^ 32 - 1) ∧ t.rd TXD_EVENT_CLIP d = 1) ∧
    t = { s with regs := t.regs, txDies := t.txDies, txArms := t.txArms, out := t.out } ∧
    KeepsRegs [TXD_CLIP_COUNT_COUNT, TXD_EVENT_CLIP] s t := by
  have hop := corrApplied_sends s d f
  have hrest := encodeStreams_rest (corrApplied s d) d f.sf
  have hdie : ((corrApplied s d).encodeStreams d f.sf).txDie d =
      { s.txDie d with iq := s.txIqWord d, bal := s.rd TXD_XY_BAL_BAL d, skew := s.txFineSkewWord d } := by
    rw [encodeStreams_txDie, corrApplied, modTxDie_txDie]
  have hrd (g : Fld) (e j : Nat) : ((corrApplied s d).encodeStreams d f.sf).rd g e j = s.rd g e j := by
    rw [hrest]
    rfl
  have htouch : Touches [TXD_CLIP_COUNT_COUNT, TXD_EVENT_CLIP] (silenced s) ((corrApplied s d).encodeStreams d f.sf) :=
    ⟨by rw [hrest]; rfl, fun g e j _ => hrd g e j⟩
  refine completes_dieOp [TXD_CLIP_COUNT_COUNT, TXD_EVENT_CLIP] _ hd hop (htouch.trans (touches_frameSent ..))
    fun t ht => ⟨(ht.txDie d).trans ((frameSent_txDie ..).trans hdie), ?_, fun c _ hoff k => dacWord_off ?_ _ _ _,
      fun c hc n hn hne => ?_, ?_, ht.keeps⟩
  · rw [ht.rest]
    exact frameSent_out ..
  · rcases hoff with hoff | hlost
    · exact .inl ((congrArg (fun x => bit x c) (hrd CNV_CTRL_DAC_EN d 0)).trans hoff)
    · exact .inr ((hrd CNV_STATUS_SCLK_LOCK d 0).trans hlost)
  · subst hn
    obtain ⟨hcount, hevent⟩ := rd_frameSent ((corrApplied s d).encodeStreams d f.sf) d _ f hc hne
    rw [hrd] at hcount
    exact ⟨(ht.rd _ _ _ (by decide)).trans hcount, (ht.rd _ _ _ (by decide)).trans hevent⟩
  · rw [ht.rest, frameSent_rest, hrest]
    rfl

end

/-- Settles O48, each command by what its operation leaves: an arm's record starts anew with its stream, the ramps move every
arm on its own, and what was sent before bears on no sample of a superframe. -/
theorem transmitArmsAndCorrections : Obligations.TransmitArmsAndCorrections := fun _ _ hd =>
  ⟨fun i => ⟨txArmReady_ready hd i, txArmReady_waits hd i, txArmSendStart_sends hd i, txArmSendStart_late hd i,
      txArmSendStart_off hd i⟩,
    freqTrimStep_moves hd, levelRampStep_moves hd, fun c o => ⟨lutSwitch_pends hd c o, lutSwitch_refused hd c o⟩,
    lutSwap_swaps hd, lutSwap_waits hd, txCorrApply_sends hd⟩

end Sys2Proof.Laws
end

section
/-! SUPPORT. PROOFS. Power domains that turn on and off (O37). -/
namespace Sys2Proof.Laws
open Sys2Proof Sys2Proof.Machine

/-! ### The state of a domain, and the one asked for (R332, R333) -/

section
variable (s : State) (d : Nat)

theorem domain_of_rd {s t : State} {d k : Nat} (h : ∀ j, t.rd PWR_DOM_STATE d j = s.rd PWR_DOM_STATE d j) :
    t.domain d k = s.domain d k := by
  rw [State.domain, State.domain, h]

theorem domain_setDomain_same (k : Nat) {v : Nat} (hv : v < 4) : (s.setDomain d k v).domain d k = v := by
  have hbits : 2 * (k % 16) + 2 ≤ PWR_DOM_STATE.w := by
    have hw : PWR_DOM_STATE.w = 32 := rfl
    omega
  rw [State.domain, State.setDomain, rd_wr_same, bitsAt_mod hbits, bitsAt_setBitsAt_whole]
  omega

theorem domain_setDomain_other {j k : Nat} (h : j ≠ k) (v : Nat) : (s.setDomain d k v).domain d j = s.domain d j := by
  have hw : PWR_DOM_STATE.w = 32 := rfl
  by_cases hword : j / 16 = k / 16
  · have hbits : 2 * (j % 16) + 2 ≤ PWR_DOM_STATE.w := by omega
    rw [State.domain, State.setDomain, hword, rd_wr_same, bitsAt_mod hbits, bitsAt_setBitsAt_apart (by omega), State.domain,
      hword]
  · rw [State.domain, State.setDomain, rd_wr_elem _ _ _ hword, State.domain]

theorem touches_setDomain {fs : List Fld} (hf : PWR_DOM_STATE ∈ fs) (k v : Nat) : Touches fs s (s.setDomain d k v) :=
  (Touches.refl fs s).wr hf ..

theorem setDomain_domWant (k v j : Nat) : (s.setDomain d k v).domWant d j = s.domWant d j := rfl

theorem domWant_setWant_none (k : Nat) : (s.setWant d k none).domWant d k = none := by
  have hgone : ((s.pwrSt d).want.filter fun y => y.1 != k).find? (fun x => x.1 == k) = none := by
    simp [List.find?_eq_none]
  rw [State.domWant, State.setWant, modPwr_pwrSt, hgone]
  rfl

theorem domWant_setWant_other {j k : Nat} (h : j ≠ k) : (s.setWant d k none).domWant d j = s.domWant d j := by
  have hfind : ((s.pwrSt d).want.filter fun y => y.1 != k).find? (fun x => x.1 == j) =
      (s.pwrSt d).want.find? fun x => x.1 == j := by
    rw [List.find?_filter]
    congr 1
    funext x
    by_cases hx : x.1 = j <;> simp [hx, h]
  rw [State.domWant, State.setWant, modPwr_pwrSt, hfind, State.domWant]

theorem touches_setWant {fs : List Fld} (k : Nat) (v : Option Nat) : Touches fs s (s.setWant d k v) := .of_regs rfl rfl

/-- A domain takes a state, and none is asked for any more. -/
def domainTaken (k v : Nat) : State := (s.setWant d k none).setDomain d k v

theorem touches_domainTaken {fs : List Fld} (hf : PWR_DOM_STATE ∈ fs) (k v : Nat) : Touches fs s (domainTaken s d k v) :=
  (touches_setWant s d k none).trans (touches_setDomain _ _ hf ..)

theorem domainTaken_rest (k v : Nat) :
    domainTaken s d k v = { s with regs := (domainTaken s d k v).regs, pwr := (domainTaken s d k v).pwr } := rfl

theorem domain_domainTaken (k : Nat) {v : Nat} (hv : v < 4) : (domainTaken s d k v).domain d k = v :=
  domain_setDomain_same _ _ _ hv

theorem domain_domainTaken_other {j k : Nat} (h : j ≠ k) (v : Nat) : (domainTaken s d k v).domain d j = s.domain d j :=
  (domain_setDomain_other _ _ h v).trans rfl

theorem domWant_domainTaken (k v : Nat) : (domainTaken s d k v).domWant d k = none := domWant_setWant_none ..

theorem domWant_domainTaken_other {j k : Nat} (h : j ≠ k) (v : Nat) : (domainTaken s d k v).domWant d j = s.domWant d j :=
  domWant_setWant_other s d h

/-! ### Memories of a domain that is filled or lost (R314, R315) -/

theorem domainRestart_rest (k : Nat) : s.domainRestart d k =
    { s with
      tcms := (s.domainRestart d k).tcms, mem := (s.domainRestart d k).mem, wordErr := (s.domainRestart d k).wordErr } := by
  unfold State.domainRestart
  split
  · refine forEach_invariant (P := fun u : State => u = { s with tcms := u.tcms, mem := u.mem, wordErr := u.wordErr }) _
      (fun u e _ hu => ?_) rfl
    rw [hu]
    split <;> rfl
  · rfl

/-- Below the engine clusters only the arms lose state. -/
theorem domainLose_arms {k : Nat} (hk : k < 50) :
    s.domainLose d k = { s with rxArms := (s.domainLose d k).rxArms, txArms := (s.domainLose d k).txArms } ∧
      (k < 14 ∨ 21 < k → (s.domainLose d k).rxArms = s.rxArms) ∧
      (k < 23 ∨ 30 < k → (s.domainLose d k).txArms = s.txArms) := by
  unfold State.domainLose
  by_cases hrx : 14 ≤ k ∧ k ≤ 21
  · rw [if_pos hrx]
    exact ⟨rfl, fun h => absurd hrx (by omega), fun _ => rfl⟩
  · rw [if_neg hrx]
    by_cases htx : 23 ≤ k ∧ k ≤ 30
    · rw [if_pos htx]
      exact ⟨rfl, fun _ => rfl, fun h => absurd htx (by omega)⟩
    · rw [if_neg htx, if_neg (by omega)]
      exact ⟨rfl, fun _ => rfl, fun _ => rfl⟩

/-! ### A domain turns on -/

/-- The PLL that a domain needs has locked. -/
def PllReady (k : Nat) : Prop := ∀ p, domPll k = some p → s.pllLocked d p = true

theorem domainOn_ready {s : State} {d k : Nat} (hwant : s.domWant d k = some 0) (hpll : PllReady s d k) :
    s.domainOn d k = domainTaken (s.domainRestart d k) d k 0 := by
  unfold State.domainOn
  rw [hwant]
  cases hp : domPll k with
  | none => rfl
  | some p => exact if_pos (hpll p hp)

theorem domainOn_unlocked {s : State} {d k p : Nat} (hp : domPll k = some p) (hpll : s.pllLocked d p = false) :
    s.domainOn d k = s := by
  unfold State.domainOn
  split
  · simp only [hp, hpll, Bool.false_eq_true, if_false]
  · rfl

theorem touches_domainOn {fs : List Fld} (hf : PWR_DOM_STATE ∈ fs) (k : Nat) : Touches fs s (s.domainOn d k) := by
  unfold State.domainOn
  split
  · refine .ite ?_ (.refl _ s)
    refine Touches.trans (t := s.domainRestart d k) (.of_regs ?_ ?_) (touches_domainTaken _ _ hf ..)
    · rw [domainRestart_rest]
    · rw [domainRestart_rest]
  · exact .refl _ s

theorem domainRestart_domain (k j : Nat) : (s.domainRestart d k).domain d j = s.domain d j := by
  rw [domainRestart_rest]
  rfl

theorem domainRestart_pwr (k : Nat) : (s.domainRestart d k).pwr = s.pwr := by rw [domainRestart_rest]

end

section
variable {s : State} {d : Fin 8} (hd : (d : Nat) < s.part.dies) (k : Fin 58)
include hd

theorem domainPowerOn_on (hwant : s.domWant d k = some 0) (hpll : ∀ p, domPll k = some p → s.pllLocked d p = true) :
    Completes (.domainPowerOn d k) s fun t => t.domain d k = 0 ∧ t.domWant d k = none ∧
      (∀ j, j < 58 → j ≠ (k : Nat) → t.domain d j = s.domain d j) ∧ KeepsRegs [PWR_DOM_STATE] s t := by
  refine completes_dieOp [PWR_DOM_STATE] (fun u => u.domainOn d k) hd (domainOn_ready (s := silenced s) hwant hpll)
    (domainOn_ready (s := silenced s) hwant hpll ▸ touches_domainOn _ _ (by decide) _) fun t ht => ?_
  have hdom : ∀ j, t.domain d j = (domainTaken ((silenced s).domainRestart d k) d k 0).domain d j :=
    fun j => domain_of_rd fun _ => ht.rd _ _ _ (by decide)
  refine ⟨(hdom _).trans (domain_domainTaken _ _ _ (by decide)), ?_, fun j _ hj => ?_, ht.keeps⟩
  · rw [ht.rest]
    exact domWant_domainTaken _ _ _ 0
  · exact ((hdom j).trans (domain_domainTaken_other _ _ hj _)).trans (domainRestart_domain (silenced s) d k j)

theorem domainPowerOn_waits {p : Nat} (hp : domPll k = some p) (hpll : s.pllLocked d p = false) :
    Completes (.domainPowerOn d k) s (OnlyRegs [] s) :=
  completes_runDie s hd (f := fun u => u.domainOn d k) (onlyRegs_ran_of_fixed (domainOn_unlocked (s := silenced s) hp hpll))

/-! ### A domain is lowered -/

theorem domainLower_waits (hbusy : s.domIdle d k = false) : Completes (.domainLower d k) s (OnlyRegs [] s) :=
  completes_runDie s hd (f := fun u => u.domainLower d k) (onlyRegs_ran_of_fixed (if_pos (by
    rw [show (silenced s).domIdle d k = false from hbusy]
    rfl)))

omit hd in
theorem domainLower_retains (hk : (k : Nat) < 50) (hwant : s.domWant d k = some 1) (hidle : s.domIdle d k = true) :
    (silenced s).domainLower d k = domainTaken (silenced s) d k 1 := by
  have hidle' : (!(silenced s).domIdle d k) = false := by rw [show (silenced s).domIdle d k = true from hidle]; rfl
  have hwant' : (silenced s).domWant d k = some 1 := hwant
  unfold State.domainLower
  rw [hidle', if_neg Bool.false_ne_true, hwant']
  exact if_neg (by omega)

omit hd in
theorem domainLower_turnsOff (hk : (k : Nat) < 50) (hwant : s.domWant d k = some 2) (hidle : s.domIdle d k = true) :
    (silenced s).domainLower d k = (domainTaken (silenced s) d k 2).domainLose d k := by
  have hidle' : (!(silenced s).domIdle d k) = false := by rw [show (silenced s).domIdle d k = true from hidle]; rfl
  have hwant' : (silenced s).domWant d k = some 2 := hwant
  unfold State.domainLower
  rw [hidle', if_neg Bool.false_ne_true, hwant']
  exact if_neg fun h => absurd h.1 (by omega)

theorem domainLower_lowers {v : Nat} (hk : (k : Nat) < 50) (hv : v = 1 ∨ v = 2) (hwant : s.domWant d k = some v)
    (hidle : s.domIdle d k = true) : Completes (.domainLower d k) s fun t =>
      t.domain d k = v ∧ t.domWant d k = none ∧ (∀ j, j < 58 → j ≠ (k : Nat) → t.domain d j = s.domain d j) ∧
      (v = 1 ∨ (k : Nat) < 14 ∨ 21 < (k : Nat) → t.rxArms = s.rxArms) ∧
      (v = 1 ∨ (k : Nat) < 23 ∨ 30 < (k : Nat) → t.txArms = s.txArms) ∧
      t = { s with regs := t.regs, pwr := t.pwr, rxArms := t.rxArms, txArms := t.txArms, out := t.out } ∧
      KeepsRegs [PWR_DOM_STATE] s t := by
  have htaken := touches_domainTaken (fs := [PWR_DOM_STATE]) (silenced s) d (by decide) k v
  have hdom : ∀ j, j ≠ (k : Nat) → (domainTaken (silenced s) d k v).domain d j = s.domain d j :=
    fun j hj => domain_domainTaken_other _ _ hj _
  have hsame : (domainTaken (silenced s) d k v).domain d k = v := domain_domainTaken _ _ _ (by omega)
  rcases hv with rfl | rfl
  · refine completes_dieOp [PWR_DOM_STATE] (fun u => u.domainLower d k) hd (domainLower_retains k hk hwant hidle) htaken
      fun t ht => ?_
    have hshow : ∀ j, t.domain d j = (domainTaken (silenced s) d k 1).domain d j :=
      fun j => domain_of_rd fun _ => ht.rd _ _ _ (by decide)
    refine ⟨(hshow _).trans hsame, ?_, fun j _ hj => (hshow j).trans (hdom j hj), fun _ => ?_, fun _ => ?_, ?_, ht.keeps⟩
    · rw [ht.rest]
      exact domWant_domainTaken _ _ _ 1
    all_goals rw [ht.rest]; rfl
  · obtain ⟨hrest, hrx, htx⟩ := domainLose_arms (domainTaken (silenced s) d k 2) d hk
    have hregs : ((domainTaken (silenced s) d k 2).domainLose d k).regs = (domainTaken (silenced s) d k 2).regs := by rw [hrest]
    refine completes_dieOp [PWR_DOM_STATE] (fun u => u.domainLower d k) hd (domainLower_turnsOff k hk hwant hidle)
      (htaken.regs hregs (by rw [hrest])) fun t ht => ?_
    have hshow : ∀ j, t.domain d j = (domainTaken (silenced s) d k 2).domain d j :=
      fun j => domain_of_rd fun _ => (ht.rd _ _ _ (by decide)).trans (by rw [hrest]; rfl)
    refine ⟨(hshow _).trans hsame, ?_, fun j _ hj => (hshow j).trans (hdom j hj), fun h => ?_, fun h => ?_, ?_, ht.keeps⟩
    · rw [ht.rest, hrest]
      exact domWant_domainTaken _ _ _ 2
    · rw [ht.rest]
      exact hrx (h.resolve_left (by decide))
    · rw [ht.rest]
      exact htx (h.resolve_left (by decide))
    · rw [ht.rest, hrest]
      rfl

end
end Sys2Proof.Laws
end

section
/-! SUPPORT. PROOFS. The sampling reference of a die is lost and returns (O37). -/
namespace Sys2Proof.Laws
open Sys2Proof Sys2Proof.Machine

/-- What the others leave of one element, and what its own operation makes of it, holds at the end. -/
theorem forEach_takes {α : Type} {f : State → α → State} {P Q : State → Prop} {b : α} {xs : List α}
    (hP : ∀ u, ∀ x ∈ xs, x ≠ b → P u → P (f u x)) (hQ : ∀ u, ∀ x ∈ xs, x ≠ b → Q u → Q (f u x))
    (hat : ∀ u, P u → Q (f u b)) (hb : b ∈ xs) (hnd : xs.Nodup) {s : State} (hs : P s) : Q (s.forEach xs f) := by
  induction xs generalizing s with
  | nil => cases hb
  | cons x xs ih =>
    obtain ⟨hx, hnd⟩ := List.nodup_cons.mp hnd
    change Q (State.forEach (f s x) xs f)
    rcases List.mem_cons.mp hb with rfl | hb
    · exact forEach_invariant (P := Q) xs (fun t y hy => hQ t y (by simp [hy]) (ne_of_mem_of_not_mem hy hx)) (hat s hs)
    · exact ih (fun u y hy => hP u y (by simp [hy])) (fun u y hy => hQ u y (by simp [hy])) hb hnd
        (hP s x (by simp) (ne_of_mem_of_not_mem hb hx).symm hs)

/-- The registers of the seams' combining. -/
def combFlds : List Fld := [SEAM_STATUS_HI_STATE, SEAM_STATUS_LO_STATE, RXD_SC_STATUS_COMBINED]

/-- The registers of tones marked invalid. -/
def invalidFlds : List Fld := [SEAM_EVENT_INVALID_HI, SEAM_EVENT_INVALID_LO] ++ combFlds

/-- The registers of the loss of the reference. -/
def lostFlds : List Fld :=
  [CNV_STATUS_SCLK_LOCK, CNV_EVENT_SCLK_LOST, RXD_SC_STATUS_STATE] ++ invalidFlds ++ [FRM_TT_STATUS_VALID]

/-- The registers of a switch that ends, with the save or the restore that waited for it. -/
def switchFlds : List Fld :=
  [CAL_EVENT_REC_RESTORED, CAL_REC_CTRL_REASON, CAL_EVENT_REC_REFUSED] ++ swapFlds ++ restoreFlds

/-- The registers of the return of the reference, but for the lock. -/
def backFlds : List Fld := switchFlds ++ loopFlds ++ armFlds ++ invalidFlds

/-! ### Receive arms that hold and resume (R149, R162) -/

section
variable (s : State) (d i : Nat)

theorem touches_setRxState_state {fs : List Fld} (hf : RXD_SC_STATUS_STATE ∈ fs) (v : Nat) :
    Touches fs s (s.setRxState d i v) := by
  have hwr : Touches fs s (s.wr RXD_SC_STATUS_STATE d v i) := (Touches.refl _ s).wr hf ..
  have hmark := Touches.ite (c := ((s.rxState d i == 3) != (v == 3)) = true)
    (hwr.trans (touches_modRx _ d i fun a => { a with mixed := true })) hwr
  exact .ite (hmark.trans (touches_modRx ..)) hmark

theorem setRxState_rest (v : Nat) : s.setRxState d i v =
    { s with regs := (s.setRxState d i v).regs, rxArms := (s.setRxState d i v).rxArms } := by
  unfold State.setRxState
  dsimp only
  split <;> split <;> rfl

theorem setRxState_regs (v : Nat) : (s.setRxState d i v).regs = (s.wr RXD_SC_STATUS_STATE d v i).regs := by
  unfold State.setRxState
  dsimp only
  split <;> split <;> rfl

theorem setRxState_rd (v : Nat) (g : Fld) (e j : Nat) :
    (s.setRxState d i v).rd g e j = (s.wr RXD_SC_STATUS_STATE d v i).rd g e j :=
  rd_congr (setRxState_regs ..) (by rw [setRxState_rest]; rfl) g e j

theorem rxState_setRxState {v : Nat} (hv : v < 8) : (s.setRxState d i v).rxState d i = v := by
  rw [State.rxState, setRxState_rd, rd_wr_same]
  exact Nat.mod_eq_of_lt hv

variable {i}

theorem rxState_setRxState_other {j : Nat} (h : j ≠ i) (v : Nat) : (s.setRxState d i v).rxState d j = s.rxState d j := by
  rw [State.rxState, setRxState_rd, rd_wr_elem _ _ _ h, State.rxState]

theorem rxArm_modRx_other {j : Nat} (h : j ≠ i) (f : RxArm → RxArm) : (s.modRx d i f).rxArm d j = s.rxArm d j :=
  modRx_rxArm_other s (fun hk => h hk.2) f

theorem rxArm_setRxState_other {j : Nat} (h : j ≠ i) (v : Nat) : (s.setRxState d i v).rxArm d j = s.rxArm d j := by
  have hmark : (if ((s.rxState d i == 3) != (v == 3)) = true then (s.wr RXD_SC_STATUS_STATE d v i).markMixed d i
      else s.wr RXD_SC_STATUS_STATE d v i).rxArm d j = s.rxArm d j := by
    split
    · exact rxArm_modRx_other _ d h _
    · rfl
  unfold State.setRxState
  dsimp only
  split
  · exact (rxArm_modRx_other _ d h _).trans hmark
  · exact hmark

theorem seekCd_modRx : ∃ f, s.seekCd d i = s.modRx d i f := by
  unfold State.seekCd
  dsimp only
  split
  · exact ⟨_, rfl⟩
  · exact ⟨_, rfl⟩

theorem takeFreq_rxArm (j : Nat) : (s.takeFreq d).rxArm d j = s.rxArm d j := by
  unfold State.takeFreq
  dsimp only
  split
  · rfl
  · rfl

/-- An arm's state and record stand. -/
def KeepsArm (s t : State) (d j : Nat) : Prop := t.rxState d j = s.rxState d j ∧ t.rxArm d j = s.rxArm d j

variable {s d}

theorem KeepsArm.trans {t u : State} {j : Nat} (a : KeepsArm s t d j) (b : KeepsArm t u d j) : KeepsArm s u d j :=
  ⟨b.1.trans a.1, b.2.trans a.2⟩

theorem keepsArm_setRxState {j : Nat} (h : j ≠ i) (v : Nat) : KeepsArm s (s.setRxState d i v) d j :=
  ⟨rxState_setRxState_other s d h v, rxArm_setRxState_other s d h v⟩

theorem keepsArm_modRx {j : Nat} (h : j ≠ i) (f : RxArm → RxArm) : KeepsArm s (s.modRx d i f) d j :=
  ⟨rfl, rxArm_modRx_other s d h f⟩

theorem keepsArm_wr {f : Fld} (hf : place RXD_SC_STATUS_STATE ≠ place f) (e v k j : Nat) : KeepsArm s (s.wr f e v k) d j :=
  ⟨rd_wr_other s hf .., rfl⟩

theorem keepsArm_seekCd {j : Nat} (h : j ≠ i) : KeepsArm s (s.seekCd d i) d j := by
  obtain ⟨f, hf⟩ := seekCd_modRx s d (i := i)
  rw [hf]
  exact keepsArm_modRx h f

theorem keepsArm_takeFreq (j : Nat) : KeepsArm s (s.takeFreq d) d j := by
  refine ⟨?_, takeFreq_rxArm s d j⟩
  unfold State.rxState State.takeFreq
  dsimp only
  split
  · exact rd_wrb_other _ (by decide) ..
  · exact (rd_wrb_other _ (by decide) ..).trans (rd_wr_other _ (by decide) ..)

theorem keepsArm_startArm {j : Nat} (h : j ≠ i) : KeepsArm s (s.startArm d i) d j := by
  have hstart : KeepsArm s (((s.wrb RXD_SC_STATUS_EXPRESS d (s.scExpress d i) i).setRxState d i 1).loseSync d i) d j :=
    ((keepsArm_wr (by decide) ..).trans (keepsArm_setRxState h 1)).trans (keepsArm_wr (by decide) ..)
  unfold State.startArm
  dsimp only
  split
  · exact ⟨rfl, rfl⟩
  · split
    · exact ((hstart.trans (keepsArm_modRx h _)).trans (keepsArm_takeFreq j)).trans (keepsArm_seekCd h)
    · exact hstart.trans (keepsArm_modRx h _)

theorem keepsArm_wakeArm {j : Nat} (h : j ≠ i) : KeepsArm s (s.wakeArm d i) d j := by
  unfold State.wakeArm
  split
  · exact ⟨rfl, rfl⟩
  · exact ((keepsArm_setRxState h 6).trans (keepsArm_wr (by decide) ..)).trans (keepsArm_modRx h _)

/-- How one arm resumes (R149, R162). -/
def armResumed (s : State) (d i : Nat) : State :=
  if (s.rxArm d i).coldDue then s.startArm d i
  else if s.rxState d i = 4 then
    if (s.rxArm d i).cd.isSome then s.wakeArm d i else (s.setRxState d i 1).seekCd d i
  else s

theorem rxResume_eq : s.rxResume d = s.forEach (List.range 8) fun t x => armResumed t d x := rfl

theorem touches_armResumed (s : State) (d i : Nat) : Touches armFlds s (armResumed s d i) :=
  .ite (touches_startArm ..) (.ite (.ite (touches_wakeArm ..) ((touches_setRxState ..).trans (touches_seekCd ..)))
    (.refl _ s))

theorem keepsArm_armResumed {j : Nat} (h : j ≠ i) : KeepsArm s (armResumed s d i) d j := by
  unfold armResumed
  split
  · exact keepsArm_startArm h
  split
  · split
    · exact keepsArm_wakeArm h
    · exact (keepsArm_setRxState h 1).trans (keepsArm_seekCd h)
  · exact ⟨rfl, rfl⟩

theorem rxState_armResumed (hidle : s.heldIdle d = false) (hwarm : (s.rxArm d i).coldDue = false) (hheld : s.rxState d i = 4) :
    (armResumed s d i).rxState d i = if (s.rxArm d i).cd.isSome then 6 else 1 := by
  rw [armResumed, if_neg (ne_true_of_eq_false hwarm), if_pos hheld]
  split
  · rw [State.wakeArm, if_neg (ne_true_of_eq_false hidle)]
    exact (rd_wr_other _ (by decide) ..).trans (rxState_setRxState s d i (by decide))
  · obtain ⟨f, hf⟩ := seekCd_modRx (s.setRxState d i 1) d (i := i)
    rw [hf]
    exact rxState_setRxState s d i (by decide)

/-- An arm that holds resumes (R149, R162). -/
theorem rxState_rxResume (hi : i < 8) (hidle : s.heldIdle d = false) (hwarm : (s.rxArm d i).coldDue = false)
    (hheld : s.rxState d i = 4) : (s.rxResume d).rxState d i = if (s.rxArm d i).cd.isSome then 6 else 1 := by
  rw [rxResume_eq]
  refine forEach_takes (b := i) (P := fun u => u.heldIdle d = false ∧ u.rxState d i = 4 ∧ u.rxArm d i = s.rxArm d i)
    (Q := fun u => u.rxState d i = if (s.rxArm d i).cd.isSome then 6 else 1) (fun u x _ hx hu => ?_) (fun u x _ hx hu => ?_)
    (fun u hu => ?_) (List.mem_range.mpr hi) List.nodup_range ⟨hidle, hheld, rfl⟩
  · obtain ⟨hfree, hst, harm⟩ := hu
    have hkeep : KeepsArm u (armResumed u d x) d i := keepsArm_armResumed hx.symm
    exact ⟨by rwa [State.heldIdle, (touches_armResumed u d x).rd _ _ _ (by decide)], hkeep.1.trans hst, hkeep.2.trans harm⟩
  · exact (keepsArm_armResumed hx.symm).1.trans hu
  · obtain ⟨hfree, hst, harm⟩ := hu
    rw [rxState_armResumed hfree (by rw [harm]; exact hwarm) hst, harm]

/-! ### Arms that hold (R162) -/

/-- How one arm holds. -/
def armHeld (s : State) (d i : Nat) : State :=
  match s.rxState d i with
  | 0 => s
  | 5 => s
  | 4 => s
  | _ => if s.rxOn d i then s.setRxState d i 4 else s

theorem rxHold_eq : s.rxHold d = s.forEach (List.range 8) fun t x => armHeld t d x := rfl

theorem armHeld_cases (s : State) (d i : Nat) : armHeld s d i = s ∨ armHeld s d i = s.setRxState d i 4 := by
  unfold armHeld
  split
  · exact .inl rfl
  · exact .inl rfl
  · exact .inl rfl
  · split
    · exact .inr rfl
    · exact .inl rfl

theorem armHeld_holds (hon : s.rxOn d i = true) (hrun : s.rxState d i ≠ 0) (hdorm : s.rxState d i ≠ 5) :
    (armHeld s d i).rxState d i = 4 := by
  unfold armHeld
  split
  · next h => exact absurd h hrun
  · next h => exact absurd h hdorm
  · next h => exact h
  · rw [if_pos hon]
    exact rxState_setRxState s d i (by decide)

theorem touches_armHeld {fs : List Fld} (hf : RXD_SC_STATUS_STATE ∈ fs) (s : State) (d i : Nat) :
    Touches fs s (armHeld s d i) := by
  rcases armHeld_cases s d i with h | h
  · rw [h]
    exact .refl fs s
  · rw [h]
    exact touches_setRxState_state s d i hf 4

theorem touches_rxHold {fs : List Fld} (hf : RXD_SC_STATUS_STATE ∈ fs) (s : State) (d : Nat) : Touches fs s (s.rxHold d) :=
  (Touches.refl fs s).forEach _ fun u x _ => touches_armHeld hf u d x

theorem rxHold_rest (s : State) (d : Nat) :
    s.rxHold d = { s with regs := (s.rxHold d).regs, rxArms := (s.rxHold d).rxArms } := by
  refine forEach_invariant (P := fun u : State => u = { s with regs := u.regs, rxArms := u.rxArms }) _ (fun u x _ hu => ?_) rfl
  change armHeld u d x = { s with regs := (armHeld u d x).regs, rxArms := (armHeld u d x).rxArms }
  rcases armHeld_cases u d x with h | h
  · rw [h]
    exact hu
  · rw [h, setRxState_rest, hu]

/-- Every enabled arm in service holds. -/
theorem rxState_rxHold (hi : i < 8) (hon : s.rxOn d i = true) (hrun : s.rxState d i ≠ 0) (hdorm : s.rxState d i ≠ 5) :
    (s.rxHold d).rxState d i = 4 := by
  have hkeep (u : State) {x : Nat} (hx : x ≠ i) : (armHeld u d x).rxState d i = u.rxState d i := by
    rcases armHeld_cases u d x with h | h
    · rw [h]
    · rw [h, rxState_setRxState_other _ _ hx.symm]
  rw [rxHold_eq]
  refine forEach_takes (b := i) (P := fun u => u.rxOn d i = true ∧ u.rxState d i = s.rxState d i)
    (Q := fun u => u.rxState d i = 4) (fun u x _ hx hu => ?_) (fun u x _ hx hu => (hkeep u hx).trans hu)
    (fun u hu => ?_) (List.mem_range.mpr hi) List.nodup_range ⟨hon, rfl⟩
  · obtain ⟨hen, hst⟩ := hu
    refine ⟨?_, (hkeep u hx).trans hst⟩
    rwa [State.rxOn, (touches_armHeld (fs := [RXD_SC_STATUS_STATE]) (by decide) u d x).rd _ _ _ (by decide)]
  · obtain ⟨hen, hst⟩ := hu
    exact armHeld_holds hen (by rwa [hst]) (by rwa [hst])

theorem txHold_rest (s : State) (d : Nat) : s.txHold d = { s with txArms := (s.txHold d).txArms } := by
  refine forEach_invariant (P := fun u : State => u = { s with txArms := u.txArms }) _ (fun u x _ hu => ?_) rfl
  rw [hu]
  split <;> rfl

end
end Sys2Proof.Laws
end

section
/-! SUPPORT. PROOFS. Commands of the sampling reference (O37). -/
namespace Sys2Proof.Laws
open Sys2Proof Sys2Proof.Machine

/-! ### Tones marked invalid (R107, R159) -/

section
variable (s : State) (d : Nat) (hi : Bool)

theorem seamStateFld_mem : State.seamStateFld hi ∈ invalidFlds := by cases hi <;> decide

theorem touches_setSeam (v : Nat) : Touches invalidFlds s (s.setSeam d hi v) :=
  ((Touches.refl _ s).wr (seamStateFld_mem hi) ..).wrb (by decide) ..

theorem touches_seamOwn : Touches invalidFlds s (s.seamOwn d hi) := (touches_setSeam s d hi 3).regs rfl rfl

theorem touches_seamLearn : Touches invalidFlds s (s.seamLearn d hi) := (touches_setSeam s d hi 1).regs rfl rfl

theorem touches_seamTry : Touches invalidFlds s (s.seamTry d hi) := by
  unfold State.seamTry
  split
  · exact .refl _ s
  · exact .ite (.ite (touches_seamOwn ..) (touches_seamLearn ..)) (.refl _ s)

/-- The neighbour's tones are marked. -/
theorem touches_marked (bad : Bool) : Touches invalidFlds s (s.modSeam d hi fun x => { x with invalid := bad }) :=
  .of_regs rfl rfl

theorem touches_seamInvalid (bad : Bool) : Touches invalidFlds s (s.seamInvalid d hi bad) := by
  have hevent : (if hi then SEAM_EVENT_INVALID_HI else SEAM_EVENT_INVALID_LO) ∈ invalidFlds := by cases hi <;> decide
  have hraised := (touches_marked s d hi bad).raise hevent d 1 0
  exact .ite (.ite hraised (hraised.trans (touches_seamOwn ..)))
    (.ite ((touches_marked s d hi bad).trans (touches_seamTry ..)) (touches_marked s d hi bad))

/-- Only registers and the records of seams differ. -/
def MovesSeams (s t : State) : Prop := t = { s with regs := t.regs, seams := t.seams }

variable {s d hi} in
theorem MovesSeams.trans {t u : State} (a : MovesSeams s t) (b : MovesSeams t u) : MovesSeams s u := by
  unfold MovesSeams at *
  rw [b, a]

variable {s} in
theorem MovesSeams.ite {t u : State} {c : Prop} [Decidable c] (a : MovesSeams s t) (b : MovesSeams s u) :
    MovesSeams s (if c then t else u) := by
  split
  · exact a
  · exact b

theorem movesSeams_seamOwn : MovesSeams s (s.seamOwn d hi) := rfl

theorem movesSeams_seamInvalid : MovesSeams s (s.seamInvalid d hi true) := by
  have hmark : MovesSeams s ((s.modSeam d hi fun x => { x with invalid := true }).raise
      (if hi then SEAM_EVENT_INVALID_HI else SEAM_EVENT_INVALID_LO) d) := rfl
  unfold State.seamInvalid
  dsimp only
  rw [if_pos rfl]
  exact .ite hmark (hmark.trans (movesSeams_seamOwn ..))

/-- The seams that a die borders, the tones of its side marked. -/
def seamsMarked (s : State) (d : Nat) (bad : Bool) : State :=
  let s := if d + 1 < s.dieCount ∧ s.sameTeam d (d + 1) then s.seamInvalid (d + 1) false bad else s
  if d ≠ 0 ∧ s.sameTeam d (d - 1) then s.seamInvalid (d - 1) true bad else s

theorem touches_seamsMarked (bad : Bool) : Touches invalidFlds s (seamsMarked s d bad) := by
  have habove := Touches.ite (c := d + 1 < s.dieCount ∧ s.sameTeam d (d + 1) = true)
    (touches_seamInvalid s (d + 1) false bad) (.refl _ s)
  exact .ite (habove.trans (touches_seamInvalid ..)) habove

theorem movesSeams_seamsMarked : MovesSeams s (seamsMarked s d true) := by
  have habove : MovesSeams s
      (if d + 1 < s.dieCount ∧ s.sameTeam d (d + 1) = true then s.seamInvalid (d + 1) false true else s) :=
    .ite (movesSeams_seamInvalid ..) rfl
  exact .ite (habove.trans (movesSeams_seamInvalid ..)) habove

end

/-! ### The reference is lost (R107) -/

section
variable (s : State) (d : Nat)

theorem samplingLost_eq : s.samplingLost d =
    let t := seamsMarked (((s.cnvLost d).rxHold d).txHold d) d true
    t.wr FRM_TT_STATUS_VALID (t.teamBase d) 0 := rfl

/-- The converters lose the reference and the arms hold. -/
def armsWait (s : State) (d : Nat) : State := ((s.cnvLost d).rxHold d).txHold d

theorem touches_cnvLost : Touches lostFlds s (s.cnvLost d) :=
  ((Touches.refl _ s).wr (by decide) ..).raise (by decide) ..

theorem txHold_regs : (s.txHold d).regs = s.regs := by rw [txHold_rest]

theorem txHold_part : (s.txHold d).part = s.part := by rw [txHold_rest]

theorem touches_armsWait : Touches lostFlds s (armsWait s d) :=
  ((touches_cnvLost s d).trans (touches_rxHold (by decide) _ d)).regs (txHold_regs ..) (txHold_part ..)

theorem armsWait_rd (g : Fld) (e j : Nat) : (armsWait s d).rd g e j = ((s.cnvLost d).rxHold d).rd g e j :=
  rd_congr (txHold_regs ..) (txHold_part ..) g e j

/-- Only registers and the records of arms and seams differ. -/
def MovesLine (s t : State) : Prop :=
  t = { s with regs := t.regs, rxArms := t.rxArms, txArms := t.txArms, seams := t.seams }

variable {s} in
theorem MovesLine.trans {t u : State} (a : MovesLine s t) (b : MovesLine t u) : MovesLine s u := by
  unfold MovesLine at *
  rw [b, a]

variable {s} in
theorem MovesSeams.movesLine {t : State} (h : MovesSeams s t) : MovesLine s t := by
  unfold MovesSeams at h
  unfold MovesLine
  rw [h]

theorem movesLine_rxHold : MovesLine s (s.rxHold d) := by
  unfold MovesLine
  rw [rxHold_rest]

theorem movesLine_txHold : MovesLine s (s.txHold d) := by
  unfold MovesLine
  rw [txHold_rest]

theorem movesLine_armsWait : MovesLine s (armsWait s d) :=
  (MovesLine.trans (t := s.cnvLost d) rfl (movesLine_rxHold _ d)).trans (movesLine_txHold _ d)

theorem touches_marksWait : Touches lostFlds s (seamsMarked (armsWait s d) d true) :=
  (touches_armsWait s d).trans ((touches_seamsMarked ..).mono (by decide))

theorem touches_samplingLost : Touches lostFlds s (s.samplingLost d) := (touches_marksWait s d).wr (by decide) ..

/-- The time transfer of a team is not valid. -/
def transferLost (s : State) (d : Nat) : State := s.wr FRM_TT_STATUS_VALID (s.teamBase d) 0

theorem movesLine_transferLost : MovesLine s (transferLost s d) := rfl

theorem movesLine_samplingLost : MovesLine s (s.samplingLost d) :=
  ((movesLine_armsWait s d).trans (movesSeams_seamsMarked _ d).movesLine).trans (movesLine_transferLost _ d)

theorem rd_samplingLost {g : Fld} (hseam : place g ∉ invalidFlds.map place) (htt : place g ≠ place FRM_TT_STATUS_VALID)
    (e j : Nat) : (s.samplingLost d).rd g e j = ((s.cnvLost d).rxHold d).rd g e j := by
  rw [← armsWait_rd, ← (touches_seamsMarked (armsWait s d) d true).rd g e j hseam]
  exact rd_wr_other _ htt ..

theorem rd_samplingLost_lock : (s.samplingLost d).rd CNV_STATUS_SCLK_LOCK d = 0 := by
  rw [rd_samplingLost _ _ (by decide) (by decide),
    (touches_rxHold (fs := [RXD_SC_STATUS_STATE]) (by decide) _ d).rd _ _ _ (by decide)]
  exact (rd_raise_other _ (by decide) ..).trans (rd_wr_same ..)

theorem rd_samplingLost_event : (s.samplingLost d).rd CNV_EVENT_SCLK_LOST d = 1 := by
  rw [rd_samplingLost _ _ (by decide) (by decide),
    (touches_rxHold (fs := [RXD_SC_STATUS_STATE]) (by decide) _ d).rd _ _ _ (by decide)]
  exact rd_raise_one _ rfl _

theorem teamBase_congr {s t : State} (h : t.rd PKG_TEAM_MAP_SIZE pkg = s.rd PKG_TEAM_MAP_SIZE pkg) (d : Nat) :
    t.teamBase d = s.teamBase d := by
  simp only [State.teamBase, State.teamSize, h]

theorem rd_samplingLost_transfer : (s.samplingLost d).rd FRM_TT_STATUS_VALID (s.teamBase d) = 0 := by
  have hbase : (seamsMarked (armsWait s d) d true).teamBase d = s.teamBase d :=
    teamBase_congr ((touches_marksWait s d).rd PKG_TEAM_MAP_SIZE pkg 0 (by decide)) d
  rw [samplingLost_eq, ← hbase]
  exact rd_wr_same ..

theorem rxState_samplingLost {i : Nat} (hi : i < 8) (hon : s.rxOn d i = true) (hrun : s.rxState d i ≠ 0)
    (hdorm : s.rxState d i ≠ 5) : (s.samplingLost d).rxState d i = 4 := by
  have hst : (s.cnvLost d).rxState d i = s.rxState d i :=
    (rd_raise_other _ (by decide) ..).trans (rd_wr_other _ (by decide) ..)
  have hen : (s.cnvLost d).rxOn d i = true := by
    rwa [State.rxOn, (touches_cnvLost s d).rd _ _ _ (by decide)]
  rw [State.rxState, rd_samplingLost _ _ (by decide) (by decide)]
  exact rxState_rxHold hi hen (by rwa [hst]) (by rwa [hst])

end
end Sys2Proof.Laws
end

section
/-! SUPPORT. PROOFS. The sampling reference returns (O37). -/
namespace Sys2Proof.Laws
open Sys2Proof Sys2Proof.Machine

/-! ### A switch that waited ends (R113, R128) -/

section
variable (s : State) (d : Nat)

theorem rxArms_swapSets : (s.swapSets d).rxArms = s.rxArms := by rw [swapSets_rest]

theorem touches_saveRecord {fs : List Fld} : Touches fs s (s.saveRecord d) := by
  rw [saveRecord_eq]
  refine .of_regs ?_ ?_
  · rw [bodySaved_rest]
  · rw [bodySaved_rest]

theorem rxArms_saveRecord : (s.saveRecord d).rxArms = s.rxArms := by rw [saveRecord_eq, bodySaved_rest]

theorem rxArms_cnvRestored (r : List Byte) : (cnvRestored s d r).rxArms = s.rxArms := rfl

theorem rxArms_endRestore : (s.endRestore d).rxArms = s.rxArms := rfl

theorem rxArms_recordWritten (r : List Byte) : (recordWritten s d r).rxArms = s.rxArms := by
  rw [recordWritten, rxArms_cnvRestored, (writesOnly_regsRestored _ d r).rest, coefRestored_rest]

theorem touches_restoreRecord (r : List Byte) : Touches switchFlds s (s.restoreRecord d r) := by
  have hwritten : Touches switchFlds s (recordWritten s d r) :=
    (touches_recordWritten s d r).mono fun _ h => List.mem_append_right _ h
  rw [restoreRecord_eq]
  exact .ite ((hwritten.trans ((touches_swapSets ..).mono fun _ h => List.mem_append_left _ (List.mem_append_right _ h))).trans
    ((touches_endRestore ..).mono (by decide))) hwritten

theorem rxArms_restoreRecord (r : List Byte) : (s.restoreRecord d r).rxArms = s.rxArms := by
  rw [restoreRecord_eq]
  split
  · rw [rxArms_endRestore, rxArms_swapSets, rxArms_recordWritten]
  · exact rxArms_recordWritten s d r

theorem touches_checkRecord : Touches switchFlds s (s.checkRecord d) := by
  unfold State.checkRecord
  dsimp only
  split
  · exact ((((Touches.refl _ s).wr (by decide) ..).raise (by decide) ..)).trans (touches_modCnv ..)
  · exact touches_restoreRecord ..

theorem rxArms_checkRecord : (s.checkRecord d).rxArms = s.rxArms := by
  unfold State.checkRecord
  dsimp only
  split
  · rfl
  · exact rxArms_restoreRecord ..

/-- The sets have swapped, and the restore that did it ends. -/
def switchTaken (s : State) (d : Nat) : State :=
  if ((s.swapSets d).cnvSt d).restoring then (s.swapSets d).endRestore d else s.swapSets d

/-- A save that waited for the switch runs. -/
def saveTaken (s : State) (d : Nat) : State := if (s.cnvSt d).saveDue then s.saveRecord d else s

/-- A restore that waited for the switch runs. -/
def restoreTaken (s : State) (d : Nat) : State :=
  if (s.cnvSt d).restoreDue then (s.modCnv d fun x => { x with restoreDue := false }).checkRecord d else s

theorem endSwitch_eq : s.endSwitch d = restoreTaken (saveTaken (switchTaken s d) d) d := rfl

theorem touches_endSwitch : Touches switchFlds s (s.endSwitch d) := by
  have hswap : Touches switchFlds s (s.swapSets d) :=
    (touches_swapSets ..).mono fun _ h => List.mem_append_left _ (List.mem_append_right _ h)
  have htaken : Touches switchFlds s (switchTaken s d) := .ite (hswap.trans ((touches_endRestore ..).mono (by decide))) hswap
  have hsaved : Touches switchFlds s (saveTaken (switchTaken s d) d) := .ite (htaken.trans (touches_saveRecord ..)) htaken
  rw [endSwitch_eq]
  exact .ite ((hsaved.trans (touches_modCnv ..)).trans (touches_checkRecord ..)) hsaved

theorem rxArms_endSwitch : (s.endSwitch d).rxArms = s.rxArms := by
  have htaken : (switchTaken s d).rxArms = s.rxArms := by
    unfold switchTaken
    split
    · rw [rxArms_endRestore, rxArms_swapSets]
    · exact rxArms_swapSets s d
  have hsaved : (saveTaken (switchTaken s d) d).rxArms = s.rxArms := by
    unfold saveTaken
    split
    · exact (rxArms_saveRecord _ d).trans htaken
    · exact htaken
  rw [endSwitch_eq]
  unfold restoreTaken
  split
  · rw [rxArms_checkRecord, modCnv_rxArms, hsaved]
  · exact hsaved

/-! ### The converters resume (R107, R123) -/

theorem rxArms_setLoop (v : Nat) : (s.setLoop d v).rxArms = s.rxArms := by
  unfold State.setLoop
  dsimp only
  split
  · rfl
  · rfl

theorem rxArms_startAcquire : (s.startAcquire d).rxArms = s.rxArms := by
  unfold State.startAcquire
  split
  · exact rxArms_setLoop s d 1
  · rfl

/-- Acquisition starts below a die. -/
theorem rd_startAcquire (hen : s.flag CAL_CTRL_SEAM_EN d = true) (hlow : s.lowerPresent d = true) :
    (s.startAcquire d).rd CAL_STATUS_SEAM_LO_STATE d = 1 := by
  rw [State.startAcquire, hen, hlow, Bool.and_self, if_pos rfl, modCnv_rd, State.setLoop]
  split
  · exact rd_wr_same ..
  · exact (rd_wr_other _ (by decide) ..).trans (rd_wr_same ..)

/-- The loop of the seam above leaves the state shown of the one below. -/
theorem rd_startAcquire_above (e : Nat) (h : d ≠ e) :
    (s.startAcquire e).rd CAL_STATUS_SEAM_LO_STATE d = s.rd CAL_STATUS_SEAM_LO_STATE d := by
  unfold State.startAcquire
  split
  · rw [modCnv_rd, State.setLoop]
    split
    · exact rd_wr_inst _ _ _ h ..
    · exact (rd_wr_other _ (by decide) ..).trans (rd_wr_inst _ _ _ h ..)
  · rfl

/-- The lock shows, and a switch that waited for it ends. -/
def lockShown (s : State) (d : Nat) : State :=
  let t := s.raise CNV_STATUS_SCLK_LOCK d
  if t.flag CNV_COEF_CTRL_SWITCH_PENDING d then t.endSwitch d else t

theorem cnvReturn_eq : s.cnvReturn d =
    let t := (lockShown s d).startAcquire d
    if d + 1 < t.dieCount ∧ t.sameTeam d (d + 1) then t.startAcquire (d + 1) else t := rfl

/-- What follows the lock in the converters. -/
theorem touches_afterLock : Touches (switchFlds ++ loopFlds) (s.raise CNV_STATUS_SCLK_LOCK d) (s.cnvReturn d) := by
  have hshown : Touches (switchFlds ++ loopFlds) (s.raise CNV_STATUS_SCLK_LOCK d) (lockShown s d) :=
    .ite ((touches_endSwitch ..).mono fun _ h => List.mem_append_left _ h) (.refl _ _)
  have hbelow := hshown.trans ((touches_startAcquire _ d).mono fun _ h => List.mem_append_right _ h)
  rw [cnvReturn_eq]
  exact .ite (hbelow.trans ((touches_startAcquire ..).mono fun _ h => List.mem_append_right _ h)) hbelow

theorem rxArms_cnvReturn : (s.cnvReturn d).rxArms = s.rxArms := by
  have hshown : (lockShown s d).rxArms = s.rxArms := by
    unfold lockShown
    dsimp only
    split
    · exact rxArms_endSwitch _ d
    · rfl
  have hbelow := (rxArms_startAcquire (lockShown s d) d).trans hshown
  rw [cnvReturn_eq]
  dsimp only
  split
  · exact (rxArms_startAcquire _ _).trans hbelow
  · exact hbelow

theorem rd_cnvReturn_seam (hen : s.flag CAL_CTRL_SEAM_EN d = true) (hlow : s.lowerPresent d = true) :
    (s.cnvReturn d).rd CAL_STATUS_SEAM_LO_STATE d = 1 := by
  have hshown : Touches (CNV_STATUS_SCLK_LOCK :: switchFlds) s (lockShown s d) := by
    have hlock := (Touches.refl (CNV_STATUS_SCLK_LOCK :: switchFlds) s).raise (f := CNV_STATUS_SCLK_LOCK) (by decide) d 1 0
    exact .ite (hlock.trans ((touches_endSwitch ..).mono fun _ h => List.mem_cons_of_mem _ h)) hlock
  have hen' : (lockShown s d).flag CAL_CTRL_SEAM_EN d = true := by
    rwa [State.flag, hshown.rd _ _ _ (by decide)]
  have hlow' : (lockShown s d).lowerPresent d = true := by
    rw [← hlow]
    simp only [State.lowerPresent, State.teamPos, State.teamBase, State.teamSize, State.memberState,
      hshown.rd PKG_TEAM_MAP_SIZE _ _ (by decide), hshown.rd PKG_MEMBER_STATUS_STATE _ _ (by decide)]
  have hbelow := rd_startAcquire (lockShown s d) d hen' hlow'
  rw [cnvReturn_eq]
  dsimp only
  split
  · exact (rd_startAcquire_above _ _ _ (by omega)).trans hbelow
  · exact hbelow

end

/-! ### The return (R107, R121, R162) -/

section
variable (s : State) (d : Nat)

/-- The arms resume, or wait for the delay that the seam below acquires. -/
def armsBack (s : State) (d : Nat) : State :=
  if s.isActive d && s.rd CAL_STATUS_SEAM_LO_STATE d == 1 && s.flag CAL_CTRL_SEAM_EN d then
    s.modCnv d fun x => { x with resumeDue := true }
  else s.rxResume d

/-- The streams of all subcarriers are sought anew. -/
def syncsLost (s : State) (d : Nat) : State := s.forEach (List.range 8) fun t i => t.loseSync d i

theorem samplingBack_eq : s.samplingBack d = seamsMarked (syncsLost (armsBack (s.cnvReturn d) d) d) d false := rfl

theorem touches_armsBack : Touches armFlds s (armsBack s d) := .ite (touches_modCnv ..) (touches_rxResume ..)

theorem touches_syncsLost : Touches [FEC_SC_STATUS_RX_SYNC] s (syncsLost s d) :=
  (Touches.refl _ s).forEach _ fun u i _ => (Touches.refl _ u).wr (by decide) ..

theorem touches_samplingBack : Touches backFlds (s.raise CNV_STATUS_SCLK_LOCK d) (s.samplingBack d) := by
  have hcnv : Touches backFlds (s.raise CNV_STATUS_SCLK_LOCK d) (s.cnvReturn d) :=
    (touches_afterLock s d).mono fun _ h => List.mem_append_left _ (List.mem_append_left _ h)
  have harms := hcnv.trans ((touches_armsBack (s.cnvReturn d) d).mono fun _ h =>
    List.mem_append_left _ (List.mem_append_right _ h))
  rw [samplingBack_eq]
  exact (harms.trans ((touches_syncsLost ..).mono (by decide))).trans
    ((touches_seamsMarked ..).mono fun _ h => List.mem_append_right _ h)

theorem touches_samplingBack_all : Touches (CNV_STATUS_SCLK_LOCK :: backFlds) s (s.samplingBack d) :=
  ((Touches.refl _ s).raise List.mem_cons_self ..).trans
    ((touches_samplingBack s d).mono fun _ h => List.mem_cons_of_mem _ h)

theorem rxState_samplingBack (i : Nat) : (s.samplingBack d).rxState d i = (armsBack (s.cnvReturn d) d).rxState d i := by
  rw [samplingBack_eq, State.rxState, (touches_seamsMarked ..).rd _ _ _ (by decide),
    (touches_syncsLost ..).rd _ _ _ (by decide), State.rxState]

theorem rd_cnvReturn {g : Fld} (hlock : place g ≠ place CNV_STATUS_SCLK_LOCK)
    (hg : place g ∉ (switchFlds ++ loopFlds).map place) (e j : Nat) : (s.cnvReturn d).rd g e j = s.rd g e j :=
  ((touches_afterLock s d).rd g e j hg).trans (rd_raise_other _ hlock ..)

theorem isActive_cnvReturn : (s.cnvReturn d).isActive d = s.isActive d := by
  simp only [State.isActive, State.memberState, rd_cnvReturn s d (g := PKG_MEMBER_STATUS_STATE) (by decide) (by decide)]

theorem flag_cnvReturn_seam : (s.cnvReturn d).flag CAL_CTRL_SEAM_EN d = s.flag CAL_CTRL_SEAM_EN d := by
  rw [State.flag, rd_cnvReturn s d (by decide) (by decide), State.flag]

/-- Off the seam loop an arm that holds resumes at once. -/
theorem rxState_samplingBack_free {i : Nat} (hi : i < 8) (hseam : (s.isActive d && s.flag CAL_CTRL_SEAM_EN d) = false)
    (hidle : s.heldIdle d = false) (hwarm : (s.rxArm d i).coldDue = false) (hheld : s.rxState d i = 4) :
    (s.samplingBack d).rxState d i = if (s.rxArm d i).cd.isSome then 6 else 1 := by
  have harm : (s.cnvReturn d).rxArm d i = s.rxArm d i := by rw [State.rxArm, rxArms_cnvReturn, State.rxArm]
  have hfree : ((s.cnvReturn d).isActive d && (s.cnvReturn d).rd CAL_STATUS_SEAM_LO_STATE d == 1 &&
      (s.cnvReturn d).flag CAL_CTRL_SEAM_EN d) = false := by
    rw [isActive_cnvReturn, flag_cnvReturn_seam, Bool.and_right_comm, hseam, Bool.false_and]
  rw [rxState_samplingBack, armsBack, if_neg (ne_true_of_eq_false hfree), ← harm]
  refine rxState_rxResume hi ?_ (by rwa [harm]) ?_
  · rwa [State.heldIdle, rd_cnvReturn s d (by decide) (by decide)]
  · rwa [State.rxState, rd_cnvReturn s d (by decide) (by decide)]

/-- While an active die acquires below, its arms wait for the delay. -/
theorem rxState_samplingBack_acquiring
    (hacq : (s.isActive d && s.flag CAL_CTRL_SEAM_EN d && s.lowerPresent d) = true) (i : Nat) :
    (s.samplingBack d).rxState d i = s.rxState d i := by
  obtain ⟨h, hlow⟩ := Bool.and_eq_true_iff.mp hacq
  obtain ⟨hact, hen⟩ := Bool.and_eq_true_iff.mp h
  have hwait : ((s.cnvReturn d).isActive d && (s.cnvReturn d).rd CAL_STATUS_SEAM_LO_STATE d == 1 &&
      (s.cnvReturn d).flag CAL_CTRL_SEAM_EN d) = true := by
    rw [isActive_cnvReturn, flag_cnvReturn_seam, rd_cnvReturn_seam s d hen hlow, hact, hen]
    rfl
  rw [rxState_samplingBack, armsBack, if_pos hwait]
  exact rd_cnvReturn s d (by decide) (by decide) ..

end

/-! ### Commands of the reference -/

section
variable {s : State} {d : Fin 8} (hd : (d : Nat) < s.part.dies)
include hd

theorem sclkLost_holds : Completes (.sclkLost d) s fun t =>
    t.rd CNV_STATUS_SCLK_LOCK d = 0 ∧ t.rd CNV_EVENT_SCLK_LOST d = 1 ∧ t.rd FRM_TT_STATUS_VALID (s.teamBase d) = 0 ∧
    (∀ i, i < 8 → s.rxOn d i = true → s.rxState d i ≠ 0 → s.rxState d i ≠ 5 → t.rxState d i = 4) ∧
    t = { s with regs := t.regs, rxArms := t.rxArms, txArms := t.txArms, seams := t.seams, out := t.out } ∧
    KeepsRegs lostFlds s t := by
  refine completes_dieOp lostFlds _ hd rfl (touches_samplingLost _ d) fun t ht =>
    ⟨?_, ?_, ?_, fun i hi hon hrun hdorm => ?_, ?_, ht.keeps⟩
  · rw [ht.rd _ _ _ (by decide)]
    exact rd_samplingLost_lock ..
  · rw [ht.rd _ _ _ (by decide)]
    exact rd_samplingLost_event ..
  · rw [ht.rd _ _ _ (by decide)]
    exact rd_samplingLost_transfer (silenced s) d
  · rw [State.rxState, ht.rd _ _ _ (by decide)]
    exact rxState_samplingLost (silenced s) d hi hon hrun hdorm
  · rw [ht.rest, movesLine_samplingLost]
    rfl

theorem sclkReturn_resumes : Completes (.sclkReturn d) s fun t => t.rd CNV_STATUS_SCLK_LOCK d = 1 ∧
    ((s.isActive d && s.flag CAL_CTRL_SEAM_EN d) = false → s.heldIdle d = false → ∀ i, i < 8 →
      (s.rxArm d i).coldDue = false → s.rxState d i = 4 → t.rxState d i = if (s.rxArm d i).cd.isSome then 6 else 1) ∧
    ((s.isActive d && s.flag CAL_CTRL_SEAM_EN d && s.lowerPresent d) = true →
      ∀ i, i < 8 → t.rxState d i = s.rxState d i) := by
  refine completes_dieOp (CNV_STATUS_SCLK_LOCK :: backFlds) _ hd rfl (touches_samplingBack_all _ d) fun t ht =>
    ⟨?_, fun hseam hidle i hi hwarm hheld => ?_, fun hacq i _ => ?_⟩
  · rw [ht.rd _ _ _ (by decide), (touches_samplingBack (silenced s) d).rd _ _ _ (by decide)]
    exact rd_raise_one _ rfl _
  · rw [State.rxState, ht.rd _ _ _ (by decide)]
    exact rxState_samplingBack_free (silenced s) d hi hseam hidle hwarm hheld
  · rw [State.rxState, ht.rd _ _ _ (by decide)]
    exact rxState_samplingBack_acquiring (silenced s) d hacq i

end
end Sys2Proof.Laws
end

section
/-! SUPPORT. PROOFS. PLLs that lock, fail and stop (O37). -/
namespace Sys2Proof.Laws
open Sys2Proof Sys2Proof.Machine

/-! ### LOCK of a PLL, and its domain (R336) -/

/-- The field that shows the lock of a PLL. -/
def lockFld : Nat → Fld
  | 0 => PWR_STATUS_SAMPLING_LOCK
  | 1 => PWR_STATUS_FABRIC_LOCK
  | _ => PWR_STATUS_ENGINE_LOCK

/-- The registers of a PLL's state. -/
def pllFlds : List Fld := [PWR_DOM_STATE, PWR_STATUS_SAMPLING_LOCK, PWR_STATUS_FABRIC_LOCK, PWR_STATUS_ENGINE_LOCK]

theorem lockFld_cases (p : Nat) :
    lockFld p = PWR_STATUS_SAMPLING_LOCK ∨ lockFld p = PWR_STATUS_FABRIC_LOCK ∨ lockFld p = PWR_STATUS_ENGINE_LOCK := by
  match p with
  | 0 => exact .inl rfl
  | 1 => exact .inr (.inl rfl)
  | _ + 2 => exact .inr (.inr rfl)

theorem lockFld_mem (p : Nat) : lockFld p ∈ pllFlds := by
  rcases lockFld_cases p with h | h | h <;> rw [h] <;> decide

theorem lockFld_w (p : Nat) : (lockFld p).w = 1 := by
  rcases lockFld_cases p with h | h | h <;> rw [h] <;> rfl

theorem lockFld_ne_domain (p : Nat) : place (lockFld p) ≠ place PWR_DOM_STATE := by
  rcases lockFld_cases p with h | h | h <;> rw [h] <;> decide

/-- A PLL's lock is none of the registers that the reference's return writes, nor a summary. -/
theorem lockFld_apart (p : Nat) : place (lockFld p) ∉ (CNV_STATUS_SCLK_LOCK :: backFlds).map place ∧
    place (lockFld p) ∉ lostFlds.map place ∧ place (lockFld p) ∉ summaryPlaces := by
  rcases lockFld_cases p with h | h | h <;> rw [h] <;> decide

section
variable (s : State) (d : Nat)

theorem pllLocked_eq (p : Nat) : s.pllLocked d p = s.flag (lockFld p) d := by
  match p with
  | 0 => rfl
  | 1 => rfl
  | _ + 2 => rfl

theorem setPll_eq (p : Nat) (v : Bool) :
    s.setPll d p v = (s.setDomain d (2 + p) (if v then 0 else 2)).wrb (lockFld p) d v := by
  match p with
  | 0 => rfl
  | 1 => rfl
  | _ + 2 => rfl

theorem touches_setPll (p : Nat) (v : Bool) : Touches pllFlds s (s.setPll d p v) := by
  rw [setPll_eq]
  exact (touches_setDomain s d (by decide) ..).wrb (lockFld_mem p) ..

theorem pllLocked_of_rd {s t : State} {d p : Nat} (h : t.rd (lockFld p) d = s.rd (lockFld p) d) :
    t.pllLocked d p = s.pllLocked d p := by
  rw [pllLocked_eq, pllLocked_eq, State.flag, h, State.flag]

theorem pllLocked_setPll (p : Nat) (v : Bool) : (s.setPll d p v).pllLocked d p = v := by
  rw [pllLocked_eq, setPll_eq, State.flag, rd_wrb_same _ _ _ _ _ (lockFld_w p)]
  cases v <;> rfl

theorem domain_setPll (p : Nat) (v : Bool) : (s.setPll d p v).domain d (2 + p) = if v then 0 else 2 := by
  rw [setPll_eq, domain_of_rd fun j => rd_wrb_other _ (lockFld_ne_domain p).symm ..]
  exact domain_setDomain_same _ _ _ (by split <;> decide)

theorem setPll_domWant (p : Nat) (v : Bool) (k : Nat) : (s.setPll d p v).domWant d k = s.domWant d k := by
  rw [setPll_eq]
  rfl

/-! ### Domains that wait for a PLL -/

/-- A PLL starts no longer. -/
def pllSettled (p : Nat) : State := s.modPwr d fun x => { x with pllRun := setBit x.pllRun p false }

theorem pllSettled_domWant (p k : Nat) : (pllSettled s d p).domWant d k = s.domWant d k := by
  rw [State.domWant, pllSettled, modPwr_pwrSt, State.domWant]

/-- The domains that wait for a PLL are powered. -/
def waitersOn (p : Nat) : State :=
  s.forEach (List.range 58) fun t k => if domPll k = some p then t.domainOn d k else t

/-- A PLL has locked. -/
def pllUp (p : Nat) : State := (pllSettled s d p).setPll d p true

/-- A PLL has not locked in time. -/
def pllDown (p : Nat) : State := (pllSettled s d p).setDomain d (2 + p) 2

theorem touches_pllSettled {fs : List Fld} (p : Nat) : Touches fs s (pllSettled s d p) := .of_regs rfl rfl

theorem touches_pllUp (p : Nat) : Touches pllFlds s (pllUp s d p) :=
  (touches_pllSettled s d p).trans (touches_setPll _ d p true)

theorem touches_pllDown (p : Nat) : Touches [PWR_DOM_STATE] s (pllDown s d p) :=
  (touches_pllSettled s d p).trans (touches_setDomain _ d List.mem_cons_self ..)

theorem pllUp_domWant (p k : Nat) : (pllUp s d p).domWant d k = s.domWant d k := by
  rw [pllUp, setPll_domWant, pllSettled_domWant]

theorem pllDown_domWant (p k : Nat) : (pllDown s d p).domWant d k = s.domWant d k := by
  rw [pllDown, setDomain_domWant, pllSettled_domWant]

theorem pllDown_rest (p : Nat) : pllDown s d p = { s with regs := (pllDown s d p).regs, pwr := (pllDown s d p).pwr } := rfl

theorem pllLock_eq {s : State} {d p : Nat} (h : bit (s.pwrSt d).pllRun p = true) : s.pllLock d p =
    if p = 0 then (waitersOn (pllUp s d p) d p).samplingBack d else waitersOn (pllUp s d p) d p := if_pos h

variable {s d}

theorem domainOn_cases (s : State) (d k : Nat) : s.domainOn d k = s ∨
    s.domainOn d k = domainTaken (s.domainRestart d k) d k 0 := by
  unfold State.domainOn
  split
  · exact iteInduction (motive := fun u => u = s ∨ u = domainTaken (s.domainRestart d k) d k 0) (fun _ => .inr rfl)
      fun _ => .inl rfl
  · exact .inl rfl

theorem domain_domainOn_other {j k : Nat} (h : j ≠ k) : (s.domainOn d k).domain d j = s.domain d j := by
  rcases domainOn_cases s d k with he | he
  · rw [he]
  · rw [he, domain_domainTaken_other _ _ h, domainRestart_domain]

theorem domWant_domainOn_other {j k : Nat} (h : j ≠ k) : (s.domainOn d k).domWant d j = s.domWant d j := by
  rcases domainOn_cases s d k with he | he
  · rw [he]
  · rw [he, domWant_domainTaken_other _ _ h, State.domWant, State.pwrSt, domainRestart_pwr]
    rfl

theorem touches_waitersOn (p : Nat) : Touches [PWR_DOM_STATE] s (waitersOn s d p) :=
  (Touches.refl _ s).forEach _ fun u k _ => .ite (touches_domainOn u d (by decide) k) (.refl _ u)

theorem pllLocked_domainOn (p k : Nat) : (s.domainOn d k).pllLocked d p = s.pllLocked d p :=
  pllLocked_of_rd ((touches_domainOn (fs := [PWR_DOM_STATE]) s d (by decide) k).rd _ _ _ (by
    simpa using lockFld_ne_domain p))

theorem pllLocked_waitersOn (p : Nat) : (waitersOn s d p).pllLocked d p = s.pllLocked d p :=
  pllLocked_of_rd ((touches_waitersOn p).rd _ _ _ (by simpa using lockFld_ne_domain p))

/-- The domain of a PLL needs none. -/
theorem domPll_own {p k : Nat} (hp : p < 3) (h : domPll k = some p) : k ≠ 2 + p := by
  rintro rfl
  have hnone : domPll (2 + p) = none := if_pos (.inr (.inl (by omega)))
  rw [hnone] at h
  cases h

theorem domain_waitersOn_own {p : Nat} (hp : p < 3) : (waitersOn s d p).domain d (2 + p) = s.domain d (2 + p) := by
  refine forEach_keeps (fun u => u.domain d (2 + p)) _ (fun u k _ => ?_) s
  split
  · next hk => exact domain_domainOn_other (domPll_own hp hk).symm
  · rfl

/-- With the PLL locked, every domain that waits for it is on. -/
theorem domain_waitersOn {p k : Nat} (hk : k < 58) (hp : domPll k = some p) (hlock : s.pllLocked d p = true)
    (hwant : s.domWant d k = some 0) : (waitersOn s d p).domain d k = 0 := by
  refine forEach_takes (b := k) (P := fun u => u.pllLocked d p = true ∧ u.domWant d k = some 0)
    (Q := fun u => u.domain d k = 0) (fun u x _ hx hu => ?_) (fun u x _ hx hu => ?_) (fun u hu => ?_)
    (List.mem_range.mpr hk) List.nodup_range ⟨hlock, hwant⟩
  · obtain ⟨hl, hw⟩ := hu
    split
    · exact ⟨(pllLocked_domainOn p x).trans hl, (domWant_domainOn_other hx.symm).trans hw⟩
    · exact ⟨hl, hw⟩
  · split
    · exact (domain_domainOn_other hx.symm).trans hu
    · exact hu
  · obtain ⟨hl, hw⟩ := hu
    have hready : PllReady u d k := fun q hq => by
      rw [hp, Option.some.injEq] at hq
      rwa [← hq]
    rw [if_pos hp, domainOn_ready hw hready]
    exact domain_domainTaken _ _ _ (by decide)

/-- The domains that waited for a PLL stay as given. -/
def waitersStay (s : State) (d p : Nat) (stay : Nat → Nat) : State :=
  s.forEach (List.range 58) fun t k =>
    if domPll k = some p ∧ t.domWant d k = some 0 then domainTaken t d k (stay k) else t

/-- The fault that a PLL which fails reports. -/
def pllFault (p : Nat) : FaultRec := ⟨if p = 1 then 3 else 1, 0, codePllFail, 17, Fin.ofNat 256 p, 0⟩

theorem pllFail_eq {s : State} {d p : Nat} (h : bit (s.pwrSt d).pllRun p = true) : s.pllFail d p =
    ((waitersStay (pllDown s d p) d p (s.domainStay d)).raise PWR_EVENT_PLL_FAIL d).emit
      (.fault d (pllFault p)) := if_pos h

theorem touches_waitersStay (p : Nat) (stay : Nat → Nat) : Touches [PWR_DOM_STATE] s (waitersStay s d p stay) :=
  (Touches.refl _ s).forEach _ fun u k _ => .ite (touches_domainTaken u d (by decide) ..) (.refl _ u)

theorem waitersStay_rest (p : Nat) (stay : Nat → Nat) : waitersStay s d p stay =
    { s with regs := (waitersStay s d p stay).regs, pwr := (waitersStay s d p stay).pwr } := by
  refine forEach_invariant (P := fun u : State => u = { s with regs := u.regs, pwr := u.pwr }) _ (fun u k _ hu => ?_) rfl
  split
  · rw [domainTaken_rest, hu]
  · exact hu

theorem domain_waitersStay_own {p : Nat} (hp : p < 3) (stay : Nat → Nat) :
    (waitersStay s d p stay).domain d (2 + p) = s.domain d (2 + p) := by
  refine forEach_keeps (fun u => u.domain d (2 + p)) _ (fun u k _ => ?_) s
  split
  · next hk => exact domain_domainTaken_other _ _ (domPll_own hp hk.1).symm _
  · rfl

theorem domain_waitersStay {p k : Nat} {stay : Nat → Nat} (hk : k < 58) (hp : domPll k = some p) (hstay : stay k < 4)
    (hwant : s.domWant d k = some 0) : (waitersStay s d p stay).domain d k = stay k := by
  refine forEach_takes (b := k) (P := fun u => u.domWant d k = some 0) (Q := fun u => u.domain d k = stay k)
    (fun u x _ hx hu => ?_) (fun u x _ hx hu => ?_) (fun u hu => ?_) (List.mem_range.mpr hk) List.nodup_range hwant
  · split
    · exact (domWant_domainTaken_other _ _ hx.symm _).trans hu
    · exact hu
  · split
    · exact (domain_domainTaken_other _ _ hx.symm _).trans hu
    · exact hu
  · rw [if_pos ⟨hp, hu⟩]
    exact domain_domainTaken _ _ _ hstay

theorem domainStay_lt (s : State) (d k : Nat) : s.domainStay d k < 4 := by
  unfold State.domainStay
  split
  · decide
  · decide

end

/-! ### Commands of the PLLs (R336, R337) -/

section
variable {s : State} {d : Fin 8} (hd : (d : Nat) < s.part.dies)
include hd

theorem pllLock_powers (p : Fin 3) (hrun : bit (s.pwrSt d).pllRun p = true) : Completes (.pllLock d p) s fun t =>
    t.pllLocked d p = true ∧ t.domain d (2 + p) = 0 ∧
    ∀ k, k < 58 → domPll k = some (p : Nat) → s.domWant d k = some 0 → t.domain d k = 0 := by
  have hon : Touches pllFlds (silenced s) (waitersOn (pllUp (silenced s) d p) d p) :=
    (touches_pllUp ..).trans ((touches_waitersOn (p : Nat)).mono (by decide))
  have hback : Touches (CNV_STATUS_SCLK_LOCK :: backFlds) (waitersOn (pllUp (silenced s) d p) d p)
      (if (p : Nat) = 0 then (waitersOn (pllUp (silenced s) d p) d p).samplingBack d
        else waitersOn (pllUp (silenced s) d p) d p) :=
    .ite (touches_samplingBack_all ..) (.refl _ _)
  have hlocked : (pllUp (silenced s) d p).pllLocked d p = true := pllLocked_setPll ..
  refine completes_dieOp (pllFlds ++ CNV_STATUS_SCLK_LOCK :: backFlds) (fun u => u.pllLock d p) hd
    (pllLock_eq (s := silenced s) hrun) ((hon.mono fun _ h => List.mem_append_left _ h).trans
      (hback.mono fun _ h => List.mem_append_right _ h)) fun t ht => ?_
  have hdom (k : Nat) : t.domain d k = (waitersOn (pllUp (silenced s) d p) d p).domain d k :=
    domain_of_rd fun _ => (ht.rd _ _ _ (by decide)).trans (hback.rd _ _ _ (by decide))
  obtain ⟨hapart, -, hsum⟩ := lockFld_apart p
  refine ⟨?_, ?_, fun k hk hp hwant => ?_⟩
  · rw [pllLocked_of_rd ((ht.rd _ _ _ hsum).trans (hback.rd _ _ _ hapart)), pllLocked_waitersOn, hlocked]
  · rw [hdom, domain_waitersOn_own p.isLt]
    exact domain_setPll ..
  · rw [hdom]
    exact domain_waitersOn hk hp hlocked ((pllUp_domWant ..).trans hwant)

theorem pllLockFail_reports (p : Fin 3) (hrun : bit (s.pwrSt d).pllRun p = true) : Completes (.pllLockFail d p) s fun t =>
    t.rd PWR_EVENT_PLL_FAIL d = 1 ∧ t.domain d (2 + p) = 2 ∧
    (∀ k, k < 58 → domPll k = some (p : Nat) → s.domWant d k = some 0 → t.domain d k = s.domainStay d k) ∧
    (∃ r, t.out = [.fault d r] ∧ r.level = (if (p : Nat) = 1 then 3 else 1) ∧ r.cls = 0 ∧ r.block = 17) ∧
    t = { s with regs := t.regs, pwr := t.pwr, out := t.out } ∧ KeepsRegs [PWR_DOM_STATE, PWR_EVENT_PLL_FAIL] s t := by
  have hstays : Touches [PWR_DOM_STATE, PWR_EVENT_PLL_FAIL] (silenced s)
      (waitersStay (pllDown (silenced s) d p) d p ((silenced s).domainStay d)) :=
    ((touches_pllDown ..).trans (touches_waitersStay ..)).mono (by decide)
  refine completes_dieOp [PWR_DOM_STATE, PWR_EVENT_PLL_FAIL] (fun u => u.pllFail d p) hd (pllFail_eq (s := silenced s) hrun)
    ((hstays.raise (by decide) ..).emit _) fun t ht => ?_
  have hdom (k : Nat) : t.domain d k = (waitersStay (pllDown (silenced s) d p) d p ((silenced s).domainStay d)).domain d k :=
    domain_of_rd fun _ => (ht.rd _ _ _ (by decide)).trans (rd_raise_other _ (by decide) ..)
  refine ⟨?_, ?_, fun k hk hp hwant => ?_, ⟨pllFault p, ?_, rfl, rfl, rfl⟩, ?_, ht.keeps⟩
  · rw [ht.rd _ _ _ (by decide)]
    exact rd_raise_one _ rfl _
  · rw [hdom, domain_waitersStay_own p.isLt]
    exact domain_setDomain_same _ _ _ (by decide)
  · rw [hdom]
    exact domain_waitersStay hk hp (domainStay_lt ..) ((pllDown_domWant ..).trans hwant)
  · rw [ht.rest, waitersStay_rest, pllDown_rest]
    rfl
  · rw [ht.rest, waitersStay_rest, pllDown_rest]
    rfl

theorem samplingPllStop_stops (hoff : ∀ c, c < 8 → s.domain d (5 + c) ≠ 0) (hlock : s.pllLocked d 0 = true) :
    Completes (.samplingPllStop d) s fun t =>
      t.pllLocked d 0 = false ∧ t.domain d 2 = 2 ∧ t.rd CNV_STATUS_SCLK_LOCK d = 0 := by
  have hall : ((List.range 8).all fun c => (silenced s).domain d (5 + c) != 0) = true :=
    List.all_eq_true.mpr fun c hc => bne_iff_ne.mpr (hoff c (List.mem_range.mp hc))
  have hlost := touches_samplingLost ((silenced s).setPll d 0 false) d
  refine completes_dieOp (pllFlds ++ lostFlds) _ hd ((if_pos hall).trans (if_pos hlock))
    (((touches_setPll (silenced s) d 0 false).mono fun _ h => List.mem_append_left _ h).trans
      (hlost.mono fun _ h => List.mem_append_right _ h)) fun t ht => ⟨?_, ?_, ?_⟩
  · obtain ⟨-, hapart, hsum⟩ := lockFld_apart 0
    rw [pllLocked_of_rd ((ht.rd _ _ _ hsum).trans (hlost.rd _ _ _ hapart)), pllLocked_setPll]
  · rw [domain_of_rd fun _ => (ht.rd _ _ _ (by decide)).trans (hlost.rd _ _ _ (by decide))]
    exact domain_setPll (silenced s) d 0 false
  · rw [ht.rd _ _ _ (by decide)]
    exact rd_samplingLost_lock ..

end
end Sys2Proof.Laws
end

section
/-! SUPPORT. PROOFS. Dormant arms that turn off (O37). -/
namespace Sys2Proof.Laws
open Sys2Proof Sys2Proof.Machine

/-- The registers of a domain that is asked for. -/
def wakeFlds : List Fld := [PWR_DOM_STATE, CNV_STATUS_SOURCE, CNV_EVENT_SCLK_MISMATCH]

section
variable (s : State) (d i : Nat)

theorem touches_sclkSource : Touches wakeFlds s (s.sclkSource d) := by
  have hsource := (Touches.refl wakeFlds s).wr (f := CNV_STATUS_SOURCE) (by decide) d (s.rd CNV_SCLK_CTRL_SOURCE 0) 0
  exact .ite hsource (hsource.raise (by decide) ..)

theorem touches_modPwr {fs : List Fld} (f : PwrSt → PwrSt) : Touches fs s (s.modPwr d f) := .of_regs rfl rfl

theorem touches_startPll (p : Nat) : Touches wakeFlds s (s.startPll d p) := by
  have hsource : Touches wakeFlds s (if p = 0 then s.sclkSource d else s) := .ite (touches_sclkSource s d) (.refl _ s)
  exact .ite (.refl _ s) ((hsource.trans (touches_modPwr ..)).trans (touches_setDomain _ d (by decide) ..))

theorem touches_wake (k : Nat) : Touches wakeFlds s (s.wake d k) := by
  have hasked : Touches wakeFlds s ((s.setWant d k (some 0)).setDomain d k 3) :=
    (touches_setWant s d k (some 0)).trans (touches_setDomain _ d (by decide) ..)
  unfold State.wake
  split
  · exact touches_setWant ..
  · dsimp only
    split
    · exact hasked.trans (touches_startPll ..)
    · exact hasked

theorem touches_sink {fs : List Fld} (k v : Nat) : Touches fs s (s.sink d k v) :=
  .ite (touches_setWant ..) (touches_setWant ..)

/-- Only registers and the records of wake controllers differ. -/
def MovesPower (s t : State) : Prop := t = { s with regs := t.regs, pwr := t.pwr }

variable {s} in
theorem MovesPower.trans {t u : State} (a : MovesPower s t) (b : MovesPower t u) : MovesPower s u := by
  unfold MovesPower at *
  rw [b, a]

theorem movesPower_wake (k : Nat) : MovesPower s (s.wake d k) := wake_rest s d k

theorem movesPower_sink (k v : Nat) : MovesPower s (s.sink d k v) := by
  unfold MovesPower
  rw [sink_rest]

theorem touches_txDomain : Touches wakeFlds s (txDomain d s i) := by
  unfold txDomain
  split
  · exact touches_sink ..
  · exact touches_sink ..
  · exact touches_wake ..

theorem touches_rxDomain : Touches wakeFlds s (rxDomain d s i) := by
  unfold rxDomain
  split
  · exact touches_sink ..
  · exact touches_sink ..
  · exact touches_wake ..

theorem movesPower_txDomain : MovesPower s (txDomain d s i) := by
  unfold txDomain
  split
  · exact movesPower_sink ..
  · exact movesPower_sink ..
  · exact movesPower_wake ..

theorem movesPower_rxDomain : MovesPower s (rxDomain d s i) := by
  unfold rxDomain
  split
  · exact movesPower_sink ..
  · exact movesPower_sink ..
  · exact movesPower_wake ..

theorem touches_armDomains : Touches wakeFlds s (s.armDomains d) :=
  (Touches.refl _ s).forEach _ fun u x _ => (touches_txDomain u d x).trans (touches_rxDomain ..)

theorem movesPower_armDomains : MovesPower s (s.armDomains d) := by
  rw [armDomains_eq]
  exact forEach_invariant (P := MovesPower s) _ (fun u x _ hu => (hu.trans (movesPower_txDomain u d x)).trans
    (movesPower_rxDomain _ d x)) rfl

/-! ### Arms that turn off (R344) -/

/-- A dormant transmit arm turns off. -/
def txDarkened (s : State) (d i : Nat) : State := if s.txState d i = 4 then s.txStop d i false else s

/-- A dormant receive arm turns off. -/
def rxDarkened (s : State) (d i : Nat) : State := if s.rxState d i = 5 then s.stopArm d i false else s

theorem txStop_eq : s.txStop d i false = (txShown s d i 0).modTx d i fun a => { a with waking := false, due := false } := by
  have hoff : s.setTxState d i 0 = txShown s d i 0 := if_neg (by simp)
  rw [State.txStop, ← hoff]
  rfl

theorem touches_txDarkened : Touches txFlds s (txDarkened s d i) := by
  unfold txDarkened
  split
  · rw [txStop_eq]
    exact (touches_txShown s d i 0).regs rfl rfl
  · exact .refl _ s

theorem stopArm_eq : s.stopArm d i false =
    (s.setRxState d i 0).modRx d i fun a => { snr := a.snr, tracked := a.tracked, mixed := a.mixed } := rfl

theorem touches_rxDarkened : Touches [RXD_SC_STATUS_STATE] s (rxDarkened s d i) := by
  unfold rxDarkened
  split
  · rw [stopArm_eq]
    exact (touches_setRxState_state s d i (by decide) 0).trans (touches_modRx ..)
  · exact .refl _ s

theorem txState_txDarkened (h : s.txState d i = 4) : (txDarkened s d i).txState d i = 0 := by
  rw [txDarkened, if_pos h, txStop_eq]
  exact txState_txShown s d i 0 (by decide)

theorem rxState_rxDarkened (h : s.rxState d i = 5) : (rxDarkened s d i).rxState d i = 0 := by
  rw [rxDarkened, if_pos h, stopArm_eq]
  exact rxState_setRxState s d i (by decide)

theorem txDarkened_rest : txDarkened s d i =
    { s with regs := (txDarkened s d i).regs, txArms := (txDarkened s d i).txArms } := by
  unfold txDarkened
  split
  · rw [txStop_eq, txShown_rest]
    rfl
  · rfl

theorem rxDarkened_rest : rxDarkened s d i =
    { s with regs := (rxDarkened s d i).regs, rxArms := (rxDarkened s d i).rxArms } := by
  unfold rxDarkened
  split
  · rw [stopArm_eq, setRxState_rest]
    rfl
  · rfl

/-- The arms of a subcarrier turn off, and their domains follow. -/
def armsDarkened (s : State) (d i : Nat) : State := (rxDarkened (txDarkened s d i) d i).armDomains d

/-- The registers of arms that turn off. -/
def darkFlds : List Fld := txFlds ++ RXD_SC_STATUS_STATE :: wakeFlds

theorem touches_bothDarkened : Touches darkFlds s (rxDarkened (txDarkened s d i) d i) :=
  ((touches_txDarkened s d i).mono (by decide)).trans ((touches_rxDarkened ..).mono (by decide))

theorem touches_armsDarkened : Touches darkFlds s (armsDarkened s d i) :=
  (touches_bothDarkened s d i).trans ((touches_armDomains ..).mono (by decide))

theorem armsDarkened_rest : armsDarkened s d i = { s with
    regs := (armsDarkened s d i).regs, rxArms := (armsDarkened s d i).rxArms, txArms := (armsDarkened s d i).txArms
    pwr := (armsDarkened s d i).pwr } := by
  have hdom : armsDarkened s d i = { rxDarkened (txDarkened s d i) d i with
      regs := (armsDarkened s d i).regs, pwr := (armsDarkened s d i).pwr } := movesPower_armDomains ..
  rw [hdom, rxDarkened_rest, txDarkened_rest]

theorem txState_armsDarkened (h : s.txState d i = 4) : (armsDarkened s d i).txState d i = 0 := by
  rw [State.txState, armsDarkened, (touches_armDomains ..).rd _ _ _ (by decide), (touches_rxDarkened ..).rd _ _ _ (by decide)]
  exact txState_txDarkened s d i h

theorem rxState_armsDarkened (h : s.rxState d i = 5) : (armsDarkened s d i).rxState d i = 0 := by
  have hrx : (txDarkened s d i).rxState d i = 5 := by
    rwa [State.rxState, (touches_txDarkened ..).rd _ _ _ (by decide)]
  rw [State.rxState, armsDarkened, (touches_armDomains ..).rd _ _ _ (by decide)]
  exact rxState_rxDarkened _ d i hrx

end

section
variable {s : State} {d : Fin 8} (hd : (d : Nat) < s.part.dies) (i : Fin 8)
include hd

theorem armsOffAfter_never (hoff : s.rd PKG_PWR_CFG_OFF_AFTER pkg = 0) : Completes (.armsOffAfter d i) s (OnlyRegs [] s) :=
  completes_runDie s hd (onlyRegs_ran_of_fixed (if_pos hoff))

theorem armsOffAfter_darkens (hoff : s.rd PKG_PWR_CFG_OFF_AFTER pkg ≠ 0) : Completes (.armsOffAfter d i) s fun t =>
    (s.txState d i = 4 → t.txState d i = 0) ∧ (s.rxState d i = 5 → t.rxState d i = 0) ∧
    t = { s with regs := t.regs, rxArms := t.rxArms, txArms := t.txArms, pwr := t.pwr, out := t.out } := by
  have hop : (if (silenced s).rd PKG_PWR_CFG_OFF_AFTER pkg = 0 then silenced s else armsDarkened (silenced s) d i) =
      armsDarkened (silenced s) d i := if_neg hoff
  refine completes_dieOp darkFlds _ hd hop (touches_armsDarkened ..) fun t ht => ⟨fun h => ?_, fun h => ?_, ?_⟩
  · rw [State.txState, ht.rd _ _ _ (by decide)]
    exact txState_armsDarkened (silenced s) d i h
  · rw [State.rxState, ht.rd _ _ _ (by decide)]
    exact rxState_armsDarkened (silenced s) d i h
  · have hrest := armsDarkened_rest (silenced s) d i
    generalize armsDarkened (silenced s) d i = u at ht hrest
    rw [ht.rest, hrest]
    rfl

end
end Sys2Proof.Laws
end

section
/-! SUPPORT. PROOFS. The end of a window of the power manager with AUTO off, and the obligation (O37). -/
namespace Sys2Proof.Laws
open Sys2Proof Sys2Proof.Machine

/-! ### What judging leaves (R341, R346) -/

/-- Only some registers and the manager's records differ, and every step stands. -/
structure Judges (fs : List Fld) (s t : State) : Prop where
  touches : Touches fs s t
  rest : t = { s with regs := t.regs, mgr := t.mgr, flowPwr := t.flowPwr }
  steps : ∀ b, (t.mgrSt b).step = (s.mgrSt b).step

section
variable {fs : List Fld} {s t u : State}

theorem Judges.refl (fs : List Fld) (s : State) : Judges fs s s := ⟨.refl fs s, rfl, fun _ => rfl⟩

theorem Judges.trans (a : Judges fs s t) (b : Judges fs t u) : Judges fs s u :=
  ⟨a.touches.trans b.touches, by rw [b.rest, a.rest], fun x => (b.steps x).trans (a.steps x)⟩

theorem Judges.mono {gs : List Fld} (a : Judges fs s t) (h : ∀ f ∈ fs, f ∈ gs) : Judges gs s t :=
  ⟨a.touches.mono h, a.rest, a.steps⟩

theorem Judges.wr (a : Judges fs s t) {f : Fld} (hf : f ∈ fs) (d v k : Nat) : Judges fs s (t.wr f d v k) :=
  a.trans ⟨(Touches.refl fs t).wr hf .., rfl, fun _ => rfl⟩

theorem Judges.wrb (a : Judges fs s t) {f : Fld} (hf : f ∈ fs) (d k : Nat) (b : Bool) : Judges fs s (t.wrb f d b k) :=
  a.wr hf ..

theorem Judges.raise (a : Judges fs s t) {f : Fld} (hf : f ∈ fs) (d m k : Nat) : Judges fs s (t.raise f d m k) :=
  a.wr hf ..

theorem Judges.modFlowPwr (a : Judges fs s t) (d i : Nat) (f : FlowPwr → FlowPwr) : Judges fs s (t.modFlowPwr d i f) :=
  a.trans ⟨.of_regs rfl rfl, rfl, fun _ => rfl⟩

/-- A change of the manager's record that leaves its step. -/
theorem Judges.modMgr (a : Judges fs s t) (b : Nat) {f : MgrSt → MgrSt} (hf : ∀ x, (f x).step = x.step) :
    Judges fs s (t.modMgr b f) := by
  refine a.trans ⟨.of_regs rfl rfl, rfl, fun c => ?_⟩
  by_cases hc : c = b
  · subst hc
    exact (congrArg MgrSt.step (modMgr_mgrSt t c f)).trans (hf _)
  · exact congrArg MgrSt.step (modMgr_mgrSt_other t hc f)

theorem Judges.ite {c : Prop} [Decidable c] (a : Judges fs s t) (b : Judges fs s u) : Judges fs s (if c then t else u) := by
  split
  · exact a
  · exact b

theorem Judges.forEach {α : Type} (a : Judges fs s t) (xs : List α) {f : State → α → State}
    (h : ∀ u x, Judges fs u (f u x)) : Judges fs s (t.forEach xs f) :=
  forEach_invariant (P := Judges fs s) xs (fun u x _ hu => hu.trans (h u x)) a

end

/-! ### Rates of a window (R342) -/

/-- The rate measured of a flow last, 0 where none was. -/
def lastRate (rates : List (Fin 8 × Fin 512 × Fin 65536)) (e : Fin 8) (f : Fin 512) : Nat :=
  ((rates.filter fun r => r.1 = e ∧ r.2.1 = f).getLast?.map fun r => (r.2.2 : Nat)).getD 0

/-- One rate is stored. -/
def rateStored (s : State) (r : Nat × Nat × Nat) : State :=
  if r.1 < s.dieCount then s.wr PWR_FLOW_RATE r.1 r.2.2 r.2.1 else s

/-- A key names a rate. -/
def rateKey (k : Key) : Bool := k.blk == PWR_FLOW_RATE.blk && k.reg == PWR_FLOW_RATE.reg && k.lo == PWR_FLOW_RATE.lo

/-- The rates of the last window are cleared. -/
def ratesCleared (s : State) : State := { s with regs := s.regs.keep fun k => !rateKey k }

/-- A row's rates as the window takes them. -/
def rateRows (rates : List (Fin 8 × Fin 512 × Fin 65536)) : List (Nat × Nat × Nat) :=
  rates.map fun r => (r.1.val, r.2.1.val, r.2.2.val)

section
variable (s : State) (rates : List (Fin 8 × Fin 512 × Fin 65536))

theorem takeRates_eq (rows : List (Nat × Nat × Nat)) : s.takeRates rows = (ratesCleared s).forEach rows rateStored := rfl

theorem touches_rateStored (r : Nat × Nat × Nat) : Touches [PWR_FLOW_RATE] s (rateStored s r) :=
  .ite ((Touches.refl _ s).wr (by decide) ..) (.refl _ s)

theorem takeRates_rest (rows : List (Nat × Nat × Nat)) :
    s.takeRates rows = { s with regs := (s.takeRates rows).regs } := by
  rw [takeRates_eq]
  refine forEach_invariant (P := fun u : State => u = { s with regs := u.regs }) _ (fun u r _ hu => ?_) rfl
  unfold rateStored
  split
  · rw [hu]
    rfl
  · exact hu

theorem ratesCleared_regs : (ratesCleared s).regs = s.regs.keep fun k => !rateKey k := rfl

theorem rateReset (k : Nat) : PWR_FLOW_RATE.reset s.part.isX k = 0 := by
  have hsuffix : (if s.part.isX then PWR_FLOW_RATE.sfx else 0) = 0 := ite_self 0
  rw [Fld.reset, hsuffix]
  cases k with
  | zero => rfl
  | succ k => rfl

theorem rd_ratesCleared (d k : Nat) : (ratesCleared s).rd PWR_FLOW_RATE d k = 0 := by
  rw [rd_of_keep (ratesCleared_regs s) rfl, if_neg (by rw [show rateKey (PWR_FLOW_RATE.key d k) = true from rfl]; decide)]
  exact rateReset s k

/-- The other fields of the power manager and its controllers stand. -/
theorem rd_takeRates (rows : List (Nat × Nat × Nat)) {g : Fld} (hplace : place g ≠ place PWR_FLOW_RATE)
    {d k : Nat} (hg : rateKey (g.key d k) = false) :
    (s.takeRates rows).rd g d k = s.rd g d k := by
  have hkept : (ratesCleared s).rd g d k = s.rd g d k :=
    (rd_of_keep (ratesCleared_regs s) rfl g d k).trans (if_pos (by rw [hg]; rfl))
  rw [takeRates_eq, ← hkept]
  exact ((Touches.refl [PWR_FLOW_RATE] _).forEach rows fun u r _ => touches_rateStored u r).rd _ _ _ (by simpa using hplace)

theorem lastRate_append (r : Fin 8 × Fin 512 × Fin 65536) (e : Fin 8) (f : Fin 512) :
    lastRate (rates ++ [r]) e f = if r.1 = e ∧ r.2.1 = f then (r.2.2 : Nat) else lastRate rates e f := by
  unfold lastRate
  rw [List.filter_append]
  by_cases h : r.1 = e ∧ r.2.1 = f
  · simp [h]
  · simp [h]

/-- RATE reads what was measured last in the window. -/
theorem rd_takeRates_rate (e : Fin 8) (f : Fin 512) (he : (e : Nat) < s.part.dies) :
    (s.takeRates (rateRows rates)).rd PWR_FLOW_RATE e f = lastRate rates e f := by
  rw [takeRates_eq]
  induction rates using List.reverseRecOn with
  | nil => exact rd_ratesCleared ..
  | append_singleton rates r ih =>
    have hparts : ((ratesCleared s).forEach (rateRows rates) rateStored).part = s.part := by
      rw [← takeRates_eq, takeRates_rest]
    have hlast : (ratesCleared s).forEach (rateRows (rates ++ [r])) rateStored =
        rateStored ((ratesCleared s).forEach (rateRows rates) rateStored) (r.1.val, r.2.1.val, r.2.2.val) := by
      simp [rateRows, State.forEach]
    rw [hlast, lastRate_append]
    generalize (ratesCleared s).forEach (rateRows rates) rateStored = u at ih hparts
    by_cases h : r.1 = e ∧ r.2.1 = f
    · obtain ⟨rfl, rfl⟩ := h
      rw [if_pos ⟨rfl, rfl⟩, rateStored, if_pos (by rw [State.dieCount, hparts]; exact he), rd_wr_same]
      exact Nat.mod_eq_of_lt r.2.2.isLt
    · rw [if_neg h, ← ih]
      unfold rateStored
      split
      · by_cases hd : r.1 = e
        · exact rd_wr_elem _ _ _ (fun hf => h ⟨hd, Fin.ext hf.symm⟩) ..
        · exact rd_wr_inst _ _ _ (fun hf => hd (Fin.ext hf.symm)) ..
      · rfl

end

/-! ### The temperature is judged (R346) -/

/-- The registers of a judgement. -/
def judgeFlds : List Fld := [PWR_EVENT_THERM, PKG_PWR_STATUS_IDLE, PKG_PWR_STATUS_SHEDDING, PWR_EVENT_WAIT_HOST]

/-- The registers of a window's end, but for the rates. -/
def windowFlds : List Fld :=
  [PWR_STATUS_ESTIMATE, PKG_PWR_STATUS_ESTIMATE, PKG_PWR_STATUS_THERM_WARN, PKG_PWR_STATUS_THERM_CRIT] ++ judgeFlds

/-- The manager is off and has no step open. -/
def ManagerOff (s : State) : Prop := s.flag PKG_PWR_CTRL_AUTO pkg = false ∧ ∀ b, b < 8 → (s.mgrSt b).step = none

/-- The temperature as its flags show it. -/
def thermShown (s : State) : State :=
  (s.wrb PKG_PWR_STATUS_THERM_WARN pkg (decide (8 * (s.rd PKG_PWR_THERM_WARN pkg : Int) ≤ s.temperature))).wrb
    PKG_PWR_STATUS_THERM_CRIT pkg (decide (8 * (s.rd PKG_PWR_THERM_CRIT pkg : Int) ≤ s.temperature))

/-- A limit has been reached that was not. -/
def thermReached (s : State) : Bool :=
  (decide (8 * (s.rd PKG_PWR_THERM_WARN pkg : Int) ≤ s.temperature) && !s.flag PKG_PWR_STATUS_THERM_WARN pkg) ||
    (decide (8 * (s.rd PKG_PWR_THERM_CRIT pkg : Int) ≤ s.temperature) && !s.flag PKG_PWR_STATUS_THERM_CRIT pkg)

/-- The event of a limit reached, and the manager's note of the heat. -/
def thermNoted (s : State) (reached warn : Bool) : State :=
  let s := if reached then s.raise PWR_EVENT_THERM s.mgrDie else s
  s.modMgr pkg fun x => { x with hot := warn || (x.hot && !s.cool) }

section
variable {s : State}

theorem ManagerOff.of_judges {t : State} {fs : List Fld} (h : ManagerOff s) (a : Judges fs s t)
    (hfs : place PKG_PWR_CTRL_AUTO ∉ fs.map place) : ManagerOff t := by
  obtain ⟨hauto, hstep⟩ := h
  exact ⟨by rwa [State.flag, a.touches.rd _ _ _ hfs], fun b hb => (a.steps b).trans (hstep b hb)⟩

theorem judges_thermShown (s : State) : Judges windowFlds s (thermShown s) :=
  ((Judges.refl _ s).wrb (by decide) ..).wrb (by decide) ..

theorem judges_thermNoted (s : State) (reached warn : Bool) : Judges judgeFlds s (thermNoted s reached warn) := by
  have hevent : Judges judgeFlds s (if reached then s.raise PWR_EVENT_THERM s.mgrDie else s) :=
    .ite ((Judges.refl _ s).raise (by decide) ..) (.refl _ s)
  unfold thermNoted
  exact Judges.modMgr hevent _ fun _ => rfl

theorem mem_teamBases {s : State} {b : Nat} (h : b ∈ s.teamBases) : b < 8 :=
  (List.mem_range.mp (List.mem_of_mem_filter h)).trans_le (dies_le s.part)

/-- No step is open, so none closes. -/
theorem judges_closeSteps (h : ManagerOff s) : Judges judgeFlds s s.closeSteps := by
  have hsame : ∀ {f : State → Nat → State}, (∀ b, b ∈ s.teamBases → f s b = s) → s.forEach s.teamBases f = s :=
    fun {f} hf => forEach_invariant (P := fun u => u = s) _ (fun u b hb hu => by rw [hu, hf b hb]) rfl
  unfold State.closeSteps
  split
  · exact .refl _ s
  · rw [hsame fun b hb => by rw [h.2 b (mem_teamBases hb)]]
    exact (Judges.refl _ s).wrb (by decide) ..

theorem critShed_off (h : s.flag PKG_PWR_CTRL_AUTO pkg = false) : s.critShed = s :=
  if_pos (by rw [h]; simp)

theorem thermal_off (h : s.flag PKG_PWR_CTRL_AUTO pkg = false) : s.thermal =
    (thermNoted (thermShown s) (thermReached s)
      (decide (8 * (s.rd PKG_PWR_THERM_WARN pkg : Int) ≤ s.temperature))).closeSteps.critShed := by
  have hfresh : (decide (8 * (s.rd PKG_PWR_THERM_CRIT pkg : Int) ≤ s.temperature) &&
      !s.flag PKG_PWR_STATUS_THERM_CRIT pkg && s.flag PKG_PWR_CTRL_AUTO pkg) = false := by rw [h, Bool.and_false]
  unfold State.thermal
  dsimp only
  rw [hfresh, if_neg Bool.false_ne_true]
  rfl

/-- What follows the flags. -/
theorem judges_thermal (h : ManagerOff s) : Judges judgeFlds (thermShown s) s.thermal := by
  have hnoted := judges_thermNoted (thermShown s) (thermReached s)
    (decide (8 * (s.rd PKG_PWR_THERM_WARN pkg : Int) ≤ s.temperature))
  have hoff := (h.of_judges (judges_thermShown s) (by decide)).of_judges hnoted (by decide)
  have hclosed := judges_closeSteps hoff
  rw [thermal_off h.1, critShed_off (hoff.of_judges hclosed (by decide)).1]
  exact hnoted.trans hclosed

theorem rd_thermShown (s : State) :
    (thermShown s).rd PKG_PWR_STATUS_THERM_WARN pkg =
      b2n (decide (8 * (s.rd PKG_PWR_THERM_WARN pkg : Int) ≤ s.temperature)) ∧
    (thermShown s).rd PKG_PWR_STATUS_THERM_CRIT pkg =
      b2n (decide (8 * (s.rd PKG_PWR_THERM_CRIT pkg : Int) ≤ s.temperature)) :=
  ⟨(rd_wrb_other _ (by decide) ..).trans (rd_wrb_same _ _ _ _ _ rfl), rd_wrb_same _ _ _ _ _ rfl⟩

/-! ### The rest of a window (R341) -/

theorem judges_showEstimate (s : State) : Judges windowFlds s s.showEstimate :=
  ((Judges.refl _ s).forEach _ fun u _ => (Judges.refl _ u).wr (by decide) ..).wr (by decide) ..

/-- The counts of a team at a window's end. -/
def teamCounted (s : State) (b : Nat) (dirty : Bool) : State :=
  (((s.wakeSettled b).countSpare b).countSurplus b).modMgr b fun x =>
    { x with holdoff := x.holdoff - 1, dirty := if dirty then x.dirty + 1 else 0 }

theorem judges_wakeSettled (s : State) (b : Nat) : Judges judgeFlds s (s.wakeSettled b) := by
  unfold State.wakeSettled
  split
  · exact .ite ((Judges.refl _ s).modMgr _ fun _ => rfl) (.refl _ s)
  · exact .refl _ s

theorem judges_countSpare (s : State) (b : Nat) : Judges judgeFlds s (s.countSpare b) := by
  unfold State.countSpare
  refine Judges.modMgr (.refl _ s) _ ?_
  exact fun _ => rfl

theorem judges_countSurplus (s : State) (b : Nat) : Judges judgeFlds s (s.countSurplus b) :=
  (Judges.refl _ s).forEach _ fun u _ => (Judges.refl _ u).modFlowPwr ..

theorem judges_teamCounted (s : State) (b : Nat) (dirty : Bool) : Judges judgeFlds s (teamCounted s b dirty) :=
  (((judges_wakeSettled s b).trans (judges_countSpare ..)).trans (judges_countSurplus ..)).modMgr _ fun _ => rfl

/-- What a window's end shows and counts before a team may take a step. -/
def windowCounted (s : State) : State :=
  let s := s.wrb PKG_PWR_STATUS_SHEDDING pkg (s.overEnvelope || (s.mgrSt pkg).hot || (s.mgrSt pkg).critDue)
  let dirty := s.dieList.any s.dirty
  let s := s.forEach s.teamBases fun u b => teamCounted u b dirty
  if s.flag PKG_PWR_CTRL_AUTO pkg && s.teamBases.any (fun t => decide (4 ≤ (s.mgrSt t).dirty)) then
    s.raise PWR_EVENT_WAIT_HOST s.mgrDie
  else s

/-- The teams that may take a step take it. -/
def windowSteps (s : State) : State :=
  if !s.shedStep.isEmpty then s.shedFlows s.shedStep
  else s.forEach s.teamBases fun u t => if u.mayStep t then u.teamStep t else u

/-- The crown counts the window since the last shed. -/
def windowSince (s : State) : State := s.modMgr pkg fun x => { x with since := x.since + 1 }

theorem judges_windowSince {fs : List Fld} (s : State) : Judges fs s (windowSince s) := by
  refine Judges.modMgr (.refl _ s) _ ?_
  exact fun _ => rfl

theorem window_eq (s : State) (rows : List (Nat × Nat × Nat)) : s.window rows =
    if (s.takeRates rows).showEstimate.crown.token.isNone then (s.takeRates rows).showEstimate
    else windowSteps (windowCounted (windowSince (s.takeRates rows).showEstimate).thermal) := rfl

theorem judges_windowCounted (s : State) : Judges judgeFlds s (windowCounted s) := by
  have hcounted (on dirty : Bool) (bs : List Nat) : Judges judgeFlds s
      ((s.wrb PKG_PWR_STATUS_SHEDDING pkg on).forEach bs fun u b => teamCounted u b dirty) :=
    ((Judges.refl _ s).wrb (by decide) ..).forEach _ fun u b => judges_teamCounted u b dirty
  exact .ite ((hcounted ..).raise (by decide) ..) (hcounted ..)

theorem mayStep_off (h : s.flag PKG_PWR_CTRL_AUTO pkg = false) (b : Nat) : s.mayStep b = false := by
  simp [State.mayStep, h]

/-- With AUTO off no team takes a step and nothing is shed. -/
theorem windowSteps_off (h : s.flag PKG_PWR_CTRL_AUTO pkg = false) : windowSteps s = s := by
  have hnone : s.teamBases.filter s.mayStep = [] :=
    List.filter_eq_nil_iff.mpr fun b _ => ne_true_of_eq_false (mayStep_off h b)
  have hshed : s.shedStep = [] := by
    unfold State.shedStep
    dsimp only
    split
    · rw [hnone, List.flatMap_nil]
    · rfl
  rw [windowSteps, hshed]
  exact forEach_invariant (P := fun u => u = s) _ (fun u b _ hu => by
    rw [hu, mayStep_off h, if_neg Bool.false_ne_true]) rfl

/-- What the window's end leaves after the estimate, and after the flags. -/
theorem judges_window {u : State} (h : ManagerOff u) :
    Judges judgeFlds (thermShown (windowSince u)) (windowSteps (windowCounted (windowSince u).thermal)) := by
  have hoff := h.of_judges (judges_windowSince (fs := []) u) (by decide)
  have hall := (judges_thermal hoff).trans (judges_windowCounted _)
  rw [windowSteps_off ((hoff.of_judges (judges_thermShown _) (by decide)).of_judges hall (by decide)).1]
  exact hall

theorem judges_windowAll {u : State} (h : ManagerOff u) :
    Judges windowFlds u (windowSteps (windowCounted (windowSince u).thermal)) :=
  ((judges_windowSince u).trans (judges_thermShown (windowSince u))).trans
    ((judges_window h).mono (by decide))

/-! ### The obligation -/

/-- The window's end as the manager stores the rates and the estimate. -/
def windowRated (s : State) (rows : List (Nat × Nat × Nat)) : State := (s.takeRates rows).showEstimate

theorem windowRated_rest (s : State) (rows : List (Nat × Nat × Nat)) : windowRated s rows =
    { s with regs := (windowRated s rows).regs, mgr := (windowRated s rows).mgr, flowPwr := (windowRated s rows).flowPwr } := by
  have hshown := (judges_showEstimate (s.takeRates rows)).rest
  rw [windowRated, hshown, takeRates_rest]

theorem managerOff_windowRated {rows : List (Nat × Nat × Nat)} (h : ManagerOff s) : ManagerOff (windowRated s rows) := by
  obtain ⟨hauto, hstep⟩ := h
  refine ManagerOff.of_judges ⟨?_, fun b hb => ?_⟩ (judges_showEstimate (s.takeRates rows)) (by decide)
  · rwa [State.flag, rd_takeRates _ _ (by decide) (by decide)]
  · rw [State.mgrSt, takeRates_rest]
    exact hstep b hb

theorem rd_windowRated {rows : List (Nat × Nat × Nat)} {g : Fld} (hplace : place g ≠ place PWR_FLOW_RATE)
    (hwin : place g ∉ windowFlds.map place) {d k : Nat} (hg : rateKey (g.key d k) = false) :
    (windowRated s rows).rd g d k = s.rd g d k :=
  ((judges_showEstimate _).touches.rd _ _ _ hwin).trans (rd_takeRates _ _ hplace hg)

theorem temperature_windowRated (rows : List (Nat × Nat × Nat)) :
    (windowSince (windowRated s rows)).temperature = s.temperature := by
  rw [windowRated_rest]
  rfl

/-- A window's end differs from the state after the rates by what the manager judges. -/
theorem judges_windowEnd {rows : List (Nat × Nat × Nat)} (h : ManagerOff s) :
    Judges windowFlds (windowRated s rows) (s.window rows) := by
  rw [window_eq]
  exact .ite (.refl _ _) (judges_windowAll (managerOff_windowRated h))

theorem rd_window_rate (rates : List (Fin 8 × Fin 512 × Fin 65536)) (h : ManagerOff s) (e : Fin 8) (f : Fin 512)
    (he : (e : Nat) < s.part.dies) : (s.window (rateRows rates)).rd PWR_FLOW_RATE e f = lastRate rates e f := by
  rw [(judges_windowEnd h).touches.rd _ _ _ (by decide), windowRated,
    (judges_showEstimate _).touches.rd _ _ _ (by decide), rd_takeRates_rate _ _ _ _ he]

theorem window_rest {rows : List (Nat × Nat × Nat)} (h : ManagerOff s) : s.window rows = { s with
    regs := (s.window rows).regs, mgr := (s.window rows).mgr, flowPwr := (s.window rows).flowPwr } := by
  rw [(judges_windowEnd h).rest, windowRated_rest]

/-- The flags follow the temperature where a crown judges it. -/
theorem rd_window_therm {rows : List (Nat × Nat × Nat)} (h : ManagerOff s) (htok : s.crown.token.isSome = true) :
    (s.window rows).rd PKG_PWR_STATUS_THERM_WARN pkg =
      b2n (decide (8 * (s.rd PKG_PWR_THERM_WARN pkg : Int) ≤ s.temperature)) ∧
    (s.window rows).rd PKG_PWR_STATUS_THERM_CRIT pkg =
      b2n (decide (8 * (s.rd PKG_PWR_THERM_CRIT pkg : Int) ≤ s.temperature)) := by
  have hcrown : (windowRated s rows).crown.token.isNone = false := by
    rw [windowRated_rest]
    simpa using htok
  have hwindow : s.window rows = windowSteps (windowCounted (windowSince (windowRated s rows)).thermal) := by
    rw [window_eq]
    exact if_neg (ne_true_of_eq_false hcrown)
  have hjudged := judges_window (managerOff_windowRated (rows := rows) h)
  obtain ⟨hwarn, hcrit⟩ := rd_thermShown (windowSince (windowRated s rows))
  rw [temperature_windowRated, (judges_windowSince (fs := []) _).touches.rd _ _ _ (by decide),
    rd_windowRated (by decide) (by decide) (by decide)] at hwarn hcrit
  rw [hwindow, hjudged.touches.rd _ _ _ (by decide), hjudged.touches.rd _ _ _ (by decide)]
  exact ⟨hwarn, hcrit⟩

end

theorem pwrWindow_judges {s : State} {rates : List (Fin 8 × Fin 512 × Fin 65536)} (hauto : s.rd PKG_PWR_CTRL_AUTO pkg = 0)
    (hstep : ∀ b, b < 8 → (s.mgrSt b).step = none) : Completes (.pwrWindow rates) s fun t =>
      (∀ (e : Fin 8) (f : Fin 512), (e : Nat) < s.part.dies → t.rd PWR_FLOW_RATE e f = lastRate rates e f) ∧
      (s.crown.token.isSome = true →
        t.rd PKG_PWR_STATUS_THERM_WARN pkg = b2n (decide (8 * (s.rd PKG_PWR_THERM_WARN pkg : Int) ≤ s.temperature)) ∧
        t.rd PKG_PWR_STATUS_THERM_CRIT pkg = b2n (decide (8 * (s.rd PKG_PWR_THERM_CRIT pkg : Int) ≤ s.temperature))) ∧
      t.staged = s.staged ∧ t.txn = s.txn ∧ t.mem = s.mem := by
  have hoff : ManagerOff (silenced s) := ⟨flag_of_rd_zero hauto, hstep⟩
  have hrest := window_rest (rows := rateRows rates) hoff
  have hrate := rd_window_rate rates hoff
  have htherm := rd_window_therm (rows := rateRows rates) hoff
  have hpart : ((silenced s).window (rateRows rates)).part = s.part := (congrArg State.part hrest).trans rfl
  have hrd (g : Fld) (hg : place g ∉ summaryPlaces) (e j : Nat) :
      (ran s fun u => u.window (rateRows rates)).rd g e j = ((silenced s).window (rateRows rates)).rd g e j :=
    rd_ran (f := fun u => u.window (rateRows rates)) hpart hg e j
  refine completes_run s (f := fun u => u.window (rateRows rates)) ⟨fun e f he => ?_, fun htok => ?_, ?_, ?_, ?_⟩
  · exact (hrd _ (by decide) ..).trans (hrate e f he)
  · rw [hrd _ (by decide), hrd _ (by decide)]
    exact htherm htok
  · exact (ran_staged ..).trans ((congrArg State.staged hrest).trans rfl)
  · exact (ran_txn ..).trans ((congrArg State.txn hrest).trans rfl)
  · exact (ran_mem ..).trans ((congrArg State.mem hrest).trans rfl)

/-- Settles O37: domains turn on and off, PLLs lock, fail and stop, the sampling reference goes and returns, dormant arms turn
off, and a window with AUTO off stores rates and judges the temperature. -/
theorem powerDomainsAndWindows : Obligations.PowerDomainsAndWindows :=
  ⟨fun _ _ k hd => ⟨domainPowerOn_on hd k, fun _ => domainPowerOn_waits hd k, fun _ => domainLower_lowers hd k,
      domainLower_waits hd k⟩,
    fun _ _ p hd hrun => ⟨pllLock_powers hd p hrun, pllLockFail_reports hd p hrun⟩,
    fun _ _ hd => ⟨sclkLost_holds hd, sclkReturn_resumes hd, samplingPllStop_stops hd⟩,
    fun _ _ i hd => ⟨armsOffAfter_never hd i, armsOffAfter_darkens hd i⟩,
    fun _ _ hauto hstep => pwrWindow_judges hauto hstep⟩

end Sys2Proof.Laws
end
